-- ==== Sys2Proof/Word.lean ====
section
/-! DEFINITION. The word types of the device and the numbers that name its parts (R7, R18). -/

namespace Sys2Proof

abbrev Byte := BitVec 8
abbrev Word32 := BitVec 32
abbrev Word := BitVec 64
/-- One scratchpad line, or one loft transfer unit: 64 bytes (R77). -/
abbrev Line := BitVec 512
/-- One engine command: 256 bits (R63). -/
abbrev Cmd := BitVec 256

/-- A barn, 0-23. Its number is also the number of its pacing region and of its loft (R7). -/
abbrev Barn := Fin 24
/-- A stall of a barn, 0-47, by its logical number (R3). -/
abbrev StallId := Fin 48
/-- A pacing region: barns 0-23, edges 24-27, hub 28 (R18). -/
abbrev RegionId := Fin 29
/-- An Unnar port, 0-31. -/
abbrev PortId := Fin 32
/-- A job context, 0-7 (R17). -/
abbrev JobId := Fin 8
/-- A host port: 0 port A, 1 port B (R357). -/
abbrev HostPort := Fin 2
/-- A loft bank, 16 × layer + bank (R410). -/
abbrev BankId := Fin 256

end Sys2Proof
end

