-- ==== Sys2Proof/Syntax.lean ====
section
/-! DEFINITION. The commands that the device takes from outside, one constructor per row of the table of operations
and events. -/

namespace Sys2Proof

/-- Who performs a register access (R441, R449). -/
inductive Source where
  | portA | portB | tackroom
  deriving DecidableEq, Repr

/-- The five engines of a stall, by the number PUSH gives them (R63). -/
inductive EngineId where
  | arr | vec | dma | net | lft
  deriving DecidableEq, Repr

def EngineId.num : EngineId → Nat
  | .arr => 1 | .vec => 2 | .dma => 3 | .net => 4 | .lft => 5

/-- A counter: a stall-local or barn sync object, or a gate counter (R68). -/
inductive CtrId where
  | loc (b : Barn) (k : StallId) (i : Fin 64)
  | barn (b : Barn) (i : Fin 2048)
  | gate (i : Fin 8192)
  deriving DecidableEq, Repr

/-- What the check codes show in a read (R48, R84): nature decides it, so the command brings it. `tagError` is an error in the
tag of a scratchpad line that cannot be corrected. -/
inductive EccOutcome where
  | clean | corrected | uncorrectable | tagError
  deriving DecidableEq, Repr

/-- A piece of host memory that the host's completions bring while the command reads it (R372, R373). -/
structure HostPiece where
  addr : Nat
  bytes : List Byte
  deriving DecidableEq, Repr

/-- One error that the check codes show while a command reads protected memory: at place `at_` of
memory `mem`: 0 a word of a scratchpad line, 1 accumulator row (1,024 × array + row), 2 vector lane (256 × lane + register,
mask m being register 32 + m), 3 loft block, 4 the tag of a scratchpad line; correctable or not. -/
structure EccHit where
  mem : Nat
  at_ : Nat
  correctable : Bool
  deriving DecidableEq, Repr


/-- The commands of the device: one constructor per row of the table of operations and events. Each docstring
gives the row's own words and its rule. -/
inductive Instr where
  /-- ADD (R51). ALU group: rd := rs1 + rs2. -/
  | add (b : Barn) (k : StallId)
  /-- SUB (R51). ALU group: rd := rs1 − rs2. -/
  | sub (b : Barn) (k : StallId)
  /-- AND (R51). ALU group: bitwise AND of rs1 and rs2. -/
  | and (b : Barn) (k : StallId)
  /-- OR (R51). ALU group: bitwise OR of rs1 and rs2. -/
  | or (b : Barn) (k : StallId)
  /-- XOR (R51). ALU group: bitwise XOR of rs1 and rs2. -/
  | xor (b : Barn) (k : StallId)
  /-- SLL (R51). ALU group: logical left shift by rs2[5:0]. -/
  | sll (b : Barn) (k : StallId)
  /-- SRL (R51). ALU group: logical right shift by rs2[5:0]. -/
  | srl (b : Barn) (k : StallId)
  /-- SRA (R51). ALU group: arithmetic right shift by rs2[5:0]. -/
  | sra (b : Barn) (k : StallId)
  /-- SLT (R51). ALU group: signed less-than comparison into rd. -/
  | slt (b : Barn) (k : StallId)
  /-- SLTU (R51). ALU group: unsigned less-than comparison into rd. -/
  | sltu (b : Barn) (k : StallId)
  /-- MIN (R51). ALU group: signed minimum. -/
  | min (b : Barn) (k : StallId)
  /-- MAX (R51). ALU group: signed maximum. -/
  | max (b : Barn) (k : StallId)
  /-- MINU (R51). ALU group: unsigned minimum. -/
  | minu (b : Barn) (k : StallId)
  /-- MAXU (R51). ALU group: unsigned maximum. -/
  | maxu (b : Barn) (k : StallId)
  /-- MUL (R51). ALU group: low 64 bits of the product. -/
  | mul (b : Barn) (k : StallId)
  /-- MULHU (R51). ALU group: high 64 bits of the unsigned product. -/
  | mulhu (b : Barn) (k : StallId)
  /-- MULH (R51). ALU group: high 64 bits of the signed product. -/
  | mulh (b : Barn) (k : StallId)
  /-- DIVU (R51). ALU group: unsigned quotient, all ones on divide by zero. -/
  | divu (b : Barn) (k : StallId)
  /-- REMU (R51). ALU group: unsigned remainder, rs1 on divide by zero. -/
  | remu (b : Barn) (k : StallId)
  /-- ADDI (R51). Adds a sign-extended immediate to rs1. -/
  | addi (b : Barn) (k : StallId)
  /-- ANDI (R51). ANDs rs1 with a zero-extended immediate. -/
  | andi (b : Barn) (k : StallId)
  /-- ORI (R51). ORs rs1 with a zero-extended immediate. -/
  | ori (b : Barn) (k : StallId)
  /-- XORI (R51). XORs rs1 with a zero-extended immediate. -/
  | xori (b : Barn) (k : StallId)
  /-- SLLI (R51). Logical left shift by an immediate amount. -/
  | slli (b : Barn) (k : StallId)
  /-- SRLI (R51). Logical right shift by an immediate amount. -/
  | srli (b : Barn) (k : StallId)
  /-- SRAI (R51). Arithmetic right shift by an immediate amount. -/
  | srai (b : Barn) (k : StallId)
  /-- SHI (R51). Shifts rs1 left by 16 and ORs in the immediate. -/
  | shi (b : Barn) (k : StallId)
  /-- LD (R49). Starts a 64-bit scratchpad load into rd, checking range, alignment and poison. -/
  | ld (b : Barn) (k : StallId)
  /-- LD_DATA_READY (R52). The load takes its free bank and writes rd, or halts the job on poison. -/
  | ldDataReady (b : Barn) (k : StallId) (ecc : EccOutcome)
  /-- ST (R49). Stores a 64-bit word into the stall's scratchpad when the bank is free. -/
  | st (b : Barn) (k : StallId)
  /-- LDS (R51). Reads a word of the step window into rd. -/
  | lds (b : Barn) (k : StallId)
  /-- RDSR (R53). Reads a special register into rd. -/
  | rdsr (b : Barn) (k : StallId)
  /-- SYNCRD (R68). Reads a sync object or gate counter into rd. -/
  | syncrd (b : Barn) (k : StallId)
  /-- SYNCWR (R68). Writes a sync object or gate counter. -/
  | syncwr (b : Barn) (k : StallId)
  /-- SYNCADD (R71). Adds to a sync object with saturation. -/
  | syncadd (b : Barn) (k : StallId)
  /-- WAITC (R74). Makes the control core wait until a counter reaches a value. -/
  | waitc (b : Barn) (k : StallId)
  /-- WAITC_SATISFIED (R74). The waited counter reaches the value and the control core continues. -/
  | waitcSatisfied (b : Barn) (k : StallId)
  /-- PUSH (R64). Checks a 256-bit command and queues it, or a null command, fixing its issue beat. -/
  | push (b : Barn) (k : StallId)
  /-- PUSH_RESUME (R64). A queue entry frees and the waiting PUSH completes. -/
  | pushResume (b : Barn) (k : StallId)
  /-- LOOP (R54). Starts a hardware loop after the nesting checks. -/
  | loop (b : Barn) (k : StallId)
  /-- LOOPIDX (R54). Reads the iteration number of an enclosing loop. -/
  | loopidx (b : Barn) (k : StallId)
  /-- SKIP_IF (R57). Skips instructions according to a flag of the step window. -/
  | skipIf (b : Barn) (k : StallId)
  /-- CALL_LIB (R58). Calls a Mbosanel routine through the routine table. -/
  | callLib (b : Barn) (k : StallId)
  /-- RET (R58). Returns from a routine. -/
  | ret (b : Barn) (k : StallId)
  /-- BASE_ADD (R61). Raises the step base. -/
  | baseAdd (b : Barn) (k : StallId)
  /-- STEP_END (R60). Ends the stall's step program and waits for the next window. -/
  | stepEnd (b : Barn) (k : StallId)
  /-- STEP_END_RESUME (R60). Once the next window and base beat are present, sets the base, replaces the window and jumps to the shape entry. -/
  | stepEndResume (b : Barn) (k : StallId)
  /-- NOP (R51). No operation. -/
  | nop (b : Barn) (k : StallId)
  /-- ILLEGAL_INSTRUCTION (R51). A fetched word fails the legality checks and the job halts at once. -/
  | illegalInstruction (b : Barn) (k : StallId)
  /-- IMEM_FETCH_ERROR (R48). A fetch finds a SECDED error and corrects it or halts the job. -/
  | imemFetchError (b : Barn) (k : StallId) (correctable : Bool)
  /-- ENGINE_DUE_BEAT (R66). A region reaches an engine's due beat with an empty queue and holds with cause STARVED. -/
  | engineDueBeat (b : Barn) (k : StallId) (e : EngineId)
  /-- NULL_COMMAND (R65). A null command issues, does nothing and applies its signal. -/
  | nullCommand (b : Barn) (k : StallId) (e : EngineId)
  /-- COMMAND_COMPLETE (R69). An engine command completes and applies its signal. -/
  | commandComplete (b : Barn) (k : StallId) (e : EngineId)
  /-- COMMAND_LATE (R67). A command issues after its issue beat and raises STL_ISSUE_LATE. -/
  | commandLate (b : Barn) (k : StallId) (e : EngineId)
  /-- SYNC_SETTLE (R70). A counter is settled in a beat: consuming waits, writes, then summed increments. -/
  | syncSettle (c : CtrId)
  /-- DMA_RD (R89). Copies lines from a far end into the stall's scratchpad. -/
  | dmaRd (b : Barn) (k : StallId) (ecc : List EccHit)
  /-- DMA_WR (R89). Copies lines from the stall's scratchpad to a far end. -/
  | dmaWr (b : Barn) (k : StallId) (ecc : List EccHit)
  /-- DMA_LCOPY (R89). Copies blocks from the own loft to any loft in the job. -/
  | dmaLcopy (b : Barn) (k : StallId) (ecc : List EccHit)
  /-- DMA_RDS (R89). Reads in a strided or transposed mode within the own scratchpad. -/
  | dmaRds (b : Barn) (k : StallId) (ecc : List EccHit)
  /-- DMA_FILL (R89). Fills scratchpad lines with a pattern. -/
  | dmaFill (b : Barn) (k : StallId) (ecc : List EccHit)
  /-- UNS_BANK_ACCESS (R80). A waiting unscheduled or core access takes its scratchpad bank. -/
  | unsBankAccess (b : Barn) (k : StallId) (ecc : EccOutcome)
  /-- SPAD_WRITEBACK (R84). A corrected scratchpad word is written back in a free beat. -/
  | spadWriteback (b : Barn) (k : StallId)
  /-- SPAD_SCRUB (R84). The background scrubber reads a line in an idle beat and corrects or poisons it. -/
  | spadScrub (b : Barn) (k : StallId) (line : Fin 49152) (ecc : EccOutcome)
  /-- ARR_LOAD (R114). Fills a stationary buffer from the scratchpad. -/
  | arrLoad (b : Barn) (k : StallId) (ecc : List EccHit)
  /-- MMA (R115). Runs one matrix pass into the accumulator. -/
  | mma (b : Barn) (k : StallId) (ecc : List EccHit)
  /-- ACC_DRAIN (R116). Copies accumulator rows to the scratchpad, optionally clearing them. -/
  | accDrain (b : Barn) (k : StallId) (ecc : List EccHit)
  /-- ACC_HOST_ACCESS (R111). A host or Tackroom accumulator access takes its row in a free beat. -/
  | accHostAccess (src : Source) (b : Barn) (k : StallId) (arr : Fin 4) (unit : Fin 32768) (wr : Option Word32) (ecc : EccOutcome)
  /-- VLD (R128). Loads vector registers from the scratchpad. -/
  | vld (b : Barn) (k : StallId) (ecc : List EccHit)
  /-- VST (R128). Stores participating lanes to the scratchpad. -/
  | vst (b : Barn) (k : StallId) (ecc : List EccHit)
  /-- VLDS (R128). Loads vector registers in a strided or transposed mode. -/
  | vlds (b : Barn) (k : StallId) (ecc : List EccHit)
  /-- FADD (R130). FP32 addition per lane. -/
  | fadd (b : Barn) (k : StallId) (ecc : List EccHit)
  /-- FSUB (R130). FP32 subtraction per lane. -/
  | fsub (b : Barn) (k : StallId) (ecc : List EccHit)
  /-- FMUL (R130). FP32 multiplication per lane. -/
  | fmul (b : Barn) (k : StallId) (ecc : List EccHit)
  /-- FMA (R130). Fused multiply-add rounded once per lane. -/
  | fma (b : Barn) (k : StallId) (ecc : List EccHit)
  /-- FMIN (R131). FP32 minimum per lane. -/
  | fmin (b : Barn) (k : StallId) (ecc : List EccHit)
  /-- FMAX (R131). FP32 maximum per lane. -/
  | fmax (b : Barn) (k : StallId) (ecc : List EccHit)
  /-- FABS (R129). Clears bit 31 of each lane. -/
  | fabs (b : Barn) (k : StallId) (ecc : List EccHit)
  /-- FNEG (R129). Inverts bit 31 of each lane. -/
  | fneg (b : Barn) (k : StallId) (ecc : List EccHit)
  /-- FDIV (R142). Correctly rounded FP32 division. -/
  | fdiv (b : Barn) (k : StallId) (ecc : List EccHit)
  /-- FSQRT (R142). Correctly rounded square root. -/
  | fsqrt (b : Barn) (k : StallId) (ecc : List EccHit)
  /-- FRCP (R142). Correctly rounded reciprocal. -/
  | frcp (b : Barn) (k : StallId) (ecc : List EccHit)
  /-- FRSQRT (R142). Correctly rounded reciprocal square root. -/
  | frsqrt (b : Barn) (k : StallId) (ecc : List EccHit)
  /-- FEXP (R144). Exponential by the fixed procedure. -/
  | fexp (b : Barn) (k : StallId) (ecc : List EccHit)
  /-- FLOG (R145). Natural logarithm by the fixed procedure. -/
  | flog (b : Barn) (k : StallId) (ecc : List EccHit)
  /-- FTANH (R146). Hyperbolic tangent by the fixed procedure. -/
  | ftanh (b : Barn) (k : StallId) (ecc : List EccHit)
  /-- FSIGM (R147). Logistic sigmoid by the fixed procedure. -/
  | fsigm (b : Barn) (k : StallId) (ecc : List EccHit)
  /-- FERF (R148). Error function by the fixed procedure. -/
  | ferf (b : Barn) (k : StallId) (ecc : List EccHit)
  /-- IADD (R132). Integer addition modulo 2^32. -/
  | iadd (b : Barn) (k : StallId) (ecc : List EccHit)
  /-- ISUB (R132). Integer subtraction modulo 2^32. -/
  | isub (b : Barn) (k : StallId) (ecc : List EccHit)
  /-- IMUL (R132). Low 32 bits of the integer product. -/
  | imul (b : Barn) (k : StallId) (ecc : List EccHit)
  /-- IMULHU (R132). High 32 bits of the unsigned product. -/
  | imulhu (b : Barn) (k : StallId) (ecc : List EccHit)
  /-- IMIN (R132). Signed integer minimum. -/
  | imin (b : Barn) (k : StallId) (ecc : List EccHit)
  /-- IMAX (R132). Signed integer maximum. -/
  | imax (b : Barn) (k : StallId) (ecc : List EccHit)
  /-- VEC_AND (R132). Vector lane bitwise AND. -/
  | vecAnd (b : Barn) (k : StallId) (ecc : List EccHit)
  /-- VEC_OR (R132). Vector lane bitwise OR. -/
  | vecOr (b : Barn) (k : StallId) (ecc : List EccHit)
  /-- VEC_XOR (R132). Vector lane bitwise XOR. -/
  | vecXor (b : Barn) (k : StallId) (ecc : List EccHit)
  /-- SHL (R132). Vector lane left shift. -/
  | shl (b : Barn) (k : StallId) (ecc : List EccHit)
  /-- SHR (R132). Vector lane logical right shift. -/
  | shr (b : Barn) (k : StallId) (ecc : List EccHit)
  /-- VEC_SRA (R132). Vector lane arithmetic right shift. -/
  | vecSra (b : Barn) (k : StallId) (ecc : List EccHit)
  /-- IDIV (R132). Signed integer division truncating towards zero. -/
  | idiv (b : Barn) (k : StallId) (ecc : List EccHit)
  /-- IREM (R132). Signed integer remainder. -/
  | irem (b : Barn) (k : StallId) (ecc : List EccHit)
  /-- IDIVU (R132). Unsigned integer division. -/
  | idivu (b : Barn) (k : StallId) (ecc : List EccHit)
  /-- IREMU (R132). Unsigned integer remainder. -/
  | iremu (b : Barn) (k : StallId) (ecc : List EccHit)
  /-- FCMP (R131). Sets mask bits by a floating-point condition. -/
  | fcmp (b : Barn) (k : StallId) (ecc : List EccHit)
  /-- ICMP (R132). Sets mask bits by an integer condition. -/
  | icmp (b : Barn) (k : StallId) (ecc : List EccHit)
  /-- MLOGIC (R140). Combines masks or forms a lane range mask. -/
  | mlogic (b : Barn) (k : StallId) (ecc : List EccHit)
  /-- VSEL (R129). Selects lanes from two sources by mask. -/
  | vsel (b : Barn) (k : StallId) (ecc : List EccHit)
  /-- VMOV (R129). Copies a register or an immediate into every lane. -/
  | vmov (b : Barn) (k : StallId) (ecc : List EccHit)
  /-- VPERM (R129). Permutes lanes by an index register. -/
  | vperm (b : Barn) (k : StallId) (ecc : List EccHit)
  /-- VLANE (R129). Writes each lane's number. -/
  | vlane (b : Barn) (k : StallId) (ecc : List EccHit)
  /-- CVT_P (R134). Packs FP32 or INT32 lanes into a storage format part. -/
  | cvtP (b : Barn) (k : StallId) (ecc : List EccHit)
  /-- CVT_U (R135). Unpacks a storage format part into lanes. -/
  | cvtU (b : Barn) (k : StallId) (ecc : List EccHit)
  /-- FTOI (R133). Converts FP32 to saturated INT32. -/
  | ftoi (b : Barn) (k : StallId) (ecc : List EccHit)
  /-- ITOF (R133). Converts INT32 to FP32. -/
  | itof (b : Barn) (k : StallId) (ecc : List EccHit)
  /-- RSUM (R136). Tree sum of the participating lanes. -/
  | rsum (b : Barn) (k : StallId) (ecc : List EccHit)
  /-- RMAX (R136). Tree maximum of the participating lanes. -/
  | rmax (b : Barn) (k : StallId) (ecc : List EccHit)
  /-- RMIN (R136). Tree minimum of the participating lanes. -/
  | rmin (b : Barn) (k : StallId) (ecc : List EccHit)
  /-- RARGMAX (R137). Largest participating value and its lane index. -/
  | rargmax (b : Barn) (k : StallId) (ecc : List EccHit)
  /-- TRED (R138). Reduces a 16 by 16 tile along one axis. -/
  | tred (b : Barn) (k : StallId) (ecc : List EccHit)
  /-- TSCAN (R139). Linear recurrence scan along a tile axis. -/
  | tscan (b : Barn) (k : StallId) (ecc : List EccHit)
  /-- LFT_VEC (R178). Writes activation groups into the vector buffers of a bank set. -/
  | lftVec (b : Barn) (k : StallId) (ecc : List EccHit)
  /-- LFT_MV (R181). Runs loft engines over rows and optionally emits the accumulators. -/
  | lftMv (b : Barn) (k : StallId) (ecc : List EccHit)
  /-- LFT_PWR (R182). Starts closing or waking the banks of a bank set. -/
  | lftPwr (b : Barn) (k : StallId) (ecc : List EccHit)
  /-- BANK_DRAIN_DONE (R163). A CLOSING bank's in-flight writes reach zero; it becomes OFF and the command completes. -/
  | bankDrainDone (b : Barn) (bank : Fin 256)
  /-- BANK_WAKE_DONE (R162). A WAKING bank becomes ON after 256 beats. -/
  | bankWakeDone (b : Barn) (bank : Fin 256)
  /-- BANK_REFRESH (R155). A bank refreshes the row at its pointer in its beat-keyed slot. -/
  | bankRefresh (b : Barn) (bank : Fin 256)
  /-- TIMER_REFRESH (R156). During a hold, a bank refreshes after 256 ns of local time. -/
  | timerRefresh (b : Barn) (bank : Fin 256)
  /-- UNS_LOFT_ACCESS (R161). A waiting unscheduled loft access takes a free bank cycle. -/
  | unsLoftAccess (n : Barn) (i : Fin 65536) (ecc : EccOutcome)
  /-- LOFT_SCRUB (R161). The loft scrubber reads and corrects a block in an idle cycle. -/
  | loftScrub (n : Barn) (blk : Fin 8388608) (ecc : EccOutcome)
  /-- BLOCK_REREAD (R166). A failed block is read once more with priority. -/
  | blockReread (b : Barn) (good : Bool)
  /-- RESEND_SLOT_GRANT (R170). A re-send slot frees and a waiting failed block takes it. -/
  | resendSlotGrant (b : Barn)
  /-- BLOCK_RESENT (R168). A re-sent block arrives and is delivered; the hold ends. -/
  | blockResent (b : Barn)
  /-- LOFT_WRITEBACK_VERIFY (R171). Good data is written back and verified, retiring the row on failure. -/
  | loftWritebackVerify (b : Barn) (good : Bool)
  /-- NET_SEND (R206). Sends scratchpad lines as slot-addressed flits to named stalls. -/
  | netSend (b : Barn) (k : StallId) (ecc : List EccHit)
  /-- NET_SLOT (R207). Writes an entry of the stall's slot table. -/
  | netSlot (b : Barn) (k : StallId) (ecc : List EccHit)
  /-- NET_SIG (R208). Adds an increment to a barn sync object in named barns. -/
  | netSig (b : Barn) (k : StallId) (ecc : List EccHit)
  /-- UNS_PACKET_PERFORM (R198). An unscheduled packet is checked, performed at its ejection point and signals. -/
  | unsPacketPerform (n : Fin 65536)
  /-- UNS_FLIT_CREDIT (R196). A credit returns and a waiting unscheduled flit moves on. -/
  | unsFlitCredit (n : Fin 65536) (d : Fin 4)
  /-- HOP_RESEND (R202). A hop CRC fails and the upstream router re-sends the item. -/
  | hopResend (n : Fin 65536) (again : Bool)
  /-- REG_RD (R213). Control packet requesting a register read. -/
  | regRd (src : Source) (fn : Fin 9) (addr : Fin 4294967296) (len : Fin 4097) (ide : Bool) (tag : Fin 1024)
  /-- REG_WR (R213). Control packet carrying a register write. -/
  | regWr (src : Source) (addr : Fin 68719476736) (v : Word) (verified : Bool)
  /-- REG_RSP (R213). Control packet answering a register access. -/
  | regRsp (src dst : Fin 30)
  /-- SYNC_ADD (R198). Control packet adding to a sync object or gate counter. -/
  | syncAdd (src dst : Fin 30)
  /-- GATE_VAL (R74). Control packet carrying a gate counter value to a waiting control core. -/
  | gateVal (b : Barn) (k : StallId)
  /-- WR_DONE (R197). Acknowledges a performed write and may release a held fence packet. -/
  | wrDone (src dst : Fin 30)
  /-- JOB_CTL_WINDOW (R307). Delivers one step-window word to a stall. -/
  | jobCtlWindow (b : Barn)
  /-- JOB_CTL_BASE (R307). Delivers the next base beat to a stall. -/
  | jobCtlBase (b : Barn)
  /-- JOB_CTL_SUSPEND (R307). Tells a region to suspend the job at beat P. -/
  | jobCtlSuspend (b : Barn)
  /-- JOB_CTL_HALT (R307). Tells a region to halt the job. -/
  | jobCtlHalt (b : Barn)
  /-- ERR_REC (R414). An error record reaches the collector, which accepts or drops it. -/
  | errRec (unit : Fin 32)
  /-- CTRL_LOFT_REQ (R213). On-device control packet carrying a loft re-send request or answer. -/
  | ctrlLoftReq (b : Barn)
  /-- RESERVED_CTRL_TYPE (R204). A control packet with a reserved TYPE makes the device fatal. -/
  | reservedCtrlType (b : Barn)
  /-- PORT_ENABLE (R220). Writing LNK_PORT_CTRL[ENABLE] 1 moves a port from OFF to DETECT. -/
  | portEnable (p : PortId)
  /-- PORT_DISABLE (R242). Writing ENABLE 0 sends LINK_NOTICE and takes the port down to OFF. -/
  | portDisable (p : PortId)
  /-- PORT_RETRAIN (R219). Writing RETRAIN 1 retrains the port at the highest allowed rate and width. -/
  | portRetrain (p : PortId)
  /-- DETECT_DONE (R220). Four lanes of a half have seen the partner's pattern for 10 µs; EQUALISE begins. -/
  | detectDone (p : PortId)
  /-- EQUALISE_END (R220). A trial rate locks, moves down after 2 ms, or fails at 56 Gb/s. -/
  | equaliseEnd (p : PortId) (lanes : BitVec 8)
  /-- ALIGN_END (R220). Alignment completes into CAPABILITY or fails to DOWN. -/
  | alignEnd (p : PortId) (ok : Bool)
  /-- CAP (R222). A CAP flit is received and agreement is evaluated, entering ACTIVE when both sides agree. -/
  | cap (p : PortId) (levels : BitVec 2048)
  /-- CAP_TIMEOUT (R220). No agreement within 10 ms; the port goes DOWN with LNK_VERSION_MISMATCH. -/
  | capTimeout (p : PortId)
  /-- DOWN_TIMEOUT (R220). After 10 ms in DOWN with ENABLE 1 the port returns to DETECT. -/
  | downTimeout (p : PortId)
  /-- RETRAIN_TIMEOUT (R242). A retrain does not reach ACTIVE within 1 ms and the port goes DOWN. -/
  | retrainTimeout (p : PortId)
  /-- LANE_FAIL (R219). A working lane fails and the port retrains at reduced width or rate. -/
  | laneFail (p : PortId) (lanes : BitVec 8)
  /-- FLIT_SLOT (R237). In each flit slot the port sends a bypass, replay, new DATA or IDLE flit. -/
  | flitSlot (p : PortId)
  /-- DATA (R230). A good DATA flit is received, its ACK, NAK and credit applied, and it is accepted or discarded. -/
  | data (p : PortId) (levels : BitVec 2048)
  /-- IDLE (R230). A good IDLE flit is received and its header fields processed. -/
  | idle (p : PortId) (levels : BitVec 2048)
  /-- BYPASS (R238). A good BYPASS flit is received and its messages stored. -/
  | bypass (p : PortId) (levels : BitVec 2048)
  /-- BAD_FLIT (R231). A bad flit is received and the receiver enters NAK pending. -/
  | badFlit (p : PortId) (levels : BitVec 2048)
  /-- NAK_RENEW (R231). NAK pending lasts TIMEOUT_NS and the NAKID advances. -/
  | nakRenew (p : PortId)
  /-- REPLAY_TIMER (R233). The replay timer expires and a replay, or a retrain after LIMIT, is due. -/
  | replayTimer (p : PortId)
  /-- LINK_SILENCE (R242). No good flit for 800 ns in ACTIVE; the port goes DOWN. -/
  | linkSilence (p : PortId)
  /-- LINK_NOTICE (R242). A received LINK_NOTICE takes the port down. -/
  | linkNotice (p : PortId)
  /-- FEC_INTERVAL (R247). At each 1 ms interval corrected symbols are compared with FEC_THRESH. -/
  | fecInterval (p : PortId)
  /-- TIME_EXCHANGE_START (R239). Every 1 ms a port sends TIME_REQ with a new ID. -/
  | timeExchangeStart (p : PortId)
  /-- TIME_REQ (R239). A received TIME_REQ is timestamped and answered with TIME_RSP and TIME_FOLLOW. -/
  | timeReq (p : PortId)
  /-- TIME_RSP (R239). A received TIME_RSP is timestamped as t4. -/
  | timeRsp (p : PortId)
  /-- TIME_FOLLOW (R37). A received TIME_FOLLOW completes an exchange and updates PCR_PORT_TIME. -/
  | timeFollow (p : PortId)
  /-- TIME_EXCHANGE_ABANDON (R239). No TIME_FOLLOW within 100 µs; the exchange is abandoned. -/
  | timeExchangeAbandon (p : PortId)
  /-- ROUTE_NOTICE (R264). A received route notice marks dependent entries LOST and propagates. -/
  | routeNotice (p : PortId)
  /-- YOKE_HB (R343). A YOKE_HB bypass message refreshes the link heartbeat path. -/
  | yokeHb (p : PortId)
  /-- TRANSIT_FORWARD (R244). A packet for another device is forwarded cut-through once credits are held. -/
  | transitForward (p : PortId) (vc : Fin 3)
  /-- SEAL_SLICE (R262). A seal engine processes one slice of a job packet. -/
  | sealSlice
  /-- WRITE (R263). An arriving WRITE packet is checked, sequenced and performed. -/
  | write (p : PortId)
  /-- READ_REQ (R91). An arriving remote read request is answered with READ_RSP packets. -/
  | readReq (p : PortId)
  /-- READ_RSP (R263). Returned lines are written at the requester and the last signals. -/
  | readRsp (p : PortId)
  /-- ACK (R257). An end-to-end ACK frees retained packets. -/
  | ack (p : PortId)
  /-- ACK_TIMER (R257). 2 µs after an unacknowledged acceptance the destination sends an ACK. -/
  | ackTimer (j : JobId) (stream : Fin 16384)
  /-- RESEND_TIMER (R258). The oldest retained packet has waited RESEND_US; the stream is sent again. -/
  | resendTimer (j : JobId) (stream : Fin 16384)
  /-- DOWN_HOLD_EXPIRY (R265). Packets queued for a DOWN port are discarded after DOWN_HOLD_US. -/
  | downHoldExpiry (p : PortId)
  /-- ROUTE_FAIL (R267). The head receives ROUTE_FAIL and sends PLAN_SWITCH or halts the job. -/
  | routeFail (p : PortId)
  /-- PLAN_SWITCH (R268). A device receives PLAN_SWITCH and schedules or performs the switch. -/
  | planSwitch (p : PortId)
  /-- PLAN_SWITCH_BEAT (R268). The job beat reaches S and the device switches plan. -/
  | planSwitchBeat (j : JobId)
  /-- FAB_JOB_CTL_GO (R267). Writing GO on the head sends PLAN_SWITCH with the given plan and beat. -/
  | fabJobCtlGo (j : JobId) (plan : Bool) (beat : Fin 281474976710656)
  /-- FAB_TBL_WRITE (R255). A route or multicast table write takes effect and clears LOST. -/
  | fabTblWrite (v : Word)
  /-- COMPOSITION_POINT (R304). The head retires, activates, polls, applies, releases and composes or suspends. -/
  | compositionPoint (j : JobId) (host : List HostPiece)
  /-- IDLE_POLL (R305). Every 10 µs while suspended IDLE or HOST_ABSENT the head polls the job ring. -/
  | idlePoll (j : JobId) (host : List HostPiece)
  /-- STEP_DESCRIPTOR_ARRIVAL (R308). The descriptor gate counter reaches 1 and the relay delivers the window and base beat. -/
  | stepDescriptorArrival (j : JobId)
  /-- SUSPEND_BEAT (R305). The job beat count reaches P and the relay suspends the job. -/
  | suspendBeat (j : JobId)
  /-- HALT_NOTE (R306). The head receives a relay's halt and sends HALT to all devices. -/
  | haltNote (p : PortId)
  /-- HALT (R306). A relay receives HALT and halts the job at once. -/
  | halt (p : PortId)
  /-- SUSPEND (R305). A relay receives SUSPEND for beat P, or halts if P is past. -/
  | suspend (p : PortId)
  /-- KV_LOST (R325). The head ends every sequence whose map lists the lost block. -/
  | kvLost (p : PortId)
  /-- JOB_HALT_BOUNDARY (R491). A region reaches the step boundary at which a pending halt takes effect. -/
  | jobHaltBoundary (j : JobId) (r : RegionId)
  /-- JOB_QUIESCENT_SAVE (R283). Every device is quiescent and the load engine writes the save set. -/
  | jobQuiescentSave (j : JobId) (addr capacity : Word)
  /-- DIGEST_READ (R339). At B(s+1) the yoke unit reads the digest slot and sends DIGEST packets. -/
  | digestRead (j : JobId)
  /-- DIGEST (R340). Partner digests arrive and steps are confirmed or mismatched. -/
  | digest (p : PortId)
  /-- MISMATCH_NOTE (R341). The head learns of a mismatch and suspends at its next composition point. -/
  | mismatchNote (p : PortId)
  /-- LOFT_REQ (R349). The partner serves, defers or refuses a loft block request. -/
  | loftReq (p : PortId) (good : Bool)
  /-- LOFT_REQ_DEFERRED_SERVE (R169). The partner's beat reaches the requested beat and it serves the held request. -/
  | loftReqDeferredServe (good : Bool)
  /-- LOFT_NAK (R168). The partner reports a block unavailable and the next source is tried. -/
  | loftNak (p : PortId)
  /-- JOURNAL (R347). A journal entry arrives at the secondary head. -/
  | journal (p : PortId)
  /-- YOKE_HALT (R346). The partner reports a halt and the job becomes SOLO. -/
  | yokeHalt (p : PortId)
  /-- REYOKE_END (R351). A rejoining device takes GEN, writes back state and sets its launch. -/
  | reyokeEnd (p : PortId) (sections : List Byte)
  /-- YOKE_READY (R351). A head collects phase reports and starts cutover or sends FORK_READY. -/
  | yokeReady (p : PortId)
  /-- FORK_READY (R351). The survivor head ends the re-yoke suspension and journals onwards. -/
  | forkReady (p : PortId)
  /-- PRECOPY_PASS_END (R350). A copy pass ends and the survivor repeats or reports phase 0. -/
  | precopyPassEnd (j : JobId)
  /-- KEEP (R342). YOK_JOB_CTL action KEEP makes the plane SOLO and ends the mismatch suspension. -/
  | keep (j : JobId)
  /-- DROP (R342). YOK_JOB_CTL action DROP halts the job on the plane. -/
  | drop (j : JobId)
  /-- REYOKE (R350). YOK_JOB_CTL action REYOKE starts PRECOPY on a survivor. -/
  | reyoke (j : JobId)
  /-- ABANDON (R352). YOK_JOB_CTL action ABANDON ends a re-yoke as a loss. -/
  | abandon (j : JobId)
  /-- REYOKE_ABANDONED (R352). A rejoining partner is lost or halts before FORK_READY. -/
  | reyokeAbandoned (j : JobId)
  /-- YOKE_ENABLE (R334). Enabling the yoke starts forming it. -/
  | yokeEnable
  /-- YOKE_FORMED (R334). All forming conditions hold and the yoke becomes YOKED. -/
  | yokeFormed
  /-- YOKE_FORM_TIMEOUT (R334). The yoke has not formed within 100 ms. -/
  | yokeFormTimeout
  /-- HEARTBEAT_SEND (R343). Each millisecond the device pulses YOKE_HB_OUT and sends YOKE_HB. -/
  | heartbeatSend
  /-- YOKE_HB_IN_PULSE (R343). A valid pulse on YOKE_HB_IN refreshes the pin path. -/
  | yokeHbInPulse (highNs : Nat)
  /-- HB_PATH_TIMEOUT (R343). One heartbeat path is silent for LOSS_MS. -/
  | hbPathTimeout (pin : Bool)
  /-- YOKE_CUT (R345). The yoke port is down for LOSS_MS while pin heartbeats continue. -/
  | yokeCut
  /-- DEVICE_RING_POLL (R364). Every 10 µs the hub polls a port's device ring and writes held records. -/
  | deviceRingPoll (p : HostPort) (host : List HostPiece)
  /-- LOAD_DONE (R298). The load engine finishes a load, accepting the job or freeing the context. -/
  | loadDone (j : JobId) (host : List HostPiece) (gradesAgree basesAgree : Bool)
  /-- COPY_COMPLETE (R372). A COPY's last byte is performed and it is answered. -/
  | copyComplete (n : Fin 65536) (host : List HostPiece)
  /-- SHARD_VERIFIED (R395). A shard finishes loading; on the last, the device sends its verify record. -/
  | shardVerified (n : Fin 4096) (host : List HostPiece)
  /-- COMMIT (R395). The head's verify counter reaches the peer count and it sends the commit line. -/
  | commit (j : JobId)
  /-- COMMIT_RECEIVED (R396). A device reads its commit line and activates or fails the deployment. -/
  | commitReceived (j : JobId)
  /-- DEPLOY_TIMEOUT (R397). A deployment or adapter load passes DEPLOY_TIMEOUT_S. -/
  | deployTimeout (j : JobId) (slot : Option (Fin 256))
  /-- ADAPTER_NOTICE (R399). A device reads adapter notices and requests new bales. -/
  | adapterNotice (j : JobId)
  /-- TEARDOWN_REVOKE (R405). Sealed packets have left; key contexts are zeroised. -/
  | teardownRevoke (j : JobId)
  /-- TEARDOWN_DRAIN_END (R405). No opened packet remains; the scrub begins. -/
  | teardownDrainEnd (j : JobId)
  /-- TEARDOWN_SCRUB_DONE (R405). The scrub read-back matches and the context and barns are free. -/
  | teardownScrubDone (j : JobId) (bad : Option Barn)
  /-- BARN_CLEAR_DONE (R94). A barn clear's read-back ends, freeing it or raising STL_CLEAR_FAULT. -/
  | barnClearDone (b : Barn) (bad : Option StallId)
  /-- HOST_LINK_DOWN (R376). A host port's link goes down and the port becomes absent. -/
  | hostLinkDown (p : HostPort)
  /-- HOST_LINK_UP (R467). A host port's data link layer comes up. -/
  | hostLinkUp (p : HostPort) (width speed : Fin 4) (flit vfs : Bool)
  /-- PERST_ASSERT (R376). PERST_x_N is qualified asserted and the port's state resets. -/
  | perstAssert (p : HostPort)
  /-- PERST_DEASSERT (R467). PERST_x_N is qualified deasserted and link training begins. -/
  | perstDeassert (p : HostPort)
  /-- IDE_FAULT (R361). An IDE integrity check fails; the stream goes Insecure and the port absent. -/
  | ideFault (p : HostPort)
  /-- BAR2_ACCESS (R359). A BAR2 access is performed or refused with HST_BAR_DENIED. -/
  | bar2Access (p : HostPort) (addr : Fin 68719476736) (wr : Option (List Byte)) (len : Fin 4097) (ide : Bool)
  /-- RING_STALL_TIMEOUT (R363). An entry's SEQ mismatch persists for 1 ms. -/
  | ringStallTimeout (p : HostPort) (job : Option JobId)
  /-- MSI_X_FIRE (R360). A vector fires after moderation or unmasking. -/
  | msiXFire (p : HostPort) (fn : Fin 9) (vec : Fin 16) (masked : Bool)
  /-- GET_VERSION (R383). SPDM request answered with the supported version. -/
  | getVersion (t : Fin 3) (req : List Byte)
  /-- GET_CAPABILITIES (R383). SPDM capabilities request. -/
  | getCapabilities (t : Fin 3) (req : List Byte)
  /-- NEGOTIATE_ALGORITHMS (R383). SPDM algorithm negotiation with the extended algorithms. -/
  | negotiateAlgorithms (t : Fin 3) (req : List Byte) (selects : Bool)
  /-- GET_DIGESTS (R383). SPDM certificate digests request. -/
  | getDigests (t : Fin 3) (req : List Byte)
  /-- GET_CERTIFICATE (R382). Returns a certificate chain. -/
  | getCertificate (t : Fin 3) (req : List Byte)
  /-- CHALLENGE (R383). SPDM challenge signed with the identity key. -/
  | challenge (t : Fin 3) (req : List Byte)
  /-- GET_MEASUREMENTS (R384). Returns measurement blocks. -/
  | getMeasurements (t : Fin 3) (req : List Byte)
  /-- KEY_EXCHANGE (R383). Starts an SPDM secured session by ML-KEM. -/
  | keyExchange (t : Fin 3) (req : List Byte)
  /-- FINISH (R383). Completes an SPDM key exchange. -/
  | finish (t : Fin 3) (req : List Byte)
  /-- END_SESSION (R383). Ends an SPDM session. -/
  | endSession (t : Fin 3) (req : List Byte)
  /-- SPDM_UNSUPPORTED (R383). Any other SPDM request is answered UnsupportedRequest. -/
  | spdmUnsupported (t : Fin 3) (req : List Byte)
  /-- IDE_KM (R361). Sets IDE keys over the DOE mailbox. -/
  | ideKm (p : HostPort) (stream : Fin 5)
  /-- MBX_GO (R434). Writing TCK_MBX_CTL[GO] submits a mailbox request. -/
  | mbxGo (p : HostPort) (verified : Bool)
  /-- PLDM_REQUEST (R436). An MCTP or PLDM message over I3C or PCIe is answered. -/
  | pldmRequest (ch : Fin 3) (type_ : BitVec 8) (msg : List Byte) (off : Word32) (verified : Bool)
  /-- LARKSPUR_ENTRY (R433). Larkspur writes a trace entry or a DROP entry. -/
  | larkspurEntry
  /-- LOG_COPY (R415). The Tackroom copies an accepted record into the flash log. -/
  | logCopy
  /-- ERR_CONSUMER_WRITE (R421). Writes the consumer index, clamped to the producer. -/
  | errConsumerWrite (v : Word)
  /-- STEP_TICK (R21). At each 1 µs tick regions move one step towards their targets. -/
  | stepTick
  /-- STEP_APPLY (R22). Writing PCR_STEP_APPLY computes clamped targets for all regions. -/
  | stepApply
  /-- STIME_SET (R36). Writing PCR_STIME_SET jumps station time or is refused. -/
  | stimeSet (src : Source) (ns : Word)
  /-- STIME_NS_READ (R44). Reading PCR_STIME_NS latches PCR_STIME_FRAC. -/
  | stimeNsRead (src : Source)
  /-- THROTTLE_ASSERT (R32). THROTTLE_N is qualified asserted and every target becomes S0. -/
  | throttleAssert
  /-- THROTTLE_DEASSERT (R32). THROTTLE_N is qualified deasserted and targets return. -/
  | throttleDeassert
  /-- THROTTLE_STUCK (R32). THROTTLE_N stays asserted for 10 s. -/
  | throttleStuck
  /-- THERMAL_GUARD_TICK (R33). Every 100 µs the guard lowers a hot region's target one step. -/
  | thermalGuardTick
  /-- REFCLK_LOST (R38). Four missing reference periods; holdover and ports down. -/
  | refclkLost
  /-- REFCLK_RESTORED (R38). 1,000 good periods; PLLs relock and time slews back. -/
  | refclkRestored
  /-- PPS_PULSE (R39). A qualified PPS_IN pulse is accepted or rejected. -/
  | ppsPulse (highNs : Nat)
  /-- PPS_FAULT (R40). No accepted pulse for 1.5 s or four rejections; PPS holdover. -/
  | ppsFault
  /-- LOCAL_TIME_SYNC (R41). Every 1 µs each region's local time is set from station time. -/
  | localTimeSync
  /-- LAUNCH_TIME_REACHED (R42). Station time reaches the launch time and job beat 0 is fixed. -/
  | launchTimeReached (j : JobId)
  /-- SKEW_WAIT_RELEASE (R23). A neighbour's beat completion releases a region from skew wait. -/
  | skewWaitRelease (r : RegionId)
  /-- HANDSHAKE_LATE (R25). A neighbour has not answered for 16 periods and the region holds. -/
  | handshakeLate (r nb : RegionId)
  /-- HOLD_SPREAD (R26). At the end of a pacer period a neighbour enters a propagated hold. -/
  | holdSpread (r : RegionId)
  /-- HOLD_RELEASE (R25). The last cause of a hold clears and the region leaves the hold. -/
  | holdRelease (r : RegionId)
  /-- HOLD_TIMEOUT (R31). A hold reaches STALL_TIMEOUT; the job halts or the device becomes fatal. -/
  | holdTimeout (r : RegionId)
  /-- CFG_CRC_CHECK (R453). A block's periodic CRC recomputation differs from CFG_REF and disables it. -/
  | cfgCrcCheck (blk : Fin 17) (i : Fin 24) (flip : Option (Fin 2016 × Fin 64))
  /-- BLK_ENABLE (R451). Writing BLK_CTRL[ENABLE] enables the block if the CRC matches, or disables it. -/
  | blkEnable (blk : Fin 17) (i : Fin 24) (on : Bool)
  /-- SIGNER_LOCK (R385). Writing SEC_CTRL[SIGNER_LOCK] 1 locks the signer table. -/
  | signerLock
  /-- LSP_RUN (R433). Writing TCK_LSP_CTL starts or stops Larkspur capture. -/
  | lspRun (v : Word)
  /-- REGISTER_WRITE (R446). A write to a register without its own row, through any window, under the access codes. -/
  | registerWrite (src : Source) (fn : Fin 9) (addr : Fin 4294967296) (len : Fin 4097) (ide : Bool) (v : Word) (verified : Bool)
  /-- SENSOR_SAMPLE (R425). Sensors are sampled, and faults, guard and trip are evaluated. -/
  | sensorSample (temps : List (Fin 60 × BitVec 16)) (volts : List (Fin 36 × BitVec 16)) (power : List (Fin 8 × Word32))
  /-- RAIL_FAULT (R428). A rail stays out of range for 10 µs; device-fatal. -/
  | railFault
  /-- POLICY_TICK (R429). Every 1 ms firmware computes and applies step requests and the envelope. -/
  | policyTick
  /-- LOCKSTEP_MISMATCH (R422). The lockstep cores disagree; device-fatal and restart. -/
  | lockstepMismatch
  /-- WATCHDOG_EXPIRY (R423). The watchdog or an SRAM error restarts the Tackroom from ROM. -/
  | watchdogExpiry
  /-- FW_RESTART_DONE (R423). Firmware runs again after a restart. -/
  | fwRestartDone (valid : Bool) (security version libVer : Word32) (lib : List Word32) (flash : List (Fin 2048 × Bool))
  /-- PWR_GOOD_RISE (R463). PWR_GOOD is qualified high and the boot sequence starts. -/
  | pwrGoodRise
  /-- PWR_GOOD_FALL (R459). PWR_GOOD is qualified low and the device resets. -/
  | pwrGoodFall
  /-- VTCK_BROWNOUT (R459). VTCK falls below brown-out, acting as a fall of PWR_GOOD. -/
  | vtckBrownout
  /-- SYS_RESET_ASSERT (R460). SYS_RESET_N is qualified asserted and the device enters reset. -/
  | sysResetAssert
  /-- SYS_RESET_DEASSERT (R463). SYS_RESET_N is qualified deasserted and the boot sequence starts. -/
  | sysResetDeassert
  /-- LOFT_TEST_DONE (R464). A barn's loft test ends, passing or marking the barn FAILED. -/
  | loftTestDone (b : Barn) (bad : List (BankId × Bool))
  /-- FW_VERIFY_DONE (R463). The ROM verifies the image and starts firmware or enters RECOVERY. -/
  | fwVerifyDone (valid : Bool) (security version libVer : Word32) (lib : List Word32) (flash : List (Fin 2048 × Bool))
  /-- PPS_EXPECTED_SECOND (R40). In PPS_HOLDOVER, PCR_PPS_SECONDS advances by one at each expected second of station time. -/
  | ppsExpectedSecond
  /-- MALFORMED_FABRIC_PACKET (R250). A packet arrives with a reserved KIND, a reserved CONTROL subtype, or a wrong D or VC; it is discarded with FAB_BAD_HEADER. -/
  | malformedFabricPacket (p : PortId) (vc : Fin 3)
  deriving DecidableEq, Repr

end Sys2Proof
end

