-- ==== Sys2Proof/Decode.lean ====
section
/-! DEFINITION. The commands that a word spells by the bits of the table: no row of the table gives bits, since the commands
come from outside as events and accesses and not as words. -/

namespace Sys2Proof

/-- The command that the `nbits` bits of `w` spell: none, for no row of the table gives its command an encoding. -/
def decodeTableWord (_nbits _w : Nat) : Option Instr := none

end Sys2Proof
end

