-- ==== Sys2Proof/Machine/Tab.lean ====
section
/-! DEFINITION. Sparse tables: a list of (key, value) pairs with strictly rising keys that lists no pair
whose value is what an unlisted key reads as, so that equal tables are equal lists. Every memory, register
file and per-unit record of the device is held in one. -/

namespace Sys2Proof.Machine

abbrev Tab (α : Type) := List (Nat × α)

/-- The value at key `k`: the listed one, else what `d` says an unlisted key reads as. -/
def Tab.get {α : Type} (d : Nat → α) : Tab α → Nat → α
  | [], k => d k
  | (k', v) :: t, k => if k = k' then v else Tab.get d t k

/-- List `v` at `k`, keeping the keys rising. -/
def Tab.put {α : Type} (k : Nat) (v : α) : Tab α → Tab α
  | [] => [(k, v)]
  | (k', v') :: t =>
    if k < k' then (k, v) :: (k', v') :: t
    else if k = k' then (k, v) :: t
    else (k', v') :: Tab.put k v t

/-- Take key `k` out of the list, wherever it is listed. -/
def Tab.del {α : Type} (k : Nat) : Tab α → Tab α
  | [] => []
  | (k', v') :: t => if k = k' then Tab.del k t else (k', v') :: Tab.del k t

/-- Write `v` at `k`: the value an unlisted key reads as takes the entry out. -/
def Tab.set {α : Type} [DecidableEq α] (d : Nat → α) (t : Tab α) (k : Nat) (v : α) : Tab α :=
  if v = d k then Tab.del k t else Tab.put k v t

/-- Change the value at `k` by `f`. -/
def Tab.upd {α : Type} [DecidableEq α] (d : Nat → α) (t : Tab α) (k : Nat) (f : α → α) : Tab α :=
  Tab.set d t k (f (Tab.get d t k))

/-- Every listed key is above `k`, rising, and no listed value is the default. -/
def Tab.wfFrom {α : Type} [DecidableEq α] (d : Nat → α) : Nat → Tab α → Bool
  | _, [] => true
  | k, (k', v) :: t => decide (k ≤ k') && decide (v ≠ d k') && Tab.wfFrom d (k' + 1) t

/-- The canonical form: keys strictly rising, no entry that an unlisted key would read as anyway. -/
def Tab.wf {α : Type} [DecidableEq α] (d : Nat → α) (t : Tab α) : Bool := Tab.wfFrom d 0 t

/-- Take out every key in `[lo, lo + n)`. -/
def Tab.dropRange {α : Type} (lo n : Nat) (t : Tab α) : Tab α :=
  t.filter (fun e => decide (e.1 < lo ∨ lo + n ≤ e.1))

/-- Plain bytes and words read as zero where nothing is listed. -/
def zero64 : Nat → BitVec 64 := fun _ => 0
def zero32 : Nat → BitVec 32 := fun _ => 0
def zero8 : Nat → BitVec 8 := fun _ => 0
def zeroNat : Nat → Nat := fun _ => 0

/-- Write a run of values at rising keys. -/
def Tab.setRun {α : Type} [DecidableEq α] (d : Nat → α) : Tab α → Nat → List α → Tab α
  | t, _, [] => t
  | t, k, v :: vs => Tab.setRun d (Tab.set d t k v) (k + 1) vs

/-- Read `n` values at rising keys. -/
def Tab.getRun {α : Type} (d : Nat → α) (t : Tab α) (k : Nat) : Nat → List α
  | 0 => []
  | n + 1 => Tab.get d t k :: Tab.getRun d t (k + 1) n

end Sys2Proof.Machine
end

