-- ==== Sys2Proof/Machine/Bits.lean ====
section
/-! DEFINITION. Bit fields, sign extension and little-endian byte strings: every integer of the device that
spans several bytes is little-endian (R4). -/

namespace Sys2Proof.Machine

/-- Bits [hi:lo] of a number. -/
def bits (w hi lo : Nat) : Nat := (w >>> lo) % 2 ^ (hi + 1 - lo)

/-- Bit `i` of a number. -/
def bit (w i : Nat) : Bool := Nat.testBit w i

/-- `w` with bits [lo + n - 1 : lo] replaced by `v` (its low `n` bits). -/
def setBits (w lo n v : Nat) : Nat :=
  w - bits w (lo + n - 1) lo * 2 ^ lo + (v % 2 ^ n) * 2 ^ lo

/-- The low `n` bits of `v` read as a two's-complement number. -/
def signed (n v : Nat) : Int :=
  let u := v % 2 ^ n
  if n = 0 then 0 else if u < 2 ^ (n - 1) then (u : Int) else (u : Int) - (2 ^ n : Nat)

/-- The two's-complement low `n` bits of an integer. -/
def unsigned (n : Nat) (i : Int) : Nat := (i % ((2 ^ n : Nat) : Int)).toNat

def b2n (b : Bool) : Nat := if b then 1 else 0

/-- A little-endian byte string as a number. -/
def leNat : List Byte → Nat
  | [] => 0
  | b :: bs => b.toNat + 256 * leNat bs

/-- The low `n` bytes of `v`, lowest first. -/
def leBytes : Nat → Nat → List Byte
  | 0, _ => []
  | n + 1, v => BitVec.ofNat 8 v :: leBytes n (v / 256)

/-- Saturating add to a count of `n` bits. -/
def satAdd (n c k : Nat) : Nat := min (c + k) (2 ^ n - 1)

/-- Wrapping add to a count of `n` bits. -/
def wrapAdd (n c k : Nat) : Nat := (c + k) % 2 ^ n

/-- (a - b) mod 2^n. -/
def subMod (n a b : Nat) : Nat := (a + 2 ^ n - b % 2 ^ n) % 2 ^ n

/-- How many of the low `n` bits of `w` are 1. -/
def popCount : Nat → Nat → Nat
  | 0, _ => 0
  | n + 1, w => w % 2 + popCount n (w / 2)

/-- The positions of the 1 bits among the low `n`, lowest first. -/
def onesOf (n w : Nat) : List Nat := (List.range n).filter (fun i => Nat.testBit w i)

/-- The first number below `n` that satisfies `p`. -/
def firstBelow (n : Nat) (p : Nat → Bool) : Option Nat := (List.range n).find? p

/-- The smallest of a list of numbers, `d` for none. -/
def minOf (d : Nat) : List Nat → Nat
  | [] => d
  | x :: xs => min x (minOf d xs)

/-- The largest of a list of numbers, `d` for none. -/
def maxOf (d : Nat) : List Nat → Nat
  | [] => d
  | x :: xs => max x (maxOf d xs)

/-- Add `n` zero bytes' worth of a list: its first `n` elements, padded with `z`. -/
def takePad {α : Type} (z : α) : Nat → List α → List α
  | 0, _ => []
  | n + 1, [] => z :: takePad z n []
  | n + 1, x :: xs => x :: takePad z n xs

/-- The absolute value of an integer difference of two numbers. -/
def absDiff (a b : Nat) : Nat := if a ≤ b then b - a else a - b

end Sys2Proof.Machine
end

