-- ==== Sys2Proof/Machine/Num.lean ====
section
/-! DEFINITION. Number formats and exact arithmetic (R98-R101, R106, R107, R130-R135, R142): every finite value is
an integer times a power of two, every operation computes the exact result and rounds it once. -/

namespace Sys2Proof.Machine

/-- A decoded value: finite values are (-1)^neg × m × 2^e, so zeros keep their sign. -/
inductive Num where
  | nan
  | inf (neg : Bool)
  | fin (neg : Bool) (m : Nat) (e : Int)
  deriving DecidableEq, Repr

/-- Which codes are special (R98). -/
inductive Special where
  | none | e4m3 | ieee
  deriving DecidableEq, Repr

/-- A floating-point element format (R98, R100): widths, bias, largest finite code without sign, canonical NaN. -/
structure Fmt where
  ebits : Nat
  mbits : Nat
  bias : Nat
  special : Special
  maxCode : Nat
  nanCode : Nat
  deriving DecidableEq, Repr

def fp4 : Fmt := ⟨2, 1, 1, .none, 0x7, 0⟩
def fp6e2 : Fmt := ⟨2, 3, 1, .none, 0x1F, 0⟩
def fp6e3 : Fmt := ⟨3, 2, 3, .none, 0x1F, 0⟩
def fp8e4 : Fmt := ⟨4, 3, 7, .e4m3, 0x7E, 0x7F⟩
def fp8e5 : Fmt := ⟨5, 2, 15, .ieee, 0x7B, 0x7F⟩
def fp16 : Fmt := ⟨5, 10, 15, .ieee, 0x7BFF, 0x7E00⟩
def bf16 : Fmt := ⟨8, 7, 127, .ieee, 0x7F7F, 0x7FC0⟩
def fp32 : Fmt := ⟨8, 23, 127, .ieee, 0x7F7FFFFF, 0x7FC00000⟩

def Fmt.width (f : Fmt) : Nat := 1 + f.ebits + f.mbits

/-- Decode an element (R98). -/
def decodeNum (f : Fmt) (w : Nat) : Num :=
  let neg := bit w (f.ebits + f.mbits)
  let e := bits w (f.ebits + f.mbits - 1) f.mbits
  let m := w % 2 ^ f.mbits
  let top := 2 ^ f.ebits - 1
  if f.special = .ieee ∧ e = top then (if m = 0 then .inf neg else .nan)
  else if f.special = .e4m3 ∧ e = top ∧ m = 2 ^ f.mbits - 1 then .nan
  else if e = 0 then .fin neg m (1 - (f.bias : Int) - f.mbits)
  else .fin neg (2 ^ f.mbits + m) ((e : Int) - f.bias - f.mbits)

/-- m × 2^s rounded to an integer, ties to even. -/
def rneShift (m : Nat) (s : Int) : Nat :=
  if 0 ≤ s then m * 2 ^ s.toNat
  else
    let k := (-s).toNat
    let q := m / 2 ^ k
    let r := m % 2 ^ k
    if 2 * r < 2 ^ k then q else if 2 ^ k < 2 * r then q + 1 else q + q % 2

/-- A rounded element: its code without sign, and whether it was clamped to the largest finite value or became an
infinity. -/
structure Rounded where
  code : Nat
  ovf : Bool
  deriving DecidableEq, Repr

/-- Round the magnitude m × 2^e to the format (R100). -/
def roundMag (f : Fmt) (m : Nat) (e : Int) : Rounded :=
  if m = 0 then ⟨0, false⟩
  else
    let top := (Nat.log2 m : Int) + e
    let emin : Int := 1 - (f.bias : Int)
    let ex := max top emin
    let r := rneShift m (e - (ex - f.mbits))
    let code := r + (ex - emin).toNat * 2 ^ f.mbits
    if f.maxCode < code then ⟨if f = fp32 then 0x7F800000 else f.maxCode, true⟩ else ⟨code, false⟩

def signCode (f : Fmt) (neg : Bool) (code : Nat) : Nat := (if neg then 2 ^ (f.ebits + f.mbits) else 0) + code

/-- Convert a value into a format (R100): a result that rounds to zero is +0. -/
def encodeNum (f : Fmt) : Num → Nat
  | .nan => f.nanCode
  | .inf neg =>
    if f.special = .ieee then signCode f neg (2 ^ (f.ebits + f.mbits) - 2 ^ f.mbits) else signCode f neg f.maxCode
  | .fin neg m e =>
    let r := roundMag f m e
    if r.code = 0 then 0 else signCode f neg r.code

/-- The conversion clamped a finite or infinite value to the largest finite one. -/
def encodeClamps (f : Fmt) : Num → Bool
  | .nan => false
  | .inf _ => f.special ≠ .ieee
  | .fin _ m e => (roundMag f m e).ovf && f ≠ fp32

def Num.isNan : Num → Bool
  | .nan => true
  | _ => false
def Num.isInf : Num → Bool
  | .inf _ => true
  | _ => false
def Num.isZero : Num → Bool
  | .fin _ m _ => m = 0
  | _ => false
def Num.neg : Num → Bool
  | .nan => false
  | .inf n => n
  | .fin n _ _ => n

def nan32 : Nat := 0x7FC00000
def inf32 (neg : Bool) : Nat := if neg then 0xFF800000 else 0x7F800000
def zero32c (neg : Bool) : Nat := if neg then 0x80000000 else 0
def dec32 (w : Nat) : Num := decodeNum fp32 w

/-- A signed dyadic number: m × 2^e. -/
structure Dy where
  m : Int
  e : Int
  deriving DecidableEq, Repr

def Dy.zero : Dy := ⟨0, 0⟩

def Num.dy : Num → Dy
  | .fin neg m e => ⟨if neg then -(m : Int) else m, e⟩
  | _ => Dy.zero

/-- Exact sum. -/
def Dy.add (a b : Dy) : Dy :=
  if a.e ≤ b.e then ⟨a.m + b.m * 2 ^ (b.e - a.e).toNat, a.e⟩ else ⟨a.m * 2 ^ (a.e - b.e).toNat + b.m, b.e⟩

/-- Exact product. -/
def Dy.mul (a b : Dy) : Dy := ⟨a.m * b.m, a.e + b.e⟩

/-- An exact value rounded to FP32; zero and values that round to zero are +0 (R100). -/
def Dy.to32 (a : Dy) : Nat := encodeNum fp32 (.fin (a.m < 0) a.m.natAbs a.e)

/-- Fused multiply-add, rounded once (R130). -/
def fma32 (x y z : Nat) : Nat :=
  let a := dec32 x
  let b := dec32 y
  let c := dec32 z
  let pn := a.neg != b.neg
  if a.isNan || b.isNan || c.isNan then nan32
  else if (a.isInf && b.isZero) || (a.isZero && b.isInf) then nan32
  else if a.isInf || b.isInf then (if c.isInf && c.neg ≠ pn then nan32 else inf32 pn)
  else if c.isInf then inf32 c.neg
  else
    let s := (a.dy.mul b.dy).add c.dy
    if s.m = 0 then
      zero32c ((a.isZero || b.isZero) && c.isZero && pn && c.neg)
    else s.to32

def one32 : Nat := 0x3F800000
def flip32 (x : Nat) : Nat := x ^^^ 0x80000000

/-- FP32 sum (R130). -/
def fadd32 (x y : Nat) : Nat := fma32 x one32 y
/-- FP32 difference (R130). -/
def fsub32 (x y : Nat) : Nat := fma32 x one32 (flip32 y)

/-- FP32 product (R130): a zero product has the XOR of the signs. -/
def fmul32 (x y : Nat) : Nat :=
  let a := dec32 x
  let b := dec32 y
  let pn := a.neg != b.neg
  if a.isNan || b.isNan then nan32
  else if (a.isInf && b.isZero) || (a.isZero && b.isInf) then nan32
  else if a.isInf || b.isInf then inf32 pn
  else if a.isZero || b.isZero then zero32c pn
  else (a.dy.mul b.dy).to32

/-- a + p of an accumulator (R107): an exact zero is +0. -/
def accAdd32 (x y : Nat) : Nat :=
  let a := dec32 x
  let b := dec32 y
  if a.isNan || b.isNan then nan32
  else if a.isInf && b.isInf && a.neg ≠ b.neg then nan32
  else if a.isInf then inf32 a.neg
  else if b.isInf then inf32 b.neg
  else (a.dy.add b.dy).to32

/-- Compare two values that are no NaN. -/
def Num.lt : Num → Num → Bool
  | .inf true, .inf true => false
  | .inf true, _ => true
  | _, .inf true => false
  | .inf false, _ => false
  | _, .inf false => true
  | a, b =>
    let d := a.dy.add ⟨-b.dy.m, b.dy.e⟩
    d.m < 0

def Num.eqv (a b : Num) : Bool := !a.lt b && !b.lt a

/-- FMIN and FMAX (R131): -0 is below +0. -/
def fminmax32 (mx : Bool) (x y : Nat) : Nat :=
  let a := dec32 x
  let b := dec32 y
  if a.isNan || b.isNan then nan32
  else
    let xLess := if a.isZero && b.isZero then a.neg && !b.neg else a.lt b
    if xLess then (if mx then y else x) else if a.isZero && b.isZero && a.neg = b.neg then x
    else if a.eqv b && !(a.isZero && b.isZero) then x else (if mx then x else y)

def fmin32 (x y : Nat) : Nat := fminmax32 false x y
def fmax32 (x y : Nat) : Nat := fminmax32 true x y

/-- A quotient of magnitudes, exact but for a last sticky bit: (2q + sticky) × 2^-(k+1). -/
def divMag (m1 m2 : Nat) : Nat × Int :=
  let k := 66 + Nat.log2 m2
  let q := m1 * 2 ^ k / m2
  let r := m1 * 2 ^ k % m2
  (2 * q + (if r = 0 then 0 else 1), -((k : Int) + 1))

/-- FDIV (R142). -/
def fdiv32 (x y : Nat) : Nat :=
  let a := dec32 x
  let b := dec32 y
  let pn := a.neg != b.neg
  if a.isNan || b.isNan then nan32
  else if (a.isInf && b.isInf) || (a.isZero && b.isZero) then nan32
  else if a.isInf || b.isZero then inf32 pn
  else if b.isInf || a.isZero then zero32c pn
  else match a, b with
    | .fin _ m1 e1, .fin _ m2 e2 =>
      let q := divMag m1 m2
      encodeNum fp32 (.fin pn q.1 (q.2 + e1 - e2))
    | _, _ => nan32

/-- The integer square root, bit by bit from bit `n - 1`. -/
def isqrtBits (v : Nat) : Nat → Nat → Nat
  | 0, r => r
  | n + 1, r => if (r + 2 ^ n) * (r + 2 ^ n) ≤ v then isqrtBits v n (r + 2 ^ n) else isqrtBits v n r

def isqrt (v : Nat) : Nat := isqrtBits v (Nat.log2 v / 2 + 1) 0

/-- FSQRT (R142). -/
def fsqrt32 (x : Nat) : Nat :=
  match dec32 x with
  | .nan => nan32
  | .inf true => nan32
  | .inf false => inf32 false
  | .fin neg m e =>
    if m = 0 then zero32c neg
    else if neg then nan32
    else
      let odd := e % 2 ≠ 0
      let v := m * 2 ^ (if odd then 81 else 80)
      let ev := if odd then e - 1 else e
      let r := isqrt v
      encodeNum fp32 (.fin false (2 * r + (if r * r = v then 0 else 1)) (ev / 2 - 40 - 1))

/-- FRSQRT (R142). -/
def frsqrt32 (x : Nat) : Nat :=
  match dec32 x with
  | .nan => nan32
  | .inf true => nan32
  | .inf false => 0
  | .fin neg m e =>
    if m = 0 then inf32 neg
    else if neg then nan32
    else
      let odd := e % 2 ≠ 0
      let v := if odd then 2 * m else m
      let ev := if odd then e - 1 else e
      let r := isqrt (2 ^ 160 / v)
      encodeNum fp32 (.fin false (2 * r + (if r * r * v = 2 ^ 160 then 0 else 1)) (-80 - 1 - ev / 2))

/-- FRCP (R142). -/
def frcp32 (x : Nat) : Nat := fdiv32 one32 x

/-- A value rounded to an integer with ties to even. -/
def Dy.round (d : Dy) : Int :=
  let r := rneShift d.m.natAbs d.e
  if d.m < 0 then -(r : Int) else r

/-- Saturate to [lo, hi]. -/
def clampInt (lo hi i : Int) : Int := max lo (min hi i)

/-- Signed integer of 32 bits. -/
def s32 (w : Nat) : Int := signed 32 w

/-- FTOI (R133). -/
def ftoi32 (x : Nat) : Nat :=
  match dec32 x with
  | .nan => 0
  | .inf neg => if neg then 0x80000000 else 0x7FFFFFFF
  | n => unsigned 32 (clampInt (-2147483648) 2147483647 n.dy.round)

/-- FTOI clamps, or meets a NaN. -/
def ftoiClamps (x : Nat) : Bool :=
  match dec32 x with
  | .nan => true
  | .inf _ => true
  | n => n.dy.round < -2147483648 || 2147483647 < n.dy.round

/-- An integer converted to FP32 by R100. -/
def intTo32 (i : Int) : Nat := encodeNum fp32 (.fin (i < 0) i.natAbs 0)

/-- ITOF (R133). -/
def itof32 (x : Nat) : Nat := intTo32 (s32 x)

/-- x × 2^q rounded once (R144). -/
def scale32 (x : Nat) (q : Int) : Nat :=
  match dec32 x with
  | .fin neg m e => if m = 0 then zero32c neg else encodeNum fp32 (.fin neg m (e + q))
  | _ => x

/-! ### MX blocks (R99, R101) -/

/-- A decoded element times 2^(x - 127). -/
def mxScale (n : Num) (x : Nat) : Num :=
  if x = 0xFF then .nan
  else match n with
    | .fin neg m e => .fin neg m (e + x - 127)
    | o => o

/-- E_F of R101. -/
def mxEmax (f : Fmt) : Int :=
  if f = fp4 ∨ f = fp6e2 then 2 else if f = fp6e3 then 4 else if f = fp8e4 then 8 else 15

/-- floor(log2 |v|), an infinity counting as 2^128. -/
def Num.log2mag : Num → Int
  | .inf _ => 128
  | .fin _ m e => (Nat.log2 m : Int) + e
  | .nan => 0

/-- Encode values as an MX block: the scale byte and the elements (R101). -/
def mxEncode (f : Fmt) (vs : List Num) : Nat × List Nat :=
  if vs.any Num.isNan then (0xFF, vs.map (fun _ => 0))
  else
    let live := vs.filter (fun v => !v.isZero)
    match live with
    | [] => (0, vs.map (fun _ => 0))
    | v :: rest =>
      let top := rest.foldl (fun a b => max a b.log2mag) v.log2mag
      let x := clampInt (-127) 127 (top - mxEmax f)
      ((x + 127).toNat, vs.map (fun v => encodeNum f (match v with
        | .fin neg m e => .fin neg m (e - x)
        | o => o)))

/-! ### Sums of products (R106, R174) -/

/-- What the products of a sum show so far. -/
structure SumSt where
  nan : Bool
  posInf : Bool
  negInf : Bool
  sum : Dy
  deriving DecidableEq, Repr

def SumSt.start : SumSt := ⟨false, false, false, Dy.zero⟩

/-- Add the product of two decoded operands. -/
def SumSt.mac (st : SumSt) (a b : Num) : SumSt :=
  if a.isNan || b.isNan || (a.isInf && b.isZero) || (a.isZero && b.isInf) then { st with nan := true }
  else if a.isInf || b.isInf then
    (if a.neg != b.neg then { st with negInf := true } else { st with posInf := true })
  else { st with sum := st.sum.add (a.dy.mul b.dy) }

/-- The pass result: NaN, an infinity, or the exact sum rounded once (R106). -/
def SumSt.result (st : SumSt) : Nat :=
  if st.nan || (st.posInf && st.negInf) then nan32
  else if st.posInf then inf32 false
  else if st.negInf then inf32 true
  else st.sum.to32

/-- A finite sum became an infinity (ARR_SAT[FP_INF]). -/
def SumSt.overflows (st : SumSt) : Bool :=
  !(st.nan || st.posInf || st.negInf) && bits st.sum.to32 30 0 = 0x7F800000

end Sys2Proof.Machine
end

