-- ==== Sys2Proof/Machine/FlitCode.lean ====
section
/-! DEFINITION. Flits as the wire carries them: link header, payload, CRC-32, Reed-Solomon code words with their correction, and
the PAM4 levels of the lanes behind their scramblers (R218, R221, R224-R227). -/

namespace Sys2Proof.Machine

/-- The link header's fields (R227). -/
structure FlitHdr where
  type : Nat := 0
  seq : Nat := 0
  ack : Nat := 0
  nak : Bool := false
  nakid : Nat := 0
  replay : Bool := false
  vc : Nat := 0
  start : Nat := 0
  units : Nat := 0
  crVc : Nat := 0
  crKind : Nat := 0
  crCount : Nat := 0
  abort : Bool := false
  deriving DecidableEq, Repr

def FlitHdr.unpack (n : Nat) : FlitHdr :=
  { type := bits n 95 92, seq := bits n 91 80, ack := bits n 79 68, nak := bit n 67, nakid := bits n 66 65
    replay := bit n 64, vc := bits n 63 62, start := bits n 61 55, units := bits n 54 52, crVc := bits n 51 50
    crKind := bits n 49 49, crCount := bits n 48 33, abort := bit n 32 }

def FlitHdr.pack (h : FlitHdr) : Nat :=
  b2n h.abort * 2 ^ 32 + h.crCount % 2 ^ 16 * 2 ^ 33 + h.crKind % 2 * 2 ^ 49 + h.crVc % 4 * 2 ^ 50 +
  h.units % 8 * 2 ^ 52 + h.start % 2 ^ 7 * 2 ^ 55 + h.vc % 4 * 2 ^ 62 + b2n h.replay * 2 ^ 64 + h.nakid % 4 * 2 ^ 65 +
  b2n h.nak * 2 ^ 67 + h.ack % 4096 * 2 ^ 68 + h.seq % 4096 * 2 ^ 80 + h.type % 16 * 2 ^ 92

/-- Unit u of a payload. -/
def payUnit (p u : Nat) : BitVec 256 := BitVec.ofNat 256 (p >>> (256 * u))

/-- A payload that holds the units in order. -/
def payOf : List (BitVec 256) → Nat
  | [] => 0
  | u :: us => u.toNat + 2 ^ 256 * payOf us

/-- One bit step of a reflected CRC with polynomial `poly` (itself reflected). -/
def crcBit (poly c : Nat) : Nat := if c % 2 = 1 then (c / 2) ^^^ poly else c / 2

/-- A reflected CRC-32 over bytes, before the final XOR. -/
def crcBytes (poly : Nat) : List Byte → Nat → Nat
  | [], c => c
  | b :: bs, c => crcBytes poly bs ((List.range 8).foldl (fun c _ => crcBit poly c) (c ^^^ b.toNat))

/-- CRC-32 of R226: polynomial 0x04C11DB7 reflected. -/
def crc32 (bs : List Byte) : Nat := crcBytes 0xEDB88320 bs 0xFFFFFFFF ^^^ 0xFFFFFFFF

/-- CRC of a block's configuration (R452): polynomial 0x1EDC6F41 reflected. -/
def crc32c (bs : List Byte) : Nat := crcBytes 0x82F63B78 bs 0xFFFFFFFF ^^^ 0xFFFFFFFF

/-- Times α in GF(2^8) with field polynomial 0x11D (R225). -/
def gfX (a : Nat) : Nat := if 128 ≤ a then (2 * a - 256) ^^^ 0x1D else 2 * a

def gfMul (a b : Nat) : Nat :=
  ((List.range 8).foldl (fun (x : Nat × Nat) i => (if bit b i then x.1 ^^^ x.2 else x.1, gfX x.2)) (0, a)).1

/-- (x - α^0) … (x - α^7), without its leading term, highest coefficient first. -/
def rsGen : List Nat :=
  let step (g : List Nat) (r : Nat) : List Nat :=
    (g ++ [0]).zipWith (· ^^^ ·) (0 :: g.map (gfMul r))
  (((List.range 8).foldl (fun (x : List Nat × Nat) _ => (step x.1 x.2, gfX x.2)) ([1], 1)).1).drop 1

/-- The 8 check bytes of a codeword: the remainder of the message, highest coefficient first (R225). -/
def rsCheck (msg : List Nat) : List Nat :=
  msg.foldl (fun r m =>
    let f := (r.headD 0) ^^^ m
    ((r.drop 1) ++ [0]).zipWith (· ^^^ ·) (rsGen.map (gfMul f))) (List.replicate 8 0)

/-- Every second element, from the first. -/
def evens : List Nat → List Nat
  | [] => []
  | [a] => [a]
  | a :: _ :: t => a :: evens t

def weave : List Nat → List Nat → List Nat
  | a :: as, b :: bs => a :: b :: weave as bs
  | _, _ => []

/-- The 256 bytes of a flit (R224). -/
def flitBytes (hdr payload : Nat) : BitVec 2048 :=
  let body := leBytes 12 hdr ++ leBytes 224 payload
  let msg := (body ++ leBytes 4 (crc32 body)).map BitVec.toNat
  let chk := weave (rsCheck (evens msg)) (rsCheck (evens (msg.drop 1)))
  BitVec.ofNat 2048 (leNat ((msg ++ chk).map (BitVec.ofNat 8)))

/-! ### Correction of a received codeword (R225) -/

/-- α to the n. -/
def gfAlpha : Nat → Nat
  | 0 => 1
  | n + 1 => gfX (gfAlpha n)

/-- The inverse of a field element that is not zero: its 254th power. -/
def gfInv (a : Nat) : Nat := (List.range 254).foldl (fun x _ => gfMul x a) 1

/-- The syndromes of a codeword, its highest coefficient first: its values at α^0 … α^7. -/
def rsSyndromes (code : List Nat) : List Nat :=
  (List.range 8).map (fun i => code.foldl (fun acc c => gfMul acc (gfAlpha i) ^^^ c) 0)

/-- A polynomial's value, lowest coefficient first. -/
def polyAt (p : List Nat) (x : Nat) : Nat := p.foldr (fun c acc => c ^^^ gfMul x acc) 0

/-- The sum of two polynomials, lowest coefficient first. -/
def polyAdd : List Nat → List Nat → List Nat
  | [], q => q
  | p, [] => p
  | a :: p, b :: q => (a ^^^ b) :: polyAdd p q

/-- The search for the shortest recurrence of the syndromes: locator, the one before its last change of length, its length,
the shift and the discrepancy of that change. -/
structure RsSearch where
  loc : List Nat
  old : List Nat
  len : Nat
  shift : Nat
  disc : Nat
  deriving DecidableEq, Repr

def rsSearchStep (syn : List Nat) (x : RsSearch) (n : Nat) : RsSearch :=
  let d := (List.range (x.len + 1)).foldl (fun a i => a ^^^ gfMul (x.loc.getD i 0) (syn.getD (n - i) 0)) 0
  if d = 0 then { x with shift := x.shift + 1 }
  else
    let loc := polyAdd x.loc (List.replicate x.shift 0 ++ x.old.map (gfMul (gfMul d (gfInv x.disc))))
    if 2 * x.len ≤ n then ⟨loc, x.loc, n + 1 - x.len, 1, d⟩ else { x with loc := loc, shift := x.shift + 1 }

/-- The values to add to the 128 bytes of a codeword with a locator: at the place of x^k it is not zero where α^-k is a root. -/
def rsErrors (syn loc : List Nat) : List Nat :=
  let omega := (List.range 8).map (fun n =>
    (List.range (n + 1)).foldl (fun a i => a ^^^ gfMul (loc.getD i 0) (syn.getD (n - i) 0)) 0)
  let deriv := (List.range 8).map (fun i => if i % 2 = 0 then loc.getD (i + 1) 0 else 0)
  (List.range 128).map (fun j =>
    let x := gfAlpha (127 - j)
    let xi := gfInv x
    if polyAt loc xi = 0 then gfMul (gfMul x (polyAt omega xi)) (gfInv (polyAt deriv xi)) else 0)

/-- Decode a received codeword, highest coefficient first: the codeword that differs from it in at most 4 bytes, with the number of
bytes corrected; none where there is no such codeword (R225). -/
def rsDecode (code : List Nat) : Option (List Nat × Nat) :=
  let syn := rsSyndromes code
  if syn.all (· = 0) then some (code, 0)
  else
    let x := (List.range 8).foldl (rsSearchStep syn) ⟨[1], [1], 0, 1, 1⟩
    let err := rsErrors syn x.loc
    let fixed := code.zipWith (· ^^^ ·) err
    let n := (err.filter (· ≠ 0)).length
    if n ≤ 4 ∧ (rsSyndromes fixed).all (· = 0) = true then some (fixed, n) else none

/-- A received flit: its header and payload where it is good, and the byte symbols corrected in its codewords (R226). -/
structure RxFlit where
  good : Option (Nat × Nat)
  syms : Nat
  deriving DecidableEq, Repr

/-- A flit of 256 received bytes is good when both codewords decode and the CRC-32 of the corrected bytes matches (R224-R226). -/
def rxFlit (raw : List Nat) : RxFlit :=
  let chk := raw.drop 240
  let a := rsDecode (evens (raw.take 240) ++ evens chk)
  let b := rsDecode (evens ((raw.take 240).drop 1) ++ evens (chk.drop 1))
  match a, b with
  | some x, some y =>
    let body := (weave (x.1.take 120) (y.1.take 120)).map (BitVec.ofNat 8)
    ⟨if crc32 (body.take 236) = leNat (body.drop 236) then
      some (leNat (body.take 12), leNat ((body.drop 12).take 224)) else none, x.2 + y.2⟩
  | _, _ => ⟨none, ((a.map Prod.snd).getD 0) + ((b.map Prod.snd).getD 0)⟩

/-! ### Lanes (R218) -/

/-- One bit of the additive scrambler x^31 + x^28 + 1, and its state after it: the bit is the sum of the state's bits 30 and 27, and
enters the state at bit 0. PRESUMED: the rule names the polynomial and the load only; this is the usual form (log entry 117). -/
def scrBit (s : Nat) : Nat × Nat :=
  let o := b2n (bit s 30) ^^^ b2n (bit s 27)
  (o, (2 * s + o) % 2 ^ 31)

/-- The scrambler's bits for one byte, bit 7 first. -/
def scrByte (s : Nat) : Nat × Nat := (List.range 8).foldl (fun x _ => ((2 * x.1 + (scrBit x.2).1), (scrBit x.2).2)) (0, s)

def scrBytes : Nat → Nat → List Nat × Nat
  | 0, s => ([], s)
  | n + 1, s =>
    let r := scrByte s
    let t := scrBytes n r.2
    (r.1 :: t.1, t.2)

/-- What alignment loads into the scrambler of each lane (R218). -/
def scrLoad : Tab Nat := (List.range 8).map (fun n => (n, 0x7FFFFF00 + n))

/-- Lanes of a working set, and the first of them (R218). -/
def laneCount (set : Nat) : Nat := if set = 0x0F ∨ set = 0xF0 then 4 else 8
def laneFirst (set : Nat) : Nat := if set = 0xF0 then 4 else 0

/-- Gray-coded PAM4: the level of two bits, and back (R218). -/
def grayLevel (b : Nat) : Nat := if b = 2 then 3 else if b = 3 then 2 else b

/-- The four levels of a byte, bits [7:6] first, in two bits each with the first lowest; and back. -/
def byteLevels (b : Nat) : Nat := ((List.range 4).map (fun m => grayLevel (b / 4 ^ (3 - m) % 4) * 4 ^ m)).sum
def levelsByte (l : Nat) : Nat := ((List.range 4).map (fun m => grayLevel (l / 4 ^ m % 4) * 4 ^ (3 - m))).sum

/-- The scramblers' bytes for one flit, lane by lane, and their states after it (R218). -/
def scrFlit (set : Nat) (scr : Tab Nat) : List (List Nat) × Tab Nat :=
  let w := laneCount set
  let r := (List.range w).map (fun k => (laneFirst set + k, scrBytes (256 / w) (Tab.get zeroNat scr (laneFirst set + k))))
  (r.map (fun x => x.2.1), r.foldl (fun t x => Tab.set zeroNat t x.1 x.2.2) scr)

/-- What the lanes carry for a flit of 256 bytes: byte i goes on the working set's lane i mod w. The answer lists the lanes one
after the other, each with its 1,024 / w levels in the order sent, two bits a level. -/
def lanesOf (set : Nat) (scr : Tab Nat) (bytes : List Nat) : BitVec 2048 :=
  let w := laneCount set
  let s := (scrFlit set scr).1
  BitVec.ofNat 2048 (leNat (((List.range w).flatMap (fun k =>
    (List.range (256 / w)).map (fun j => byteLevels (bytes.getD (j * w + k) 0 ^^^ (s.getD k []).getD j 0)))).map (BitVec.ofNat 8)))

/-- The 256 bytes that levels received on the lanes carry. -/
def bytesOf (set : Nat) (scr : Tab Nat) (levels : BitVec 2048) : List Nat :=
  let w := laneCount set
  let s := (scrFlit set scr).1
  let lv := (leBytes 256 levels.toNat).map BitVec.toNat
  (List.range 256).map (fun i =>
    levelsByte (lv.getD ((i % w) * (256 / w) + i / w) 0) ^^^ (s.getD (i % w) []).getD (i / w) 0)

end Sys2Proof.Machine
end

