-- ==== Sys2Proof/Config.lean ====
section
/-! DEFINITION. What the manual leaves open: free values (constants without a body, so that nothing can be proved
of the value itself) and the algorithms that the manual names by reference to other standards. -/

namespace Sys2Proof.Config

/-- A free value: number `n` of the values that no rule states (log entry 2). -/
opaque freeValue : Nat → BitVec 64

/-- The pacer frequency of a region, in millionths of nominal, at its `n`-th period (R20, log entry 5). -/
opaque pacerPpm : Nat → Nat → Nat

/-! The algorithms of FIPS 197, 202, 203 and 204 and of SP 800-38D, which the manual names and does not restate
(log entry 8). -/

/-- Block `i` of the AES-256-GCM key stream under a key and a nonce. -/
opaque gcmStream : BitVec 256 → BitVec 96 → Nat → BitVec 128

/-- The AES-256-GCM tag over additional data and ciphertext. -/
opaque gcmTag : BitVec 256 → BitVec 96 → List Byte → List Byte → BitVec 128

/-- SHAKE256 with an output of 256 bits; its first bytes are those of every shorter output. -/
opaque shake256 : List Byte → BitVec 256

/-- ML-DSA-65 verification: public key, message, signature, with an empty context string. -/
opaque mldsaVerify : List Byte → List Byte → List Byte → Bool

/-- ML-KEM-1024 decapsulation of a ciphertext with the device's binding key. -/
opaque mlkemDecap : List Byte → BitVec 256

/-- The device's identity hash and binding hash (R381), its serial number and its certificate chains (R382). -/
opaque identityHash : BitVec 256
opaque bindingHash : BitVec 256
opaque serial : BitVec 128
opaque certChain : Nat → List Byte

/-- Signing with the device's identity key (R381, R384). -/
opaque identitySign : List Byte → List Byte

/-- The raw value of a grade, by its stall count per barn; the version and digest of the boot ROM; and the firmware image as
delivered (R3, R384, R435). -/
opaque gradeCode : Nat → BitVec 64
opaque romVersion : BitVec 32
opaque romDigest : BitVec 256
opaque factoryImage : List Byte

end Sys2Proof.Config
end

