-- ==== Sys2Proof/Machine/RegMap.lean ====
section
/-! DEFINITION. The register map of the device: every register block of R456, every register of each block's
register map with its instances, and every field with its place, access code, reset value and whether it is
sticky (R443-R456 and the register tables of every chapter). Addresses are direct BAR0 offsets (R441). -/

namespace Sys2Proof.Machine

/-- Access codes of register fields (R446). -/
inductive Acc where
  | rw | rwl | ro | wo
  deriving DecidableEq, Repr

/-- One field of a register. -/
structure FieldRow where
  name : String
  lo : Nat
  width : Nat
  acc : Acc
  reset : Nat
  sticky : Bool
  deriving DecidableEq, Repr

/-- One register of a block: offset of its first direct word, and up to two ranges of like registers. -/
structure RegRow where
  name : String
  off : Nat
  n1 : Nat
  s1 : Nat
  n2 : Nat
  s2 : Nat
  fields : List FieldRow
  deriving DecidableEq, Repr

/-- The register blocks (R456). -/
inductive Blk where

  | stl | spd | arr | vec | lft | net | lnk | pcr | fab | srv | yok | sec | err | pwr | hst | tck | ldr
  deriving DecidableEq, Repr

def Blk.all : List Blk :=
  [.stl, .spd, .arr, .vec, .lft, .net, .lnk, .pcr, .fab, .srv, .yok, .sec, .err, .pwr, .hst, .tck, .ldr]

/-- BLK_ID[TYPE] (R456). -/
def Blk.type : Blk → Nat
  | .stl => 1
  | .spd => 2
  | .arr => 3
  | .vec => 4
  | .lft => 5
  | .net => 6
  | .lnk => 7
  | .pcr => 8
  | .fab => 9
  | .srv => 10
  | .yok => 11
  | .sec => 12
  | .err => 13
  | .pwr => 14
  | .hst => 15
  | .tck => 16
  | .ldr => 17

/-- BAR0 offset of the first block of the kind (R456). -/
def Blk.base0 : Blk → Nat
  | .stl => 0x0
  | .spd => 0x10000
  | .arr => 0x20000
  | .vec => 0x30000
  | .lft => 0x40000
  | .net => 0x50000
  | .lnk => 0x2000000
  | .pcr => 0x3000000
  | .fab => 0x3010000
  | .srv => 0x3020000
  | .yok => 0x3030000
  | .sec => 0x3040000
  | .err => 0x3050000
  | .pwr => 0x3060000
  | .hst => 0x3070000
  | .tck => 0x4000000
  | .ldr => 0x4010000

/-- Number of blocks of the kind. -/
def Blk.count : Blk → Nat
  | .stl => 24
  | .spd => 24
  | .arr => 24
  | .vec => 24
  | .lft => 24
  | .net => 24
  | .lnk => 4
  | .pcr => 1
  | .fab => 1
  | .srv => 1
  | .yok => 1
  | .sec => 1
  | .err => 1
  | .pwr => 1
  | .hst => 2
  | .tck => 1
  | .ldr => 1

/-- Distance between blocks of the kind. -/
def Blk.stride : Blk → Nat
  | .stl => 0x100000
  | .spd => 0x100000
  | .arr => 0x100000
  | .vec => 0x100000
  | .lft => 0x100000
  | .net => 0x100000
  | .lnk => 0x10000
  | .pcr => 0x0
  | .fab => 0x0
  | .srv => 0x0
  | .yok => 0x0
  | .sec => 0x0
  | .err => 0x0
  | .pwr => 0x0
  | .hst => 0x10000
  | .tck => 0x0
  | .ldr => 0x0

/-- BAR0 offset of block number `i` of a kind. -/
def Blk.base (b : Blk) (i : Nat) : Nat := b.base0 + b.stride * i

/-- The common registers (R455). -/
def commonRows : List RegRow := [
  ⟨"BLK_ID", 0x0, 1, 0x8, 1, 0x8,
    [⟨"TYPE", 24, 8, .ro, 0, false⟩,
     ⟨"INSTANCE", 16, 8, .ro, 0, false⟩,
     ⟨"MAJOR", 8, 8, .ro, 9, false⟩,
     ⟨"MINOR", 0, 8, .ro, 0, false⟩]⟩,
  ⟨"BLK_CTRL", 0x8, 1, 0x8, 1, 0x8,
    [⟨"ENABLE", 0, 1, .rw, 0, false⟩]⟩,
  ⟨"BLK_STATUS", 0x10, 1, 0x8, 1, 0x8,
    [⟨"CRC_FAULT", 2, 1, .rw, 0, true⟩,
     ⟨"ENABLE_REFUSED", 1, 1, .rw, 0, true⟩,
     ⟨"WRITE_IGNORED", 0, 1, .rw, 0, true⟩]⟩,
  ⟨"CFG_REF", 0x18, 1, 0x8, 1, 0x8,
    [⟨"REF", 0, 32, .rwl, 0, false⟩]⟩,
  ⟨"CFG_CRC", 0x20, 1, 0x8, 1, 0x8,
    [⟨"CRC", 0, 32, .ro, 0, false⟩]⟩,
  ⟨"BLK_COUNT", 0x28, 1, 0x8, 1, 0x8,
    [⟨"UNMAPPED", 48, 16, .rw, 0, true⟩,
     ⟨"IGNORED", 32, 16, .rw, 0, true⟩,
     ⟨"CRC_FAULTS", 16, 16, .rw, 0, true⟩]⟩]

/-- The registers of a block STL beside the common ones. -/
def rowsStl : List RegRow := [
  ⟨"STL_CORE", 0x100, 48, 0x8, 1, 0x8,
    [⟨"STATE", 32, 4, .ro, 0, false⟩,
     ⟨"CALL_DEPTH", 27, 3, .ro, 0, false⟩,
     ⟨"LOOP_DEPTH", 24, 3, .ro, 0, false⟩,
     ⟨"IN_ROUTINE", 18, 1, .ro, 0, false⟩,
     ⟨"PC", 0, 18, .ro, 0, false⟩]⟩,
  ⟨"STL_QFILL", 0x400, 48, 0x8, 1, 0x8,
    [⟨"LFT", 32, 8, .ro, 0, false⟩,
     ⟨"NET", 24, 8, .ro, 0, false⟩,
     ⟨"DMA", 16, 8, .ro, 0, false⟩,
     ⟨"VEC", 8, 8, .ro, 0, false⟩,
     ⟨"ARR", 0, 8, .ro, 0, false⟩]⟩,
  ⟨"STL_STARVE", 0x700, 48, 0x8, 1, 0x8,
    [⟨"EVENTS", 32, 32, .ro, 0, false⟩,
     ⟨"PERIODS", 0, 32, .ro, 0, false⟩]⟩,
  ⟨"STL_FAULT", 0xa00, 48, 0x8, 1, 0x8,
    [⟨"VALID", 63, 1, .rw, 0, true⟩,
     ⟨"CODE", 32, 16, .ro, 0, false⟩,
     ⟨"PC", 0, 18, .ro, 0, false⟩]⟩,
  ⟨"STL_SHAPE_ENTRY", 0x1000, 48, 0x80, 16, 0x8,
    [⟨"VALID", 31, 1, .rwl, 0, false⟩,
     ⟨"ENTRY", 0, 14, .rwl, 0, false⟩]⟩]

/-- The registers of a block SPD beside the common ones. -/
def rowsSpd : List RegRow := [
  ⟨"SPD_DMA", 0x100, 48, 0x8, 1, 0x8,
    [⟨"COMPLETED", 32, 32, .ro, 0, false⟩,
     ⟨"BUSY", 0, 4, .ro, 0, false⟩]⟩,
  ⟨"SPD_ERRCNT", 0x400, 48, 0x8, 1, 0x8,
    [⟨"CONFLICT", 48, 16, .rw, 0, true⟩,
     ⟨"EPOCH", 32, 16, .rw, 0, true⟩,
     ⟨"CORRECTED", 16, 16, .rw, 0, true⟩,
     ⟨"UNCORRECTED", 0, 16, .rw, 0, true⟩]⟩,
  ⟨"SPD_ERRADDR", 0x700, 48, 0x8, 1, 0x8,
    [⟨"VALID", 63, 1, .rw, 0, true⟩,
     ⟨"NN", 48, 8, .ro, 0, false⟩,
     ⟨"ADDR", 0, 48, .ro, 0, false⟩]⟩,
  ⟨"SPD_CLEAR", 0xa00, 1, 0x8, 1, 0x8,
    [⟨"COUNT", 32, 32, .ro, 0, false⟩,
     ⟨"FAULT", 3, 1, .ro, 0, false⟩,
     ⟨"STATE", 0, 3, .ro, 0, false⟩]⟩]

/-- The registers of a block ARR beside the common ones. -/
def rowsArr : List RegRow := [
  ⟨"ARR_STATE", 0x100, 48, 0x8, 1, 0x8,
    [⟨"DRAIN", 16, 1, .ro, 0, false⟩,
     ⟨"HELD", 8, 8, .ro, 0, false⟩,
     ⟨"LOADING", 4, 4, .ro, 0, false⟩,
     ⟨"ACTIVE", 0, 4, .ro, 0, false⟩]⟩,
  ⟨"ARR_COUNT", 0x400, 48, 0x8, 1, 0x8,
    [⟨"LOADS", 32, 32, .ro, 0, false⟩,
     ⟨"PASSES", 0, 32, .ro, 0, false⟩]⟩,
  ⟨"ARR_ACTIVE", 0x700, 48, 0x8, 1, 0x8,
    [⟨"BEATS", 0, 64, .ro, 0, false⟩]⟩,
  ⟨"ARR_SAT", 0xa00, 48, 0x8, 1, 0x8,
    [⟨"INT_SAT", 48, 16, .rw, 0, true⟩,
     ⟨"FP_INF", 32, 16, .rw, 0, true⟩,
     ⟨"ACC_CORRECTED", 16, 16, .rw, 0, true⟩,
     ⟨"ACC_UNCORRECTED", 0, 16, .rw, 0, true⟩]⟩]

/-- The registers of a block VEC beside the common ones. -/
def rowsVec : List RegRow := [
  ⟨"VEC_STATE", 0x100, 48, 0x8, 1, 0x8,
    [⟨"ACTIVE", 12, 1, .ro, 0, false⟩,
     ⟨"LAST_OP", 0, 12, .ro, 0, false⟩]⟩,
  ⟨"VEC_COUNT", 0x400, 48, 0x8, 1, 0x8,
    [⟨"REPS", 32, 32, .ro, 0, false⟩,
     ⟨"COMMANDS", 0, 32, .ro, 0, false⟩]⟩,
  ⟨"VEC_ACTIVE", 0x700, 48, 0x8, 1, 0x8,
    [⟨"BEATS", 0, 64, .ro, 0, false⟩]⟩,
  ⟨"VEC_SPECIAL", 0xa00, 48, 0x8, 1, 0x8,
    [⟨"NAN_NEW", 48, 16, .rw, 0, true⟩,
     ⟨"INF_NEW", 32, 16, .rw, 0, true⟩,
     ⟨"CVT_SAT", 16, 16, .rw, 0, true⟩,
     ⟨"DIV_ZERO", 0, 16, .rw, 0, true⟩]⟩]

/-- The registers of a block LFT beside the common ones. -/
def rowsLft : List RegRow := [
  ⟨"LFT_CTRL", 0x100, 1, 0x8, 1, 0x8,
    [⟨"SCRUB", 8, 1, .rwl, 1, false⟩,
     ⟨"RESEND_SRC", 0, 2, .rwl, 0, false⟩]⟩,
  ⟨"LFT_BANK_STATE", 0x200, 16, 0x8, 1, 0x8,
    [⟨"STATE", 0, 32, .ro, 0, false⟩]⟩,
  ⟨"LFT_REFRESH", 0x300, 1, 0x8, 1, 0x8,
    [⟨"TIMER", 32, 32, .ro, 0, false⟩,
     ⟨"SLOT", 0, 6, .ro, 0, false⟩]⟩,
  ⟨"LFT_ACTIVE", 0x308, 1, 0x8, 1, 0x8,
    [⟨"PEAK", 8, 8, .rw, 0, true⟩,
     ⟨"NOW", 0, 8, .ro, 0, false⟩]⟩,
  ⟨"LFT_ERRCNT", 0x310, 1, 0x8, 1, 0x8,
    [⟨"CORRECTED", 48, 16, .rw, 0, true⟩,
     ⟨"REREAD", 32, 16, .rw, 0, true⟩,
     ⟨"RESENT", 16, 16, .rw, 0, true⟩,
     ⟨"LOST", 0, 16, .rw, 0, true⟩]⟩,
  ⟨"LFT_ERRADDR", 0x318, 1, 0x8, 1, 0x8,
    [⟨"VALID", 63, 1, .rw, 0, true⟩,
     ⟨"NN", 48, 8, .ro, 0, false⟩,
     ⟨"OFFSET", 0, 31, .ro, 0, false⟩]⟩,
  ⟨"LFT_RESEND", 0x320, 1, 0x8, 1, 0x8,
    [⟨"WAITS", 4, 32, .ro, 0, false⟩,
     ⟨"BUSY", 0, 4, .ro, 0, false⟩]⟩,
  ⟨"LFT_SPARES", 0x328, 1, 0x8, 1, 0x8,
    [⟨"RETIRED", 32, 32, .ro, 0, false⟩,
     ⟨"MIN_BANK", 8, 8, .ro, 0, false⟩,
     ⟨"MIN_LEFT", 0, 8, .ro, 64, false⟩]⟩]

/-- The registers of a block NET beside the common ones. -/
def rowsNet : List RegRow := [
  ⟨"NET_CTRL", 0x100, 1, 0x8, 1, 0x8,
    [⟨"UNS_ROUTE", 0, 2, .rwl, 0, false⟩]⟩,
  ⟨"NET_RESEND", 0x108, 1, 0x8, 1, 0x8,
    [⟨"RESENDS", 32, 32, .ro, 0, false⟩,
     ⟨"HELD", 0, 32, .ro, 0, false⟩]⟩,
  ⟨"NET_ERRADDR", 0x110, 1, 0x8, 1, 0x8,
    [⟨"VALID", 63, 1, .rw, 0, true⟩,
     ⟨"NN", 48, 8, .ro, 0, false⟩,
     ⟨"ADDR", 0, 48, .ro, 0, false⟩]⟩,
  ⟨"NET_SLOT_SEL", 0x118, 1, 0x8, 1, 0x8,
    [⟨"STALL", 8, 6, .rw, 0, false⟩,
     ⟨"SLOT", 0, 8, .rw, 0, false⟩]⟩,
  ⟨"NET_SLOT_DATA0", 0x120, 1, 0x8, 1, 0x8,
    [⟨"VALID", 63, 1, .ro, 0, false⟩,
     ⟨"BASE", 32, 22, .ro, 0, false⟩,
     ⟨"RING", 16, 16, .ro, 0, false⟩,
     ⟨"PTR", 0, 16, .ro, 0, false⟩]⟩,
  ⟨"NET_SLOT_DATA1", 0x128, 1, 0x8, 1, 0x8,
    [⟨"SIGSEL", 8, 16, .ro, 0, false⟩,
     ⟨"SIGINC", 0, 8, .ro, 0, false⟩]⟩,
  ⟨"NET_LINK_SCHED", 0x200, 4, 0x8, 1, 0x8,
    [⟨"FLITS", 0, 64, .ro, 0, false⟩]⟩,
  ⟨"NET_LINK_UNS", 0x240, 4, 0x8, 1, 0x8,
    [⟨"FLITS", 0, 64, .ro, 0, false⟩]⟩,
  ⟨"NET_CREDIT", 0x280, 4, 0x8, 1, 0x8,
    [⟨"CTRL", 16, 8, .ro, 8, false⟩,
     ⟨"RSP", 8, 8, .ro, 16, false⟩,
     ⟨"REQ", 0, 8, .ro, 16, false⟩]⟩]

/-- The registers of a block LNK beside the common ones. -/
def rowsLnk : List RegRow := [
  ⟨"LNK_PORT_CTRL", 0x100, 8, 0x8, 1, 0x8,
    [⟨"RETRAIN", 16, 1, .wo, 0, false⟩,
     ⟨"ROLE", 10, 2, .rwl, 0, false⟩,
     ⟨"MAJOR_MAX", 8, 2, .rwl, 0, false⟩,
     ⟨"RATE_MAX", 4, 2, .rwl, 2, false⟩,
     ⟨"ENABLE", 0, 1, .rw, 0, false⟩]⟩,
  ⟨"LNK_PORT_STATE", 0x140, 8, 0x8, 1, 0x8,
    [⟨"LANES_GOOD", 32, 8, .ro, 0, false⟩,
     ⟨"MAJOR", 24, 4, .ro, 0, false⟩,
     ⟨"MINOR", 16, 8, .ro, 0, false⟩,
     ⟨"WIDTH4", 12, 1, .ro, 0, false⟩,
     ⟨"RATE", 10, 2, .ro, 0, false⟩,
     ⟨"STATE", 0, 4, .ro, 0, false⟩]⟩,
  ⟨"LNK_PARTNER", 0x180, 8, 0x8, 1, 0x8,
    [⟨"PART", 48, 16, .ro, 0, false⟩,
     ⟨"PLANE", 44, 4, .ro, 0, false⟩,
     ⟨"PORT", 32, 5, .ro, 0, false⟩,
     ⟨"DEVICE", 0, 12, .ro, 0, false⟩]⟩,
  ⟨"LNK_REPLAY_CFG", 0x1c0, 8, 0x8, 1, 0x8,
    [⟨"FEC_THRESH", 48, 16, .rwl, 1000, false⟩,
     ⟨"LIMIT", 36, 4, .rwl, 4, false⟩,
     ⟨"TIMEOUT_NS", 0, 32, .rwl, 400, false⟩]⟩,
  ⟨"LNK_FEC", 0x200, 8, 0x8, 1, 0x8,
    [⟨"SYMBOLS", 32, 32, .ro, 0, false⟩,
     ⟨"BAD_FLITS", 0, 32, .ro, 0, false⟩]⟩,
  ⟨"LNK_REPLAY", 0x240, 8, 0x8, 1, 0x8,
    [⟨"RETRAINS", 48, 16, .rw, 0, true⟩,
     ⟨"TIMER", 32, 16, .rw, 0, true⟩,
     ⟨"NAK", 16, 16, .rw, 0, true⟩,
     ⟨"DUPLICATES", 0, 16, .rw, 0, true⟩]⟩,
  ⟨"LNK_BYPASS", 0x280, 8, 0x8, 1, 0x8,
    [⟨"SENT", 32, 32, .ro, 0, false⟩,
     ⟨"DROPPED", 16, 16, .rw, 0, true⟩,
     ⟨"UNKNOWN", 0, 16, .rw, 0, true⟩]⟩,
  ⟨"LNK_TRANSIT", 0x2c0, 8, 0x8, 1, 0x8,
    [⟨"FORWARDED", 32, 32, .ro, 0, false⟩,
     ⟨"ABORTED", 0, 16, .rw, 0, true⟩]⟩,
  ⟨"LNK_CREDIT", 0x400, 8, 0x20, 3, 0x8,
    [⟨"ADV_HDR", 48, 16, .ro, 0, false⟩,
     ⟨"AVAIL_HDR", 32, 16, .ro, 0, false⟩,
     ⟨"ADV_DATA", 16, 16, .ro, 0, false⟩,
     ⟨"AVAIL_DATA", 0, 16, .ro, 0, false⟩]⟩]

/-- The registers of a block PCR beside the common ones. -/
def rowsPcr : List RegRow := [
  ⟨"PCR_STEP_REQ", 0x100, 29, 0x8, 1, 0x8,
    [⟨"STEP", 0, 4, .rw, 4, false⟩]⟩,
  ⟨"PCR_STEP_STATE", 0x200, 29, 0x8, 1, 0x8,
    [⟨"GUARD", 11, 1, .ro, 0, false⟩,
     ⟨"THROTTLED", 10, 1, .ro, 0, false⟩,
     ⟨"CLAMPED", 9, 1, .rw, 0, true⟩,
     ⟨"MOVING", 8, 1, .ro, 0, false⟩,
     ⟨"TARGET", 4, 4, .ro, 4, false⟩,
     ⟨"CUR", 0, 4, .ro, 4, false⟩]⟩,
  ⟨"PCR_STEP_APPLY", 0x300, 1, 0x8, 1, 0x8,
    [⟨"APPLY", 0, 1, .wo, 0, false⟩]⟩,
  ⟨"PCR_THROTTLE", 0x308, 1, 0x8, 1, 0x8,
    [⟨"EVENTS", 32, 32, .ro, 0, false⟩,
     ⟨"STUCK", 1, 1, .rw, 0, true⟩,
     ⟨"ASSERTED", 0, 1, .ro, 0, false⟩]⟩,
  ⟨"PCR_BEAT", 0x400, 29, 0x8, 1, 0x8,
    [⟨"BEATS", 0, 64, .ro, 0, false⟩]⟩,
  ⟨"PCR_SLIP", 0x500, 29, 0x8, 1, 0x8,
    [⟨"SLIPS", 0, 64, .ro, 0, false⟩]⟩,
  ⟨"PCR_HOLD", 0x600, 29, 0x8, 1, 0x8,
    [⟨"ORIGIN_EVENTS", 32, 32, .ro, 0, false⟩,
     ⟨"PROPAGATED", 9, 1, .ro, 0, false⟩,
     ⟨"HELD", 8, 1, .ro, 0, false⟩,
     ⟨"CUR_CAUSE", 4, 4, .ro, 0, false⟩,
     ⟨"LAST_CAUSE", 0, 4, .ro, 0, false⟩]⟩,
  ⟨"PCR_SKEW_WAIT", 0x700, 29, 0x8, 1, 0x8,
    [⟨"PERIODS", 0, 64, .ro, 0, false⟩]⟩,
  ⟨"PCR_STALL_TIMEOUT", 0x800, 1, 0x8, 1, 0x8,
    [⟨"LIMIT_US", 0, 32, .rw, 50000, false⟩]⟩,
  ⟨"PCR_STIME_NS", 0x810, 1, 0x8, 1, 0x8,
    [⟨"NS", 0, 64, .ro, 0, false⟩]⟩,
  ⟨"PCR_STIME_FRAC", 0x818, 1, 0x8, 1, 0x8,
    [⟨"FRAC", 0, 8, .ro, 0, false⟩]⟩,
  ⟨"PCR_TIME_CTRL", 0x820, 1, 0x8, 1, 0x8,
    [⟨"ALLOW_STEP", 16, 1, .rw, 1, false⟩,
     ⟨"PARENT_PORT", 8, 5, .rwl, 0, false⟩,
     ⟨"SOURCE", 0, 2, .rwl, 0, false⟩]⟩,
  ⟨"PCR_TIME_RATE", 0x828, 1, 0x8, 1, 0x8,
    [⟨"RATE", 0, 32, .ro, 0, false⟩]⟩,
  ⟨"PCR_TIME_STATUS", 0x830, 1, 0x8, 1, 0x8,
    [⟨"PPS_REJECTED", 16, 16, .ro, 0, false⟩,
     ⟨"STEP_REFUSED", 11, 1, .rw, 0, true⟩,
     ⟨"PPS_FAULT", 10, 1, .rw, 0, true⟩,
     ⟨"REF_LOST", 9, 1, .rw, 0, true⟩,
     ⟨"REF_PRESENT", 8, 1, .ro, 0, false⟩,
     ⟨"STATE", 0, 3, .ro, 0, false⟩]⟩,
  ⟨"PCR_PPS_SECONDS", 0x838, 1, 0x8, 1, 0x8,
    [⟨"SECONDS", 0, 64, .rw, 0, false⟩]⟩,
  ⟨"PCR_STIME_SET", 0x840, 1, 0x8, 1, 0x8,
    [⟨"NS", 0, 64, .wo, 0, false⟩]⟩,
  ⟨"PCR_PORT_TIME", 0x900, 32, 0x8, 1, 0x8,
    [⟨"DELAY", 32, 32, .ro, 0, false⟩,
     ⟨"OFFSET", 0, 32, .ro, 2147483648, false⟩]⟩,
  ⟨"PCR_PORT_ASYM", 0xa00, 32, 0x8, 1, 0x8,
    [⟨"ASYM", 0, 16, .rwl, 0, false⟩]⟩,
  ⟨"PCR_JOB_BEAT", 0xb00, 8, 0x8, 1, 0x8,
    [⟨"BEATS", 0, 64, .ro, 0, false⟩]⟩,
  ⟨"PCR_JOB_SLIP", 0xb40, 8, 0x8, 1, 0x8,
    [⟨"SLIPS", 0, 64, .ro, 0, false⟩]⟩,
  ⟨"PCR_JOB_LAUNCH", 0xb80, 8, 0x8, 1, 0x8,
    [⟨"NS", 0, 64, .ro, 0, false⟩]⟩]

/-- The registers of a block FAB beside the common ones. -/
def rowsFab : List RegRow := [
  ⟨"FAB_ID", 0x100, 1, 0x8, 1, 0x8,
    [⟨"PLANE", 16, 4, .rwl, 0, false⟩,
     ⟨"DEVICE", 0, 12, .rwl, 0, false⟩]⟩,
  ⟨"FAB_CTRL", 0x108, 1, 0x8, 1, 0x8,
    [⟨"NOTICE_EN", 32, 1, .rwl, 1, false⟩,
     ⟨"RESEND_US", 16, 16, .rwl, 50, false⟩,
     ⟨"DOWN_HOLD_US", 0, 16, .rwl, 20, false⟩]⟩,
  ⟨"FAB_TBL_SEL", 0x110, 1, 0x8, 1, 0x8,
    [⟨"TABLE", 14, 2, .rw, 0, false⟩,
     ⟨"INDEX", 0, 14, .rw, 0, false⟩]⟩,
  ⟨"FAB_TBL_DATA", 0x118, 1, 0x8, 1, 0x8,
    [⟨"DATA", 0, 64, .rw, 0, false⟩]⟩,
  ⟨"FAB_RX", 0x120, 1, 0x8, 1, 0x8,
    [⟨"DUP", 48, 16, .rw, 0, true⟩,
     ⟨"GAP", 32, 16, .rw, 0, true⟩,
     ⟨"UNKNOWN_JOB", 16, 16, .rw, 0, true⟩,
     ⟨"TRANSIT_DROP", 0, 16, .rw, 0, true⟩]⟩,
  ⟨"FAB_NOTICE", 0x128, 1, 0x8, 1, 0x8,
    [⟨"MARKED", 32, 32, .ro, 0, false⟩,
     ⟨"SENT", 0, 32, .ro, 0, false⟩]⟩,
  ⟨"FAB_JOB_CFG", 0x200, 8, 0x8, 1, 0x8,
    [⟨"RETAIN", 32, 16, .rwl, 0, false⟩,
     ⟨"HEAD", 16, 12, .rwl, 0, false⟩,
     ⟨"FJOB", 0, 16, .rwl, 0, false⟩]⟩,
  ⟨"FAB_JOB_GATE", 0x240, 8, 0x8, 1, 0x8,
    [⟨"COUNT", 16, 14, .rwl, 0, false⟩,
     ⟨"BASE", 0, 13, .rwl, 0, false⟩]⟩,
  ⟨"FAB_JOB_CTL", 0x280, 8, 0x8, 1, 0x8,
    [⟨"GO", 63, 1, .wo, 0, false⟩,
     ⟨"PLAN", 62, 1, .wo, 0, false⟩,
     ⟨"BEAT", 0, 48, .wo, 0, false⟩]⟩,
  ⟨"FAB_JOB_STATE", 0x2c0, 8, 0x8, 1, 0x8,
    [⟨"SWITCH_BEAT", 16, 48, .ro, 0, false⟩,
     ⟨"LOST_DEST", 4, 12, .ro, 0, false⟩,
     ⟨"ROUTE_LOST", 3, 1, .rw, 0, true⟩,
     ⟨"PENDING", 1, 1, .ro, 0, false⟩,
     ⟨"PLAN", 0, 1, .ro, 0, false⟩]⟩,
  ⟨"FAB_RETAIN", 0x300, 4, 0x8, 1, 0x8,
    [⟨"RESENT", 32, 32, .ro, 0, false⟩,
     ⟨"HELD", 0, 14, .ro, 0, false⟩]⟩]

/-- The registers of a block SRV beside the common ones. -/
def rowsSrv : List RegRow := [
  ⟨"SRV_CFG", 0x100, 1, 0x8, 1, 0x8,
    [⟨"POLL_MAX", 48, 8, .rwl, 0, false⟩,
     ⟨"KV_RESERVE", 32, 16, .rwl, 64, false⟩,
     ⟨"QUANTUM", 0, 32, .rwl, 8192, false⟩]⟩,
  ⟨"SRV_SEL", 0x108, 1, 0x8, 1, 0x8,
    [⟨"JOB", 40, 3, .rw, 0, false⟩,
     ⟨"TABLE", 32, 2, .rw, 0, false⟩,
     ⟨"INDEX", 4, 24, .rw, 0, false⟩,
     ⟨"WORD", 0, 4, .rw, 0, false⟩]⟩,
  ⟨"SRV_DATA", 0x110, 1, 0x8, 1, 0x8,
    [⟨"DATA", 0, 64, .rw, 0, false⟩]⟩,
  ⟨"SRV_PREFIX", 0x118, 1, 0x8, 1, 0x8,
    [⟨"HITS", 32, 32, .ro, 0, false⟩,
     ⟨"ENTRIES", 0, 19, .ro, 0, false⟩]⟩,
  ⟨"SRV_JOB_CFG", 0x200, 8, 0x8, 1, 0x8,
    [⟨"RET_COUNT", 32, 16, .rwl, 1, false⟩,
     ⟨"GROUP", 20, 10, .rwl, 0, false⟩,
     ⟨"DEPTH", 0, 5, .rwl, 1, false⟩]⟩,
  ⟨"SRV_JOB_AREA", 0x240, 8, 0x8, 1, 0x8,
    [⟨"RET", 24, 24, .rwl, 0, false⟩,
     ⟨"STEP", 0, 24, .rwl, 0, false⟩]⟩,
  ⟨"SRV_JOB_GATE", 0x280, 8, 0x8, 1, 0x8,
    [⟨"RET_GATE", 16, 13, .rwl, 0, false⟩,
     ⟨"STEP_GATE", 0, 13, .rwl, 0, false⟩]⟩,
  ⟨"SRV_JOB_KV", 0x2c0, 8, 0x8, 1, 0x8,
    [⟨"KVMAP", 34, 24, .rwl, 0, false⟩,
     ⟨"MAXB", 20, 14, .rwl, 0, false⟩,
     ⟨"NKV", 0, 20, .rwl, 0, false⟩]⟩,
  ⟨"SRV_JOB_KVLAYOUT", 0x300, 8, 0x8, 1, 0x8,
    [⟨"KV_BYTES", 32, 31, .rwl, 0, false⟩,
     ⟨"KV_BASE", 0, 31, .rwl, 0, false⟩]⟩,
  ⟨"SRV_JOB_STATE", 0x340, 8, 0x8, 1, 0x8,
    [⟨"STEP", 32, 32, .ro, 0, false⟩,
     ⟨"IN_FLIGHT", 8, 8, .ro, 0, false⟩,
     ⟨"REASON", 4, 4, .ro, 0, false⟩,
     ⟨"STATE", 0, 4, .ro, 0, false⟩]⟩,
  ⟨"SRV_JOB_COUNT", 0x380, 8, 0x8, 1, 0x8,
    [⟨"OUT_FREE", 36, 17, .ro, 0, false⟩,
     ⟨"KV_FREE", 16, 20, .ro, 0, false⟩,
     ⟨"SEQS", 0, 13, .ro, 0, false⟩]⟩,
  ⟨"SRV_SHAPE", 0x400, 8, 0x80, 16, 0x8,
    [⟨"VALID", 63, 1, .rwl, 0, false⟩,
     ⟨"PAUSABLE", 62, 1, .ro, 0, false⟩,
     ⟨"CHUNK", 48, 10, .rwl, 0, false⟩,
     ⟨"SEGS", 44, 4, .rwl, 0, false⟩,
     ⟨"VTOK", 41, 3, .rwl, 0, false⟩,
     ⟨"DSLOTS", 32, 8, .rwl, 0, false⟩,
     ⟨"LEN", 0, 32, .rwl, 0, false⟩]⟩]

/-- The registers of a block YOK beside the common ones. -/
def rowsYok : List RegRow := [
  ⟨"YOK_CFG", 0x100, 1, 0x8, 1, 0x8,
    [⟨"LOSS_MS", 32, 8, .rwl, 5, false⟩,
     ⟨"PARTNER", 16, 12, .rwl, 0, false⟩,
     ⟨"PORT", 8, 5, .rwl, 0, false⟩,
     ⟨"PRIMARY", 1, 1, .rwl, 0, false⟩,
     ⟨"ENABLE", 0, 1, .rwl, 0, false⟩]⟩,
  ⟨"YOK_STATE", 0x108, 1, 0x8, 1, 0x8,
    [⟨"LINK_HB", 7, 1, .ro, 0, false⟩,
     ⟨"PIN_HB", 6, 1, .ro, 0, false⟩,
     ⟨"STATE", 0, 3, .ro, 0, false⟩]⟩,
  ⟨"YOK_REYOKE", 0x110, 1, 0x8, 1, 0x8,
    [⟨"PASSES", 32, 32, .ro, 0, false⟩,
     ⟨"DIRTY", 16, 16, .ro, 0, false⟩,
     ⟨"DIRTY_MAX", 0, 16, .rwl, 64, false⟩]⟩,
  ⟨"YOK_COUNT", 0x118, 1, 0x8, 1, 0x8,
    [⟨"COMPARED", 32, 32, .ro, 0, false⟩,
     ⟨"SERVED", 16, 16, .ro, 0, false⟩,
     ⟨"DISCARDED", 0, 16, .rw, 0, true⟩]⟩,
  ⟨"YOK_JOB_CFG", 0x200, 8, 0x8, 1, 0x8,
    [⟨"POINTS", 8, 7, .rwl, 0, false⟩,
     ⟨"REJOIN", 1, 1, .rwl, 0, false⟩,
     ⟨"YOKED", 0, 1, .rwl, 0, false⟩]⟩,
  ⟨"YOK_JOB_AREA", 0x240, 8, 0x8, 1, 0x8,
    [⟨"JOURNAL", 24, 24, .rwl, 0, false⟩,
     ⟨"DIGEST", 0, 24, .rwl, 0, false⟩]⟩,
  ⟨"YOK_JOB_CTL", 0x280, 8, 0x8, 1, 0x8,
    [⟨"ACTION", 0, 3, .wo, 0, false⟩]⟩,
  ⟨"YOK_JOB_STATE", 0x2c0, 8, 0x8, 1, 0x8,
    [⟨"CONFIRMED", 32, 32, .ro, 0, false⟩,
     ⟨"POINT", 16, 8, .ro, 0, false⟩,
     ⟨"STATE", 0, 4, .ro, 0, false⟩]⟩]

/-- The registers of a block SEC beside the common ones. -/
def rowsSec : List RegRow := [
  ⟨"SEC_CTRL", 0x100, 1, 0x8, 1, 0x8,
    [⟨"DEPLOY_TIMEOUT_S", 32, 16, .rwl, 600, false⟩,
     ⟨"COMMIT_LEAD_US", 16, 16, .rwl, 2000, false⟩,
     ⟨"SIGNER_LOCK", 2, 1, .rw, 0, false⟩,
     ⟨"IMAGE_SIG", 1, 1, .rwl, 0, false⟩]⟩,
  ⟨"SEC_SEL", 0x108, 1, 0x8, 1, 0x8,
    [⟨"TABLE", 8, 2, .rw, 0, false⟩,
     ⟨"INDEX", 4, 4, .rw, 0, false⟩,
     ⟨"WORD", 0, 2, .rw, 0, false⟩]⟩,
  ⟨"SEC_DATA", 0x110, 1, 0x8, 1, 0x8,
    [⟨"DATA", 0, 64, .rw, 0, false⟩]⟩,
  ⟨"SEC_SIGNER_ROLE", 0x118, 1, 0x8, 1, 0x8,
    [⟨"ROLES", 0, 32, .rw, 0, false⟩]⟩,
  ⟨"SEC_KEYCTX", 0x120, 1, 0x8, 1, 0x8,
    [⟨"USED", 0, 9, .ro, 0, false⟩]⟩,
  ⟨"SEC_JOB_GATE", 0x200, 8, 0x8, 1, 0x8,
    [⟨"BASE", 0, 13, .rwl, 0, false⟩]⟩,
  ⟨"SEC_JOB_AREA", 0x240, 8, 0x8, 1, 0x8,
    [⟨"AREA", 0, 24, .rwl, 0, false⟩]⟩,
  ⟨"SEC_JOB_ADAPTER", 0x280, 8, 0x8, 1, 0x8,
    [⟨"STRIDE", 16, 16, .rwl, 0, false⟩,
     ⟨"BASE", 0, 15, .rwl, 0, false⟩]⟩,
  ⟨"SEC_JOB_STATE", 0x2c0, 8, 0x8, 1, 0x8,
    [⟨"GEN", 36, 12, .ro, 0, false⟩,
     ⟨"SHARDS_OK", 16, 20, .ro, 0, false⟩,
     ⟨"TEARDOWN", 8, 4, .ro, 0, false⟩,
     ⟨"KEY", 4, 2, .ro, 0, false⟩,
     ⟨"DEPLOY", 0, 4, .ro, 0, false⟩]⟩,
  ⟨"SEC_JOB_RX", 0x300, 8, 0x8, 1, 0x8,
    [⟨"AUTH_FAIL", 32, 32, .ro, 0, false⟩,
     ⟨"SHARD_REJECT", 16, 16, .rw, 0, true⟩]⟩]

/-- The registers of a block ERR beside the common ones. -/
def rowsErr : List RegRow := [
  ⟨"ERR_POLICY", 0x100, 1, 0x8, 1, 0x8,
    [⟨"RETIRE", 9, 1, .rwl, 1, false⟩,
     ⟨"HOST_CONSUME", 8, 1, .rwl, 0, false⟩,
     ⟨"IRQ_MIN", 0, 2, .rw, 1, false⟩]⟩,
  ⟨"ERR_COUNT", 0x108, 1, 0x8, 1, 0x8,
    [⟨"DROPPED_LOW", 48, 16, .rw, 0, true⟩,
     ⟨"DROPPED_SEVERE", 32, 16, .rw, 0, true⟩,
     ⟨"ESCALATED", 16, 16, .rw, 0, true⟩,
     ⟨"ALERT", 11, 1, .rw, 0, true⟩,
     ⟨"HELD", 0, 11, .ro, 0, false⟩]⟩,
  ⟨"ERR_PRODUCER", 0x110, 1, 0x8, 1, 0x8,
    [⟨"INDEX", 0, 32, .ro, 0, false⟩]⟩,
  ⟨"ERR_CONSUMER", 0x118, 1, 0x8, 1, 0x8,
    [⟨"INDEX", 0, 32, .rw, 0, false⟩]⟩,
  ⟨"ERR_SEL", 0x120, 1, 0x8, 1, 0x8,
    [⟨"INDEX", 0, 32, .rw, 0, false⟩]⟩,
  ⟨"ERR_REC", 0x140, 4, 0x8, 1, 0x8,
    [⟨"WORD", 0, 64, .ro, 0, false⟩]⟩]

/-- The registers of a block PWR beside the common ones. -/
def rowsPwr : List RegRow := [
  ⟨"PWR_PLAN_LIMIT", 0x100, 24, 0x8, 1, 0x8,
    [⟨"LIMIT", 0, 16, .rwl, 65535, false⟩]⟩,
  ⟨"PWR_PLAN_STAT", 0x200, 24, 0x8, 1, 0x8,
    [⟨"PEAK", 48, 16, .rw, 0, true⟩,
     ⟨"WINDOWS", 32, 16, .rw, 0, true⟩,
     ⟨"HELD", 0, 32, .ro, 0, false⟩]⟩]

/-- The registers of a block HST beside the common ones. -/
def rowsHst : List RegRow := [
  ⟨"HST_PORT_CFG", 0x100, 1, 0x8, 1, 0x8,
    [⟨"MOD_US", 32, 16, .rw, 20, false⟩,
     ⟨"DEVRING_LOG2", 8, 8, .rwl, 6, false⟩,
     ⟨"IDE_REQUIRED", 1, 1, .rwl, 0, false⟩,
     ⟨"ENABLE", 0, 1, .rwl, 0, false⟩]⟩,
  ⟨"HST_DEVRING_BASE", 0x108, 1, 0x8, 1, 0x8,
    [⟨"ADDR", 12, 52, .rwl, 0, false⟩]⟩,
  ⟨"HST_DEVRING_HDR", 0x110, 1, 0x8, 1, 0x8,
    [⟨"ADDR", 8, 56, .rwl, 0, false⟩]⟩,
  ⟨"HST_PORT_STATE", 0x118, 1, 0x8, 1, 0x8,
    [⟨"BOOTS", 48, 16, .ro, 0, false⟩,
     ⟨"DOWNS", 32, 16, .ro, 0, false⟩,
     ⟨"IDE_SECURE", 11, 1, .ro, 0, false⟩,
     ⟨"ABSENT", 10, 1, .ro, 1, false⟩,
     ⟨"FLIT", 9, 1, .ro, 0, false⟩,
     ⟨"WIDTH", 6, 3, .ro, 0, false⟩,
     ⟨"SPEED", 4, 2, .ro, 0, false⟩]⟩,
  ⟨"HST_DMA_IN", 0x120, 1, 0x8, 1, 0x8,
    [⟨"BYTES", 0, 64, .ro, 0, false⟩]⟩,
  ⟨"HST_DMA_OUT", 0x128, 1, 0x8, 1, 0x8,
    [⟨"BYTES", 0, 64, .ro, 0, false⟩]⟩,
  ⟨"HST_ERRCNT", 0x130, 1, 0x8, 1, 0x8,
    [⟨"READ_FAILED", 48, 16, .rw, 0, true⟩,
     ⟨"BAR_DENIED", 32, 16, .rw, 0, true⟩,
     ⟨"RING_STALL", 16, 16, .rw, 0, true⟩,
     ⟨"IDE_FAULT", 0, 16, .rw, 0, true⟩]⟩,
  ⟨"HST_DEVCPL_BASE", 0x138, 1, 0x8, 1, 0x8,
    [⟨"ADDR", 12, 52, .rwl, 0, false⟩]⟩,
  ⟨"HST_CTX", 0x200, 8, 0x8, 1, 0x8,
    [⟨"CMD_CONSUMER", 32, 32, .ro, 0, false⟩,
     ⟨"SUSPENDED_ABSENT", 2, 1, .ro, 0, false⟩,
     ⟨"ATTACHED", 1, 1, .ro, 0, false⟩,
     ⟨"OWNED", 0, 1, .ro, 0, false⟩]⟩,
  ⟨"HST_CTX_OUT", 0x240, 8, 0x8, 1, 0x8,
    [⟨"PRODUCER", 32, 32, .ro, 0, false⟩,
     ⟨"CONSUMER", 0, 32, .ro, 0, false⟩]⟩,
  ⟨"HST_CTX_CPL", 0x280, 8, 0x8, 1, 0x8,
    [⟨"PRODUCER", 32, 32, .ro, 0, false⟩,
     ⟨"CONSUMER", 0, 32, .ro, 0, false⟩]⟩]

/-- The registers of a block TCK beside the common ones. -/
def rowsTck : List RegRow := [
  ⟨"TCK_STATE", 0x100, 1, 0x8, 1, 0x8,
    [⟨"FW_VERSION", 32, 32, .ro, 0, false⟩,
     ⟨"IMAGE_VALID", 3, 1, .ro, 0, false⟩,
     ⟨"STATE", 0, 3, .ro, 0, false⟩]⟩,
  ⟨"TCK_POLICY", 0x108, 1, 0x8, 1, 0x8,
    [⟨"TRIM", 24, 1, .rw, 1, false⟩,
     ⟨"SOFT_C", 16, 8, .rwl, 100, false⟩,
     ⟨"SAFE_STEP", 8, 4, .rwl, 8, false⟩,
     ⟨"BASE_STEP", 0, 4, .rw, 12, false⟩]⟩,
  ⟨"TCK_ENVELOPE", 0x110, 1, 0x8, 1, 0x8,
    [⟨"CEILING", 32, 4, .ro, 15, false⟩,
     ⟨"MEASURED", 16, 16, .ro, 0, false⟩,
     ⟨"WATTS", 0, 16, .rwl, 1800, false⟩]⟩,
  ⟨"TCK_ALERT", 0x118, 1, 0x8, 1, 0x8,
    [⟨"CAUSES", 0, 6, .ro, 0, false⟩]⟩,
  ⟨"TCK_LOG", 0x120, 1, 0x8, 1, 0x8,
    [⟨"LOST", 32, 32, .ro, 0, false⟩,
     ⟨"NEXT", 0, 32, .ro, 0, false⟩]⟩,
  ⟨"TCK_TEMP", 0x200, 60, 0x8, 1, 0x8,
    [⟨"FAULT", 16, 1, .ro, 0, false⟩,
     ⟨"READING", 0, 16, .ro, 0, false⟩]⟩,
  ⟨"TCK_VOLT", 0x400, 36, 0x8, 1, 0x8,
    [⟨"FAULT", 16, 1, .ro, 0, false⟩,
     ⟨"MV", 0, 16, .ro, 0, false⟩]⟩,
  ⟨"TCK_POWER", 0x600, 8, 0x8, 1, 0x8,
    [⟨"PEAK", 32, 32, .rw, 0, true⟩,
     ⟨"MW", 0, 32, .ro, 0, false⟩]⟩,
  ⟨"TCK_MBX_CTL", 0x700, 2, 0x8, 1, 0x8,
    [⟨"LEVEL", 32, 32, .ro, 0, false⟩,
     ⟨"OVERRUN", 3, 1, .rw, 0, true⟩,
     ⟨"DONE", 2, 1, .rw, 0, true⟩,
     ⟨"BUSY", 1, 1, .ro, 0, false⟩,
     ⟨"GO", 0, 1, .wo, 0, false⟩]⟩,
  ⟨"TCK_LSP_CTL", 0x800, 1, 0x8, 1, 0x8,
    [⟨"TRIG_CODE", 48, 16, .rw, 0, false⟩,
     ⟨"POST", 30, 18, .rw, 0, false⟩,
     ⟨"SOURCES", 23, 7, .rw, 0, false⟩,
     ⟨"TRIG", 2, 1, .rw, 0, false⟩,
     ⟨"MODE", 1, 1, .rw, 0, false⟩,
     ⟨"RUN", 0, 1, .rw, 0, false⟩]⟩,
  ⟨"TCK_LSP_SEL", 0x808, 1, 0x8, 1, 0x8,
    [⟨"ROUTER", 11, 5, .rw, 0, false⟩,
     ⟨"BARN", 6, 5, .rw, 0, false⟩,
     ⟨"STALL", 0, 6, .rw, 0, false⟩]⟩,
  ⟨"TCK_LSP_STAT", 0x810, 1, 0x8, 1, 0x8,
    [⟨"DROPPED", 32, 32, .ro, 0, false⟩,
     ⟨"NEXT", 0, 18, .ro, 0, false⟩]⟩]

/-- The registers of a block LDR beside the common ones. -/
def rowsLdr : List RegRow := [
  ⟨"LDR_STALL_MASK", 0x100, 24, 0x8, 1, 0x8,
    [⟨"GOOD", 56, 6, .ro, 0, false⟩,
     ⟨"COUNT", 50, 6, .ro, 0, false⟩,
     ⟨"MASK", 0, 48, .rwl, 0, false⟩]⟩,
  ⟨"LDR_STATUS", 0x200, 8, 0x8, 1, 0x8,
    [⟨"RECORD", 16, 32, .ro, 0, false⟩,
     ⟨"DONE", 4, 1, .ro, 0, false⟩,
     ⟨"STATUS", 0, 4, .ro, 0, false⟩]⟩]

/-- The register map of a block, the common registers first. -/
def Blk.rows : Blk → List RegRow
  | .stl => commonRows ++ rowsStl
  | .spd => commonRows ++ rowsSpd
  | .arr => commonRows ++ rowsArr
  | .vec => commonRows ++ rowsVec
  | .lft => commonRows ++ rowsLft
  | .net => commonRows ++ rowsNet
  | .lnk => commonRows ++ rowsLnk
  | .pcr => commonRows ++ rowsPcr
  | .fab => commonRows ++ rowsFab
  | .srv => commonRows ++ rowsSrv
  | .yok => commonRows ++ rowsYok
  | .sec => commonRows ++ rowsSec
  | .err => commonRows ++ rowsErr
  | .pwr => commonRows ++ rowsPwr
  | .hst => commonRows ++ rowsHst
  | .tck => commonRows ++ rowsTck
  | .ldr => commonRows ++ rowsLdr

/-- A field of one register instance by its BAR0 address. -/
structure Fld where
  addr : Nat
  lo : Nat
  width : Nat
  deriving DecidableEq, Repr

/-! Register addresses and fields by the names of the spec. The first argument of a register of a barn, an edge
or a host port is the block number. -/

namespace R

def BLK_ID (base : Nat) : Nat := base + 0x0
def BLK_CTRL (base : Nat) : Nat := base + 0x8
def BLK_STATUS (base : Nat) : Nat := base + 0x10
def CFG_REF (base : Nat) : Nat := base + 0x18
def CFG_CRC (base : Nat) : Nat := base + 0x20
def BLK_COUNT (base : Nat) : Nat := base + 0x28
def STL_CORE (b : Nat) (i : Nat) : Nat := 0x100 + 0x100000 * b + 0x8 * i
def STL_QFILL (b : Nat) (i : Nat) : Nat := 0x400 + 0x100000 * b + 0x8 * i
def STL_STARVE (b : Nat) (i : Nat) : Nat := 0x700 + 0x100000 * b + 0x8 * i
def STL_FAULT (b : Nat) (i : Nat) : Nat := 0xa00 + 0x100000 * b + 0x8 * i
def STL_SHAPE_ENTRY (b : Nat) (i : Nat) (k : Nat) : Nat := 0x1000 + 0x100000 * b + 0x80 * i + 0x8 * k
def SPD_DMA (b : Nat) (i : Nat) : Nat := 0x10100 + 0x100000 * b + 0x8 * i
def SPD_ERRCNT (b : Nat) (i : Nat) : Nat := 0x10400 + 0x100000 * b + 0x8 * i
def SPD_ERRADDR (b : Nat) (i : Nat) : Nat := 0x10700 + 0x100000 * b + 0x8 * i
def SPD_CLEAR (b : Nat) : Nat := 0x10a00 + 0x100000 * b
def ARR_STATE (b : Nat) (i : Nat) : Nat := 0x20100 + 0x100000 * b + 0x8 * i
def ARR_COUNT (b : Nat) (i : Nat) : Nat := 0x20400 + 0x100000 * b + 0x8 * i
def ARR_ACTIVE (b : Nat) (i : Nat) : Nat := 0x20700 + 0x100000 * b + 0x8 * i
def ARR_SAT (b : Nat) (i : Nat) : Nat := 0x20a00 + 0x100000 * b + 0x8 * i
def VEC_STATE (b : Nat) (i : Nat) : Nat := 0x30100 + 0x100000 * b + 0x8 * i
def VEC_COUNT (b : Nat) (i : Nat) : Nat := 0x30400 + 0x100000 * b + 0x8 * i
def VEC_ACTIVE (b : Nat) (i : Nat) : Nat := 0x30700 + 0x100000 * b + 0x8 * i
def VEC_SPECIAL (b : Nat) (i : Nat) : Nat := 0x30a00 + 0x100000 * b + 0x8 * i
def LFT_CTRL (b : Nat) : Nat := 0x40100 + 0x100000 * b
def LFT_BANK_STATE (b : Nat) (i : Nat) : Nat := 0x40200 + 0x100000 * b + 0x8 * i
def LFT_REFRESH (b : Nat) : Nat := 0x40300 + 0x100000 * b
def LFT_ACTIVE (b : Nat) : Nat := 0x40308 + 0x100000 * b
def LFT_ERRCNT (b : Nat) : Nat := 0x40310 + 0x100000 * b
def LFT_ERRADDR (b : Nat) : Nat := 0x40318 + 0x100000 * b
def LFT_RESEND (b : Nat) : Nat := 0x40320 + 0x100000 * b
def LFT_SPARES (b : Nat) : Nat := 0x40328 + 0x100000 * b
def NET_CTRL (b : Nat) : Nat := 0x50100 + 0x100000 * b
def NET_RESEND (b : Nat) : Nat := 0x50108 + 0x100000 * b
def NET_ERRADDR (b : Nat) : Nat := 0x50110 + 0x100000 * b
def NET_SLOT_SEL (b : Nat) : Nat := 0x50118 + 0x100000 * b
def NET_SLOT_DATA0 (b : Nat) : Nat := 0x50120 + 0x100000 * b
def NET_SLOT_DATA1 (b : Nat) : Nat := 0x50128 + 0x100000 * b
def NET_LINK_SCHED (b : Nat) (i : Nat) : Nat := 0x50200 + 0x100000 * b + 0x8 * i
def NET_LINK_UNS (b : Nat) (i : Nat) : Nat := 0x50240 + 0x100000 * b + 0x8 * i
def NET_CREDIT (b : Nat) (i : Nat) : Nat := 0x50280 + 0x100000 * b + 0x8 * i
def LNK_PORT_CTRL (b : Nat) (i : Nat) : Nat := 0x2000100 + 0x10000 * b + 0x8 * i
def LNK_PORT_STATE (b : Nat) (i : Nat) : Nat := 0x2000140 + 0x10000 * b + 0x8 * i
def LNK_PARTNER (b : Nat) (i : Nat) : Nat := 0x2000180 + 0x10000 * b + 0x8 * i
def LNK_REPLAY_CFG (b : Nat) (i : Nat) : Nat := 0x20001c0 + 0x10000 * b + 0x8 * i
def LNK_FEC (b : Nat) (i : Nat) : Nat := 0x2000200 + 0x10000 * b + 0x8 * i
def LNK_REPLAY (b : Nat) (i : Nat) : Nat := 0x2000240 + 0x10000 * b + 0x8 * i
def LNK_BYPASS (b : Nat) (i : Nat) : Nat := 0x2000280 + 0x10000 * b + 0x8 * i
def LNK_TRANSIT (b : Nat) (i : Nat) : Nat := 0x20002c0 + 0x10000 * b + 0x8 * i
def LNK_CREDIT (b : Nat) (i : Nat) (k : Nat) : Nat := 0x2000400 + 0x10000 * b + 0x20 * i + 0x8 * k
def PCR_STEP_REQ (i : Nat) : Nat := 0x3000100 + 0x8 * i
def PCR_STEP_STATE (i : Nat) : Nat := 0x3000200 + 0x8 * i
def PCR_STEP_APPLY : Nat := 0x3000300
def PCR_THROTTLE : Nat := 0x3000308
def PCR_BEAT (i : Nat) : Nat := 0x3000400 + 0x8 * i
def PCR_SLIP (i : Nat) : Nat := 0x3000500 + 0x8 * i
def PCR_HOLD (i : Nat) : Nat := 0x3000600 + 0x8 * i
def PCR_SKEW_WAIT (i : Nat) : Nat := 0x3000700 + 0x8 * i
def PCR_STALL_TIMEOUT : Nat := 0x3000800
def PCR_STIME_NS : Nat := 0x3000810
def PCR_STIME_FRAC : Nat := 0x3000818
def PCR_TIME_CTRL : Nat := 0x3000820
def PCR_TIME_RATE : Nat := 0x3000828
def PCR_TIME_STATUS : Nat := 0x3000830
def PCR_PPS_SECONDS : Nat := 0x3000838
def PCR_STIME_SET : Nat := 0x3000840
def PCR_PORT_TIME (i : Nat) : Nat := 0x3000900 + 0x8 * i
def PCR_PORT_ASYM (i : Nat) : Nat := 0x3000a00 + 0x8 * i
def PCR_JOB_BEAT (i : Nat) : Nat := 0x3000b00 + 0x8 * i
def PCR_JOB_SLIP (i : Nat) : Nat := 0x3000b40 + 0x8 * i
def PCR_JOB_LAUNCH (i : Nat) : Nat := 0x3000b80 + 0x8 * i
def FAB_ID : Nat := 0x3010100
def FAB_CTRL : Nat := 0x3010108
def FAB_TBL_SEL : Nat := 0x3010110
def FAB_TBL_DATA : Nat := 0x3010118
def FAB_RX : Nat := 0x3010120
def FAB_NOTICE : Nat := 0x3010128
def FAB_JOB_CFG (i : Nat) : Nat := 0x3010200 + 0x8 * i
def FAB_JOB_GATE (i : Nat) : Nat := 0x3010240 + 0x8 * i
def FAB_JOB_CTL (i : Nat) : Nat := 0x3010280 + 0x8 * i
def FAB_JOB_STATE (i : Nat) : Nat := 0x30102c0 + 0x8 * i
def FAB_RETAIN (i : Nat) : Nat := 0x3010300 + 0x8 * i
def SRV_CFG : Nat := 0x3020100
def SRV_SEL : Nat := 0x3020108
def SRV_DATA : Nat := 0x3020110
def SRV_PREFIX : Nat := 0x3020118
def SRV_JOB_CFG (i : Nat) : Nat := 0x3020200 + 0x8 * i
def SRV_JOB_AREA (i : Nat) : Nat := 0x3020240 + 0x8 * i
def SRV_JOB_GATE (i : Nat) : Nat := 0x3020280 + 0x8 * i
def SRV_JOB_KV (i : Nat) : Nat := 0x30202c0 + 0x8 * i
def SRV_JOB_KVLAYOUT (i : Nat) : Nat := 0x3020300 + 0x8 * i
def SRV_JOB_STATE (i : Nat) : Nat := 0x3020340 + 0x8 * i
def SRV_JOB_COUNT (i : Nat) : Nat := 0x3020380 + 0x8 * i
def SRV_SHAPE (i : Nat) (k : Nat) : Nat := 0x3020400 + 0x80 * i + 0x8 * k
def YOK_CFG : Nat := 0x3030100
def YOK_STATE : Nat := 0x3030108
def YOK_REYOKE : Nat := 0x3030110
def YOK_COUNT : Nat := 0x3030118
def YOK_JOB_CFG (i : Nat) : Nat := 0x3030200 + 0x8 * i
def YOK_JOB_AREA (i : Nat) : Nat := 0x3030240 + 0x8 * i
def YOK_JOB_CTL (i : Nat) : Nat := 0x3030280 + 0x8 * i
def YOK_JOB_STATE (i : Nat) : Nat := 0x30302c0 + 0x8 * i
def SEC_CTRL : Nat := 0x3040100
def SEC_SEL : Nat := 0x3040108
def SEC_DATA : Nat := 0x3040110
def SEC_SIGNER_ROLE : Nat := 0x3040118
def SEC_KEYCTX : Nat := 0x3040120
def SEC_JOB_GATE (i : Nat) : Nat := 0x3040200 + 0x8 * i
def SEC_JOB_AREA (i : Nat) : Nat := 0x3040240 + 0x8 * i
def SEC_JOB_ADAPTER (i : Nat) : Nat := 0x3040280 + 0x8 * i
def SEC_JOB_STATE (i : Nat) : Nat := 0x30402c0 + 0x8 * i
def SEC_JOB_RX (i : Nat) : Nat := 0x3040300 + 0x8 * i
def ERR_POLICY : Nat := 0x3050100
def ERR_COUNT : Nat := 0x3050108
def ERR_PRODUCER : Nat := 0x3050110
def ERR_CONSUMER : Nat := 0x3050118
def ERR_SEL : Nat := 0x3050120
def ERR_REC (i : Nat) : Nat := 0x3050140 + 0x8 * i
def PWR_PLAN_LIMIT (i : Nat) : Nat := 0x3060100 + 0x8 * i
def PWR_PLAN_STAT (i : Nat) : Nat := 0x3060200 + 0x8 * i
def HST_PORT_CFG (b : Nat) : Nat := 0x3070100 + 0x10000 * b
def HST_DEVRING_BASE (b : Nat) : Nat := 0x3070108 + 0x10000 * b
def HST_DEVRING_HDR (b : Nat) : Nat := 0x3070110 + 0x10000 * b
def HST_PORT_STATE (b : Nat) : Nat := 0x3070118 + 0x10000 * b
def HST_DMA_IN (b : Nat) : Nat := 0x3070120 + 0x10000 * b
def HST_DMA_OUT (b : Nat) : Nat := 0x3070128 + 0x10000 * b
def HST_ERRCNT (b : Nat) : Nat := 0x3070130 + 0x10000 * b
def HST_DEVCPL_BASE (b : Nat) : Nat := 0x3070138 + 0x10000 * b
def HST_CTX (b : Nat) (i : Nat) : Nat := 0x3070200 + 0x10000 * b + 0x8 * i
def HST_CTX_OUT (b : Nat) (i : Nat) : Nat := 0x3070240 + 0x10000 * b + 0x8 * i
def HST_CTX_CPL (b : Nat) (i : Nat) : Nat := 0x3070280 + 0x10000 * b + 0x8 * i
def TCK_STATE : Nat := 0x4000100
def TCK_POLICY : Nat := 0x4000108
def TCK_ENVELOPE : Nat := 0x4000110
def TCK_ALERT : Nat := 0x4000118
def TCK_LOG : Nat := 0x4000120
def TCK_TEMP (i : Nat) : Nat := 0x4000200 + 0x8 * i
def TCK_VOLT (i : Nat) : Nat := 0x4000400 + 0x8 * i
def TCK_POWER (i : Nat) : Nat := 0x4000600 + 0x8 * i
def TCK_MBX_CTL (i : Nat) : Nat := 0x4000700 + 0x8 * i
def TCK_LSP_CTL : Nat := 0x4000800
def TCK_LSP_SEL : Nat := 0x4000808
def TCK_LSP_STAT : Nat := 0x4000810
def LDR_STALL_MASK (i : Nat) : Nat := 0x4010100 + 0x8 * i
def LDR_STATUS (i : Nat) : Nat := 0x4010200 + 0x8 * i

end R

namespace F

def BLK_ID_TYPE (base : Nat) : Fld := ⟨R.BLK_ID base, 24, 8⟩
def BLK_ID_INSTANCE (base : Nat) : Fld := ⟨R.BLK_ID base, 16, 8⟩
def BLK_ID_MAJOR (base : Nat) : Fld := ⟨R.BLK_ID base, 8, 8⟩
def BLK_ID_MINOR (base : Nat) : Fld := ⟨R.BLK_ID base, 0, 8⟩
def BLK_CTRL_ENABLE (base : Nat) : Fld := ⟨R.BLK_CTRL base, 0, 1⟩
def BLK_STATUS_CRC_FAULT (base : Nat) : Fld := ⟨R.BLK_STATUS base, 2, 1⟩
def BLK_STATUS_ENABLE_REFUSED (base : Nat) : Fld := ⟨R.BLK_STATUS base, 1, 1⟩
def BLK_STATUS_WRITE_IGNORED (base : Nat) : Fld := ⟨R.BLK_STATUS base, 0, 1⟩
def CFG_REF_REF (base : Nat) : Fld := ⟨R.CFG_REF base, 0, 32⟩
def CFG_CRC_CRC (base : Nat) : Fld := ⟨R.CFG_CRC base, 0, 32⟩
def BLK_COUNT_UNMAPPED (base : Nat) : Fld := ⟨R.BLK_COUNT base, 48, 16⟩
def BLK_COUNT_IGNORED (base : Nat) : Fld := ⟨R.BLK_COUNT base, 32, 16⟩
def BLK_COUNT_CRC_FAULTS (base : Nat) : Fld := ⟨R.BLK_COUNT base, 16, 16⟩
def STL_CORE_STATE (b : Nat) (i : Nat) : Fld := ⟨(R.STL_CORE b i), 32, 4⟩
def STL_CORE_CALL_DEPTH (b : Nat) (i : Nat) : Fld := ⟨(R.STL_CORE b i), 27, 3⟩
def STL_CORE_LOOP_DEPTH (b : Nat) (i : Nat) : Fld := ⟨(R.STL_CORE b i), 24, 3⟩
def STL_CORE_IN_ROUTINE (b : Nat) (i : Nat) : Fld := ⟨(R.STL_CORE b i), 18, 1⟩
def STL_CORE_PC (b : Nat) (i : Nat) : Fld := ⟨(R.STL_CORE b i), 0, 18⟩
def STL_QFILL_LFT (b : Nat) (i : Nat) : Fld := ⟨(R.STL_QFILL b i), 32, 8⟩
def STL_QFILL_NET (b : Nat) (i : Nat) : Fld := ⟨(R.STL_QFILL b i), 24, 8⟩
def STL_QFILL_DMA (b : Nat) (i : Nat) : Fld := ⟨(R.STL_QFILL b i), 16, 8⟩
def STL_QFILL_VEC (b : Nat) (i : Nat) : Fld := ⟨(R.STL_QFILL b i), 8, 8⟩
def STL_QFILL_ARR (b : Nat) (i : Nat) : Fld := ⟨(R.STL_QFILL b i), 0, 8⟩
def STL_STARVE_EVENTS (b : Nat) (i : Nat) : Fld := ⟨(R.STL_STARVE b i), 32, 32⟩
def STL_STARVE_PERIODS (b : Nat) (i : Nat) : Fld := ⟨(R.STL_STARVE b i), 0, 32⟩
def STL_FAULT_VALID (b : Nat) (i : Nat) : Fld := ⟨(R.STL_FAULT b i), 63, 1⟩
def STL_FAULT_CODE (b : Nat) (i : Nat) : Fld := ⟨(R.STL_FAULT b i), 32, 16⟩
def STL_FAULT_PC (b : Nat) (i : Nat) : Fld := ⟨(R.STL_FAULT b i), 0, 18⟩
def STL_SHAPE_ENTRY_VALID (b : Nat) (i : Nat) (k : Nat) : Fld := ⟨(R.STL_SHAPE_ENTRY b i k), 31, 1⟩
def STL_SHAPE_ENTRY_ENTRY (b : Nat) (i : Nat) (k : Nat) : Fld := ⟨(R.STL_SHAPE_ENTRY b i k), 0, 14⟩
def SPD_DMA_COMPLETED (b : Nat) (i : Nat) : Fld := ⟨(R.SPD_DMA b i), 32, 32⟩
def SPD_DMA_BUSY (b : Nat) (i : Nat) : Fld := ⟨(R.SPD_DMA b i), 0, 4⟩
def SPD_ERRCNT_CONFLICT (b : Nat) (i : Nat) : Fld := ⟨(R.SPD_ERRCNT b i), 48, 16⟩
def SPD_ERRCNT_EPOCH (b : Nat) (i : Nat) : Fld := ⟨(R.SPD_ERRCNT b i), 32, 16⟩
def SPD_ERRCNT_CORRECTED (b : Nat) (i : Nat) : Fld := ⟨(R.SPD_ERRCNT b i), 16, 16⟩
def SPD_ERRCNT_UNCORRECTED (b : Nat) (i : Nat) : Fld := ⟨(R.SPD_ERRCNT b i), 0, 16⟩
def SPD_ERRADDR_VALID (b : Nat) (i : Nat) : Fld := ⟨(R.SPD_ERRADDR b i), 63, 1⟩
def SPD_ERRADDR_NN (b : Nat) (i : Nat) : Fld := ⟨(R.SPD_ERRADDR b i), 48, 8⟩
def SPD_ERRADDR_ADDR (b : Nat) (i : Nat) : Fld := ⟨(R.SPD_ERRADDR b i), 0, 48⟩
def SPD_CLEAR_COUNT (b : Nat) : Fld := ⟨(R.SPD_CLEAR b), 32, 32⟩
def SPD_CLEAR_FAULT (b : Nat) : Fld := ⟨(R.SPD_CLEAR b), 3, 1⟩
def SPD_CLEAR_STATE (b : Nat) : Fld := ⟨(R.SPD_CLEAR b), 0, 3⟩
def ARR_STATE_DRAIN (b : Nat) (i : Nat) : Fld := ⟨(R.ARR_STATE b i), 16, 1⟩
def ARR_STATE_HELD (b : Nat) (i : Nat) : Fld := ⟨(R.ARR_STATE b i), 8, 8⟩
def ARR_STATE_LOADING (b : Nat) (i : Nat) : Fld := ⟨(R.ARR_STATE b i), 4, 4⟩
def ARR_STATE_ACTIVE (b : Nat) (i : Nat) : Fld := ⟨(R.ARR_STATE b i), 0, 4⟩
def ARR_COUNT_LOADS (b : Nat) (i : Nat) : Fld := ⟨(R.ARR_COUNT b i), 32, 32⟩
def ARR_COUNT_PASSES (b : Nat) (i : Nat) : Fld := ⟨(R.ARR_COUNT b i), 0, 32⟩
def ARR_ACTIVE_BEATS (b : Nat) (i : Nat) : Fld := ⟨(R.ARR_ACTIVE b i), 0, 64⟩
def ARR_SAT_INT_SAT (b : Nat) (i : Nat) : Fld := ⟨(R.ARR_SAT b i), 48, 16⟩
def ARR_SAT_FP_INF (b : Nat) (i : Nat) : Fld := ⟨(R.ARR_SAT b i), 32, 16⟩
def ARR_SAT_ACC_CORRECTED (b : Nat) (i : Nat) : Fld := ⟨(R.ARR_SAT b i), 16, 16⟩
def ARR_SAT_ACC_UNCORRECTED (b : Nat) (i : Nat) : Fld := ⟨(R.ARR_SAT b i), 0, 16⟩
def VEC_STATE_ACTIVE (b : Nat) (i : Nat) : Fld := ⟨(R.VEC_STATE b i), 12, 1⟩
def VEC_STATE_LAST_OP (b : Nat) (i : Nat) : Fld := ⟨(R.VEC_STATE b i), 0, 12⟩
def VEC_COUNT_REPS (b : Nat) (i : Nat) : Fld := ⟨(R.VEC_COUNT b i), 32, 32⟩
def VEC_COUNT_COMMANDS (b : Nat) (i : Nat) : Fld := ⟨(R.VEC_COUNT b i), 0, 32⟩
def VEC_ACTIVE_BEATS (b : Nat) (i : Nat) : Fld := ⟨(R.VEC_ACTIVE b i), 0, 64⟩
def VEC_SPECIAL_NAN_NEW (b : Nat) (i : Nat) : Fld := ⟨(R.VEC_SPECIAL b i), 48, 16⟩
def VEC_SPECIAL_INF_NEW (b : Nat) (i : Nat) : Fld := ⟨(R.VEC_SPECIAL b i), 32, 16⟩
def VEC_SPECIAL_CVT_SAT (b : Nat) (i : Nat) : Fld := ⟨(R.VEC_SPECIAL b i), 16, 16⟩
def VEC_SPECIAL_DIV_ZERO (b : Nat) (i : Nat) : Fld := ⟨(R.VEC_SPECIAL b i), 0, 16⟩
def LFT_CTRL_SCRUB (b : Nat) : Fld := ⟨(R.LFT_CTRL b), 8, 1⟩
def LFT_CTRL_RESEND_SRC (b : Nat) : Fld := ⟨(R.LFT_CTRL b), 0, 2⟩
def LFT_BANK_STATE_STATE (b : Nat) (i : Nat) : Fld := ⟨(R.LFT_BANK_STATE b i), 0, 32⟩
def LFT_REFRESH_TIMER (b : Nat) : Fld := ⟨(R.LFT_REFRESH b), 32, 32⟩
def LFT_REFRESH_SLOT (b : Nat) : Fld := ⟨(R.LFT_REFRESH b), 0, 6⟩
def LFT_ACTIVE_PEAK (b : Nat) : Fld := ⟨(R.LFT_ACTIVE b), 8, 8⟩
def LFT_ACTIVE_NOW (b : Nat) : Fld := ⟨(R.LFT_ACTIVE b), 0, 8⟩
def LFT_ERRCNT_CORRECTED (b : Nat) : Fld := ⟨(R.LFT_ERRCNT b), 48, 16⟩
def LFT_ERRCNT_REREAD (b : Nat) : Fld := ⟨(R.LFT_ERRCNT b), 32, 16⟩
def LFT_ERRCNT_RESENT (b : Nat) : Fld := ⟨(R.LFT_ERRCNT b), 16, 16⟩
def LFT_ERRCNT_LOST (b : Nat) : Fld := ⟨(R.LFT_ERRCNT b), 0, 16⟩
def LFT_ERRADDR_VALID (b : Nat) : Fld := ⟨(R.LFT_ERRADDR b), 63, 1⟩
def LFT_ERRADDR_NN (b : Nat) : Fld := ⟨(R.LFT_ERRADDR b), 48, 8⟩
def LFT_ERRADDR_OFFSET (b : Nat) : Fld := ⟨(R.LFT_ERRADDR b), 0, 31⟩
def LFT_RESEND_WAITS (b : Nat) : Fld := ⟨(R.LFT_RESEND b), 4, 32⟩
def LFT_RESEND_BUSY (b : Nat) : Fld := ⟨(R.LFT_RESEND b), 0, 4⟩
def LFT_SPARES_RETIRED (b : Nat) : Fld := ⟨(R.LFT_SPARES b), 32, 32⟩
def LFT_SPARES_MIN_BANK (b : Nat) : Fld := ⟨(R.LFT_SPARES b), 8, 8⟩
def LFT_SPARES_MIN_LEFT (b : Nat) : Fld := ⟨(R.LFT_SPARES b), 0, 8⟩
def NET_CTRL_UNS_ROUTE (b : Nat) : Fld := ⟨(R.NET_CTRL b), 0, 2⟩
def NET_RESEND_RESENDS (b : Nat) : Fld := ⟨(R.NET_RESEND b), 32, 32⟩
def NET_RESEND_HELD (b : Nat) : Fld := ⟨(R.NET_RESEND b), 0, 32⟩
def NET_ERRADDR_VALID (b : Nat) : Fld := ⟨(R.NET_ERRADDR b), 63, 1⟩
def NET_ERRADDR_NN (b : Nat) : Fld := ⟨(R.NET_ERRADDR b), 48, 8⟩
def NET_ERRADDR_ADDR (b : Nat) : Fld := ⟨(R.NET_ERRADDR b), 0, 48⟩
def NET_SLOT_SEL_STALL (b : Nat) : Fld := ⟨(R.NET_SLOT_SEL b), 8, 6⟩
def NET_SLOT_SEL_SLOT (b : Nat) : Fld := ⟨(R.NET_SLOT_SEL b), 0, 8⟩
def NET_SLOT_DATA0_VALID (b : Nat) : Fld := ⟨(R.NET_SLOT_DATA0 b), 63, 1⟩
def NET_SLOT_DATA0_BASE (b : Nat) : Fld := ⟨(R.NET_SLOT_DATA0 b), 32, 22⟩
def NET_SLOT_DATA0_RING (b : Nat) : Fld := ⟨(R.NET_SLOT_DATA0 b), 16, 16⟩
def NET_SLOT_DATA0_PTR (b : Nat) : Fld := ⟨(R.NET_SLOT_DATA0 b), 0, 16⟩
def NET_SLOT_DATA1_SIGSEL (b : Nat) : Fld := ⟨(R.NET_SLOT_DATA1 b), 8, 16⟩
def NET_SLOT_DATA1_SIGINC (b : Nat) : Fld := ⟨(R.NET_SLOT_DATA1 b), 0, 8⟩
def NET_LINK_SCHED_FLITS (b : Nat) (i : Nat) : Fld := ⟨(R.NET_LINK_SCHED b i), 0, 64⟩
def NET_LINK_UNS_FLITS (b : Nat) (i : Nat) : Fld := ⟨(R.NET_LINK_UNS b i), 0, 64⟩
def NET_CREDIT_CTRL (b : Nat) (i : Nat) : Fld := ⟨(R.NET_CREDIT b i), 16, 8⟩
def NET_CREDIT_RSP (b : Nat) (i : Nat) : Fld := ⟨(R.NET_CREDIT b i), 8, 8⟩
def NET_CREDIT_REQ (b : Nat) (i : Nat) : Fld := ⟨(R.NET_CREDIT b i), 0, 8⟩
def LNK_PORT_CTRL_RETRAIN (b : Nat) (i : Nat) : Fld := ⟨(R.LNK_PORT_CTRL b i), 16, 1⟩
def LNK_PORT_CTRL_ROLE (b : Nat) (i : Nat) : Fld := ⟨(R.LNK_PORT_CTRL b i), 10, 2⟩
def LNK_PORT_CTRL_MAJOR_MAX (b : Nat) (i : Nat) : Fld := ⟨(R.LNK_PORT_CTRL b i), 8, 2⟩
def LNK_PORT_CTRL_RATE_MAX (b : Nat) (i : Nat) : Fld := ⟨(R.LNK_PORT_CTRL b i), 4, 2⟩
def LNK_PORT_CTRL_ENABLE (b : Nat) (i : Nat) : Fld := ⟨(R.LNK_PORT_CTRL b i), 0, 1⟩
def LNK_PORT_STATE_LANES_GOOD (b : Nat) (i : Nat) : Fld := ⟨(R.LNK_PORT_STATE b i), 32, 8⟩
def LNK_PORT_STATE_MAJOR (b : Nat) (i : Nat) : Fld := ⟨(R.LNK_PORT_STATE b i), 24, 4⟩
def LNK_PORT_STATE_MINOR (b : Nat) (i : Nat) : Fld := ⟨(R.LNK_PORT_STATE b i), 16, 8⟩
def LNK_PORT_STATE_WIDTH4 (b : Nat) (i : Nat) : Fld := ⟨(R.LNK_PORT_STATE b i), 12, 1⟩
def LNK_PORT_STATE_RATE (b : Nat) (i : Nat) : Fld := ⟨(R.LNK_PORT_STATE b i), 10, 2⟩
def LNK_PORT_STATE_STATE (b : Nat) (i : Nat) : Fld := ⟨(R.LNK_PORT_STATE b i), 0, 4⟩
def LNK_PARTNER_PART (b : Nat) (i : Nat) : Fld := ⟨(R.LNK_PARTNER b i), 48, 16⟩
def LNK_PARTNER_PLANE (b : Nat) (i : Nat) : Fld := ⟨(R.LNK_PARTNER b i), 44, 4⟩
def LNK_PARTNER_PORT (b : Nat) (i : Nat) : Fld := ⟨(R.LNK_PARTNER b i), 32, 5⟩
def LNK_PARTNER_DEVICE (b : Nat) (i : Nat) : Fld := ⟨(R.LNK_PARTNER b i), 0, 12⟩
def LNK_REPLAY_CFG_FEC_THRESH (b : Nat) (i : Nat) : Fld := ⟨(R.LNK_REPLAY_CFG b i), 48, 16⟩
def LNK_REPLAY_CFG_LIMIT (b : Nat) (i : Nat) : Fld := ⟨(R.LNK_REPLAY_CFG b i), 36, 4⟩
def LNK_REPLAY_CFG_TIMEOUT_NS (b : Nat) (i : Nat) : Fld := ⟨(R.LNK_REPLAY_CFG b i), 0, 32⟩
def LNK_FEC_SYMBOLS (b : Nat) (i : Nat) : Fld := ⟨(R.LNK_FEC b i), 32, 32⟩
def LNK_FEC_BAD_FLITS (b : Nat) (i : Nat) : Fld := ⟨(R.LNK_FEC b i), 0, 32⟩
def LNK_REPLAY_RETRAINS (b : Nat) (i : Nat) : Fld := ⟨(R.LNK_REPLAY b i), 48, 16⟩
def LNK_REPLAY_TIMER (b : Nat) (i : Nat) : Fld := ⟨(R.LNK_REPLAY b i), 32, 16⟩
def LNK_REPLAY_NAK (b : Nat) (i : Nat) : Fld := ⟨(R.LNK_REPLAY b i), 16, 16⟩
def LNK_REPLAY_DUPLICATES (b : Nat) (i : Nat) : Fld := ⟨(R.LNK_REPLAY b i), 0, 16⟩
def LNK_BYPASS_SENT (b : Nat) (i : Nat) : Fld := ⟨(R.LNK_BYPASS b i), 32, 32⟩
def LNK_BYPASS_DROPPED (b : Nat) (i : Nat) : Fld := ⟨(R.LNK_BYPASS b i), 16, 16⟩
def LNK_BYPASS_UNKNOWN (b : Nat) (i : Nat) : Fld := ⟨(R.LNK_BYPASS b i), 0, 16⟩
def LNK_TRANSIT_FORWARDED (b : Nat) (i : Nat) : Fld := ⟨(R.LNK_TRANSIT b i), 32, 32⟩
def LNK_TRANSIT_ABORTED (b : Nat) (i : Nat) : Fld := ⟨(R.LNK_TRANSIT b i), 0, 16⟩
def LNK_CREDIT_ADV_HDR (b : Nat) (i : Nat) (k : Nat) : Fld := ⟨(R.LNK_CREDIT b i k), 48, 16⟩
def LNK_CREDIT_AVAIL_HDR (b : Nat) (i : Nat) (k : Nat) : Fld := ⟨(R.LNK_CREDIT b i k), 32, 16⟩
def LNK_CREDIT_ADV_DATA (b : Nat) (i : Nat) (k : Nat) : Fld := ⟨(R.LNK_CREDIT b i k), 16, 16⟩
def LNK_CREDIT_AVAIL_DATA (b : Nat) (i : Nat) (k : Nat) : Fld := ⟨(R.LNK_CREDIT b i k), 0, 16⟩
def PCR_STEP_REQ_STEP (i : Nat) : Fld := ⟨(R.PCR_STEP_REQ i), 0, 4⟩
def PCR_STEP_STATE_GUARD (i : Nat) : Fld := ⟨(R.PCR_STEP_STATE i), 11, 1⟩
def PCR_STEP_STATE_THROTTLED (i : Nat) : Fld := ⟨(R.PCR_STEP_STATE i), 10, 1⟩
def PCR_STEP_STATE_CLAMPED (i : Nat) : Fld := ⟨(R.PCR_STEP_STATE i), 9, 1⟩
def PCR_STEP_STATE_MOVING (i : Nat) : Fld := ⟨(R.PCR_STEP_STATE i), 8, 1⟩
def PCR_STEP_STATE_TARGET (i : Nat) : Fld := ⟨(R.PCR_STEP_STATE i), 4, 4⟩
def PCR_STEP_STATE_CUR (i : Nat) : Fld := ⟨(R.PCR_STEP_STATE i), 0, 4⟩
def PCR_STEP_APPLY_APPLY : Fld := ⟨R.PCR_STEP_APPLY, 0, 1⟩
def PCR_THROTTLE_EVENTS : Fld := ⟨R.PCR_THROTTLE, 32, 32⟩
def PCR_THROTTLE_STUCK : Fld := ⟨R.PCR_THROTTLE, 1, 1⟩
def PCR_THROTTLE_ASSERTED : Fld := ⟨R.PCR_THROTTLE, 0, 1⟩
def PCR_BEAT_BEATS (i : Nat) : Fld := ⟨(R.PCR_BEAT i), 0, 64⟩
def PCR_SLIP_SLIPS (i : Nat) : Fld := ⟨(R.PCR_SLIP i), 0, 64⟩
def PCR_HOLD_ORIGIN_EVENTS (i : Nat) : Fld := ⟨(R.PCR_HOLD i), 32, 32⟩
def PCR_HOLD_PROPAGATED (i : Nat) : Fld := ⟨(R.PCR_HOLD i), 9, 1⟩
def PCR_HOLD_HELD (i : Nat) : Fld := ⟨(R.PCR_HOLD i), 8, 1⟩
def PCR_HOLD_CUR_CAUSE (i : Nat) : Fld := ⟨(R.PCR_HOLD i), 4, 4⟩
def PCR_HOLD_LAST_CAUSE (i : Nat) : Fld := ⟨(R.PCR_HOLD i), 0, 4⟩
def PCR_SKEW_WAIT_PERIODS (i : Nat) : Fld := ⟨(R.PCR_SKEW_WAIT i), 0, 64⟩
def PCR_STALL_TIMEOUT_LIMIT_US : Fld := ⟨R.PCR_STALL_TIMEOUT, 0, 32⟩
def PCR_STIME_NS_NS : Fld := ⟨R.PCR_STIME_NS, 0, 64⟩
def PCR_STIME_FRAC_FRAC : Fld := ⟨R.PCR_STIME_FRAC, 0, 8⟩
def PCR_TIME_CTRL_ALLOW_STEP : Fld := ⟨R.PCR_TIME_CTRL, 16, 1⟩
def PCR_TIME_CTRL_PARENT_PORT : Fld := ⟨R.PCR_TIME_CTRL, 8, 5⟩
def PCR_TIME_CTRL_SOURCE : Fld := ⟨R.PCR_TIME_CTRL, 0, 2⟩
def PCR_TIME_RATE_RATE : Fld := ⟨R.PCR_TIME_RATE, 0, 32⟩
def PCR_TIME_STATUS_PPS_REJECTED : Fld := ⟨R.PCR_TIME_STATUS, 16, 16⟩
def PCR_TIME_STATUS_STEP_REFUSED : Fld := ⟨R.PCR_TIME_STATUS, 11, 1⟩
def PCR_TIME_STATUS_PPS_FAULT : Fld := ⟨R.PCR_TIME_STATUS, 10, 1⟩
def PCR_TIME_STATUS_REF_LOST : Fld := ⟨R.PCR_TIME_STATUS, 9, 1⟩
def PCR_TIME_STATUS_REF_PRESENT : Fld := ⟨R.PCR_TIME_STATUS, 8, 1⟩
def PCR_TIME_STATUS_STATE : Fld := ⟨R.PCR_TIME_STATUS, 0, 3⟩
def PCR_PPS_SECONDS_SECONDS : Fld := ⟨R.PCR_PPS_SECONDS, 0, 64⟩
def PCR_STIME_SET_NS : Fld := ⟨R.PCR_STIME_SET, 0, 64⟩
def PCR_PORT_TIME_DELAY (i : Nat) : Fld := ⟨(R.PCR_PORT_TIME i), 32, 32⟩
def PCR_PORT_TIME_OFFSET (i : Nat) : Fld := ⟨(R.PCR_PORT_TIME i), 0, 32⟩
def PCR_PORT_ASYM_ASYM (i : Nat) : Fld := ⟨(R.PCR_PORT_ASYM i), 0, 16⟩
def PCR_JOB_BEAT_BEATS (i : Nat) : Fld := ⟨(R.PCR_JOB_BEAT i), 0, 64⟩
def PCR_JOB_SLIP_SLIPS (i : Nat) : Fld := ⟨(R.PCR_JOB_SLIP i), 0, 64⟩
def PCR_JOB_LAUNCH_NS (i : Nat) : Fld := ⟨(R.PCR_JOB_LAUNCH i), 0, 64⟩
def FAB_ID_PLANE : Fld := ⟨R.FAB_ID, 16, 4⟩
def FAB_ID_DEVICE : Fld := ⟨R.FAB_ID, 0, 12⟩
def FAB_CTRL_NOTICE_EN : Fld := ⟨R.FAB_CTRL, 32, 1⟩
def FAB_CTRL_RESEND_US : Fld := ⟨R.FAB_CTRL, 16, 16⟩
def FAB_CTRL_DOWN_HOLD_US : Fld := ⟨R.FAB_CTRL, 0, 16⟩
def FAB_TBL_SEL_TABLE : Fld := ⟨R.FAB_TBL_SEL, 14, 2⟩
def FAB_TBL_SEL_INDEX : Fld := ⟨R.FAB_TBL_SEL, 0, 14⟩
def FAB_RX_DUP : Fld := ⟨R.FAB_RX, 48, 16⟩
def FAB_RX_GAP : Fld := ⟨R.FAB_RX, 32, 16⟩
def FAB_RX_UNKNOWN_JOB : Fld := ⟨R.FAB_RX, 16, 16⟩
def FAB_RX_TRANSIT_DROP : Fld := ⟨R.FAB_RX, 0, 16⟩
def FAB_NOTICE_MARKED : Fld := ⟨R.FAB_NOTICE, 32, 32⟩
def FAB_NOTICE_SENT : Fld := ⟨R.FAB_NOTICE, 0, 32⟩
def FAB_JOB_CFG_RETAIN (i : Nat) : Fld := ⟨(R.FAB_JOB_CFG i), 32, 16⟩
def FAB_JOB_CFG_HEAD (i : Nat) : Fld := ⟨(R.FAB_JOB_CFG i), 16, 12⟩
def FAB_JOB_CFG_FJOB (i : Nat) : Fld := ⟨(R.FAB_JOB_CFG i), 0, 16⟩
def FAB_JOB_GATE_COUNT (i : Nat) : Fld := ⟨(R.FAB_JOB_GATE i), 16, 14⟩
def FAB_JOB_GATE_BASE (i : Nat) : Fld := ⟨(R.FAB_JOB_GATE i), 0, 13⟩
def FAB_JOB_CTL_GO (i : Nat) : Fld := ⟨(R.FAB_JOB_CTL i), 63, 1⟩
def FAB_JOB_CTL_PLAN (i : Nat) : Fld := ⟨(R.FAB_JOB_CTL i), 62, 1⟩
def FAB_JOB_CTL_BEAT (i : Nat) : Fld := ⟨(R.FAB_JOB_CTL i), 0, 48⟩
def FAB_JOB_STATE_SWITCH_BEAT (i : Nat) : Fld := ⟨(R.FAB_JOB_STATE i), 16, 48⟩
def FAB_JOB_STATE_LOST_DEST (i : Nat) : Fld := ⟨(R.FAB_JOB_STATE i), 4, 12⟩
def FAB_JOB_STATE_ROUTE_LOST (i : Nat) : Fld := ⟨(R.FAB_JOB_STATE i), 3, 1⟩
def FAB_JOB_STATE_PENDING (i : Nat) : Fld := ⟨(R.FAB_JOB_STATE i), 1, 1⟩
def FAB_JOB_STATE_PLAN (i : Nat) : Fld := ⟨(R.FAB_JOB_STATE i), 0, 1⟩
def FAB_RETAIN_RESENT (i : Nat) : Fld := ⟨(R.FAB_RETAIN i), 32, 32⟩
def FAB_RETAIN_HELD (i : Nat) : Fld := ⟨(R.FAB_RETAIN i), 0, 14⟩
def SRV_CFG_POLL_MAX : Fld := ⟨R.SRV_CFG, 48, 8⟩
def SRV_CFG_KV_RESERVE : Fld := ⟨R.SRV_CFG, 32, 16⟩
def SRV_CFG_QUANTUM : Fld := ⟨R.SRV_CFG, 0, 32⟩
def SRV_SEL_JOB : Fld := ⟨R.SRV_SEL, 40, 3⟩
def SRV_SEL_TABLE : Fld := ⟨R.SRV_SEL, 32, 2⟩
def SRV_SEL_INDEX : Fld := ⟨R.SRV_SEL, 4, 24⟩
def SRV_SEL_WORD : Fld := ⟨R.SRV_SEL, 0, 4⟩
def SRV_PREFIX_HITS : Fld := ⟨R.SRV_PREFIX, 32, 32⟩
def SRV_PREFIX_ENTRIES : Fld := ⟨R.SRV_PREFIX, 0, 19⟩
def SRV_JOB_CFG_RET_COUNT (i : Nat) : Fld := ⟨(R.SRV_JOB_CFG i), 32, 16⟩
def SRV_JOB_CFG_GROUP (i : Nat) : Fld := ⟨(R.SRV_JOB_CFG i), 20, 10⟩
def SRV_JOB_CFG_DEPTH (i : Nat) : Fld := ⟨(R.SRV_JOB_CFG i), 0, 5⟩
def SRV_JOB_AREA_RET (i : Nat) : Fld := ⟨(R.SRV_JOB_AREA i), 24, 24⟩
def SRV_JOB_AREA_STEP (i : Nat) : Fld := ⟨(R.SRV_JOB_AREA i), 0, 24⟩
def SRV_JOB_GATE_RET_GATE (i : Nat) : Fld := ⟨(R.SRV_JOB_GATE i), 16, 13⟩
def SRV_JOB_GATE_STEP_GATE (i : Nat) : Fld := ⟨(R.SRV_JOB_GATE i), 0, 13⟩
def SRV_JOB_KV_KVMAP (i : Nat) : Fld := ⟨(R.SRV_JOB_KV i), 34, 24⟩
def SRV_JOB_KV_MAXB (i : Nat) : Fld := ⟨(R.SRV_JOB_KV i), 20, 14⟩
def SRV_JOB_KV_NKV (i : Nat) : Fld := ⟨(R.SRV_JOB_KV i), 0, 20⟩
def SRV_JOB_KVLAYOUT_KV_BYTES (i : Nat) : Fld := ⟨(R.SRV_JOB_KVLAYOUT i), 32, 31⟩
def SRV_JOB_KVLAYOUT_KV_BASE (i : Nat) : Fld := ⟨(R.SRV_JOB_KVLAYOUT i), 0, 31⟩
def SRV_JOB_STATE_STEP (i : Nat) : Fld := ⟨(R.SRV_JOB_STATE i), 32, 32⟩
def SRV_JOB_STATE_IN_FLIGHT (i : Nat) : Fld := ⟨(R.SRV_JOB_STATE i), 8, 8⟩
def SRV_JOB_STATE_REASON (i : Nat) : Fld := ⟨(R.SRV_JOB_STATE i), 4, 4⟩
def SRV_JOB_STATE_STATE (i : Nat) : Fld := ⟨(R.SRV_JOB_STATE i), 0, 4⟩
def SRV_JOB_COUNT_OUT_FREE (i : Nat) : Fld := ⟨(R.SRV_JOB_COUNT i), 36, 17⟩
def SRV_JOB_COUNT_KV_FREE (i : Nat) : Fld := ⟨(R.SRV_JOB_COUNT i), 16, 20⟩
def SRV_JOB_COUNT_SEQS (i : Nat) : Fld := ⟨(R.SRV_JOB_COUNT i), 0, 13⟩
def SRV_SHAPE_VALID (i : Nat) (k : Nat) : Fld := ⟨(R.SRV_SHAPE i k), 63, 1⟩
def SRV_SHAPE_PAUSABLE (i : Nat) (k : Nat) : Fld := ⟨(R.SRV_SHAPE i k), 62, 1⟩
def SRV_SHAPE_CHUNK (i : Nat) (k : Nat) : Fld := ⟨(R.SRV_SHAPE i k), 48, 10⟩
def SRV_SHAPE_SEGS (i : Nat) (k : Nat) : Fld := ⟨(R.SRV_SHAPE i k), 44, 4⟩
def SRV_SHAPE_VTOK (i : Nat) (k : Nat) : Fld := ⟨(R.SRV_SHAPE i k), 41, 3⟩
def SRV_SHAPE_DSLOTS (i : Nat) (k : Nat) : Fld := ⟨(R.SRV_SHAPE i k), 32, 8⟩
def SRV_SHAPE_LEN (i : Nat) (k : Nat) : Fld := ⟨(R.SRV_SHAPE i k), 0, 32⟩
def YOK_CFG_LOSS_MS : Fld := ⟨R.YOK_CFG, 32, 8⟩
def YOK_CFG_PARTNER : Fld := ⟨R.YOK_CFG, 16, 12⟩
def YOK_CFG_PORT : Fld := ⟨R.YOK_CFG, 8, 5⟩
def YOK_CFG_PRIMARY : Fld := ⟨R.YOK_CFG, 1, 1⟩
def YOK_CFG_ENABLE : Fld := ⟨R.YOK_CFG, 0, 1⟩
def YOK_STATE_LINK_HB : Fld := ⟨R.YOK_STATE, 7, 1⟩
def YOK_STATE_PIN_HB : Fld := ⟨R.YOK_STATE, 6, 1⟩
def YOK_STATE_STATE : Fld := ⟨R.YOK_STATE, 0, 3⟩
def YOK_REYOKE_PASSES : Fld := ⟨R.YOK_REYOKE, 32, 32⟩
def YOK_REYOKE_DIRTY : Fld := ⟨R.YOK_REYOKE, 16, 16⟩
def YOK_REYOKE_DIRTY_MAX : Fld := ⟨R.YOK_REYOKE, 0, 16⟩
def YOK_COUNT_COMPARED : Fld := ⟨R.YOK_COUNT, 32, 32⟩
def YOK_COUNT_SERVED : Fld := ⟨R.YOK_COUNT, 16, 16⟩
def YOK_COUNT_DISCARDED : Fld := ⟨R.YOK_COUNT, 0, 16⟩
def YOK_JOB_CFG_POINTS (i : Nat) : Fld := ⟨(R.YOK_JOB_CFG i), 8, 7⟩
def YOK_JOB_CFG_REJOIN (i : Nat) : Fld := ⟨(R.YOK_JOB_CFG i), 1, 1⟩
def YOK_JOB_CFG_YOKED (i : Nat) : Fld := ⟨(R.YOK_JOB_CFG i), 0, 1⟩
def YOK_JOB_AREA_JOURNAL (i : Nat) : Fld := ⟨(R.YOK_JOB_AREA i), 24, 24⟩
def YOK_JOB_AREA_DIGEST (i : Nat) : Fld := ⟨(R.YOK_JOB_AREA i), 0, 24⟩
def YOK_JOB_CTL_ACTION (i : Nat) : Fld := ⟨(R.YOK_JOB_CTL i), 0, 3⟩
def YOK_JOB_STATE_CONFIRMED (i : Nat) : Fld := ⟨(R.YOK_JOB_STATE i), 32, 32⟩
def YOK_JOB_STATE_POINT (i : Nat) : Fld := ⟨(R.YOK_JOB_STATE i), 16, 8⟩
def YOK_JOB_STATE_STATE (i : Nat) : Fld := ⟨(R.YOK_JOB_STATE i), 0, 4⟩
def SEC_CTRL_DEPLOY_TIMEOUT_S : Fld := ⟨R.SEC_CTRL, 32, 16⟩
def SEC_CTRL_COMMIT_LEAD_US : Fld := ⟨R.SEC_CTRL, 16, 16⟩
def SEC_CTRL_SIGNER_LOCK : Fld := ⟨R.SEC_CTRL, 2, 1⟩
def SEC_CTRL_IMAGE_SIG : Fld := ⟨R.SEC_CTRL, 1, 1⟩
def SEC_SEL_TABLE : Fld := ⟨R.SEC_SEL, 8, 2⟩
def SEC_SEL_INDEX : Fld := ⟨R.SEC_SEL, 4, 4⟩
def SEC_SEL_WORD : Fld := ⟨R.SEC_SEL, 0, 2⟩
def SEC_SIGNER_ROLE_ROLES : Fld := ⟨R.SEC_SIGNER_ROLE, 0, 32⟩
def SEC_KEYCTX_USED : Fld := ⟨R.SEC_KEYCTX, 0, 9⟩
def SEC_JOB_GATE_BASE (i : Nat) : Fld := ⟨(R.SEC_JOB_GATE i), 0, 13⟩
def SEC_JOB_AREA_AREA (i : Nat) : Fld := ⟨(R.SEC_JOB_AREA i), 0, 24⟩
def SEC_JOB_ADAPTER_STRIDE (i : Nat) : Fld := ⟨(R.SEC_JOB_ADAPTER i), 16, 16⟩
def SEC_JOB_ADAPTER_BASE (i : Nat) : Fld := ⟨(R.SEC_JOB_ADAPTER i), 0, 15⟩
def SEC_JOB_STATE_GEN (i : Nat) : Fld := ⟨(R.SEC_JOB_STATE i), 36, 12⟩
def SEC_JOB_STATE_SHARDS_OK (i : Nat) : Fld := ⟨(R.SEC_JOB_STATE i), 16, 20⟩
def SEC_JOB_STATE_TEARDOWN (i : Nat) : Fld := ⟨(R.SEC_JOB_STATE i), 8, 4⟩
def SEC_JOB_STATE_KEY (i : Nat) : Fld := ⟨(R.SEC_JOB_STATE i), 4, 2⟩
def SEC_JOB_STATE_DEPLOY (i : Nat) : Fld := ⟨(R.SEC_JOB_STATE i), 0, 4⟩
def SEC_JOB_RX_AUTH_FAIL (i : Nat) : Fld := ⟨(R.SEC_JOB_RX i), 32, 32⟩
def SEC_JOB_RX_SHARD_REJECT (i : Nat) : Fld := ⟨(R.SEC_JOB_RX i), 16, 16⟩
def ERR_POLICY_RETIRE : Fld := ⟨R.ERR_POLICY, 9, 1⟩
def ERR_POLICY_HOST_CONSUME : Fld := ⟨R.ERR_POLICY, 8, 1⟩
def ERR_POLICY_IRQ_MIN : Fld := ⟨R.ERR_POLICY, 0, 2⟩
def ERR_COUNT_DROPPED_LOW : Fld := ⟨R.ERR_COUNT, 48, 16⟩
def ERR_COUNT_DROPPED_SEVERE : Fld := ⟨R.ERR_COUNT, 32, 16⟩
def ERR_COUNT_ESCALATED : Fld := ⟨R.ERR_COUNT, 16, 16⟩
def ERR_COUNT_ALERT : Fld := ⟨R.ERR_COUNT, 11, 1⟩
def ERR_COUNT_HELD : Fld := ⟨R.ERR_COUNT, 0, 11⟩
def ERR_PRODUCER_INDEX : Fld := ⟨R.ERR_PRODUCER, 0, 32⟩
def ERR_CONSUMER_INDEX : Fld := ⟨R.ERR_CONSUMER, 0, 32⟩
def ERR_SEL_INDEX : Fld := ⟨R.ERR_SEL, 0, 32⟩
def ERR_REC_WORD (i : Nat) : Fld := ⟨(R.ERR_REC i), 0, 64⟩
def PWR_PLAN_LIMIT_LIMIT (i : Nat) : Fld := ⟨(R.PWR_PLAN_LIMIT i), 0, 16⟩
def PWR_PLAN_STAT_PEAK (i : Nat) : Fld := ⟨(R.PWR_PLAN_STAT i), 48, 16⟩
def PWR_PLAN_STAT_WINDOWS (i : Nat) : Fld := ⟨(R.PWR_PLAN_STAT i), 32, 16⟩
def PWR_PLAN_STAT_HELD (i : Nat) : Fld := ⟨(R.PWR_PLAN_STAT i), 0, 32⟩
def HST_PORT_CFG_MOD_US (b : Nat) : Fld := ⟨(R.HST_PORT_CFG b), 32, 16⟩
def HST_PORT_CFG_DEVRING_LOG2 (b : Nat) : Fld := ⟨(R.HST_PORT_CFG b), 8, 8⟩
def HST_PORT_CFG_IDE_REQUIRED (b : Nat) : Fld := ⟨(R.HST_PORT_CFG b), 1, 1⟩
def HST_PORT_CFG_ENABLE (b : Nat) : Fld := ⟨(R.HST_PORT_CFG b), 0, 1⟩
def HST_DEVRING_BASE_ADDR (b : Nat) : Fld := ⟨(R.HST_DEVRING_BASE b), 12, 52⟩
def HST_DEVRING_HDR_ADDR (b : Nat) : Fld := ⟨(R.HST_DEVRING_HDR b), 8, 56⟩
def HST_PORT_STATE_BOOTS (b : Nat) : Fld := ⟨(R.HST_PORT_STATE b), 48, 16⟩
def HST_PORT_STATE_DOWNS (b : Nat) : Fld := ⟨(R.HST_PORT_STATE b), 32, 16⟩
def HST_PORT_STATE_IDE_SECURE (b : Nat) : Fld := ⟨(R.HST_PORT_STATE b), 11, 1⟩
def HST_PORT_STATE_ABSENT (b : Nat) : Fld := ⟨(R.HST_PORT_STATE b), 10, 1⟩
def HST_PORT_STATE_FLIT (b : Nat) : Fld := ⟨(R.HST_PORT_STATE b), 9, 1⟩
def HST_PORT_STATE_WIDTH (b : Nat) : Fld := ⟨(R.HST_PORT_STATE b), 6, 3⟩
def HST_PORT_STATE_SPEED (b : Nat) : Fld := ⟨(R.HST_PORT_STATE b), 4, 2⟩
def HST_DMA_IN_BYTES (b : Nat) : Fld := ⟨(R.HST_DMA_IN b), 0, 64⟩
def HST_DMA_OUT_BYTES (b : Nat) : Fld := ⟨(R.HST_DMA_OUT b), 0, 64⟩
def HST_ERRCNT_READ_FAILED (b : Nat) : Fld := ⟨(R.HST_ERRCNT b), 48, 16⟩
def HST_ERRCNT_BAR_DENIED (b : Nat) : Fld := ⟨(R.HST_ERRCNT b), 32, 16⟩
def HST_ERRCNT_RING_STALL (b : Nat) : Fld := ⟨(R.HST_ERRCNT b), 16, 16⟩
def HST_ERRCNT_IDE_FAULT (b : Nat) : Fld := ⟨(R.HST_ERRCNT b), 0, 16⟩
def HST_DEVCPL_BASE_ADDR (b : Nat) : Fld := ⟨(R.HST_DEVCPL_BASE b), 12, 52⟩
def HST_CTX_CMD_CONSUMER (b : Nat) (i : Nat) : Fld := ⟨(R.HST_CTX b i), 32, 32⟩
def HST_CTX_SUSPENDED_ABSENT (b : Nat) (i : Nat) : Fld := ⟨(R.HST_CTX b i), 2, 1⟩
def HST_CTX_ATTACHED (b : Nat) (i : Nat) : Fld := ⟨(R.HST_CTX b i), 1, 1⟩
def HST_CTX_OWNED (b : Nat) (i : Nat) : Fld := ⟨(R.HST_CTX b i), 0, 1⟩
def HST_CTX_OUT_PRODUCER (b : Nat) (i : Nat) : Fld := ⟨(R.HST_CTX_OUT b i), 32, 32⟩
def HST_CTX_OUT_CONSUMER (b : Nat) (i : Nat) : Fld := ⟨(R.HST_CTX_OUT b i), 0, 32⟩
def HST_CTX_CPL_PRODUCER (b : Nat) (i : Nat) : Fld := ⟨(R.HST_CTX_CPL b i), 32, 32⟩
def HST_CTX_CPL_CONSUMER (b : Nat) (i : Nat) : Fld := ⟨(R.HST_CTX_CPL b i), 0, 32⟩
def TCK_STATE_FW_VERSION : Fld := ⟨R.TCK_STATE, 32, 32⟩
def TCK_STATE_IMAGE_VALID : Fld := ⟨R.TCK_STATE, 3, 1⟩
def TCK_STATE_STATE : Fld := ⟨R.TCK_STATE, 0, 3⟩
def TCK_POLICY_TRIM : Fld := ⟨R.TCK_POLICY, 24, 1⟩
def TCK_POLICY_SOFT_C : Fld := ⟨R.TCK_POLICY, 16, 8⟩
def TCK_POLICY_SAFE_STEP : Fld := ⟨R.TCK_POLICY, 8, 4⟩
def TCK_POLICY_BASE_STEP : Fld := ⟨R.TCK_POLICY, 0, 4⟩
def TCK_ENVELOPE_CEILING : Fld := ⟨R.TCK_ENVELOPE, 32, 4⟩
def TCK_ENVELOPE_MEASURED : Fld := ⟨R.TCK_ENVELOPE, 16, 16⟩
def TCK_ENVELOPE_WATTS : Fld := ⟨R.TCK_ENVELOPE, 0, 16⟩
def TCK_ALERT_CAUSES : Fld := ⟨R.TCK_ALERT, 0, 6⟩
def TCK_LOG_LOST : Fld := ⟨R.TCK_LOG, 32, 32⟩
def TCK_LOG_NEXT : Fld := ⟨R.TCK_LOG, 0, 32⟩
def TCK_TEMP_FAULT (i : Nat) : Fld := ⟨(R.TCK_TEMP i), 16, 1⟩
def TCK_TEMP_READING (i : Nat) : Fld := ⟨(R.TCK_TEMP i), 0, 16⟩
def TCK_VOLT_FAULT (i : Nat) : Fld := ⟨(R.TCK_VOLT i), 16, 1⟩
def TCK_VOLT_MV (i : Nat) : Fld := ⟨(R.TCK_VOLT i), 0, 16⟩
def TCK_POWER_PEAK (i : Nat) : Fld := ⟨(R.TCK_POWER i), 32, 32⟩
def TCK_POWER_MW (i : Nat) : Fld := ⟨(R.TCK_POWER i), 0, 32⟩
def TCK_MBX_CTL_LEVEL (i : Nat) : Fld := ⟨(R.TCK_MBX_CTL i), 32, 32⟩
def TCK_MBX_CTL_OVERRUN (i : Nat) : Fld := ⟨(R.TCK_MBX_CTL i), 3, 1⟩
def TCK_MBX_CTL_DONE (i : Nat) : Fld := ⟨(R.TCK_MBX_CTL i), 2, 1⟩
def TCK_MBX_CTL_BUSY (i : Nat) : Fld := ⟨(R.TCK_MBX_CTL i), 1, 1⟩
def TCK_MBX_CTL_GO (i : Nat) : Fld := ⟨(R.TCK_MBX_CTL i), 0, 1⟩
def TCK_LSP_CTL_TRIG_CODE : Fld := ⟨R.TCK_LSP_CTL, 48, 16⟩
def TCK_LSP_CTL_POST : Fld := ⟨R.TCK_LSP_CTL, 30, 18⟩
def TCK_LSP_CTL_SOURCES : Fld := ⟨R.TCK_LSP_CTL, 23, 7⟩
def TCK_LSP_CTL_TRIG : Fld := ⟨R.TCK_LSP_CTL, 2, 1⟩
def TCK_LSP_CTL_MODE : Fld := ⟨R.TCK_LSP_CTL, 1, 1⟩
def TCK_LSP_CTL_RUN : Fld := ⟨R.TCK_LSP_CTL, 0, 1⟩
def TCK_LSP_SEL_ROUTER : Fld := ⟨R.TCK_LSP_SEL, 11, 5⟩
def TCK_LSP_SEL_BARN : Fld := ⟨R.TCK_LSP_SEL, 6, 5⟩
def TCK_LSP_SEL_STALL : Fld := ⟨R.TCK_LSP_SEL, 0, 6⟩
def TCK_LSP_STAT_DROPPED : Fld := ⟨R.TCK_LSP_STAT, 32, 32⟩
def TCK_LSP_STAT_NEXT : Fld := ⟨R.TCK_LSP_STAT, 0, 18⟩
def LDR_STALL_MASK_GOOD (i : Nat) : Fld := ⟨(R.LDR_STALL_MASK i), 56, 6⟩
def LDR_STALL_MASK_COUNT (i : Nat) : Fld := ⟨(R.LDR_STALL_MASK i), 50, 6⟩
def LDR_STALL_MASK_MASK (i : Nat) : Fld := ⟨(R.LDR_STALL_MASK i), 0, 48⟩
def LDR_STATUS_RECORD (i : Nat) : Fld := ⟨(R.LDR_STATUS i), 16, 32⟩
def LDR_STATUS_DONE (i : Nat) : Fld := ⟨(R.LDR_STATUS i), 4, 1⟩
def LDR_STATUS_STATUS (i : Nat) : Fld := ⟨(R.LDR_STATUS i), 0, 4⟩

end F

end Sys2Proof.Machine
end

