-- ==== Sys2Proof/Machine/Timed.lean ====
section
/-! DEFINITION. A store whose writes land at stated beats: the settled contents and the writes still on their way,
each with the beat it lands in. A read in beat b sees the writes of earlier beats (R81, R127). -/

namespace Sys2Proof.Machine

/-- A write on its way: the beat in which it lands, the place and the value. -/
structure Fly (α : Type) where
  beat : Nat
  key : Nat
  val : α
  deriving DecidableEq, Repr

/-- Settled contents and writes on their way, oldest first. -/
structure Timed (α : Type) where
  cur : Tab α := []
  fly : List (Fly α) := []
  deriving DecidableEq, Repr

/-- The latest write to `k` that landed before beat `b`; among writes of one beat the one made last. -/
def Timed.pick {α : Type} (b k : Nat) : List (Fly α) → Option (Fly α) → Option (Fly α)
  | [], best => best
  | f :: fs, best =>
    if f.key = k ∧ f.beat < b then
      match best with
      | none => Timed.pick b k fs (some f)
      | some g => Timed.pick b k fs (some (if g.beat ≤ f.beat then f else g))
    else Timed.pick b k fs best

/-- The value at `k` as a read in beat `b` finds it. -/
def Timed.readAt {α : Type} (d : Nat → α) (t : Timed α) (b k : Nat) : α :=
  match Timed.pick b k t.fly none with
  | some f => f.val
  | none => Tab.get d t.cur k

/-- Write `v` at `k` in beat `b`. -/
def Timed.write {α : Type} (t : Timed α) (b k : Nat) (v : α) : Timed α :=
  { t with fly := t.fly ++ [⟨b, k, v⟩] }

/-- Put a landed write into the settled contents. -/
def Timed.landAll {α : Type} [DecidableEq α] (d : Nat → α) : List (Fly α) → Tab α → Tab α
  | [], c => c
  | f :: fs, c => Timed.landAll d fs (Tab.set d c f.key f.val)

/-- Insert by beat, keeping the order of writes of one beat. -/
def Timed.insertFly {α : Type} (f : Fly α) : List (Fly α) → List (Fly α)
  | [] => [f]
  | g :: gs => if f.beat < g.beat then f :: g :: gs else g :: Timed.insertFly f gs

/-- The writes in the order in which they land. -/
def Timed.sorted {α : Type} (l : List (Fly α)) : List (Fly α) :=
  l.foldl (fun acc f => Timed.insertFly f acc) []

/-- Everything that lands before beat `b` becomes settled. -/
def Timed.settle {α : Type} [DecidableEq α] (d : Nat → α) (b : Nat) (t : Timed α) : Timed α :=
  { cur := Timed.landAll d (Timed.sorted (t.fly.filter (fun f => decide (f.beat < b)))) t.cur
    fly := t.fly.filter (fun f => decide (b ≤ f.beat)) }

/-- A halt in beat `b`: what has landed stays, the rest is not written (R93). -/
def Timed.cut {α : Type} (b : Nat) (t : Timed α) : Timed α :=
  { t with fly := t.fly.filter (fun f => decide (f.beat ≤ b)) }

end Sys2Proof.Machine
end

