-- ==== Sys2Proof/Machine/State.lean ====
section
/-! DEFINITION. The state of the device as plain data, the ways a command can stop, and the state after reset. -/

namespace Sys2Proof.Machine

/-- What the device sends or shows outside itself, in order. -/
inductive Out where
  /-- a write to host memory through a port -/
  | hostWrite (port addr : Nat) (bytes : List Byte)
  /-- an MSI-X vector of a port: 0 the physical function, 1 + j the virtual function of context j -/
  | msix (port fn vector : Nat)
  /-- the answer to a read: its tag, 0 successful, 1 unsupported request, 2 successful with the poison mark, and data -/
  | answer (tag status : Nat) (value : Nat)
  /-- a flit on an Unnar port: 256 bytes, byte 0 lowest (R224), and the PAM4 levels that its lanes carry (R218) -/
  | flit (port : Nat) (bytes : BitVec 2048) (levels : BitVec 2048)
  /-- a response on a mailbox, SPDM or PLDM channel -/
  | message (channel : Nat) (bytes : List Byte)
  /-- an output pin changes: 0 ALERT_N, 1 THERMTRIP_N, 2 YOKE_HB_OUT -/
  | pin (pin : Nat) (high : Bool)
  deriving DecidableEq, Repr

/-! ### Beats, pacing regions and station time -/

/-- One cause of a hold that arose in a region (R25). -/
structure HoldCause where
  code : Nat
  job : Option Nat
  /-- what the cause is about: a stall index 48 × barn + stall, a neighbour, a loft block -/
  what : Nat
  eng : Nat
  /-- held periods still to run, for the causes that last a stated number of periods; 0 for the others -/
  left : Nat
  /-- pacer period of the region, and its local time in units of 2^-32 ns, at which it arose (R31, R41) -/
  per : Nat
  since : Nat
  deriving DecidableEq, Repr

/-- A pacing region (R18-R31, R41). Its beat count, slips, skew waits, steps and hold status are the registers
PCR_BEAT, PCR_SLIP, PCR_SKEW_WAIT, PCR_STEP_STATE and PCR_HOLD. -/
structure Region where
  /-- progress of the pacer period in progress -/
  phase : Nat := 0
  /-- pacer periods begun -/
  periods : Nat := 0
  /-- requested target step after the clamp of R22 -/
  want : Nat := 4
  /-- the step to which the thermal guard has lowered the region's target in force in an episode in progress (R33) -/
  cap : Option Nat := none
  /-- causes of the region's own hold, in the order in which they arose -/
  causes : List HoldCause := []
  /-- the first cause of the region's own hold in progress (R31) -/
  first : Option HoldCause := none
  /-- origin regions whose hold has spread to this region (R26) -/
  origins : List Nat := []
  /-- the region is in a hold of its own: set by the first cause, ended by the release (R25) -/
  heldOwn : Bool := false
  skew : Bool := false
  /-- the local counter waits for station time (R41) -/
  locHold : Bool := false
  /-- local time in units of 2^-32 ns (R41) -/
  loc : Nat := 0
  /-- the calibrated pacer period in units of 2^-32 ns; the pacer's progress, in the unit of `phase`, since the time-clock
  edge of the last calibration (R41) -/
  cal : Nat := 4772185884
  prog : Nat := 0
  calEdge : Nat := 0
  deriving DecidableEq, Repr

/-- Station time and its sources (R35-R40, R44). -/
structure TimeSt where
  /-- station time in units of 2^-32 ns -/
  now : Nat := 0
  /-- edges of the time clock of 800 MHz, which no jump of station time changes (R35, R216) -/
  edges : Nat := 0
  /-- rate of the selected source before phase steering, in units of 2^-32 -/
  slew : Int := 0
  refLost : Bool := false
  /-- station time of the pulse before, for the two-pulse test of R39 and R40 -/
  lastPulse : Option Nat := none
  lastAccepted : Nat := 0
  rejects : Nat := 0
  /-- phase error still to be removed by slewing, in units of 2^-32 ns -/
  phaseErr : Int := 0
  /-- the upper half of the register that a 4-byte read latched, per source and block (R444) -/
  latch : Tab (Option (Nat × Nat)) := []
  /-- time of the last REG_UNMAPPED of each source, in ns (R445) -/
  lastUnmapped : Tab (Option Nat) := []
  throttleSince : Nat := 0
  stuckSaid : Bool := false
  /-- the difference of a refused jump is being removed (R36) -/
  forced : Bool := false
  /-- the hub's request of an APPLY that waits for the reference (R38) -/
  hubReq : Option Nat := none
  /-- the jump of the first lock to PPS_IN has had its chance (R36) -/
  everLocked : Bool := false
  deriving DecidableEq, Repr

/-! ### Errors -/

/-- An error record (R409). -/
structure ErrRec where
  code : Nat
  sev : Nat
  during : Bool
  escalated : Bool
  job : Option Nat
  blk : Nat
  inst : Nat
  fjob : Nat
  beat : Nat
  time : Nat
  detail : Nat
  deriving DecidableEq, Repr

/-- A recovery in progress (R417, R418). -/
structure Recovery where
  cls : Nat
  blk : Nat
  inst : Nat
  /-- what is being recovered: a line, a word, a block -/
  tag : Nat
  /-- station time in ns at which it ends, where a time ends it -/
  ends : Option Nat
  deriving DecidableEq, Repr

/-- An entry of the collector (R414, R415). -/
structure HeldRec where
  index : Nat
  entry : ErrRec
  logged : Bool
  deriving DecidableEq, Repr

/-- The collector and what escalation needs (R414-R418). -/
structure ErrSt where
  /-- records on their way to the collector, oldest first -/
  flight : List ErrRec := []
  held : List HeldRec := []
  /-- drops since the last TCK_LOG_DROPPED: corrected and absorbed, contained and device-fatal -/
  dropLow : Nat := 0
  dropSevere : Nat := 0
  recov : List Recovery := []
  fatal : Bool := false
  deriving DecidableEq, Repr

/-! ### Stalls: control core, queues, scratchpad, engines -/

/-- STL_CORE[STATE] (R75). -/
inductive CoreSt where
  | idle | run | queueFull | waitc | stepWait | halted
  deriving DecidableEq, Repr

def CoreSt.code : CoreSt → Nat
  | .idle => 0 | .run => 1 | .queueFull => 2 | .waitc => 3 | .stepWait => 4 | .halted => 5

/-- An active hardware loop (R54): its first and last instruction index, its count and iteration, and the number of
routine calls that were active when it began. -/
structure LoopEnt where
  first : Nat
  last : Nat
  count : Nat
  iter : Nat
  depth : Nat
  deriving DecidableEq, Repr

/-- A queued engine command with its absolute issue beat, in job beats (R64, R65). -/
structure QCmd where
  w : Cmd
  issue : Nat
  null : Bool
  /-- STL_ISSUE_LATE has been raised for it (R67) -/
  late : Bool
  deriving DecidableEq, Repr

/-- A due beat (R66). -/
inductive Due where
  | none | at (beat : Nat) | nextStep
  deriving DecidableEq, Repr

/-- A command in flight: issued in device beat `iss`, complete in `done` (both of the barn's region), when it applies
its signal unless SIG_ISSUE applied it (R69). -/
structure Flight where
  eng : Nat
  chan : Nat
  iss : Nat
  done : Nat
  sel : Nat
  inc : Nat
  /-- far-end signal of a DMA command: counter key and increment (R90) -/
  far : Option (Nat × Nat)
  /-- banks of which an LFT.PWR waits until they are OFF (R182) -/
  waits : List Nat
  w : Cmd
  ord : Nat
  /-- complete, or discarded by a halt: it leaves at the end of the beat -/
  gone : Bool := false
  deriving DecidableEq, Repr

/-- One scratchpad line with its tag (R77, R81). -/
structure LineVal where
  data : Line
  epoch : Nat
  poison : Bool
  deriving DecidableEq, Repr

def LineVal.zero : LineVal := ⟨0, 0, false⟩

/-- A use of a bank (R77, R158): beat, bank, rank of the port, and a number that orders uses of one rank. -/
structure BankUse where
  beat : Nat
  bank : Nat
  rank : Nat
  ord : Nat
  deriving DecidableEq, Repr

/-- One lane of a vector register (R122, R141). -/
structure Lane where
  v : Word32
  poison : Bool
  deriving DecidableEq, Repr

def Lane.zero : Lane := ⟨0, false⟩

/-- One mask register (R122). -/
structure MaskVal where
  v : Word
  /-- one poison bit for each bit -/
  poison : Word
  deriving DecidableEq, Repr

/-- One byte with its poison mark, as the stationary buffers hold it (R112). -/
structure PByte where
  v : Byte
  poison : Bool
  deriving DecidableEq, Repr

def PByte.zero : PByte := ⟨0, false⟩

/-- A stationary buffer: 2,048 data bytes and 32 scale bytes, each with its poison mark (R97, R103, R109). -/
structure StatBuf where
  data : BitVec 16384
  pois : BitVec 2048
  scale : BitVec 256
  spois : BitVec 32
  deriving DecidableEq, Repr

def StatBuf.zero : StatBuf := ⟨0, 0, 0, 0⟩

/-- One accumulator row: 32 entries of 32 bits and a poison mark (R110, R112). -/
structure AccRow where
  v : BitVec 1024
  poison : Bool
  deriving DecidableEq, Repr

def AccRow.zero : AccRow := ⟨0, false⟩

/-- A slot-table entry (R195). -/
structure Slot where
  base : Nat
  ring : Nat
  ptr : Nat
  sigsel : Nat
  siginc : Nat
  valid : Bool
  deriving DecidableEq, Repr

def Slot.zero : Slot := ⟨0, 0, 0, 0, 0, false⟩

/-- An unscheduled access that waits for its bank (R80): line, what it writes (a read when absent) and which bytes, and its
job. -/
structure UnsWait where
  line : Nat
  wr : Option LineVal
  mask : Nat
  job : Nat
  /-- the packet that it belongs to, and which of its lines it is -/
  pkt : Nat
  idx : Nat
  deriving DecidableEq, Repr

/-! ### Work that engine commands do beat by beat -/

/-- What a gathered read of R85 is for: a unit of DMA.RDS, a register of VLDS, the tile or the scales of ARR.LOAD. -/
inductive GrpKind where
  | rds (unit : Nat) | vlds (k : Nat) | tile | scales
  deriving DecidableEq, Repr

/-- A line on its way, with the flit that carries it over scheduled channels (0: none), and the loft block that it was read
from, as 32768 × (256 × loft + bank) + block, with its place in the block, when a repair of that block may still be going on
(R166). -/
structure Moving where
  line : Nat
  val : LineVal
  flit : Nat
  src : Option (Nat × Nat)
  deriving DecidableEq, Repr

/-- One piece of the work of an engine command. -/
inductive Micro where
  /-- DMA.WR or local copy: read the lines of data beat `k`; `got` holds the lines of the block being gathered -/
  | dmaRead (k : Nat) (got : List Moving)
  /-- DMA.RD: the requests of data beat `k` leave for another stall; the lines are read there -/
  | dmaReq (k : Nat)
  | dmaFar (k : Nat) (flits : List Nat)
  /-- DMA.RD with a denied far range: the lines of data beat `k` land as poisoned zero -/
  | dmaZero (k : Nat)
  /-- the request for block `m` leaves for another barn's loft; block `m` is read in the loft -/
  | loftReq (m : Nat)
  | loftRd (m flit : Nat)
  /-- DMA.LCOPY: lines of a block leave in data beat `k`: those still to leave, those gone -/
  | lcOut (k : Nat) (vals got : List Moving)
  /-- a write of block `m` enters the destination barn (R163) -/
  | loftEnter (m : Nat)
  /-- write block `m` into the loft -/
  | loftWr (m : Nat) (vals : List Moving)
  | dmaFill (k : Nat)
  /-- a read request to another device reaches the edge block (R91) -/
  | farReq (flit : Nat)
  /-- lines from `k` on reach the edge block on their way to another device -/
  | edge (k : Nat) (vals : List Moving)
  /-- beat `q` of a gathered read -/
  | grp (g : GrpKind) (q : Nat) (got : List (Nat × LineVal)) (mask : Nat) (maskPoison : Nat)
  /-- write lines of the scratchpad of stall `st` -/
  | land (st : Nat) (vals : List Moving)
  /-- MMA: the lines of step `t`, a block of the loft, and the rows complete in one beat from feature `j` on -/
  | mmaRead (t : Nat)
  | mmaBlk (off : Nat)
  /-- data of a loft block reaches the gang -/
  | mmaNeed (off : Nat)
  /-- the bytes of step `t` cross the bond port -/
  | mmaStream (t : Nat)
  | mmaRow (j : Nat)
  | drain (k : Nat)
  /-- vector repetition `k` -/
  | vec (k : Nat) (prev : Bool)
  /-- CVT.P: write part `q`: elements, which lanes participate, which are poisoned, and for an MX format the two scale
  bytes with what becomes of their lane's poison bit (0 kept, 1 set, 2 cleared) -/
  | cvtPut (q : Nat) (els : List Nat) (part pois : Nat) (scale : Option (Nat × Nat))
  /-- source registers of TRED and TSCAN read so far -/
  | vtile (j : Nat) (got : List (List Lane))
  | vld (k : Nat)
  /-- VST: read the register; then write the lines: the lanes read, which participate, which the mask poisons -/
  | vst (k : Nat)
  | vstPut (k : Nat) (lanes : List Lane) (part : Nat) (pois : Nat)
  /-- lanes of a register that are written in this beat -/
  | regPut (reg : Nat) (xs : List (Option Lane))
  /-- a repetition completes -/
  | repDone
  /-- FCMP, ICMP, MLOGIC: bits of a mask enter it -/
  | maskPut (m part v pois : Nat)
  | lvec (j q : Nat) (got : List PByte)
  /-- LFT.MV in bank cycle `c` of the loft -/
  | mv (c : Nat)
  /-- the engine cycles of a bank cycle, once its rows and scales are there -/
  | mvDo (c : Nat)
  | emit (e q : Nat)
  | netRead (k : Nat)
  | slotLand (st : Nat) (m : Moving) (last : Bool)
  | slotSet
  | sigSet (barn flit : Nat)
  deriving DecidableEq, Repr

/-- A piece of work, the region and device beat in which it is done, its rank among the work of that beat, and the
command it belongs to: stall index, job, channel, issue beat, and its place in the order of issue (R78, R158, R194). -/
structure Act where
  reg : Nat
  beat : Nat
  rank : Nat
  ord : Nat
  job : Nat
  stall : Nat
  chan : Nat
  iss : Nat
  w : Cmd
  ecc : List EccHit
  /-- nominal relative beats of loft accesses that moved past a refresh slot (R159) -/
  moves : List Nat
  m : Micro
  deriving DecidableEq, Repr

/-- An MMA pass in progress: its number in the order of issue, the stationary tiles as it found them, and what it has
read of its records and scales, by line number (scratchpad) or by line of the loft (R105, R106). -/
structure Pass where
  ord : Nat
  /-- data and scales of each array of the gang, in the order of the shape table; a byte of them is poisoned -/
  tile : List (BitVec 16384)
  scale : List (BitVec 256)
  bad : Bool
  got : Tab LineVal
  /-- blocks of the loft whose repair goes on (R166) -/
  waits : List Nat
  deriving DecidableEq, Repr

/-! ### Lofts -/

/-- A block of a loft (R153, R162). -/
structure BlockVal where
  data : BitVec 2048
  poison : Bool
  deriving DecidableEq, Repr

def BlockVal.zero : BlockVal := ⟨0, false⟩

/-- A bank (R155, R162, R163, R171). -/
structure BankSt where
  /-- 0 ON, 1 CLOSING, 2 OFF, 3 WAKING -/
  st : Nat := 0
  row : Nat := 0
  writes : Nat := 0
  /-- local time in ns of the last refresh -/
  lastRef : Nat := 0
  spares : Nat := 64
  /-- device beat in which a wake ends -/
  wake : Nat := 0
  /-- the bank has been OFF: blocks not written since read as poisoned zero -/
  woken : Bool := false
  exhausted : Bool := false
  /-- bank cycle + 1 of the last refresh of R155, and the pacer period in which a timer refresh ends (R156) -/
  lastCyc : Nat := 0
  refEnd : Nat := 0
  deriving DecidableEq, Repr

/-- A loft engine: the row and scale block it holds, and its accumulator (R174). -/
structure EngSt where
  row : BlockVal := BlockVal.zero
  scale : BlockVal := BlockVal.zero
  /-- blocks among them whose repair goes on (R166) -/
  rowSrc : Option Nat := none
  scaleSrc : Option Nat := none
  /-- the scale block read for the next rows -/
  next : Option (BlockVal × Option Nat) := none
  acc : Tab Lane := []
  deriving DecidableEq, Repr

/-- A ring position of a vector buffer: 8 vectors of 64 bytes, and which of them are poisoned (R173, R175). -/
structure VGroup where
  data : BitVec 4096
  pois : Nat
  deriving DecidableEq, Repr

def VGroup.zero : VGroup := ⟨0, 0⟩

/-- Where the repair of a failed block stands (R166-R170). -/
inductive FixStage where
  | reread | wantSlot | partner | host
  deriving DecidableEq, Repr

/-- A failed block (R166-R170): its number 32768 × bank + block, its stage, the job and job beat of the read, and its slot. -/
structure FailBlk where
  blk : Nat
  stage : FixStage
  job : Option Nat
  beat : Nat
  slot : Option Nat
  /-- bytes of the block that have been written since it failed, one bit each: no repair replaces them -/
  mask : Nat := 0
  deriving DecidableEq, Repr

/-- An unscheduled loft access that waits for its bank (R161): block, first byte in it, bytes to write (none: a read), the
job and the packet that it belongs to, and which of the packet's lines it is. -/
structure LoftWait where
  blk : Nat
  off : Nat
  wr : Option (List Byte)
  poison : Bool
  job : Nat
  pkt : Nat
  idx : Nat
  deriving DecidableEq, Repr

/-- A loft. Blocks are numbered 32768 × bank + block, banks 16 × layer + bank. -/
structure Loft where
  blocks : Tab BlockVal := []
  banks : Tab BankSt := []
  eng : Tab EngSt := []
  /-- vector buffers: ring position 8 × engine + p (R173) -/
  vbuf : Timed VGroup := {}
  /-- granule classes (0 OTHER, 1 WEIGHT, 2 KV) and job beat of each granule's latest write (R167) -/
  cls : Tab Nat := []
  wrote : Tab Nat := []
  /-- F while no job runs: `fVal` at device beat `fMark`, and on from there (R154) -/
  fVal : Nat := 0
  fMark : Nat := 0
  uses : List BankUse := []
  /-- refused accesses of a bank cycle: beat, offset, job (R158) -/
  clash : List (Nat × Nat × Nat) := []
  /-- beats in which a conflict has been raised -/
  conflicts : List Nat := []
  /-- writes that have entered the barn: command and block (R163) -/
  entered : List (Nat × Nat) := []
  /-- bytes over the barn's bond, by beat (R9) -/
  bond : Tab Nat := []
  /-- bytes of unscheduled accesses over it in a pacer period: the period, the bytes -/
  bondUns : Nat × Nat := (0, 0)
  failed : List FailBlk := []
  waits : List LoftWait := []
  /-- blocks under write-back, with what is next to do in a bank cycle: 0 the write of a corrected block; 1 the write of a
  repaired one, 2 its verifying read; 3 to 8 the reads and writes that copy the other three blocks of its row (R165, R171) -/
  fixes : List (Nat × Nat) := []
  deriving DecidableEq, Repr

/-! ### Mesh -/

/-- A flit as it crosses a link: its 128-bit header and its payload (R189, R201). -/
structure Flit where
  hdr : BitVec 128
  data : Line
  deriving DecidableEq, Repr

/-- A flit's use of a scheduled channel in a beat; what is not carried is lost for all of `dests` (R194). -/
structure ChanUse where
  chan : Nat
  beat : Nat
  key : Nat
  flit : Nat
  dests : List Nat
  job : Nat
  body : Flit
  deriving DecidableEq, Repr

/-- A packet at an output: its units so far, how many it has, completed with zeros and ABORT, in transit (R228, R243). -/
structure TPkt where
  id : Nat
  units : List (BitVec 256)
  need : Nat
  aborted : Bool
  transit : Bool
  deriving DecidableEq, Repr

/-- An unscheduled packet (R196-R199, R212). -/
structure UPkt where
  id : Nat := 0
  src : Nat
  dst : Nat
  /-- the point where it waits to enter, the router in whose input its flits are, or its ejection point -/
  pos : Nat := 0
  job : Nat
  /-- 0 write, 1 read request, 2 read response, 4 a fabric packet in transit between two edges (R245) -/
  form : Nat
  addr : Nat
  data : List LineVal
  /-- the lines that a read request asks for -/
  lines : Nat := 0
  sel : Nat
  inc : Nat
  fence : Bool
  tag : Nat
  /-- released by its source (R197) -/
  sent : Bool := false
  /-- the port that it leaves the device by -/
  port : Nat := 0
  /-- the buffer that holds its flits: 0 at its source, 1 + channel in a router, 20,000 + point at its ejection point -/
  via : Nat := 0
  /-- the buffer that its flits are moving to, and how many of them have (R189, R196) -/
  out : Nat := 0
  crossed : Nat := 0
  /-- lines that have entered a barn with a loft bank ON, one bit each (R163) -/
  entered : Nat := 0
  /-- handed to its memory, with this many lines still to be performed (R80, R198) -/
  left : Option Nat := none
  /-- in transit: the virtual channel, and the packet -/
  vc : Nat := 0
  far : Option TPkt := none
  deriving DecidableEq, Repr

/-- A register access that a control packet carries: source, function, BAR0 offset, length, tag, and for a write its value and
what the check of a firmware image would find (R213, R441). -/
structure RegReq where
  src : Source
  fn : Nat
  addr : Nat
  len : Nat
  tag : Nat
  wr : Option (Word × Bool)
  deriving DecidableEq, Repr

/-- A control packet (R213): its 16 bytes, where it is (a point at its source and at its end, else a router), the router input
that holds it as 1 + channel, and whether it has arrived. -/
structure CPkt where
  id : Nat
  word : BitVec 128
  pos : Nat
  via : Nat := 0
  here : Bool := false
  req : Option RegReq := none
  deriving DecidableEq, Repr

/-- What a retention buffer keeps of an item sent on a channel in a pacer period: kind (0 scheduled flit, 1 unscheduled flit,
2 control packet), its number, the destinations it serves, and its bits (R201). -/
structure KeptItem where
  chan : Nat
  period : Nat
  kind : Nat
  id : Nat
  dests : List Nat
  body : Flit
  deriving DecidableEq, Repr

/-- The mesh. -/
structure MeshSt where
  uses : List ChanUse := []
  /-- flits lost for a destination -/
  dropped : List (Nat × Nat) := []
  nextFlit : Nat := 1
  uns : List UPkt := []
  /-- outstanding packets of a source for a destination: 64 × source + destination (R197) -/
  outst : Tab Nat := []
  /-- packets performed whose WR_DONE is on its way: 64 × source + destination, and the job (R197, R282) -/
  unack : List (Nat × Nat) := []
  /-- buffer space for responses that requests of a point have reserved, in flits (R196) -/
  rsv : Tab Nat := []
  /-- unscheduled flits that a channel has carried in a pacer period: the period, the flits (R189) -/
  slots : Tab (Nat × Nat) := []
  /-- control packets on their way -/
  ctrl : List CPkt := []
  nextPkt : Nat := 1
  /-- the retention buffers of the outputs -/
  kept : List KeptItem := []
  deriving DecidableEq, Repr

/-- A stall. Tables that list nothing hold zeros (R62, R94). -/
structure Stall where
  x : Tab Word := []
  imem : Tab Word32 := []
  pc : Nat := 0
  rtn : Bool := false
  st : CoreSt := .idle
  loops : List LoopEnt := []
  rets : List (Nat × Bool) := []
  base : Nat := 0
  window : Tab Word := []
  shape : Nat := 0
  stepSeq : Nat := 0
  nextWindow : Tab Word := []
  nextGot : Nat := 0
  nextBase : Option Nat := none
  nextShape : Nat := 0
  pendLd : List (Nat × Nat) := []
  waitc : Option (Nat × Nat) := none
  /-- the value of the gate counter that the hub has sent last for a wait (R74) -/
  waitSent : Option Nat := none
  pushWait : Option (Nat × Nat) := none
  queues : Tab (List QCmd) := []
  due : Tab Due := []
  /-- device beat + 1 of the engine's last issue: at most one command in each beat (R67) -/
  lastIss : Tab Nat := []
  flights : List Flight := []
  spad : Timed LineVal := {}
  uses : List BankUse := []
  /-- conflicts of the beat: beat, bank, rank performed, rank refused, line (R79) -/
  clash : List (Nat × Nat × Nat × Nat × Nat) := []
  /-- beats in which a bank conflict has been raised (R79) -/
  conflicts : List Nat := []
  /-- bytes over the stall bond port: beat, down, up (R176) -/
  bond : Nat × Nat × Nat := (0, 0, 0)
  passes : List Pass := []
  /-- device beat from which the vector engine accepts its next command (R126) -/
  vecFree : Nat := 0
  uns : List UnsWait := []
  /-- corrected lines whose write-back is still to come (R84) -/
  fixes : List Nat := []
  vreg : Timed Lane := {}
  mreg : Timed MaskVal := {}
  /-- stationary buffers, by 2 × array + buffer (R97, R103) -/
  stat : Tab StatBuf := []
  /-- accumulators: row (1024 × array + row) -/
  acc : Timed AccRow := {}
  slots : Tab Slot := []
  deriving DecidableEq, Repr

/-- A counter: a sync object or a gate counter (R68). `val` is its value as it is read; `prev` its value at the end of the
region's last pacer period, from which its settling in this one starts with the consuming waits, writes and increments of
the period (R70); `over` says that the settling of this period has overflowed (R71). -/
structure Counter where
  val : Nat
  consumes : List Nat
  writes : List Nat
  incs : List Nat
  prev : Nat := 0
  over_ : Bool := false
  deriving DecidableEq, Repr

def Counter.zero : Counter := ⟨0, [], [], [], 0, false⟩

/-! ### Jobs -/

/-- Where a job context stands. -/
inductive JobPhase where
  | free | loading | ready | running | suspended | halted | teardown
  deriving DecidableEq, Repr

/-! ### Links (R216-R246) -/

/-- A packet in a receive buffer: its units so far, the outputs that have begun it, whether its route is settled,
whether a copy is for this device, and the seal-engine slices spent on it (R228, R244, R262). -/
structure RPkt where
  id : Nat
  units : List (BitVec 256)
  need : Nat
  aborted : Bool
  outs : List Nat
  routed : Bool
  here : Bool
  slices : Nat
  /-- outputs on other edges to which the mesh carries it (R245) -/
  far : List Nat := []
  /-- the count at which its last unit arrived: packets of all ports in the order of their arrival (R262) -/
  whole : Nat := 0
  deriving DecidableEq, Repr

/-- One virtual channel of a port: packets to send, units of the first already placed in flits, packets received. -/
structure LinkVc where
  tx : List TPkt := []
  sent : Nat := 0
  rx : List RPkt := []
  deriving DecidableEq, Repr

/-- An entry of the replay buffer (R232). -/
structure FlitEnt where
  seq : Nat
  vc : Nat
  start : Nat
  units : Nat
  abort : Bool
  payload : BitVec 1792
  deriving DecidableEq, Repr

/-- The time exchange that a port has started (R239): its ID, when its TIME_REQ was sent (ns), t1 and t4 in 1/256 ns. -/
structure TimeEx where
  id : Nat
  at_ : Option Nat
  t1 : Option Nat
  t4 : Option Nat
  deriving DecidableEq, Repr

/-- A port (R217-R243). Its state, rate, width and agreement are the registers LNK_PORT_STATE and LNK_PARTNER. -/
structure Link where
  /-- reference ns (R216) at which the state was entered, at which the port went down, and of the last good flit -/
  since : Nat := 0
  downAt : Nat := 0
  goodAt : Nat := 0
  /-- LNK_PORT_CTRL, LNK_REPLAY_CFG and FAB_ID as taken at the last entry to DETECT or RETRAIN (R246, R248) -/
  ctrl : Nat := 0x20
  cfg : Nat := 0x03E8000400000190
  fid : Nat := 0
  trial : Nat := 2
  /-- RETRAIN: 0 ALIGN, 1 EQUALISE, 2 CAP exchange -/
  sub : Nat := 0
  /-- lanes that a retrain may take into its working set (R219) -/
  lim : Nat := 255
  /-- scrambler state of each lane, sending and receiving (R218) -/
  txScr : Tab Nat := []
  rxScr : Tab Nat := []
  /-- the partner's last CAP payload, bytes 0-31, in the training in progress -/
  cap : Option (BitVec 256) := none
  agreedSent : Bool := false
  agreedGot : Bool := false
  planeOther : Nat := 0
  seq : Nat := 0
  exp : Nat := 0
  ack : Nat := 0xFFF
  /-- ns at which NAK pending was entered or renewed -/
  nak : Option Nat := none
  nakid : Nat := 0
  lastNak : Nat := 0
  lastNakAck : Option Nat := none
  held : List FlitEnt := []
  /-- place in `held` of the next entry of a replay -/
  replay : Option Nat := none
  timer : Nat := 0
  consec : Nat := 0
  /-- replays since the port's last LNK_REPLAY -/
  replays : Nat := 0
  /-- credit counters, by 2 × VC + kind -/
  adv : Tab Nat := []
  cons : Tab Nat := []
  ret : Tab Nat := []
  freed : Tab Nat := []
  crNext : Nat := 0
  bypGap : Nat := 7
  reqGap : Nat := 0
  byq : List (BitVec 128) := []
  /-- messages received, each with its time of arrival in 1/256 ns -/
  store : List (BitVec 128 × Nat) := []
  /-- a lane failure made the port retrain: LNK_WIDTH_DEGRADED is due where it resumes at width 4 (R219) -/
  laneLost : Bool := false
  ex : Option TimeEx := none
  exNext : Nat := 0
  exAt : Nat := 0
  /-- TIME_RSP to send: ID and t2; then TIME_FOLLOW to send: ID, t2, t3 -/
  rsp : Option (Nat × Nat) := none
  follow : Option (Nat × Nat × Nat) := none
  fecSyms : Nat := 0
  fecAt : Nat := 0
  vcs : Tab LinkVc := []
  deriving DecidableEq, Repr

/-! ### Fabric (R248-R268) -/

/-- A fabric packet: header unit and data lines (R249). -/
structure FabPkt where
  hdr : BitVec 256
  lines : List Line
  deriving DecidableEq, Repr

/-- A packet of the retention store: its number in the stream, wraps counted, the plan and edge of its last
transmission, and the devices that have acknowledged it (R258). -/
structure KeptPkt where
  n : Nat
  pkt : FabPkt
  plan : Nat
  edge : Nat
  acks : List Nat
  /-- reference ns of its last transmission -/
  at_ : Nat
  /-- its lines in clear while it is held back, for this device's copy of a group's packet -/
  clear : List Line := []
  deriving DecidableEq, Repr

structure OutStream where
  next : Nat := 0
  kept : List KeptPkt := []
  /-- a planned switch holds new packets until ACKs cover every retained one, and the packets held (R268) -/
  hold : Bool := false
  wait : List KeptPkt := []
  deriving DecidableEq, Repr

structure InStream where
  next : Nat := 0
  /-- acceptances since the last ACK, and ns of the first of them -/
  count : Nat := 0
  since : Option Nat := none
  deriving DecidableEq, Repr

/-- A packet that waits for a seal engine on its way out (R262): job, stream key, its number, slices still to run; the plan that it
leaves under where a rule names one (R266, R267). -/
structure SealItem where
  job : Nat
  key : Nat
  n : Nat
  slices : Nat
  edge : Nat
  vc : Nat
  pkt : FabPkt
  plan : Option Nat := none
  deriving DecidableEq, Repr

/-- A remote read in progress: RTAG, job, stall, device beat of its issue, command, answer packets still to come. -/
structure FarRead where
  rtag : Nat
  job : Nat
  stall : Nat
  ord : Nat
  left : Nat
  deriving DecidableEq, Repr

/-- A remote read that this device serves (R91, R250): the lines, where they go, and how they are read. -/
structure FarServe where
  id : Nat
  job : Nat
  dst : Nat
  src : Nat
  ret : Nat
  lines : Nat
  ew : Nat
  er : Nat
  chk : Bool
  fence : Bool
  rsig : Nat
  rinc : Nat
  rtag : Nat
  /-- the port the request came by; lines read so far; answer packets sent; an address was denied (R15) -/
  port : Nat
  got : Tab LineVal := []
  sent : Nat := 0
  denied : Bool := false
  deriving DecidableEq, Repr

structure FabSt where
  /-- route entries by 4096 × plan + device, multicast entries by 1024 × plan + group, peer sets by 64 × job + word -/
  routes : Tab Nat := []
  mcast : Tab Nat := []
  peers : Tab Nat := []
  /-- streams by 16384 × job + (device, 4096 + group, or 8192 for the yoke) -/
  outs : Tab OutStream := []
  ins : Tab InStream := []
  sealq : List SealItem := []
  turn : Nat := 0
  /-- PLAN_SWITCH received and waiting for its beat: job, plan, beat -/
  pend : List (Nat × Nat × Nat) := []
  /-- jobs whose head has sent a switch to plan B (R267) -/
  switching : List Nat := []
  reads : List FarRead := []
  serve : List FarServe := []
  rtag : Nat := 0
  nextId : Nat := 1
  deriving DecidableEq, Repr

/-! ### Serving controller (R301-R331) -/

/-- A sequence entry (R314), with the KV map row and what the head keeps beside it. -/
structure SeqEnt where
  tag : Nat := 0
  seqId : Nat := 0
  /-- 0 FREE, 1 QUEUED, 2 PREFILL, 3 DECODE, 4 DONE -/
  st : Nat := 0
  cust : Nat := 0
  plen : Nat := 0
  pos : Nat := 0
  gen : Nat := 0
  maxNew : Nat := 0
  row : List Nat := []
  adapter : Nat := 0
  routine : Nat := 0
  endc : Nat := 0
  status : Nat := 0
  t : Nat := 0
  kp : Nat := 0
  stop : List Nat := []
  prompt : Nat := 0
  cached : Nat := 0
  owner : Nat := 0
  admNo : Nat := 0
  resAddr : Nat := 0
  chain : Nat := 0
  last : Nat := 0
  inFlight : Bool := false
  cancel : Bool := false
  embed : Bool := false
  forkWait : Bool := false
  pinned : Bool := false
  ratio : Bool := false
  drafts : Option (Nat × List Nat × List Nat) := none
  /-- prompt tokens read so far, prompt blocks entered, consecutive failed prompt reads -/
  toks : List Nat := []
  hashed : Nat := 0
  fails : Nat := 0
  outIdx : Nat := 0xFFFFFFFF
  resLen : Nat := 0
  /-- bytes of the result of an EMBED sequence that has ended -/
  result : List Byte := []
  dataLost : Bool := false
  deriving DecidableEq, Repr

/-- A customer (R326). -/
structure Cust where
  burst : Nat := 0
  rate : Nat := 0
  wp : Nat := 0
  wd : Nat := 0
  tenant : Nat := 0
  valid : Bool := false
  level : Int := 0
  defi : Nat := 0
  rem : Nat := 0
  charged : Nat := 0
  deriving DecidableEq, Repr

/-- An adapter slot of the head (R329): 0 FREE, 1 LOADING, 2 ACTIVE, 3 RETIRING. -/
structure AdSlot where
  id : Nat := 0
  ver : Nat := 0
  st : Nat := 0
  pins : Nat := 0
  tag : Nat := 0
  since : Nat := 0
  deriving DecidableEq, Repr

/-- An item of a step: slot 0-63 or segment 64-71, entry, kind, position, tokens, drafts' probabilities (R309). -/
structure Item where
  slot : Nat
  ent : Nat
  kind : Nat
  pos : Nat
  toks : List Nat
  probs : List Nat
  lastChunk : Bool
  deriving DecidableEq, Repr

/-- A step in flight at the head. -/
structure StepRec where
  step : Nat
  shape : Nat
  base : Nat
  items : List Item
  deriving DecidableEq, Repr

/-- An output-ring entry (R330). -/
structure OutEnt where
  idx : Nat
  tok : Nat
  seqId : Nat
  pos : Nat
  flags : Nat
  deriving DecidableEq, Repr

/-- A completion record (R316), with the host address and the bytes of a result that the host is given before it (R315). -/
structure CplRec where
  idx : Nat
  tag : Nat
  seqId : Nat
  status : Nat
  endc : Nat
  kind : Nat
  gen : Nat
  cached : Nat
  outIdx : Nat
  resLen : Nat
  result : Option (Nat × List Byte)
  deriving DecidableEq, Repr

/-- A prefix entry (R323). -/
structure PfxEnt where
  chain : Nat
  block : Nat
  job : Nat
  lastUse : Nat
  deriving DecidableEq, Repr

/-- A command of the job ring, as latched (R370). -/
structure RingCmd where
  op : Nat
  tag : Nat
  body : List Byte
  deriving DecidableEq, Repr

/-- The serving state of a job: the head's tables, and the relay's part. -/
structure SrvJob where
  ents : Tab SeqEnt := []
  custs : Tab Cust := []
  /-- tenant keys, by 4 × tenant + word -/
  tkeys : Tab Nat := []
  slots : Tab AdSlot := []
  /-- blocks by index: state (0 FREE, 1 USED, 2 CACHED) and reference count -/
  blocks : Tab (Nat × Nat) := []
  out : List OutEnt := []
  outNext : Nat := 0
  outSent : Nat := 0
  cpl : List CplRec := []
  cplNext : Nat := 0
  cplSent : Nat := 0
  admNo : Nat := 0
  rr : Nat := 0
  refill : Nat := 0
  /-- next step to compose and its base beat -/
  next : Nat := 0
  base : Nat := 0
  flight : List StepRec := []
  /-- records to copy in this step's descriptor, and lines of the map that changed -/
  copies : List (Nat × Nat × Nat) := []
  dirty : List Nat := []
  /-- cancel answers still to be given: the tag, its entries that have not been released, all so far COMPLETED -/
  cancels : List (Nat × List Nat × Bool) := []
  /-- journal items of the composition in progress: those to apply, those recorded, and a breach (R347) -/
  jin : List (Nat × List Byte) := []
  jout : List (Nat × List Byte) := []
  jbad : Bool := false
  /-- a prompt read has failed in the composition in progress, for these entries -/
  skip : List Nat := []
  pause : Option (Nat × Nat) := none
  reason : Nat := 0
  /-- shape of the last step composed -/
  lastShape : Option Nat := none
  /-- the head has sent HALT: no further command is latched -/
  dead : Bool := false
  resumed : Bool := false
  /-- relay: next step to deliver, its base beat, a suspension received -/
  deliver : Nat := 0
  dbase : Nat := 0
  susp : Option (Nat × Nat) := none
  /-- relay: base beat of each of the last steps delivered, and of the next (R303) -/
  bases : Tab Nat := []
  deriving DecidableEq, Repr

/-! ### Yokes (R334-R352) -/

/-- A job's part of the yoke unit. -/
structure YokJob where
  /-- own digests by step, once read; the partner's by 64 × step + point -/
  own : Tab (Option (List Nat)) := []
  got : Tab (Option Nat) := []
  /-- the next step whose digests are to be read, and the next to confirm -/
  read : Nat := 0
  conf : Nat := 0
  mismatch : Option Nat := none
  /-- journal entries that have arrived at the secondary head, oldest first: step and items -/
  journal : List (Nat × List (Nat × List Byte)) := []
  /-- what the primary head has written for its journal so far: offset -/
  joff : Nat := 0
  consO : Nat := 0
  consC : Nat := 0
  /-- the job has become SOLO on a secondary head, which is still to take over; the takeover has been raised (R348) -/
  takeover : Bool := false
  takeSaid : Bool := false
  /-- re-yoke: job beat of each granule's copy by 32768 × loft + granule, passes done, granules of the pass still to copy -/
  copied : Tab Nat := []
  todo : List Nat := []
  /-- packets of the first of them already sent -/
  part : Nat := 0
  ready0 : List Nat := []
  ready1 : List Nat := []
  /-- waits for the next PAUSABLE step -/
  cut : Option Nat := none
  deriving DecidableEq, Repr

/-- A LOFT_REQ of the partner that waits to be served (R169, R349). -/
structure LoftReq where
  job : Nat
  loft : Nat
  off : Nat
  beat : Nat
  deriving DecidableEq, Repr

structure YokSt where
  enabledAt : Nat := 0
  formRaised : Bool := false
  linkHb : Option Nat := none
  pinHb : Option Nat := none
  partnerPrim : Option Bool := none
  /-- the whole millisecond of the last pin pulse sent -/
  lastPulse : Nat := 0
  downSince : Option Nat := none
  reqs : List LoftReq := []
  /-- blocks that have come back for the repair of a loft: device-local address and lines (R336, R400) -/
  resent : List (Nat × List LineVal) := []
  jobs : Tab YokJob := []
  deriving DecidableEq, Repr

/-! ### Host ports (R355-R378) -/

/-- A device record (R366). -/
structure DevRec where
  tag : Nat
  seq : Nat
  op : Nat
  status : Nat
  ctx : Nat
  detail : Nat
  value : Nat
  deriving DecidableEq, Repr

/-- A host port. -/
structure HostSt where
  up : Bool := false
  perst : Bool := true
  absent : Bool := true
  /-- contexts whose REATTACH is still to come before the port is present again -/
  waiting : List Nat := []
  devCons : Nat := 0
  devCpl : Nat := 0
  devDone : Nat := 0
  fresh : Bool := true
  held : List DevRec := []
  stall : Option (Nat × Nat) := none
  stallSaid : Bool := false
  /-- per vector 16 × function + vector: ns + 1 of its last firing, an advance that waits, masked, pending -/
  fired : Tab Nat := []
  due : List Nat := []
  masked : List Nat := []
  pend : List Nat := []
  vfOn : Bool := false
  ideSecure : Bool := false
  ideKeys : List Nat := []
  deriving DecidableEq, Repr

/-- A ring set (R370), its owner and what the SL9 last read of it (R374). -/
structure Ring where
  port : Nat := 2
  jb : Nat := 0
  jlog : Nat := 6
  cb : Nat := 0
  clog : Nat := 6
  ob : Nat := 0
  hd : Nat := 0
  att : Bool := false
  cons : Nat := 0
  lastC : Nat := 0
  lastO : Nat := 0
  stall : Option (Nat × Nat) := none
  stallSaid : Bool := false
  hash : Nat := 0
  deriving DecidableEq, Repr

/-- A COPY command in progress (R372). -/
structure CopyCmd where
  port : Nat
  job : Nat
  in_ : Bool
  epoch : Nat
  fence : Bool
  sel : Nat
  inc : Nat
  host : Nat
  addr : Nat
  len : Nat
  tag : Nat
  seq : Nat
  deriving DecidableEq, Repr

/-- A job record (R367) with the command that brought it. -/
structure JobRec where
  port : Nat := 0
  tag : Nat := 0
  seq : Nat := 0
  barns : Nat := 0
  slow : Bool := false
  resume : Bool := false
  fjob : Nat := 0
  launch : Nat := 0
  img : Nat := 0
  imgLen : Nat := 0
  params : Nat := 0
  save : Nat := 0
  rings : Nat := 0
  deploy : Nat := 0
  takeHash : Nat := 0
  seed : Nat := 0
  deriving DecidableEq, Repr

/-! ### Security (R381-R406) -/

/-- A shard of this device (R387). -/
structure Shard where
  id : Nat
  loft : Nat
  gran : Nat
  count : Nat
  hash : Nat
  /-- 0 not loaded, 1 loading, 2 verified -/
  st : Nat
  src : Nat
  deriving DecidableEq, Repr

/-- An open manifest: a deployment or an adapter slot (R392, R399). -/
structure Bale where
  key : Nat
  dep : Nat
  ver : Nat
  adId : Nat
  mhash : Nat
  shards : List Shard
  since : Nat
  verified : Bool
  deriving DecidableEq, Repr

/-- A BALE_SHARD or BALE_GRANULE in progress: port, tag, seq, job, kind, slot, shard index. -/
structure BaleJob where
  port : Nat
  tag : Nat
  seq : Nat
  job : Nat
  kind : Nat
  slot : Nat
  shard : Nat
  deriving DecidableEq, Repr

structure SecJob where
  kjob : Option Nat := none
  dep : Option Bale := none
  slots : Tab (Option Bale) := []
  /-- notices staged per slot: adapter ID, version, manifest hash -/
  notices : Tab (Nat × Nat × Nat) := []
  keyDigest : Nat := 0
  imgHash : Nat := 0
  /-- wanted granules: kind, slot, shard, granule, loft block -/
  wants : List (Nat × Nat × Nat × Nat × Nat) := []
  commitSent : Bool := false
  deriving DecidableEq, Repr

structure SecSt where
  jobs : Tab SecJob := []
  loads : List BaleJob := []
  /-- signer hashes, by 4 × entry + word -/
  signers : Tab Nat := []
  lock : Bool := false
  /-- SPDM connection per transport 0, 1 (DOE), 2 (MCTP): 0 none, 1 key exchange in progress, 2 secured session; and
  the messages of its transcript -/
  spdm : Tab Nat := []
  script : Tab (List Byte) := []
  deriving DecidableEq, Repr

/-! ### Loading (R291-R298) -/

/-- What a loaded job keeps (R283, R291). -/
structure JobInfo where
  rank : Nat := 0
  param : Nat := 44
  ranks : List Nat := []
  groupBase : Nat := 0
  groups : Nat := 0
  deploy : Nat := 0
  seed : Nat := 0
  launch : Nat := 0
  /-- job beat and step at which the job begins (R284) -/
  beat : Nat := 0
  step : Nat := 0
  persist : List (Nat × Nat) := []
  barns : Nat := 0
  /-- the save set is written, or its failure said -/
  saving : Bool := false
  deriving DecidableEq, Repr

/-! ### The Tackroom (R422-R439) -/

/-- A trace entry of Larkspur (R433); `data` is bytes 16-31. -/
structure Trace where
  time : Nat
  beat : Nat
  region : Nat
  src : Nat
  data : Nat
  deriving DecidableEq, Repr

structure TckSt where
  /-- mailbox buffers, by 4096 × port + byte -/
  buf : Tab Byte := []
  /-- consecutive trip readings per thermal sensor (R427) -/
  hot : Tab Nat := []
  trip : Bool := false
  /-- step policy (R429), per region: steps of trim below BASE_STEP, of the thermal ceiling below S15, cool intervals;
  PCR_SKEW_WAIT and pacer periods at the last interval; the requests last computed, at first those of reset -/
  trim : Tab Nat := []
  ceil : Tab Nat := []
  cool : Tab Nat := []
  skew0 : Tab Nat := []
  per0 : Tab Nat := []
  stepReq : Tab Nat := []
  /-- an envelope episode is in progress; intervals at or below 95% so far (R430) -/
  envOn : Bool := false
  envLow : Nat := 0
  /-- means of module power over the last 100 µs steps in mW, newest first, at most 10 -/
  means : List Nat := []
  /-- why the Tackroom restarts: 0 it does not, 1 watchdog or SRAM, 2 activation, 3 lockstep -/
  restart : Nat := 0
  /-- firmware has reached RUNNING since the last reset (R466) -/
  started : Bool := false
  /-- an update session is open; the image section does not hold a valid image; it has been written since delivery; its
  bytes then (R438) -/
  fwUpdate : Bool := false
  fwBad : Bool := false
  fwNew : Bool := false
  /-- the fuse counter of security versions (R437) -/
  fwSec : Nat := 0
  fwWrites : Tab Byte := []
  /-- version and words of the library of the image that runs (R53) -/
  libVer : Nat := 0
  lib : Tab Word32 := []
  /-- flash: the log by log number, oldest first, and the number of the next record; boots; stalls to be retired, a mask per
  barn; rows remapped by 256 × loft + bank; blocks moved to spares (R415, R417, R424, R461) -/
  log : List (Nat × ErrRec) := []
  logNext : Nat := 0
  boots : Nat := 0
  retired : Tab Nat := []
  remaps : Tab Nat := []
  moved : List Nat := []
  /-- Larkspur: the buffer by position, entries written since capture began, the queues in order of arrival with each
  entry's queue, drops not yet reported per source, entries still to record after the trigger, ns + 1 of the last write -/
  lsp : Tab (Option Trace) := []
  lspN : Nat := 0
  lspq : List (Nat × Trace) := []
  lspDrop : Tab Nat := []
  lspPost : Option Nat := none
  lastLsp : Nat := 0
  /-- PWR_GOOD and SYS_RESET_N as qualified -/
  pwrGood : Bool := false
  sysReset : Bool := false
  /-- causes of ALERT_N last shown (R432) -/
  alert : Nat := 0
  /-- terminus ID of PLDM -/
  tid : Nat := 0
  /-- barns: clear matched, loft test passed (R465) -/
  cleared : List Nat := []
  tested : List Nat := []
  deriving DecidableEq, Repr

/-- A job context (R17, R29, R42). -/
structure Job where
  phase : JobPhase := .free
  barns : List Nat := []
  /-- device beat at which the job began, or went on after a suspension, and the job beat it began with there (R29, R42) -/
  origin : Nat := 0
  start : Nat := 0
  /-- job beat at which the count stops: a suspension or a halt (R29, R30) -/
  stop : Option Nat := none
  /-- the launch is accepted and job beat 0 not yet fixed (R42) -/
  launchPending : Bool := false
  /-- base beats that the relay has fixed when it delivered a window, lowest first: the step boundaries ahead (R303, R491) -/
  bounds : List Nat := []
  /-- a halt due at a step boundary (R491): the code of its error and the boundary's job beat -/
  haltDue : Option (Nat × Nat) := none
  stallsParam : Nat := 48
  wide : Bool := false
  deriving DecidableEq, Repr

/-- A barn: its owner and its routine store (R17, R46). -/
structure BarnSt where
  owner : Option Nat := none
  store : Tab Word32 := []
  /-- version word of the library in the routine store (R53) -/
  libver : Nat := 0
  /-- power plan (R278, R279): the job beat after the last one counted, the running sum of its window, the window has
  exceeded the limit, periods of the hold before the beat in progress, that beat's hold is over -/
  pwBeat : Nat := 0
  pwSum : Nat := 0
  pwOver : Bool := false
  /-- the device beat in which the clear of the barn began (R94) -/
  clearAt : Nat := 0
  deriving DecidableEq, Repr

/-- No command of this device stops the model with a fault: the manual gives every command an effect. The one fault
names what no command reaches. -/
inductive Fault where
  /-- raised by no command; unsafe only if some rule named an access that has no effect at all -/
  | none
  deriving DecidableEq, Repr

/-- Refusals. -/
inductive Refusal where
  /-- a row of the table without a meaning yet; safe, since nothing is claimed of it -/
  | notModelled (mnemonic : String)
  deriving DecidableEq, Repr

/-- The state of the device. -/
structure State where
  /-- commands that wait, first in, first out -/
  pending : List Instr := []
  /-- the register file, by direct BAR0 offset; an unlisted register holds its reset value -/
  regs : Tab (BitVec 64) := []
  /-- good physical stalls fused into use, per barn (R2) -/
  fused : Tab Nat := []
  /-- good stalls less the retired ones: LDR_STALL_MASK[MASK] per barn (R292) -/
  mask : Tab Nat := []
  /-- CFG_REF of a block, by its base; unlisted: the CRC of its reset configuration (R451) -/
  cfgRef : Tab (Option Nat) := []
  time : TimeSt := {}
  regions : Tab Region := []
  err : ErrSt := {}
  stalls : Tab Stall := []
  barns : Tab BarnSt := []
  ctrs : Tab Counter := []
  jobs : Tab Job := []
  lofts : Tab Loft := []
  mesh : MeshSt := {}
  /-- work still to be done by commands in flight -/
  acts : List Act := []
  /-- commands that have raised an epoch mismatch already (R82) -/
  mism : List Nat := []
  links : Tab Link := []
  fab : FabSt := {}
  srv : Tab SrvJob := []
  prefix_ : Tab (Option PfxEnt) := []
  yok : YokSt := {}
  host : Tab HostSt := []
  rings : Tab Ring := []
  copies : List CopyCmd := []
  loads : Tab (Option JobRec) := []
  info : Tab JobInfo := []
  sec : SecSt := {}
  tck : TckSt := {}
  /-- when a report that is limited to one in each millisecond was last made: ns + 1, by 2^20 × code + subject -/
  rep : Tab Nat := []
  out : List Out := []
  /-- number of the next free value -/
  freeCtr : Nat := 0
  deriving DecidableEq, Repr

/-- The device right after reset: every block disabled and at its reset values, station time 0 and free (R455, R461, R463, R469). -/
def State.reset : State := {}

end Sys2Proof.Machine
end

