-- ==== Sys2Proof/Machine/Ops.lean ====
section
/-! DEFINITION. The named operations over the register file, the per-unit records, time and the pacing regions. -/

namespace Sys2Proof.Machine

/-- The outcome of every command. -/
abbrev Res := Host.Outcome State Fault Refusal

/-! ### The register file -/

/-- The block that holds a BAR0 offset, and its number among the blocks of its kind (R456). -/
def blkAt (a : Nat) : List Blk → Option (Blk × Nat)
  | [] => none
  | b :: bs =>
    let d := a - b.base0
    let i := if b.count = 1 then 0 else d / b.stride
    if b.base0 ≤ a ∧ i < b.count ∧ a - b.base i < 0x10000 then some (b, i) else blkAt a bs

def findBlk (a : Nat) : Option (Blk × Nat) := blkAt a Blk.all

/-- The instance numbers of a register row at a direct offset, if it lists that offset. -/
def RegRow.at (r : RegRow) (o : Nat) : Option (Nat × Nat) :=
  let d := o - r.off
  let i := d / r.s1
  let m := d % r.s1
  if o < r.off ∨ r.n1 ≤ i then none
  else if r.n2 = 1 then (if m = 0 then some (i, 0) else none)
  else if m % r.s2 = 0 ∧ m / r.s2 < r.n2 then some (i, m / r.s2) else none

def findRow (rows : List RegRow) (o : Nat) : Option (RegRow × Nat × Nat) :=
  match rows with
  | [] => none
  | r :: rs => match r.at o with
    | some (i, k) => some (r, i, k)
    | none => findRow rs o

/-- The value a register has at reset: each field at the reset value of its table. -/
def RegRow.resetValue (r : RegRow) : Nat :=
  r.fields.foldl (fun acc f => acc + f.reset * 2 ^ f.lo) 0

/-- The reset value of the register at a direct BAR0 offset (R455, and the table of each register). -/
def regReset (a : Nat) : BitVec 64 :=
  match findBlk a with
  | none => 0
  | some (b, i) =>
    let o := a - b.base i
    if o = 0 then BitVec.ofNat 64 (b.type * 2 ^ 24 + i * 2 ^ 16 + 9 * 2 ^ 8)
    else match findRow b.rows o with
      | some (r, _, _) => BitVec.ofNat 64 r.resetValue
      | none => 0

/-- The bits of a register that lie in a field; the others are reserved: there is nothing to store them (R5). -/
def RegRow.bitsOf (r : RegRow) : Nat := r.fields.foldl (fun m f => m ||| (2 ^ f.width - 1) * 2 ^ f.lo) 0

def regBits (a : Nat) : BitVec 64 :=
  match findBlk a with
  | none => 0
  | some (b, i) => match findRow b.rows (a - b.base i) with
    | some (r, _, _) => BitVec.ofNat 64 r.bitsOf
    | none => 0

def State.reg (s : State) (a : Nat) : Nat := (Tab.get regReset s.regs a).toNat

/-- Store a value in a register: its reserved bits stay zero. -/
def State.setReg (s : State) (a v : Nat) : State :=
  { s with regs := Tab.set regReset s.regs a (BitVec.ofNat 64 v &&& regBits a) }

/-- The value of a field. -/
def State.fget (s : State) (f : Fld) : Nat := bits (s.reg f.addr) (f.lo + f.width - 1) f.lo

/-- Write a field. -/
def State.fset (s : State) (f : Fld) (v : Nat) : State :=
  s.setReg f.addr (setBits (s.reg f.addr) f.lo f.width v)

def State.fbit (s : State) (f : Fld) : Bool := s.fget f ≠ 0

def State.fsetB (s : State) (f : Fld) (b : Bool) : State := s.fset f (b2n b)

/-- Add to a counter field that wraps. -/
def State.fwrap (s : State) (f : Fld) (k : Nat) : State := s.fset f (wrapAdd f.width (s.fget f) k)

/-- Add to a counter field that saturates. -/
def State.fsat (s : State) (f : Fld) (k : Nat) : State := s.fset f (satAdd f.width (s.fget f) k)

/-- Is the block with this base enabled (R451)? -/
def State.enabled (s : State) (base : Nat) : Bool := s.fbit (F.BLK_CTRL_ENABLE base)

/-! ### Records of the units -/

abbrev sx (b : Barn) (k : StallId) : Nat := 48 * b.val + k.val

def Region.zero : Nat → Region := fun _ => {}
def Stall.zero : Nat → Stall := fun _ => {}
def BarnSt.zero : Nat → BarnSt := fun _ => {}
def Job.zero : Nat → Job := fun _ => {}
def StatBuf.zeroF : Nat → StatBuf := fun _ => StatBuf.zero
def AccRow.zeroF : Nat → AccRow := fun _ => AccRow.zero
def BlockVal.zeroF : Nat → BlockVal := fun _ => BlockVal.zero
def BankSt.zeroF : Nat → BankSt := fun _ => {}
def EngSt.zeroF : Nat → EngSt := fun _ => {}
def Loft.zeroF : Nat → Loft := fun _ => {}
def Counter.zeroF : Nat → Counter := fun _ => Counter.zero
def LineVal.zeroF : Nat → LineVal := fun _ => LineVal.zero
/-- A grade with all 48 stalls good, unless the fuses say otherwise (log entry 3). -/
def allGood : Nat → Nat := fun _ => 2 ^ 48 - 1

def State.region (s : State) (r : Nat) : Region := Tab.get Region.zero s.regions r
def State.updRegion (s : State) (r : Nat) (f : Region → Region) : State :=
  { s with regions := Tab.upd Region.zero s.regions r f }
def State.stall (s : State) (i : Nat) : Stall := Tab.get Stall.zero s.stalls i
def State.updStall (s : State) (i : Nat) (f : Stall → Stall) : State :=
  { s with stalls := Tab.upd Stall.zero s.stalls i f }
def State.barn (s : State) (b : Nat) : BarnSt := Tab.get BarnSt.zero s.barns b
def State.updBarn (s : State) (b : Nat) (f : BarnSt → BarnSt) : State :=
  { s with barns := Tab.upd BarnSt.zero s.barns b f }
def State.job (s : State) (j : Nat) : Job := Tab.get Job.zero s.jobs j
def State.updJob (s : State) (j : Nat) (f : Job → Job) : State :=
  { s with jobs := Tab.upd Job.zero s.jobs j f }
def State.ctr (s : State) (c : Nat) : Counter := Tab.get Counter.zeroF s.ctrs c
def State.updCtr (s : State) (c : Nat) (f : Counter → Counter) : State :=
  { s with ctrs := Tab.upd Counter.zeroF s.ctrs c f }

def State.loft (s : State) (n : Nat) : Loft := Tab.get Loft.zeroF s.lofts n
def State.updLoft (s : State) (n : Nat) (f : Loft → Loft) : State :=
  { s with lofts := Tab.upd Loft.zeroF s.lofts n f }
def State.addAct (s : State) (a : Act) : State := { s with acts := s.acts ++ [a] }

def State.send (s : State) (o : Out) : State := { s with out := s.out ++ [o] }

/-- The next free value, and the state that has used it up (log entry 2). -/
def State.free (s : State) : BitVec 64 × State :=
  (Config.freeValue s.freeCtr, { s with freeCtr := s.freeCtr + 1 })

/-! ### Stalls and their physical places (R2, R292) -/

def State.goodMask (s : State) (b : Nat) : Nat := Tab.get allGood s.mask b

/-- The barn's stall count: the good stalls that are not retired. -/
def State.stallCount (s : State) (b : Nat) : Nat := popCount 48 (s.goodMask b)

/-- Logical stall `k` is the physical stall of the (k + 1)-th set bit of the mask (R292). -/
def State.physOf (s : State) (b k : Nat) : Nat := (onesOf 48 (s.goodMask b)).getD k 48

/-! ### Time -/

/-- Station time in whole ns (R35). -/
def State.nowNs (s : State) : Nat := s.time.now / 2 ^ 32

/-- The clock that is derived from the reference, in whole ns: no jump and no rate of station time changes it (R216). -/
def State.refNs (s : State) : Nat := s.time.edges * 5 / 4

/-- Local time of a region in whole ns (R41). -/
def State.locNs (s : State) (r : Nat) : Nat := (s.region r).loc / 2 ^ 32

def pcrBase : Nat := Blk.base .pcr 0

/-- The device beat count of a region (R23). -/
def State.beat (s : State) (r : Nat) : Nat := s.reg (R.PCR_BEAT r)

/-- The job's count in region `r` were it not to stop: `start` at the device beat `origin` (R29, R42). -/
def State.jobBeatRaw (s : State) (j r : Nat) : Nat := (s.job j).start + (s.beat r - (s.job j).origin)

/-- The job's count in region `r` (R29): it stops at the beat at which the job is suspended or halted. -/
def State.jobBeatAt (s : State) (j r : Nat) : Nat :=
  let jb := s.job j
  let n := s.jobBeatRaw j r
  match jb.stop with
  | some p => min n p
  | none => n

/-- The job's count in region `r`; 0 while the context holds no job (R44), and while one is still loading. -/
def State.jobCount (s : State) (j r : Nat) : Nat :=
  if (s.job j).phase = .free ∨ (s.job j).phase = .loading then 0 else s.jobBeatAt j r

/-- PCR_JOB_BEAT: the count in the hub region. -/
def State.jobBeat (s : State) (j : Nat) : Nat := s.jobCount j 28

/-- The region has reached job beat 0 (R42). -/
def State.jobBegun (s : State) (j r : Nat) : Bool :=
  (s.job j).phase = .running && (s.job j).origin ≤ s.beat r

/-- The loft beat count F (R154): the job's count while a job runs on the barn. -/
def State.loftF (s : State) (n : Nat) : Nat :=
  let l := s.loft n
  match (s.barn n).owner with
  | some j => if s.jobBegun j n then s.jobBeatRaw j n else l.fVal + (s.beat n - l.fMark)
  | none => l.fVal + (s.beat n - l.fMark)

/-! ### Larkspur's queues (R433) -/

/-- A source offers a trace entry about a region and a job: it enters the source's queue of 8, behind a DROP entry where
entries of that source were dropped, or is dropped and counted. -/
def State.trace (s : State) (src r : Nat) (job : Option Nat) (data : Nat) : State :=
  if !s.fbit F.TCK_LSP_CTL_RUN || !bit (s.fget F.TCK_LSP_CTL_SOURCES) src then s
  else
    let b := match job with | some j => s.jobBeatAt j r | none => s.beat r
    let e (c d : Nat) : Nat × Trace := (src, ⟨s.locNs r, b % 2 ^ 48, r, c, d⟩)
    let lost := Tab.get zeroNat s.tck.lspDrop src
    if 8 ≤ (s.tck.lspq.filter (fun q => q.1 = src && q.2.src ≠ 15)).length then
      { s with tck := { s.tck with lspDrop := Tab.upd zeroNat s.tck.lspDrop src (· + 1) } }.fwrap F.TCK_LSP_STAT_DROPPED 1
    else
      let new := (if lost = 0 then [] else [e 15 lost]) ++ [e src (data % 2 ^ 128)]
      { s with tck := { s.tck with lspq := s.tck.lspq ++ new, lspDrop := Tab.set zeroNat s.tck.lspDrop src 0 } }

/-! ### Neighbours (R18) -/

/-- The neighbours of a region: the 62 pairs of R18. -/
def neighbours (r : Nat) : List Nat :=
  if r < 24 then
    (if r % 6 = 0 then [] else [r - 1]) ++ (if r % 6 = 5 then [] else [r + 1]) ++
    (if r < 6 then [] else [r - 6]) ++ (if r < 18 then [r + 6] else []) ++
    (if 18 ≤ r then [24] else []) ++ (if r % 6 = 5 then [25] else []) ++
    (if r < 6 then [26] else []) ++ (if r % 6 = 0 then [27, 28] else [])
  else if r = 24 then [18, 19, 20, 21, 22, 23]
  else if r = 25 then [5, 11, 17, 23]
  else if r = 26 then [0, 1, 2, 3, 4, 5]
  else if r < 29 then [0, 6, 12, 18]
  else []

/-- The regions within `n` neighbour steps of `o`. -/
def ball (o : Nat) : Nat → List Nat
  | 0 => [o]
  | n + 1 => (ball o n ++ (ball o n).flatMap neighbours).dedup

/-- The number of neighbour steps between two regions. -/
def steps (o r : Nat) : Nat := (firstBelow 12 (fun n => (ball o n).contains r)).getD 12

/-! ### Holds (R25-R28) -/

def Region.held (g : Region) : Bool := g.heldOwn || !g.origins.isEmpty

def State.held (s : State) (r : Nat) : Bool := (s.region r).held

/-- Bring PCR_HOLD up to date. -/
def State.showHold (s : State) (r : Nat) : State :=
  let g := s.region r
  ((s.fsetB (F.PCR_HOLD_HELD r) g.held).fsetB (F.PCR_HOLD_PROPAGATED r) (!g.heldOwn && !g.origins.isEmpty)).fset
    (F.PCR_HOLD_CUR_CAUSE r) (if g.heldOwn then (g.first.map HoldCause.code).getD 0 else 0)

/-- A cause of a hold arises in a region (R25): a new hold is counted and its first cause recorded (R28); among
causes of one period the lowest code is the one recorded. -/
def State.addCause (s : State) (r code : Nat) (job : Option Nat) (what eng left : Nat) : State :=
  let g := s.region r
  let c : HoldCause := ⟨code, job, what, eng, left, g.periods, g.loc⟩
  if g.causes.any (fun d => d.code = code && d.what = what && d.eng = eng) then s
  else if g.heldOwn then
    let lower := match g.first with
      | some f => f.per = c.per && code < f.code
      | none => false
    let s1 := s.updRegion r (fun g =>
      { g with causes := g.causes ++ [c], first := if lower then some c else g.first })
    let s2 := if lower then s1.fset (F.PCR_HOLD_LAST_CAUSE r) code else s1
    s2.showHold r
  else
    let s1 := s.updRegion r (fun g => { g with causes := [c], first := some c, heldOwn := true })
    (((s1.fwrap (F.PCR_HOLD_ORIGIN_EVENTS r) 1).fset (F.PCR_HOLD_LAST_CAUSE r) code).showHold r).trace 0 r job code

/-- A pacer period held for a starvation is counted in the stall that starves (R66, R75). -/
def State.countStarved (s : State) (c : HoldCause) : State :=
  if c.code = 2 then s.fsat (F.STL_STARVE_PERIODS (c.what / 48) (c.what % 48)) 1 else s

/-- Causes that `p` picks out clear, a starvation with the period in progress held; the hold itself ends at the release. -/
def State.clearCauses (s : State) (r : Nat) (p : HoldCause → Bool) : State :=
  (((s.region r).causes.filter p).foldl State.countStarved
    (s.updRegion r (fun g => { g with causes := g.causes.filter (fun c => !p c) }))).showHold r

/-- The same in every region. -/
def State.clearCausesAll (s : State) (p : HoldCause → Bool) : State :=
  (List.range 29).foldl (fun s r =>
    if (s.region r).causes.any p then s.clearCauses r p else s) s

/-! ### Addresses (R10-R13) -/

/-- What a device-local address names. -/
inductive Place where
  /-- loft n, offset in it -/
  | loft (n off : Nat)
  /-- scratchpad of a stall: barn, stall, byte offset -/
  | spad (b k off : Nat)
  /-- accumulator buffer: barn, stall, array, byte offset -/
  | acc (b k a off : Nat)
  /-- a sync object or gate counter, by its counter key, and the byte within its word -/
  | ctr (key off : Nat)
  /-- routine store -/
  | store (b off : Nat)
  /-- register range -/
  | regs (off : Nat)
  | none
  deriving DecidableEq, Repr

/-- Counter keys: stall-local, barn, gate (R68). -/
def keyLocal (b k i : Nat) : Nat := (48 * b + k) * 64 + i
def keyBarn (b i : Nat) : Nat := 0x100000 + 2048 * b + i
def keyGate (i : Nat) : Nat := 0x200000 + i

/-- Does a register map list the register (or TCK_MBX_BUF) that a BAR0 offset reaches (R441, R445)? -/
def listedReg (a : Nat) : Bool :=
  match findBlk a with
  | none => false
  | some (b, i) =>
    let o := (a - b.base i) % 0x4000
    (findRow b.rows (o - o % 8)).isSome || (b = .tck && 0x1000 ≤ o && o < 0x3000 && a - b.base i < 0x4000)

/-- The device-local map of R11 to R13, with the unused windows of R2. -/
def State.place (s : State) (a : Nat) : Place :=
  if a < 0xC00000000 then .loft (a / 0x80000000) (a % 0x80000000)
  else if a < 0xD80000000 then
    let b := (a - 0xC00000000) / 0x10000000
    let k := (a - 0xC00000000) % 0x10000000 / 0x400000
    let off := a % 0x400000
    if k < s.stallCount b ∧ off < 0x300000 then .spad b k off else .none
  else if a < 0xE00000000 then .none
  else if a < 0xE30000000 then
    let b := (a - 0xE00000000) / 0x2000000
    let k := (a - 0xE00000000) % 0x2000000 / 0x80000
    if k < s.stallCount b ∧ b < 24 then .acc b k (a % 0x80000 / 0x20000) (a % 0x20000) else .none
  else if a < 0xE40000000 then .none
  else if a < 0xE40180000 then
    let b := (a - 0xE40000000) / 0x10000
    let o := a % 0x10000
    if o < 0x2000 then .ctr (keyBarn b (o / 4)) (o % 4)
    else if o < 0x2000 + s.stallCount b * 0x100 then
      .ctr (keyLocal b ((o - 0x2000) / 0x100) (o % 0x100 / 4)) (o % 4)
    else .none
  else if a < 0xE50000000 then .none
  else if a < 0xE50008000 then .ctr (keyGate ((a - 0xE50000000) / 4)) (a % 4)
  else if a < 0xE80000000 then .none
  else if a < 0xE81800000 then .store ((a - 0xE80000000) / 0x100000) (a % 0x100000)
  else if a < 0xF00000000 then .none
  else if a < 0x1000000000 then
    if listedReg (a - 0xF00000000) then .regs (a - 0xF00000000) else .none
  else .none

/-- The device's own ID (R10, FAB_ID). -/
def State.devId (s : State) : Nat := s.fget F.FAB_ID_DEVICE

/-- The device ID of a fabric address, and its device-local part (R10). -/
def faDevice (a : Nat) : Nat := bits a 47 36
def faLocal (a : Nat) : Nat := bits a 35 0

/-- Gate counters allocated to a job (R15): FAB_JOB_GATE gives the range. -/
def State.gateOwned (s : State) (j i : Nat) : Bool :=
  s.fget (F.FAB_JOB_GATE_BASE j) ≤ i && i < s.fget (F.FAB_JOB_GATE_BASE j) + s.fget (F.FAB_JOB_GATE_COUNT j)

/-- The barn of a counter key; none for a gate counter. -/
def ctrBarn (key : Nat) : Option Nat :=
  if key < 0x100000 then some (key / 64 / 48) else if key < 0x200000 then some ((key - 0x100000) / 2048) else none

/-- The region that holds a counter (R70). -/
def ctrRegion (key : Nat) : Nat := (ctrBarn key).getD 28

def State.ownsBarn (s : State) (j b : Nat) : Bool := (s.barn b).owner = some j

/-- May job `j` reach this counter (R15)? -/
def State.ctrAllowed (s : State) (j key : Nat) : Bool :=
  match ctrBarn key with
  | some b => s.ownsBarn j b
  | none => s.gateOwned j (key - 0x200000)

/-- May a stall command or an arriving packet of job `j` reach the place (R15)? -/
def State.placeAllowed (s : State) (j : Nat) (wr : Bool) : Place → Bool
  | .loft n _ => s.ownsBarn j n
  | .spad b _ _ => s.ownsBarn j b
  | .acc b _ _ _ => s.ownsBarn j b
  | .ctr key _ => s.ctrAllowed j key
  | .store b _ => s.ownsBarn j b && !wr
  | .regs _ => false
  | .none => false

/-- Mesh hops between two barns: columns plus rows (R8). -/
def hops (a b : Nat) : Nat := absDiff (a % 6) (b % 6) + absDiff (a / 6) (b / 6)

/-! ### Control packets (R213) -/

/-- TYPE, source point, destination point, destination stall (63: the block), body. -/
def ctrlWord (ty src dst stall body : Nat) : BitVec 128 :=
  BitVec.ofNat 128 (ty % 16 * 2 ^ 124 + src % 64 * 2 ^ 118 + dst % 64 * 2 ^ 112 + stall % 64 * 2 ^ 106 + body % 2 ^ 106)

/-- Send a control packet: type, source point, destination point, stall (63: the block), body, and a register access where it
carries one. -/
def State.ctrlPut (s : State) (ty src dst stall body : Nat) (req : Option RegReq) : State :=
  let n := s.mesh.nextPkt
  { s with mesh := { s.mesh with
    nextPkt := n + 1, ctrl := s.mesh.ctrl ++ [{ id := n, word := ctrlWord ty src dst stall body, pos := src, req := req }] } }

def State.ctrlSend (s : State) (ty src dst stall body : Nat) : State := s.ctrlPut ty src dst stall body none

end Sys2Proof.Machine
end

