-- ==== Sys2Proof/Machine/Raise.lean ====
section
/-! DEFINITION. Raising an error: its severity, escalation, record, and the halts that follow (R409-R418, R490, R491). -/

namespace Sys2Proof.Machine

/-- Severities (R411). -/
def sevCorrected : Nat := 0
def sevAbsorbed : Nat := 1
def sevContained : Nat := 2
def sevFatal : Nat := 3

/-- What a contained error does to its job (the Effect column of R420). -/
inductive Effect where
  | none | boundary | once
  deriving DecidableEq, Repr

/-- Codes whose severity is corrected (R420). -/
def correctedCodes : List Nat :=
  [0x0101, 0x0109, 0x020A, 0x020E, 0x0301, 0x0501, 0x050B, 0x0705, 0x0904, 0x0906, 0x0A03, 0x0A04, 0x0A06, 0x0A09,
   0x0B03, 0x0B08, 0x0C02]

/-- Codes whose severity is contained and whose job halts at its next step boundary. -/
def boundaryCodes : List Nat :=
  [0x0202, 0x0203, 0x0204, 0x0205, 0x0209, 0x020C, 0x020D, 0x020F, 0x0304, 0x0305, 0x0306, 0x0307, 0x0308, 0x0401,
   0x0402, 0x0403, 0x0706, 0x0802, 0x0A01, 0x0C01]

/-- Codes whose severity is contained and whose job halts at once. -/
def onceCodes : List Nat :=
  [0x0102, 0x0201, 0x0206, 0x0207, 0x0208, 0x020B, 0x0211, 0x0601, 0x0602, 0x0607, 0x0707, 0x0708, 0x0809, 0x080A,
   0x080C]

/-- Device-fatal codes. -/
def fatalCodes : List Nat := [0x0104, 0x0210, 0x0405, 0x0A08, 0x0B01, 0x0B02, 0x0B0A, 0x0D03]

/-- The severity the code tables give (R45, R76, R96, R188, R215, R247, R270, R300, R333, R354, R379, R408, R420, R440,
R457): SEC_COMMIT_BAD is contained and refuses a deployment. -/
def codeSev (c : Nat) : Nat :=
  if correctedCodes.contains c then sevCorrected
  else if boundaryCodes.contains c || onceCodes.contains c || c = 0x0A07 then sevContained
  else if fatalCodes.contains c then sevFatal
  else sevAbsorbed

def codeEffect (c : Nat) : Effect :=
  if boundaryCodes.contains c then .boundary else if onceCodes.contains c then .once else .none

/-- Escalation classes: 0 none, 1 stall memory, 2 loft correction, 3 loft repair, 4 handshake, 5 flash (R417). -/
def codeClass (c : Nat) : Nat :=
  if c = 0x020A ∨ c = 0x020E then 1
  else if c = 0x0301 then 2
  else if c = 0x0302 ∨ c = 0x0303 then 3
  else if c = 0x0103 then 4
  else if c = 0x0B03 then 5
  else 0

/-- An error to raise: its code, unit (R410), job, DETAIL, what it is about, whether it came about in a recovery
action (R418), and the jobs it halts when it names none. -/
structure Err where
  code : Nat
  blk : Nat
  inst : Nat := 0xFF
  job : Option Nat := none
  detail : Nat := 0
  tag : Nat := 0
  during : Bool := false
  halts : List Nat := []
  deriving DecidableEq, Repr

/-- The region that raises for a unit block: the hub for the Tackroom and the host ports (R409). -/
def blkRegion (blk : Nat) : Nat := if blk < 29 then blk else 28

/-- Recoveries still in progress. -/
def State.recovering (s : State) : List Recovery :=
  s.err.recov.filter (fun r => match r.ends with | some t => decide (s.refNs < t) | none => true)

/-- Is a recovery of class `cls` in progress in the instance? For the handshake the instance is the region pair; for
flash it is the flash block. -/
def sameInstance (cls : Nat) (e : Err) (r : Recovery) : Bool :=
  if cls = 4 then (r.blk = e.blk && r.inst = e.inst) || (r.blk = e.inst && r.inst = e.blk)
  else if cls = 5 then r.tag = e.tag
  else r.blk = e.blk && r.inst = e.inst

def State.escalates (s : State) (e : Err) : Bool :=
  codeClass e.code ≠ 0 && s.recovering.any (fun r => r.cls = codeClass e.code && sameInstance (codeClass e.code) e r)

/-- The severity the record carries (R417). -/
def State.sevOf (s : State) (e : Err) : Nat := if s.escalates e then codeSev e.code + 1 else codeSev e.code

/-- The record (R409). BEAT of a named job is its count in the raising region (log entry 119). -/
def State.recordOf (s : State) (e : Err) : ErrRec :=
  { code := e.code
    sev := s.sevOf e
    during := e.during || s.recovering.any (fun r => r.blk = e.blk && r.inst = e.inst)
    escalated := s.escalates e
    job := e.job
    blk := e.blk
    inst := e.inst
    fjob := (e.job.map (fun j => s.fget (F.FAB_JOB_CFG_FJOB j))).getD 0
    beat := (e.job.map (fun j => s.jobCount j (blkRegion e.blk))).getD (s.beat (blkRegion e.blk))
    time := s.locNs (blkRegion e.blk)
    detail := e.detail }

/-- When a recovery of the class ends by time (R417). -/
def State.recoveryEnd (s : State) (code : Nat) : Option Nat :=
  if code = 0x020A ∨ code = 0x0103 then some (s.refNs + 1000000) else none

/-- Bytes 0 to 15 of a record as a number (R409). -/
def ErrRec.low (r : ErrRec) : Nat :=
  r.code + (r.sev + 4 * b2n r.during + 8 * b2n r.escalated) * 2 ^ 16 +
  (match r.job with | some j => j + 8 | none => 0) * 2 ^ 24 + (r.inst % 256 + 256 * r.blk) * 2 ^ 32 + r.fjob % 65536 * 2 ^ 48 +
  r.beat % 2 ^ 64 * 2 ^ 64

/-- A record as 256 bits (R409). -/
def ErrRec.pack (r : ErrRec) : Nat := r.low + r.time % 2 ^ 64 * 2 ^ 128 + r.detail % 2 ^ 64 * 2 ^ 192

/-- The point that sends the records of a unit block (R190, R410). -/
def recPoint (blk : Nat) : Nat := min blk 29

/-- A record leaves its unit as three ERR_REC packets: part p carries record bits [106p + 105 : 106p], and [111:106] of the
packet its number (R213, R409; the place of the number is a DESIGN CHOICE, log entry 114). -/
def State.sendRec (s : State) (r : ErrRec) : State :=
  (List.range 3).foldl (fun s i => s.ctrlSend 8 (recPoint r.blk) 28 i (bits r.pack (106 * i + 105) (106 * i))) s

/-- Record the error: the record goes on its way to the collector, an escalation is counted, and the error's own
recovery begins. No halt yet. -/
def State.raiseRec (s : State) (e : Err) : State :=
  let r := s.recordOf e
  let s1 := if r.escalated then s.fsat F.ERR_COUNT_ESCALATED 1 else s
  let recs := if codeClass e.code = 0 then s.recovering
    else s.recovering ++ [⟨codeClass e.code, e.blk, e.inst, e.tag, s.recoveryEnd e.code⟩]
  State.sendRec { s1 with err := { s1.err with flight := s1.err.flight ++ [r], recov := recs } } r

/-- The recovery of an instance about `tag` ends. -/
def State.endRecovery (s : State) (cls blk inst tag : Nat) : State :=
  let keep := s.err.recov.filter (fun r => !(r.cls = cls && r.blk = blk && r.inst = inst && r.tag = tag))
  { s with err := { s.err with recov := keep } }

/-! ### Halts (R31, R93, R119, R150, R185, R210, R306, R412, R413, R491) -/

/-- The stalls of a job's barns, by index, that hold any state. -/
def State.jobStalls (s : State) (j : Nat) : List Nat :=
  (s.stalls.map Prod.fst).filter (fun i => s.ownsBarn j (i / 48))

/-- A command in flight that a halt discards: it applies no signal, and its work goes on to the end of the beat in progress;
a power change that has begun is brought to its end (R93, R119, R150, R185). -/
def Flight.halted (f : Flight) : Flight := { f with sel := 0xC000, far := none, gone := f.gone || f.waits.isEmpty }

/-- A stall whose job halts: queued and in-flight commands are discarded and waits dropped. -/
def Stall.halted (t : Stall) : Stall :=
  { t with
    st := .halted, pendLd := [], waitc := none, pushWait := none, queues := [], due := []
    flights := t.flights.map Flight.halted }

/-- Work that goes on through a halt: packets on their way to another device and slot flits already read (R93, R210). -/
def Act.goesOn (a : Act) : Bool :=
  match a.m with
  | .edge _ _ => true
  | .farReq _ => true
  | .slotLand _ _ _ => true
  | _ => false

/-- A loft at the end of the beat `b` in which a halt takes effect: what has landed in the vector buffers stays, writes that
have not been performed are not performed (R185). -/
def Loft.halted (b : Nat) (l : Loft) : Loft :=
  { l with
    vbuf := l.vbuf.cut b, entered := []
    banks := l.entered.foldl (fun t e =>
      Tab.upd BankSt.zeroF t (e.2 / 32768 % 256) (fun k => { k with writes := k.writes - 1 })) l.banks }

/-- Is the job one that can still halt? -/
def Job.live (jb : Job) : Bool :=
  jb.phase = .ready || jb.phase = .running || jb.phase = .suspended

/-- The parts of a halt that lie in the stalls and regions: the job's count stops, its commands are discarded and the holds
they caused are released; F goes on from its value (R154). What the commands in flight still do ends with the beat in
progress in each region (`State.haltRegion`). -/
def State.haltStalls (s : State) (j : Nat) : State :=
  let f (n : Nat) : Nat := s.loftF n
  let s1 := s.updJob j (fun jb =>
    { jb with phase := .halted, stop := some (s.jobBeat j), haltDue := none, launchPending := false })
  let s2 := (s.jobStalls j).foldl (fun s i => s.updStall i Stall.halted) s1
  let s3 := (List.range 24).foldl (fun s n =>
    if s.ownsBarn j n then s.updLoft n (fun l => { l with fVal := f n, fMark := s.beat n }) else s) s2
  s3.clearCausesAll (fun c => c.job = some j)

/-- A command that has gone leaves its stall at the end of the beat, with its pass and the note of its epoch mismatch. -/
def State.dropGone (s : State) (i : Nat) : State :=
  let ords := ((s.stall i).flights.filter Flight.gone).map Flight.ord
  if ords.isEmpty then s
  else
    let s1 := s.updStall i (fun t =>
      { t with flights := t.flights.filter (fun f => !f.gone), passes := t.passes.filter (fun p => !ords.contains p.ord) })
    { s1 with mism := s1.mism.filter (fun m => !(m % 2 = 0 && ords.contains (m / 2))) }

/-- A halt takes effect in a region of the job at the end of its beat `b`: what the job's commands had still to do there is
discarded (R31, R93, R119, R150, R185, R491). -/
def State.haltRegion (s : State) (j r b : Nat) : State :=
  let is := (s.jobStalls j).filter (fun i => i / 48 = r)
  let s1 := is.foldl (fun s i => (s.updStall i Stall.halted).dropGone i) s
  let s2 := { s1 with acts := s1.acts.filter (fun a => a.job ≠ j || a.reg ≠ r || a.goesOn) }
  (if r < 24 then s2.updLoft r (Loft.halted b) else s2).clearCauses r (fun c => c.job = some j)

/-- The job has halted, or region `r` has reached the boundary at which it is to halt. -/
def State.stopped (s : State) (j r : Nat) : Bool :=
  match (s.job j).phase with
  | .halted => true
  | .teardown => true
  | _ => (s.job j).haltDue.any (fun h => h.2 ≤ s.jobBeatRaw j r)

/-- The end of the beat `b` of a region, after its count has advanced. -/
def State.endBeat (s : State) (r b : Nat) : State :=
  let s1 := ((s.stalls.map Prod.fst).filter (fun i => i / 48 = r)).foldl State.dropGone s
  match (s.barn r).owner with
  | some j => if s.stopped j r then s1.haltRegion j r b else s1
  | none => s1

end Sys2Proof.Machine
end

