-- ==== Sys2Proof/Machine/Units.lean ====
section
/-! DEFINITION. The records of ports, job contexts and the hub's units, reports limited to one in each millisecond,
and what the device sends to host memory (R360-R362, R371). -/

namespace Sys2Proof.Machine

def Link.zeroF : Nat → Link := fun _ => {}
def LinkVc.zeroF : Nat → LinkVc := fun _ => {}
def OutStream.zeroF : Nat → OutStream := fun _ => {}
def InStream.zeroF : Nat → InStream := fun _ => {}
def SrvJob.zeroF : Nat → SrvJob := fun _ => {}
def SeqEnt.zeroF : Nat → SeqEnt := fun _ => {}
def Cust.zeroF : Nat → Cust := fun _ => {}
def AdSlot.zeroF : Nat → AdSlot := fun _ => {}
def HostSt.zeroF : Nat → HostSt := fun _ => {}
def Ring.zeroF : Nat → Ring := fun _ => {}
def JobInfo.zeroF : Nat → JobInfo := fun _ => {}
def SecJob.zeroF : Nat → SecJob := fun _ => {}
def YokJob.zeroF : Nat → YokJob := fun _ => {}

def State.link (s : State) (p : Nat) : Link := Tab.get Link.zeroF s.links p
def State.updLink (s : State) (p : Nat) (f : Link → Link) : State := { s with links := Tab.upd Link.zeroF s.links p f }
def State.srvJob (s : State) (j : Nat) : SrvJob := Tab.get SrvJob.zeroF s.srv j
def State.updSrv (s : State) (j : Nat) (f : SrvJob → SrvJob) : State := { s with srv := Tab.upd SrvJob.zeroF s.srv j f }
def State.hst (s : State) (p : Nat) : HostSt := Tab.get HostSt.zeroF s.host p
def State.updHst (s : State) (p : Nat) (f : HostSt → HostSt) : State := { s with host := Tab.upd HostSt.zeroF s.host p f }
def State.ring (s : State) (j : Nat) : Ring := Tab.get Ring.zeroF s.rings j
def State.updRing (s : State) (j : Nat) (f : Ring → Ring) : State := { s with rings := Tab.upd Ring.zeroF s.rings j f }
def State.infoOf (s : State) (j : Nat) : JobInfo := Tab.get JobInfo.zeroF s.info j
def State.updInfo (s : State) (j : Nat) (f : JobInfo → JobInfo) : State :=
  { s with info := Tab.upd JobInfo.zeroF s.info j f }
def State.secJob (s : State) (j : Nat) : SecJob := Tab.get SecJob.zeroF s.sec.jobs j
def State.updSec (s : State) (j : Nat) (f : SecJob → SecJob) : State :=
  { s with sec := { s.sec with jobs := Tab.upd SecJob.zeroF s.sec.jobs j f } }
def State.yokJob (s : State) (j : Nat) : YokJob := Tab.get YokJob.zeroF s.yok.jobs j
def State.updYok (s : State) (j : Nat) (f : YokJob → YokJob) : State :=
  { s with yok := { s.yok with jobs := Tab.upd YokJob.zeroF s.yok.jobs j f } }
def State.updFab (s : State) (f : FabSt → FabSt) : State := { s with fab := f s.fab }

/-- A report of `code` about subject `sub` is due: the last one lies at least 1 ms back. -/
def State.mayReport (s : State) (code sub : Nat) : Bool :=
  let t := Tab.get zeroNat s.rep (code * 2 ^ 20 + sub)
  t = 0 || t + 999999 ≤ s.refNs

def State.setReport (s : State) (code sub : Nat) : State :=
  { s with rep := Tab.set zeroNat s.rep (code * 2 ^ 20 + sub) (s.refNs + 1) }

/-! ### Host memory -/

/-- Host memory as a command shows it: pieces that the host's reads return; a read outside them fails (R373). -/
def hostRead : List HostPiece → Nat → Nat → Option (List Byte)
  | [], _, _ => none
  | m :: ms, a, n =>
    if m.addr ≤ a ∧ a + n ≤ m.addr + m.bytes.length then some ((m.bytes.drop (a - m.addr)).take n)
    else hostRead ms a n

/-- May the SL9 send to the port now (R361, R376)? -/
def State.canSend (s : State) (p : Nat) : Bool :=
  p < 2 && (s.hst p).up && !(s.hst p).perst && (!s.fbit (F.HST_PORT_CFG_IDE_REQUIRED p) || (s.hst p).ideSecure)

/-- Write host memory. -/
def State.hostWrite (s : State) (p a : Nat) (bs : List Byte) : State :=
  if s.canSend p then
    (s.send (.hostWrite p a bs)).setReg (R.HST_DMA_OUT p) ((s.reg (R.HST_DMA_OUT p) + bs.length) % 2 ^ 64)
  else s

/-- The function and vector of a job context on a port (R360). -/
def State.vecOf (s : State) (p j : Nat) : Nat × Nat := if (s.hst p).vfOn then (1 + j, 0) else (0, 2 + j)

/-- A vector is to fire: at once when the moderation allows it, else later; a masked one becomes pending (R360). -/
def State.fireVec (s : State) (p fn v : Nat) : State :=
  let k := 16 * fn + v
  let t := Tab.get zeroNat (s.hst p).fired k
  if (s.hst p).masked.contains k then
    s.updHst p (fun h => { h with pend := if h.pend.contains k then h.pend else h.pend ++ [k], due := h.due.filter (· ≠ k) })
  else if t = 0 ∨ t + 1000 * s.fget (F.HST_PORT_CFG_MOD_US p) ≤ s.refNs + 1 then
    (s.send (.msix p fn v)).updHst p (fun h =>
      { h with fired := Tab.set zeroNat h.fired k (s.refNs + 1), due := h.due.filter (· ≠ k) })
  else s.updHst p (fun h => { h with due := if h.due.contains k then h.due else h.due ++ [k] })

/-! ### Completion records (R316, R371) -/

def CplRec.bytes (c : CplRec) : List Byte :=
  leBytes 8 c.tag ++ leBytes 4 c.seqId ++ leBytes 1 c.status ++ leBytes 1 c.endc ++ leBytes 1 c.kind ++ leBytes 1 0 ++
  leBytes 4 c.gen ++ leBytes 4 c.cached ++ leBytes 4 c.outIdx ++ leBytes 4 c.resLen

/-- Does this head speak to its host: a secondary head does not while its job is yoked (R348)? -/
def State.headSilent (s : State) (j : Nat) : Bool :=
  !s.fbit F.YOK_CFG_PRIMARY && s.fbit (F.YOK_JOB_CFG_YOKED j) && ([1, 3, 6].contains (s.fget (F.YOK_JOB_STATE_STATE j)) || (s.yokJob j).takeover)

/-- A completion record is written to a host's ring, after the result that it tells of (R315). -/
def State.writeCpl (s : State) (r : Ring) (c : CplRec) : State :=
  (match c.result with
   | some (a, bs) => s.hostWrite r.port a bs
   | none => s).hostWrite r.port (r.cb + 32 * (c.idx % 2 ^ r.clog)) c.bytes

/-- Write the completion records that fit into the host's ring, then its producer line (R362, R371). -/
def State.flushCpl (s : State) (j : Nat) : State :=
  let r := s.ring j
  let q := s.srvJob j
  if r.att && s.canSend r.port && !(s.hst r.port).absent && !s.headSilent j then
    let go := q.cpl.filter (fun c => q.cplSent ≤ c.idx && c.idx < r.lastC + 2 ^ r.clog)
    if go = [] then s
    else
      let s1 := go.foldl (fun s c => s.writeCpl r c) s
      let n := q.cplSent + go.length
      let v := s.vecOf r.port j
      (((s1.updSrv j (fun q => { q with cplSent := n })).hostWrite r.port (r.hd + 128) (leBytes 4 (n % 2 ^ 32))).fset
        (F.HST_CTX_CPL_PRODUCER r.port j) n).fireVec r.port v.1 v.2
  else s

/-- A completion record arises; its index is the next (R371). -/
def State.pushCpl (s : State) (j : Nat) (c : CplRec) : State :=
  (s.updSrv j (fun q => { q with cpl := q.cpl ++ [{ c with idx := q.cplNext }], cplNext := q.cplNext + 1 })).flushCpl j

/-- The completion record of a sequence that has ended. -/
def cplOf (e : SeqEnt) : CplRec :=
  ⟨0, e.tag, e.seqId, e.status, e.endc, 0, e.gen, e.cached, e.outIdx, e.resLen,
    if e.result = [] then none else some (e.resAddr, e.result)⟩

/-! ### Device records (R366) -/

def DevRec.bytes (d : DevRec) : List Byte :=
  leBytes 8 d.tag ++ leBytes 4 d.seq ++ leBytes 1 d.op ++ leBytes 1 d.status ++ leBytes 1 d.ctx ++ leBytes 1 d.detail ++
  leBytes 8 d.value ++ leBytes 8 0

/-- Write the held device records that fit, in order, then line 2 (R364, R366). -/
def State.flushDev (s : State) (p : Nat) : State :=
  let h := s.hst p
  if s.canSend p && !h.fresh && s.fbit (F.HST_PORT_CFG_ENABLE p) then
    let go := h.held.take (h.devDone + 64 - h.devCpl)
    if go = [] then s
    else
      let base := s.reg (R.HST_DEVCPL_BASE p)
      let s1 := go.zipIdx.foldl (fun s d => s.hostWrite p (base + 32 * ((h.devCpl + d.2) % 64)) d.1.bytes) s
      ((s1.updHst p (fun h => { h with held := h.held.drop go.length, devCpl := h.devCpl + go.length })).hostWrite p
        (s.reg (R.HST_DEVRING_HDR p) + 128) (leBytes 4 ((h.devCpl + go.length) % 2 ^ 32))).fireVec p 0 0
  else s

/-- A device record arises on a port. -/
def State.devRec (s : State) (p : Nat) (d : DevRec) : State :=
  if p < 2 then (s.updHst p (fun h => { h with held := h.held ++ [d] })).flushDev p else s

/-- An unsolicited device record (R366, R390). -/
def State.devNote (s : State) (p op status j detail value : Nat) : State :=
  s.devRec p ⟨0, 0xFFFFFFFF, op, status, j, detail, value⟩

end Sys2Proof.Machine
end

