-- ==== Sys2Proof/Machine/LinkOps.lean ====
section
/-! DEFINITION. Ports and packets: port states, bypass messages, the route tables, the header of a fabric packet,
placing a packet in the hands of the seal engines, and a port that goes down (R220, R238, R242, R243, R249-R264). -/

namespace Sys2Proof.Machine

/-! ### Port states -/

def State.portSt (s : State) (p : Nat) : Nat := s.fget (F.LNK_PORT_STATE_STATE (p / 8) (p % 8))
/-- The yoke role (R246): 0b01; every other value acts as fabric. -/
def Link.isYoke (l : Link) : Bool := bits l.ctrl 11 10 = 1
def State.portOpen (s : State) (p : Nat) : Bool := s.portSt p = 5 || s.portSt p = 6

/-- A port enters a state (R220). -/
def State.setPort (s : State) (p st : Nat) : State :=
  ((s.fset (F.LNK_PORT_STATE_STATE (p / 8) (p % 8)) st).updLink p (fun l =>
    { l with since := s.refNs, goodAt := s.refNs })).trace 3 (24 + p / 8) none (p + 256 * st)

def Link.vc (l : Link) (v : Nat) : LinkVc := Tab.get LinkVc.zeroF l.vcs v
def Link.updVc (l : Link) (v : Nat) (f : LinkVc → LinkVc) : Link := { l with vcs := Tab.upd LinkVc.zeroF l.vcs v f }

/-- Give a bypass message to a port in ACTIVE (R238). -/
def State.sendBypass (s : State) (p : Nat) (m : BitVec 128) : State :=
  if s.portSt p = 5 then s.updLink p (fun l => { l with byq := l.byq ++ [m] }) else s

/-- A message with BTYPE in [127:120] and its body below (R238). -/
def bypassMsg (bt body : Nat) : BitVec 128 := BitVec.ofNat 128 (bt * 2 ^ 120 + body % 2 ^ 120)

/-! ### Route tables (R251, R252) -/

def State.routeEnt (s : State) (plan d : Nat) : Nat := Tab.get zeroNat s.fab.routes (4096 * plan + d)
def State.setRoute (s : State) (plan d v : Nat) : State :=
  s.updFab (fun f => { f with routes := Tab.set zeroNat f.routes (4096 * plan + d) v })
def State.groupEnt (s : State) (plan g : Nat) : Nat := Tab.get zeroNat s.fab.mcast (1024 * plan + g)

/-- A port that packets may be queued for: fabric role, in ACTIVE or RETRAIN. -/
def State.portUsable (s : State) (p : Nat) : Bool := s.portOpen p && !(s.link p).isYoke

/-- The output port of a usable route entry (R251). -/
def State.route (s : State) (plan d : Nat) : Option Nat :=
  let e := s.routeEnt plan d
  if bit e 7 && !bit e 6 && s.portUsable (e % 32) then some (e % 32) else none

/-- The output ports of a group's packet, and whether a copy is for this device (R252); none without a valid entry. -/
def State.groupRoute (s : State) (plan g : Nat) (from_ : Option Nat) : Option (List Nat × Bool) :=
  let e := s.groupEnt plan g
  if bit e 33 then
    some ((onesOf 32 e).filter (fun p => some p ≠ from_ && s.portUsable p), bit e 32)
  else none

/-- Peers of a job (R255). -/
def State.isPeer (s : State) (j d : Nat) : Bool := bit (Tab.get zeroNat s.fab.peers (64 * j + d / 64)) (d % 64)
def State.peersOf (s : State) (j : Nat) : List Nat :=
  (List.range 64).flatMap (fun w => (onesOf 64 (Tab.get zeroNat s.fab.peers (64 * j + w))).map (64 * w + ·))

def State.planOf (s : State) (j : Nat) : Nat := s.fget (F.FAB_JOB_STATE_PLAN j)
def State.headOf (s : State) (j : Nat) : Nat := s.fget (F.FAB_JOB_CFG_HEAD j)
def State.isHead (s : State) (j : Nat) : Bool := s.headOf j = s.devId
def State.fjob (s : State) (j : Nat) : Nat := s.fget (F.FAB_JOB_CFG_FJOB j)

/-- The job context that holds an FJOB (R263). -/
def State.ctxOf (s : State) (fj : Nat) : Option Nat :=
  (List.range 8).find? (fun j => fj ≠ 0 && s.fjob j = fj && (s.job j).phase ≠ .free)

/-! ### The fabric header (R249) -/

structure FabHdr where
  gen : Nat := 0
  rtag : Nat := 0
  poison : Nat := 0
  epoch : Nat := 0
  fence : Bool := false
  plan : Nat := 0
  siginc : Nat := 0
  sigidx : Nat := 0
  addr : Nat := 0
  eseq : Nat := 0
  fjob : Nat := 0
  src : Nat := 0
  dst : Nat := 0
  kind : Nat := 0
  mcast : Bool := false
  d : Nat := 0
  deriving DecidableEq, Repr

def FabHdr.pack (h : FabHdr) : Nat :=
  h.d % 8 + b2n h.mcast * 2 ^ 3 + h.kind % 16 * 2 ^ 4 + h.dst % 4096 * 2 ^ 8 + h.src % 4096 * 2 ^ 20 +
  h.fjob % 2 ^ 16 * 2 ^ 32 + h.eseq % 2 ^ 16 * 2 ^ 48 + h.addr % 2 ^ 36 * 2 ^ 64 + h.sigidx % 2 ^ 13 * 2 ^ 100 +
  h.siginc % 2 ^ 8 * 2 ^ 113 + h.plan % 2 * 2 ^ 121 + b2n h.fence * 2 ^ 122 + h.epoch % 16 * 2 ^ 123 +
  h.poison % 8 * 2 ^ 127 + h.poison / 8 % 2 * 2 ^ 130 + h.rtag % 2 ^ 17 * 2 ^ 131 + h.gen % 4096 * 2 ^ 148

def FabHdr.unpack (n : Nat) : FabHdr :=
  { gen := bits n 159 148, rtag := bits n 147 131, poison := bits n 130 127, epoch := bits n 126 123
    fence := bit n 122, plan := bits n 121 121, siginc := bits n 120 113, sigidx := bits n 112 100
    addr := bits n 99 64, eseq := bits n 63 48, fjob := bits n 47 32, src := bits n 31 20, dst := bits n 19 8
    kind := bits n 7 4, mcast := bit n 3, d := bits n 2 0 }

def FabPkt.head (p : FabPkt) : FabHdr := FabHdr.unpack p.hdr.toNat
def FabPkt.setPlan (p : FabPkt) (plan : Nat) : FabPkt :=
  { p with hdr := BitVec.ofNat 256 (setBits p.hdr.toNat 121 1 plan) }

/-! ### Sending (R256-R262) -/

/-- Where a packet goes: a device, a group, the yoke partner. -/
inductive FDest where
  | dev (d : Nat) | group (g : Nat) | yoke
  deriving DecidableEq, Repr

def FDest.key (j : Nat) : FDest → Nat
  | .dev d => 16384 * j + d
  | .group g => 16384 * j + 4096 + g
  | .yoke => 16384 * j + 8192

def keyDest (k : Nat) : FDest :=
  let m := k % 16384
  if m < 4096 then .dev m else if m < 8192 then .group (m - 4096) else .yoke

/-- The virtual channel of a kind (R250). -/
def kindVc (k : Nat) : Nat := if k ≤ 1 then 0 else if k = 2 then 1 else 2

/-- Seal-engine slices of a packet of `d` lines: 224 bytes each (R262). -/
def slicesOf (d : Nat) : Nat := (32 + 64 * d + 223) / 224

/-- The first output port of a packet, by destination and plan. -/
def State.outPort (s : State) (plan : Nat) : FDest → Option Nat
  | .dev d => s.route plan d
  | .group g => match s.groupRoute plan g none with
    | some (p :: _, _) => some p
    | some ([], _) => some 0
    | none => none
  | .yoke => let p := s.fget F.YOK_CFG_PORT
    if s.portOpen p && (s.link p).isYoke then some p else none

def State.outStream (s : State) (k : Nat) : OutStream := Tab.get OutStream.zeroF s.fab.outs k
def State.updOut (s : State) (k : Nat) (f : OutStream → OutStream) : State :=
  s.updFab (fun b => { b with outs := Tab.upd OutStream.zeroF b.outs k f })
def State.inStream (s : State) (k : Nat) : InStream := Tab.get InStream.zeroF s.fab.ins k
def State.updIn (s : State) (k : Nat) (f : InStream → InStream) : State :=
  s.updFab (fun b => { b with ins := Tab.upd InStream.zeroF b.ins k f })

/-- Packets of a job that an edge block holds: retained, held back, or waiting for a seal engine (R259). -/
def State.retained (s : State) (j e : Nat) : Nat :=
  (s.fab.outs.filter (fun o => o.1 / 16384 = j)).foldl (fun n o =>
    n + ((o.2.kept ++ o.2.wait).filter (fun k => k.edge = e)).length) 0 +
  (s.fab.sealq.filter (fun i => i.job = j && i.edge = e && i.n < 2 ^ 60)).length

/-- The share granted to a job at every edge block (R259). -/
def State.share (s : State) (j : Nat) : Nat :=
  let before := ((List.range j).map (fun i => s.fget (F.FAB_JOB_CFG_RETAIN i))).sum
  min (s.fget (F.FAB_JOB_CFG_RETAIN j)) (8192 - before)

/-- Give a sequenced packet of job `j` to the seal engines: it takes the stream's next number (R257). -/
def State.handOver (s : State) (j : Nat) (dest : FDest) (edge : Nat) (h : FabHdr) (lines : List Line)
    (plan : Option Nat := none) : State :=
  let k := dest.key j
  let n := (s.outStream k).next
  let dst := match dest with | .dev d => d | .group g => g | .yoke => s.fget F.YOK_CFG_PARTNER
  let g := { h with
    eseq := n, fjob := s.fjob j, src := s.devId, dst := dst, d := lines.length
    gen := s.fget (F.SEC_JOB_STATE_GEN j), mcast := (match dest with | .group _ => true | _ => false) }
  let item : SealItem := ⟨j, k, n, slicesOf lines.length, edge, kindVc h.kind, ⟨BitVec.ofNat 256 g.pack, lines⟩, plan⟩
  (s.updOut k (fun o => { o with next := n + 1 })).updFab (fun f => { f with sealq := f.sealq ++ [item] })

/-- A sequenced packet that the hub originates: without a usable route it is not sent; a full share is
FAB_RETAIN_OVERFLOW, whose halt the caller applies (R253, R259). The second answer says that the share was full. -/
def State.tryOriginate (s : State) (j : Nat) (dest : FDest) (h : FabHdr) (lines : List Line)
    (plan : Option Nat := none) : State × Bool :=
  match s.outPort (plan.getD (s.planOf j)) dest with
  | none => (s, false)
  | some p =>
    if s.share j ≤ s.retained j (p / 8) then
      (s.raiseRec { code := 0x0607, blk := 24 + p / 8, job := some j }, true)
    else (s.handOver j dest (p / 8) { h with plan := plan.getD (s.planOf j) } lines plan, false)

/-- A line with a body of bytes, the rest zero. -/
def bodyLine (bs : List Byte) : Line := BitVec.ofNat 512 (leNat (bs.take 64))

/-- A CONTROL packet with subtype and body (R250). The second answer says that the share was full (R259). -/
def State.tryControl (s : State) (j : Nat) (dest : FDest) (sub : Nat) (body : List Byte)
    (plan : Option Nat := none) : State × Bool :=
  s.tryOriginate j dest { kind := 4 } [bodyLine (BitVec.ofNat 8 sub :: body)] plan

/-- Peers of a job other than this device. -/
def State.others (s : State) (j : Nat) : List Nat := (s.peersOf j).filter (· ≠ s.devId)

/-- One header credit and `d` data credits more on channel v, modulo 2^16. -/
def bumpPair (t : Tab Nat) (v d : Nat) : Tab Nat :=
  Tab.upd zeroNat (Tab.upd zeroNat t (2 * v) (fun n => (n + 1) % 65536)) (2 * v + 1) (fun n => (n + d) % 65536)

/-- The receive buffer frees a packet: one header credit and its data credits (R240). -/
def State.freeRx (s : State) (p v d : Nat) : State :=
  s.updLink p (fun l =>
    { l with freed := bumpPair l.freed v d })

/-! ### A port that goes down (R242, R243, R264) -/

/-- The error of a link, with its port in DETAIL (R247, R490). -/
def State.lnkErr (s : State) (p code extra : Nat) : State :=
  s.raiseRec { code := code, blk := 24 + p / 8, inst := p, detail := p + extra }

/-- Complete a packet at an output with zero units and ABORT (R243). -/
def TPkt.abort (t : TPkt) : TPkt :=
  { t with units := t.units ++ List.replicate (t.need - t.units.length) 0, aborted := true }

/-- Packets partly received on a port: an output that has begun one completes it with ABORT, the rest go (R243). -/
def State.abortRx (s : State) (p v : Nat) : State :=
  let part := ((s.link p).vc v).rx.filter (fun r => r.units.length < r.need)
  let s1 := part.foldl (fun s r => r.outs.foldl (fun s o =>
    (s.updLink o (fun l => l.updVc v (fun c =>
      { c with tx := c.tx.map (fun t => if t.id = r.id then t.abort else t) }))).fsat
      (F.LNK_TRANSIT_ABORTED (o / 8) (o % 8)) 1) s) s
  s1.updLink p (fun l => l.updVc v (fun c => { c with rx := c.rx.filter (fun r => r.units.length = r.need) }))

/-- What a port loses on entry to DOWN: replay buffer, sequence, NAK and credit state, the packet partly sent. -/
def Link.cleared (l : Link) : Link :=
  { since := l.since, downAt := l.downAt, ctrl := l.ctrl, cfg := l.cfg, fid := l.fid, fecSyms := l.fecSyms, fecAt := l.fecAt
    exNext := l.exNext
    vcs := l.vcs.map (fun e => (e.1, { e.2 with tx := if 0 < e.2.sent then e.2.tx.drop 1 else e.2.tx, sent := 0 })) }

/-- The entries from an index on, with the LOST bit set in each whose PORT is `p` (R264). -/
def lostEntries (p : Nat) : Nat → Nat → Tab Nat → Tab Nat
  | 0, _, t => t
  | n + 1, i, t =>
    let e := match t with | (k, v) :: _ => if k = i then v else 0 | [] => 0
    let rest := lostEntries p n (i + 1) (match t with | (k, _) :: t' => if k = i then t' else t | [] => [])
    let e1 := if e % 32 = p ∧ bit e 6 = false then e + 64 else e
    if e1 = 0 then rest else (i, e1) :: rest

/-- Every entry of both route tables whose PORT is `p` becomes LOST, valid or not; the answer lists those newly marked as
(plan, device) (R264). -/
def State.markRoutes (s : State) (p : Nat) : List (Nat × Nat) × State :=
  let t := lostEntries p 8192 0 s.fab.routes
  let hit := t.filter (fun e => e.2 % 32 = p && bit e.2 6 && !bit (Tab.get zeroNat s.fab.routes e.1) 6)
  (hit.map (fun e => (e.1 / 4096, e.1 % 4096)),
    (s.updFab (fun f => { f with routes := t })).fwrap F.FAB_NOTICE_MARKED hit.length)

/-- ROUTE_NOTICE messages for newly marked entries on every fabric port in ACTIVE but `p` (R264). -/
def State.sendNotices (s : State) (p origin : Nat) (ms : List (Nat × Nat)) : State :=
  if !s.fbit F.FAB_CTRL_NOTICE_EN then s
  else
    let blocks := (ms.map (fun m => (m.1, m.2 / 64))).dedup
    blocks.foldl (fun s b =>
      let map := ((ms.filter (fun m => m.1 = b.1 && m.2 / 64 = b.2)).map (fun m => 2 ^ (m.2 % 64))).sum
      let body := b.1 * 2 ^ 119 + b.2 * 2 ^ 113 + origin * 2 ^ 101 + map
      ((List.range 32).filter (fun q => q ≠ p && s.portSt q = 5 && !(s.link q).isYoke)).foldl
        (fun s q => (s.sendBypass q (bypassMsg 5 body)).fwrap F.FAB_NOTICE_SENT 1) s) s

/-- A port enters DOWN with a cause of R490. The answer lists the route entries that became LOST. -/
def State.linkDown (s : State) (p cause : Nat) : List (Nat × Nat) × State :=
  let n := (s.link p).held.length
  let s1 := s.lnkErr p 0x0506 (cause * 2 ^ 8 + n * 2 ^ 32)
  let s2 := [0, 1, 2].foldl (fun s v => s.abortRx p v) s1
  let s3 := (s2.updLink p (fun l => { l.cleared with downAt := s.refNs })).setPort p 7
  let f := s3.reg (R.LNK_PORT_STATE (p / 8) (p % 8)) % 16
  let s4 := s3.setReg (R.LNK_PORT_STATE (p / 8) (p % 8)) f
  if (s.link p).isYoke then ([], { s4 with yok := { s4.yok with downSince := some s.refNs } })
  else
    let m := s4.markRoutes p
    if m.1 = [] then (m.1, m.2)
    else
      let s5 := m.2.raiseRec { code := 0x0604, blk := 28 }
      (m.1, s5.sendNotices p s.devId m.1)

/-- A port enters DOWN for a cause to which R490 gives no number: that part of the record is a free value. -/
def State.linkDownOpen (s : State) (p : Nat) : List (Nat × Nat) × State :=
  (s.free.2).linkDown p (s.free.1.toNat % 256)

/-! ### A flit leaves a port (R218, R224, R232) -/

def State.major (s : State) (p : Nat) : Nat := s.fget (F.LNK_PORT_STATE_MAJOR (p / 8) (p % 8))

/-- The fields that every transmission fills afresh (R232), and the rotation of the credit counters (R240). -/
def State.freshHdr (s : State) (p : Nat) (h : FlitHdr) : FlitHdr :=
  let l := s.link p
  { h with
    ack := l.ack, nak := l.nak.isSome, nakid := if s.major p = 1 then 0 else l.nakid, crVc := l.crNext / 2
    crKind := l.crNext % 2, crCount := Tab.get zeroNat l.freed l.crNext }

/-- 256 bytes go out on the lanes of the working set, through their scramblers (R218). -/
def State.emit (s : State) (p : Nat) (bytes : BitVec 2048) : State :=
  let set := s.fget (F.LNK_PORT_STATE_LANES_GOOD (p / 8) (p % 8))
  let scr := (s.link p).txScr
  (s.send (.flit p bytes (lanesOf set scr ((leBytes 256 bytes.toNat).map BitVec.toNat)))).updLink p
    (fun l => { l with txScr := (scrFlit set scr).2 })

/-- A flit with a link header and a payload leaves the port. -/
def State.putFlit (s : State) (p : Nat) (h : FlitHdr) (payload : Nat) : State :=
  (s.emit p (flitBytes (s.freshHdr p h).pack payload)).updLink p (fun l =>
    { l with crNext := (l.crNext + 1) % 6, bypGap := if h.type = 2 then 0 else l.bypGap + 1 })

/-- LINK_NOTICE goes out in a BYPASS flit before the port goes down (R242), which version 1.x does not have (R223).
DESIGN CHOICE: the flit carries this message alone (log entry 117). -/
def State.linkNotice (s : State) (p : Nat) : State :=
  if s.portSt p = 5 ∧ s.major p ≠ 1 then
    (s.putFlit p { type := 2, seq := (s.link p).seq } (bypassMsg 6 0).toNat).fwrap (F.LNK_BYPASS_SENT (p / 8) (p % 8)) 1
  else s

end Sys2Proof.Machine
end

