-- ==== Sys2Proof/Machine/Fail.lean ====
section
/-! DEFINITION. Halting a job and raising an error with its outcome (R306, R346, R411-R413, R491). -/

namespace Sys2Proof.Machine

/-- A CONTROL packet of a job that is halting: a full share stops it no further (R259). -/
def State.haltControl (s : State) (j : Nat) (dest : FDest) (sub : Nat) (body : List Byte) : State := (s.tryControl j dest sub body).1

/-- The head of a halted job: HALT to every other device, HALTED for every sequence that is not FREE, whose
entries are then FREE (log entry 90), and no further command is latched (R306). -/
def State.headHalt (s : State) (j code : Nat) : State :=
  if (s.srvJob j).dead then s
  else
    let s1 := (s.others j).foldl (fun s d => s.haltControl j (.dev d) 0x11 (leBytes 2 code)) s
    let es := (s1.srvJob j).ents.filter (fun e => e.2.st ≠ 0)
    let s2 := es.foldl (fun s e => s.pushCpl j { cplOf e.2 with status := 3, result := none }) s1
    ((s2.updSrv j (fun q => { q with dead := true, ents := [], flight := [] })).fset (F.SRV_JOB_COUNT_SEQS j) 0).fset
      (F.SRV_JOB_STATE_IN_FLIGHT j) 0

/-- What the relay and the yoke unit send when a job halts on this device (R306, R346). A device-fatal device sends
no HALT_NOTE, since its ports are down. -/
def State.haltSends (s : State) (j code : Nat) : State :=
  let s1 := s.fset (F.SRV_JOB_STATE_STATE j) 3
  let y := s1.fget (F.YOK_JOB_STATE_STATE j)
  let s2 := if s1.fbit (F.YOK_JOB_CFG_YOKED j) ∧ y ≠ 0 then s1.haltControl j .yoke 0x1C (leBytes 2 code) else s1
  if s2.isHead j then s2.headHalt j code
  else if s2.err.fatal then s2
  else s2.haltControl j (.dev (s2.headOf j)) 0x10 (leBytes 2 code)

/-- The job halts at once (R31) with the code of the error that halts it; a context that holds no live job is left
alone (R412). -/
def State.haltNow (s : State) (j : Nat) (code : Nat := 0) : State :=
  if (s.job j).live then (s.haltStalls j).haltSends j code else s

/-- The job is due to halt at its next step boundary, as region `r` stands (R491): at once when it stands at one already.
The count stops there in every region. -/
def State.haltBoundary (s : State) (j : Nat) (code : Nat := 0) (r : Nat := 28) : State :=
  let jb := s.job j
  if jb.live then
    match (if jb.phase = .running then jb.bounds.find? (fun p => s.jobBeatAt j r < p) else none) with
    | none => s.haltNow j code
    | some p =>
      if jb.haltDue.isSome then s
      else s.updJob j (fun jb => { jb with haltDue := some (code, p), stop := some (min p (jb.stop.getD p)) })
  else s

/-- A device-fatal error (R413): every job halts at once, and every port that is not OFF goes down after a
LINK_NOTICE. -/
def State.deviceFatal (s : State) (code : Nat) : State :=
  let s1 := { s with err := { s.err with fatal := true } }
  let s2 := (List.range 8).foldl (fun s j => s.haltNow j code) s1
  ((List.range 32).filter (fun p => s.portSt p ≠ 0 && s.portSt p ≠ 7)).foldl
    (fun s p => ((s.linkNotice p).linkDownOpen p).2) s2

/-- Raise an error: record it, then apply the outcome of the severity that its record carries (R411, R417). -/
def State.raise (s : State) (e : Err) : State :=
  let sev := s.sevOf e
  let esc := s.escalates e
  let s1 := s.raiseRec e
  let js := e.halts ++ e.job.toList
  if sev = sevFatal then (if s.err.fatal then s1 else s1.deviceFatal e.code)
  else if sev = sevContained then
    if esc then (if codeClass e.code = 4 then List.range 8 else js).foldl (fun s j => s.haltBoundary j e.code (blkRegion e.blk)) s1
    else match codeEffect e.code with
      | .once => js.foldl (fun s j => s.haltNow j e.code) s1
      | .boundary => js.foldl (fun s j => s.haltBoundary j e.code (blkRegion e.blk)) s1
      | .none => s1
  else s1

/-- Raise an STL_ error of a stall that arose at an instruction index (R75): the first since STL_FAULT was last cleared is kept
there. -/
def State.raiseStlAt (s : State) (b k : Nat) (code detail tag : Nat) (inst pc : Nat) : State :=
  let s1 := if s.fbit (F.STL_FAULT_VALID b k) then s
    else ((s.fset (F.STL_FAULT_VALID b k) 1).fset (F.STL_FAULT_CODE b k) code).fset (F.STL_FAULT_PC b k) pc
  s1.raise { code := code, blk := b, inst := inst, job := (s.barn b).owner, detail := detail, tag := tag }

/-- The same at the index of the next instruction. -/
def State.raiseStl (s : State) (b k : Nat) (code detail tag : Nat) (inst : Nat) : State :=
  s.raiseStlAt b k code detail tag inst (s.stall (48 * b + k)).pc

/-- The same with the stall's own physical number as the instance (R410). -/
def State.stlErr (s : State) (b k code detail : Nat) : State :=
  s.raiseStl b k code detail 0 (s.physOf b k)

/-- An error of the instruction at index `pc`. -/
def State.stlErrAt (s : State) (b k code detail pc : Nat) : State :=
  s.raiseStlAt b k code detail 0 (s.physOf b k) pc

/-- A job context's error that the hub raises. -/
def State.hubErr (s : State) (j code detail : Nat) : State :=
  s.raise { code := code, blk := 28, job := some j, detail := detail }

/-- A report of the hub, at most once per subject in each 1 ms. -/
def State.hubOnce (s : State) (code sub : Nat) (job : Option Nat) : State :=
  if s.mayReport code sub then (s.setReport code sub).raise { code := code, blk := 28, job := job } else s

/-- Originate a packet from the hub; a full retention share halts the job (R259). -/
def State.originate (s : State) (j : Nat) (dest : FDest) (h : FabHdr) (lines : List Line) : State :=
  let r := s.tryOriginate j dest h lines
  if r.2 then r.1.haltNow j 0x0607 else r.1

/-- A CONTROL packet with subtype and body (R250); a full retention share halts the job (R259). -/
def State.sendControl (s : State) (j : Nat) (dest : FDest) (sub : Nat) (body : List Byte) (plan : Option Nat := none) : State :=
  let r := s.tryControl j dest sub body plan
  if r.2 then r.1.haltNow j 0x0607 else r.1

/-- The same to every peer of the job but this device. -/
def State.controlPeers (s : State) (j sub : Nat) (body : List Byte) (plan : Option Nat := none) : State :=
  (s.others j).foldl (fun s d => s.sendControl j (.dev d) sub body plan) s

end Sys2Proof.Machine
end

