-- ==== Sys2Proof/Machine/Insn.lean ====
section
/-! DEFINITION. Control-core instructions: their 32-bit words, which words are legal, and what each one reads
(R50, R51, R63, R68). -/

namespace Sys2Proof.Machine

/-- The ALU group (R51). -/
inductive AluOp where
  | add | sub | and | or | xor | sll | srl | sra | slt | sltu | min | max | minu | maxu
  | mul | mulhu | mulh | divu | remu
  deriving DecidableEq, Repr

/-- Instructions with an immediate operand that compute in the register file. -/
inductive ImmOp where
  | addi | andi | ori | xori | slli | srli | srai | shi
  deriving DecidableEq, Repr

/-- A legal control-core instruction with its operands (R51). -/
inductive Insn where
  | alu (op : AluOp) (rd rs1 rs2 : Nat)
  | imm (op : ImmOp) (rd rs1 imm : Nat)
  | ld (rd rs1 imm : Nat)
  | st (rs rs1 imm : Nat)
  | lds (rd w : Nat)
  | rdsr (rd n : Nat)
  | syncrd (rd sel : Nat)
  | syncwr (sel rs1 : Nat)
  | syncadd (sel rs1 : Nat)
  | waitc (sel rs1 : Nat)
  | push (eng rs1 : Nat)
  | loop (rs1 len : Nat)
  | loopidx (rd lvl : Nat)
  | skipIf (flag : Nat) (pol : Bool) (n : Nat)
  | callLib (idx : Nat)
  | ret
  | baseAdd (rs1 : Nat)
  | stepEnd
  | nop
  deriving DecidableEq, Repr

/-- A sync selector is legal (R68). -/
def selLegal (sel : Nat) : Bool :=
  match bits sel 15 14 with
  | 0 => bits sel 13 0 < 64
  | 1 => bits sel 13 0 < 2048
  | 2 => bits sel 13 0 < 8192
  | _ => true

/-- The func table of the ALU group. -/
def aluOf (func : Nat) : Option AluOp :=
  match func with
  | 0x000 => some .add | 0x001 => some .sub | 0x002 => some .and | 0x003 => some .or | 0x004 => some .xor
  | 0x005 => some .sll | 0x006 => some .srl | 0x007 => some .sra | 0x008 => some .slt | 0x009 => some .sltu
  | 0x00A => some .min | 0x00B => some .max | 0x00C => some .minu | 0x00D => some .maxu
  | 0x010 => some .mul | 0x011 => some .mulhu | 0x012 => some .mulh | 0x018 => some .divu | 0x019 => some .remu
  | _ => none

/-- `i` when every field marked zero is zero, else nothing (R51). -/
def ifZero (l : List Nat) (i : Insn) : Option Insn := if l.all (· = 0) then some i else none

/-- The instruction that a 32-bit word encodes, none for an illegal word. The checks that need the machine's state
(R55, R56, R57, R60, BASE.ADD's register) are made when the instruction executes. -/
def decodeInsn (w : Nat) : Option Insn :=
  let rd := bits w 25 21
  let rs1 := bits w 20 16
  let rs2 := bits w 15 11
  let func := bits w 10 0
  let imm := bits w 15 0
  match bits w 31 26 with
  | 0x01 => (aluOf func).map (fun op => .alu op rd rs1 rs2)
  | 0x02 => some (.imm .addi rd rs1 imm)
  | 0x03 => some (.imm .andi rd rs1 imm)
  | 0x04 => some (.imm .ori rd rs1 imm)
  | 0x05 => some (.imm .xori rd rs1 imm)
  | 0x06 => ifZero [bits imm 15 6] (.imm .slli rd rs1 imm)
  | 0x07 => ifZero [bits imm 15 6] (.imm .srli rd rs1 imm)
  | 0x08 => ifZero [bits imm 15 6] (.imm .srai rd rs1 imm)
  | 0x09 => some (.imm .shi rd rs1 imm)
  | 0x0A => some (.ld rd rs1 imm)
  | 0x0B => some (.st rd rs1 imm)
  | 0x0C => ifZero [rs1, bits imm 15 6] (.lds rd (bits imm 5 0))
  | 0x0D => ifZero [rs1, bits imm 15 8] (.rdsr rd (bits imm 7 0))
  | 0x10 => if selLegal imm then ifZero [rs1] (.syncrd rd imm) else none
  | 0x11 => if selLegal imm then ifZero [rd] (.syncwr imm rs1) else none
  | 0x12 => if selLegal imm then ifZero [rd] (.syncadd imm rs1) else none
  | 0x13 => if selLegal imm then ifZero [rd] (.waitc imm rs1) else none
  | 0x18 =>
    if 1 ≤ bits imm 2 0 ∧ bits imm 2 0 ≤ 5 ∧ 4 ≤ rs1 ∧ rs1 ≤ 28 ∧ rs1 % 4 = 0
    then ifZero [rd, bits imm 15 3] (.push (bits imm 2 0) rs1) else none
  | 0x20 => ifZero [rd, bits imm 15 12] (.loop rs1 (if bits imm 11 0 = 0 then 4096 else bits imm 11 0))
  | 0x21 => ifZero [rs1, bits imm 15 2] (.loopidx rd (bits imm 1 0))
  | 0x22 =>
    ifZero [rd, rs1, bits imm 7 7, bits imm 15 12] (.skipIf (bits imm 5 0) (bit imm 6) (bits imm 11 8 + 1))
  | 0x23 => ifZero [rd, rs1, bits imm 15 12] (.callLib (bits imm 11 0))
  | 0x24 => ifZero [rd, rs1, imm] .ret
  | 0x25 => ifZero [rd, imm] (.baseAdd rs1)
  | 0x26 => ifZero [rd, rs1, imm] .stepEnd
  | 0x3F => ifZero [rd, rs1, imm] .nop
  | _ => none

/-- The registers an instruction reads. -/
def Insn.reads : Insn → List Nat
  | .alu _ _ rs1 rs2 => [rs1, rs2]
  | .imm _ _ rs1 _ => [rs1]
  | .ld _ rs1 _ => [rs1]
  | .st rs rs1 _ => [rs, rs1]
  | .syncwr _ rs1 => [rs1]
  | .syncadd _ rs1 => [rs1]
  | .waitc _ rs1 => [rs1]
  | .push _ rs1 => [rs1, rs1 + 1, rs1 + 2, rs1 + 3]
  | .loop rs1 _ => [rs1]
  | .baseAdd rs1 => [rs1]
  | .lds _ _ => []
  | .rdsr _ _ => []
  | .syncrd _ _ => []
  | .loopidx _ _ => []
  | .skipIf _ _ _ => []
  | .callLib _ => []
  | .ret => []
  | .stepEnd => []
  | .nop => []

/-- The register an instruction writes. -/
def Insn.writes : Insn → Option Nat
  | .alu _ rd _ _ => some rd
  | .imm _ rd _ _ => some rd
  | .ld rd _ _ => some rd
  | .lds rd _ => some rd
  | .rdsr rd _ => some rd
  | .syncrd rd _ => some rd
  | .loopidx rd _ => some rd
  | .st _ _ _ => none
  | .syncwr _ _ => none
  | .syncadd _ _ => none
  | .waitc _ _ => none
  | .push _ _ => none
  | .loop _ _ => none
  | .skipIf _ _ _ => none
  | .callLib _ => none
  | .ret => none
  | .baseAdd _ => none
  | .stepEnd => none
  | .nop => none

/-- The result of an ALU operation (R51). -/
def aluResult (op : AluOp) (a b : Word) : Word :=
  match op with
  | .add => a + b
  | .sub => a - b
  | .and => a &&& b
  | .or => a ||| b
  | .xor => a ^^^ b
  | .sll => a <<< (b.toNat % 64)
  | .srl => a >>> (b.toNat % 64)
  | .sra => a.sshiftRight (b.toNat % 64)
  | .slt => if a.toInt < b.toInt then 1 else 0
  | .sltu => if a.toNat < b.toNat then 1 else 0
  | .min => if a.toInt ≤ b.toInt then a else b
  | .max => if a.toInt ≤ b.toInt then b else a
  | .minu => if a.toNat ≤ b.toNat then a else b
  | .maxu => if a.toNat ≤ b.toNat then b else a
  | .mul => a * b
  | .mulhu => BitVec.ofNat 64 (a.toNat * b.toNat / 2 ^ 64)
  | .mulh => BitVec.ofInt 64 (a.toInt * b.toInt / 2 ^ 64)
  | .divu => if b = 0 then BitVec.allOnes 64 else BitVec.ofNat 64 (a.toNat / b.toNat)
  | .remu => if b = 0 then a else BitVec.ofNat 64 (a.toNat % b.toNat)

/-- The result of an instruction with an immediate (R51). -/
def immResult (op : ImmOp) (a : Word) (imm : Nat) : Word :=
  match op with
  | .addi => a + (BitVec.ofNat 16 imm).signExtend 64
  | .andi => a &&& BitVec.ofNat 64 imm
  | .ori => a ||| BitVec.ofNat 64 imm
  | .xori => a ^^^ BitVec.ofNat 64 imm
  | .slli => a <<< (imm % 64)
  | .srli => a >>> (imm % 64)
  | .srai => a.sshiftRight (imm % 64)
  | .shi => (a <<< 16) ||| BitVec.ofNat 64 imm

end Sys2Proof.Machine
end

