-- ==== Sys2Proof/Machine/Engine.lean ====
section
/-! DEFINITION. What all engines share: counters and their settling, the fields of an engine command, queues and due beats
(R63-R73). -/

namespace Sys2Proof.Machine

/-! ### Counters (R68-R73) -/

/-- The counter key that a selector names for a stall; none for scope 0b11 (R68). -/
def selKey (b k sel : Nat) : Option Nat :=
  match bits sel 15 14 with
  | 0 => some (keyLocal b k (bits sel 13 0))
  | 1 => some (keyBarn b (bits sel 13 0))
  | 2 => some (keyGate (bits sel 13 0))
  | _ => none

/-- The fabric address of a counter (R13). -/
def State.ctrAddr (s : State) (key : Nat) : Nat :=
  s.devId * 2 ^ 36 +
  (if key < 0x100000 then
     0xE40000000 + (key / 64 / 48) * 0x10000 + 0x2000 + (key / 64 % 48) * 0x100 + key % 64 * 4
   else if key < 0x200000 then 0xE40000000 + (key - 0x100000) / 2048 * 0x10000 + (key - 0x100000) % 2048 * 4
   else 0xE50000000 + (key - 0x200000) * 4)

/-- A signal or SYNCADD adds to a counter at its next settling (R69, R70). -/
def State.signal (s : State) (key inc : Nat) : State :=
  s.updCtr key (fun c => { c with incs := c.incs ++ [inc] })

/-- A memory write to a counter (R70). -/
def State.ctrWrite (s : State) (key v : Nat) : State :=
  s.updCtr key (fun c => { c with writes := c.writes ++ [v % 2 ^ 32] })

/-- The unit instance of a counter (R410). -/
def State.ctrUnit (s : State) (key : Nat) : Nat × Nat :=
  match ctrBarn key with
  | some b => if key < 0x100000 then (b, s.physOf b (key / 64 % 48)) else (b, 0xFF)
  | none => (28, 0xFF)

/-- The job that owns a counter. -/
def State.ctrOwner (s : State) (key : Nat) : Option Nat :=
  match ctrBarn key with
  | some b => (s.barn b).owner
  | none => (List.range 8).find? (fun j => s.gateOwned j (key - 0x200000) && (s.job j).phase ≠ .free)

/-- The value after the three steps of R70, before saturation: the waits of the period start from the value that the last one
left. -/
def Counter.settled (c : Counter) : Nat :=
  (c.writes.getLast?.getD (c.prev - c.consumes.sum)) + c.incs.sum

/-- Settle a counter (R70, R71): its value is what the three steps give it so far in this pacer period. The waits go on to see
what the last period left. An overflow is raised once in a period; that of a stall's own object is an STL_ error of the
stall (R75). -/
def State.settle (s : State) (key : Nat) : State :=
  let c := s.ctr key
  let v := c.settled
  let s1 := s.updCtr key (fun c => { c with val := min v 0xFFFFFFFF, over_ := c.over_ || decide (0xFFFFFFFF < v) })
  if 0xFFFFFFFF < v ∧ c.over_ = false then
    let u := s.ctrUnit key
    if key < 0x100000 then s1.raiseStl u.1 (key / 64 % 48) 0x0204 0 0 u.2
    else s1.raise { code := 0x0204, blk := u.1, inst := u.2, job := s.ctrOwner key }
  else s1

/-- Something has happened to the counter in this period. -/
def Counter.touched (c : Counter) : Bool := !(c.consumes.isEmpty && c.writes.isEmpty && c.incs.isEmpty)

/-- What the settling of a period leaves for the next. -/
def Counter.closed (c : Counter) : Counter := ⟨c.val, [], [], [], c.val, false⟩

/-- The end of a pacer period of the region that holds the counter: it is settled, and the next period starts from there. -/
def State.closeCtr (s : State) (key : Nat) : State := (s.settle key).updCtr key Counter.closed

/-- All counters of a region, at the end of its pacer period (R70). -/
def State.closeCtrs (s : State) (r : Nat) : State :=
  ((s.ctrs.filter (fun c => ctrRegion c.1 = r && c.2.touched)).map Prod.fst).foldl State.closeCtr s

/-! ### Engine commands (R63) -/

def cmdBits (w : Cmd) (hi lo : Nat) : Nat := bits w.toNat hi lo

def cNext (w : Cmd) : Nat := cmdBits w 255 232
def cSigSel (w : Cmd) : Nat := cmdBits w 95 80
def cThresh (w : Cmd) : Nat := cmdBits w 79 64
def cWaitSel (w : Cmd) : Nat := cmdBits w 63 48
def cSigInc (w : Cmd) : Nat := cmdBits w 47 40
def cIssue (w : Cmd) : Nat := cmdBits w 39 16
def cFlags (w : Cmd) : Nat := cmdBits w 15 12
def cOp (w : Cmd) : Nat := cmdBits w 11 0
def cSigIssue (w : Cmd) : Bool := cmdBits w 13 13 = 1
def cConsume (w : Cmd) : Bool := cmdBits w 12 12 = 1

/-- Queue depths (R63). -/
def queueDepth (e : Nat) : Nat :=
  match e with
  | 1 => 32 | 2 => 64 | 3 => 32 | 4 => 32 | 5 => 16 | _ => 0

def noQ : Nat → List QCmd := fun _ => []
def noDue : Nat → Due := fun _ => .none

def Stall.queue (t : Stall) (e : Nat) : List QCmd := Tab.get noQ t.queues e
def Stall.setQueue (t : Stall) (e : Nat) (q : List QCmd) : Stall := { t with queues := Tab.set noQ t.queues e q }

/-- The base beat of the next step, once the serving controller has fixed it: word 1 of a window that has come, else
what BASE has brought (R66, R303, R310). -/
def Stall.stepBase (t : Stall) : Option Nat :=
  if bit t.nextGot 1 then some (Tab.get zero64 t.nextWindow 1).toNat else t.nextBase

/-- The engine's due beat, once it is fixed (R66). -/
def Stall.dueBeat (t : Stall) (e : Nat) : Option Nat :=
  match Tab.get noDue t.due e with
  | .none => none
  | .at n => some n
  | .nextStep => t.stepBase

/-- Let everything that has landed before beat `b` become settled. -/
def Stall.settleAt (b : Nat) (t : Stall) : Stall :=
  { t with
    spad := t.spad.settle LineVal.zeroF b
    vreg := t.vreg.settle (fun _ => Lane.zero) b
    mreg := t.mreg.settle (fun i => ⟨if i = 0 then BitVec.allOnes 64 else 0, 0⟩) b
    acc := t.acc.settle (fun _ => AccRow.zero) b
    uses := t.uses.filter (fun u => b ≤ u.beat)
    conflicts := t.conflicts.filter (fun c => b ≤ c) }

/-- Flights of an engine. -/
def Stall.flying (t : Stall) (e : Nat) : List Flight := t.flights.filter (fun f => f.eng = e)

end Sys2Proof.Machine
end

