-- ==== Sys2Proof/Machine/Spad.lean ====
section
/-! DEFINITION. Scratchpads (R77-R85): lines, tags, banks and their ports, check codes, transposed and strided reads. -/

namespace Sys2Proof.Machine

def spadLines : Nat := 49152
def spadBytes : Nat := 0x300000

/-- The line as a read in beat `b` finds it (R81). -/
def State.readLine (s : State) (i b line : Nat) : LineVal := (s.stall i).spad.readAt LineVal.zeroF b line

/-- A line written in beat `b` (R81). -/
def State.writeLine (s : State) (i b line : Nat) (v : LineVal) : State :=
  s.updStall i (fun t => { t with spad := t.spad.write b line v })

/-- An error of a scratchpad: its count, the first error's address, and the record (R84, R95, R410). -/
def State.spadErr (s : State) (b k code detail addr : Nat) (cnt : Option Fld) (tag : Nat) : State :=
  let s1 := match cnt with | some f => s.fsat f 1 | none => s
  let s2 := if s1.fbit (F.SPD_ERRADDR_VALID b k) then s1
    else ((s1.fset (F.SPD_ERRADDR_VALID b k) 1).fset (F.SPD_ERRADDR_NN b k) (code % 256)).fset
      (F.SPD_ERRADDR_ADDR b k) addr
  s2.raiseStl b k code detail tag (s.physOf b k)

/-- A check-code error of a line: corrected, with the write-back to come, or not (R84, R490). -/
def State.spadEcc (s : State) (b k line : Nat) (correctable : Bool) : State :=
  if correctable then
    (s.updStall (48 * b + k) (fun t => { t with fixes := t.fixes ++ [line] })).spadErr b k 0x020E (line * 64) (line * 64)
      (some (F.SPD_ERRCNT_CORRECTED b k)) line
  else s.spadErr b k 0x020F (line * 64) (line * 64) (some (F.SPD_ERRCNT_UNCORRECTED b k)) line

/-- Use the bank of a line in a beat through the port of rank `rank` (R78, R79): performed unless a use of the bank in
that beat stands already. The work of a beat is done at its end in order of rank and issue, so the access performed is the one
that ranks higher; a conflict is noted for the error of the beat. Accesses of UNS and CORE (rank 9) have waited for a bank
that no port uses. -/
def State.useBank (s : State) (b k beat line rank : Nat) : Bool × State :=
  let i := 48 * b + k
  let bank := line % 16
  match (s.stall i).uses.find? (fun u => u.beat = beat && u.bank = bank && u.rank ≠ 9) with
  | some u => (false, s.updStall i (fun t => { t with clash := t.clash ++ [(beat, bank, u.rank, rank, line)] }))
  | none => (true, s.updStall i (fun t => { t with uses := t.uses ++ [⟨beat, bank, rank, 0⟩] }))

/-- The conflict of the lowest bank. -/
def lowestClash : List (Nat × Nat × Nat × Nat × Nat) → Option (Nat × Nat × Nat × Nat × Nat)
  | [] => none
  | c :: cs => match lowestClash cs with
    | some d => if d.2.1 < c.2.1 then some d else some c
    | none => some c

/-- STL_BANK_CONFLICT once for each beat in which a conflict occurs (R79). When the lowest-numbered bank has refused several
accesses in the beat, DETAIL and SPD_ERRADDR describe the one that comes first in the order of R78: the spec names none of
them (DESIGN CHOICE, log entry 39). -/
def State.raiseClash (s : State) (i : Nat) : State :=
  let t := s.stall i
  match lowestClash t.clash with
  | none => s
  | some (beat, bank, won, lost, line) =>
    let s1 := s.updStall i (fun t => { t with clash := [], conflicts := t.conflicts ++ [beat] })
    if t.conflicts.contains beat then s1
    else s1.spadErr (i / 48) (i % 48) 0x020C (bank + won * 2 ^ 8 + lost * 2 ^ 16) (line * 64)
      (some (F.SPD_ERRCNT_CONFLICT (i / 48) (i % 48))) 0

/-- The epoch check of a line (R82): a wrong epoch poisons the data and is raised once for the command `ord` (twice the place of
a command of this device, twice the number of a remote read and one). -/
def State.checkEpoch (s : State) (b k line ord : Nat) (epoch : Option Nat) (l : LineVal) : LineVal × State :=
  match epoch with
  | none => (l, s)
  | some e =>
    if l.epoch = e then (l, s)
    else if s.mism.contains ord then ({ l with poison := true }, s)
    else ({ l with poison := true },
      ({ s with mism := ord :: s.mism }).spadErr b k 0x020D (line * 64 + e * 2 ^ 32 + l.epoch * 2 ^ 36) (line * 64)
        (some (F.SPD_ERRCNT_EPOCH b k)) 0)

/-- Read a line of a scratchpad in a beat through a port (R79, R82-R84): the data it delivers, poisoned or not. `ecc`
lists the check-code errors that the command meets. -/
def State.rdLine (s : State) (b k beat line rank ord : Nat) (epoch : Option Nat) (ecc : List EccHit) :
    LineVal × State :=
  let u := s.useBank b k beat line rank
  if !u.1 then (⟨0, 0, true⟩, u.2)
  else
    let l := u.2.readLine (48 * b + k) beat line
    match ecc.find? (fun h => (h.mem = 0 || h.mem = 4) && h.at_ = line) with
    | some h =>
      if h.correctable then (u.2.spadEcc b k line true).checkEpoch b k line (2 * ord) epoch l
      else if h.mem = 4 then ({ l with poison := true }, u.2.spadEcc b k line false)
      else (u.2.spadEcc b k line false).checkEpoch b k line (2 * ord) epoch { l with poison := true }
    | none => u.2.checkEpoch b k line (2 * ord) epoch l

/-- Write a line in a beat through a port (R79, R81). -/
def State.putLine (s : State) (b k beat line rank : Nat) (v : LineVal) : State :=
  let u := s.useBank b k beat line rank
  if u.1 then u.2.writeLine (48 * b + k) beat line v else u.2

/-- Read several lines in one beat. -/
def State.rdLines (s : State) (b k beat rank ord : Nat) (epoch : Option Nat) (ecc : List EccHit) :
    List Nat → List (Nat × LineVal) × State
  | [] => ([], s)
  | l :: ls =>
    let x := s.rdLine b k beat l rank ord epoch ecc
    let y := x.2.rdLines b k beat rank ord epoch ecc ls
    ((l, x.1) :: y.1, y.2)

/-! ### Byte streams -/

/-- A byte of a line. -/
def LineVal.byte (l : LineVal) (o : Nat) : PByte := ⟨BitVec.ofNat 8 (l.data.toNat >>> (8 * (o % 64))), l.poison⟩

/-- Bytes as a number, lowest first. -/
def pNat : List PByte → Nat
  | [] => 0
  | p :: ps => p.v.toNat + 256 * pNat ps

/-- A line from 64 bytes: poisoned when any byte is. -/
def lineOf (epoch : Nat) (ps : List PByte) : LineVal :=
  ⟨BitVec.ofNat 512 (pNat (ps.take 64)), epoch, (ps.take 64).any PByte.poison⟩

/-- Cut a list into pieces of `n`. -/
def chunks {α : Type} (n : Nat) : Nat → List α → List (List α)
  | 0, _ => []
  | f + 1, l => if l.isEmpty then [] else l.take n :: chunks n f (l.drop n)

/-! ### Transposed and strided reads (R85) -/

/-- The source byte of output byte `o` of a command with mode, chunk size, stride, and base (R85, R87). -/
def rdsSource (mode e p base o : Nat) : Nat :=
  match mode with
  | 0 => base + o / e * p + o % e
  | 1 =>
    let t := o / 1024
    let q := o % 1024
    base + 32 * t + q % 32 * p + q / 32
  | _ =>
    let t := o / 512
    let q := o % 512 / 2
    base + 32 * t + q % 16 * p + q / 16 * 2 + o % 2

/-- Output bytes of `count` chunks or tiles. -/
def rdsBytes (mode e count : Nat) : Nat :=
  match mode with
  | 0 => count * e
  | 1 => 1024 * count
  | _ => 512 * count

/-- The highest source byte. -/
def rdsLast (mode e p base count : Nat) : Nat :=
  match mode with
  | 0 => base + (count - 1) * p + e - 1
  | 1 => base + 32 * (count - 1) + 31 * p + 31
  | _ => base + 32 * (count - 1) + 15 * p + 31

/-- A mode rule of R85 is broken. -/
def rdsBad (mode esize p base count : Nat) : Bool :=
  let e := 4 * 2 ^ esize
  mode = 3 ||
  (if mode = 0 then 4 < esize || base % e ≠ 0 || p % e ≠ 0 else base % 32 ≠ 0 || p % 32 ≠ 0 || p < 32) ||
  spadBytes ≤ rdsLast mode e p base count

/-- The distinct lines that a group of output bytes reads, in order of first use. -/
def groupLines (srcs : List Nat) : List Nat := (srcs.map (· / 64)).dedup

/-- The beats a group takes: the largest number of distinct lines in one bank, at least 1 (R85). -/
def groupBeats (lines : List Nat) : Nat :=
  max 1 (maxOf 0 ((List.range 16).map (fun bk => (lines.filter (fun l => l % 16 = bk)).length)))

/-- The beat, within its group, in which each line is read: the n-th line of a bank in beat n. -/
def lineBeat (lines : List Nat) (line : Nat) : Nat :=
  ((lines.takeWhile (· ≠ line)).filter (fun l => l % 16 = line % 16)).length

/-- The bytes at source addresses, from the lines of a group. -/
def pickBytes (got : List (Nat × LineVal)) (srcs : List Nat) : List PByte :=
  srcs.map (fun a => match got.find? (fun g => g.1 = a / 64) with
    | some g => g.2.byte (a % 64)
    | none => ⟨0, true⟩)

/-- Write the bytes of a unit as lines of epoch `ew` at byte offset `dst` in one beat. -/
def State.putBytes (s : State) (b k beat rank ew dst : Nat) (ps : List PByte) : State :=
  ((chunks 64 32 ps).zipIdx).foldl (fun s p => s.putLine b k beat (dst / 64 + p.2) rank (lineOf ew p.1)) s

/-! ### Waiting accesses, write-backs and the scrubber (R80, R84) -/

/-- Replace the bytes of `old` that `mask` names by those of `new`. -/
def maskBytes (mask : Nat) (old new : Line) : Line :=
  BitVec.ofNat 512 ((List.range 64).foldl (fun acc o =>
    acc + (if Nat.testBit mask o then bits new.toNat (8 * o + 7) (8 * o) else bits old.toNat (8 * o + 7) (8 * o))
      * 2 ^ (8 * o)) 0)

end Sys2Proof.Machine
end

