-- ==== Sys2Proof/Machine/Operands.lean ====
section
/-! DEFINITION. The operand fields of every engine command and what makes a command illegal (R65, R87, R88, R90,
R102, R113-R116, R123, R124, R128-R140, R177-R182, R205-R208). -/

namespace Sys2Proof.Machine

/-! ### Ranges -/

/-- What kind of place a far range lies in (R88, R90). -/
inductive FarKind where
  /-- the scratchpad of stall (barn, logical stall), first byte offset -/
  | spad (b k off : Nat)
  /-- loft n, first byte offset -/
  | loft (n off : Nat)
  | unimpl
  /-- no legal far end -/
  | bad
  deriving DecidableEq, Repr

/-- A device-local address that no unit implements (R2, R13, R14); the register range is a far end of no command. -/
def State.holeAt (s : State) (a : Nat) : Bool := s.place a = .none && !(0xF00000000 ≤ a && a < 0x1000000000)

/-- Does a range of bytes lie wholly in unimplemented ranges (R88)? Every boundary of the map is a multiple of 64. -/
def State.holeRange (s : State) (a len : Nat) : Bool :=
  (List.range (len / 64)).all (fun j => s.holeAt (a + 64 * j)) && s.holeAt (a + len - 1)

/-- Classify a far range of `len` bytes at a device-local address; on another device every stall window counts. -/
def State.farKind (s : State) (own : Bool) (a len : Nat) : FarKind :=
  if a < 0xC00000000 then
    (if a / 0x80000000 = (a + len - 1) / 0x80000000 then .loft (a / 0x80000000) (a % 0x80000000) else .bad)
  else if a < 0xD80000000 ∧ (!own || (a - 0xC00000000) % 0x10000000 / 0x400000 < s.stallCount ((a - 0xC00000000) / 0x10000000))
      ∧ (a - 0xC00000000) % 0x10000000 / 0x400000 < 48 ∧ a % 0x400000 < 0x300000 then
    (if a % 0x400000 + len ≤ 0x300000 then
      .spad ((a - 0xC00000000) / 0x10000000) ((a - 0xC00000000) % 0x10000000 / 0x400000) (a % 0x400000)
     else .bad)
  else if s.holeRange a len then .unimpl
  else .bad

/-- Alignment of a far end (R88). -/
def farAligned (a lines : Nat) : Bool :=
  if a < 0xC00000000 then a % 256 = 0 && lines % 4 = 0
  else if a < 0xD80000000 then a % 64 = 0 else true

/-! ### DMA (R87, R88, R90) -/

def dFar (w : Cmd) : Nat := cmdBits w 231 184
def dLocal (w : Cmd) : Nat := cmdBits w 183 162
def dLines (w : Cmd) : Nat := cmdBits w 161 146
def dEpochW (w : Cmd) : Nat := cmdBits w 145 142
def dEpochR (w : Cmd) : Nat := cmdBits w 141 138
def dCheck (w : Cmd) : Bool := cmdBits w 137 137 = 1
def dFence (w : Cmd) : Bool := cmdBits w 136 136 = 1
def dRsig (w : Cmd) : Nat := cmdBits w 135 120
def dRinc (w : Cmd) : Nat := cmdBits w 119 112
/-- DMA.LCOPY -/
def lcSrc (w : Cmd) : Nat := cmdBits w 183 153
def lcBlocks (w : Cmd) : Nat := cmdBits w 152 137
/-- DMA.RDS -/
def rdsSrc (w : Cmd) : Nat := cmdBits w 231 210
def rdsDst (w : Cmd) : Nat := cmdBits w 209 188
def rdsMode (w : Cmd) : Nat := cmdBits w 187 186
def rdsEsize (w : Cmd) : Nat := cmdBits w 185 183
def rdsStride (w : Cmd) : Nat := cmdBits w 182 161
def rdsCount (w : Cmd) : Nat := cmdBits w 160 145
def rdsEpochW (w : Cmd) : Nat := cmdBits w 144 141
def rdsEpochR (w : Cmd) : Nat := cmdBits w 140 137
def rdsCheck (w : Cmd) : Bool := cmdBits w 136 136 = 1
/-- DMA.FILL -/
def fillDst (w : Cmd) : Nat := cmdBits w 231 210
def fillLines (w : Cmd) : Nat := cmdBits w 209 194
def fillEpoch (w : Cmd) : Nat := cmdBits w 193 190
def fillPattern (w : Cmd) : Nat := cmdBits w 189 126

/-- The legal far-end signals (R90): `rd` for DMA.RD, `own` when the far end lies on this device. -/
def rsigLegal (rd own : Bool) (f : FarKind) (sel : Nat) : Bool :=
  selLegal sel &&
  (let sc := bits sel 15 14
   if own then
     match f with
     | .unimpl => true
     | .spad _ _ _ => if rd then sc = 3 else sc ≠ 2
     | .loft _ _ => if rd then sc = 3 else sc = 1 || sc = 3
     | .bad => false
   else if rd then sc = 2 else sc = 2 || sc = 3)

/-- DMA.RD and DMA.WR (R88). -/
def State.dmaCopyBad (s : State) (w : Cmd) (rd : Bool) : Bool :=
  let own := faDevice (dFar w) = s.devId
  let f := s.farKind own (faLocal (dFar w)) (dLines w * 64)
  cmdBits w 111 96 ≠ 0 || dLines w = 0 || spadLines < dLines w || dLocal w % 64 ≠ 0 ||
  spadBytes < dLocal w + 64 * dLines w || !farAligned (faLocal (dFar w)) (dLines w) || f = .bad ||
  !rsigLegal rd own f (dRsig w)

/-- DMA.LCOPY (R88). -/
def State.dmaLcopyBad (s : State) (w : Cmd) : Bool :=
  let own := faDevice (dFar w) = s.devId
  let f := s.farKind own (faLocal (dFar w)) (lcBlocks w * 256)
  cmdBits w 111 96 ≠ 0 || lcBlocks w = 0 || lcSrc w % 256 ≠ 0 || 0x80000000 < lcSrc w + 256 * lcBlocks w ||
  !farAligned (faLocal (dFar w)) 4 || !rsigLegal false own f (dRsig w) ||
  (match f with | .loft _ _ => false | .unimpl => false | _ => true)

/-- DMA.RDS (R88). -/
def dmaRdsBad (w : Cmd) : Bool :=
  let e := 4 * 2 ^ rdsEsize w
  cmdBits w 135 96 ≠ 0 || rdsCount w = 0 || rdsDst w % 64 ≠ 0 ||
  rdsBad (rdsMode w) (rdsEsize w) (rdsStride w) (rdsSrc w) (rdsCount w) ||
  (rdsMode w = 0 && rdsCount w * e % 64 ≠ 0) || spadBytes < rdsDst w + rdsBytes (rdsMode w) e (rdsCount w)

/-- DMA.FILL (R88). -/
def dmaFillBad (w : Cmd) : Bool :=
  cmdBits w 125 96 ≠ 0 || fillLines w = 0 || spadLines < fillLines w || fillDst w % 64 ≠ 0 ||
  spadBytes < fillDst w + 64 * fillLines w

def State.dmaBad (s : State) (w : Cmd) : Bool :=
  match cOp w with
  | 0x601 => s.dmaCopyBad w true
  | 0x602 => s.dmaCopyBad w false
  | 0x603 => s.dmaLcopyBad w
  | 0x604 => dmaRdsBad w
  | 0x605 => dmaFillBad w
  | _ => true

/-! ### Arrays (R97, R102, R113-R116) -/

/-- ARR.LOAD -/
def alSrc (w : Cmd) : Nat := cmdBits w 231 210
def alSsrc (w : Cmd) : Nat := cmdBits w 209 188
def alArray (w : Cmd) : Nat := cmdBits w 187 186
def alBuf (w : Cmd) : Nat := cmdBits w 185 185
def alAfmt (w : Cmd) : Nat := cmdBits w 184 182
def alMode (w : Cmd) : Nat := cmdBits w 181 180
def alPitch (w : Cmd) : Nat := cmdBits w 179 158
def alEpoch (w : Cmd) : Nat := cmdBits w 157 154
def alCheck (w : Cmd) : Bool := cmdBits w 153 153 = 1
/-- MMA -/
def mWaddr (w : Cmd) : Nat := cmdBits w 231 201
def mLoft (w : Cmd) : Bool := cmdBits w 200 200 = 1
def mSaddr (w : Cmd) : Nat := cmdBits w 199 169
def mNf (w : Cmd) : Nat := cmdBits w 168 158
def mAcc (w : Cmd) : Nat := cmdBits w 157 148
def mShape (w : Cmd) : Nat := cmdBits w 147 145
def mArray (w : Cmd) : Nat := cmdBits w 144 143
def mBuf (w : Cmd) : Nat := cmdBits w 142 142
def mWfmt (w : Cmd) : Nat := cmdBits w 141 138
def mAfmt (w : Cmd) : Nat := cmdBits w 137 135
def mAdd (w : Cmd) : Bool := cmdBits w 134 134 = 1
def mEpoch (w : Cmd) : Nat := cmdBits w 133 130
def mCheck (w : Cmd) : Bool := cmdBits w 129 129 = 1
/-- ACC.DRAIN -/
def adDst (w : Cmd) : Nat := cmdBits w 231 210
def adArray (w : Cmd) : Nat := cmdBits w 209 208
def adRow (w : Cmd) : Nat := cmdBits w 207 198
def adRows (w : Cmd) : Nat := cmdBits w 197 187
def adEpoch (w : Cmd) : Nat := cmdBits w 186 183
def adClear (w : Cmd) : Bool := cmdBits w 182 182 = 1

/-- A gang: rows K_g, columns C_g, its arrays in order, and whether they join along the reduction axis first (R97). -/
structure Gang where
  kg : Nat
  cg : Nat
  /-- array that takes gang rows 32q.. and gang columns 32p.. is `arr q p`, listed as (q, p, array) -/
  parts : List (Nat × Nat × Nat)
  deriving DecidableEq, Repr

/-- The shape table (R97); none for a shape or first array that it does not list. -/
def gangOf (shape a : Nat) : Option Gang :=
  match shape with
  | 0 => some ⟨32, 32, [(0, 0, a)]⟩
  | 1 => if a % 2 = 0 then some ⟨64, 32, [(0, 0, a), (1, 0, a + 1)]⟩ else none
  | 2 => if a = 0 then some ⟨128, 32, [(0, 0, 0), (1, 0, 1), (2, 0, 2), (3, 0, 3)]⟩ else none
  | 3 => if a % 2 = 0 then some ⟨32, 64, [(0, 0, a), (0, 1, a + 1)]⟩ else none
  | 4 => if a = 0 then some ⟨32, 128, [(0, 0, 0), (0, 1, 1), (0, 2, 2), (0, 3, 3)]⟩ else none
  | 5 => if a = 0 then some ⟨64, 64, [(0, 0, 0), (1, 0, 1), (0, 1, 2), (1, 1, 3)]⟩ else none
  | _ => none

/-- The accumulator that takes the columns of batch group p: that of the first array of its column (R97). -/
def Gang.accOf (g : Gang) (p : Nat) : Nat :=
  match g.parts.find? (fun x => x.1 = 0 && x.2.1 = p) with
  | some x => x.2.2
  | none => 0

def Gang.arrays (g : Gang) : List Nat := g.parts.map (fun x => x.2.2)

/-- A weight format: record bits, scales, output features per two... R102. -/
structure WFmt where
  bitsPer : Nat
  mx : Bool
  fp : Option Fmt
  /-- features that enter in one step, and steps of one feature -/
  perStep : Nat
  steps : Nat
  deriving DecidableEq, Repr

def wfmtOf (n : Nat) : Option WFmt :=
  match n with
  | 0 => some ⟨4, false, some fp4, 2, 1⟩
  | 1 => some ⟨4, true, some fp4, 2, 1⟩
  | 2 => some ⟨6, true, some fp6e2, 1, 1⟩
  | 3 => some ⟨6, true, some fp6e3, 1, 1⟩
  | 4 => some ⟨8, false, some fp8e4, 1, 1⟩
  | 5 => some ⟨8, false, some fp8e5, 1, 1⟩
  | 6 => some ⟨8, true, some fp8e4, 1, 1⟩
  | 7 => some ⟨8, true, some fp8e5, 1, 1⟩
  | 8 => some ⟨16, false, some bf16, 1, 4⟩
  | 9 => some ⟨16, false, some fp16, 1, 4⟩
  | 10 => some ⟨8, false, none, 1, 1⟩
  | 11 => some ⟨4, false, none, 2, 1⟩
  | _ => none

/-- The legal pairs of R102. -/
def afmtLegal (wf af : Nat) : Bool :=
  if wf ≤ 7 then af ≤ 3 else if wf = 8 then af = 4 else if wf = 9 then af = 5 else if wf ≤ 11 then af = 6 else false

/-- T of R104. -/
def mmaSteps (f : WFmt) (n : Nat) : Nat := (n + f.perStep - 1) / f.perStep * f.steps

def recBytes (f : WFmt) (kg : Nat) : Nat := kg * f.bitsPer / 8
def scaleBytes (f : WFmt) (kg : Nat) : Nat := if f.mx then kg / 32 else 0

/-- Bytes per beat (R104): (rb + scales) × f, where f is 2, 1 or a quarter. -/
def mmaBytes4 (f : WFmt) (kg : Nat) : Nat := (recBytes f kg + scaleBytes f kg) * (4 * f.perStep / f.steps)

/-- MMA (R115). -/
def mmaBad (w : Cmd) : Bool :=
  match gangOf (mShape w) (mArray w), wfmtOf (mWfmt w) with
  | some g, some f =>
    let al := if mLoft w then 256 else 64
    let top := if mLoft w then 0x80000000 else spadBytes
    cmdBits w 128 96 ≠ 0 || !afmtLegal (mWfmt w) (mAfmt w) || mNf w = 0 || 1024 < mNf w || 1024 < mAcc w + mNf w ||
    mWaddr w % al ≠ 0 || top < mWaddr w + mNf w * recBytes f g.kg ||
    (f.mx && (mSaddr w % al ≠ 0 || top < mSaddr w + mNf w * scaleBytes f g.kg)) ||
    (mLoft w && 512 < mmaBytes4 f g.kg)
  | _, _ => true

/-- Bytes of a tile (R102). -/
def tileBytes (af : Nat) : Nat := if af = 4 ∨ af = 5 then 2048 else 1024

/-- Source bytes of the tile of an ARR.LOAD, in buffer order (R114). -/
def tileSources (w : Cmd) : List Nat :=
  if alMode w = 0 then (List.range (tileBytes (alAfmt w))).map (fun o => alSrc w + o)
  else (List.range 1024).map (fun o => rdsSource 1 0 (alPitch w) (alSrc w) o)

/-- ARR.LOAD (R114). -/
def arrLoadBad (w : Cmd) : Bool :=
  let mxa := alAfmt w = 2 || alAfmt w = 3
  cmdBits w 152 96 ≠ 0 || alAfmt w = 7 || 2 ≤ alMode w ||
  (if alMode w = 0 then alSrc w % 64 ≠ 0 || spadBytes < alSrc w + tileBytes (alAfmt w)
   else alAfmt w = 4 || alAfmt w = 5 || rdsBad 1 0 (alPitch w) (alSrc w) 1) ||
  (mxa && (alSsrc w % 32 ≠ 0 || spadBytes < alSsrc w + 32))

/-- ACC.DRAIN (R116). -/
def accDrainBad (w : Cmd) : Bool :=
  cmdBits w 181 96 ≠ 0 || adRows w = 0 || 1024 < adRows w || 1024 < adRow w + adRows w || adDst w % 64 ≠ 0 ||
  spadBytes < adDst w + 128 * adRows w

def arrBad (w : Cmd) : Bool :=
  match cOp w with
  | 0x201 => arrLoadBad w
  | 0x202 => mmaBad w
  | 0x203 => accDrainBad w
  | _ => true

/-! ### Vector engine (R123, R124, R128, R129) -/

def vVd (w : Cmd) : Nat := cmdBits w 231 227
def vS1 (w : Cmd) : Nat := cmdBits w 226 222
def vS2 (w : Cmd) : Nat := cmdBits w 221 217
def vS3 (w : Cmd) : Nat := cmdBits w 216 212
def vMask (w : Cmd) : Nat := cmdBits w 211 209
def vMinv (w : Cmd) : Bool := cmdBits w 208 208 = 1
def vReps (w : Cmd) : Nat := cmdBits w 207 203 + 1
def vHold (w : Cmd) : Nat := cmdBits w 202 200
def vImmf (w : Cmd) : Bool := cmdBits w 199 199 = 1
def vImm (w : Cmd) : Nat := cmdBits w 198 167
def vFmt (w : Cmd) : Nat := cmdBits w 166 163
def vSub (w : Cmd) : Nat := cmdBits w 162 160
/-- Loads and stores -/
def lAddr (w : Cmd) : Nat := cmdBits w 198 177
def lEpoch (w : Cmd) : Nat := cmdBits w 176 173
def lCheck (w : Cmd) : Bool := cmdBits w 172 172 = 1
def lMode (w : Cmd) : Nat := cmdBits w 171 170
def lEsize (w : Cmd) : Nat := cmdBits w 169 167
def lStride (w : Cmd) : Nat := cmdBits w 166 145

/-- How an operation uses an operand field. -/
inductive Use where
  | no | reg | mask
  deriving DecidableEq, Repr

/-- A row of the operation table (R129): the fields it uses, whether IMMF is permitted, slot length and latency. -/
structure VRow where
  d : Use
  s1 : Use
  s2 : Use
  s3 : Use
  imm : Bool
  c : Nat
  lat : Nat
  deriving DecidableEq, Repr

/-- The number of parts of a packed format (R134). -/
def cvtParts (f : Nat) : Nat :=
  match f with
  | 0 => 2 | 1 => 2 | 2 => 4 | 3 => 4 | 4 => 8 | 5 => 5 | 6 => 5 | 7 => 4 | 8 => 8 | 9 => 4 | 10 => 4 | 11 => 8
  | 12 => 5 | 13 => 5 | _ => 0

def cvtMx (f : Nat) : Bool := 9 ≤ f && f ≤ 13

/-- The operation table, but for loads and stores (R129). -/
def vrow (op fmt : Nat) : Option VRow :=
  if 0x410 ≤ op ∧ op ≤ 0x412 then some ⟨.reg, .reg, .reg, .no, true, 1, 3⟩
  else if op = 0x413 then some ⟨.reg, .reg, .reg, .reg, true, 1, 4⟩
  else if op = 0x414 ∨ op = 0x415 then some ⟨.reg, .reg, .reg, .no, true, 1, 3⟩
  else if op = 0x416 ∨ op = 0x417 then some ⟨.reg, .reg, .no, .no, false, 1, 3⟩
  else if op = 0x418 then some ⟨.reg, .reg, .reg, .no, true, 2, 10⟩
  else if 0x419 ≤ op ∧ op ≤ 0x41B then some ⟨.reg, .reg, .no, .no, false, 2, 10⟩
  else if op = 0x420 ∨ op = 0x421 ∨ op = 0x424 then some ⟨.reg, .reg, .no, .no, false, 2, 12⟩
  else if op = 0x422 ∨ op = 0x423 then some ⟨.reg, .reg, .no, .no, false, 4, 20⟩
  else if 0x430 ≤ op ∧ op ≤ 0x43B then some ⟨.reg, .reg, .reg, .no, true, 1, 3⟩
  else if 0x43C ≤ op ∧ op ≤ 0x43F then some ⟨.reg, .reg, .reg, .no, true, 2, 10⟩
  else if op = 0x440 ∨ op = 0x441 then some ⟨.mask, .reg, .reg, .no, true, 1, 3⟩
  else if op = 0x442 then some ⟨.mask, .mask, .mask, .no, true, 1, 2⟩
  else if op = 0x450 then some ⟨.reg, .reg, .reg, .no, true, 1, 3⟩
  else if op = 0x451 then some ⟨.reg, .reg, .no, .no, true, 1, 3⟩
  else if op = 0x452 then some ⟨.reg, .reg, .reg, .no, false, 1, 3⟩
  else if op = 0x453 then some ⟨.reg, .no, .no, .no, false, 1, 3⟩
  else if op = 0x460 then some ⟨.reg, .reg, .no, if cvtMx fmt then .reg else .no, false, 1, if cvtMx fmt then 6 else 4⟩
  else if op = 0x461 then some ⟨.reg, .reg, if cvtMx fmt then .reg else .no, .no, false, 1, 4⟩
  else if op = 0x462 ∨ op = 0x463 then some ⟨.reg, .reg, .no, .no, false, 1, 3⟩
  else if 0x470 ≤ op ∧ op ≤ 0x472 then some ⟨.reg, .reg, .no, .no, false, 1, 9⟩
  else if op = 0x473 then some ⟨.reg, .reg, .no, .no, false, 1, 10⟩
  else if op = 0x474 then some ⟨.reg, .reg, .no, .no, false, 4, 12⟩
  else if op = 0x475 then some ⟨.reg, .reg, .reg, .reg, false, 16, 20⟩
  else none

/-- Does the operand that IMM replaces (VS2, or VS1 for VMOV) drop out (R123)? MLOGIC's range form drops both. -/
def VRow.s1Used (r : VRow) (op : Nat) (immf : Bool) : Use :=
  if immf ∧ (op = 0x451 ∨ op = 0x442) then .no else r.s1
def VRow.s2Used (r : VRow) (op : Nat) (immf : Bool) : Use := if immf ∧ op ≠ 0x451 then .no else r.s2

/-- A register or mask field with its repetitions stays in the file; an unused one is zero (R123, R124). -/
def useBad (u : Use) (f n : Nat) (adv : Bool) : Bool :=
  let last := if adv then f + n - 1 else f
  match u with
  | .no => f ≠ 0
  | .reg => 31 < last
  | .mask => 7 < f || 7 < last

/-- FMT and SUB of an operation (R124, R131, R132, R134, R138-R140). -/
def fmtSubBad (op fmt sub n : Nat) : Bool :=
  if op = 0x440 ∨ op = 0x441 then fmt ≠ 0 || 5 < sub
  else if op = 0x442 then fmt ≠ 0 || 4 < sub
  else if op = 0x460 ∨ op = 0x461 then 13 < fmt || cvtParts fmt < sub + n
  else if op = 0x474 then 2 < fmt || 1 < sub
  else if op = 0x475 then fmt ≠ 0 || 1 < sub
  else fmt ≠ 0 || sub ≠ 0

/-- Operations whose REPM1 must be 0 (R137-R140). -/
def oneRep (op : Nat) : Bool := op = 0x473 || op = 0x474 || op = 0x475 || op = 0x442

/-- Operations other than loads and stores (R123-R125, R134-R140). A HOLD bit is legal for a source that the operation reads as a
register; whether the mask sources of MLOGIC are such is not said: the model takes them for it (DESIGN CHOICE, log entry
68). -/
def vecOpBad (w : Cmd) : Bool :=
  let op := cOp w
  let n := vReps w
  match vrow op (vFmt w) with
  | none => true
  | some r =>
    let u1 := r.s1Used op (vImmf w)
    let u2 := r.s2Used op (vImmf w)
    let h := vHold w
    cmdBits w 159 96 ≠ 0 || (vImmf w && !r.imm) || (!vImmf w && vImm w ≠ 0) ||
    fmtSubBad op (vFmt w) (vSub w) n || (oneRep op && n ≠ 1) ||
    useBad r.d (vVd w) n (op ≠ 0x460) || useBad u1 (vS1 w) n (!bit h 2 && op ≠ 0x461) ||
    useBad u2 (vS2 w) n (!bit h 1 && op ≠ 0x461) || useBad r.s3 (vS3 w) n (!bit h 0 && op ≠ 0x460) ||
    (bit h 2 && u1 = .no) || (bit h 1 && u2 = .no) || (bit h 0 && (r.s3 = .no || op = 0x460)) ||
    (op = 0x460 && h ≠ 0) ||
    (op = 0x442 && (if vSub w = 4 then !vImmf w || bits (vImm w) 31 14 ≠ 0 || bits (vImm w) 7 6 ≠ 0 else vImmf w)) ||
    ((op = 0x442 || op = 0x474 || op = 0x475) && (vMask w ≠ 0 || vMinv w)) ||
    (op = 0x473 && 30 < vVd w) ||
    (op = 0x474 && (vS1 w % 4 ≠ 0 || (vSub w = 1 && vVd w % 4 ≠ 0))) ||
    (op = 0x475 && (vS1 w % 4 ≠ 0 || vS2 w % 4 ≠ 0 || vVd w % 4 ≠ 0))

/-- Source bytes of register k of a VLDS (R128). -/
def vldsSources (w : Cmd) (k : Nat) : List Nat :=
  (List.range 256).map (fun b => rdsSource (lMode w) (4 * 2 ^ lEsize w) (lStride w) (lAddr w) (256 * k + b))

/-- Loads and stores (R128). -/
def vecMemBad (w : Cmd) : Bool :=
  let n := vReps w
  let op := cOp w
  cmdBits w 226 212 ≠ 0 || cmdBits w 202 199 ≠ 0 || cmdBits w 144 96 ≠ 0 || lAddr w % 64 ≠ 0 || 32 < vVd w + n ||
  (if op = 0x403 then
     let e := 4 * 2 ^ lEsize w
     lMode w = 3 ||
     (if lMode w = 0 then 4 < lEsize w || lAddr w % e ≠ 0 || lStride w % e ≠ 0
      else lAddr w % 32 ≠ 0 || lStride w % 32 ≠ 0 || lStride w < 32) ||
     ((List.range n).flatMap (vldsSources w)).any (fun a => spadBytes ≤ a)
   else lMode w ≠ 0 || lEsize w ≠ 0 || lStride w ≠ 0 || spadBytes < lAddr w + 256 * n || (op = 0x402 && lCheck w))

def vecBad (w : Cmd) : Bool :=
  if 0x401 ≤ cOp w ∧ cOp w ≤ 0x403 then vecMemBad w else vecOpBad w

/-! ### Network (R205-R208) -/

def nsSrc (w : Cmd) : Nat := cmdBits w 231 210
def nsLines (w : Cmd) : Nat := cmdBits w 209 194
def nsSlot (w : Cmd) : Nat := cmdBits w 193 186
def nsBmask (w : Cmd) : Nat := cmdBits w 185 162
def nsSmask (w : Cmd) : Nat := cmdBits w 161 114
def nsEpochW (w : Cmd) : Nat := cmdBits w 113 110
def nsEpochR (w : Cmd) : Nat := cmdBits w 109 106
def nsCheck (w : Cmd) : Bool := cmdBits w 105 105 = 1
def nsLast (w : Cmd) : Bool := cmdBits w 104 104 = 1
/-- NET.SLOT -/
def slSlot (w : Cmd) : Nat := cmdBits w 231 224
def slBase (w : Cmd) : Nat := cmdBits w 223 202
def slRing (w : Cmd) : Nat := cmdBits w 201 186
def slPtr (w : Cmd) : Nat := cmdBits w 185 170
def slSigsel (w : Cmd) : Nat := cmdBits w 169 154
def slSiginc (w : Cmd) : Nat := cmdBits w 153 146
def slValid (w : Cmd) : Bool := cmdBits w 145 145 = 1
/-- NET.SIG -/
def sgIdx (w : Cmd) : Nat := cmdBits w 231 221
def sgInc (w : Cmd) : Nat := cmdBits w 220 213
def sgBmask (w : Cmd) : Nat := cmdBits w 212 189

/-- The stall count that SMASK is held against: the job's STALLS (R206). -/
def State.netBad (s : State) (b : Nat) (w : Cmd) : Bool :=
  match cOp w with
  | 0x801 =>
    cmdBits w 103 96 ≠ 0 || nsLines w = 0 || spadLines < nsLines w || nsSrc w % 64 ≠ 0 ||
    spadBytes < nsSrc w + 64 * nsLines w || nsBmask w = 0 || nsSmask w = 0 || 2 ^ s.stallCount b ≤ nsSmask w
  | 0x802 =>
    cmdBits w 144 96 ≠ 0 || slBase w % 64 ≠ 0 || spadBytes < slBase w + 64 * slRing w || slRing w = 0 ||
    spadLines < slRing w || slRing w ≤ slPtr w || bits (slSigsel w) 15 14 = 2 || !selLegal (slSigsel w)
  | 0x803 => cmdBits w 188 96 ≠ 0 || sgBmask w = 0
  | _ => true

/-- The barns that a network command names (R205). -/
def netBarns (w : Cmd) : List Nat :=
  match cOp w with
  | 0x801 => onesOf 24 (nsBmask w)
  | 0x803 => onesOf 24 (sgBmask w)
  | _ => []

/-! ### Lofts (R177-R182) -/

/-- LFT.VEC -/
def lvSrc (w : Cmd) : Nat := cmdBits w 231 210
def lvN (w : Cmd) : Nat := cmdBits w 209 207 + 1
def lvFirst (w : Cmd) : Nat := cmdBits w 206 204
def lvLmask (w : Cmd) : Nat := cmdBits w 203 188
def lvBmask (w : Cmd) : Nat := cmdBits w 187 172
def lvEpoch (w : Cmd) : Nat := cmdBits w 171 168
def lvCheck (w : Cmd) : Bool := cmdBits w 167 167 = 1
/-- LFT.MV -/
def mvWaddr (w : Cmd) : Nat := cmdBits w 231 217
def mvRows (w : Cmd) : Nat := cmdBits w 216 205
def mvLmask (w : Cmd) : Nat := cmdBits w 204 189
def mvBmask (w : Cmd) : Nat := cmdBits w 188 173
def mvG (w : Cmd) : Nat := 2 ^ cmdBits w 172 171
def mvRing0 (w : Cmd) : Nat := cmdBits w 170 168
def mvWfmt (w : Cmd) : Nat := cmdBits w 167 164
def mvAfmt (w : Cmd) : Fmt := if cmdBits w 163 163 = 0 then fp8e4 else fp8e5
def mvSx (w : Cmd) : Nat := cmdBits w 162 159
def mvSblk (w : Cmd) : Nat := cmdBits w 158 144
def mvAcc (w : Cmd) : Bool := cmdBits w 143 143 = 1
def mvEmit (w : Cmd) : Bool := cmdBits w 142 142 = 1
def mvDst (w : Cmd) : Nat := cmdBits w 141 120
def mvEpoch (w : Cmd) : Nat := cmdBits w 119 116
/-- LFT.PWR -/
def lpLmask (w : Cmd) : Nat := cmdBits w 231 216
def lpBmask (w : Cmd) : Nat := cmdBits w 215 200
def lpOn (w : Cmd) : Bool := cmdBits w 199 199 = 1

/-- The banks of a set, as 16 × layer + bank, in order of ordinal (R177). -/
def bankSet (lm bm : Nat) : List Nat := (onesOf 16 lm).flatMap (fun l => (onesOf 16 bm).map (fun k => 16 * l + k))

/-- Rows that one scale block serves (R172); 0 for a format without scales. -/
def mvPerScale (wf : Nat) : Nat := if wf = 1 then 16 else if wf = 6 ∨ wf = 7 then 32 else 0

/-- LFT.MV (R180). -/
def lftMvBad (w : Cmd) : Bool :=
  let set := bankSet (mvLmask w) (mvBmask w)
  let wf := mvWfmt w
  let per := mvPerScale wf
  let r := mvRows w
  cmdBits w 115 96 ≠ 0 || set.isEmpty || r = 0 || 64 < set.length ||
  !(wf = 0 || wf = 1 || wf = 4 || wf = 5 || wf = 6 || wf = 7) ||
  ((mvSx w = 0) != (per = 0)) ||
  (mvSx w ≠ 0 && (onesOf 16 (mvLmask w)).any (fun l => bit (mvLmask w) (l ^^^ mvSx w))) ||
  32767 < mvWaddr w + r - 1 || (per ≠ 0 && 32767 < mvSblk w + (r - 1) / per) ||
  (if mvEmit w then mvDst w % 64 ≠ 0 || spadBytes < mvDst w + 2048 * set.length
   else mvDst w ≠ 0 || mvEpoch w ≠ 0)

def lftBad (w : Cmd) : Bool :=
  match cOp w with
  | 0xA01 =>
    cmdBits w 166 96 ≠ 0 || (bankSet (lvLmask w) (lvBmask w)).isEmpty || lvSrc w % 64 ≠ 0 ||
    spadBytes < lvSrc w + 512 * lvN w
  | 0xA02 => lftMvBad w
  | 0xA03 => cmdBits w 198 96 ≠ 0 || (bankSet (lpLmask w) (lpBmask w)).isEmpty
  | _ => true

/-- The operand fields break a rule of the command's engine (R65). -/
def State.operandIllegal (s : State) (b : Nat) (w : Cmd) : Bool :=
  match cmdBits w 11 9 with
  | 1 => arrBad w
  | 2 => vecBad w
  | 3 => s.dmaBad w
  | 4 => s.netBad b w
  | 5 => lftBad w
  | _ => true

end Sys2Proof.Machine
end

