-- ==== Sys2Proof/Machine/Issue.lean ====
section
/-! DEFINITION. When the engines issue: what each accepts, waits and consuming waits, the issue of a command, and its
completion (R67, R69, R70, R78, R86, R118, R126, R176, R183, R209). -/

namespace Sys2Proof.Machine

/-! ### What each engine accepts (R67) -/

structure MmaTime where
  d : Nat
  l : Nat
  t : Nat
  deriving DecidableEq, Repr

def mmaGang (w : Cmd) : Gang := (gangOf (mShape w) (mArray w)).getD ⟨32, 32, []⟩
def mmaFmt (w : Cmd) : WFmt := (wfmtOf (mWfmt w)).getD ⟨8, false, none, 1, 1⟩

def mmaTime (w : Cmd) : MmaTime :=
  ⟨if mLoft w then 24 else 0, (mmaGang w).kg + (mmaGang w).cg, mmaSteps (mmaFmt w) (mNf w)⟩

def Flight.isOp (f : Flight) (op : Nat) : Bool := f.eng = 1 && cOp f.w = op && f.chan ≠ 0xFF

/-- A pass holds its buffer through beat i + D + L (R118). -/
def Flight.holdsBuf (f : Flight) (now arr buf : Nat) : Bool :=
  f.isOp 0x202 && now ≤ f.iss + (mmaTime f.w).d + (mmaTime f.w).l && mBuf f.w = buf && (mmaGang f.w).arrays.contains arr

/-- A load of a buffer is still running. -/
def Flight.loads (f : Flight) (now arr buf : Nat) : Bool :=
  f.isOp 0x201 && now ≤ f.done && alArray f.w = arr && alBuf f.w = buf

/-- The array engine accepts the command (R118). -/
def State.arrAccepts (s : State) (b k : Nat) (w : Cmd) : Bool :=
  let fs := (s.stall (48 * b + k)).flights
  let now := s.beat b
  match cOp w with
  | 0x201 => fs.all (fun f => !f.holdsBuf now (alArray w) (alBuf w) && !f.loads now (alArray w) (alBuf w))
  | 0x202 =>
    let arrs := (mmaGang w).arrays
    let d := (mmaTime w).d
    fs.all (fun f =>
      !arrs.any (fun x => f.loads now x (mBuf w)) &&
      (!(f.isOp 0x202 && arrs.any (mmaGang f.w).arrays.contains) ||
        (f.iss + (mmaTime f.w).d + (mmaTime f.w).t < now + d + 1 &&
         (f.done < now || (mShape f.w = mShape w && mArray f.w = mArray w)))))
  | _ => fs.all (fun f => !(f.isOp 0x203 && now ≤ f.done))

/-- The lowest-numbered channel that is free (R86). -/
def State.dmaChan (s : State) (b k : Nat) : Option Nat :=
  let fs := (s.stall (48 * b + k)).flying 3
  firstBelow 4 (fun c => !fs.any (fun f => f.chan = c && s.beat b ≤ f.done))

/-- Lines moved in each beat (R206). -/
def nsRate (b : Nat) (w : Cmd) : Nat := if nsBmask w = 2 ^ b then 2 else 1
def nsBeats (b : Nat) (w : Cmd) : Nat := (nsLines w + nsRate b w - 1) / nsRate b w

/-- A send channel that is free (R209). -/
def State.sendChan (s : State) (b k : Nat) : Option Nat :=
  let fs := (s.stall (48 * b + k)).flying 4
  firstBelow 2 (fun c => !fs.any (fun f =>
    cOp f.w = 0x801 && f.chan = c && s.beat b ≤ f.iss + nsBeats b f.w))

def mvSet (w : Cmd) : List Nat := bankSet (mvLmask w) (mvBmask w)

/-- The loft commands of a barn in flight. -/
def State.loftFlights (s : State) (b : Nat) : List Flight :=
  (List.range 48).flatMap (fun k => (s.stall (48 * b + k)).flying 5)

/-- The engines held now: from the issue of an LFT.MV through its completion beat (R176). -/
def State.heldEngines (s : State) (b : Nat) : List Nat :=
  (s.loftFlights b).flatMap (fun f => if cOp f.w = 0xA02 ∧ f.chan ≠ 0xFF ∧ s.beat b ≤ f.done then mvSet f.w else [])

/-- Banks named by an LFT.PWR still in progress. -/
def State.pwrBanks (s : State) (b : Nat) : List Nat :=
  (s.loftFlights b).flatMap (fun f =>
    if cOp f.w = 0xA03 ∧ f.chan ≠ 0xFF ∧ (s.beat b ≤ f.done ∨ f.waits ≠ []) then bankSet (lpLmask f.w) (lpBmask f.w) else [])

/-- The loft engine accepts the command (R176, R183): the engines and banks it names are free. -/
def State.lftAccepts (s : State) (b : Nat) (w : Cmd) : Bool :=
  let h := s.heldEngines b
  match cOp w with
  | 0xA02 => (mvSet w).all (fun e => !h.contains e) && h.length + (mvSet w).length ≤ 64
  | 0xA03 => (bankSet (lpLmask w) (lpBmask w)).all (fun e => !(h ++ s.pwrBanks b).contains e)
  | _ => true

/-- Engine `e` can accept a command in this beat (R67); a null command always (R65). -/
def State.canAccept (s : State) (b k e : Nat) (q : QCmd) : Bool :=
  q.null ||
  (match e with
   | 1 => s.arrAccepts b k q.w
   | 2 => (s.stall (48 * b + k)).vecFree ≤ s.beat b
   | 3 => (s.dmaChan b k).isSome
   | 4 => cOp q.w ≠ 0x801 || (s.sendChan b k).isSome
   | _ => s.lftAccepts b q.w)

/-! ### Heads and waits (R67, R69, R70) -/

/-- The job issues commands in the barn's region: it is running, its beat 0 has come, and the region does not stand past the
job's stopping beat (R29, R30). -/
def State.jobGoes (s : State) (b j : Nat) : Bool :=
  s.jobBegun j b &&
  (match (s.job j).stop with
   | some p => s.jobBeatRaw j b < p
   | none => true)

/-- The head of an engine's queue and the owning job, when its issue beat has come and the engine has issued nothing in this
beat yet (R67). -/
def State.headDue (s : State) (b k e : Nat) : Option (Nat × QCmd) :=
  match (s.barn b).owner with
  | none => none
  | some j =>
    if s.jobGoes b j && decide (Tab.get zeroNat (s.stall (48 * b + k)).lastIss e ≤ s.beat b) then
      match (s.stall (48 * b + k)).queue e with
      | q :: _ => if q.issue ≤ s.jobBeatAt j b then some (j, q) else none
      | [] => none
    else none

/-- That head in a region that neither holds nor waits for a neighbour: it may issue (R27). -/
def State.headAt (s : State) (b k e : Nat) : Option (Nat × QCmd) :=
  if s.held b || (s.region b).skew then none else s.headDue b k e

/-- The command consumes what it waits for (R63, R65). -/
def QCmd.consumes (q : QCmd) : Bool := cConsume q.w && !q.null

/-- The engines of a barn whose waits come before those of engine `e` of stall `k`: in order of logical stall, then array,
vector, DMA, network, loft (R70). -/
def waitsBefore (k e : Nat) : List (Nat × Nat) :=
  (List.range (k + 1)).flatMap (fun k' => (([1, 2, 3, 4, 5] : List Nat).filter (fun e' => k' < k || e' < e)).map (fun e' => (k', e')))

/-- What a consuming wait finds of a counter: the value that the last period left, less what waits of this beat have consumed
and what those before it in the order of R70 are still to consume. -/
def State.ctrLeft (s : State) (b k e key : Nat) : Nat :=
  (waitsBefore k e).foldl (fun v x =>
    match s.headDue b x.1 x.2 with
    | some (_, q) =>
      if q.consumes && selKey b x.1 (cWaitSel q.w) = some key && decide (cThresh q.w ≤ v) && s.canAccept b x.1 x.2 q then
        v - cThresh q.w
      else v
    | none => v) ((s.ctr key).prev - (s.ctr key).consumes.sum)

/-- The wait of a command at the head of a queue is satisfied, by the values that the last period left (R69, R70). -/
def State.waitOk (s : State) (b k e : Nat) (q : QCmd) : Bool :=
  match selKey b k (cWaitSel q.w) with
  | none => true
  | some key => cThresh q.w ≤ (if q.consumes then s.ctrLeft b k e key else (s.ctr key).prev)

/-! ### Issue -/

/-- Larkspur's ISSUE source watches one stall (R433). -/
def State.traceIssue (s : State) (b k j : Nat) (w : Cmd) : State :=
  if s.fget F.TCK_LSP_SEL_BARN = b ∧ s.fget F.TCK_LSP_SEL_STALL = k then s.trace 1 b (some j) w.toNat else s

/-- The head issues (R64, R67, R69, R70): it leaves the queue, a late one raises STL_ISSUE_LATE, a consuming wait
subtracts, and SIG_ISSUE applies the signal. -/
def State.issueHead (s0 : State) (b k e j : Nat) (q : QCmd) : State :=
  let s := s0.traceIssue b k j q.w
  let i := 48 * b + k
  let s1 := s.updStall i (fun t =>
    { (t.settleAt (s.beat b)).setQueue e ((t.queue e).drop 1) with
      lastIss := Tab.set zeroNat t.lastIss e (s.beat b + 1) })
  let s2 := match selKey b k (cWaitSel q.w) with
    | some key =>
      if q.consumes then
        s1.updCtr key (fun c => { c with consumes := c.consumes ++ [cThresh q.w] })
      else s1
    | none => s1
  let s3 := if cSigIssue q.w then
      (match selKey b k (cSigSel q.w) with
       | some key => s2.signal key (cSigInc q.w)
       | none => s2)
    else s2
  if q.issue < s.jobBeatAt j b ∧ q.late = false then s3.stlErr b k 0x0203 0 else s3

/-- The place of a command in the order of issue (R78, R158, R194): issue beat, barn, logical stall, channel; the engine tells
apart what these do not order. -/
def ordKey (iss b k chan e : Nat) : Nat := (((iss * 32 + b) * 64 + k) * 8 + min chan 7) * 8 + e

/-- The engine of a command (R63). -/
def cEng (w : Cmd) : Nat := cmdBits w 11 9

/-- The command is in flight until the device beat `done`; then it applies its signal (R69). -/
def State.inFlight (s : State) (b k e : Nat) (w : Cmd) (chan done : Nat) (far : Option (Nat × Nat))
    (waits : List Nat) : State :=
  s.updStall (48 * b + k) (fun t =>
    { t with flights := t.flights ++
        [{ eng := e, chan := chan, iss := s.beat b, done := done, far := far, waits := waits, w := w
           sel := if cSigIssue w then 0xC000 else cSigSel w
           inc := cSigInc w
           ord := ordKey (s.beat b) b k chan e }] })

/-- The first piece of work of a command that issues now. -/
def State.actNow (s : State) (b k j chan : Nat) (w : Cmd) (ecc : List EccHit) : Act :=
  { reg := b, beat := s.beat b, rank := 9, ord := ordKey (s.beat b) b k chan (cEng w), job := j, stall := 48 * b + k
    chan := chan, iss := s.beat b, w := w, ecc := ecc, moves := [], m := .slotSet }

/-- Issue the command at the head of engine `e` if it is one that `isOp` picks out and the engine can accept it; `body`
carries out its effect on a state from which the command has left the queue. A wait that is not satisfied holds the
region with cause 3 or 4 (R67). A command that the engine cannot accept in its issue beat causes no hold, whether or not its
wait is satisfied: R67 asks for the hold in the later beats in which the engine can accept it, and names none in this one
(DESIGN CHOICE, log entry 38). -/
def State.issue (s : State) (b k e : Nat) (isOp : QCmd → Bool) (body : State → Nat → Cmd → State) : State :=
  match s.headAt b k e with
  | none => s
  | some (j, q) =>
    if !isOp q then s
    else if !s.canAccept b k e q then s
    else if s.waitOk b k e q then body (s.issueHead b k e j q) j q.w
    else s.addCause b (if bits (cWaitSel q.w) 15 14 = 2 then 4 else 3) (some j) (48 * b + k) e 0

/-- Bit tests for the rows: the command is not a null command and has this opcode. -/
def isOpcode (n : Nat) (q : QCmd) : Bool := !q.null && cOp q.w = n

/-! ### Completion (R69) -/

/-- The flight of an engine that completes first. -/
def firstDone (now : Nat) : List Flight → Option Flight → Option Flight
  | [], best => best
  | f :: fs, best =>
    if f.done ≤ now ∧ f.waits = [] ∧ f.gone = false then
      match best with
      | none => firstDone now fs (some f)
      | some g => firstDone now fs (some (if f.done < g.done then f else g))
    else firstDone now fs best

/-- What an engine counts when a command completes (R95, R121, R152). -/
def State.countDone (s : State) (b k : Nat) (f : Flight) : State :=
  match f.eng with
  | 1 =>
    if cOp f.w = 0x201 then s.fwrap (F.ARR_COUNT_LOADS b k) 1
    else if cOp f.w = 0x202 then s.fwrap (F.ARR_COUNT_PASSES b k) 1 else s
  | 2 => s.fwrap (F.VEC_COUNT_COMMANDS b k) 1
  | 3 => s.fwrap (F.SPD_DMA_COMPLETED b k) 1
  | _ => s

/-- A command completes: it applies its signal, and a DMA command its far-end signal (R90); it keeps its engine to the end of
the beat, whose work it still does (R86, R117, R118). Null commands are complete at once and counted by no engine. -/
def State.complete (s : State) (b k e : Nat) : State :=
  let i := 48 * b + k
  match firstDone (s.beat b) ((s.stall i).flying e) none with
  | none => s
  | some f =>
    let s1 := s.updStall i (fun t =>
      { (t.settleAt (s.beat b)) with flights := t.flights.map (fun g => if g = f then { g with gone := true } else g) })
    let s2 := match selKey b k f.sel with
      | some key => s1.signal key f.inc
      | none => s1
    let s3 := match f.far with
      | some (key, inc) => s2.signal key inc
      | none => s2
    if f.chan = 0xFF then s3 else s3.countDone b k f

end Sys2Proof.Machine
end

