-- ==== Sys2Proof/Machine/LoftOps.lean ====
section
/-! DEFINITION. Lofts: blocks and banks, refresh slots, scheduled accesses and their conflicts, reads with repair,
writes with entry and drain, granule classes, the stall bond port (R153-R171, R176). -/

namespace Sys2Proof.Machine

/-- Blocks of a loft are numbered offset / 256 = 32768 × bank + block (R12). -/
def blkBank (blk : Nat) : Nat := blk / 32768 % 256

/-- Is bank cycle `c` the refresh slot of bank 16 l + k (R155)? -/
def refreshSlot (bank c : Nat) : Bool := c % 64 = (4 * (bank % 16) + bank / 16) % 64

def State.bank (s : State) (n bank : Nat) : BankSt := Tab.get BankSt.zeroF (s.loft n).banks bank
def State.updBank (s : State) (n bank : Nat) (f : BankSt → BankSt) : State :=
  s.updLoft n (fun l => { l with banks := Tab.upd BankSt.zeroF l.banks bank f })
def Loft.engine (l : Loft) (e : Nat) : EngSt := Tab.get EngSt.zeroF l.eng e
def Loft.updEng (l : Loft) (e : Nat) (f : EngSt → EngSt) : Loft := { l with eng := Tab.upd EngSt.zeroF l.eng e f }

/-- What a block that nothing has written reads as: zero, poisoned in a bank that has woken (R162). -/
def Loft.dflt (l : Loft) : Nat → BlockVal := fun b => ⟨0, (Tab.get BankSt.zeroF l.banks (blkBank b)).woken⟩
def Loft.block (l : Loft) (blk : Nat) : BlockVal := Tab.get l.dflt l.blocks blk
def Loft.setBlock (l : Loft) (blk : Nat) (v : BlockVal) : Loft := { l with blocks := Tab.set l.dflt l.blocks blk v }

/-- The identity of a block of the device: 2^23 × loft + block. -/
def srcId (n blk : Nat) : Nat := n * 0x800000 + blk

/-! ### Errors (R188) -/

/-- LFT_ERRADDR keeps the first LFT_ error since its VALID was cleared (R187). -/
def State.loftFirst (s : State) (n code blk : Nat) : State :=
  if s.fbit (F.LFT_ERRADDR_VALID n) then s
  else ((s.fset (F.LFT_ERRADDR_VALID n) 1).fset (F.LFT_ERRADDR_NN n) (code % 256)).fset (F.LFT_ERRADDR_OFFSET n) (blk * 256)

/-- An LFT_ error of a block: its count, the first error's address, the record (R187, R188). -/
def State.loftErr (s : State) (n code blk : Nat) (job : Option Nat) (cnt : Option Fld) (tag : Nat) : State :=
  let s1 := match cnt with | some f => s.fsat f 1 | none => s
  (s1.loftFirst n code blk).raise { code := code, blk := n, inst := blkBank blk, job := job, detail := blk * 256, tag := tag }

/-- The bank with the fewest spare rows left (R187). -/
def State.showSpares (s : State) (n : Nat) : State :=
  let m := (List.range 256).foldl (fun (b : Nat × Nat) i =>
    if (s.bank n i).spares < b.1 then ((s.bank n i).spares, i) else b) (64, 0)
  (s.fset (F.LFT_SPARES_MIN_LEFT n) m.1).fset (F.LFT_SPARES_MIN_BANK n) m.2

/-- A bank has no good spare row for a row that is to be retired: it reports that once. The error concerns no one block, so
its detail field is zero and so is the offset in LFT_ERRADDR (R171, R187, R188; log entry 120). -/
def State.noSpares (s : State) (n k : Nat) (job : Option Nat) (during : Bool) : State :=
  if (s.bank n k).exhausted then s
  else ((s.updBank n k (fun b => { b with exhausted := true })).loftFirst n 0x0309 0).raise
    { code := 0x0309, blk := n, inst := k, job := job, during := during }

/-- The refresh row of a block is retired to a spare row of its bank, or its bank has none (R171). -/
def State.retireRow (s : State) (n blk : Nat) (job : Option Nat) : State :=
  let k := blkBank blk
  if 0 < (s.bank n k).spares then
    let s1 := (s.updBank n k (fun b => { b with spares := b.spares - 1 })).fset (F.LFT_SPARES_RETIRED n)
      ((s.fget (F.LFT_SPARES_RETIRED n) + 1) % 2 ^ 32)
    { s1.showSpares n with tck := { s1.tck with remaps := Tab.upd zeroNat s1.tck.remaps (256 * n + k) (· + 1) } }
  else s.noSpares n k job true

/-- A row is to be retired: the other blocks of the row are copied first, when the bank has a spare row (R171). -/
def State.beginRetire (s : State) (n blk : Nat) (job : Option Nat) : State :=
  if 0 < (s.bank n (blkBank blk)).spares then s.updLoft n (fun l => { l with fixes := l.fixes ++ [(blk, 3)] })
  else s.retireRow n blk job

/-! ### Scheduled accesses and conflicts (R158) -/

/-- A scheduled access takes its bank for the cycle that begins in this beat; `who` names the command and whether the
access is the write of a copy. A refused one is noted. -/
def State.useLoft (s : State) (n beat blk rank who job : Nat) : Bool × State :=
  let bk := blkBank blk
  match (s.loft n).uses.find? (fun u => u.beat = beat && u.bank = bk && u.rank ≠ 9) with
  | some _ => (false, s.updLoft n (fun l => { l with clash := l.clash ++ [(beat, blk, job)] }))
  | none => (true, s.updLoft n (fun l =>
      { l with uses := l.uses.filter (fun u => beat ≤ u.beat + 1) ++ [⟨beat, bk, rank, who⟩] }))

/-- LFT_BANK_CONFLICT once for each bank cycle with a conflict (R158). -/
def State.raiseLoftClash (s : State) (n : Nat) : State :=
  match (s.loft n).clash with
  | [] => s
  | (beat, blk, job) :: _ =>
    let s1 := s.updLoft n (fun l =>
      { l with clash := [], conflicts := l.conflicts.filter (fun c => beat ≤ c + 1) ++ [beat] })
    if (s.loft n).conflicts.contains beat then s1 else s1.loftErr n 0x0305 blk (some job) none 0

/-! ### Reads and repair (R162, R164-R166) -/

/-- A block that is being repaired. -/
def State.repairing (s : State) (id : Nat) : Bool :=
  (s.loft (id / 0x800000)).failed.any (fun f => f.blk = id % 0x800000)

/-- The bytes from `off` on, as bits of a block's byte mask. -/
def byteMask (off n : Nat) : Nat := (2 ^ n - 1) * 2 ^ off

/-- A failed block has been written whole since: a read finds what was written. -/
def State.overwritten (s : State) (n blk : Nat) : Bool :=
  (s.loft n).failed.any (fun f => f.blk = blk && f.mask = byteMask 0 256)

/-- Read a block in its bank: what it holds, and its identity when the data is still to be repaired. -/
def State.loftRead (s : State) (n blk : Nat) (job : Option Nat) (ecc : List EccHit) : BlockVal × Option Nat × State :=
  if (s.bank n (blkBank blk)).st ≠ 0 then (⟨0, true⟩, none, s.loftErr n 0x0307 blk job none 0)
  else
    let v := (s.loft n).block blk
    if s.overwritten n blk then (v, none, s)
    else if s.repairing (srcId n blk) then (v, some (srcId n blk), s)
    else match ecc.find? (fun h => h.mem = 3 && h.at_ = blk) with
      | none => (v, none, s)
      | some h =>
        if h.correctable then
          let esc := s.escalates { code := 0x0301, blk := n, inst := blkBank blk }
          let s1 := (s.updLoft n (fun l => { l with fixes := l.fixes ++ [(blk, 0)] })).loftErr n 0x0301 blk job
            (some (F.LFT_ERRCNT_CORRECTED n)) blk
          (v, none, if esc then s1.beginRetire n blk job else s1)
        else
          let f : FailBlk := { blk := blk, stage := .reread, job := job, beat := s.loftF n, slot := none }
          (v, some (srcId n blk), s.updLoft n (fun l => { l with failed := l.failed ++ [f] }))

/-- Any of these blocks still under repair? -/
def State.anyRepairing (s : State) (ids : List Nat) : Option Nat := ids.find? s.repairing

/-- A scheduled consumer reaches the beat in which it needs data that is still under repair: its region holds with
cause 8 and the work waits (R166); that of a job that has halted is discarded (R31). -/
def State.holdFor (s : State) (a : Act) (id : Nat) : State :=
  if (s.job a.job).live then (s.addCause a.reg 8 (some a.job) id 0 0).addAct a else s

/-- The four lines of a block. -/
def BlockVal.line (v : BlockVal) (q : Nat) : LineVal :=
  ⟨BitVec.ofNat 512 (v.data.toNat >>> (512 * q)), 0, v.poison⟩

/-- The block that a line on its way was read from, when it may be under repair. -/
def Moving.block (m : Moving) : Option Nat := m.src.map Prod.fst

/-- A line read from block `id` takes what the repair of the block brings. -/
def Moving.give (id : Nat) (v : BlockVal) (m : Moving) : Moving :=
  match m.src with
  | some (x, q) => if x = id then { m with val := { v.line q with epoch := m.val.epoch }, src := none } else m
  | none => m

def Act.give (id : Nat) (v : BlockVal) (a : Act) : Act :=
  match a.m with
  | .land st l => { a with m := .land st (l.map (Moving.give id v)) }
  | .loftWr m l => { a with m := .loftWr m (l.map (Moving.give id v)) }
  | .edge k l => { a with m := .edge k (l.map (Moving.give id v)) }
  | .lcOut k l g => { a with m := .lcOut k (l.map (Moving.give id v)) (g.map (Moving.give id v)) }
  | _ => a

def EngSt.give (id : Nat) (v : BlockVal) (e0 : EngSt) : EngSt :=
  let e := match e0.next with
    | some (_, some x) => if x = id then { e0 with next := some (v, none) } else e0
    | _ => e0
  let e1 := if e.rowSrc = some id then { e with row := v, rowSrc := none } else e
  if e1.scaleSrc = some id then { e1 with scale := v, scaleSrc := none } else e1

def Pass.give (id : Nat) (v : BlockVal) (p : Pass) : Pass :=
  if p.waits.contains id then
    { p with
      waits := p.waits.filter (· ≠ id)
      got := (List.range 4).foldl (fun g q => Tab.set LineVal.zeroF g (id % 0x800000 * 4 + q) (v.line q)) p.got }
  else p

/-- Every consumer that waits for a block under repair gets what the repair brings: the block that a source has sent, or
poisoned zero for a lost one (R166, R168). -/
def State.giveBlock (s : State) (id : Nat) (v : BlockVal) : State :=
  let n := id / 0x800000
  let s1 := { s with acts := s.acts.map (Act.give id v) }
  let s2 := s1.updLoft n (fun l => { l with eng := l.eng.map (fun e => (e.1, e.2.give id v)) })
  { s2 with stalls := s2.stalls.map (fun t =>
      if t.1 / 48 = n then (t.1, { t.2 with passes := t.2.passes.map (Pass.give id v) }) else t) }

/-! ### Writes (R163, R164, R167) -/

/-- A write enters the barn: counted for a bank that is ON, else discarded as a late write (R163, R164). -/
def State.loftEnter (s : State) (n blk ord : Nat) (job : Option Nat) : State :=
  if (s.bank n (blkBank blk)).st = 0 then
    (s.updBank n (blkBank blk) (fun k => { k with writes := k.writes + 1 })).updLoft n (fun l =>
      { l with entered := l.entered ++ [(ord, blk)] })
  else s.loftErr n 0x0306 blk job none 0

/-- Perform a write of the bytes of a block that `bytes` masks (R167): `f` changes its contents. WEIGHT granules take writes
only from the load engine and repairs. -/
def State.loftStore (s : State) (n blk : Nat) (job : Option Nat) (weight : Bool) (bytes : Nat) (f : BlockVal → BlockVal) :
    State :=
  let l := s.loft n
  let cls := Tab.get zeroNat l.cls (blk / 256)
  if cls = 1 ∧ !weight then s.loftErr n 0x0308 blk job none 0
  else
    let fb := s.loftF n
    s.updLoft n (fun l =>
      let l1 := { l.setBlock blk (f (l.block blk)) with
        failed := l.failed.map (fun x => if x.blk = blk then { x with mask := x.mask ||| bytes } else x) }
      if cls = 1 then l1 else { l1 with wrote := Tab.set zeroNat l1.wrote (blk / 256) fb })

/-- The write of command `ord` to a block leaves the count of its bank (R163). -/
def State.loftLeave (s : State) (n blk ord : Nat) : State :=
  (s.updBank n (blkBank blk) (fun k => { k with writes := k.writes - 1 })).updLoft n (fun l =>
    { l with entered := l.entered.erase (ord, blk) })

/-- Replace bytes of a block from offset `off` on; a whole block written takes the poison of the data, a part keeps a
poison mark that stands. -/
def BlockVal.put (v : BlockVal) (off : Nat) (bs : List Byte) (poison : Bool) : BlockVal :=
  { data := BitVec.ofNat 2048 (setBits v.data.toNat (8 * off) (8 * bs.length) (leNat bs))
    poison := if bs.length = 256 then poison else v.poison || poison }

/-- A block from four lines. -/
def blockOf (ls : List LineVal) : BlockVal :=
  ⟨BitVec.ofNat 2048 (ls.foldr (fun l acc => l.data.toNat + 2 ^ 512 * acc) 0), ls.any LineVal.poison⟩

/-! ### The stall bond port (R105, R176) -/

/-- Bytes that cross the bond of a barn in a beat, in either direction (R9). -/
def State.bondAll (s : State) (n beat bytes : Nat) : State :=
  s.updLoft n (fun l => { l with bond := Tab.upd zeroNat l.bond beat (· + bytes) })

/-- Bytes that cross the bond port of a stall in this beat: into the stall (`down`), or out of it. -/
def State.bondUse (s : State) (i beat bytes : Nat) (down : Bool) : State :=
  (s.bondAll (i / 48) beat bytes).updStall i (fun t =>
    let o := if t.bond.1 = beat then t.bond.2 else (0, 0)
    { t with bond := (beat, if down then (o.1 + bytes, o.2) else (o.1, o.2 + bytes)) })

/-- More than 128 bytes in one direction in the beat: the region holds with cause 7 for ⌈bytes ÷ 128⌉ - 1 periods. -/
def State.bondCheck (s : State) (i beat : Nat) : State :=
  let t := s.stall i
  let n := max t.bond.2.1 t.bond.2.2
  if t.bond.1 = beat ∧ 128 < n then
    (s.updStall i (fun t => { t with bond := (beat, 0, 0) })).addCause (i / 48) 7 (s.barn (i / 48)).owner i 0
      ((n + 127) / 128 - 1)
  else s

/-- More than 2,048 bytes over the bond of a barn in a beat hold the region in the same way (R9). -/
def State.bondCheckAll (s : State) (n beat : Nat) : State :=
  let v := Tab.get zeroNat (s.loft n).bond beat
  let s1 := s.updLoft n (fun l => { l with bond := l.bond.filter (fun e => beat < e.1) })
  if 2048 < v then s1.addCause n 7 (s.barn n).owner (0x10000 + n) 0 ((v + 2047) / 2048 - 1) else s1

/-- The device beat in which bank cycle `c` of a loft begins, when F stands at `f` in device beat `now`. -/
def cycleBeat (now f c : Nat) : Nat := now + 2 * c - f

end Sys2Proof.Machine
end

