-- ==== Sys2Proof/Machine/VecFn.lean ====
section
/-! DEFINITION. The transcendental functions of the vector engine, by the procedures that bind (R143-R148), with their
tables: each entry is the FP32 value nearest the real number that R143 states. -/

namespace Sys2Proof.Machine

/-! ### Tables (R143) -/

/-- 2^(j/64) -/
def tabTX : List Nat :=
  [0x3F800000, 0x3F8164D2, 0x3F82CD87, 0x3F843A29, 0x3F85AAC3, 0x3F871F62, 0x3F88980F, 0x3F8A14D5] ++
  [0x3F8B95C2, 0x3F8D1ADF, 0x3F8EA43A, 0x3F9031DC, 0x3F91C3D3, 0x3F935A2B, 0x3F94F4F0, 0x3F96942D] ++
  [0x3F9837F0, 0x3F99E046, 0x3F9B8D3A, 0x3F9D3EDA, 0x3F9EF532, 0x3FA0B051, 0x3FA27043, 0x3FA43516] ++
  [0x3FA5FED7, 0x3FA7CD94, 0x3FA9A15B, 0x3FAB7A3A, 0x3FAD583F, 0x3FAF3B79, 0x3FB123F6, 0x3FB311C4] ++
  [0x3FB504F3, 0x3FB6FD92, 0x3FB8FBAF, 0x3FBAFF5B, 0x3FBD08A4, 0x3FBF179A, 0x3FC12C4D, 0x3FC346CD] ++
  [0x3FC5672A, 0x3FC78D75, 0x3FC9B9BE, 0x3FCBEC15, 0x3FCE248C, 0x3FD06334, 0x3FD2A81E, 0x3FD4F35B] ++
  [0x3FD744FD, 0x3FD99D16, 0x3FDBFBB8, 0x3FDE60F5, 0x3FE0CCDF, 0x3FE33F89, 0x3FE5B907, 0x3FE8396A] ++
  [0x3FEAC0C7, 0x3FED4F30, 0x3FEFE4BA, 0x3FF28177, 0x3FF5257D, 0x3FF7D0DF, 0x3FFA83B3, 0x3FFD3E0C]

/-- 64 / (64 + j) -/
def tabRC : List Nat :=
  [0x3F800000, 0x3F7C0FC1, 0x3F783E10, 0x3F74898D, 0x3F70F0F1, 0x3F6D7304, 0x3F6A0EA1, 0x3F66C2B4] ++
  [0x3F638E39, 0x3F607038, 0x3F5D67C9, 0x3F5A740E, 0x3F579436, 0x3F54C77B, 0x3F520D21, 0x3F4F6475] ++
  [0x3F4CCCCD, 0x3F4A4588, 0x3F47CE0C, 0x3F4565C8, 0x3F430C31, 0x3F40C0C1, 0x3F3E82FA, 0x3F3C5264] ++
  [0x3F3A2E8C, 0x3F381703, 0x3F360B61, 0x3F340B41, 0x3F321643, 0x3F302C0B, 0x3F2E4C41, 0x3F2C7692] ++
  [0x3F2AAAAB, 0x3F28E83F, 0x3F272F05, 0x3F257EB5, 0x3F23D70A, 0x3F2237C3, 0x3F20A0A1, 0x3F1F1166] ++
  [0x3F1D89D9, 0x3F1C09C1, 0x3F1A90E8, 0x3F191F1A, 0x3F17B426, 0x3F164FDA, 0x3F14F209, 0x3F139A86] ++
  [0x3F124925, 0x3F10FDBC, 0x3F0FB824, 0x3F0E7835, 0x3F0D3DCB, 0x3F0C08C1, 0x3F0AD8F3, 0x3F09AE41] ++
  [0x3F088889, 0x3F0767AB, 0x3F064B8A, 0x3F053408, 0x3F042108, 0x3F03126F, 0x3F020821, 0x3F010204]

/-- -ln(RC[j]) -/
def tabLG : List Nat :=
  [0x00000000, 0x3C7E0545, 0x3CFC14C8, 0x3D3BA2CE, 0x3D785185, 0x3D9A0EBA, 0x3DB78694, 0x3DD4936C] ++
  [0x3DF1383A, 0x3E06BBF4, 0x3E14AA96, 0x3E22695A, 0x3E2FF983, 0x3E3D5C48, 0x3E4A92D4, 0x3E579E49] ++
  [0x3E647FBD, 0x3E71383B, 0x3E7DC8C6, 0x3E851928, 0x3E8B3AE5, 0x3E914A0F, 0x3E974716, 0x3E9D3263] ++
  [0x3EA30C5D, 0x3EA8D56C, 0x3EAE8DED, 0x3EB43640, 0x3EB9CEBF, 0x3EBF57C2, 0x3EC4D19D, 0x3ECA3C9F] ++
  [0x3ECF991E, 0x3ED4E766, 0x3EDA27BD, 0x3EDF5A6D, 0x3EE47FBF, 0x3EE997F4, 0x3EEEA34F, 0x3EF3A213] ++
  [0x3EF8947A, 0x3EFD7AC3, 0x3F012A95, 0x3F0391F3, 0x3F05F397, 0x3F084F9E, 0x3F0AA61F, 0x3F0CF735] ++
  [0x3F0F42FA, 0x3F118987, 0x3F13CAF0, 0x3F160750, 0x3F183EBA, 0x3F1A7144, 0x3F1C9F07, 0x3F1EC812] ++
  [0x3F20EC7E, 0x3F230C5F, 0x3F2527C4, 0x3F273EC1, 0x3F29516A, 0x3F2B5FCE, 0x3F2D6A01, 0x3F2F7015]

/-- erf(c_i), from index 1 on -/
def tabE0 : List Nat :=
  [0x00000000, 0x3DD80409, 0x3E331506, 0x3E78C855, 0x3E9E4D54, 0x3EBF0ACA, 0x3EDE67F6, 0x3EFC37D5] ++
  [0x3F0C2AD3, 0x3F1952A6, 0x3F2589B9, 0x3F30CAAB, 0x3F3B1438, 0x3F4468E7, 0x3F4CCEA1, 0x3F544E43] ++
  [0x3F5AF318, 0x3F60CA59, 0x3F65E2A6, 0x3F6A4B88, 0x3F6E14FE, 0x3F714F11, 0x3F74097E, 0x3F765366] ++
  [0x3F783B18, 0x3F79CDE1, 0x3F7B17F4, 0x3F7C2456, 0x3F7CFCDD, 0x3F7DAA32, 0x3F7E33DE, 0x3F7EA05F] ++
  [0x3F7EF537, 0x3F7F370C, 0x3F7F69BA, 0x3F7F9070, 0x3F7FADC8, 0x3F7FC3D9, 0x3F7FD450, 0x3F7FE081] ++
  [0x3F7FE975, 0x3F7FEFFD, 0x3F7FF4B5, 0x3F7FF819, 0x3F7FFA82, 0x3F7FFC36, 0x3F7FFD68, 0x3F7FFE3D] ++
  [0x3F7FFED0, 0x3F7FFF34, 0x3F7FFF79, 0x3F7FFFA7, 0x3F7FFFC6, 0x3F7FFFDA, 0x3F7FFFE8, 0x3F7FFFF0] ++
  [0x3F7FFFF6, 0x3F7FFFFA, 0x3F7FFFFC, 0x3F7FFFFE, 0x3F7FFFFF, 0x3F7FFFFF, 0x3F7FFFFF, 0x3F800000]

/-- (2/√π) exp(-c_i²), from index 1 on -/
def tabG : List Nat :=
  [0x00000000, 0x3F8F2B2E, 0x3F8CF2F5, 0x3F89AF18, 0x3F8572A8, 0x3F8055E8, 0x3F74EAD4, 0x3F67E20F] ++
  [0x3F59D57E, 0x3F4B0B28, 0x3F3BC8DC, 0x3F2C5223, 0x3F1CE661, 0x3F0DBF4C, 0x3EFE1F73, 0x3EE20584] ++
  [0x3EC7769B, 0x3EAEA7EA, 0x3E97BE62, 0x3E82CFAD, 0x3E5FC70E, 0x3E3DEAE4, 0x3E1FED36, 0x3E059FA9] ++
  [0x3DDD8E4C, 0x3DB63F32, 0x3D94BEDD, 0x3D70EA68, 0x3D4194C7, 0x3D1A561B, 0x3CF42E22, 0x3CBFA8C4] ++
  [0x3C9543AE, 0x3C66AF65, 0x3C30DF57, 0x3C068EB5, 0x3BCB237A, 0x3B9824CE, 0x3B622096, 0x3B26BC5E] ++
  [0x3AF3F919, 0x3AB11AFE, 0x3A7F20E7, 0x3A365507, 0x3A014AF8, 0x39B5F011, 0x397E06AB, 0x392FF56D] ++
  [0x38F1DE7A, 0x38A4F0BC, 0x385F355E, 0x3815DAE6, 0x37C7A666, 0x3783F5E9, 0x372D1570, 0x36E14167] ++
  [0x36916F95, 0x363A56E4, 0x35ECE39B, 0x35956771, 0x353AFD47, 0x34E8356B, 0x348F0F43, 0x342EE6B3]

/-- (2 c_i² - 1) / 3, from index 1 on -/
def tabB3 : List Nat :=
  [0x00000000, 0xBEA7AAAB, 0xBEA25555, 0xBE9A5555, 0xBE8FAAAB, 0xBE825555, 0xBE64AAAB, 0xBE3F5555] ++
  [0xBE14AAAB, 0xBDC95555, 0xBD3D5555, 0x3C355555, 0x3D96AAAB, 0x3E10AAAB, 0x3E5B5555, 0x3E95AAAB] ++
  [0x3EC05555, 0x3EEDAAAB, 0x3F0ED555, 0x3F282AAB, 0x3F42D555, 0x3F5ED555, 0x3F7C2AAB, 0x3F8D6AAB] ++
  [0x3F9D6AAB, 0x3FAE1555, 0x3FBF6AAB, 0x3FD16AAB, 0x3FE41555, 0x3FF76AAB, 0x4005B555, 0x40100AAB] ++
  [0x401AB555, 0x4025B555, 0x40310AAB, 0x403CB555, 0x4048B555, 0x40550AAB, 0x4061B555, 0x406EB555] ++
  [0x407C0AAB, 0x4084DAAB, 0x408BDAAB, 0x40930555, 0x409A5AAB, 0x40A1DAAB, 0x40A98555, 0x40B15AAB] ++
  [0x40B95AAB, 0x40C18555, 0x40C9DAAB, 0x40D25AAB, 0x40DB0555, 0x40E3DAAB, 0x40ECDAAB, 0x40F60555] ++
  [0x40FF5AAB, 0x41046D55, 0x410942AB, 0x410E2D55, 0x41132D55, 0x411842AB, 0x411D6D55, 0x4122AD55]

/-- (3 c_i - 2 c_i³) / 6, from index 1 on -/
def tabB4 : List Nat :=
  [0x00000000, 0x3D3EE000, 0x3D9D6555, 0x3DD8DAAB, 0x3E086800, 0x3E2222AB, 0x3E391D55, 0x3E4CD800] ++
  [0x3E5CD2AB, 0x3E688D55, 0x3E6F8800, 0x3E7142AB, 0x3E6D3D55, 0x3E62F800, 0x3E51F2AB, 0x3E39AD55] ++
  [0x3E19A800, 0x3DE2C555, 0x3D80BAAB, 0x3BC30000, 0xBD77B555, 0xBE0C32AB, 0xBE653800, 0xBEA4BEAB] ++
  [0xBEDCC155, 0xBF0D7200, 0xBF2FB355, 0xBF5544AB, 0xBF7E4600, 0xBF956BAB, 0xBFAD8C55, 0xBFC79500] ++
  [0xBFE395AB, 0xC000CF2B, 0xC010DF80, 0xC02203D5, 0xC034442B, 0xC047A880, 0xC05C38D5, 0xC071FD2B] ++
  [0xC0847EC0, 0xC090A0EB, 0xC09D6915, 0xC0AADB40, 0xC0B8FB6B, 0xC0C7CD95, 0xC0D755C0, 0xC0E797EB] ++
  [0xC0F89815, 0xC1052D20, 0xC10E7135, 0xC1181A4B, 0xC1222A60, 0xC12CA375, 0xC137878B, 0xC142D8A0] ++
  [0xC14E98B5, 0xC15AC9CB, 0xC1676DE0, 0xC17486F5, 0xC1810B85, 0xC1881010, 0xC18F521B, 0xC196D2A5]

/-- (4 c_i⁴ - 12 c_i² + 3) / 30, from index 1 on -/
def tabB5 : List Nat :=
  [0x00000000, 0x3DC59F00, 0x3DB8F677, 0x3DA639AB, 0x3D8DB566, 0x3D5FA022, 0x3D1A1355, 0x3C97EF33] ++
  [0xBB14CAAB, 0xBCC83FBC, 0xBD42B533, 0xBD918655, 0xBDC17989, 0xBDF00100, 0xBE0DE7F7, 0xBE21BFF7] ++
  [0xBE32C880, 0xBE4034C4, 0xBE492B2B, 0xBE4CC54D, 0xBE4A0FF7, 0xBE400B2B, 0xBE2DAA1A, 0xBE11D32B] ++
  [0xBDD6BFEF, 0xBD647533, 0x3BC69AAB, 0x3DA7C677, 0x3E314780, 0x3E8FE404, 0x3ED06C04, 0x3F0D7DE0] ++
  [0x3F382CCF, 0x3F68A935, 0x3F8FAE56, 0x3FAE5A01, 0x3FD08F9B, 0x3FF688BD, 0x4010404D, 0x40275A01] ++
  [0x4040B0AB, 0x405C644D, 0x407A95B4, 0x408DB33C, 0x409F7C80, 0x40B2B840, 0x40C7787C, 0x40DDCF9A] ++
  [0x40F5D067, 0x4107C70B, 0x41158E20, 0x41244773, 0x4133FD38, 0x4144B9D3, 0x415687E0, 0x4169722B] ++
  [0x417D83B3, 0x418963D6, 0x4194A4BF, 0x41A08A60, 0x41AD1AA0, 0x41BA5B7F, 0x41C85316, 0x41D7079A]

/-! ### Constants (R143) -/

def k64 : Nat := 0x42B8AA3B
def expC1 : Nat := 0x3C317200
def expC2 : Nat := 0x32BFBE8E
def expP2 : Nat := 0x3F000000
def expP3 : Nat := 0x3E2AAAAB
def ln2Hi : Nat := 0x3F317200
def ln2Lo : Nat := 0x35BFBE8E
def logQ2 : Nat := 0xBF000000
def logQ3 : Nat := 0x3EAAAAAB
def logQ4 : Nat := 0xBE800000
def tanhT3 : Nat := 0xBEAAAAAB
def tanhT5 : Nat := 0x3E088889
def tanhT7 : Nat := 0xBD5D0DD1
def tanhT9 : Nat := 0x3CB327A4
def tanhT11 : Nat := 0xBC11371B
def erfE1 : Nat := 0x3F906EBB
def erfE3 : Nat := 0xBEAAAAAB
def erfE5 : Nat := 0x3DCCCCCD
def erfE7 : Nat := 0xBCC30C31
def minusOne : Nat := 0xBF800000
def minusTwo : Nat := 0xC0000000

/-- The encoding without its sign. -/
def abs32 (x : Nat) : Nat := x % 0x80000000
def isNan32 (x : Nat) : Bool := 0x7F800000 < abs32 x
def sign32 (x : Nat) : Nat := x / 0x80000000 % 2 * 0x80000000

/-- FEXP (R144). -/
def fexp32 (x : Nat) : Nat :=
  if isNan32 x then nan32
  else if x < 0x80000000 ∧ 0x42B20000 < x then inf32 false
  else if 0x80000000 ≤ x ∧ 0xC2D00000 < x then 0
  else
    let k : Int := (dec32 (fmul32 x k64)).dy.round
    let nk := intTo32 (-k)
    let u := fma32 nk expC2 (fma32 nk expC1 x)
    let j := (k % 64).toNat
    let q := (k - (j : Int)) / 64
    let a := fma32 u expP3 expP2
    let b := fmul32 u u
    let e := fma32 b a u
    let t := tabTX.getD j 0
    scale32 (fma32 t e t) q

/-- FLOG (R145). -/
def flog32 (x0 : Nat) : Nat :=
  if isNan32 x0 then nan32
  else if abs32 x0 = 0 then inf32 true
  else if 0x80000000 ≤ x0 then nan32
  else if x0 = 0x7F800000 then inf32 false
  else
    let sub := x0 < 0x800000
    let x := if sub then scale32 x0 24 else x0
    let e0 : Int := (x / 0x800000 : Nat) - 127 + (if sub then -24 else 0)
    let f := x % 0x800000
    let j0 := (f + 0x10000) / 0x20000
    let top := j0 = 64
    let j := if top then 0 else j0
    let e := if top then e0 + 1 else e0
    let m := if top then 0x3F000000 + f else 0x3F800000 + f
    let u := fma32 m (tabRC.getD j 0) minusOne
    let p := fma32 (fma32 u logQ4 logQ3) u logQ2
    let b := fmul32 u u
    let ef := intTo32 e
    let s := fma32 ef ln2Lo (fma32 b p u)
    let t := fma32 ef ln2Hi (tabLG.getD j 0)
    fadd32 t s

/-- FTANH (R146): the result takes the sign bit of x. -/
def ftanh32 (x : Nat) : Nat :=
  let a := abs32 x
  if isNan32 x then nan32
  else
    let y :=
      if 0x41100000 ≤ a then one32
      else if a < 0x3E800000 then
        let z := fmul32 a a
        let p := fma32 (fma32 (fma32 (fma32 z tanhT11 tanhT9) z tanhT7) z tanhT5) z tanhT3
        fma32 (fmul32 z a) p a
      else fma32 (frcp32 (fadd32 (fexp32 (fadd32 a a)) one32)) minusTwo one32
    sign32 x + abs32 y

/-- FSIGM (R147). -/
def fsigm32 (x : Nat) : Nat := frcp32 (fadd32 one32 (fexp32 (flip32 x)))

/-- FERF (R148): the result takes the sign bit of x. -/
def ferf32 (x : Nat) : Nat :=
  let a := abs32 x
  if isNan32 x then nan32
  else
    let y :=
      if 0x40800000 ≤ a then one32
      else if a < 0x3D800000 then
        let z := fmul32 a a
        let p := fma32 (fma32 z erfE7 erfE5) z erfE3
        fmul32 (fma32 (fmul32 z a) p a) erfE1
      else
        let n := (dec32 (fmul32 a 0x41800000)).dy
        let i := (n.m * 2 ^ n.e.toNat).toNat / 2 ^ (-n.e).toNat
        let c := scale32 (intTo32 (2 * i + 1)) (-5)
        let d := fsub32 a c
        let p0 := fma32 d (tabB5.getD i 0) (tabB4.getD i 0)
        let p1 := fma32 p0 d (tabB3.getD i 0)
        let p2 := fma32 p1 d (flip32 c)
        let p3 := fma32 p2 d one32
        let s := fmul32 p3 d
        fmin32 (fma32 (tabG.getD i 0) s (tabE0.getD i 0)) one32
    sign32 x + abs32 y

end Sys2Proof.Machine
end

