-- ==== Sys2Proof/Machine/VecOps.lean ====
section
/-! DEFINITION. What each vector operation computes from the registers it reads (R129-R148). -/

namespace Sys2Proof.Machine

/-- The result of one lane and the conditions of VEC_SPECIAL that it meets (R152). -/
structure LaneRes where
  v : Nat
  nan : Bool := false
  inf : Bool := false
  sat : Bool := false
  div : Bool := false
  deriving DecidableEq, Repr

def isInf32 (x : Nat) : Bool := abs32 x = 0x7F800000

/-- A floating-point result from floating-point operands. -/
def fpRes (args : List Nat) (v : Nat) : LaneRes :=
  { v := v, nan := isNan32 v && !args.any isNan32, inf := isInf32 v && args.all (fun a => abs32 a < 0x7F800000) }

/-! ### Integer operations (R132) -/

def u32 (i : Int) : Nat := unsigned 32 i

/-- IDIV (R132). -/
def idiv32 (x y : Nat) : Nat :=
  if y = 0 then (if s32 x < 0 then 0x80000000 else 0x7FFFFFFF)
  else if x = 0x80000000 ∧ y = 0xFFFFFFFF then 0x7FFFFFFF
  else u32 ((s32 x).tdiv (s32 y))

/-- IREM (R132). -/
def irem32 (x y : Nat) : Nat := if y = 0 then x else u32 ((s32 x).tmod (s32 y))

/-- FCMP conditions (R131). -/
def fcmp32 (sub x y : Nat) : Bool :=
  let a := dec32 x
  let b := dec32 y
  let un := a.isNan || b.isNan
  match sub with
  | 0 => !un && a.eqv b
  | 1 => un || !a.eqv b
  | 2 => !un && a.lt b
  | 3 => !un && !b.lt a
  | 4 => un
  | _ => !un

/-- ICMP conditions (R132). -/
def icmp32 (sub x y : Nat) : Bool :=
  match sub with
  | 0 => x = y
  | 1 => x ≠ y
  | 2 => s32 x < s32 y
  | 3 => s32 x ≤ s32 y
  | 4 => x < y
  | _ => x ≤ y

/-- An element-wise operation on the lanes x, y, z of its three sources (R129-R133, R142-R148). -/
def laneOp (op x y z : Nat) : LaneRes :=
  match op with
  | 0x410 => fpRes [x, y] (fadd32 x y)
  | 0x411 => fpRes [x, y] (fsub32 x y)
  | 0x412 => fpRes [x, y] (fmul32 x y)
  | 0x413 => fpRes [x, y, z] (fma32 x y z)
  | 0x414 => fpRes [x, y] (fmin32 x y)
  | 0x415 => fpRes [x, y] (fmax32 x y)
  | 0x416 => { v := abs32 x }
  | 0x417 => { v := flip32 x }
  | 0x418 => fpRes [x, y] (fdiv32 x y)
  | 0x419 => fpRes [x] (fsqrt32 x)
  | 0x41A => fpRes [x] (frcp32 x)
  | 0x41B => fpRes [x] (frsqrt32 x)
  | 0x420 => fpRes [x] (fexp32 x)
  | 0x421 => fpRes [x] (flog32 x)
  | 0x422 => fpRes [x] (ftanh32 x)
  | 0x423 => fpRes [x] (fsigm32 x)
  | 0x424 => fpRes [x] (ferf32 x)
  | 0x430 => { v := (x + y) % 2 ^ 32 }
  | 0x431 => { v := (x + 2 ^ 32 - y) % 2 ^ 32 }
  | 0x432 => { v := x * y % 2 ^ 32 }
  | 0x433 => { v := x * y / 2 ^ 32 }
  | 0x434 => { v := if s32 x ≤ s32 y then x else y }
  | 0x435 => { v := if s32 x ≤ s32 y then y else x }
  | 0x436 => { v := x &&& y }
  | 0x437 => { v := x ||| y }
  | 0x438 => { v := x ^^^ y }
  | 0x439 => { v := x * 2 ^ (y % 32) % 2 ^ 32 }
  | 0x43A => { v := x / 2 ^ (y % 32) }
  | 0x43B => { v := u32 (s32 x / (2 ^ (y % 32) : Nat)) }
  | 0x43C => { v := idiv32 x y, div := y = 0 }
  | 0x43D => { v := irem32 x y, div := y = 0 }
  | 0x43E => { v := if y = 0 then 0xFFFFFFFF else x / y, div := y = 0 }
  | 0x43F => { v := if y = 0 then x else x % y, div := y = 0 }
  | 0x451 => { v := x }
  | 0x462 => { v := ftoi32 x, sat := ftoiClamps x }
  | 0x463 => { v := itof32 x }
  | _ => { v := x }

/-! ### Governing mask (R125) -/

/-- The lanes that participate, as a number of 64 bits. -/
def partMask (m : MaskVal) (minv : Bool) : Nat := if minv then 2 ^ 64 - 1 - m.v.toNat else m.v.toNat

def laneOf (v : Nat) (poison : Bool) : Lane := ⟨BitVec.ofNat 32 v, poison⟩
def Lane.n (l : Lane) : Nat := l.v.toNat
/-- Lane l of a register that has been read. -/
def laneAt (r : List Lane) (l : Nat) : Lane := r.getD l Lane.zero

/-- A register as one number. -/
def regNat (r : List Lane) : Nat := r.foldr (fun l acc => l.n + 2 ^ 32 * acc) 0

/-! ### Reductions (R136-R138) -/

/-- Combine adjacent pairs. -/
def pairUp (f : Nat → Nat → Nat) : List Nat → List Nat
  | a :: b :: r => f a b :: pairUp f r
  | l => l

/-- The fixed tree of `n` levels. -/
def treeOf (f : Nat → Nat → Nat) : Nat → List Nat → Nat
  | 0, l => l.headD 0
  | n + 1, l => treeOf f n (pairUp f l)

/-- The combining operation: 0 sum, 1 maximum, 2 minimum. -/
def redFn (kind : Nat) : Nat → Nat → Nat :=
  match kind with
  | 0 => fadd32
  | 1 => fmax32
  | _ => fmin32

/-- The identity that replaces a lane that does not participate (R136). -/
def redId (kind : Nat) : Nat :=
  match kind with
  | 0 => 0x80000000
  | 1 => 0xFF800000
  | _ => 0x7F800000

/-- RSUM, RMAX and RMIN (R136): result and poison. -/
def reduce64 (kind part : Nat) (mpois : Bool) (r : List Lane) : LaneRes × Bool :=
  let ls := List.range 64
  let live := ls.filter (fun l => bit part l)
  let v := treeOf (redFn kind) 6 (ls.map (fun l => if bit part l then (laneAt r l).n else redId kind))
  (if live.isEmpty then { v := v } else fpRes (live.map (fun l => (laneAt r l).n)) v, mpois || live.any (fun l => (laneAt r l).poison))

/-- a lies below b in the order of FMAX (R137). -/
def fmaxBelow (x y : Nat) : Bool :=
  let a := dec32 x
  let b := dec32 y
  if a.isZero && b.isZero then a.neg && !b.neg else a.lt b

/-- RARGMAX over (lane, value) pairs: value and index (R137). -/
def argMax : List (Nat × Nat) → Option (Nat × Nat) → Nat × Nat
  | [], none => (0xFF800000, 0xFFFFFFFF)
  | [], some b => (b.2, b.1)
  | (l, v) :: t, best =>
    if isNan32 v then (nan32, l)
    else match best with
      | none => argMax t (some (l, v))
      | some b => argMax t (some (if fmaxBelow b.2 v then (l, v) else b))

/-- Lane of element (r, c) of a tile read as four registers (R138). -/
def tileAt (t : List (List Lane)) (r c : Nat) : Lane := laneAt (t.getD (r / 4) []) (16 * (r % 4) + c)

/-- The elements of line n of a tile along an axis. -/
def tileLine (t : List (List Lane)) (axis n : Nat) : List Lane :=
  (List.range 16).map (fun i => if axis = 0 then tileAt t i n else tileAt t n i)

/-- One recurrence of TSCAN: coefficients, inputs, start (R139). -/
def scanLine : List Lane → List Lane → Lane → List Lane
  | a :: as, b :: bs, h =>
    let h' := laneOf (fma32 a.n h.n b.n) (a.poison || b.poison || h.poison)
    h' :: scanLine as bs h'
  | _, _, _ => []

/-! ### Conversions (R134, R135) -/

/-- A packed format: element bits, floating-point format (none: integer), MX. -/
structure Pack where
  w : Nat
  fp : Option Fmt
  mx : Bool
  deriving DecidableEq, Repr

def packOf (n : Nat) : Pack :=
  match n with
  | 0 => ⟨16, some fp16, false⟩
  | 1 => ⟨16, some bf16, false⟩
  | 2 => ⟨8, some fp8e4, false⟩
  | 3 => ⟨8, some fp8e5, false⟩
  | 4 => ⟨4, some fp4, false⟩
  | 5 => ⟨6, some fp6e2, false⟩
  | 6 => ⟨6, some fp6e3, false⟩
  | 7 => ⟨8, none, false⟩
  | 8 => ⟨4, none, false⟩
  | 9 => ⟨8, some fp8e4, true⟩
  | 10 => ⟨8, some fp8e5, true⟩
  | 11 => ⟨4, some fp4, true⟩
  | 12 => ⟨6, some fp6e2, true⟩
  | _ => ⟨6, some fp6e3, true⟩

/-- An INT32 lane saturated to w bits, and whether it saturated. -/
def satInt (w x : Nat) : Nat × Bool :=
  let lo : Int := -(2 ^ (w - 1) : Nat)
  let hi : Int := (2 ^ (w - 1) : Nat) - 1
  (unsigned w (clampInt lo hi (s32 x)), s32 x < lo || hi < s32 x)

/-- The elements of 64 lanes without an MX scale, each with its clamp flag. -/
def packPlain (p : Pack) (r : List Lane) : List (Nat × Bool) :=
  (List.range 64).map (fun l =>
    let x := (laneAt r l).n
    match p.fp with
    | some f => (encodeNum f (dec32 x), encodeClamps f (dec32 x))
    | none => satInt p.w x)

/-- One MX block of 32 lanes: scale byte, and the elements with their clamp flags (R101). -/
def packBlock (f : Fmt) (xs : List Nat) : Nat × List (Nat × Bool) :=
  let e := mxEncode f (xs.map dec32)
  (e.1, (e.2.zip xs).map (fun y =>
    (y.1, e.1 ≠ 0xFF && encodeClamps f (match dec32 y.2 with
      | .fin neg m ex => .fin neg m (ex - ((e.1 : Int) - 127))
      | o => o))))

/-- Element l of part q of a packed register: its bits. -/
def elemBits (p : Pack) (r : Nat) (q l : Nat) : Nat :=
  let pos := p.w * (64 * q + l)
  bits r (pos + p.w - 1) pos

/-- The lanes that hold a bit of element l of part q. -/
def elemLanes (p : Pack) (q l : Nat) : List Nat :=
  let pos := p.w * (64 * q + l)
  [pos / 32, (pos + p.w - 1) / 32].dedup

/-- An element unpacked into a lane (R135); `sc` is its scale byte. -/
def unpackElem (p : Pack) (code sc : Nat) : LaneRes :=
  match p.fp with
  | none => { v := u32 (signed p.w code) }
  | some f =>
    let n := decodeNum f code
    if p.mx then
      let v := encodeNum fp32 (mxScale n sc)
      { v := v, nan := isNan32 v && !n.isNan, inf := isInf32 v && !n.isNan && !n.isInf }
    else { v := encodeNum fp32 n }

end Sys2Proof.Machine
end

