-- ==== Sys2Proof/Machine/Vector.lean ====
section
/-! DEFINITION. The vector engine (R122-R152): issue of its commands and the work of each repetition in its beat. -/

namespace Sys2Proof.Machine

/-! ### Registers (R122, R151) -/

/-- A check-code error of a vector register or mask (R151): corrected, or not. -/
def State.vecEcc (s : State) (i reg lane : Nat) (correctable : Bool) : State :=
  let b := i / 48
  let k := i % 48
  let detail := 2 * 2 ^ 62 + lane * 2 ^ 8 + reg
  if correctable then
    ((s.updStall i (fun t => { t with fixes := t.fixes ++ [0x20000 + reg] })).fsat (F.SPD_ERRCNT_CORRECTED b k) 1).raiseStl
      b k 0x020E detail (0x20000 + reg) (s.physOf b k)
  else (s.fsat (F.SPD_ERRCNT_UNCORRECTED b k) 1).raiseStl b k 0x020F detail 0 (s.physOf b k)

/-- The errors of a command that lie in register `reg` (32 + m for mask m): the lanes or bits left poisoned, and the
state that has reported them. -/
def State.vecHits (s : State) (i reg : Nat) : List EccHit → List Nat × State
  | [] => ([], s)
  | h :: hs =>
    if h.mem = 2 ∧ h.at_ % 256 = reg then
      let x := (s.vecEcc i reg (h.at_ / 256) h.correctable).vecHits i reg hs
      (if h.correctable then x.1 else (h.at_ / 256) :: x.1, x.2)
    else s.vecHits i reg hs

/-- A vector register as a read in beat `beat` finds it (R127). -/
def State.vecReg (s : State) (i beat reg : Nat) : List Lane :=
  (List.range 64).map (fun l => (s.stall i).vreg.readAt (fun _ => Lane.zero) beat (64 * reg + l))

/-- m0 reads as all ones (R122). -/
def maskReset : Nat → MaskVal := fun m => ⟨if m = 0 then BitVec.allOnes 64 else 0, 0⟩

def State.readMask (s : State) (i beat m : Nat) : MaskVal := (s.stall i).mreg.readAt maskReset beat m

/-- Read a register, reporting check-code errors; a lane with an error that cannot be corrected stays poisoned (R151). -/
def State.takeReg (s : State) (a : Act) (reg : Nat) : List Lane × State :=
  let h := s.vecHits a.stall reg a.ecc
  let ls := ((s.vecReg a.stall a.beat reg).zipIdx).map (fun p => { p.1 with poison := p.1.poison || h.1.contains p.2 })
  (ls, h.1.foldl (fun s l =>
    s.updStall a.stall (fun t => { t with vreg := t.vreg.write a.beat (64 * reg + l) (ls.getD l Lane.zero) })) h.2)

/-- Read a mask, reporting check-code errors; a bit with an error that cannot be corrected stays poisoned (R151). -/
def State.takeMask (s : State) (a : Act) (m : Nat) : MaskVal × State :=
  let h := s.vecHits a.stall (32 + m) a.ecc
  let v := s.readMask a.stall a.beat m
  let v' : MaskVal := { v with poison := h.1.foldl (fun p l => p ||| BitVec.ofNat 64 (2 ^ l)) v.poison }
  (v', if h.1.isEmpty then h.2 else h.2.updStall a.stall (fun t => { t with mreg := t.mreg.write a.beat m v' }))

/-- Write lanes of a register at the end of beat `wb`: those for which `f` gives a value (R126). The write is a piece
of work of that beat, after all reads and in the order of issue (R127). -/
def State.putReg (s : State) (a : Act) (wb reg : Nat) (f : Nat → Option Lane) : State :=
  s.addAct { a with beat := wb, rank := 8, m := .regPut reg ((List.range 64).map f) }

/-- A repetition completes with the write that falls in beat `wb` (R126, R152). -/
def State.repEnds (s : State) (a : Act) (wb : Nat) : State := s.addAct { a with beat := wb, rank := 8, m := .repDone }

/-- The lanes of a write, from lane `l` on. -/
def Stall.landLanes (beat reg : Nat) : Nat → List (Option Lane) → Stall → Stall
  | _, [], t => t
  | l, none :: xs, t => Stall.landLanes beat reg (l + 1) xs t
  | l, some x :: xs, t => Stall.landLanes beat reg (l + 1) xs { t with vreg := t.vreg.write beat (64 * reg + l) x }

/-- A register write lands. -/
def State.landReg (s : State) (i beat reg : Nat) (xs : List (Option Lane)) : State :=
  s.updStall i (Stall.landLanes beat reg 0 xs)

/-- Write bits of a mask at the end of a beat; a write to m0 is discarded (R122). Bits that `part` leaves out keep what
the mask holds when the write lands. -/
def State.putMask (s : State) (i beat m part v pois : Nat) : State :=
  if m = 0 then s
  else
    let old := s.readMask i (beat + 1) m
    let keep := 2 ^ 64 - 1 - part
    let new : MaskVal := ⟨BitVec.ofNat 64 ((old.v.toNat &&& keep) ||| (v &&& part)),
      BitVec.ofNat 64 ((old.poison.toNat &&& keep) ||| (pois &&& part))⟩
    s.updStall i (fun t => { t with mreg := t.mreg.write beat m new })

/-- VEC_SPECIAL of one repetition (R152). -/
def State.special152 (s : State) (i : Nat) (rs : List LaneRes) : State :=
  let b := i / 48
  let k := i % 48
  let s1 := if rs.any LaneRes.nan then s.fsat (F.VEC_SPECIAL_NAN_NEW b k) 1 else s
  let s2 := if rs.any LaneRes.inf then s1.fsat (F.VEC_SPECIAL_INF_NEW b k) 1 else s1
  let s3 := if rs.any LaneRes.sat then s2.fsat (F.VEC_SPECIAL_CVT_SAT b k) 1 else s2
  if rs.any LaneRes.div then s3.fsat (F.VEC_SPECIAL_DIV_ZERO b k) 1 else s3

/-! ### One repetition (R126) -/

/-- The register of a field in repetition k. -/
def repReg (f k : Nat) (hold : Bool) : Nat := if hold then f else f + k

/-- What an operand delivers: the immediate in every lane, never poisoned, or a register. -/
def immReg (w : Cmd) : List Lane := List.replicate 64 (laneOf (vImm w) false)

/-- The latency of the operation. -/
def vLat (w : Cmd) : Nat := match vrow (cOp w) (vFmt w) with | some r => r.lat | none => 0
def vSlot (w : Cmd) : Nat := match vrow (cOp w) (vFmt w) with | some r => r.c | none => 1

/-- Element-wise operations, VSEL, VPERM and VLANE write their participating lanes (VSEL: all) at the end of beat
`wb` (R125, R129, R141). -/
def State.vecLanes (s : State) (a : Act) (k wb : Nat) (m : MaskVal) (x y z : List Lane) : State :=
  let w := a.w
  let op := cOp w
  let part := partMask m (vMinv w)
  let mp := m.poison.toNat
  let one := fun l =>
    let p := laneAt x l
    let q := laneAt y l
    let r := laneAt z l
    if op = 0x450 then
      let c := if bit part l then p else q
      (({ v := c.n } : LaneRes), c.poison || bit mp l)
    else if op = 0x452 then
      let c := laneAt x (q.n % 64)
      ({ v := c.n }, c.poison || q.poison || bit mp l)
    else if op = 0x453 then ({ v := l }, bit mp l)
    else (laneOp op p.n q.n r.n, p.poison || q.poison || r.poison || bit mp l)
  let live := fun l => op = 0x450 || bit part l
  (s.special152 a.stall (((List.range 64).filter live).map (fun l => (one l).1))).putReg a wb
    (repReg (vVd w) k false)
    (fun l => if live l then some (laneOf (one l).1.v (one l).2) else none)

/-- FCMP and ICMP set mask bits (R131, R132): the bits are put in when the write lands. -/
def State.vecCmp (s : State) (a : Act) (k wb : Nat) (m : MaskVal) (x y : List Lane) : State :=
  let w := a.w
  let part := partMask m (vMinv w)
  let ls := (List.range 64).filter (fun l => bit part l)
  let val := ls.foldl (fun acc l =>
    acc + (if (if cOp w = 0x440 then fcmp32 (vSub w) (laneAt x l).n (laneAt y l).n
               else icmp32 (vSub w) (laneAt x l).n (laneAt y l).n) then 2 ^ l else 0)) 0
  let po := ls.foldl (fun acc l =>
    acc + (if (laneAt x l).poison || (laneAt y l).poison || bit m.poison.toNat l then 2 ^ l else 0)) 0
  s.addAct { a with beat := wb, rank := 8, m := .maskPut (vVd w + k) part val po }

/-- CVT.P reads its source and hands the elements on to the beat of its write (R134). -/
def State.vecPack (s : State) (a : Act) (k wb : Nat) (prev : Bool) (m : MaskVal) (x : List Lane) : State × Bool :=
  let w := a.w
  let p := packOf (vFmt w)
  let part := partMask m (vMinv w)
  let q := vSub w + k
  let half := fun h => (x.drop (32 * h)).take 32
  let bad := fun h => (half h).any Lane.poison
  let blk := fun h => match p.fp with
    | some f => packBlock f ((half h).map Lane.n)
    | none => (0, [])
  let els := if p.mx then (blk 0).2 ++ (blk 1).2 else packPlain p x
  let pois := (List.range 64).foldl (fun acc l =>
    acc + (if (laneAt x l).poison || bit m.poison.toNat l || (p.mx && bad (l / 32)) then 2 ^ l else 0)) 0
  let anyBad := bad 0 || bad 1
  let code := if anyBad then 1 else if q % 2 = 1 ∧ 0 < k ∧ !prev then 2 else 0
  let s1 := s.special152 a.stall (((List.range 64).filter (fun l => bit part l)).map (fun l =>
    { v := 0, sat := (els.getD l (0, false)).2 }))
  let sc := if p.mx then some ((blk 0).1 + 256 * (blk 1).1, code) else none
  (s1.addAct { a with beat := wb, rank := 8, m := .cvtPut q (els.map Prod.fst) part pois sc }, anyBad)

/-- The write of CVT.P: the elements of participating lanes enter part `q` of the register; scale bytes enter bytes 2q
and 2q + 1 of s3 (R134). -/
def State.vecPackPut (s : State) (a : Act) (q : Nat) (els : List Nat) (part pois : Nat) (scale : Option (Nat × Nat)) :
    State :=
  let p := packOf (vFmt a.w)
  let old := s.vecReg a.stall (a.beat + 1) (vVd a.w)
  let ls := (List.range 64).filter (fun l => bit part l)
  let whole := regNat old
  let new := ls.foldl (fun r l => setBits r (p.w * (64 * q + l)) p.w (els.getD l 0)) whole
  let wrote := ls.foldl (fun r l => setBits r (p.w * (64 * q + l)) p.w (2 ^ p.w - 1)) 0
  let s1 := s.landReg a.stall a.beat (vVd a.w) ((List.range 64).map fun n =>
    let m := bits wrote (32 * n + 31) (32 * n)
    if m = 0 then none
    else
      let bad := ls.any (fun l => bit pois l && (elemLanes p q l).contains n)
      some (laneOf (bits new (32 * n + 31) (32 * n))
        (if bad then true else if m = 2 ^ 32 - 1 then false else (laneAt old n).poison)))
  match scale with
  | none => s1
  | some (v, code) =>
    let o3 := laneAt (s1.vecReg a.stall (a.beat + 1) (vS3 a.w)) (q / 2)
    s1.landReg a.stall a.beat (vS3 a.w) ((List.range 64).map fun n =>
      if n = q / 2 then
        some (laneOf (setBits o3.n (16 * (q % 2)) 16 v) (if code = 1 then true else if code = 2 then false else o3.poison))
      else none)

/-- CVT.U (R135): d + k from part SUB + k of s1, scales from s2. -/
def State.vecUnpack (s : State) (a : Act) (k wb : Nat) (m : MaskVal) (x y : List Lane) : State :=
  let w := a.w
  let p := packOf (vFmt w)
  let part := partMask m (vMinv w)
  let q := vSub w + k
  let whole := regNat x
  let one := fun l =>
    let sb := 2 * q + l / 32
    let sl := laneAt y (sb / 4)
    (unpackElem p (elemBits p whole q l) (bits sl.n (8 * (sb % 4) + 7) (8 * (sb % 4))),
     (elemLanes p q l).any (fun n => (laneAt x n).poison) || (p.mx && sl.poison) || bit m.poison.toNat l)
  (s.special152 a.stall (((List.range 64).filter (fun l => bit part l)).map (fun l => (one l).1))).putReg a wb
    (vVd w + k) (fun l => if bit part l then some (laneOf (one l).1.v (one l).2) else none)

/-- RSUM, RMAX, RMIN and RARGMAX write every lane (R136, R137). -/
def State.vecReduce (s : State) (a : Act) (k wb : Nat) (m : MaskVal) (x : List Lane) : State :=
  let w := a.w
  let part := partMask m (vMinv w)
  let mp := m.poison.toNat ≠ 0
  if cOp w = 0x473 then
    let live := (List.range 64).filter (fun l => bit part l)
    let r := argMax (live.map (fun l => (l, (laneAt x l).n))) none
    let po := mp || live.any (fun l => (laneAt x l).poison)
    (s.putReg a wb (vVd w) (fun _ => some (laneOf r.1 po))).putReg a wb (vVd w + 1)
      (fun _ => some (laneOf r.2 po))
  else
    let r := reduce64 (cOp w - 0x470) part mp x
    (s.special152 a.stall [r.1]).putReg a wb (vVd w + k) (fun _ => some (laneOf r.1.v r.2))

/-- MLOGIC (R140). -/
def State.vecMlogic (s : State) (a : Act) (wb : Nat) (x y : MaskVal) : State :=
  let w := a.w
  let u := x.v.toNat
  let v := y.v.toNat
  let ones := 2 ^ 64 - 1
  let r := match vSub w with
    | 0 => u &&& v
    | 1 => u ||| v
    | 2 => u ^^^ v
    | 3 => u &&& (ones - v)
    | _ => (List.range 64).foldl (fun acc l =>
        acc + (if bits (vImm w) 5 0 ≤ l ∧ l ≤ bits (vImm w) 13 8 then 2 ^ l else 0)) 0
  let po := if vSub w = 4 then 0 else x.poison.toNat ||| y.poison.toNat
  s.addAct { a with beat := wb, rank := 8, m := .maskPut (vVd w) ones r po }

/-- TRED (R138). -/
def State.vecTred (s : State) (a : Act) (wb : Nat) (t : List (List Lane)) : State :=
  let w := a.w
  let axis := bits (vSub w) 0 0
  let f := redFn (vFmt w)
  let line := fun n => tileLine t axis n
  let res := fun n => fpRes ((line n).map Lane.n) (treeOf f 4 ((line n).map Lane.n))
  let out := fun n => laneOf (res n).v ((line n).any Lane.poison)
  let s1 := s.special152 a.stall ((List.range 16).map res)
  if axis = 0 then s1.putReg a wb (vVd w) (fun l => some (out (l % 16)))
  else (List.range 4).foldl (fun s j => s.putReg a wb (vVd w + j) (fun l => some (out (4 * j + l / 16)))) s1

/-- TSCAN (R139): the source registers in the order s1, s2 of each beat, then s3. -/
def State.vecTscan (s : State) (a : Act) (wb : Nat) (ta tb : List (List Lane)) (start : List Lane) : State :=
  let w := a.w
  let axis := bits (vSub w) 0 0
  let outs := (List.range 16).map (fun n => scanLine (tileLine ta axis n) (tileLine tb axis n) (laneAt start n))
  let specials := (List.range 16).flatMap (fun n =>
    ((tileLine ta axis n).zip (tileLine tb axis n)).zipIdx.map (fun p =>
      let h := if p.2 = 0 then laneAt start n else laneAt (outs.getD n []) (p.2 - 1)
      fpRes [p.1.1.n, h.n, p.1.2.n] (laneAt (outs.getD n []) p.2).n))
  let at_ := fun r c => if axis = 0 then laneAt (outs.getD c []) r else laneAt (outs.getD r []) c
  (List.range 4).foldl (fun s j => s.putReg a wb (vVd w + j) (fun l => some (at_ (4 * j + l / 16) (l % 16))))
    (s.special152 a.stall specials)

/-- Repetition k reads its sources in this beat (R126) and the next one follows c beats later. -/
def State.vecRep (s : State) (a : Act) (k : Nat) (prev : Bool) : State :=
  let w := a.w
  let op := cOp w
  let h := vHold w
  let wb := a.iss + vSlot w * k + vLat w
  let u := (vrow op (vFmt w)).getD ⟨.no, .no, .no, .no, false, 1, 0⟩
  let mm := s.takeMask a (vMask w)
  let imm := immReg w
  let r1 := if u.s1Used op (vImmf w) = .reg then mm.2.takeReg a (repReg (vS1 w) k (bit h 2 || op = 0x461)) else (imm, mm.2)
  let r2 := if u.s2Used op (vImmf w) = .reg then r1.2.takeReg a (repReg (vS2 w) k (bit h 1 || op = 0x461))
    else (if u.s2 = .reg then imm else [], r1.2)
  let r3 := if u.s3 = .reg ∧ op ≠ 0x460 then r2.2.takeReg a (repReg (vS3 w) k (bit h 0)) else ([], r2.2)
  let s1 := r3.2.repEnds a wb
  let s2 : State × Bool :=
    if op = 0x440 ∨ op = 0x441 then (s1.vecCmp a k wb mm.1 r1.1 r2.1, false)
    else if op = 0x442 then
      let x := s1.takeMask a (vS1 w)
      let y := x.2.takeMask a (vS2 w)
      (y.2.vecMlogic a wb x.1 y.1, false)
    else if op = 0x460 then s1.vecPack a k wb prev mm.1 r1.1
    else if op = 0x461 then (s1.vecUnpack a k wb mm.1 r1.1 r2.1, false)
    else if 0x470 ≤ op ∧ op ≤ 0x473 then (s1.vecReduce a k wb mm.1 r1.1, false)
    else (s1.vecLanes a k wb mm.1 r1.1 r2.1 r3.1, false)
  if k + 1 < vReps w then s2.1.addAct { a with beat := a.iss + 1 + vSlot w * (k + 1), m := .vec (k + 1) s2.2 } else s2.1

/-- TRED and TSCAN read their tiles one register of each a beat (R138, R139). -/
def State.vecTile (s : State) (a : Act) (j : Nat) (got : List (List Lane)) : State :=
  let w := a.w
  let two := cOp w = 0x475
  let x := s.takeReg a (vS1 w + j)
  let y := if two then x.2.takeReg a (vS2 w + j) else ([], x.2)
  let z := if two ∧ j = 0 then y.2.takeReg a (vS3 w) else ([], y.2)
  let got' := if two then (if j = 0 then [z.1, x.1, y.1] else got ++ [x.1, y.1]) else got ++ [x.1]
  let s1 := z.2
  if j < 3 then s1.addAct { a with beat := a.beat + 1, m := .vtile (j + 1) got' }
  else
    let wb := a.iss + vLat w
    let s2 := s1.repEnds a wb
    if two then
      let pick := fun o => (List.range 4).map (fun n => got'.getD (1 + 2 * n + o) [])
      s2.vecTscan a wb (pick 0) (pick 1) (got'.headD [])
    else s2.vecTred a wb got'

/-! ### Loads and stores (R128) -/

def lEpochR (w : Cmd) : Option Nat := if lCheck w then some (lEpoch w) else none

/-- The lanes of a register loaded from 256 bytes; masked lanes keep their value. -/
def State.putLoad (s : State) (a : Act) (wb k part mp : Nat) (ps : List PByte) : State :=
  (s.repEnds a wb).putReg a wb (vVd a.w + k) (fun l =>
    if bit part l then
      let bs := (ps.drop (4 * l)).take 4
      some (laneOf (pNat bs) (bs.any PByte.poison || bit mp l))
    else none)

/-- Repetition k of VLD. -/
def State.vecLoad (s : State) (a : Act) (k : Nat) : State :=
  let w := a.w
  let m := s.takeMask a (vMask w)
  let l0 := lAddr w / 64 + 4 * k
  let r := m.2.rdLines (a.stall / 48) (a.stall % 48) a.beat 2 a.ord (lEpochR w) a.ecc [l0, l0 + 1, l0 + 2, l0 + 3]
  let ps := r.1.flatMap (fun x => (List.range 64).map x.2.byte)
  let s1 := r.2.putLoad a (a.beat + 2) k (partMask m.1 (vMinv w)) m.1.poison.toNat ps
  if k + 1 < vReps w then s1.addAct { a with beat := a.beat + 1, m := .vld (k + 1) } else s1

/-- Repetition k of VST reads its register; the lines are written one beat later. -/
def State.vecStore (s : State) (a : Act) (k : Nat) : State :=
  let w := a.w
  let m := s.takeMask a (vMask w)
  let r := m.2.takeReg a (vVd w + k)
  let s1 := (r.2.repEnds a (a.beat + 1)).addAct
    { a with beat := a.beat + 1, m := .vstPut k r.1 (partMask m.1 (vMinv w)) m.1.poison.toNat }
  if k + 1 < vReps w then s1.addAct { a with beat := a.beat + 1, m := .vst (k + 1) } else s1

/-- A line of a VST: participating lanes replace their bytes; the poison bit is never cleared (R128). -/
def mergeLine (old : LineVal) (epoch : Nat) (part mp : Nat) (lanes : List Lane) : LineVal :=
  let ls := (List.range 16).filter (fun l => bit part l)
  { data := BitVec.ofNat 512 (ls.foldl (fun d l => setBits d (32 * l) 32 (laneAt lanes l).n) old.data.toNat)
    epoch := epoch
    poison := old.poison || ls.any (fun l => (laneAt lanes l).poison || bit mp l) }

/-- The lines of repetition k of a VST; a line without a participating lane is not accessed. -/
def State.vecStorePut (s : State) (a : Act) (k : Nat) (lanes : List Lane) (part mp : Nat) : State :=
  (List.range 4).foldl (fun s q =>
    let p := bits part (16 * q + 15) (16 * q)
    if p = 0 then s
    else
      let line := lAddr a.w / 64 + 4 * k + q
      let old := s.readLine a.stall a.beat line
      s.putLine (a.stall / 48) (a.stall % 48) a.beat line 2
        (mergeLine old (lEpoch a.w) p (bits mp (16 * q + 15) (16 * q)) ((lanes.drop (16 * q)).take 16))) s

/-- The lines of a gathered read that fall in its beat `q` (R85). -/
def grpLines (srcs : List Nat) (q : Nat) : List Nat :=
  let ls := groupLines srcs
  ls.filter (fun l => lineBeat ls l = q)

/-- Beat q of register k of a VLDS (R128). -/
def State.vecGather (s : State) (a : Act) (k q : Nat) (got : List (Nat × LineVal)) (part mp : Nat) : State :=
  let w := a.w
  let m := if q = 0 then s.takeMask a (vMask w) else (⟨0, 0⟩, s)
  let part' := if q = 0 then partMask m.1 (vMinv w) else part
  let mp' := if q = 0 then m.1.poison.toNat else mp
  let srcs := vldsSources w k
  let r := m.2.rdLines (a.stall / 48) (a.stall % 48) a.beat 2 a.ord (lEpochR w) a.ecc (grpLines srcs q)
  let got' := got ++ r.1
  if q + 1 < groupBeats (groupLines srcs) then
    r.2.addAct { a with beat := a.beat + 1, m := .grp (.vlds k) (q + 1) got' part' mp' }
  else
    let s1 := r.2.putLoad a (a.beat + 2) k part' mp' (pickBytes got' srcs)
    if k + 1 < vReps w then s1.addAct { a with beat := a.beat + 1, m := .grp (.vlds (k + 1)) 0 [] 0 0 } else s1

/-- The read beats of a VLDS. -/
def vldsBeats (w : Cmd) : Nat := ((List.range (vReps w)).map (fun k => groupBeats (groupLines (vldsSources w k)))).sum

/-! ### Issue (R126, R128) -/

/-- Beats from issue to the beat from which the engine accepts its next command, to completion, and to the first piece
of work. -/
def vecTimes (w : Cmd) : Nat × Nat × Micro :=
  let n := vReps w
  match cOp w with
  | 0x401 => (n, n + 2, .vld 0)
  | 0x402 => (n, n + 1, .vst 0)
  | 0x403 => (vldsBeats w + 1, vldsBeats w + 2, .grp (.vlds 0) 0 [] 0 0)
  | 0x474 => (vSlot w, vLat w, .vtile 0 [])
  | 0x475 => (vSlot w, vLat w, .vtile 0 [])
  | _ => (vSlot w * n, vSlot w * (n - 1) + vLat w, .vec 0 false)

/-- Issue a vector command of opcode `op` (R67, R126): its first piece of work falls in the next beat. -/
def State.vecIssue (s : State) (b k op : Nat) (ecc : List EccHit) : Res :=
  .next (s.issue b k 2 (isOpcode op)
    (fun s j w =>
      let t := vecTimes w
      let now := s.beat b
      let s1 := (s.inFlight b k 2 w 0 (now + t.2.1) none []).updStall (48 * b + k) (fun x => { x with vecFree := now + t.1 })
      (s1.fset (F.VEC_STATE_LAST_OP b k) op).addAct
        { s1.actNow b k j 0 w ecc with beat := now + 1, rank := 2, m := t.2.2 }))

/-- The work of the vector engine in its beat. -/
def State.vecWork (s : State) (a : Act) : State :=
  match a.m with
  | .vec k prev => s.vecRep a k prev
  | .regPut reg xs => s.landReg a.stall a.beat reg xs
  | .cvtPut q els part pois scale => s.vecPackPut a q els part pois scale
  | .maskPut m part v pois => s.putMask a.stall a.beat m part v pois
  | .repDone => s.fwrap (F.VEC_COUNT_REPS (a.stall / 48) (a.stall % 48)) 1
  | .vtile j got => s.vecTile a j got
  | .vld k => s.vecLoad a k
  | .vst k => s.vecStore a k
  | .vstPut k lanes part mp => s.vecStorePut a k lanes part mp
  | .grp (.vlds k) q got part mp => s.vecGather a k q got part mp
  | _ => s

/-! ### The rows -/

/-- VLD issues (R128). -/
def execVld (b : Barn) (k : StallId) (ecc : List EccHit) (s : State) : Res := s.vecIssue b k 0x401 ecc

/-- VST issues (R128). -/
def execVst (b : Barn) (k : StallId) (ecc : List EccHit) (s : State) : Res := s.vecIssue b k 0x402 ecc

/-- VLDS issues (R128). -/
def execVlds (b : Barn) (k : StallId) (ecc : List EccHit) (s : State) : Res := s.vecIssue b k 0x403 ecc

/-- FADD issues (R130). -/
def execFadd (b : Barn) (k : StallId) (ecc : List EccHit) (s : State) : Res := s.vecIssue b k 0x410 ecc

/-- FSUB issues (R130). -/
def execFsub (b : Barn) (k : StallId) (ecc : List EccHit) (s : State) : Res := s.vecIssue b k 0x411 ecc

/-- FMUL issues (R130). -/
def execFmul (b : Barn) (k : StallId) (ecc : List EccHit) (s : State) : Res := s.vecIssue b k 0x412 ecc

/-- FMA issues (R130). -/
def execFma (b : Barn) (k : StallId) (ecc : List EccHit) (s : State) : Res := s.vecIssue b k 0x413 ecc

/-- FMIN issues (R131). -/
def execFmin (b : Barn) (k : StallId) (ecc : List EccHit) (s : State) : Res := s.vecIssue b k 0x414 ecc

/-- FMAX issues (R131). -/
def execFmax (b : Barn) (k : StallId) (ecc : List EccHit) (s : State) : Res := s.vecIssue b k 0x415 ecc

/-- FABS issues (R129). -/
def execFabs (b : Barn) (k : StallId) (ecc : List EccHit) (s : State) : Res := s.vecIssue b k 0x416 ecc

/-- FNEG issues (R129). -/
def execFneg (b : Barn) (k : StallId) (ecc : List EccHit) (s : State) : Res := s.vecIssue b k 0x417 ecc

/-- FDIV issues (R142). -/
def execFdiv (b : Barn) (k : StallId) (ecc : List EccHit) (s : State) : Res := s.vecIssue b k 0x418 ecc

/-- FSQRT issues (R142). -/
def execFsqrt (b : Barn) (k : StallId) (ecc : List EccHit) (s : State) : Res := s.vecIssue b k 0x419 ecc

/-- FRCP issues (R142). -/
def execFrcp (b : Barn) (k : StallId) (ecc : List EccHit) (s : State) : Res := s.vecIssue b k 0x41A ecc

/-- FRSQRT issues (R142). -/
def execFrsqrt (b : Barn) (k : StallId) (ecc : List EccHit) (s : State) : Res := s.vecIssue b k 0x41B ecc

/-- FEXP issues (R144). -/
def execFexp (b : Barn) (k : StallId) (ecc : List EccHit) (s : State) : Res := s.vecIssue b k 0x420 ecc

/-- FLOG issues (R145). -/
def execFlog (b : Barn) (k : StallId) (ecc : List EccHit) (s : State) : Res := s.vecIssue b k 0x421 ecc

/-- FTANH issues (R146). -/
def execFtanh (b : Barn) (k : StallId) (ecc : List EccHit) (s : State) : Res := s.vecIssue b k 0x422 ecc

/-- FSIGM issues (R147). -/
def execFsigm (b : Barn) (k : StallId) (ecc : List EccHit) (s : State) : Res := s.vecIssue b k 0x423 ecc

/-- FERF issues (R148). -/
def execFerf (b : Barn) (k : StallId) (ecc : List EccHit) (s : State) : Res := s.vecIssue b k 0x424 ecc

/-- IADD issues (R132). -/
def execIadd (b : Barn) (k : StallId) (ecc : List EccHit) (s : State) : Res := s.vecIssue b k 0x430 ecc

/-- ISUB issues (R132). -/
def execIsub (b : Barn) (k : StallId) (ecc : List EccHit) (s : State) : Res := s.vecIssue b k 0x431 ecc

/-- IMUL issues (R132). -/
def execImul (b : Barn) (k : StallId) (ecc : List EccHit) (s : State) : Res := s.vecIssue b k 0x432 ecc

/-- IMULHU issues (R132). -/
def execImulhu (b : Barn) (k : StallId) (ecc : List EccHit) (s : State) : Res := s.vecIssue b k 0x433 ecc

/-- IMIN issues (R132). -/
def execImin (b : Barn) (k : StallId) (ecc : List EccHit) (s : State) : Res := s.vecIssue b k 0x434 ecc

/-- IMAX issues (R132). -/
def execImax (b : Barn) (k : StallId) (ecc : List EccHit) (s : State) : Res := s.vecIssue b k 0x435 ecc

/-- AND issues (R132). -/
def execVecAnd (b : Barn) (k : StallId) (ecc : List EccHit) (s : State) : Res := s.vecIssue b k 0x436 ecc

/-- OR issues (R132). -/
def execVecOr (b : Barn) (k : StallId) (ecc : List EccHit) (s : State) : Res := s.vecIssue b k 0x437 ecc

/-- XOR issues (R132). -/
def execVecXor (b : Barn) (k : StallId) (ecc : List EccHit) (s : State) : Res := s.vecIssue b k 0x438 ecc

/-- SHL issues (R132). -/
def execShl (b : Barn) (k : StallId) (ecc : List EccHit) (s : State) : Res := s.vecIssue b k 0x439 ecc

/-- SHR issues (R132). -/
def execShr (b : Barn) (k : StallId) (ecc : List EccHit) (s : State) : Res := s.vecIssue b k 0x43A ecc

/-- SRA issues (R132). -/
def execVecSra (b : Barn) (k : StallId) (ecc : List EccHit) (s : State) : Res := s.vecIssue b k 0x43B ecc

/-- IDIV issues (R132). -/
def execIdiv (b : Barn) (k : StallId) (ecc : List EccHit) (s : State) : Res := s.vecIssue b k 0x43C ecc

/-- IREM issues (R132). -/
def execIrem (b : Barn) (k : StallId) (ecc : List EccHit) (s : State) : Res := s.vecIssue b k 0x43D ecc

/-- IDIVU issues (R132). -/
def execIdivu (b : Barn) (k : StallId) (ecc : List EccHit) (s : State) : Res := s.vecIssue b k 0x43E ecc

/-- IREMU issues (R132). -/
def execIremu (b : Barn) (k : StallId) (ecc : List EccHit) (s : State) : Res := s.vecIssue b k 0x43F ecc

/-- FCMP issues (R131). -/
def execFcmp (b : Barn) (k : StallId) (ecc : List EccHit) (s : State) : Res := s.vecIssue b k 0x440 ecc

/-- ICMP issues (R132). -/
def execIcmp (b : Barn) (k : StallId) (ecc : List EccHit) (s : State) : Res := s.vecIssue b k 0x441 ecc

/-- MLOGIC issues (R140). -/
def execMlogic (b : Barn) (k : StallId) (ecc : List EccHit) (s : State) : Res := s.vecIssue b k 0x442 ecc

/-- VSEL issues (R129). -/
def execVsel (b : Barn) (k : StallId) (ecc : List EccHit) (s : State) : Res := s.vecIssue b k 0x450 ecc

/-- VMOV issues (R129). -/
def execVmov (b : Barn) (k : StallId) (ecc : List EccHit) (s : State) : Res := s.vecIssue b k 0x451 ecc

/-- VPERM issues (R129). -/
def execVperm (b : Barn) (k : StallId) (ecc : List EccHit) (s : State) : Res := s.vecIssue b k 0x452 ecc

/-- VLANE issues (R129). -/
def execVlane (b : Barn) (k : StallId) (ecc : List EccHit) (s : State) : Res := s.vecIssue b k 0x453 ecc

/-- CVT.P issues (R134). -/
def execCvtP (b : Barn) (k : StallId) (ecc : List EccHit) (s : State) : Res := s.vecIssue b k 0x460 ecc

/-- CVT.U issues (R135). -/
def execCvtU (b : Barn) (k : StallId) (ecc : List EccHit) (s : State) : Res := s.vecIssue b k 0x461 ecc

/-- FTOI issues (R133). -/
def execFtoi (b : Barn) (k : StallId) (ecc : List EccHit) (s : State) : Res := s.vecIssue b k 0x462 ecc

/-- ITOF issues (R133). -/
def execItof (b : Barn) (k : StallId) (ecc : List EccHit) (s : State) : Res := s.vecIssue b k 0x463 ecc

/-- RSUM issues (R136). -/
def execRsum (b : Barn) (k : StallId) (ecc : List EccHit) (s : State) : Res := s.vecIssue b k 0x470 ecc

/-- RMAX issues (R136). -/
def execRmax (b : Barn) (k : StallId) (ecc : List EccHit) (s : State) : Res := s.vecIssue b k 0x471 ecc

/-- RMIN issues (R136). -/
def execRmin (b : Barn) (k : StallId) (ecc : List EccHit) (s : State) : Res := s.vecIssue b k 0x472 ecc

/-- RARGMAX issues (R137). -/
def execRargmax (b : Barn) (k : StallId) (ecc : List EccHit) (s : State) : Res := s.vecIssue b k 0x473 ecc

/-- TRED issues (R138). -/
def execTred (b : Barn) (k : StallId) (ecc : List EccHit) (s : State) : Res := s.vecIssue b k 0x474 ecc

/-- TSCAN issues (R139). -/
def execTscan (b : Barn) (k : StallId) (ecc : List EccHit) (s : State) : Res := s.vecIssue b k 0x475 ecc

end Sys2Proof.Machine
end

