-- ==== Sys2Proof/Machine/Array.lean ====
section
/-! DEFINITION. The matrix arrays (R97-R121): stationary loads, passes and accumulator drains. -/

namespace Sys2Proof.Machine

/-! ### Accumulators (R110, R111) -/

/-- An accumulator error (R111, R490). -/
def State.accEcc (s : State) (i arr row : Nat) (correctable : Bool) : State :=
  let b := i / 48
  let k := i % 48
  let detail := 2 ^ 62 + arr * 2 ^ 16 + row
  let tag := 0x10000 + 1024 * arr + row
  if correctable then
    ((s.updStall i (fun t => { t with fixes := t.fixes ++ [tag] })).fsat (F.ARR_SAT_ACC_CORRECTED b k) 1).raiseStl
      b k 0x020E detail tag (s.physOf b k)
  else (s.fsat (F.ARR_SAT_ACC_UNCORRECTED b k) 1).raiseStl b k 0x020F detail 0 (s.physOf b k)

/-- Read a row of an accumulator as it stands at the start of beat `beat`. -/
def State.readAcc (s : State) (i beat arr row : Nat) (ecc : List EccHit) : AccRow × State :=
  let v := (s.stall i).acc.readAt AccRow.zeroF beat (1024 * arr + row)
  match ecc.find? (fun h => h.mem = 1 && h.at_ = 1024 * arr + row) with
  | some h => ({ v with poison := v.poison || !h.correctable }, s.accEcc i arr row h.correctable)
  | none => (v, s)

def State.writeAcc (s : State) (i beat arr row : Nat) (v : AccRow) : State :=
  s.updStall i (fun t => { t with acc := t.acc.write beat (1024 * arr + row) v })

/-! ### ARR.LOAD (R114) -/

def alMx (w : Cmd) : Bool := alAfmt w = 2 || alAfmt w = 3
def alEpochR (w : Cmd) : Option Nat := if alCheck w then some (alEpoch w) else none
def alBeats (w : Cmd) : Nat := groupBeats (groupLines (tileSources w))

def State.statBuf (s : State) (i n : Nat) : StatBuf := Tab.get StatBuf.zeroF (s.stall i).stat n

def State.updStat (s : State) (i n : Nat) (f : StatBuf → StatBuf) : State :=
  s.updStall i (fun t => { t with stat := Tab.upd StatBuf.zeroF t.stat n f })

/-- Put bytes, with the offsets they go to, into the data of a buffer. -/
def StatBuf.putBytes (v : StatBuf) : List (Nat × PByte) → StatBuf
  | [] => v
  | (o, p) :: r => StatBuf.putBytes
      { v with
        data := BitVec.ofNat 16384 (setBits v.data.toNat (8 * o) 8 p.v.toNat)
        pois := BitVec.ofNat 2048 (setBits v.pois.toNat o 1 (b2n p.poison)) } r

/-- Beat q of the tile read: the bytes of the lines read enter the buffer. -/
def State.arrTile (s : State) (a : Act) (q : Nat) : State :=
  let w := a.w
  let srcs := tileSources w
  let ls := grpLines srcs q
  let r := s.rdLines (a.stall / 48) (a.stall % 48) a.beat 1 a.ord (alEpochR w) a.ecc ls
  let mine := srcs.zipIdx.filter (fun p => ls.contains (p.1 / 64))
  let bytes := (mine.map Prod.snd).zip (pickBytes r.1 (mine.map Prod.fst))
  let s1 := r.2.updStat a.stall (2 * alArray w + alBuf w) (fun v => v.putBytes bytes)
  if q + 1 < alBeats w then s1.addAct { a with beat := a.beat + 1, m := .grp .tile (q + 1) [] 0 0 }
  else if alMx w then s1.addAct { a with beat := a.beat + 1, m := .grp .scales 0 [] 0 0 } else s1

/-- The scale line of an MX tile. -/
def State.arrScales (s : State) (a : Act) : State :=
  let w := a.w
  let r := s.rdLine (a.stall / 48) (a.stall % 48) a.beat (alSsrc w / 64) 1 a.ord (alEpochR w) a.ecc
  let v := bits r.1.data.toNat (8 * (alSsrc w % 64) + 255) (8 * (alSsrc w % 64))
  r.2.updStat a.stall (2 * alArray w + alBuf w) (fun b =>
    { b with scale := BitVec.ofNat 256 v, spois := if r.1.poison then BitVec.allOnes 32 else 0 })

/-! ### Timing (R117) -/

/-- Beats from issue to completion (R117). -/
def mmaDone (w : Cmd) : Nat := (mmaTime w).d + (mmaTime w).l + (mmaTime w).t

/-- e(j) of R117. -/
def mmaE (f : WFmt) (j : Nat) : Nat := if f.perStep = 2 then j / 2 + 1 else if f.steps = 4 then 4 * j + 4 else j + 1

/-! ### MMA (R104-R109, R115) -/

/-- Features that enter in step t. -/
def stepFeatures (f : WFmt) (n t : Nat) : List Nat :=
  let js := if f.perStep = 2 then [2 * t, 2 * t + 1] else if f.steps = 4 then (if t % 4 = 0 then [t / 4] else []) else [t]
  js.filter (· < n)

/-- Lines of 64 bytes that a byte range covers. -/
def linesOf (a len : Nat) : List Nat :=
  if len = 0 then [] else (List.range ((a + len - 1) / 64 - a / 64 + 1)).map (· + a / 64)

/-- The lines of the records and scales of feature j, numbered by offset / 64. -/
def featLines (w : Cmd) (j : Nat) : List Nat :=
  let f := mmaFmt w
  let kg := (mmaGang w).kg
  linesOf (mWaddr w + j * recBytes f kg) (recBytes f kg) ++ linesOf (mSaddr w + j * scaleBytes f kg) (scaleBytes f kg)

def Stall.pass (t : Stall) (ord : Nat) : Option Pass := t.passes.find? (fun p => p.ord = ord)

def State.updPass (s : State) (i ord : Nat) (f : Pass → Pass) : State :=
  s.updStall i (fun t => { t with passes := t.passes.map (fun p => if p.ord = ord then f p else p) })

def mEpochR (w : Cmd) : Option Nat := if mCheck w then some (mEpoch w) else none

/-- The reads of step t from the scratchpad: every line of the step that no earlier step has read (R105). -/
def State.mmaRead (s : State) (a : Act) (t : Nat) : State :=
  let w := a.w
  let have_ := match (s.stall a.stall).pass a.ord with | some p => p.got.map Prod.fst | none => []
  let want := ((stepFeatures (mmaFmt w) (mNf w) t).flatMap (featLines w)).dedup.filter (fun l => !have_.contains l)
  let r := s.rdLines (a.stall / 48) (a.stall % 48) a.beat 1 a.ord (mEpochR w) a.ecc want
  let s1 := r.2.updPass a.stall a.ord (fun p =>
    { p with got := r.1.foldl (fun g x => Tab.put x.1 x.2 g) p.got })
  if t + 1 < (mmaTime w).t then s1.addAct { a with beat := a.beat + 1, m := .mmaRead (t + 1) } else s1

/-- The blocks of the loft that a pass reads, each with the first step that needs a byte of it (R160). -/
def mmaBlocks (w : Cmd) : List (Nat × Nat) :=
  let f := mmaFmt w
  let pairs := (List.range (mNf w)).flatMap (fun j =>
    ((featLines w j).map (· / 4)).dedup.map (fun blk => (blk, j / f.perStep * f.steps)))
  pairs.foldl (fun acc p => if acc.any (fun q => q.1 = p.1) then acc else acc ++ [p]) []

/-- A block of the loft is read in its bank cycle (R160). -/
def State.mmaBlk (s : State) (a : Act) (blk : Nat) : State :=
  let n := a.stall / 48
  let u := s.useLoft n a.beat blk 2 (2 * a.ord) a.job
  let r : BlockVal × Option Nat × State :=
    if u.1 then u.2.loftRead n blk (some a.job) a.ecc else (⟨0, true⟩, none, u.2)
  r.2.2.updPass a.stall a.ord (fun p =>
    { p with
      got := (List.range 4).foldl (fun g q => Tab.put (4 * blk + q) (r.1.line q) g) p.got
      waits := r.2.1.toList ++ p.waits })

/-- The data of a block reaches the gang: its bytes cross the bond port, and a block under repair holds the region
(R105, R166). -/
def State.mmaNeed (s : State) (a : Act) (blk : Nat) : State :=
  match s.anyRepairing [srcId (a.stall / 48) blk] with
  | some id => s.holdFor a id
  | none => s

/-- The bytes that a pass takes through the bond port in a beat, in quarters (R104, R105). -/
def State.mmaBond (s : State) (a : Act) (t : Nat) : State :=
  let w := a.w
  let s1 := s.bondUse a.stall a.beat (mmaBytes4 (mmaFmt w) (mmaGang w).kg / 4) true
  if t + 1 < (mmaTime w).t then s1.addAct { a with beat := a.beat + 1, m := .mmaStream (t + 1) } else s1

/-- The bytes of a range, as a number, from lines read; and whether one of them is poisoned. -/
def gotBytes (got : Tab LineVal) (a len : Nat) : Nat × Bool :=
  let ls := linesOf a len
  let v := ls.foldr (fun l acc => (Tab.get (fun _ => ⟨0, 0, true⟩) got l).data.toNat + 2 ^ 512 * acc) 0
  (v / 2 ^ (8 * (a % 64)) % 2 ^ (8 * len), ls.any (fun l => (Tab.get (fun _ => ⟨0, 0, true⟩) got l).poison))

/-- The format and MX flag of an activation format (R102); none for INT8. -/
def afmtOf (n : Nat) : Option (Fmt × Bool) :=
  match n with
  | 0 => some (fp8e4, false)
  | 1 => some (fp8e5, false)
  | 2 => some (fp8e4, true)
  | 3 => some (fp8e5, true)
  | 4 => some (bf16, false)
  | 5 => some (fp16, false)
  | _ => none

/-- The activation element at row r, column c of an array (R103), as bits. -/
def actBits (af : Nat) (tile : BitVec 16384) (r c : Nat) : Nat :=
  if af = 4 ∨ af = 5 then bits tile.toNat (16 * (c * 32 + r) + 15) (16 * (c * 32 + r))
  else bits tile.toNat (8 * (c * 32 + r) + 7) (8 * (c * 32 + r))

/-- The rows r0.. of gang row group q and the tile index of the array that holds them for column group p. -/
def Gang.tileIdx (g : Gang) (q p : Nat) : Nat :=
  (g.parts.findIdx? (fun x => x.1 = q && x.2.1 = p)).getD 0

/-- The pass result of column c in column group p, floating point (R106): record and scale bits of the feature. -/
def dotFp (f : WFmt) (wf : Fmt) (af : Nat) (g : Gang) (ps : Pass) (rcd scl p c : Nat) : SumSt :=
  match afmtOf af with
  | none => SumSt.start
  | some (fa, mxa) =>
    (List.range g.kg).foldl (fun st r =>
      let q := r / 32
      let x := decodeNum wf (bits rcd (f.bitsPer * r + f.bitsPer - 1) (f.bitsPer * r))
      let x := if f.mx then mxScale x (bits scl (8 * q + 7) (8 * q)) else x
      let ti := g.tileIdx q p
      let y := decodeNum fa (actBits af (ps.tile.getD ti 0) (r % 32) c)
      let y := if mxa then mxScale y (bits (ps.scale.getD ti 0).toNat (8 * c + 7) (8 * c)) else y
      st.mac x y) SumSt.start

/-- The pass result of integer formats (R108). -/
def dotInt (f : WFmt) (g : Gang) (ps : Pass) (rcd p c : Nat) : Int :=
  ((List.range g.kg).map (fun r =>
    signed f.bitsPer (bits rcd (f.bitsPer * r + f.bitsPer - 1) (f.bitsPer * r)) *
    signed 8 (actBits 6 (ps.tile.getD (g.tileIdx (r / 32) p) 0) (r % 32) c))).sum

/-- The new value of an accumulator entry, and whether it saturated or became infinite (R106-R108). -/
structure EntryOut where
  v : Nat
  sat : Bool
  inf : Nat
  deriving DecidableEq, Repr

def mmaEntry (w : Cmd) (ps : Pass) (rcd scl p c old : Nat) : EntryOut :=
  let f := mmaFmt w
  let g := mmaGang w
  match f.fp with
  | some wf =>
    let st := dotFp f wf (mAfmt w) g ps rcd scl p c
    let r := st.result
    let v := if mAdd w then accAdd32 old r else r
    ⟨v, false, b2n st.overflows + b2n (mAdd w && isInf32 v && abs32 old < 0x7F800000 && abs32 r < 0x7F800000)⟩
  | none =>
    let i := dotInt f g ps rcd p c
    if mAdd w then
      let t := s32 old + i
      ⟨unsigned 32 (clampInt (-2147483648) 2147483647 t), t < -2147483648 || 2147483647 < t, 0⟩
    else ⟨unsigned 32 i, false, 0⟩

/-- Write row ACC + j of the accumulator of column group p (R106-R110). -/
def State.mmaRowAt (s : State) (a : Act) (ps : Pass) (j p : Nat) : State :=
  let w := a.w
  let f := mmaFmt w
  let g := mmaGang w
  let rcd := gotBytes ps.got (mWaddr w + j * recBytes f g.kg) (recBytes f g.kg)
  let scl := gotBytes ps.got (mSaddr w + j * scaleBytes f g.kg) (scaleBytes f g.kg)
  let arr := g.accOf p
  let old := if mAdd w then s.readAcc a.stall (a.beat + 1) arr (mAcc w + j) a.ecc else (AccRow.zero, s)
  let es := (List.range 32).map (fun c => mmaEntry w ps rcd.1 scl.1 p c (bits old.1.v.toNat (32 * c + 31) (32 * c)))
  let s1 := old.2.writeAcc a.stall a.beat arr (mAcc w + j)
    ⟨BitVec.ofNat 1024 (es.foldr (fun e acc => e.v + 2 ^ 32 * acc) 0),
     rcd.2 || (f.mx && scl.2) || ps.bad || (mAdd w && old.1.poison)⟩
  (s1.fsat (F.ARR_SAT_INT_SAT (a.stall / 48) (a.stall % 48)) (es.filter EntryOut.sat).length).fsat
    (F.ARR_SAT_FP_INF (a.stall / 48) (a.stall % 48)) (es.map EntryOut.inf).sum

/-- The rows of the features that are complete in this beat, from feature j on (R117). -/
def State.mmaRow (s : State) (a : Act) (j : Nat) : State :=
  let w := a.w
  let f := mmaFmt w
  match (s.stall a.stall).pass a.ord with
  | none => s
  | some ps =>
    let js := (List.range f.perStep).map (· + j) |>.filter (· < mNf w)
    let cols := List.range ((mmaGang w).cg / 32)
    let s1 := js.foldl (fun s j => cols.foldl (fun s p => s.mmaRowAt a ps j p) s) s
    let j' := j + f.perStep
    if j' < mNf w then
      s1.addAct { a with beat := a.iss + (mmaTime w).d + (mmaTime w).l + mmaE f j', m := .mmaRow j' }
    else s1

/-- The stationary tiles as the pass finds them (R97, R103). -/
def State.passOf (s : State) (i ord : Nat) (w : Cmd) : Pass :=
  let bufs := (mmaGang w).arrays.map (fun x => s.statBuf i (2 * x + mBuf w))
  let wide := mAfmt w = 4 || mAfmt w = 5
  let mxa := mAfmt w = 2 || mAfmt w = 3
  { ord := ord
    tile := bufs.map StatBuf.data
    scale := bufs.map StatBuf.scale
    bad := bufs.any (fun v => (if wide then v.pois.toNat else v.pois.toNat % 2 ^ 1024) ≠ 0 || (mxa && v.spois ≠ 0))
    got := []
    waits := [] }

/-- A pass issues (R105, R115, R117). -/
def State.mmaStart (s : State) (b k j : Nat) (w : Cmd) (ecc : List EccHit) : State :=
  let i := 48 * b + k
  let now := s.beat b
  let t := mmaTime w
  let a := { s.actNow b k j 0 w ecc with rank := 1 }
  let s1 := (s.inFlight b k 1 w 0 (now + mmaDone w) none []).updStall i (fun x =>
    { x with passes := x.passes ++ [s.passOf i a.ord w] })
  let s2 := s1.addAct { a with beat := now + t.d + t.l + mmaE (mmaFmt w) 0, rank := 7, m := .mmaRow 0 }
  if mLoft w then
    let f := s.loftF b
    let s3 := s2.addAct { a with beat := now + t.d + 1, m := .mmaStream 0 }
    (mmaBlocks w).foldl (fun s p =>
      let c0 := (f + 12 + p.2) / 2
      let c := if refreshSlot (blkBank p.1) c0 then c0 - 1 else c0
      (s.addAct { a with beat := cycleBeat now f c, rank := 2, m := .mmaBlk p.1 }).addAct
        { a with beat := now + t.d + 1 + p.2, rank := 2, m := .mmaNeed p.1 }) s3
  else s2.addAct { a with m := .mmaRead 0 }

/-! ### ACC.DRAIN (R116) -/

/-- Four rows are read, and written to the scratchpad one beat later. -/
def State.accDrain (s : State) (a : Act) (k : Nat) : State :=
  let w := a.w
  let rows := (List.range 4).map (· + 4 * k) |>.filter (· < adRows w)
  let r := rows.foldl (fun (acc : List Moving × State) n =>
    let x := acc.2.readAcc a.stall a.beat (adArray w) (adRow w + n) a.ecc
    let s1 := if adClear w then x.2.writeAcc a.stall a.beat (adArray w) (adRow w + n) AccRow.zero else x.2
    let l := adDst w / 64 + 2 * n
    (acc.1 ++ [⟨l, ⟨BitVec.ofNat 512 x.1.v.toNat, adEpoch w, x.1.poison⟩, 0, none⟩,
      ⟨l + 1, ⟨BitVec.ofNat 512 (x.1.v.toNat / 2 ^ 512), adEpoch w, x.1.poison⟩, 0, none⟩], s1)) ([], s)
  let s1 := r.2.addAct { a with beat := a.beat + 1, m := .land a.stall r.1 }
  if 4 * (k + 1) < adRows w then s1.addAct { a with beat := a.beat + 1, m := .drain (k + 1) } else s1

/-! ### The rows -/

/-- The work of the array engine in its beat. -/
def State.arrWork (s : State) (a : Act) : State :=
  match a.m with
  | .grp .tile q _ _ _ => s.arrTile a q
  | .grp .scales _ _ _ _ => s.arrScales a
  | .mmaRead t => s.mmaRead a t
  | .mmaBlk off => s.mmaBlk a off
  | .mmaNeed off => s.mmaNeed a off
  | .mmaStream t => s.mmaBond a t
  | .mmaRow j => s.mmaRow a j
  | .drain k => s.accDrain a k
  | _ => s

/-- ARR.LOAD issues (R114). -/
def execArrLoad (b : Barn) (k : StallId) (ecc : List EccHit) (s : State) : Res :=
  .next (s.issue b k 1 (isOpcode 0x201) (fun s j w =>
    let now := s.beat b
    (s.inFlight b k 1 w 0 (now + alBeats w + 1 + b2n (alMx w)) none []).addAct
      { s.actNow b k j 0 w ecc with beat := now + 1, rank := 1, m := .grp .tile 0 [] 0 0 }))

/-- MMA issues (R115). -/
def execMma (b : Barn) (k : StallId) (ecc : List EccHit) (s : State) : Res :=
  .next (s.issue b k 1 (isOpcode 0x202) (fun s j w => s.mmaStart b k j w ecc))

/-- ACC.DRAIN issues (R116). -/
def execAccDrain (b : Barn) (k : StallId) (ecc : List EccHit) (s : State) : Res :=
  .next (s.issue b k 1 (isOpcode 0x203) (fun s j w =>
    let now := s.beat b
    (s.inFlight b k 1 w 0 (now + (adRows w + 3) / 4 + 1) none []).addAct
      { s.actNow b k j 0 w ecc with beat := now + 1, rank := 1, m := .drain 0 }))

end Sys2Proof.Machine
end

