-- ==== Sys2Proof/Machine/Cfg.lean ====
section
/-! DEFINITION. The configuration CRC of a register block and its committed reference (R450-R454). -/

namespace Sys2Proof.Machine

/-- A number with the `n` bits from `lo` on set. -/
def fieldMask (lo n : Nat) : Nat := (2 ^ n - 1) * 2 ^ lo

/-- The bits of a register that lie in RWL fields. -/
def RegRow.lockedMask (r : RegRow) : Nat :=
  (r.fields.filter (fun f => f.acc = .rwl)).foldl (fun m f => m ||| fieldMask f.lo f.width) 0

/-- The registers of a block kind that hold RWL fields, in ascending offset order, the common ones left out: offset,
instance numbers, and the mask of the RWL fields (R452). -/
def cfgRegs (b : Blk) : List (Nat × Nat × Nat) :=
  let rows := b.rows.filter (fun r => decide (0x100 ≤ r.off ∧ r.lockedMask ≠ 0))
  if rows = [] then []
  else (List.range 2016).filterMap (fun i =>
    let o := 0x100 + 8 * i
    (findRow rows o).map (fun x => (o, x.2.1, x.1.lockedMask)))

/-- The RWL fields of a register as they stand. A register of a stall at or above the stall count reads as zero, and
LDR_STALL_MASK is the mask that maps stalls. -/
def State.cfgVal (s : State) (b : Blk) (i : Nat) (r : Nat × Nat × Nat) : Nat :=
  match b with
  | .ldr => s.goodMask r.2.1
  | .stl => if s.stallCount i ≤ r.2.1 then 0 else s.reg (b.base i + r.1) &&& r.2.2
  | _ => s.reg (b.base i + r.1) &&& r.2.2

/-- The configuration CRC of block `i` of a kind (R452). -/
def State.cfgCrc (s : State) (b : Blk) (i : Nat) : Nat :=
  crc32c ((cfgRegs b).flatMap (fun r => leBytes 8 (s.cfgVal b i r)))

/-- The same device with every configuration as reset leaves it. -/
def State.resetCfg (s : State) : State := { s with regs := [], mask := s.fused }

/-- CFG_REF: what was last committed, else the CRC of the reset configuration (R451). -/
def State.cfgRefOf (s : State) (b : Blk) (i : Nat) : Nat :=
  match Tab.get (fun _ => none) s.cfgRef (b.base i) with
  | some v => v
  | none => s.resetCfg.cfgCrc b i

def State.setCfgRef (s : State) (b : Blk) (i v : Nat) : State :=
  { s with cfgRef := Tab.set (fun _ => none) s.cfgRef (b.base i) (some v) }

/-- Hardware has changed an RWL field: CFG_REF follows (R454). -/
def State.commitRef (s : State) (b : Blk) (i : Nat) : State := s.setCfgRef b i (s.cfgCrc b i)

/-- Write an RWL field as hardware does: a reference that stood for the stored configuration follows it. -/
def State.hwSet (s : State) (b : Blk) (i : Nat) (f : Fld) (v : Nat) : State := (s.fset f v).commitRef b i

end Sys2Proof.Machine
end

