-- ==== Sys2Proof/Machine/Crypto.lean ====
section
/-! DEFINITION. AES-256-GCM over the two functions that the manual names by reference, and the sealing and opening of
job packets (R403). -/

namespace Sys2Proof.Machine

/-- The `n` bytes of the key stream of a message. -/
def gcmPad (key : BitVec 256) (nonce : BitVec 96) (n : Nat) : List Byte :=
  ((List.range ((n + 15) / 16)).flatMap (fun i => leBytes 16 (Config.gcmStream key nonce i).toNat)).take n

def xorBytes (a b : List Byte) : List Byte := a.zipWith (· ^^^ ·) b

/-- Ciphertext of a message, or message of a ciphertext. -/
def gcmXor (key : BitVec 256) (nonce : BitVec 96) (m : List Byte) : List Byte := xorBytes m (gcmPad key nonce m.length)

/-- Open a message: the plaintext when the tag is right. -/
def gcmOpen (key : BitVec 256) (nonce : BitVec 96) (aad ct : List Byte) (tag : Nat) : Option (List Byte) :=
  if (Config.gcmTag key nonce aad ct).toNat = tag then some (gcmXor key nonce ct) else none

def shake (bs : List Byte) : Nat := (Config.shake256 bs).toNat

/-! ### Job packets (R403) -/

/-- The nonce of a job packet; `n` is the stream number with its wraps. A number is written most significant byte
first, so the nonce is the number itself. -/
def pktNonce (h : FabHdr) (plane n : Nat) : BitVec 96 :=
  let ackG := h.kind = 3 && bit h.addr 10
  BitVec.ofNat 96 (h.src * 2 ^ 84 + (if ackG then bits h.addr 9 0 else h.dst) * 2 ^ 72 + b2n (h.mcast || ackG) * 2 ^ 71 +
    b2n (h.kind = 3) * 2 ^ 70 + plane % 16 * 2 ^ 66 + h.gen % 4096 * 2 ^ 54 + n % 2 ^ 48)

def linesBytes (ls : List Line) : List Byte := ls.flatMap (fun l => leBytes 64 l.toNat)

def bytesLines : Nat → List Byte → List Line
  | 0, _ => []
  | n + 1, bs => BitVec.ofNat 512 (leNat (bs.take 64)) :: bytesLines n (bs.drop 64)

/-- The authenticated data: the header with PLAN and TAG zero (R249). -/
def pktAad (hdr : Nat) : List Byte := leBytes 32 (setBits hdr 121 1 0 % 2 ^ 160)

/-- The key as bytes are written: K_job. -/
def keyOf (k : Nat) : BitVec 256 := BitVec.ofNat 256 k

/-- Seal a packet: its lines become ciphertext, and TAG holds the leftmost 96 bits of the tag. -/
def sealPkt (key : Nat) (plane n : Nat) (p : FabPkt) : FabPkt :=
  let nonce := pktNonce p.head plane n
  let ct := gcmXor (keyOf key) nonce (linesBytes p.lines)
  let tag := (Config.gcmTag (keyOf key) nonce (pktAad p.hdr.toNat) ct).toNat / 2 ^ 32
  ⟨BitVec.ofNat 256 (p.hdr.toNat % 2 ^ 160 + tag * 2 ^ 160), bytesLines p.lines.length ct⟩

/-- The lines as the key deciphers them, and whether the packet authenticates. -/
def openPkt (key : Nat) (plane n : Nat) (p : FabPkt) : List Line × Bool :=
  let nonce := pktNonce p.head plane n
  let ct := linesBytes p.lines
  (bytesLines p.lines.length (gcmXor (keyOf key) nonce ct),
   (Config.gcmTag (keyOf key) nonce (pktAad p.hdr.toNat) ct).toNat / 2 ^ 32 = bits p.hdr.toNat 255 160)

end Sys2Proof.Machine
end

