-- ==== Sys2Proof/Machine/Packets.lean ====
section
/-! DEFINITION. Packet layouts of the mesh: the CRC-16 of flits and control packets, the headers of scheduled and unscheduled
flits, and control packets with their types and bodies (R201, R211-R213, R409). -/

namespace Sys2Proof.Machine

/-! ### CRC (R201) -/

/-- One step of a CRC with the highest bit first. -/
def crc16Bit (c : Nat) : Nat := if 0x8000 ≤ c then (2 * c % 65536) ^^^ 0x1021 else 2 * c

/-- CRC-16 with polynomial 0x1021, most significant bit first in each byte (R201). -/
def crc16 : List Byte → Nat → Nat
  | [], c => c
  | b :: bs, c =>
    crc16 bs (crc16Bit (crc16Bit (crc16Bit (crc16Bit (crc16Bit (crc16Bit (crc16Bit (crc16Bit (c ^^^ (b.toNat * 256))))))))))

/-- The CRC of a flit: over header bits [111:0] and the payload. -/
def flitCrc (h : Nat) (data : Line) : Nat := crc16 (leBytes 14 h ++ leBytes 64 data.toNat) 0xFFFF

/-- A flit with header bits [111:0] `h`: its CRC in bits [127:112]. -/
def mkFlit (h : Nat) (data : Line) : Flit :=
  let h := h % 2 ^ 112
  ⟨BitVec.ofNat 128 (h + flitCrc h data * 2 ^ 112), data⟩

/-- A router finds the CRC of a flit good (R202). -/
def Flit.good (f : Flit) : Bool := f.hdr.toNat / 2 ^ 112 = flitCrc (f.hdr.toNat % 2 ^ 112) f.data

/-- The CRC of a control packet, which travels beside it. -/
def ctrlCrc (w : BitVec 128) : Nat := crc16 (leBytes 16 w.toNat) 0xFFFF

/-! ### Scheduled flits (R211) -/

/-- The bits that every form has: FORM, POISON, EPOCH and LAST. -/
def schedHead (form : Nat) (v : LineVal) (last : Bool) : Nat :=
  form * 2 ^ 110 + b2n v.poison * 2 ^ 109 + v.epoch % 16 * 2 ^ 105 + b2n last * 2 ^ 104

/-- The slot form. -/
def slotFlit (slot bmask smask : Nat) (v : LineVal) (last : Bool) : Flit :=
  mkFlit (schedHead 0 v last + slot % 256 * 2 ^ 96 + bmask % 2 ^ 24 * 2 ^ 72 + smask % 2 ^ 48 * 2 ^ 24) v.data

/-- The write form, at a fabric address. -/
def writeFlit (addr rsig rinc : Nat) (fence : Bool) (v : LineVal) (last : Bool) : Flit :=
  mkFlit (schedHead 1 v last + addr % 2 ^ 48 * 2 ^ 56 + rsig % 65536 * 2 ^ 40 + rinc % 256 * 2 ^ 32 + b2n fence * 2 ^ 31) v.data

/-- The read request form. The rule names what payload bytes 0 to 15 hold and no layout: they hold it in the order of its list,
from bit 0 up (DESIGN CHOICE, log entry 114). -/
def readFlit (addr barn stall off epochR : Nat) (check fence : Bool) (rsig rinc : Nat) : Flit :=
  mkFlit (schedHead 2 LineVal.zero false + addr % 2 ^ 48 * 2 ^ 56)
    (BitVec.ofNat 512 (barn % 32 + stall % 64 * 2 ^ 5 + off % 2 ^ 22 * 2 ^ 11 + epochR % 16 * 2 ^ 33 + b2n check * 2 ^ 37 +
      b2n fence * 2 ^ 38 + rsig % 65536 * 2 ^ 39 + rinc % 256 * 2 ^ 55))

/-- The signal form of NET.SIG. -/
def sigFlit (idx inc bmask : Nat) : Flit :=
  mkFlit (schedHead 3 LineVal.zero false + idx % 2048 * 2 ^ 93 + inc % 256 * 2 ^ 85 + bmask % 2 ^ 24 * 2 ^ 61) 0

/-! ### Unscheduled flits (R212) -/

/-- Flits of a packet: one for each line that it carries or asks for. -/
def UPkt.flits (p : UPkt) : Nat := if p.form = 1 then p.lines else p.data.length

/-- The i-th flit of an unscheduled packet on device `dev`: ADDR is a fabric address, and the selector and the increment are
those that follow the packet's last flit. -/
def UPkt.flit (p : UPkt) (dev i : Nat) : Flit :=
  let l := p.data.getD i LineVal.zero
  mkFlit (p.form % 4 * 2 ^ 110 + b2n l.poison * 2 ^ 109 + l.epoch % 16 * 2 ^ 105 + b2n p.fence * 2 ^ 104 + p.job % 8 * 2 ^ 101 +
    (p.flits - 1) % 4 * 2 ^ 99 + i % 4 * 2 ^ 97 + (dev * 2 ^ 36 + (p.addr + 64 * i) % 2 ^ 36) % 2 ^ 48 * 2 ^ 49 +
    p.sel % 65536 * 2 ^ 33 + p.inc % 256 * 2 ^ 25 + p.src % 256 * 2 ^ 17 + p.tag % 2 ^ 17) l.data

/-! ### Control packets (R213) -/

def CPkt.ty (c : CPkt) : Nat := bits c.word.toNat 127 124
def CPkt.src (c : CPkt) : Nat := bits c.word.toNat 123 118
def CPkt.dst (c : CPkt) : Nat := bits c.word.toNat 117 112
def CPkt.stall (c : CPkt) : Nat := bits c.word.toNat 111 106
def CPkt.body (c : CPkt) : Nat := bits c.word.toNat 105 0

/-- What a retention buffer keeps of a control packet: its 16 bytes, with its CRC beside them. -/
def CPkt.kept (c : CPkt) : Flit := ⟨c.word, BitVec.ofNat 512 (ctrlCrc c.word)⟩

end Sys2Proof.Machine
end

