-- ==== Sys2Proof/Machine/MeshOps.lean ====
section
/-! DEFINITION. The mesh: points, routes, travel times, scheduled channels and their limit, unscheduled and control
packets, and the retention buffers (R189-R204). -/

namespace Sys2Proof.Machine

/-! ### Points and routes (R190-R192) -/

/-- The barn whose router an Unnar port attaches to (R190). -/
def portRouter (p : Nat) : Nat :=
  [18, 19, 19, 20, 21, 22, 22, 23, 5, 5, 11, 11, 17, 17, 23, 23, 0, 1, 1, 2, 3, 4, 4, 5, 0, 0, 6, 6, 12, 12, 18, 18].getD p 0

/-- The edge point of a port: 24 north, 25 east, 26 south, 27 west (R190). -/
def portEdge (p : Nat) : Nat := 24 + p / 8

/-- The router through which hub and Tackroom traffic of barn b passes (R191). -/
def hubRouter (b : Nat) : Nat :=
  let m := minOf 99 ([0, 6, 12, 18].map (fun r => hops r b))
  (([0, 6, 12, 18] : List Nat).find? (fun r => hops r b = m)).getD 0

/-- One hop of the XY route: the output taken (0 north, 1 east, 2 south, 3 west) and the next router (R192). -/
def xyHop (a d : Nat) : Nat × Nat :=
  if a % 6 < d % 6 then (1, a + 1)
  else if d % 6 < a % 6 then (3, a - 1)
  else if a / 6 < d / 6 then (0, a + 6) else (2, a - 6)

/-- The links of the XY route: (router, output). -/
def xyPath : Nat → Nat → Nat → List (Nat × Nat)
  | 0, _, _ => []
  | n + 1, a, d => if a = d then [] else (a, (xyHop a d).1) :: xyPath n (xyHop a d).2 d

/-! ### Travel times (R193) -/

def tStall (a d : Nat) : Nat := if a = d then 6 else 8 + 3 * hops a d
def tSync (a d : Nat) : Nat := if a = d then 4 else 8 + 3 * hops a d
/-- Stall to an edge input; edge west lies behind the hub. -/
def tEdge (a router point : Nat) : Nat := (if point = 27 then 9 else 7) + 3 * hops a router

/-! ### Scheduled channels (R194) -/

def chLink (b d : Nat) : Nat := 4 * b + d
def chAttOut (b p : Nat) : Nat := 1000 + 32 * b + p
def chAttIn (b p : Nat) : Nat := 2000 + 32 * b + p
def chInj (i : Nat) : Nat := 3000 + i
def chEject (i : Nat) : Nat := 5000 + i

/-- The destinations of flits: stalls by index, then the loft of a barn, the sync block of a barn, an edge point. -/
def dLoft (b : Nat) : Nat := 2000 + b
def dSync (b : Nat) : Nat := 3000 + b
def dEdge (p : Nat) : Nat := 4000 + p

/-- Channel, beat and destination of one flit on its way from router a at beat s + 4 (links, then the last channel). -/
def pathUses (a d s : Nat) (dest : Nat) : List (Nat × Nat × Nat) :=
  (xyPath 12 a d).zipIdx.map (fun p => (chLink p.1.1 p.1.2, s + 4 + 3 * p.2, dest))

/-- What a flit from a stall to a destination uses: injection, links, and ejection or attachment. -/
def stallUses (i s dest : Nat) (router point : Nat) : List (Nat × Nat × Nat) :=
  let a := i / 48
  if dest < 2000 then
    (chInj i, s, dest) :: pathUses a (dest / 48) s dest ++ [(chEject dest, s + tStall a (dest / 48), dest)]
  else if dest < 3000 then (if dest - 2000 = a then [] else (chInj i, s, dest) :: pathUses a (dest - 2000) s dest)
  else if dest < 4000 then (chInj i, s, dest) :: pathUses a (dest - 3000) s dest
  else (chInj i, s, dest) :: pathUses a router s dest ++ [(chAttOut router point, s + 4 + 3 * hops a router, dest)]

/-- What the answer from another barn's loft or scratchpad to stall `i` uses; it lands in beat `land`. -/
def replyUses (d i s land : Nat) (fromStall : Option Nat) : List (Nat × Nat × Nat) :=
  (match fromStall with | some j => [(chInj j, s, i)] | none => []) ++
  (xyPath 12 d (i / 48)).zipIdx.map (fun p =>
    (chLink p.1.1 p.1.2, land - 4 - 3 * hops d (i / 48) + 3 * p.2, i)) ++ [(chEject i, land, i)]

/-- Uses of one channel in one beat become one use of the flit (R192). -/
def groupUses (key flit job : Nat) (body : Flit) (us : List (Nat × Nat × Nat)) : List ChanUse :=
  us.foldl (fun acc u =>
    if acc.any (fun c => c.chan = u.1 && c.beat = u.2.1) then
      acc.map (fun c => if c.chan = u.1 ∧ c.beat = u.2.1 then { c with dests := c.dests ++ [u.2.2] } else c)
    else acc ++ [⟨u.1, u.2.1, key, flit, [u.2.2], job, body⟩]) []

/-- A flit with its header and payload takes its channels: its number, and the state in which it has them. -/
def State.newFlit (s : State) (key job : Nat) (body : Flit) (us : List (Nat × Nat × Nat)) : Nat × State :=
  let n := s.mesh.nextFlit
  (n, { s with mesh := { s.mesh with nextFlit := n + 1, uses := s.mesh.uses ++ groupUses key n job body us } })

/-- Several flits, one for each body and its list of uses. -/
def State.newFlits (s : State) (key job : Nat) : List (Flit × List (Nat × Nat × Nat)) → List Nat × State
  | [] => ([], s)
  | u :: us =>
    let x := s.newFlit key job u.1 u.2
    let y := x.2.newFlits key job us
    (x.1 :: y.1, y.2)

def State.isDropped (s : State) (flit dest : Nat) : Bool := s.mesh.dropped.contains (flit, dest)

/-- A NET_ error of a router: the first one's address is kept (R214, R215). -/
def State.netErr (s : State) (b code addr inst : Nat) (job : Option Nat) (detail : Nat) : State :=
  let s1 := if s.fbit (F.NET_ERRADDR_VALID b) then s
    else ((s.fset (F.NET_ERRADDR_VALID b) 1).fset (F.NET_ERRADDR_NN b) (code % 256)).fset (F.NET_ERRADDR_ADDR b) addr
  s1.raise { code := code, blk := b, inst := inst, job := job, detail := detail }

/-- The barn of a channel, its NET_ERRADDR[ADDR] and its router output (R214, R410). -/
def chanPlace (c : Nat) : Nat × Nat × Nat :=
  if c < 1000 then (c / 4, c % 4, c % 4)
  else if c < 2000 then ((c - 1000) / 32, 0x100 + (c - 1000) % 32, 0xFF)
  else if c < 3000 then ((c - 2000) / 32, 0x200 + (c - 2000) % 32, 0xFF)
  else if c < 5000 then ((c - 3000) / 48, 0x300 + (c - 3000) % 48, 0xFF)
  else ((c - 5000) / 48, 0x340 + (c - 5000) % 48, 0xFF)

/-- Insert a use in the carrying order of R194. -/
def insUse (u : ChanUse) : List ChanUse → List ChanUse
  | [] => [u]
  | v :: vs => if u.key < v.key then u :: v :: vs else v :: insUse u vs

/-- Larkspur's PACKET source sees the headers of the scheduled flits of one router (R433). -/
def State.traceSched (s : State) (b : Nat) (us : List ChanUse) : State :=
  if s.fget F.TCK_LSP_SEL_ROUTER = b then us.foldl (fun s u => s.trace 2 b (some u.job) u.body.hdr.toNat) s else s

/-- Scheduled flits that a channel carries in the beat in progress of its region, at most 4 (R189, R194). -/
def State.schedOn (s : State) (c : Nat) : Nat :=
  let r := (chanPlace c).1
  if s.held r || (s.region r).skew then 0
  else min 4 (s.mesh.uses.filter (fun u => u.chan = c && u.beat = s.beat r && u.dests.any (fun d => !s.isDropped u.flit d))).length

/-- Slots of a channel that scheduled flits leave free in this pacer period and no unscheduled flit has taken (R189). -/
def State.slotsFree (s : State) (c : Nat) : Nat :=
  let x := Tab.get (fun _ => (0, 0)) s.mesh.slots c
  4 - s.schedOn c - (if x.1 = (s.region (chanPlace c).1).periods then x.2 else 0)

/-- An unscheduled packet's flits take slots of a channel. -/
def State.slotsTake (s : State) (c k : Nat) : State :=
  let p := (s.region (chanPlace c).1).periods
  { s with mesh := { s.mesh with slots := Tab.upd (fun _ => (0, 0)) s.mesh.slots c (fun x =>
      (p, (if x.1 = p then x.2 else 0) + k)) } }

/-- An output keeps what it sends, for 4 pacer periods (R201). -/
def State.keepItems (s : State) (c kind id : Nat) (dests : List Nat) (bodies : List Flit) : State :=
  let p := (s.region (chanPlace c).1).periods
  { s with mesh := { s.mesh with
    kept := s.mesh.kept.filter (fun x => x.chan ≠ c || p ≤ x.period + 4) ++ bodies.map (fun b => ⟨c, p, kind, id, dests, b⟩) } }

/-- One channel in one beat: the first 4 flits in the carrying order are carried, the rest are not (R194). -/
def State.resolveChan (s : State) (beat c : Nat) : State :=
  let live := s.mesh.uses.filter (fun u => u.beat = beat && u.chan = c && u.dests.any (fun d => !s.isDropped u.flit d))
  let srt := live.foldl (fun acc u => insUse u acc) []
  let gone := srt.drop 4
  let s1 := { s with mesh := { s.mesh with
    dropped := s.mesh.dropped ++ gone.flatMap (fun u => u.dests.map (fun d => (u.flit, d))) } }
  let sent := if c < 3000 then (srt.take 4).foldl (fun s u => s.keepItems c 0 u.flit u.dests [u.body]) s1 else s1
  let s2 := if c < 1000 then
      sent.traceSched (c / 4) (srt.take 4) |>.fwrap (F.NET_LINK_SCHED_FLITS (c / 4) (c % 4)) (min 4 srt.length)
    else sent
  match gone with
  | [] => s2
  | u :: _ => s2.netErr (chanPlace c).1 0x0402 (chanPlace c).2.1 (chanPlace c).2.2 (some u.job) 0

/-- The uses of the channels of region `r` in beats up to `now`. -/
def State.dueUses (s : State) (r now : Nat) : List ChanUse :=
  s.mesh.uses.filter (fun u => u.beat ≤ now && (chanPlace u.chan).1 = r)

/-- All channels of a region in the earliest beat up to `now` that is still open; at most `n` beats. -/
def State.resolveTo (r now : Nat) : Nat → State → State
  | 0, s => s
  | n + 1, s =>
    match s.dueUses r now with
    | [] => s
    | u :: us =>
      let b := us.foldl (fun m v => min m v.beat) u.beat
      let cs := (((u :: us).filter (fun u => u.beat = b)).map ChanUse.chan).dedup
      let s1 := cs.foldl (fun s c => s.resolveChan b c) s
      State.resolveTo r now n
        { s1 with mesh := { s1.mesh with uses := s1.mesh.uses.filter (fun u => u.beat ≠ b || !cs.contains u.chan) } }

/-- The channels of a region resolve the beats that have come (R194). -/
def State.resolve (s : State) (r now : Nat) : State := State.resolveTo r now s.mesh.uses.length s

/-! ### Landing (R81, R166) -/

/-- Write lines of the scratchpad of stall `st` through the port of rank `rank`: those that were carried. Data of a
block under repair holds the region until it is there (R166). -/
def State.landLines (s : State) (a : Act) (st : Nat) (vals : List Moving) : State :=
  match s.anyRepairing (vals.filterMap Moving.block) with
  | some id => s.holdFor a id
  | none =>
    vals.foldl (fun s m =>
      if m.flit ≠ 0 ∧ s.isDropped m.flit st then s
      else s.putLine (st / 48) (st % 48) a.beat m.line a.rank m.val) s

/-! ### Control packets on their way (R189, R192, R200) -/

/-- The routers by which a point reaches the mesh: a barn's own, those of an edge's ports, those of the hub (R190, R191). -/
def pointRouters (p : Nat) : List Nat :=
  if p < 24 then [p]
  else if p < 28 then ((List.range 8).map (fun q => portRouter (8 * (p - 24) + q))).dedup
  else [0, 6, 12, 18]

/-- Where a control packet enters and leaves the mesh: the pair of routers with the fewest hops between them, then with the
lower entry, then with the lower exit; between the hub and a barn this is the choice of R191, for an edge it is the model's
(DESIGN CHOICE, log entry 115). Traffic between the hub and the Tackroom crosses no router. -/
def ctrlEnds (src dst : Nat) : Option (Nat × Nat) :=
  if 28 ≤ src ∧ 28 ≤ dst then none
  else
    let ps := (pointRouters src).flatMap (fun a => (pointRouters dst).map (fun b => (a, b)))
    ps.foldl (fun best p =>
      match best with
      | none => some p
      | some q => if hops p.1 p.2 < hops q.1 q.2 then some p else best) none

/-- The channel that a control packet takes next, where that brings it, and whether it has then arrived. -/
def CPkt.hop (c : CPkt) : Nat × Nat × Bool :=
  match ctrlEnds c.src c.dst with
  | none => (9000 + c.src, c.dst, true)
  | some (e, x) =>
    if c.via = 0 then (if c.src < 24 then 7000 + c.src else chAttIn e c.src, e, false)
    else if c.pos = x then (if c.dst < 24 then 8000 + c.dst else chAttOut x c.dst, c.dst, true)
    else (chLink c.pos (xyHop c.pos x).1, (xyHop c.pos x).2, false)

/-- The region in which a control packet waits for its next channel. -/
def CPkt.region (c : CPkt) : Nat := if c.pos < 24 then c.pos else min c.pos 28

/-- Control packets that the input behind a channel holds; it holds at most 8 (R214). -/
def State.ctrlHeld (s : State) (chan : Nat) : Nat := (s.mesh.ctrl.filter (fun c => c.via = 1 + chan && !c.here)).length

/-- One control packet moves on in this pacer period, unless its channel has carried one or its buffer is full. -/
def State.ctrlStep (x : State × List Nat) (c : CPkt) : State × List Nat :=
  let h := c.hop
  if x.2.contains h.1 ∨ (!h.2.2 ∧ 8 ≤ x.1.ctrlHeld h.1) then x
  else
    let c' : CPkt := { c with pos := h.2.1, via := if h.2.2 then 0 else 1 + h.1, here := h.2.2 }
    let s1 := if h.1 < 3000 then x.1.keepItems h.1 2 c.id [c.dst] [c.kept] else x.1
    ({ s1 with mesh := { s1.mesh with ctrl := s1.mesh.ctrl.map (fun d => if d.id = c.id then c' else d) } }, h.1 :: x.2)

/-- A pacer period of region `r`: each of its control channels carries one packet, the oldest that wants it (R189, R200). They
move in held periods too. -/
def State.ctrlMove (s : State) (r : Nat) : State :=
  ((s.mesh.ctrl.filter (fun c => !c.here && c.region = r)).foldl State.ctrlStep (s, [])).1

/-- The first control packet that `p` picks out, when it has arrived and no earlier packet of its two points is still there,
and the state without it (R200). -/
def State.ctrlTake (s : State) (p : CPkt → Bool) : Option (CPkt × State) :=
  match s.mesh.ctrl.find? p with
  | none => none
  | some c =>
    if c.here && ((s.mesh.ctrl.find? (fun d => d.src = c.src && d.dst = c.dst)).map CPkt.id) = some c.id then
      some (c, { s with mesh := { s.mesh with ctrl := s.mesh.ctrl.filter (fun d => d.id ≠ c.id) } })
    else none

/-- An earlier control packet of the two points is still on its way (R200). -/
def State.ctrlAhead (s : State) (src dst : Nat) : Bool := s.mesh.ctrl.any (fun d => d.src = src && d.dst = dst)

/-! ### Unscheduled packets (R196, R197) -/

/-- The point of a source of unscheduled traffic (R190, R212). -/
def srcPoint (src : Nat) : Nat :=
  if src < 32 then portEdge src else if src = 36 then 29 else if 64 ≤ src ∧ src < 88 then src - 64 else 28

def State.outst (s : State) (src dst : Nat) : Nat := Tab.get zeroNat s.mesh.outst (64 * src + dst)
def State.setOutst (s : State) (src dst n : Nat) : State :=
  { s with mesh := { s.mesh with outst := Tab.set zeroNat s.mesh.outst (64 * src + dst) n } }

def State.rsv (s : State) (p : Nat) : Nat := Tab.get zeroNat s.mesh.rsv p
def State.setRsv (s : State) (p n : Nat) : State :=
  { s with mesh := { s.mesh with rsv := Tab.set zeroNat s.mesh.rsv p n } }

/-- The barn in whose windows a device-local address lies, used or not (R11, R13). -/
def windowBarn (a : Nat) : Option Nat :=
  if a < 0xC00000000 then some (a / 0x80000000)
  else if a < 0xD80000000 then some ((a - 0xC00000000) / 0x10000000)
  else if 0xE00000000 ≤ a ∧ a < 0xE30000000 then some ((a - 0xE00000000) / 0x2000000)
  else if 0xE40000000 ≤ a ∧ a < 0xE40180000 then some ((a - 0xE40000000) / 0x10000)
  else if 0xE80000000 ≤ a ∧ a < 0xE81800000 then some ((a - 0xE80000000) / 0x100000)
  else none

/-- The destination point of a device-local address: the barn in whose windows it lies, else the hub (R197). -/
def State.dstPoint (_s : State) (a : Nat) : Nat := (windowBarn a).getD 28

/-- An earlier packet of the job that a port has accepted has not been performed (R260). -/
def State.earlier (s : State) (p : UPkt) : Bool :=
  (s.mesh.uns.takeWhile (fun q => q.id ≠ p.id)).any (fun q => q.job = p.job && q.src < 32 && q.form < 2)

/-- May a source send a packet: none of its own to that destination waits before it; a fence packet goes when none is
outstanding there, and from a port when every earlier packet of its job has been performed; a read request needs space for its
response at the requester's point, which holds 16 flits (R196, R197, R260). -/
def State.mayLeave (s : State) (p : UPkt) : Bool :=
  (s.mesh.uns.takeWhile (fun q => q.id ≠ p.id)).all (fun q => q.sent || q.src ≠ p.src || q.dst ≠ p.dst) &&
  (!p.fence || (s.outst p.src p.dst = 0 && !(decide (p.src < 32) && s.earlier p))) &&
  (p.form ≠ 1 || s.rsv (srcPoint p.src) + p.lines ≤ 16)

/-- A packet leaves its source, when it may. -/
def State.leave (s : State) (id : Nat) : State :=
  match s.mesh.uns.find? (fun p => p.id = id && !p.sent) with
  | none => s
  | some p =>
    if s.mayLeave p then
      let s1 := { s with mesh := { s.mesh with uns := s.mesh.uns.map (fun q => if q.id = id then { q with sent := true } else q) } }
      let s2 := if p.form < 2 then s1.setOutst p.src p.dst (s1.outst p.src p.dst + 1) else s1
      if p.form = 1 then s2.setRsv (srcPoint p.src) (s2.rsv (srcPoint p.src) + p.lines) else s2
    else s

/-- Every source sends what it may (R196, R197). -/
def State.unsRelease (s : State) : State := (s.mesh.uns.map UPkt.id).foldl State.leave s

/-- A source gives an unscheduled packet to the mesh (R196, R197). -/
def State.unsSend (s : State) (p : UPkt) : State :=
  let n := s.mesh.nextPkt
  State.unsRelease { s with mesh := { s.mesh with
    nextPkt := n + 1, uns := s.mesh.uns ++ [{ p with id := n, pos := srcPoint p.src, sent := false }] } }

end Sys2Proof.Machine
end

