-- ==== Sys2Proof/Machine/FabricOps.lean ====
section
/-! DEFINITION. Packets in the fabric: placing one on its port, retention and acknowledgement, receiving one that is
addressed to this device, and switching route plans (R251-R268, R403, R404). -/

namespace Sys2Proof.Machine

/-! ### Leaving the device -/

/-- The units of a packet: its header and two for each line (R228). -/
def FabPkt.units (p : FabPkt) : List (BitVec 256) :=
  p.hdr :: p.lines.flatMap (fun l => [BitVec.ofNat 256 l.toNat, BitVec.ofNat 256 (l.toNat / 2 ^ 256)])

/-- Queue a packet at a port. -/
def State.queuePkt (s : State) (port v : Nat) (p : FabPkt) : State :=
  let id := s.fab.nextId
  (s.updFab (fun f => { f with nextId := id + 1 })).updLink port (fun l => l.updVc v (fun c =>
    { c with tx := c.tx ++ [⟨id, p.units, 1 + 2 * p.lines.length, false, false⟩] }))

/-- Send a sealed packet towards its destination under a plan: the ports it is queued for. -/
def State.transmit (s : State) (dest : FDest) (plan v : Nat) (p : FabPkt) : State :=
  let q := p.setPlan plan
  match dest with
  | .group g =>
    (match s.groupRoute plan g none with
     | some (ps, _) => ps.foldl (fun s o => s.queuePkt o v q) s
     | none => s)
  | d => match s.outPort plan d with
    | some o => s.queuePkt o v q
    | none => s

/-- An unscheduled packet that carries a fabric packet's lines to their address (R198, R260, R263). -/
def State.performPkt (s : State) (src j : Nat) (h : FabHdr) (ls : List Line) : State :=
  let data := ls.zipIdx.map (fun l => (⟨l.1, h.epoch, bit h.poison l.2⟩ : LineVal))
  s.unsSend
    { src := src, dst := s.dstPoint h.addr, job := j, form := 0, addr := h.addr, data := data
      sel := if h.siginc = 0 then 0xC000 else 0x8000 + h.sigidx, inc := h.siginc, fence := h.fence, tag := h.rtag }

/-- Is a copy of a stream's packets for this device, under a plan (R252)? -/
def State.copyHere (s : State) (key plan : Nat) : Bool :=
  match keyDest key with
  | .group g => ((s.groupRoute plan g none).map Prod.snd).getD false
  | _ => false

/-- The first transmission of a sequenced packet under a plan: it is retained, and a group's copy for this device is performed here
and counts as this device's acknowledgement (R252, R258). -/
def State.sendKept (s : State) (key plan : Nat) (k : KeptPkt) : State :=
  let here := s.copyHere key plan
  let s1 := s.updOut key (fun o => { o with
    kept := o.kept ++ [{ k with plan := plan, at_ := s.refNs, clear := [], acks := if here then [s.devId] else [] }] })
  let s2 := s1.transmit (keyDest key) plan (kindVc k.pkt.head.kind) k.pkt
  if here && k.pkt.head.kind = 0 then s2.performPkt 35 (key / 16384) k.pkt.head k.clear else s2

/-- A packet has been sealed: it is sent, under the plan that a rule names for it or else the job's, and retained, or held back for a
planned switch (R258, R266-R268). ACKs are neither retained nor held. -/
def State.sealed (s : State) (i : SealItem) : State :=
  match (s.secJob i.job).kjob with
  | none => s
  | some kj =>
    let p := sealPkt kj (s.fget F.FAB_ID_PLANE) i.n i.pkt
    let plan := i.plan.getD (s.planOf i.job)
    if 2 ^ 60 ≤ i.n then s.transmit (keyDest i.key) plan i.vc p
    else
      let kp : KeptPkt := ⟨i.n, p, plan, i.edge, [], s.refNs, i.pkt.lines⟩
      if (s.outStream i.key).hold then s.updOut i.key (fun o => { o with wait := o.wait ++ [kp] })
      else s.sendKept i.key plan kp

/-- Send retained packets of a stream again under the job's plan, in order (R258, R268): all, or those of another plan. -/
def State.resend (s : State) (key : Nat) (all : Bool := true) : State :=
  let plan := s.planOf (key / 16384)
  let due (k : KeptPkt) : Bool := all || k.plan ≠ plan
  let s1 := ((s.outStream key).kept.filter due).foldl (fun s k =>
    (s.transmit (keyDest key) plan (kindVc k.pkt.head.kind) k.pkt).fwrap (F.FAB_RETAIN_RESENT k.edge) 1) s
  s1.updOut key (fun o => { o with kept := o.kept.map (fun k => if due k then { k with plan := plan, at_ := s.refNs } else k) })

/-- The packets held back for a planned switch leave once nothing is retained any more (R268). -/
def State.releaseWait (s : State) (key : Nat) : State :=
  let o := s.outStream key
  if o.hold ∧ o.kept = [] then
    o.wait.foldl (fun s k => s.sendKept key (s.planOf (key / 16384)) k)
      (s.updOut key (fun o => { o with hold := false, wait := [] }))
  else s

/-- An ACK with a 16-bit sequence number from a device (R257, R258). -/
def State.ackStream (s : State) (key a from_ : Nat) : State :=
  let o := s.outStream key
  match o.kept with
  | [] => s
  | e :: _ =>
    let k := subMod 16 (a + 1) (e.n % 65536)
    if k = 0 ∨ o.kept.length < k then s
    else
      let members := match keyDest key with
        | .group g => bits (s.groupEnt (s.planOf (key / 16384)) g) 57 46
        | _ => 1
      let marked := o.kept.zipIdx.map (fun x =>
        if x.2 < k ∧ !x.1.acks.contains from_ then { x.1 with acks := x.1.acks ++ [from_] } else x.1)
      (s.updOut key (fun o => { o with kept := marked.filter (fun x => x.acks.length < members) })).releaseWait key

/-- Send an ACK for a stream that this device receives (R257). -/
def State.sendAck (s : State) (key : Nat) (src : Nat) : State :=
  let st := s.inStream key
  let j := key / 16384
  if st.next = 0 then s
  else
    let n := st.next - 1
    let dst2 : FDest × Nat := match keyDest key with
      | .dev d => (.dev d, 0)
      | .group g => (.dev (bits (s.groupEnt (s.planOf j) g) 45 34), 1024 + g)
      | .yoke => (.yoke, 0)
    let dst := match dst2.1 with | .dev d => d | .group _ => src | .yoke => s.fget F.YOK_CFG_PARTNER
    let s1 := s.updIn key (fun t => { t with count := 0, since := none })
    match s.outPort (s.planOf j) dst2.1 with
    | none => s1
    | some p =>
      let h : FabHdr :=
        { kind := 3, eseq := n, fjob := s.fjob j, src := s.devId, dst := dst, addr := dst2.2, plan := s.planOf j
          gen := s.fget (F.SEC_JOB_STATE_GEN j) }
      let i : SealItem := ⟨j, dst2.1.key j, 2 ^ 60 + n, 1, p / 8, 2, ⟨BitVec.ofNat 256 h.pack, []⟩, none⟩
      s1.updFab (fun f => { f with sealq := f.sealq ++ [i] })

/-! ### Arriving at the device (R243, R250, R257, R263, R404) -/

/-- Lines allowed for a kind (R250). -/
def kindLines (k d : Nat) : Bool :=
  if k = 0 || k = 2 then 1 ≤ d && d ≤ 4 else if k = 1 || k = 4 then d = 1 else k = 3 && d = 0

def RPkt.pkt (r : RPkt) : FabPkt :=
  let us := r.units.drop 1
  ⟨r.units.headD 0, (List.range (us.length / 2)).map (fun i =>
    BitVec.ofNat 512 ((us.getD (2 * i) 0).toNat + (us.getD (2 * i + 1) 0).toNat * 2 ^ 256))⟩

/-- Is the packet for this device (R251, R336)? A packet of a group is, once its copies have been made. -/
def State.isHere (s : State) (p : Nat) (r : RPkt) : Bool :=
  let h := r.pkt.head
  (s.link p).isYoke || (if h.mcast then r.here else h.dst = s.devId)

/-- The oldest complete packet for this device on a port and channel. -/
def State.firstHere (s : State) (p v : Nat) : Option RPkt :=
  match ((s.link p).vc v).rx.find? (fun r => s.isHere p r) with
  | some r => if r.units.length = r.need then some r else none
  | none => none

/-- A packet leaves the receive buffer. -/
def State.dropRx (s : State) (p v : Nat) (r : RPkt) : State :=
  (s.freeRx p v ((r.need - 1) / 2)).updLink p (fun l => l.updVc v (fun c => { c with rx := c.rx.filter (fun x => x.id ≠ r.id) }))

/-- The stream of an arriving packet. -/
def State.inKey (s : State) (p j : Nat) (h : FabHdr) : Nat :=
  if (s.link p).isYoke then 16384 * j + 8192 else if h.mcast then 16384 * j + 4096 + h.dst % 1024 else 16384 * j + h.src

/-- The sequence number with its wraps, nearest to what is expected (R403). -/
def nearSeq (next e : Nat) : Nat :=
  let d := subMod 16 e (next % 65536)
  if d < 32768 then next + d else next + d - 65536

/-- The plane of the sender (R403). -/
def State.planeOf (s : State) (p : Nat) : Nat :=
  if (s.link p).isYoke then s.fget (F.LNK_PARTNER_PLANE (p / 8) (p % 8)) else s.fget F.FAB_ID_PLANE

/-- Open an arriving packet of job `j` (R403, R404): its lines, and whether it authenticates. -/
def State.openRx (s : State) (p j : Nat) (r : RPkt) : List Line × Bool :=
  let h := r.pkt.head
  match (s.secJob j).kjob with
  | none => (r.pkt.lines, false)
  | some k =>
    let key := s.inKey p j h
    let n := if h.kind = 3 then
        (let out := s.outStream (if bit h.addr 10 then 16384 * j + 4096 + bits h.addr 9 0 else key)
         nearSeq out.next h.eseq)
      else nearSeq (s.inStream key).next h.eseq
    if s.fget (F.SEC_JOB_STATE_KEY j) = 1 then openPkt k (s.planeOf p) n r.pkt else (r.pkt.lines, false)

/-- Subtypes that some rule defines (R250, R307, R336). -/
def subtypeOk (t : Nat) : Bool := t = 1 || t = 2 || (0x10 ≤ t && t ≤ 0x14) || (0x18 ≤ t && t ≤ 0x1F)

/-- The header of an arriving packet is malformed (R250). -/
def badFabHdr (v : Nat) (h : FabHdr) : Bool := 5 ≤ h.kind || !kindLines h.kind h.d || kindVc h.kind ≠ v

/-- The steps of R263 up to the classification, for the packets that `want` picks out by header and opened lines, or by the
header alone where the packet does not authenticate; `act` performs an accepted one. -/
def State.receive (s : State) (p v : Nat) (want : FabHdr → List Line → Bool)
    (act : State → Nat → FabHdr → List Line → State) : State :=
  match s.firstHere p v with
  | none => s
  | some r =>
    let h := r.pkt.head
    if badFabHdr v h then s
    else
      let lost : Bool := (s.link p).isYoke && (h.dst ≠ s.fget F.YOK_CFG_PARTNER && h.dst ≠ s.devId)
      match (if lost then none else (s.ctxOf h.fjob).filter (fun j =>
          !(s.link p).isYoke || s.fbit (F.YOK_JOB_CFG_YOKED j))) with
      | none =>
        if want h [] then
          ((s.fsat F.FAB_RX_UNKNOWN_JOB 1).hubOnce 0x0606 h.fjob none).dropRx p v r
        else s
      | some j =>
        let o := s.openRx p j r
        if !want h o.1 && !(!o.2 && want h []) then s
        else if r.aborted then s.dropRx p v r
        else if r.slices < slicesOf h.d then s
        else if !o.2 then
          ((s.fwrap (F.SEC_JOB_RX_AUTH_FAIL j) 1).hubOnce 0x0A02 j (some j)).dropRx p v r
        else if h.kind = 3 then (act (s.dropRx p v r) j h o.1)
        else
          let key := s.inKey p j h
          let st := s.inStream key
          let d := subMod 16 h.eseq (st.next % 65536)
          if d = 0 then
            let st1 : InStream := ⟨st.next + 1, st.count + 1, some (st.since.getD s.refNs)⟩
            let s1 := act ((s.dropRx p v r).updIn key (fun _ => st1)) j h o.1
            if 64 ≤ st.count + 1 then s1.sendAck key h.src else s1
          else if d < 32768 then ((s.fsat F.FAB_RX_GAP 1).dropRx p v r).sendAck key h.src
          else (s.fsat F.FAB_RX_DUP 1).dropRx p v r

/-- The body of a CONTROL packet. -/
def ctlByte (ls : List Line) (i : Nat) : Nat := bits (ls.headD 0).toNat (8 * i + 7) (8 * i)
def ctlNat (ls : List Line) (i n : Nat) : Nat := bits (ls.headD 0).toNat (8 * (i + n) - 1) (8 * i)

/-- Receive a CONTROL packet of one subtype (R250). -/
def State.control (s : State) (p sub : Nat) (act : State → Nat → FabHdr → List Line → State) : State :=
  s.receive p 2 (fun h ls => h.kind = 4 && (ls.isEmpty || ctlByte ls 0 = sub)) act

/-! ### Route plans (R266-R268) -/

/-- FAB_ROUTE_LOST for a device (R266). -/
def State.lostRoute (s : State) (j x : Nat) : State :=
  ((s.fset (F.FAB_JOB_STATE_ROUTE_LOST j) 1).fset (F.FAB_JOB_STATE_LOST_DEST j) x).hubErr j 0x0602 x

/-- A switch that the head asked for or has received is still to come (R267). -/
def State.switchPending (s : State) (j : Nat) : Bool := s.fab.pend.any (fun x => x.1 = j)

/-- The job switches to plan Q at switch beat S (R268): with S = 0 the retained packets that went under the other plan are sent again
before any new packet, with S > 0 new packets of their streams are held. -/
def State.doSwitch (s : State) (j q beat : Nat) : State :=
  let s0 := (s.updFab (fun f => { f with pend := f.pend.filter (fun x => x.1 ≠ j) })).fset (F.FAB_JOB_STATE_PENDING j) 0
  match ((s.peersOf j).filter (· ≠ s.devId)).find? (fun d => (s.route q d).isNone) with
  | some x => s0.lostRoute j x
  | none =>
    let s1 := (s0.fset (F.FAB_JOB_STATE_PLAN j) q).fset (F.FAB_JOB_STATE_SWITCH_BEAT j) (beat % 2 ^ 48)
    let mine (k : Nat) : Bool := k / 16384 = j && k % 16384 ≠ 8192
    let old (o : Nat × OutStream) : Bool := mine o.1 && o.2.kept.any (fun k => k.plan ≠ q)
    let s2 := (s1.fab.outs.filter old).foldl (fun s o =>
      if beat = 0 then s.resend o.1 false else s.updOut o.1 (fun t => { t with hold := true })) s1
    let s3 := (s2.fab.ins.filter (fun o => mine o.1)).foldl (fun s o => s.sendAck o.1 (o.1 % 4096)) s2
    s3.raise { code := 0x0603, blk := 28, job := some j }

/-- A PLAN_SWITCH reaches a device (R268). -/
def State.gotSwitch (s : State) (j q beat : Nat) : State :=
  if (s.job j).phase = .halted ∨ (s.job j).phase = .teardown then s
  else if beat = 0 ∨ beat ≤ s.jobBeat j then s.doSwitch j q beat
  else
    (s.updFab (fun f => { f with pend := f.pend.filter (fun x => x.1 ≠ j) ++ [(j, q, beat)] })).fset
      (F.FAB_JOB_STATE_PENDING j) 1

/-- The head sends PLAN_SWITCH under the plan that it names to every device of its peer set, itself included (R267). -/
def State.sendSwitch (s : State) (j q beat : Nat) : State :=
  (s.controlPeers j 0x02 (leBytes 1 q ++ leBytes 6 0 ++ leBytes 8 beat) (some q)).gotSwitch j q beat

end Sys2Proof.Machine
end

