-- ==== Sys2Proof/Machine/Dma.lean ====
section
/-! DEFINITION. The DMA engine: copies between scratchpads, lofts and other devices, rearranging reads and fills
(R85-R93, R158-R160, R163). -/

namespace Sys2Proof.Machine

/-! ### What R89 fixes for a copy -/

/-- A copy command: lines, lines in each data beat, kind of far end (0 own scratchpad, 1 another stall of the barn,
2 another barn's scratchpad, 3 own loft, 4 another barn's loft, 5 another device), its barn, stall and offset, the hop
count, and whether R92 keeps it from its far accesses. -/
structure Xfer where
  lines : Nat
  r : Nat
  kind : Nat
  d : Nat
  st : Nat
  off : Nat
  h : Nat
  denied : Bool
  deriving DecidableEq, Repr

/-- The copy that a command of stall `i` and job `j` makes. -/
def State.xfer (s : State) (i j : Nat) (w : Cmd) : Xfer :=
  let lc := cOp w = 0x603
  let lines := if lc then 4 * lcBlocks w else dLines w
  let a := faLocal (dFar w)
  let b := i / 48
  if faDevice (dFar w) ≠ s.devId then ⟨lines, 2, 5, b, i, a, 0, false⟩
  else match s.farKind true a (64 * lines) with
    | .spad d k off =>
      let den := !s.placeAllowed j (cOp w ≠ 0x601) (s.place a)
      if 48 * d + k = i then ⟨lines, 8, 0, b, i, off, 0, den⟩
      else if d = b then ⟨lines, 2, 1, b, 48 * d + k, off, 0, den⟩
      else ⟨lines, 1, 2, d, 48 * d + k, off, hops b d, den⟩
    | .loft d off =>
      let den := !s.placeAllowed j (cOp w ≠ 0x601) (s.place a)
      if d = b then ⟨lines, 2, 3, b, i, off, 0, den⟩ else ⟨lines, 1, 4, d, i, off, hops b d, den⟩
    | _ => ⟨lines, 2, if lc then 3 else 1, b, i, 0, 0, true⟩

/-- Data beats. -/
def Xfer.n (x : Xfer) : Nat := (x.lines + x.r - 1) / x.r
/-- Data beats of a block. -/
def Xfer.step (x : Xfer) : Nat := 4 / x.r

/-- The beat in which a DMA.RD writes its first lines (R89). -/
def Xfer.landAt (x : Xfer) : Nat :=
  match x.kind with
  | 1 => 12 | 2 => 16 + 6 * x.h | 3 => 24 | _ => 40 + 6 * x.h

/-- The completion beat less the number of data beats (R89). -/
def Xfer.doneAt (x : Xfer) (op : Nat) : Nat :=
  match op, x.kind with
  | _, 0 => 1
  | 0x601, 1 => 11
  | 0x601, 2 => 15 + 6 * x.h
  | 0x601, 3 => 23
  | 0x601, 4 => 39 + 6 * x.h
  | 0x602, 1 => 6
  | 0x602, 2 => 8 + 3 * x.h
  | 0x602, 3 => 12
  | 0x602, 4 => 20 + 3 * x.h
  | 0x602, _ => 0
  | _, 3 => 35
  | _, 4 => 43 + 3 * x.h
  | _, _ => 23

/-- The beat whose bank cycle block m of the source occupies (R159). -/
def Xfer.srcAt (x : Xfer) (op m : Nat) : Nat :=
  if op = 0x601 ∧ x.kind = 4 then 20 + 3 * x.h + 4 * m else 12 + x.step * m

/-- The same of the destination. -/
def Xfer.dstAt (x : Xfer) (op m : Nat) : Nat :=
  (if op = 0x602 then (if x.kind = 3 then 14 else 24 + 3 * x.h) else (if x.kind = 3 then 37 else 47 + 3 * x.h)) + x.step * m

/-- The block of a loft that a block number of the transfer names, in its source and in its destination. -/
def Xfer.srcBlk (x : Xfer) (w : Cmd) (m : Nat) : Nat := (if cOp w = 0x603 then lcSrc w else x.off) / 256 + m
def Xfer.dstBlk (x : Xfer) (m : Nat) : Nat := x.off / 256 + m

/-! ### Moves past refresh slots (R159) -/

/-- The beats by which what stands at relative beat `x` has moved. A move of an access at beat y of side e (0 source,
1 destination) is kept as 2 y + e. -/
def shiftOf (moves : List Nat) (x : Nat) : Nat := 2 * (moves.filter (fun y => y / 2 < x)).length

/-- The moves of accesses (relative beat, side, bank), in order, for an issue in loft beat `f`. -/
def findMoves (f : Nat) : List (Nat × Nat × Nat) → List Nat → List Nat
  | [], acc => acc
  | (x, side, bk) :: t, acc =>
    findMoves f t (if refreshSlot bk ((f + x + shiftOf acc x) / 2) then acc ++ [2 * x + side] else acc)

/-- Merge two lists of accesses by beat, sources first. -/
def mergeAcc : Nat → List (Nat × Nat × Nat) → List (Nat × Nat × Nat) → List (Nat × Nat × Nat)
  | 0, a, b => a ++ b
  | _, [], b => b
  | _, a, [] => a
  | n + 1, p :: a, q :: b => if p.1 ≤ q.1 then p :: mergeAcc n a (q :: b) else q :: mergeAcc n (p :: a) b

/-- The bank accesses of a copy. -/
def Xfer.accesses (x : Xfer) (w : Cmd) : List (Nat × Nat × Nat) :=
  let op := cOp w
  let ms := List.range (x.lines / 4)
  let src := if op = 0x603 ∨ (op = 0x601 ∧ 3 ≤ x.kind ∧ x.kind ≤ 4 ∧ !x.denied) then
      ms.map (fun m => (x.srcAt op m, 0, blkBank (x.srcBlk w m)))
    else []
  let dst := if op ≠ 0x601 ∧ 3 ≤ x.kind ∧ x.kind ≤ 4 ∧ !x.denied then
      ms.map (fun m => (x.dstAt op m, 1, blkBank (x.dstBlk m)))
    else []
  mergeAcc (src.length + dst.length) src dst

/-- The device beat in which what R89 puts at relative beat `x` takes place. -/
def Act.at_ (a : Act) (x : Nat) : Nat := a.iss + x + shiftOf a.moves x

/-- The device beat in which the bank cycle of an access at relative beat `x` begins. -/
def State.bankAt (s : State) (a : Act) (x side : Nat) : Nat :=
  let f := (s.job a.job).start + (a.iss - (s.job a.job).origin)
  cycleBeat a.iss f ((f + x + shiftOf a.moves x) / 2 + b2n (a.moves.contains (2 * x + side)))

/-! ### Lines on their way out -/

/-- The flit with line `i` of a copy's range, written at its far end; the last line carries the far-end signal (R90, R211). -/
def Xfer.wrFlit (x : Xfer) (w : Cmd) (i : Nat) (v : LineVal) : Flit :=
  writeFlit (dFar w + 64 * i) (dRsig w) (dRinc w) (dFence w) v (i + 1 = x.lines)

/-- The flit that asks for line `i` of a copy's far range, for stall `st` (R91, R211). -/
def rdFlit (w : Cmd) (st i : Nat) : Flit :=
  readFlit (dFar w + 64 * i) (st / 48) (st % 48) (dLocal w + 64 * i) (dEpochR w) (dCheck w) (dFence w) (dRsig w) (dRinc w)

/-- The flit that brings line `i` of a copy back to the scratchpad of stall `st`, by its address there. -/
def State.backFlit (s : State) (w : Cmd) (st i : Nat) (v : LineVal) : Flit :=
  writeFlit (s.devId * 2 ^ 36 + 0xC00000000 + st / 48 * 0x10000000 + st % 48 * 0x400000 + dLocal w + 64 * i) 0xC000 0 false
    { v with epoch := dEpochW w } false

def dmaCheck (w : Cmd) : Option Nat := if dCheck w then some (dEpochR w) else none

/-- The lines of data beat k. -/
def Xfer.idx (x : Xfer) (k : Nat) : List Nat := (List.range x.r).map (· + x.r * k) |>.filter (· < x.lines)

/-- Number the lines and give each its flit, the epoch the command writes and its place. -/
def placeLines (base ew : Nat) (vals : List Moving) (flits : List Nat) : List Moving :=
  vals.zipIdx.map (fun v =>
    { v.1 with line := base + v.1.line, val := { v.1.val with epoch := ew }, flit := flits.getD v.2 0 })

/-- Lines for another device are handed to the mesh (R89, R253): without a route the command stops. -/
def State.dmaHandOver (s : State) (a : Act) (x : Xfer) (k : Nat) (vals got : List Moving) : List Moving × State :=
  let dest := faDevice (dFar a.w)
  match s.route (s.planOf a.job) dest with
  | none => ([], s.hubErr a.job 0x0601 dest)
  | some p =>
    let f := s.newFlits a.ord a.job (vals.map (fun v =>
      (x.wrFlit a.w v.line v.val, stallUses a.stall a.beat (dEdge (portEdge p)) (portRouter p) (portEdge p))))
    let all := got ++ vals.zipIdx.map (fun v => { v.1 with flit := f.1.getD v.2 0 })
    if k % 2 = 1 ∨ k + 1 = x.n then
      ([], f.2.addAct
        { a with
          reg := portEdge p, rank := 8, beat := a.beat + tEdge (a.stall / 48) (portRouter p) (portEdge p)
          m := .edge (4 * (k / 2)) all })
    else (all, f.2)

/-- The lines of data beat k leave the stall for their destination; the answer holds the lines of a block, or of a
packet, that is not complete. -/
def State.dmaSend (s : State) (a : Act) (x : Xfer) (k : Nat) (vals got : List Moving) : List Moving × State :=
  let w := a.w
  if x.denied then ([], s)
  else match x.kind with
    | 0 =>
      let base := (if cOp w = 0x601 then dLocal w else x.off) / 64
      ([], s.addAct { a with beat := a.beat + 1, m := .land a.stall (placeLines base (dEpochW w) vals []) })
    | 5 => s.dmaHandOver a x k vals got
    | kd =>
      if kd ≤ 2 then
        let f := s.newFlits a.ord a.job (vals.map (fun v =>
          (x.wrFlit w v.line { v.val with epoch := dEpochW w }, stallUses a.stall a.beat x.st 0 0)))
        ([], f.2.addAct
          { a with
            reg := x.d, rank := 5, beat := a.beat + tStall (a.stall / 48) x.d
            m := .land x.st (placeLines (x.off / 64) (dEpochW w) vals f.1) })
      else
        let m := k / x.step
        let t := 20 + 3 * x.h
        let f := if kd = 3 then (vals.map (fun _ => 0), s.bondUse a.stall a.beat (64 * vals.length) false)
          else (s.bondAll x.d (a.beat + t) (64 * vals.length)).newFlits a.ord a.job
            (vals.map (fun v => (x.wrFlit w v.line v.val, stallUses a.stall a.beat (dLoft x.d) 0 0)))
        let s1 := if k % x.step ≠ 0 then f.2
          else if kd = 3 then f.2.loftEnter x.d (x.dstBlk m) a.ord (some a.job)
          else f.2.addAct { a with reg := x.d, rank := 0, beat := a.beat + 4 + 3 * x.h, m := .loftEnter m }
        let all := got ++ placeLines 0 0 vals f.1
        if k % x.step + 1 = x.step then
          ([], s1.addAct { a with reg := x.d, rank := 3, beat := s1.bankAt a (x.dstAt (cOp w) m) 1, m := .loftWr m all })
        else (all, s1)

/-- Data beat k of a DMA.WR or of a local copy: its lines are read in the stall. -/
def State.dmaRead (s : State) (a : Act) (k : Nat) (got : List Moving) : State :=
  let x := s.xfer a.stall a.job a.w
  let js := x.idx k
  let base := (if cOp a.w = 0x601 then x.off else dLocal a.w) / 64
  let r := s.rdLines (a.stall / 48) (a.stall % 48) a.beat 6 a.ord (dmaCheck a.w) a.ecc (js.map (· + base))
  let o := r.2.dmaSend a x k ((js.zip r.1).map (fun p => ⟨p.1, p.2.2, 0, none⟩)) got
  if k + 1 < x.n ∧ (o.2.job a.job).live then
    o.2.addAct { a with beat := a.at_ (k + 2), m := .dmaRead (k + 1) o.1 }
  else o.2

/-! ### DMA.RD -/

/-- Data beat k of a DMA.RD from another stall: its requests leave (R194). -/
def State.dmaReq (s : State) (a : Act) (k : Nat) : State :=
  let x := s.xfer a.stall a.job a.w
  let f := s.newFlits a.ord a.job ((x.idx k).map (fun i => (rdFlit a.w a.stall i, stallUses a.stall a.beat x.st 0 0)))
  let s1 := f.2.addAct
    { a with reg := x.d, rank := 5, beat := a.beat + tStall (a.stall / 48) x.d, m := .dmaFar k f.1 }
  if k + 1 < x.n then s1.addAct { a with beat := a.beat + 1, m := .dmaReq (k + 1) } else s1

/-- The lines of data beat k are read there and travel back; a line whose request was not carried lands as poisoned
zero. -/
def State.dmaFar (s : State) (a : Act) (k : Nat) (flits : List Nat) : State :=
  let x := s.xfer a.stall a.job a.w
  let js := x.idx k
  let land := a.beat + tStall (a.stall / 48) x.d
  let r := js.zipIdx.foldl (fun (acc : List Moving × State) p =>
    if acc.2.isDropped (flits.getD p.2 0) x.st then
      (acc.1 ++ [⟨dLocal a.w / 64 + p.1, ⟨0, dEpochW a.w, true⟩, 0, none⟩], acc.2)
    else
      let v := acc.2.rdLine (x.st / 48) (x.st % 48) a.beat (x.off / 64 + p.1) 5 a.ord (dmaCheck a.w) a.ecc
      let f := v.2.newFlit a.ord a.job (v.2.backFlit a.w a.stall p.1 v.1) (replyUses x.d a.stall a.beat land (some x.st))
      (acc.1 ++ [⟨dLocal a.w / 64 + p.1, { v.1 with epoch := dEpochW a.w }, f.1, none⟩], f.2)) ([], s)
  r.2.addAct { a with reg := a.stall / 48, rank := 6, beat := land, m := .land a.stall r.1 }

/-- A denied DMA.RD writes poisoned zero in the beats of its row (R92). -/
def State.dmaZero (s : State) (a : Act) (k : Nat) : State :=
  let x := s.xfer a.stall a.job a.w
  let s1 := (x.idx k).foldl (fun s i =>
    s.putLine (a.stall / 48) (a.stall % 48) a.beat (dLocal a.w / 64 + i) 6 ⟨0, dEpochW a.w, true⟩) s
  if k + 1 < x.n then s1.addAct { a with beat := a.beat + 1, m := .dmaZero (k + 1) } else s1

/-- The request for block m leaves for another barn's loft. -/
def State.loftReq (s : State) (a : Act) (m : Nat) : State :=
  let x := s.xfer a.stall a.job a.w
  let t := 20 + 3 * x.h
  let f := s.newFlit a.ord a.job (rdFlit a.w a.stall (4 * m)) (stallUses a.stall a.beat (dLoft x.d) 0 0)
  let s1 := f.2.addAct { a with reg := x.d, rank := 3, beat := f.2.bankAt a (x.srcAt 0x601 m) 0, m := .loftRd m f.1 }
  if m + 1 < x.lines / 4 then
    s1.addAct { a with beat := s1.bankAt a (x.srcAt 0x601 (m + 1)) 0 - t, m := .loftReq (m + 1) }
  else s1

/-- Lines of a block on their way to the scratchpad of a DMA.RD. -/
def State.rdLand (s : State) (a : Act) (x : Xfer) (m : Nat) (v : BlockVal) (src : Option Nat) (carried : Bool) : State :=
  (List.range x.step).foldl (fun s q =>
    let k := x.step * m + q
    let land := a.at_ (x.landAt + k)
    let js := x.idx k
    let f := if x.kind = 3 ∨ !carried then (js.map (fun _ => 0), s)
      else (s.bondAll x.d (a.beat + q) (64 * js.length)).newFlits a.ord a.job
        (js.map (fun i => (s.backFlit a.w a.stall i (v.line (i % 4)), replyUses x.d a.stall a.beat land none)))
    let ls := js.map (fun i => (⟨i, v.line (i % 4), 0, src.map (fun x => (x, i % 4))⟩ : Moving))
    f.2.addAct
      { a with
        reg := a.stall / 48, rank := 6, beat := land
        m := .land a.stall (placeLines (dLocal a.w / 64) (dEpochW a.w) ls f.1) }) s

/-- Block m is read in its bank for a DMA.RD or a DMA.LCOPY (R158, R162, R164, R166). -/
def State.loftRd (s : State) (a : Act) (m flit : Nat) : State :=
  let x := s.xfer a.stall a.job a.w
  let lc := cOp a.w = 0x603
  let n := if lc then a.stall / 48 else x.d
  let blk := x.srcBlk a.w m
  let carried := flit = 0 || !s.isDropped flit (dLoft n)
  let u := if carried then s.useLoft n a.beat blk 3 (2 * a.ord) a.job else (false, s)
  let r : BlockVal × Option Nat × State :=
    if u.1 then u.2.loftRead n blk (some a.job) a.ecc else (⟨0, true⟩, none, u.2)
  let s1 := if lc then
      r.2.2.addAct
        { a with
          rank := 6, beat := a.at_ (24 + x.step * m)
          m := .lcOut (x.step * m) ((List.range 4).map (fun q => ⟨4 * m + q, r.1.line q, 0, r.2.1.map (fun x => (x, q))⟩)) [] }
    else r.2.2.rdLand a x m r.1 r.2.1 carried
  if (lc || x.kind = 3) && m + 1 < x.lines / 4 then
    s1.addAct { a with beat := s1.bankAt a (x.srcAt (cOp a.w) (m + 1)) 0, m := .loftRd (m + 1) 0 }
  else s1

/-- Lines of a DMA.RD land in the stall; those of its own loft cross the bond port. -/
def State.dmaLand (s : State) (a : Act) (st : Nat) (vals : List Moving) : State :=
  let own := faLocal (dFar a.w) < 0xC00000000 && faLocal (dFar a.w) / 0x80000000 = st / 48
  if cOp a.w = 0x601 ∧ own ∧ s.anyRepairing (vals.filterMap Moving.block) = none then
    (s.bondUse st a.beat (64 * vals.length) true).landLines a st vals
  else s.landLines a st vals

/-! ### DMA.LCOPY and writes of blocks -/

/-- Lines of a block leave in data beat k. A block for another device must be good by then (R166). -/
def State.lcOut (s : State) (a : Act) (k : Nat) (vals got : List Moving) : State :=
  let x := s.xfer a.stall a.job a.w
  match (if x.kind = 5 then s.anyRepairing (vals.filterMap Moving.block) else none) with
  | some id => s.holdFor a id
  | none =>
    let s0 := s.bondUse a.stall a.beat (64 * x.r) true
    let s1 := if x.kind = 3 then s0 else s0.bondUse a.stall a.beat (64 * x.r) false
    let o := s1.dmaSend a x k (vals.take x.r) got
    if (k + 1) % x.step ≠ 0 ∧ (o.2.job a.job).live then
      o.2.addAct { a with beat := a.at_ (24 + k + 1), m := .lcOut (k + 1) (vals.drop x.r) o.1 }
    else o.2

/-- Block m is written in its bank: the write has entered, all four lines were carried, and the bank is free (R158,
R163, R194). -/
def State.loftWr (s : State) (a : Act) (m : Nat) (vals : List Moving) : State :=
  let x := s.xfer a.stall a.job a.w
  let blk := x.dstBlk m
  match s.anyRepairing (vals.filterMap Moving.block) with
  | some id => s.holdFor a id
  | none =>
    if !(s.loft x.d).entered.contains (a.ord, blk) then s
    else
      let s1 := s.loftLeave x.d blk a.ord
      if vals.any (fun v => v.flit ≠ 0 && s.isDropped v.flit (dLoft x.d)) then s1
      else
        let u := s1.useLoft x.d a.beat blk 3 (2 * a.ord + 1) a.job
        if u.1 then u.2.loftStore x.d blk (some a.job) false (byteMask 0 256) (fun _ => blockOf (vals.map Moving.val)) else u.2

/-- A write of block m enters the destination barn. -/
def State.dmaEnter (s : State) (a : Act) (m : Nat) : State :=
  let x := s.xfer a.stall a.job a.w
  s.loftEnter x.d (x.dstBlk m) a.ord (some a.job)

/-! ### To other devices -/

/-- Runs of lines with rising numbers, without those that were not carried. -/
def runsOf : List Moving → List (List Moving)
  | [] => []
  | m :: ms =>
    match runsOf ms with
    | (n :: r) :: rs => if n.line = m.line + 1 then (m :: n :: r) :: rs else [m] :: (n :: r) :: rs
    | rs => [m] :: rs

/-- A packet reaches the edge block (R259): its job's share must hold it. -/
def State.edgePkt (s : State) (a : Act) (h : FabHdr) (lines : List Line) : State :=
  let e := a.reg - 24
  if s.share a.job ≤ s.retained a.job e then
    s.raise { code := 0x0607, blk := a.reg, job := some a.job }
  else s.handOver a.job (.dev (faDevice (dFar a.w))) e { h with plan := s.planOf a.job } lines

/-- The lines of a packet reach the edge block: they leave as WRITE packets, the last with FENCE and signal (R90). -/
def State.edgeOut (s : State) (a : Act) (k : Nat) (vals : List Moving) : State :=
  let w := a.w
  let x := s.xfer a.stall a.job w
  let runs := runsOf (vals.filter (fun v => !s.isDropped v.flit (dEdge a.reg)))
  let last := x.lines ≤ k + 4
  runs.zipIdx.foldl (fun s r =>
    let fin := last && r.2 + 1 = runs.length
    let sig := fin && bits (dRsig w) 15 14 = 2
    let pois := (r.1.zipIdx.map (fun v => b2n v.1.val.poison * 2 ^ v.2)).sum
    s.edgePkt a
      { kind := 0, epoch := if cOp w = 0x603 then 0 else dEpochW w, poison := pois, fence := fin && dFence w
        addr := faLocal (dFar w) + 64 * (r.1.map Moving.line).headD 0
        sigidx := if sig then bits (dRsig w) 13 0 else 0, siginc := if sig then dRinc w else 0 }
      (r.1.map (fun v => v.val.data))) s

/-- The request of a DMA.RD from another device leaves the stall (R91, R253). -/
def State.farReqOut (s : State) (a : Act) : State :=
  let dest := faDevice (dFar a.w)
  match s.route (s.planOf a.job) dest with
  | none => s.hubErr a.job 0x0601 dest
  | some p =>
    let f := s.newFlit a.ord a.job (rdFlit a.w a.stall 0)
      (stallUses a.stall a.beat (dEdge (portEdge p)) (portRouter p) (portEdge p))
    f.2.addAct
      { a with
        reg := portEdge p, rank := 8, beat := a.beat + tEdge (a.stall / 48) (portRouter p) (portEdge p)
        m := .farReq f.1 }

/-- The request reaches the edge block and leaves as READ_REQ (R250). -/
def State.farReqEdge (s : State) (a : Act) (flit : Nat) : State :=
  if s.isDropped flit (dEdge a.reg) then s
  else
    let w := a.w
    let tag := s.fab.rtag
    let ret := 0xC00000000 + a.stall / 48 * 0x10000000 + a.stall % 48 * 0x400000 + dLocal w
    let body := faLocal (dFar w) + ret * 2 ^ 36 + dLines w * 2 ^ 72 + dEpochW w * 2 ^ 88 + dEpochR w * 2 ^ 92 +
      b2n (dCheck w) * 2 ^ 96 + b2n (dFence w) * 2 ^ 97 + bits (dRsig w) 12 0 * 2 ^ 98 + dRinc w * 2 ^ 111
    let s1 := s.updFab (fun f =>
      { f with rtag := (f.rtag + 1) % 2 ^ 17, reads := f.reads ++ [⟨tag, a.job, a.stall, a.ord, (dLines w + 3) / 4⟩] })
    s1.edgePkt a { kind := 1, rtag := tag } [BitVec.ofNat 512 body]

/-! ### DMA.RDS and DMA.FILL -/

/-- Output bytes of unit u, and the source byte of each. -/
def rdsUnit (w : Cmd) (u : Nat) : List Nat :=
  let e := 4 * 2 ^ rdsEsize w
  let all := rdsBytes (rdsMode w) e (rdsCount w)
  (List.range (min 512 (all - 512 * u))).map (fun o => rdsSource (rdsMode w) e (rdsStride w) (rdsSrc w) (512 * u + o))

def rdsUnits (w : Cmd) : Nat := (rdsBytes (rdsMode w) (4 * 2 ^ rdsEsize w) (rdsCount w) + 511) / 512

/-- Beats that a unit reads, and from issue to the last write. -/
def rdsReads (w : Cmd) (u : Nat) : Nat := groupBeats (groupLines (rdsUnit w u))
def rdsDone (w : Cmd) : Nat := ((List.range (rdsUnits w)).map (fun u => rdsReads w u + 1)).sum

/-- Beat q of unit u; the unit is written in the beat after its last read. -/
def State.rdsRead (s : State) (a : Act) (u q : Nat) (got : List (Nat × LineVal)) : State :=
  let w := a.w
  let srcs := rdsUnit w u
  let ls := groupLines srcs
  let r := s.rdLines (a.stall / 48) (a.stall % 48) a.beat 6 a.ord (if rdsCheck w then some (rdsEpochR w) else none) a.ecc
    (ls.filter (fun l => lineBeat ls l = q))
  let got1 := got ++ r.1
  if q + 1 < groupBeats ls then r.2.addAct { a with beat := a.beat + 1, m := .grp (.rds u) (q + 1) got1 0 0 }
  else
    let out := (chunks 64 32 (pickBytes got1 srcs)).zipIdx.map (fun p =>
      (⟨rdsDst w / 64 + 8 * u + p.2, lineOf (rdsEpochW w) p.1, 0, none⟩ : Moving))
    let s1 := r.2.addAct { a with beat := a.beat + 1, m := .land a.stall out }
    if u + 1 < rdsUnits w then s1.addAct { a with beat := a.beat + 2, m := .grp (.rds (u + 1)) 0 [] 0 0 } else s1

/-- The line that DMA.FILL writes. -/
def fillLine (w : Cmd) : Line := BitVec.ofNat 512 (fillPattern w * ((List.range 8).map (fun i => 2 ^ (64 * i))).sum)

/-- Data beat k of a fill: 16 lines. -/
def State.dmaFill (s : State) (a : Act) (k : Nat) : State :=
  let w := a.w
  let js := (List.range 16).map (· + 16 * k) |>.filter (· < fillLines w)
  let s1 := js.foldl (fun s j =>
    s.putLine (a.stall / 48) (a.stall % 48) a.beat (fillDst w / 64 + j) 6 ⟨fillLine w, fillEpoch w, false⟩) s
  if 16 * (k + 1) < fillLines w then s1.addAct { a with beat := a.beat + 1, m := .dmaFill (k + 1) } else s1

/-! ### Issue -/

/-- The error of a far range on this device (R92): the address check that fails first. -/
def State.dmaFarErr (s : State) (b k j : Nat) (w : Cmd) : State :=
  let a := dFar w
  let un := s.place (faLocal a) = .none
  let s1 := if s.fbit (F.SPD_ERRADDR_VALID b k) then s
    else ((s.fset (F.SPD_ERRADDR_VALID b k) 1).fset (F.SPD_ERRADDR_NN b k) 1).fset (F.SPD_ERRADDR_ADDR b k) a
  if un then s1.netErr b 0x0401 a (s.physOf b k) (some j) a
  else s1.raise { code := 0x0A01, blk := b, inst := s.physOf b k, job := some j, detail := a }

/-- The object that RSIG names at a far end on this device (R90). -/
def Xfer.farSig (x : Xfer) (w : Cmd) : Option (Nat × Nat) :=
  if cOp w = 0x601 ∨ x.denied ∨ x.kind = 5 then none
  else match bits (dRsig w) 15 14 with
    | 0 => some (keyLocal (x.st / 48) (x.st % 48) (bits (dRsig w) 13 0), dRinc w)
    | 1 => some (keyBarn x.d (bits (dRsig w) 13 0), dRinc w)
    | _ => none

/-- The first work of a copy (R89). -/
def State.dmaFirst (s : State) (a : Act) (x : Xfer) : State :=
  match cOp a.w with
  | 0x601 =>
    if x.denied then s.addAct { a with beat := a.at_ (if x.kind = 0 then 2 else x.landAt), m := .dmaZero 0 }
    else (match x.kind with
      | 0 => s.addAct { a with beat := a.iss + 1, m := .dmaRead 0 [] }
      | 3 => s.addAct { a with rank := 3, beat := s.bankAt a (x.srcAt 0x601 0) 0, m := .loftRd 0 0 }
      | 4 => s.addAct { a with beat := s.bankAt a (x.srcAt 0x601 0) 0 - (20 + 3 * x.h), m := .loftReq 0 }
      | 5 => s.farReqOut a
      | _ => s.dmaReq a 0)
  | 0x602 => s.addAct { a with beat := a.iss + 1, m := .dmaRead 0 [] }
  | _ => s.addAct { a with rank := 3, beat := s.bankAt a (x.srcAt 0x603 0) 0, m := .loftRd 0 0 }

/-- A copy command issues (R86, R89, R92, R159). -/
def State.dmaCopy (s : State) (b k j : Nat) (w : Cmd) (ecc : List EccHit) : State :=
  let c := (s.dmaChan b k).getD 0
  let x := s.xfer (48 * b + k) j w
  let now := s.beat b
  let moves := findMoves (s.jobBeatRaw j b) (x.accesses w) []
  let a := { s.actNow b k j c w ecc with rank := 6, moves := moves }
  let dn := if cOp w = 0x601 ∧ x.kind = 5 then 1 else x.doneAt (cOp w) + x.n
  let s1 := s.inFlight b k 3 w c (now + dn + shiftOf moves (dn + 1)) (x.farSig w) []
  (if x.denied then s1.dmaFarErr b k j w else s1).dmaFirst a x

/-- DMA.RD issues. -/
def execDmaRd (b : Barn) (k : StallId) (ecc : List EccHit) (s : State) : Res :=
  .next (s.issue b k 3 (isOpcode 0x601) (fun s j w => s.dmaCopy b k j w ecc))

/-- DMA.WR issues. -/
def execDmaWr (b : Barn) (k : StallId) (ecc : List EccHit) (s : State) : Res :=
  .next (s.issue b k 3 (isOpcode 0x602) (fun s j w => s.dmaCopy b k j w ecc))

/-- DMA.LCOPY issues. -/
def execDmaLcopy (b : Barn) (k : StallId) (ecc : List EccHit) (s : State) : Res :=
  .next (s.issue b k 3 (isOpcode 0x603) (fun s j w => s.dmaCopy b k j w ecc))

/-- DMA.RDS issues (R85, R89). -/
def execDmaRds (b : Barn) (k : StallId) (ecc : List EccHit) (s : State) : Res :=
  .next (s.issue b k 3 (isOpcode 0x604) (fun s j w =>
    let c := (s.dmaChan b k).getD 0
    let now := s.beat b
    (s.inFlight b k 3 w c (now + rdsDone w) none []).addAct
      { s.actNow b k j c w ecc with beat := now + 1, rank := 6, m := .grp (.rds 0) 0 [] 0 0 }))

/-- DMA.FILL issues (R89). -/
def execDmaFill (b : Barn) (k : StallId) (ecc : List EccHit) (s : State) : Res :=
  .next (s.issue b k 3 (isOpcode 0x605) (fun s j w =>
    let c := (s.dmaChan b k).getD 0
    let now := s.beat b
    (s.inFlight b k 3 w c (now + (fillLines w + 15) / 16) none []).addAct
      { s.actNow b k j c w ecc with beat := now + 1, rank := 6, m := .dmaFill 0 }))

/-- The work of the DMA engine in its beat. -/
def State.dmaWork (s : State) (a : Act) : State :=
  match a.m with
  | .dmaRead k got => s.dmaRead a k got
  | .dmaReq k => s.dmaReq a k
  | .dmaFar k f => s.dmaFar a k f
  | .dmaZero k => s.dmaZero a k
  | .loftReq m => s.loftReq a m
  | .loftRd m f => s.loftRd a m f
  | .lcOut k v g => s.lcOut a k v g
  | .loftEnter m => s.dmaEnter a m
  | .loftWr m v => s.loftWr a m v
  | .dmaFill k => s.dmaFill a k
  | .farReq f => s.farReqEdge a f
  | .edge k v => s.edgeOut a k v
  | .grp (.rds u) q got _ _ => s.rdsRead a u q got
  | .land st v => s.dmaLand a st v
  | _ => s

end Sys2Proof.Machine
end

