-- ==== Sys2Proof/Machine/LoftEng.lean ====
section
/-! DEFINITION. The loft engines and the commands LFT.VEC, LFT.MV and LFT.PWR (R172-R186), and the power, wake and
refresh events of banks (R155, R156, R162, R163). -/

namespace Sys2Proof.Machine

/-! ### LFT.VEC (R178) -/

def lvEpochR (w : Cmd) : Option Nat := if lvCheck w then some (lvEpoch w) else none

/-- Pair q of the lines of group j; the last pair completes the group, which is written 10 beats later. -/
def State.lftVec (s : State) (a : Act) (j q : Nat) (got : List PByte) : State :=
  let w := a.w
  let n := a.stall / 48
  let l0 := lvSrc w / 64 + 8 * j + 2 * q
  let r := (s.bondUse a.stall a.beat 128 false).rdLines n (a.stall % 48) a.beat 3 a.ord (lvEpochR w) a.ecc [l0, l0 + 1]
  let got' := got ++ r.1.flatMap (fun x => (List.range 64).map x.2.byte)
  if q < 3 then r.2.addAct { a with beat := a.beat + 1, m := .lvec j (q + 1) got' }
  else
    let v : VGroup := ⟨BitVec.ofNat 4096 (pNat got'),
      (List.range 8).foldl (fun acc x => acc + (if (got'.getD (64 * x) PByte.zero).poison then 2 ^ x else 0)) 0⟩
    let p := (lvFirst w + j) % 8
    let s1 := r.2.updLoft n (fun l => { l with
      vbuf := (bankSet (lvLmask w) (lvBmask w)).foldl (fun t e => t.write (a.iss + 14 + 4 * j) (8 * e + p) v) l.vbuf })
    if j + 1 < lvN w then s1.addAct { a with beat := a.beat + 1, m := .lvec (j + 1) 0 [] } else s1

/-- LFT.VEC issues. -/
def execLftVec (b : Barn) (k : StallId) (ecc : List EccHit) (s : State) : Res :=
  .next (s.issue b k 5 (isOpcode 0xA01) (fun s j w =>
    let now := s.beat b
    (s.inFlight b k 5 w 0 (now + 10 + 4 * lvN w) none []).addAct
      { s.actNow b k j 0 w ecc with beat := now + 1, rank := 3, m := .lvec 0 0 [] }))

/-! ### LFT.MV: times (R181) -/

/-- Bank cycles from c0 to the first refresh slot of the bank at or after it. -/
def slotDist (bank c0 : Nat) : Nat := ((4 * (bank % 16) + bank / 16) + 64 - c0 % 64) % 64

/-- The bank cycle of engine cycle n in a bank. -/
def engCycle (bank c0 n : Nat) : Nat :=
  let d := slotDist bank c0
  c0 + n + (if n < d then 0 else (n - d) / 63 + 1)

/-- The engine cycle that takes place in bank cycle c; none in the refresh slot and before c0. -/
def engOf (bank c0 c : Nat) : Option Nat :=
  if c < c0 ∨ refreshSlot bank c then none
  else
    let x := c - c0
    let d := slotDist bank c0
    some (x - (if x < d then 0 else (x - d) / 64 + 1))

/-- The number of engine cycles. -/
def mvCycles (w : Cmd) : Nat := mvRows w * mvG w
/-- c0 for a command that issues at loft beat f. -/
def mvC0 (f : Nat) : Nat := (f + 9) / 2
def mvLast (w : Cmd) (c0 : Nat) : Nat := maxOf 0 ((mvSet w).map (fun e => engCycle e c0 (mvCycles w - 1)))

/-- The scale bank of a bank (R172). -/
def scaleBank (w : Cmd) (bank : Nat) : Nat := 16 * (bank / 16 ^^^ mvSx w) + bank % 16

/-- The loft beat of the issue of a command, from the issue's device beat. -/
def State.issF (s : State) (a : Act) : Nat := s.loftF (a.stall / 48) - (s.beat (a.stall / 48) - a.iss)

/-! ### LFT.MV: engine cycles (R174, R175) -/

/-- The scale block that is read in bank cycle c for the rows from engine cycle n on, if one is (R181). -/
def scaleReadAt (w : Cmd) (bank c0 c : Nat) : Option Nat :=
  let per := mvPerScale (mvWfmt w)
  if per = 0 then none
  else [c + 1, c + 2].findSome? (fun cy =>
    match engOf bank c0 cy with
    | some n =>
      if n % (per * mvG w) = 0 ∧ n < mvCycles w then
        (if (if refreshSlot (scaleBank w bank) (cy - 1) then cy - 2 else cy - 1) = c then
          some (mvSblk w + n / mvG w / per)
         else none)
      else none
    | none => none)

/-- Read a block for the engine of `bank`. -/
def State.mvRead (s : State) (a : Act) (blk : Nat) : BlockVal × Option Nat × State :=
  let u := s.useLoft (a.stall / 48) a.beat blk 1 (2 * a.ord) a.job
  if u.1 then u.2.loftRead (a.stall / 48) blk (some a.job) a.ecc else (⟨0, true⟩, none, u.2)

/-- The reads of one bank in bank cycle c: the scale block of coming rows, and the row of an engine cycle t × G. -/
def State.mvBankReads (s : State) (a : Act) (c0 c bank : Nat) : State :=
  let w := a.w
  let n := a.stall / 48
  let s1 := match scaleReadAt w bank c0 c with
    | some blk =>
      let r := s.mvRead a (32768 * scaleBank w bank + blk)
      r.2.2.updLoft n (fun l => l.updEng bank (fun e => { e with next := some (r.1, r.2.1) }))
    | none => s
  match engOf bank c0 c with
  | some x =>
    let s2 := if mvPerScale (mvWfmt w) ≠ 0 ∧ x % (mvPerScale (mvWfmt w) * mvG w) = 0 then
        s1.updLoft n (fun l => l.updEng bank (fun e => match e.next with
          | some v => { e with scale := v.1, scaleSrc := v.2, next := none }
          | none => e))
      else s1
    if x % mvG w = 0 ∧ x < mvCycles w then
      let r := s2.mvRead a (32768 * bank + mvWaddr w + x / mvG w)
      r.2.2.updLoft n (fun l => l.updEng bank (fun e => { e with row := r.1, rowSrc := r.2.1 }))
    else s2
  | none => s1

/-- Element e of feature f of a row (R172). -/
def rowElem (wf : Nat) (row f e : Nat) : Num :=
  if wf ≤ 1 then decodeNum fp4 (bits row (8 * (32 * f + e / 2) + 4 * (e % 2) + 3) (8 * (32 * f + e / 2) + 4 * (e % 2)))
  else decodeNum (if wf = 4 ∨ wf = 6 then fp8e4 else fp8e5) (bits row (8 * (64 * f + e) + 7) (8 * (64 * f + e)))

/-- The scale byte of elements 32 h.. of feature f in row t (R172). -/
def rowScale (wf : Nat) (scale t f h : Nat) : Nat :=
  let o := if wf = 1 then 16 * (t % 16) + 2 * f + h else 8 * (t % 32) + 2 * f + h
  bits scale (8 * o + 7) (8 * o)

/-- The row sum s of feature f and vector v (R174). -/
def rowSum (w : Cmd) (row scale vec t f v : Nat) : Nat :=
  let wf := mvWfmt w
  ((List.range 64).foldl (fun st e =>
    let x := rowElem wf row f e
    let x := if mvPerScale wf ≠ 0 then mxScale x (rowScale wf scale t f (e / 32)) else x
    st.mac x (decodeNum (mvAfmt w) (bits vec (8 * (64 * v + e) + 7) (8 * (64 * v + e))))) SumSt.start).result

def Lane.zeroF : Nat → Lane := fun _ => Lane.zero

/-- Engine cycle n of one engine (R174, R175). -/
def EngSt.cycle (e : EngSt) (w : Cmd) (n : Nat) (vec : VGroup) : EngSt :=
  let t := n / mvG w
  let g := n % mvG w
  let fresh := t = 0 && !mvAcc w
  let acc0 := if n = 0 ∧ !mvAcc w then [] else e.acc
  let mx := mvPerScale (mvWfmt w) ≠ 0
  let nf := if mvWfmt w ≤ 1 then 8 else 4
  let idx := (List.range nf).flatMap (fun f => (List.range 8).map (fun v => (f, v)))
  { e with
    acc := idx.foldl (fun acc p =>
      let i := 64 * p.1 + 8 * g + p.2
      let old := Tab.get Lane.zeroF acc i
      let r := rowSum w e.row.data.toNat e.scale.data.toNat vec.data.toNat t p.1 p.2
      Tab.set Lane.zeroF acc i ⟨BitVec.ofNat 32 (if fresh then r else accAdd32 old.v.toNat r),
        (!fresh && old.poison) || e.row.poison || (mx && e.scale.poison) || bit vec.pois p.2⟩) acc0 }

def VGroup.zeroF : Nat → VGroup := fun _ => VGroup.zero

/-- The engine cycles of bank cycle c in all banks of the command, then the next bank cycle. -/
def State.mvDo (s : State) (a : Act) (c : Nat) : State :=
  let w := a.w
  let n := a.stall / 48
  let c0 := mvC0 (s.issF a)
  let live := (mvSet w).filterMap (fun e => match engOf e c0 c with
    | some x => if x < mvCycles w then some (e, x) else none
    | none => none)
  let srcs := live.flatMap (fun p =>
    ((s.loft n).engine p.1).rowSrc.toList ++
    (if mvPerScale (mvWfmt w) ≠ 0 then ((s.loft n).engine p.1).scaleSrc.toList else []))
  match s.anyRepairing srcs with
  | some id => s.holdFor { a with m := .mvDo c } id
  | none =>
    let s1 := live.foldl (fun s p =>
      let vec := (s.loft n).vbuf.readAt VGroup.zeroF a.beat (8 * p.1 + (mvRing0 w + p.2) % 8)
      s.updLoft n (fun l => l.updEng p.1 (fun e => e.cycle w p.2 vec))) s
    if c < mvLast w c0 then s1.addAct { a with beat := a.beat + 2, m := .mv (c + 1) } else s1

/-- Bank cycle c of a command: its reads, then its engine cycles. -/
def State.mvStep (s : State) (a : Act) (c : Nat) : State :=
  let c0 := mvC0 (s.issF a)
  ((mvSet a.w).foldl (fun s e => s.mvBankReads a c0 c e) s).mvDo a c

/-- Lines 2q and 2q + 1 of the engine with ordinal e land (R181). -/
def State.mvEmit (s : State) (a : Act) (e q : Nat) : State :=
  let w := a.w
  let n := a.stall / 48
  let set := mvSet w
  let eng := (s.loft n).engine (set.getD e 0)
  let line := fun m =>
    let xs := (List.range 16).map (fun i => Tab.get Lane.zeroF eng.acc (16 * m + i))
    (⟨BitVec.ofNat 512 (xs.foldr (fun l acc => l.v.toNat + 2 ^ 32 * acc) 0), mvEpoch w, xs.any Lane.poison⟩ : LineVal)
  let l0 := mvDst w / 64 + 32 * e + 2 * q
  let s1 := (s.bondUse a.stall a.beat 128 true).putLine n (a.stall % 48) a.beat l0 3 (line (2 * q))
  let s2 := s1.putLine n (a.stall % 48) a.beat (l0 + 1) 3 (line (2 * q + 1))
  if q < 15 then s2.addAct { a with beat := a.beat + 1, m := .emit e (q + 1) }
  else if e + 1 < set.length then s2.addAct { a with beat := a.beat + 1, m := .emit (e + 1) 0 } else s2

/-! ### Issue (R176, R183) -/

/-- LFT.MV issues (R179-R181). -/
def execLftMv (b : Barn) (k : StallId) (ecc : List EccHit) (s : State) : Res :=
  .next (s.issue b k 5 (isOpcode 0xA02)
    (fun s j w =>
      let now := s.beat b
      let f := s.loftF b
      let c0 := mvC0 f
      let last := cycleBeat now f (mvLast w c0)
      let done := last + 7 + (if mvEmit w then 16 * (mvSet w).length else 0)
      let s1 := s.inFlight b k 5 w 0 done none []
      let n := (s1.heldEngines b).length
      let s2 := if s1.fget (F.LFT_ACTIVE_PEAK b) < n then s1.fset (F.LFT_ACTIVE_PEAK b) n else s1
      let a := s.actNow b k j 0 w ecc
      let c := if mvPerScale (mvWfmt w) ≠ 0 then c0 - 2 else c0
      let s3 := s2.addAct { a with beat := cycleBeat now f c, rank := 1, m := .mv c }
      if mvEmit w then s3.addAct { a with beat := last + 8, rank := 3, m := .emit 0 0 } else s3))

/-- LFT.PWR issues (R163, R182). -/
def execLftPwr (b : Barn) (k : StallId) (_ecc : List EccHit) (s : State) : Res :=
  .next (s.issue b k 5 (isOpcode 0xA03)
    (fun s _ w =>
      let now := s.beat b
      let set := bankSet (lpLmask w) (lpBmask w)
      let want := if lpOn w then 2 else 0
      let ch := set.filter (fun e => (s.bank b e).st = want)
      let s1 := ch.foldl (fun s e => s.updBank b e (fun x =>
        if lpOn w then { x with st := 3, wake := now + 256 } else { x with st := 1 })) s
      if ch.isEmpty then s1.inFlight b k 5 w 0 (now + 1) none []
      else if lpOn w then s1.inFlight b k 5 w 0 (now + 256) none []
      else s1.inFlight b k 5 w 0 now none ch))

/-! ### Events of banks -/

/-- A CLOSING bank without in-flight writes is OFF: it holds no data, and an LFT.PWR that waited for its last bank is
complete in this beat (R162, R163). -/
def execBankDrainDone (b : Barn) (bank : Fin 256) (s : State) : Res :=
  let x := s.bank b bank
  if x.st = 1 ∧ x.writes = 0 then
    let s1 := s.updLoft b (fun l =>
      { l with
        blocks := l.blocks.filter (fun e => blkBank e.1 ≠ bank.val)
        banks := Tab.upd BankSt.zeroF l.banks bank (fun x => { x with st := 2, woken := true }) })
    .next ((List.range 48).foldl (fun s k =>
      if ((s.stall (48 * b + k)).flying 5).any (fun f => f.waits.contains bank.val) then
        s.updStall (48 * b + k) (fun t => { t with flights := t.flights.map (fun f =>
          if f.waits.contains bank.val then
            { f with waits := f.waits.filter (· ≠ bank.val), done := s.beat b }
          else f) })
      else s) s1)
  else .next s

/-- A WAKING bank is ON after 256 beats (R162). -/
def execBankWakeDone (b : Barn) (bank : Fin 256) (s : State) : Res :=
  let x := s.bank b bank
  if x.st = 3 ∧ x.wake ≤ s.beat b then .next (s.updBank b bank (fun x => { x with st := 0 })) else .next s

/-- The refresh of a bank in its slot (R155): an ON bank refreshes the row at its pointer and advances it. -/
def execBankRefresh (b : Barn) (bank : Fin 256) (s : State) : Res :=
  let c := s.loftF b / 2
  let x := s.bank b bank
  if refreshSlot bank c ∧ x.st = 0 ∧ !s.held b ∧ x.lastCyc ≠ c + 1 then
    .next (s.updBank b bank (fun x =>
      { x with row := (x.row + 1) % 8192, lastRef := s.locNs b, lastCyc := c + 1 }))
  else .next s

/-- A timer refresh while the region is held (R156): it takes the bank for two pacer periods. -/
def execTimerRefresh (b : Barn) (bank : Fin 256) (s : State) : Res :=
  let x := s.bank b bank
  if x.st = 0 ∧ s.held b ∧ x.lastRef + 256 ≤ s.locNs b then
    .next ((s.updBank b bank (fun x =>
      { x with row := (x.row + 1) % 8192, lastRef := s.locNs b, refEnd := (s.region b).periods + 2 })).fwrap
        (F.LFT_REFRESH_TIMER b) 1)
  else .next s

/-- The work of loft commands in its beat. -/
def State.lftWork (s : State) (a : Act) : State :=
  match a.m with
  | .lvec j q got => s.lftVec a j q got
  | .mv c => s.mvStep a c
  | .mvDo c => s.mvDo a c
  | .emit e q => s.mvEmit a e q
  | _ => s

end Sys2Proof.Machine
end

