-- ==== Sys2Proof/Machine/Network.lean ====
section
/-! DEFINITION. The network engine and its commands NET.SEND, NET.SLOT and NET.SIG, and the landing of slot-addressed
flits (R195, R205-R210). -/

namespace Sys2Proof.Machine

def Slot.zeroF : Nat → Slot := fun _ => Slot.zero
def nsEpochChk (w : Cmd) : Option Nat := if nsCheck w then some (nsEpochR w) else none

/-- The destination stalls, barn by barn (R206). -/
def nsDests (w : Cmd) : List Nat :=
  (onesOf 24 (nsBmask w)).flatMap (fun d => (onesOf 48 (nsSmask w)).map (fun k => 48 * d + k))

/-- Data beat k of a send: the lines are read through the NET port and travel to every destination (R206). -/
def State.netRead (s : State) (a : Act) (k : Nat) : State :=
  let w := a.w
  let b := a.stall / 48
  let r := nsRate b w
  let ls := (List.range r).map (· + r * k) |>.filter (· < nsLines w)
  let x := s.rdLines b (a.stall % 48) a.beat 4 a.ord (nsEpochChk w) a.ecc (ls.map (· + nsSrc w / 64))
  let dests := nsDests w
  let f := x.2.newFlits a.ord a.job ((ls.zip (x.1.map Prod.snd)).map (fun v =>
    (slotFlit (nsSlot w) (nsBmask w) (nsSmask w) { v.2 with epoch := nsEpochW w } (nsLast w && v.1 + 1 = nsLines w),
     dests.flatMap (fun d => stallUses a.stall a.beat d 0 0))))
  let items := (ls.zip (x.1.map Prod.snd)).zip f.1
  let s1 := items.foldl (fun s it =>
    dests.foldl (fun s d => s.addAct
      { a with
        reg := d / 48, beat := a.beat + tStall b (d / 48), rank := 4
        m := .slotLand d ⟨0, { it.1.2 with epoch := nsEpochW w }, it.2, none⟩ (nsLast w && it.1.1 + 1 = nsLines w) }) s) f.2
  if k + 1 < nsBeats b w then s1.addAct { a with beat := a.beat + 1, m := .netRead (k + 1) } else s1

/-- A slot-addressed flit lands in stall `st` (R195). -/
def State.slotLand (s : State) (a : Act) (st : Nat) (m : Moving) (last : Bool) : State :=
  if s.isDropped m.flit st then s
  else
    let n := nsSlot a.w
    let e := Tab.get Slot.zeroF (s.stall st).slots n
    let b := st / 48
    let k := st % 48
    if !e.valid then
      let d := k * 256 + n
      s.netErr b 0x0403 d 0xFF (some a.job) d
    else
      let s1 := s.putLine b k a.beat (e.base / 64 + e.ptr) 4 m.val
      let s2 := s1.updStall st (fun t =>
        { t with slots := Tab.set Slot.zeroF t.slots n { e with ptr := (e.ptr + 1) % e.ring } })
      if last then
        (match selKey b k e.sigsel with
         | some key => s2.signal key e.siginc
         | none => s2)
      else s2

/-- NET.SEND issues (R206). -/
def execNetSend (b : Barn) (k : StallId) (ecc : List EccHit) (s : State) : Res :=
  .next (s.issue b k 4 (isOpcode 0x801) (fun s j w =>
    let now := s.beat b
    let c := (s.sendChan b k).getD 0
    let tmax := maxOf 0 ((onesOf 24 (nsBmask w)).map (tStall b))
    (s.inFlight b k 4 w c (now + nsBeats b w + tmax) none []).addAct
      { s.actNow b k j c w ecc with beat := now + 1, rank := 4, m := .netRead 0 }))

/-- NET.SLOT issues (R207): the entry is written at the end of the next beat. -/
def execNetSlot (b : Barn) (k : StallId) (ecc : List EccHit) (s : State) : Res :=
  .next (s.issue b k 4 (isOpcode 0x802) (fun s j w =>
    let now := s.beat b
    (s.inFlight b k 4 w 2 (now + 1) none []).addAct
      { s.actNow b k j 2 w ecc with beat := now + 1, rank := 8, m := .slotSet }))

/-- The entry that a NET.SLOT writes. -/
def slotOf (w : Cmd) : Slot := ⟨slBase w, slRing w, slPtr w, slSigsel w, slSiginc w, slValid w⟩

def State.slotSet (s : State) (a : Act) : State :=
  s.updStall a.stall (fun t => { t with slots := Tab.set Slot.zeroF t.slots (slSlot a.w) (slotOf a.w) })

/-- NET.SIG issues (R208): one flit of signal form to every barn named. -/
def execNetSig (b : Barn) (k : StallId) (ecc : List EccHit) (s : State) : Res :=
  .next (s.issue b k 4 (isOpcode 0x803) (fun s j w =>
    let now := s.beat b
    let ds := onesOf 24 (sgBmask w)
    let s1 := s.inFlight b k 4 w 2 (now + maxOf 0 (ds.map (tSync b))) none []
    let a := s.actNow b k j 2 w ecc
    let f := s1.newFlit a.ord j (sigFlit (sgIdx w) (sgInc w) (sgBmask w)) (ds.flatMap (fun d => stallUses (sx b k) now (dSync d) 0 0))
    ds.foldl (fun s d => s.addAct { a with reg := d, beat := now + tSync b d, rank := 8, m := .sigSet d f.1 }) f.2))

def State.sigSet (s : State) (a : Act) (d flit : Nat) : State :=
  if s.isDropped flit (dSync d) then s else s.signal (keyBarn d (sgIdx a.w)) (sgInc a.w)

/-- The work of the network engine in its beat. -/
def State.netWork (s : State) (a : Act) : State :=
  match a.m with
  | .netRead k => s.netRead a k
  | .slotLand st m last => s.slotLand a st m last
  | .slotSet => s.slotSet a
  | .sigSet d f => s.sigSet a d f
  | _ => s

end Sys2Proof.Machine
end

