-- ==== Sys2Proof/Machine/Acts.lean ====
section
/-! DEFINITION. The beat of a region: all the work that commands in flight do in it, in the order of R78, R158 and
R194, and what the beat leaves to raise. -/

namespace Sys2Proof.Machine

/-- One piece of work. -/
def State.perform (s : State) (a : Act) : State :=
  match a.m with
  | .land st v => if a.rank = 6 then s.dmaWork a else s.landLines a st v
  | .grp (.rds _) _ _ _ _ => s.dmaWork a
  | .grp (.vlds _) _ _ _ _ => s.vecWork a
  | .grp _ _ _ _ _ => s.arrWork a
  | .mmaRead _ => s.arrWork a
  | .mmaBlk _ => s.arrWork a
  | .mmaNeed _ => s.arrWork a
  | .mmaStream _ => s.arrWork a
  | .mmaRow _ => s.arrWork a
  | .drain _ => s.arrWork a
  | .vec _ _ => s.vecWork a
  | .cvtPut _ _ _ _ _ => s.vecWork a
  | .vtile _ _ => s.vecWork a
  | .vld _ => s.vecWork a
  | .vst _ => s.vecWork a
  | .vstPut _ _ _ _ => s.vecWork a
  | .regPut _ _ => s.vecWork a
  | .maskPut _ _ _ _ => s.vecWork a
  | .repDone => s.vecWork a
  | .lvec _ _ _ => s.lftWork a
  | .mv _ => s.lftWork a
  | .mvDo _ => s.lftWork a
  | .emit _ _ => s.lftWork a
  | .netRead _ => s.netWork a
  | .slotLand _ _ _ => s.netWork a
  | .slotSet => s.netWork a
  | .sigSet _ _ => s.netWork a
  | .dmaRead _ _ => s.dmaWork a
  | .dmaReq _ => s.dmaWork a
  | .dmaFar _ _ => s.dmaWork a
  | .dmaZero _ => s.dmaWork a
  | .loftReq _ => s.dmaWork a
  | .loftRd _ _ => s.dmaWork a
  | .lcOut _ _ _ => s.dmaWork a
  | .loftEnter _ => s.dmaWork a
  | .loftWr _ _ => s.dmaWork a
  | .dmaFill _ => s.dmaWork a
  | .farReq _ => s.dmaWork a
  | .edge _ _ => s.dmaWork a

/-- The order of the work of a beat. -/
def Act.before (a b : Act) : Bool :=
  a.beat < b.beat || (a.beat = b.beat && (a.rank < b.rank || (a.rank = b.rank && a.ord < b.ord)))

def insAct (a : Act) : List Act → List Act
  | [] => [a]
  | b :: bs => if a.before b then a :: b :: bs else b :: insAct a bs

def sortActs (l : List Act) : List Act := l.foldl (fun acc a => insAct a acc) []

/-- What a beat of a barn leaves: conflicts to raise, bonds to hold for, and writes of earlier beats that settle. -/
def State.closeStall (s : State) (i now : Nat) : State :=
  ((s.raiseClash i).bondCheck i now).updStall i (Stall.settleAt now)

def State.closeBarn (s : State) (n now : Nat) : State :=
  let is := (s.stalls.map Prod.fst).filter (fun i => i / 48 = n)
  let s1 := is.foldl (fun s i => s.closeStall i now) s
  ((s1.raiseLoftClash n).bondCheckAll n now).updLoft n (fun l => { l with vbuf := l.vbuf.settle VGroup.zeroF now })

/-- The pieces of work that are due in region `r`. What a halt discards it stops at the end of the beat in progress
(`State.haltRegion`), so all the work of the beat is done (R93, R119, R150). -/
def State.dueWork (s : State) (r : Nat) : State :=
  let now := s.beat r
  let s0 := s.resolve r now
  let due := s0.acts.filter (fun a => a.reg = r && a.beat ≤ now)
  let s1 := { s0 with acts := s0.acts.filter (fun a => !(a.reg = r && a.beat ≤ now)) }
  (sortActs due).foldl State.perform s1

/-- The work of region `r` in its present beat. -/
def State.runActs (s : State) (r : Nat) : State :=
  let t := s.dueWork r
  if r < 24 then t.closeBarn r (s.beat r) else t

end Sys2Proof.Machine
end

