-- ==== Sys2Proof/Machine/Banks.lean ====
section
/-! DEFINITION. Accesses outside the schedule: when a scratchpad bank or an accumulator is free for them, and the bank they
take (R49, R78, R80, R84, R111). -/

namespace Sys2Proof.Machine

/-- The lines that an MMA with weights in the scratchpad reads in its issue beat (R105). -/
def mmaFirstLines (w : Cmd) : List Nat := (stepFeatures (mmaFmt w) (mNf w) 0).flatMap (featLines w)

/-- The banks that an MMA which is still to issue in this beat will use in it. -/
def State.mmaToIssue (s : State) (b k : Nat) : List Nat :=
  match s.headAt b k 1 with
  | some (_, q) =>
    if isOpcode 0x202 q && !mLoft q.w && s.canAccept b k 1 q && s.waitOk b k 1 q then (mmaFirstLines q.w).map (· % 16) else []
  | none => []

/-- A region that holds or waits for a neighbour has no beat in progress (R27). -/
def State.standing (s : State) (r : Nat) : Bool := s.held r || (s.region r).skew

/-- The device as the work of the beat in progress of region `r` will leave it: what that work takes, no access outside the
schedule may. -/
def State.foresee (s : State) (r : Nat) : State :=
  if s.acts.any (fun a => a.reg = r && a.beat ≤ s.beat r) then s.dueWork r else s

/-- The banks of a stall's scratchpad that the ports ranked 1 to 6 use in the beat in progress (R78). -/
def State.portBanks (s : State) (i : Nat) : List Nat :=
  let r := i / 48
  if s.standing r then []
  else
    (((s.foresee r).stall i).uses.filter (fun u => u.beat = s.beat r && u.rank ≠ 9)).map BankUse.bank ++ s.mmaToIssue r (i % 48)

/-- No port ranked 1 to 6 uses the bank of a line in this beat, and no other access outside the schedule has taken it in this
pacer period (R77, R80). -/
def State.spadFree (s : State) (i line : Nat) : Bool :=
  let r := i / 48
  (s.stall i).uses.all (fun u => !(u.rank = 9 && u.beat = s.beat r && u.ord = (s.region r).periods && u.bank = line % 16)) &&
  !(s.portBanks i).contains (line % 16)

/-- An access outside the schedule takes the bank of a line for this period. -/
def State.takeBank (s : State) (i line : Nat) : State :=
  let p := (s.region (i / 48)).periods
  s.updStall i (fun t =>
    { t with uses := t.uses.filter (fun u => u.rank ≠ 9 || u.ord = p) ++ [⟨s.beat (i / 48), line % 16, 9, p⟩] })

/-- The line with every write that has been made (log entry 40). -/
def State.seeLine (s : State) (i line : Nat) : LineVal := s.readLine i (s.beat (i / 48) + 2) line

/-- A write of the hub, the Tackroom or a host: in this beat when its bank is free, else in the one after it (R80, log entry
40). -/
def State.pokeLine (s : State) (i line : Nat) (v : LineVal) : State :=
  if s.spadFree i line then (s.takeBank i line).writeLine i (s.beat (i / 48)) line v
  else s.writeLine i (s.beat (i / 48) + 1) line v

/-! ### Lofts (R9, R161) -/

/-- The bank cycle of a loft in progress, by the beat in which it began. -/
def State.cycleNow (s : State) (n : Nat) : Nat := s.beat n - s.loftF n % 2

/-- No refresh, no timer refresh and no scheduled access uses the bank in this bank cycle, and no other access outside the
schedule has taken it: in a region that stands still one bank cycle is two pacer periods (R155, R156, R161). -/
def State.loftFree (s : State) (n bank : Nat) : Bool :=
  let p := (s.region n).periods
  !refreshSlot bank (s.loftF n / 2) && (s.bank n bank).refEnd ≤ p &&
  (if s.standing n then (s.loft n).uses.all (fun u => !(u.rank = 9 && u.bank = bank && p < u.ord + 2))
   else ((s.foresee n).loft n).uses.all (fun u => !(u.beat = s.cycleNow n && u.bank = bank)))

/-- An access outside the schedule takes a bank for this bank cycle. -/
def State.takeLoft (s : State) (n bank : Nat) : State :=
  let p := (s.region n).periods
  s.updLoft n (fun l =>
    { l with uses := l.uses.filter (fun u => u.rank ≠ 9 || p < u.ord + 2) ++ [⟨s.cycleNow n, bank, 9, p⟩] })

/-- A failed block of the bank waits for its second read, which comes before every other access outside the schedule
(R166). -/
def State.rereadFirst (s : State) (n bank : Nat) : Bool :=
  (s.loft n).failed.any (fun f => f.stage = .reread && blkBank f.blk = bank)

/-- Bytes that the bond of a barn still takes in this beat: what the scheduled streams and the unscheduled accesses of the
pacer period leave of 2,048 (R9). -/
def State.bondRoom (s : State) (n : Nat) : Nat :=
  let l := s.loft n
  let sched := if s.standing n then 0 else Tab.get zeroNat ((s.foresee n).loft n).bond (s.beat n)
  2048 - sched - (if l.bondUns.1 = (s.region n).periods then l.bondUns.2 else 0)

/-- Bytes of an unscheduled access cross the bond. -/
def State.bondTake (s : State) (n bytes : Nat) : State :=
  let p := (s.region n).periods
  s.updLoft n (fun l => { l with bondUns := (p, (if l.bondUns.1 = p then l.bondUns.2 else 0) + bytes) })

/-- The accumulators that a piece of array work reads or writes (R106, R116). -/
def Act.accs (a : Act) : List Nat :=
  match a.m with
  | .mmaRow _ => (List.range ((mmaGang a.w).cg / 32)).map (mmaGang a.w).accOf
  | .drain _ => [adArray a.w]
  | _ => []

/-- An array command of the stall reads or writes the accumulator in the beat in progress (R111). -/
def State.accBusy (s : State) (i arr : Nat) : Bool :=
  let r := i / 48
  !s.standing r && s.acts.any (fun a => a.stall = i && a.beat ≤ s.beat r && a.accs.contains arr)

/-- A row of an accumulator with every write that has been made. -/
def State.seeAcc (s : State) (i row : Nat) : AccRow := (s.stall i).acc.readAt AccRow.zeroF (s.beat (i / 48) + 2) row

/-- Write an accumulator row outside the schedule: in this beat when no array command uses the accumulator, else in the one
after it (R111). -/
def State.pokeAcc (s : State) (i row : Nat) (v : AccRow) : State :=
  let b := s.beat (i / 48) + b2n (s.accBusy i (row / 1024))
  s.updStall i (fun t => { t with acc := t.acc.write b row v })

end Sys2Proof.Machine
end

