-- ==== Sys2Proof/Machine/DevMem.lean ====
section
/-! DEFINITION. The hub's and the Tackroom's own reads and writes of the lofts and scratchpads: descriptors, return
records, journals, program images, save sets (R283, R295, R308, R311, R347). They see memory as the present beat finds
it and take no bank from anyone (log entry 40). -/

namespace Sys2Proof.Machine

/-- The line at a device-local address, a multiple of 64. -/
def State.hubPeek (s : State) (a : Nat) : LineVal :=
  match s.place a with
  | .spad b k off => s.seeLine (48 * b + k) (off / 64)
  | .loft n off =>
    if (s.bank n (blkBank (off / 256))).st = 0 then ((s.loft n).block (off / 256)).line (off % 256 / 64) else ⟨0, 0, true⟩
  | _ => LineVal.zero

/-- `n` bytes from an address, both multiples of 32. -/
def State.hubGet (s : State) (a n : Nat) : List Byte :=
  let a0 := a / 64 * 64
  (((List.range ((a + n - a0 + 63) / 64)).flatMap (fun i => leBytes 64 (s.hubPeek (a0 + 64 * i)).data.toNat)).drop (a - a0)).take n

/-- Poisoned lines of a range. -/
def State.poisonedLines (s : State) (a n : Nat) : Nat :=
  ((List.range (n / 64)).filter (fun i => (s.hubPeek (a + 64 * i)).poison)).length

/-- A read outside the schedule of blocks in a bank that is not ON (R164). -/
def State.offBanks (s : State) (j a n : Nat) : State :=
  (List.range (n / 256 + 2)).foldl (fun s i =>
    match s.place (min (a + 256 * i) (a + (n - 1))) with
    | .loft m off =>
      if (s.bank m (blkBank (off / 256))).st ≠ 0 then s.loftErr m 0x0307 (off / 256) (some j) none 0 else s
    | _ => s) s

/-- Write one line; `weight` says that a WEIGHT granule may be written. A bank that is not ON discards it (R164). -/
def State.hubPoke (s : State) (a : Nat) (v : LineVal) (weight : Bool) : State :=
  match s.place a with
  | .spad b k off => s.pokeLine (48 * b + k) (off / 64) v
  | .loft n off =>
    if (s.bank n (blkBank (off / 256))).st ≠ 0 then s.loftErr n 0x0306 (off / 256) (s.barn n).owner none 0
    else s.loftStore n (off / 256) (s.barn n).owner weight (byteMask (off % 256) 64)
      (fun w => w.put (off % 256) (leBytes 64 v.data.toNat) v.poison)
  | _ => s

/-- Write bytes, a whole number of lines, with one epoch. -/
def State.hubPut (s : State) (a epoch : Nat) (weight : Bool) (bs : List Byte) : State :=
  (List.range ((bs.length + 63) / 64)).foldl (fun s i =>
    s.hubPoke (a + 64 * i) ⟨BitVec.ofNat 512 (leNat ((bs.drop (64 * i)).take 64)), epoch, false⟩ weight) s

/-- Is the whole range in the lofts or scratchpads of the barns that `own` picks out? -/
def State.inMemory (s : State) (own : Nat → Bool) (a n : Nat) : Bool :=
  match s.place a, s.place (a + n - 1) with
  | .loft b _, .loft c _ => (List.range (c + 1 - b)).all (fun i => own (b + i))
  | .spad b k _, .spad c l _ => b = c && k = l && own b
  | _, _ => false

/-- Does a range touch a granule of class WEIGHT (R167)? -/
def State.touchesWeight (s : State) (a n : Nat) : Bool :=
  (List.range (n / 65536 + 2)).any (fun i =>
    match s.place (min (a + 65536 * i) (a + n - 1)) with
    | .loft m off => Tab.get zeroNat (s.loft m).cls (off / 65536) = 1
    | _ => false)

/-- Set a counter at once. -/
def State.setCtr (s : State) (key v : Nat) : State := s.updCtr key (fun _ => ⟨v, [], [], [], v, false⟩)

end Sys2Proof.Machine
end

