-- ==== Sys2Proof/Machine/PortDown.lean ====
section
/-! DEFINITION. A port that goes down, with what follows for the jobs whose routes cross it (R242, R243, R264-R266). -/

namespace Sys2Proof.Machine

/-- What a job does when the route to device `x` in a plan becomes LOST (R266). -/
def State.routeLost (s : State) (plan x j : Nat) : State :=
  if (s.job j).phase = .running ∧ s.planOf j = plan ∧ s.isPeer j x then
    if plan = 0 ∧ (s.route 1 x).isSome ∧ (s.headOf j = s.devId ∨ (s.route 1 (s.headOf j)).isSome) then
      if s.isHead j then
        (if s.fab.switching.contains j || s.switchPending j then s
         else (s.updFab (fun f => { f with switching := f.switching ++ [j] })).sendSwitch j 1 0)
      else s.sendControl j (.dev (s.headOf j)) 0x01 (leBytes 7 0 ++ leBytes 8 x) (some 1)
    else s.lostRoute j x
  else s

def State.routesLost (s : State) (ms : List (Nat × Nat)) : State :=
  ms.foldl (fun s m => (List.range 8).foldl (fun s j => s.routeLost m.1 m.2 j) s) s

def State.portDown (s : State) (p cause : Nat) : State :=
  let r := s.linkDown p cause
  r.2.routesLost r.1

end Sys2Proof.Machine
end

