-- ==== Sys2Proof/Machine/Link.lean ====
section
/-! DEFINITION. The Unnar link layer: training, flits, acknowledgement and replay, credits, bypass messages, time
exchange and the loss of a link (R216-R247). -/

namespace Sys2Proof.Machine

/-! ### CAP (R221, R222) -/

def capByte (c : BitVec 256) (i : Nat) : Nat := bits c.toNat (8 * i + 7) (8 * i)

/-- The agreed major and minor of a CAP from the partner, if every condition of R222 holds. -/
def State.agree (s : State) (p : Nat) (c : BitVec 256) : Option (Nat × Nat) :=
  let l := s.link p
  let one := bits l.ctrl 9 8 = 1
  let n := if !one && bit (capByte c 1) 2 then 2 else if bit (capByte c 1) 1 then 1 else 0
  let minor := min (if n = 1 then 3 else 1) (capByte c (1 + n))
  let role := bits (capByte c 15) 5 4
  let plane := bits (capByte c 15) 3 0
  let mine := b2n l.isYoke
  let myPlane := bits l.fid 19 16
  let cred := (List.range 3).all (fun v =>
    let h := bits c.toNat (8 * (16 + 4 * v) + 15) (8 * (16 + 4 * v))
    let d := bits c.toNat (8 * (18 + 4 * v) + 15) (8 * (18 + 4 * v))
    1 ≤ h && h ≤ 32767 && d ≤ 32767)
  if n ≠ 0 ∧ role = mine ∧ (if l.isYoke then plane ≠ myPlane else plane = myPlane) ∧ (n = 1 → mine = 0) ∧ cred = true ∧
     bits c.toNat 107 96 ≠ bits l.fid 11 0 then some (n, minor)
  else none

/-- The CAP payload that the port sends (R221). -/
def State.capPayload (s : State) (p : Nat) : Nat :=
  let l := s.link p
  let e := p / 8
  let q := p % 8
  let a := match l.cap with | some c => s.agree p c | none => none
  let b : List Nat :=
    [b2n a.isSome + 2 * b2n (s.portSt p = 6), 0x06, 3, 1, 0, 0, 0, 0, 0, (a.map Prod.fst).getD 0, (a.map Prod.snd).getD 0,
     s.fget (F.LNK_PORT_STATE_RATE e q) + 4 * s.fget (F.LNK_PORT_STATE_WIDTH4 e q)]
  leNat (b.map (BitVec.ofNat 8) ++ leBytes 2 (bits l.fid 11 0) ++ leBytes 1 p ++
    leBytes 1 (bits l.fid 19 16 + 16 * b2n l.isYoke) ++ leBytes 2 128 ++ leBytes 2 1024 ++ leBytes 2 128 ++
    leBytes 2 1024 ++ leBytes 2 64 ++ leBytes 2 64 ++ leBytes 2 512 ++ leBytes 2 9)

/-! ### Training (R219, R220) -/

/-- Does a port run version 1.x: MAJOR_MAX limits it to that, or it has agreed on it (R222, R223)? -/
def State.runsOne (s : State) (p : Nat) : Bool := bits (s.link p).ctrl 9 8 = 1 || s.major p = 1

/-- RATE_MAX in force: 0b11 acts as 224 Gb/s, and a 1.x port reaches 112 Gb/s (R223, R246). -/
def State.rateMax (s : State) (p : Nat) : Nat :=
  let r := bits (s.link p).ctrl 5 4
  let r1 := if r = 3 then 2 else r
  if s.runsOne p then min r1 1 else r1

def Link.limit (l : Link) : Nat := if bits l.cfg 39 36 = 0 then 4 else bits l.cfg 39 36
def Link.timeout (l : Link) : Nat := bits l.cfg 31 0

/-- A port takes the values of its configuration (R246); FAB_ID at the entry to DETECT (R248). -/
def State.takeCfg (s : State) (p : Nat) (detect : Bool) : State :=
  let c := s.reg (R.LNK_PORT_CTRL (p / 8) (p % 8))
  let g := s.reg (R.LNK_REPLAY_CFG (p / 8) (p % 8))
  let f := s.reg R.FAB_ID
  s.updLink p (fun l => { l with ctrl := c, cfg := g, fid := if detect then f else l.fid })

/-- The half of the lanes that is wholly good, the first for preference, as a mask. -/
def goodHalf (lanes : Nat) : Option Nat :=
  if lanes % 16 = 15 then some 0x0F else if lanes / 16 % 16 = 15 then some 0xF0 else none

/-- The working set of lanes that locked: all, else a half where width 4 is allowed (R219, R220, R223). -/
def State.workingSet (s : State) (p lanes : Nat) : Option Nat :=
  if lanes % 256 = 255 then some 255 else if s.runsOne p then none else goodHalf lanes

/-- Rate and working set take effect. -/
def State.setLanes (s : State) (p rate set : Nat) : State :=
  ((s.fset (F.LNK_PORT_STATE_RATE (p / 8) (p % 8)) rate).fset (F.LNK_PORT_STATE_LANES_GOOD (p / 8) (p % 8)) set).fset
    (F.LNK_PORT_STATE_WIDTH4 (p / 8) (p % 8)) (b2n (set ≠ 255))

/-- DETECT is entered (R220). -/
def State.enterDetect (s : State) (p : Nat) : State := (s.takeCfg p true).setPort p 1

/-- May a port leave OFF or DOWN for DETECT (R468)? -/
def State.portMayStart (s : State) (p : Nat) : Bool :=
  s.fbit (F.LNK_PORT_CTRL_ENABLE (p / 8) (p % 8)) && !s.err.fatal

/-- A port that ENABLE holds on leaves OFF, unless the Tackroom is in ROM or RECOVERY, the reference is not accepted or the
LNK block is disabled (R220, R468). -/
def State.tryStart (s : State) (p : Nat) : State :=
  if s.portSt p = 0 ∧ s.portMayStart p = true ∧ s.fget F.TCK_STATE_STATE ≠ 0 ∧ s.fget F.TCK_STATE_STATE ≠ 3 ∧
      s.fbit F.PCR_TIME_STATUS_REF_PRESENT = true ∧ s.enabled (Blk.base .lnk (p / 8)) = true then s.enterDetect p else s

/-- What held ports in OFF has ended: each that may now leave does. -/
def State.startHeld (s : State) : State := (List.range 32).foldl State.tryStart s

/-- ENABLE takes 1. -/
def State.portEnable (s : State) (p : Nat) : State := (s.fset (F.LNK_PORT_CTRL_ENABLE (p / 8) (p % 8)) 1).tryStart p

/-- PORT_ENABLE: LNK_PORT_CTRL[ENABLE] is written 1. -/
def execPortEnable (p : PortId) (s : State) : Res := .next (s.portEnable p)

/-- DETECT_DONE: 4 lanes of one half have received the pattern for 10 µs; EQUALISE at RATE_MAX (R220). -/
def execDetectDone (p : PortId) (s : State) : Res :=
  .next (if s.portSt p = 1 then (s.updLink p (fun l => { l with trial := s.rateMax p })).setPort p 2 else s)

/-- EQUALISE fails at 56 Gb/s, or ALIGN fails (R220). -/
def State.trainFailed (s : State) (p : Nat) : State := (s.lnkErr p 0x0507 0).portDown p 7

/-- EQUALISE_END: `lanes` locked at the trial rate; each failure tries the next lower rate (R220). A retrain after a lane failure
takes no lane outside the half that was good (R219). -/
def execEqualiseEnd (p : PortId) (lanes : BitVec 8) (s : State) : Res :=
  let l := s.link p
  .next (if s.portSt p = 2 then
    (match s.workingSet p lanes.toNat with
     | some w => (s.setLanes p l.trial w).setPort p 3
     | none => if l.trial = 0 then s.trainFailed p else
        (s.updLink p (fun l => { l with trial := l.trial - 1, since := s.refNs })))
  else if s.portSt p = 6 ∧ l.sub = 1 then
    (match s.workingSet p (lanes.toNat &&& l.lim) with
     | some w => (s.setLanes p l.trial w).updLink p (fun l => { l with sub := 0 })
     | none => s.updLink p (fun l => { l with trial := l.trial - 1 }))
  else s)

/-- Alignment is done: the scramblers take their load, and no CAP of this training has gone or come yet (R218, R222). -/
def State.aligned (s : State) (p : Nat) : State :=
  s.updLink p (fun l => { l with cap := none, agreedSent := false, agreedGot := false, txScr := scrLoad, rxScr := scrLoad })

/-- ALIGN_END: deskew and alignment succeed or fail (R220); a retrain goes on to its CAP exchange. -/
def execAlignEnd (p : PortId) (ok : Bool) (s : State) : Res :=
  .next (if s.portSt p = 3 then
    (if ok then (s.aligned p).setPort p 4
     else s.trainFailed p)
  else if s.portSt p = 6 ∧ (s.link p).sub = 0 ∧ ok = true then
    (s.aligned p).updLink p (fun l => { l with sub := 2 })
  else s)

/-- RETRAIN is entered at a rate and working set; EQUALISE comes first when either changes (R220, R235). -/
def State.enterRetrain (s : State) (p : Nat) (change : Bool) (rate : Nat) (lim : Nat := 255) (lost : Bool := false) : State :=
  if s.portSt p = 5 then
    (((s.fsat (F.LNK_REPLAY_RETRAINS (p / 8) (p % 8)) 1).lnkErr p 0x0503 0).takeCfg p false).setPort p 6 |>.updLink p
      (fun l => { l with
        sub := b2n change, trial := rate, lim := lim, laneLost := lost, cap := none, agreedSent := false, agreedGot := false })
  else s

/-- A retrain at the rate and width in force. -/
def State.retrainSame (s : State) (p : Nat) : State :=
  s.enterRetrain p false (s.fget (F.LNK_PORT_STATE_RATE (p / 8) (p % 8)))

/-- RETRAIN takes 1: the highest rate and width that RATE_MAX allows (R219, R246). -/
def State.portRetrain (s : State) (p : Nat) : State :=
  if s.portSt p = 5 then
    let rate := (s.takeCfg p false).rateMax p
    s.enterRetrain p (rate ≠ s.fget (F.LNK_PORT_STATE_RATE (p / 8) (p % 8)) ||
      s.fbit (F.LNK_PORT_STATE_WIDTH4 (p / 8) (p % 8))) rate
  else s

/-- PORT_RETRAIN: LNK_PORT_CTRL[RETRAIN] is written 1. -/
def execPortRetrain (p : PortId) (s : State) : Res := .next (s.portRetrain p)

/-- LANE_FAIL: a lane of the working set fails; `lanes` are the lanes still good (R219, R223). -/
def execLaneFail (p : PortId) (lanes : BitVec 8) (s : State) : Res :=
  let e := p.val / 8
  let q := p.val % 8
  let rate := s.fget (F.LNK_PORT_STATE_RATE e q)
  let set := s.fget (F.LNK_PORT_STATE_LANES_GOOD e q)
  .next (if s.portSt p = 5 ∧ lanes.toNat &&& set ≠ set then
    (if s.fget (F.LNK_PORT_STATE_MAJOR e q) = 1 then
      (let r := s.linkDownOpen p; r.2.routesLost r.1)
    else match goodHalf lanes.toNat with
      | some h => s.enterRetrain p true rate h true
      | none =>
        if rate = 0 then (let r := s.linkDownOpen p; r.2.routesLost r.1)
        else (s.enterRetrain p true (rate - 1) 255 true).lnkErr p 0x0505 0)
  else s)

/-- The credits that the partner advertises, by 2 × VC + kind (R221). -/
def capCredits (c : BitVec 256) : Tab Nat :=
  (List.range 6).foldl (fun t i => Tab.set zeroNat t i (bits c.toNat (8 * (16 + 2 * i) + 15) (8 * (16 + 2 * i)))) []

/-- What an agreement stores: the versions and the partner (R222, R246). -/
def State.storeAgreed (s : State) (p : Nat) (c : BitVec 256) (a : Nat × Nat) : State :=
  let e := p / 8
  let q := p % 8
  ((s.fset (F.LNK_PORT_STATE_MAJOR e q) a.1).fset (F.LNK_PORT_STATE_MINOR e q) a.2).setReg (R.LNK_PARTNER e q)
    (bits c.toNat 255 240 * 2 ^ 48 + bits (capByte c 15) 3 0 * 2 ^ 44 + bits (capByte c 14) 4 0 * 2 ^ 32 + bits c.toNat 107 96)

/-- ACTIVE is entered once AGREED has gone both ways (R222); after a retrain with what R235 keeps, and with
LNK_WIDTH_DEGRADED where a lane failure leaves width 4 (R219). -/
def State.enterActive (s : State) (p : Nat) : State :=
  let l := s.link p
  match l.cap, l.cap.bind (s.agree p) with
  | some c, some a =>
    if !(l.agreedSent && l.agreedGot) then s
    else if s.portSt p = 4 then
      let s2 := (s.storeAgreed p c a).updLink p (fun l =>
        { l with
          seq := 0, exp := 0, ack := 0xFFF, nak := none, nakid := 0, lastNak := 0, lastNakAck := none, held := []
          replay := none, timer := s.refNs, consec := 0, adv := capCredits c, cons := [], ret := [], freed := []
          crNext := 0, bypGap := 7, reqGap := 0, byq := [], store := [], ex := none, exAt := s.refNs, rsp := none
          follow := none, fecAt := s.refNs })
      let s3 := s2.setPort p 5
      if l.isYoke then { s3 with yok := { s3.yok with downSince := none, enabledAt := s.refNs, formRaised := false } } else s3
    else if s.portSt p = 6 then
      let s1 := ((s.storeAgreed p c a).updLink p (fun l =>
        { l with nak := none, replay := if l.held = [] then none else some 0, timer := s.refNs, laneLost := false })).setPort p 5
      if l.laneLost && s.fbit (F.LNK_PORT_STATE_WIDTH4 (p / 8) (p % 8)) then s1.lnkErr p 0x0504 0 else s1
    else s
  | _, _ => s

/-- A CAP flit of the partner arrives (R221, R222); in RETRAIN the partner must be the one agreed before. In ACTIVE it says
nothing new. -/
def State.takeCap (s : State) (p : Nat) (payload : BitVec 256) : State :=
  let e := p / 8
  let q := p % 8
  if s.portSt p = 4 ∨ (s.portSt p = 6 ∧ (s.link p).sub = 2) then
    (if s.portSt p = 6 ∧ (bits payload.toNat 107 96 ≠ s.fget (F.LNK_PARTNER_DEVICE e q) ∨
        bits (capByte payload 14) 4 0 ≠ s.fget (F.LNK_PARTNER_PORT e q)) then
      (let r := s.linkDownOpen p; r.2.routesLost r.1)
    else
      let a := s.agree p payload
      let got := bit (capByte payload 0) 0 && a = some (capByte payload 9, capByte payload 10)
      (s.updLink p (fun l =>
        { l with cap := some payload, agreedGot := got, agreedSent := l.agreedSent && a.isSome })).enterActive p)
  else s

/-- CAP_TIMEOUT: no agreement within 10 ms (R220, R222). -/
def execCapTimeout (p : PortId) (s : State) : Res :=
  .next (if s.portSt p = 4 ∧ (s.link p).since + 10000000 ≤ s.refNs then (s.lnkErr p 0x0508 0).portDown p 7 else s)

/-- OFF: everything of the port is as after reset but its queues' fate, which DOWN has settled. -/
def State.portOff (s : State) (p : Nat) : State := s.setPort p 0

/-- DOWN_TIMEOUT: DETECT after 10 ms while ENABLE is 1; OFF when it is 0 (R220). -/
def execDownTimeout (p : PortId) (s : State) : Res :=
  .next (if s.portSt p = 7 then
    (if !s.fbit (F.LNK_PORT_CTRL_ENABLE (p / 8) (p % 8)) then s.portOff p
     else if (s.link p).since + 10000000 ≤ s.refNs ∧ s.portMayStart p = true ∧ s.fbit F.PCR_TIME_STATUS_REF_PRESENT = true then s.enterDetect p
     else s)
  else s)

/-- ENABLE takes 0: LINK_NOTICE goes out, the port goes down and then to OFF (R242). -/
def State.portDisable (s0 : State) (p : Nat) : State :=
  let s := s0.fset (F.LNK_PORT_CTRL_ENABLE (p / 8) (p % 8)) 0
  if s.portSt p = 0 then s
  else if s.portSt p = 7 then s.portOff p
  else ((s.linkNotice p).portDown p 5).portOff p

/-- PORT_DISABLE: LNK_PORT_CTRL[ENABLE] is written 0. -/
def execPortDisable (p : PortId) (s : State) : Res := .next (s.portDisable p)

/-- RETRAIN_TIMEOUT: a retrain has not reached ACTIVE within 1 ms (R242). -/
def execRetrainTimeout (p : PortId) (s : State) : Res :=
  .next (if s.portSt p = 6 ∧ (s.link p).since + 1000000 ≤ s.refNs then s.portDown p 2 else s)

/-- LINK_SILENCE: no good flit for 800 ns in ACTIVE (R242). -/
def execLinkSilence (p : PortId) (s : State) : Res :=
  .next (if s.portSt p = 5 ∧ (s.link p).goodAt + 800 ≤ s.refNs then s.portDown p 1 else s)

/-! ### Receiving (R229-R231, R240) -/

/-- Fields of a CAP that must be zero (R221): FLAGS[7:2], MAJORS bit 0, DEVICE[15:12], and CHOSEN until AGREED. -/
def badCap (payload : Nat) : Bool :=
  let c := BitVec.ofNat 256 payload
  4 ≤ capByte c 0 || bit (capByte c 1) 0 || 16 ≤ capByte c 13 || (!bit (capByte c 0) 0 && bits payload 87 72 ≠ 0)

/-- The header or payload breaks R229 by itself. A receiver ignores every header field of a CAP but its TYPE (R221). -/
def badHeader (h : FlitHdr) (payload : Nat) : Bool :=
  if h.type = 3 then badCap payload
  else
    4 ≤ h.type || h.crVc = 3 ||
    (if h.type = 1 then h.vc = 3 || h.units = 0 || 2 ^ h.units ≤ h.start || 2 ^ (256 * h.units) ≤ payload
     else h.vc ≠ 0 || h.start ≠ 0 || h.units ≠ 0 || h.replay || h.abort || (h.type = 0 && payload ≠ 0))

/-- Does the unit sequence of an accepted flit break R229? `r` units of the packet in progress are still to come;
`ended` says that a packet has ended in the flit. -/
def badUnits (h : FlitHdr) (payload : Nat) : Nat → Nat → Nat → Bool → Bool
  | 0, _, _, ended => h.abort && !ended
  | n + 1, u, r, ended =>
    if bit h.start u then
      let d := (payUnit payload u).toNat % 8
      r ≠ 0 || 5 ≤ d || badUnits h payload n (u + 1) (2 * d) (ended || d = 0)
    else r = 0 || badUnits h payload n (u + 1) (r - 1) (ended || r = 1)

/-- The same for a flit out of sequence, of which the packet in progress before it is not known: from its first header unit on,
before which a packet has ended where it is not the first unit. DEDUCED: what can be judged of it by itself (log entry 32). -/
def badAlone (h : FlitHdr) (payload : Nat) : Bool :=
  match (List.range h.units).find? (bit h.start) with
  | some u => badUnits h payload (h.units - u) u 0 (0 < u)
  | none => false

/-- Units of the packet in progress on a virtual channel that are still to come. -/
def LinkVc.rest (c : LinkVc) : Nat :=
  match c.rx.getLast? with
  | some r => r.need - r.units.length
  | none => 0

/-- A malformed flit takes the port down (R229). -/
def State.protocolDown (s : State) (p : Nat) : State := (s.lnkErr p 0x050A 0).portDown p 4

/-- An ACK frees the entries that it covers; a stale one does nothing (R232-R234). -/
def State.ackFlit (s : State) (p a : Nat) : State :=
  let l := s.link p
  match l.held with
  | [] => s
  | e :: _ =>
    let k := subMod 12 (a + 1) e.seq
    if 0 < k ∧ k ≤ l.held.length then
      s.updLink p (fun l =>
        { l with
          held := l.held.drop k, timer := s.refNs, consec := 0
          replay := (match l.replay with
            | some i => if i - k < (l.held.drop k).length then some (i - k) else none
            | none => none) })
    else s

/-- A replay is due (R233, R234): the port retrains instead once LIMIT consecutive replays have been made. -/
def State.replayDue (s : State) (p : Nat) (timer : Bool) : State :=
  let l := s.link p
  if l.held = [] then s
  else
    let rep (s : State) (n : Nat) : State :=
      if s.mayReport 0x0502 p then
        ((s.setReport 0x0502 p).lnkErr p 0x0502 (n * 2 ^ 32)).updLink p (fun l => { l with replays := 0 })
      else s.updLink p (fun l => { l with replays := n })
    if l.limit ≤ l.consec then s.retrainSame p
    else
      let s1 := s.fsat (if timer then F.LNK_REPLAY_TIMER (p / 8) (p % 8) else F.LNK_REPLAY_NAK (p / 8) (p % 8)) 1
      rep (s1.updLink p (fun l => { l with replay := some 0, consec := l.consec + 1, timer := s.refNs })) (l.replays + 1)

/-- NAK and NAKID of a good flit (R233). -/
def State.nakFlit (s : State) (p : Nat) (h : FlitHdr) : State :=
  let l := s.link p
  if !h.nak then s
  else if s.major p = 1 then
    (if l.lastNakAck = some h.ack then s
     else (s.updLink p (fun l => { l with lastNakAck := some h.ack })).replayDue p false)
  else if h.nakid = l.lastNak then s
  else (s.updLink p (fun l => { l with lastNak := h.nakid })).replayDue p false

/-- A credit return (R240). -/
def State.creditFlit (s : State) (p : Nat) (h : FlitHdr) : State :=
  let l := s.link p
  let i := 2 * h.crVc + h.crKind
  let ret := Tab.get zeroNat l.ret i
  let out := subMod 16 (Tab.get zeroNat l.cons i) ret
  if subMod 16 h.crCount ret ≤ out then s.updLink p (fun l => { l with ret := Tab.set zeroNat l.ret i h.crCount })
  else (s.lnkErr p 0x0509 0).retrainSame p

/-- NAK pending is entered (R231). -/
def State.nakPend (s : State) (p : Nat) : State :=
  if (s.link p).nak.isSome then s
  else s.updLink p (fun l => { l with nak := some s.refNs, nakid := (l.nakid + 1) % 4 })

def State.nakEnd (s : State) (p : Nat) : State := s.updLink p (fun l => { l with nak := none })

/-- A packet that has wholly left for its outputs, and of which no copy is for this device, leaves the buffer. -/
def State.sweepRx (s : State) (p v : Nat) : State :=
  let gone := ((s.link p).vc v).rx.filter (fun r => r.routed && !r.here && r.units.length = r.need)
  let s1 := gone.foldl (fun s r => s.freeRx p v ((r.need - 1) / 2)) s
  if gone = [] then s1
  else s1.updLink p (fun l => l.updVc v (fun c =>
    { c with rx := c.rx.filter (fun r => !(r.routed && !r.here && r.units.length = r.need)) }))

/-- One accepted unit: it begins a packet or continues the one in progress, on every output that has begun it. -/
def State.takeUnit (s : State) (p v : Nat) (start : Bool) (u : BitVec 256) (ab : Bool) : State :=
  if start then
    let d := u.toNat % 8
    let r : RPkt := ⟨s.fab.nextId, [u], 1 + 2 * d, ab && d = 0, [], false, false, 0, [], s.fab.nextId⟩
    (s.updFab (fun f => { f with nextId := f.nextId + 1 })).updLink p (fun l => l.updVc v (fun c => { c with rx := c.rx ++ [r] }))
  else
    match ((s.link p).vc v).rx.getLast? with
    | none => s
    | some r =>
      let last := r.units.length + 1 = r.need
      let r' := { r with units := r.units ++ [u], aborted := r.aborted || (ab && last), whole := s.fab.nextId }
      let s1 := (s.updFab (fun f => { f with nextId := f.nextId + 1 })).updLink p (fun l => l.updVc v (fun c => { c with rx := c.rx.dropLast ++ [r'] }))
      r.outs.foldl (fun s o => s.updLink o (fun l => l.updVc v (fun c =>
        { c with tx := c.tx.map (fun t =>
            if t.id = r.id then { t with units := t.units ++ [u], aborted := t.aborted || (ab && last) } else t) }))) s1

/-- The units of an accepted flit, in order. ABORT concerns the packet that ends last in the flit. -/
def State.takeUnits (s : State) (p : Nat) (h : FlitHdr) (payload : Nat) : State :=
  let s1 := (List.range h.units).foldl (fun s u =>
    let later := (List.range h.units).any (fun w => u < w && bit h.start w &&
      (h.units - w) > 2 * ((payUnit payload w).toNat % 8))
    s.takeUnit p h.vc (bit h.start u) (payUnit payload u) (h.abort && !later)) s
  s1.sweepRx p h.vc

/-- Corrected symbols of a received flit (R225). -/
def State.countFec (s : State) (p syms : Nat) : State :=
  (s.fwrap (F.LNK_FEC_SYMBOLS (p / 8) (p % 8)) syms).updLink p (fun l => { l with fecSyms := l.fecSyms + syms })

/-- What every good flit of TYPE DATA, IDLE or BYPASS does first (R230). -/
def State.goodFlit (s : State) (p : Nat) (h : FlitHdr) : State := ((s.ackFlit p h.ack).nakFlit p h).creditFlit p h

/-- A good DATA flit in ACTIVE (R229, R230). -/
def State.takeData (s : State) (p : Nat) (h : FlitHdr) (payload : Nat) : State :=
  let d := subMod 12 h.seq (s.link p).exp
  if (if d = 0 then badUnits h payload h.units 0 ((s.link p).vc h.vc).rest false else badAlone h payload) then s.protocolDown p
  else
    let s1 := s.goodFlit p h
    if d = 0 then
      ((s1.updLink p (fun l => { l with ack := h.seq, exp := (l.exp + 1) % 4096 })).nakEnd p).takeUnits p h payload
    else if d < 2048 then s1.nakPend p
    else s1.fsat (F.LNK_REPLAY_DUPLICATES (p / 8) (p % 8)) 1

/-- An IDLE or BYPASS flit shows the next sequence number (R231). -/
def State.seqShown (s : State) (p seq : Nat) : State :=
  if seq = (s.link p).exp then s.nakEnd p else s.nakPend p

/-- Station time in 1/256 ns (R35). -/
def State.time256 (s : State) : Nat := s.time.now / 2 ^ 24 % 2 ^ 72

/-- A bypass message arrives (R238); under 1.x only four types are known (R223). -/
def State.takeMsg (s : State) (p : Nat) (m : BitVec 128) : State :=
  let bt := bits m.toNat 127 120
  let e := p / 8
  let q := p % 8
  if bt = 0 then s
  else if 7 ≤ bt ∨ (s.major p = 1 ∧ (bt = 4 ∨ bt = 6)) then s.fsat (F.LNK_BYPASS_UNKNOWN e q) 1
  else if 64 ≤ (s.link p).store.length then
    let s1 := s.fsat (F.LNK_BYPASS_DROPPED e q) 1
    if s1.mayReport 0x050B p then (s1.setReport 0x050B p).lnkErr p 0x050B 0 else s1
  else s.updLink p (fun l => { l with store := l.store ++ [(m, s.time256)] })

/-- Does a port receive flits: in CAPABILITY, in ACTIVE, and in the CAP exchange of a retrain? -/
def State.receives (s : State) (p : Nat) : Bool :=
  s.portSt p = 4 || s.portSt p = 5 || (s.portSt p = 6 && (s.link p).sub = 2)

/-- What the levels on a port's receive lanes carry (R218, R224-R226). -/
def State.rxOf (s : State) (p : Nat) (levels : BitVec 2048) : RxFlit :=
  rxFlit (bytesOf (s.fget (F.LNK_PORT_STATE_LANES_GOOD (p / 8) (p % 8))) (s.link p).rxScr levels)

/-- A bad flit: the SL9 ignores every field of it (R226); in ACTIVE the receiver enters NAK pending (R231). -/
def State.badFlit (s : State) (p : Nat) : State :=
  let s1 := s.fwrap (F.LNK_FEC_BAD_FLITS (p / 8) (p % 8)) 1
  if s.portSt p = 5 then s1.nakPend p else s1

/-- A good flit, by its TYPE: it is malformed, or it is a CAP, or, in ACTIVE, a DATA, IDLE or BYPASS flit (R221, R229, R230, R238). -/
def State.takeGood (s : State) (p : Nat) (h : FlitHdr) (payload : Nat) : State :=
  if badHeader h payload then s.protocolDown p
  else if h.type = 3 then s.takeCap p (BitVec.ofNat 256 payload)
  else if s.portSt p ≠ 5 then s
  else if h.type = 1 then s.takeData p h payload
  else
    let s1 := (s.goodFlit p h).seqShown p h.seq
    if h.type = 2 then (List.range 14).foldl (fun s m => s.takeMsg p (BitVec.ofNat 128 (payload >>> (128 * m)))) s1 else s1

/-- The levels of one flit arrive on a port: descrambled, corrected, checked and counted, then taken by what the flit is
(R218, R225, R226, R242, R246). -/
def State.arriveFlit (s : State) (p : Nat) (levels : BitVec 2048) : State :=
  if s.receives p then
    let r := s.rxOf p levels
    let s1 := (s.countFec p r.syms).updLink p (fun l =>
      { l with rxScr := (scrFlit (s.fget (F.LNK_PORT_STATE_LANES_GOOD (p / 8) (p % 8))) l.rxScr).2 })
    match r.good with
    | none => s1.badFlit p
    | some g => (s1.updLink p (fun l => { l with goodAt := s.refNs })).takeGood p (FlitHdr.unpack g.1) g.2
  else s

/-- CAP: a CAP flit arrives on the lanes (R221, R222). -/
def execCap (p : PortId) (levels : BitVec 2048) (s : State) : Res := .next (s.arriveFlit p levels)

/-- DATA: a good DATA flit, or a good flit of a reserved TYPE, arrives on the lanes (R229, R230). -/
def execData (p : PortId) (levels : BitVec 2048) (s : State) : Res := .next (s.arriveFlit p levels)

/-- IDLE: a good IDLE flit arrives on the lanes (R230, R231). -/
def execIdle (p : PortId) (levels : BitVec 2048) (s : State) : Res := .next (s.arriveFlit p levels)

/-- BYPASS: a good BYPASS flit arrives on the lanes; each of its 14 places may hold a message (R230, R231, R238). -/
def execBypass (p : PortId) (levels : BitVec 2048) (s : State) : Res := .next (s.arriveFlit p levels)

/-- BAD_FLIT: levels arrive whose flit does not decode, or whose CRC fails (R226, R231). -/
def execBadFlit (p : PortId) (levels : BitVec 2048) (s : State) : Res := .next (s.arriveFlit p levels)

/-- NAK_RENEW: pending has lasted the renewal interval (R231). -/
def execNakRenew (p : PortId) (s : State) : Res :=
  let l := s.link p
  .next (match l.nak with
    | some t => if s.portSt p = 5 ∧ t + l.timeout ≤ s.refNs then
        s.updLink p (fun l => { l with nak := some s.refNs, nakid := (l.nakid + 1) % 4 }) else s
    | none => s)

/-- REPLAY_TIMER: the replay timer reaches TIMEOUT_NS (R233). -/
def execReplayTimer (p : PortId) (s : State) : Res :=
  let l := s.link p
  .next (if s.portSt p = 5 ∧ l.held ≠ [] ∧ l.timer + l.timeout ≤ s.refNs then s.replayDue p true else s)

/-- FEC_INTERVAL: a 1 ms interval of corrected symbols ends (R246, R247). -/
def execFecInterval (p : PortId) (s : State) : Res :=
  let l := s.link p
  .next (if l.fecAt + 1000000 ≤ s.refNs then
    let s1 := s.updLink p (fun l => { l with fecSyms := 0, fecAt := s.refNs })
    if bits l.cfg 63 48 ≠ 0 ∧ bits l.cfg 63 48 < l.fecSyms then s1.lnkErr p 0x0501 0 else s1
  else s)

/-! ### Sending (R232, R237, R240) -/

/-- Credits available (R240). -/
def Link.credit (l : Link) (i : Nat) : Nat :=
  Tab.get zeroNat l.adv i - subMod 16 (Tab.get zeroNat l.cons i) (Tab.get zeroNat l.ret i)

/-- Does the channel hold the credits of a packet of `d` data credits? -/
def Link.hasCredit (l : Link) (v d : Nat) : Bool := 1 ≤ l.credit (2 * v) && d ≤ l.credit (2 * v + 1)

/-- A new DATA flit of the channel can go (R237). -/
def Link.ready (l : Link) (v : Nat) : Bool :=
  match (l.vc v).tx with
  | [] => false
  | t :: _ => (l.vc v).sent < t.units.length && (0 < (l.vc v).sent || l.hasCredit v ((t.need - 1) / 2))

/-- The channel of the next new DATA flit (R237). -/
def Link.pickVc (l : Link) : Option Nat :=
  if 512 ≤ l.held.length then none
  else if 3 ≤ l.reqGap && l.ready 0 then some 0
  else if l.ready 2 then some 2 else if l.ready 1 then some 1 else if l.ready 0 then some 0 else none

/-- Spend the credits of a packet whose header unit is placed (R240). -/
def Link.spend (l : Link) (v d : Nat) : Link :=
  { l with cons := bumpPair l.cons v d }

/-- What a new DATA flit takes: units, START bits, ABORT, and how many transit packets begin in it. The first packet
fills what room it can; a further packet is begun only where it fits whole (log entry 30). -/
def Link.fill (l : Link) (v : Nat) : Nat → List (BitVec 256) → Nat → Bool → Nat → Link × List (BitVec 256) × Nat × Bool × Nat
  | 0, us, st, ab, n => (l, us, st, ab, n)
  | k + 1, us, st, ab, n =>
    let c := l.vc v
    match c.tx with
    | [] => (l, us, st, ab, n)
    | t :: ts =>
      let d := (t.need - 1) / 2
      let room := 7 - us.length
      let begin_ := c.sent = 0
      if us ≠ [] ∧ (ab = true ∨ !begin_ ∨ room < t.need ∨ t.units.length < t.need) then (l, us, st, ab, n)
      else if begin_ && !l.hasCredit v d then (l, us, st, ab, n)
      else
        let take := (t.units.drop c.sent).take room
        if take = [] then (l, us, st, ab, n)
        else
          let l1 := if begin_ then l.spend v d else l
          let st1 := if begin_ then st + 2 ^ us.length else st
          let n1 := if begin_ && t.transit then n + 1 else n
          if c.sent + take.length = t.need then
            Link.fill (l1.updVc v (fun c => { c with tx := ts, sent := 0 })) v k (us ++ take) st1 t.aborted n1
          else (l1.updVc v (fun c => { c with sent := c.sent + take.length }), us ++ take, st1, ab, n1)

/-- The messages of a BYPASS flit: those waiting, of which one at most is a TIME_REQ, and none where a TIME_RSP goes (R239). -/
def pickMsgs : List (BitVec 128) → Bool → List (BitVec 128)
  | [], _ => []
  | m :: ms, req =>
    if bits m.toNat 127 120 = 1 then (if req then m :: pickMsgs ms false else pickMsgs ms false) else m :: pickMsgs ms req

/-- The messages of the next BYPASS flit: at most one TIME_REQ or TIME_RSP, and a TIME_FOLLOW that is due; sending TIME_REQ sets
t1 and starts the 100 µs of its exchange (R239). -/
def State.bypassOut (s : State) (p : Nat) : List (BitVec 128) × Link :=
  let l := s.link p
  let fol := (l.follow.map (fun f =>
    bypassMsg 3 (f.1 * 2 ^ 112 + f.2.1 * 2 ^ 40 + (f.2.2 - f.2.1) % 2 ^ 32 * 2 ^ 8))).toList
  let rsp := (l.rsp.map (fun r => bypassMsg 2 (r.1 * 2 ^ 112))).toList
  let sentMs := (pickMsgs l.byq rsp.isEmpty).take (14 - fol.length - rsp.length)
  let l1 : Link :=
    { l with
      byq := sentMs.foldl (fun q m => q.erase m) l.byq
      follow := l.rsp.map (fun r => (r.1, r.2, s.time256)), rsp := none
      ex := l.ex.map (fun x =>
        if sentMs.any (fun m => bits m.toNat 127 112 = 256 + x.id) then { x with at_ := some s.refNs, t1 := some s.time256 } else x) }
  (fol ++ rsp ++ sentMs, l1)

/-- FLIT_SLOT: the port sends the flit of this slot (R220, R237, R238). -/
def execFlitSlot (p : PortId) (s : State) : Res :=
  let l := s.link p
  let e := p.val / 8
  let q := p.val % 8
  .next (if s.portSt p = 4 ∨ (s.portSt p = 6 ∧ l.sub = 2) then
    let ok := (l.cap.bind (s.agree p)).isSome
    let s1 := s.emit p (flitBytes (3 * 2 ^ 92) (s.capPayload p))
    (s1.updLink p (fun l => { l with agreedSent := l.agreedSent || ok })).enterActive p
  else if s.portSt p ≠ 5 then s
  else if (l.byq ≠ [] ∨ l.rsp.isSome ∨ l.follow.isSome) ∧ 7 ≤ l.bypGap then
    let m := s.bypassOut p
    let body := (m.1.zipIdx.map (fun x => x.1.toNat * 2 ^ (128 * x.2))).sum
    ((s.updLink p (fun _ => m.2)).fwrap (F.LNK_BYPASS_SENT e q) m.1.length).putFlit p { type := 2, seq := l.seq } body
  else match l.replay with
    | some i =>
      let f := l.held.getD i ⟨0, 0, 0, 0, false, 0⟩
      let s1 := s.updLink p (fun l => { l with replay := if i + 1 < l.held.length then some (i + 1) else none })
      s1.putFlit p { type := 1, seq := f.seq, replay := true, vc := f.vc, start := f.start, units := f.units
                     abort := f.abort } f.payload.toNat
    | none =>
      match l.pickVc with
      | some v =>
        let r := l.fill v 7 [] 0 false 0
        let f : FlitEnt := ⟨l.seq, v, r.2.2.1, r.2.1.length, r.2.2.2.1, BitVec.ofNat 1792 (payOf r.2.1)⟩
        let l1 : Link := { r.1 with
          held := l.held ++ [f], seq := (l.seq + 1) % 4096, timer := if l.held = [] then s.refNs else l.timer
          reqGap := if v = 0 then 0 else l.reqGap + 1 }
        ((s.updLink p (fun _ => l1)).fwrap (F.LNK_TRANSIT_FORWARDED e q) r.2.2.2.2).putFlit p
          { type := 1, seq := f.seq, vc := v, start := f.start, units := f.units, abort := f.abort } f.payload.toNat
      | none => s.putFlit p { type := 0, seq := l.seq } 0)

/-! ### Messages of a port (R238, R239, R242) -/

/-- The oldest stored message of a type, and the state without it. -/
def State.takeStored (s : State) (p bt : Nat) : Option ((BitVec 128 × Nat) × State) :=
  match (s.link p).store.find? (fun m => bits m.1.toNat 127 120 = bt) with
  | some m => some (m, s.updLink p (fun l => { l with store := l.store.erase m }))
  | none => none

/-- LINK_NOTICE: the partner is taking the port down (R242). -/
def execLinkNotice (p : PortId) (s : State) : Res :=
  .next (match s.takeStored p 6 with
    | some (_, s1) => if s1.portOpen p then s1.portDown p 3 else s1
    | none => s)

/-- TIME_EXCHANGE_START: each side starts an exchange every 1 ms (R239). -/
def execTimeExchangeStart (p : PortId) (s : State) : Res :=
  let l := s.link p
  .next (if s.portSt p = 5 ∧ l.exAt + 1000000 ≤ s.refNs then
    (s.updLink p (fun l =>
      { l with exAt := s.refNs, exNext := (l.exNext + 1) % 256, ex := some ⟨l.exNext, none, none, none⟩ })).sendBypass p
      (bypassMsg 1 (l.exNext * 2 ^ 112))
  else s)

/-- TIME_REQ: the partner's request is answered in the next BYPASS flit (R239). -/
def execTimeReq (p : PortId) (s : State) : Res :=
  .next (match s.takeStored p 1 with
    | some (m, s1) => s1.updLink p (fun l => { l with rsp := some (bits m.1.toNat 119 112, m.2) })
    | none => s)

/-- TIME_RSP: the answer to this port's request; its arrival is t4 (R239). -/
def execTimeRsp (p : PortId) (s : State) : Res :=
  .next (match s.takeStored p 2 with
    | some (m, s1) => s1.updLink p (fun l =>
        { l with ex := l.ex.map (fun x => if x.id = bits m.1.toNat 119 112 then { x with t4 := some m.2 } else x) })
    | none => s)

/-- TIME_EXCHANGE_ABANDON: no TIME_FOLLOW within 100 µs of sending the TIME_REQ (R239). -/
def execTimeExchangeAbandon (p : PortId) (s : State) : Res :=
  .next (match (s.link p).ex with
    | some x => if x.at_.any (fun t => t + 100000 ≤ s.refNs) then s.updLink p (fun l => { l with ex := none }) else s
    | none => s)

end Sys2Proof.Machine
end

