-- ==== Sys2Proof/Machine/Steps.lean ====
section
/-! DEFINITION. Pacer steps: targets in force, the step sequencer, APPLY, the throttle and the thermal guard (R21, R22,
R32, R33, R423, R425, R426). -/

namespace Sys2Proof.Machine

/-! ### Temperatures (R425, R426) -/

/-- The thermal sensors of a region. -/
def sensorsOf (r : Nat) : List Nat :=
  if r < 24 then
    [2 * r, 2 * r + 1] ++ (if r = 0 then [48] else if r = 5 then [49] else if r = 18 then [50] else if r = 23 then [51] else [])
  else if r < 28 then [28 + r] else [56, 57, 58]

/-- A sensor's reading in 1/16 °C; none while it is faulty. -/
def State.sensor (s : State) (i : Nat) : Option Int :=
  if s.fbit (F.TCK_TEMP_FAULT i) then none else some (signed 16 (s.fget (F.TCK_TEMP_READING i)))

/-- The higher of two readings. -/
def hotter (a b : Option Int) : Option Int :=
  match a, b with
  | none, x => x
  | x, none => x
  | some x, some y => some (max x y)

/-- The hottest good sensor of a region. -/
def State.hottest (s : State) (r : Nat) : Option Int := ((sensorsOf r).map s.sensor).foldl hotter none

/-- What a region is treated as reading: without a good sensor, 10 °C above the hottest good value of its neighbours;
none where those have none either. -/
def State.temp (s : State) (r : Nat) : Option Int :=
  match s.hottest r with
  | some t => some t
  | none => (((neighbours r).map s.hottest).foldl hotter none).map (fun t => t + 160)

/-! ### Targets in force -/

def State.cur (s : State) (r : Nat) : Nat := s.fget (F.PCR_STEP_STATE_CUR r)
def State.throttled (s : State) : Bool := s.fbit F.PCR_THROTTLE_ASSERTED

/-- The target of a region before the guard and the throttle: its request, or at most SAFE_STEP without running firmware
(R423). -/
def State.baseTarget (s : State) (r : Nat) : Nat :=
  if s.fget F.TCK_STATE_STATE = 1 then (s.region r).want else min (s.region r).want (s.fget F.TCK_POLICY_SAFE_STEP)

/-- The thermal guard's target: every guarded region lowers its own and, under the three-step rule, its neighbours'. -/
def State.guardTarget (s : State) (r : Nat) : Nat :=
  (List.range 29).foldl (fun m q =>
    match (s.region q).cap with
    | none => m
    | some c => min m (c + 3 * steps q r)) (s.baseTarget r)

/-- The target in force of a region. -/
def State.target (s : State) (r : Nat) : Nat := if s.throttled || s.tck.trip then 0 else s.guardTarget r

/-- The causes of ALERT_N that hold (R432): bit 0 ERR_COUNT[ALERT], 1 not RUNNING, 2 throttle, 3 guard, 4 envelope episode,
5 a faulty sensor. -/
def State.alertCauses (s : State) : Nat :=
  b2n (s.fbit F.ERR_COUNT_ALERT) + 2 * b2n (s.fget F.TCK_STATE_STATE ≠ 1) + 4 * b2n s.throttled +
  8 * b2n ((List.range 29).any (fun r => (s.region r).cap.isSome)) + 16 * b2n s.tck.envOn +
  32 * b2n ((List.range 60).any (fun i => s.fbit (F.TCK_TEMP_FAULT i)) || (List.range 36).any (fun i => s.fbit (F.TCK_VOLT_FAULT i)))

/-- TCK_ALERT and ALERT_N follow the causes; each change of a cause is sent as a PlatformEventMessage while firmware runs
(R432, R436): the cause's number and whether it now holds. -/
def State.showAlert (s : State) : State :=
  let now := s.alertCauses
  let was := s.tck.alert
  if now = was then s
  else
    let s1 := ({ s with tck := { s.tck with alert := now } }).fset F.TCK_ALERT_CAUSES now
    let s2 := if (now = 0) = (was = 0) then s1 else s1.send (.pin 0 (now = 0))
    if s2.fget F.TCK_STATE_STATE = 1 then
      ((List.range 6).filter (fun i => bit now i ≠ bit was i)).foldl (fun s i =>
        s.send (.message 4 [BitVec.ofNat 8 i, BitVec.ofNat 8 (b2n (bit now i))])) s2
    else s2

/-- Bring PCR_STEP_STATE of every region, and ALERT_N, up to date. -/
def State.refreshSteps (s : State) : State :=
  State.showAlert <| (List.range 29).foldl (fun s r =>
    let t := s.target r
    (((s.fset (F.PCR_STEP_STATE_TARGET r) t).fsetB (F.PCR_STEP_STATE_MOVING r) (s.cur r ≠ t)).fsetB
      (F.PCR_STEP_STATE_THROTTLED r) s.throttled).fsetB (F.PCR_STEP_STATE_GUARD r)
        (s.guardTarget r < s.baseTarget r)) s

/-- The step to which a region moves on a tick: one step towards its target, if that lies within 3 steps of every
neighbour's current step (R21). DESIGN CHOICE: the hub stays where it is while the reference is lost, for whatever cause
its target has changed: R38 says that its step stays fixed, and speaks of firmware's requests only (log entry 113). -/
def State.nextStep (s : State) (r : Nat) : Nat :=
  let c := s.cur r
  let t := s.fget (F.PCR_STEP_STATE_TARGET r)
  let n := if c < t then c + 1 else if t < c then c - 1 else c
  if r = 28 ∧ s.time.refLost = true then c
  else if (neighbours r).all (fun q => decide (n ≤ s.cur q + 3 ∧ s.cur q ≤ n + 3)) then n else c

/-- STEP_TICK: every region that can take a move takes it (R21). -/
def execStepTick (s : State) : Res :=
  let s0 := s.refreshSteps
  .next ((List.range 29).foldl (fun t r =>
    if s0.nextStep r = s0.cur r then t
    else (t.fset (F.PCR_STEP_STATE_CUR r) (s0.nextStep r)).trace 6 r none (s0.nextStep r)) s0).refreshSteps

/-- What the clamp of R22 takes for a region's target: while the reference is lost, the hub's fixed current step (R38). -/
def State.clampTarget (s : State) (q : Nat) : Nat := if q = 28 ∧ s.time.refLost = true then s.cur 28 else (s.region q).want

/-- New requested target of one region (R22). -/
def State.grant (s : State) (r req : Nat) : State :=
  let ns := (neighbours r).map s.clampTarget
  let lo := maxOf 0 ns - 3
  let hi := minOf 15 ns + 3
  let got := if req < lo then lo else if hi < req then hi else req
  let s1 := s.updRegion r (fun g => { g with want := got })
  if got = req then s1
  else (s1.fset (F.PCR_STEP_STATE_CLAMPED r) 1).raise
    { code := 0x0101, blk := r, detail := r * 2 ^ 16 + req * 2 ^ 8 + got }

/-- The request of one region takes effect. The hub's is held back while the reference is lost (R38). -/
def State.applyOne (s : State) (r : Nat) : State :=
  let req := s.fget (F.PCR_STEP_REQ_STEP r)
  if r = 28 ∧ s.time.refLost = true then { s with time := { s.time with hubReq := some req } } else s.grant r req

/-- All requests take effect. -/
def State.applySteps (s : State) : State := ((List.range 29).foldl State.applyOne s).refreshSteps

/-- STEP_APPLY: writing 1 to PCR_STEP_APPLY[APPLY] (R22, R44). -/
def execStepApply (s : State) : Res := .next (if s.enabled pcrBase then s.applySteps else s)

/-! ### Throttle and thermal guard -/

/-- THROTTLE_ASSERT (R32). -/
def execThrottleAssert (s : State) : Res :=
  .next (if s.throttled then s
    else
      let s1 := (s.fset F.PCR_THROTTLE_ASSERTED 1).fwrap F.PCR_THROTTLE_EVENTS 1
      State.refreshSteps { s1 with time := { s1.time with throttleSince := s.refNs, stuckSaid := false } })

/-- THROTTLE_DEASSERT (R32). -/
def execThrottleDeassert (s : State) : Res := .next (s.fset F.PCR_THROTTLE_ASSERTED 0).refreshSteps

/-- THROTTLE_STUCK: 10 s asserted; raised once (R32). -/
def execThrottleStuck (s : State) : Res :=
  .next (if s.throttled = true ∧ s.time.stuckSaid = false ∧ s.time.throttleSince + 10000000000 ≤ s.refNs then
      let s1 := (s.fset F.PCR_THROTTLE_STUCK 1).raise { code := 0x0108, blk := 28 }
      { s1 with time := { s1.time with stuckSaid := true } }
    else s)

/-- One region's guard on its 100 µs tick: it begins at 105 °C, lowers the target in force, as `s0` shows it at the tick,
by one step a tick down to S0, and ends below 102 °C (R33). -/
def State.guardTick (s0 s : State) (r : Nat) : State :=
  match s0.temp r with
  | none => s
  | some t =>
    if t < 1632 then s.updRegion r (fun g => { g with cap := none })
    else if (s.region r).cap = none ∧ t < 1680 then s
    else
      let s1 := s.updRegion r (fun g => { g with cap := some (s0.guardTarget r - 1) })
      if (s.region r).cap = none then s1.raise { code := 0x010A, blk := r } else s1

/-- THERMAL_GUARD_TICK (R33). -/
def execThermalGuardTick (s : State) : Res := .next ((List.range 29).foldl (State.guardTick s) s).refreshSteps

end Sys2Proof.Machine
end

