-- ==== Sys2Proof/Machine/Time.lean ====
section
/-! DEFINITION. Station time, its sources, the reference, local time and launches (R35-R43). -/

namespace Sys2Proof.Machine

/-- One second and 100 µs in units of 2^-32 ns. -/
def secUnits : Nat := 1000000000 * 2 ^ 32
def winUnits : Nat := 100000 * 2 ^ 32

def State.updTime (s : State) (f : TimeSt → TimeSt) : State := { s with time := f s.time }
def State.source (s : State) : Nat := s.fget F.PCR_TIME_CTRL_SOURCE
def State.timeState (s : State) : Nat := s.fget F.PCR_TIME_STATUS_STATE

/-- A jump is permitted now (R36). -/
def State.mayJump (s : State) : Bool :=
  s.fbit F.PCR_TIME_CTRL_ALLOW_STEP &&
  (List.range 8).all (fun j => !(s.job j).launchPending && (s.job j).phase ≠ .running)

/-- Station time jumps. -/
def State.jump (s : State) (t : Nat) : State := s.updTime (fun x => { x with now := t, phaseErr := 0, forced := false })

/-- The difference to a wanted time is removed by slewing (R35). -/
def State.slewTo (s : State) (t : Nat) : State :=
  s.updTime (fun x => { x with phaseErr := (t : Int) - (x.now : Int), forced := false })

/-- A jump that R36 refuses: the difference is slewed out, whatever the source. -/
def State.refuseJump (s : State) (t : Nat) : State :=
  (((s.slewTo t).updTime (fun x => { x with forced := true })).fset F.PCR_TIME_STATUS_STEP_REFUSED 1).raise { code := 0x0109, blk := 28 }

/-- Writing PCR_STIME_SET (R36, R44). -/
def State.stimeSet (s : State) (ns : Nat) : State :=
  if !s.enabled pcrBase then s
  else if s.mayJump then s.jump (ns * 2 ^ 32) else s.refuseJump (ns * 2 ^ 32)

/-- STIME_SET. -/
def execStimeSet (_src : Source) (ns : Word) (s : State) : Res := .next (s.stimeSet ns.toNat)

/-- The tag of the answer to a register read, by source. -/
def srcNum : Source → Nat
  | .portA => 0 | .portB => 1 | .tackroom => 2

/-- A read of PCR_STIME_NS latches the fraction of the value that it returns (R44). -/
def State.latchFrac (s : State) : State := s.fset F.PCR_STIME_FRAC_FRAC (s.time.now / 2 ^ 24 % 256)

/-- STIME_NS_READ. -/
def execStimeNsRead (src : Source) (s : State) : Res :=
  .next (s.latchFrac.send (.answer (0x10000 + srcNum src) 0 (s.nowNs % 2 ^ 64)))

/-! ### The steering loop -/

/-- The rate that the loop arrives at after a measurement: no rule states it beyond the limit of R35 (log entry 2). -/
def State.newRate (s : State) : State :=
  let f := s.free
  let r : Int := (f.1.toNat % 4294969 : Nat) - (2147484 : Int)
  (f.2.updTime (fun x => { x with slew := r })).fset F.PCR_TIME_RATE_RATE (unsigned 32 r)

/-- Phase steering is in force: the block is enabled, the reference is there, and PPS_IN or a trained parent port is the
source; or the difference of a refused jump is being removed, which R36 asks for with every source (R36, R38, R44). -/
def State.steers (s : State) : Bool :=
  s.enabled pcrBase && !s.time.refLost &&
  (s.time.forced || s.source = 1 || (s.source = 2 && s.portOpen (s.fget F.PCR_TIME_CTRL_PARENT_PORT)))

def limitInt (lim x : Int) : Int := if lim < x then lim else if x < -lim then -lim else x

/-- The rate of the next edge: while the loop steers, the source's rate and at most 20 ppm towards the phase, within
500 ppm (R35); otherwise the rate stays what it was last (R36, R44). -/
def State.rateNow (s : State) : Int :=
  if s.steers then limitInt 2147484 (s.time.slew + limitInt 85899 (s.time.phaseErr * 4 / 5))
  else signed 32 (s.fget F.PCR_TIME_RATE_RATE)

/-- One edge of the time clock: 1.25 ns × (1 + PCR_TIME_RATE × 2^-32) (R35), or in holdover the hub's own measure of it,
within 50 ppm (R38). Station time never decreases. -/
def State.clockEdge (s : State) : State :=
  let rate := s.rateNow
  let corr := if s.steers then 5 * (rate - s.time.slew) / 4 else 0
  let f := if s.time.refLost then s.free else (0, s)
  let add : Int := 5368709120 + (if s.time.refLost then (f.1.toNat % 536871 : Nat) - (268435 : Int) else 5 * rate / 4)
  let s1 := f.2.updTime (fun x => { x with edges := x.edges + 1, now := x.now + add.toNat, phaseErr := x.phaseErr - corr })
  if s.steers then s1.fset F.PCR_TIME_RATE_RATE (unsigned 32 rate) else s1

/-! ### PPS_IN (R39, R40) -/

/-- Two times lie 1 s ± 100 µs apart. -/
def secondApart (a b : Nat) : Bool := a + secUnits ≤ b + winUnits && b ≤ a + secUnits + winUnits

/-- Station time as steering will have it is within 100 µs of second `k`. -/
def State.nearSecond (s : State) (k : Nat) : Bool :=
  let d := (s.time.now : Int) + s.time.phaseErr - (k * secUnits : Nat)
  decide (-(winUnits : Int) ≤ d ∧ d ≤ (winUnits : Int))

/-- A pulse marks second `k` and is accepted: the state is LOCKED, phase and rate follow, and the next second is due. -/
def State.ppsAccept (s : State) (k : Nat) : State :=
  let s1 := ((s.slewTo (k * secUnits)).newRate.fset F.PCR_PPS_SECONDS_SECONDS ((k + 1) % 2 ^ 64)).fset F.PCR_TIME_STATUS_STATE 2
  s1.updTime (fun x => { x with lastPulse := none, lastAccepted := s.nowNs, rejects := 0 })

/-- The first lock after reset jumps where R36 allows it. -/
def State.ppsLock (s : State) : State :=
  let k := s.fget F.PCR_PPS_SECONDS_SECONDS
  let s1 := s.ppsAccept k
  let s2 := if s.time.everLocked then s1
    else if s.mayJump then (s1.jump (k * secUnits)).updTime (fun x => { x with lastAccepted := k * 1000000000 })
    else s1.refuseJump (k * secUnits)
  s2.updTime (fun x => { x with everLocked := true })

/-- PCR_PPS_FAULT and PPS_HOLDOVER (R40). -/
def State.ppsFault (s : State) : State :=
  let s1 := (s.fset F.PCR_TIME_STATUS_PPS_FAULT 1).fset F.PCR_TIME_STATUS_STATE 4
  (s1.updTime (fun x => { x with lastPulse := none, rejects := 0, phaseErr := 0 })).raise { code := 0x0106, blk := 28 }

/-- A rejected pulse. -/
def State.ppsReject (s : State) : State :=
  (s.fsat F.PCR_TIME_STATUS_PPS_REJECTED 1).updTime (fun x => { x with rejects := x.rejects + 1, lastPulse := none })

/-- A pulse that has stayed high long enough. In REF_HOLDOVER it has no effect and PCR_PPS_SECONDS stays: R39 says nothing of
pulses in the loss, after which the source is acquired afresh (DESIGN CHOICE, log entry 113). -/
def State.ppsPulse (s : State) : State :=
  let k := s.fget F.PCR_PPS_SECONDS_SECONDS
  match s.timeState with
  | 1 =>
    (match s.time.lastPulse with
     | some t => if secondApart t s.time.now then s.ppsLock else s.updTime (fun x => { x with lastPulse := some x.now })
     | none => s.updTime (fun x => { x with lastPulse := some x.now }))
  | 2 =>
    if s.nearSecond k then s.ppsAccept k
    else
      let s1 := s.ppsReject
      if 4 ≤ s1.time.rejects then s1.ppsFault else s1
  | 4 =>
    let hit := if s.nearSecond k then some k else if 0 < k ∧ s.nearSecond (k - 1) = true then some (k - 1) else none
    (match hit with
     | none => s.ppsReject
     | some m => match s.time.lastPulse with
       | some t => if secondApart t s.time.now then s.ppsAccept m else s.updTime (fun x => { x with lastPulse := some x.now })
       | none => s.updTime (fun x => { x with lastPulse := some x.now }))
  | _ => s

/-- PPS_PULSE: a rising edge after which the input stays high for `highNs` (R39). -/
def execPpsPulse (highNs : Nat) (s : State) : Res :=
  .next (if highNs < 100 ∨ s.source ≠ 1 ∨ s.enabled pcrBase = false then s else s.ppsPulse)

/-- PPS_FAULT: no pulse accepted for 1.5 s in LOCKED, or 4 rejected in a row (R40). -/
def execPpsFault (s : State) : Res :=
  .next (if s.source = 1 ∧ s.timeState = 2 ∧ (s.time.lastAccepted + 1500000000 ≤ s.nowNs ∨ 4 ≤ s.time.rejects) then
    s.ppsFault else s)

/-- PPS_EXPECTED_SECOND: in PPS_HOLDOVER the second advances with station time (R40). -/
def execPpsExpectedSecond (s : State) : Res :=
  .next (if s.timeState = 4 ∧ s.fget F.PCR_PPS_SECONDS_SECONDS * secUnits ≤ s.time.now then
    s.fset F.PCR_PPS_SECONDS_SECONDS ((s.fget F.PCR_PPS_SECONDS_SECONDS + 1) % 2 ^ 64) else s)

/-! ### The reference (R38) -/

/-- The state in which a source starts: PPS_IN and a parent port acquire, every other source is Free (R36, R39); in
holdover the state stays (R38). The rate is the last one, and nothing is left of the old source's phase error. -/
def State.startSource (s : State) : State :=
  let s1 := if s.time.refLost then s else s.fset F.PCR_TIME_STATUS_STATE (if s.source = 1 ∨ s.source = 2 then 1 else 0)
  s1.updTime (fun x => { x with
    lastPulse := none, rejects := 0, slew := signed 32 (s.fget F.PCR_TIME_RATE_RATE)
    phaseErr := if x.forced then x.phaseErr else 0 })

/-- REFCLK_LOST. -/
def execRefclkLost (s : State) : Res :=
  .next (if !s.fbit F.PCR_TIME_STATUS_REF_PRESENT then s
    else
      let s1 := ((s.fset F.PCR_TIME_STATUS_REF_PRESENT 0).fset F.PCR_TIME_STATUS_REF_LOST 1).fset F.PCR_TIME_STATUS_STATE 3
      let s2 := (s1.updTime (fun x => { x with refLost := true })).raise { code := 0x0105, blk := 28 }
      ((List.range 32).filter (fun p => s2.portSt p ≠ 0 && s2.portSt p ≠ 7)).foldl (fun s p => s.portDown p 6) s2)

/-- REFCLK_RESTORED: 1,000 good periods; a request for the hub's step that was held back is applied. -/
def execRefclkRestored (s : State) : Res :=
  .next (
    let s1 := s.fset F.PCR_TIME_STATUS_REF_PRESENT 1
    if !s.time.refLost then s1.startHeld
    else
      let s2 := (s1.updTime (fun x => { x with refLost := false, hubReq := none })).startSource
      (match s.time.hubReq with
       | some q => (s2.grant 28 q).refreshSteps
       | none => s2.refreshSteps).startHeld)

/-! ### Alignment between devices (R37, R239) -/

/-- TIME_FOLLOW: the exchange is complete; offset and delay are stored, and the parent port's offset steers. -/
def execTimeFollow (p : PortId) (s : State) : Res :=
  .next (match s.takeStored p 3 with
    | none => s
    | some (m, s1) =>
      let w := m.1.toNat
      match (s1.link p).ex with
      | some ⟨id, _, some t1, some t4⟩ =>
        if id ≠ bits w 119 112 then s1
        else
          let t2 := bits w 111 40
          let up := signed 72 (t2 + 2 ^ 72 - t1)
          let down := signed 72 (t4 + 2 ^ 73 - t2 - bits w 39 8)
          let asym := signed 16 (s1.fget (F.PCR_PORT_ASYM_ASYM p)) * 256 / 1000
          let off := (up - down) / 2 - asym
          let s2 := ((s1.fset (F.PCR_PORT_TIME_OFFSET p) (unsigned 32 off)).fset (F.PCR_PORT_TIME_DELAY p)
            (unsigned 32 ((up + down) / 2))).updLink p (fun l => { l with ex := none })
          if s.source = 2 ∧ s.fget F.PCR_TIME_CTRL_PARENT_PORT = p.val ∧ s.enabled pcrBase = true ∧ s.time.refLost = false then
            (s2.newRate.updTime (fun x => { x with phaseErr := off * 2 ^ 24, forced := false })).fset F.PCR_TIME_STATUS_STATE 2
          else s2
      | _ => s1)

/-! ### Local time (R41) -/

/-- One period of the time clock of 800 MHz, in the unit in which `phase` and `prog` count. -/
def periodUnits : Nat := 800000000

/-- One edge of the time clock in units of 2^-32 ns. -/
def edgeUnits : Nat := 5368709120

/-- The pacer period as the time since the last calibration shows it (R41); unchanged where no edge has passed. -/
def Region.calibrate (edges : Nat) (g : Region) : Region :=
  if g.prog = 0 then g
  else { g with cal := (edges - g.calEdge) * edgeUnits * periodUnits / g.prog, prog := 0, calEdge := edges }

/-- LOCAL_TIME_SYNC: every region calibrates its pacer period and takes station time; one that is ahead waits. -/
def execLocalTimeSync (s : State) : Res :=
  let t := s.time.now
  .next ((List.range 29).foldl (fun s r => s.updRegion r (fun g =>
    let g1 := g.calibrate s.time.edges
    if t < g.loc then { g1 with locHold := true } else { g1 with loc := t, locHold := false })) s)

/-- The local counter advances by `d`, unless it waits for station time to pass it (R41). -/
def Region.advance (now d : Nat) (g : Region) : Region :=
  if g.locHold ∧ now < g.loc then g else { g with loc := g.loc + d, locHold := false }

/-- A pacer period ends: the local counter advances by it. -/
def State.localTick (s : State) (r : Nat) : State := s.updRegion r (fun g => g.advance s.time.now g.cal)

/-! ### Launch (R42, R43) -/

/-- At launch every engine's due beat is the base beat of the first step (R66). -/
def Stall.launched (base : Nat) (t : Stall) : Stall :=
  { t with due := t.due.map (fun e => (e.1, if e.2 = .nextStep then Due.at base else e.2)) }

/-- The engines of the job's stalls take the base beat of the first step as their due beat (R66). -/
def State.launchStalls (s : State) (j : Nat) : State :=
  (s.job j).barns.foldl (fun s b => (List.range (s.job j).stallsParam).foldl (fun s k =>
    s.updStall (48 * b + k) (Stall.launched (s.infoOf j).beat)) s) s

/-- Job beat 0, or the job beat at which a resumed job goes on, is fixed at the hub's present beat plus 32. -/
def State.launch (s : State) (j : Nat) : State :=
  ((s.launchStalls j).updJob j (fun jb =>
    { jb with phase := .running, launchPending := false, stop := (s.srvJob j).susp.map Prod.snd, origin := s.beat 28 + 32, start := (s.infoOf j).beat })).fset
    (F.SRV_JOB_STATE_STATE j) 1

/-- LAUNCH_TIME_REACHED. -/
def execLaunchTimeReached (j : JobId) (s : State) : Res :=
  .next (if (s.job j).phase = .ready ∧ (s.job j).launchPending = true ∧ (s.infoOf j).launch ≤ s.nowNs then s.launch j else s)

end Sys2Proof.Machine
end

