-- ==== Sys2Proof/Machine/Rings.lean ====
section
/-! DEFINITION. Rings in host memory: reading them, latching entries, writing outputs, and attaching a ring set (R362,
R363, R370, R371, R373, R374). -/

namespace Sys2Proof.Machine

/-- An HST_ error names its port in DETAIL (R379, R490). -/
def State.hstErr (s : State) (p code : Nat) : State := s.raise { code := code, blk := 30 + p, detail := p }

/-- A failed read (R373). -/
def State.readFailed (s : State) (p : Nat) : State := (s.fsat (F.HST_ERRCNT_READ_FAILED p) 1).hstErr p 0x0903

/-- May the SL9 read host memory through the port (R376)? -/
def State.canRead (s : State) (p : Nat) : Bool := p < 2 && (s.hst p).up && !(s.hst p).perst

/-- Read host memory through a port; `h` is what the host's completions bring. -/
def State.hread (s : State) (p : Nat) (h : List HostPiece) (a n : Nat) : Option (List Byte) × State :=
  match (if s.canRead p then hostRead h a n else none) with
  | some bs => (some bs, s.setReg (R.HST_DMA_IN p) ((s.reg (R.HST_DMA_IN p) + n) % 2 ^ 64))
  | none => (none, s.readFailed p)

/-- A 32-bit index in a header line. -/
def State.hindex (s : State) (p : Nat) (h : List HostPiece) (a : Nat) : Option Nat × State :=
  let r := s.hread p h a 4
  (r.1.map leNat, r.2)

/-- What stops the latching of a ring: a mismatched SEQ at an entry since a time (R363). -/
def stallOf (old : Option (Nat × Nat)) (i now : Nat) : Option (Nat × Nat) :=
  match old with
  | some (j, t) => if i = j then some (j, t) else some (i, now)
  | none => some (i, now)

/-- Latch entries of a ring from index `i` on, at most `n`: entries read, and how it ended: 0 done, 1 a read failed,
2 a SEQ differs. -/
def State.latchFrom (s : State) (p : Nat) (h : List HostPiece) (base log i : Nat) :
    Nat → List (List Byte) → (List (List Byte) × Nat) × State
  | 0, acc => ((acc, 0), s)
  | n + 1, acc =>
    let r := s.hread p h (base + 64 * (i % 2 ^ log)) 64
    match r.1 with
    | none => ((acc, 1), r.2)
    | some bs =>
      if leNat (bs.take 4) = i % 2 ^ 32 then r.2.latchFrom p h base log (i + 1) n (acc ++ [bs]) else ((acc, 2), r.2)

/-- Bytes of an entry. -/
def field (bs : List Byte) (o n : Nat) : Nat := leNat ((bs.drop o).take n)

/-! ### Outputs (R330, R371) -/

def OutEnt.bytes (e : OutEnt) : List Byte :=
  leBytes 4 e.tok ++ leBytes 4 e.seqId ++ leBytes 4 e.pos ++ leBytes 1 e.flags ++ leBytes 3 0

/-- The port of a context is there for the rings of its job. -/
def State.ringUp (s : State) (j : Nat) : Bool :=
  (s.ring j).att && s.canSend (s.ring j).port && !(s.hst (s.ring j).port).absent && !s.headSilent j

/-- Copy the output entries that the host's ring does not hold yet, then line 4 (R330, R371). -/
def State.flushOut (s : State) (j : Nat) : State :=
  let r := s.ring j
  let q := s.srvJob j
  if s.ringUp j then
    let go := q.out.filter (fun e => q.outSent ≤ e.idx && e.idx < r.lastO + 65536)
    if go = [] then s
    else
      let s1 := go.foldl (fun s e => s.hostWrite r.port (r.ob + 16 * (e.idx % 65536)) e.bytes) s
      let n := q.outSent + go.length
      let v := s.vecOf r.port j
      (((s1.updSrv j (fun q => { q with outSent := n })).hostWrite r.port (r.hd + 256) (leBytes 4 (n % 2 ^ 32))).fset
        (F.HST_CTX_OUT_PRODUCER r.port j) n).fireVec r.port v.1 v.2
  else s

/-- Indices that the host shows consumed free what they cover (R371). -/
def State.consumed (s : State) (j c o : Nat) : State :=
  let r := s.ring j
  ((((s.updRing j (fun r => { r with lastC := c, lastO := o })).fset (F.HST_CTX_CPL_CONSUMER r.port j) c).fset
    (F.HST_CTX_OUT_CONSUMER r.port j) o).updSrv j (fun q =>
      { q with out := q.out.filter (fun e => o ≤ e.idx), cpl := q.cpl.filter (fun e => c ≤ e.idx) })).flushCpl j |>.flushOut j

/-- A 32-bit index read from the host, as the count near `last` that it stands for. -/
def nearIdx (last v : Nat) : Nat := last + subMod 32 v (last % 2 ^ 32)

/-- Read lines 3 and 5 and free what they show consumed; `none` when a read fails. -/
def State.readConsumers (s : State) (j : Nat) (h : List HostPiece) : Bool × State :=
  let r := s.ring j
  let a := s.hindex r.port h (r.hd + 192)
  match a.1 with
  | none => (false, a.2)
  | some c =>
    let b := a.2.hindex r.port h (r.hd + 320)
    match b.1 with
    | none => (false, b.2)
    | some o => (true, b.2.consumed j (nearIdx r.lastC c) (nearIdx r.lastO o))

/-! ### Ring sets and attachment (R370, R374) -/

/-- A ring-set record; none when it breaks its layout. -/
def ringSetOf (bs : List Byte) : Option Ring :=
  let z (o n : Nat) : Bool := field bs o n = 0
  let r : Ring :=
    { jb := field bs 0 8, jlog := field bs 8 1, cb := field bs 16 8, clog := field bs 24 1, ob := field bs 32 8
      hd := field bs 40 8 }
  if bs.length = 64 ∧ z 9 7 = true ∧ z 25 7 = true ∧ z 48 16 = true ∧ r.jb % 4096 = 0 ∧ r.cb % 4096 = 0 ∧
      r.ob % 4096 = 0 ∧ r.hd % 256 = 0 ∧ 6 ≤ r.jlog ∧ r.jlog ≤ 16 ∧ 6 ≤ r.clog ∧ r.clog ≤ 16 then some r else none

/-- The two ports' view of who owns a context. -/
def State.setOwner (s : State) (j p : Nat) : State :=
  [0, 1].foldl (fun s q =>
    (((s.fsetB (F.HST_CTX_OWNED q j) (q = p)).fsetB (F.HST_CTX_ATTACHED q j) false).fset (F.HST_CTX_CMD_CONSUMER q j) 0))
      (s.updRing j (fun r => { r with port := p }))

/-- Every completion record and output entry that the device holds is written, and then lines 2 and 4 (steps 2 and 3 of
R374). Only a head that is silent writes nothing. -/
def State.writeHeld (s : State) (j : Nat) : State :=
  let r := s.ring j
  let q := s.srvJob j
  if s.headSilent j then s else
  let cs := q.cpl.filter (fun c => r.lastC ≤ c.idx && c.idx < r.lastC + 2 ^ r.clog)
  let os := q.out.filter (fun e => r.lastO ≤ e.idx && e.idx < r.lastO + 65536)
  let c := r.lastC + cs.length
  let o := r.lastO + os.length
  let s1 := cs.foldl (fun s x => s.writeCpl r { x with result := if q.cplSent ≤ x.idx then x.result else none }) s
  let s2 := os.foldl (fun s x => s.hostWrite r.port (r.ob + 16 * (x.idx % 65536)) x.bytes) s1
  let s3 := (s2.hostWrite r.port (r.hd + 128) (leBytes 4 (c % 2 ^ 32))).hostWrite r.port (r.hd + 256) (leBytes 4 (o % 2 ^ 32))
  let s4 := ((s3.updSrv j (fun q => { q with cplSent := c, outSent := o })).fset (F.HST_CTX_CPL_PRODUCER r.port j) c).fset
    (F.HST_CTX_OUT_PRODUCER r.port j) o
  if cs = [] ∧ os = [] then s4 else s4.fireVec r.port (s4.vecOf r.port j).1 (s4.vecOf r.port j).2

/-- Attach a ring set on a port (R374): latching resumes from line 1, lines 3 and 5 are given the last values read, what the device
still holds is written again, and then lines 2 and 4. -/
def State.attach (s : State) (j p : Nat) (set : Ring) (h : List HostPiece) : Bool × State :=
  let old := s.ring j
  let a := s.hindex p h (set.hd + 64)
  match a.1 with
  | none => (false, a.2)
  | some line1 =>
    let r : Ring := { set with port := p, att := true, cons := line1, lastC := old.lastC, lastO := old.lastO, hash := old.hash }
    let s1 := ((a.2.setOwner j p).updRing j (fun _ => r)).fset (F.HST_CTX_ATTACHED p j) 1
    let s2 := (s1.hostWrite p (set.hd + 192) (leBytes 4 (r.lastC % 2 ^ 32))).hostWrite p (set.hd + 320)
      (leBytes 4 (r.lastO % 2 ^ 32))
    let s3 := ((s2.fset (F.HST_CTX_CMD_CONSUMER p j) line1).fset (F.HST_CTX_CPL_CONSUMER p j) r.lastC).fset
      (F.HST_CTX_OUT_CONSUMER p j) r.lastO
    (true, s3.writeHeld j)

end Sys2Proof.Machine
end

