-- ==== Sys2Proof/Machine/SecOps.lean ====
section
/-! DEFINITION. Bales: their manifests and the checks of R392 and R398, key contexts, and the packets that the hub
writes to a job's devices (R385-R402). -/

namespace Sys2Proof.Machine

def beNat (bs : List Byte) : Nat := leNat bs.reverse

def allZero (bs : List Byte) : Bool := bs.all (· = 0)

def ascii (t : String) : List Byte := t.toList.map (fun c => BitVec.ofNat 8 c.toNat)

/-! ### The hub's packets -/

/-- The hub writes whole lines to a device of the job, itself included, four to a packet; the last packet carries FENCE
and a signal to a gate counter there (R260, R263, R308, R394). -/
def State.hubSend (s : State) (j d addr epoch sig inc : Nat) (fence : Bool) (bs : List Byte) : State :=
  if d = s.devId then
    let s1 := s.hubPut addr epoch false bs
    if inc = 0 then s1 else s1.updCtr (keyGate sig) (fun c => { c with incs := c.incs ++ [inc] })
  else
    let n := (bs.length + 255) / 256
    (List.range n).foldl (fun s i =>
      let part := (bs.drop (256 * i)).take 256
      let last : Bool := i + 1 = n
      s.originate j (.dev d)
        { kind := 0, addr := addr + 256 * i, epoch := epoch, fence := fence && last
          sigidx := (if last then sig else 0), siginc := (if last then inc else 0) }
        (bytesLines ((part.length + 63) / 64) part)) s

/-- The same to every device of the peer set. -/
def State.hubSendAll (s : State) (j addr epoch sig inc : Nat) (fence : Bool) (bs : List Byte) : State :=
  (((s.peersOf j).filter (· ≠ s.devId)) ++ [s.devId]).foldl (fun s d => s.hubSend j d addr epoch sig inc fence bs) s

/-! ### The signer table (R385) -/

def State.signer (s : State) (i : Nat) : Nat :=
  ((List.range 4).map (fun w => Tab.get zeroNat s.sec.signers (4 * i + w) * 2 ^ (64 * w))).sum

/-- Is a public key in an entry with the role (0 BALE, 1 IMAGE)? -/
def State.signerOk (s : State) (pub : List Byte) (role : Nat) : Bool :=
  (List.range 16).any (fun i => s.signer i = shake pub && bit (s.fget F.SEC_SIGNER_ROLE_ROLES) (2 * i + role))

/-! ### Manifests (R387, R388) -/

def mfDevices (m : List Byte) : Nat := field m 24 4
def mfShards (m : List Byte) : Nat := field m 28 4
def mfDev (m : List Byte) (i : Nat) : List Byte := (m.drop (2048 + 1664 * i)).take 1664
def mfShard (m : List Byte) (i : Nat) : List Byte := (m.drop (2048 + 1664 * mfDevices m + 64 * i)).take 64

/-- The layout of a manifest (R387). -/
def mfLayout (m : List Byte) : Bool :=
  let n := mfDevices m
  let k := mfShards m
  let kind := field m 6 1
  let ids := (List.range k).map (fun i => field (mfShard m i) 0 4)
  m.length = 64 + 32 + 1952 + 1664 * n + 64 * k + 3309 && m.length ≤ 16777216 &&
  field m 0 4 = 0x39424C53 && field m 4 2 = 1 && kind ≤ 1 && field m 7 1 = 0 && field m 8 8 ≠ 0 &&
  (if kind = 1 then field m 16 4 ≠ 0 else field m 16 4 = 0 && field m 20 4 = 0) &&
  1 ≤ n && n ≤ 8192 && 1 ≤ k && k ≤ 1048576 && field m 32 32 = 0 &&
  (List.range n).all (fun i =>
    let e := mfDev m i
    field e 44 4 = 0 && field e 36 4 + field e 40 4 ≤ k) &&
  (List.range k).all (fun i =>
    let e := mfShard m i
    field e 4 1 < 24 && field e 5 3 = 0 && 1 ≤ field e 12 4 && field e 48 16 = 0) && ids.dedup.length = k

/-- A key wrapped for this device: the ciphertext of the encapsulation, what the label is followed by, and the wrapped
key with its tag (R388, R391). -/
def unwrapKey (label ct bind wrapped : List Byte) : Option Nat :=
  let kek := shake (label ++ leBytes 32 (Config.mlkemDecap ct).toNat ++ bind)
  (gcmOpen (keyOf kek) 0 (leBytes 32 Config.identityHash.toNat) (wrapped.take 32) (beNat (wrapped.drop 32))).map leNat

/-- The device's entry: its index. -/
def State.mfMine (s : State) (j : Nat) (m : List Byte) : Option Nat :=
  (List.range (mfDevices m)).find? (fun i =>
    field (mfDev m i) 0 32 = Config.identityHash.toNat && field (mfDev m i) 32 4 = (s.infoOf j).rank)

/-- The first granule of an adapter slot's region, 0 for the deployment (R399). -/
def State.bandBase (s : State) (j kind slot : Nat) : Nat :=
  if kind = 1 then s.fget (F.SEC_JOB_ADAPTER_BASE j) + slot * s.fget (F.SEC_JOB_ADAPTER_STRIDE j) else 0

/-- The shards of a device entry. -/
def State.mfShardsOf (s : State) (j kind slot : Nat) (m dev : List Byte) : List Shard :=
  (List.range (field dev 40 4)).map (fun i =>
    let e := mfShard m (field dev 36 4 + i)
    { id := field e 0 4, loft := field e 4 1, gran := s.bandBase j kind slot + field e 8 4, count := field e 12 4
      hash := field e 16 32, st := 0, src := 0 })

/-- The unwrapped key of an entry. -/
def mfKey (m : List Byte) (i : Nat) : Option Nat :=
  let d := mfDev m i
  unwrapKey (ascii "SL9 bale wrap") ((d.drop 48).take 1568) ((m.drop 8).take 8 ++ leBytes 4 i) ((d.drop 1616).take 48)

def Shard.overlaps (a b : Shard) : Bool := a.loft = b.loft && a.gran < b.gran + b.count && b.gran < a.gran + a.count

/-- Shards of the bales that a job holds open, but for one adapter slot's. -/
def State.openShards (s : State) (j kind slot : Nat) : List Shard :=
  let c := s.secJob j
  (if kind = 0 then [] else (c.dep.map Bale.shards).getD []) ++
  (c.slots.filter (fun x => kind = 0 || x.1 ≠ slot)).flatMap (fun x => (x.2.map Bale.shards).getD [])

/-- No two of a list overlap. -/
def disjointShards : List Shard → Bool
  | [] => true
  | x :: xs => !xs.any x.overlaps && disjointShards xs

/-- The shard lies in a loft of the job and outside the area of R394. -/
def State.shardPlaced (s : State) (j : Nat) (x : Shard) : Bool :=
  let area := s.fget (F.SEC_JOB_AREA_AREA j) * 4096
  let lo := area % 0x80000000 / 65536
  let hi := (area % 0x80000000 + 294911) / 65536
  s.ownsBarn j x.loft && x.gran + x.count ≤ 32768 &&
  !(area / 0x80000000 = x.loft && area < 0xC00000000 && x.gran ≤ hi && lo < x.gran + x.count)

def State.shardsFit (s : State) (j kind slot : Nat) (xs : List Shard) : Bool :=
  xs.all (s.shardPlaced j) && disjointShards xs && !xs.any (fun x => (s.openShards j kind slot).any x.overlaps)

/-- The checks of R392 in the order of the result codes 1 to 6; `more` is what else binds the manifest. -/
def State.mfCheck (s : State) (j kind slot : Nat) (m : List Byte) (more : Bool) : Nat :=
  let n := m.length
  let pub := (m.drop 96).take 1952
  if !mfLayout m || field m 6 1 ≠ kind then 1
  else if !s.signerOk pub 0 then 2
  else if !Config.mldsaVerify pub (m.take (n - 3309)) (m.drop (n - 3309)) then 3
  else match s.mfMine j m with
    | none => 4
    | some i =>
      if field m 8 8 ≠ (s.infoOf j).deploy || !(field m 64 32 = 0 || field m 64 32 = (s.secJob j).imgHash) || !more then 4
      else if (mfKey m i).isNone then 5
      else if !s.shardsFit j kind slot (s.mfShardsOf j kind slot m (mfDev m i)) then 6
      else 0

/-! ### Key contexts (R402) -/

/-- Key contexts in use. -/
def State.keysUsed (s : State) : Nat :=
  ((List.range 8).map (fun j =>
    b2n (s.secJob j).kjob.isSome + b2n (s.secJob j).dep.isSome + ((s.secJob j).slots.filter (fun x => x.2.isSome)).length)).sum

def State.showKeys (s : State) : State := s.fset F.SEC_KEYCTX_USED s.keysUsed

/-- The job's adapter slot of the SEC unit. -/
def SecJob.slot (c : SecJob) (i : Nat) : Option Bale := Tab.get (fun _ => none) c.slots i
def SecJob.setSlot (c : SecJob) (i : Nat) (b : Option Bale) : SecJob :=
  { c with slots := Tab.set (fun _ => none) c.slots i b }
def SecJob.bale (c : SecJob) (kind slot : Nat) : Option Bale := if kind = 0 then c.dep else c.slot slot
def SecJob.setBale (c : SecJob) (kind slot : Nat) (b : Option Bale) : SecJob :=
  if kind = 0 then { c with dep := b } else c.setSlot slot b

/-! ### The area and the gate counters of R394 -/

def State.areaOf (s : State) (j : Nat) : Nat := s.fget (F.SEC_JOB_AREA_AREA j) * 4096
def State.gateG (s : State) (j : Nat) : Nat := s.fget (F.SEC_JOB_GATE_BASE j)
def State.peerCount (s : State) (j : Nat) : Nat := (((s.peersOf j).filter (· ≠ s.devId)) ++ [s.devId]).length

def pad (n : Nat) (bs : List Byte) : List Byte := takePad 0 n bs

/-- The notice line of an adapter slot. -/
def noticeLine (valid : Bool) (id ver hash : Nat) : List Byte :=
  pad 64 (leBytes 1 (b2n valid) ++ leBytes 3 0 ++ leBytes 4 id ++ leBytes 4 ver ++ leBytes 4 0 ++ leBytes 32 hash)

/-- A verify record and its counter go to the head (R395, R399). -/
def State.sendVerify (s : State) (j kind slot : Nat) (b : Bale) : State :=
  let rec_ := pad 64 (leBytes 8 b.dep ++ leBytes 2 (s.infoOf j).rank ++ leBytes 1 kind ++ leBytes 1 slot ++ leBytes 4 0 ++
    leBytes 32 b.mhash)
  s.hubSend j (s.headOf j) (s.areaOf j + 0x8000 + 64 * (s.infoOf j).rank) 0
    (s.gateG j + (if kind = 0 then 0 else 3 + slot)) 1 true rec_

end Sys2Proof.Machine
end

