-- ==== Sys2Proof/Machine/SrvOps.lean ====
section
/-! DEFINITION. The tables of the serving controller: shapes, KV blocks, the prefix table, sequence entries, the output
ring, and the reads of the head with the journal of a yoke (R302, R314-R325, R330, R347). -/

namespace Sys2Proof.Machine

/-! ### The job's parameters (R332) -/

def State.depth (s : State) (j : Nat) : Nat := max 1 (s.fget (F.SRV_JOB_CFG_DEPTH j))
def State.retCount (s : State) (j : Nat) : Nat := max 1 (s.fget (F.SRV_JOB_CFG_RET_COUNT j))
def State.nkv (s : State) (j : Nat) : Nat := s.fget (F.SRV_JOB_KV_NKV j)
def State.maxb (s : State) (j : Nat) : Nat := s.fget (F.SRV_JOB_KV_MAXB j)
def State.retKey (s : State) (j n : Nat) : Nat := keyGate (s.fget (F.SRV_JOB_GATE_RET_GATE j) + n % s.depth j)
def State.stepKey (s : State) (j n : Nat) : Nat := keyGate (s.fget (F.SRV_JOB_GATE_STEP_GATE j) + n % s.depth j)
def State.descAddr (s : State) (j n : Nat) : Nat := s.fget (F.SRV_JOB_AREA_STEP j) * 4096 + n % s.depth j * 0x4000
def State.retAddr (s : State) (j n slot : Nat) : Nat :=
  s.fget (F.SRV_JOB_AREA_RET j) * 4096 + n % s.depth j * 0x1000 + 32 * slot

/-! ### Customers (R326) -/

def State.cust (s : State) (j c : Nat) : Cust := Tab.get Cust.zeroF (s.srvJob j).custs c
def State.updCust (s : State) (j c : Nat) (f : Cust → Cust) : State :=
  s.updSrv j (fun q => { q with custs := Tab.upd Cust.zeroF q.custs c f })

/-- Charge a customer: LEVEL saturates at −2^31. -/
def Cust.charge (c : Cust) (cost : Nat) : Cust :=
  { c with level := max (-2147483648) (c.level - cost), charged := (c.charged + cost) % 2 ^ 64 }

/-! ### Sequence entries (R314) -/

def State.ent (s : State) (j e : Nat) : SeqEnt := Tab.get SeqEnt.zeroF (s.srvJob j).ents e
def State.updEnt (s : State) (j e : Nat) (f : SeqEnt → SeqEnt) : State :=
  s.updSrv j (fun q => { q with ents := Tab.upd SeqEnt.zeroF q.ents e f })

/-- The entry reaches DONE with a status and the reason of R315. -/
def SeqEnt.ended (status endc : Nat) (e : SeqEnt) : SeqEnt := { e with st := 4, status := status, endc := endc, drafts := none }

/-! ### KV blocks (R320) -/

def noBlk : Nat → Nat × Nat := fun _ => (0, 0)
def State.kv (s : State) (j b : Nat) : Nat × Nat := Tab.get noBlk (s.srvJob j).blocks b
def State.setKv (s : State) (j b : Nat) (v : Nat × Nat) : State :=
  s.updSrv j (fun q => { q with blocks := Tab.set noBlk q.blocks b v })

/-- FREE and CACHED blocks. -/
def State.kvFree (s : State) (j : Nat) : Nat :=
  s.nkv j - ((s.srvJob j).blocks.filter (fun b => b.1 < s.nkv j && b.2.1 = 1)).length

/-- Prefix entries of a job that name a block. -/
def State.pfxOf (s : State) (j b : Nat) : List (Nat × Option PfxEnt) :=
  s.prefix_.filter (fun x => match x.2 with | some p => p.job = j && p.block = b | none => false)

def noPfx : Nat → Option PfxEnt := fun _ => none

def State.showPfx (s : State) : State := s.fset F.SRV_PREFIX_ENTRIES s.prefix_.length

def State.dropPfx (s : State) (j b : Nat) : State :=
  { s with prefix_ := s.prefix_.filter (fun x => match x.2 with | some p => !(p.job = j && p.block = b) | none => false) }

/-- The CACHED block whose prefix entry has the oldest LAST_USE, with ties to the lower index. -/
def State.oldestCached (s : State) (j : Nat) : Option Nat :=
  (s.prefix_.foldl (fun (best : Option (Nat × Nat)) x =>
    match x.2 with
    | some p =>
      if p.job = j ∧ (s.kv j p.block).1 = 2 then
        (match best with
         | some (u, b) => if p.lastUse < u ∨ p.lastUse = u ∧ p.block < b then some (p.lastUse, p.block) else best
         | none => some (p.lastUse, p.block))
      else best
    | none => best) none).map Prod.snd

/-- Take a block with one reference: the lowest FREE one, else the oldest CACHED one. -/
def State.takeBlk (s : State) (j : Nat) : Option (Nat × State) :=
  match firstBelow (s.nkv j) (fun b => (s.kv j b).1 = 0) with
  | some b => some (b, s.setKv j b (1, 1))
  | none => match s.oldestCached j with
    | some b => some (b, (s.dropPfx j b).setKv j b (1, 1))
    | none => none

/-- One reference more, or less: at none the block is CACHED while a prefix entry names it, and else FREE. -/
def State.addRef (s : State) (j b : Nat) : State := s.setKv j b (1, (s.kv j b).2 + 1)
def State.dropRef (s : State) (j b : Nat) : State :=
  let n := (s.kv j b).2 - 1
  if 0 < n then s.setKv j b (1, n) else s.setKv j b (if s.pfxOf j b = [] then 0 else 2, 0)

/-- Take `n` blocks. -/
def State.takeBlks (j : Nat) : Nat → State → List Nat → Option (List Nat × State)
  | 0, s, acc => some (acc, s)
  | n + 1, s, acc =>
    match s.takeBlk j with
    | some (b, s1) => State.takeBlks j n s1 (acc ++ [b])
    | none => none

/-- Lines of the KV map, whose rows have `maxb` words, that hold a word of entry `e` in which two rows differ. -/
def rowLines (maxb e : Nat) (old new : List Nat) : List Nat :=
  ((List.range new.length).filter (fun w => old[w]? ≠ new[w]?)).map (fun w => (e * maxb + w) / 16)

/-- An entry's row becomes `row`. The lines of the map that change are sent with the step (R321). -/
def State.setRow (s : State) (j e : Nat) (row : List Nat) : State :=
  let lines := rowLines (s.maxb j) e (s.ent j e).row row
  (s.updEnt j e (fun x => { x with row := row })).updSrv j (fun q => { q with dirty := (q.dirty ++ lines).dedup })

/-! ### The prefix table (R322, R323) -/

/-- The chain value of a prompt block. -/
def State.chainOf (s : State) (j : Nat) (e : SeqEnt) (prev : Nat) (toks : List Nat) : Nat :=
  let ten := (s.cust j e.cust).tenant
  let key := (List.range 4).flatMap (fun w => leBytes 8 (Tab.get zeroNat (s.srvJob j).tkeys (4 * ten + w)))
  let ad := Tab.get AdSlot.zeroF (s.srvJob j).slots e.adapter
  let idv := if e.pinned then leBytes 4 ad.id ++ leBytes 4 ad.ver else leBytes 8 0
  shake (key ++ leBytes 16 prev ++ idv ++ toks.flatMap (leBytes 4)) % 2 ^ 128

def State.pfxWay (s : State) (set w : Nat) : Option PfxEnt := Tab.get noPfx s.prefix_ (16 * set + w)
def State.setWay (s : State) (set w : Nat) (p : PfxEnt) : State :=
  { s with prefix_ := Tab.set noPfx s.prefix_ (16 * set + w) (some p) }

/-- The way that holds a chain value of the job. -/
def State.pfxFind (s : State) (j chain : Nat) : Option (Nat × PfxEnt) :=
  (List.range 16).findSome? (fun w =>
    match s.pfxWay (chain % 16384) w with
    | some p => if p.job = j ∧ p.chain = chain then some (w, p) else none
    | none => none)

/-- Enter a prompt block: in a free way, else in place of the entry with the oldest LAST_USE whose block is CACHED. -/
def State.pfxEnter (s : State) (j chain b step : Nat) : State :=
  let set := chain % 16384
  let new : PfxEnt := ⟨chain, b, j, step⟩
  match (List.range 16).find? (fun w => (s.pfxWay set w).isNone) with
  | some w => s.setWay set w new
  | none =>
    match (List.range 16).foldl (fun (best : Option (Nat × Nat)) w =>
        match s.pfxWay set w with
        | some p =>
          if (s.kv p.job p.block).1 = 2 && (match best with | some (u, _) => decide (p.lastUse < u) | none => true) then
            some (p.lastUse, w)
          else best
        | none => best) none with
    | none => s
    | some (_, w) =>
      match s.pfxWay set w with
      | none => s
      | some old => (if (s.pfxOf old.job old.block).length = 1 then s.setKv old.job old.block (0, 0) else s).setWay set w new

/-! ### The output ring (R330) -/

def State.pushOut (s : State) (j tok seqId pos flags : Nat) : State :=
  s.updSrv j (fun q => { q with out := q.out ++ [⟨q.outNext, tok, seqId, pos, flags⟩], outNext := q.outNext + 1 })

/-! ### What the registers show -/

def State.showSrv (s : State) (j : Nat) : State :=
  let q := s.srvJob j
  ((((s.fset (F.SRV_JOB_COUNT_OUT_FREE j) (65536 - q.out.length)).fset (F.SRV_JOB_COUNT_KV_FREE j) (s.kvFree j)).fset
    (F.SRV_JOB_COUNT_SEQS j) (q.ents.filter (fun e => e.2.st ≠ 0)).length).fset (F.SRV_JOB_STATE_IN_FLIGHT j) q.flight.length).showPfx

/-! ### A lost block (R325) -/

/-- The head ends every sequence whose row lists the lost block. An offset below KV_BASE lies in no block. -/
def State.kvLost (s : State) (j off : Nat) : State :=
  if off < s.fget (F.SRV_JOB_KVLAYOUT_KV_BASE j) then s else
  let b := (off - s.fget (F.SRV_JOB_KVLAYOUT_KV_BASE j)) / max 1 (s.fget (F.SRV_JOB_KVLAYOUT_KV_BYTES j))
  let hit := (s.srvJob j).ents.filter (fun e => (e.2.st = 1 || e.2.st = 2 || e.2.st = 3) && !e.2.dataLost && e.2.row.contains b)
  let s1 := hit.foldl (fun s e =>
    (if e.2.inFlight then s.updEnt j e.1 (fun x => { x with dataLost := true })
     else s.updEnt j e.1 (SeqEnt.ended 2 0)).raise { code := 0x0701, blk := 28, job := some j }) s
  let s2 := s1.dropPfx j b
  (if (s2.kv j b).1 = 2 then s2.setKv j b (0, 0) else s2).showSrv j

/-! ### Reads of the head and the journal (R347) -/

/-- Does the head journal its composition points for a secondary head, or apply a journal? -/
def State.leads (s : State) (j : Nat) : Bool :=
  s.fbit (F.YOK_JOB_CFG_YOKED j) && s.fget (F.YOK_JOB_STATE_STATE j) = 1 && s.fbit F.YOK_CFG_PRIMARY
def State.follows (s : State) (j : Nat) : Bool :=
  s.fbit (F.YOK_JOB_CFG_YOKED j) && !s.fbit F.YOK_CFG_PRIMARY &&
  (s.fget (F.YOK_JOB_STATE_STATE j) = 1 || ((s.yokJob j).takeover && !(s.yokJob j).journal.isEmpty))

/-- The primary head records an item. -/
def State.jot (s : State) (j kind : Nat) (bs : List Byte) : State :=
  if s.leads j then s.updSrv j (fun q => { q with jout := q.jout ++ [(kind, bs)] }) else s

/-- The secondary head takes the next item when it has the kind. -/
def State.takeItem (s : State) (j kind : Nat) : Option (List Byte × State) :=
  match (s.srvJob j).jin with
  | (k, bs) :: rest => if k = kind then some (bs, s.updSrv j (fun q => { q with jin := rest })) else none
  | [] => none

def State.breach (s : State) (j : Nat) : State := s.updSrv j (fun q => { q with jbad := true })

/-- The head reads host memory for a composition; the secondary takes what its primary read. An item without data tells
of a failed read. -/
def State.headRead (s : State) (j : Nat) (h : List HostPiece) (a n : Nat) : Option (List Byte) × State :=
  if s.follows j then
    match s.takeItem j 2 with
    | some (bs, s1) =>
      if leNat (bs.take 8) = a then
        (if bs.length = 8 + n then (some (bs.drop 8), s1) else if bs.length = 8 then (none, s1) else (none, s1.breach j))
      else (none, s1.breach j)
    | none => (none, s.breach j)
  else
    let r := s.hread (s.ring j).port h a n
    (r.1, r.2.jot j 2 (leBytes 8 a ++ r.1.getD []))

end Sys2Proof.Machine
end

