-- ==== Sys2Proof/Machine/Relay.lean ====
section
/-! DEFINITION. The relay: step windows, base beats, suspensions and halts of a job on this device (R301, R303, R305-R310,
R491). -/

namespace Sys2Proof.Machine

/-! ### JOB_CTL packets (R307) -/

/-- A JOB_CTL packet from the hub to a barn: action, stall, word index, value. -/
def State.jobCtl (s : State) (j b act k word v : Nat) : State :=
  s.ctrlSend 7 28 b k (v % 2 ^ 64 + word * 2 ^ 93 + act * 2 ^ 99 + j * 2 ^ 103)

/-- The stalls of the job on this device: of each of its barns, as many as the stall-count parameter says. -/
def State.stallsOf (s : State) (j : Nat) : List (Nat × Nat) :=
  (s.job j).barns.flatMap (fun b => (List.range (s.job j).stallsParam).map (fun k => (b, k)))

/-! ### The window (R308-R310) -/

/-- The words of the window of step `n`, read from its descriptor. -/
def State.windowOf (s : State) (j n base : Nat) : List Nat :=
  let a := s.descAddr j n
  let d := s.hubGet a 64
  let items := (List.range 72).map (fun i => s.hubGet (a + 0x40 + 32 * i) 32)
  let kind (i : Nat) : Nat := field (items.getD i []) 10 1
  let flag (i b : Nat) : Bool := kind i ≠ 0 && bit (field (items.getD i []) 11 1) b
  let all := List.range 72
  let slots := List.range 64
  let mask (p : Nat → Bool) (l : List Nat) : Nat := (l.map (fun i => if p i then 2 ^ (i % 64) else 0)).sum
  let used := mask (fun i => kind i ≠ 0) slots
  let verify := mask (fun i => kind i = 2) slots
  let segs := mask (fun i => kind i ≠ 0) ((List.range 8).map (· + 64))
  let chunk := field d 19 2
  let copies := field d 18 1
  let flags := b2n (segs ≠ 0) + 2 * b2n (verify ≠ 0) + 4 * b2n (copies ≠ 0) + 8 * b2n (all.any (fun i => flag i 2)) +
    16 * b2n (s.srvJob j).resumed + 32 * b2n (used = 0 && segs = 0) + 64 * b2n (all.any (fun i => 64 ≤ i && flag i 0)) +
    128 * b2n (all.any (fun i => flag i 1))
  [field d 0 8, base,
   field d 16 1 % 16 + popCount 64 used * 2 ^ 8 + chunk % 1024 * 2 ^ 16 + popCount 8 segs * 2 ^ 28 + copies % 128 * 2 ^ 32,
   flags, a, (s.infoOf j).seed, used, verify, segs]

/-- Does the relay wait with this step: for the yoke unit to read slot s − 4's digests (R339), or for a suspension at or
before its base beat to begin (R305)? -/
def State.windowWaits (s : State) (j : Nat) : Bool :=
  let q := s.srvJob j
  (s.fbit (F.YOK_JOB_CFG_YOKED j) && (s.yokJob j).read + 4 ≤ q.deliver) ||
  (match q.susp with
   | some (_, p) => p ≤ q.dbase && (s.job j).phase ≠ .suspended
   | none => false)

/-- A suspended job goes on from P (R29, R305). -/
def State.resumeJob (s : State) (j : Nat) : State :=
  match (s.srvJob j).susp with
  | some (_, p) =>
    if (s.job j).phase = .suspended then
      let s1 := s.updJob j (fun jb => { jb with phase := .running, stop := none, origin := s.beat 28 + 32, start := p })
      ((s1.updSrv j (fun q => { q with susp := none })).fset (F.SRV_JOB_STATE_STATE j) 1).fset (F.SRV_JOB_STATE_REASON j) 0
    else s
  | none => s

/-- Deliver the window of the next step and its base beat, and fix the base beat of the step after it (R303, R308). With
the first step after a cutover the device is YOKED again (R351). -/
def State.deliverStep (s : State) (j : Nat) : State :=
  let q := s.srvJob j
  let n := q.deliver
  let ws := s.windowOf j n q.dbase
  let shape := field (s.hubGet (s.descAddr j n) 64) 16 1 % 16
  let next := q.dbase + s.fget (F.SRV_SHAPE_LEN j shape)
  let s1 := s.setCtr (s.stepKey j n) 0
  let s2 := (s1.stallsOf j).foldl (fun s bk =>
    let s3 := (List.range 64).foldl (fun s w => s.jobCtl j bk.1 1 bk.2 w (ws.getD w 0)) s
    s3.jobCtl j bk.1 2 bk.2 0 next) s1
  let s3 := s2.updSrv j (fun q =>
    { q with deliver := n + 1, dbase := next, resumed := false, bases := Tab.set zeroNat q.bases ((n + 1) % 64) next })
  let s4 := s3.updJob j (fun jb => { jb with bounds := (jb.bounds ++ [next]).drop (jb.bounds.length - 63) })
  let y := s4.fget (F.YOK_JOB_STATE_STATE j)
  let s5 := if y = 5 ∨ y = 6 then s4.fset (F.YOK_JOB_STATE_STATE j) 1 else s4
  (if s5.isHead j then s5 else s5.fset (F.SRV_JOB_STATE_STEP j) (n % 2 ^ 32)).resumeJob j

/-- STEP_DESCRIPTOR_ARRIVAL: the gate counter of the next step's slot has reached 1. -/
def execStepDescriptorArrival (j : JobId) (s : State) : Res :=
  .next (if (s.job j).live && (s.job j).haltDue.isNone && 1 ≤ (s.ctr (s.stepKey j (s.srvJob j).deliver)).val && !s.windowWaits j
    then s.deliverStep j else s)

/-! ### At the stall (R60, R66, R307) -/

/-- The oldest JOB_CTL packet of an action on its way to a barn, when the job still owns the barn. -/
def State.takeJobCtl (s : State) (b act : Nat) (f : State → Nat → Nat → Nat → State) : State :=
  match s.ctrlTake (fun c => c.ty = 7 && c.dst = b && bits c.body 102 99 = act) with
  | none => s
  | some (c, s1) =>
    let body := c.body
    if s1.ownsBarn (bits body 105 103) b then f s1 (48 * b + c.stall) (bits body 98 93) (bits body 63 0) else s1

/-- JOB_CTL_WINDOW: a stall takes a word of the next step's window; a word of the window after that one waits. -/
def execJobCtlWindow (b : Barn) (s : State) : Res :=
  .next (s.takeJobCtl b 1 (fun s1 i w v =>
    if bit (s1.stall i).nextGot w then s
    else s1.updStall i (fun t =>
      { t with
        nextWindow := Tab.set zero64 t.nextWindow w (BitVec.ofNat 64 v)
        nextGot := t.nextGot + 2 ^ w
        nextShape := if w = 2 then v % 16 else t.nextShape })))

/-- JOB_CTL_BASE: the base beat of the step after the window's. -/
def execJobCtlBase (b : Barn) (s : State) : Res :=
  .next (s.takeJobCtl b 2 (fun s i _ v => s.updStall i (fun t => { t with nextBase := some v })))

/-- JOB_CTL_SUSPEND: the region's job count stops at P. -/
def execJobCtlSuspend (b : Barn) (s : State) : Res :=
  .next (match s.ctrlTake (fun c => c.ty = 7 && c.dst = b.val && bits c.body 102 99 = 3) with
    | none => s
    | some (c, s1) =>
      let j := bits c.body 105 103
      match (s1.srvJob j).susp with
      | some (_, p) =>
        if p = bits c.body 63 0 ∧ (s1.job j).phase = .running then
          s1.updJob j (fun jb => { jb with stop := some (min p (jb.stop.getD p)) })
        else s1
      | none => s1)

/-- JOB_CTL_HALT: the stalls of the region halt (R31). -/
def execJobCtlHalt (b : Barn) (s : State) : Res :=
  .next (match s.ctrlTake (fun c => c.ty = 7 && c.dst = b.val && bits c.body 102 99 = 4) with
    | none => s
    | some (c, s1) =>
      let j := bits c.body 105 103
      if (s1.job j).phase = .halted then
        ((s1.jobStalls j).filter (fun i => i / 48 = b.val)).foldl (fun s i => s.updStall i Stall.halted) s1
      else s1)

/-! ### Suspension (R29, R30, R305) -/

/-- The relay learns that the job is to suspend at job beat P; for REYOKE a survivor enters CUTOVER (R351). -/
def State.relaySuspend (s : State) (j reason p : Nat) : State :=
  if !(s.job j).live then s
  else if p < s.jobBeat j then s.hubErr j 0x0708 0
  else
    let s0 := if reason = 6 ∧ s.fget (F.YOK_JOB_STATE_STATE j) = 4 then s.fset (F.YOK_JOB_STATE_STATE j) 5 else s
    let s1 := s0.updSrv j (fun q => { q with susp := some (reason, p) })
    let s2 := if (s.job j).phase = .suspended then s1.fset (F.SRV_JOB_STATE_REASON j) reason
      else if (s.job j).phase = .running then s1.updJob j (fun jb => { jb with stop := some (min p (jb.stop.getD p)) })
      else s1
    (s2.job j).barns.foldl (fun s b => s.jobCtl j b 3 63 0 p) s2

/-- SUSPEND: a SUSPEND packet arrives on a port. -/
def execSuspend (p : PortId) (s : State) : Res :=
  .next (s.control p 0x12 (fun s j _ ls => s.relaySuspend j (ctlByte ls 1) (ctlNat ls 8 8)))

/-- Every region of the job has reached a job beat. -/
def State.allReached (s : State) (j p : Nat) : Bool :=
  (28 :: (s.job j).barns).all (fun r => decide (p ≤ s.jobBeatRaw j r))

/-- The granules of a job's lofts that a re-yoke copies, by 32768 × loft + granule: KV and OTHER (R350). -/
def State.copyGranules (s : State) (j : Nat) (p : Nat → Nat → Bool) : List Nat :=
  (s.job j).barns.flatMap (fun n =>
    ((List.range 32768).filter (fun g => Tab.get zeroNat (s.loft n).cls g ≠ 1 && p n g)).map (fun g => 32768 * n + g))

/-- A granule is dirty: its latest write is at or after the beat at which its copy began. -/
def State.dirtyGranule (s : State) (j n g : Nat) : Bool :=
  Tab.get zeroNat (s.yokJob j).copied (32768 * n + g) ≤ Tab.get zeroNat (s.loft n).wrote g &&
  (s.loft n).wrote.any (fun w => w.1 = g)

/-- At P a survivor's key generation advances, and its dirty granules are to be sent (R351). -/
def State.cutoverStart (s : State) (j p : Nat) : State :=
  (s.fset (F.SEC_JOB_STATE_GEN j) ((s.fget (F.SEC_JOB_STATE_GEN j) + 1) % 4096)).updYok j (fun y =>
    { y with todo := s.copyGranules j (s.dirtyGranule j), part := 0, cut := some p })

/-- SUSPEND_BEAT: the job's count has reached P in its regions, and the job is suspended; F goes on from P (R154). -/
def execSuspendBeat (j : JobId) (s : State) : Res :=
  .next (match (s.srvJob j).susp with
    | none => s
    | some (reason, p) =>
      if (s.job j).phase = .running && s.allReached j p && (s.job j).haltDue.isNone then
        let jb := s.job j
        let s1 := jb.barns.foldl (fun s n => s.updLoft n (fun l => { l with fVal := p, fMark := jb.origin + (p - jb.start) })) s
        let s2 := ((s1.updJob j (fun jb => { jb with phase := .suspended, stop := some p })).fset (F.SRV_JOB_STATE_STATE j) 2).fset
          (F.SRV_JOB_STATE_REASON j) reason
        if reason = 6 ∧ s.fget (F.YOK_JOB_STATE_STATE j) = 5 then s2.cutoverStart j p else s2
      else s)

/-! ### Halts (R306, R491) -/

/-- The relay receives HALT with the code of the first halt. -/
def State.relayHalt (s : State) (j : Nat) : State :=
  if (s.job j).live then
    let s1 := s.hubErr j 0x0707 0
    (s1.job j).barns.foldl (fun s b => s.jobCtl j b 4 63 0 0) s1
  else s

/-- HALT: a HALT packet arrives. -/
def execHalt (p : PortId) (s : State) : Res := .next (s.control p 0x11 (fun s j _ _ => s.relayHalt j))

/-- HALT_NOTE: the head passes a halt on to every device of the job, itself included. -/
def execHaltNote (p : PortId) (s : State) : Res :=
  .next (s.control p 0x10 (fun s j _ ls =>
    if s.isHead j then (s.headHalt j (ctlNat ls 1 2)).relayHalt j else s))

/-- KV_LOST: the head learns of a lost block. -/
def execKvLost (p : PortId) (s : State) : Res :=
  .next (s.control p 0x13 (fun s j _ ls => if s.isHead j then s.kvLost j (ctlNat ls 4 4) else s))

/-- JOB_HALT_BOUNDARY: a region reaches the boundary at which a halt is due; the hub's region completes the halt once
every barn of the job has reached it. -/
def execJobHaltBoundary (j : JobId) (r : RegionId) (s : State) : Res :=
  .next (match (s.job j).haltDue with
    | none => s
    | some (code, p) =>
      if r.val = 28 then (if s.allReached j p then s.haltNow j code else s)
      else if (s.job j).barns.contains r.val ∧ p ≤ s.jobBeatRaw j r then
        s.haltRegion j r (s.beat r)
      else s)

end Sys2Proof.Machine
end

