-- ==== Sys2Proof/Machine/Head.lean ====
section
/-! DEFINITION. The head's part of retiring, activating, polling, applying and releasing at a composition point (R304,
R311-R319, R328, R329, R347, R398). -/

namespace Sys2Proof.Machine

/-! ### Retire (R304, R311, R315) -/

/-- Deliver tokens of an item, none after the one that ends the sequence; `drafts` says that all but the last are
accepted drafts. The token sampled from position POS stands at POS + 1. -/
def State.deliverToks (j e : Nat) (drafts : Bool) : List Nat → State → State
  | [], s => s
  | t :: ts, s =>
    let x := s.ent j e
    if x.st = 4 then s
    else
      let pos := x.pos + 1
      let gen := x.gen + 1
      let fin := if (x.stop.filter (· ≠ 0xFFFFFFFF)).contains t then 2
        else if gen = x.maxNew then 1 else if 32 * s.maxb j < pos + 1 then 3 else 0
      let idx := (s.srvJob j).outNext
      let flags := b2n (x.gen = 0) + 2 * b2n (fin ≠ 0) + 4 * b2n (drafts && ts ≠ [])
      let s1 := (s.pushOut j t x.seqId pos flags).updEnt j e (fun x =>
        { x with gen := gen, pos := pos, last := t, outIdx := idx % 2 ^ 32 })
      let s2 := s1.updCust j x.cust (fun c => c.charge c.wd)
      State.deliverToks j e drafts ts (if fin ≠ 0 then s2.updEnt j e (SeqEnt.ended 0 fin) else s2)

/-- A return record breaks its layout for the item (R311). -/
def State.badReturn (s : State) (j : Nat) (i : Item) (embed : Bool) (r : List Byte) : Bool :=
  let count := field r 20 1
  let a := field r 28 4 * 16
  let len := field r 24 4
  (if i.kind = 2 then count = 0 || i.toks.length < count else count ≠ 1) || 4 ≤ field r 21 1 || field r 22 2 ≠ 0 ||
  (embed && (len = 0 || 65536 < len || !s.inMemory (s.ownsBarn j) a len))

/-- Prompt blocks whose last token this step has written enter the prefix table (R323). -/
def State.enterBlocks (j e step : Nat) : Nat → State → State
  | 0, s => s
  | n + 1, s =>
    let x := s.ent j e
    if 32 * (x.hashed + 1) ≤ x.pos ∧ 32 * (x.hashed + 1) ≤ x.plen then
      let chain := s.chainOf j x x.chain ((x.toks.drop (32 * x.hashed)).take 32)
      let s1 := s.pfxEnter j chain (x.row.getD x.hashed 0) step
      State.enterBlocks j e step n (s1.updEnt j e (fun x => { x with chain := chain, hashed := x.hashed + 1 }))
    else s

/-- Blocks beyond the positions written are released (R320). -/
def State.trimRow (s : State) (j e : Nat) : State :=
  let x := s.ent j e
  let n := (x.pos + 31) / 32
  if n < x.row.length ∧ x.st = 3 then ((x.row.drop n).foldl (fun s b => s.dropRef j b) s).setRow j e (x.row.take n) else s

/-- Forks of a request whose LAST_CHUNK has retired go on (R318). -/
def State.wakeForks (s : State) (j e : Nat) : State :=
  let x := s.ent j e
  ((s.srvJob j).ents.filter (fun f => f.2.owner = e && f.2.forkWait && f.2.st = 1)).foldl (fun s f =>
    s.updEnt j f.1 (fun y =>
      { y with st := 3, forkWait := false, pos := x.plen - 1, last := x.toks.getD (x.plen - 1) 0 })) s

/-- The return record of an item is applied (R315). The result of an EMBED sequence goes to the host ahead of its completion
record, whenever that is written (log entry 90). -/
def State.applyReturn (s : State) (j n : Nat) (i : Item) : State :=
  let x := s.ent j i.ent
  let r := s.hubGet (s.retAddr j n i.slot) 32
  if s.badReturn j i x.embed r then s.hubErr j 0x0706 0
  else if bit (field r 21 1) 0 then s.updEnt j i.ent (SeqEnt.ended 0 4)
  else if bit (field r 21 1) 1 then s.updEnt j i.ent (SeqEnt.ended 0 5)
  else if x.embed then
    let len := field r 24 4
    s.updEnt j i.ent (fun x => { x.ended 0 0 with resLen := len, result := s.hubGet (field r 28 4 * 16) len })
  else
    let toks := (List.range (field r 20 1)).map (fun k => field r (4 * k) 4)
    (State.deliverToks j i.ent (i.kind = 2) toks s).trimRow j i.ent

/-- Retire one item: it clears IN_FLIGHT. The return record of a sequence that has lost its data is checked too, and delivers nothing
(R311, R325). A job that has halted retires nothing more (R306). -/
def State.retireItem (s : State) (j n : Nat) (i : Item) : State :=
  if (s.srvJob j).dead then s
  else
  let s0 := s.updEnt j i.ent (fun x => { x with inFlight := false })
  let s1 := if i.kind = 3 then
      State.enterBlocks j i.ent n 17 (s0.updEnt j i.ent (fun x => { x with pos := i.pos + i.toks.length }))
    else s0
  let x := s1.ent j i.ent
  let s2 :=
    if x.dataLost then
      (if (i.kind ≠ 3 || i.lastChunk) && s1.badReturn j i x.embed (s1.hubGet (s1.retAddr j n i.slot) 32) then s1.hubErr j 0x0706 0
       else s1.updEnt j i.ent (SeqEnt.ended 2 0))
    else if i.kind ≠ 3 then s1.applyReturn j n i
    else if i.lastChunk then
      (((s1.updEnt j i.ent (fun x => { x with st := 3, pos := x.plen - 1 })).applyReturn j n i).wakeForks j i.ent)
    else s1
  let y := s2.ent j i.ent
  if (s2.srvJob j).dead then s2 else if y.cancel ∧ y.st ≠ 4 then s2.updEnt j i.ent (SeqEnt.ended 1 0) else s2

/-- Retire every step whose counter is complete, in ascending order; each counter is then zero. -/
def State.retireAll (j : Nat) : Nat → State → State
  | 0, s => s
  | n + 1, s =>
    match (s.srvJob j).flight with
    | [] => s
    | r :: rest =>
      let key := s.retKey j r.step
      if (s.ctr key).val < s.retCount j then s
      else
        let s1 := r.items.foldl (fun s i => s.retireItem j r.step i) s
        State.retireAll j n ((s1.setCtr key 0).updSrv j (fun q => { q with flight := rest }))

/-! ### Command answers (R316) -/

/-- The answer to a command: KIND 1 CANCEL, 2 ADAPTER. -/
def State.answerCmd (s : State) (j tag kind status endc : Nat) : State :=
  s.pushCpl j ⟨0, tag, 0, status, endc, kind, 0, 0, 0xFFFFFFFF, 0, none⟩

/-- A request is refused (R313). -/
def State.refuse (s : State) (j tag seqId endc : Nat) : State :=
  let s1 := s.pushCpl j ⟨0, tag, seqId, 4, endc, 0, 0, 0, 0xFFFFFFFF, 0, none⟩
  if endc = 1 then s1.raise { code := 0x0705, blk := 28, job := some j } else s1

/-! ### Adapter slots (R329, R398, R399) -/

def State.adSlot (s : State) (j i : Nat) : AdSlot := Tab.get AdSlot.zeroF (s.srvJob j).slots i
def State.setAd (s : State) (j i : Nat) (a : AdSlot) : State :=
  s.updSrv j (fun q => { q with slots := Tab.set AdSlot.zeroF q.slots i a })
def State.activeSlot (s : State) (j id : Nat) : Option Nat :=
  (List.range 256).find? (fun i => (s.adSlot j i).st = 2 && (s.adSlot j i).id = id)

/-- A slot becomes FREE: its counter on the head returns to zero and its key context is given back. -/
def State.freeSlot (s : State) (j i : Nat) : State :=
  (((s.setAd j i {}).setCtr (keyGate (s.gateG j + 3 + i)) 0).updSec j (fun c => c.setSlot i none)).showKeys

/-- Every device of the peer set has verified the slot. -/
def State.slotVerified (s : State) (j i : Nat) : Bool :=
  (s.adSlot j i).st = 1 && decide (s.peerCount j ≤ (s.ctr (keyGate (s.gateG j + 3 + i))).val)

def State.activateSlot (s : State) (j i : Nat) : State :=
  let a := s.adSlot j i
  let s1 := match s.activeSlot j a.id with
    | some o => s.setAd j o { s.adSlot j o with st := 3 }
    | none => s
  ((s1.setAd j i { a with st := 2 }).answerCmd j a.tag 2 7 0).jot j 3 (leBytes 1 i)

/-- The slots that the next items of the secondary's journal activate. -/
def State.journalSlots (items : List (Nat × List Byte)) : List Nat :=
  (items.takeWhile (fun x => x.1 = 3)).map (fun x => field x.2 0 1)

/-- Step 2 of R304. -/
def State.activateAll (s : State) (j : Nat) : State :=
  if s.follows j then
    let is_ := State.journalSlots (s.srvJob j).jin
    let s1 := s.updSrv j (fun q => { q with jin := q.jin.drop is_.length })
    is_.foldl (fun s i => s.activateSlot j i) s1
  else ((List.range 256).filter (fun i => s.slotVerified j i)).foldl (fun s i => s.activateSlot j i) s

/-! ### Poll (R363, R370, R371) -/

/-- Latch the commands of the owning host's job ring, at most `n`. -/
def State.pollRing (s : State) (j : Nat) (h : List HostPiece) (n : Nat) : List RingCmd × State :=
  let r := s.ring j
  let c := s.readConsumers j h
  if !c.1 then ([], c.2)
  else
    let s1 := c.2.jot j 6 (leBytes 8 (c.2.ring j).lastO ++ leBytes 8 (c.2.ring j).lastC)
    let p := s1.hindex r.port h r.hd
    match p.1 with
    | none => ([], p.2)
    | some prod =>
      let m := min n (subMod 32 prod (r.cons % 2 ^ 32))
      let l := p.2.latchFrom r.port h r.jb r.jlog r.cons m []
      let es := l.1.1
      let cons := r.cons + es.length
      let s2 := l.2.updRing j (fun r =>
        { r with
          cons := cons
          stall := if l.1.2 = 2 then stallOf r.stall cons s.refNs else none
          stallSaid := r.stallSaid && l.1.2 = 2 && r.stall.map Prod.fst = some cons })
      let s3 := if es = [] then s2
        else (s2.hostWrite r.port (r.hd + 64) (leBytes 4 (cons % 2 ^ 32))).fset (F.HST_CTX_CMD_CONSUMER r.port j) cons
      let s4 := es.foldl (fun s b => s.jot j 1 b) s3
      (es.map (fun b => ⟨field b 4 1, field b 8 8, b⟩), s4)

/-- How many commands the head may latch now (R332, R347, R371). -/
def State.latchMax (s : State) (j : Nat) : Nat :=
  let q := s.srvJob j
  let m := s.fget F.SRV_CFG_POLL_MAX
  let n := if m = 0 then 256 else m
  let used := (q.jout.map (fun x => 4 + x.2.length)).sum
  if 8192 < (q.cpl.filter (fun c => q.cplSent ≤ c.idx)).length then 0
  else if s.leads j then min n ((32768 - 20 - used) / 160) else n

/-- Step 3 of R304: poll, or take the journal's commands. -/
def State.poll (s : State) (j : Nat) (h : List HostPiece) : List RingCmd × State :=
  if s.follows j then
    let items := (s.srvJob j).jin
    let six := items.takeWhile (fun x => x.1 = 6)
    let s1 := match six.getLast? with
      | some x => (s.consumed j (field x.2 8 8) (field x.2 0 8)).updYok j (fun y =>
          { y with consO := field x.2 0 8, consC := field x.2 8 8 })
      | none => s
    let rest := items.drop six.length
    let cs := rest.takeWhile (fun x => x.1 = 1)
    let s2 := s1.updSrv j (fun q =>
      { q with jin := rest.drop cs.length, cplSent := max q.cplSent (s1.yokJob j).consC, outSent := max q.outSent (s1.yokJob j).consO })
    (cs.map (fun x => ⟨field x.2 4 1, field x.2 8 8, x.2⟩), s2)
  else if !(s.srvJob j).dead && s.ringUp j && s.canRead (s.ring j).port then s.pollRing j h (s.latchMax j)
  else ([], s)

/-! ### Apply (R313, R319, R328, R329) -/

/-- A request record that breaks its layout (R312). -/
def badRequest (r : List Byte) : Bool :=
  let embed := bit (field r 15 1) 0
  field r 14 1 = 0 || 16 < field r 14 1 || 4 ≤ field r 15 1 || field r 16 4 = 0 || (!embed && field r 20 4 = 0) ||
  4 ≤ field r 36 1 || field r 37 3 ≠ 0 || field r 72 8 ≠ 0 || 4096 ≤ field r 12 2

/-- SUBMIT. -/
def State.submit (s : State) (j : Nat) (h : List HostPiece) (c : RingCmd) : State :=
  let rd := s.headRead j h (field c.body 16 8) 80
  match rd.1 with
  | none => rd.2.refuse j c.tag 0 1
  | some r =>
    let s1 := rd.2
    let tag := field r 0 8
    let id := field r 8 4
    let n := field r 14 1
    let ids := (List.range n).map (fun i => (id + i) % 2 ^ 32)
    let ents := (s1.srvJob j).ents
    let ad := field r 32 4
    let slot := s1.activeSlot j ad
    if badRequest r then s1.refuse j tag id 1
    else if !(s1.cust j (field r 12 2)).valid then s1.refuse j tag id 2
    else if ents.any (fun e => e.2.st ≠ 0 && ids.contains e.2.seqId) then s1.refuse j tag id 3
    else if 4096 < (ents.filter (fun e => e.2.st ≠ 0)).length + n then s1.refuse j tag id 4
    else if 32 * s1.maxb j < field r 16 4 + 1 then s1.refuse j tag id 5
    else if ad ≠ 0 && slot.isNone then s1.refuse j tag id 6
    else
      let idx := ((List.range 4096).filter (fun i => (s1.ent j i).st = 0)).take n
      let own := idx.headD 0
      let first := (s1.srvJob j).admNo
      let s2 := idx.zipIdx.foldl (fun s x =>
        s.updEnt j x.1 (fun _ =>
          { tag := tag, seqId := (id + x.2) % 2 ^ 32, st := 1, cust := field r 12 2, plen := field r 16 4
            maxNew := field r 20 4, adapter := slot.getD 0, routine := field r 36 1, t := field r 40 4, kp := field r 44 4
            stop := (List.range 4).map (fun k => field r (48 + 4 * k) 4), prompt := field r 24 8, owner := own
            admNo := first + x.2, resAddr := field r 64 8, embed := bit (field r 15 1) 0, ratio := bit (field r 15 1) 1
            forkWait := x.2 ≠ 0, pinned := ad ≠ 0 })) s1
      let s3 := s2.updSrv j (fun q => { q with admNo := first + n })
      match (if ad = 0 then none else slot) with
      | some i => s3.setAd j i { s3.adSlot j i with pins := (s3.adSlot j i).pins + n }
      | none => s3

/-- CANCEL. -/
def State.cancel (s : State) (j : Nat) (c : RingCmd) : State :=
  let tag := field c.body 16 8
  let hit := (s.srvJob j).ents.filter (fun e => e.2.st ≠ 0 && e.2.tag = tag)
  if hit = [] then s.answerCmd j tag 1 6 0
  else
    let s1 := hit.foldl (fun s e =>
      if e.2.st = 4 then s
      else if e.2.inFlight then s.updEnt j e.1 (fun x => { x with cancel := true })
      else s.updEnt j e.1 (SeqEnt.ended 1 0)) s
    s1.updSrv j (fun q => { q with cancels := q.cancels ++ [(tag, hit.map Prod.fst, true)] })

/-- DRAFT. -/
def State.draft (s : State) (j : Nat) (c : RingCmd) : State :=
  let n := field c.body 24 1
  match (s.srvJob j).ents.find? (fun e => e.2.st = 3 && e.2.seqId = field c.body 16 4) with
  | none => s
  | some e =>
    if n = 0 ∨ 4 < n then s.raise { code := 0x0705, blk := 28, job := some j }
    else s.updEnt j e.1 (fun x =>
      { x with drafts := some (field c.body 20 4, (List.range n).map (fun k => field c.body (28 + 4 * k) 4),
          (List.range n).map (fun k => field c.body (44 + 4 * k) 4)) })

/-- The manifest that an ADAPTER_LOAD names, read in two parts. -/
def State.readManifest (s : State) (j : Nat) (h : List HostPiece) (a : Nat) : Option (List Byte) × State :=
  let hd := s.headRead j h a 64
  match hd.1 with
  | none => (none, hd.2)
  | some m =>
    let len := 64 + 32 + 1952 + 1664 * mfDevices m + 64 * mfShards m + 3309
    if len ≤ 16777216 then hd.2.headRead j h a len else (some m, hd.2)

/-- ADAPTER_LOAD: the lowest FREE slot is set LOADING, the manifest checked, and the slot's notice sent (R329, R398). -/
def State.adapterLoad (s : State) (j : Nat) (h : List HostPiece) (c : RingCmd) : State :=
  let id := field c.body 16 4
  let ver := field c.body 20 4
  match (List.range 256).find? (fun i => (s.adSlot j i).st = 0) with
  | none => s.answerCmd j c.tag 2 4 1
  | some i =>
    let rd := s.readManifest j h (field c.body 24 8)
    let code := match rd.1 with
      | none => 1
      | some m => rd.2.mfCheck j 1 i m (id ≠ 0 && field m 16 4 = id && field m 20 4 = ver)
    if code ≠ 0 then (rd.2.raise { code := 0x0A03, blk := 28, job := some j }).answerCmd j c.tag 2 4 1
    else
      let s1 := rd.2.setAd j i ⟨id, ver, 1, 0, c.tag, s.refNs⟩
      s1.hubSendAll j (s1.areaOf j + 0x40 + 64 * i) 0 (s1.gateG j + 2) 1 true (noticeLine true id ver (shake (rd.1.getD [])))

/-- ADAPTER_RETIRE. -/
def State.adapterRetire (s : State) (j : Nat) (c : RingCmd) : State :=
  match s.activeSlot j (field c.body 16 4) with
  | some i => (s.setAd j i { s.adSlot j i with st := 3 }).answerCmd j c.tag 2 7 0
  | none => s.answerCmd j c.tag 2 6 0

/-- One latched command (R370). -/
def State.applyCmd (s : State) (j : Nat) (h : List HostPiece) (c : RingCmd) : State :=
  if c.op = 1 then s.submit j h c
  else if c.op = 2 then s.cancel j c
  else if c.op = 3 then s.draft j c
  else if c.op = 4 then s.adapterLoad j h c
  else if c.op = 5 then s.adapterRetire j c
  else if c.op = 6 then s.updSrv j (fun q => { q with pause := some (field c.body 16 8, field c.body 24 8) })
  else s.refuse j c.tag 0 1

/-! ### Release (step 5 of R304) -/

/-- A released entry is taken off the cancels that name it. -/
def noteCancel (e status : Nat) (c : Nat × List Nat × Bool) : Nat × List Nat × Bool :=
  if c.2.1.contains e then (c.1, c.2.1.filter (· ≠ e), c.2.2 && status = 0) else c

/-- Answer the cancels all of whose entries have been released (R328). -/
def State.answerCancels (s : State) (j : Nat) : State :=
  let done := (s.srvJob j).cancels.filter (fun c => c.2.1 = [])
  done.foldl (fun s c => s.answerCmd j c.1 1 (if c.2.2 then 5 else 1) 0)
    (s.updSrv j (fun q => { q with cancels := q.cancels.filter (fun c => c.2.1 ≠ []) }))

def State.releaseEnt (s : State) (j e : Nat) : State :=
  let x := s.ent j e
  let s1 := s.pushCpl j (cplOf x)
  let s2 := if x.pinned then s1.setAd j x.adapter { s1.adSlot j x.adapter with pins := (s1.adSlot j x.adapter).pins - 1 } else s1
  let s3 := (x.row.foldl (fun s b => s.dropRef j b) s2).updSrv j (fun q =>
    { q with
      ents := Tab.set SeqEnt.zeroF q.ents e {}
      cancels := q.cancels.map (noteCancel e x.status) })
  s3.answerCancels j

/-- Release every sequence that has reached DONE, then every RETIRING slot without pins. -/
def State.releaseAll (s : State) (j : Nat) : State :=
  let s1 := ((s.srvJob j).ents.filter (fun e => e.2.st = 4)).foldl (fun s e => s.releaseEnt j e.1) s
  ((List.range 256).filter (fun i => (s1.adSlot j i).st = 3 && (s1.adSlot j i).pins = 0)).foldl (fun s i => s.freeSlot j i) s1

end Sys2Proof.Machine
end

