-- ==== Sys2Proof/Machine/Compose.lean ====
section
/-! DEFINITION. Suspending, refilling, starting, composing and sending a step, the journal entry, and the composition
point itself (R303-R305, R308, R309, R317-R321, R324, R326, R327, R347, R348). -/

namespace Sys2Proof.Machine

/-! ### Shapes (R302, R303) -/

def State.shapeOk (s : State) (j k : Nat) : Bool := s.fbit (F.SRV_SHAPE_VALID j k)
def State.slotsOf (s : State) (j k : Nat) : Nat := s.fget (F.SRV_SHAPE_DSLOTS j k)

/-! ### Refill (R326) -/

def Cust.refill (elapsed : Nat) (c : Cust) : Cust :=
  let t := elapsed * c.rate + c.rem
  { c with level := min (c.level + (t / 1000000 : Nat)) (c.burst : Int), rem := t % 1000000 }

/-- The budgets are refilled with the station time since the last refill; the secondary takes its primary's. -/
def State.refill (s : State) (j : Nat) : State :=
  let all (elapsed : Nat) (s : State) : State :=
    s.updSrv j (fun q =>
      { q with
        refill := s.nowNs
        custs := q.custs.map (fun c => if c.2.valid then (c.1, c.2.refill elapsed) else c) })
  if s.follows j then
    match s.takeItem j 4 with
    | some (bs, s1) => all (leNat bs) s1
    | none => s.breach j
  else
    let e := s.nowNs - (s.srvJob j).refill
    (all e s).jot j 4 (leBytes 8 e)

/-- A list in ascending order of a key, equal keys in the order in which they stood. -/
def insBy {α : Type} (f : α → Nat) (a : α) : List α → List α
  | [] => [a]
  | b :: bs => if f b ≤ f a then b :: insBy f a bs else a :: b :: bs
def sortBy {α : Type} (f : α → Nat) (l : List α) : List α := l.foldl (fun acc a => insBy f a acc) []

/-! ### Starting sequences (R317, R318, R323) -/

/-- Look up the prefix of a prompt: hits so far, chain value, tokens read; the last answer is false when a read fails. -/
def State.lookup (j : Nat) (h : List HostPiece) (e : Nat) : Nat → State → List (Nat × Nat) → Nat → List Nat →
    (List (Nat × Nat) × Nat × List Nat × Bool) × State
  | 0, s, hits, chain, toks => ((hits, chain, toks, true), s)
  | n + 1, s, hits, chain, toks =>
    let x := s.ent j e
    let rd := s.headRead j h (x.prompt + 128 * hits.length) 128
    match rd.1 with
    | none => ((hits, chain, toks, false), rd.2)
    | some bs =>
      let blk := (List.range 32).map (fun i => field bs (4 * i) 4)
      let c := rd.2.chainOf j x chain blk
      match rd.2.pfxFind j c with
      | some (w, p) => State.lookup j h e n rd.2 (hits ++ [(16 * (c % 16384) + w, p.block)]) c (toks ++ blk)
      | none => ((hits, chain, toks ++ blk, true), rd.2)

/-- A prompt read of a sequence has failed: after the third in a row it ends with DATA_LOST (R373), and with it the forks that wait
for its prompt (DESIGN CHOICE, log entry 69). -/
def State.promptFailed (s : State) (j e : Nat) : State :=
  if 3 ≤ (s.ent j e).fails + 1 then
    ((s.srvJob j).ents.filter (fun f => f.2.owner = e && f.1 ≠ e && f.2.forkWait && f.2.st = 1)).foldl (fun s f =>
      s.updEnt j f.1 (SeqEnt.ended 2 0)) (s.updEnt j e (SeqEnt.ended 2 0))
  else s.updEnt j e (fun x => { x with fails := x.fails + 1 })

/-- Start a QUEUED fork-0 entry: whether it could be started. -/
def State.startEnt (s : State) (j : Nat) (h : List HostPiece) (e : Nat) : Bool × State :=
  let x := s.ent j e
  let lk := State.lookup j h e ((x.plen - 1) / 32) s [] 0 []
  let hits := lk.1.1
  let s1 := lk.2
  if !lk.1.2.2.2 then (false, s1.promptFailed j e)
  else
    let step := (s.srvJob j).next
    let s2 := hits.foldl (fun s hit =>
      { s.addRef j hit.2 with
        prefix_ := Tab.upd noPfx (s.addRef j hit.2).prefix_ hit.1 (fun p => p.map (fun p => { p with lastUse := step })) }) s1
    let need := (x.plen + 31) / 32 - hits.length
    if s2.kvFree j < need + s.fget F.SRV_CFG_KV_RESERVE then (false, s1)
    else match State.takeBlks j need s2 [] with
      | none => (false, s1)
      | some (new, s3) =>
        let row := hits.map Prod.snd ++ new
        let s4 := (s3.updEnt j e (fun x =>
          { x with
            st := 2, fails := 0, pos := 32 * hits.length, cached := 32 * hits.length, hashed := hits.length
            chain := lk.1.2.1, toks := lk.1.2.2.1 })).setRow j e row
        let forks := (s4.srvJob j).ents.filter (fun f => f.2.owner = e && f.1 ≠ e && f.2.forkWait && f.2.st = 1)
        let s5 := forks.foldl (fun s f =>
          (row.foldl (fun s b => s.addRef j b) (s.updEnt j f.1 (fun y => { y with cached := 32 * hits.length }))).setRow j f.1 row) s4
        (true, s5.fwrap F.SRV_PREFIX_HITS hits.length)

/-- QUEUED fork-0 entries in ascending admission order. -/
def State.queuedEnts (s : State) (j : Nat) : List Nat :=
  let q := (s.srvJob j).ents.filter (fun e => e.2.st = 1 && !e.2.forkWait)
  (sortBy (fun e => e.2.admNo) q).map Prod.fst

/-- Start them until one cannot be started. -/
def State.startAll (j : Nat) (h : List HostPiece) : List Nat → State → State
  | [], s => s
  | e :: es, s =>
    let r := s.startEnt j h e
    if r.1 then State.startAll j h es r.2 else r.2

/-! ### Eligibility (R315, R320, R324) -/

/-- Blocks that an item at the entry's POS with `n` tokens needs: new ones, and one for a shared block that it writes. -/
def State.needs (s : State) (j : Nat) (x : SeqEnt) (n : Nat) : Nat :=
  let shared : Bool := x.pos / 32 < x.row.length && 1 < (s.kv j (x.row.getD (x.pos / 32) 0)).2
  ((x.pos + n + 31) / 32 - x.row.length) + b2n (x.st = 3 && shared)

/-- Input tokens of a DECODE or VERIFY item in a shape with `v` draft tokens (R319). -/
def SeqEnt.ntok (v : Nat) (x : SeqEnt) : Nat :=
  match x.drafts with
  | some (q, toks, _) => if 0 < v ∧ q = x.pos + 1 then 1 + min toks.length v else 1
  | none => 1

/-- May the entry be composed? -/
def State.eligible (s : State) (j v : Nat) (x : SeqEnt) : Bool :=
  (x.st = 2 || x.st = 3) && !x.inFlight && !x.forkWait && !x.cancel &&
  decide ((if x.st = 3 then s.needs j x (x.ntok v) else 0) ≤ s.kvFree j)

def State.anyEligible (s : State) (j v : Nat) (p : SeqEnt → Bool) : Bool :=
  (s.srvJob j).ents.any (fun e => p e.2 && s.eligible j v e.2)

/-- The shape of the next step (R303). -/
def State.chooseShape (s : State) (j : Nat) : Option Nat :=
  let ok := (List.range 16).filter (s.shapeOk j)
  match ok.find? (fun k =>
      let v := s.fget (F.SRV_SHAPE_VTOK j k)
      (s.fget (F.SRV_SHAPE_CHUNK j k) = 0 || s.anyEligible j v (fun x => x.st = 2)) &&
      (v = 0 || s.anyEligible j v (fun x => x.drafts.isSome)) &&
      (s.slotsOf j k ≠ 0 || !s.anyEligible j v (fun x => x.st = 3))) with
  | some k => some k
  | none => ok.head?

/-! ### Composition (R327) -/

/-- What a step's shape still has free, and its items. -/
structure Comp where
  shape : Nat
  vtok : Nat
  slots : Nat
  segs : Nat
  chunk : Nat
  nslot : Nat := 0
  nseg : Nat := 0
  items : List Item := []
  deriving DecidableEq, Repr

def Comp.fits (c : Comp) (x : SeqEnt) : Bool :=
  if x.st = 3 then c.nslot < c.slots else 0 < c.chunk && c.nseg < c.segs

/-- Tokens and cost of the entry's item. -/
def Comp.tokens (c : Comp) (x : SeqEnt) : Nat := if x.st = 3 then x.ntok c.vtok else min (x.plen - x.pos) c.chunk
def Comp.cost (c : Comp) (cu : Cust) (x : SeqEnt) : Nat := (if x.st = 3 then cu.wd else cu.wp) * c.tokens x

/-- A customer's items in order: DECODE and VERIFY by entry, then PREFILL by admission. -/
def State.itemsOf (s : State) (j v cu : Nat) : List Nat :=
  let es := (s.srvJob j).ents.filter (fun e => e.2.cust = cu && s.eligible j v e.2 && !(s.srvJob j).skip.contains e.1)
  (es.filter (fun e => e.2.st = 3)).map Prod.fst ++
  (sortBy (fun e => e.2.admNo) (es.filter (fun e => e.2.st = 2))).map Prod.fst

/-- Blocks for an item are taken; a shared block that it writes is replaced by a copy (R320, R324). -/
def State.giveBlocks (s : State) (j e n : Nat) : Option State :=
  let x := s.ent j e
  let i := x.pos / 32
  let old := x.row.getD i 0
  let s1? : Option State :=
    if i < x.row.length ∧ 1 < (s.kv j old).2 then
      (match s.takeBlk j with
       | some (b, s1) =>
         let s2 := (s1.dropRef j old).setRow j e (x.row.set i b)
         some (if x.pos % 32 = 0 then s2 else s2.updSrv j (fun q => { q with copies := q.copies ++ [(old, b, x.pos % 32)] }))
       | none => none)
    else some s
  match s1? with
  | none => none
  | some s1 =>
    let row := (s1.ent j e).row
    let more := (x.pos + n + 31) / 32 - row.length
    if more = 0 then some s1
    else match State.takeBlks j more s1 [] with
      | some (bs, s2) => some (s2.setRow j e (row ++ bs))
      | none => none

/-- Compose an item of an entry: none when its prompt cannot be read or a block cannot be had. -/
def State.composeItem (s : State) (j : Nat) (h : List HostPiece) (c : Comp) (e : Nat) : Bool × Comp × State :=
  let x := s.ent j e
  let n := c.tokens x
  let mark (toks probs : List Nat) (kind slot : Nat) (last : Bool) (s : State) : Comp × State :=
    ({ c with
       nslot := if kind = 3 then c.nslot else c.nslot + 1
       nseg := if kind = 3 then c.nseg + 1 else c.nseg
       chunk := if kind = 3 then c.chunk - n else c.chunk
       items := c.items ++ [⟨slot, e, kind, x.pos, toks, probs, last⟩] },
     s.updEnt j e (fun x => { x with inFlight := true, drafts := none, fails := 0 }))
  if x.st = 3 then
    match s.giveBlocks j e n with
    | none => (false, c, s.updSrv j (fun q => { q with skip := q.skip ++ [e] }))
    | some s1 =>
      let d := x.drafts.getD (0, [], [])
      if n = 1 then (true, mark [x.last] [] 1 c.nslot false s1)
      else (true, mark (x.last :: d.2.1.take (n - 1)) (d.2.2.take (n - 1)) 2 c.nslot false s1)
  else
    let have_ := min x.toks.length x.pos
    let rd := s.headRead j h (x.prompt + 4 * have_) (4 * (x.pos - have_ + n))
    match rd.1 with
    | none =>
      (false, c, (rd.2.updSrv j (fun q => { q with skip := q.skip ++ [e] })).promptFailed j e)
    | some bs =>
      let all := x.toks.take have_ ++ (List.range (x.pos - have_ + n)).map (fun i => field bs (4 * i) 4)
      let s1 := rd.2.updEnt j e (fun x => { x with toks := all })
      (true, mark (all.drop x.pos) [] 3 (64 + c.nseg) (x.pos + n = x.plen) s1)

/-- Serve a customer's items in order until one costs more than its deficit. -/
def State.serveItems (j : Nat) (h : List HostPiece) (cu : Nat) : List Nat → Bool → Comp → State → Bool × Comp × State
  | [], served, c, s => (served, c, s)
  | e :: es, served, c, s =>
    let x := s.ent j e
    let u := s.cust j cu
    if !s.eligible j c.vtok x || !c.fits x then State.serveItems j h cu es served c s
    else if u.defi < c.cost u x then (served, c, s)
    else
      let r := s.composeItem j h c e
      if r.1 then
        let cost := c.cost u x
        let s1 := r.2.2.updCust j cu (fun u =>
          let v := { u with defi := u.defi - cost }
          if x.st = 2 then v.charge cost else v)
        State.serveItems j h cu es true r.2.1 s1
      else State.serveItems j h cu es served r.2.1 r.2.2

/-- One turn of a customer: the deficit grows, its items are served, and it leaves when it has none left. -/
def State.turn (j : Nat) (h : List HostPiece) (cu : Nat) (d : (List Nat × Option Nat) × Comp × State) :
    (List Nat × Option Nat) × Comp × State :=
  let c := d.2.1
  let s := d.2.2.updCust j cu (fun u => { u with defi := u.defi + d.2.2.fget F.SRV_CFG_QUANTUM })
  let r := State.serveItems j h cu (s.itemsOf j c.vtok cu) false c s
  let last := if r.1 then some cu else d.1.2
  if r.2.2.itemsOf j c.vtok cu = [] then
    ((d.1.1.filter (· ≠ cu), last), r.2.1, r.2.2.updCust j cu (fun u => { u with defi := 0 }))
  else ((d.1.1, last), r.2.1, r.2.2)

/-- The rounds. The fuel exceeds the number of rounds that deficits can need: a quantum is at least 256 and an item costs
less than 2^25. -/
def State.rounds (j : Nat) (h : List HostPiece) : Nat → (List Nat × Option Nat) × Comp × State →
    (List Nat × Option Nat) × Comp × State
  | 0, d => d
  | n + 1, d =>
    if d.1.1.any (fun cu => (d.2.2.itemsOf j d.2.1.vtok cu).any (fun e => d.2.1.fits (d.2.2.ent j e))) then
      State.rounds j h n (d.1.1.foldl (fun d cu => State.turn j h cu d) d)
    else d

/-- Customers that take part, in ring order. -/
def State.activeCusts (s : State) (j v : Nat) : List Nat :=
  let q := s.srvJob j
  let cs := (q.custs.filter (fun c => c.2.valid && 0 < c.2.level && s.itemsOf j v c.1 ≠ [])).map Prod.fst
  cs.filter (q.rr ≤ ·) ++ cs.filter (· < q.rr)

/-! ### The step descriptor (R308, R309, R321) -/

/-- The record of an item; `off` is its place in the token array. -/
def State.itemBytes (s : State) (j : Nat) (i : Item) (off : Nat) : List Byte :=
  let x := s.ent j i.ent
  let flags := b2n i.lastChunk + 2 * b2n x.embed + 4 * b2n x.pinned + 8 * b2n x.ratio
  leBytes 4 x.seqId ++ leBytes 4 i.pos ++ leBytes 2 i.ent ++ leBytes 1 i.kind ++ leBytes 1 flags ++ leBytes 2 off ++
  leBytes 2 i.toks.length ++ leBytes 4 x.row.length ++ leBytes 1 (if x.pinned then x.adapter else 0) ++
  leBytes 1 x.routine ++ leBytes 2 0 ++ leBytes 4 x.t ++ leBytes 4 x.kp

/-- Items by slot, segments after the slots. -/
def slotOrder (is_ : List Item) : List Item := sortBy Item.slot is_

/-- The 16 KiB of a descriptor. STEP_SEQ counts the steps begun since launch with this one (R53, R310). -/
def State.descriptor (s : State) (j : Nat) (c : Comp) : List Byte :=
  let q := s.srvJob j
  let is_ := slotOrder c.items
  let off (i : Item) : Nat := ((is_.takeWhile (fun y => y.slot ≠ i.slot)).map (fun y => y.toks.length)).sum
  let rec_ (n : Nat) : List Byte := match is_.find? (fun i => i.slot = n) with
    | some i => s.itemBytes j i (off i)
    | none => leBytes 32 0
  let probs (n : Nat) : List Byte := match is_.find? (fun i => i.slot = n) with
    | some i => pad 16 (i.probs.flatMap (leBytes 4))
    | none => leBytes 16 0
  let segToks := ((is_.filter (fun i => i.kind = 3)).map (fun i => i.toks.length)).sum
  pad 64 (leBytes 8 (q.next + 1) ++ leBytes 8 q.base ++ leBytes 1 c.shape ++ leBytes 1 c.nseg ++ leBytes 1 q.copies.length ++
    leBytes 2 segToks) ++
  (List.range 72).flatMap rec_ ++
  pad 1024 (q.copies.flatMap (fun x => leBytes 4 x.1 ++ leBytes 4 x.2.1 ++ leBytes 2 x.2.2 ++ leBytes 6 0)) ++
  leBytes 0x2C0 0 ++ pad 4096 (is_.flatMap (fun i => i.toks.flatMap (leBytes 4))) ++
  pad 8192 ((List.range 64).flatMap probs)

/-- A WRITE of whole lines to the job's group, four to a packet (R308, R321). -/
def State.groupWrite (s : State) (j addr epoch sig inc : Nat) (fence : Bool) (bs : List Byte) : State :=
  let n := (bs.length + 255) / 256
  (List.range n).foldl (fun s i =>
    let part := (bs.drop (256 * i)).take 256
    let last : Bool := i + 1 = n
    s.originate j (.group (s.fget (F.SRV_JOB_CFG_GROUP j)))
      { kind := 0, addr := addr + 256 * i, epoch := epoch, fence := fence && last
        sigidx := (if last then sig else 0), siginc := (if last then inc else 0) }
      (bytesLines ((part.length + 63) / 64) part)) s

/-- The KV map as the head holds it: word `w` of the map. -/
def State.mapWord (s : State) (j w : Nat) : Nat :=
  let m := max 1 (s.maxb j)
  (s.ent j (w / m)).row.getD (w % m) 0

/-- Send the step: changed lines of the map with epoch 0, then the descriptor with its fence and signal. -/
def State.sendStep (s : State) (j : Nat) (c : Comp) : State :=
  let q := s.srvJob j
  let s1 := q.dirty.foldl (fun s l =>
    s.groupWrite j (s.fget (F.SRV_JOB_KV_KVMAP j) * 4096 + 64 * l) 0 0 0 false
      ((List.range 16).flatMap (fun i => leBytes 4 (s.mapWord j (16 * l + i))))) s
  s1.groupWrite j (s.descAddr j q.next) (q.next % 16) (s.stepKey j q.next - keyGate 0) 1 true (s.descriptor j c)

/-- Compose the next step and send it. -/
def State.composeStep (s : State) (j : Nat) (h : List HostPiece) : State :=
  match s.chooseShape j with
  | none => s
  | some k =>
    let c : Comp :=
      { shape := k, vtok := s.fget (F.SRV_SHAPE_VTOK j k), slots := s.slotsOf j k, segs := s.fget (F.SRV_SHAPE_SEGS j k)
        chunk := s.fget (F.SRV_SHAPE_CHUNK j k) }
    let s0 := s.updSrv j (fun q => { q with skip := [], copies := [] })
    let d := State.rounds j h 10000000 ((s0.activeCusts j c.vtok, none), c, s0)
    let rr := match d.1.2 with | some l => (l + 1) % 4096 | none => (s.srvJob j).rr
    let s1 := d.2.2.updSrv j (fun q => { q with rr := rr })
    let s2 := s1.sendStep j d.2.1
    let n := (s2.srvJob j).next
    (s2.updSrv j (fun q =>
      { q with
        flight := q.flight ++ [⟨n, k, q.base, slotOrder d.2.1.items⟩], next := n + 1
        base := q.base + s2.fget (F.SRV_SHAPE_LEN j k), lastShape := some k, reason := 0, dirty := [], copies := [], skip := [] })).fset
      (F.SRV_JOB_STATE_STEP j) (n % 2 ^ 32)

/-! ### Exhaustion (R320) -/

/-- With no step in flight and no DECODE sequence able to obtain its block, the DECODE sequence with the highest
admission number ends, until one can go on or none is left. -/
def State.exhaust (j : Nat) : Nat → State → State
  | 0, s => s
  | n + 1, s =>
    let ds := (s.srvJob j).ents.filter (fun e => e.2.st = 3 && !e.2.cancel)
    if (s.srvJob j).flight ≠ [] ∨ ds = [] ∨ ds.any (fun e => s.eligible j 0 e.2) = true then s
    else match ds.foldl (fun (b : Option (Nat × SeqEnt)) e =>
        match b with
        | some x => if x.2.admNo < e.2.admNo then some e else b
        | none => some e) none with
      | none => s
      | some e =>
        let s1 := (s.updEnt j e.1 (SeqEnt.ended 8 0)).raise { code := 0x0702, blk := 28, job := some j }
        State.exhaust j n (s1.releaseEnt j e.1)

/-! ### Suspension (R305) -/

/-- The largest number of output entries that a VALID shape can yield. -/
def State.stepOutputs (s : State) (j : Nat) : Nat :=
  maxOf 0 (((List.range 16).filter (s.shapeOk j)).map (fun k =>
    s.slotsOf j k * (s.fget (F.SRV_SHAPE_VTOK j k) + 1) + s.fget (F.SRV_SHAPE_SEGS j k)))

/-- Did the last step end at a point where the job may be paused or cut over (R281)? -/
def State.pausable (s : State) (j : Nat) : Bool :=
  match (s.srvJob j).lastShape with
  | some k => s.fbit (F.SRV_SHAPE_PAUSABLE j k)
  | none => true

/-- Every survivor of the plane has reported phase 0 (R351). -/
def State.cutoverDue (s : State) (j : Nat) : Bool :=
  s.fget (F.YOK_JOB_STATE_STATE j) = 4 && (s.pausable j) &&
  (((s.peersOf j).filter (· ≠ s.devId)) ++ [s.devId]).all (fun d => (s.yokJob j).ready0.contains d)

/-- The reason for a suspension, but for IDLE (R305, R341, R351); 0 for none. -/
def State.reasonFor (s : State) (j : Nat) : Nat :=
  let q := s.srvJob j
  let y := s.fget (F.YOK_JOB_STATE_STATE j)
  if y = 3 ∨ (s.yokJob j).mismatch.isSome then 5
  else if y = 5 ∨ s.cutoverDue j then 6
  else if q.pause.isSome ∧ s.pausable j = true then 4
  else if (s.hst (s.ring j).port).absent then 2
  else if 65536 - q.out.length < (q.flight.length + 1) * s.stepOutputs j then 3
  else 0

/-- The head suspends the job at P, the base beat that the next step would have. -/
def State.suspendFor (s : State) (j reason : Nat) : State :=
  let q := s.srvJob j
  let s0 := s.jot j 5 (leBytes 4 reason)
  if q.reason = reason then s0
  else
    let s1 := if reason = 2 then s0.hubErr j 0x0704 0 else if reason = 3 then s0.hubErr j 0x0703 0 else s0
    let s2 := s1.updSrv j (fun q => { q with reason := reason })
    let s3 := s2.fsetB (F.HST_CTX_SUSPENDED_ABSENT (s.ring j).port j) (reason = 2)
    (s3.controlPeers j 0x12 (leBytes 1 reason ++ leBytes 6 0 ++ leBytes 8 q.base)).relaySuspend j reason q.base

/-- No step is in flight, and no sequence is eligible for the shape that the next step would have (R303, R305). -/
def State.nothingToDo (s : State) (j : Nat) : Bool :=
  (s.srvJob j).flight.isEmpty &&
  !s.anyEligible j (((s.chooseShape j).map (fun k => s.fget (F.SRV_SHAPE_VTOK j k))).getD 0) (fun _ => true)

/-- Step 6 of R304: suspend, or refill, start, compose and send. -/
def State.suspendOrCompose (s : State) (j : Nat) (h : List HostPiece) : State :=
  let go (s : State) : State :=
    let s1 := s.refill j
    let s2 := State.exhaust j 4096 (State.startAll j h (s1.queuedEnts j) s1)
    if !s2.follows j && s2.nothingToDo j then s2.suspendFor j 1
    else
      match (if s2.follows j then s2.takeItem j 5 else none) with
      | some (bs, s3) => s3.suspendFor j (leNat bs)
      | none =>
        let s3 := if (s2.srvJob j).reason = 2 then s2.fset (F.HST_CTX_SUSPENDED_ABSENT (s2.ring j).port j) 0 else s2
        s3.composeStep j h
  if s.follows j then
    match s.takeItem j 5 with
    | some (bs, s1) => s1.suspendFor j (leNat bs)
    | none => go s
  else match s.reasonFor j with
    | 0 => go s
    | r => s.suspendFor j r

/-! ### The journal entry (R347) -/

def itemBlob (x : Nat × List Byte) : List Byte := leBytes 1 x.1 ++ leBytes 1 0 ++ leBytes 2 x.2.length ++ x.2

/-- The primary head sends the entry of a composition point: WRITE packets to the secondary head's ring, then JOURNAL. -/
def State.sendJournal (s : State) (j step : Nat) : State :=
  let q := s.srvJob j
  let bs := q.jout.flatMap itemBlob
  let s1 := s.updSrv j (fun q => { q with jout := [] })
  if !s.leads j then s1
  else
    let ring := s.fget (F.YOK_JOB_AREA_JOURNAL j) * 4096
    let off := (s.yokJob j).joff
    let lines := (bs.length + 63) / 64
    let s2 := (List.range lines).foldl (fun s i =>
      s.originate j .yoke { kind := 0, addr := ring + (off + 64 * i) % 1048576 } (bytesLines 1 (pad 64 ((bs.drop (64 * i)).take 64)))) s1
    let body := leBytes 1 0x1B ++ leBytes 7 0 ++ leBytes 8 step ++ leBytes 4 off ++ leBytes 4 bs.length
    (s2.originate j .yoke { kind := 4, fence := true } [bodyLine body]).updYok j (fun y =>
      { y with joff := (off + 64 * lines) % 1048576 })

/-! ### The composition point (R304, R348) -/

/-- The head acts for the job: it is live, not ended by a HALT, and no context that waits to join (R350). -/
def State.headActs (s : State) (j : Nat) : Bool :=
  s.isHead j && (s.job j).live && !(s.srvJob j).dead &&
  !(s.fbit (F.YOK_JOB_CFG_YOKED j) && s.fget (F.YOK_JOB_STATE_STATE j) = 6)

/-- A composition point falls: fewer than DEPTH steps are in flight, or the oldest has come back. A secondary head also
needs its next journal entry, and its own plane's verification of the slots that the entry activates. -/
def State.pointDue (s : State) (j : Nat) : Bool :=
  let q := s.srvJob j
  s.headActs j &&
  (q.flight.length < s.depth j || (match q.flight with
    | r :: _ => decide (s.retCount j ≤ (s.ctr (s.retKey j r.step)).val)
    | [] => true)) &&
  (!s.follows j || (match (s.yokJob j).journal with
    | x :: _ => (State.journalSlots x.2).all (s.slotVerified j)
    | [] => false))

/-- The secondary head loads its next journal entry, and raises its takeover when one is due. -/
def State.openEntry (s : State) (j : Nat) : State :=
  let y := s.yokJob j
  let s1 := if y.takeover && !y.takeSaid then (s.hubErr j 0x0808 0).updYok j (fun y => { y with takeSaid := true }) else s
  if s1.follows j then
    match y.journal with
    | x :: rest => (s1.updYok j (fun y => { y with journal := rest })).updSrv j (fun q => { q with jin := x.2, jbad := false })
    | [] => s1
  else s1

/-- After the point: a breach of the journal halts the job; a takeover is complete when no entry is left; what the host
may have is written. -/
def State.closePoint (s : State) (j step : Nat) : State :=
  if (s.srvJob j).jbad then (s.updSrv j (fun q => { q with jbad := false, jin := [] })).hubErr j 0x080A 0
  else
    let s1 := (s.updSrv j (fun q => { q with jin := [] })).sendJournal j step
    let s2 := if (s1.yokJob j).takeover && (s1.yokJob j).journal.isEmpty then
        s1.updYok j (fun y => { y with takeover := false, takeSaid := false }) else s1
    ((s2.flushCpl j).flushOut j).showSrv j

/-- Steps 1 to 3. -/
def State.pointStart (s : State) (j : Nat) (h : List HostPiece) : List RingCmd × State :=
  let s1 := s.openEntry j
  ((State.retireAll j 32 s1).activateAll j).poll j h

/-- A job that has halted goes no further than to write what the host may have (R306). -/
def State.closeDead (s : State) (j : Nat) : State :=
  (((s.updSrv j (fun q => { q with jin := [], jout := [] })).flushCpl j).flushOut j).showSrv j

/-- Steps 4 to 6. -/
def State.pointEnd (s : State) (j : Nat) (h : List HostPiece) (cs : List RingCmd) : State :=
  let step := (s.srvJob j).next
  let s1 := cs.foldl (fun s c => if (s.srvJob j).dead then s else s.applyCmd j h c) s
  if (s1.srvJob j).dead then s1.closeDead j
  else ((s1.releaseAll j).suspendOrCompose j h).closePoint j step

/-- A job that has been paused composes nothing more; the steps in flight still run to their end and are retired, and what they end
is released (steps 1 and 5 of R304, R282). -/
def State.retirePaused (s : State) (j : Nat) : State :=
  match (s.srvJob j).flight with
  | r :: _ =>
    if s.retCount j ≤ (s.ctr (s.retKey j r.step)).val then
      let s1 := State.retireAll j 32 (s.openEntry j)
      if (s1.srvJob j).dead then s1.closeDead j else (s1.releaseAll j).closePoint j (s.srvJob j).next
    else s
  | [] => s

/-- An idle poll ends without a composition: only what it has activated is journalled. -/
def State.closeIdle (s : State) (j : Nat) : State :=
  (if (s.srvJob j).jout.any (fun x => x.1 ≠ 6) then s.sendJournal j (s.srvJob j).next
   else s.updSrv j (fun q => { q with jout := [] })).showSrv j

/-- A poll of a job that is suspended as IDLE or HOST_ABSENT (R305): it goes on when a command is latched, or when the
owning host is present again. -/
def State.idlePoll (s : State) (j : Nat) (h : List HostPiece) : State :=
  let p := s.pointStart j h
  if (s.srvJob j).reason = 1 ∧ p.1 = [] ∧ s.reasonFor j = 0 then p.2.closeIdle j
  else if (s.srvJob j).reason = 2 ∧ (s.hst (s.ring j).port).absent = true then p.2.closeIdle j
  else p.2.pointEnd j h p.1

/-- COMPOSITION_POINT. -/
def execCompositionPoint (j : JobId) (host : List HostPiece) (s : State) : Res :=
  .next (if !s.pointDue j then s
    else match (s.srvJob j).reason with
      | 4 => s.retirePaused j
      | 1 => s.idlePoll j host
      | 2 => s.idlePoll j host
      | _ => let p := s.pointStart j host
        p.2.pointEnd j host p.1)

/-- IDLE_POLL: every 10 µs while the job is suspended as IDLE or HOST_ABSENT. -/
def execIdlePoll (j : JobId) (host : List HostPiece) (s : State) : Res :=
  .next (if s.pointDue j && ((s.srvJob j).reason = 1 || (s.srvJob j).reason = 2) then s.idlePoll j host else s)

end Sys2Proof.Machine
end

