-- ==== Sys2Proof/Machine/Save.lean ====
section
/-! DEFINITION. The save set of a job and its return into a device (R283, R284, R331). Where the manual names a section's
contents and not their bytes, the layout is the model's own (log entry 60). -/

namespace Sys2Proof.Machine

/-! ### Sections -/

/-- A section: its length in 8 bytes, then its bytes. -/
def sect (bs : List Byte) : List Byte := leBytes 8 bs.length ++ bs

/-- The first section of some bytes, and what follows it. -/
def unsect (bs : List Byte) : List Byte × List Byte :=
  let n := field bs 0 8
  ((bs.drop 8).take n, bs.drop (8 + n))

/-! ### SERVING (R314, R331) -/

def SeqEnt.bytes (x : SeqEnt) : List Byte :=
  let flags := b2n x.inFlight + 2 * b2n x.cancel + 4 * b2n x.embed + 8 * b2n x.forkWait + 16 * b2n x.pinned +
    32 * b2n x.ratio + 64 * b2n x.drafts.isSome
  leBytes 8 x.tag ++ leBytes 4 x.seqId ++ leBytes 1 x.st ++ leBytes 1 flags ++ leBytes 2 x.cust ++ leBytes 4 x.plen ++
  leBytes 4 x.pos ++ leBytes 4 x.gen ++ leBytes 4 x.maxNew ++ leBytes 4 x.row.length ++ leBytes 1 x.adapter ++
  leBytes 1 x.routine ++ leBytes 1 x.endc ++ leBytes 1 x.status ++ leBytes 4 x.t ++ leBytes 4 x.kp ++
  pad 16 (x.stop.flatMap (leBytes 4)) ++ leBytes 8 x.prompt ++ leBytes 4 x.cached ++ leBytes 2 x.owner ++ leBytes 2 0 ++
  leBytes 8 x.admNo ++ leBytes 8 x.resAddr ++ leBytes 16 x.chain ++ leBytes 4 x.last ++ leBytes 12 0

/-- An entry in a save set: the output index of its last token takes the reserved bytes 116 to 119 (log entry 60). -/
def SeqEnt.saved (x : SeqEnt) : List Byte := { x with drafts := none }.bytes.take 116 ++ leBytes 4 x.outIdx ++ leBytes 8 0

/-- An entry read back; `row` is its KV map row as memory holds it. -/
def entOf (r : List Byte) (row : List Nat) : SeqEnt :=
  let fl := field r 13 1
  let pos := field r 20 4
  let plen := field r 16 4
  { tag := field r 0 8, seqId := field r 8 4, st := field r 12 1, cust := field r 14 2, plen := plen, pos := pos
    gen := field r 24 4, maxNew := field r 28 4, row := row, adapter := field r 36 1, routine := field r 37 1
    endc := field r 38 1, status := field r 39 1, t := field r 40 4, kp := field r 44 4
    stop := (List.range 4).map (fun k => field r (48 + 4 * k) 4), prompt := field r 64 8, cached := field r 72 4
    owner := field r 76 2, admNo := field r 80 8, resAddr := field r 88 8, chain := field r 96 16, last := field r 112 4
    outIdx := field r 116 4
    cancel := bit fl 1, embed := bit fl 2, forkWait := bit fl 3, pinned := bit fl 4, ratio := bit fl 5
    hashed := min pos plen / 32 }

def Cust.bytes (c : Cust) : List Byte :=
  leBytes 4 c.burst ++ leBytes 4 c.rate ++ leBytes 2 c.wp ++ leBytes 2 c.wd ++ leBytes 2 (c.tenant + 2 ^ 15 * b2n c.valid) ++
  leBytes 2 0 ++ leBytes 4 (unsigned 32 c.level) ++ leBytes 8 c.defi ++ leBytes 4 c.rem

def custOf (r : List Byte) : Cust :=
  { burst := field r 0 4, rate := field r 4 4, wp := field r 8 2, wd := field r 10 2, tenant := field r 12 2 % 2 ^ 15
    valid := bit (field r 12 2) 15, level := signed 32 (field r 16 4), defi := field r 20 8, rem := field r 28 4 }

def AdSlot.bytes (a : AdSlot) : List Byte := leBytes 4 a.id ++ leBytes 4 a.ver ++ leBytes 1 a.st ++ leBytes 3 0 ++ leBytes 4 a.pins
def adOf (r : List Byte) : AdSlot := { id := field r 0 4, ver := field r 4 4, st := field r 8 1, pins := field r 12 4 }

/-- The prefix entries of a job. -/
def State.jobPfx (s : State) (j : Nat) : List PfxEnt :=
  s.prefix_.filterMap (fun x => match x.2 with | some p => if p.job = j then some p else none | none => none)

def PfxEnt.bytes (p : PfxEnt) : List Byte :=
  leBytes 16 p.chain ++ leBytes 4 p.block ++ leBytes 1 p.job ++ leBytes 1 1 ++ leBytes 2 0 ++ leBytes 8 p.lastUse

/-- The SERVING section (R331): drafts are not saved. -/
def State.servingBytes (s : State) (j : Nat) : List Byte :=
  let q := s.srvJob j
  let ps := s.jobPfx j
  leBytes 4 ps.length ++ leBytes 4 q.out.length ++ leBytes 4 q.rr ++ leBytes 4 (q.lastShape.getD 16) ++ leBytes 8 q.refill ++
  leBytes 8 (s.nkv j) ++ leBytes 8 q.outNext ++ leBytes 8 q.cplNext ++ leBytes 8 q.admNo ++ leBytes 8 0 ++
  (List.range 4096).flatMap (fun e => (s.ent j e).saved) ++
  (List.range 4096).flatMap (fun c => (s.cust j c).bytes) ++
  (List.range 256).flatMap (fun i => (s.adSlot j i).bytes) ++
  (List.range (s.nkv j)).flatMap (fun b => leBytes 4 (s.kv j b).2 ++ leBytes 1 (s.kv j b).1 ++ leBytes 3 0) ++
  ps.flatMap PfxEnt.bytes ++ q.out.flatMap OutEnt.bytes

/-- A row of the KV map, read from this device's memory. -/
def State.memRow (s : State) (j e n : Nat) : List Nat :=
  let a := s.fget (F.SRV_JOB_KV_KVMAP j) * 4096 + e * s.maxb j * 4
  (List.range n).map (fun i =>
    let w := a + 4 * i
    bits (s.hubPeek (w / 64 * 64)).data.toNat (8 * (w % 64) + 31) (8 * (w % 64)))

/-- Take a prefix entry back into the table. -/
def State.takePfx (s : State) (j : Nat) (r : List Byte) : State :=
  let chain := field r 0 16
  match (List.range 16).find? (fun w => (s.pfxWay (chain % 16384) w).isNone) with
  | some w => s.setWay (chain % 16384) w ⟨chain, field r 16 4, j, field r 24 8⟩
  | none => s

/-- The serving tables as a SERVING section gives them. -/
def State.takeServing (s : State) (j : Nat) (bs : List Byte) : State :=
  if bs = [] then s
  else
    let nkv := field bs 24 8
    let nOut := field bs 4 4
    let outNext := field bs 32 8
    let body := bs.drop 64
    let part (off n : Nat) : List Byte := (body.drop off).take n
    let cOff := 4096 * 128
    let aOff := cOff + 4096 * 32
    let bOff := aOff + 256 * 16
    let pOff := bOff + nkv * 8
    let oOff := pOff + field bs 0 4 * 32
    let outs := (List.range nOut).map (fun i =>
      let r := part (oOff + 16 * i) 16
      (⟨outNext - nOut + i, field r 0 4, field r 4 4, field r 8 4, field r 12 1⟩ : OutEnt))
    let fill {α : Type} [DecidableEq α] (d : Nat → α) (n : Nat) (f : Nat → α) : Tab α :=
      (List.range n).foldl (fun t i => Tab.set d t i (f i)) []
    let s1 := s.updSrv j (fun q =>
      { q with
        ents := fill SeqEnt.zeroF 4096 (fun e =>
          let r := part (128 * e) 128
          if field r 12 1 = 0 then {} else entOf r (s.memRow j e (field r 32 4)))
        custs := fill Cust.zeroF 4096 (fun c => custOf (part (cOff + 32 * c) 32))
        slots := fill AdSlot.zeroF 256 (fun i => adOf (part (aOff + 16 * i) 16))
        blocks := fill noBlk nkv (fun b => let r := part (bOff + 8 * b) 8; (field r 4 1, field r 0 4))
        out := outs, outNext := outNext, outSent := outNext - nOut, cplNext := field bs 40 8, cplSent := field bs 40 8
        admNo := field bs 48 8, rr := field bs 8 4, refill := field bs 16 8
        lastShape := if field bs 12 4 < 16 then some (field bs 12 4) else none })
    (List.range (field bs 0 4)).foldl (fun s i => s.takePfx j (part (pOff + 32 * i) 32)) s1

/-! ### SYNC, SLOT, PERSIST, BEAT -/

/-- The keys of a job's counters in the order of the SYNC section. -/
def State.syncKeys (s : State) (j : Nat) : List Nat :=
  (s.job j).barns.flatMap (fun b =>
    (List.range 2048).map (keyBarn b) ++ (List.range 48).flatMap (fun k => (List.range 64).map (keyLocal b k))) ++
  (List.range (s.fget (F.FAB_JOB_GATE_COUNT j))).map (fun i => keyGate (s.fget (F.FAB_JOB_GATE_BASE j) + i))

def State.syncBytes (s : State) (j : Nat) : List Byte := (s.syncKeys j).flatMap (fun k => leBytes 4 (s.ctr k).val)
def State.takeSync (s : State) (j : Nat) (bs : List Byte) : State :=
  (s.syncKeys j).zipIdx.foldl (fun s k => s.setCtr k.1 (field bs (4 * k.2) 4)) s

def State.slotBytes (s : State) (j : Nat) : List Byte :=
  (s.stallsOf j).flatMap (fun bk =>
    ((s.stall (48 * bk.1 + bk.2)).slots.filter (fun x => x.2.valid)).flatMap (fun x =>
      leBytes 1 bk.1 ++ leBytes 1 bk.2 ++ leBytes 1 x.1 ++ leBytes 1 0 ++ leBytes 4 x.2.base ++ leBytes 4 x.2.ring ++
      leBytes 4 x.2.ptr ++ leBytes 4 x.2.sigsel ++ leBytes 4 x.2.siginc))

def State.takeSlots (s : State) (bs : List Byte) : State :=
  (List.range (bs.length / 24)).foldl (fun s i =>
    let r := (bs.drop (24 * i)).take 24
    let e : Slot := ⟨field r 4 4, field r 8 4, field r 12 4, field r 16 4, field r 20 4, true⟩
    s.updStall (48 * field r 0 1 + field r 1 1) (fun t =>
      { t with slots := Tab.set (fun _ => Slot.zero) t.slots (field r 2 1) e })) s

/-- The lines of the PERSIST regions. -/
def State.persistLines (s : State) (j : Nat) : List Nat :=
  (s.infoOf j).persist.flatMap (fun r => (List.range (r.2 / 64)).map (fun i => r.1 + 64 * i))

def State.persistBytes (s : State) (j : Nat) : List Byte :=
  (s.persistLines j).flatMap (fun a =>
    let v := s.hubPeek a
    leBytes 64 v.data.toNat ++ leBytes 1 (v.epoch % 16 + 16 * b2n v.poison))

def State.takePersist (s : State) (j : Nat) (bs : List Byte) : State :=
  (s.persistLines j).zipIdx.foldl (fun s a =>
    let r := (bs.drop (65 * a.2)).take 65
    s.hubPoke a.1 ⟨BitVec.ofNat 512 (leNat (r.take 64)), field r 64 1 % 16, bit (field r 64 1) 4⟩ false) s

/-- P, STEP_SEQ of the next step, plan, seed, FJOB, image hash, stall-count parameter. -/
def State.beatBytes (s : State) (j p : Nat) : List Byte :=
  leBytes 8 p ++ leBytes 8 (s.srvJob j).deliver ++ leBytes 8 (s.planOf j) ++ leBytes 8 (s.infoOf j).seed ++
  leBytes 8 (s.fjob j) ++ leBytes 32 (s.secJob j).imgHash ++ leBytes 8 (s.job j).stallsParam

/-- The whole save set. -/
def State.saveSet (s : State) (j p : Nat) : List Byte :=
  sect (s.beatBytes j p) ++ sect (if s.isHead j then s.servingBytes j else []) ++ sect (s.syncBytes j) ++
  sect (s.slotBytes j) ++ sect (s.persistBytes j)

/-- Write the sections after BEAT back; PERSIST first, since the map's rows are read from it. -/
def State.takeSections (s : State) (j : Nat) (bs : List Byte) : State :=
  let serving := unsect bs
  let sync := unsect serving.2
  let slot := unsect sync.2
  let persist := unsect slot.2
  let s1 := (s.takePersist j persist.1).takeSync j sync.1
  let s2 := s1.takeSlots slot.1
  if s2.isHead j then s2.takeServing j serving.1 else s2

/-! ### The save (R282, R283) -/

/-- The device reports the job quiescent: nothing of it is retained, and no packet of it is on the mesh or performed without its source
knowing it (R197, R259, R282). -/
def State.quiescent (s : State) (j : Nat) : Bool :=
  (List.range 4).all (fun e => decide (s.retained j e = 0)) && !s.mesh.uns.any (fun p => p.job = j) &&
  !s.mesh.unack.any (fun x => x.2 = j)

/-- JOB_QUIESCENT_SAVE: every device of the paused job is quiescent, the head has retired the steps that have ended, and the load engine writes this device's save set
to its owning host. The head writes it where its PAUSE says; another device where the command says (log entry 61). -/
def execJobQuiescentSave (j : JobId) (addr capacity : Word) (s0 : State) : Res :=
  .next (match (s0.srvJob j).susp with
    | some (4, p) =>
      if (s0.job j).phase = .suspended && s0.quiescent j && !(s0.infoOf j).saving then
        let s := if s0.headActs j then s0.retirePaused j else s0
        let at_ := if s.isHead j then (s.srvJob j).pause.getD (addr.toNat, capacity.toNat) else (addr.toNat, capacity.toNat)
        let bs := s.saveSet j p
        let port := (s.ring j).port
        let s1 := s.updInfo j (fun i => { i with saving := true })
        if at_.2 < bs.length then s1.devNote port 6 14 j 0 0
        else (s1.hostWrite port at_.1 bs).devNote port 6 13 j 0 bs.length
      else s0
    | _ => s0)

end Sys2Proof.Machine
end

