-- ==== Sys2Proof/Machine/Image.lean ====
section
/-! DEFINITION. The program image and the load parameters: their layout, the checks of a load in the order of R298, and
the relocation of the image (R291-R298, R386). -/

namespace Sys2Proof.Machine

/-! ### The header and the sections (R294, R295) -/

/-- A section descriptor with its number. -/
structure Sect where
  num : Nat
  kind : Nat
  count : Nat
  off : Nat
  len : Nat
  arg : Nat
  deriving DecidableEq, Repr

def imgMode (m : List Byte) : Nat := field m 4 1
def imgStalls (m : List Byte) : Nat := field m 5 1
def imgRanks (m : List Byte) : Nat := field m 8 2
def imgCount (m : List Byte) : Nat := field m 10 2
/-- Gate counters and multicast groups that the job needs. -/
def imgGates (m : List Byte) : Nat := bits (field m 12 4) 12 0
def imgGroups (m : List Byte) : Nat := bits (field m 12 4) 25 16
def imgPeak (m : List Byte) (b : Nat) : Nat := field m (16 + 2 * b) 2

/-- The header keeps its layout. -/
def headerOk (m : List Byte) : Bool :=
  let g := field m 12 4
  64 ≤ m.length && field m 0 2 = 0 && field m 2 2 = 9 &&
  ((imgMode m = 0 && imgStalls m = 44) || (imgMode m = 1 && [44, 46, 48].contains (imgStalls m))) &&
  field m 6 2 < 2 && 1 ≤ imgRanks m && imgRanks m ≤ 4096 && bits g 15 13 = 0 && bits g 31 26 = 0

def sectOf (m : List Byte) (i : Nat) : Sect :=
  let d := (m.drop (64 + 32 * i)).take 32
  ⟨i, field d 0 1, field d 4 4, field d 8 8, field d 16 8, field d 24 8⟩

def sectsOf (m : List Byte) : List Sect := (List.range (imgCount m)).map (sectOf m)

def Sect.body (c : Sect) (m : List Byte) : List Byte := (m.drop c.off).take c.len

/-- Target triples of a TEXT section, and the bytes that they take with their padding. -/
def Sect.triples (c : Sect) : Nat := c.arg % 2 ^ 32
def Sect.textOff (c : Sect) : Nat := (4 * c.triples + 63) / 64 * 64

/-- The body's length that the table gives for COUNT. -/
def Sect.size (c : Sect) (ranks : Nat) : Nat :=
  match c.kind with
  | 1 => c.textOff + 4 * c.count
  | 2 => 64
  | 3 => 4 * ranks
  | 4 => 64 + 64 * c.count
  | _ => 16 * c.count

/-- ARG and COUNT keep the layout of the kind. -/
def Sect.argOk (c : Sect) (ranks : Nat) : Bool :=
  match c.kind with
  | 1 => c.arg < 2 ^ 32 && 1 ≤ c.triples && c.triples ≤ 1152 && 1 ≤ c.count && c.count ≤ 16384
  | 2 => c.arg < 2 ^ 16 && c.count = 16
  | 3 => c.arg = 0 && c.count = ranks
  | 4 => c.arg < 2 ^ 20
  | 5 => c.arg < 2 ^ 16
  | 6 => c.arg = 0
  | _ => false

def Sect.overlaps (a b : Sect) : Bool := a.off < b.off + b.len && b.off < a.off + a.len

/-- A section descriptor keeps its layout. -/
def sectOk (m : List Byte) (c : Sect) : Bool :=
  field m (64 + 32 * c.num + 1) 3 = 0 && c.off % 64 = 0 && c.argOk (imgRanks m) && c.len = c.size (imgRanks m) &&
  c.off + c.len ≤ m.length && !(sectsOf m).any (fun d => d.num ≠ c.num && c.overlaps d)

/-- The target stalls of a TEXT section: rank, barn, logical stall. -/
def Sect.targets (c : Sect) (m : List Byte) : List (Nat × Nat × Nat) :=
  (List.range c.triples).map (fun i => let o := c.off + 4 * i; (field m o 2, field m (o + 2) 1, field m (o + 3) 1))

/-- A range of memory that an image names: rank or 0xFFFF, address, length, whether it is a PERSIST region. -/
structure ImgRange where
  rank : Nat
  addr : Nat
  len : Nat
  persist : Bool
  deriving DecidableEq, Repr

def Sect.ranges (c : Sect) (m : List Byte) : List ImgRange :=
  match c.kind with
  | 4 => [⟨c.arg % 2 ^ 16, field m c.off 8, 64 * c.count, false⟩]
  | 5 => (List.range c.count).map (fun i => ⟨c.arg % 2 ^ 16, field m (c.off + 16 * i) 8, field m (c.off + 16 * i + 8) 8, true⟩)
  | _ => []

/-- The range lies in the lofts, or in the used part of one scratchpad window, and keeps its alignment. -/
def State.rangeOk (s : State) (r : ImgRange) : Bool :=
  let loft : Bool := r.addr + r.len ≤ 0xC00000000
  let spad : Bool := match s.place r.addr, s.place (r.addr + (r.len - 1)) with
    | .spad b k _, .spad c l _ => b = c && k = l
    | _, _ => false
  (loft && r.addr % 256 = 0 && r.len % 256 = 0) || (!loft && spad && r.addr % 64 = 0 && r.len % 64 = 0)

/-- The words of a SHAPE section. -/
def Sect.shape (c : Sect) (m : List Byte) (k : Nat) : Nat := field m (c.off + 4 * k) 4

/-- What a section body must keep beside its size. -/
def State.bodyOk (s : State) (m : List Byte) (c : Sect) : Bool :=
  let ranks := imgRanks m
  let rankOk : Bool := c.arg % 2 ^ 16 = 0xFFFF || c.arg % 2 ^ 16 < ranks
  match c.kind with
  | 1 =>
    (c.targets m).all (fun t => t.1 < ranks && t.2.2 < imgStalls m) &&
    allZero ((m.drop (c.off + 4 * c.triples)).take (c.textOff - 4 * c.triples))
  | 2 =>
    (sectsOf m).any (fun d => d.num = c.arg && d.kind = 1) && (List.range 16).all (fun k => bits (c.shape m k) 29 14 = 0)
  | 3 => (List.range ranks).all (fun r => field m (c.off + 4 * r + 3) 1 = 0)
  | 4 => rankOk && field m c.off 8 < 2 ^ 36 && allZero ((m.drop (c.off + 8)).take 56) && (c.ranges m).all s.rangeOk
  | 5 => rankOk && (c.ranges m).all s.rangeOk
  | _ => true

/-- Two SHAPE sections that mark one shape VALID agree on PAUSABLE. -/
def shapesAgree (m : List Byte) : Bool :=
  let cs := (sectsOf m).filter (fun c => c.kind = 2)
  (List.range 16).all (fun k =>
    let ws := (cs.map (fun c => c.shape m k)).filter (fun w => bit w 31)
    ws.all (fun w => bit w 30) || ws.all (fun w => !bit w 30))

/-- The check IMAGE (R294, R295). -/
def State.imageOk (s : State) (m : List Byte) : Bool :=
  let cs := sectsOf m
  headerOk m && decide (64 + 32 * imgCount m ≤ m.length) && cs.all (sectOk m) && cs.all (s.bodyOk m) &&
  (cs.filter (fun c => c.kind = 3)).length = 1 &&
  (let ts := (cs.filter (fun c => c.kind = 1)).flatMap (fun c => (c.targets m).dedup); ts.dedup.length = ts.length) &&
  shapesAgree m

/-! ### The other checks (R275, R291-R293, R298) -/

/-- The load parameter block. -/
def prmRank (p : List Byte) : Nat := field p 0 2
def prmStalls (p : List Byte) : Nat := field p 2 1
def prmGate (p : List Byte) : Nat := field p 4 2
def prmGroup (p : List Byte) : Nat := field p 6 2
def prmLimit (p : List Byte) (b : Nat) : Nat := field p (8 + 2 * b) 2
def prmRetain (p : List Byte) : Nat := field p 56 2
def prmDev (p : List Byte) (r : Nat) : Nat := field p (64 + 2 * r) 2

/-- The mask of physical barns that the image names for a rank. -/
def barnMask (m : List Byte) (r : Nat) : Nat :=
  match (sectsOf m).find? (fun c => c.kind = 3) with
  | some c => field m (c.off + 4 * r) 3
  | none => 0

/-- STALLS: the parameter is the image's, every barn has that many stalls, and a wide image finds exactly that many. -/
def State.stallsOk (s : State) (m p : List Byte) (barns : Nat) : Bool :=
  prmStalls p = imgStalls m &&
  (onesOf 24 barns).all (fun b => prmStalls p ≤ s.stallCount b && (imgMode m = 0 || s.stallCount b = prmStalls p))

/-- Does a range lie in the barns that BARNS names? -/
def State.rangeIn (s : State) (mask : Nat) (r : ImgRange) : Bool :=
  match s.place r.addr with
  | .spad b _ _ => bit mask b
  | .loft n off => (List.range (((off + r.len - 1) / 0x80000000) + 1)).all (fun i => bit mask (n + i))
  | _ => false

/-- BARNS (R293, R295). -/
def State.barnsOk (s : State) (m p : List Byte) (barns : Nat) : Bool :=
  prmRank p < imgRanks m && barnMask m (prmRank p) = barns &&
  (sectsOf m).all (fun c =>
    match c.kind with
    | 1 => (c.targets m).all (fun t => bit (barnMask m t.1) t.2.1)
    | _ => (c.ranges m).all (fun r =>
      if r.rank = 0xFFFF then (List.range (imgRanks m)).all (fun k => s.rangeIn (barnMask m k) r)
      else s.rangeIn (barnMask m r.rank) r))

def disjointRuns (a n b k : Nat) : Bool := n = 0 || k = 0 || a + n ≤ b || b + k ≤ a

/-- ALLOC (R291). -/
def State.allocOk (s : State) (j : Nat) (m p : List Byte) : Bool :=
  (imgGates m = 0 || prmGate p + imgGates m ≤ 8192) && prmGate p < 8192 &&
  (imgGroups m = 0 || prmGroup p + imgGroups m ≤ 1024) && prmGroup p < 1024 &&
  (List.range 8).all (fun i =>
    i = j || (s.job i).phase = .free ||
    (disjointRuns (prmGate p) (imgGates m) (s.fget (F.FAB_JOB_GATE_BASE i)) (s.fget (F.FAB_JOB_GATE_COUNT i)) &&
     disjointRuns (prmGroup p) (imgGroups m) (s.infoOf i).groupBase (s.infoOf i).groups))

/-- POWER: no limit lies below the peak of its barn (R280, R298). -/
def powerOk (m p : List Byte) : Bool := (List.range 24).all (fun b => imgPeak m b ≤ prmLimit p b)

/-! ### Relocation (R296, R297) -/

/-- The I-format opcodes (R51). -/
def isIFormat (w : Nat) : Bool :=
  let op := bits w 31 26
  (2 ≤ op && op ≤ 0x0D) || (0x10 ≤ op && op ≤ 0x13) || op = 0x18 || (0x20 ≤ op && op ≤ 0x26) || op = 0x3F

/-- Overwrite bytes of an image. -/
def pokeBytes (m : List Byte) (o : Nat) (bs : List Byte) : List Byte := m.take o ++ bs ++ m.drop (o + bs.length)

/-- The target of a relocation record: where byte `i` of its 64-bit value lies. In TEXT the imm16 of instruction OFFSET
holds the highest 16 bits. -/
def relocPlaces (m r : List Byte) : Option (List Nat) :=
  let w := leNat r
  let off := bits w 103 72
  match (sectsOf m)[bits w 117 104]? with
  | none => none
  | some c =>
    if bits w 119 118 = 0 ∧ c.kind = 1 then
      let o := c.off + c.textOff + 4 * off
      if off + 4 ≤ c.count ∧ (List.range 4).all (fun i => isIFormat (field m (o + 4 * i) 4)) then
        some [o + 12, o + 13, o + 8, o + 9, o + 4, o + 5, o, o + 1]
      else none
    else if bits w 119 118 = 1 ∧ c.kind = 4 then
      if off + 8 ≤ 64 * c.count then some ((List.range 8).map (fun i => c.off + 64 + off + i)) else none
    else none

/-- The patched field of a relocation kind; none when it is refused (R296, R297). -/
def relocField (m p : List Byte) (kind v : Nat) : Option Nat :=
  match kind with
  | 1 => if v < imgRanks m then some (prmDev p v % 4096) else none
  | 2 => if v < imgGates m ∧ v + prmGate p < 8192 then some (v + prmGate p) else none
  | 3 =>
    if v / 2 ^ 14 = 2 then
      (let i := v % 2 ^ 14
       if i < imgGates m ∧ i + prmGate p < 8192 then some (2 * 2 ^ 14 + i + prmGate p) else none)
    else some v
  | 4 => if v < imgGroups m ∧ v + prmGroup p < 1024 then some (v + prmGroup p) else none
  | _ => none

def relocWidth : Nat → Nat
  | 1 => 12
  | 2 => 13
  | 3 => 16
  | 4 => 10
  | _ => 0

/-- Apply one record; none when it is refused. -/
def relocOne (p m r : List Byte) : Option (List Byte) :=
  let w := leNat r
  let kind := bits w 127 120
  let lsb := bits w 71 64
  let wid := bits w 63 56
  if kind = 0 ∨ 4 < kind ∨ wid ≠ relocWidth kind ∨ 64 < lsb + wid ∨ bits w 55 0 ≠ 0 then none
  else match relocPlaces m r with
    | none => none
    | some ps =>
      let v := leNat (ps.map (fun o => m.getD o 0))
      match relocField m p kind (bits v (lsb + wid - 1) lsb) with
      | none => none
      | some x => some ((ps.zip (leBytes 8 (setBits v lsb wid x))).foldl (fun m a => pokeBytes m a.1 [a.2]) m)

/-- Apply records in order: the patched image, or the index of the refused record. -/
def relocAll (p : List Byte) : List (List Byte) → Nat → List Byte → Nat ⊕ List Byte
  | [], _, m => .inr m
  | r :: rs, i, m => match relocOne p m r with
    | none => .inl i
    | some m' => relocAll p rs (i + 1) m'

/-- The relocation records of an image in section and record order. -/
def relocsOf (m : List Byte) : List (List Byte) :=
  ((sectsOf m).filter (fun c => c.kind = 6)).flatMap (fun c =>
    (List.range c.count).map (fun i => (m.drop (c.off + 16 * i)).take 16))

/-! ### The signature (R386) -/

/-- The image without its trailer. -/
def State.imageBody (s : State) (img : List Byte) : List Byte :=
  if s.fbit F.SEC_CTRL_IMAGE_SIG then img.take (img.length - 5261) else img

def State.imageSigned (s : State) (img : List Byte) : Bool :=
  let t := img.drop (img.length - 5261)
  !s.fbit F.SEC_CTRL_IMAGE_SIG ||
  (5261 ≤ img.length && s.signerOk (t.take 1952) 1 && Config.mldsaVerify (t.take 1952) (s.imageBody img) (t.drop 1952))

end Sys2Proof.Machine
end

