-- ==== Sys2Proof/Machine/Load.lean ====
section
/-! DEFINITION. The load engine: reading an image, its checks, and what an accepted job starts from (R42, R43, R72, R167,
R284, R291-R298, R368). -/

namespace Sys2Proof.Machine

def State.loadRec (s : State) (j : Nat) : JobRec := (Tab.get (fun _ => none) s.loads j).getD {}
def State.setLoad (s : State) (j : Nat) (r : Option JobRec) : State :=
  { s with loads := Tab.set (fun _ => none) s.loads j r }

/-! ### The end of a load that fails (R291, R298, R368) -/

/-- LDR_STATUS of the last load. -/
def State.loadStatus (s : State) (j code record : Nat) : State :=
  ((s.fset (F.LDR_STATUS_STATUS j) code).fset (F.LDR_STATUS_RECORD j) record).fset (F.LDR_STATUS_DONE j) 1

/-- The context holds no job any more, and its barns read FREE. -/
def State.emptyContext (s : State) (j : Nat) : State :=
  let s1 := (s.job j).barns.foldl (fun s b =>
    (s.updBarn b (fun t => { t with owner := none })).fset (F.SPD_CLEAR_STATE b) 0) s
  ((((s1.updJob j (fun _ => {})).setOwner j 2).updRing j (fun _ => {})).setLoad j none).updInfo j (fun _ => {})

/-- The load engine writes the fabric fields of a context back to zero under R454. -/
def State.clearFabCfg (s : State) (j : Nat) : State :=
  ((s.setReg (R.FAB_JOB_CFG j) 0).setReg (R.FAB_JOB_GATE j) 0).commitRef .fab 0

/-- A device record that answers CREATE_JOB. -/
def State.answerCreate (s : State) (r : JobRec) (j status detail value : Nat) : State :=
  s.devRec r.port ⟨r.tag, r.seq, 0x20, status, j, detail, value⟩

def State.loadFails (s : State) (j code record : Nat) : State :=
  let r := s.loadRec j
  (((s.loadStatus j code record).clearFabCfg j).emptyContext j).answerCreate r j 4 code 0

/-- The load has finished at an end to which R298 gives no code: LDR_STATUS[STATUS] is a free value among the codes that are ever
reported. -/
def State.loadEnds (s : State) (j : Nat) : State := s.free.2.loadStatus j (s.free.1.toNat % 10) 0

/-- A read of the load fails (R373): HOST_READ. -/
def State.loadReadFails (s : State) (j : Nat) : State :=
  let r := s.loadRec j
  (((s.loadEnds j).clearFabCfg j).emptyContext j).answerCreate r j 11 0 0

/-- The load parameter block breaks its layout (R366, R367). -/
def State.loadBadRecord (s : State) (j : Nat) : State :=
  let r := s.loadRec j
  (((s.loadEnds j).clearFabCfg j).emptyContext j).answerCreate r j 5 0 0

/-! ### What is written for an accepted job -/

/-- FAB_JOB_CFG and FAB_JOB_GATE (R291). -/
def State.writeFabCfg (s : State) (j : Nat) (r : JobRec) (m p : List Byte) : State :=
  (((((s.fset (F.FAB_JOB_CFG_FJOB j) r.fjob).fset (F.FAB_JOB_CFG_HEAD j) (prmDev p 0)).fset (F.FAB_JOB_CFG_RETAIN j)
    (prmRetain p)).fset (F.FAB_JOB_GATE_BASE j) (prmGate p)).fset (F.FAB_JOB_GATE_COUNT j) (imgGates m)).commitRef .fab 0

/-- Each limit of the parameter block goes to PWR_PLAN_LIMIT: one below 1,024 stores 1,024 (R298, R299). -/
def State.writeLimits (s : State) (p : List Byte) : State :=
  ((List.range 24).foldl (fun s b => s.fset (F.PWR_PLAN_LIMIT_LIMIT b) (max 1024 (prmLimit p b))) s).commitRef .pwr 0

/-- Every sync object of the job's barns and its gate counters read zero (R72). -/
def State.zeroCounters (s : State) (j : Nat) : State :=
  { s with ctrs := s.ctrs.filter (fun c => !s.ctrAllowed j c.1) }

/-- Does a granule of a loft hold a part of a KV block (R167, R320)? -/
def State.kvGranule (s : State) (j g : Nat) : Bool :=
  let base := s.fget (F.SRV_JOB_KVLAYOUT_KV_BASE j)
  let len := s.nkv j * s.fget (F.SRV_JOB_KVLAYOUT_KV_BYTES j)
  len ≠ 0 && base < 65536 * (g + 1) && 65536 * g < base + len

/-- The classes of the granules of the job's lofts: KV where the KV blocks lie, else OTHER, with no recorded write. -/
def State.classGranules (s : State) (j : Nat) (barns : List Nat) : State :=
  let kv := ((List.range 32768).filter (s.kvGranule j)).map (fun g => (g, 2))
  barns.foldl (fun s b => s.updLoft b (fun l => { l with cls := kv, wrote := [] })) s

/-- A control core as it begins a job, with its instruction memory (R62). -/
def freshStall (t : Stall) (imem : Tab Word32) : Stall :=
  { t with
    x := [], imem := imem, pc := 0, rtn := false, st := .stepWait, loops := [], rets := [], base := 0, window := []
    shape := 0, stepSeq := 0, nextWindow := [], nextGot := 0, nextBase := none, nextShape := 0, pendLd := []
    waitc := none, pushWait := none, queues := [], due := [1, 2, 3, 4, 5].map (fun e => (e, Due.nextStep)), slots := [] }

/-- The instruction memory of a stall: the TEXT section that names it. -/
def imemOf (m : List Byte) (rank b k : Nat) : Tab Word32 :=
  match (sectsOf m).find? (fun c => c.kind = 1 && (c.targets m).contains (rank, b, k)) with
  | none => []
  | some c => (List.range c.count).filterMap (fun i =>
      let w := field m (c.off + c.textOff + 4 * i) 4
      if w = 0 then none else some (i, BitVec.ofNat 32 w))

/-- The shape entries of a stall: the words of the SHAPE sections that serve its TEXT section. -/
def State.writeShapes (s : State) (m : List Byte) (rank b k : Nat) : State :=
  match (sectsOf m).find? (fun c => c.kind = 1 && (c.targets m).contains (rank, b, k)) with
  | none => s
  | some c =>
    ((sectsOf m).filter (fun d => d.kind = 2 && d.arg = c.num)).foldl (fun s d =>
      (List.range 16).foldl (fun s i =>
        (s.fsetB (F.STL_SHAPE_ENTRY_VALID b k i) (bit (d.shape m i) 31)).fset (F.STL_SHAPE_ENTRY_ENTRY b k i)
          (bits (d.shape m i) 13 0)) s) s

/-- SRV_SHAPE[PAUSABLE]: the shapes that the image marks. -/
def State.writePausable (s : State) (j : Nat) (m : List Byte) : State :=
  let cs := (sectsOf m).filter (fun c => c.kind = 2)
  (List.range 16).foldl (fun s k =>
    s.fsetB (F.SRV_SHAPE_PAUSABLE j k) (cs.any (fun c => bit (c.shape m k) 31 && bit (c.shape m k) 30))) s

/-- Stalls of the job: those below the stall-count parameter begin in STEP_WAIT. -/
def State.writeStalls (s : State) (m : List Byte) (rank n : Nat) (barns : List Nat) : State :=
  let s1 := barns.foldl (fun s b => (List.range n).foldl (fun s k =>
    (s.updStall (48 * b + k) (fun t => freshStall t (imemOf m rank b k))).writeShapes m rank b k) s) s
  barns.foldl (fun s b => s.commitRef .stl b) s1

/-- The granules of a CONST range in lofts become OTHER, in every loft that the range reaches (R11, R295). -/
def State.otherGranules (s : State) (a n : Nat) : State :=
  (List.range 24).foldl (fun s b =>
    if a < 0x80000000 * (b + 1) ∧ 0x80000000 * b < a + n then
      s.updLoft b (fun l => { l with cls := l.cls.filter (fun g =>
        decide (0x80000000 * b + 65536 * (g.1 + 1) ≤ a ∨ a + n ≤ 0x80000000 * b + 65536 * g.1)) })
    else s) s

/-- CONST data for this rank. -/
def State.writeConst (s : State) (m : List Byte) (rank : Nat) : State :=
  ((sectsOf m).filter (fun c => c.kind = 4 && (c.arg % 2 ^ 16 = 0xFFFF || c.arg % 2 ^ 16 = rank))).foldl (fun s c =>
    (s.otherGranules (field m c.off 8) (64 * c.count)).hubPut (field m c.off 8) (bits c.arg 19 16) true ((m.drop (c.off + 64)).take (64 * c.count))) s

/-- The PERSIST regions of this rank. -/
def persistOf (m : List Byte) (rank : Nat) : List (Nat × Nat) :=
  ((sectsOf m).filter (fun c => c.kind = 5)).flatMap (fun c =>
    ((c.ranges m).filter (fun r => r.rank = 0xFFFF || r.rank = rank)).map (fun r => (r.addr, r.len)))

/-! ### Save sets (R284) -/

/-- A section read from the save set at an address: its bytes and the address of the next. -/
def State.readSect (s : State) (p : Nat) (h : List HostPiece) (a : Nat) : Option (List Byte × Nat) × State :=
  let n := s.hread p h a 8
  match n.1 with
  | none => (none, n.2)
  | some b =>
    let len := leNat b
    let r := n.2.hread p h (a + 8) len
    match r.1 with
    | none => (none, r.2)
    | some bs => (some (bs, a + 8 + len), r.2)

/-- The sections after BEAT, read one by one, as they stand in the save set. -/
def State.readSects (p : Nat) (h : List HostPiece) : Nat → Nat → List Byte → State → Option (List Byte) × State
  | 0, _, acc, s => (some acc, s)
  | n + 1, a, acc, s =>
    let r := s.readSect p h a
    match r.1 with
    | none => (none, r.2)
    | some (bs, a') => State.readSects p h n a' (acc ++ sect bs) r.2

/-- BEAT names this image, parameter and seed (R284, R367). -/
def beatMatches (b : List Byte) (hash stalls seed : Nat) : Bool :=
  b.length = 80 && field b 40 32 = hash && field b 72 8 = stalls && field b 24 8 = seed

/-! ### Acceptance (R42, R43, R368) -/

/-- The records of a job that begins at job beat `beat` and step `step`. -/
def State.startRecords (s : State) (j : Nat) (r : JobRec) (m p : List Byte) (beat step hash : Nat) : State :=
  let barns := onesOf 24 r.barns
  let rejoin := s.fbit (F.YOK_JOB_CFG_REJOIN j)
  let yoked := s.fbit (F.YOK_JOB_CFG_YOKED j)
  let s1 := s.updJob j (fun _ =>
    { phase := .ready, barns := barns, start := beat, stop := some beat, stallsParam := prmStalls p
      launchPending := r.deploy = 0 && !rejoin, wide := imgMode m = 1 })
  let s2 := s1.updInfo j (fun _ =>
    { rank := prmRank p, param := prmStalls p, ranks := (List.range (imgRanks m)).map (prmDev p), groupBase := prmGroup p
      groups := imgGroups m, deploy := r.deploy, seed := r.seed, launch := r.launch, beat := beat, step := step
      persist := persistOf m (prmRank p), barns := r.barns })
  let s3 := s2.updSrv j (fun q =>
    { custs := q.custs, tkeys := q.tkeys, refill := s.nowNs, next := step, base := beat, deliver := step
      dbase := beat, bases := Tab.set zeroNat [] (step % 64) beat, resumed := r.resume })
  let s4 := (s3.updSec j (fun _ => { imgHash := hash })).updYok j (fun _ => { read := step, conf := step })
  let s5 := (s4.setReg (R.SRV_JOB_STATE j) 0).setReg (R.SEC_JOB_STATE j) 0
  let s6 := (s5.setReg (R.YOK_JOB_STATE j) 0).fset (F.YOK_JOB_STATE_STATE j) (if rejoin then 6 else b2n yoked)
  let s7 := barns.foldl (fun s b => s.updBarn b (fun t => { t with owner := some j, pwBeat := beat, pwSum := 0, pwOver := false })) s6
  ((s7.fset (F.PCR_JOB_LAUNCH_NS j) r.launch).fset (F.FAB_JOB_STATE_PLAN j) 0).fset (F.FAB_JOB_STATE_PENDING j) 0

/-- A launch time that is past at acceptance (R43). -/
def State.lateLaunch (s : State) (j : Nat) : State :=
  let t := (s.infoOf j).launch
  if (s.job j).launchPending && t < s.nowNs then s.hubErr j 0x0107 (min ((s.nowNs - t) / 1000) 0xFFFFFFFF) else s

/-- Everything that an accepted image writes on the device; `m` is the patched image. -/
def State.install (s : State) (j : Nat) (r : JobRec) (m p : List Byte) (beat step hash : Nat) : State :=
  let barns := onesOf 24 r.barns
  let s1 := (s.writeFabCfg j r m p).writeLimits p
  let s2 := s1.startRecords j r m p beat step hash
  let s3 := (s2.zeroCounters j).classGranules j barns
  let s4 := (s3.writeStalls m (prmRank p) (prmStalls p) barns).writePausable j m
  s4.writeConst m (prmRank p)

/-- The job is accepted: the ring set is attached and the SL9 answers OK. -/
def State.accept (s : State) (j : Nat) (h : List HostPiece) (r : JobRec) (m p : List Byte) (beat step plan : Nat)
    (hash : Nat) (sections : List Byte) : State :=
  let pre := s.hindex r.port h ((s.ring j).hd + 64)
  if pre.1.isNone then pre.2.loadReadFails j
  else
  let s1 := s.install j r m p beat step hash
  let s2 := if r.resume then (s1.takeSections j sections).fset (F.FAB_JOB_STATE_PLAN j) plan else s1
  let q := s2.srvJob j
  let set := s2.ring j
  let s3 := s2.updRing j (fun x => { x with lastC := q.cplSent, lastO := q.outSent })
  (((((s3.attach j r.port set h).2.loadStatus j 0 0).setLoad j none).lateLaunch j).showSrv j).answerCreate r j 0 0 j

/-- The image is sound: what is left is the save set (R284). -/
def State.loadResume (s : State) (j : Nat) (h : List HostPiece) (r : JobRec) (m p : List Byte) (hash : Nat) : State :=
  if !r.resume then s.accept j h r m p 0 0 0 hash []
  else
    let b := s.readSect r.port h r.save
    match b.1 with
    | none => b.2.loadReadFails j
    | some (bs, a) =>
      if !beatMatches bs hash (prmStalls p) r.seed then b.2.loadFails j 9 0
      else
        let x := State.readSects r.port h 4 a [] b.2
        match x.1 with
        | none => x.2.loadReadFails j
        | some rest => x.2.accept j h r m p (field bs 0 8) (field bs 8 8) (field bs 16 8 % 2) hash rest

/-- The checks of R298 in their order, over the image and the load parameters. -/
def State.loadChecks (s : State) (j : Nat) (r : JobRec) (img p : List Byte) (grades bases : Bool) : (Nat × Nat) ⊕ List Byte :=
  let m := s.imageBody img
  if !s.imageSigned img then .inl (8, 0)
  else if !s.imageOk m then .inl (1, 0)
  else if !s.stallsOk m p r.barns then .inl (2, 0)
  else if imgMode m = 1 && !grades then .inl (3, 0)
  else if !s.barnsOk m p r.barns then .inl (4, 0)
  else if !bases || !s.allocOk j m p then .inl (7, 0)
  else match relocAll p (relocsOf m) 0 m with
    | .inl i => .inl (5, i)
    | .inr m' => if !r.slow && !powerOk m p then .inl (6, 0) else .inr m'

/-- The load parameter block: its length follows the image's RANKS. -/
def prmLength (m : List Byte) : Nat := 64 + 2 * (if headerOk m then imgRanks m else 0)

/-- LOAD_DONE: the load engine has read the image of a context that is loading, and accepts the job or frees the context
(R298). The command brings the host's answers to the load's reads, and whether the other devices of the job report the
same stall counts and have been given the same bases. -/
def execLoadDone (j : JobId) (host : List HostPiece) (gradesAgree basesAgree : Bool) (s : State) : Res :=
  .next (if (s.job j).phase ≠ .loading then s
    else
      let r := s.loadRec j
      let i := s.hread r.port host r.img r.imgLen
      match i.1 with
      | none => i.2.loadReadFails j
      | some img =>
        let q := i.2.hread r.port host r.params (prmLength (s.imageBody img))
        match q.1 with
        | none => q.2.loadReadFails j
        | some p =>
          if field p 3 1 ≠ 0 || field p 58 6 ≠ 0 then q.2.loadBadRecord j
          else match q.2.loadChecks j r img p gradesAgree basesAgree with
          | .inl (code, rec_) =>
            (if code = 8 then q.2.raise { code := 0x0A06, blk := 28, job := some j.val } else q.2).loadFails j code rec_
          | .inr m => q.2.loadResume j host r m p (shake (s.imageBody img)))

end Sys2Proof.Machine
end

