-- ==== Sys2Proof/Machine/LoftRepair.lean ====
section
/-! DEFINITION. The repair of a failed loft block: the second read, the re-send slots, the partner's copy, the host's
copy, loss, and the write-back with its verification (R166, R168, R170, R171, R336, R400). -/

namespace Sys2Proof.Machine

def Loft.slotsBusy (l : Loft) : List Nat := l.failed.filterMap FailBlk.slot

/-- Replace a failed block's record. -/
def State.setFail (s : State) (n : Nat) (f g : FailBlk) : State :=
  s.updLoft n (fun l => { l with failed := l.failed.map (fun x => if x.blk = f.blk then g else x) })

def State.dropFail (s : State) (n : Nat) (f : FailBlk) : State :=
  s.updLoft n (fun l => { l with failed := l.failed.filter (fun x => x.blk ≠ f.blk) })

/-- The job that a block belongs to. -/
def State.blkJob (s : State) (n : Nat) (f : FailBlk) : Option Nat :=
  match f.job with | some j => some j | none => (s.barn n).owner

/-- The repair of a block ends with what it delivers: consumers get it, and the hold ends. -/
def State.deliver (s : State) (n : Nat) (f : FailBlk) (v : BlockVal) : State :=
  (s.giveBlock (srcId n f.blk) v).dropFail n f

/-- The block as it is stored after its repair: `v`, but for the bytes written meanwhile. -/
def State.mended (s : State) (n : Nat) (f : FailBlk) (v : BlockVal) : BlockVal :=
  let old := (s.loft n).block f.blk
  if f.mask = byteMask 0 256 then old
  else
    { data := BitVec.ofNat 2048 ((List.range 256).foldl (fun d i =>
        if bit f.mask i then setBits d (8 * i) 8 (bits old.data.toNat (8 * i + 7) (8 * i)) else d) v.data.toNat)
      poison := v.poison || (f.mask ≠ 0 && old.poison) }

/-- No source remains: consumers get poisoned zero, the hold ends, and the loss is raised (R168). -/
def State.lostBlock (s : State) (n : Nat) (f : FailBlk) : State :=
  let s1 := (s.deliver n f ⟨0, true⟩).updLoft n (fun l =>
    if (s.bank n (blkBank f.blk)).st = 0 then l.setBlock f.blk (s.mended n f ⟨0, true⟩) else l)
  let job := s.blkJob n f
  if Tab.get zeroNat (s.loft n).cls (f.blk / 256) = 2 then
    let s2 := s1.loftErr n 0x030A f.blk job (some (F.LFT_ERRCNT_LOST n)) f.blk
    (match job with
     | some j =>
       if s2.isHead j then s2.kvLost j (f.blk * 256)
       else s2.sendControl j (.dev (s2.headOf j)) 0x13 (leBytes 1 n ++ leBytes 2 0 ++ leBytes 4 (f.blk * 256))
     | none => s2)
  else s1.loftErr n 0x0304 f.blk job (some (F.LFT_ERRCNT_LOST n)) f.blk

/-- The partner may be asked: the job is yoked, the partner is neither lost nor cut off, and RESEND_SRC allows it. -/
def State.partnerOk (s : State) (n j : Nat) : Bool :=
  let r := s.fget (F.LFT_CTRL_RESEND_SRC n)
  (r = 0 || r = 2) && s.fbit (F.YOK_JOB_CFG_YOKED j) && s.fget F.YOK_STATE_STATE = 2

/-- The shard of the job's open bales that holds a granule: kind, slot, index in its range, granule of the shard. -/
def State.shardAt (s : State) (j n gran : Nat) : Option (Nat × Nat × Nat × Nat) :=
  let c := s.secJob j
  let bales := (match c.dep with | some b => [(0, 0, b)] | none => []) ++
    c.slots.filterMap (fun x => x.2.map (fun b => (1, x.1, b)))
  bales.findSome? (fun b =>
    (b.2.2.shards.zipIdx.find? (fun x => x.1.loft = n && x.1.gran ≤ gran && gran < x.1.gran + x.1.count)).map (fun x =>
      (b.1, b.2.1, x.2, gran - x.1.gran)))

/-- Ask the host for the bale granule of a WEIGHT block (R168, R400); without one the block is lost. -/
def State.askHost (s : State) (n : Nat) (f : FailBlk) : State :=
  let r := s.fget (F.LFT_CTRL_RESEND_SRC n)
  match s.blkJob n f with
  | none => s.lostBlock n f
  | some j =>
    if (r = 0 ∨ r = 1) ∧ Tab.get zeroNat (s.loft n).cls (f.blk / 256) = 1 then
      match s.shardAt j n (f.blk / 256) with
      | some (kind, slot, i, g) =>
        let s1 := (s.setFail n f { f with stage := .host }).updSec j (fun c =>
          { c with wants := c.wants ++ [(kind, slot, i, g, srcId n f.blk)] })
        s1.devNote (s.ring j).port 0x3F 0 j 0 (kind * 2 ^ 62 + slot * 2 ^ 54 + g * 2 ^ 32 + i)
      | none => s.lostBlock n f
    else s.lostBlock n f

/-- Begin the re-send of a block that holds a slot. -/
def State.startResend (s : State) (n : Nat) (f : FailBlk) : State :=
  match s.blkJob n f with
  | none => s.lostBlock n f
  | some j =>
    if s.partnerOk n j then
      (s.setFail n f { f with stage := .partner }).ctrlSend 9 n 28 63 (f.beat % 2 ^ 64 + f.blk * 256 * 2 ^ 64 + j * 2 ^ 95)
    else s.askHost n f

/-- The lowest free slot of a loft (R170). -/
def Loft.freeSlot (l : Loft) : Option Nat := (List.range 4).find? (fun i => !l.slotsBusy.contains i)

/-- The second read of a failed block has failed: it waits for a slot, and with one it is re-sent (R168, R170). -/
def State.rereadFails (s : State) (n : Nat) (f : FailBlk) : State :=
  match (s.loft n).freeSlot with
  | some i => let g := { f with slot := some i }
    (s.setFail n f g).startResend n g
  | none => (s.setFail n f { f with stage := .wantSlot }).fwrap (F.LFT_RESEND_WAITS n) 1

/-- BLOCK_REREAD: a failed block of a loft is read once more, the oldest whose bank is free in this bank cycle (R161, R166). In
a bank that is no longer ON the read finds poisoned zero (R164). -/
def execBlockReread (b : Barn) (good : Bool) (s : State) : Res :=
  .next (match (s.loft b).failed.find? (fun f => f.stage = .reread && s.loftFree b (blkBank f.blk)) with
    | none => s
    | some f =>
      let s0 := s.takeLoft b (blkBank f.blk)
      if (s.bank b (blkBank f.blk)).st ≠ 0 then (s0.deliver b f ⟨0, true⟩).loftErr b 0x0307 f.blk (s.blkJob b f) none 0
      else if good then
        let s1 := (s0.dropFail b f).updLoft b (fun l => { l with fixes := l.fixes ++ [(f.blk, 1)] })
        s1.loftErr b 0x0302 f.blk (s.blkJob b f) (some (F.LFT_ERRCNT_REREAD b)) f.blk
      else s0.rereadFails b f)

/-- RESEND_SLOT_GRANT: a waiting block takes a slot that has become free. -/
def execResendSlotGrant (b : Barn) (s : State) : Res :=
  .next (match (s.loft b).failed.find? (fun f => f.stage = .wantSlot), (s.loft b).freeSlot with
    | some f, some i => let g := { f with slot := some i }
      (s.setFail b f g).startResend b g
    | _, _ => s)

/-- A loft's block at a device-local address, that waits for a re-send. -/
def State.failAt (s : State) (a : Nat) : Option (Nat × FailBlk) :=
  match s.place a with
  | .loft n off => ((s.loft n).failed.find? (fun f =>
      f.blk = off / 256 && (f.stage = .partner || f.stage = .host))).map (fun f => (n, f))
  | _ => none

/-- BLOCK_RESENT: the oldest block that has come back for a loft is delivered to every consumer that waits for it, and the hold
ends; the loft takes it unless its bank is no longer ON (R162, R166, R168). A block that no repair waits for is dropped. -/
def execBlockResent (b : Barn) (s : State) : Res :=
  .next (match s.yok.resent.find? (fun x => x.1 / 0x80000000 = b.val) with
    | none => s
    | some x =>
      let s1 := { s with yok := { s.yok with resent := s.yok.resent.erase x } }
      match s1.failAt x.1 with
      | none => s1
      | some (n, f) =>
        let s2 := (s1.deliver n f (blockOf x.2)).updLoft n (fun l =>
          if (s.bank n (blkBank f.blk)).st = 0 then
            { l.setBlock f.blk (s.mended n f (blockOf x.2)) with fixes := l.fixes ++ [(f.blk, 1)] }
          else l)
        s2.loftErr n 0x0303 f.blk (s.blkJob n f) (some (F.LFT_ERRCNT_RESENT n)) f.blk)

/-- LOFT_NAK: the partner reports a block unavailable, and the next source is tried. -/
def execLoftNak (p : PortId) (s : State) : Res :=
  .next (s.control p 0x1A (fun s _ _ ls =>
    match s.failAt (ctlByte ls 1 * 0x80000000 + ctlNat ls 4 4) with
    | some (n, f) => if f.stage = .partner then s.askHost n f else s
    | none => s))

/-- CTRL_LOFT_REQ: a loft's request reaches the hub, which sends it to the partner, unless the partner has been lost
meanwhile (R168, R213, R349). -/
def execCtrlLoftReq (b : Barn) (s : State) : Res :=
  .next (match s.ctrlTake (fun c => c.ty = 9 && c.src = b.val) with
    | none => s
    | some (c, s1) =>
      let n := c.src
      let off := bits c.body 94 64
      let j := bits c.body 97 95
      if s1.partnerOk n j then
        s1.sendControl j .yoke 0x19 (leBytes 1 n ++ leBytes 2 0 ++ leBytes 4 off ++ leBytes 8 (bits c.body 63 0))
      else match s1.failAt (n * 0x80000000 + off) with
        | some (n, f) => s1.askHost n f
        | none => s1)

/-- What follows step `st` of a write-back: the next step, the retirement of the row, or the end (R165, R171). -/
def State.fixStep (s : State) (n blk st : Nat) (good : Bool) : State :=
  let rest := s.updLoft n (fun l => { l with fixes := l.fixes.erase (blk, st) })
  let ended (s : State) : State := (s.endRecovery 2 n (blkBank blk) blk).endRecovery 3 n (blkBank blk) blk
  let go (k : Nat) : State := s.updLoft n (fun l => { l with fixes := l.fixes.map (fun x => if x = (blk, st) then (blk, k) else x) })
  if st = 0 ∨ (s.bank n (blkBank blk)).st ≠ 0 then ended rest
  else if st = 1 then go 2
  else if st = 2 then (if good then ended rest else ended (rest.beginRetire n blk (s.barn n).owner))
  else if st < 8 then go (st + 1)
  else rest.retireRow n blk (s.barn n).owner

/-- LOFT_WRITEBACK_VERIFY: the oldest write-back whose bank is free in this bank cycle takes it for its next step: good data is
written back; after a re-read or a re-send it is read again, and a bad read retires the row, whose other blocks are copied first
(R161, R165, R171). -/
def execLoftWritebackVerify (b : Barn) (good : Bool) (s : State) : Res :=
  .next (match (s.loft b).fixes.find? (fun x => s.loftFree b (blkBank x.1) && !s.rereadFirst b (blkBank x.1)) with
    | none => s
    | some (blk, st) => (s.takeLoft b (blkBank blk)).fixStep b blk st good)

end Sys2Proof.Machine
end

