-- ==== Sys2Proof/Machine/Bale.lean ====
section
/-! DEFINITION. Job keys, bales, shards, two-phase activation and adapter notices on a device (R390-R400). -/

namespace Sys2Proof.Machine

/-- A command of the device ring: port, SEQ, and the 64 bytes of its entry (R363). -/
structure DevCmd where
  port : Nat
  seq : Nat
  body : List Byte
  deriving DecidableEq, Repr

def DevCmd.op (c : DevCmd) : Nat := field c.body 4 1
def DevCmd.tag (c : DevCmd) : Nat := field c.body 8 8
def DevCmd.ctx (c : DevCmd) : Nat := field c.body 16 1

/-- The device record that answers a command. -/
def State.answerDev (s : State) (c : DevCmd) (status ctx detail value : Nat) : State :=
  s.devRec c.port ⟨c.tag, c.seq, c.op, status, ctx, detail, value⟩

/-- The answer of a security command: STATUS 0 and a result code; results 1 to 6 raise SEC_MANIFEST_REJECTED (R390). -/
def State.answerSec (s : State) (c : DevCmd) (code : Nat) : State :=
  (if 1 ≤ code ∧ code ≤ 6 then s.raise { code := 0x0A03, blk := 28, job := some c.ctx } else s).answerDev c 0 c.ctx 0 code

def State.deployState (s : State) (j : Nat) : Nat := s.fget (F.SEC_JOB_STATE_DEPLOY j)
def State.keyState (s : State) (j : Nat) : Nat := s.fget (F.SEC_JOB_STATE_KEY j)

/-! ### The job key (R391) -/

/-- The result of JOB_KEY on a record, with the key. -/
def State.jobKeyCheck (s : State) (j : Nat) (r : List Byte) : Nat × Nat :=
  if !allZero (r.drop 1618) then (1, 0)
  else if s.keyState j ≠ 0 || field r 1616 2 ≠ s.fjob j then (7, 0)
  else match unwrapKey (ascii "SL9 job key") (r.take 1568) ((r.drop 1616).take 2) ((r.drop 1568).take 48) with
    | none => (5, 0)
    | some k => if 256 ≤ s.keysUsed then (8, 0) else (0, k)

/-- JOB_KEY. -/
def State.jobKey (s : State) (h : List HostPiece) (c : DevCmd) : State :=
  let j := c.ctx
  let rd := s.hread c.port h (field c.body 24 8) 1632
  match rd.1 with
  | none => rd.2.answerDev c 11 j 0 0
  | some r =>
    let k := rd.2.jobKeyCheck j r
    if k.1 ≠ 0 then rd.2.answerSec c k.1
    else
      ((((rd.2.updSec j (fun x => { x with kjob := some k.2, keyDigest := shake r })).fset (F.SEC_JOB_STATE_KEY j) 1).showKeys).answerSec c 0)

/-! ### Opening a bale (R392, R399) -/

/-- The granules of a device's shards become WEIGHT. -/
def State.weighGranules (s : State) (xs : List Shard) : State :=
  xs.foldl (fun s x => s.updLoft x.loft (fun l =>
    { l with cls := Tab.setRun zeroNat l.cls x.gran (List.replicate x.count 1) })) s

def Bale.allVerified (b : Bale) : Bool := b.shards.all (fun x => x.st = 2)

/-- Shards of this device verified for the deployment. -/
def State.showShards (s : State) (j : Nat) : State :=
  match (s.secJob j).dep with
  | some b => s.fset (F.SEC_JOB_STATE_SHARDS_OK j) (b.shards.filter (fun x => x.st = 2)).length
  | none => s

/-- When every shard has verified, the bale is VERIFIED and the verify record goes to the head (R395, R399). -/
def State.checkVerified (s : State) (j kind slot : Nat) : State :=
  match (s.secJob j).bale kind slot with
  | none => s
  | some b =>
    if b.verified || !b.allVerified || (kind = 0 && s.deployState j ≠ 1) then s
    else
      let s1 := s.updSec j (fun c => c.setBale kind slot (some { b with verified := true }))
      (if kind = 0 then s1.fset (F.SEC_JOB_STATE_DEPLOY j) 2 else s1).sendVerify j kind slot b

/-- What an adapter's manifest must be beside R392: the one that the slot's notice names. -/
def State.noticeFits (s : State) (j slot : Nat) (m : List Byte) : Bool :=
  match (s.secJob j).notices.find? (fun n => n.1 = slot) with
  | some n => n.2.1 = field m 16 4 && n.2.2.1 = field m 20 4 && n.2.2.2 = shake m
  | none => false

/-- The bale that a manifest opens on this device. -/
def State.baleOf (s : State) (j kind slot : Nat) (m : List Byte) : Option Bale :=
  (s.mfMine j m).bind (fun i => (mfKey m i).map (fun k =>
    { key := k, dep := field m 8 8, ver := field m 20 4, adId := field m 16 4, mhash := shake m
      shards := s.mfShardsOf j kind slot m (mfDev m i), since := s.refNs, verified := false }))

/-- The state does not allow the bale: no job key; a deployment that is open already; an adapter slot that holds this very
bale. -/
def State.baleBarred (s : State) (j kind slot : Nat) (m : List Byte) : Bool :=
  s.keyState j ≠ 1 ||
  (if kind = 0 then s.deployState j ≠ 0
   else match (s.secJob j).slot slot with
     | some b => b.mhash = shake m
     | none => false)

/-- BALE_OPEN. -/
def State.baleOpen (s : State) (h : List HostPiece) (c : DevCmd) : State :=
  let j := c.ctx
  let kind := field c.body 17 1
  let slot := field c.body 18 1
  let rd := s.hread c.port h (field c.body 24 8) (field c.body 32 4)
  match rd.1 with
  | none => rd.2.answerDev c 11 j 0 0
  | some m =>
    let s0 := rd.2
    let code := s0.mfCheck j kind slot m (kind = 0 || s0.noticeFits j slot m)
    if code ≠ 0 then s0.answerSec c code
    else if s0.baleBarred j kind slot m then s0.answerSec c 7
    else if 256 ≤ s0.keysUsed then s0.answerSec c 8
    else match s0.baleOf j kind slot m with
      | none => s0.answerSec c 5
      | some b =>
        let s1 := ((s0.updSec j (fun x => x.setBale kind slot (some b))).weighGranules b.shards).showKeys
        let s2 := if kind = 0 then (s1.fset (F.SEC_JOB_STATE_DEPLOY j) 1).showShards j else s1
        (s2.answerSec c 0).checkVerified j kind slot

/-! ### Shards (R389, R393) -/

/-- Replace a shard of an open bale. -/
def State.updShard (s : State) (j kind slot i : Nat) (f : Shard → Shard) : State :=
  s.updSec j (fun c =>
    match c.bale kind slot with
    | some b => c.setBale kind slot (some { b with shards := b.shards.modify i f })
    | none => c)

/-- BALE_SHARD starts the load of a shard; its answer follows at the end. -/
def State.baleShard (s : State) (c : DevCmd) : State :=
  let j := c.ctx
  let kind := field c.body 17 1
  let slot := field c.body 18 1
  let i := field c.body 20 4
  match (s.secJob j).bale kind slot with
  | none => s.answerSec c 7
  | some b =>
    match b.shards[i]? with
    | none => s.answerSec c 6
    | some x =>
      if x.st = 1 || (kind = 0 && 3 < s.deployState j) then s.answerSec c 7
      else
        let s1 := s.updShard j kind slot i (fun x => { x with st := 1, src := field c.body 24 8 })
        { s1 with sec := { s1.sec with loads := s1.sec.loads ++ [⟨c.port, c.tag, c.seq, j, kind, slot, i⟩] } }

/-- Open granule `g` of a shard (R389). -/
def openGranule (b : Bale) (x : Shard) (g : Nat) (ct : List Byte) : Option (List Byte) :=
  gcmOpen (keyOf b.key) (BitVec.ofNat 96 (x.id * 2 ^ 64 + g * 2 ^ 32)) (leBytes 8 b.dep ++ leBytes 4 b.ver)
    (ct.take 65536) (beNat (ct.drop 65536))

/-- Read, open and write granules from `g` on; the plaintext so far, and how it ended: 0, AUTH 9, or 11 for a failed
read. -/
def State.loadGranules (p : Nat) (h : List HostPiece) (b : Bale) (x : Shard) : Nat → Nat → List Byte → State → (Nat × List Byte) × State
  | 0, _, acc, s => ((0, acc), s)
  | n + 1, g, acc, s =>
    let rd := s.hread p h (x.src + 65552 * g) 65552
    match rd.1 with
    | none => ((11, acc), rd.2)
    | some ct =>
      match openGranule b x g ct with
      | none => ((9, acc), rd.2)
      | some pt =>
        State.loadGranules p h b x n (g + 1) (acc ++ pt)
          (rd.2.hubPut (x.loft * 0x80000000 + (x.gran + g) * 65536) 0 true pt)

/-- A rejected shard or granule is counted (R407). -/
def State.countReject (s : State) (j : Nat) : State := s.fsat (F.SEC_JOB_RX_SHARD_REJECT j) 1

/-- A shard's load has ended with a result. -/
def State.shardEnds (s : State) (q : BaleJob) (code : Nat) : State :=
  let s1 := s.updShard q.job q.kind q.slot q.shard (fun x => { x with st := if code = 0 then 2 else 0 })
  let s2 := s1.showShards q.job
  let s3 := if code = 9 ∨ code = 10 then (s2.countReject q.job).raise { code := 0x0A04, blk := 28, job := some q.job } else s2
  let s4 := if code = 11 then s3.devRec q.port ⟨q.tag, q.seq, 0x31, 11, q.job, 0, 0⟩
    else s3.devRec q.port ⟨q.tag, q.seq, 0x31, 0, q.job, 0, code⟩
  if code = 0 then s4.checkVerified q.job q.kind q.slot else s4

/-- SHARD_VERIFIED: the n-th shard load in progress has read, opened and written its granules (R393). -/
def execShardVerified (n : Fin 4096) (host : List HostPiece) (s : State) : Res :=
  .next (match s.sec.loads[n.val]? with
    | none => s
    | some q =>
      let s0 := { s with sec := { s.sec with loads := s.sec.loads.eraseIdx n.val } }
      match (s0.secJob q.job).bale q.kind q.slot with
      | none => s0
      | some b =>
        match b.shards[q.shard]? with
        | none => s0
        | some x =>
          let r := State.loadGranules q.port host b x x.count 0 [] s0
          r.2.shardEnds q (if r.1.1 ≠ 0 then r.1.1 else if shake r.1.2 = x.hash then 0 else 10))

/-! ### Granules fetched again (R400) -/

/-- The block that a request waits for, at its device-local address. -/
def srcAddr (src : Nat) : Nat := src / 0x800000 * 0x80000000 + src % 0x800000 * 256

/-- The host has no copy: the next source of R168, of which none is left. -/
def State.granuleGone (s : State) (src : Nat) : State :=
  match s.failAt (srcAddr src) with
  | some (n, f) => s.lostBlock n f
  | none => s

/-- BALE_GRANULE. -/
def State.baleGranule (s : State) (h : List HostPiece) (c : DevCmd) : State :=
  let j := c.ctx
  let key := (field c.body 17 1, field c.body 18 1, field c.body 20 4, field c.body 24 4)
  let at_ := field c.body 32 8
  match (s.secJob j).wants.find? (fun w => (w.1, w.2.1, w.2.2.1, w.2.2.2.1) = key) with
  | none => s.answerSec c 7
  | some w =>
    let src := w.2.2.2.2
    let s0 := s.updSec j (fun x => { x with wants := x.wants.erase w })
    if at_ = 0 then (s0.granuleGone src).answerSec c 0
    else
      let rd := s0.hread c.port h at_ 65552
      match rd.1 with
      | none => (rd.2.granuleGone src).answerDev c 11 j 0 0
      | some ct =>
        match ((rd.2.secJob j).bale key.1 key.2.1).bind (fun b =>
            (b.shards[key.2.2.1]?).bind (fun x => openGranule b x key.2.2.2 ct)) with
        | none =>
          (((rd.2.countReject j).raise { code := 0x0A09, blk := 28, job := some j }).granuleGone src).answerDev c 0 j 0 9
        | some pt =>
          let ls := bytesLines 4 ((pt.drop (src % 256 * 256)).take 256)
          let s1 := { rd.2 with yok := { rd.2.yok with resent := rd.2.yok.resent ++ [(srcAddr src, ls.map (fun l => (⟨l, 0, false⟩ : LineVal)))] } }
          s1.answerSec c 0

/-! ### Two-phase activation (R394-R397) -/

/-- COMMIT: the head's counter G has reached the peer count (R395). -/
def execCommit (j : JobId) (s : State) : Res :=
  .next (match (s.secJob j).dep with
    | none => s
    | some b =>
      if !s.isHead j || (s.secJob j).commitSent || (s.job j).phase = .free ||
          (s.ctr (keyGate (s.gateG j))).val < s.peerCount j then s
      else
        let s1 := s.updSec j (fun c => { c with commitSent := true })
        let recs := (List.range (s.infoOf j).ranks.length).map (fun r => s.hubGet (s.areaOf j + 0x8000 + 64 * r) 64)
        if recs.all (fun r => field r 16 32 = b.mhash) then
          let t := max (s.infoOf j).launch (s.nowNs + 1000 * s.fget F.SEC_CTRL_COMMIT_LEAD_US)
          s1.hubSendAll j (s.areaOf j) 0 (s.gateG j + 1) 1 true (pad 64 (leBytes 8 b.dep ++ leBytes 8 t ++ leBytes 32 b.mhash))
        else s1.hubErr j 0x0A07 0)

/-- COMMIT_RECEIVED: counter G + 1 has reached 1 (R396). -/
def execCommitReceived (j : JobId) (s : State) : Res :=
  .next (if (s.job j).phase = .free || s.deployState j = 3 || s.deployState j = 5 || (s.ctr (keyGate (s.gateG j + 1))).val < 1 then s
    else
      let line := s.hubGet (s.areaOf j) 64
      let ok : Bool := match (s.secJob j).dep with
        | some b => field line 0 8 = b.dep && field line 16 32 = b.mhash && s.deployState j = 2
        | none => false
      if ok then
        let t := field line 8 8
        let s1 := (s.fset (F.SEC_JOB_STATE_DEPLOY j) 3).updInfo j (fun i => { i with launch := t })
        ((s1.fset (F.PCR_JOB_LAUNCH_NS j) t).updJob j (fun jb =>
          { jb with launchPending := jb.phase = .ready && !s.fbit (F.YOK_JOB_CFG_REJOIN j) })).lateLaunch j
      else (s.hubErr j 0x0A07 0).fset (F.SEC_JOB_STATE_DEPLOY j) 5)

/-- DEPLOY_TIMEOUT_S in ns: 0 acts as 600. -/
def State.deployLimit (s : State) : Nat :=
  let t := s.fget F.SEC_CTRL_DEPLOY_TIMEOUT_S
  (if t = 0 then 600 else t) * 1000000000

/-- DEPLOY_TIMEOUT: of a job's deployment, or on the head of an adapter slot that is still LOADING (R397, R399). -/
def execDeployTimeout (j : JobId) (slot : Option (Fin 256)) (s : State) : Res :=
  .next (match slot with
    | none => match (s.secJob j).dep with
      | none => s
      | some b =>
        if (s.deployState j = 1 || s.deployState j = 2) && decide (b.since + s.deployLimit ≤ s.refNs) then
          (s.fset (F.SEC_JOB_STATE_DEPLOY j) 4).hubErr j 0x0A05 0
        else s
    | some i =>
      let a := s.adSlot j i
      if s.isHead j && a.st = 1 && decide (a.since + s.deployLimit ≤ s.refNs) then
        ((s.freeSlot j i).hubErr j 0x0A05 0).answerCmd j a.tag 2 4 1
      else s)

/-! ### Adapter notices (R399) -/

/-- The notice of a slot as the area holds it; none when it is not VALID. -/
def State.noticeAt (s : State) (j i : Nat) : Option (Nat × Nat × Nat) :=
  let l := s.hubGet (s.areaOf j + 0x40 + 64 * i) 64
  if field l 0 1 ≠ 0 then some (field l 4 4, field l 8 4, field l 16 32) else none

/-- ADAPTER_NOTICE: counter G + 2 has risen; a slot whose notice is new asks the host for its bale. -/
def execAdapterNotice (j : JobId) (s : State) : Res :=
  .next (if !(s.job j).live || (s.ctr (keyGate (s.gateG j + 2))).val = 0 then s
    else (List.range 256).foldl (fun s i =>
      match s.noticeAt j i with
      | none => s
      | some n =>
        let staged := ((s.secJob j).notices.find? (fun x => x.1 = i)).map (fun x => (x.2.1, x.2.2.1))
        if staged = some (n.1, n.2.1) then s
        else
          (s.updSec j (fun c => { c with notices := Tab.put i n c.notices })).devNote (s.ring j).port 0x3E 0 j i
            (n.1 + n.2.1 * 2 ^ 32)) s)

end Sys2Proof.Machine
end

