-- ==== Sys2Proof/Machine/HostPort.lean ====
section
/-! DEFINITION. The host ports: the device ring and its commands, COPY, ownership, presence, interrupts and BAR2 (R355-R379,
R405, R467). -/

namespace Sys2Proof.Machine

/-! ### Presence (R376) -/

/-- The contexts that a port owns. -/
def State.ownedBy (s : State) (p : Nat) : List Nat :=
  (List.range 8).filter (fun j => s.fbit (F.HST_CTX_OWNED p j))

/-- HST_PORT_STATE[ABSENT] and [IDE_SECURE] follow the port. -/
def State.showPort (s : State) (p : Nat) : State :=
  (s.fsetB (F.HST_PORT_STATE_ABSENT p) (s.hst p).absent).fsetB (F.HST_PORT_STATE_IDE_SECURE p) (s.hst p).ideSecure

/-- A port becomes absent: it stays so until each context that it owns is attached again or taken. -/
def State.portAbsent (s : State) (p : Nat) : State :=
  let own := s.ownedBy p
  let s1 := if (s.hst p).absent then s else s.fwrap (F.HST_PORT_STATE_DOWNS p) 1
  let s2 := if (s.hst p).absent || own = [] then s1 else s1.hstErr p 0x0901
  (s2.updHst p (fun h => { h with absent := true, waiting := own })).showPort p

/-- A port that waits for no context any more is present while its link is up. -/
def State.portBack (s : State) (p : Nat) : State :=
  let h := s.hst p
  if h.up && !h.perst && h.waiting = [] then (s.updHst p (fun h => { h with absent := false })).showPort p else s

/-- A context is attached again, or has gone to the other port. -/
def State.settled (s : State) (j : Nat) : State :=
  [0, 1].foldl (fun s p => (s.updHst p (fun h => { h with waiting := h.waiting.filter (· ≠ j) })).portBack p) s

/-- A COPY that cannot go on is answered with a status. -/
def State.endCopy (s : State) (status : Nat) (c : CopyCmd) : State :=
  { s with copies := s.copies.erase c }.devRec c.port ⟨c.tag, c.seq, if c.in_ then 0x24 else 0x25, status, c.job, 0, 0⟩

/-- The host-DMA requests of a port that goes down end as failed reads (R373, R376). -/
def State.failCopies (s : State) (p : Nat) : State :=
  (s.copies.filter (fun c => c.port = p)).foldl (fun s c => (s.readFailed p).endCopy 11 c) s

/-- The device-ring state of a port is reset (R364). -/
def HostSt.ringReset (h : HostSt) : HostSt :=
  { h with devCons := 0, devCpl := 0, devDone := 0, fresh := true, stall := none, stallSaid := false }

/-- A port's link is gone: its width and speed read down. -/
def State.linkGone (s : State) (p : Nat) : State :=
  let s1 := s.updHst p (fun h => { h.ringReset with up := false })
  ((((s1.fset (F.HST_PORT_STATE_WIDTH p) 0).fset (F.HST_PORT_STATE_SPEED p) 0).fset (F.HST_PORT_STATE_FLIT p) 0).portAbsent p).failCopies p

/-- HOST_LINK_DOWN. -/
def execHostLinkDown (p : HostPort) (s : State) : Res := .next (if (s.hst p).up then s.linkGone p else s)

/-- The device is out of reset, as far as its host ports go (R462). -/
def State.powered (s : State) : Bool := s.tck.pwrGood && !s.tck.sysReset

/-- HOST_LINK_UP: the data link layer comes up with a width, a speed and FLIT mode as the registers code them, and with
SR-IOV as the host has configured it (R355, R467). -/
def execHostLinkUp (p : HostPort) (width speed : Fin 4) (flit vfs : Bool) (s : State) : Res :=
  .next (if (s.hst p).perst || !s.powered then s
    else
      let s1 := s.updHst p (fun h => { h with up := true, vfOn := vfs })
      (((s1.fset (F.HST_PORT_STATE_WIDTH p) width).fset (F.HST_PORT_STATE_SPEED p) speed).fsetB (F.HST_PORT_STATE_FLIT p) flit).portBack p)

/-- What PERST_x_N resets beside the link (R376, R435, R461). -/
def State.perstReset (s : State) (p : Nat) : State :=
  let s1 := s.updHst p (fun h =>
    { h.ringReset with fired := [], due := [], masked := [], pend := [], vfOn := false, ideSecure := false, ideKeys := [] })
  let s2 := ((s1.setReg (R.HST_DEVRING_BASE p) 0).setReg (R.HST_DEVRING_HDR p) 0).setReg (R.HST_DEVCPL_BASE p) 0
  let s3 := (s2.commitRef .hst p).fset (F.TCK_MBX_CTL_LEVEL p) 0
  { s3 with sec := { s3.sec with spdm := s3.sec.spdm.filter (fun x => x.1 ≠ p) } }

/-- PERST_ASSERT: the port's state resets and the port becomes absent; jobs and ownership stay. -/
def execPerstAssert (p : HostPort) (s : State) : Res :=
  .next (((s.updHst p (fun h => { h with perst := true })).linkGone p).perstReset p |>.showPort p)

/-- PERST_DEASSERT: link training may begin (R467). -/
def execPerstDeassert (p : HostPort) (s : State) : Res := .next (s.updHst p (fun h => { h with perst := false }))

/-- IDE_FAULT: the stream goes to Insecure and the port counts as absent (R361). -/
def execIdeFault (p : HostPort) (s : State) : Res :=
  .next (if !(s.hst p).ideSecure then s
    else
      let s1 := (s.updHst p (fun h => { h with ideSecure := false })).fsat (F.HST_ERRCNT_IDE_FAULT p) 1
      (s1.hstErr p 0x0907).portAbsent p)

/-- A secured session is established on a transport (R383). -/
def State.inSession (s : State) (t : Nat) : Bool := Tab.get zeroNat s.sec.spdm t = 2

/-- IDE_KM: host software sets the keys of a stream in a secured session, and the stream is Secure (R361, R383). -/
def execIdeKm (p : HostPort) (stream : Fin 5) (s : State) : Res :=
  .next (if !s.canRead p || !s.inSession p then s
    else (s.updHst p (fun h =>
      { h with ideSecure := true, ideKeys := if h.ideKeys.contains stream.val then h.ideKeys else h.ideKeys ++ [stream.val] })).portBack p |>.showPort p)

/-! ### Interrupts (R360) -/

/-- MSI_X_FIRE: the host has set or cleared the mask bit of a vector, or its moderation interval has passed. -/
def execMsiXFire (p : HostPort) (fn : Fin 9) (vec : Fin 16) (masked : Bool) (s : State) : Res :=
  let k := 16 * fn.val + vec.val
  .next (
    let rest := (s.hst p).masked.filter (· ≠ k)
    let s1 := s.updHst p (fun h => { h with masked := if masked then rest ++ [k] else rest })
    let h := s1.hst p
    if !masked && h.pend.contains k then
      (s1.updHst p (fun h => { h with pend := h.pend.filter (· ≠ k) })).fireVec p fn vec
    else if h.due.contains k then s1.fireVec p fn vec
    else s1)

/-! ### Writing and reading device memory for a host (R359, R372) -/

/-- Write bytes inside one line: the line takes the epoch, and its poison mark is cleared. A loft bank that is not ON
discards the write (R164); a WEIGHT granule is never written (R167). -/
def State.hostStore (s : State) (j a epoch : Nat) (bs : List Byte) : State :=
  match s.place a with
  | .spad b k off =>
    let i := 48 * b + k
    let old := s.seeLine i (off / 64)
    let v := setBits old.data.toNat (8 * (off % 64)) (8 * bs.length) (leNat bs)
    s.pokeLine i (off / 64) ⟨BitVec.ofNat 512 v, epoch, false⟩
  | .loft n off =>
    if Tab.get zeroNat (s.loft n).cls (off / 65536) = 1 then s
    else if (s.bank n (blkBank (off / 256))).st = 0 then
      s.loftStore n (off / 256) (some j) false (byteMask (off % 256) bs.length)
        (fun w => { w.put (off % 256) bs false with poison := false })
    else s.loftErr n 0x0306 (off / 256) (some j) none 0
  | _ => s

/-- Cut bytes that start at an address at the ends of lines. -/
def cutLines : Nat → Nat → List Byte → List (Nat × List Byte)
  | 0, _, _ => []
  | n + 1, a, bs =>
    if bs = [] then []
    else
      let k := 64 - a % 64
      (a, bs.take k) :: cutLines n (a + k) (bs.drop k)

/-! ### COPY (R372) -/

/-- The counter that a COPY_IN's selector names: a stall-local object of the stall that it writes, an object of the barn
that it writes, or a gate counter of the job. `none` in the second place for the null selector. -/
def State.copyKey (s : State) (j a sel : Nat) : Option (Option Nat) :=
  match bits sel 15 14, s.place a with
  | 0, .spad b k _ => if bits sel 13 0 < 64 then some (some (keyLocal b k (bits sel 13 0))) else none
  | 1, .spad b _ _ => if bits sel 13 0 < 2048 then some (some (keyBarn b (bits sel 13 0))) else none
  | 1, .loft b _ => if bits sel 13 0 < 2048 then some (some (keyBarn b (bits sel 13 0))) else none
  | 2, _ => if s.gateOwned j (bits sel 13 0) then some (some (keyGate (bits sel 13 0))) else none
  | 3, _ => some none
  | _, _ => none

/-- The range and the selector of a COPY are admitted. -/
def State.copyOk (s : State) (c : CopyCmd) : Bool :=
  0 < c.len && c.len % 64 = 0 && c.len ≤ 67108864 && c.host % 64 = 0 && c.addr % 64 = 0 && c.addr + c.len ≤ 0xD80000000 &&
  s.inMemory (s.ownsBarn c.job) c.addr c.len && !s.touchesWeight c.addr c.len &&
  (!c.in_ || (s.copyKey c.job c.addr c.sel).isSome)

/-- COPY_IN and COPY_OUT begin, or are DENIED. -/
def State.beginCopy (s : State) (c : DevCmd) (in_ : Bool) : State :=
  let b := c.body
  let q : CopyCmd :=
    { port := c.port, job := c.ctx, in_ := in_, epoch := field b 17 1 % 16, fence := bit (field b 17 1) 4
      sel := field b 18 2, inc := field b 20 1, host := field b 24 8, addr := field b 32 8, len := field b 40 4
      tag := c.tag, seq := c.seq }
  if s.copyOk q then { s with copies := s.copies ++ [q] } else s.answerDev c 10 c.ctx 0 0

/-- The destination point of a device-local range (R197). -/
def State.pointAt (s : State) (a : Nat) : Nat :=
  match s.place a with
  | .spad b _ _ => b
  | .loft n _ => n
  | _ => 28

/-- A fenced COPY_IN waits for the earlier ones of its port to the same destination point. -/
def State.copyWaits (s : State) (n : Nat) (c : CopyCmd) : Bool :=
  c.in_ && c.fence &&
  (s.copies.take n).any (fun d => d.in_ && d.port = c.port && s.pointAt d.addr = s.pointAt c.addr)

/-- COPY_COMPLETE: the n-th COPY in progress performs its last byte and is answered. A COPY_IN whose range a bale has made
WEIGHT meanwhile is DENIED (R167, R372). -/
def execCopyComplete (n : Fin 65536) (host : List HostPiece) (s : State) : Res :=
  .next (match s.copies[n.val]? with
    | none => s
    | some c =>
      if s.copyWaits n c then s
      else if c.in_ && s.touchesWeight c.addr c.len then s.endCopy 10 c
      else if c.in_ then
        let rd := s.hread c.port host c.host c.len
        match rd.1 with
        | none => rd.2.endCopy 11 c
        | some bs =>
          let s1 := (cutLines (c.len / 64) c.addr bs).foldl (fun s x => s.hostStore c.job x.1 c.epoch x.2) rd.2
          let s2 := match s1.copyKey c.job c.addr c.sel with
            | some (some key) => s1.signal key c.inc
            | _ => s1
          s2.endCopy 0 c
      else
        let bs := s.hubGet c.addr c.len
        let s1 := (s.offBanks c.job c.addr c.len).hostWrite c.port c.host bs
        { s1 with copies := s1.copies.erase c }.devRec c.port ⟨c.tag, c.seq, 0x25, 0, c.job, 0, s.poisonedLines c.addr c.len⟩)

/-! ### BAR2 (R359, R361) -/

/-- A barn of a job context that the port owns. -/
def State.ownedBarn (s : State) (p b : Nat) : Bool :=
  match (s.barn b).owner with
  | some j => s.fbit (F.HST_CTX_OWNED p j)
  | none => false

/-- May the port's BAR2 reach these bytes? -/
def State.barOk (s : State) (p a n : Nat) (wr : Bool) : Bool :=
  0 < n && a + n ≤ 0xF00000000 &&
  (List.range ((a + n - 1) / 64 - a / 64 + 1)).all (fun i =>
    let x := max a ((a / 64 + i) * 64)
    match s.place x with
    | .loft m off => s.ownedBarn p m && Tab.get zeroNat (s.loft m).cls (off / 65536) ≠ 1
    | .spad b _ _ => s.ownedBarn p b
    | .acc b _ _ _ => s.ownedBarn p b && n = 4 && a % 4 = 0
    | .ctr key _ =>
      n = 4 && a % 4 = 0 && (match ctrBarn key with
        | some b => s.ownedBarn p b
        | none => (s.ownedBy p).any (fun j => s.gateOwned j (key - 0x200000)))
    | .store b _ => s.ownedBarn p b && !wr
    | _ => false)

/-- What a BAR2 read finds: its value and its poison. -/
def State.barRead (s : State) (a n : Nat) : Nat × Bool :=
  match s.place a with
  | .ctr key _ => ((s.ctr key).val, false)
  | .acc b k arr off =>
    let row := s.seeAcc (48 * b + k) (1024 * arr + off / 128)
    (bits row.v.toNat (8 * (off % 128) + 31) (8 * (off % 128)), row.poison)
  | .store b off =>
    (leNat ((((Tab.getRun zero32 (s.barn b).store (off / 4) (n / 4 + 2)).flatMap (fun w => leBytes 4 w.toNat)).drop (off % 4)).take n), false)
  | _ => (leNat (s.hubGet a n), (List.range ((a % 64 + n + 63) / 64)).any (fun i => (s.hubPeek (a / 64 * 64 + 64 * i)).poison))

/-- Write what BAR2 carries; a sync object or gate counter is set (R73), an accumulator unit replaced (R111). -/
def State.barWrite (s : State) (a : Nat) (bs : List Byte) : State :=
  match s.place a with
  | .ctr key _ => s.updCtr key (fun c => { c with writes := c.writes ++ [leNat bs] })
  | .acc b k arr off =>
    let row := 1024 * arr + off / 128
    let old := s.seeAcc (48 * b + k) row
    let new : AccRow := ⟨BitVec.ofNat 1024 (setBits old.v.toNat (8 * (off % 128)) 32 (leNat bs)), false⟩
    s.pokeAcc (48 * b + k) row new
  | .spad b _ _ => (cutLines (bs.length / 64 + 2) a bs).foldl (fun s x => s.hostStore ((s.barn b).owner.getD 0) x.1 0 x.2) s
  | .loft b _ => (cutLines (bs.length / 64 + 2) a bs).foldl (fun s x => s.hostStore ((s.barn b).owner.getD 0) x.1 0 x.2) s
  | _ => s

/-- A BAR2 read of a bank that is not ON (R164). -/
def State.barOff (s : State) (a n : Nat) : State :=
  match s.place a with
  | .loft m _ => s.offBanks ((s.barn m).owner.getD 0) a n
  | _ => s

/-- BAR2_ACCESS: a write of bytes or a read of `len` bytes; `ide` says that an IDE stream protects the request. -/
def execBar2Access (p : HostPort) (addr : Fin 68719476736) (wr : Option (List Byte)) (len : Fin 4097) (ide : Bool) (s : State) : Res :=
  let n := match wr with | some bs => bs.length | none => len.val
  .next (if !s.canRead p then s
    else if s.fbit (F.HST_PORT_CFG_IDE_REQUIRED p) && !ide then
      (if wr.isNone then s.send (.answer p 1 0) else s)
    else if !s.barOk p addr n wr.isSome then
      let s1 := (s.fsat (F.HST_ERRCNT_BAR_DENIED p) 1).hstErr p 0x0904
      if wr.isNone then s1.send (.answer p 1 0) else s1
    else match wr with
      | some bs => s.barWrite addr bs
      | none =>
        let r := s.barRead addr n
        (s.barOff addr n).send (.answer p (if r.2 then 2 else 0) r.1))

/-! ### Stalled rings (R363) -/

/-- RING_STALL_TIMEOUT: the same entry of a device ring, or of a job's ring, has shown a wrong SEQ for 1 ms. -/
def execRingStallTimeout (p : HostPort) (job : Option JobId) (s : State) : Res :=
  .next (match job with
    | none =>
      let h := s.hst p
      (match h.stall with
       | some (_, t) =>
         if h.stallSaid || s.refNs < t + 1000000 then s
         else ((s.updHst p (fun h => { h with stallSaid := true })).fsat (F.HST_ERRCNT_RING_STALL p) 1).hstErr p 0x0902
       | none => s)
    | some j =>
      let r := s.ring j
      (match r.stall with
       | some (_, t) =>
         if r.port ≠ p.val || r.stallSaid || s.refNs < t + 1000000 then s
         else ((s.updRing j (fun r => { r with stallSaid := true })).fsat (F.HST_ERRCNT_RING_STALL p) 1).hstErr p 0x0902
       | none => s))

/-! ### Creating a job (R17, R367, R368) -/

/-- A job record as its bytes give it; the checks of R367. -/
def jobRecOf (c : DevCmd) (b : List Byte) : JobRec :=
  { port := c.port, tag := c.tag, seq := c.seq, barns := field b 0 3, slow := bit (field b 5 1) 0
    resume := bit (field b 5 1) 1, fjob := field b 6 2, launch := field b 8 8, img := field b 16 8, imgLen := field b 24 8
    params := field b 32 8, save := field b 40 8, rings := field b 48 8, deploy := field b 56 8, takeHash := field b 64 32
    seed := field b 96 8 }

def jobRecOk (b : List Byte) : Bool :=
  field b 3 1 = 0 && (field b 4 1 < 8 || field b 4 1 = 0xFF) && field b 5 1 < 4 && field b 6 2 ≠ 0 &&
  (bit (field b 5 1) 1 || field b 40 8 = 0) && allZero (b.drop 104)

/-- The context that a job record names: the lowest free one for 0xFF. After a device-fatal error there is none (R413). -/
def State.ctxFor (s : State) (v : Nat) : Option Nat :=
  if s.err.fatal then none
  else if v = 0xFF then firstBelow 8 (fun j => (s.job j).phase = .free)
  else if 8 ≤ v then some 8
  else if (s.job v).phase = .free then some v else none

/-- The context is taken and its barns are the job's; the load goes on. -/
def State.takeContext (s : State) (j : Nat) (r : JobRec) (set : Ring) : State :=
  let barns := onesOf 24 r.barns
  let s1 := s.updJob j (fun _ => { phase := .loading, barns := barns })
  let s2 := barns.foldl (fun s b => (s.updBarn b (fun t => { t with owner := some j })).fset (F.SPD_CLEAR_STATE b) 3) s1
  let s3 := (s2.setLoad j (some r)).updRing j (fun _ => { set with hash := r.takeHash })
  ((s3.setOwner j r.port).fset (F.LDR_STATUS_DONE j) 0).fset (F.PCR_JOB_SLIP_SLIPS j) 0

/-- CREATE_JOB: the checks of R17 come first, then those of R367 and R370. -/
def State.createJob (s : State) (h : List HostPiece) (c : DevCmd) : State :=
  let rd := s.hread c.port h (field c.body 16 8) 128
  match rd.1 with
  | none => rd.2.answerDev c 11 0 0 0
  | some b =>
    let s0 := rd.2
    let barns := onesOf 24 (field b 0 3)
    match s0.ctxFor (field b 4 1) with
    | none => s0.answerDev c 1 0 0 0
    | some j =>
      if barns.any (fun n => (s0.barn n).owner.isSome) then s0.answerDev c 2 0 0 0
      else if barns.any (fun n => s0.fget (F.SPD_CLEAR_STATE n) ≠ 0) then s0.answerDev c 3 0 0 0
      else if !jobRecOk b then s0.answerDev c 5 0 0 0
      else
        let rs := s0.hread c.port h (field b 48 8) 64
        match rs.1 with
        | none => rs.2.answerDev c 11 0 0 0
        | some x =>
          match ringSetOf x with
          | none => rs.2.answerDev c 5 0 0 0
          | some set => rs.2.takeContext j (jobRecOf c b) set

/-! ### Destroying a job (R369, R405) -/

/-- Step 1 of a teardown: the job's packets that wait for a seal engine are discarded, the job halts and says so (R306), and its
copies and bale loads end. -/
def State.fenceJob (s : State) (j : Nat) : State :=
  let s0 := s.updFab (fun f => { f with sealq := f.sealq.filter (fun i => i.job ≠ j) })
  let s1 := s0.haltNow j
  let s2 := (s1.copies.filter (fun c => c.job = j)).foldl (fun s c => s.endCopy 8 c) s1
  let loads := s2.sec.loads.filter (fun q => q.job = j)
  let s3 := loads.foldl (fun s q => s.devRec q.port ⟨q.tag, q.seq, 0x31, 8, j, 0, 0⟩)
    { s2 with sec := { s2.sec with loads := s2.sec.loads.filter (fun q => q.job ≠ j) } }
  (s3.updJob j (fun jb => { jb with phase := .teardown })).fset (F.SEC_JOB_STATE_TEARDOWN j) 1

/-- DESTROY_JOB: answered once the context is free again. -/
def State.destroyJob (s : State) (c : DevCmd) : State :=
  (s.fenceJob c.ctx).setLoad c.ctx (some { port := c.port, tag := c.tag, seq := c.seq })

/-! ### TAKE and REATTACH (R374, R375) -/

/-- Read the ring-set record of a command and attach it. -/
def State.attachCmd (s : State) (h : List HostPiece) (c : DevCmd) (done : State → State) : State :=
  let rs := s.hread c.port h (field c.body 24 8) 64
  match rs.1 with
  | none => rs.2.answerDev c 11 c.ctx 0 0
  | some x =>
    match ringSetOf x with
    | none => rs.2.answerDev c 5 c.ctx 0 0
    | some set =>
      let line := rs.2.hindex c.port h (set.hd + 64)
      if line.1.isNone then line.2.answerDev c 11 c.ctx 0 0
      else
        let a := rs.2.attach c.ctx c.port set h
        ((done a.2).settled c.ctx).answerDev c 0 c.ctx 0 0

/-- REATTACH. -/
def State.reattach (s : State) (h : List HostPiece) (c : DevCmd) : State := s.attachCmd h c (fun s => s)

/-- TAKE: on a matching secret the context moves to the port; the old owner is told if it is present. -/
def State.take (s : State) (h : List HostPiece) (c : DevCmd) : State :=
  let j := c.ctx
  let old := (s.ring j).port
  if shake ((c.body.drop 32).take 32) ≠ (s.ring j).hash then (s.hstErr c.port 0x0906).answerDev c 6 j 0 0
  else
    let idle := s.fget (F.HST_CTX_SUSPENDED_ABSENT old j)
    s.attachCmd h c (fun s1 =>
      let s2 := ((s1.fset (F.HST_CTX_SUSPENDED_ABSENT old j) 0).fset (F.HST_CTX_SUSPENDED_ABSENT c.port j) idle).hstErr c.port 0x0905
      if old ≠ c.port ∧ old < 2 ∧ (s2.hst old).absent = false then s2.devNote old 0x22 12 j 0 0 else s2)

/-! ### The device ring (R363-R365, R390) -/

/-- The body bytes that a command uses. -/
def bodyRuns : Nat → Option (List (Nat × Nat))
  | 0x20 => some [(16, 8)]
  | 0x21 => some [(16, 1)]
  | 0x22 => some [(16, 1), (24, 40)]
  | 0x23 => some [(16, 1), (24, 8)]
  | 0x24 => some [(16, 5), (24, 20)]
  | 0x25 => some [(16, 1), (24, 20)]
  | 0x30 => some [(16, 3), (24, 12)]
  | 0x31 => some [(16, 3), (20, 12)]
  | 0x32 => some [(16, 3), (20, 8), (32, 8)]
  | 0x33 => some [(16, 1), (24, 8)]
  | _ => none

/-- The entry keeps its layout: bytes 5 to 7 and the body bytes that are not listed are zero. -/
def DevCmd.layoutOk (c : DevCmd) (runs : List (Nat × Nat)) : Bool :=
  field c.body 5 3 = 0 &&
  (List.range 48).all (fun i => runs.any (fun r => r.1 ≤ 16 + i && 16 + i < r.1 + r.2) || field c.body (16 + i) 1 = 0) &&
  !(c.op = 0x24 && 32 ≤ field c.body 17 1) && !((c.op = 0x30 || c.op = 0x31 || c.op = 0x32) && 1 < field c.body 17 1)

/-- The context holds a job that commands may name: accepted, and not being torn down. -/
def State.holdsJob (s : State) (j : Nat) : Bool :=
  j < 8 && ((s.job j).live || (s.job j).phase = .halted)

/-- One latched command. -/
def State.devCommand (s : State) (h : List HostPiece) (c : DevCmd) : State :=
  match bodyRuns c.op with
  | none => s.answerDev c 9 0 0 0
  | some runs =>
    if !c.layoutOk runs then s.answerDev c 5 0 0 0
    else if c.op = 0x20 then s.createJob h c
    else if !s.holdsJob c.ctx then s.answerDev c 8 c.ctx 0 0
    else if c.op = 0x22 then s.take h c
    else if (s.ring c.ctx).port ≠ c.port then s.answerDev c 7 c.ctx 0 0
    else if c.op = 0x21 then s.destroyJob c
    else if c.op = 0x23 then s.reattach h c
    else if c.op = 0x24 then s.beginCopy c true
    else if c.op = 0x25 then s.beginCopy c false
    else if c.op = 0x30 then s.baleOpen h c
    else if c.op = 0x31 then s.baleShard c
    else if c.op = 0x32 then s.baleGranule h c
    else s.jobKey h c

/-- The port's device ring is polled (R364, R467). -/
def State.pollsDevice (s : State) (p : Nat) : Bool :=
  s.canRead p && s.fbit (F.HST_PORT_CFG_ENABLE p) && s.fget F.TCK_STATE_STATE = 1

/-- The first poll after a reset of the ring state: line 1 is the consumer, and line 2 is written as 0. -/
def State.startRing (s : State) (p : Nat) (h : List HostPiece) : Bool × State :=
  let hd := s.reg (R.HST_DEVRING_HDR p)
  if (s.hst p).fresh then
    let r := s.hindex p h (hd + 64)
    match r.1 with
    | none => (false, r.2)
    | some i =>
      (true, (r.2.hostWrite p (hd + 128) (leBytes 4 0)).updHst p (fun h =>
        { h with devCons := i, devCpl := 0, devDone := 0, fresh := false }))
  else (true, s)

/-- Latch the commands that the ring holds and the completion ring has room for. -/
def State.latchDev (s : State) (p : Nat) (h : List HostPiece) : List (List Byte) × State :=
  let hd := s.reg (R.HST_DEVRING_HDR p)
  let q := s.hst p
  let room := if 64 ≤ q.held.length then 0 else 64 - (q.devCpl - q.devDone) - q.held.length
  let prod := s.hindex p h hd
  match prod.1 with
  | none => ([], prod.2)
  | some v =>
    let l := prod.2.latchFrom p h (s.reg (R.HST_DEVRING_BASE p)) (s.fget (F.HST_PORT_CFG_DEVRING_LOG2 p)) q.devCons
      (min room (subMod 32 v (q.devCons % 2 ^ 32))) []
    let es := l.1.1
    let cons := q.devCons + es.length
    let s1 := l.2.updHst p (fun h =>
      { h with
        devCons := cons
        stall := if l.1.2 = 2 then stallOf h.stall cons s.refNs else none
        stallSaid := h.stallSaid && l.1.2 = 2 && h.stall.map Prod.fst = some cons })
    (es, if es = [] then s1 else s1.hostWrite p (hd + 64) (leBytes 4 (cons % 2 ^ 32)))

/-- DEVICE_RING_POLL: held records are written, then commands are latched and carried out in order (R363-R366). -/
def execDeviceRingPoll (p : HostPort) (host : List HostPiece) (s : State) : Res :=
  .next (if !s.pollsDevice p then s
    else
      let a := s.startRing p host
      if !a.1 then a.2
      else
        let hd := s.reg (R.HST_DEVRING_HDR p)
        let d := a.2.hindex p host (hd + 192)
        match d.1 with
        | none => d.2
        | some v =>
          let s1 := (d.2.updHst p (fun h => { h with devDone := nearIdx h.devDone v })).flushDev p
          let l := s1.latchDev p host
          l.1.foldl (fun s b => s.devCommand host ⟨p, field b 0 4, b⟩) l.2)

end Sys2Proof.Machine
end

