-- ==== Sys2Proof/Machine/Library.lean ====
section
/-! DEFINITION. What the routines of the Mbosanel library return, as R285-R290, R319 and R338 state it: the generator, the
draws, the sampling routines, the acceptance of drafts and the fold of digests. The code of the routines is not given;
it comes with the firmware image, and CALL.LIB runs its words from the routine store like any others (R58). -/

namespace Sys2Proof.Machine

/-! ### The table of the library (R59) -/

/-- Indices that the library lists: LIB.INFO, SAMPLE.GREEDY, .TEMP, .TOPK, .TOPP, RNG.DRAW, MOE.ROUTE, SSM.SCAN,
DIGEST.FOLD and KV.BLOCKMAP. -/
def libraryIndices : List Nat := [0x000, 0x010, 0x011, 0x012, 0x013, 0x018, 0x020, 0x028, 0x030, 0x038]

/-- The words of a library as a routine store takes them: a table entry whose index is not listed has VALID 0 (R58, R59). -/
def listedTable (lib : Tab Word32) : Tab Word32 :=
  (lib.map (fun e => if e.1 < 4096 && !libraryIndices.contains e.1 then (e.1, e.2 &&& 0x7FFFFFFF#32) else e)).filter
    (fun e => e.2 ≠ 0)

/-- LIB.INFO: x20 is the library's version word and x21 the number of VALID entries of the barn's table (R59). -/
def State.libInfo (s : State) (b : Nat) : Word × Word :=
  (BitVec.ofNat 64 (s.barn b).libver,
   BitVec.ofNat 64 ((s.barn b).store.filter (fun e => e.1 < 4096 && e.2.getLsbD 31)).length)

/-! ### The generator (R285, R286) -/

/-- Four 32-bit words: a counter or a result. -/
structure Quad where
  w0 : Word32
  w1 : Word32
  w2 : Word32
  w3 : Word32
  deriving DecidableEq, Repr

/-- One of the ten rounds. -/
def genRound (k0 k1 : Word32) (c : Quad) : Quad :=
  let p := c.w0.toNat * 0xD2511F53
  let q := c.w2.toNat * 0xCD9E8D57
  ⟨BitVec.ofNat 32 (q / 2 ^ 32) ^^^ c.w1 ^^^ k0, BitVec.ofNat 32 q,
   BitVec.ofNat 32 (p / 2 ^ 32) ^^^ c.w3 ^^^ k1, BitVec.ofNat 32 p⟩

def genRounds : Nat → Word32 → Word32 → Quad → Quad
  | 0, _, _, c => c
  | n + 1, k0, k1, c => genRounds n (k0 + 0x9E3779B9) (k1 + 0xBB67AE85) (genRound k0 k1 c)

/-- gen(k0, k1, c0, c1, c2, c3). -/
def gen (k0 k1 : Word32) (c : Quad) : Quad := genRounds 10 k0 k1 c

/-- The draw for a sequence ID, position, purpose and draw index under a job seed. -/
def drawOf (seed : Word) (seqId pos purpose index : Word32) : Quad :=
  gen (seed.extractLsb' 0 32) (seed.extractLsb' 32 32) ⟨pos, seqId, index, purpose⟩

/-- The uniform of a draw: (w0 shifted right by 8) × 2⁻²⁴. -/
def uniformOf (d : Quad) : Nat := scale32 (intTo32 (d.w0.toNat / 256 : Nat)) (-24)

/-! ### Sampling (R287-R290) -/

/-- x lies above y as FCMP compares: NaN lies above nothing. -/
def floatAbove (x y : Nat) : Bool := !isNan32 x && !isNan32 y && (dec32 y).lt (dec32 x)

/-- A value above +0. -/
def floatPos (x : Nat) : Bool := floatAbove x 0

/-- The values that FADD adds up, one after the other. -/
def runAdds : Nat → List Nat → List Nat
  | _, [] => []
  | a, x :: t => fadd32 a x :: runAdds (fadd32 a x) t

/-- The highest position whose value is above +0. -/
def lastPos (es : List Nat) : Option Nat := ((List.range es.length).filter (fun i => floatPos (es.getD i 0))).getLast?

/-- The largest logit, in the order of FMAX. -/
def maxLogit (zs : List Nat) : Nat := zs.foldl fmax32 0xFF800000

/-- e_i: 0 for −∞, else FEXP(FMUL(FSUB(z_i, m), r)). -/
def expTerm (m r z : Nat) : Nat := if z = 0xFF800000 then 0 else fexp32 (fmul32 (fsub32 z m) r)

/-- What a sampling routine returns (none where the rules leave no token), and what R319 takes from it: whether it acted
as SAMPLE.GREEDY, the terms e, their normalising sum, and the kept candidates where it has any. -/
structure Sampled where
  token : Option Nat
  nan : Bool := false
  empty : Bool := false
  greedy : Bool := false
  es : List Nat := []
  norm : Nat := 0
  kept : Option (List Nat) := none
  deriving DecidableEq, Repr

/-- The four routines: SAMPLE.GREEDY, .TEMP, .TOPK with k, .TOPP with p. -/
inductive Sampler where
  | greedy | temp | topK (k : Nat) | topP (p : Nat)
  deriving DecidableEq, Repr

/-- SAMPLE.TEMP over the terms, with its normalising sum (R289). -/
def tempPick (u : Nat) (es : List Nat) : Option Nat × Nat :=
  let sums := runAdds 0 ((List.range ((es.length + 63) / 64)).map (fun k =>
    treeOf fadd32 6 ((List.range 64).map (fun i => es.getD (64 * k + i) 0))))
  let t := fmul32 u (sums.getLast?.getD 0)
  (match sums.findIdx? (fun x => floatAbove x t) with
    | none => lastPos es
    | some k =>
      let blk := (es.drop (64 * k)).take 64
      (((runAdds (if k = 0 then 0 else sums.getD (k - 1) 0) blk).findIdx? (fun x => floatAbove x t)).or
        (lastPos blk)).map (fun i => 64 * k + i),
   sums.getLast?.getD 0)

/-- Put a token among candidates in descending order of logits, after those that are not below it. -/
def insertCand (zs : List Nat) (i : Nat) : List Nat → List Nat
  | [] => [i]
  | j :: t => if fmaxBelow (zs.getD j 0) (zs.getD i 0) then i :: j :: t else j :: insertCand zs i t

/-- Tokens by descending logit, ties to the lower index (R290). -/
def candidates (zs : List Nat) : List Nat := (List.range zs.length).foldl (fun l i => insertCand zs i l) []

/-- How many candidates SAMPLE.TOPP keeps, from the running sums (R290). -/
def keepP (p : Nat) (sums : List Nat) : Nat :=
  if !floatPos p then 1
  else if !floatAbove one32 p then sums.length
  else
    let c := fmul32 p (sums.getLast?.getD 0)
    match sums.findIdx? (fun x => !isNan32 x && !isNan32 c && !floatAbove c x) with
    | some j => j + 1
    | none => sums.length

/-- The choice among kept candidates: token, and the running sum at the last of them (R290). -/
def candPick (u : Nat) (es kept : List Nat) : Option Nat × Nat :=
  let vals := kept.map (fun i => es.getD i 0)
  let sums := runAdds 0 vals
  let t := fmul32 u (sums.getLast?.getD 0)
  (((sums.findIdx? (fun x => floatAbove x t)).or (lastPos vals)).map (fun j => kept.getD j 0), sums.getLast?.getD 0)

/-- A sampling routine over the logits `zs`, with temperature `temp` and the uniform `u` of its draw. -/
def sample (r : Sampler) (zs : List Nat) (temp u : Nat) : Sampled :=
  match zs.findIdx? isNan32 with
  | some i => ⟨some i, true, false, false, [], 0, none⟩
  | none =>
    if zs.all (fun z => z = 0xFF800000) then ⟨some 0, false, true, false, [], 0, none⟩
    else
      let m := maxLogit zs
      let greedy : Sampled := ⟨zs.findIdx? (fun z => z = m), false, false, true, [], 0, none⟩
      let es := zs.map (expTerm m (frcp32 temp))
      if !floatPos temp then greedy
      else match r with
      | .greedy => greedy
      | .temp => let x := tempPick u es; ⟨x.1, false, false, false, es, x.2, none⟩
      | .topK k =>
        let kept := (candidates zs).take (min (max k 1) 1024)
        let x := candPick u es kept
        ⟨x.1, false, false, false, es, x.2, some kept⟩
      | .topP p =>
        let cs := (candidates zs).take 1024
        let kept := cs.take (keepP p (runAdds 0 (cs.map (fun i => es.getD i 0))))
        let x := candPick u es kept
        ⟨x.1, false, false, false, es, x.2, some kept⟩

/-- The `n` FP32 values in scratchpad from byte offset `off`, as the vector engine reads them (R287). -/
def State.logits (s : State) (b k off n : Nat) : List Nat :=
  let ls := (List.range ((n + 15) / 16)).map (fun i => s.readLine (48 * b + k) (s.beat b) (off / 64 + i))
  (ls.flatMap (fun l => (List.range 16).map (fun i => bits l.data.toNat (32 * i + 31) (32 * i)))).take n

/-- The routine of an index of R59, with k or p from x24[63:32]. -/
def samplerOf (idx k : Nat) : Option Sampler :=
  if idx = 0x010 then some .greedy else if idx = 0x011 then some .temp
  else if idx = 0x012 then some (.topK k) else if idx = 0x013 then some (.topP k) else none

/-- What a sampling routine returns for its arguments in x20–x26: x20 the token, x21 EMPTY, NAN and the offset `fin` of the
beat after its last completion (R287). Its uniform is that of the draw with purpose 0 and draw index 0 for the sequence ID and
position in x23 under the job seed in x22 (R288). -/
def State.samplerCall (s : State) (b k idx : Nat) (x : Nat → Word) (fin : Nat) : Option (Word × Word) :=
  (samplerOf idx ((x 24).toNat / 2 ^ 32)).map (fun r =>
    let zs := s.logits b k (x 20).toNat (x 21).toNat
    let u := uniformOf (drawOf (x 22) ((x 23).extractLsb' 32 32) ((x 23).extractLsb' 0 32) 0 0)
    let y := sample r zs ((x 24).toNat % 2 ^ 32) u
    (BitVec.ofNat 64 (y.token.getD 0), BitVec.ofNat 64 (b2n y.empty * 2 ^ 33 + b2n y.nan * 2 ^ 32 + fin % 2 ^ 24)))

/-- RNG.DRAW: x20 holds w1 and w0, x21 holds w3 and w2 (R287). -/
def rngDraw (seed : Word) (seqId pos purpose index : Word32) : Word × Word :=
  let d := drawOf seed seqId pos purpose index
  (d.w1 ++ d.w0, d.w3 ++ d.w2)

/-! ### The tokens of a VERIFY item (R319) -/

/-- p_j: what the routine gives a draft. -/
def Sampled.draftProb (r : Sampled) (d : Nat) : Nat :=
  if r.greedy then (if r.token = some d then one32 else 0)
  else if (r.kept.getD [d]).contains d then fmul32 (r.es.getD d 0) (frcp32 r.norm)
  else 0

/-- Draft `d` with probability `q` is accepted after those before it; `u` is the uniform of its draw of purpose 1. -/
def Sampled.accepts (r : Sampled) (ratio : Bool) (d q u : Nat) : Bool :=
  if ratio then !r.nan && !r.empty && floatAbove (r.draftProb d) (fmul32 u q) else r.token = some d

/-- TOKENS of the return record: drafts (token, probability, uniform, and what the routine returns at their position), then
what it returns after the last of them. -/
def verifyTokens (ratio : Bool) : List (Nat × Nat × Nat × Sampled) → Sampled → List (Option Nat)
  | [], y => [y.token]
  | (d, q, u, r) :: rest, y => if r.accepts ratio d q u then some d :: verifyTokens ratio rest y else [r.token]

/-- TOKENS for the item at position `pos` of a sequence: the uniform for the draft at pos + j is that of the draw with purpose 1
and draw index 0 there. -/
def itemTokens (seed : Word) (seqId : Word32) (pos : Nat) (ratio : Bool) (drafts : List (Nat × Nat × Sampled)) (last : Sampled) :
    List (Option Nat) :=
  verifyTokens ratio
    (drafts.zipIdx.map (fun x =>
      (x.1.1, x.1.2.1, uniformOf (drawOf seed seqId (BitVec.ofNat 32 (pos + x.2 + 1)) 1 0), x.1.2.2))) last

/-! ### The fold of digests (R338) -/

/-- One word enters the fold. -/
def foldWord (d w : Word) : Word :=
  let x := (d ^^^ w) * 0x9E3779B97F4A7C15
  x ^^^ (x >>> 29)

/-- DIGEST.FOLD over lines with their poison marks: the digest and POISON. -/
def digestFold (d : Word) (lines : List (Line × Bool)) : Word × Bool :=
  (lines.foldl (fun d l => (List.range 8).foldl
      (fun d k => foldWord d (if l.2 then BitVec.allOnes 64 else l.1.extractLsb' (64 * k) 64)) d) d,
   lines.any (·.2))

/-- What DIGEST.FOLD returns for its arguments in x20–x23: x20 the digest, x21 POISON and the offset `fin` of the beat after its
last completion. With CHECK set a line of another epoch is delivered poisoned (R82). -/
def State.foldCall (s : State) (b k : Nat) (x : Nat → Word) (fin : Nat) : Word × Word :=
  let e := (x 23).toNat % 16
  let chk := (x 23).getLsbD 4
  let d := digestFold (x 22) ((List.range (x 21).toNat).map (fun i =>
    let l := s.readLine (48 * b + k) (s.beat b) ((x 20).toNat / 64 + i)
    (l.data, l.poison || (chk && l.epoch ≠ e))))
  (d.1, BitVec.ofNat 64 (b2n d.2 * 2 ^ 32 + fin % 2 ^ 24))

end Sys2Proof.Machine
end

