-- ==== Sys2Proof/Machine/Barns.lean ====
section
/-! DEFINITION. Clearing barns, their libraries, retired stalls and the freeing of barns and contexts (R62, R94, R112, R151,
R186, R195, R405, R417, R438, R465). -/

namespace Sys2Proof.Machine

/-- The stalls that the Tackroom has recorded as retired leave the mask of a barn that belongs to no job (R417). -/
def State.retireStalls (s : State) (b : Nat) : State :=
  let m := s.goodMask b
  let gone := m &&& Tab.get zeroNat s.tck.retired b
  if gone = 0 ∨ (s.barn b).owner.isSome then s
  else ({ s with mask := Tab.set allGood s.mask b (m - gone) }.commitRef .ldr 0).commitRef .stl b

/-- The library of the running image is written into a barn's routine store, with no entry VALID that R59 does not list
(R59, R438, R463). -/
def State.giveLibrary (s : State) (b : Nat) : State :=
  s.updBarn b (fun t => { t with store := listedTable s.tck.lib, libver := s.tck.libVer })

/-- What the clear of a barn writes: its stalls hold zeros and their queues and channels nothing, no shape is VALID, and the
vector buffers and accumulators of its loft hold zeros (R62, R94, R112, R151, R186, R195). -/
def State.clearBarn (s : State) (b : Nat) : State :=
  let s1 := { s with
    stalls := s.stalls.filter (fun x => x.1 / 48 ≠ b)
    acts := s.acts.filter (fun a => a.stall / 48 ≠ b || a.goesOn) }
  let s2 := (List.range 48).foldl (fun s k =>
    (List.range 16).foldl (fun s i => s.setReg (R.STL_SHAPE_ENTRY b k i) 0) s) s1
  (s2.updLoft b (fun l => { l with vbuf := {}, eng := [] })).commitRef .stl b

/-- A barn's clear begins: it is WRITING until the read-back ends. -/
def State.startClear (s : State) (b : Nat) : State :=
  ({ s with tck := { s.tck with cleared := s.tck.cleared.filter (· ≠ b) } }.updBarn b (fun x => { x with clearAt := s.beat b })).fset
    (F.SPD_CLEAR_STATE b) 1

/-- A barn is to become free outside a teardown: it belongs to no job, its clear has matched, its loft test has passed, and
firmware runs (R413, R465). -/
def State.barnReady (s : State) (b : Nat) : Bool :=
  s.fget F.TCK_STATE_STATE = 1 && !s.err.fatal && s.tck.cleared.contains b && s.tck.tested.contains b &&
  (s.barn b).owner.isNone && [1, 2].contains (s.fget (F.SPD_CLEAR_STATE b))

/-- Firmware enables a block at the configuration that stands (R451, R466). -/
def State.fwEnable (s : State) (b : Blk) (i : Nat) : State :=
  (s.commitRef b i).fset (F.BLK_CTRL_ENABLE (b.base i)) 1

/-- The library is written, the barn's six blocks are enabled and the barn is reported free (R463, R465, R466). -/
def State.openBarn (s : State) (b : Nat) : State :=
  if s.barnReady b then
    let s1 := (s.giveLibrary b).retireStalls b
    (([.stl, .spd, .arr, .vec, .lft, .net] : List Blk).foldl (fun s k => s.fwEnable k b) s1).fset (F.SPD_CLEAR_STATE b) 0
  else s

/-- BARN_CLEAR_DONE: the read-back of a barn's clear ends; `bad` is a physical stall whose line differs (R94). -/
def execBarnClearDone (b : Barn) (bad : Option StallId) (s : State) : Res :=
  .next (if s.fget (F.SPD_CLEAR_STATE b) ≠ 1 then s
    else
      let s1 := s.clearBarn b
      match bad with
      | some k =>
        ((s1.fset (F.SPD_CLEAR_FAULT b) 1).fset (F.SPD_CLEAR_STATE b) 4).raise { code := 0x0210, blk := b, inst := k }
      | none =>
        let s2 := (s1.fwrap (F.SPD_CLEAR_COUNT b) 1).fset (F.SPD_CLEAR_STATE b) 2
        State.openBarn { s2 with tck := { s2.tck with cleared := s2.tck.cleared ++ [b.val] } } b)

/-- A loft as the scrub leaves it: every bank ON, every block zero, every granule OTHER with no recorded write; the spare
rows used stay used (R405). -/
def Loft.scrubbed (l : Loft) : Loft :=
  { l with
    blocks := [], vbuf := {}, eng := [], cls := [], wrote := [], uses := [], clash := [], conflicts := [], entered := []
    failed := [], waits := [], fixes := []
    banks := l.banks.map (fun k => (k.1, ({ k.2 with st := 0, writes := 0, wake := 0, woken := false } : BankSt))) |>.filter
      (fun k => k.2 ≠ ({} : BankSt)) }

/-! ### Teardown (R405) -/

/-- A packet of the job that this device originated still waits at an output, or is the word of its halt that still waits for a seal
engine (R306, R405). -/
def State.jobSending (s : State) (j : Nat) : Bool :=
  ((s.secJob j).kjob.isSome && s.fab.sealq.any (fun i => i.job = j)) ||
  s.links.any (fun l => l.2.vcs.any (fun v => v.2.tx.any (fun t =>
    !t.transit && (t.units.head?.map (fun u => (FabHdr.unpack u.toNat).fjob)) = some (s.fjob j))))

/-- TEARDOWN_REVOKE: the sealed packets have left; the retention shares are released and every key context of the job is
zeroised. -/
def execTeardownRevoke (j : JobId) (s : State) : Res :=
  .next (if (s.job j).phase ≠ .teardown || s.fget (F.SEC_JOB_STATE_TEARDOWN j) ≠ 1 || s.jobSending j then s
    else
      let s1 := s.updFab (fun f =>
        { f with
          outs := f.outs.filter (fun x => x.1 / 16384 ≠ j.val)
          ins := f.ins.filter (fun x => x.1 / 16384 ≠ j.val)
          sealq := f.sealq.filter (fun i => i.job ≠ j.val)
          reads := f.reads.filter (fun r => r.job ≠ j.val)
          serve := f.serve.filter (fun r => r.job ≠ j.val)
          pend := f.pend.filter (fun p => p.1 ≠ j.val)
          switching := f.switching.filter (· ≠ j.val) })
      let s2 := (s1.updSec j (fun c => { c with kjob := none, dep := none, slots := [], notices := [], wants := [] })).showKeys
      ((s2.fset (F.SEC_JOB_STATE_KEY j) 2).fset (F.SEC_JOB_STATE_TEARDOWN j) 2).fset (F.FAB_JOB_STATE_PENDING j) 0)

/-- A packet of the job that was opened before the revocation is still on its way to the job's barns. -/
def State.jobArriving (s : State) (j : Nat) : Bool :=
  s.mesh.uns.any (fun p => p.job = j) || s.stalls.any (fun t => t.2.uns.any (fun w => w.job = j)) ||
  s.lofts.any (fun l => l.2.waits.any (fun w => w.job = some j))

/-- TEARDOWN_DRAIN_END: the barns are cleared and the scrub begins. -/
def execTeardownDrainEnd (j : JobId) (s : State) : Res :=
  .next (if (s.job j).phase ≠ .teardown || s.fget (F.SEC_JOB_STATE_TEARDOWN j) ≠ 2 || s.jobArriving j then s
    else (s.job j).barns.foldl State.startClear (s.fset (F.SEC_JOB_STATE_TEARDOWN j) 4))

/-- What the scrub zeroes beside the barns: barn sync objects, gate counters, prefix entries, the serving tables and the
records of the context. -/
def State.scrubContext (s : State) (j : Nat) : State :=
  let s1 := { s with
    ctrs := s.ctrs.filter (fun c => c.1 < 0x100000 || !s.ctrAllowed j c.1)
    prefix_ := s.prefix_.filter (fun e => e.2.map PfxEnt.job ≠ some j)
    yok := { s.yok with reqs := s.yok.reqs.filter (fun r => r.job ≠ j) } }
  let s2 := ((s1.updSrv j (fun _ => {})).updSec j (fun _ => {})).updYok j (fun _ => {})
  let s3 := (s2.setReg (R.SRV_JOB_STATE j) 0).setReg (R.SEC_JOB_STATE j) 0
  (((s3.setReg (R.YOK_JOB_STATE j) 0).setReg (R.SRV_JOB_COUNT j) 0).fset (F.PCR_JOB_LAUNCH_NS j) 0).showPfx

/-- The context and its barns are free, and the command is answered. -/
def State.freeContext (s : State) (j : Nat) : State :=
  let r := s.loadRec j
  let bs := (s.job j).barns
  let s1 := bs.foldl (fun s b => s.updLoft b Loft.scrubbed) (s.scrubContext j)
  let s2 := ((s1.clearFabCfg j).emptyContext j).settled j
  let s3 := bs.foldl (fun s b => (s.giveLibrary b).retireStalls b) s2
  s3.devRec r.port ⟨r.tag, r.seq, 0x21, 0, j, 0, 0⟩

/-- TEARDOWN_SCRUB_DONE: the loft read-back ends; `bad` is a loft in which a block is not zero. A device-fatal device reports
no barn free (R413). -/
def execTeardownScrubDone (j : JobId) (bad : Option Barn) (s : State) : Res :=
  .next (if (s.job j).phase ≠ .teardown || s.fget (F.SEC_JOB_STATE_TEARDOWN j) ≠ 4 ||
      !(s.job j).barns.all (fun b => s.tck.cleared.contains b) then s
    else match bad with
      | some b =>
        if s.ownsBarn j b then
          ((s.fset (F.SPD_CLEAR_STATE b) 4).updLoft b Loft.scrubbed).raise { code := 0x0A08, blk := b, job := some j.val }
        else s
      | none => if s.err.fatal then s else s.freeContext j)

end Sys2Proof.Machine
end

