-- ==== Sys2Proof/Machine/Control.lean ====
section
/-! DEFINITION. The control core (R46-R62, R64-R66, R74): one meaning per instruction, and the events of fetch, loads,
waits, queues and steps. A row of an instruction executes the instruction that the stall's program counter names when
it is one of that row; when it is another, or the core may not execute, nothing happens (log entry 4). -/

namespace Sys2Proof.Machine

/-! ### Fetching -/

/-- The word at an instruction index; none past the end of the memory (R51). -/
def Stall.wordAt (store : Tab Word32) (t : Stall) (i : Nat) : Option Nat :=
  if t.rtn then (if i < 262144 then some (Tab.get zero32 store i).toNat else none)
  else (if i < 16384 then some (Tab.get zero32 t.imem i).toNat else none)

/-- The last instruction index of the program, or of the routine store while a routine runs (log entry 9). -/
def Stall.lastIndex (t : Stall) : Nat := if t.rtn then 262143 else 16383

def State.fetchWord (s : State) (b k : Nat) : Option Nat :=
  (s.stall (48 * b + k)).wordAt (s.barn b).store (s.stall (48 * b + k)).pc

/-- The legal instruction that the program counter names (R51). -/
def State.fetchInsn (s : State) (b k : Nat) : Option Insn := (s.fetchWord b k).bind decodeInsn

/-- The job whose program the stall runs. -/
def State.coreJob (s : State) (b k : Nat) : Option Nat :=
  match (s.barn b).owner with
  | some j => if (s.job j).phase = .running ∧ k < (s.job j).stallsParam then some j else none
  | none => none

/-- The control core may execute (R30, R47, R75). -/
def State.coreRuns (s : State) (b k : Nat) : Bool :=
  (s.coreJob b k).isSome && s.enabled (Blk.base .stl b) && (s.stall (48 * b + k)).st = .run

/-- An instruction that reads or writes the destination of a load in progress waits for it (R52). -/
def Stall.regBusy (t : Stall) (i : Insn) : Bool :=
  t.pendLd.any (fun p => p.1 ≠ 0 && (i.reads.contains p.1 || i.writes = some p.1))

/-! ### Registers and the next instruction -/

/-- x0 reads as zero (R46). -/
def Stall.xr (t : Stall) (n : Nat) : Word := if n = 0 then 0 else Tab.get zero64 t.x n

/-- A write to x0 is discarded (R46). -/
def Stall.setX (t : Stall) (n : Nat) (v : Word) : Stall :=
  if n = 0 then t else { t with x := Tab.set zero64 t.x n v }

/-- After the instruction at index `i`: the end of a loop body goes back to its first instruction or leaves the loop
(R54); loops of a caller do not count in a routine. -/
def loopNext (depth : Nat) : List LoopEnt → Nat → Nat × List LoopEnt
  | [], i => (i + 1, [])
  | l :: ls, i =>
    if l.last = i ∧ l.depth = depth then
      if l.iter + 1 < l.count then (l.first, { l with iter := l.iter + 1 } :: ls) else loopNext depth ls i
    else (i + 1, l :: ls)

/-- Go on after index `i`. -/
def Stall.goOn (t : Stall) (i : Nat) : Stall :=
  let n := loopNext t.rets.length t.loops i
  { t with pc := n.1, loops := n.2 }

/-- Go on after the current instruction. -/
def Stall.advance (t : Stall) : Stall := t.goOn t.pc

/-- The innermost loop of the current routine or program. -/
def Stall.inner (t : Stall) : Option LoopEnt :=
  match t.loops with
  | l :: _ => if l.depth = t.rets.length then some l else none
  | [] => none

/-- The program counter stands at the last instruction of a loop body (R56). -/
def Stall.atLoopEnd (t : Stall) : Bool :=
  t.loops.any (fun l => l.depth = t.rets.length && l.last = t.pc)

/-- The instruction is illegal: it is not executed and the job halts at once (R51). The index 262,144, behind the last word of
the routine store, needs one bit more than DETAIL[49:32] has: it sets bit 50, which the rule otherwise has zero (DESIGN
CHOICE, log entry 55). -/
def State.illegalInsn (s : State) (b k : Nat) : State :=
  let t := s.stall (48 * b + k)
  let w := (s.fetchWord b k).getD 0
  s.stlErr b k 0x0201 (b2n t.rtn * 2 ^ 63 + t.pc * 2 ^ 32 + w)

/-- The instruction has an effect outside the core's registers and its own course: it waits for loads in progress, since
instructions complete in program order (R52). -/
def Insn.outward : Insn → Bool
  | .st _ _ _ => true
  | .syncwr _ _ => true
  | .syncadd _ _ => true
  | .push _ _ => true
  | .stepEnd => true
  | _ => false

/-- The instruction must wait for a load in progress (R52). -/
def Stall.loadBusy (t : Stall) (i : Insn) : Bool := t.regBusy i || (i.outward && !t.pendLd.isEmpty)

/-- Run the instruction at the program counter when `f` knows it. -/
def State.core (s : State) (b k : Nat) (f : Insn → Option (State → State)) : Res :=
  if s.coreRuns b k then
    match s.fetchInsn b k with
    | none => .next s
    | some i =>
      if (s.stall (48 * b + k)).loadBusy i then .next s
      else match f i with
        | none => .next s
        | some g => .next (g s)
  else .next s

/-- Write a result and go on. -/
def State.result (s : State) (b k rd : Nat) (v : Word) : State :=
  s.updStall (48 * b + k) (fun t => (t.setX rd v).advance)

/-- Only go on. -/
def State.step1 (s : State) (b k : Nat) : State := s.updStall (48 * b + k) Stall.advance

def State.xr (s : State) (b k n : Nat) : Word := (s.stall (48 * b + k)).xr n

/-- An ALU instruction with this operation (R51). -/
def State.alu (s : State) (op : AluOp) (b k : Nat) : Res :=
  s.core b k (fun i => match i with
    | .alu o rd rs1 rs2 =>
      if o = op then some (fun s => s.result b k rd (aluResult op (s.xr b k rs1) (s.xr b k rs2))) else none
    | _ => none)

/-- An instruction with an immediate and this operation (R51). -/
def State.immOp (s : State) (op : ImmOp) (b k : Nat) : Res :=
  s.core b k (fun i => match i with
    | .imm o rd rs1 n =>
      if o = op then some (fun s => s.result b k rd (immResult op (s.xr b k rs1) n)) else none
    | _ => none)

/-- ADD (R51). -/
def execAdd (b : Barn) (k : StallId) (s : State) : Res := s.alu .add b k
/-- SUB (R51). -/
def execSub (b : Barn) (k : StallId) (s : State) : Res := s.alu .sub b k
/-- AND (R51). -/
def execAnd (b : Barn) (k : StallId) (s : State) : Res := s.alu .and b k
/-- OR (R51). -/
def execOr (b : Barn) (k : StallId) (s : State) : Res := s.alu .or b k
/-- XOR (R51). -/
def execXor (b : Barn) (k : StallId) (s : State) : Res := s.alu .xor b k
/-- SLL (R51). -/
def execSll (b : Barn) (k : StallId) (s : State) : Res := s.alu .sll b k
/-- SRL (R51). -/
def execSrl (b : Barn) (k : StallId) (s : State) : Res := s.alu .srl b k
/-- SRA (R51). -/
def execSra (b : Barn) (k : StallId) (s : State) : Res := s.alu .sra b k
/-- SLT (R51). -/
def execSlt (b : Barn) (k : StallId) (s : State) : Res := s.alu .slt b k
/-- SLTU (R51). -/
def execSltu (b : Barn) (k : StallId) (s : State) : Res := s.alu .sltu b k
/-- MIN (R51). -/
def execMin (b : Barn) (k : StallId) (s : State) : Res := s.alu .min b k
/-- MAX (R51). -/
def execMax (b : Barn) (k : StallId) (s : State) : Res := s.alu .max b k
/-- MINU (R51). -/
def execMinu (b : Barn) (k : StallId) (s : State) : Res := s.alu .minu b k
/-- MAXU (R51). -/
def execMaxu (b : Barn) (k : StallId) (s : State) : Res := s.alu .maxu b k
/-- MUL (R51). -/
def execMul (b : Barn) (k : StallId) (s : State) : Res := s.alu .mul b k
/-- MULHU (R51). -/
def execMulhu (b : Barn) (k : StallId) (s : State) : Res := s.alu .mulhu b k
/-- MULH (R51). -/
def execMulh (b : Barn) (k : StallId) (s : State) : Res := s.alu .mulh b k
/-- DIVU (R51). -/
def execDivu (b : Barn) (k : StallId) (s : State) : Res := s.alu .divu b k
/-- REMU (R51). -/
def execRemu (b : Barn) (k : StallId) (s : State) : Res := s.alu .remu b k
/-- ADDI (R51). -/
def execAddi (b : Barn) (k : StallId) (s : State) : Res := s.immOp .addi b k
/-- ANDI (R51). -/
def execAndi (b : Barn) (k : StallId) (s : State) : Res := s.immOp .andi b k
/-- ORI (R51). -/
def execOri (b : Barn) (k : StallId) (s : State) : Res := s.immOp .ori b k
/-- XORI (R51). -/
def execXori (b : Barn) (k : StallId) (s : State) : Res := s.immOp .xori b k
/-- SLLI (R51). -/
def execSlli (b : Barn) (k : StallId) (s : State) : Res := s.immOp .slli b k
/-- SRLI (R51). -/
def execSrli (b : Barn) (k : StallId) (s : State) : Res := s.immOp .srli b k
/-- SRAI (R51). -/
def execSrai (b : Barn) (k : StallId) (s : State) : Res := s.immOp .srai b k
/-- SHI (R51). -/
def execShi (b : Barn) (k : StallId) (s : State) : Res := s.immOp .shi b k

/-! ### Loads and stores (R49, R52) -/

/-- The byte address of an LD or ST. -/
def ldAddr (a : Word) (imm : Nat) : Nat := (a + (BitVec.ofNat 16 imm).signExtend 64).toNat

/-- A multiple of 8 below 0x30_0000. -/
def ldLegal (addr : Nat) : Bool := addr % 8 = 0 && addr < 0x300000

/-- LD starts (R49): out of range or misaligned it writes zero and raises STL_CORE_RANGE, else the load waits for its
bank. -/
def execLd (b : Barn) (k : StallId) (s : State) : Res :=
  s.core b k (fun i => match i with
    | .ld rd rs1 imm => some (fun s =>
        let a := ldAddr (s.xr b k rs1) imm
        if ldLegal a then
          s.updStall (sx b k) (fun t => { t.advance with pendLd := t.pendLd ++ [(rd, a)] })
        else (s.result b k rd 0).stlErrAt b k 0x0209 0 (s.stall (sx b k)).pc)
    | _ => none)

/-- No engine port and no unscheduled access uses the line's bank in this beat (R49, R80). -/
def State.bankFree (s : State) (i line : Nat) : Bool :=
  s.spadFree i line && (s.stall i).uns.all (fun w => w.line % 16 ≠ line % 16)

/-- The oldest load takes its free bank and writes rd; poison or an uncorrectable word writes zero and halts the job
at once (R49, R84). -/
def execLdDataReady (b : Barn) (k : StallId) (ecc : EccOutcome) (s : State) : Res :=
  let i := sx b k
  match (s.stall i).pendLd with
  | [] => .next s
  | (rd, a) :: rest =>
    if s.bankFree i (a / 64) then
      let l := s.readLine i (s.beat b) (a / 64)
      let v := BitVec.ofNat 64 (bits l.data.toNat (a % 64 * 8 + 63) (a % 64 * 8))
      let put := fun v => (s.takeBank i (a / 64)).updStall i (fun t => { t.setX rd v with pendLd := rest })
      match ecc with
      | .uncorrectable => .next (((put 0).spadEcc b k (a / 64) false).stlErr b k 0x0211 0)
      | .tagError => .next (((put 0).spadEcc b k (a / 64) false).stlErr b k 0x0211 0)
      | .corrected =>
        .next (if l.poison then ((put 0).spadEcc b k (a / 64) true).stlErr b k 0x0211 0
          else (put v).spadEcc b k (a / 64) true)
      | .clean => .next (if l.poison then (put 0).stlErr b k 0x0211 0 else put v)
    else .next s

/-- ST stores when the bank is free; it leaves the tag (R49, R81). -/
def execSt (b : Barn) (k : StallId) (s : State) : Res :=
  s.core b k (fun i => match i with
    | .st rs rs1 imm =>
      let a := ldAddr (s.xr b k rs1) imm
      if ldLegal a then
        if s.bankFree (sx b k) (a / 64) then
          some (fun s =>
            let l := s.readLine (sx b k) (s.beat b + 1) (a / 64)
            let d := BitVec.ofNat 512 (setBits l.data.toNat (a % 64 * 8) 64 (s.xr b k rs).toNat)
            ((s.takeBank (sx b k) (a / 64)).writeLine (sx b k) (s.beat b) (a / 64) { l with data := d }).step1 b k)
        else none
      else some (fun s => (s.step1 b k).stlErrAt b k 0x0209 0 (s.stall (sx b k)).pc)
    | _ => none)

/-- LDS reads a word of the step window (R51, R60). -/
def execLds (b : Barn) (k : StallId) (s : State) : Res :=
  s.core b k (fun i => match i with
    | .lds rd w => some (fun s => s.result b k rd (Tab.get zero64 (s.stall (sx b k)).window w))
    | _ => none)

/-- The special registers (R53). -/
def State.special (s : State) (b k n : Nat) : Nat :=
  let t := s.stall (48 * b + k)
  let j := ((s.barn b).owner).getD 0
  match n with
  | 0 => k
  | 1 => b
  | 2 => s.devId
  | 3 => (s.job j).stallsParam
  | 4 => b2n (s.job j).wide
  | 5 => j
  | 6 => t.base
  | 7 => t.stepSeq
  | 8 => t.shape
  | 9 => (s.barn b).libver
  | _ => 0

/-- RDSR (R53). -/
def execRdsr (b : Barn) (k : StallId) (s : State) : Res :=
  s.core b k (fun i => match i with
    | .rdsr rd n => some (fun s => s.result b k rd (BitVec.ofNat 64 (s.special b k n)))
    | _ => none)

/-! ### Counters (R68, R71, R73, R74) -/

/-- The access of a control core to a counter is denied (R15, R68). -/
def State.denied (s : State) (b k key : Nat) : Bool := !s.ctrAllowed (((s.barn b).owner).getD 8) key

/-- SEC_ADDR_DENIED for a counter. -/
def State.denyCtr (s : State) (b k key : Nat) : State :=
  s.raise { code := 0x0A01, blk := b, inst := s.physOf b k, job := (s.barn b).owner, detail := s.ctrAddr key }

/-- SYNCRD (R51, R68): zero for scope 0b11 and for a counter the job may not reach. -/
def execSyncrd (b : Barn) (k : StallId) (s : State) : Res :=
  s.core b k (fun i => match i with
    | .syncrd rd sel => some (fun s => match selKey b k sel with
        | none => s.result b k rd 0
        | some key =>
          if s.denied b k key then (s.result b k rd 0).denyCtr b k key
          else s.result b k rd (BitVec.ofNat 64 (s.ctr key).val))
    | _ => none)

/-- SYNCWR (R68, R70). -/
def execSyncwr (b : Barn) (k : StallId) (s : State) : Res :=
  s.core b k (fun i => match i with
    | .syncwr sel rs1 => some (fun s => match selKey b k sel with
        | none => s.step1 b k
        | some key =>
          if s.denied b k key then (s.step1 b k).denyCtr b k key
          else (s.ctrWrite key (s.xr b k rs1).toNat).step1 b k)
    | _ => none)

/-- SYNCADD (R70, R71). -/
def execSyncadd (b : Barn) (k : StallId) (s : State) : Res :=
  s.core b k (fun i => match i with
    | .syncadd sel rs1 => some (fun s => match selKey b k sel with
        | none => s.step1 b k
        | some key =>
          if s.denied b k key then (s.step1 b k).denyCtr b k key
          else (s.signal key ((s.xr b k rs1).toNat % 2 ^ 32)).step1 b k)
    | _ => none)

/-- WAITC (R74): goes on when the counter has reached the value, else the core waits. While it waits here or at a PUSH into a full
queue, STL_CORE[PC] stays the index of the waiting instruction, which is the next to complete: R75 calls it the index of the
next instruction and does not say which that is (DESIGN CHOICE, log entry 56). -/
def execWaitc (b : Barn) (k : StallId) (s : State) : Res :=
  s.core b k (fun i => match i with
    | .waitc sel rs1 => some (fun s => match selKey b k sel with
        | none => s.step1 b k
        | some key =>
          let thr := (s.xr b k rs1).toNat % 2 ^ 32
          if s.denied b k key then (s.step1 b k).denyCtr b k key
          else if thr ≤ (s.ctr key).val then s.step1 b k
          else s.updStall (sx b k) (fun t => { t with st := .waitc, waitc := some (key, thr), waitSent := none }))
    | _ => none)

/-- The core leaves WAITC when `v` has reached the value it waits for. -/
def State.waitcSees (s : State) (b k key v : Nat) : State :=
  match (s.stall (48 * b + k)).waitc with
  | some (key', thr) =>
    if key' = key ∧ thr ≤ v ∧ (s.coreJob b k).isSome then
      s.updStall (48 * b + k) (fun t => { t.advance with st := .run, waitc := none })
    else s
  | none => s

/-- WAITC_SATISFIED (R74). -/
def execWaitcSatisfied (b : Barn) (k : StallId) (s : State) : Res :=
  match (s.stall (sx b k)).waitc with
  | some (key, _) => .next (s.waitcSees b k key (s.ctr key).val)
  | none => .next s

/-! ### PUSH (R63-R66) -/

/-- The 256-bit command in x[n] to x[n+3] (R63). -/
def Stall.cmdAt (t : Stall) (n : Nat) : Cmd :=
  (t.xr (n + 3)) ++ (t.xr (n + 2)) ++ (t.xr (n + 1)) ++ (t.xr n)

/-- A selector kept by a null command: legal, and not a gate counter the job may not reach; else scope 0b11 (R65). R65 keeps a
legal selector and R15 performs no access to a counter that is not the job's: the model drops it (DESIGN CHOICE, log entry
57). -/
def State.keepSel (s : State) (b k sel : Nat) : Nat :=
  if selLegal sel && (match selKey b k sel with | some key => !s.denied b k key | none => true) then sel else 0xC000

/-- NEXT lies in range and is greater than the issue offset, or is one of the two special values (R65, R66). -/
def nextLegal (w : Cmd) : Bool := 0xFFFFFE ≤ cNext w || cIssue w < cNext w

/-- The null command that takes an illegal command's place (R65). -/
def State.nullCmd (s : State) (b k : Nat) (w : Cmd) : Cmd :=
  let n0 := setBits w.toNat 48 16 (s.keepSel b k (cWaitSel w))
  let n1 := setBits n0 80 16 (s.keepSel b k (cSigSel w))
  let n2 := setBits n1 12 1 0
  let n3 := if nextLegal w then n2 else setBits n2 232 24 0xFFFFFE
  BitVec.ofNat 256 n3

/-- The command is illegal under R65 for queue `e`. -/
def State.cmdIllegal (s : State) (b e : Nat) (w : Cmd) : Bool :=
  cmdBits w 11 9 ≠ e || 4 ≤ cFlags w || !selLegal (cWaitSel w) || !selLegal (cSigSel w) ||
  (cConsume w && 2 ≤ bits (cWaitSel w) 15 14) || !nextLegal w || s.operandIllegal b w

/-- The failing fabric address when the command is a case of R15: a gate counter that its wait or signal names and
that is not allocated to the job (R68), or a barn outside the job that a network command names (R205). -/
def State.cmdDenied (s : State) (b k e : Nat) (w : Cmd) : Option Nat :=
  let j := ((s.barn b).owner).getD 8
  let gate := [cWaitSel w, cSigSel w].findSome? (fun sel =>
    if bits sel 15 14 = 2 then
      (match selKey b k sel with
       | some key => if s.ctrAllowed j key then none else some (s.ctrAddr key)
       | none => none)
    else none)
  match gate with
  | some a => some a
  | none =>
    if e ≠ 4 then none
    else ((netBarns w).find? (fun d => !s.ownsBarn j d)).map (fun d =>
      if cOp w = 0x803 then s.ctrAddr (keyBarn d (sgIdx w))
      else s.devId * 2 ^ 36 + 0xC00000000 + d * 0x10000000 + (onesOf 48 (nsSmask w)).headD 0 * 0x400000)

/-- The due beat that NEXT declares (R66). -/
def dueOf (base : Nat) (w : Cmd) : Due :=
  if cNext w = 0xFFFFFE then .none else if cNext w = 0xFFFFFF then .nextStep else .at (base + cNext w)

/-- Put a command, checked, into its queue (R64-R66); a command in the queue ends a starvation. `pc` is the index of the PUSH. A
command that is both illegal and denied raises STL_ILLEGAL_CMD only: neither R65 nor R68 orders the two (DESIGN CHOICE, log
entry 57). -/
def State.pushCmd (s : State) (b k e : Nat) (w : Cmd) (pc : Nat) : State :=
  let i := 48 * b + k
  let bad := s.cmdIllegal b e w
  let den := s.cmdDenied b k e w
  let isNull := bad || den.isSome
  let w' := if isNull then s.nullCmd b k w else w
  let s1 := s.updStall i (fun t =>
    { t.setQueue e (t.queue e ++ [⟨w', t.base + cIssue w, isNull, false⟩]) with
      due := Tab.set noDue t.due e (dueOf t.base w') })
  let s2 := s1.clearCauses b (fun c => c.code = 2 && c.what = i && c.eng = e)
  if bad then s2.stlErrAt b k 0x0202 0 pc
  else match den with
    | some a => s2.raise { code := 0x0A01, blk := b, inst := s.physOf b k, job := (s.barn b).owner, detail := a }
    | none => s2

/-- PUSH (R64): it waits while the queue is full. -/
def execPush (b : Barn) (k : StallId) (s : State) : Res :=
  s.core b k (fun i => match i with
    | .push e n => some (fun s =>
        let t := s.stall (sx b k)
        if (t.queue e).length < queueDepth e then (s.step1 b k).pushCmd b k e (t.cmdAt n) t.pc
        else s.updStall (sx b k) (fun t => { t with st := .queueFull, pushWait := some (e, n) }))
    | _ => none)

/-- A queue entry has freed and the waiting PUSH completes (R64). -/
def execPushResume (b : Barn) (k : StallId) (s : State) : Res :=
  let t := s.stall (sx b k)
  match t.pushWait with
  | some (e, n) =>
    if (t.queue e).length < queueDepth e ∧ (s.coreJob b k).isSome then
      .next ((s.updStall (sx b k) (fun t => { t.advance with st := .run, pushWait := none })).pushCmd b k e (t.cmdAt n) t.pc)
    else .next s
  | none => .next s

/-! ### Control flow (R54-R61) -/

/-- LOOP, after the nesting checks (R54-R56). -/
def execLoop (b : Barn) (k : StallId) (s : State) : Res :=
  s.core b k (fun i => match i with
    | .loop rs1 len => some (fun s =>
        let t := s.stall (sx b k)
        let last := t.pc + len
        let bound := match t.inner with | some l => l.last | none => t.lastIndex
        if t.atLoopEnd ∨ 4 ≤ t.loops.length ∨ bound < last ∨ t.lastIndex < last then s.illegalInsn b k
        else
          let n := (t.xr rs1).toNat % 2 ^ 32
          if n = 0 then s.updStall (sx b k) (fun t => t.goOn last)
          else s.updStall (sx b k) (fun t =>
            { t with pc := t.pc + 1, loops := ⟨t.pc + 1, last, n, 0, t.rets.length⟩ :: t.loops }))
    | _ => none)

/-- LOOPIDX (R54). -/
def execLoopidx (b : Barn) (k : StallId) (s : State) : Res :=
  s.core b k (fun i => match i with
    | .loopidx rd lvl => some (fun s =>
        let v := match (s.stall (sx b k)).loops[lvl]? with | some l => l.iter | none => 0
        s.result b k rd (BitVec.ofNat 64 v))
    | _ => none)

/-- The flag word of the step window (R57, R310). -/
def flagWord : Nat := 3

/-- SKIP.IF (R57): the range is checked whether or not the flag calls for the skip. -/
def execSkipIf (b : Barn) (k : StallId) (s : State) : Res :=
  s.core b k (fun i => match i with
    | .skipIf flag pol n => some (fun s =>
        let t := s.stall (sx b k)
        let last := t.pc + n
        let bound := match t.inner with | some l => l.last | none => t.lastIndex
        let isLoop := fun d =>
          match t.wordAt (s.barn b).store (t.pc + 1 + d) with
          | some w => bits w 31 26 = 0x20
          | none => false
        if t.atLoopEnd ∨ bound < last ∨ t.lastIndex < last ∨ (List.range n).any isLoop then s.illegalInsn b k
        else
          let f := Nat.testBit (Tab.get zero64 t.window flagWord).toNat flag
          if f = !pol then s.updStall (sx b k) (fun t => t.goOn last) else s.step1 b k)
    | _ => none)

/-- CALL.LIB (R58). An entry with VALID 0 is found before a full return stack: the rule does not order the two checks (DESIGN
CHOICE, log entry 58). -/
def execCallLib (b : Barn) (k : StallId) (s : State) : Res :=
  s.core b k (fun i => match i with
    | .callLib idx => some (fun s =>
        let t := s.stall (sx b k)
        let e := (Tab.get zero32 (s.barn b).store idx).toNat
        if t.atLoopEnd then s.illegalInsn b k
        else if !bit e 31 then s.stlErr b k 0x0207 0
        else if 4 ≤ t.rets.length then s.stlErr b k 0x0206 0
        else s.updStall (sx b k) (fun t =>
          { t with pc := bits e 17 0, rtn := true, rets := (t.pc + 1, t.rtn) :: t.rets }))
    | _ => none)

/-- RET (R58): loops begun in the routine end with it. -/
def execRet (b : Barn) (k : StallId) (s : State) : Res :=
  s.core b k (fun i => match i with
    | .ret => some (fun s =>
        let t := s.stall (sx b k)
        match t.rets with
        | [] => s.illegalInsn b k
        | (pc, rtn) :: rest =>
          if t.atLoopEnd then s.illegalInsn b k
          else s.updStall (sx b k) (fun t =>
            { t with pc := pc, rtn := rtn, rets := rest
                     loops := t.loops.filter (fun l => l.depth ≤ rest.length) }))
    | _ => none)

/-- BASE.ADD (R61): non-zero bits [63:24] of the register are illegal. -/
def execBaseAdd (b : Barn) (k : StallId) (s : State) : Res :=
  s.core b k (fun i => match i with
    | .baseAdd rs1 => some (fun s =>
        let v := (s.xr b k rs1).toNat
        if 2 ^ 24 ≤ v then s.illegalInsn b k
        else s.updStall (sx b k) (fun t => { t.advance with base := t.base + v }))
    | _ => none)

/-- STEP.END (R60): illegal inside a loop or a call; else the core waits for the next window and base beat. -/
def execStepEnd (b : Barn) (k : StallId) (s : State) : Res :=
  s.core b k (fun i => match i with
    | .stepEnd => some (fun s =>
        let t := s.stall (sx b k)
        if t.loops ≠ [] ∨ t.rets ≠ [] then s.illegalInsn b k
        else s.updStall (sx b k) (fun t => { t with st := .stepWait }))
    | _ => none)

/-- The next step begins (R60): its base beat, its window with STEP_SEQ (R53, R310), its entry; due beats that named the next
step become fixed. A BASE that has named this step's base beat is used up; one that names the step after it stands. -/
def Stall.beginStep (t : Stall) (base entry : Nat) : Stall :=
  { t with
    base := base, window := t.nextWindow, shape := t.nextShape, stepSeq := (Tab.get zero64 t.nextWindow 0).toNat
    pc := entry, rtn := false, st := .run, nextWindow := [], nextGot := 0
    nextBase := if t.nextBase = some base then none else t.nextBase
    due := t.due.map (fun e => (e.1, if e.2 = .nextStep then .at base else e.2)) }

/-- STEP_END_RESUME (R60): once all 64 words of the window are there, the base beat among them (R310). -/
def execStepEndResume (b : Barn) (k : StallId) (s : State) : Res :=
  let t := s.stall (sx b k)
  if t.st = .stepWait ∧ t.nextGot = 2 ^ 64 - 1 ∧ (s.coreJob b k).isSome then
    let f := s.fget (F.STL_SHAPE_ENTRY_ENTRY b k t.nextShape)
    if s.fbit (F.STL_SHAPE_ENTRY_VALID b k t.nextShape) then
      let s1 := s.updStall (sx b k) (fun t => t.beginStep (Tab.get zero64 t.nextWindow 1).toNat f)
      .next (s1.trace 4 b (s.coreJob b k) ((s.coreJob b k).getD 0 + 256 * (s1.stall (sx b k)).stepSeq))
    else .next (s.stlErr b k 0x0208 0)
  else .next s

/-- NOP (R51). -/
def execNop (b : Barn) (k : StallId) (s : State) : Res :=
  s.core b k (fun i => match i with
    | .nop => some (fun s => s.step1 b k)
    | _ => none)

/-- The fetched word is no legal instruction (R51): the job halts at once. The checks of R55 to R57, R60 and BASE.ADD
are part of the rows of those instructions. -/
def execIllegalInstruction (b : Barn) (k : StallId) (s : State) : Res :=
  if s.coreRuns b k ∧ s.fetchInsn b k = none then .next (s.illegalInsn b k) else .next s

/-- A fetch finds a check-code error (R48): corrected it is only reported, uncorrectable the job halts at once. -/
def execImemFetchError (b : Barn) (k : StallId) (correctable : Bool) (s : State) : Res :=
  if s.coreRuns b k then .next (s.stlErr b k (if correctable then 0x020A else 0x020B) 0) else .next s

/-! ### Engine queues and counters -/

/-- A region reaches an engine's due beat with an empty queue (R66): it holds with cause 2, unless its job issues nothing there
(R30). -/
def execEngineDueBeat (b : Barn) (k : StallId) (e : EngineId) (s : State) : Res :=
  let t := s.stall (sx b k)
  match (s.barn b).owner, t.dueBeat e.num with
  | some j, some d =>
    if s.jobGoes b j ∧ (s.region b).skew = false ∧ d ≤ s.jobBeatAt j b ∧ t.queue e.num = [] then
      .next ((s.addCause b 2 (some j) (sx b k) e.num 0).fwrap (F.STL_STARVE_EVENTS b k)
        (b2n (!(s.region b).causes.any (fun c => c.code = 2 && c.what = sx b k && c.eng = e.num))))
    else .next s
  | _, _ => .next s

/-- A null command issues (R65): it performs no operation and is complete at once. One of the vector engine leaves
VEC_STATE[LAST_OP] as it is: R152 does not say whether it is a command issued there (DESIGN CHOICE, log entry 59). -/
def execNullCommand (b : Barn) (k : StallId) (e : EngineId) (s : State) : Res :=
  .next (s.issue b k e.num (fun q => q.null)
    (fun s _ w => s.inFlight b k e.num w 0xFF (s.beat b) none []))

/-- COMMAND_COMPLETE (R69). -/
def execCommandComplete (b : Barn) (k : StallId) (e : EngineId) (s : State) : Res :=
  .next (s.complete b k e.num)

/-- The head of a queue is past its issue beat (R67): STL_ISSUE_LATE, once for the command. -/
def execCommandLate (b : Barn) (k : StallId) (e : EngineId) (s : State) : Res :=
  match s.headAt b k e.num with
  | some (j, q) =>
    if q.issue < s.jobBeatAt j b ∧ q.late = false then
      .next ((s.updStall (sx b k) (fun t =>
        t.setQueue e.num ({ q with late := true } :: (t.queue e.num).drop 1))).stlErr b k 0x0203 0)
    else .next s
  | none => .next s

/-- The counter that a command names. -/
def ctrKey : CtrId → Nat
  | .loc b k i => keyLocal b k i
  | .barn b i => keyBarn b i
  | .gate i => keyGate i

/-- SYNC_SETTLE (R70, R71). -/
def execSyncSettle (c : CtrId) (s : State) : Res := .next (s.settle (ctrKey c))

end Sys2Proof.Machine
end

