-- ==== Sys2Proof/Machine/Errors.lean ====
section
/-! DEFINITION. The collector of error records, its copy in flash, and the consumer index (R414-R417, R421). -/

namespace Sys2Proof.Machine

/-! ### Entries (R414, R415) -/

/-- ERR_COUNT[HELD] follows the entries. -/
def State.showHeld (s : State) : State := s.fset F.ERR_COUNT_HELD s.err.held.length

/-- The host has consumed record `i`: its index lies below ERR_CONSUMER. -/
def State.recConsumed (s : State) (i : Nat) : Bool :=
  let d := subMod 32 (s.fget F.ERR_CONSUMER_INDEX) i
  decide (1 ≤ d ∧ d ≤ 2 ^ 31)

/-- Entries whose record has been logged, and consumed where HOST_CONSUME asks for it, are free. -/
def State.freeHeld (s : State) : State :=
  State.showHeld { s with err := { s.err with
    held := s.err.held.filter (fun e => !(e.logged && (!s.fbit F.ERR_POLICY_HOST_CONSUME || s.recConsumed e.index))) } }

/-- A record at or above IRQ_MIN fires vector 1 on each host port that is not absent; a contained or device-fatal one sets
ALERT (R416). -/
def State.recAlarm (s : State) (r : ErrRec) : State :=
  let s1 := if s.fget F.ERR_POLICY_IRQ_MIN ≤ r.sev then
      ([0, 1] : List Nat).foldl (fun s p => if (s.hst p).absent then s else s.fireVec p 0 1) s
    else s
  if sevContained ≤ r.sev then (s1.fset F.ERR_COUNT_ALERT 1).showAlert else s1

/-- Larkspur sees an accepted record and may be triggered by it (R433). -/
def State.traceRec (s : State) (r : ErrRec) : State :=
  let s1 := s.trace 5 (blkRegion r.blk) r.job r.low
  if s.fbit F.TCK_LSP_CTL_RUN && s.fbit F.TCK_LSP_CTL_TRIG && r.code = s.fget F.TCK_LSP_CTL_TRIG_CODE && s.tck.lspPost.isNone then
    let n := s.fget F.TCK_LSP_CTL_POST
    let s2 := { s1 with tck := { s1.tck with lspPost := some n } }
    if n = 0 then ({ s2 with tck := { s2.tck with lspPost := none } }).fset F.TCK_LSP_CTL_RUN 0 else s2
  else s1

/-- The collector accepts a record: it takes the next index. -/
def State.acceptRec (s : State) (r : ErrRec) : State :=
  let i := s.fget F.ERR_PRODUCER_INDEX
  let s1 := ({ s with err := { s.err with held := s.err.held ++ ([⟨i, r, false⟩] : List HeldRec) } }.fset F.ERR_PRODUCER_INDEX ((i + 1) % 2 ^ 32)).showHeld
  (s1.recAlarm r).traceRec r

/-- A record that the collector does not accept is counted. -/
def State.dropRec (s : State) (r : ErrRec) : State :=
  if r.sev ≤ sevAbsorbed then
    { s with err := { s.err with dropLow := satAdd 32 s.err.dropLow 1 } }.fsat F.ERR_COUNT_DROPPED_LOW 1
  else { s with err := { s.err with dropSevere := satAdd 32 s.err.dropSevere 1 } }.fsat F.ERR_COUNT_DROPPED_SEVERE 1

/-- The TCK_LOG_DROPPED that stands for the drops since the last one. -/
def State.droppedRec (s : State) : ErrRec :=
  s.recordOf { code := 0x0B07, blk := 28, detail := s.err.dropLow * 2 ^ 32 + s.err.dropSevere }

/-- A record reaches the collector (R414). -/
def State.collect (s : State) (r : ErrRec) : State :=
  let free := 1024 - s.err.held.length
  if (if r.sev ≤ sevAbsorbed then free ≤ 64 else free = 0) then s.dropRec r
  else if s.err.dropLow + s.err.dropSevere ≠ 0 ∧ 2 ≤ free then
    let s1 := s.acceptRec s.droppedRec
    State.acceptRec { s1 with err := { s1.err with dropLow := 0, dropSevere := 0 } } r
  else s.acceptRec r

/-- The three parts of the oldest record of a unit block, when all of them have arrived at the hub, and the state without them. -/
def State.takeParts (s : State) (p : Nat) : Option State := (List.range 3).foldl (fun t i =>
  t.bind (fun s => (s.ctrlTake (fun c => c.ty = 8 && c.src = p && c.stall = i)).map Prod.snd)) (some s)

/-- ERR_REC: the three packets of the oldest record on its way from a unit block have reached the hub, and the collector gets the
record; the records of one unit arrive in order (R200, R213, R413, R414). -/
def execErrRec (unit : Fin 32) (s : State) : Res :=
  .next (match s.err.flight.find? (fun r => r.blk = unit.val), s.takeParts (recPoint unit) with
    | some r, some t => State.collect { t with err := { t.err with flight := t.err.flight.erase r } } r
    | _, _ => s)

/-! ### The log in flash (R415) -/

/-- Records that the log holds. -/
def logSize : Nat := 2097152

/-- A raised error of the Tackroom. -/
def State.tckErr (s : State) (code detail tag : Nat) : State := s.raise { code := code, blk := 29, detail := detail, tag := tag }

/-- The record takes the next log number; a full log overwrites its oldest record, and each time the log wraps the device
says so. -/
def State.logRec (s : State) (r : ErrRec) : State :=
  let n := s.tck.logNext
  let kept := s.tck.log ++ [(n, r)]
  let s1 := { s with tck := { s.tck with log := kept.drop (kept.length - logSize), logNext := (n + 1) % 2 ^ 32 } }
  let s2 := s1.fset F.TCK_LOG_NEXT ((n + 1) % 2 ^ 32)
  if (n + 1) % logSize = 0 then s2.tckErr 0x0B08 0 0 else s2

/-- An escalated correction in a stall's memory lets the Tackroom retire the stall, where ERR_POLICY[RETIRE] allows it
(R417). -/
def State.retireFor (s : State) (r : ErrRec) : State :=
  if r.escalated && codeClass r.code = 1 && s.fbit F.ERR_POLICY_RETIRE && r.blk < 24 && r.inst < 48 then
    State.retireStalls { s with tck := { s.tck with retired := Tab.upd zeroNat s.tck.retired r.blk (· ||| 2 ^ r.inst) } } r.blk
  else s

/-- LOG_COPY: running firmware copies the oldest record that is not in the log yet (R415, R423). -/
def execLogCopy (s : State) : Res :=
  .next (if s.fget F.TCK_STATE_STATE ≠ 1 then s
    else match s.err.held.find? (fun e => !e.logged) with
      | none => s
      | some e =>
        let held := s.err.held.map (fun x => if x.index = e.index then { x with logged := true } else x)
        let s1 := { s with err := { s.err with held := held } }
        ((s1.logRec e.entry).retireFor e.entry).freeHeld)

/-! ### The consumer index (R421) -/

/-- A value written to ERR_CONSUMER: one ahead of the producer stores the producer. -/
def State.writeConsumer (s : State) (v : Nat) : State :=
  let p := s.fget F.ERR_PRODUCER_INDEX
  let d := subMod 32 (v % 2 ^ 32) p
  (s.fset F.ERR_CONSUMER_INDEX (if 1 ≤ d ∧ d < 2 ^ 31 then p else v % 2 ^ 32)).freeHeld

/-- ERR_CONSUMER_WRITE. -/
def execErrConsumerWrite (v : Word) (s : State) : Res := .next (s.writeConsumer v.toNat)

end Sys2Proof.Machine
end

