-- ==== Sys2Proof/Machine/Fabric.lean ====
section
/-! DEFINITION. The commands of the fabric: notices, transit, sealing, arriving packets, acknowledgement and resending,
route plans and the route tables (R249-R268). -/

namespace Sys2Proof.Machine

/-- ROUTE_NOTICE: entries of the plan and the block that lead through this port become LOST, and the notice goes on
(R264). -/
def execRouteNotice (p : PortId) (s : State) : Res :=
  .next (match s.takeStored p 5 with
    | none => s
    | some (m, s1) =>
      let w := m.1.toNat
      let plan := bits w 119 119
      let blk := bits w 118 113
      let hit := (onesOf 64 (bits w 63 0)).filter (fun n =>
        let e := s1.routeEnt plan (64 * blk + n)
        bit e 7 && !bit e 6 && e % 32 = p.val)
      let ms := hit.map (fun n => (plan, 64 * blk + n))
      let s2 := ms.foldl (fun s m => s.setRoute m.1 m.2 (s.routeEnt m.1 m.2 + 64)) s1
      let s3 := (s2.fwrap F.FAB_NOTICE_MARKED ms.length).sendNotices p (bits w 112 101) ms
      s3.routesLost ms)

/-- The outputs of a packet in transit (R251, R252): the ports, and whether a copy is for this device. -/
def State.transitRoute (s : State) (p : Nat) (h : FabHdr) : Option (List Nat × Bool) :=
  if h.mcast then s.groupRoute h.plan (h.dst % 1024) (some p)
  else (s.route h.plan h.dst).map (fun o => ([o], false))

/-- A packet on its way over the mesh between ports of different edges: two units to a flit (R245). -/
def transitPkt (p v o : Nat) (t : TPkt) : UPkt :=
  { src := p, dst := portEdge o, job := 8, form := 4, addr := 0
    data := (List.range ((t.need + 1) / 2)).map (fun i => ⟨BitVec.ofNat 512 ((t.units.getD (2 * i) 0).toNat +
      (t.units.getD (2 * i + 1) 0).toNat * 2 ^ 256), 0, false⟩)
    sel := 0xC000, inc := 0, fence := false, tag := 0, port := o, vc := v, far := some t }

/-- Change a packet in a receive buffer. -/
def State.updRx (s : State) (p v id : Nat) (f : RPkt → RPkt) : State :=
  s.updLink p (fun l => l.updVc v (fun c => { c with rx := c.rx.map (fun x => if x.id = id then f x else x) }))

/-- Every output of a transit packet has begun it. -/
def State.allBegun (s : State) (p v id : Nat) (outs : List Nat) : Bool :=
  ((s.link p).vc v).rx.any (fun x => x.id = id && outs.all (fun o => (x.outs ++ x.far).contains o))

/-- Begin a transit packet on one output, when it may: on the same edge once the output holds its credits, while units still
arrive (R244); on another edge the whole packet goes to the mesh, one at a time from a port and channel (R245). -/
def State.beginOut (s : State) (p v : Nat) (r : RPkt) (o : Nat) : State :=
  let h := FabHdr.unpack (r.units.headD 0).toNat
  let t : TPkt := ⟨r.id, r.units, r.need, r.aborted, true⟩
  if o / 8 = p / 8 then
    if (s.link o).hasCredit v h.d then
      (s.updLink o (fun l => l.updVc v (fun c => { c with tx := c.tx ++ [t] }))).updRx p v r.id (fun x => { x with outs := x.outs ++ [o] })
    else s
  else if r.units.length = r.need ∧ s.mesh.uns.all (fun q => q.form ≠ 4 || q.src ≠ p || q.vc ≠ v || q.via ≠ 0) then
    (s.unsSend (transitPkt p v o t)).updRx p v r.id (fun x => { x with far := x.far ++ [o] })
  else s

/-- The transit packet from a port and channel that waits at the edge of its output and may be queued there: packets between two
ports keep their order; a port that is down takes them as it keeps its own (R244, R245, R265). -/
def State.transitHere (s : State) (p v : Nat) : Option (UPkt × TPkt) :=
  let mine := s.mesh.uns.filter (fun q => q.form = 4 && q.src = p && q.vc = v)
  mine.findSome? (fun q =>
    if q.via = 20000 + q.dst && ((mine.find? (fun x => x.port = q.port)).map UPkt.id) = some q.id &&
        ((s.link q.port).hasCredit v (q.data.length - 1) || s.portOpen q.port = false) then
      q.far.map (fun t => (q, t))
    else none)

/-- A transit packet that has crossed the mesh is queued at its output. -/
def State.landTransit (s : State) (v : Nat) (q : UPkt) (t : TPkt) : State :=
  let s1 := s.updLink q.port (fun l => l.updVc v (fun c => { c with tx := c.tx ++ [t] }))
  State.unsRelease { s1 with mesh := { s1.mesh with uns := s1.mesh.uns.filter (fun x => x.id ≠ q.id) } }

/-- TRANSIT_FORWARD: a packet of a port and channel that has crossed the mesh is queued at its output; else the oldest that goes on
to other devices is begun on the outputs that can take it, or discarded without a usable route (R244, R245, R252, R254). -/
def execTransitForward (p : PortId) (vc : Fin 3) (s : State) : Res :=
  .next (match s.transitHere p vc with
    | some (q, t) => s.landTransit vc q t
    | none =>
      match ((s.link p).vc vc).rx.find? (fun r => !r.routed && (r.pkt.head.mcast || !s.isHere p r)) with
      | none => s
      | some r =>
        let h := FabHdr.unpack (r.units.headD 0).toNat
        match s.transitRoute p h with
        | none =>
          if r.units.length < r.need then s
          else ((s.fsat F.FAB_RX_TRANSIT_DROP 1).hubOnce 0x0605 h.fjob none).dropRx p vc r
        | some (outs, here) =>
          let s1 := (outs.filter (fun o => !(r.outs ++ r.far).contains o)).foldl (fun s o => s.beginOut p vc r o) s
          if s1.allBegun p vc r.id outs then (s1.updRx p vc r.id (fun x => { x with routed := true, here := here })).sweepRx p vc else s1)

/-- The arrived packets of job `j` that a seal engine has still to open: port, channel, packet. -/
def State.unopened (s : State) (j : Nat) : List (Nat × Nat × RPkt) :=
  ((List.range 32).flatMap (fun p => [0, 1, 2].map (fun v => (p, v)))).flatMap (fun x =>
    (((s.link x.1).vc x.2).rx.filter (fun r =>
      r.units.length = r.need && s.isHere x.1 r && s.ctxOf r.pkt.head.fjob = some j &&
      r.slices < slicesOf r.pkt.head.d)).map (fun r => (x.1, x.2, r)))

/-- The one of them that arrived first, on whatever port and channel: the engines keep the order of a job's packets (R262). -/
def State.toOpen (s : State) (j : Nat) : Option (Nat × Nat × RPkt) :=
  (s.unopened j).foldl (fun (o : Option (Nat × Nat × RPkt)) x =>
    match o with
    | none => some x
    | some y => if x.2.2.whole < y.2.2.whole then some x else some y) none

/-- Has a key context work: 2 × job for sealing, 2 × job + 1 for opening? A packet of a job that has no key context yet waits
for one (R262). -/
def State.sealWork (s : State) (c : Nat) : Bool :=
  if c % 2 = 0 then (s.secJob (c / 2)).kjob.isSome && s.fab.sealq.any (fun i => i.job = c / 2) else (s.toOpen (c / 2)).isSome

/-- SEAL_SLICE: the next key context with work gets one slice of an engine (R262). -/
def execSealSlice (s : State) : Res :=
  .next (match ((List.range 16).map (fun i => (s.fab.turn + i) % 16)).find? s.sealWork with
    | none => s
    | some c =>
      let s1 := s.updFab (fun f => { f with turn := (c + 1) % 16 })
      if c % 2 = 0 then
        (match s1.fab.sealq.find? (fun i => i.job = c / 2) with
         | none => s1
         | some i =>
           if 1 < i.slices then
             s1.updFab (fun f => { f with sealq := f.sealq.map (fun x => if x = i then { i with slices := i.slices - 1 } else x) })
           else (s1.updFab (fun f => { f with sealq := f.sealq.erase i })).sealed i)
      else
        (match s1.toOpen (c / 2) with
         | none => s1
         | some (p, v, r) => s1.updLink p (fun l => l.updVc v (fun k =>
             { k with rx := k.rx.map (fun x => if x.id = r.id then { x with slices := x.slices + 1 } else x) }))))

/-- An arriving address that R14 or R15 turns away (R263): the error, or none. -/
def State.arriveDenied (s : State) (j a : Nat) (wr : Bool) : Option Nat :=
  let pl := s.place a
  if pl = .none then some 0x0401 else if s.placeAllowed j wr pl then none else some 0x0A01

/-- The router that finds an address of a packet from `src` unimplemented: that of the barn in whose windows it lies, which ejects
the packet, else the one that would pass it to the hub (R14, R191, R199). -/
def finder (src a : Nat) : Nat := (windowBarn a).getD (hubRouter (if src < 32 then portRouter src else 0))

/-- The error of an arriving packet's address (R14, R15). R15 names no block that raises SEC_ADDR_DENIED for an arriving packet: the
record's UNIT is the hub, 28 (DESIGN CHOICE, log entry 28). -/
def State.arriveErr (s : State) (src j code a : Nat) : State :=
  let d := s.devId * 2 ^ 36 + a % 2 ^ 36
  if code = 0x0401 then s.netErr (finder src a) code d 0xFF (some j) d else s.hubErr j code d

/-- The lines of an accepted WRITE or READ_RSP are performed, unless an address check turns the packet away (R263). -/
def State.acceptWrite (s : State) (p j : Nat) (h : FabHdr) (ls : List Line) : State :=
  match (List.range h.d).findSome? (fun i => (s.arriveDenied j (h.addr + 64 * i) true).map (fun c => (c, h.addr + 64 * i))) with
  | some (c, a) => s.arriveErr p j c a
  | none =>
    if h.siginc ≠ 0 ∧ !s.gateOwned j h.sigidx then s.arriveErr p j 0x0A01 (0xE50000000 + 4 * h.sigidx)
    else s.performPkt p j h ls

/-- WRITE: an arriving WRITE packet is checked, sequenced and performed (R263). -/
def execWrite (p : PortId) (s : State) : Res :=
  .next (s.receive p 0 (fun h _ => h.kind = 0) (fun s j h ls => s.acceptWrite p j h ls))

/-- READ_RSP: returned lines are written at their address (R91, R250, R263). A block that the yoke partner returns to
its own loft address goes to the repair of the loft instead (R336). -/
def execReadRsp (p : PortId) (s : State) : Res :=
  .next (s.receive p 1 (fun h _ => h.kind = 2) (fun s j h ls =>
    if (s.link p).isYoke then
      let got := ls.zipIdx.map (fun l => (⟨l.1, h.epoch, bit h.poison l.2⟩ : LineVal))
      { s with yok := { s.yok with resent := s.yok.resent ++ [(h.addr, got)] } }
    else
      let s1 := s.updFab (fun f =>
        { f with reads := (f.reads.map (fun r => if r.rtag = h.rtag then { r with left := r.left - 1 } else r)).filter (fun r => 0 < r.left) })
      s1.acceptWrite p j h ls))

/-- READ_REQ: a remote read is checked and its lines are read through the mesh, four to an answer (R91, R250). -/
def execReadReq (p : PortId) (s : State) : Res :=
  .next (s.receive p 0 (fun h ls => h.kind = 1 && (ls.isEmpty ||
      (bits (ls.headD 0).toNat 511 119 = 0 && 1 ≤ ctlNat ls 9 2 && ctlNat ls 9 2 ≤ 49152))) (fun s j h ls =>
    let w := (ls.headD 0).toNat
    let src := bits w 35 0
    let n := bits w 87 72
    let v : FarServe :=
      { id := s.fab.nextId, job := j, dst := h.src, src := src, ret := bits w 71 36, lines := n, ew := bits w 91 88
        er := bits w 95 92, chk := bit w 96, fence := bit w 97, rsig := bits w 110 98, rinc := bits w 118 111, rtag := h.rtag, port := p.val }
    let s1 := s.updFab (fun f => { f with nextId := f.nextId + 1, serve := f.serve ++ [v] })
    (List.range ((n + 3) / 4)).foldl (fun s i => s.unsSend
      { src := p, dst := s.dstPoint (src + 256 * i), job := j, form := 1, addr := src + 256 * i, data := []
        lines := min 4 (n - 4 * i), sel := 0xC000, inc := 0, fence := false, tag := v.id * 65536 + 4 * i, port := p.val }) s1))

/-- ACK: an end-to-end acknowledgement (R257, R258). -/
def execAck (p : PortId) (s : State) : Res :=
  .next (s.receive p 2 (fun h _ => h.kind = 3) (fun s j h _ =>
    let key := if bit h.addr 10 then 16384 * j + 4096 + bits h.addr 9 0 else s.inKey p j { h with mcast := false }
    s.ackStream key h.eseq h.src))

/-- ACK_TIMER: 2 µs after the first acceptance not yet acknowledged (R257). -/
def execAckTimer (j : JobId) (stream : Fin 16384) (s : State) : Res :=
  let key := 16384 * j.val + stream.val
  .next (match (s.inStream key).since with
    | some t => if t + 2000 ≤ s.refNs then s.sendAck key (key % 4096) else s
    | none => s)

/-- RESEND_TIMER: the oldest retained packet of a stream has waited RESEND_US (R258); a job that is torn down sends nothing again
(R405). -/
def execResendTimer (j : JobId) (stream : Fin 16384) (s : State) : Res :=
  let key := 16384 * j.val + stream.val
  .next (match (s.outStream key).kept with
    | k :: _ =>
      if (s.job j).phase ≠ .teardown ∧ k.at_ + 1000 * s.fget F.FAB_CTRL_RESEND_US ≤ s.refNs then (s.resend key).hubOnce 0x0609 j (some j.val) else s
    | [] => s)

/-- DOWN_HOLD_EXPIRY: packets queued for a port that has stayed down are discarded (R265). -/
def execDownHoldExpiry (p : PortId) (s : State) : Res :=
  let l := s.link p
  let n := ([0, 1, 2].map (fun v => (l.vc v).tx.length)).sum
  .next (if s.portOpen p = false ∧ l.downAt ≠ 0 ∧ l.downAt + 1000 * s.fget F.FAB_CTRL_DOWN_HOLD_US ≤ s.refNs ∧ 0 < n then
    (s.updLink p (fun l => [0, 1, 2].foldl (fun l v => l.updVc v (fun c => { c with tx := [], sent := 0 })) l)).fsat
      F.FAB_RX_TRANSIT_DROP n
  else s)

/-- ROUTE_FAIL reaches the head (R267): the first one for a job on plan A with no switch pending starts the switch to plan B; later
ones are ignored; one for a job that is on plan B already loses the route. -/
def execRouteFail (p : PortId) (s : State) : Res :=
  .next (s.control p 1 (fun s j _ ls =>
    if !s.isHead j || s.fab.switching.contains j || s.switchPending j then s
    else if s.planOf j = 0 then (s.updFab (fun f => { f with switching := f.switching ++ [j] })).sendSwitch j 1 0
    else s.lostRoute j (ctlNat ls 8 8 % 4096)))

/-- PLAN_SWITCH reaches a device (R268). -/
def execPlanSwitch (p : PortId) (s : State) : Res :=
  .next (s.control p 2 (fun s j _ ls => s.gotSwitch j (ctlByte ls 1 % 2) (ctlNat ls 8 8)))

/-- PLAN_SWITCH_BEAT: the job reaches the switch beat (R268). -/
def execPlanSwitchBeat (j : JobId) (s : State) : Res :=
  .next (match s.fab.pend.find? (fun x => x.1 = j.val) with
    | some (_, q, b) => if b ≤ s.jobBeat j then s.doSwitch j q b else s
    | none => s)

/-- GO takes 1 on the head with a plan and a beat (R268). -/
def State.jobCtlGo (s : State) (j plan beat : Nat) : State :=
  if s.isHead j ∧ (s.job j).phase ≠ .free then
    (s.updFab (fun f => { f with switching := f.switching.filter (· ≠ j) })).sendSwitch j plan beat
  else s

/-- FAB_JOB_CTL_GO: GO is written. -/
def execFabJobCtlGo (j : JobId) (plan : Bool) (beat : Fin 281474976710656) (s : State) : Res :=
  .next (s.jobCtlGo j (b2n plan) beat)

/-- The number of entries of a table, by FAB_TBL_SEL[TABLE] (R255). -/
def tblSize (t : Nat) : Nat := if t < 2 then 4096 else if t = 2 then 2048 else 512

/-- The entry that FAB_TBL_DATA shows. -/
def State.tblRead (s : State) : Nat :=
  let t := s.fget F.FAB_TBL_SEL_TABLE
  let i := s.fget F.FAB_TBL_SEL_INDEX
  if tblSize t ≤ i then 0
  else if t < 2 then s.routeEnt t i
  else if t = 2 then Tab.get zeroNat s.fab.mcast i
  else Tab.get zeroNat s.fab.peers i

/-- FAB_TBL_DATA takes a value (R255); a write to a route entry clears its LOST bit. -/
def State.tblWrite (s : State) (w : Nat) : State :=
  let t := s.fget F.FAB_TBL_SEL_TABLE
  let i := s.fget F.FAB_TBL_SEL_INDEX
  if tblSize t ≤ i then s
  else if t < 2 then s.setRoute t i (bits w 7 7 * 128 + bits w 4 0)
  else if t = 2 then s.updFab (fun f => { f with mcast := Tab.set zeroNat f.mcast i (w % 2 ^ 58) })
  else s.updFab (fun f => { f with peers := Tab.set zeroNat f.peers i w })

/-- FAB_TBL_WRITE: FAB_TBL_DATA is written. -/
def execFabTblWrite (v : Word) (s : State) : Res := .next (s.tblWrite v.toNat)

/-- MALFORMED_FABRIC_PACKET: a packet for this device with a reserved KIND or subtype, a D out of range, a wrong VC or
a body that breaks its layout is discarded (R250). -/
def execMalformedFabricPacket (p : PortId) (vc : Fin 3) (s : State) : Res :=
  .next (match s.firstHere p vc with
    | none => s
    | some r =>
      let h := r.pkt.head
      let sub := match s.ctxOf h.fjob with
        | some j =>
          let o := s.openRx p j r
          o.2 && slicesOf h.d ≤ r.slices &&
            ((h.kind = 4 && !subtypeOk (ctlByte o.1 0)) ||
             (h.kind = 1 && !(bits (o.1.headD 0).toNat 511 119 = 0 && 1 ≤ ctlNat o.1 9 2 && ctlNat o.1 9 2 ≤ 49152)))
        | none => false
      if badFabHdr vc h || sub then (s.dropRx p vc r).raise { code := 0x0608, blk := 28 } else s)

end Sys2Proof.Machine
end

