-- ==== Sys2Proof/Machine/Power.lean ====
section
/-! DEFINITION. Which units are active in a beat, and the power plan of a barn (R117, R120, R149, R184, R278, R279). -/

namespace Sys2Proof.Machine

/-- Arrays of a stall that are active in device beat `b`, as a mask (R117). -/
def Stall.activeArrays (t : Stall) (b : Nat) : Nat :=
  ((List.range 4).filter (fun a => t.flights.any (fun f =>
    f.isOp 0x202 && (mmaGang f.w).arrays.contains a && decide (f.iss + (mmaTime f.w).d + 1 ≤ b ∧ b ≤ f.done)))).foldl
    (fun m a => m + 2 ^ a) 0

/-- The vector engine is active from the beat after a command issues through its completion beat (R149). -/
def Stall.vecActive (t : Stall) (b : Nat) : Bool :=
  t.flights.any (fun f => f.eng = 2 && f.chan ≠ 0xFF && f.iss + 1 ≤ b && b ≤ f.done)

/-- Loft engines of a barn that count in device beat `b` (R184). -/
def State.activeEngines (s : State) (n b : Nat) : Nat :=
  let f0 := s.loftF n
  let now := s.beat n
  ((s.loftFlights n).flatMap (fun f =>
    if cOp f.w = 0xA02 ∧ f.chan ≠ 0xFF then
      let fi := f0 + f.iss - now
      let c0 := mvC0 fi
      if cycleBeat f.iss fi c0 ≤ b ∧ b ≤ cycleBeat f.iss fi (mvLast f.w c0) + 1 then mvSet f.w else []
    else [])).length

/-- The stalls of a barn that list any state. -/
def State.barnStalls (s : State) (n : Nat) : List Nat := (s.stalls.map Prod.fst).filter (fun i => i / 48 = n)

/-- The activity of a barn in its present beat, in quarter-units (R278). -/
def State.activity (s : State) (n : Nat) : Nat :=
  let b := s.beat n
  ((s.barnStalls n).map (fun i =>
    let t := s.stall i
    4 * popCount 4 (t.activeArrays b) + (if t.vecActive b then 2 else 0))).sum + s.activeEngines n b

/-- Active beats that the units count when a beat completes (R121, R152). -/
def State.countActive (s : State) (n : Nat) : State :=
  let b := s.beat n
  (s.barnStalls n).foldl (fun s i =>
    let t := s.stall i
    let s1 := s.fwrap (F.ARR_ACTIVE_BEATS (i / 48) (i % 48)) (popCount 4 (t.activeArrays b))
    if t.vecActive b then s1.fwrap (F.VEC_ACTIVE_BEATS (i / 48) (i % 48)) 1 else s1) s

/-- Is job beat `n` of a barn in another window than the last beat it counted? -/
def BarnSt.newWindow (x : BarnSt) (n : Nat) : Bool := x.pwBeat = 0 || (x.pwBeat - 1) / 64 ≠ n / 64

/-- The running sum of the window with the beat that begins. -/
def State.powerSum (s : State) (n jb : Nat) : Nat :=
  (if (s.barn n).newWindow jb then 0 else (s.barn n).pwSum) + s.activity n

/-- The window has exceeded its limit, this beat included. -/
def State.powerOver (s : State) (n jb : Nat) : Bool :=
  (!(s.barn n).newWindow jb && (s.barn n).pwOver) || decide (s.fget (F.PWR_PLAN_LIMIT_LIMIT n) < s.powerSum n jb)

/-- A window that exceeds its limit for the first time is counted, and raised at most once per barn in each 1 ms. -/
def State.powerNote (s : State) (n j : Nat) : State :=
  let s1 := s.fsat (F.PWR_PLAN_STAT_WINDOWS n) 1
  if s1.mayReport 0x0D01 n then (s1.setReport 0x0D01 n).raise { code := 0x0D01, blk := n, job := some j } else s1

/-- A beat of a barn begins: it enters the power window, and a hold with cause 5 precedes it where R279 asks for one.
A barn that no job advances counts nothing. -/
def State.powerBeat (s : State) (n : Nat) : State :=
  match (s.barn n).owner with
  | none => s
  | some j =>
    let jb := s.jobBeatAt j n
    if !s.jobBegun j n || (s.job j).stop.any (fun p => p ≤ jb) || jb + 1 = (s.barn n).pwBeat then s
    else
      let sum := s.powerSum n jb
      let ov := s.powerOver n jb
      let first := ov && (s.barn n).newWindow jb || ov && !(s.barn n).pwOver
      let a := s.activity n
      let hold := (64 * a + s.fget (F.PWR_PLAN_LIMIT_LIMIT n) - 1) / s.fget (F.PWR_PLAN_LIMIT_LIMIT n)
      let s1 := s.updBarn n (fun x => { x with pwBeat := jb + 1, pwSum := sum, pwOver := ov })
      let s2 := if s1.fget (F.PWR_PLAN_STAT_PEAK n) < sum then s1.fset (F.PWR_PLAN_STAT_PEAK n) sum else s1
      let s3 := if first then s2.powerNote n j else s2
      if ov ∧ 0 < a then s3.addCause n 5 (some j) n 0 hold else s3

/-- A pacer period that the power plan holds in a barn ends (R279, R299). -/
def State.countPowerHeld (s : State) (r : Nat) : State :=
  if (s.region r).causes.any (fun c => c.code = 5) then s.fsat (F.PWR_PLAN_STAT_HELD r) 1 else s

end Sys2Proof.Machine
end

