-- ==== Sys2Proof/Machine/Tackroom.lean ====
section
/-! DEFINITION. The Tackroom: its firmware and flash, sensors, the thermal trip, the step policy, Larkspur, the host mailboxes
and PLDM (R422-R438). Byte layouts that the manual does not give are log entry 70. -/

namespace Sys2Proof.Machine

def State.tckRun (s : State) : Bool := s.fget F.TCK_STATE_STATE = 1

/-! ### Flash (R424) -/

/-- A flash read met an error: its block and whether the code corrects it. A block of the configuration section that cannot be
corrected gives TCK_POLICY and TCK_ENVELOPE[WATTS] their reset values (DESIGN CHOICE, log entry 118). -/
def State.flashRead (s : State) (blk : Nat) (ok : Bool) : State :=
  if ok then
    let esc := s.escalates { code := 0x0B03, blk := 29, tag := blk }
    let s1 := s.tckErr 0x0B03 0 blk
    if esc ∧ blk ∉ s.tck.moved then { s1 with tck := { s1.tck with moved := s1.tck.moved ++ [blk] } } else s1
  else
    let s1 := s.tckErr 0x0B04 0 blk
    if 32 ≤ blk ∧ blk < 64 then
      ((s1.setReg R.TCK_POLICY 0x164080C).fset F.TCK_ENVELOPE_WATTS 1800).commitRef .tck 0
    else if 64 ≤ blk ∧ blk < 576 then ({ s1 with tck := { s1.tck with fwBad := true } }).fset F.TCK_STATE_IMAGE_VALID 0
    else if 576 ≤ blk ∧ blk < 1600 then
      let gone (e : Nat × ErrRec) : Bool := e.1 % logSize / 2048 = blk - 576
      ({ s1 with tck := { s1.tck with log := s1.tck.log.filter (fun e => !gone e) } }).fwrap F.TCK_LOG_LOST
        (s1.tck.log.filter gone).length
    else s1

/-- The two copies of a block of the identity and of the repair section. -/
def copyOf (blk : Nat) : Nat := if blk % 16 < 8 then blk + 8 else blk - 8

/-- The errors of the flash reads of one start, in order; corrected blocks are rewritten at the end. A section whose both
copies fail is lost. -/
def State.flashReads (s : State) (hits : List (Fin 2048 × Bool)) : State :=
  let s1 := hits.foldl (fun s h => s.flashRead h.1 h.2) s
  let bad := (hits.filter (fun h => !h.2)).map (fun h => h.1.val)
  let s2 := ([0, 1] : List Nat).foldl (fun s k =>
    if bad.any (fun b => b / 16 = k && bad.contains (copyOf b)) then s.tckErr 0x0B0A k 0 else s) s1
  { s2 with err := { s2.err with recov := s2.err.recov.filter (fun r => r.cls ≠ 5) } }

/-! ### Firmware (R423, R437, R438, R463, R466) -/

/-- What a start of the Tackroom finds: the signature of the image is valid, its security version, its version, and the version and
words of its library. -/
structure FwStart where
  valid : Bool
  security : Nat
  version : Nat
  libVer : Nat
  lib : Tab Word32
  deriving DecidableEq, Repr

/-- The image does not run: RECOVERY. -/
def State.recovery (s : State) : State :=
  (((({ s with tck := { s.tck with restart := 0 } }).fset F.TCK_STATE_STATE 3).fset F.TCK_STATE_IMAGE_VALID 0).fset
    F.TCK_STATE_FW_VERSION 0).refreshSteps

/-- Firmware runs: at the first start since reset it enables its five blocks; a new library goes into the routine stores of
the barns that belong to no job, and barns that are ready are reported free. -/
def State.runFirmware (s : State) (f : FwStart) : State :=
  let first := !s.tck.started
  let why := s.tck.restart
  let s1 := { s with tck := { s.tck with restart := 0, started := true, libVer := f.libVer, lib := f.lib } }
  let s2 := ((s1.fset F.TCK_STATE_IMAGE_VALID 1).fset F.TCK_STATE_FW_VERSION f.version).fset F.TCK_STATE_STATE 1
  let s3 := if first then ([.pcr, .pwr, .err, .tck, .ldr] : List Blk).foldl (fun s b => s.fwEnable b 0) s2 else s2
  let s4 := (List.range 24).foldl (fun s b =>
    (if (s.barn b).owner.isNone ∧ s.fget (F.SPD_CLEAR_STATE b) = 0 then s.giveLibrary b else s).openBarn b) s3
  (if why = 1 then s4.tckErr 0x0B09 0 0 else s4).refreshSteps.startHeld

/-- The ROM has checked the image, its security version against the fuse counter too: firmware runs, and the counter follows the
image; or the Tackroom is in RECOVERY (R437). -/
def State.romDone (s : State) (f : FwStart) (flash : List (Fin 2048 × Bool)) : State :=
  let s1 := s.flashReads flash
  if f.valid && !s1.tck.fwBad && decide (s1.tck.fwSec ≤ f.security) then
    State.runFirmware { s1 with tck := { s1.tck with fwSec := f.security } } f
  else s1.recovery

/-- FW_VERIFY_DONE: the ROM has verified the image after a reset, or one that was written in RECOVERY. -/
def execFwVerifyDone (valid : Bool) (security version libVer : Word32) (lib : List Word32) (flash : List (Fin 2048 × Bool))
    (s : State) : Res :=
  .next (if s.powered && [0, 3].contains (s.fget F.TCK_STATE_STATE) then
      s.romDone ⟨valid, security.toNat, version.toNat, libVer.toNat, Tab.setRun zero32 [] 0 (lib.take 262144)⟩ flash
    else s)

/-- The Tackroom restarts from ROM. -/
def State.restartTck (s : State) (why : Nat) : State :=
  (({ s with tck := { s.tck with restart := why } }).fset F.TCK_STATE_STATE 2).refreshSteps

/-- WATCHDOG_EXPIRY. -/
def execWatchdogExpiry (s : State) : Res := .next (if s.tckRun then s.restartTck 1 else s)

/-- LOCKSTEP_MISMATCH: device-fatal, and the Tackroom restarts. -/
def execLockstepMismatch (s : State) : Res :=
  .next (if s.powered then (s.tckErr 0x0B02 0 0).restartTck 3 else s)

/-- FW_RESTART_DONE: the ROM has checked the image again after a restart. -/
def execFwRestartDone (valid : Bool) (security version libVer : Word32) (lib : List Word32) (flash : List (Fin 2048 × Bool))
    (s : State) : Res :=
  .next (if s.fget F.TCK_STATE_STATE = 2 then
      s.romDone ⟨valid, security.toNat, version.toNat, libVer.toNat, Tab.setRun zero32 [] 0 (lib.take 262144)⟩ flash
    else s)

/-! ### Sensors (R425-R428) -/

/-- A sensor is faulty: recorded and raised once. -/
def State.sensorFault (s : State) (f : Fld) : State :=
  if s.fbit f then s else ((s.fset f 1).tckErr 0x0B05 0 0).showAlert

/-- The highest good reading among the neighbours of a region. -/
def State.around (s : State) (r : Nat) : Option Int := ((neighbours r).map s.hottest).foldl hotter none

/-- Of two logic sensors that differ by more than 25 °C, the one farther from the neighbours' hottest is faulty; where the
manual does not tell which, a free value does. -/
def State.pairFault (s : State) (b : Nat) : State :=
  match s.sensor (2 * b), s.sensor (2 * b + 1) with
  | some x, some y =>
    if (x - y).natAbs ≤ 400 then s
    else
      let f := s.free
      let odd : Bool × State := match s.around b with
        | some t =>
          if (x - t).natAbs < (y - t).natAbs then (true, s)
          else if (y - t).natAbs < (x - t).natAbs then (false, s) else (bit f.1.toNat 0, f.2)
        | none => (bit f.1.toNat 0, f.2)
      odd.2.sensorFault (F.TCK_TEMP_FAULT (2 * b + b2n odd.1))
  | _, _ => s

/-- The thermal trip (R427). -/
def State.tripNow (s : State) : State :=
  if s.tck.trip then s
  else
    let s1 := ({ s with tck := { s.tck with trip := true } }).send (.pin 1 false)
    (s1.tckErr 0x0B01 0 0).refreshSteps

/-- A thermal sensor takes a reading: outside -40 °C to 150 °C it is faulty. -/
def State.readTemp (s : State) (i v : Nat) : State :=
  let s1 := s.fset (F.TCK_TEMP_READING i) v
  if signed 16 v < -640 ∨ 2400 < signed 16 v then s1.sensorFault (F.TCK_TEMP_FAULT i) else s1

/-- The trip comparator of a sensor: two consecutive readings at 110 °C or above. -/
def State.tripCheck (s : State) (i : Nat) : State :=
  match s.sensor i with
  | some t =>
    if t < 1760 then { s with tck := { s.tck with hot := Tab.set zeroNat s.tck.hot i 0 } }
    else
      let n := Tab.get zeroNat s.tck.hot i + 1
      let s1 := { s with tck := { s.tck with hot := Tab.set zeroNat s.tck.hot i n } }
      if 2 ≤ n then s1.tripNow else s1
  | none => s

/-- A voltage monitor takes a reading: a region voltage outside 0.40 V to 1.00 V makes it faulty. -/
def State.readVolt (s : State) (i v : Nat) : State :=
  let s1 := s.fset (F.TCK_VOLT_MV i) v
  if i < 29 ∧ (v < 400 ∨ 1000 < v) then s1.sensorFault (F.TCK_VOLT_FAULT i) else s1

/-- A power meter takes a 100 µs mean in mW. -/
def State.readPower (s : State) (i v : Nat) : State :=
  let s1 := s.fset (F.TCK_POWER_MW i) v
  if s1.fget (F.TCK_POWER_PEAK i) < v then s1.fset (F.TCK_POWER_PEAK i) v else s1

/-- Module power over the last 1 ms in mW: the mean of the last ten sums of the meters (R430). -/
def State.modulePower (s : State) : Nat := s.tck.means.sum / max 1 s.tck.means.length

/-- The sum of the power meters enters the 1 ms mean. -/
def State.meanPower (s : State) : State :=
  let sum := ((List.range 8).map (fun i => s.fget (F.TCK_POWER_MW i))).sum
  let s1 := { s with tck := { s.tck with means := (sum :: s.tck.means).take 10 } }
  s1.fset F.TCK_ENVELOPE_MEASURED (min 0xFFFF (s1.modulePower / 1000))

/-- SENSOR_SAMPLE: readings of thermal sensors in 1/16 °C, of voltage monitors in mV, and of power meters in mW. -/
def execSensorSample (temps : List (Fin 60 × BitVec 16)) (volts : List (Fin 36 × BitVec 16))
    (power : List (Fin 8 × Word32)) (s : State) : Res :=
  .next (if !s.powered then s
    else
      let s1 := temps.foldl (fun s t => s.readTemp t.1 t.2.toNat) s
      let s2 := if temps = [] then s1 else (List.range 24).foldl State.pairFault s1
      let s3 := temps.foldl (fun s t => s.tripCheck t.1) s2
      let s4 := volts.foldl (fun s t => s.readVolt t.1 t.2.toNat) s3
      let s5 := power.foldl (fun s t => s.readPower t.1 t.2.toNat) s4
      if power = [] then s5 else s5.meanPower)

/-- RAIL_FAULT: a monitored rail has stayed outside its operating range for 10 µs. -/
def execRailFault (s : State) : Res := .next (if s.tck.pwrGood then s.tckErr 0x0D03 0 0 else s)

/-! ### Step policy (R429, R430) -/

/-- Steps of trim of a region after this interval. -/
def State.trimNext (s : State) (r : Nat) : Nat :=
  let t := Tab.get zeroNat s.tck.trim r
  let w := subMod 64 (s.reg (R.PCR_SKEW_WAIT r)) (Tab.get zeroNat s.tck.skew0 r)
  let p := (s.region r).periods - Tab.get zeroNat s.tck.per0 r
  if !s.fbit F.TCK_POLICY_TRIM then t
  else if 20 * p < 100 * w then min (t + 1) (s.fget F.TCK_POLICY_BASE_STEP)
  else if 100 * w < 5 * p then t - 1 else t

/-- Steps of thermal ceiling below S15, and cool intervals in a row. -/
def State.ceilNext (s : State) (r : Nat) : Nat × Nat :=
  let c := Tab.get zeroNat s.tck.ceil r
  let soft : Int := 16 * (s.fget F.TCK_POLICY_SOFT_C : Int)
  match s.temp r with
  | none => (c, 0)
  | some t =>
    if soft ≤ t then (min (c + 1) 15, 0)
    else if t ≤ soft - 80 then
      let n := Tab.get zeroNat s.tck.cool r + 1
      if n = 10 then (c - 1, 0) else (c, n)
    else (c, 0)

/-- One region's records after an interval. -/
def State.policyRegion (s : State) (r : Nat) : State :=
  let t := s.trimNext r
  let c := s.ceilNext r
  { s with tck := { s.tck with
    trim := Tab.set zeroNat s.tck.trim r t
    ceil := Tab.set zeroNat s.tck.ceil r c.1
    cool := Tab.set zeroNat s.tck.cool r c.2
    skew0 := Tab.set zeroNat s.tck.skew0 r (s.reg (R.PCR_SKEW_WAIT r))
    per0 := Tab.set zeroNat s.tck.per0 r (s.region r).periods } }

/-- The highest current step. -/
def State.topStep (s : State) : Nat := maxOf 0 ((List.range 29).map s.cur)

/-- The envelope rule (R430). -/
def State.envelope (s : State) : State :=
  let p := s.modulePower
  let w := 1000 * s.fget F.TCK_ENVELOPE_WATTS
  let c := s.fget F.TCK_ENVELOPE_CEILING
  let setLow (s : State) (n : Nat) : State := { s with tck := { s.tck with envLow := n } }
  if w ≤ p then
    if s.tck.envOn then (setLow s 0).fset F.TCK_ENVELOPE_CEILING (c - 1)
    else
      let s1 := ({ s with tck := { s.tck with envOn := true, envLow := 0 } }).fset F.TCK_ENVELOPE_CEILING (s.topStep - 1)
      s1.tckErr 0x0D02 0 0
  else if !s.tck.envOn then s
  else if 100 * p ≤ 95 * w then
    if s.tck.envLow + 1 < 10 then setLow s (s.tck.envLow + 1)
    else
      let s1 := (setLow s 0).fset F.TCK_ENVELOPE_CEILING (min 15 (c + 1))
      { s1 with tck := { s1.tck with envOn := c + 1 < 15 } }
  else setLow s 0

/-- The step that firmware requests for a region: the least of the three. -/
def State.wantStep (s : State) (r : Nat) : Nat :=
  min (s.fget F.TCK_POLICY_BASE_STEP - Tab.get zeroNat s.tck.trim r)
    (min (15 - Tab.get zeroNat s.tck.ceil r) (s.fget F.TCK_ENVELOPE_CEILING))

/-- The request that firmware last computed for a region; before the first, PCR_STEP_REQ's reset value (R44). -/
def State.lastReq (s : State) (r : Nat) : Nat := Tab.get (fun _ => 4) s.tck.stepReq r

/-- Firmware writes and applies its requests. -/
def State.applyReqs (s : State) : State :=
  let s1 := (List.range 29).foldl (fun t r => (t.fset (F.PCR_STEP_REQ_STEP r) (s.wantStep r))) s
  let s2 := { s1 with tck := { s1.tck with
    stepReq := (List.range 29).foldl (fun t r => Tab.set (fun _ => 4) t r (s.wantStep r)) s1.tck.stepReq } }
  if s2.enabled pcrBase then s2.applySteps else s2

/-- POLICY_TICK: running firmware computes the requests, and writes and applies them when some request changes. -/
def execPolicyTick (s : State) : Res :=
  .next (if !s.tckRun then s
    else
      let s1 := ((List.range 29).foldl State.policyRegion s).envelope
      (if (List.range 29).all (fun r => s1.lastReq r = s1.wantStep r) then s1 else s1.applyReqs).showAlert)

/-! ### Larkspur (R433) -/

/-- Capture stops. -/
def State.lspStop (s : State) : State := ({ s with tck := { s.tck with lspPost := none } }).fset F.TCK_LSP_CTL_RUN 0

/-- LARKSPUR_ENTRY: the oldest queued entry is written, at most one every 4 ns. -/
def execLarkspurEntry (s : State) : Res :=
  .next (match s.tck.lspq with
    | [] => s
    | q :: qs =>
      if !s.fbit F.TCK_LSP_CTL_RUN || (s.tck.lastLsp ≠ 0 && decide (s.refNs + 1 < s.tck.lastLsp + 4)) then s
      else
        let i := s.fget F.TCK_LSP_STAT_NEXT
        let s1 := ({ s with tck := { s.tck with
          lsp := Tab.set (fun _ => none) s.tck.lsp i (some q.2)
          lspN := s.tck.lspN + 1
          lspq := qs
          lastLsp := s.refNs + 1
          lspPost := s.tck.lspPost.map (· - 1) } }).fset F.TCK_LSP_STAT_NEXT ((i + 1) % 2 ^ 18)
        if s1.tck.lspPost = some 0 || (s1.fbit F.TCK_LSP_CTL_MODE && s1.tck.lspN = 262144) then s1.lspStop else s1)

/-- TCK_LSP_CTL takes a value: a capture that starts begins an empty buffer. -/
def State.lspControl (s : State) (v : Nat) : State :=
  let m := v % 2 ^ 64
  let s1 := s.setReg R.TCK_LSP_CTL (m - bits m 22 3 * 8)
  if bit v 0 then
    if s.fbit F.TCK_LSP_CTL_RUN then s1
    else ({ s1 with tck := { s1.tck with lsp := [], lspN := 0, lspq := [], lspDrop := [], lspPost := none, lastLsp := 0 } }).fset
      F.TCK_LSP_STAT_NEXT 0
  else s1.lspStop

/-- LSP_RUN: TCK_LSP_CTL is written. -/
def execLspRun (v : Word) (s : State) : Res := .next (s.lspControl v.toNat)

/-- A trace entry of 32 bytes. -/
def Trace.bytes (t : Trace) : List Byte :=
  leBytes 8 t.time ++ leBytes 6 t.beat ++ leBytes 1 t.region ++ leBytes 1 t.src ++ leBytes 16 t.data

/-! ### Host mailboxes (R434, R435) -/

/-- Bytes of a mailbox buffer. -/
def State.mbxGet (s : State) (p o n : Nat) : List Byte := Tab.getRun zero8 s.tck.buf (4096 * p + o) n

/-- A response stands in the buffer, and DONE is set. -/
def State.mbxAnswer (s : State) (p status tag : Nat) (body : List Byte) : State :=
  let bs := leBytes 2 status ++ leBytes 2 body.length ++ leBytes 4 tag ++ body
  ({ s with tck := { s.tck with buf := Tab.setRun zero8 s.tck.buf (4096 * p) bs } }).fset (F.TCK_MBX_CTL_DONE p) 1

/-- GET_INFO. -/
def State.infoBytes (s : State) : List Byte :=
  leBytes 8 0x0009 ++ (List.range 24).flatMap (fun b => leBytes 1 (s.stallCount b)) ++
  leBytes 16 Config.serial.toNat ++ leBytes 4 (s.fget F.TCK_STATE_FW_VERSION) ++ leBytes 4 s.tck.libVer ++
  leBytes 4 Config.romVersion.toNat ++ leBytes 4 s.tck.boots ++ leBytes 4 0x00030000 ++ leBytes 4 0x00030001

/-- LOG_READ: status and body. -/
def State.logRead (s : State) (first count : Nat) : Nat × List Byte :=
  let last := s.tck.logNext
  let old := (s.tck.log.head?.map Prod.fst).getD last
  let d := subMod 32 last first
  let span := subMod 32 last old
  let from_ := if span < d then old else first
  let left := subMod 32 last from_
  if count = 0 ∨ 127 < count then (4, [])
  else if 2 ^ 31 ≤ d ∨ left < count then (5, [])
  else
    let rs := s.tck.log.filter (fun e => subMod 32 e.1 from_ < count)
    (0, leBytes 4 from_ ++ leBytes 2 rs.length ++ leBytes 1 (b2n (span < d)) ++ leBytes 1 0 ++
      rs.flatMap (fun e => leBytes 32 e.2.pack))

/-- SENSOR_READ: the register of every sensor. -/
def State.sensorBytes (s : State) : List Byte :=
  (List.range 60).flatMap (fun i => leBytes 8 (s.reg (R.TCK_TEMP i))) ++
  (List.range 36).flatMap (fun i => leBytes 8 (s.reg (R.TCK_VOLT i))) ++
  (List.range 8).flatMap (fun i => leBytes 8 (s.reg (R.TCK_POWER i)))

/-- POWER_TABLE: 24 limits that the calibration gives and the manual does not: free values. -/
def powerTable : Nat → State → List Byte → List Byte × State
  | 0, s, acc => (acc, s)
  | n + 1, s, acc => powerTable n s.free.2 (acc ++ leBytes 4 s.free.1.toNat)

/-- The image section is erased and an update session opens. -/
def State.fwBegin (s : State) : State :=
  ({ s with tck := { s.tck with fwUpdate := true, fwBad := true, fwNew := true, fwWrites := [] } }).fset F.TCK_STATE_IMAGE_VALID 0

/-- Bytes of the image are written. -/
def State.fwData (s : State) (off : Nat) (bs : List Byte) : State :=
  { s with tck := { s.tck with fwWrites := Tab.setRun (fun _ => 0xFF) s.tck.fwWrites off bs } }

/-- The session ends and the written image is verified (R437, R438). -/
def State.fwEnd (s : State) (verified : Bool) : State :=
  let s1 := { s with tck := { s.tck with fwUpdate := false, fwBad := !verified } }
  if verified then s1.fset F.TCK_STATE_IMAGE_VALID 1 else (s1.fset F.TCK_STATE_IMAGE_VALID 0).tckErr 0x0B06 0 0

/-- FW_UPDATE: status and state. -/
def State.fwUpdateCmd (s : State) (body : List Byte) (len : Nat) (verified : Bool) : Nat × State :=
  let phase := field body 0 4
  let off := field body 4 4
  if phase = 0 then (if s.tck.fwUpdate then (1, s) else (0, s.fwBegin))
  else if !s.tck.fwUpdate then (4, s)
  else if phase = 1 then
    if len < 8 ∨ 4088 < len ∨ 0x2000000 < off + (len - 8) then (4, s) else (0, s.fwData off ((body.drop 8).take (len - 8)))
  else if phase = 2 then (0, s.fwEnd verified)
  else (4, s)

/-- TRACE_READ: status and body. -/
def State.traceRead (s : State) (first count : Nat) : Nat × List Byte :=
  if s.fbit F.TCK_LSP_CTL_RUN then (1, [])
  else if count = 0 ∨ 127 < count then (4, [])
  else
    let es := (List.range count).filterMap (fun i => Tab.get (fun _ => none) s.tck.lsp (first + i))
    if es.length < count then (5, []) else (0, es.flatMap Trace.bytes)

/-- SET_LEVEL: for major 3 the levels agree on the lower minor. -/
def State.setLevel (s : State) (p tag major minor : Nat) : State :=
  if major = 3 then
    (s.fset (F.TCK_MBX_CTL_LEVEL p) (0x30000 + min minor 1)).mbxAnswer p 0 tag (leBytes 2 3 ++ leBytes 2 (min minor 1))
  else s.mbxAnswer p 3 tag []

/-- The request in a mailbox is carried out; `verified` is what the check of a written image finds at END. -/
def State.mailbox (s : State) (p : Nat) (verified : Bool) : State :=
  let q := s.mbxGet p 0 4096
  let op := field q 0 2
  let len := field q 2 2
  let tag := field q 4 4
  let body := q.drop 8
  let level := s.fget (F.TCK_MBX_CTL_LEVEL p)
  let rom := s.fget F.TCK_STATE_STATE = 3
  let answer (r : Nat × List Byte) : State := s.mbxAnswer p r.1 tag r.2
  if !s.tckRun && !(rom && op = 6) then s.mbxAnswer p 1 tag []
  else if op = 1 then s.mbxAnswer p 0 tag s.infoBytes
  else if op = 2 then s.setLevel p tag (field body 0 2) (field body 2 2)
  else if level = 0 && !rom then s.mbxAnswer p 3 tag []
  else if op = 3 then answer (s.logRead (field body 0 4) (field body 4 4))
  else if op = 4 then s.mbxAnswer p 0 tag s.sensorBytes
  else if op = 5 then
    let t := powerTable 24 s []
    t.2.mbxAnswer p 0 tag t.1
  else if op = 6 then
    let r := s.fwUpdateCmd body len verified
    r.2.mbxAnswer p r.1 tag []
  else if op = 7 then (s.mbxAnswer p 0 tag []).restartTck 2
  else if op = 8 then (if level % 65536 = 0 then s.mbxAnswer p 3 tag [] else answer (s.traceRead (field body 0 4) (field body 4 4)))
  else s.mbxAnswer p 2 tag []

/-- MBX_GO: 1 is written to TCK_MBX_CTL[GO]. -/
def execMbxGo (p : HostPort) (verified : Bool) (s : State) : Res :=
  .next (if s.fbit (F.TCK_MBX_CTL_BUSY p) then s else s.mailbox p verified)

/-! ### MCTP and PLDM (R436) -/

/-- A numeric sensor: whether it is available, and its reading; none where no sensor has the ID. -/
def State.pldmSensor (s : State) (id : Nat) : Option (Bool × Nat) :=
  if 1 ≤ id ∧ id ≤ 60 then some (!s.fbit (F.TCK_TEMP_FAULT (id - 1)), s.fget (F.TCK_TEMP_READING (id - 1)))
  else if 101 ≤ id ∧ id ≤ 136 then some (!s.fbit (F.TCK_VOLT_FAULT (id - 101)), s.fget (F.TCK_VOLT_MV (id - 101)))
  else if 201 ≤ id ∧ id ≤ 208 then some (true, s.fget (F.TCK_POWER_MW (id - 201)))
  else if id = 300 then some (true, s.modulePower)
  else if 301 ≤ id ∧ id ≤ 329 then
    match s.hottest (id - 301) with
    | some t => some (true, unsigned 16 t)
    | none => some (false, 0)
  else none

/-- The answer to a PLDM request of a type and command: completion code and data, and the state. -/
def State.pldmAnswer (s : State) (ty cmd : Nat) (d : List Byte) : List Byte × State :=
  if ty = 0 then
    if cmd = 1 then ([0], { s with tck := { s.tck with tid := field d 0 1 } })
    else if cmd = 2 then ([0] ++ leBytes 1 s.tck.tid, s)
    else if cmd = 4 then ([0] ++ leBytes 8 0x25, s)
    else if cmd = 3 ∨ cmd = 5 then ([0] ++ leBytes 8 s.free.1.toNat, s.free.2)
    else ([5], s)
  else if ty = 2 then
    if cmd = 0x11 then
      match s.pldmSensor (field d 0 2) with
      | some (ok, v) => (leBytes 1 0 ++ leBytes 1 5 ++ leBytes 1 (if ok then 0 else 2) ++ leBytes 4 0 ++ leBytes 4 v, s)
      | none => ([0x80], s)
    else ([5], s)
  else if ty = 5 then
    if cmd = 0x10 then (if s.tck.fwUpdate then ([0x81], s) else ([0], s.fwBegin))
    else if cmd = 0x1A then
      if bit (field d 0 1) 0 then ([0], s.restartTck 2) else ([0], s)
    else if cmd = 0x13 ∨ cmd = 0x14 ∨ cmd = 0x1B then ([0] ++ leBytes 8 s.free.1.toNat, s.free.2)
    else ([5], s)
  else ([0x20], s)

/-- A PLDM message: a request is answered; an answer to this device's request for image data, or to its report that the
transfer is complete, carries the update on. -/
def State.pldm (s : State) (ch off : Nat) (verified : Bool) (m : List Byte) : State :=
  let h := field m 0 1
  let ty := field m 1 1 % 64
  let cmd := field m 2 1
  if bit h 7 then
    let r := s.pldmAnswer ty cmd (m.drop 3)
    r.2.send (.message ch (leBytes 1 (h % 32) ++ leBytes 1 ty ++ leBytes 1 cmd ++ r.1))
  else if ty = 5 ∧ s.tck.fwUpdate = true then
    if cmd = 0x15 then s.fwData off (m.drop 4) else if cmd = 0x16 then s.fwEnd verified else s
  else s

/-- PLDM_REQUEST: an MCTP message arrives over PCIe at a host port (channels 0, 1) or over I3C (2); `off` is where the
image data that it may bring belongs, `verified` what the check of the written image finds. Before firmware runs only
MCTP control messages are answered, and in RECOVERY a firmware update over I3C; during a restart none. -/
def execPldmRequest (ch : Fin 3) (type_ : BitVec 8) (msg : List Byte) (off : Word32) (verified : Bool) (s : State) : Res :=
  let st := s.fget F.TCK_STATE_STATE
  .next (if !s.powered || st = 2 || (decide (ch.val < 2) && !s.canRead ch) then s
    else if type_ = 0 then s.free.2.send (.message (20 + ch) (leBytes 8 s.free.1.toNat))
    else if type_ = 1 then
      if st = 1 || (st = 3 && ch = 2 && field msg 1 1 % 64 = 5) then s.pldm (20 + ch) off.toNat verified msg else s
    else s)

end Sys2Proof.Machine
end

