-- ==== Sys2Proof/Machine/Startup.lean ====
section
/-! DEFINITION. Resets, the boot sequence and the loft test (R458-R466). -/

namespace Sys2Proof.Machine

/-! ### Resets (R459-R462) -/

/-- What flash and fuses keep through every reset, and what is outside the device. -/
def State.kept (s : State) : State :=
  let t := s.tck
  { State.reset with
    pending := s.pending
    fused := s.fused
    mask := s.mask
    host := ([0, 1] : List Nat).foldl (fun h p => Tab.set HostSt.zeroF h p { perst := (s.hst p).perst }) []
    tck := { fwBad := t.fwBad || t.fwUpdate, fwNew := t.fwNew, fwSec := t.fwSec, fwWrites := t.fwWrites, log := t.log, logNext := t.logNext,
             boots := t.boots, retired := t.retired, remaps := t.remaps, moved := t.moved }
    out := s.out
    freeCtr := s.freeCtr }

/-- PWR_GOOD is low: everything resets, and THERMTRIP_N is released. -/
def State.powerOff (s : State) : State := if s.tck.trip then s.kept.send (.pin 1 true) else s.kept

/-- SYS_RESET_N: everything resets but THERMTRIP_N and the Larkspur buffer. -/
def State.sysResetOn (s : State) : State :=
  let k := s.kept
  ({ k with tck := { k.tck with
    pwrGood := true, sysReset := true, trip := s.tck.trip, lsp := s.tck.lsp, lspN := s.tck.lspN } }).fset F.TCK_LSP_STAT_NEXT
      (s.fget F.TCK_LSP_STAT_NEXT)

/-- The spare rows that the recorded remaps have used up (R171, R424, R463). -/
def State.applyRemaps (s : State) : State :=
  let s1 := s.tck.remaps.foldl (fun s r =>
    ((s.updBank (r.1 / 256) (r.1 % 256) (fun b => { b with spares := 64 - r.2 })).fset (F.LFT_SPARES_RETIRED (r.1 / 256))
      ((s.fget (F.LFT_SPARES_RETIRED (r.1 / 256)) + r.2) % 2 ^ 32))) s
  ((s.tck.remaps.map (fun r => r.1 / 256)).dedup).foldl State.showSpares s1

/-- The boot sequence begins (R463): a boot is counted, every barn's clear starts, the stall mask is the fused good set less
the recorded stalls, and the remaps apply. -/
def State.boot (s : State) : State :=
  let mask := (List.range 24).foldl (fun m b =>
    let good := Tab.get allGood s.fused b
    Tab.set allGood m b (good - (good &&& Tab.get zeroNat s.tck.retired b))) []
  let s1 := { s with mask := mask, tck := { s.tck with boots := (s.tck.boots + 1) % 2 ^ 32 } }
  let s2 := ((List.range 24).foldl State.startClear s1.applyRemaps).fset F.TCK_LOG_NEXT s.tck.logNext
  (s2.commitRef .ldr 0).showAlert

/-- PWR_GOOD_RISE. -/
def execPwrGoodRise (s : State) : Res :=
  .next (if s.tck.pwrGood then s else State.boot { s with tck := { s.tck with pwrGood := true } })

/-- PWR_GOOD_FALL. -/
def execPwrGoodFall (s : State) : Res := .next (if s.tck.pwrGood then s.powerOff else s)

/-- VTCK_BROWNOUT: as though PWR_GOOD had fallen. -/
def execVtckBrownout (s : State) : Res := .next (if s.tck.pwrGood then s.powerOff else s)

/-- SYS_RESET_ASSERT; it has no effect while PWR_GOOD is low. -/
def execSysResetAssert (s : State) : Res := .next (if s.powered then s.sysResetOn else s)

/-- SYS_RESET_DEASSERT. -/
def execSysResetDeassert (s : State) : Res :=
  .next (if s.tck.pwrGood && s.tck.sysReset then State.boot { s with tck := { s.tck with sysReset := false } } else s)

/-! ### The loft test (R464) -/

/-- A row fails: a spare row is unusable; any other is retired to a good spare of its bank, if there is one. -/
def State.testRow (s : State) (b : Nat) (r : BankId × Bool) : Bool × State :=
  let k := r.1.val
  let left := (s.bank b k).spares
  if r.2 then (true, (s.updBank b k (fun t => { t with spares := left - 1 })).showSpares b)
  else if 0 < left then (true, s.retireRow b (32768 * k) none)
  else (false, s.noSpares b k none false)

/-- The rows that failed, in the order in which they are handled: did each find a spare? -/
def State.testRows (b : Nat) : List (BankId × Bool) → Bool → State → Bool × State
  | [], ok, s => (ok, s)
  | r :: rs, ok, s =>
    let x := s.testRow b r
    State.testRows b rs (ok && x.1) x.2

/-- LOFT_TEST_DONE: `bad` names the rows that failed by bank, true for a spare row. A barn whose bank has no good spare left
is FAILED; otherwise the loft holds zero, and the barn is free once its clear has matched and its library is written. -/
def execLoftTestDone (b : Barn) (bad : List (BankId × Bool)) (s : State) : Res :=
  .next (if !s.powered || s.tck.tested.contains b.val || !([1, 2] : List Nat).contains (s.fget (F.SPD_CLEAR_STATE b)) || (s.barn b).owner.isSome
    then s
    else
      let x := State.testRows b bad true (s.updLoft b Loft.scrubbed)
      if x.1 then State.openBarn { x.2 with tck := { x.2.tck with tested := x.2.tck.tested ++ [b.val] } } b
      else x.2.fset (F.SPD_CLEAR_STATE b) 4)

end Sys2Proof.Machine
end

