-- ==== Sys2Proof/Machine/Uns.lean ====
section
/-! DEFINITION. Unscheduled traffic: packets on their way through the mesh, at their ejection point, in scratchpads and
lofts; re-sent hops; scrubbers and write-backs; control packets that add to counters (R80, R84, R91, R111, R161,
R163, R164, R196-R204, R213). -/

namespace Sys2Proof.Machine

/-! ### On the way (R189, R192, R196) -/

/-- The router at which a packet leaves the mesh for its destination point: a barn's own, an edge's port router, or the
hub's router for the packet's source (R190, R191). -/
def UPkt.exit (p : UPkt) : Nat :=
  if p.dst < 24 then p.dst
  else if p.dst < 28 then portRouter p.port
  else if p.src < 32 then hubRouter (portRouter p.src) else hubRouter (if srcPoint p.src < 24 then srcPoint p.src else 0)

/-- The router at which a packet enters the mesh (R190, R191); none between the hub and the Tackroom. -/
def UPkt.entry (p : UPkt) : Option Nat :=
  if p.src < 32 then some (portRouter p.src)
  else if srcPoint p.src < 24 then some (srcPoint p.src)
  else if 28 ≤ p.dst then none else some (hubRouter p.exit)

/-- Does a packet travel on the RSP channel (R196)? A packet in transit keeps its class; those of the fabric's control channel
travel with the responses (DESIGN CHOICE, log entry 116). -/
def UPkt.rsp (p : UPkt) : Bool := if p.form = 4 then p.vc ≠ 0 else p.form = 2

/-- Buffer places of a router input or an ejection point that flits of one virtual channel take (R196). -/
def State.viaFlits (s : State) (via : Nat) (rsp : Bool) : Nat :=
  ((s.mesh.uns.filter (fun p => p.rsp == rsp)).map (fun p =>
    (if p.via = via then p.flits - p.crossed else 0) + (if p.out = via then p.crossed else 0))).sum

/-- Is the output on a minimal route, by the XY rule or by the west-first turn model (R192)? West-first takes all hops
west before any other. -/
def hopOk (xy : Bool) (a t d : Nat) : Bool :=
  if a = t then false
  else if xy || t % 6 < a % 6 then d = (xyHop a t).1
  else (d = 1 && a % 6 < t % 6) || (d = 0 && a / 6 < t / 6) || (d = 2 && t / 6 < a / 6)

def nextRouter (a d : Nat) : Nat := if d = 0 then a + 6 else if d = 1 then a + 1 else if d = 2 then a - 6 else a - 1

/-- The buffer of an ejection point (R196). -/
def ejectBuf (dst : Nat) : Nat := 20000 + dst

/-- Replace the packet with this number. -/
def State.setUns (s : State) (id : Nat) (f : UPkt → UPkt) : State :=
  { s with mesh := { s.mesh with uns := s.mesh.uns.map (fun x => if x.id = id then f x else x) } }

/-- The packet leaves its buffer, and its credits go back. -/
def State.dropUns (s : State) (id : Nat) : State :=
  { s with mesh := { s.mesh with uns := s.mesh.uns.filter (fun x => x.id ≠ id) } }

/-- Larkspur's PACKET source watches one router (R433). -/
def State.tracePkt (s : State) (p : UPkt) : State :=
  if s.fget F.TCK_LSP_SEL_ROUTER = p.pos ∧ p.via ≠ 0 ∧ p.pos < 24 then
    (List.range p.flits).foldl (fun s i => s.trace 2 p.pos (if p.form = 4 then none else some p.job) (p.flit s.devId i).hdr.toNat) s
  else s

/-- The channel that a packet's flits take next, where output `d` is a choice of the route; with the buffer behind the channel
and the place that it belongs to. A channel below 3,000 has 4 slots in each beat (R189). -/
def State.unsHop (s : State) (p : UPkt) (d : Nat) : Option (Nat × Nat × Nat) :=
  if p.via = 0 then
    (match p.entry with
     | none => some (9000 + p.src, ejectBuf p.dst, p.dst)
     | some r =>
       let c := if srcPoint p.src < 24 then 7000 + r else chAttIn r (srcPoint p.src)
       some (c, 1 + c, r))
  else if 20000 ≤ p.via then none
  else if p.pos = p.exit then
    some (if p.dst < 24 then 8000 + p.dst else chAttOut p.pos p.dst, ejectBuf p.dst, p.dst)
  else if hopOk (s.fget (F.NET_CTRL_UNS_ROUTE p.pos) = 1) p.pos p.exit d then
    some (chLink p.pos d, 1 + chLink p.pos d, nextRouter p.pos d)
  else none

/-- A line of a packet that enters a barn for a bank of its loft is counted there, or is a late write and discarded (R163,
R164); one whose address a check turns away goes to no bank (R199). -/
def State.lineEnters (s : State) (p : UPkt) (i : Nat) : State :=
  match s.place (p.addr + 64 * i) with
  | .loft n off =>
    let bk := blkBank (off / 256)
    if !s.placeAllowed p.job true (s.place (p.addr + 64 * i)) then s
    else if (s.bank n bk).st = 0 then
      (s.updBank n bk (fun k => { k with writes := k.writes + 1 })).setUns p.id (fun q => { q with entered := q.entered ||| 2 ^ i })
    else s.loftErr n 0x0306 (off / 256) (some p.job) none 0
  | _ => s

/-- A write packet's first flit is in the input of the router of its barn: its lines enter the barn (R163). -/
def State.pktEnters (s : State) (p : UPkt) (pos : Nat) : State :=
  if p.form = 0 ∧ p.dst < 24 ∧ pos = p.dst then (List.range p.data.length).foldl (fun s i => s.lineEnters p i) s else s

/-- Flits of a packet move over a channel into the buffer behind it, `k` of them. -/
def State.unsMove (s : State) (p : UPkt) (chan buf pos k : Nat) : State :=
  let s1 := if chan < 3000 then
      (s.slotsTake chan k).keepItems chan 1 p.id [p.dst] ((List.range k).map (fun i => p.flit s.devId (p.crossed + i)))
    else s
  let s2 := if chan < 1000 then s1.fwrap (F.NET_LINK_UNS_FLITS (chan / 4) (chan % 4)) k else s1
  let s3 := if p.crossed = 0 ∧ buf < 20000 then s2.pktEnters p pos else s2
  if p.crossed + k = p.flits then s3.setUns p.id (fun q => { q with pos := pos, via := buf, out := 0, crossed := 0 })
  else s3.setUns p.id (fun q => { q with out := buf, crossed := p.crossed + k })

/-- UNS_FLIT_CREDIT: credits are there and the n-th packet in the mesh moves on, over output `d` where the route leaves a choice:
as many of its flits as the slots that scheduled flits leave free in this period and the credits allow; the packet goes on
from the next place when all its flits are there (R189, R192, R196). -/
def execUnsFlitCredit (n : Fin 65536) (d : Fin 4) (s0 : State) : Res :=
  .next (match s0.mesh.uns[n.val]? with
    | none => s0
    | some p =>
      if !p.sent then s0
      else match s0.unsHop p d with
        | none => s0
        | some (chan, buf, pos) =>
          let s := if p.crossed = 0 then s0.tracePkt p else s0
          let free := if chan < 3000 then s.slotsFree chan else 4
          let k := min (p.flits - p.crossed) (min free (16 - s.viaFlits buf p.rsp))
          if k = 0 ∨ (p.out ≠ 0 ∧ p.out ≠ buf) then s0 else s.unsMove p chan buf pos k)

/-! ### At the ejection point (R80, R91, R197-R199) -/

/-- WR_DONE goes back to the packet's source: its source number and the destination point (R197). -/
def State.wrDone (s : State) (src dst job : Nat) : State :=
  State.ctrlSend { s with mesh := { s.mesh with unack := s.mesh.unack ++ [(64 * src + dst, job)] } } 6 dst (srcPoint src) 63
    (src + 256 * dst)

/-- The signal of an unscheduled packet, applied where its ejection point is or sent on (R198). -/
def State.unsSignal (s : State) (dst job sel inc : Nat) : State :=
  match bits sel 15 14 with
  | 1 => if dst < 24 then s.signal (keyBarn dst (bits sel 13 0)) inc else s
  | 2 =>
    if dst = 28 then s.signal (keyGate (bits sel 13 0)) inc
    else s.ctrlSend 4 dst 28 63 (sel + inc * 2 ^ 16 + job * 2 ^ 48)
  | _ => s

/-- A packet has been performed, or turned away: its places are free, a write is acknowledged, and its source may send what it
held (R196, R197). -/
def State.unsEnd (s : State) (p : UPkt) : State :=
  let s1 := s.dropUns p.id
  (if p.form = 0 then s1.wrDone p.src p.dst p.job else s1).unsRelease

/-- One line of a packet has been performed. With the last of them the packet has: its signal is applied (R198). -/
def State.unsDone (s : State) (id : Nat) : State :=
  match s.mesh.uns.find? (fun p => p.id = id) with
  | none => s
  | some p =>
    if p.left.getD 0 ≤ 1 then (if p.form = 0 then s.unsSignal p.dst p.job p.sel p.inc else s).unsEnd p
    else s.setUns id (fun q => { q with left := some (p.left.getD 0 - 1) })

/-- Give the lines that a remote read has found to its answer (R91). -/
def State.serveLine (s : State) (tag : Nat) (v : LineVal) : State :=
  s.updFab (fun f => { f with serve := f.serve.map (fun x =>
    if x.id = tag / 65536 then { x with got := Tab.put (tag % 65536) v x.got } else x) })

/-- A read response leaves for the port when all the lines of its request packet are there (R91, R196). -/
def State.serveSend (s : State) (dst tag : Nat) : State :=
  match s.fab.serve.find? (fun x => x.id = tag / 65536) with
  | none => s
  | some x =>
    let g := tag % 65536 / 4
    let ls := (List.range (min 4 (x.lines - 4 * g))).map (fun i => 4 * g + i)
    let all : Bool := ls.all (fun l => x.got.any (fun e => e.1 = l))
    if all then
      s.unsSend
        { src := if dst < 24 then 64 + dst else 35, dst := portEdge x.port, job := x.job, form := 2, addr := 0
          data := ls.map (fun l => Tab.get LineVal.zeroF x.got l), sel := 0xC000, inc := 0, fence := false
          tag := x.id * 65536 + 4 * g, port := x.port }
    else s

/-- The response whose turn it is leaves the device as READ_RSP: responses in address order, the last with signal and FENCE, the
signal only when no address was denied (R15, R91, R250). -/
def State.serveOut (s : State) (x : FarServe) (p : UPkt) : State :=
  let g := x.sent
  let last := x.lines ≤ 4 * g + 4
  let h : FabHdr :=
    { kind := 2, rtag := x.rtag, epoch := x.ew, addr := x.ret + 256 * g, fence := last && x.fence
      poison := (p.data.zipIdx.map (fun l => b2n l.1.poison * 2 ^ l.2)).sum
      sigidx := if last && !x.denied then x.rsig else 0, siginc := if last && !x.denied then x.rinc else 0 }
  let s1 := s.originate x.job (if (s.link x.port).isYoke then .yoke else .dev x.dst) h (p.data.map LineVal.data)
  let rest (l : List FarServe) : List FarServe :=
    if last then l.filter (fun (y : FarServe) => y.id ≠ x.id)
    else l.map (fun (y : FarServe) => if y.id = x.id then { y with sent := g + 1 } else y)
  let s2 := s1.updFab (fun f => { f with serve := rest f.serve })
  if last then { s2 with mism := s2.mism.filter (· ≠ 2 * x.id + 1) } else s2

/-- A response at its edge point: when its turn has come it leaves, and with it the space reserved for it and the count of its
request (R196, R197, R250). -/
def State.respond (s : State) (p : UPkt) : State :=
  match s.fab.serve.find? (fun x => x.id = p.tag / 65536) with
  | none => s.unsEnd p
  | some x =>
    if p.tag % 65536 ≠ 4 * x.sent then s
    else
      let d := s.dstPoint (x.src + 64 * (p.tag % 65536))
      let s1 := (s.serveOut x p).setRsv p.dst (s.rsv p.dst - p.data.length)
      (s1.setOutst x.port d (s1.outst x.port d - 1)).unsEnd p

/-- A line of a remote read is there: checked against the epoch that the request expects (R82, R91). -/
def State.serveGot (s : State) (id : Nat) (idx b k line : Nat) (v : LineVal) (spad : Bool) : State :=
  match s.mesh.uns.find? (fun p => p.id = id) with
  | none => s
  | some p =>
    let tag := p.tag + idx
    match s.fab.serve.find? (fun x => x.id = tag / 65536) with
    | none => s.unsDone id
    | some x =>
      let c := if spad then s.checkEpoch b k line (2 * x.id + 1) (if x.chk then some x.er else none) v else (v, s)
      ((c.2.serveLine tag c.1).serveSend p.dst tag).unsDone id

def State.addWait (s : State) (n : Nat) (w : LoftWait) : State :=
  s.updLoft n (fun l => { l with waits := l.waits ++ [w] })

/-- The i-th line of a packet is given to the memory that holds it; what no access waits for is done at once. -/
def State.unsLine (s : State) (p : UPkt) (i : Nat) : State :=
  let a := p.addr + 64 * i
  let rd := p.form = 1
  let v := p.data.getD i LineVal.zero
  match s.place a with
  | .spad b k off =>
    s.updStall (48 * b + k) (fun t => { t with uns := t.uns ++
      [⟨off / 64, if rd then none else some v, 2 ^ 64 - 1, p.job, p.id, i⟩] })
  | .loft m off =>
    let w : LoftWait :=
      { blk := off / 256, off := off % 256, wr := if rd then none else some (leBytes 64 v.data.toNat), poison := v.poison
        job := p.job, pkt := p.id, idx := i }
    if rd ∨ bit p.entered i = true then s.addWait m w else s.unsDone p.id
  | .acc b k arr off =>
    let x := 48 * b + k
    let row := s.seeAcc x (1024 * arr + off / 128)
    if rd then
      s.serveGot p.id i b k 0 ⟨BitVec.ofNat 512 (row.v.toNat / 2 ^ (8 * (off % 128))), 0, row.poison⟩ false
    else
      (s.pokeAcc x (1024 * arr + off / 128)
        ⟨BitVec.ofNat 1024 (setBits row.v.toNat (8 * (off % 128)) 512 v.data.toNat), v.poison⟩).unsDone p.id
  | .store b off =>
    let ws := Tab.getRun zero32 (s.barn b).store (off / 4) 16
    s.serveGot p.id i b 0 0 ⟨BitVec.ofNat 512 (ws.foldr (fun w acc => w.toNat + 2 ^ 32 * acc) 0), 0, false⟩ false
  | .ctr key _ =>
    let u := s.ctrUnit key
    let s1 := s.raise { code := 0x0205, blk := u.1, inst := u.2, job := some p.job }
    if rd then s1.serveGot p.id i 0 0 0 ⟨0, 0, true⟩ false else s1.unsDone p.id
  | _ => s.unsDone p.id

/-- A packet that has not been performed leaves the counts of the banks that its lines had entered. -/
def State.uncount (s : State) (p : UPkt) : State :=
  (List.range p.data.length).foldl (fun s i =>
    match s.place (p.addr + 64 * i) with
    | .loft n off =>
      if bit p.entered i then s.updBank n (blkBank (off / 256)) (fun k => { k with writes := k.writes - 1 }) else s
    | _ => s) s

/-- A packet that fails a check is not performed: a write is dropped, a read finds poisoned zero, and its answer signals nothing
when the address was denied (R14, R15, R199). -/
def State.turnAway (s : State) (p : UPkt) (code a : Nat) : State :=
  let s1 := s.arriveErr p.src p.job code a
  if p.form = 0 then (s1.uncount p).unsEnd p
  else
    let s2 := if code = 0x0401 then s1 else s1.updFab (fun f =>
      { f with serve := f.serve.map (fun x => if x.id = p.tag / 65536 then { x with denied := true } else x) })
    (List.range p.lines).foldl (fun s i => s.serveGot p.id i 0 0 0 ⟨0, 0, true⟩ false)
      (s2.setUns p.id (fun q => { q with left := some p.lines }))

/-- UNS_PACKET_PERFORM: the n-th packet of the mesh, at its ejection point, is checked and its lines are handed to their memory;
it keeps its places in the buffer until the last of them has been performed (R80, R196, R198, R199). -/
def execUnsPacketPerform (n : Fin 65536) (s : State) : Res :=
  .next (match s.mesh.uns[n.val]? with
    | none => s
    | some p =>
      if p.via ≠ ejectBuf p.dst || p.left.isSome || p.form = 4 then s
      else if p.form = 2 then s.respond p
      else match (List.range p.flits).findSome? (fun i =>
          (s.arriveDenied p.job (p.addr + 64 * i) (p.form = 0)).map (fun c => (c, p.addr + 64 * i))) with
        | some (c, a) => s.turnAway p c a
        | none => (List.range p.flits).foldl (fun s i => s.unsLine p i) (s.setUns p.id (fun q => { q with left := some p.flits })))

/-! ### Scratchpads (R80, R84) -/

/-- UNS_BANK_ACCESS: the oldest unscheduled access whose bank no port uses in this beat takes it (R80, R81, R83). -/
def execUnsBankAccess (b : Barn) (k : StallId) (ecc : EccOutcome) (s : State) : Res :=
  let i := sx b k
  .next (match (s.stall i).uns.find? (fun w => s.spadFree i w.line) with
    | none => s
    | some w =>
      let s1 := (s.takeBank i w.line).updStall i (fun t => { t with uns := t.uns.erase w })
      match w.wr with
      | some v =>
        let old := s.readLine i (s.beat b + 1) w.line
        (s1.writeLine i (s.beat b) w.line { v with data := maskBytes w.mask old.data v.data }).unsDone w.pkt
      | none =>
        let l := s.readLine i (s.beat b) w.line
        match ecc with
        | .clean => s1.serveGot w.pkt w.idx b k w.line l true
        | .corrected => (s1.spadEcc b k w.line true).serveGot w.pkt w.idx b k w.line l true
        | .uncorrectable => (s1.spadEcc b k w.line false).serveGot w.pkt w.idx b k w.line { l with poison := true } true
        | .tagError => (s1.spadEcc b k w.line false).serveGot w.pkt w.idx b k w.line { l with poison := true } false)

/-- No port uses, in this beat, the scratchpad bank that a write-back needs; nor, for a CORE access, does another access
outside the schedule wait for it (R49, R84). Write-backs of accumulator rows and vector registers need no bank. -/
def State.fixFree (s : State) (i f : Nat) : Bool :=
  if f < 0x10000 then s.bankFree i f else !(0x10000 ≤ f && f < 0x20000 && s.accBusy i ((f - 0x10000) / 1024))

/-- SPAD_WRITEBACK: the oldest corrected word of the stall whose bank no port uses in this beat is written back; the recovery
ends (R84, R111, R151, R417). -/
def execSpadWriteback (b : Barn) (k : StallId) (s : State) : Res :=
  let i := sx b k
  .next (match (s.stall i).fixes.find? (s.fixFree i) with
    | none => s
    | some f => ((if f < 0x10000 then s.takeBank i f else s).updStall i (fun t => { t with fixes := t.fixes.erase f })).endRecovery
        1 b (s.physOf b k) f)

/-- SPAD_SCRUB: the scrubber reads a line in a beat that no port uses and corrects or poisons it (R84). -/
def execSpadScrub (b : Barn) (k : StallId) (line : Fin 49152) (ecc : EccOutcome) (s : State) : Res :=
  let i := sx b k
  .next (if !s.bankFree i line || s.stallCount b ≤ k.val then s
    else
      let s1 := s.takeBank i line
      match ecc with
      | .clean => s1
      | .corrected => s1.spadEcc b k line true
      | _ =>
        let l := s.readLine i (s.beat b) line
        (s1.writeLine i (s.beat b) line ⟨l.data, 0, true⟩).spadEcc b k line false)

/-! ### Lofts (R161) -/

/-- The error that check codes show in one read of a loft block, which has no tag. -/
def eccOf (e : EccOutcome) (blk : Nat) : List EccHit :=
  match e with
  | .clean => []
  | .corrected => [⟨3, blk, true⟩]
  | .uncorrectable => [⟨3, blk, false⟩]
  | .tagError => []

/-- UNS_LOFT_ACCESS: the i-th waiting access of a loft takes a free bank cycle, with room on the bond for its line, after a
failed block's second read in the bank (R9, R161, R164, R166, R167). A reader of a block under repair waits on. -/
def execUnsLoftAccess (n : Barn) (i : Fin 65536) (ecc : EccOutcome) (s : State) : Res :=
  .next (match (s.loft n).waits[i.val]? with
    | none => s
    | some w =>
      let bk := blkBank w.blk
      if !s.loftFree n bk || s.bondRoom n < 64 || s.rereadFirst n bk || (s.repairing (srcId n w.blk) && w.wr.isNone) then s
      else
        let s1 := (s.takeLoft n bk).bondTake n 64
        let gone (s : State) : State := s.updLoft n (fun l => { l with waits := l.waits.erase w })
        match w.wr with
        | some bs =>
          let s2 := (gone s1).updBank n bk (fun k => { k with writes := k.writes - 1 })
          (s2.loftStore n w.blk (some w.job) false (byteMask w.off bs.length) (fun v => v.put w.off bs w.poison)).unsDone w.pkt
        | none =>
          let r := s1.loftRead n w.blk (some w.job) (eccOf ecc w.blk)
          if r.2.1.isSome then r.2.2
          else (gone r.2.2).serveGot w.pkt w.idx n 0 0 ⟨BitVec.ofNat 512 (r.1.data.toNat >>> (8 * w.off)), 0, r.1.poison⟩ false)

/-- LOFT_SCRUB: the scrubber reads a block of an ON bank in a free bank cycle (R161, R165). -/
def execLoftScrub (n : Barn) (blk : Fin 8388608) (ecc : EccOutcome) (s : State) : Res :=
  let bk := blkBank blk
  .next (if s.fget (F.LFT_CTRL_SCRUB n) = 0 ∨ (s.bank n bk).st ≠ 0 ∨ !s.loftFree n bk ∨ s.rereadFirst n bk then s
    else ((s.takeLoft n bk).loftRead n blk (s.barn n).owner (eccOf ecc blk)).2.2)

/-! ### Accumulators from outside (R111) -/

/-- May a source reach a barn's memory: a port owns the barn's job (R359); the Tackroom reaches everything (R441). -/
def State.srcReaches (s : State) (src : Source) (b : Nat) : Bool :=
  match src with
  | .tackroom => true
  | .portA => (match (s.barn b).owner with | some j => s.fbit (F.HST_CTX_OWNED 0 j) | none => false)
  | .portB => (match (s.barn b).owner with | some j => s.fbit (F.HST_CTX_OWNED 1 j) | none => false)

/-- ACC_HOST_ACCESS: a read or write of one aligned 4-byte unit of an accumulator, in a beat in which no array command
uses it (R111). -/
def execAccHostAccess (src : Source) (b : Barn) (k : StallId) (arr : Fin 4) (unit : Fin 32768) (wr : Option Word32)
    (ecc : EccOutcome) (s : State) : Res :=
  let i := sx b k
  let row := unit.val / 32
  let at_ := 32 * (unit.val % 32)
  .next (if !s.srcReaches src b || s.stallCount b ≤ k.val || s.accBusy i arr then s
    else match wr with
      | some v =>
        let old := s.seeAcc i (1024 * arr.val + row)
        s.pokeAcc i (1024 * arr.val + row) ⟨BitVec.ofNat 1024 (setBits old.v.toNat at_ 32 v.toNat), false⟩
      | none =>
        let hit : List EccHit := match ecc with
          | .clean => []
          | .corrected => [⟨1, 1024 * arr.val + row, true⟩]
          | _ => [⟨1, 1024 * arr.val + row, false⟩]
        let r := s.readAcc i (s.beat b) arr row hit
        r.2.send (.answer unit (if r.1.poison then 2 else 0) (bits r.1.v.toNat (at_ + 31) at_)))

/-! ### Hops (R202-R204) -/

/-- Is there a link on this output? -/
def linkExists (b d : Nat) : Bool :=
  if d = 0 then b < 18 else if d = 1 then b % 6 ≠ 5 else if d = 2 then 6 ≤ b else b % 6 ≠ 0

/-- One more period of a hold for a re-sent scheduled flit (R203). -/
def State.resendHold (s : State) (r what : Nat) : State :=
  if (s.region r).causes.any (fun c => c.code = 6 && c.what = what) then
    s.updRegion r (fun g => { g with causes := g.causes.map (fun c =>
      if c.code = 6 ∧ c.what = what then { c with left := c.left + 1 } else c) })
  else s.addCause r 6 none what 0 1

/-- The region that receives what a channel carries. -/
def chanEnd (c : Nat) : Nat :=
  if c < 1000 then nextRouter (c / 4) (c % 4) else if c < 2000 then min 28 ((c - 1000) % 32) else (c - 2000) / 32

/-- The failed item is discarded (R204): a scheduled flit is lost for the destinations behind the hop, a packet or a control
packet goes no further. -/
def State.discardItem (s : State) (x : KeptItem) : State :=
  if x.kind = 0 then { s with mesh := { s.mesh with dropped := s.mesh.dropped ++ x.dests.map (fun d => (x.id, d)) } }
  else if x.kind = 1 then s.dropUns x.id
  else { s with mesh := { s.mesh with ctrl := s.mesh.ctrl.filter (fun c => c.id ≠ x.id) } }

/-- HOP_RESEND: the CRC of an item fails behind the channel that carried it, and the sender sends it again from its retention
buffer, in which it is the n-th of the device's; a scheduled flit holds the receiving region for one period. An item that
fails again is discarded and makes the device fatal (R201-R204). -/
def execHopResend (n : Fin 65536) (again : Bool) (s : State) : Res :=
  .next (match s.mesh.kept[n.val]? with
    | none => s
    | some x =>
      let c := chanPlace x.chan
      let b := c.1
      if x.period + 4 < (s.region b).periods then s
      else
        let out := x.chan < 2000
        let s1 := if out then s.fwrap (F.NET_RESEND_RESENDS b) 1 else s
        let s2 := if x.kind = 0 then
            (if out then s1.fsat (F.NET_RESEND_HELD b) 1 else s1).resendHold (chanEnd x.chan) x.chan
          else s1
        let s3 := s2.netErr b 0x0404 0 c.2.2 none 0
        if again then (s3.discardItem x).netErr b 0x0405 0 c.2.2 none 0 else s3)

/-- RESERVED_CTRL_TYPE: a control packet with a good CRC and a reserved TYPE, or an unscheduled flit with the reserved FORM, makes
the device fatal (R204, R212). -/
def execReservedCtrlType (b : Barn) (s : State) : Res := .next (s.netErr b 0x0405 0 0xFF none 0)

/-! ### Control packets (R74, R198, R200, R213) -/

/-- SYNC_ADD: the oldest control packet of two points, when it is a SYNC_ADD that has arrived, adds to its counter (R70, R198). -/
def execSyncAdd (src dst : Fin 30) (s : State) : Res :=
  .next (match s.ctrlTake (fun c => c.ty = 4 && c.src = src.val && c.dst = dst.val) with
    | none => s
    | some (c, s1) =>
      match selKey dst c.stall (bits c.body 15 0) with
      | some key => s1.signal key (bits c.body 47 16)
      | none => s1)

/-- GATE_VAL: the hub's packet with the value of a gate counter reaches the control core that waits for it (R74). -/
def execGateVal (b : Barn) (k : StallId) (s : State) : Res :=
  .next (match s.ctrlTake (fun c => c.ty = 5 && c.dst = b.val && c.stall = k.val) with
    | none => s
    | some (c, s1) => s1.waitcSees b k (keyGate (bits c.body 13 0)) (bits c.body 45 14))

/-- WR_DONE: the source counts one packet less for the destination and may release what it held (R197). -/
def execWrDone (src dst : Fin 30) (s : State) : Res :=
  .next (match s.ctrlTake (fun c => c.ty = 6 && c.src = src.val && c.dst = dst.val) with
    | none => s
    | some (c, s1) =>
      let n := bits c.body 7 0
      let s2 := s1.setOutst n src (s1.outst n src - 1)
      State.unsRelease { s2 with mesh := { s2.mesh with unack := s2.mesh.unack.eraseP (fun x => x.1 = 64 * n + src) } })

end Sys2Proof.Machine
end

