-- ==== Sys2Proof/Machine/Yoke.lean ====
section
/-! DEFINITION. The yoke unit: digests and confirmation, mismatches, heartbeats, loss of the partner, blocks for the
partner, the journal's arrival, and re-yoking (R334-R352, R412). -/

namespace Sys2Proof.Machine

def State.yokState (s : State) : Nat := s.fget F.YOK_STATE_STATE
def State.setYokState (s : State) (v : Nat) : State := s.fset F.YOK_STATE_STATE v
def State.jobYoke (s : State) (j : Nat) : Nat := s.fget (F.YOK_JOB_STATE_STATE j)
def State.setJobYoke (s : State) (j v : Nat) : State := s.fset (F.YOK_JOB_STATE_STATE j) v
def State.yoked (s : State) (j : Nat) : Bool := s.fbit (F.YOK_JOB_CFG_YOKED j)
def State.updYoke (s : State) (f : YokSt → YokSt) : State := { s with yok := f s.yok }
def State.lossNs (s : State) : Nat := s.fget F.YOK_CFG_LOSS_MS * 1000000
/-- Digest points per step: 1 to 64; other values act as 64. -/
def State.points (s : State) (j : Nat) : Nat :=
  let n := s.fget (F.YOK_JOB_CFG_POINTS j)
  if 1 ≤ n ∧ n ≤ 64 then n else 64
/-- Jobs of this device that are yoked. -/
def State.yokedJobs (s : State) : List Nat := (List.range 8).filter (fun j => s.yoked j && (s.job j).live)

/-! ### Confirmation (R340, R341, R412) -/

/-- One more at the return counter of a step on the plane's head. To a head elsewhere the increment goes in the signal of
a CONTROL packet (log entry 62). -/
def State.sendConfirm (s : State) (j n : Nat) : State :=
  let key := s.retKey j n
  if s.isHead j then s.updCtr key (fun c => { c with incs := c.incs ++ [1] })
  else s.originate j (.dev (s.headOf j)) { kind := 4, sigidx := key - keyGate 0, siginc := 1 } [bodyLine (leBytes 1 0x1F ++ leBytes 1 0xFF)]

/-- The partner's digests of a step, once all have come. -/
def State.gotDigests (s : State) (j n : Nat) : Option (List Nat) :=
  (List.range (s.points j)).foldr (fun p acc =>
    match Tab.get (fun _ => none) (s.yokJob j).got (64 * n + p), acc with
    | some d, some ds => some (d :: ds)
    | _, _ => none) (some [])

/-- The base beat of a step that the relay has fixed. -/
def State.baseOf (s : State) (j n : Nat) : Nat := Tab.get zeroNat (s.srvJob j).bases (n % 64)

/-- A contained error is pending that arose in this step or an earlier one (R412). -/
def State.confirmBarred (s : State) (j n : Nat) : Bool :=
  match (s.job j).haltDue with
  | some (_, p) => p ≤ s.baseOf j (n + 1)
  | none => false

/-- A digest of a step differs: the job enters MISMATCH and its head is told (R341). -/
def State.digestMismatch (s : State) (j n p : Nat) : State :=
  let s1 := s.hubErr j 0x0801 (n % 2 ^ 56 * 2 ^ 8 + p)
  let s2 := (s1.setJobYoke j 3).fset (F.YOK_JOB_STATE_POINT j) p
  if s2.isHead j then s2.updYok j (fun y => { y with mismatch := some n })
  else s2.sendControl j (.dev (s2.headOf j)) 0x1E (leBytes 7 0 ++ leBytes 8 n)

/-- Confirm what can be confirmed, in step order. -/
def State.confirmAll (j : Nat) : Nat → State → State
  | 0, s => s
  | k + 1, s =>
    let y := s.yokJob j
    let n := y.conf
    let st := s.jobYoke j
    if y.read ≤ n ∨ s.confirmBarred j n = true then s
    else match Tab.get (fun _ => none) y.own n with
      | none => s
      | some ds =>
        let yes (s : State) : State :=
          State.confirmAll j k (((s.sendConfirm j n).fset (F.YOK_JOB_STATE_CONFIRMED j) (n % 2 ^ 32)).updYok j (fun y =>
            { y with
              conf := n + 1, own := y.own.filter (fun o => n ≤ o.1 + 64)
              got := y.got.filter (fun g => 64 * (n + 1) ≤ g.1) }))
        if st = 2 ∨ st = 4 ∨ st = 5 then yes s
        else if st = 1 then
          match s.gotDigests j n with
          | none => s
          | some gs =>
            let s1 := s.fwrap F.YOK_COUNT_COMPARED 1
            (match (List.range (s.points j)).find? (fun p => ds.getD p 0 ≠ gs.getD p 0) with
             | none => yes s1
             | some p => s1.digestMismatch j n p)
        else s

def State.confirm (s : State) (j : Nat) : State := State.confirmAll j 64 s

/-! ### Digests (R337, R339, R340) -/

/-- The digests of a step in this device's digest area; none when a line is stale or poisoned. -/
def State.readDigests (s : State) (j n : Nat) : Option (List Nat) :=
  let a := s.fget (F.YOK_JOB_AREA_DIGEST j) * 4096 + n % 4 * 4096
  let spad := match s.place a with | .spad _ _ _ => true | _ => false
  let ls := (List.range (s.points j)).map (fun p => s.hubPeek (a + 64 * p))
  if ls.all (fun l => !l.poison && (!spad || l.epoch = n % 16) && bits l.data.toNat 127 64 = n) then
    some (ls.map (fun l => bits l.data.toNat 63 0)) else none

/-- The DIGEST packets of a step: six digests to each. -/
def State.sendDigests (s : State) (j n : Nat) (ds : List Nat) : State :=
  (List.range ((ds.length + 5) / 6)).foldl (fun s i =>
    let part := (ds.drop (6 * i)).take 6
    s.sendControl j .yoke 0x18 (leBytes 1 part.length ++ leBytes 1 (6 * i) ++ leBytes 5 0 ++ leBytes 8 n ++
      part.flatMap (leBytes 8))) s

/-- DIGEST_READ: the job's count has reached B(s + 1), and the yoke unit reads the digests of step s. -/
def execDigestRead (j : JobId) (s : State) : Res :=
  .next (
    let n := (s.yokJob j).read
    if !(s.yoked j && (s.job j).live) || (s.srvJob j).deliver ≤ n || decide (s.jobBeat j < s.baseOf j (n + 1)) then s
    else
      let s1 := s.updYok j (fun y => { y with read := n + 1 })
      match s.readDigests j n with
      | none => s1.hubErr j 0x0802 0
      | some ds =>
        let s2 := s1.updYok j (fun y => { y with own := Tab.set (fun _ => none) y.own n (some ds) })
        ((if s.jobYoke j = 1 ∨ s.jobYoke j = 3 ∧ s.yokState = 2 then s2.sendDigests j n ds else s2)).confirm j)

/-- DIGEST: digests of the partner arrive. -/
def execDigest (p : PortId) (s : State) : Res :=
  .next (s.control p 0x18 (fun s j _ ls =>
    let n := ctlNat ls 8 8
    let first := ctlByte ls 2
    let y := s.yokJob j
    if y.read + 31 ≤ n then s.fsat F.YOK_COUNT_DISCARDED 1
    else if n < y.conf then s
    else
      let got := (List.range (min 6 (ctlByte ls 1))).foldl (fun t i =>
        if first + i < 64 then Tab.set (fun _ => none) t (64 * n + first + i) (some (ctlNat ls (16 + 8 * i) 8)) else t) y.got
      (s.updYok j (fun y => { y with got := got })).confirm j))

/-- MISMATCH_NOTE: the head learns of a mismatch. -/
def execMismatchNote (p : PortId) (s : State) : Res :=
  .next (s.control p 0x1E (fun s j _ ls =>
    if s.isHead j then s.updYok j (fun y => { y with mismatch := some (ctlNat ls 8 8) }) else s))

/-! ### SOLO, and the end of a re-yoke (R342, R344, R346, R352) -/

/-- The job goes on alone: steps that wait for the partner are confirmed, and a secondary head is to take over. -/
def State.goSolo (s : State) (j : Nat) : State :=
  let s1 := s.setJobYoke j 2
  let s2 := if s1.isHead j && !s1.fbit F.YOK_CFG_PRIMARY then s1.updYok j (fun y => { y with takeover := true }) else s1
  s2.confirm j

/-- A re-yoke ends unfinished: the survivor returns to SOLO and a suspension at P ends; a rejoining job halts. -/
def State.abandon (s : State) (j : Nat) : State :=
  let st := s.jobYoke j
  if st = 4 ∨ st = 5 then
    let s1 := (s.hubErr j 0x080B 0).setJobYoke j 2
    let s2 := s1.updYok j (fun y => { y with todo := [], part := 0, cut := none, ready0 := [], ready1 := [] })
    (if (s2.srvJob j).reason = 6 then s2.updSrv j (fun q => { q with reason := 0 }) else s2).confirm j
  else if st = 6 then s.hubErr j 0x080C 0
  else s

/-- The partner is lost (R344). -/
def State.partnerLost (s : State) : State :=
  let s1 := (s.raise { code := 0x0805, blk := 28 }).setYokState 3
  s1.yokedJobs.foldl (fun s j => if s.jobYoke j = 1 then s.goSolo j else s.abandon j) s1

/-- YOKE_HALT: the partner's job has halted (R346, R352). To a rejoining device, code 0x080B says that the survivor has abandoned
the re-yoke (log entry 62). -/
def execYokeHalt (p : PortId) (s : State) : Res :=
  .next (s.control p 0x1C (fun s j _ ls =>
    if s.jobYoke j = 6 ∧ ctlNat ls 1 2 = 0x080B then s.abandon j
    else
      let s1 := s.hubErr j 0x0807 0
      if s1.jobYoke j = 1 then s1.goSolo j else s1.abandon j))

/-- KEEP: the plane goes on alone, and the head ends the suspension. The other devices of the plane learn of it by a
CONTROL packet (log entry 62). -/
def State.keep (s : State) (j : Nat) : State :=
  if s.isHead j && s.yoked j && (s.job j).live && (s.jobYoke j = 3 || s.jobYoke j = 1 || (s.yokJob j).mismatch.isSome) then
    let s1 := (s.controlPeers j 0x1F (leBytes 1 0xFE)).updYok j (fun y => { y with mismatch := none })
    (if (s1.srvJob j).reason = 5 then s1.updSrv j (fun q => { q with reason := 0 }) else s1).goSolo j
  else s

/-- DROP: the job halts on the plane. -/
def State.dropYoke (s : State) (j : Nat) : State :=
  if s.isHead j && s.yoked j && (s.job j).live then s.hubErr j 0x0809 0 else s

def execKeep (j : JobId) (s : State) : Res := .next (s.keep j)
def execDrop (j : JobId) (s : State) : Res := .next (s.dropYoke j)

/-! ### Forming, heartbeats, loss (R334, R343-R345) -/

/-- ENABLE of YOK_CFG is written. -/
def State.yokeEnable (s : State) (on : Bool) : State :=
  if on then
    if s.fbit F.YOK_CFG_ENABLE then s
    else ((s.fset F.YOK_CFG_ENABLE 1).setYokState 1).updYoke (fun y => { y with enabledAt := s.refNs, formRaised := false })
  else (((s.fset F.YOK_CFG_ENABLE 0).setYokState 0).fset F.YOK_STATE_LINK_HB 0).fset F.YOK_STATE_PIN_HB 0

/-- YOKE_ENABLE: host software sets ENABLE. As an RWL field it takes the write only while the block is disabled, and else the
write is counted as ignored (R450). -/
def execYokeEnable (s : State) : Res :=
  .next (if s.enabled (Blk.base .yok 0) then
      (s.fset (F.BLK_STATUS_WRITE_IGNORED (Blk.base .yok 0)) 1).fsat (F.BLK_COUNT_IGNORED (Blk.base .yok 0)) 1
    else s.yokeEnable true)

def State.yokPort (s : State) : Nat := s.fget F.YOK_CFG_PORT

/-- The conditions of R334. -/
def State.yokeMayForm (s : State) : Bool :=
  let p := s.yokPort
  s.portSt p = 5 && (s.link p).isYoke && s.fget (F.LNK_PARTNER_DEVICE (p / 8) (p % 8)) = s.fget F.YOK_CFG_PARTNER &&
  (s.link p).planeOther ≠ s.fget F.FAB_ID_PLANE && s.fbit F.YOK_STATE_LINK_HB && s.fbit F.YOK_STATE_PIN_HB &&
  s.yok.partnerPrim = some (!s.fbit F.YOK_CFG_PRIMARY)

/-- YOKE_FORMED. -/
def execYokeFormed (s : State) : Res := .next (if s.yokState = 1 && s.yokeMayForm then s.setYokState 2 else s)

/-- YOKE_FORM_TIMEOUT: 100 ms after ENABLE, or after the port has become ACTIVE, a condition still fails. -/
def execYokeFormTimeout (s : State) : Res :=
  .next (if s.yokState = 1 && !s.yokeMayForm && !s.yok.formRaised && decide (s.yok.enabledAt + 100000000 ≤ s.refNs) then
    (s.updYoke (fun y => { y with formRaised := true })).raise { code := 0x0803, blk := 28 } else s)

/-- A heartbeat of one path is seen; after a loss or a cut the yoke forms again. -/
def State.heartbeat (s : State) (pin : Bool) : State :=
  let s1 := if pin then (s.fset F.YOK_STATE_PIN_HB 1).updYoke (fun y => { y with pinHb := some s.refNs })
    else (s.fset F.YOK_STATE_LINK_HB 1).updYoke (fun y => { y with linkHb := some s.refNs })
  if s1.yokState = 3 ∨ s1.yokState = 4 ∧ pin = false then
    (s1.setYokState 1).updYoke (fun y => { y with enabledAt := s.refNs, formRaised := false })
  else s1

/-- YOKE_HB: a heartbeat message arrives on the yoke port, with the partner's PRIMARY bit. -/
def execYokeHb (p : PortId) (s : State) : Res :=
  .next (match s.takeStored p 4 with
    | none => s
    | some (m, s1) =>
      if s1.fbit F.YOK_CFG_ENABLE && p.val = s1.yokPort then
        (s1.updYoke (fun y => { y with partnerPrim := some (bit m.1.toNat 119) })).heartbeat false
      else s1)

/-- HEARTBEAT_SEND: at a whole millisecond, a pulse of 100 µs on YOKE_HB_OUT and a message on the yoke port: PRIMARY in
[119], the number of jobs in [118:104] (log entry 63). -/
def execHeartbeatSend (s : State) : Res :=
  .next (
    let ms := s.nowNs / 1000000
    if !s.fbit F.YOK_CFG_ENABLE || ms = s.yok.lastPulse then s
    else
      let n := ((List.range 8).filter (fun j => (s.job j).phase ≠ .free)).length
      let s1 := (((s.send (.pin 2 true)).send (.pin 2 false)).updYoke (fun y => { y with lastPulse := ms }))
      if s1.portSt s1.yokPort = 5 then
        s1.sendBypass s1.yokPort (bypassMsg 4 (b2n (s1.fbit F.YOK_CFG_PRIMARY) * 2 ^ 119 + n * 2 ^ 104))
      else s1)

/-- YOKE_HB_IN_PULSE: a high pulse of 50 µs to 200 µs counts. -/
def execYokeHbInPulse (highNs : Nat) (s : State) : Res :=
  .next (if s.fbit F.YOK_CFG_ENABLE && 50000 ≤ highNs && highNs ≤ 200000 then s.heartbeat true else s)

/-- HB_PATH_TIMEOUT: one path has shown no heartbeat for LOSS_MS; with both silent the partner is lost. -/
def execHbPathTimeout (pin : Bool) (s : State) : Res :=
  .next (
    let last := if pin then s.yok.pinHb else s.yok.linkHb
    let f := if pin then F.YOK_STATE_PIN_HB else F.YOK_STATE_LINK_HB
    if s.fbit F.YOK_CFG_ENABLE && s.fbit f && decide (last.getD 0 + s.lossNs ≤ s.refNs) then
      let s1 := (s.fset f 0).raise { code := 0x0804, blk := 28 }
      if (s1.yokState = 2 ∨ s1.yokState = 4) ∧ s1.fbit F.YOK_STATE_PIN_HB = false ∧ s1.fbit F.YOK_STATE_LINK_HB = false then
        s1.partnerLost
      else s1
    else s)

/-- YOKE_CUT: the yoke port has been down for LOSS_MS while pin heartbeats continue. -/
def execYokeCut (s : State) : Res :=
  .next (match s.yok.downSince with
    | none => s
    | some t =>
      if s.yokState = 2 && s.fbit F.YOK_STATE_PIN_HB && decide (t + s.lossNs ≤ s.refNs) then
        let s1 := s.setYokState 4
        if s.fbit F.YOK_CFG_PRIMARY then
          let s2 := s1.raise { code := 0x0806, blk := 28 }
          s2.yokedJobs.foldl (fun s j => if s.jobYoke j = 1 then s.goSolo j else s.abandon j) s2
        else s1.yokedJobs.foldl (fun s j => s.hubErr j 0x0809 0) s1
      else s)

/-! ### Blocks for the partner (R168, R169, R336, R349) -/

/-- Answer a request of the partner: with the block, or that it is unavailable. `good` says that the own read succeeds. -/
def State.serveReq (s : State) (r : LoftReq) (good : Bool) : State :=
  let g := r.off / 65536
  let cls := Tab.get zeroNat (s.loft r.loft).cls g
  let stale : Bool := cls ≠ 1 && decide (r.beat < Tab.get zeroNat (s.loft r.loft).wrote g)
  let b := (s.loft r.loft).block (r.off / 256)
  if s.jobYoke r.job = 1 && s.ownsBarn r.job r.loft && !stale && good && (s.bank r.loft (blkBank (r.off / 256))).st = 0 then
    (s.originate r.job .yoke
      { kind := 2, addr := r.loft * 0x80000000 + r.off, poison := (if b.poison then 15 else 0) }
      ((List.range 4).map (fun q => (b.line q).data))).fwrap F.YOK_COUNT_SERVED 1
  else s.sendControl r.job .yoke 0x1A (leBytes 1 r.loft ++ leBytes 2 0 ++ leBytes 4 r.off ++ leBytes 8 r.beat)

/-- Must the request wait: the job's count here has not reached its beat? -/
def State.reqWaits (s : State) (r : LoftReq) : Bool :=
  s.jobYoke r.job = 1 && s.ownsBarn r.job r.loft && decide (s.jobBeatAt r.job r.loft < r.beat)

/-- LOFT_REQ: the partner asks for a block; requests are served in the order of arrival. -/
def execLoftReq (p : PortId) (good : Bool) (s : State) : Res :=
  .next (s.control p 0x19 (fun s j _ ls =>
    let r : LoftReq := ⟨j, ctlByte ls 1, ctlNat ls 4 4 / 256 * 256, ctlNat ls 8 8⟩
    if s.yok.reqs = [] && !s.reqWaits r then s.serveReq r good
    else s.updYoke (fun y => { y with reqs := y.reqs ++ [r] })))

/-- LOFT_REQ_DEFERRED_SERVE: the oldest request that waits is served once its beat has come. -/
def execLoftReqDeferredServe (good : Bool) (s : State) : Res :=
  .next (match s.yok.reqs with
    | [] => s
    | r :: rest => if s.reqWaits r then s else (s.updYoke (fun y => { y with reqs := rest })).serveReq r good)

/-! ### The journal (R347) -/

/-- The items of an entry; none when it breaks its layout or holds a reserved kind. -/
def itemsOf : Nat → List Byte → Option (List (Nat × List Byte))
  | 0, _ => some []
  | _, [] => some []
  | n + 1, bs =>
    let k := field bs 0 1
    let len := field bs 2 2
    if k = 0 ∨ 7 ≤ k ∨ bs.length < 4 + len then none
    else (itemsOf n (bs.drop (4 + len))).map (fun r => (k, (bs.drop 4).take len) :: r)

/-- Packets that a port has accepted and that have not been performed (R197, R260). -/
def State.portBusy (s : State) (p : Nat) : Bool :=
  s.mesh.uns.any (fun u => u.src = p) || (List.range 30).any (fun d => s.outst p d ≠ 0)

/-- JOURNAL: an entry has arrived at the secondary head; its packet is fenced behind the entry's writes. -/
def execJournal (p : PortId) (s : State) : Res :=
  .next (if s.portBusy p then s
    else s.control p 0x1B (fun s j _ ls =>
      let ring := s.fget (F.YOK_JOB_AREA_JOURNAL j) * 4096
      let off := ctlNat ls 16 4
      let len := ctlNat ls 20 4
      let bs := ((List.range ((len + 63) / 64)).flatMap (fun i => s.hubGet (ring + (off + 64 * i) % 1048576) 64)).take len
      match itemsOf len bs with
      | none => s.hubErr j 0x080A 0
      | some is_ => s.updYok j (fun y => { y with journal := y.journal ++ [(ctlNat ls 8 8, is_)] })))

/-! ### Re-yoking (R350-R352) -/

/-- REYOKE: a SOLO job's survivor begins PRECOPY. -/
def State.reyoke (s : State) (j : Nat) : State :=
  if s.yoked j && (s.job j).live && s.jobYoke j = 2 && s.fget (F.SEC_JOB_STATE_GEN j) ≠ 4095 then
    ((s.setJobYoke j 4).fset F.YOK_REYOKE_PASSES 0).updYok j (fun y =>
      { y with todo := s.copyGranules j (fun _ _ => true), part := 0, copied := [], cut := none, ready0 := [], ready1 := [] })
  else s

def execReyoke (j : JobId) (s : State) : Res := .next (s.reyoke j)

/-- Send packets of the granules to be copied while the job's share at the yoke port's edge has room. -/
def State.copyOn (j : Nat) : Nat → State → State
  | 0, s => s
  | n + 1, s =>
    match (s.yokJob j).todo with
    | [] => s
    | g :: rest =>
      if s.share j ≤ s.retained j (s.yokPort / 8) ∨ s.portOpen s.yokPort = false then s
      else
        let part := (s.yokJob j).part
        let a := g / 32768 * 0x80000000 + g % 32768 * 65536 + 256 * part
        let ls := (List.range 4).map (fun q => s.hubPeek (a + 64 * q))
        let s1 := s.originate j .yoke { kind := 0, addr := a, poison := (ls.zipIdx.map (fun l => b2n l.1.poison * 2 ^ l.2)).sum }
          (ls.map LineVal.data)
        State.copyOn j n (s1.updYok j (fun y =>
          { y with
            copied := if part = 0 then Tab.set zeroNat y.copied g (s.jobBeat j) else y.copied
            part := if part = 255 then 0 else part + 1
            todo := if part = 255 then rest else y.todo }))

/-- Report a phase to the head of the plane. -/
def State.yokeReady (s : State) (j phase : Nat) : State :=
  if s.isHead j then
    (if phase = 0 then s.updYok j (fun y => { y with ready0 := y.ready0 ++ [s.devId] })
     else s.updYok j (fun y => { y with ready1 := y.ready1 ++ [s.devId] }))
  else s.sendControl j (.dev (s.headOf j)) 0x1F (leBytes 1 phase)

/-- The head of the rejoining plane sends FORK_READY once every device has reported phase 1. -/
def State.forkCheck (s : State) (j : Nat) : State :=
  if s.jobYoke j = 6 && s.isHead j &&
      (((s.peersOf j).filter (· ≠ s.devId)) ++ [s.devId]).all (fun d => (s.yokJob j).ready1.contains d) then
    ((s.sendControl j .yoke 0x14 []).setJobYoke j 1).updYok j (fun y => { y with ready1 := [] })
  else s

/-- PRECOPY_PASS_END: the copy goes on as far as the retention share allows. When a pass ends, its dirty granules are
copied again, or phase 0 is reported. After P the state sections and REYOKE_END follow the dirty granules (R351). -/
def execPrecopyPassEnd (j : JobId) (s : State) : Res :=
  .next (
    let st := s.jobYoke j
    if !(s.job j).live || (st ≠ 4 && st ≠ 5) then s
    else
      let s1 := State.copyOn j 8192 s
      if (s1.yokJob j).todo ≠ [] then s1
      else if st = 4 then
        if (s1.yokJob j).cut.isSome then s1
        else
          let dirty := s1.copyGranules j (s1.dirtyGranule j)
          let s2 := (s1.fwrap F.YOK_REYOKE_PASSES 1).fset F.YOK_REYOKE_DIRTY (min dirty.length 0xFFFF)
          if s2.fget F.YOK_REYOKE_DIRTY_MAX < dirty.length then s2.updYok j (fun y => { y with todo := dirty, part := 0 })
          else (s2.updYok j (fun y => { y with cut := some 0 })).yokeReady j 0
      else match (s1.yokJob j).cut with
        | some p =>
          if (s1.job j).phase ≠ .suspended then s1
          else
            let s2 := s1.send (.message (100 + j) (s1.saveSet j p))
            (s2.sendControl j .yoke 0x1D (leBytes 7 0 ++ leBytes 8 p ++ leBytes 2 (s2.fget (F.SEC_JOB_STATE_GEN j)))).updYok j
              (fun y => { y with cut := none })
        | none => s1)

/-- REYOKE_END: a rejoining device takes GEN, writes the state sections back, sets its launch 1 ms ahead at job beat P,
and reports phase 1. `sections` is the state that the partner has sent (log entry 64). -/
def execReyokeEnd (p : PortId) (sections : List Byte) (s : State) : Res :=
  .next (s.control p 0x1D (fun s j _ ls =>
    if s.jobYoke j ≠ 6 then s
    else
      let beat := ctlNat ls 8 8
      let u := unsect sections
      let step := field u.1 8 8
      let s1 := (s.fset (F.SEC_JOB_STATE_GEN j) (ctlNat ls 16 2 % 4096)).takeSections j u.2
      let s2 := s1.updInfo j (fun i => { i with launch := s.nowNs + 1000000, beat := beat, step := step })
      let s3 := s2.updJob j (fun jb => { jb with launchPending := true, stop := some beat, start := beat })
      let s4 := s3.updSrv j (fun q =>
        { q with next := step, base := beat, deliver := step, dbase := beat, resumed := true
                 bases := Tab.set zeroNat q.bases (step % 64) beat })
      let s5 := s4.updYok j (fun y => { y with read := step, conf := step })
      (s5.yokeReady j 1).forkCheck j))

/-- YOKE_READY: a device of the plane reports; two further phases carry what the manual gives no packet (log entry 62). -/
def execYokeReady (p : PortId) (s : State) : Res :=
  .next (s.control p 0x1F (fun s j h ls =>
    let phase := ctlByte ls 1
    if phase = 0xFF then
      (if s.isHead j && s.gateOwned j h.sigidx then
        s.updCtr (keyGate h.sigidx) (fun c => { c with incs := c.incs ++ [h.siginc] }) else s)
    else if phase = 0xFE then (if s.jobYoke j = 1 || s.jobYoke j = 3 then s.goSolo j else s)
    else if !s.isHead j then s
    else if phase = 0 then s.updYok j (fun y => { y with ready0 := y.ready0 ++ [h.src] })
    else (s.updYok j (fun y => { y with ready1 := y.ready1 ++ [h.src] })).forkCheck j))

/-- FORK_READY: the survivor head ends the suspension; it journals from the next step on. -/
def execForkReady (p : PortId) (s : State) : Res :=
  .next (s.control p 0x14 (fun s j _ _ =>
    if s.isHead j && s.jobYoke j = 5 then
      ((s.setJobYoke j 1).updYok j (fun y => { y with ready0 := [], ready1 := [], joff := 0 })).updSrv j (fun q =>
        { q with reason := if q.reason = 6 then 0 else q.reason, jout := [] })
    else s))

/-- ABANDON on a survivor has the effect of a loss; the rejoining partner is told by YOKE_HALT (log entry 62). -/
def State.abandonReyoke (s : State) (j : Nat) : State :=
  if s.jobYoke j = 4 ∨ s.jobYoke j = 5 then (s.sendControl j .yoke 0x1C (leBytes 2 0x080B)).abandon j else s

def execAbandon (j : JobId) (s : State) : Res := .next (s.abandonReyoke j)

/-- REYOKE_ABANDONED: the partner of a re-yoke in progress is lost or the yoke is cut. -/
def execReyokeAbandoned (j : JobId) (s : State) : Res :=
  .next (if (s.job j).live && (s.yokState = 3 || s.yokState = 4) then s.abandon j else s)

end Sys2Proof.Machine
end

