-- ==== Sys2Proof/Machine/RegRead.lean ====
section
/-! DEFINITION. Reading registers: where an offset lies, what each register shows, unmapped accesses, and the latch of 4-byte
reads (R441-R445, R449, R455, and the register tables of every chapter). -/

namespace Sys2Proof.Machine

/-! ### Places -/

/-- A register that an access reaches: block kind and instance, aligned direct offset, its row, its instance numbers. -/
structure RegHit where
  blk : Blk
  i : Nat
  o : Nat
  row : RegRow
  k1 : Nat
  k2 : Nat
  deriving DecidableEq, Repr

/-- The direct address of the register. -/
def RegHit.addr (h : RegHit) : Nat := h.blk.base h.i + h.o

/-- The register at a BAR0 offset, through any window. -/
def regHit (a : Nat) : Option RegHit :=
  match findBlk a with
  | none => none
  | some (b, i) =>
    let o := (a - b.base i) % 0x4000 / 8 * 8
    (findRow b.rows o).map (fun r => ⟨b, i, o, r.1, r.2.1, r.2.2⟩)

/-- Blocks whose registers come one to a stall. -/
def Blk.perStall : Blk → Bool
  | .stl | .spd | .arr | .vec => true
  | _ => false

/-- A register of a logical stall at or above the stall count, or of a link output that does not exist: it reads as zero and
ignores writes. -/
def State.regAbsent (s : State) (h : RegHit) : Bool :=
  (h.blk.perStall && h.row.n1 = 48 && decide (s.stallCount h.i ≤ h.k1)) ||
  (h.blk = .net && h.row.n1 = 4 && !linkExists h.i h.k1)

/-! ### What registers show that no store holds -/

/-- STL registers (R75). -/
def State.viewStl (s : State) (b k o v : Nat) : Nat :=
  let t := s.stall (48 * b + k)
  if o < 0x400 then
    t.st.code * 2 ^ 32 + t.rets.length * 2 ^ 27 + t.loops.length * 2 ^ 24 + b2n t.rtn * 2 ^ 18 + t.pc % 2 ^ 18
  else if o < 0x700 then ((List.range 5).map (fun e => (t.queue (e + 1)).length * 2 ^ (8 * e))).sum
  else v

/-- SPD_DMA[BUSY]: channels that a command occupies. SPD_CLEAR[STATE] is WRITING while a clear writes, for 3,072 beats at 16
lines a beat, and VERIFYING while it reads back (R94, R95). -/
def State.viewSpd (s : State) (b k o v : Nat) : Nat :=
  let t := s.stall (48 * b + k)
  if o < 0x400 then
    v + ((List.range 4).map (fun c => b2n (t.flights.any (fun f => f.eng = 3 && f.chan = c && s.beat b ≤ f.done)) * 2 ^ c)).sum
  else if o = 0xA00 ∧ v % 8 = 1 ∧ (s.barn b).clearAt + 3072 ≤ s.beat b then v + 1
  else v

/-- ARR_STATE (R117, R118, R121). -/
def State.viewArr (s : State) (b k o v : Nat) : Nat :=
  let t := s.stall (48 * b + k)
  let now := s.beat b
  if o < 0x400 then
    b2n (t.flights.any (fun f => f.isOp 0x203 && now ≤ f.done)) * 2 ^ 16 +
    ((List.range 8).map (fun i => b2n (t.flights.any (fun f => f.holdsBuf now (i / 2) (i % 2))) * 2 ^ (8 + i))).sum +
    ((List.range 4).map (fun a => b2n (t.flights.any (fun f => f.loads now a 0 || f.loads now a 1)) * 2 ^ (4 + a))).sum +
    t.activeArrays now
  else v

/-- VEC_STATE (R149, R152). -/
def State.viewVec (s : State) (b k o v : Nat) : Nat :=
  if o < 0x400 then v + b2n ((s.stall (48 * b + k)).vecActive (s.beat b)) * 2 ^ 12 else v

/-- LFT registers (R154, R162, R170, R176, R187). -/
def State.viewLft (s : State) (b k o v : Nat) : Nat :=
  if o = 0x300 then v + s.loftF b / 2 % 64
  else if o = 0x308 then v + (s.heldEngines b).length
  else if o = 0x320 then v + (((s.loft b).failed.filterMap FailBlk.slot).map (fun x => 2 ^ x)).sum
  else if 0x200 ≤ o ∧ o < 0x300 then ((List.range 16).map (fun x => (s.bank b (16 * k + x)).st * 4 ^ x)).sum
  else v

/-- NET registers (R195, R196, R214). -/
def State.viewNet (s : State) (b k o v : Nat) : Nat :=
  let e := Tab.get (fun _ => Slot.zero) (s.stall (48 * b + s.fget (F.NET_SLOT_SEL_STALL b))).slots (s.fget (F.NET_SLOT_SEL_SLOT b))
  let there := s.fget (F.NET_SLOT_SEL_STALL b) < s.stallCount b
  if o = 0x120 then (if there then b2n e.valid * 2 ^ 63 + e.base * 2 ^ 32 + e.ring * 2 ^ 16 + e.ptr else 0)
  else if o = 0x128 then (if there then e.sigsel * 2 ^ 8 + e.siginc else 0)
  else if 0x280 ≤ o ∧ o < 0x2A0 then
    (8 - s.ctrlHeld (chLink b k)) * 2 ^ 16 + (16 - s.viaFlits (1 + 4 * b + k) true) * 2 ^ 8 + (16 - s.viaFlits (1 + 4 * b + k) false)
  else v

/-- LNK_CREDIT (R240, R246). -/
def State.viewLnk (s : State) (e q vc o v : Nat) : Nat :=
  if 0x400 ≤ o then
    let p := 8 * e + q
    let l := s.link p
    if s.portOpen p then
      Tab.get zeroNat l.adv (2 * vc) * 2 ^ 48 + l.credit (2 * vc) * 2 ^ 32 + Tab.get zeroNat l.adv (2 * vc + 1) * 2 ^ 16 +
      l.credit (2 * vc + 1)
    else 0
  else v

/-- PCR registers (R29, R35, R36, R37). -/
def State.viewPcr (s : State) (k o v : Nat) : Nat :=
  if o = 0x810 then s.nowNs % 2 ^ 64
  else if o = 0x830 then
    (if s.source = 2 ∧ s.time.refLost = false ∧ s.portOpen (s.fget F.PCR_TIME_CTRL_PARENT_PORT) = false then setBits v 0 3 0 else v)
  else if 0x900 ≤ o ∧ o < 0xA00 then (if s.portOpen k then v else setBits v 0 32 0x80000000)
  else if 0xB00 ≤ o ∧ o < 0xB40 then s.jobBeat k % 2 ^ 64
  else v

/-- FAB registers (R255, R259). -/
def State.viewFab (s : State) (k o v : Nat) : Nat :=
  if o = 0x118 then s.tblRead
  else if 0x300 ≤ o then v + min 16383 (((List.range 8).map (fun j => s.retained j k)).sum)
  else v

/-- A customer record as SRV_DATA shows it. -/
def Cust.word (c : Cust) : Nat → Nat
  | 0 => c.burst % 2 ^ 32 + c.rate % 2 ^ 32 * 2 ^ 32
  | 1 => c.wp % 2 ^ 16 + c.wd % 2 ^ 16 * 2 ^ 16 + c.tenant % 64 * 2 ^ 32 + b2n c.valid * 2 ^ 63
  | 2 => unsigned 32 c.level + c.defi % 2 ^ 32 * 2 ^ 32
  | 3 => c.charged % 2 ^ 64
  | _ => 0

/-- An adapter slot as SRV_DATA shows it. -/
def AdSlot.word (a : AdSlot) : Nat → Nat
  | 0 => a.id % 2 ^ 32 + a.ver % 2 ^ 32 * 2 ^ 32
  | 1 => a.st + a.pins % 2 ^ 32 * 2 ^ 32
  | _ => 0

/-- Records of a table of SRV_DATA. -/
def srvSize (t : Nat) : Nat := if t = 0 then 4096 else if t = 1 then 64 else if t = 2 then 4096 else 256

/-- SRV_DATA (R314, R326, R329, R332). -/
def State.srvRead (s : State) : Nat :=
  let t := s.fget F.SRV_SEL_TABLE
  let i := s.fget F.SRV_SEL_INDEX
  let w := s.fget F.SRV_SEL_WORD
  let j := s.fget F.SRV_SEL_JOB
  if srvSize t ≤ i then 0
  else if t = 0 then (s.cust j i).word w
  else if t = 1 then 0
  else if t = 2 then field (s.ent j i).bytes (8 * w) 8
  else (s.adSlot j i).word w

/-- SEC_DATA (R407). -/
def State.secRead (s : State) : Nat :=
  let t := s.fget F.SEC_SEL_TABLE
  let w := s.fget F.SEC_SEL_WORD
  let part (h : Nat) : Nat := bits h (64 * w + 63) (64 * w)
  if t = 0 then Tab.get zeroNat s.sec.signers (4 * s.fget F.SEC_SEL_INDEX + w)
  else if t = 1 then part Config.identityHash.toNat
  else if t = 2 then part Config.bindingHash.toNat
  else 0

/-- A packet of the job waits in a receive buffer for its opening. -/
def State.jobOpening (s : State) (j : Nat) : Bool :=
  s.links.any (fun l => l.2.vcs.any (fun v => v.2.rx.any (fun r =>
    r.here && (r.units.head?.map (fun u => (FabHdr.unpack u.toNat).fjob)) = some (s.fjob j))))

/-- SEC registers; TEARDOWN is REVOKED while packets of the job are still being opened, then DRAINING (R405). -/
def State.viewSec (s : State) (k o v : Nat) : Nat :=
  if o = 0x110 then s.secRead
  else if 0x2C0 ≤ o ∧ o < 0x300 then
    (if bits v 11 8 = 2 ∧ s.jobOpening k = false then setBits v 8 4 3 else v)
  else v

/-- ERR_REC: a word of the record that ERR_SEL names, while it is held (R421). -/
def State.viewErr (s : State) (k o v : Nat) : Nat :=
  if 0x140 ≤ o then
    match s.err.held.find? (fun e => e.index = s.fget F.ERR_SEL_INDEX) with
    | some e => bits e.entry.pack (64 * k + 63) (64 * k)
    | none => 0
  else v

/-- HST_PORT_STATE[BOOTS] (R379). -/
def State.viewHst (s : State) (o v : Nat) : Nat := if o = 0x118 then setBits v 48 16 s.tck.boots else v

/-- LDR_STALL_MASK (R292, R299). -/
def State.viewLdr (s : State) (k o v : Nat) : Nat :=
  if o < 0x200 then popCount 48 (Tab.get allGood s.fused k) * 2 ^ 56 + s.stallCount k * 2 ^ 50 + s.goodMask k else v

/-- The value that a read of a register returns. -/
def State.regValue (s : State) (h : RegHit) : Nat :=
  let v := s.reg h.addr
  if h.o = 0x18 then s.cfgRefOf h.blk h.i
  else if h.o = 0x20 then s.cfgCrc h.blk h.i
  else if h.o < 0x100 then v
  else if s.regAbsent h then 0
  else match h.blk with
    | .stl => s.viewStl h.i h.k1 h.o v
    | .spd => s.viewSpd h.i h.k1 h.o v
    | .arr => s.viewArr h.i h.k1 h.o v
    | .vec => s.viewVec h.i h.k1 h.o v
    | .lft => s.viewLft h.i h.k1 h.o v
    | .net => s.viewNet h.i h.k1 h.o v
    | .lnk => s.viewLnk h.i h.k1 h.k2 h.o v
    | .pcr => s.viewPcr h.k1 h.o v
    | .fab => s.viewFab h.k1 h.o v
    | .srv => if h.o = 0x110 then s.srvRead else v
    | .yok => v
    | .sec => s.viewSec h.k1 h.o v
    | .err => s.viewErr h.k1 h.o v
    | .pwr => v
    | .hst => s.viewHst h.o v
    | .tck => v
    | .ldr => s.viewLdr h.k1 h.o v

/-! ### Unmapped accesses (R445, R457) -/

/-- The unit block of a register block (R410, R456). -/
def Blk.unit (b : Blk) (i : Nat) : Nat :=
  match b with
  | .stl | .spd | .arr | .vec | .lft | .net => i
  | .lnk => 24 + i
  | .hst => 30 + i
  | .tck | .ldr => 29
  | _ => 28

/-- An unmapped access of a source: counted, and reported at most once per source in each 1 ms. -/
def State.unmapped (s : State) (src : Nat) (wr : Bool) (a : Nat) : State :=
  let at_ := match findBlk a with
    | some (b, i) => (b.base i, b.unit i)
    | none => (Blk.base .err 0, 28)
  let s1 := s.fsat (F.BLK_COUNT_UNMAPPED at_.1) 1
  let last := Tab.get (fun _ => none) s.time.lastUnmapped src
  if last.all (fun t => t + 1000000 ≤ s.refNs) then
    { s1 with time := { s1.time with lastUnmapped := Tab.set (fun _ => none) s1.time.lastUnmapped src (some s.refNs) } }.raise
      { code := 0x0C02, blk := at_.2, detail := src * 2 ^ 62 + b2n wr * 2 ^ 61 + (0xF00000000 + a) % 2 ^ 36 }
  else s1

/-! ### Reads (R443-R445) -/

/-- The latch of a source in a block; offsets in no block have one of their own. -/
def latchKey (src a : Nat) : Nat :=
  src * 2 ^ 32 + (match findBlk a with | some (b, i) => b.base i | none => 2 ^ 31)

def State.setLatch (s : State) (src a : Nat) (v : Option (Nat × Nat)) : State :=
  { s with time := { s.time with latch := Tab.set (fun _ => none) s.time.latch (latchKey src a) v } }

/-- Does a BAR0 offset lie in TCK_MBX_BUF's direct window? -/
def inMbx (a : Nat) : Bool := Blk.base .tck 0 + 0x1000 ≤ a && a < Blk.base .tck 0 + 0x3000

/-- An aligned access of 4 or 8 bytes. -/
def regAligned (a n : Nat) : Bool := (n = 4 || n = 8) && a % n = 0

/-- A read of PCR_STIME_NS latches the fraction of the value that it returns (R44). -/
def State.readEffect (s : State) (h : RegHit) : State := if h.blk = .pcr ∧ h.o = 0x810 then s.latchFrac else s

/-- A read: its value, and the state after it. -/
def State.regRead (s : State) (src a n : Nat) : Nat × State :=
  let clear := s.setLatch src a none
  if !regAligned a n then (0, clear.unmapped src false a)
  else if inMbx a then (leNat (Tab.getRun zero8 s.tck.buf (a - Blk.base .tck 0 - 0x1000) n), clear)
  else match regHit a with
    | none => (0, clear.unmapped src false a)
    | some h =>
      let v := s.regValue h
      if n = 8 then (v, clear.readEffect h)
      else if a % 8 = 0 then (v % 2 ^ 32, (s.setLatch src a (some (h.addr, v / 2 ^ 32))).readEffect h)
      else match Tab.get (fun _ => none) s.time.latch (latchKey src a) with
        | some (r, up) => if r = h.addr then (up, clear) else (v / 2 ^ 32, clear.readEffect h)
        | none => (v / 2 ^ 32, clear.readEffect h)

/-- A read through the BAR0 of VFj of a port: HST_CTX, HST_CTX_OUT and HST_CTX_CPL of context j (R358). -/
def State.vfRead (s : State) (p j a n : Nat) : Nat × State :=
  let base := Blk.base .hst p
  if a / 8 < 3 ∧ regAligned a n = true then s.regRead p (base + 0x200 + 0x40 * (a / 8) + 8 * j + a % 8) n
  else if (0x1000 ≤ a ∧ a < 0x1010) ∨ (0x1800 ≤ a ∧ a < 0x1808) then
    -- the table and the pending bit, which PCIe defines: a free value of the entry, the pending bit as it stands
    if a < 0x1800 then (s.free.1.toNat % 2 ^ (8 * n), s.free.2)
    else (b2n ((s.hst p).pend.contains (16 * (1 + j))), s)
  else (0, s.unmapped p false (base + 0x30))

/-- May the source reach registers now, and does IDE let the request pass (R357, R361, R377)? -/
def State.srcUp (s : State) (src : Source) : Bool :=
  match src with
  | .tackroom => s.powered
  | .portA => s.canRead 0
  | .portB => s.canRead 1

def State.srcDenied (s : State) (src : Source) (ide : Bool) : Bool :=
  srcNum src < 2 && s.fbit (F.HST_PORT_CFG_IDE_REQUIRED (srcNum src)) && !ide

/-- The point of a register block, by the address in it (R190, R456). -/
def regPoint (a : Nat) : Nat :=
  match findBlk a with
  | some (b, i) => min 29 (if b = .hst then 28 else b.unit i)
  | none => 28

/-- The point of a source of register accesses (R190). -/
def sourcePt (src : Source) : Nat := if srcNum src = 2 then 29 else 28

/-- A REG_RSP goes back: the tag, with the source's number in bits [11:10], the data and the status (R213, log entry 102). -/
def State.regReply (s : State) (src : Source) (addr tag status v : Nat) : State :=
  s.ctrlSend 3 (regPoint addr) (sourcePt src) 63 (tag + 1024 * srcNum src + 4096 * status + 16384 * v)

/-- The block performs a register read and answers. -/
def State.regAnswer (s : State) (src : Source) (fn addr len tag : Nat) : State :=
  let n := srcNum src
  if n < 2 ∧ 8 < len then (s.unmapped n false addr).regReply src addr tag 1 0
  else
    let r := if n < 2 ∧ fn ≠ 0 then s.vfRead n (fn - 1) (addr % 65536) len else s.regRead n addr len
    r.2.regReply src addr tag 0 r.1

/-- REG_RD: a register read of `len` bytes by a host port through PF0 (fn 0) or VF fn - 1, or by the Tackroom, reaches its
block, which answers with a REG_RSP; a PCIe request of more than 8 bytes is completed with Unsupported Request. The command
stands for the travel of the request; behind an earlier control packet of the two points the request travels as a packet of its own
and is performed when it arrives (R200, log entry 102). -/
def execRegRd (src : Source) (fn : Fin 9) (addr : Fin 4294967296) (len : Fin 4097) (ide : Bool) (tag : Fin 1024)
    (s : State) : Res :=
  .next (if !s.srcUp src then s
    else if s.srcDenied src ide then s.regReply src addr tag 1 0
    else if s.ctrlAhead (sourcePt src) (regPoint addr) then
      s.ctrlPut 1 (sourcePt src) (regPoint addr) 63 (0xF00000000 + addr.val + tag.val * 2 ^ 36) (some ⟨src, fn, addr, len, tag, none⟩)
    else s.regAnswer src fn addr len tag)

/-- REG_RSP: the answer arrives at the source's point. -/
def execRegRsp (src dst : Fin 30) (s : State) : Res :=
  .next (match s.ctrlTake (fun c => c.ty = 3 && c.src = src.val && c.dst = dst.val) with
    | none => s
    | some (c, s1) => s1.send (.answer (bits c.body 11 0) (bits c.body 13 12) (bits c.body 77 14)))

end Sys2Proof.Machine
end

