-- ==== Sys2Proof/Machine/Regions.lean ====
section
/-! DEFINITION. Pacing regions as time passes: pacer periods, beats, skew waits, and holds with their spread, release
and time limit (R19-R31, R156). -/

namespace Sys2Proof.Machine

/-! ### Skew (R23) -/

/-- May the region begin its next beat: once that beat completes, its count exceeds no neighbour's by more than 2. -/
def State.mayBegin (s : State) (r : Nat) : Bool := (neighbours r).all (fun q => decide (s.beat r + 1 ≤ s.beat q + 2))

/-- A beat begins: it enters the power window. The work of commands in flight is done at the end of the beat, when everything
that issues in it has issued. -/
def State.beginBeat (s : State) (r : Nat) : State := if r < 24 then s.powerBeat r else s

/-- A region leaves a skew wait: it abandons the period in progress, whose elapsed part its local counter keeps; what has
arrived for its counters in it is settled (R70). -/
def State.skewRelease (s : State) (r : Nat) : State :=
  let g := s.region r
  if g.skew && !g.held && s.mayBegin r then
    ((s.updRegion r (fun g =>
      { g.advance s.time.now (g.cal * g.phase / periodUnits) with skew := false, phase := 0, periods := g.periods + 1 })).closeCtrs r).beginBeat r
  else s

/-- SKEW_WAIT_RELEASE. -/
def execSkewWaitRelease (r : RegionId) (s : State) : Res := .next (s.skewRelease r)

/-! ### Causes (R25) -/

/-- A cause that no count of periods ends has cleared: a counter has reached its threshold, a repair has ended. -/
def State.causeOver (s : State) (r : Nat) (c : HoldCause) : Bool :=
  if c.code = 3 ∨ c.code = 4 then
    (match (s.stall c.what).queue c.eng with
     | q :: _ => s.waitOk r (c.what % 48) c.eng q
     | [] => true)
  else c.code = 8 && c.left = 0 && !s.repairing c.what

/-- One held period of the region passes for its causes. -/
def State.tickCauses (s : State) (r : Nat) : State :=
  s.updRegion r (fun g =>
    { g with causes := (g.causes.filter (fun c => c.left ≠ 1)).map (fun c => { c with left := c.left - 1 }) })

/-- Drop the causes that have cleared. -/
def State.dropOver (s : State) (r : Nat) : State :=
  s.updRegion r (fun g => { g with causes := g.causes.filter (fun c => !s.causeOver r c) })

/-- A timer refresh in progress when a hold would end holds the region on, as a hold of its own (R156). -/
def State.refreshHold (s : State) (r : Nat) : State :=
  let p := (s.region r).periods
  let left := maxOf 0 ((s.loft r).banks.map (fun b => b.2.refEnd - p))
  if r < 24 ∧ 0 < left then s.addCause r 8 (s.barn r).owner 0 0 left else s

/-- A hold that began with cause `c` has lasted LIMIT_US by its region's local time (R31, R41). -/
def State.holdDue (s : State) (r : Nat) (c : HoldCause) : Bool :=
  c.since + s.fget F.PCR_STALL_TIMEOUT_LIMIT_US * 1000 * 2 ^ 32 ≤ (s.region r).loc

/-- A hold of the region's own ends once no cause is left. A HANDSHAKE hold that ends within the limit is reported (R31); a
HANDSHAKE hold is one whose first cause it is (log entry 18). -/
def State.releaseOwn (s : State) (r : Nat) : State :=
  let g := s.region r
  if g.heldOwn ∧ g.causes = [] then
    let s1 := (s.updRegion r (fun g => { g with heldOwn := false, first := none })).showHold r
    let s2 := s1.trace 0 r (g.first.bind HoldCause.job) ((g.first.map HoldCause.code).getD 0 + 256)
    match g.first with
    | some c => if c.code = 1 ∧ s.holdDue r c = false then s2.raise { code := 0x0103, blk := r, inst := c.what } else s2
    | none => s2
  else s

/-! ### Spread and release (R26) -/

/-- Does the region hold from origin `o`? -/
def State.holdsFrom (s : State) (q o : Nat) : Bool :=
  if q = o then (s.region q).heldOwn else (s.region q).origins.contains o

/-- The origins whose hold has reached a neighbour that lies nearer to them. -/
def State.reaching (s : State) (r : Nat) : List Nat :=
  (List.range 29).filter (fun o => o ≠ r && (neighbours r).any (fun q => decide (steps o q < steps o r) && s.holdsFrom q o))

/-- At the end of a pacer period the region takes over what `s0` shows of its neighbours. -/
def State.spreadTo (s0 s : State) (r : Nat) : State :=
  (s.updRegion r (fun g => { g with origins := s0.reaching r })).showHold r

/-! ### Slips (R28) -/

def State.countSlip (s : State) (r : Nat) : State :=
  let s1 := s.fwrap (F.PCR_SLIP_SLIPS r) 1
  if r = 28 then
    ((List.range 8).filter (fun j => s.jobBegun j 28)).foldl (fun s j => s.fwrap (F.PCR_JOB_SLIP_SLIPS j) 1) s1
  else s1

/-! ### The end of a pacer period -/

/-- The next beat begins, or the region waits for a neighbour: a period of skew wait begins (R23). -/
def State.goOn (s : State) (r : Nat) : State :=
  if s.held r then s
  else if s.mayBegin r then (s.updRegion r (fun g => { g with skew := false })).beginBeat r
  else (s.updRegion r (fun g => { g with skew := true })).fwrap (F.PCR_SKEW_WAIT_PERIODS r) 1

/-- A held period ends: its counters are settled, so a wait sees what has arrived in it (R70), and the periods of
starvations are counted (R66). -/
def State.heldPeriod (s0 s : State) (r : Nat) : State :=
  let t := (s.region r).causes.foldl State.countStarved (((s.countSlip r).countPowerHeld r).closeCtrs r)
  let s1 := ((t.tickCauses r).dropOver r).releaseOwn r
  let s2 := State.spreadTo s0 s1 r
  let s3 := if s2.held r then s2 else s2.refreshHold r
  s3.goOn r

/-- A beat completes, with its counters settled and a halt in force (R70, R93): neighbours that waited for it go on at
once. -/
def State.completeBeat (s0 s : State) (r : Nat) : State :=
  let s1 := (if r < 24 then s.countActive r else s).closeCtrs r
  let s2 := (s1.fwrap (F.PCR_BEAT_BEATS r) 1).endBeat r (s.beat r)
  let s3 := (State.spreadTo s0 s2 r).goOn r
  (neighbours r).foldl (fun s q => s.skewRelease q) s3

/-- Does the hub owe a stall the value of the gate counter that its core waits for (R74)? -/
def State.owesValue (s : State) (t : Stall) : Bool :=
  match t.waitc with
  | some (key, _) => 0x200000 ≤ key && t.waitSent ≠ some (s.ctr key).val
  | none => false

/-- In its pacer period the hub sends the values of gate counters to the cores that wait for them, when a wait begins and
whenever the value has changed (R74). -/
def State.gateVals (s : State) : State :=
  (s.stalls.filter (fun t => s.owesValue t.2)).foldl (fun s t =>
    match t.2.waitc with
    | some (key, _) =>
      let v := (s.ctr key).val
      (s.ctrlSend 5 28 (t.1 / 48) (t.1 % 48) ((key - 0x200000) % 2 ^ 14 + v % 2 ^ 32 * 2 ^ 14)).updStall t.1
        (fun x => { x with waitSent := some v })
    | none => s) s

/-- The control channels of a region in a pacer period, held or not (R189, R200). -/
def State.ctrlPeriod (s : State) (r : Nat) : State := if r = 28 then s.gateVals.ctrlMove r else s.ctrlMove r

/-- A pacer period of region `r` ends. `s0` is the device when the period ended, before any region moved on. -/
def State.periodEnd (s0 s : State) (r : Nat) : State :=
  let s1 := ((s.updRegion r (fun g => { g with periods := g.periods + 1 })).localTick r).ctrlPeriod r
  if s1.held r then State.heldPeriod s0 s1 r
  else if (s1.region r).skew then (State.spreadTo s0 (s1.closeCtrs r) r).goOn r
  else
    let s2 := s1.runActs r
    if s2.held r then State.heldPeriod s0 s2 r else State.completeBeat s0 s2 r

/-! ### The pacers (R19, R20) -/

/-- Nominal frequency in MHz. -/
def nominalMHz (st : Nat) : Nat :=
  [500, 600, 700, 800, 900, 1000, 1150, 1300, 1450, 1600, 1750, 1875, 2000, 2080, 2170, 2250].getD st 2250

/-- The pacer's frequency in millionths of nominal, anywhere in the range of R20 (log entry 5). -/
def State.ppm (s : State) (r : Nat) : Nat :=
  let lo := match s.temp r with
    | some t => if 1680 ≤ t then 920000 else 940000
    | none => 940000
  lo + Config.pacerPpm r (s.region r).periods % (1050001 - lo)

/-- The regions whose period ends in this round. -/
def State.ending (s : State) : List Nat := (List.range 29).filter (fun r => periodUnits ≤ (s.region r).phase)

/-- The period of `r` that had ended in `s1` ends now, unless a neighbour's beat of this round has released the region from
its skew wait: it has abandoned that period (R23). -/
def State.endPeriod (s1 t : State) (r : Nat) : State :=
  if (t.region r).periods = (s1.region r).periods then State.periodEnd s1 t r else t

/-- Periods that have ended: at most three of a region in one tick. -/
def State.endPeriods (s : State) : Nat → State
  | 0 => s
  | n + 1 =>
    let rs := s.ending
    let s1 := rs.foldl (fun s r => s.updRegion r (fun g => { g with phase := g.phase - periodUnits })) s
    State.endPeriods (rs.foldl (fun t r => State.endPeriod s1 t r) s1) n

/-- The tick: 1.25 ns of station time pass, and every pacer runs on. A step on an empty queue is one (log entry 1). -/
def State.tick (s : State) : State :=
  let s1 := s.clockEdge
  let s2 := (List.range 29).foldl (fun s r =>
    let d := nominalMHz (s1.cur r) * s1.ppm r
    s.updRegion r (fun g => { g with phase := g.phase + d, prog := g.prog + d })) s1
  State.endPeriods s2 3

/-! ### Commands about holds -/

/-- HANDSHAKE_LATE: a neighbour that has not signalled a hold has not answered for 16 periods (R25). -/
def execHandshakeLate (r nb : RegionId) (s : State) : Res :=
  .next (if (neighbours r).contains nb.val ∧ s.held nb = false then s.addCause r 1 none nb.val 0 0 else s)

/-- The pacer period in progress of a region ends with the command that says so (log entry 6). -/
def State.endsNow (s : State) (r : Nat) : State :=
  let s1 := s.updRegion r (fun g => { g with phase := 0 })
  State.periodEnd s1 s1 r

/-- HOLD_SPREAD: the region's pacer period ends, and with it a hold that has reached the region holds it, or a release that
has reached it lets it go on (R26). -/
def execHoldSpread (r : RegionId) (s : State) : Res :=
  .next (if (s.region r).origins = s.reaching r then s else s.endsNow r)

/-- HOLD_RELEASE: the neighbour has answered, or what else has held the region is over. When this leaves no cause, the
region leaves its hold with the end of the pacer period in progress, in the first period after its last cause has
cleared (R25). -/
def execHoldRelease (r : RegionId) (s : State) : Res :=
  .next (if !(s.region r).heldOwn then s
    else
      let s1 := (s.clearCauses r (fun c => c.code = 1)).dropOver r
      if (s1.region r).causes = [] then s1.endsNow r else s1)

/-- HOLD_TIMEOUT: the hold has lasted LIMIT_US; its first cause halts its job, or the device is fatal, once (R31). -/
def execHoldTimeout (r : RegionId) (s : State) : Res :=
  .next (match (s.region r).first with
    | none => s
    | some c =>
      if !(s.region r).heldOwn || !s.holdDue r c then s
      else if c.code = 1 then
        if s.err.fatal then s else s.raise { code := 0x0104, blk := r, inst := c.what }
      else (s.raise { code := 0x0102, blk := r, job := c.job }).updRegion r (fun g => { g with first := g.causes.head? }))

end Sys2Proof.Machine
end

