-- ==== Sys2Proof/Machine/Spdm.lean ====
section
/-! DEFINITION. Attestation over SPDM 1.3: the requests the device answers on the DOE mailboxes of its host ports (transports
0 and 1) and over MCTP (transport 2), and the lock of the signer table (R382-R385). Message codes and offsets are those of
the DMTF formats, which the manual names (log entry 72). -/

namespace Sys2Proof.Machine

/-! ### Answers -/

/-- Does the device answer on the transport: a host port while its link is up, MCTP once firmware runs (R383, R463)? -/
def State.spdmUp (s : State) (t : Nat) : Bool :=
  if t < 2 then s.canRead t && s.fget F.TCK_STATE_STATE = 1 else s.fget F.TCK_STATE_STATE = 1

def State.transcript (s : State) (t : Nat) : List Byte := Tab.get (fun _ => []) s.sec.script t

/-- Messages enter the connection's transcript. -/
def State.script (s : State) (t : Nat) (bs : List Byte) : State :=
  { s with sec := { s.sec with script := Tab.upd (fun _ => []) s.sec.script t (fun x => x ++ bs) } }

/-- The connection of a transport: 0 none, 1 key exchange in progress, 2 secured session. -/
def State.setSpdm (s : State) (t v : Nat) : State :=
  { s with sec := { s.sec with spdm := Tab.set zeroNat s.sec.spdm t v } }

/-- Send a response: version 1.3, its code, two parameters and a body. -/
def State.spdmSend (s : State) (t code p1 p2 : Nat) (body : List Byte) : State :=
  let m := leBytes 1 0x13 ++ leBytes 1 code ++ leBytes 1 p1 ++ leBytes 1 p2 ++ body
  (s.script t m).send (.message (10 + t) m)

/-- A response that ends with a signature by the identity key over the transcript with itself (R384). -/
def State.spdmSign (s : State) (t code p1 p2 : Nat) (body : List Byte) : State :=
  let m := leBytes 1 0x13 ++ leBytes 1 code ++ leBytes 1 p1 ++ leBytes 1 p2 ++ body
  s.spdmSend t code p1 p2 (body ++ Config.identitySign (s.transcript t ++ m))

/-- ERROR: 1 InvalidRequest, 4 UnexpectedRequest, 7 UnsupportedRequest. -/
def State.spdmError (s : State) (t e : Nat) : State := s.spdmSend t 0x7F e 0 []

/-- A request reaches the device. -/
def State.spdm (s : State) (t : Nat) (req : List Byte) (answer : State → State) : Res :=
  .next (if s.spdmUp t then answer (s.script t req) else s)

/-- Bytes of random that the device chooses: free values. -/
def State.nonce (s : State) : List Byte × State :=
  let a := s.free
  let b := a.2.free
  let c := b.2.free
  let d := c.2.free
  (leBytes 8 a.1.toNat ++ leBytes 8 b.1.toNat ++ leBytes 8 c.1.toNat ++ leBytes 8 d.1.toNat, d.2)

/-! ### Certificates (R382) -/

def chainDigest (slot : Nat) : List Byte := leBytes 32 (shake (Config.certChain slot))

/-! ### Measurements (R384) -/

/-- The firmware image in flash. -/
def State.fwImage (s : State) : List Byte :=
  if s.tck.fwNew then (List.range 0x2000000).map (fun i => Tab.get (fun _ => 0xFF) s.tck.fwWrites i) else Config.factoryImage

/-- The words of the library. -/
def State.libBytes (s : State) : List Byte := (Tab.getRun zero32 s.tck.lib 0 262144).flatMap (fun w => leBytes 4 w.toNat)

/-- A job context's block: zeros while it holds no job. -/
def State.jobMeasure (s : State) (j : Nat) : List Byte :=
  let c := s.secJob j
  if (s.job j).phase = .free then List.replicate 111 0
  else
    leBytes 2 (s.fjob j) ++ leBytes 8 (s.infoOf j).deploy ++ leBytes 1 (s.fget (F.SEC_JOB_STATE_DEPLOY j)) ++
    leBytes 32 ((c.dep.map Bale.mhash).getD 0) ++ leBytes 32 c.imgHash ++ leBytes 32 c.keyDigest ++
    leBytes 3 (s.infoOf j).barns ++ leBytes 1 (s.infoOf j).param ++
    (c.slots.filter (fun x => if s.isHead j then (s.adSlot j x.1).st = 2 else x.2.any Bale.verified)).flatMap (fun x => leBytes 32 ((x.2.map Bale.mhash).getD 0))

/-- Content of a block, and whether it is raw. -/
def State.measure (s : State) (i : Nat) : Option (List Byte × Bool) :=
  match i with
  | 1 => some (leBytes 32 Config.romDigest.toNat, false)
  | 2 => some (leBytes 32 (shake s.fwImage) ++ leBytes 4 (s.fget F.TCK_STATE_FW_VERSION), false)
  | 3 => some (leBytes 32 (shake s.libBytes) ++ leBytes 4 s.tck.libVer, false)
  | 4 => some (leBytes 8 (Config.gradeCode (s.stallCount 0)).toNat ++ (List.range 24).flatMap (fun b => leBytes 1 (s.stallCount b)) ++
      (List.range 24).flatMap (fun b => leBytes 8 (s.goodMask b)), true)
  | 5 => some (leBytes 32 (shake (leBytes 8 (s.reg R.SEC_CTRL) ++ (List.range 16).flatMap (fun e => leBytes 32 (s.signer e)) ++
      leBytes 4 (s.fget F.SEC_SIGNER_ROLE_ROLES))), false)
  | _ => if 6 ≤ i ∧ i ≤ 13 then some (s.jobMeasure (i - 6), true) else none

/-- A block in the DMTF measurement format. -/
def State.block (s : State) (i : Nat) : List Byte :=
  match s.measure i with
  | none => []
  | some (c, raw) =>
    leBytes 1 i ++ leBytes 1 1 ++ leBytes 2 (c.length + 3) ++ leBytes 1 (1 + 128 * b2n raw) ++ leBytes 2 c.length ++ c

/-! ### Requests (R383, R384) -/

/-- GET_VERSION: version 1.3; the connection begins afresh. -/
def execGetVersion (t : Fin 3) (req : List Byte) (s : State) : Res :=
  let fresh := ({ s with sec := { s.sec with script := Tab.del t.val s.sec.script } }).setSpdm t 0
  .next (if s.spdmUp t then (fresh.script t req).spdmSend t 0x04 0 0 (leBytes 1 0 ++ leBytes 1 1 ++ leBytes 2 0x1300) else s)

/-- GET_CAPABILITIES: certificates, challenge, signed measurements, encryption, MAC and key exchange. -/
def execGetCapabilities (t : Fin 3) (req : List Byte) (s : State) : Res :=
  s.spdm t req (fun s => s.spdmSend t 0x61 0 0 (leBytes 4 0 ++ leBytes 4 0x2D6 ++ leBytes 4 4096 ++ leBytes 4 4096))

/-- NEGOTIATE_ALGORITHMS: `selects` says that the requester selects an algorithm that the device offers through the
extended-algorithm structures. -/
def execNegotiateAlgorithms (t : Fin 3) (req : List Byte) (selects : Bool) (s : State) : Res :=
  s.spdm t req (fun s => if selects then s.spdmSend t 0x63 0 0 (ascii "ML-DSA-65 SHAKE256 ML-KEM-1024") else s.spdmError t 1)

/-- GET_DIGESTS: the digests of the two chains. -/
def execGetDigests (t : Fin 3) (req : List Byte) (s : State) : Res :=
  s.spdm t req (fun s => s.spdmSend t 0x01 0 3 (chainDigest 0 ++ chainDigest 1))

/-- GET_CERTIFICATE: a portion of a chain. -/
def execGetCertificate (t : Fin 3) (req : List Byte) (s : State) : Res :=
  let slot := field req 2 1 % 16
  let off := field req 4 2
  let len := field req 6 2
  s.spdm t req (fun s =>
    let c := Config.certChain slot
    if 2 ≤ slot || c.length < off then s.spdmError t 1
    else
      let part := (c.drop off).take len
      s.spdmSend t 0x02 slot 0 (leBytes 2 part.length ++ leBytes 2 (c.length - off - part.length) ++ part))

/-- CHALLENGE: an answer signed with the identity key. -/
def execChallenge (t : Fin 3) (req : List Byte) (s : State) : Res :=
  let slot := field req 2 1
  s.spdm t req (fun s =>
    if 2 ≤ slot then s.spdmError t 1
    else
      let n := s.nonce
      n.2.spdmSign t 0x03 slot 3 (chainDigest slot ++ n.1 ++ leBytes 2 0))

/-- GET_MEASUREMENTS: index 0 asks for their number, 1 to 13 for a block, 255 for all; 14 to 254 are refused. -/
def execGetMeasurements (t : Fin 3) (req : List Byte) (s : State) : Res :=
  let sign := bit (field req 2 1) 0
  let i := field req 3 1
  s.spdm t req (fun s =>
    if 14 ≤ i ∧ i ≤ 254 then s.spdmError t 1
    else
      let is_ := if i = 255 then (List.range 13).map (· + 1) else if i = 0 then [] else [i]
      let rec_ := is_.flatMap s.block
      let n := s.nonce
      let body := leBytes 1 is_.length ++ leBytes 3 rec_.length ++ rec_ ++ n.1 ++ leBytes 2 0
      let p1 := if i = 0 then 13 else 0
      if sign then n.2.spdmSign t 0x60 p1 0 body else n.2.spdmSend t 0x60 p1 0 body)

/-- KEY_EXCHANGE: ML-KEM-1024; the ciphertext and the answer's random bytes are free. -/
def execKeyExchange (t : Fin 3) (req : List Byte) (s : State) : Res :=
  s.spdm t req (fun s =>
    let n := s.nonce
    let c := n.2.nonce
    (c.2.setSpdm t 1).spdmSign t 0x64 0 0 (leBytes 4 0 ++ n.1 ++ c.1))

/-- FINISH: the session is established, if a key exchange is in progress. -/
def execFinish (t : Fin 3) (req : List Byte) (s : State) : Res :=
  s.spdm t req (fun s =>
    if Tab.get zeroNat s.sec.spdm t = 1 then (s.setSpdm t 2).spdmSend t 0x65 0 0 [] else s.spdmError t 4)

/-- END_SESSION: the session of the transport ends. -/
def execEndSession (t : Fin 3) (req : List Byte) (s : State) : Res :=
  s.spdm t req (fun s =>
    if Tab.get zeroNat s.sec.spdm t = 2 then (s.spdmSend t 0x6C 0 0 []).setSpdm t 0 else s.spdmError t 4)

/-- SPDM_UNSUPPORTED: every other request is answered UnsupportedRequest. -/
def execSpdmUnsupported (t : Fin 3) (req : List Byte) (s : State) : Res := s.spdm t req (fun s => s.spdmError t 7)

/-! ### The signer table (R385) -/

/-- The table, the roles and the lock stay as they are until the next reset. -/
def State.lockSigners (s : State) : State :=
  ({ s with sec := { s.sec with lock := true } }).fset F.SEC_CTRL_SIGNER_LOCK 1

/-- SIGNER_LOCK: 1 is written to SEC_CTRL[SIGNER_LOCK]. -/
def execSignerLock (s : State) : Res := .next s.lockSigners

end Sys2Proof.Machine
end

