-- ==== Sys2Proof/Machine/RegWrite.lean ====
section
/-! DEFINITION. Writing registers: windows, access codes, sticky fields, refused configuration writes, enabling, the action of
each register that has one, and the check of the configuration CRC (R441-R454, R457). -/

namespace Sys2Proof.Machine

/-! ### Enabling and the configuration CRC (R451, R453) -/

/-- 0 or 1 is written to BLK_CTRL[ENABLE] (R451); an LNK block that is enabled lets its held ports start (R468). -/
def State.blkEnable (s : State) (b : Blk) (i : Nat) (on : Bool) : State :=
  if !on then s.fset (F.BLK_CTRL_ENABLE (b.base i)) 0
  else if s.cfgCrc b i = s.cfgRefOf b i then
    let s1 := s.fset (F.BLK_CTRL_ENABLE (b.base i)) 1
    if b = .lnk then s1.startHeld else s1
  else s.fset (F.BLK_STATUS_ENABLE_REFUSED (b.base i)) 1

def blkNth (n : Nat) : Blk := Blk.all.getD n .stl

/-- BLK_ENABLE: BLK_CTRL[ENABLE] of block `i` of a kind is written. -/
def execBlkEnable (blk : Fin 17) (i : Fin 24) (on : Bool) (s : State) : Res :=
  .next (if i.val < (blkNth blk).count then s.blkEnable (blkNth blk) i on else s)

/-- A stored bit of an RWL field changes although no write made it do so: bit `k` of the register at offset 0x100 + 8 n. -/
def State.flipCfg (s : State) (b : Blk) (i n k : Nat) : State :=
  match (cfgRegs b).find? (fun r => r.1 = 0x100 + 8 * n) with
  | none => s
  | some r =>
    if !bit r.2.2 k then s
    else if b = .ldr then { s with mask := Tab.upd allGood s.mask r.2.1 (· ^^^ 2 ^ k) }
    else s.setReg (b.base i + r.1) (s.reg (b.base i + r.1) ^^^ 2 ^ k)

/-- The jobs that a REG_CONFIG_CRC of a block halts (R457). -/
def State.crcHalts (s : State) (b : Blk) (i : Nat) : List Nat :=
  if b.count = 24 then (s.barn i).owner.toList else List.range 8

/-- CFG_CRC_CHECK: a block recomputes its CRC in full, after a change of a stored bit that no write made, if `flip` says so;
an enabled block whose CRC differs from CFG_REF is disabled (R453). -/
def execCfgCrcCheck (blk : Fin 17) (i : Fin 24) (flip : Option (Fin 2016 × Fin 64)) (s : State) : Res :=
  let b := blkNth blk
  let s0 := match flip with
    | some (n, k) => s.flipCfg b i n k
    | none => s
  let base := b.base i
  .next (if b.count ≤ i.val then s
    else if s0.enabled base = true ∧ s0.cfgCrc b i ≠ s0.cfgRefOf b i then
      let s1 := ((s0.fset (F.BLK_CTRL_ENABLE base) 0).fset (F.BLK_STATUS_CRC_FAULT base) 1).fsat (F.BLK_COUNT_CRC_FAULTS base) 1
      s1.raise
        { code := 0x0C01
          blk := b.unit i
          job := if b.count = 24 then (s1.barn i).owner else none
          detail := s1.cfgCrc b i % 2 ^ 32 * 2 ^ 32 + base / 0x10000 % 65536 * 2 ^ 16 + b.type * 256 + i
          halts := s1.crcHalts b i }
    else s0)

/-! ### A write to one register -/

/-- A write as a register sees it: window 0 direct, 1 SET, 2 CLR, 3 TGL; the half or the whole that it covers; its data. -/
structure RegWr where
  win : Nat
  cover : Nat
  data : Nat
  deriving DecidableEq, Repr

/-- The value the window forms from the value read (R443, R447). -/
def RegWr.form (w : RegWr) (old : Nat) : Nat :=
  match w.win with
  | 0 => old - (old &&& w.cover) + w.data
  | 1 => old ||| w.data
  | 2 => old - (old &&& w.data)
  | _ => old ^^^ w.data

def FieldRow.mask (f : FieldRow) : Nat := fieldMask f.lo f.width

/-- Does the write write the field: directly, the half that holds some of it; through another window, with a data bit of 1 in
it (R444, R447)? -/
def RegWr.touches (w : RegWr) (f : FieldRow) : Bool := (f.mask &&& (if w.win = 0 then w.cover else w.data)) ≠ 0

/-- Context of a job, for the registers whose RWL fields belong to one (R332, R353, R407, R450). -/
def RegHit.ctx (h : RegHit) : Option Nat :=
  if (h.blk = .srv ∨ h.blk = .yok ∨ h.blk = .sec) ∧ 0x200 ≤ h.o then some h.k1 else none

/-- May RWL fields of the register be written (R450, R299)? -/
def State.rwlOpen (s : State) (h : RegHit) : Bool :=
  !s.enabled (h.blk.base h.i) && h.ctx.all (fun j => (s.job j).phase = .free) &&
  (h.blk ≠ .ldr || h.o < 0x100 || (s.barn h.k1).owner.isNone)

/-- Is the write performed on the field? `open_` says that RWL fields of this write take effect. -/
def RegWr.performs (w : RegWr) (open_ : Bool) (f : FieldRow) : Bool :=
  w.touches f &&
  (match f.acc with
   | .ro => false
   | .wo => true
   | .rw => !f.sticky || w.win = 2
   | .rwl => open_)

/-- The value a field stores for a written one: values out of range are replaced as the register's table says. -/
def clampField (h : RegHit) (lo v : Nat) : Nat :=
  match h.blk with
  | .pcr => if h.o = 0x800 ∧ v < 1000 then 1000 else v
  | .lnk => if 0x1C0 ≤ h.o ∧ h.o < 0x200 ∧ lo = 0 ∧ v < 200 then 200 else v
  | .fab => if h.o = 0x108 ∧ lo = 16 ∧ v = 0 then 1 else v
  | .pwr => if 0x100 ≤ h.o ∧ h.o < 0x200 ∧ v < 1024 then 1024 else v
  | .srv => if h.o = 0x100 ∧ lo = 0 ∧ v < 256 then 256 else v
  | .yok => if h.o = 0x100 ∧ lo = 32 then (if v = 0 then 1 else min v 20) else v
  | .hst => if h.o = 0x100 ∧ lo = 8 ∧ (v < 6 ∨ 16 < v) then 6 else v
  | .sec => if h.o = 0x100 ∧ lo = 16 ∧ v < 1000 then 1000 else v
  | .tck =>
    if h.o = 0x108 ∧ lo = 16 then min v 104
    else if h.o = 0x110 ∧ lo = 0 then max 300 (min v 1800)
    else v
  | _ => v

/-- A serving shape with a field out of range (R332). -/
def badShape (v : Nat) : Bool :=
  512 < bits v 57 48 || 8 < bits v 47 44 || (bits v 47 44 = 0 && bits v 57 48 ≠ 0) || 4 < bits v 43 41 ||
  64 < bits v 39 32 || bits v 31 0 = 0

/-- Bits of a register that do not stand in the register file as written: the register's action stores them. -/
def RegHit.ownBits (h : RegHit) : Nat :=
  if h.o = 8 then 1
  else if h.o = 0x18 then 2 ^ 64 - 1
  else match h.blk with
    | .lnk => if 0x100 ≤ h.o ∧ h.o < 0x140 then 1 else 0
    | .fab => if h.o = 0x118 then 2 ^ 64 - 1 else 0
    | .srv => if h.o = 0x110 then 2 ^ 64 - 1 else 0
    | .yok => if h.o = 0x100 then 1 else 0
    | .sec => if h.o = 0x100 then 4 else if h.o = 0x110 ∨ h.o = 0x118 then 2 ^ 64 - 1 else 0
    | .err => if h.o = 0x118 then 2 ^ 64 - 1 else 0
    | .tck => if h.o = 0x800 then 2 ^ 64 - 1 else 0
    | .ldr => if 0x100 ≤ h.o ∧ h.o < 0x200 then 2 ^ 64 - 1 else 0
    | _ => 0

/-- The stored value with one performed field written; `exact_` leaves out the replacement of values out of range. -/
def storeField (h : RegHit) (exact_ : Bool) (new : Nat) (acc : Nat) (f : FieldRow) : Nat :=
  let v := bits new (f.lo + f.width - 1) f.lo
  if f.acc = .wo ∨ (f.mask &&& h.ownBits) ≠ 0 then acc
  else if f.sticky then setBits acc f.lo f.width 0
  else setBits acc f.lo f.width (if exact_ then v else clampField h f.lo v)

/-- The stored value after a write; a shape with a field out of range is not VALID. -/
def storeReg (h : RegHit) (done : List FieldRow) (new old : Nat) : Nat :=
  let v := done.foldl (storeField h false new) old
  if h.blk = .srv ∧ 0x400 ≤ h.o ∧ badShape v = true then setBits v 63 1 0 else v

/-! ### What registers do when they are written -/

/-- SRV_DATA: words 0 and 1 of a customer, and the words of a tenant key (R326, R332). -/
def State.srvWrite (s : State) (w : RegWr) (new : Nat) : State :=
  let t := s.fget F.SRV_SEL_TABLE
  let i := s.fget F.SRV_SEL_INDEX
  let k := s.fget F.SRV_SEL_WORD
  let j := s.fget F.SRV_SEL_JOB
  if srvSize t ≤ i then s
  else if t = 0 ∧ k = 0 then s.updCust j i (fun c => { c with burst := bits new 31 0, rate := bits new 63 32 })
  else if t = 0 ∧ k = 1 then
    s.updCust j i (fun c =>
      { c with wp := bits new 15 0, wd := bits new 31 16, tenant := bits new 37 32, valid := bit new 63 })
  else if t = 1 ∧ k < 4 then
    s.updSrv j (fun q => { q with tkeys := Tab.upd zeroNat q.tkeys (4 * i + k) (fun old =>
      old - (old &&& w.cover) + (new &&& w.cover)) })
  else s

/-- SEC_DATA: words of the signer table, until it is locked (R385, R407). -/
def State.secWrite (s : State) (new : Nat) : State :=
  if s.fget F.SEC_SEL_TABLE = 0 ∧ s.sec.lock = false then
    { s with sec := { s.sec with signers := Tab.set zeroNat s.sec.signers (4 * s.fget F.SEC_SEL_INDEX + s.fget F.SEC_SEL_WORD) new } }
  else s

/-- LDR_STALL_MASK of a barn: bits outside the fused good set store 0; the barn's stalls are mapped anew (R292, R299, R454). -/
def State.maskWrite (s : State) (b new : Nat) : State :=
  let m := bits new 47 0
  let good := m &&& Tab.get allGood s.fused b
  let s1 := { s with mask := Tab.set allGood s.mask b good }.commitRef .stl b
  if good = m then s1 else s1.commitRef .ldr 0

/-- YOK_JOB_CTL[ACTION] (R342, R350, R352). -/
def State.yokAction (s : State) (j a : Nat) : State :=
  if a = 1 then s.keep j else if a = 2 then s.dropYoke j else if a = 3 then s.reyoke j
  else if a = 4 then s.abandonReyoke j else s

/-- The action of a register written with `new`; `did lo n` says whether bits [lo + n - 1 : lo] lie in a field on which the
write was performed, `before` is the state before it. -/
def State.regAct (s before : State) (h : RegHit) (w : RegWr) (new : Nat) (did : Nat → Nat → Bool) (verified : Bool) : State :=
  if h.o = 8 then (if did 0 1 then s.blkEnable h.blk h.i (bit new 0) else s)
  else if h.o = 0x18 then (if did 0 32 then s.setCfgRef h.blk h.i (bits new 31 0) else s)
  else match h.blk with
    | .pcr =>
      if h.o = 0x300 then (if did 0 1 && bit new 0 && s.enabled pcrBase then s.applySteps else s)
      else if h.o = 0x840 then (if did 0 64 then s.stimeSet new else s)
      else if h.o = 0x820 then
        (if s.source ≠ before.source ∨ s.fget F.PCR_TIME_CTRL_PARENT_PORT ≠ before.fget F.PCR_TIME_CTRL_PARENT_PORT then
          s.startSource else s)
      else s
    | .lnk =>
      if 0x100 ≤ h.o ∧ h.o < 0x140 then
        let p := 8 * h.i + h.k1
        let s1 := if did 16 1 && bit new 16 then s.portRetrain p else s
        if did 0 1 then (if bit new 0 then s1.portEnable p else s1.portDisable p) else s1
      else s
    | .fab =>
      if h.o = 0x118 then (if did 0 64 then s.tblWrite new else s)
      else if 0x280 ≤ h.o ∧ h.o < 0x2C0 then
        (if did 63 1 && bit new 63 then s.jobCtlGo h.k1 (bits new 62 62) (bits new 47 0) else s)
      else s
    | .srv => if h.o = 0x110 ∧ did 0 64 = true then s.srvWrite w new else s
    | .yok =>
      if h.o = 0x100 then (if did 0 1 then s.yokeEnable (bit new 0) else s)
      else if 0x280 ≤ h.o ∧ h.o < 0x2C0 ∧ did 0 3 = true then s.yokAction h.k1 (bits new 2 0)
      else s
    | .sec =>
      if h.o = 0x100 then (if did 2 1 && bit new 2 then s.lockSigners else s)
      else if h.o = 0x110 then (if did 0 64 then s.secWrite new else s)
      else if h.o = 0x118 ∧ did 0 32 = true ∧ s.sec.lock = false then s.setReg h.addr (bits new 31 0)
      else s
    | .err =>
      if h.o = 0x118 then (if did 0 32 then s.writeConsumer new else s)
      else if h.o = 0x100 then s.freeHeld
      else if h.o = 0x108 then s.showAlert
      else s
    | .tck =>
      if h.o = 0x108 then s.refreshSteps
      else if 0x700 ≤ h.o ∧ h.o < 0x710 then
        (if did 0 1 && bit new 0 && !s.fbit (F.TCK_MBX_CTL_BUSY h.k1) then s.mailbox h.k1 verified else s)
      else if h.o = 0x800 ∧ did 0 64 = true then s.lspControl new
      else s
    | .ldr => if 0x100 ≤ h.o ∧ h.o < 0x200 ∧ did 0 48 = true then s.maskWrite h.k1 new else s
    | _ => s

/-- A write to a register that the block's map lists. -/
def State.regPerform (s : State) (h : RegHit) (w : RegWr) (verified : Bool) : State :=
  let base := h.blk.base h.i
  let new := w.form (s.regValue h) % 2 ^ 64
  let locked := h.row.fields.any (fun f => f.acc = .rwl && w.touches f)
  let open_ := s.rwlOpen h
  let done := h.row.fields.filter (w.performs open_)
  let old := s.reg h.addr
  let stored := storeReg h done new old
  let s1 := s.setReg h.addr stored
  let s2 := if locked && !open_ then
      (s1.fset (F.BLK_STATUS_WRITE_IGNORED base) 1).fsat (F.BLK_COUNT_IGNORED base) 1
    else s1
  -- a value stored in place of the written one is the hardware's change, which CFG_REF follows (R454)
  let clamped := done.any (fun f => f.acc = .rwl) && stored ≠ done.foldl (storeField h true new) old
  let s3 := if clamped then s2.commitRef h.blk h.i else s2
  s3.regAct s h w new (fun lo n => done.any (fun f => (f.mask &&& fieldMask lo n) ≠ 0)) verified

/-- A write to a mailbox buffer (R434, R445). -/
def State.mbxWrite (s : State) (a n v : Nat) : State :=
  let o := a - Blk.base .tck 0 - 0x1000
  let p := o / 4096
  if s.fbit (F.TCK_MBX_CTL_BUSY p) then s.fset (F.TCK_MBX_CTL_OVERRUN p) 1
  else { s with tck := { s.tck with buf := Tab.setRun zero8 s.tck.buf o (leBytes n v) } }

/-- A write of `n` bytes at a BAR0 offset. -/
def State.regWrite (s : State) (src a n v : Nat) (verified : Bool) : State :=
  let s0 := s.setLatch src a none
  if !regAligned a n then s0.unmapped src true a
  else if inMbx a then s0.mbxWrite a n v
  else match regHit a with
    | none => s0.unmapped src true a
    | some h =>
      if s0.regAbsent h then s0
      else
        let up := n = 4 ∧ a % 8 = 4
        let m := if n = 8 then 2 ^ 64 - 1 else 2 ^ 32 - 1
        let sh := if up then 32 else 0
        s0.regPerform h ⟨(a - h.blk.base h.i) / 0x4000, m * 2 ^ sh, v % (m + 1) * 2 ^ sh⟩ verified

/-- A register write that its source may make reaches its block: at once, or as a packet behind an earlier control packet of the two
points (R200, log entry 102). -/
def State.regSend (s : State) (src : Source) (addr len : Nat) (v : Word) (verified : Bool) : State :=
  if s.ctrlAhead (sourcePt src) (regPoint addr) then
    s.ctrlPut 2 (sourcePt src) (regPoint addr) 63 ((0xF00000000 + addr) % 2 ^ 36 + v.toNat * 2 ^ 36)
      (some ⟨src, 0, addr, len, 0, some (v, verified)⟩)
  else s.regWrite (srcNum src) addr len v.toNat verified

/-- REGISTER_WRITE: a host port through PF0 (fn 0) or VF fn - 1, or the Tackroom, writes `len` bytes at a BAR0 offset;
`verified` is what the check of a firmware image finds, where the write submits one. -/
def execRegisterWrite (src : Source) (fn : Fin 9) (addr : Fin 4294967296) (len : Fin 4097) (ide : Bool) (v : Word)
    (verified : Bool) (s : State) : Res :=
  let n := srcNum src
  .next (if !s.srcUp src || s.srcDenied src ide then s
    else if n < 2 ∧ fn.val ≠ 0 then
      (if addr.val % 65536 / 0x10 = 0x100 ∨ addr.val % 65536 / 8 = 0x300 then s
       else s.unmapped n true (Blk.base .hst n + 0x30))
    else s.regSend src addr len v verified)

/-- REG_WR: a control packet with a register write of 8 bytes at a device-local address reaches its block (R213, R441). -/
def execRegWr (src : Source) (addr : Fin 68719476736) (v : Word) (verified : Bool) (s : State) : Res :=
  .next (s.regSend src ((addr.val + 2 ^ 36 - 0xF00000000) % 2 ^ 36) 8 v verified)

/-! ### Requests that have travelled as packets (R200) -/

/-- The block performs the access of a control packet that has arrived. -/
def State.performReq (s : State) (q : RegReq) : State :=
  match q.wr with
  | some (v, ok) => s.regWrite (srcNum q.src) q.addr q.len v.toNat ok
  | none => s.regAnswer q.src q.fn q.addr q.len q.tag

/-- A register request that has arrived behind no other packet of its two points is performed. -/
def State.regArrive (s : State) (id : Nat) : State :=
  match s.ctrlTake (fun c => c.id = id) with
  | some (c, s1) => (match c.req with | some q => s1.performReq q | none => s)
  | none => s

def State.regArrivals (s : State) : State := ((s.mesh.ctrl.filter (fun c => c.req.isSome)).map CPkt.id).foldl State.regArrive s

/-- What happens while no command waits: the pacers run on, and register requests that have arrived are performed (log entry 1). -/
def State.idle (s : State) : State := s.tick.regArrivals

end Sys2Proof.Machine
end

