-- ==== Sys2Proof/Machine/Dispatch.lean ====
section
/-! DEFINITION. Dispatch: one arm per command. -/

namespace Sys2Proof.Machine

def exec (i : Instr) (s : State) : Host.Outcome State Fault Refusal :=
  match i with
  | .add b k => Sys2Proof.Machine.execAdd b k s
  | .sub b k => Sys2Proof.Machine.execSub b k s
  | .and b k => Sys2Proof.Machine.execAnd b k s
  | .or b k => Sys2Proof.Machine.execOr b k s
  | .xor b k => Sys2Proof.Machine.execXor b k s
  | .sll b k => Sys2Proof.Machine.execSll b k s
  | .srl b k => Sys2Proof.Machine.execSrl b k s
  | .sra b k => Sys2Proof.Machine.execSra b k s
  | .slt b k => Sys2Proof.Machine.execSlt b k s
  | .sltu b k => Sys2Proof.Machine.execSltu b k s
  | .min b k => Sys2Proof.Machine.execMin b k s
  | .max b k => Sys2Proof.Machine.execMax b k s
  | .minu b k => Sys2Proof.Machine.execMinu b k s
  | .maxu b k => Sys2Proof.Machine.execMaxu b k s
  | .mul b k => Sys2Proof.Machine.execMul b k s
  | .mulhu b k => Sys2Proof.Machine.execMulhu b k s
  | .mulh b k => Sys2Proof.Machine.execMulh b k s
  | .divu b k => Sys2Proof.Machine.execDivu b k s
  | .remu b k => Sys2Proof.Machine.execRemu b k s
  | .addi b k => Sys2Proof.Machine.execAddi b k s
  | .andi b k => Sys2Proof.Machine.execAndi b k s
  | .ori b k => Sys2Proof.Machine.execOri b k s
  | .xori b k => Sys2Proof.Machine.execXori b k s
  | .slli b k => Sys2Proof.Machine.execSlli b k s
  | .srli b k => Sys2Proof.Machine.execSrli b k s
  | .srai b k => Sys2Proof.Machine.execSrai b k s
  | .shi b k => Sys2Proof.Machine.execShi b k s
  | .ld b k => Sys2Proof.Machine.execLd b k s
  | .ldDataReady b k ecc => Sys2Proof.Machine.execLdDataReady b k ecc s
  | .st b k => Sys2Proof.Machine.execSt b k s
  | .lds b k => Sys2Proof.Machine.execLds b k s
  | .rdsr b k => Sys2Proof.Machine.execRdsr b k s
  | .syncrd b k => Sys2Proof.Machine.execSyncrd b k s
  | .syncwr b k => Sys2Proof.Machine.execSyncwr b k s
  | .syncadd b k => Sys2Proof.Machine.execSyncadd b k s
  | .waitc b k => Sys2Proof.Machine.execWaitc b k s
  | .waitcSatisfied b k => Sys2Proof.Machine.execWaitcSatisfied b k s
  | .push b k => Sys2Proof.Machine.execPush b k s
  | .pushResume b k => Sys2Proof.Machine.execPushResume b k s
  | .loop b k => Sys2Proof.Machine.execLoop b k s
  | .loopidx b k => Sys2Proof.Machine.execLoopidx b k s
  | .skipIf b k => Sys2Proof.Machine.execSkipIf b k s
  | .callLib b k => Sys2Proof.Machine.execCallLib b k s
  | .ret b k => Sys2Proof.Machine.execRet b k s
  | .baseAdd b k => Sys2Proof.Machine.execBaseAdd b k s
  | .stepEnd b k => Sys2Proof.Machine.execStepEnd b k s
  | .stepEndResume b k => Sys2Proof.Machine.execStepEndResume b k s
  | .nop b k => Sys2Proof.Machine.execNop b k s
  | .illegalInstruction b k => Sys2Proof.Machine.execIllegalInstruction b k s
  | .imemFetchError b k correctable => Sys2Proof.Machine.execImemFetchError b k correctable s
  | .engineDueBeat b k e => Sys2Proof.Machine.execEngineDueBeat b k e s
  | .nullCommand b k e => Sys2Proof.Machine.execNullCommand b k e s
  | .commandComplete b k e => Sys2Proof.Machine.execCommandComplete b k e s
  | .commandLate b k e => Sys2Proof.Machine.execCommandLate b k e s
  | .syncSettle c => Sys2Proof.Machine.execSyncSettle c s
  | .dmaRd b k ecc => Sys2Proof.Machine.execDmaRd b k ecc s
  | .dmaWr b k ecc => Sys2Proof.Machine.execDmaWr b k ecc s
  | .dmaLcopy b k ecc => Sys2Proof.Machine.execDmaLcopy b k ecc s
  | .dmaRds b k ecc => Sys2Proof.Machine.execDmaRds b k ecc s
  | .dmaFill b k ecc => Sys2Proof.Machine.execDmaFill b k ecc s
  | .unsBankAccess b k ecc => Sys2Proof.Machine.execUnsBankAccess b k ecc s
  | .spadWriteback b k => Sys2Proof.Machine.execSpadWriteback b k s
  | .spadScrub b k line ecc => Sys2Proof.Machine.execSpadScrub b k line ecc s
  | .arrLoad b k ecc => Sys2Proof.Machine.execArrLoad b k ecc s
  | .mma b k ecc => Sys2Proof.Machine.execMma b k ecc s
  | .accDrain b k ecc => Sys2Proof.Machine.execAccDrain b k ecc s
  | .accHostAccess src b k arr unit wr ecc => Sys2Proof.Machine.execAccHostAccess src b k arr unit wr ecc s
  | .vld b k ecc => Sys2Proof.Machine.execVld b k ecc s
  | .vst b k ecc => Sys2Proof.Machine.execVst b k ecc s
  | .vlds b k ecc => Sys2Proof.Machine.execVlds b k ecc s
  | .fadd b k ecc => Sys2Proof.Machine.execFadd b k ecc s
  | .fsub b k ecc => Sys2Proof.Machine.execFsub b k ecc s
  | .fmul b k ecc => Sys2Proof.Machine.execFmul b k ecc s
  | .fma b k ecc => Sys2Proof.Machine.execFma b k ecc s
  | .fmin b k ecc => Sys2Proof.Machine.execFmin b k ecc s
  | .fmax b k ecc => Sys2Proof.Machine.execFmax b k ecc s
  | .fabs b k ecc => Sys2Proof.Machine.execFabs b k ecc s
  | .fneg b k ecc => Sys2Proof.Machine.execFneg b k ecc s
  | .fdiv b k ecc => Sys2Proof.Machine.execFdiv b k ecc s
  | .fsqrt b k ecc => Sys2Proof.Machine.execFsqrt b k ecc s
  | .frcp b k ecc => Sys2Proof.Machine.execFrcp b k ecc s
  | .frsqrt b k ecc => Sys2Proof.Machine.execFrsqrt b k ecc s
  | .fexp b k ecc => Sys2Proof.Machine.execFexp b k ecc s
  | .flog b k ecc => Sys2Proof.Machine.execFlog b k ecc s
  | .ftanh b k ecc => Sys2Proof.Machine.execFtanh b k ecc s
  | .fsigm b k ecc => Sys2Proof.Machine.execFsigm b k ecc s
  | .ferf b k ecc => Sys2Proof.Machine.execFerf b k ecc s
  | .iadd b k ecc => Sys2Proof.Machine.execIadd b k ecc s
  | .isub b k ecc => Sys2Proof.Machine.execIsub b k ecc s
  | .imul b k ecc => Sys2Proof.Machine.execImul b k ecc s
  | .imulhu b k ecc => Sys2Proof.Machine.execImulhu b k ecc s
  | .imin b k ecc => Sys2Proof.Machine.execImin b k ecc s
  | .imax b k ecc => Sys2Proof.Machine.execImax b k ecc s
  | .vecAnd b k ecc => Sys2Proof.Machine.execVecAnd b k ecc s
  | .vecOr b k ecc => Sys2Proof.Machine.execVecOr b k ecc s
  | .vecXor b k ecc => Sys2Proof.Machine.execVecXor b k ecc s
  | .shl b k ecc => Sys2Proof.Machine.execShl b k ecc s
  | .shr b k ecc => Sys2Proof.Machine.execShr b k ecc s
  | .vecSra b k ecc => Sys2Proof.Machine.execVecSra b k ecc s
  | .idiv b k ecc => Sys2Proof.Machine.execIdiv b k ecc s
  | .irem b k ecc => Sys2Proof.Machine.execIrem b k ecc s
  | .idivu b k ecc => Sys2Proof.Machine.execIdivu b k ecc s
  | .iremu b k ecc => Sys2Proof.Machine.execIremu b k ecc s
  | .fcmp b k ecc => Sys2Proof.Machine.execFcmp b k ecc s
  | .icmp b k ecc => Sys2Proof.Machine.execIcmp b k ecc s
  | .mlogic b k ecc => Sys2Proof.Machine.execMlogic b k ecc s
  | .vsel b k ecc => Sys2Proof.Machine.execVsel b k ecc s
  | .vmov b k ecc => Sys2Proof.Machine.execVmov b k ecc s
  | .vperm b k ecc => Sys2Proof.Machine.execVperm b k ecc s
  | .vlane b k ecc => Sys2Proof.Machine.execVlane b k ecc s
  | .cvtP b k ecc => Sys2Proof.Machine.execCvtP b k ecc s
  | .cvtU b k ecc => Sys2Proof.Machine.execCvtU b k ecc s
  | .ftoi b k ecc => Sys2Proof.Machine.execFtoi b k ecc s
  | .itof b k ecc => Sys2Proof.Machine.execItof b k ecc s
  | .rsum b k ecc => Sys2Proof.Machine.execRsum b k ecc s
  | .rmax b k ecc => Sys2Proof.Machine.execRmax b k ecc s
  | .rmin b k ecc => Sys2Proof.Machine.execRmin b k ecc s
  | .rargmax b k ecc => Sys2Proof.Machine.execRargmax b k ecc s
  | .tred b k ecc => Sys2Proof.Machine.execTred b k ecc s
  | .tscan b k ecc => Sys2Proof.Machine.execTscan b k ecc s
  | .lftVec b k ecc => Sys2Proof.Machine.execLftVec b k ecc s
  | .lftMv b k ecc => Sys2Proof.Machine.execLftMv b k ecc s
  | .lftPwr b k ecc => Sys2Proof.Machine.execLftPwr b k ecc s
  | .bankDrainDone b bank => Sys2Proof.Machine.execBankDrainDone b bank s
  | .bankWakeDone b bank => Sys2Proof.Machine.execBankWakeDone b bank s
  | .bankRefresh b bank => Sys2Proof.Machine.execBankRefresh b bank s
  | .timerRefresh b bank => Sys2Proof.Machine.execTimerRefresh b bank s
  | .unsLoftAccess n u ecc => Sys2Proof.Machine.execUnsLoftAccess n u ecc s
  | .loftScrub n blk ecc => Sys2Proof.Machine.execLoftScrub n blk ecc s
  | .blockReread b good => Sys2Proof.Machine.execBlockReread b good s
  | .resendSlotGrant b => Sys2Proof.Machine.execResendSlotGrant b s
  | .blockResent b => Sys2Proof.Machine.execBlockResent b s
  | .loftWritebackVerify b good => Sys2Proof.Machine.execLoftWritebackVerify b good s
  | .netSend b k ecc => Sys2Proof.Machine.execNetSend b k ecc s
  | .netSlot b k ecc => Sys2Proof.Machine.execNetSlot b k ecc s
  | .netSig b k ecc => Sys2Proof.Machine.execNetSig b k ecc s
  | .unsPacketPerform n => Sys2Proof.Machine.execUnsPacketPerform n s
  | .unsFlitCredit n d => Sys2Proof.Machine.execUnsFlitCredit n d s
  | .hopResend n again => Sys2Proof.Machine.execHopResend n again s
  | .regRd src fn addr len ide tag => Sys2Proof.Machine.execRegRd src fn addr len ide tag s
  | .regWr src addr v verified => Sys2Proof.Machine.execRegWr src addr v verified s
  | .regRsp src dst => Sys2Proof.Machine.execRegRsp src dst s
  | .syncAdd src dst => Sys2Proof.Machine.execSyncAdd src dst s
  | .gateVal b k => Sys2Proof.Machine.execGateVal b k s
  | .wrDone src dst => Sys2Proof.Machine.execWrDone src dst s
  | .jobCtlWindow b => Sys2Proof.Machine.execJobCtlWindow b s
  | .jobCtlBase b => Sys2Proof.Machine.execJobCtlBase b s
  | .jobCtlSuspend b => Sys2Proof.Machine.execJobCtlSuspend b s
  | .jobCtlHalt b => Sys2Proof.Machine.execJobCtlHalt b s
  | .errRec unit => Sys2Proof.Machine.execErrRec unit s
  | .ctrlLoftReq b => Sys2Proof.Machine.execCtrlLoftReq b s
  | .reservedCtrlType b => Sys2Proof.Machine.execReservedCtrlType b s
  | .portEnable p => Sys2Proof.Machine.execPortEnable p s
  | .portDisable p => Sys2Proof.Machine.execPortDisable p s
  | .portRetrain p => Sys2Proof.Machine.execPortRetrain p s
  | .detectDone p => Sys2Proof.Machine.execDetectDone p s
  | .equaliseEnd p lanes => Sys2Proof.Machine.execEqualiseEnd p lanes s
  | .alignEnd p ok => Sys2Proof.Machine.execAlignEnd p ok s
  | .cap p levels => Sys2Proof.Machine.execCap p levels s
  | .capTimeout p => Sys2Proof.Machine.execCapTimeout p s
  | .downTimeout p => Sys2Proof.Machine.execDownTimeout p s
  | .retrainTimeout p => Sys2Proof.Machine.execRetrainTimeout p s
  | .laneFail p lanes => Sys2Proof.Machine.execLaneFail p lanes s
  | .flitSlot p => Sys2Proof.Machine.execFlitSlot p s
  | .data p levels => Sys2Proof.Machine.execData p levels s
  | .idle p levels => Sys2Proof.Machine.execIdle p levels s
  | .bypass p levels => Sys2Proof.Machine.execBypass p levels s
  | .badFlit p levels => Sys2Proof.Machine.execBadFlit p levels s
  | .nakRenew p => Sys2Proof.Machine.execNakRenew p s
  | .replayTimer p => Sys2Proof.Machine.execReplayTimer p s
  | .linkSilence p => Sys2Proof.Machine.execLinkSilence p s
  | .linkNotice p => Sys2Proof.Machine.execLinkNotice p s
  | .fecInterval p => Sys2Proof.Machine.execFecInterval p s
  | .timeExchangeStart p => Sys2Proof.Machine.execTimeExchangeStart p s
  | .timeReq p => Sys2Proof.Machine.execTimeReq p s
  | .timeRsp p => Sys2Proof.Machine.execTimeRsp p s
  | .timeFollow p => Sys2Proof.Machine.execTimeFollow p s
  | .timeExchangeAbandon p => Sys2Proof.Machine.execTimeExchangeAbandon p s
  | .routeNotice p => Sys2Proof.Machine.execRouteNotice p s
  | .yokeHb p => Sys2Proof.Machine.execYokeHb p s
  | .transitForward p vc => Sys2Proof.Machine.execTransitForward p vc s
  | .sealSlice => Sys2Proof.Machine.execSealSlice s
  | .write p => Sys2Proof.Machine.execWrite p s
  | .readReq p => Sys2Proof.Machine.execReadReq p s
  | .readRsp p => Sys2Proof.Machine.execReadRsp p s
  | .ack p => Sys2Proof.Machine.execAck p s
  | .ackTimer j stream => Sys2Proof.Machine.execAckTimer j stream s
  | .resendTimer j stream => Sys2Proof.Machine.execResendTimer j stream s
  | .downHoldExpiry p => Sys2Proof.Machine.execDownHoldExpiry p s
  | .routeFail p => Sys2Proof.Machine.execRouteFail p s
  | .planSwitch p => Sys2Proof.Machine.execPlanSwitch p s
  | .planSwitchBeat j => Sys2Proof.Machine.execPlanSwitchBeat j s
  | .fabJobCtlGo j plan beat => Sys2Proof.Machine.execFabJobCtlGo j plan beat s
  | .fabTblWrite v => Sys2Proof.Machine.execFabTblWrite v s
  | .compositionPoint j host => Sys2Proof.Machine.execCompositionPoint j host s
  | .idlePoll j host => Sys2Proof.Machine.execIdlePoll j host s
  | .stepDescriptorArrival j => Sys2Proof.Machine.execStepDescriptorArrival j s
  | .suspendBeat j => Sys2Proof.Machine.execSuspendBeat j s
  | .haltNote p => Sys2Proof.Machine.execHaltNote p s
  | .halt p => Sys2Proof.Machine.execHalt p s
  | .suspend p => Sys2Proof.Machine.execSuspend p s
  | .kvLost p => Sys2Proof.Machine.execKvLost p s
  | .jobHaltBoundary j r => Sys2Proof.Machine.execJobHaltBoundary j r s
  | .jobQuiescentSave j addr capacity => Sys2Proof.Machine.execJobQuiescentSave j addr capacity s
  | .digestRead j => Sys2Proof.Machine.execDigestRead j s
  | .digest p => Sys2Proof.Machine.execDigest p s
  | .mismatchNote p => Sys2Proof.Machine.execMismatchNote p s
  | .loftReq p good => Sys2Proof.Machine.execLoftReq p good s
  | .loftReqDeferredServe good => Sys2Proof.Machine.execLoftReqDeferredServe good s
  | .loftNak p => Sys2Proof.Machine.execLoftNak p s
  | .journal p => Sys2Proof.Machine.execJournal p s
  | .yokeHalt p => Sys2Proof.Machine.execYokeHalt p s
  | .reyokeEnd p sections => Sys2Proof.Machine.execReyokeEnd p sections s
  | .yokeReady p => Sys2Proof.Machine.execYokeReady p s
  | .forkReady p => Sys2Proof.Machine.execForkReady p s
  | .precopyPassEnd j => Sys2Proof.Machine.execPrecopyPassEnd j s
  | .keep j => Sys2Proof.Machine.execKeep j s
  | .drop j => Sys2Proof.Machine.execDrop j s
  | .reyoke j => Sys2Proof.Machine.execReyoke j s
  | .abandon j => Sys2Proof.Machine.execAbandon j s
  | .reyokeAbandoned j => Sys2Proof.Machine.execReyokeAbandoned j s
  | .yokeEnable => Sys2Proof.Machine.execYokeEnable s
  | .yokeFormed => Sys2Proof.Machine.execYokeFormed s
  | .yokeFormTimeout => Sys2Proof.Machine.execYokeFormTimeout s
  | .heartbeatSend => Sys2Proof.Machine.execHeartbeatSend s
  | .yokeHbInPulse highNs => Sys2Proof.Machine.execYokeHbInPulse highNs s
  | .hbPathTimeout pin => Sys2Proof.Machine.execHbPathTimeout pin s
  | .yokeCut => Sys2Proof.Machine.execYokeCut s
  | .deviceRingPoll p host => Sys2Proof.Machine.execDeviceRingPoll p host s
  | .loadDone j host gradesAgree basesAgree => Sys2Proof.Machine.execLoadDone j host gradesAgree basesAgree s
  | .copyComplete n host => Sys2Proof.Machine.execCopyComplete n host s
  | .shardVerified n host => Sys2Proof.Machine.execShardVerified n host s
  | .commit j => Sys2Proof.Machine.execCommit j s
  | .commitReceived j => Sys2Proof.Machine.execCommitReceived j s
  | .deployTimeout j slot => Sys2Proof.Machine.execDeployTimeout j slot s
  | .adapterNotice j => Sys2Proof.Machine.execAdapterNotice j s
  | .teardownRevoke j => Sys2Proof.Machine.execTeardownRevoke j s
  | .teardownDrainEnd j => Sys2Proof.Machine.execTeardownDrainEnd j s
  | .teardownScrubDone j bad => Sys2Proof.Machine.execTeardownScrubDone j bad s
  | .barnClearDone b bad => Sys2Proof.Machine.execBarnClearDone b bad s
  | .hostLinkDown p => Sys2Proof.Machine.execHostLinkDown p s
  | .hostLinkUp p width speed flit vfs => Sys2Proof.Machine.execHostLinkUp p width speed flit vfs s
  | .perstAssert p => Sys2Proof.Machine.execPerstAssert p s
  | .perstDeassert p => Sys2Proof.Machine.execPerstDeassert p s
  | .ideFault p => Sys2Proof.Machine.execIdeFault p s
  | .bar2Access p addr wr len ide => Sys2Proof.Machine.execBar2Access p addr wr len ide s
  | .ringStallTimeout p job => Sys2Proof.Machine.execRingStallTimeout p job s
  | .msiXFire p fn vec masked => Sys2Proof.Machine.execMsiXFire p fn vec masked s
  | .getVersion t req => Sys2Proof.Machine.execGetVersion t req s
  | .getCapabilities t req => Sys2Proof.Machine.execGetCapabilities t req s
  | .negotiateAlgorithms t req selects => Sys2Proof.Machine.execNegotiateAlgorithms t req selects s
  | .getDigests t req => Sys2Proof.Machine.execGetDigests t req s
  | .getCertificate t req => Sys2Proof.Machine.execGetCertificate t req s
  | .challenge t req => Sys2Proof.Machine.execChallenge t req s
  | .getMeasurements t req => Sys2Proof.Machine.execGetMeasurements t req s
  | .keyExchange t req => Sys2Proof.Machine.execKeyExchange t req s
  | .finish t req => Sys2Proof.Machine.execFinish t req s
  | .endSession t req => Sys2Proof.Machine.execEndSession t req s
  | .spdmUnsupported t req => Sys2Proof.Machine.execSpdmUnsupported t req s
  | .ideKm p stream => Sys2Proof.Machine.execIdeKm p stream s
  | .mbxGo p verified => Sys2Proof.Machine.execMbxGo p verified s
  | .pldmRequest ch type_ msg off verified => Sys2Proof.Machine.execPldmRequest ch type_ msg off verified s
  | .larkspurEntry => Sys2Proof.Machine.execLarkspurEntry s
  | .logCopy => Sys2Proof.Machine.execLogCopy s
  | .errConsumerWrite v => Sys2Proof.Machine.execErrConsumerWrite v s
  | .stepTick => Sys2Proof.Machine.execStepTick s
  | .stepApply => Sys2Proof.Machine.execStepApply s
  | .stimeSet src ns => Sys2Proof.Machine.execStimeSet src ns s
  | .stimeNsRead src => Sys2Proof.Machine.execStimeNsRead src s
  | .throttleAssert => Sys2Proof.Machine.execThrottleAssert s
  | .throttleDeassert => Sys2Proof.Machine.execThrottleDeassert s
  | .throttleStuck => Sys2Proof.Machine.execThrottleStuck s
  | .thermalGuardTick => Sys2Proof.Machine.execThermalGuardTick s
  | .refclkLost => Sys2Proof.Machine.execRefclkLost s
  | .refclkRestored => Sys2Proof.Machine.execRefclkRestored s
  | .ppsPulse highNs => Sys2Proof.Machine.execPpsPulse highNs s
  | .ppsFault => Sys2Proof.Machine.execPpsFault s
  | .localTimeSync => Sys2Proof.Machine.execLocalTimeSync s
  | .launchTimeReached j => Sys2Proof.Machine.execLaunchTimeReached j s
  | .skewWaitRelease r => Sys2Proof.Machine.execSkewWaitRelease r s
  | .handshakeLate r nb => Sys2Proof.Machine.execHandshakeLate r nb s
  | .holdSpread r => Sys2Proof.Machine.execHoldSpread r s
  | .holdRelease r => Sys2Proof.Machine.execHoldRelease r s
  | .holdTimeout r => Sys2Proof.Machine.execHoldTimeout r s
  | .cfgCrcCheck blk u flip => Sys2Proof.Machine.execCfgCrcCheck blk u flip s
  | .blkEnable blk u on => Sys2Proof.Machine.execBlkEnable blk u on s
  | .signerLock => Sys2Proof.Machine.execSignerLock s
  | .lspRun v => Sys2Proof.Machine.execLspRun v s
  | .registerWrite src fn addr len ide v verified => Sys2Proof.Machine.execRegisterWrite src fn addr len ide v verified s
  | .sensorSample temps volts power => Sys2Proof.Machine.execSensorSample temps volts power s
  | .railFault => Sys2Proof.Machine.execRailFault s
  | .policyTick => Sys2Proof.Machine.execPolicyTick s
  | .lockstepMismatch => Sys2Proof.Machine.execLockstepMismatch s
  | .watchdogExpiry => Sys2Proof.Machine.execWatchdogExpiry s
  | .fwRestartDone valid security version libVer lib flash => Sys2Proof.Machine.execFwRestartDone valid security version libVer lib flash s
  | .pwrGoodRise => Sys2Proof.Machine.execPwrGoodRise s
  | .pwrGoodFall => Sys2Proof.Machine.execPwrGoodFall s
  | .vtckBrownout => Sys2Proof.Machine.execVtckBrownout s
  | .sysResetAssert => Sys2Proof.Machine.execSysResetAssert s
  | .sysResetDeassert => Sys2Proof.Machine.execSysResetDeassert s
  | .loftTestDone b bad => Sys2Proof.Machine.execLoftTestDone b bad s
  | .fwVerifyDone valid security version libVer lib flash => Sys2Proof.Machine.execFwVerifyDone valid security version libVer lib flash s
  | .ppsExpectedSecond => Sys2Proof.Machine.execPpsExpectedSecond s
  | .malformedFabricPacket p vc => Sys2Proof.Machine.execMalformedFabricPacket p vc s

end Sys2Proof.Machine
end

