-- ==== Sys2Proof/Machine/Step.lean ====
section
/-! DEFINITION. The step of the device. -/

namespace Sys2Proof.Machine

/-- One step: the command at the front of the queue acts on the device with the rest of the queue; on an empty queue
1.25 ns of station time pass (log entry 1). -/
def step (s : State) : Host.Outcome State Fault Refusal :=
  match s.pending with
  | [] => .next s.idle
  | c :: rest => exec c { s with pending := rest }

/-- The command that a word spells, put at the front of the queue; no word spells one. -/
def State.withFetchWord (s : State) (nbits w : Nat) : State :=
  match decodeTableWord nbits w with
  | some c => { s with pending := c :: s.pending }
  | none => s

end Sys2Proof.Machine
end

