-- ==== Sys2Proof/Safety.lean ====
section
/-! DEFINITION. What every run of the device keeps: the register file stays in its one form, and its reserved bits stay zero;
and the levels of readiness that the registers show (R470). -/

namespace Sys2Proof.Machine

/-- The register file is in its canonical form: addresses strictly rising, no entry at its reset value. -/
abbrev State.regsWf (s : State) : Prop := Tab.wf regReset s.regs = true

/-- No register of the register file holds a bit outside its fields (R5). -/
def State.reservedZero (s : State) : Prop := ∀ e ∈ s.regs, e.2 &&& ~~~regBits e.1 = 0

/-- What every step keeps. -/
def State.Inv (s : State) : Prop := s.regsWf ∧ s.reservedZero

/-! ### Readiness (R470): each level includes those above it -/

/-- Firmware runs and has enabled its blocks (R466). -/
def State.firmwareReady (s : State) : Prop :=
  s.fget F.TCK_STATE_STATE = 1 ∧ ∀ k ∈ ([.pcr, .pwr, .err, .tck, .ldr] : List Blk), s.enabled (k.base 0) = true

/-- The port is present, its interface level is agreed, and its device ring is enabled. -/
def State.hostReady (s : State) (p : HostPort) : Prop :=
  s.firmwareReady ∧ s.fget (F.HST_PORT_STATE_ABSENT p) = 0 ∧ s.fget (F.TCK_MBX_CTL_LEVEL p) ≠ 0 ∧
  s.fget (F.HST_PORT_CFG_ENABLE p) = 1 ∧ s.enabled (Blk.base .hst p) = true

/-- Barns that are free, with their six blocks enabled. -/
def State.barnsReady (s : State) (p : HostPort) (bs : List Barn) : Prop :=
  s.hostReady p ∧ ∀ b ∈ bs, s.fget (F.SPD_CLEAR_STATE b) = 0 ∧
    ∀ k ∈ ([.stl, .spd, .arr, .vec, .lft, .net] : List Blk), s.enabled (k.base b) = true

/-- A job on this device alone: SRV and SEC are enabled too. -/
def State.jobReady (s : State) (p : HostPort) (bs : List Barn) : Prop :=
  s.barnsReady p bs ∧ s.enabled (Blk.base .srv 0) = true ∧ s.enabled (Blk.base .sec 0) = true

/-- The job's ports are ACTIVE, and its routes to the other devices are written. -/
def State.fabricReady (s : State) (p : HostPort) (bs : List Barn) (ports : List PortId) (plan : Nat) (devs : List Nat) : Prop :=
  s.jobReady p bs ∧ s.enabled (Blk.base .fab 0) = true ∧ (∀ i < 4, s.enabled (Blk.base .lnk i) = true) ∧
  (∀ q ∈ ports, s.portSt q = 5) ∧ ∀ d ∈ devs, bit (s.routeEnt plan d) 7 = true

/-- A job that spans devices, on this one: station time is locked. -/
def State.spanReady (s : State) (p : HostPort) (bs : List Barn) (ports : List PortId) (plan : Nat) (devs : List Nat) : Prop :=
  s.fabricReady p bs ports plan devs ∧ s.fget F.PCR_TIME_STATUS_STATE = 2

end Sys2Proof.Machine
end

