-- ==== Sys2Proof/Certificates/Slice0/Terms.lean ====
section
/-! DEFINITION. The words that the statements use: what it means that a command completes with an effect, what leaves a part of
the device alone, and the commands of a family by what they name. -/

namespace Sys2Proof.Machine

/-- The command completes in the state, and the state that it leaves has the property. -/
def Runs (c : Instr) (s : State) (p : State → Prop) : Prop := ∃ t, exec c s = .next t ∧ p t

/-- Nothing changes but one stall. -/
def OnlyStall (i : Nat) (s t : State) : Prop := t = { s with stalls := t.stalls } ∧ ∀ n, n ≠ i → t.stall n = s.stall n

/-- Nothing changes but one port's link state. -/
def OnlyLink (p : Nat) (s t : State) : Prop := t = { s with links := t.links } ∧ ∀ n, n ≠ p → t.link n = s.link n

/-- Nothing changes but one counter. -/
def OnlyCtr (k : Nat) (s t : State) : Prop := t = { s with ctrs := t.ctrs } ∧ ∀ n, n ≠ k → t.ctr n = s.ctr n

/-! ### The control core -/

/-- The control core of a stall is about to execute an instruction: no load in progress is in its way (R47, R52). -/
def AtInsn (s : State) (b k : Nat) (i : Insn) : Prop :=
  s.coreRuns b k = true ∧ s.fetchInsn b k = some i ∧ (s.stall (48 * b + k)).loadBusy i = false

/-- The scalar registers after a write of `v` to x[rd] (R46). -/
def RegsAfter (s t : State) (i rd : Nat) (v : Word) : Prop :=
  ∀ n, (t.stall i).xr n = if n = rd ∧ rd ≠ 0 then v else (s.stall i).xr n

/-- The program counter and the loops after the instruction at the program counter (R51, R54). -/
def GoesOn (s t : State) (i : Nat) : Prop :=
  (t.stall i).pc = (loopNext (s.stall i).rets.length (s.stall i).loops (s.stall i).pc).1 ∧
  (t.stall i).loops = (loopNext (s.stall i).rets.length (s.stall i).loops (s.stall i).pc).2

/-- Nothing of the device changes but the scalar registers, the program counter and the loops of one stall. -/
def CoreOnly (s t : State) (i : Nat) : Prop :=
  OnlyStall i s t ∧ t.stall i = { s.stall i with x := (t.stall i).x, pc := (t.stall i).pc, loops := (t.stall i).loops }

/-- No stall changes, but for the program counter and the loops of one. -/
def StallsSame (s t : State) (i : Nat) : Prop :=
  (∀ n, n ≠ i → t.stall n = s.stall n) ∧ t.stall i = { s.stall i with pc := (t.stall i).pc, loops := (t.stall i).loops }

/-- A body or a skipped range that ends at `last` stays in the innermost loop, and in the program or the routine store
(R55, R57). -/
def LoopBound (t : Stall) (last : Nat) : Prop :=
  last ≤ t.lastIndex ∧ ∀ l, t.loops.head? = some l → l.depth = t.rets.length → last ≤ l.last

/-- The special registers (R53). -/
def specialReg (s : State) (b k n : Nat) : Nat :=
  let t := s.stall (48 * b + k)
  let j := (s.barn b).owner.getD 0
  ([k, b, s.devId, (s.job j).stallsParam, if (s.job j).wide then 1 else 0, j, t.base, t.stepSeq, t.shape,
    (s.barn b).libver][n]?).getD 0

/-- The row of an ALU operation. -/
def aluRow : AluOp → Barn → StallId → Instr
  | .add => .add | .sub => .sub | .and => .and | .or => .or | .xor => .xor | .sll => .sll | .srl => .srl | .sra => .sra
  | .slt => .slt | .sltu => .sltu | .min => .min | .max => .max | .minu => .minu | .maxu => .maxu | .mul => .mul
  | .mulhu => .mulhu | .mulh => .mulh | .divu => .divu | .remu => .remu

/-- The row of an operation with an immediate. -/
def immRow : ImmOp → Barn → StallId → Instr
  | .addi => .addi | .andi => .andi | .ori => .ori | .xori => .xori | .slli => .slli | .srli => .srli | .srai => .srai
  | .shi => .shi

/-! ### Engines -/

/-- The record of a command in flight (R69): its signal was applied already when SIG_ISSUE was set. -/
def flightOf (u : State) (b k e : Nat) (w : Cmd) (chan done : Nat) : Flight :=
  { eng := e, chan := chan, iss := u.beat b, done := done, far := none, waits := [], w := w
    sel := if cSigIssue w then 0xC000 else cSigSel w, inc := cSigInc w, ord := ordKey (u.beat b) b k chan e }

/-- From `u` on, a command of stall `i` is in flight and its first piece of work is due; nothing else changes. -/
def Starts (u t : State) (i : Nat) (f : Flight) (a : Act) : Prop :=
  t = { u with stalls := t.stalls, acts := u.acts ++ [a] } ∧ (∀ m, m ≠ i → t.stall m = u.stall m) ∧
  t.stall i = { u.stall i with flights := (u.stall i).flights ++ [f] }

/-- The commands of the vector engine: opcode and row (R128 to R140). -/
def vecRows : List (Nat × (Barn → StallId → List EccHit → Instr)) :=
  [(0x401, .vld), (0x402, .vst), (0x403, .vlds), (0x410, .fadd), (0x411, .fsub), (0x412, .fmul), (0x413, .fma), (0x414, .fmin), (0x415, .fmax), (0x416, .fabs)] ++
  [(0x417, .fneg), (0x418, .fdiv), (0x419, .fsqrt), (0x41A, .frcp), (0x41B, .frsqrt), (0x420, .fexp), (0x421, .flog), (0x422, .ftanh), (0x423, .fsigm), (0x424, .ferf)] ++
  [(0x430, .iadd), (0x431, .isub), (0x432, .imul), (0x433, .imulhu), (0x434, .imin), (0x435, .imax), (0x436, .vecAnd), (0x437, .vecOr), (0x438, .vecXor), (0x439, .shl)] ++
  [(0x43A, .shr), (0x43B, .vecSra), (0x43C, .idiv), (0x43D, .irem), (0x43E, .idivu), (0x43F, .iremu), (0x440, .fcmp), (0x441, .icmp), (0x442, .mlogic), (0x450, .vsel)] ++
  [(0x451, .vmov), (0x452, .vperm), (0x453, .vlane), (0x460, .cvtP), (0x461, .cvtU), (0x462, .ftoi), (0x463, .itof), (0x470, .rsum), (0x471, .rmax), (0x472, .rmin)] ++
  [(0x473, .rargmax), (0x474, .tred), (0x475, .tscan)]

/-! ### Ports -/

/-- Port `p` enters state `st` now; no other port changes, and of the rest only registers and Larkspur's queues. -/
def PortMoves (p st : Nat) (s t : State) : Prop :=
  t.portSt p = st ∧ (t.link p).since = s.refNs ∧ (∀ n, n ≠ p → t.link n = s.link n) ∧
  (∀ n < 32, n ≠ p → t.portSt n = s.portSt n) ∧ t = { s with regs := t.regs, links := t.links, tck := t.tck }

/-- The port sends one flit of these bytes, on the lanes of its working set through their scramblers (R218). -/
def SendsFlit (p : Nat) (bytes : BitVec 2048) (s t : State) : Prop :=
  t.out = s.out ++ [.flit p bytes (lanesOf (s.fget (F.LNK_PORT_STATE_LANES_GOOD (p / 8) (p % 8))) (s.link p).txScr
    ((leBytes 256 bytes.toNat).map BitVec.toNat))]

/-- The levels on the port's receive lanes carry a good flit with this header and payload, with `n` symbols corrected. -/
def Carries (s : State) (p : Nat) (levels : BitVec 2048) (h : FlitHdr) (payload n : Nat) : Prop :=
  ∃ hdr, s.rxOf p levels = ⟨some (hdr, payload), n⟩ ∧ h = FlitHdr.unpack hdr

/-- The port with a flit received: its symbols counted, the scramblers advanced; a good one begins the time of silence anew. -/
def heard (s : State) (p n : Nat) (good : Bool) : State :=
  let u := (s.countFec p n).updLink p (fun l =>
    { l with rxScr := (scrFlit (s.fget (F.LNK_PORT_STATE_LANES_GOOD (p / 8) (p % 8))) l.rxScr).2 })
  if good then u.updLink p (fun l => { l with goodAt := s.refNs }) else u

/-! ### Packets of the fabric -/

/-- A packet for this device and for job `j` has arrived whole on a port and channel, well formed and authentic, and with
the number that its stream expects (R250, R263). -/
def Delivers (s : State) (p v j : Nat) (r : RPkt) : Prop :=
  let h := r.pkt.head
  s.firstHere p v = some r ∧ badFabHdr v h = false ∧ s.ctxOf h.fjob = some j ∧
  ((s.link p).isYoke = true → (h.dst = s.fget F.YOK_CFG_PARTNER ∨ h.dst = s.devId) ∧ s.fbit (F.YOK_JOB_CFG_YOKED j) = true) ∧
  r.aborted = false ∧ slicesOf h.d ≤ r.slices ∧ (s.openRx p j r).2 = true ∧
  (h.kind = 3 ∨ subMod 16 h.eseq ((s.inStream (s.inKey p j h)).next % 65536) = 0)

/-- The device after such a packet has left the buffer and its stream expects the next number (R257). -/
def Taken (s : State) (p v j : Nat) (r : RPkt) : State :=
  (s.dropRx p v r).updIn (s.inKey p j r.pkt.head) (fun st => ⟨st.next + 1, st.count + 1, some (st.since.getD s.refNs)⟩)

/-- The packet has been accepted with the effect `f`: the 64th since the last acknowledgement is acknowledged at once
(R257). -/
def Accepted (s : State) (p v j : Nat) (r : RPkt) (f : State → State) : State :=
  let t := f (Taken s p v j r)
  if 64 ≤ (s.inStream (s.inKey p j r.pkt.head)).count + 1 then t.sendAck (s.inKey p j r.pkt.head) r.pkt.head.src else t

/-- A CONTROL packet of a subtype with these lines is delivered (R250). -/
def DeliversCtl (s : State) (p j sub : Nat) (r : RPkt) : Prop :=
  Delivers s p 2 j r ∧ r.pkt.head.kind = 4 ∧ ctlByte (s.openRx p j r).1 0 = sub

/-- The commands that an arriving packet performs: virtual channel, kind and row (R250, R307, R336). -/
def packetRows (good : Bool) (sections : List Byte) : List (Nat × Nat × (PortId → Instr)) :=
  [(0, 0, .write), (0, 1, .readReq), (1, 2, .readRsp), (2, 3, .ack), (2, 4, .routeFail), (2, 4, .planSwitch), (2, 4, .haltNote),
   (2, 4, .halt), (2, 4, .suspend), (2, 4, .kvLost), (2, 4, .digest), (2, 4, .mismatchNote), (2, 4, fun p => .loftReq p good),
   (2, 4, .loftNak), (2, 4, .journal), (2, 4, .yokeHalt), (2, 4, fun p => .reyokeEnd p sections), (2, 4, .yokeReady),
   (2, 4, .forkReady)]

/-! ### Errors -/

/-- The block and instance of a counter's error (R410). -/
def ctrPlace (s : State) : CtrId → Nat × Nat
  | .loc b k _ => (b.val, s.physOf b k)
  | .barn b _ => (b.val, 0xFF)
  | .gate _ => (28, 0xFF)

/-- The contexts of the jobs that own a counter (R15). -/
def ctrOwns (s : State) (c : CtrId) (j : Nat) : Prop :=
  match c with
  | .loc b _ _ => (s.barn b).owner = some j
  | .barn b _ => (s.barn b).owner = some j
  | .gate i => s.gateOwned j i = true ∧ (s.job j).phase ≠ .free ∧
    ∀ i' < j, ¬ (s.gateOwned i' i = true ∧ (s.job i').phase ≠ .free)

/-! ### Attestation -/

/-- An SPDM 1.3 message: version, code, two parameters and a body. -/
def spdmMsg (code p1 p2 : Nat) (body : List Byte) : List Byte :=
  leBytes 1 0x13 ++ leBytes 1 code ++ leBytes 1 p1 ++ leBytes 1 p2 ++ body

/-- The requests that may reach a transport (R383). -/
def IsSpdm (t : Fin 3) (req : List Byte) (c : Instr) : Prop :=
  c = .getVersion t req ∨ c = .getCapabilities t req ∨ (∃ b, c = .negotiateAlgorithms t req b) ∨ c = .getDigests t req ∨
  c = .getCertificate t req ∨ c = .challenge t req ∨ c = .getMeasurements t req ∨ c = .keyExchange t req ∨ c = .finish t req ∨
  c = .endSession t req ∨ c = .spdmUnsupported t req

/-- The request is answered with `m`; request and answer enter the transport's transcript, the connection of the transport
becomes `conn`, the other transports keep theirs, and nothing else of the device changes but the free values used. -/
def Says (c : Instr) (t : Nat) (req m : List Byte) (conn : Nat) (s : State) : Prop :=
  Runs c s (fun u => u.out = s.out ++ [.message (10 + t) m] ∧ u.transcript t = s.transcript t ++ req ++ m ∧
    Tab.get zeroNat u.sec.spdm t = conn ∧
    (∀ x, x ≠ t → u.transcript x = s.transcript x ∧ Tab.get zeroNat u.sec.spdm x = Tab.get zeroNat s.sec.spdm x) ∧
    u = { s with sec := { s.sec with script := u.sec.script, spdm := u.sec.spdm }, out := u.out, freeCtr := u.freeCtr })

/-- The same, for an answer that ends with the identity key's signature over the transcript with it (R384). -/
def SaysSigned (c : Instr) (t : Nat) (req m : List Byte) (conn : Nat) (s : State) : Prop :=
  Says c t req (m ++ Config.identitySign (s.transcript t ++ req ++ m)) conn s

/-! ### The Tackroom -/

/-- A record of a code and severity enters the collector's path next (R409). -/
def Raises (s t : State) (code sev : Nat) : Prop :=
  ∃ r more, t.err.flight = s.err.flight ++ r :: more ∧ r.code = code ∧ r.sev = sev

/-- A request with an opcode, a length, a tag and a body stands in the mailbox buffer of a port (R434). -/
def MbxHolds (s : State) (p op len tag : Nat) (body : List Byte) : Prop :=
  let q := s.mbxGet p 0 4096
  field q 0 2 = op ∧ field q 2 2 = len ∧ field q 4 4 = tag ∧ q.drop 8 = body

/-- The bytes of a response (R434). -/
def mbxBytes (status tag : Nat) (body : List Byte) : List Byte :=
  leBytes 2 status ++ leBytes 2 body.length ++ leBytes 4 tag ++ body

/-- The request is answered: the response stands at the start of the port's buffer, DONE is set, and nothing else of the
device changes but registers, the buffer and the free values used. -/
def MbxSays (c : Instr) (p status tag : Nat) (body : List Byte) (s : State) : Prop :=
  Runs c s (fun t => t.mbxGet p 0 (8 + body.length) = mbxBytes status tag body ∧ t.fget (F.TCK_MBX_CTL_DONE p) = 1 ∧
    t = { s with tck := { s.tck with buf := t.tck.buf }, regs := t.regs, freeCtr := t.freeCtr })

/-- What flash, fuses and the world outside keep through every reset (R461). -/
def FlashKept (s t : State) : Prop :=
  t.fused = s.fused ∧ t.pending = s.pending ∧ t.tck.log = s.tck.log ∧ t.tck.logNext = s.tck.logNext ∧
  t.tck.retired = s.tck.retired ∧ t.tck.moved = s.tck.moved ∧ t.tck.fwWrites = s.tck.fwWrites ∧ t.tck.fwSec = s.tck.fwSec ∧
  t.tck.remaps = s.tck.remaps

/-- The parts of the device that a reset clears are as they are after reset. -/
def Cleared (t : State) : Prop :=
  t.regs = [] ∧ t.cfgRef = [] ∧ t.stalls = [] ∧ t.barns = [] ∧ t.jobs = [] ∧ t.ctrs = [] ∧ t.lofts = [] ∧ t.acts = [] ∧
  t.links = [] ∧ t.fab = State.reset.fab ∧ t.sec = State.reset.sec ∧ t.err = State.reset.err ∧ t.time = State.reset.time

/-- A boot has begun (R463): it is counted, the clear of every barn runs, and the stall mask is the fused good set less the
stalls recorded as retired. -/
def Booting (s t : State) : Prop :=
  t.tck.boots = (s.tck.boots + 1) % 2 ^ 32 ∧ (∀ b < 24, t.fget (F.SPD_CLEAR_STATE b) = 1 ∧ ¬ b ∈ t.tck.cleared) ∧
  (∀ b < 24, t.goodMask b = Tab.get allGood s.fused b - (Tab.get allGood s.fused b &&& Tab.get zeroNat s.tck.retired b)) ∧
  t.fget F.TCK_LOG_NEXT = s.tck.logNext % 2 ^ 32

/-! ### Registers -/

/-- Block kinds whose registers do nothing but hold what is written. -/
def plainBlocks : List Blk := [.stl, .spd, .arr, .vec, .lft, .net]

/-- An offset names a register that is there, in one of those blocks, through a window, beside the registers that every
block has. -/
def Plain (s : State) (a : Nat) (h : RegHit) (win : Nat) : Prop :=
  regHit a = some h ∧ s.regAbsent h = false ∧ a % 8 = 0 ∧ h.blk ∈ plainBlocks ∧ 0x100 ≤ h.o ∧
  (a - h.blk.base h.i) / 0x4000 = win

/-- A field of a register of the map. -/
def RegHit.fld (h : RegHit) (f : FieldRow) : Fld := ⟨h.addr, f.lo, f.width⟩

end Sys2Proof.Machine
end

