-- ==== Sys2Proof/Certificates/Slice0/Obligations.lean ====
section
/-! DEFINITION. The statements for the provers. -/

open Sys2Proof Sys2Proof.Machine

/-! ### The step -/

/-- A step takes the command at the front of the queue and runs it on the device with the rest of the queue. -/
def Obligations.StepRunsFront : Prop :=
  ∀ (c : Instr) (rest : List Instr) (s : State), s.pending = c :: rest → step s = exec c { s with pending := rest }

/-- On an empty queue a step is a tick of 1.25 ns, and register accesses that have arrived are performed (log entry 1). -/
def Obligations.StepTicks : Prop := ∀ s : State, s.pending = [] → step s = .next s.tick.regArrivals

/-! ### The control core -/

/-- R51's tables as arithmetic: what each operation of the ALU group and each immediate operation computes. -/
def Obligations.AluResults : Prop :=
  ∀ (a b : Word) (n : Nat), n < 65536 →
    (aluResult .add a b).toNat = (a.toNat + b.toNat) % 2 ^ 64 ∧
    ((aluResult .sub a b).toNat + b.toNat) % 2 ^ 64 = a.toNat ∧
    (∀ i : Nat, (aluResult .and a b).getLsbD i = (a.getLsbD i && b.getLsbD i) ∧
      (aluResult .or a b).getLsbD i = (a.getLsbD i || b.getLsbD i) ∧
      (aluResult .xor a b).getLsbD i = (a.getLsbD i != b.getLsbD i)) ∧
    (aluResult .sll a b).toNat = a.toNat * 2 ^ (b.toNat % 64) % 2 ^ 64 ∧
    (aluResult .srl a b).toNat = a.toNat / 2 ^ (b.toNat % 64) ∧
    (aluResult .sra a b).toInt = a.toInt / 2 ^ (b.toNat % 64) ∧
    (aluResult .slt a b).toNat = (if a.toInt < b.toInt then 1 else 0) ∧
    (aluResult .sltu a b).toNat = (if a.toNat < b.toNat then 1 else 0) ∧
    (aluResult .min a b).toInt = min a.toInt b.toInt ∧
    (aluResult .max a b).toInt = max a.toInt b.toInt ∧
    (aluResult .minu a b).toNat = min a.toNat b.toNat ∧
    (aluResult .maxu a b).toNat = max a.toNat b.toNat ∧
    (aluResult .mul a b).toNat + 2 ^ 64 * (aluResult .mulhu a b).toNat = a.toNat * b.toNat ∧
    (aluResult .mulh a b).toInt = a.toInt * b.toInt / 2 ^ 64 ∧
    (aluResult .divu a b).toNat = (if b.toNat = 0 then 2 ^ 64 - 1 else a.toNat / b.toNat) ∧
    (aluResult .remu a b).toNat = (if b.toNat = 0 then a.toNat else a.toNat % b.toNat) ∧
    (immResult .addi a n).toNat = (a.toNat + n + (if n < 32768 then 0 else 2 ^ 64 - 65536)) % 2 ^ 64 ∧
    (immResult .shi a n).toNat = a.toNat * 65536 % 2 ^ 64 + n ∧
    (immResult .slli a n).toNat = a.toNat * 2 ^ (n % 64) % 2 ^ 64 ∧
    (immResult .srli a n).toNat = a.toNat / 2 ^ (n % 64) ∧
    (immResult .srai a n).toInt = a.toInt / 2 ^ (n % 64) ∧
    (∀ i : Nat, (immResult .andi a n).getLsbD i = (a.getLsbD i && n.testBit i) ∧
      (immResult .ori a n).getLsbD i = (a.getLsbD i || n.testBit i) ∧
      (immResult .xori a n).getLsbD i = (a.getLsbD i != n.testBit i))

/-- Every instruction of the ALU group and every one with an immediate writes its result to rd (x0 takes none), goes on to the
next instruction or round its loop, and changes nothing else. -/
def Obligations.AluInstructionsComplete : Prop :=
  ∀ (b : Barn) (k : StallId) (s : State) (rd rs1 : Nat),
    (∀ (op : AluOp) (rs2 : Nat), AtInsn s b k (.alu op rd rs1 rs2) →
      Runs (aluRow op b k) s (fun t =>
        RegsAfter s t (sx b k) rd (aluResult op (s.xr b k rs1) (s.xr b k rs2)) ∧ GoesOn s t (sx b k) ∧ CoreOnly s t (sx b k))) ∧
    (∀ (op : ImmOp) (n : Nat), AtInsn s b k (.imm op rd rs1 n) →
      Runs (immRow op b k) s (fun t =>
        RegsAfter s t (sx b k) rd (immResult op (s.xr b k rs1) n) ∧ GoesOn s t (sx b k) ∧ CoreOnly s t (sx b k)))

/-- The instructions that read a value into a register. -/
def Obligations.RegisterReadsComplete : Prop :=
  ∀ (b : Barn) (k : StallId) (s : State) (rd n : Nat),
    (AtInsn s b k (.lds rd n) →
      Runs (.lds b k) s (fun t =>
        RegsAfter s t (sx b k) rd (Tab.get zero64 (s.stall (sx b k)).window n) ∧ GoesOn s t (sx b k) ∧ CoreOnly s t (sx b k))) ∧
    (AtInsn s b k (.rdsr rd n) →
      Runs (.rdsr b k) s (fun t =>
        RegsAfter s t (sx b k) rd (BitVec.ofNat 64 (specialReg s b k n)) ∧ GoesOn s t (sx b k) ∧ CoreOnly s t (sx b k))) ∧
    (AtInsn s b k (.loopidx rd n) →
      Runs (.loopidx b k) s (fun t =>
        RegsAfter s t (sx b k) rd
          (BitVec.ofNat 64 ((((s.stall (sx b k)).loops.map LoopEnt.iter).drop n).headD 0)) ∧
        GoesOn s t (sx b k) ∧ CoreOnly s t (sx b k))) ∧
    (∀ key, AtInsn s b k (.syncrd rd n) → selKey b k n = some key → s.denied b k key = false →
      Runs (.syncrd b k) s (fun t =>
        RegsAfter s t (sx b k) rd (BitVec.ofNat 64 (s.ctr key).val) ∧ GoesOn s t (sx b k) ∧ CoreOnly s t (sx b k))) ∧
    (AtInsn s b k (.syncrd rd n) → selKey b k n = none →
      Runs (.syncrd b k) s (fun t =>
        RegsAfter s t (sx b k) rd 0 ∧ GoesOn s t (sx b k) ∧ CoreOnly s t (sx b k)))

/-- LD and the arrival of its data (R49). -/
def Obligations.LoadsComplete : Prop :=
  ∀ (b : Barn) (k : StallId) (s : State),
    (∀ rd rs1 imm, AtInsn s b k (.ld rd rs1 imm) →
      (ldLegal (ldAddr (s.xr b k rs1) imm) = true →
        exec (.ld b k) s = .next (s.updStall (sx b k) (fun t =>
          { t.advance with pendLd := t.pendLd ++ [(rd, ldAddr (s.xr b k rs1) imm)] }))) ∧
      (ldLegal (ldAddr (s.xr b k rs1) imm) = false →
        exec (.ld b k) s = .next ((s.result b k rd 0).stlErrAt b k 0x0209 0 (s.stall (sx b k)).pc))) ∧
    (∀ rd a rest, (s.stall (sx b k)).pendLd = (rd, a) :: rest → s.bankFree (sx b k) (a / 64) = true →
      let l := s.readLine (sx b k) (s.beat b) (a / 64)
      let put (v : Word) : State := (s.takeBank (sx b k) (a / 64)).updStall (sx b k) (fun t => { t.setX rd v with pendLd := rest })
      let word := BitVec.ofNat 64 (bits l.data.toNat (a % 64 * 8 + 63) (a % 64 * 8))
      (l.poison = false → exec (.ldDataReady b k .clean) s = .next (put word)) ∧
      (l.poison = false → exec (.ldDataReady b k .corrected) s = .next ((put word).spadEcc b k (a / 64) true)) ∧
      (l.poison = true → exec (.ldDataReady b k .clean) s = .next ((put 0).stlErr b k 0x0211 0)) ∧
      (l.poison = true →
        exec (.ldDataReady b k .corrected) s = .next (((put 0).spadEcc b k (a / 64) true).stlErr b k 0x0211 0)) ∧
      (∀ ecc, ecc = .uncorrectable ∨ ecc = .tagError →
        exec (.ldDataReady b k ecc) s = .next (((put 0).spadEcc b k (a / 64) false).stlErr b k 0x0211 0)))

/-- ST (R49): what it stores, and its frame. -/
def Obligations.StoreWritesItsBytes : Prop :=
  ∀ (b : Barn) (k : StallId) (s : State) (rs rs1 imm : Nat), AtInsn s b k (.st rs rs1 imm) →
    let a := ldAddr (s.xr b k rs1) imm
    (ldLegal a = true → s.bankFree (sx b k) (a / 64) = true →
      Runs (.st b k) s (fun t =>
        (∀ n : Nat, (t.readLine (sx b k) (s.beat b + 1) (a / 64)).data.getLsbD n =
          if a % 64 * 8 ≤ n ∧ n < a % 64 * 8 + 64 then (s.xr b k rs).getLsbD (n - a % 64 * 8)
          else (s.readLine (sx b k) (s.beat b + 1) (a / 64)).data.getLsbD n) ∧
        (t.readLine (sx b k) (s.beat b + 1) (a / 64)).epoch = (s.readLine (sx b k) (s.beat b + 1) (a / 64)).epoch ∧
        (t.readLine (sx b k) (s.beat b + 1) (a / 64)).poison = (s.readLine (sx b k) (s.beat b + 1) (a / 64)).poison ∧
        (∀ line beat, line ≠ a / 64 → t.readLine (sx b k) beat line = s.readLine (sx b k) beat line) ∧
        (∀ n, (t.stall (sx b k)).xr n = (s.stall (sx b k)).xr n) ∧
        OnlyStall (sx b k) s t)) ∧
    (ldLegal a = false → exec (.st b k) s = .next ((s.step1 b k).stlErrAt b k 0x0209 0 (s.stall (sx b k)).pc))

/-- The counter instructions (R68, R70, R74). What scope 0b11 reads as, and when WAITC sees a gate counter, are the
model's readings (log entries 23 and 22). -/
def Obligations.CounterInstructionsComplete : Prop :=
  ∀ (b : Barn) (k : StallId) (s : State) (sel rs1 : Nat),
    (AtInsn s b k (.syncwr sel rs1) →
      (selKey b k sel = none → exec (.syncwr b k) s = .next (s.step1 b k)) ∧
      (∀ key, selKey b k sel = some key → s.denied b k key = true →
        exec (.syncwr b k) s = .next ((s.step1 b k).denyCtr b k key)) ∧
      (∀ key, selKey b k sel = some key → s.denied b k key = false →
        Runs (.syncwr b k) s (fun t =>
          t.ctr key = { s.ctr key with writes := (s.ctr key).writes ++ [(s.xr b k rs1).toNat % 2 ^ 32] } ∧
          (∀ c, c ≠ key → t.ctr c = s.ctr c) ∧ GoesOn s t (sx b k) ∧
          t = { s with ctrs := t.ctrs, stalls := t.stalls } ∧ StallsSame s t (sx b k)))) ∧
    (AtInsn s b k (.syncadd sel rs1) →
      (selKey b k sel = none → exec (.syncadd b k) s = .next (s.step1 b k)) ∧
      (∀ key, selKey b k sel = some key → s.denied b k key = true →
        exec (.syncadd b k) s = .next ((s.step1 b k).denyCtr b k key)) ∧
      (∀ key, selKey b k sel = some key → s.denied b k key = false →
        Runs (.syncadd b k) s (fun t =>
          t.ctr key = { s.ctr key with incs := (s.ctr key).incs ++ [(s.xr b k rs1).toNat % 2 ^ 32] } ∧
          (∀ c, c ≠ key → t.ctr c = s.ctr c) ∧ GoesOn s t (sx b k) ∧
          t = { s with ctrs := t.ctrs, stalls := t.stalls } ∧ StallsSame s t (sx b k)))) ∧
    (AtInsn s b k (.waitc sel rs1) →
      (selKey b k sel = none → exec (.waitc b k) s = .next (s.step1 b k)) ∧
      (∀ key, selKey b k sel = some key → s.denied b k key = true →
        exec (.waitc b k) s = .next ((s.step1 b k).denyCtr b k key)) ∧
      (∀ key, selKey b k sel = some key → s.denied b k key = false →
        ((s.xr b k rs1).toNat % 2 ^ 32 ≤ (s.ctr key).val → exec (.waitc b k) s = .next (s.step1 b k)) ∧
        ((s.ctr key).val < (s.xr b k rs1).toNat % 2 ^ 32 →
          exec (.waitc b k) s = .next (s.updStall (sx b k) (fun t =>
            { t with st := .waitc, waitc := some (key, (s.xr b k rs1).toNat % 2 ^ 32), waitSent := none }))))) ∧
    (∀ key thr, (s.stall (sx b k)).waitc = some (key, thr) → (s.coreJob b k).isSome = true → thr ≤ (s.ctr key).val →
      exec (.waitcSatisfied b k) s = .next (s.updStall (sx b k) (fun t => { t.advance with st := .run, waitc := none })))

/-- The control flow of the control core (R54 to R61), where the instruction is legal. -/
def Obligations.ControlFlowCompletes : Prop :=
  ∀ (b : Barn) (k : StallId) (s : State),
    let i := sx b k
    let T := s.stall i
    (∀ rs1 len, AtInsn s b k (.loop rs1 len) → T.atLoopEnd = false → T.loops.length < 4 → LoopBound T (T.pc + len) →
      ((T.xr rs1).toNat % 2 ^ 32 = 0 → Runs (.loop b k) s (fun t =>
        OnlyStall i s t ∧ t.stall i = { T with pc := (loopNext T.rets.length T.loops (T.pc + len)).1
                                               loops := (loopNext T.rets.length T.loops (T.pc + len)).2 })) ∧
      ((T.xr rs1).toNat % 2 ^ 32 ≠ 0 → Runs (.loop b k) s (fun t =>
        OnlyStall i s t ∧ t.stall i = { T with pc := T.pc + 1
                                               loops := ⟨T.pc + 1, T.pc + len, (T.xr rs1).toNat % 2 ^ 32, 0, T.rets.length⟩ :: T.loops }))) ∧
    (∀ flag pol n, AtInsn s b k (.skipIf flag pol n) → T.atLoopEnd = false → LoopBound T (T.pc + n) →
      (∀ d < n, ∀ w, T.wordAt (s.barn b).store (T.pc + 1 + d) = some w → bits w 31 26 ≠ 0x20) →
      Runs (.skipIf b k) s (fun t =>
        OnlyStall i s t ∧
        let at_ := if (Tab.get zero64 T.window 3).getLsbD flag = !pol then T.pc + n else T.pc
        t.stall i = { T with pc := (loopNext T.rets.length T.loops at_).1, loops := (loopNext T.rets.length T.loops at_).2 })) ∧
    (∀ idx, AtInsn s b k (.callLib idx) → T.atLoopEnd = false → (Tab.get zero32 (s.barn b).store idx).getLsbD 31 = true →
      T.rets.length < 4 →
      Runs (.callLib b k) s (fun t =>
        OnlyStall i s t ∧ t.stall i = { T with pc := (Tab.get zero32 (s.barn b).store idx).toNat % 2 ^ 18, rtn := true
                                               rets := (T.pc + 1, T.rtn) :: T.rets })) ∧
    (∀ pc rtn rest, AtInsn s b k .ret → T.atLoopEnd = false → T.rets = (pc, rtn) :: rest →
      Runs (.ret b k) s (fun t =>
        OnlyStall i s t ∧ t.stall i = { T with pc := pc, rtn := rtn, rets := rest
                                               loops := T.loops.filter (fun l => l.depth ≤ rest.length) })) ∧
    (∀ rs1, AtInsn s b k (.baseAdd rs1) → (T.xr rs1).toNat < 2 ^ 24 →
      Runs (.baseAdd b k) s (fun t =>
        OnlyStall i s t ∧ GoesOn s t i ∧
        t.stall i = { T with pc := (t.stall i).pc, loops := (t.stall i).loops, base := T.base + (T.xr rs1).toNat })) ∧
    (AtInsn s b k .stepEnd → T.loops = [] → T.rets = [] →
      Runs (.stepEnd b k) s (fun t => OnlyStall i s t ∧ t.stall i = { T with st := .stepWait })) ∧
    (AtInsn s b k .nop →
      Runs (.nop b k) s (fun t => OnlyStall i s t ∧ GoesOn s t i ∧ t.stall i = { T with pc := (t.stall i).pc, loops := (t.stall i).loops }))

/-- A step begins (R60), and the errors of fetching (R48, R51). -/
def Obligations.StepsBeginAndFetchErrors : Prop :=
  ∀ (b : Barn) (k : StallId) (s : State),
    let i := sx b k
    let T := s.stall i
    let begun := s.updStall i (fun t =>
      { t with
        base := (Tab.get zero64 T.nextWindow 1).toNat, window := T.nextWindow, shape := T.nextShape
        stepSeq := (Tab.get zero64 T.nextWindow 0).toNat
        pc := s.fget (F.STL_SHAPE_ENTRY_ENTRY b k T.nextShape), rtn := false, st := .run, nextWindow := [], nextGot := 0
        nextBase := if T.nextBase = some (Tab.get zero64 T.nextWindow 1).toNat then none else T.nextBase
        due := T.due.map (fun e => (e.1, if e.2 = .nextStep then .at (Tab.get zero64 T.nextWindow 1).toNat else e.2)) })
    (T.st = .stepWait → T.nextGot = 2 ^ 64 - 1 →
      (∀ j, s.coreJob b k = some j → s.fbit (F.STL_SHAPE_ENTRY_VALID b k T.nextShape) = true →
        exec (.stepEndResume b k) s =
          .next (begun.trace 4 b (some j) (j + 256 * (Tab.get zero64 T.nextWindow 0).toNat))) ∧
      ((s.coreJob b k).isSome = true → s.fbit (F.STL_SHAPE_ENTRY_VALID b k T.nextShape) = false →
        exec (.stepEndResume b k) s = .next (s.stlErr b k 0x0208 0))) ∧
    (s.coreRuns b k = true → s.fetchInsn b k = none →
      exec (.illegalInstruction b k) s = .next (s.stlErr b k 0x0201
        ((if T.rtn then 2 ^ 63 else 0) + T.pc * 2 ^ 32 + (s.fetchWord b k).getD 0))) ∧
    (s.coreRuns b k = true →
      exec (.imemFetchError b k true) s = .next (s.stlErr b k 0x020A 0) ∧
      exec (.imemFetchError b k false) s = .next (s.stlErr b k 0x020B 0))

/-- PUSH (R64 to R66). -/
def Obligations.PushCompletes : Prop :=
  ∀ (b : Barn) (k : StallId) (s : State) (e n : Nat),
    let i := sx b k
    let T := s.stall i
    let w := T.xr (n + 3) ++ T.xr (n + 2) ++ T.xr (n + 1) ++ T.xr n
    (AtInsn s b k (.push e n) → (T.queue e).length < queueDepth e → (s.step1 b k).cmdIllegal b e w = false →
      (s.step1 b k).cmdDenied b k e w = none →
      Runs (.push b k) s (fun t =>
        (t.stall i).queue e = T.queue e ++ [⟨w, T.base + cIssue w, false, false⟩] ∧
        (∀ e', e' ≠ e → (t.stall i).queue e' = T.queue e') ∧
        Tab.get noDue (t.stall i).due e =
          (if cNext w = 0xFFFFFE then .none else if cNext w = 0xFFFFFF then .nextStep else .at (T.base + cNext w)) ∧
        GoesOn s t i ∧ (∀ m, (t.stall i).xr m = T.xr m) ∧ ∀ m, m ≠ i → t.stall m = s.stall m)) ∧
    (AtInsn s b k (.push e n) → (T.queue e).length < queueDepth e → (s.step1 b k).cmdIllegal b e w = true →
      ∃ u : State, exec (.push b k) s = .next (u.stlErrAt b k 0x0202 0 T.pc) ∧
        (u.stall i).queue e = T.queue e ++ [⟨(s.step1 b k).nullCmd b k w, T.base + cIssue w, true, false⟩]) ∧
    (AtInsn s b k (.push e n) → queueDepth e ≤ (T.queue e).length →
      exec (.push b k) s = .next (s.updStall i (fun t => { t with st := .queueFull, pushWait := some (e, n) }))) ∧
    (T.pushWait = some (e, n) → (T.queue e).length < queueDepth e → (s.coreJob b k).isSome = true →
      exec (.pushResume b k) s =
        .next ((s.updStall i (fun t => { t.advance with st := .run, pushWait := none })).pushCmd b k e w T.pc))

/-- The rows of the engine queues. -/
def Obligations.QueueEventsComplete : Prop :=
  ∀ (b : Barn) (k : StallId) (e : EngineId) (s : State) (j : Nat),
    let i := sx b k
    let T := s.stall i
    (∀ d, (s.barn b).owner = some j → T.dueBeat e.num = some d → s.jobGoes b j = true → (s.region b).skew = false → d ≤ s.jobBeatAt j b →
      T.queue e.num = [] →
      exec (.engineDueBeat b k e) s = .next ((s.addCause b 2 (some j) i e.num 0).fwrap (F.STL_STARVE_EVENTS b k)
        (if (s.region b).causes.any (fun c => c.code = 2 && c.what = i && c.eng = e.num) then 0 else 1))) ∧
    (∀ q, s.headAt b k e.num = some (j, q) → q.null = true → s.waitOk b k e.num q = true →
      Runs (.nullCommand b k e) s (fun t => ∃ u, u = s.issueHead b k e.num j q ∧
        (t.stall i).flights = (u.stall i).flights ++
          [{ eng := e.num, chan := 0xFF, iss := u.beat b, done := u.beat b, far := none, waits := [], w := q.w
             sel := if cSigIssue q.w then 0xC000 else cSigSel q.w, inc := cSigInc q.w
             ord := ordKey (u.beat b) b k 0xFF e.num }] ∧
        OnlyStall i u t)) ∧
    (∀ f, firstDone (s.beat b) (T.flying e.num) none = some f → f.far = none →
      Runs (.commandComplete b k e) s (fun t =>
        (t.stall i).flights = T.flights.map (fun g => if g = f then { g with gone := true } else g) ∧ (∀ m, m ≠ i → t.stall m = s.stall m) ∧
        ∀ c, t.ctr c = { s.ctr c with incs := (s.ctr c).incs ++ (if selKey b k f.sel = some c then [f.inc] else []) })) ∧
    (∀ q, s.headAt b k e.num = some (j, q) → q.issue < s.jobBeatAt j b → q.late = false →
      exec (.commandLate b k e) s = .next ((s.updStall i (fun t =>
        t.setQueue e.num ({ q with late := true } :: (T.queue e.num).drop 1))).stlErr b k 0x0203 0))

/-! ### Engine commands issue -/

/-- What issuing does to the queue and the counters (R64, R67, R69, R70). -/
def Obligations.IssueTakesTheHead : Prop :=
  ∀ (b k e j : Nat) (q : QCmd) (s : State), q.issue = s.jobBeatAt j b → s.fbit F.TCK_LSP_CTL_RUN = false →
    let i := 48 * b + k
    let u := s.issueHead b k e j q
    (u.stall i).queue e = ((s.stall i).queue e).drop 1 ∧
    (∀ e', e' ≠ e → (u.stall i).queue e' = (s.stall i).queue e') ∧
    (∀ m, m ≠ i → u.stall m = s.stall m) ∧
    (∀ c, (u.ctr c).val = (s.ctr c).val ∧ (u.ctr c).writes = (s.ctr c).writes) ∧
    (∀ c, (u.ctr c).consumes = (s.ctr c).consumes ++
      (if selKey b k (cWaitSel q.w) = some c ∧ cConsume q.w = true ∧ q.null = false then [cThresh q.w] else [])) ∧
    (∀ c, (u.ctr c).incs = (s.ctr c).incs ++
      (if selKey b k (cSigSel q.w) = some c ∧ cSigIssue q.w = true then [cSigInc q.w] else []))

/-- Every row of the vector engine (R67, R126, R128 to R140). -/
def Obligations.VectorCommandsIssue : Prop :=
  ∀ (op : Nat) (row : Barn → StallId → List EccHit → Instr), (op, row) ∈ vecRows →
  ∀ (b : Barn) (k : StallId) (ecc : List EccHit) (s : State) (j : Nat) (q : QCmd),
    s.headAt b k 2 = some (j, q) → isOpcode op q = true → (s.stall (sx b k)).vecFree ≤ s.beat b →
    let i := sx b k
    let u := s.issueHead b k 2 j q
    (s.waitOk b k 2 q = true →
      Runs (row b k ecc) s (fun t =>
        t = { u with stalls := t.stalls, regs := t.regs, acts := t.acts } ∧
        t.regs = (u.fset (F.VEC_STATE_LAST_OP b k) op).regs ∧
        (∀ m, m ≠ i → t.stall m = u.stall m) ∧
        t.stall i = { u.stall i with
          flights := (u.stall i).flights ++ [flightOf u b k 2 q.w 0 (u.beat b + (vecTimes q.w).2.1)]
          vecFree := u.beat b + (vecTimes q.w).1 } ∧
        ∃ a, t.acts = u.acts ++ [a] ∧ a.reg = b.val ∧ a.stall = i ∧ a.job = j ∧ a.w = q.w ∧ a.ecc = ecc ∧
          a.m = (vecTimes q.w).2.2 ∧ a.iss + 1 = a.beat)) ∧
    (s.waitOk b k 2 q = false →
      exec (row b k ecc) s =
        .next (s.addCause b (if bits (cWaitSel q.w) 15 14 = 2 then 4 else 3) (some j) i 2 0))

/-- The rows of the DMA and array engines. -/
def Obligations.DmaAndArrayCommandsIssue : Prop :=
  ∀ (b : Barn) (k : StallId) (ecc : List EccHit) (s : State) (j : Nat) (q : QCmd),
    let i := sx b k
    let w := q.w
    (s.headAt b k 3 = some (j, q) → s.waitOk b k 3 q = true → (s.dmaChan b k).isSome = true →
      let u := s.issueHead b k 3 j q
      let c := (u.dmaChan b k).getD 0
      let x := u.xfer i j w
      let moves := findMoves (u.jobBeatRaw j b) (x.accesses w) []
      let beats := if cOp w = 0x601 ∧ x.kind = 5 then 1 else x.doneAt (cOp w) + x.n
      (∀ op row, (op, row) ∈ [(0x601, Instr.dmaRd), (0x602, Instr.dmaWr), (0x603, Instr.dmaLcopy)] → isOpcode op q = true →
        exec (row b k ecc) s = .next (u.dmaCopy b k j w ecc) ∧
        (x.denied = false → (op = 0x601 → x.kind = 5 → (u.route (u.planOf j) (faDevice (dFar w))).isSome = true) →
          Runs (row b k ecc) s (fun t =>
            (t.stall i).flights = (u.stall i).flights ++
              [{ flightOf u b k 3 w c (u.beat b + beats + shiftOf moves (beats + 1)) with far := x.farSig w }] ∧
            (∀ m, m ≠ i → t.stall m = u.stall m) ∧ u.acts.length < t.acts.length ∧
            t = { u with stalls := t.stalls, acts := t.acts, mesh := t.mesh }))) ∧
      (isOpcode 0x604 q = true → Runs (.dmaRds b k ecc) s (fun t =>
        Starts u t i (flightOf u b k 3 w c (u.beat b + rdsDone w))
          { u.actNow b k j c w ecc with beat := u.beat b + 1, rank := 6, m := .grp (.rds 0) 0 [] 0 0 })) ∧
      (isOpcode 0x605 q = true → Runs (.dmaFill b k ecc) s (fun t =>
        Starts u t i (flightOf u b k 3 w c (u.beat b + (fillLines w + 15) / 16))
          { u.actNow b k j c w ecc with beat := u.beat b + 1, rank := 6, m := .dmaFill 0 }))) ∧
    (s.headAt b k 1 = some (j, q) → s.waitOk b k 1 q = true → s.arrAccepts b k w = true →
      let u := s.issueHead b k 1 j q
      (isOpcode 0x201 q = true → Runs (.arrLoad b k ecc) s (fun t =>
        Starts u t i (flightOf u b k 1 w 0 (u.beat b + alBeats w + 1 + (if alMx w then 1 else 0)))
          { u.actNow b k j 0 w ecc with beat := u.beat b + 1, rank := 1, m := .grp .tile 0 [] 0 0 })) ∧
      (isOpcode 0x202 q = true → exec (.mma b k ecc) s = .next (u.mmaStart b k j w ecc)) ∧
      (isOpcode 0x202 q = true → mLoft w = true → Runs (.mma b k ecc) s (fun t =>
        (t.stall i).flights = (u.stall i).flights ++ [flightOf u b k 1 w 0 (u.beat b + mmaDone w)] ∧
        (t.stall i).passes.length = (u.stall i).passes.length + 1 ∧
        t.acts.length = u.acts.length + 2 + 2 * (mmaBlocks w).length)) ∧
      (isOpcode 0x203 q = true → Runs (.accDrain b k ecc) s (fun t =>
        Starts u t i (flightOf u b k 1 w 0 (u.beat b + (adRows w + 3) / 4 + 1))
          { u.actNow b k j 0 w ecc with beat := u.beat b + 1, rank := 1, m := .drain 0 })))

/-- The rows of the loft and network engines. -/
def Obligations.LoftAndNetworkCommandsIssue : Prop :=
  ∀ (b : Barn) (k : StallId) (ecc : List EccHit) (s : State) (j : Nat) (q : QCmd),
    let i := sx b k
    let w := q.w
    (s.headAt b k 5 = some (j, q) → s.waitOk b k 5 q = true →
      let u := s.issueHead b k 5 j q
      (isOpcode 0xA01 q = true → Runs (.lftVec b k ecc) s (fun t =>
        Starts u t i (flightOf u b k 5 w 0 (u.beat b + 10 + 4 * lvN w))
          { u.actNow b k j 0 w ecc with beat := u.beat b + 1, rank := 3, m := .lvec 0 0 [] })) ∧
      (isOpcode 0xA02 q = true → (mvSet w).all (fun e => !(s.heldEngines b).contains e) = true →
        (s.heldEngines b).length + (mvSet w).length ≤ 64 →
        let c0 := mvC0 (u.loftF b)
        let last := cycleBeat (u.beat b) (u.loftF b) (mvLast w c0)
        Runs (.lftMv b k ecc) s (fun t =>
          (t.stall i).flights = (u.stall i).flights ++
            [flightOf u b k 5 w 0 (last + 7 + (if mvEmit w then 16 * (mvSet w).length else 0))] ∧
          (∀ m, m ≠ i → t.stall m = u.stall m) ∧
          t.acts.length = u.acts.length + (if mvEmit w then 2 else 1) ∧
          t = { u with stalls := t.stalls, acts := t.acts, regs := t.regs })) ∧
      (isOpcode 0xA03 q = true →
        (bankSet (lpLmask w) (lpBmask w)).all (fun e => !(s.heldEngines b ++ s.pwrBanks b).contains e) = true →
        Runs (.lftPwr b k ecc) s (fun t =>
          (∀ e, (t.bank b e).st =
            if e ∈ bankSet (lpLmask w) (lpBmask w) ∧ (u.bank b e).st = (if lpOn w then 2 else 0) then (if lpOn w then 3 else 1)
            else (u.bank b e).st) ∧
          (∀ e, lpOn w = true → e ∈ bankSet (lpLmask w) (lpBmask w) → (u.bank b e).st = 2 → (t.bank b e).wake = u.beat b + 256) ∧
          (t.stall i).flights.length = (u.stall i).flights.length + 1 ∧
          t = { u with stalls := t.stalls, lofts := t.lofts }))) ∧
    (s.headAt b k 4 = some (j, q) → s.waitOk b k 4 q = true →
      let u := s.issueHead b k 4 j q
      (isOpcode 0x801 q = true → (s.sendChan b k).isSome = true → Runs (.netSend b k ecc) s (fun t =>
        let c := (u.sendChan b k).getD 0
        Starts u t i (flightOf u b k 4 w c (u.beat b + nsBeats b w + maxOf 0 ((onesOf 24 (nsBmask w)).map (tStall b))))
          { u.actNow b k j c w ecc with beat := u.beat b + 1, rank := 4, m := .netRead 0 })) ∧
      (isOpcode 0x802 q = true → Runs (.netSlot b k ecc) s (fun t =>
        Starts u t i (flightOf u b k 4 w 2 (u.beat b + 1))
          { u.actNow b k j 2 w ecc with beat := u.beat b + 1, rank := 8, m := .slotSet })) ∧
      (isOpcode 0x803 q = true → Runs (.netSig b k ecc) s (fun t =>
        (t.stall i).flights = (u.stall i).flights ++
          [flightOf u b k 4 w 2 (u.beat b + maxOf 0 ((onesOf 24 (sgBmask w)).map (tSync b)))] ∧
        t.mesh.nextFlit = u.mesh.nextFlit + 1 ∧
        ∀ d ∈ onesOf 24 (sgBmask w), ∃ a ∈ t.acts, a.m = .sigSet d u.mesh.nextFlit ∧ a.reg = d ∧ a.beat = u.beat b + tSync b d)))

/-! ### Values -/

/-- Every code of every floating-point element format survives decoding and conversion (R98, R100). -/
def Obligations.FormatsRoundTrip : Prop :=
  ∀ f ∈ [fp4, fp6e2, fp6e3, fp8e4, fp8e5, fp16, bf16, fp32], ∀ w : Nat, w < 2 ^ f.width →
    encodeNum f (decodeNum f w) =
      if (decodeNum f w).isNan then f.nanCode else if (decodeNum f w).isZero then 0 else w

/-- FADD, FMUL and FMA commute, and NaN operands give the canonical NaN (R130, R142). -/
def Obligations.FloatOperationsCommute : Prop :=
  ∀ x y z : Nat,
    fadd32 x y = fadd32 y x ∧ fmul32 x y = fmul32 y x ∧ fma32 x y z = fma32 y x z ∧
    ((dec32 x).isNan = true → fadd32 x y = 0x7FC00000 ∧ fsub32 x y = 0x7FC00000 ∧ fmul32 x y = 0x7FC00000 ∧
      fma32 x y z = 0x7FC00000 ∧ fma32 y z x = 0x7FC00000 ∧ fdiv32 x y = 0x7FC00000 ∧ fdiv32 y x = 0x7FC00000)

/-- The integer operations of the vector engine (R132). -/
def Obligations.IntegerLanes : Prop :=
  ∀ (x y : BitVec 32) (z : Nat),
    let r (op : Nat) : Nat := (laneOp op x.toNat y.toNat z).v
    r 0x430 = (x + y).toNat ∧ r 0x431 = (x - y).toNat ∧ r 0x432 = (x * y).toNat ∧
    r 0x433 * 2 ^ 32 + r 0x432 = x.toNat * y.toNat ∧
    (BitVec.ofNat 32 (r 0x434)).toInt = min x.toInt y.toInt ∧ (BitVec.ofNat 32 (r 0x435)).toInt = max x.toInt y.toInt ∧
    r 0x436 = (x &&& y).toNat ∧ r 0x437 = (x ||| y).toNat ∧ r 0x438 = (x ^^^ y).toNat ∧
    r 0x439 = (x <<< (y.toNat % 32)).toNat ∧ r 0x43A = (x >>> (y.toNat % 32)).toNat ∧
    r 0x43B = (x.sshiftRight (y.toNat % 32)).toNat ∧
    (y = 0 → r 0x43C = (if x.toInt < 0 then 0x80000000 else 0x7FFFFFFF) ∧ r 0x43D = x.toNat ∧
      r 0x43E = 0xFFFFFFFF ∧ r 0x43F = x.toNat) ∧
    (x.toInt = -2147483648 → y.toInt = -1 → r 0x43C = 0x7FFFFFFF ∧ r 0x43D = 0) ∧
    (y ≠ 0 → ¬ (x.toInt = -2147483648 ∧ y.toInt = -1) → r 0x43C = (x.sdiv y).toNat ∧ r 0x43D = (x.srem y).toNat ∧
      r 0x43E = x.toNat / y.toNat ∧ r 0x43F = x.toNat % y.toNat) ∧
    ((laneOp 0x43C x.toNat y.toNat z).div = true ↔ y = 0)

/-! ### Scratchpads, accumulators and lofts outside the schedule -/

/-- The rows of the scratchpads and accumulators outside the schedule (R80 to R84, R111). -/
def Obligations.ScratchpadAccessesComplete : Prop :=
  ∀ (b : Barn) (k : StallId) (s : State),
    let i := sx b k
    let T := s.stall i
    (∀ (w : UnsWait) (v : LineVal) (ecc : EccOutcome), T.uns.find? (fun w => s.spadFree i w.line) = some w → w.wr = some v →
      Runs (.unsBankAccess b k ecc) s (fun t =>
        t = { s with stalls := t.stalls, ctrs := t.ctrs, mesh := t.mesh } ∧
        (∀ m, m ≠ i → t.stall m = s.stall m) ∧ (t.stall i).uns = T.uns.erase w ∧
        (∀ line beat, line ≠ w.line → t.readLine i beat line = s.readLine i beat line) ∧
        t.readLine i (s.beat b + 1) w.line =
          { v with data := maskBytes w.mask (s.readLine i (s.beat b + 1) w.line).data v.data })) ∧
    (∀ w : UnsWait, T.uns.find? (fun w => s.spadFree i w.line) = some w → w.wr = none →
      exec (.unsBankAccess b k .clean) s =
        .next (((s.takeBank i w.line).updStall i (fun t => { t with uns := t.uns.erase w })).serveGot w.pkt w.idx b k w.line
          (s.readLine i (s.beat b) w.line) true)) ∧
    (∀ f, T.fixes.find? (s.fixFree i) = some f →
      Runs (.spadWriteback b k) s (fun t =>
        (t.stall i).fixes = T.fixes.erase f ∧ (∀ m, m ≠ i → t.stall m = s.stall m) ∧
        (∀ r ∈ t.err.recov, ¬ (r.cls = 1 ∧ r.blk = b.val ∧ r.inst = s.physOf b k ∧ r.tag = f)) ∧
        t = { s with stalls := t.stalls, err := { s.err with recov := t.err.recov } })) ∧
    (∀ line : Fin 49152, s.bankFree i line = true → k.val < s.stallCount b →
      exec (.spadScrub b k line .clean) s = .next (s.takeBank i line) ∧
      exec (.spadScrub b k line .corrected) s = .next ((s.takeBank i line).spadEcc b k line true) ∧
      (∀ ecc, ecc = .uncorrectable ∨ ecc = .tagError → exec (.spadScrub b k line ecc) s =
        .next (((s.takeBank i line).writeLine i (s.beat b) line ⟨(s.readLine i (s.beat b) line).data, 0, true⟩).spadEcc b k line
          false))) ∧
    (∀ (src : Source) (arr : Fin 4) (unit : Fin 32768), s.srcReaches src b = true → k.val < s.stallCount b → s.accBusy i arr = false →
      (∀ (v : Word32) (ecc : EccOutcome), Runs (.accHostAccess src b k arr unit (some v) ecc) s (fun t =>
        OnlyStall i s t ∧ t.stall i = { T with acc := (t.stall i).acc } ∧
        (∀ row, row ≠ 1024 * arr.val + unit.val / 32 → (t.stall i).acc.readAt AccRow.zeroF (s.beat b + 1) row =
          T.acc.readAt AccRow.zeroF (s.beat b + 1) row) ∧
        ((t.stall i).acc.readAt AccRow.zeroF (s.beat b + 1) (1024 * arr.val + unit.val / 32)).poison = false ∧
        ∀ n : Nat, n < 1024 →
          ((t.stall i).acc.readAt AccRow.zeroF (s.beat b + 1) (1024 * arr.val + unit.val / 32)).v.getLsbD n =
          if 32 * (unit.val % 32) ≤ n ∧ n < 32 * (unit.val % 32) + 32 then v.getLsbD (n - 32 * (unit.val % 32))
          else (s.seeAcc i (1024 * arr.val + unit.val / 32)).v.getLsbD n)) ∧
      (let row := T.acc.readAt AccRow.zeroF (s.beat b) (1024 * arr.val + unit.val / 32)
       exec (.accHostAccess src b k arr unit none .clean) s =
         .next (s.send (.answer unit (if row.poison then 2 else 0)
           (bits row.v.toNat (32 * (unit.val % 32) + 31) (32 * (unit.val % 32)))))))

/-- The banks of a loft (R155, R156, R162, R163). -/
def Obligations.LoftBanksComplete : Prop :=
  ∀ (b : Barn) (bank : Fin 256) (s : State),
    let x := s.bank b bank
    (x.st = 1 → x.writes = 0 →
      Runs (.bankDrainDone b bank) s (fun t =>
        t.bank b bank = { x with st := 2, woken := true } ∧
        (∀ m, m ≠ bank.val → t.bank b m = s.bank b m) ∧
        (∀ blk, blkBank blk = bank.val → (t.loft b).block blk = ⟨0, true⟩) ∧
        (∀ blk, blkBank blk ≠ bank.val → (t.loft b).block blk = (s.loft b).block blk) ∧
        t = { s with lofts := t.lofts, stalls := t.stalls })) ∧
    (x.st = 3 → x.wake ≤ s.beat b →
      exec (.bankWakeDone b bank) s = .next (s.updBank b bank (fun x => { x with st := 0 }))) ∧
    (refreshSlot bank (s.loftF b / 2) = true → x.st = 0 → s.held b = false → x.lastCyc ≠ s.loftF b / 2 + 1 →
      Runs (.bankRefresh b bank) s (fun t =>
        t.bank b bank = { x with row := (x.row + 1) % 8192, lastRef := s.locNs b, lastCyc := s.loftF b / 2 + 1 } ∧
        (∀ m, m ≠ bank.val → t.bank b m = s.bank b m) ∧ t = { s with lofts := t.lofts })) ∧
    (x.st = 0 → s.held b = true → x.lastRef + 256 ≤ s.locNs b →
      Runs (.timerRefresh b bank) s (fun t =>
        t.bank b bank = { x with row := (x.row + 1) % 8192, lastRef := s.locNs b, refEnd := (s.region b).periods + 2 } ∧
        (∀ m, m ≠ bank.val → t.bank b m = s.bank b m) ∧ t.regs = (s.fwrap (F.LFT_REFRESH_TIMER b) 1).regs ∧
        t = { s with lofts := t.lofts, regs := t.regs }))

/-- Loft accesses and the repair of blocks (R161 to R171). What a re-sent block does to those that wait is the model's
reading (log entry 67). -/
def Obligations.LoftRepairCompletes : Prop :=
  ∀ (b : Barn) (s : State),
    let L := s.loft b
    (∀ (i : Fin 65536) (w : LoftWait) (ecc : EccOutcome), L.waits[i.val]? = some w → s.loftFree b (blkBank w.blk) = true →
      64 ≤ s.bondRoom b → s.rereadFirst b (blkBank w.blk) = false →
      let u := ((s.takeLoft b (blkBank w.blk)).bondTake b 64).updLoft b (fun l => { l with waits := l.waits.erase w })
      (∀ bs, w.wr = some bs →
        exec (.unsLoftAccess b i ecc) s =
          .next (((u.updBank b (blkBank w.blk) (fun k => { k with writes := k.writes - 1 })).loftStore b w.blk (some w.job) false
            (byteMask w.off bs.length) (fun v => v.put w.off bs w.poison)).unsDone w.pkt)) ∧
      (w.wr = none → s.repairing (srcId b w.blk) = false → (s.bank b (blkBank w.blk)).st = 0 →
        exec (.unsLoftAccess b i .clean) s = .next (u.serveGot w.pkt w.idx b 0 0
          ⟨BitVec.ofNat 512 ((L.block w.blk).data.toNat >>> (8 * w.off)), 0, (L.block w.blk).poison⟩ false))) ∧
    (∀ (blk : Fin 8388608) (ecc : EccOutcome), s.fget (F.LFT_CTRL_SCRUB b) ≠ 0 → (s.bank b (blkBank blk)).st = 0 →
      s.loftFree b (blkBank blk) = true → s.rereadFirst b (blkBank blk) = false →
      exec (.loftScrub b blk ecc) s =
        .next ((s.takeLoft b (blkBank blk)).loftRead b blk (s.barn b).owner (eccOf ecc blk)).2.2) ∧
    (∀ f, L.failed.find? (fun f => f.stage = .reread && s.loftFree b (blkBank f.blk)) = some f →
      let u := s.takeLoft b (blkBank f.blk)
      (∀ good, (s.bank b (blkBank f.blk)).st ≠ 0 →
        exec (.blockReread b good) s = .next ((u.deliver b f ⟨0, true⟩).loftErr b 0x0307 f.blk (s.blkJob b f) none 0)) ∧
      ((s.bank b (blkBank f.blk)).st = 0 →
        exec (.blockReread b true) s =
          .next (((u.dropFail b f).updLoft b (fun l => { l with fixes := l.fixes ++ [(f.blk, 1)] })).loftErr b 0x0302 f.blk
            (s.blkJob b f) (some (F.LFT_ERRCNT_REREAD b)) f.blk) ∧
        (∀ slot, L.freeSlot = some slot →
          exec (.blockReread b false) s =
            .next ((u.setFail b f { f with slot := some slot }).startResend b { f with slot := some slot })) ∧
        (L.freeSlot = none →
          exec (.blockReread b false) s =
            .next ((u.setFail b f { f with stage := .wantSlot }).fwrap (F.LFT_RESEND_WAITS b) 1)))) ∧
    (∀ f slot, L.failed.find? (fun f => f.stage = .wantSlot) = some f → L.freeSlot = some slot →
      exec (.resendSlotGrant b) s =
        .next ((s.setFail b f { f with slot := some slot }).startResend b { f with slot := some slot })) ∧
    (∀ x f, s.yok.resent.find? (fun x => x.1 / 0x80000000 = b.val) = some x → s.failAt x.1 = some (b.val, f) →
      Runs (.blockResent b) s (fun t => ∃ u : State, u.yok = { s.yok with resent := s.yok.resent.erase x } ∧
        u.acts = s.acts.map (Act.give (srcId b f.blk) (blockOf x.2)) ∧
        ((s.bank b (blkBank f.blk)).st = 0 →
          (u.loft b).block f.blk = s.mended b f (blockOf x.2) ∧ (u.loft b).fixes = L.fixes ++ [(f.blk, 1)]) ∧
        (∀ g ∈ (u.loft b).failed, g.blk ≠ f.blk) ∧
        t = u.loftErr b 0x0303 f.blk (s.blkJob b f) (some (F.LFT_ERRCNT_RESENT b)) f.blk)) ∧
    (∀ blk n, L.fixes.find? (fun x => s.loftFree b (blkBank x.1) && !s.rereadFirst b (blkBank x.1)) = some (blk, n) →
      (∀ good, n = 0 ∨ (s.bank b (blkBank blk)).st ≠ 0 ∨ (n = 2 ∧ good = true) → Runs (.loftWritebackVerify b good) s (fun t =>
        (t.loft b).fixes = L.fixes.erase (blk, n) ∧ (∀ r ∈ t.err.recov, ¬ ((r.cls = 2 ∨ r.cls = 3) ∧ r.blk = b.val ∧ r.inst = blkBank blk ∧ r.tag = blk)) ∧
        t = { s with lofts := t.lofts, err := { s.err with recov := t.err.recov } })) ∧
      (∀ good, (s.bank b (blkBank blk)).st = 0 → n = 1 ∨ (3 ≤ n ∧ n < 8) → Runs (.loftWritebackVerify b good) s (fun t =>
        (t.loft b).fixes = L.fixes.map (fun x => if x = (blk, n) then (blk, n + 1) else x) ∧ t = { s with lofts := t.lofts })) ∧
      (n = 2 → (s.bank b (blkBank blk)).st = 0 → ∃ t, exec (.loftWritebackVerify b false) s = .next t ∧
        ∀ r ∈ t.err.recov, ¬ ((r.cls = 2 ∨ r.cls = 3) ∧ r.blk = b.val ∧ r.inst = blkBank blk ∧ r.tag = blk))) ∧
    (∀ c u, s.ctrlTake (fun c => c.ty = 9 && c.src = b.val) = some (c, u) →
      (u.partnerOk c.src (bits c.body 97 95) = true →
        exec (.ctrlLoftReq b) s =
          .next (u.sendControl (bits c.body 97 95) .yoke 0x19
            (leBytes 1 c.src ++ leBytes 2 0 ++ leBytes 4 (bits c.body 94 64) ++ leBytes 8 (bits c.body 63 0)))) ∧
      (∀ n f, u.partnerOk c.src (bits c.body 97 95) = false →
        u.failAt (c.src * 0x80000000 + bits c.body 94 64) = some (n, f) →
        exec (.ctrlLoftReq b) s = .next (u.askHost n f)))

/-! ### The library -/

/-- The generator and its draws (R285, R286), and the fold of digests (R338). -/
def Obligations.DrawsDiffer : Prop :=
  (∀ (k0 k1 : Word32) (c d : Quad), gen k0 k1 c = gen k0 k1 d → c = d) ∧
  (∀ (seed : Word) (n n' t t' r r' i i' : Word32), drawOf seed n t r i = drawOf seed n' t' r' i' →
    n = n' ∧ t = t' ∧ r = r' ∧ i = i') ∧
  (∀ d d' w w' : Word, (foldWord d w = foldWord d' w → d = d') ∧ (foldWord d w = foldWord d w' → w = w'))

/-- The sampling routines and the acceptance of drafts (R287 to R290, R319; the order of candidates is log entry 96). -/
def Obligations.SamplersChooseTokens : Prop :=
  (∀ (r : Sampler) (zs : List Nat) (temp u : Nat), zs ≠ [] → (∀ z ∈ zs, z < 2 ^ 32) →
    let x := sample r zs temp u
    let z (i : Nat) : Nat := zs.getD i 0
    (∀ i, x.token = some i → i < zs.length) ∧
    (∀ i < zs.length, isNan32 (z i) = true → (∀ j < i, isNan32 (z j) = false) → x.nan = true ∧ x.token = some i) ∧
    ((∀ y ∈ zs, y = 0xFF800000) → x.empty = true ∧ x.nan = false ∧ x.token = some 0) ∧
    ((∀ y ∈ zs, isNan32 y = false) → (∃ y ∈ zs, y ≠ 0xFF800000) →
      x.nan = false ∧ x.empty = false ∧
      (r = .greedy ∨ floatPos temp = false → ∃ i < zs.length, x.token = some i ∧
        (∀ j < zs.length, fmaxBelow (z i) (z j) = false) ∧ ∀ j < i, fmaxBelow (z j) (z i) = true) ∧
      (∀ kept, x.kept = some kept → kept.Nodup ∧
        kept.Pairwise (fun i j => fmaxBelow (z j) (z i) = true ∨ fmaxBelow (z i) (z j) = false ∧ i < j) ∧
        ∀ i ∈ kept, i < zs.length ∧ ∀ j < zs.length, j ∉ kept → fmaxBelow (z i) (z j) = false))) ∧
  (∀ (ds : List (Nat × Nat × Nat × Sampled)) (y : Sampled),
    verifyTokens false ds y <+: ds.map (fun d => d.2.2.2.token) ++ [y.token])

/-! ### The mesh -/

/-- Packets on the mesh (R192 to R213). The answer to a denied write is the model's choice (log entry 42). -/
def Obligations.MeshPacketsComplete : Prop :=
  ∀ s : State,
    (∀ (n : Fin 65536) (d : Fin 4) (p : UPkt) (chan buf pos : Nat), s.mesh.uns[n.val]? = some p → p.sent = true →
      s.unsHop p d = some (chan, buf, pos) → s.fbit F.TCK_LSP_CTL_RUN = false → p.out = 0 ∨ p.out = buf →
      let k := min (p.flits - p.crossed) (min (if chan < 3000 then s.slotsFree chan else 4) (16 - s.viaFlits buf p.rsp))
      k ≠ 0 →
      exec (.unsFlitCredit n d) s = .next (s.unsMove p chan buf pos k) ∧
      (p.form ≠ 0 ∨ pos ≠ p.dst ∨ 24 ≤ p.dst → Runs (.unsFlitCredit n d) s (fun t =>
        t.mesh.uns = s.mesh.uns.map (fun x =>
          if x.id = p.id then
            (if p.crossed + k = p.flits then { x with pos := pos, via := buf, out := 0, crossed := 0 }
             else { x with out := buf, crossed := p.crossed + k })
          else x) ∧
        t.regs = (if chan < 1000 then s.fwrap (F.NET_LINK_UNS_FLITS (chan / 4) (chan % 4)) k else s).regs ∧
        t = { s with mesh := t.mesh, regs := t.regs }))) ∧
    (∀ (n : Fin 65536) (p : UPkt), s.mesh.uns[n.val]? = some p → p.via = ejectBuf p.dst → p.left = none →
      (p.form = 2 → exec (.unsPacketPerform n) s = .next (s.respond p)) ∧
      (p.form < 2 →
        ((∀ i < p.flits, s.arriveDenied p.job (p.addr + 64 * i) (decide (p.form = 0)) = none) →
          exec (.unsPacketPerform n) s = .next ((List.range p.flits).foldl (fun u i => u.unsLine p i)
            (s.setUns p.id (fun q => { q with left := some p.flits })))) ∧
        (∀ i < p.flits, ∀ c, (∀ i' < i, s.arriveDenied p.job (p.addr + 64 * i') (decide (p.form = 0)) = none) →
          s.arriveDenied p.job (p.addr + 64 * i) (decide (p.form = 0)) = some c →
          exec (.unsPacketPerform n) s = .next (s.turnAway p c (p.addr + 64 * i)) ∧
          (p.form = 0 → exec (.unsPacketPerform n) s =
            .next (((s.arriveErr p.src p.job c (p.addr + 64 * i)).uncount p).unsEnd p))))) ∧
    (∀ (n : Fin 65536) x, s.mesh.kept[n.val]? = some x → (s.region (chanPlace x.chan).1).periods ≤ x.period + 4 →
      let c := chanPlace x.chan
      let u := if x.chan < 2000 then s.fwrap (F.NET_RESEND_RESENDS c.1) 1 else s
      let v := if x.kind = 0 then
          (if x.chan < 2000 then u.fsat (F.NET_RESEND_HELD c.1) 1 else u).resendHold (chanEnd x.chan) x.chan
        else u
      exec (.hopResend n false) s = .next (v.netErr c.1 0x0404 0 c.2.2 none 0) ∧
      exec (.hopResend n true) s =
        .next (((v.netErr c.1 0x0404 0 c.2.2 none 0).discardItem x).netErr c.1 0x0405 0 c.2.2 none 0)) ∧
    (∀ b : Barn, exec (.reservedCtrlType b) s = .next (s.netErr b 0x0405 0 0xFF none 0)) ∧
    (∀ (src dst : Fin 30) c u, s.ctrlTake (fun c => c.ty = 4 && c.src = src.val && c.dst = dst.val) = some (c, u) →
      ∀ key, selKey dst c.stall (bits c.body 15 0) = some key →
      Runs (.syncAdd src dst) s (fun t =>
        (t.ctr key).incs = (u.ctr key).incs ++ [bits c.body 47 16] ∧ OnlyCtr key u t ∧ u.ctrs = s.ctrs)) ∧
    (∀ (src dst : Fin 30) c u, s.ctrlTake (fun c => c.ty = 6 && c.src = src.val && c.dst = dst.val) = some (c, u) →
      let n := bits c.body 7 0
      let v := u.setOutst n src (u.outst n src - 1)
      exec (.wrDone src dst) s =
        .next (State.unsRelease { v with mesh := { v.mesh with unack := v.mesh.unack.eraseP (fun x => x.1 = 64 * n + src) } })) ∧
    (∀ (src dst : Fin 30) c u, s.ctrlTake (fun c => c.ty = 3 && c.src = src.val && c.dst = dst.val) = some (c, u) →
      exec (.regRsp src dst) s = .next (u.send (.answer (bits c.body 11 0) (bits c.body 13 12) (bits c.body 77 14)))) ∧
    (∀ (src : Source) (fn : Fin 9) (addr : Fin 4294967296) (len : Fin 4097) (ide : Bool) (tag : Fin 1024), s.srcUp src = true →
      (s.srcDenied src ide = true → exec (.regRd src fn addr len ide tag) s = .next (s.regReply src addr tag 1 0)) ∧
      (s.srcDenied src ide = false → s.ctrlAhead (sourcePt src) (regPoint addr) = true →
        exec (.regRd src fn addr len ide tag) s =
          .next (s.ctrlPut 1 (sourcePt src) (regPoint addr) 63 (0xF00000000 + addr.val + tag.val * 2 ^ 36)
            (some ⟨src, fn, addr, len, tag, none⟩))) ∧
      (s.srcDenied src ide = false → s.ctrlAhead (sourcePt src) (regPoint addr) = false →
        (srcNum src = 2 ∨ (fn.val = 0 ∧ len.val ≤ 8) →
          let r := s.regRead (srcNum src) addr len
          exec (.regRd src fn addr len ide tag) s = .next (r.2.regReply src addr tag 0 r.1)) ∧
        (srcNum src < 2 → fn.val ≠ 0 → len.val ≤ 8 →
          let r := s.vfRead (srcNum src) (fn.val - 1) (addr.val % 65536) len
          exec (.regRd src fn addr len ide tag) s = .next (r.2.regReply src addr tag 0 r.1)) ∧
        (srcNum src < 2 → 8 < len.val →
          exec (.regRd src fn addr len ide tag) s =
            .next ((s.unmapped (srcNum src) false addr).regReply src addr tag 1 0)))) ∧
    (∀ (b : Barn) (k : StallId) c u thr, s.ctrlTake (fun c => c.ty = 5 && c.dst = b.val && c.stall = k.val) = some (c, u) →
      (u.stall (sx b k)).waitc = some (keyGate (bits c.body 13 0), thr) → thr ≤ bits c.body 45 14 → (u.coreJob b k).isSome = true →
      exec (.gateVal b k) s = .next (u.updStall (sx b k) (fun t => { t.advance with st := .run, waitc := none })))

/-! ### Unnar ports -/

/-- A port's training (R219 to R222). -/
def Obligations.PortTraining : Prop :=
  ∀ (p : PortId) (s : State),
    let e := p.val / 8
    let q := p.val % 8
    let l := s.link p
    (s.portSt p = 0 → s.err.fatal = false → s.fget F.TCK_STATE_STATE ≠ 0 → s.fget F.TCK_STATE_STATE ≠ 3 →
      s.fbit F.PCR_TIME_STATUS_REF_PRESENT = true → s.enabled (Blk.base .lnk e) = true →
      Runs (.portEnable p) s (fun t => PortMoves p 1 s t ∧ t.fbit (F.LNK_PORT_CTRL_ENABLE e q) = true ∧
        (t.link p).ctrl = t.reg (R.LNK_PORT_CTRL e q) ∧ (t.link p).cfg = s.reg (R.LNK_REPLAY_CFG e q) ∧
        (t.link p).fid = s.reg R.FAB_ID)) ∧
    (s.portSt p ≠ 0 ∨ s.err.fatal = true → exec (.portEnable p) s = .next (s.fset (F.LNK_PORT_CTRL_ENABLE e q) 1)) ∧
    (s.portSt p = 1 → Runs (.detectDone p) s (fun t => PortMoves p 2 s t ∧ (t.link p).trial = s.rateMax p)) ∧
    (∀ lanes : BitVec 8, s.portSt p = 2 →
      (∀ w, s.workingSet p lanes.toNat = some w → Runs (.equaliseEnd p lanes) s (fun t => PortMoves p 3 s t ∧
        t.fget (F.LNK_PORT_STATE_RATE e q) = l.trial % 4 ∧ t.fget (F.LNK_PORT_STATE_LANES_GOOD e q) = w ∧
        (t.fbit (F.LNK_PORT_STATE_WIDTH4 e q) = true ↔ w ≠ 255))) ∧
      (s.workingSet p lanes.toNat = none → l.trial ≠ 0 → Runs (.equaliseEnd p lanes) s (fun t =>
        OnlyLink p s t ∧ (t.link p).trial + 1 = l.trial ∧ t.portSt p = 2)) ∧
      (s.workingSet p lanes.toNat = none → l.trial = 0 → exec (.equaliseEnd p lanes) s = .next (s.trainFailed p))) ∧
    (s.portSt p = 3 →
      Runs (.alignEnd p true) s (fun t => PortMoves p 4 s t ∧ (t.link p).cap = none ∧ (t.link p).agreedSent = false ∧
        (t.link p).txScr = scrLoad ∧ (t.link p).rxScr = scrLoad) ∧
      exec (.alignEnd p false) s = .next (s.trainFailed p)) ∧
    (∀ (levels : BitVec 2048) (h : FlitHdr) (pay n : Nat), s.portSt p = 4 → Carries s p levels h pay n → h.type = 3 →
      badCap pay = false →
      let payload := BitVec.ofNat 256 pay
      (∀ a, s.agree p payload = some a → bit (capByte payload 0) 0 = true → a = (capByte payload 9, capByte payload 10) →
        l.agreedSent = true → l.isYoke = false →
        Runs (.cap p levels) s (fun t => PortMoves p 5 s t ∧ t.fget (F.LNK_PORT_STATE_MAJOR e q) = a.1 ∧
          t.fget (F.LNK_PORT_STATE_MINOR e q) = a.2 ∧ (t.link p).seq = 0 ∧ (t.link p).exp = 0 ∧ (t.link p).ack = 0xFFF ∧
          (t.link p).held = [] ∧ (t.link p).adv = capCredits payload)) ∧
      (s.agree p payload = none ∨ bit (capByte payload 0) 0 = false ∨ l.agreedSent = false →
        Runs (.cap p levels) s (fun t => t = { s with regs := t.regs, links := t.links } ∧ (∀ m, m ≠ p → t.link m = s.link m) ∧
          t.portSt p = 4 ∧ (t.link p).cap = some payload ∧ ((t.link p).agreedSent = true ↔ l.agreedSent = true ∧ (s.agree p payload).isSome = true))))

/-- The other rows of a port's states (R219, R220, R242). Causes that R246 does not name are free values (log entry 31).
-/
def Obligations.PortRetrainAndDown : Prop :=
  ∀ (p : PortId) (s : State),
    let e := p.val / 8
    let q := p.val % 8
    let l := s.link p
    let rate := s.fget (F.LNK_PORT_STATE_RATE e q)
    let set := s.fget (F.LNK_PORT_STATE_LANES_GOOD e q)
    (s.portSt p = 5 →
      let best := (s.takeCfg p false).rateMax p
      Runs (.portRetrain p) s (fun t => t.portSt p = 6 ∧ (t.link p).trial = best ∧
        (t.link p).sub = (if best = rate ∧ s.fbit (F.LNK_PORT_STATE_WIDTH4 e q) = false then 0 else 1) ∧
        (∀ n, n ≠ p → t.link n = s.link n))) ∧
    (∀ lanes : BitVec 8, s.portSt p = 5 → lanes.toNat &&& set ≠ set → s.fget (F.LNK_PORT_STATE_MAJOR e q) ≠ 1 →
      (∀ h, goodHalf lanes.toNat = some h →
        exec (.laneFail p lanes) s = .next (s.enterRetrain p true rate h true)) ∧
      (goodHalf lanes.toNat = none → rate ≠ 0 →
        exec (.laneFail p lanes) s = .next ((s.enterRetrain p true (rate - 1) 255 true).lnkErr p 0x0505 0))) ∧
    (∀ lanes : BitVec 8, s.portSt p = 5 → lanes.toNat &&& set ≠ set →
      s.fget (F.LNK_PORT_STATE_MAJOR e q) = 1 ∨ (goodHalf lanes.toNat = none ∧ rate = 0) →
      exec (.laneFail p lanes) s = .next ((s.linkDownOpen p).2.routesLost (s.linkDownOpen p).1)) ∧
    (∀ lanes : BitVec 8, s.portSt p = 6 → l.sub = 1 →
      (∀ w, s.workingSet p (lanes.toNat &&& l.lim) = some w →
        exec (.equaliseEnd p lanes) s = .next ((s.setLanes p l.trial w).updLink p (fun l => { l with sub := 0 }))) ∧
      (s.workingSet p (lanes.toNat &&& l.lim) = none →
        exec (.equaliseEnd p lanes) s = .next (s.updLink p (fun l => { l with trial := l.trial - 1 })))) ∧
    (s.portSt p = 6 → l.sub = 0 → Runs (.alignEnd p true) s (fun t =>
      OnlyLink p s t ∧ (t.link p).sub = 2 ∧ (t.link p).cap = none)) ∧
    (s.portSt p = 7 →
      (s.fbit (F.LNK_PORT_CTRL_ENABLE e q) = false → Runs (.downTimeout p) s (PortMoves p 0 s)) ∧
      (s.fbit (F.LNK_PORT_CTRL_ENABLE e q) = true → l.since + 10000000 ≤ s.refNs → s.err.fatal = false →
        s.fbit F.PCR_TIME_STATUS_REF_PRESENT = true → Runs (.downTimeout p) s (PortMoves p 1 s))) ∧
    (s.portSt p = 4 → l.since + 10000000 ≤ s.refNs →
      exec (.capTimeout p) s = .next ((s.lnkErr p 0x0508 0).portDown p 7)) ∧
    (s.portSt p = 6 → l.since + 1000000 ≤ s.refNs → exec (.retrainTimeout p) s = .next (s.portDown p 2)) ∧
    (s.portSt p = 5 → l.goodAt + 800 ≤ s.refNs → exec (.linkSilence p) s = .next (s.portDown p 1)) ∧
    (∀ m u, s.takeStored p 6 = some (m, u) → u.portOpen p = true → exec (.linkNotice p) s = .next (u.portDown p 3)) ∧
    (let u := s.fset (F.LNK_PORT_CTRL_ENABLE e q) 0
     (u.portSt p = 7 → exec (.portDisable p) s = .next (u.setPort p 0)) ∧
     (u.portSt p ≠ 0 → u.portSt p ≠ 7 →
       exec (.portDisable p) s = .next (((u.linkNotice p).portDown p 5).setPort p 0)))

/-- The receiving side of a port (R229 to R233). -/
def Obligations.FlitsReceived : Prop :=
  ∀ (p : PortId) (s : State),
    let e := p.val / 8
    let q := p.val % 8
    let l := s.link p
    (∀ (levels : BitVec 2048) (h : FlitHdr) (pay n : Nat), s.portSt p = 5 → Carries s p levels h pay n →
      let u := heard s p n true
      (badHeader h pay = true → ∀ row ∈ [Instr.cap, Instr.data, Instr.idle, Instr.bypass],
        exec (row p levels) s = .next ((u.lnkErr p 0x050A 0).portDown p 4)) ∧
      (badHeader h pay = false → h.type = 1 →
        (h.seq = l.exp → badUnits h pay h.units 0 (l.vc h.vc).rest false = false →
          Runs (.data p levels) s (fun t =>
            (t.link p).exp = (l.exp + 1) % 4096 ∧ (t.link p).ack = h.seq ∧ (t.link p).nak = none)) ∧
        (subMod 12 h.seq l.exp ≠ 0 → badAlone h pay = false → Runs (.data p levels) s (fun t =>
          (t.link p).exp = l.exp ∧ (t.link p).ack = l.ack ∧ (t.link p).vcs = l.vcs ∧
          (subMod 12 h.seq l.exp < 2048 → (t.link p).nak.isSome = true)))) ∧
      (badHeader h pay = false → h.type = 0 →
        Runs (.idle p levels) s (fun t => ((t.link p).nak = none ↔ h.seq = l.exp) ∧ (t.link p).exp = l.exp ∧
          (t.link p).vcs = l.vcs)) ∧
      (badHeader h pay = false → h.type = 2 →
        exec (.bypass p levels) s = .next ((List.range 14).foldl
          (fun s m => s.takeMsg p (BitVec.ofNat 128 (pay >>> (128 * m)))) ((u.goodFlit p h).seqShown p h.seq)))) ∧
    (∀ (levels : BitVec 2048) (n : Nat), s.portSt p = 5 → s.rxOf p levels = ⟨none, n⟩ →
      Runs (.badFlit p levels) s (fun t => (t.link p).nak.isSome = true ∧
        t.regs = ((s.fwrap (F.LNK_FEC_SYMBOLS e q) n).fwrap (F.LNK_FEC_BAD_FLITS e q) 1).regs ∧
        t = { s with regs := t.regs, links := t.links } ∧ ∀ m, m ≠ p → t.link m = s.link m)) ∧
    (∀ at_, l.nak = some at_ → s.portSt p = 5 → at_ + l.timeout ≤ s.refNs → Runs (.nakRenew p) s (fun t =>
      OnlyLink p s t ∧ (t.link p).nak = some s.refNs ∧ (t.link p).nakid = (l.nakid + 1) % 4)) ∧
    (s.portSt p = 5 → l.held ≠ [] → l.timer + l.timeout ≤ s.refNs → l.consec < l.limit →
      Runs (.replayTimer p) s (fun t => (t.link p).replay = some 0 ∧ (t.link p).consec = l.consec + 1 ∧
        (t.link p).held = l.held ∧ ∀ n, n ≠ p → t.link n = s.link n)) ∧
    (l.fecAt + 1000000 ≤ s.refNs → Runs (.fecInterval p) s (fun t => (t.link p).fecSyms = 0 ∧ (t.link p).fecAt = s.refNs ∧
      (∀ n, n ≠ p → t.link n = s.link n) ∧
      (bits l.cfg 63 48 = 0 ∨ l.fecSyms ≤ bits l.cfg 63 48 → t.err = s.err)))

/-- The sending side of a port (R232, R237, R238). How a flit is filled when a packet ends inside it is the model's
choice (log entry 30). -/
def Obligations.FlitsSent : Prop :=
  ∀ (p : PortId) (s : State),
    let l := s.link p
    let waits := (l.byq ≠ [] ∨ l.rsp.isSome = true ∨ l.follow.isSome = true) ∧ 7 ≤ l.bypGap
    (s.portSt p = 5 → ¬ waits → l.replay = none → l.pickVc = none → Runs (.flitSlot p) s (fun t =>
      SendsFlit p (flitBytes (s.freshHdr p { type := 0, seq := l.seq }).pack 0) s t ∧
      (t.link p).held = l.held ∧ (t.link p).seq = l.seq ∧ (t.link p).vcs = l.vcs ∧
      (∀ n, n ≠ p → t.link n = s.link n) ∧ t = { s with links := t.links, out := t.out })) ∧
    (∀ i, s.portSt p = 5 → ¬ waits → l.replay = some i → i < l.held.length → Runs (.flitSlot p) s (fun t =>
      ∃ f, l.held[i]? = some f ∧
      SendsFlit p (flitBytes (s.freshHdr p { type := 1, seq := f.seq, replay := true, vc := f.vc, start := f.start
                                             units := f.units, abort := f.abort }).pack f.payload.toNat) s t ∧
      (t.link p).replay = (if i + 1 < l.held.length then some (i + 1) else none) ∧ (t.link p).held = l.held ∧
      (t.link p).seq = l.seq ∧ (∀ n, n ≠ p → t.link n = s.link n) ∧ t = { s with links := t.links, out := t.out })) ∧
    (∀ v, s.portSt p = 5 → ¬ waits → l.replay = none → l.pickVc = some v → Runs (.flitSlot p) s (fun t =>
      (t.link p).seq = (l.seq + 1) % 4096 ∧ (∃ f, (t.link p).held = l.held ++ [f] ∧ f.seq = l.seq ∧ f.vc = v) ∧
      (∃ bytes, SendsFlit p bytes s t) ∧ (∀ n, n ≠ p → t.link n = s.link n) ∧
      t = { s with regs := t.regs, links := t.links, out := t.out })) ∧
    (s.portSt p = 5 → waits → Runs (.flitSlot p) s (fun t =>
      (∃ bytes, SendsFlit p bytes s t) ∧ (t.link p).bypGap = 0 ∧ (t.link p).held = l.held ∧ (t.link p).seq = l.seq ∧
      (t.link p).rsp = none ∧ (∀ n, n ≠ p → t.link n = s.link n) ∧ t = { s with regs := t.regs, links := t.links, out := t.out })) ∧
    (s.portSt p = 4 ∨ (s.portSt p = 6 ∧ l.sub = 2) → l.agreedGot = false → Runs (.flitSlot p) s (fun t =>
      SendsFlit p (flitBytes (3 * 2 ^ 92) (s.capPayload p)) s t ∧ t.portSt p = s.portSt p ∧
      ((t.link p).agreedSent = true ↔ l.agreedSent = true ∨ (l.cap.bind (s.agree p)).isSome = true) ∧
      (∀ n, n ≠ p → t.link n = s.link n) ∧ t = { s with links := t.links, out := t.out }))

/-! ### The fabric -/

/-- Sealing and opening, and the packed forms of headers and packets (R227, R228, R249, R403). -/
def Obligations.PacketsOpen : Prop :=
  (∀ (key plane n plan : Nat) (p : FabPkt), openPkt key plane n ((sealPkt key plane n p).setPlan plan) = (p.lines, true)) ∧
  (∀ h : FabHdr, h.gen < 2 ^ 12 → h.rtag < 2 ^ 17 → h.poison < 2 ^ 4 → h.epoch < 2 ^ 4 → h.plan < 2 → h.siginc < 2 ^ 8 →
    h.sigidx < 2 ^ 13 → h.addr < 2 ^ 36 → h.eseq < 2 ^ 16 → h.fjob < 2 ^ 16 → h.src < 2 ^ 12 → h.dst < 2 ^ 12 →
    h.kind < 2 ^ 4 → h.d < 2 ^ 3 → FabHdr.unpack h.pack = h) ∧
  (∀ h : FlitHdr, h.type < 2 ^ 4 → h.seq < 2 ^ 12 → h.ack < 2 ^ 12 → h.nakid < 4 → h.vc < 4 → h.start < 2 ^ 7 →
    h.units < 8 → h.crVc < 4 → h.crKind < 2 → h.crCount < 2 ^ 16 → FlitHdr.unpack h.pack = h) ∧
  (∀ (p : FabPkt) (r : RPkt), r.units = p.units → r.pkt = p)

/-- The packets that carry data (R250, R257, R263). -/
def Obligations.DataPacketsAccepted : Prop :=
  ∀ (p : PortId) (s : State) (j : Nat) (r : RPkt),
    let h := r.pkt.head
    (∀ ls, Delivers s p 0 j r → h.kind = 0 → (s.openRx p j r).1 = ls →
      let u := Taken s p 0 j r
      ((∀ i < h.d, u.arriveDenied j (h.addr + 64 * i) true = none) → (h.siginc ≠ 0 → u.gateOwned j h.sigidx = true) →
        exec (.write p) s = .next (Accepted s p 0 j r (fun u => u.performPkt p j h ls))) ∧
      (∀ c, 0 < h.d → u.arriveDenied j (h.addr + 64 * 0) true = some c →
        exec (.write p) s = .next (Accepted s p 0 j r (fun u => u.arriveErr p j c (h.addr + 64 * 0))))) ∧
    (∀ ls, Delivers s p 0 j r → h.kind = 1 → (s.openRx p j r).1 = ls → bits (ls.headD 0).toNat 511 119 = 0 →
      1 ≤ ctlNat ls 9 2 → ctlNat ls 9 2 ≤ 49152 →
      ∃ v : FarServe, v.job = j ∧ v.dst = h.src ∧ v.lines = ctlNat ls 9 2 ∧ v.port = p.val ∧ v.rtag = h.rtag ∧ v.sent = 0 ∧
        v.src = bits (ls.headD 0).toNat 35 0 ∧ v.ret = bits (ls.headD 0).toNat 71 36 ∧
        exec (.readReq p) s = .next (Accepted s p 0 j r (fun u =>
          (List.range ((v.lines + 3) / 4)).foldl (fun s i => s.unsSend
            { src := p, dst := s.dstPoint (v.src + 256 * i), job := j, form := 1, addr := v.src + 256 * i, data := []
              lines := min 4 (v.lines - 4 * i), sel := 0xC000, inc := 0, fence := false, tag := v.id * 65536 + 4 * i
              port := p.val })
            (u.updFab (fun f => { f with nextId := f.nextId + 1, serve := f.serve ++ [v] }))))) ∧
    (∀ ls, Delivers s p 1 j r → h.kind = 2 → (s.openRx p j r).1 = ls →
      ((s.link p).isYoke = true → exec (.readRsp p) s = .next (Accepted s p 1 j r (fun u =>
        { u with yok := { u.yok with resent := u.yok.resent ++
          [(h.addr, ls.zipIdx.map (fun l => (⟨l.1, h.epoch, bit h.poison l.2⟩ : LineVal)))] } }))) ∧
      ((s.link p).isYoke = false → exec (.readRsp p) s = .next (Accepted s p 1 j r (fun u =>
        (u.updFab (fun f => { f with
          reads := (f.reads.map (fun r => if r.rtag = h.rtag then { r with left := r.left - 1 } else r)).filter (fun r => 0 < r.left) })).acceptWrite
            p j h ls)))) ∧
    (Delivers s p 2 j r → h.kind = 3 →
      exec (.ack p) s = .next ((s.dropRx p 2 r).ackStream
        (if bit h.addr 10 then 16384 * j + 4096 + bits h.addr 9 0 else s.inKey p j { h with mcast := false }) h.eseq h.src))

/-- Packets that are turned away, and the streams' timers (R257, R258, R263). A packet of unreadable kind is dropped by
the row that meets it (log entry 53). -/
def Obligations.PacketsTurnedAway : Prop :=
  ∀ (p : PortId) (s : State) (r : RPkt),
    let h := r.pkt.head
    (s.firstHere p 0 = some r → badFabHdr 0 h = false → h.kind = 0 → (s.link p).isYoke = false →
      (s.ctxOf h.fjob = none →
        exec (.write p) s = .next (((s.fsat F.FAB_RX_UNKNOWN_JOB 1).hubOnce 0x0606 h.fjob none).dropRx p 0 r)) ∧
      (∀ j, s.ctxOf h.fjob = some j → r.aborted = true → exec (.write p) s = .next (s.dropRx p 0 r)) ∧
      (∀ j, s.ctxOf h.fjob = some j → r.aborted = false → slicesOf h.d ≤ r.slices →
        ((s.openRx p j r).2 = false →
          exec (.write p) s =
            .next (((s.fwrap (F.SEC_JOB_RX_AUTH_FAIL j) 1).hubOnce 0x0A02 j (some j)).dropRx p 0 r)) ∧
        ((s.openRx p j r).2 = true →
          let d := subMod 16 h.eseq ((s.inStream (s.inKey p j h)).next % 65536)
          (0 < d → d < 32768 → exec (.write p) s =
            .next (((s.fsat F.FAB_RX_GAP 1).dropRx p 0 r).sendAck (s.inKey p j h) h.src)) ∧
          (32768 ≤ d → exec (.write p) s = .next ((s.fsat F.FAB_RX_DUP 1).dropRx p 0 r))))) ∧
    (∀ vc : Fin 3, s.firstHere p vc = some r → badFabHdr vc h = true →
      exec (.malformedFabricPacket p vc) s = .next ((s.dropRx p vc r).raise { code := 0x0608, blk := 28 })) ∧
    (∀ (j : JobId) (stream : Fin 16384),
      let key := 16384 * j.val + stream.val
      (∀ at_, (s.inStream key).since = some at_ → at_ + 2000 ≤ s.refNs →
        exec (.ackTimer j stream) s = .next (s.sendAck key (key % 4096))) ∧
      (∀ k ks, (s.outStream key).kept = k :: ks → (s.job j).phase ≠ .teardown →
        k.at_ + 1000 * s.fget F.FAB_CTRL_RESEND_US ≤ s.refNs →
        exec (.resendTimer j stream) s = .next ((s.resend key).hubOnce 0x0609 j (some j.val))))

/-- Routes and transit (R242 to R268). The places inside ROUTE_FAIL and PLAN_SWITCH and where a packet in transit waits
are the model's choice (log entries 50 and 35). -/
def Obligations.RoutesAndTransit : Prop :=
  ∀ (p : PortId) (s : State),
    (∀ (vc : Fin 3) (q : UPkt) (t : TPkt), s.transitHere p vc = some (q, t) →
      exec (.transitForward p vc) s = .next (s.landTransit vc q t)) ∧
    (∀ (vc : Fin 3) (r : RPkt) (outs : List Nat) (here : Bool), s.transitHere p vc = none →
      ((s.link p).vc vc).rx.find? (fun r => !r.routed && (r.pkt.head.mcast || !s.isHere p r)) = some r →
      let h := FabHdr.unpack (r.units.headD 0).toNat
      (s.transitRoute p h = some (outs, here) →
        let u := (outs.filter (fun o => !(r.outs ++ r.far).contains o)).foldl (fun s o => s.beginOut p vc r o) s
        exec (.transitForward p vc) s =
          .next (if u.allBegun p vc r.id outs then
            (u.updRx p vc r.id (fun x => { x with routed := true, here := here })).sweepRx p vc else u)) ∧
      (∀ o, s.transitRoute p h = some ([o], here) → o / 8 = p.val / 8 → (s.link o).hasCredit vc h.d = true →
        r.outs = [] → r.far = [] →
        exec (.transitForward p vc) s = .next ((((s.updLink o (fun l => l.updVc vc (fun c =>
          { c with tx := c.tx ++ [⟨r.id, r.units, r.need, r.aborted, true⟩] }))).updRx p vc r.id
            (fun x => { x with outs := x.outs ++ [o] })).updRx p vc r.id
            (fun x => { x with routed := true, here := here })).sweepRx p vc)) ∧
      (s.transitRoute p h = none → r.units.length = r.need →
        exec (.transitForward p vc) s = .next (((s.fsat F.FAB_RX_TRANSIT_DROP 1).hubOnce 0x0605 h.fjob none).dropRx p vc r))) ∧
    (∀ c, ((List.range 16).map (fun i => (s.fab.turn + i) % 16)).find? s.sealWork = some c → c % 2 = 0 →
      ∀ i, s.fab.sealq.find? (fun i => i.job = c / 2) = some i → 1 < i.slices →
      Runs .sealSlice s (fun t => t = { s with fab := t.fab } ∧ t.fab.turn = (c + 1) % 16 ∧
        t.fab.sealq = s.fab.sealq.map (fun x => if x = i then { i with slices := i.slices - 1 } else x) ∧
        t.fab = { s.fab with turn := t.fab.turn, sealq := t.fab.sealq })) ∧
    (∀ m u, s.takeStored p 5 = some (m, u) →
      let w := m.1.toNat
      let plan := bits w 119 119
      let hit := ((onesOf 64 (bits w 63 0)).filter (fun n =>
        let e := u.routeEnt plan (64 * bits w 118 113 + n)
        bit e 7 && !bit e 6 && e % 32 = p.val)).map (fun n => (plan, 64 * bits w 118 113 + n))
      exec (.routeNotice p) s = .next ((((hit.foldl (fun s m => s.setRoute m.1 m.2 (s.routeEnt m.1 m.2 + 64)) u).fwrap
        F.FAB_NOTICE_MARKED hit.length).sendNotices p (bits w 112 101) hit).routesLost hit)) ∧
    (let l := s.link p
     let n := (l.vc 0).tx.length + (l.vc 1).tx.length + (l.vc 2).tx.length
     s.portOpen p = false → l.downAt ≠ 0 → l.downAt + 1000 * s.fget F.FAB_CTRL_DOWN_HOLD_US ≤ s.refNs → 0 < n →
     Runs (.downHoldExpiry p) s (fun t =>
       ((t.link p).vc 0).tx = [] ∧ ((t.link p).vc 1).tx = [] ∧ ((t.link p).vc 2).tx = [] ∧ (∀ m, m ≠ p → t.link m = s.link m) ∧
       t.regs = (s.fsat F.FAB_RX_TRANSIT_DROP n).regs ∧ t = { s with links := t.links, regs := t.regs })) ∧
    (∀ (j : Nat) (r : RPkt), DeliversCtl s p j 1 r → s.isHead j = true → s.fab.switching.contains j = false → s.switchPending j = false →
      s.planOf j = 0 →
      Runs (.routeFail p) s (fun t => t = Accepted s p 2 j r (fun u =>
        (u.updFab (fun f => { f with switching := f.switching ++ [j] })).sendSwitch j 1 0))) ∧
    (∀ (j : Nat) (r : RPkt), DeliversCtl s p j 2 r → (s.job j).phase ≠ .halted → (s.job j).phase ≠ .teardown →
      let ls := (s.openRx p j r).1
      ctlNat ls 8 8 ≠ 0 → s.jobBeat j < ctlNat ls 8 8 →
      exec (.planSwitch p) s = .next (Accepted s p 2 j r (fun u =>
        (u.updFab (fun f => { f with
          pend := f.pend.filter (fun x => x.1 ≠ j) ++ [(j, ctlByte ls 1 % 2, ctlNat ls 8 8)] })).fset (F.FAB_JOB_STATE_PENDING j) 1))) ∧
    (∀ (j : JobId) q b, s.fab.pend.find? (fun x => x.1 = j.val) = some (j.val, q, b) → b ≤ s.jobBeat j →
      exec (.planSwitchBeat j) s = .next (s.doSwitch j q b)) ∧
    (∀ (j : JobId) (plan : Bool) (beat : Fin 281474976710656), s.isHead j = true → (s.job j).phase ≠ .free →
      exec (.fabJobCtlGo j plan beat) s = .next
        ((s.updFab (fun f => { f with switching := f.switching.filter (· ≠ j.val) })).sendSwitch j (b2n plan) beat)) ∧
    (∀ v : Word,
      let n := s.fget F.FAB_TBL_SEL_TABLE
      let i := s.fget F.FAB_TBL_SEL_INDEX
      (n < 2 → i < 4096 → Runs (.fabTblWrite v) s (fun t =>
        t.routeEnt n i = bits v.toNat 7 7 * 128 + bits v.toNat 4 0 ∧
        (∀ m d, d < 4096 → (m ≠ n ∨ d ≠ i) → t.routeEnt m d = s.routeEnt m d) ∧
        t = { s with fab := { s.fab with routes := t.fab.routes } })) ∧
      (n = 2 → i < 2048 → Runs (.fabTblWrite v) s (fun t => Tab.get zeroNat t.fab.mcast i = v.toNat % 2 ^ 58 ∧
        (∀ m, m ≠ i → Tab.get zeroNat t.fab.mcast m = Tab.get zeroNat s.fab.mcast m) ∧
        t = { s with fab := { s.fab with mcast := t.fab.mcast } })) ∧
      (n = 3 → i < 512 → Runs (.fabTblWrite v) s (fun t => Tab.get zeroNat t.fab.peers i = v.toNat ∧
        (∀ m, m ≠ i → Tab.get zeroNat t.fab.peers m = Tab.get zeroNat s.fab.peers m) ∧
        t = { s with fab := { s.fab with peers := t.fab.peers } })))

/-! ### Jobs: windows, suspension, halts and the head -/

/-- The relay's rows and those of the job's regions (R29 to R43, R303 to R309, R491). -/
def Obligations.JobControlCompletes : Prop :=
  ∀ s : State,
    (∀ b : Barn,
      (∀ c u, s.ctrlTake (fun c => c.ty = 7 && c.dst = b.val && bits c.body 102 99 = 1) = some (c, u) →
        s.ownsBarn (bits c.body 105 103) b = true →
        let i := 48 * b.val + c.stall
        let w := bits c.body 98 93
        (bit (s.stall i).nextGot w = false → Runs (.jobCtlWindow b) s (fun t =>
          OnlyStall i u t ∧ Tab.get zero64 (t.stall i).nextWindow w = BitVec.ofNat 64 (bits c.body 63 0) ∧
          (∀ n, n ≠ w → Tab.get zero64 (t.stall i).nextWindow n = Tab.get zero64 (s.stall i).nextWindow n) ∧
          bit (t.stall i).nextGot w = true ∧
          (t.stall i).nextShape = (if w = 2 then bits c.body 63 0 % 16 else (s.stall i).nextShape))) ∧
        (bit (s.stall i).nextGot w = true → exec (.jobCtlWindow b) s = .next s)) ∧
      (∀ c u, s.ctrlTake (fun c => c.ty = 7 && c.dst = b.val && bits c.body 102 99 = 2) = some (c, u) →
        s.ownsBarn (bits c.body 105 103) b = true →
        exec (.jobCtlBase b) s = .next (u.updStall (48 * b.val + c.stall) (fun t =>
          { t with nextBase := some (bits c.body 63 0) }))) ∧
      (∀ c u r, s.ctrlTake (fun c => c.ty = 7 && c.dst = b.val && bits c.body 102 99 = 3) = some (c, u) →
        let j := bits c.body 105 103
        let p := bits c.body 63 0
        (s.srvJob j).susp = some (r, p) → (s.job j).phase = .running →
        Runs (.jobCtlSuspend b) s (fun t => (∃ q, (t.job j).stop = some q ∧ q ≤ p) ∧ (∀ k, k ≠ j → t.job k = s.job k) ∧
          t = { u with jobs := t.jobs })) ∧
      (∀ c u, s.ctrlTake (fun c => c.ty = 7 && c.dst = b.val && bits c.body 102 99 = 4) = some (c, u) →
        let j := bits c.body 105 103
        (s.job j).phase = .halted →
        exec (.jobCtlHalt b) s = .next (((u.jobStalls j).filter (fun i => i / 48 = b.val)).foldl
          (fun s i => s.updStall i Stall.halted) u))) ∧
    (∀ j : JobId,
      ((s.job j).live = true → (s.job j).haltDue = none → 1 ≤ (s.ctr (s.stepKey j (s.srvJob j).deliver)).val →
        s.windowWaits j = false → Runs (.stepDescriptorArrival j) s (fun t =>
          (t.srvJob j).deliver = (s.srvJob j).deliver + 1 ∧ (t.ctr (s.stepKey j (s.srvJob j).deliver)).val = 0 ∧
          (∀ c, c ≠ s.stepKey j (s.srvJob j).deliver → t.ctr c = s.ctr c) ∧
          t.mesh.ctrl.length = s.mesh.ctrl.length + 65 * (s.stallsOf j).length)) ∧
      ((s.job j).phase = .ready → (s.job j).launchPending = true → (s.infoOf j).launch ≤ s.nowNs →
        Runs (.launchTimeReached j) s (fun t => (t.job j).phase = .running ∧ (t.job j).origin = s.beat 28 + 32 ∧
          (t.job j).start = (s.infoOf j).beat ∧ (t.job j).launchPending = false ∧
          (t.job j).stop = (s.srvJob j).susp.map Prod.snd ∧ (∀ k, k ≠ j.val → t.job k = s.job k) ∧
          t.regs = (s.fset (F.SRV_JOB_STATE_STATE j) 1).regs ∧ (∀ i, t.stall i = { s.stall i with due := (t.stall i).due }) ∧
          t = { s with jobs := t.jobs, regs := t.regs, stalls := t.stalls })) ∧
      (∀ r p, (s.srvJob j).susp = some (r, p) → (s.job j).phase = .running → s.allReached j p = true →
        (s.job j).haltDue = none → Runs (.suspendBeat j) s (fun t =>
          (t.job j).phase = .suspended ∧ (t.job j).stop = some p ∧ (∀ k, k ≠ j.val → t.job k = s.job k) ∧
          (r ≠ 6 → t.fget (F.SRV_JOB_STATE_STATE j) = 2 ∧ t = { s with jobs := t.jobs, regs := t.regs, lofts := t.lofts }))) ∧
      (∀ code p, (s.job j).haltDue = some (code, p) →
        (s.allReached j p = true → exec (.jobHaltBoundary j 28) s = .next (s.haltNow j code)) ∧
        (∀ r : RegionId, r.val < 24 → (s.job j).barns.contains r.val = true → p ≤ s.jobBeatRaw j r →
          Runs (.jobHaltBoundary j r) s (fun t =>
            (∀ i, i / 48 ≠ r.val → t.stall i = s.stall i) ∧
            (∀ i ∈ s.jobStalls j, i / 48 = r.val → (t.stall i).st = .halted ∧ (t.stall i).queues = []) ∧
            t.job j = s.job j))))

/-- Packets for the relay and the head, and the head's points (R301 to R316, R353). The bytes of a save set and the
address of a device that is not the head are the model's (log entries 60 and 61). -/
def Obligations.HeadAndRelayComplete : Prop :=
  ∀ (s : State),
    (∀ (p : PortId) (j : Nat) (r : RPkt),
      let ls := (s.openRx p j r).1
      (DeliversCtl s p j 0x12 r →
        exec (.suspend p) s = .next (Accepted s p 2 j r (fun u => u.relaySuspend j (ctlByte ls 1) (ctlNat ls 8 8)))) ∧
      (DeliversCtl s p j 0x11 r → exec (.halt p) s = .next (Accepted s p 2 j r (fun u => u.relayHalt j))) ∧
      (DeliversCtl s p j 0x10 r → s.isHead j = true →
        exec (.haltNote p) s = .next (Accepted s p 2 j r (fun u => (u.headHalt j (ctlNat ls 1 2)).relayHalt j))) ∧
      (DeliversCtl s p j 0x13 r → s.isHead j = true →
        exec (.kvLost p) s = .next (Accepted s p 2 j r (fun u => u.kvLost j (ctlNat ls 4 4))))) ∧
    (∀ (j : JobId) (host : List HostPiece),
      (s.pointDue j = true → (s.srvJob j).reason ∉ [1, 2, 4] →
        exec (.compositionPoint j host) s =
          .next ((s.pointStart j host).2.pointEnd j host (s.pointStart j host).1)) ∧
      (s.pointDue j = true → (s.srvJob j).reason = 1 ∨ (s.srvJob j).reason = 2 →
        exec (.compositionPoint j host) s = .next (s.idlePoll j host) ∧
        exec (.idlePoll j host) s = .next (s.idlePoll j host)) ∧
      (s.pointDue j = true → (s.srvJob j).reason = 4 → exec (.compositionPoint j host) s = .next (s.retirePaused j)) ∧
      (s.pointDue j = false → exec (.compositionPoint j host) s = .next s ∧ exec (.idlePoll j host) s = .next s)) ∧
    (∀ (j : JobId) (addr capacity : Word) p, (s.srvJob j).susp = some (4, p) → (s.job j).phase = .suspended →
      s.quiescent j = true → (s.infoOf j).saving = false →
      let s0 := s
      let s := if s0.headActs j then s0.retirePaused j else s0
      let u := s.updInfo j (fun i => { i with saving := true })
      ∀ a n, (a, n) = (if s.isHead j then (s.srvJob j).pause.getD (addr.toNat, capacity.toNat) else (addr.toNat, capacity.toNat)) →
      ((s.saveSet j p).length ≤ n → exec (.jobQuiescentSave j addr capacity) s0 =
        .next ((u.hostWrite (s.ring j).port a (s.saveSet j p)).devNote (s.ring j).port 6 13 j 0 (s.saveSet j p).length)) ∧
      (n < (s.saveSet j p).length → exec (.jobQuiescentSave j addr capacity) s0 =
        .next (u.devNote (s.ring j).port 6 14 j 0 0)))

/-! ### Rules that the manual states whole -/

/-- R71: counters saturate. -/
def Obligations.CountersSaturate : Prop :=
  ∀ (c : CtrId) (s : State),
    let key := ctrKey c
    let x := s.ctr key
    let sum := (x.writes.getLast?.getD (x.prev - x.consumes.sum)) + x.incs.sum
    (sum ≤ 0xFFFFFFFF → Runs (.syncSettle c) s (fun t => OnlyCtr key s t ∧ t.ctr key = { x with val := sum })) ∧
    (0xFFFFFFFF < sum → x.over_ = true → Runs (.syncSettle c) s (fun t => OnlyCtr key s t ∧ t.ctr key = { x with val := 0xFFFFFFFF })) ∧
    (0xFFFFFFFF < sum → x.over_ = false → Runs (.syncSettle c) s (fun t =>
      t.ctr key = { x with val := 0xFFFFFFFF, over_ := true } ∧ (∀ k, k ≠ key → t.ctr k = s.ctr k) ∧
      (∃ r more, t.err.flight = s.err.flight ++ r :: more ∧ r.code = 0x0204 ∧ r.sev = 2 ∧ (r.blk, r.inst) = ctrPlace s c ∧
        (∀ j < 8, ctrOwns s c j → r.job = some j)) ∧
      (∀ j < 8, ctrOwns s c j → (s.job j).live = true → (s.job j).haltDue = none →
        let ahead := if (s.job j).phase = .running then
          (s.job j).bounds.find? (fun p => s.jobBeatAt j (blkRegion (ctrPlace s c).1) < p) else none
        (∀ p, ahead = some p → (t.job j).haltDue = some (0x0204, p) ∧ ∃ q, (t.job j).stop = some q ∧ q ≤ p) ∧
        (ahead = none → (t.job j).phase = .halted))))

/-- R404: packets that fail authentication. -/
def Obligations.UnauthenticPacketsDiscarded : Prop :=
  (∀ (good : Bool) (sections : List Byte) (v k : Nat) (row : PortId → Instr), (v, k, row) ∈ packetRows good sections →
    ∀ (p : PortId) (s : State) (j : Nat) (r : RPkt), s.firstHere p v = some r → badFabHdr v r.pkt.head = false →
      r.pkt.head.kind = k → s.ctxOf r.pkt.head.fjob = some j →
      ((s.link p).isYoke = true → (r.pkt.head.dst = s.fget F.YOK_CFG_PARTNER ∨ r.pkt.head.dst = s.devId) ∧
        s.fbit (F.YOK_JOB_CFG_YOKED j) = true) →
      r.aborted = false → slicesOf r.pkt.head.d ≤ r.slices → s.portBusy p = false → (s.openRx p j r).2 = false →
      Runs (row p) s (fun t =>
        (∀ x ∈ ((t.link p).vc v).rx, x.id ≠ r.id) ∧ t.fab = s.fab ∧ t.mesh = { s.mesh with ctrl := t.mesh.ctrl, nextPkt := t.mesh.nextPkt } ∧ t.ctrs = s.ctrs ∧ t.stalls = s.stalls ∧
        t.lofts = s.lofts ∧ t.jobs = s.jobs ∧
        t.fget (F.SEC_JOB_RX_AUTH_FAIL j) = (s.fget (F.SEC_JOB_RX_AUTH_FAIL j) + 1) % 2 ^ 32 ∧
        (s.mayReport 0x0A02 j = true → ∃ e, t.err.flight = s.err.flight ++ [e] ∧ e.code = 0x0A02 ∧ e.sev = 1 ∧ e.job = some j) ∧
        (s.mayReport 0x0A02 j = false → t.err = s.err ∧ t.mesh = s.mesh))) ∧
  (∀ (s : State) (p j : Nat) (r : RPkt), s.fget (F.SEC_JOB_STATE_KEY j) = 0 ∨ s.fget (F.SEC_JOB_STATE_KEY j) = 2 →
    (s.openRx p j r).2 = false)

/-- R61: BASE.ADD. -/
def Obligations.BaseAddRaisesTheBase : Prop :=
  ∀ (b : Barn) (k : StallId) (s : State) (rs1 : Nat), AtInsn s b k (.baseAdd rs1) → (s.xr b k rs1).toNat < 2 ^ 24 →
    Runs (.baseAdd b k) s (fun t =>
      (t.stall (sx b k)).base = (s.stall (sx b k)).base + (s.xr b k rs1).toNat % 2 ^ 24 ∧
      (∀ e, (t.stall (sx b k)).queue e = (s.stall (sx b k)).queue e) ∧ OnlyStall (sx b k) s t ∧
      ∀ (e : Nat) (w : Cmd) (pc : Nat), t.cmdIllegal b e w = false → t.cmdDenied b k e w = none →
        ((t.pushCmd b k e w pc).stall (sx b k)).queue e = (t.stall (sx b k)).queue e ++
          [⟨w, (s.stall (sx b k)).base + (s.xr b k rs1).toNat % 2 ^ 24 + cIssue w, false, false⟩])

/-! ### Errors -/

/-- The path of an error record (R409 to R421). The unit and moment of the log's own errors are the model's reading (log
entry 100). -/
def Obligations.ErrorsAreCollected : Prop :=
  (∀ (s : State) (e : Err), ∃ more, (s.raise e).err.flight = s.err.flight ++ s.recordOf e :: more) ∧
  (∀ (s : State) (e : Err), codeSev e.code ≤ 1 → s.escalates e = false →
    let part (i : Nat) : CPkt :=
      { id := s.mesh.nextPkt + i, pos := recPoint e.blk
        word := ctrlWord 8 (recPoint e.blk) 28 i (bits (s.recordOf e).pack (106 * i + 105) (106 * i)) }
    s.raise e = { s with
      err := { s.err with flight := s.err.flight ++ [s.recordOf e], recov := (s.raise e).err.recov }
      mesh := { s.mesh with nextPkt := s.mesh.nextPkt + 3, ctrl := s.mesh.ctrl ++ [part 0, part 1, part 2] } }) ∧
  (∀ r : ErrRec, r.code < 2 ^ 16 → r.sev < 4 → r.blk < 256 → r.inst < 256 → r.fjob < 2 ^ 16 → r.beat < 2 ^ 64 → r.time < 2 ^ 64 →
    r.detail < 2 ^ 64 → (∀ j, r.job = some j → j < 8) →
    let w := r.pack
    bits w 15 0 = r.code ∧ bits w 17 16 = r.sev ∧ bit w 18 = r.during ∧ bit w 19 = r.escalated ∧ bits w 23 20 = 0 ∧
    (∀ j, r.job = some j → bits w 26 24 = j ∧ bit w 27 = true) ∧ (r.job = none → bits w 27 24 = 0) ∧ bits w 31 28 = 0 ∧
    bits w 39 32 = r.inst ∧ bits w 47 40 = r.blk ∧ bits w 63 48 = r.fjob ∧ bits w 127 64 = r.beat ∧ bits w 191 128 = r.time ∧
    bits w 255 192 = r.detail) ∧
  (∀ (unit : Fin 32) (s : State), s.takeParts (recPoint unit) = none → Runs (.errRec unit) s (fun t => t = s)) ∧
  (∀ (unit : Fin 32) (s u : State) (r : ErrRec), s.err.flight.find? (fun r => r.blk = unit.val) = some r →
    s.takeParts (recPoint unit) = some u →
    u = { s with mesh := u.mesh } ∧
    let n := s.err.held.length
    ((r.sev ≤ 1 ∧ 960 ≤ n) → Runs (.errRec unit) s (fun t => t.err.flight = s.err.flight.erase r ∧ t.err.held = s.err.held ∧
      t.regs = (s.fsat F.ERR_COUNT_DROPPED_LOW 1).regs ∧ t = { u with err := t.err, regs := t.regs })) ∧
    ((1 < r.sev ∧ 1024 ≤ n) → Runs (.errRec unit) s (fun t => t.err.flight = s.err.flight.erase r ∧ t.err.held = s.err.held ∧
      t.regs = (s.fsat F.ERR_COUNT_DROPPED_SEVERE 1).regs ∧ t = { u with err := t.err, regs := t.regs })) ∧
    ((if r.sev ≤ 1 then n < 960 else n < 1024) → s.err.dropLow = 0 → s.err.dropSevere = 0 →
      Runs (.errRec unit) s (fun t => t.err.flight = s.err.flight.erase r ∧
        t.err.held = s.err.held ++ [⟨s.fget F.ERR_PRODUCER_INDEX, r, false⟩] ∧
        t.fget F.ERR_PRODUCER_INDEX = (s.fget F.ERR_PRODUCER_INDEX + 1) % 2 ^ 32))) ∧
  (∀ (s : State) (e : HeldRec), s.fget F.TCK_STATE_STATE = 1 → s.err.held.find? (fun e => !e.logged) = some e →
    (e.entry.escalated && codeClass e.entry.code = 1) = false →
    Runs .logCopy s (fun t => t.tck.logNext = (s.tck.logNext + 1) % 2 ^ 32 ∧ (s.tck.logNext, e.entry) ∈ t.tck.log ∧
      (∀ x ∈ t.err.held, x.index = e.index → x.logged = true))) ∧
  (∀ (v : Word) (s : State),
    Runs (.errConsumerWrite v) s (fun t =>
      let p := s.fget F.ERR_PRODUCER_INDEX
      let d := (v.toNat % 2 ^ 32 + 2 ^ 32 - p) % 2 ^ 32
      t.fget F.ERR_CONSUMER_INDEX = (if 1 ≤ d ∧ d ≤ 2 ^ 31 - 1 then p else v.toNat % 2 ^ 32) ∧
      (∀ x ∈ t.err.held, x ∈ s.err.held) ∧ (∀ x ∈ s.err.held, x.logged = false → x ∈ t.err.held) ∧
      t = { s with regs := t.regs, err := { s.err with held := t.err.held } }))

/-! ### Pacing, steps, holds and time -/

/-- Steps, throttle and guard (R21, R22, R32, R33). That the hub stays at its step while the reference is lost for whatever
cause its target changes is the model's reading (log entry 113). -/
def Obligations.StepsFollowTargets : Prop :=
  ∀ s : State,
    (s.enabled pcrBase = true → s.time.refLost = false → Runs .stepApply s (fun t => ∀ r < 29,
      let ns := (neighbours r).map (fun q => (if q < r then t.region q else s.region q).want)
      let lo := maxOf 0 ns - 3
      let hi := minOf 15 ns + 3
      let req := s.fget (F.PCR_STEP_REQ_STEP r)
      (t.region r).want = (if req < lo then lo else if hi < req then hi else req) ∧
      ((t.region r).want ≠ req → t.fbit (F.PCR_STEP_STATE_CLAMPED r) = true) ∧ t.cur r = s.cur r)) ∧
    (s.enabled pcrBase = true → s.time.refLost = true → Runs .stepApply s (fun t =>
      t.time.hubReq = some (s.fget (F.PCR_STEP_REQ_STEP 28)) ∧ (t.region 28).want = (s.region 28).want ∧ t.cur 28 = s.cur 28)) ∧
    (s.enabled pcrBase = false → Runs .stepApply s (fun t => t = s)) ∧
    Runs .stepTick s (fun t => ∀ r < 29,
      let c := s.cur r
      let g := s.refreshSteps.fget (F.PCR_STEP_STATE_TARGET r)
      let n := if c < g then c + 1 else if g < c then c - 1 else c
      t.cur r = (if r = 28 ∧ s.time.refLost = true then c
        else if (∀ q ∈ neighbours r, n ≤ s.cur q + 3 ∧ s.cur q ≤ n + 3) then n else c)) ∧
    (s.throttled = false → Runs .throttleAssert s (fun t => t.throttled = true ∧
      t.fget F.PCR_THROTTLE_EVENTS = wrapAdd F.PCR_THROTTLE_EVENTS.width (s.fget F.PCR_THROTTLE_EVENTS) 1 ∧
      t.time.throttleSince = s.refNs ∧ ∀ r < 29, t.fget (F.PCR_STEP_STATE_TARGET r) = 0 ∧ t.cur r = s.cur r)) ∧
    (s.throttled = true → Runs .throttleAssert s (fun t => t = s)) ∧
    Runs .throttleDeassert s (fun t => t.throttled = false ∧ ∀ r < 29, t.cur r = s.cur r) ∧
    (s.throttled = true → s.time.stuckSaid = false → s.time.throttleSince + 10000000000 ≤ s.refNs →
      Runs .throttleStuck s (fun t => t.fbit F.PCR_THROTTLE_STUCK = true ∧ t.time.stuckSaid = true ∧ Raises s t 0x0108 1)) ∧
    Runs .thermalGuardTick s (fun t => ∀ r < 29,
      (t.region r).want = (s.region r).want ∧
      (s.temp r = none → (t.region r).cap = (s.region r).cap) ∧
      ∀ d, s.temp r = some d →
        (d < 1632 → (t.region r).cap = none) ∧
        (1632 ≤ d → d < 1680 → (s.region r).cap = none → (t.region r).cap = none) ∧
        (1632 ≤ d → 1680 ≤ d ∨ (s.region r).cap ≠ none → (t.region r).cap = some (s.guardTarget r - 1)))

/-- Station time and its sources (R35 to R44, R239). The rate after a measurement is a free value (log entry 16), and
the states of a parent source are the model's reading (log entry 15). -/
def Obligations.TimeCompletes : Prop :=
  ∀ s : State,
    (∀ (src : Source) (ns : Word), s.enabled pcrBase = true →
      (s.mayJump = true → Runs (.stimeSet src ns) s (fun t =>
        t.time.now = ns.toNat * 2 ^ 32 ∧ t = { s with time := t.time })) ∧
      (s.mayJump = false → Runs (.stimeSet src ns) s (fun t => t.time.now = s.time.now ∧
        t.time.phaseErr = (ns.toNat * 2 ^ 32 : Nat) - (s.time.now : Int) ∧ t.fbit F.PCR_TIME_STATUS_STEP_REFUSED = true ∧
        ∃ e, t.err.flight = s.err.flight ++ [e] ∧ e.code = 0x0109))) ∧
    (∀ src : Source, Runs (.stimeNsRead src) s (fun t =>
      t.out = s.out ++ [.answer (0x10000 + srcNum src) 0 (s.nowNs % 2 ^ 64)] ∧
      t.fget F.PCR_STIME_FRAC_FRAC = s.time.now / 2 ^ 24 % 256)) ∧
    (s.fbit F.PCR_TIME_STATUS_REF_PRESENT = true → Runs .refclkLost s (fun t => t.time = { s.time with refLost := true } ∧
      t.fget F.PCR_TIME_STATUS_STATE = 3 ∧ t.fbit F.PCR_TIME_STATUS_REF_PRESENT = false ∧ t.fbit F.PCR_TIME_STATUS_REF_LOST = true ∧
      Raises s t 0x0105 1 ∧ ∀ p < 32, t.portSt p = if s.portSt p = 0 then 0 else 7)) ∧
    (s.fbit F.PCR_TIME_STATUS_REF_PRESENT = false → Runs .refclkLost s (fun t => t = s)) ∧
    (s.time.refLost = true → Runs .refclkRestored s (fun t => t.time.refLost = false ∧ t.time.hubReq = none ∧
      t.time.now = s.time.now ∧ t.fbit F.PCR_TIME_STATUS_REF_PRESENT = true ∧
      t.timeState = (if s.source = 1 ∨ s.source = 2 then 1 else 0) ∧ (∀ q, q ≠ 28 → t.region q = s.region q) ∧
      (s.time.hubReq = none → t.region 28 = s.region 28) ∧
      ∀ req, s.time.hubReq = some req →
        let ns := (neighbours 28).map (fun q => (s.region q).want)
        let lo := maxOf 0 ns - 3
        let hi := minOf 15 ns + 3
        (t.region 28).want = if req < lo then lo else if hi < req then hi else req)) ∧
    (∀ highNs, highNs < 100 ∨ s.source ≠ 1 → exec (.ppsPulse highNs) s = .next s) ∧
    (∀ highNs, 100 ≤ highNs → s.source = 1 → s.enabled pcrBase = true → s.timeState = 2 →
      let k := s.fget F.PCR_PPS_SECONDS_SECONDS
      s.nearSecond k = true → Runs (.ppsPulse highNs) s (fun t => t.fget F.PCR_PPS_SECONDS_SECONDS = (k + 1) % 2 ^ 64 ∧
        t.timeState = 2 ∧ t.time.now = s.time.now ∧ t.time.phaseErr = (k * secUnits : Nat) - (s.time.now : Int) ∧
        t.time.lastAccepted = s.nowNs ∧ t.time.rejects = 0)) ∧
    (s.source = 1 → s.timeState = 2 → s.time.lastAccepted + 1500000000 ≤ s.nowNs ∨ 4 ≤ s.time.rejects →
      Runs .ppsFault s (fun t => t.timeState = 4 ∧ t.fbit F.PCR_TIME_STATUS_PPS_FAULT = true ∧ t.time.now = s.time.now ∧
        ∃ e, t.err.flight = s.err.flight ++ [e] ∧ e.code = 0x0106)) ∧
    (s.timeState = 4 → s.fget F.PCR_PPS_SECONDS_SECONDS * secUnits ≤ s.time.now →
      Runs .ppsExpectedSecond s (fun t =>
        t.fget F.PCR_PPS_SECONDS_SECONDS = (s.fget F.PCR_PPS_SECONDS_SECONDS + 1) % 2 ^ 64 ∧ t = { s with regs := t.regs })) ∧
    Runs .localTimeSync s (fun t => (∀ r < 29, if s.time.now < (s.region r).loc
      then t.region r = { (s.region r).calibrate s.time.edges with locHold := true }
      else t.region r = { (s.region r).calibrate s.time.edges with loc := s.time.now, locHold := false }) ∧ t = { s with regions := t.regions }) ∧
    (∀ p : PortId,
      let l := s.link p
      (s.portSt p = 5 → l.exAt + 1000000 ≤ s.refNs → Runs (.timeExchangeStart p) s (fun t =>
        OnlyLink p s t ∧ (t.link p).ex = some ⟨l.exNext, none, none, none⟩ ∧ (t.link p).exAt = s.refNs ∧ (t.link p).exNext = (l.exNext + 1) % 256 ∧
        (t.link p).byq = l.byq ++ [bypassMsg 1 (l.exNext * 2 ^ 112)])) ∧
      (∀ m u, s.takeStored p 1 = some (m, u) → Runs (.timeReq p) s (fun t =>
        OnlyLink p s t ∧ (t.link p).rsp = some (bits m.1.toNat 119 112, m.2) ∧ (t.link p).store = l.store.erase m)) ∧
      (∀ m u x, s.takeStored p 2 = some (m, u) → l.ex = some x → x.id = bits m.1.toNat 119 112 → Runs (.timeRsp p) s (fun t =>
        OnlyLink p s t ∧ (t.link p).ex = some { x with t4 := some m.2 } ∧ (t.link p).store = l.store.erase m)) ∧
      (∀ x sent, l.ex = some x → x.at_ = some sent → sent + 100000 ≤ s.refNs → Runs (.timeExchangeAbandon p) s (fun t =>
        OnlyLink p s t ∧ (t.link p).ex = none)) ∧
      (∀ m u x t1 t4, s.takeStored p 3 = some (m, u) → l.ex = some x → x.id = bits m.1.toNat 119 112 → x.t1 = some t1 →
        x.t4 = some t4 → s.source ≠ 2 →
        let w := m.1.toNat
        let up := signed 72 (bits w 111 40 + 2 ^ 72 - t1)
        let down := signed 72 (t4 + 2 ^ 73 - bits w 111 40 - bits w 39 8)
        Runs (.timeFollow p) s (fun t => (t.link p).ex = none ∧
          t.fget (F.PCR_PORT_TIME_DELAY p) = unsigned 32 ((up + down) / 2) ∧
          t.fget (F.PCR_PORT_TIME_OFFSET p) =
            unsigned 32 ((up - down) / 2 - signed 16 (s.fget (F.PCR_PORT_ASYM_ASYM p)) * 256 / 1000) ∧
          t = { s with links := t.links, regs := t.regs } ∧ ∀ n, n ≠ p → t.link n = s.link n)))

/-- Skew and holds (R23 to R31). Which cause is the first after HOLD_TIMEOUT is the model's reading (log entry 18). -/
def Obligations.HoldsComplete : Prop :=
  ∀ (r : RegionId) (s : State),
    let g := s.region r
    (g.skew = true → g.held = false → s.mayBegin r = true → Runs (.skewWaitRelease r) s (fun t =>
      (t.region r).skew = false ∧ (t.region r).phase = 0 ∧ (t.region r).periods = g.periods + 1 ∧ t.beat r = s.beat r)) ∧
    (s.mayBegin r = false → Runs (.skewWaitRelease r) s (fun t => t = s)) ∧
    (∀ nb : RegionId, (neighbours r).contains nb.val = true → s.held nb = false → g.heldOwn = false →
      g.causes.any (fun d => d.code = 1 && d.what = nb.val && d.eng = 0) = false →
      Runs (.handshakeLate r nb) s (fun t => (t.region r).heldOwn = true ∧
        (t.region r).causes = [⟨1, none, nb.val, 0, 0, g.periods, g.loc⟩] ∧
        (t.region r).first = some ⟨1, none, nb.val, 0, 0, g.periods, g.loc⟩ ∧
        t.fget (F.PCR_HOLD_LAST_CAUSE r) = 1 ∧ t.fbit (F.PCR_HOLD_HELD r) = true ∧ ∀ q, q ≠ r → t.region q = s.region q)) ∧
    Runs (.holdSpread r) s (fun t =>
      (∀ o, o ∈ (t.region r).origins ↔ o ∈ g.origins ∧ g.origins = s.reaching r ∨ g.origins ≠ s.reaching r ∧ o < 29 ∧ o ≠ r ∧
        ∃ q ∈ neighbours r, steps o q < steps o r ∧
          (if q = o then (s.region q).heldOwn = true else o ∈ (s.region q).origins)) ∧
      (g.origins = s.reaching r → t = s) ∧
      (g.origins ≠ s.reaching r → (t.region r).periods = g.periods + 1 ∧ (t.region r).phase = 0)) ∧
    (g.heldOwn = false → Runs (.holdRelease r) s (fun t => t = s)) ∧
    (g.heldOwn = true → (∀ c ∈ g.causes, s.causeOver r c = true ∨ c.code = 1) → Runs (.holdRelease r) s (fun t =>
      (∀ c ∈ (t.region r).causes, c.code = 5 ∨ c.code = 8) ∧ (t.region r).periods = g.periods + 1)) ∧
    (g.heldOwn = true → (∃ c ∈ g.causes, s.causeOver r c = false ∧ c.code ≠ 1) → Runs (.holdRelease r) s (fun t =>
      (t.region r).causes = g.causes.filter (fun c => c.code ≠ 1 && !s.causeOver r c) ∧ (t.region r).heldOwn = true ∧
      (t.region r).first = g.first ∧ ∀ q, q ≠ r → t.region q = s.region q)) ∧
    (∀ c, g.first = some c → g.heldOwn = true →
      c.since + s.fget F.PCR_STALL_TIMEOUT_LIMIT_US * 1000 * 2 ^ 32 ≤ g.loc →
      (c.code = 1 → s.err.fatal = false → Runs (.holdTimeout r) s (fun t => t.err.fatal = true ∧ Raises s t 0x0104 3)) ∧
      (c.code = 1 → s.err.fatal = true → Runs (.holdTimeout r) s (fun t => t = s)) ∧
      (c.code ≠ 1 → Runs (.holdTimeout r) s (fun t => Raises s t 0x0102 2 ∧ (t.region r).first = (t.region r).causes.head? ∧
        ∀ j < 8, c.job = some j → (s.job j).live = true → (t.job j).phase = .halted)))

/-! ### Yokes -/

/-- The yoke's own rows (R334, R342 to R352). The notices of ABANDON and the places inside YOKE_HB are the model's (log
entries 62 and 63). -/
def Obligations.YokeStateCompletes : Prop :=
  ∀ s : State,
    (s.enabled (Blk.base .yok 0) = false → s.fbit F.YOK_CFG_ENABLE = false → Runs .yokeEnable s (fun t =>
      t.fbit F.YOK_CFG_ENABLE = true ∧ t.yokState = 1 ∧ t.yok = { s.yok with enabledAt := s.refNs, formRaised := false } ∧
      t = { s with regs := t.regs, yok := t.yok })) ∧
    (s.enabled (Blk.base .yok 0) = true → Runs .yokeEnable s (fun t =>
      t.fget (F.BLK_STATUS_WRITE_IGNORED (Blk.base .yok 0)) = 1 ∧
      t.fget (F.BLK_COUNT_IGNORED (Blk.base .yok 0)) = min 0xFFFF (s.fget (F.BLK_COUNT_IGNORED (Blk.base .yok 0)) + 1) ∧
      t = { s with regs := t.regs })) ∧
    (s.yokState = 1 → s.yokeMayForm = true → Runs .yokeFormed s (fun t => t.yokState = 2 ∧ t = { s with regs := t.regs })) ∧
    (s.yokeMayForm = false → exec .yokeFormed s = .next s) ∧
    (s.yokState = 1 → s.yokeMayForm = false → s.yok.formRaised = false → s.yok.enabledAt + 100000000 ≤ s.refNs →
      Runs .yokeFormTimeout s (fun t => t.yok = { s.yok with formRaised := true } ∧
        ∃ e, t.err.flight = s.err.flight ++ [e] ∧ e.code = 0x0803)) ∧
    (s.fbit F.YOK_CFG_ENABLE = true → s.nowNs / 1000000 ≠ s.yok.lastPulse → Runs .heartbeatSend s (fun t =>
      t.out = s.out ++ [.pin 2 true, .pin 2 false] ∧ t.yok = { s.yok with lastPulse := s.nowNs / 1000000 } ∧
      (s.portSt s.yokPort = 5 → (t.link s.yokPort).byq.length = (s.link s.yokPort).byq.length + 1) ∧
      (s.portSt s.yokPort ≠ 5 → t.links = s.links) ∧ t = { s with out := t.out, yok := t.yok, links := t.links })) ∧
    (∀ (p : PortId) m u, s.takeStored p 4 = some (m, u) → s.fbit F.YOK_CFG_ENABLE = true → p.val = s.yokPort →
      Runs (.yokeHb p) s (fun t => t.yok.partnerPrim = some (bit m.1.toNat 119) ∧ t.yok.linkHb = some s.refNs ∧
        t.fbit F.YOK_STATE_LINK_HB = true ∧ OnlyLink p s u ∧ t = { u with regs := t.regs, yok := t.yok })) ∧
    (∀ highNs, s.fbit F.YOK_CFG_ENABLE = true →
      (50000 ≤ highNs → highNs ≤ 200000 → Runs (.yokeHbInPulse highNs) s (fun t => t.yok.pinHb = some s.refNs ∧
        t.fbit F.YOK_STATE_PIN_HB = true ∧ t = { s with regs := t.regs, yok := t.yok })) ∧
      (highNs < 50000 ∨ 200000 < highNs → exec (.yokeHbInPulse highNs) s = .next s)) ∧
    (s.fbit F.YOK_CFG_ENABLE = true → s.fbit F.YOK_STATE_PIN_HB = true → s.yok.pinHb.getD 0 + s.lossNs ≤ s.refNs →
      let u := (s.fset F.YOK_STATE_PIN_HB 0).raise { code := 0x0804, blk := 28 }
      (s.fbit F.YOK_STATE_LINK_HB = true → exec (.hbPathTimeout true) s = .next u) ∧
      (s.fbit F.YOK_STATE_LINK_HB = false → s.yokState = 2 → exec (.hbPathTimeout true) s = .next u.partnerLost)) ∧
    (s.fbit F.YOK_CFG_ENABLE = true → s.fbit F.YOK_STATE_LINK_HB = true → s.yok.linkHb.getD 0 + s.lossNs ≤ s.refNs →
      s.fbit F.YOK_STATE_PIN_HB = true →
      exec (.hbPathTimeout false) s = .next ((s.fset F.YOK_STATE_LINK_HB 0).raise { code := 0x0804, blk := 28 })) ∧
    (∀ at_, s.yok.downSince = some at_ → s.yokState = 2 → s.fbit F.YOK_STATE_PIN_HB = true → at_ + s.lossNs ≤ s.refNs →
      s.yokedJobs = [] → Runs .yokeCut s (fun t => t.yokState = 4)) ∧
    (∀ at_, s.yok.downSince = some at_ → s.yokState = 2 → s.fbit F.YOK_STATE_PIN_HB = true → at_ + s.lossNs ≤ s.refNs →
      s.fbit F.YOK_CFG_PRIMARY = true →
      exec .yokeCut s = .next (s.yokedJobs.foldl (fun s j => if s.jobYoke j = 1 then s.goSolo j else s.abandon j)
        ((s.setYokState 4).raise { code := 0x0806, blk := 28 }))) ∧
    (∀ at_, s.yok.downSince = some at_ → s.yokState = 2 → s.fbit F.YOK_STATE_PIN_HB = true → at_ + s.lossNs ≤ s.refNs →
      s.fbit F.YOK_CFG_PRIMARY = false →
      exec .yokeCut s = .next (s.yokedJobs.foldl (fun s j => s.hubErr j 0x0809 0) (s.setYokState 4))) ∧
    (∀ j : JobId,
      (s.isHead j = true → s.yoked j = true → (s.job j).live = true →
        exec (.drop j) s = .next (s.hubErr j 0x0809 0) ∧
        (s.jobYoke j = 3 ∨ s.jobYoke j = 1 ∨ (s.yokJob j).mismatch ≠ none → Runs (.keep j) s (fun t =>
          t.jobYoke j = 2 ∧ (t.yokJob j).mismatch = none ∧ ((s.srvJob j).reason = 5 → (t.srvJob j).reason = 0)))) ∧
      (s.isHead j = false → exec (.drop j) s = .next s ∧ exec (.keep j) s = .next s) ∧
      (s.yoked j = true → (s.job j).live = true → s.jobYoke j = 2 → s.fget (F.SEC_JOB_STATE_GEN j) ≠ 4095 →
        Runs (.reyoke j) s (fun t => t.jobYoke j = 4 ∧ t.fget F.YOK_REYOKE_PASSES = 0 ∧
          (t.yokJob j).todo = s.copyGranules j (fun _ _ => true) ∧ (t.yokJob j).copied = [] ∧
          t = { s with regs := t.regs, yok := t.yok })) ∧
      (s.jobYoke j = 4 ∨ s.jobYoke j = 5 →
        Runs (.abandon j) s (fun t => t.jobYoke j = 2 ∧ (t.yokJob j).todo = [] ∧ (t.yokJob j).cut = none ∧
          ((s.srvJob j).reason = 6 → (t.srvJob j).reason = 0) ∧
          t = (s.sendControl j .yoke 0x1C (leBytes 2 0x080B)).abandon j) ∧
        ((s.job j).live = true → s.yokState = 3 ∨ s.yokState = 4 → Runs (.reyokeAbandoned j) s (fun t =>
          t.jobYoke j = 2 ∧ (t.yokJob j).todo = [] ∧ (t.yokJob j).cut = none ∧ t = s.abandon j))))

/-- The packets and rows of a yoked job (R336 to R352). Two phases of YOKE_READY and the order of serving are the
model's (log entries 62, 64 and 67). -/
def Obligations.YokeJobsComplete : Prop :=
  ∀ s : State,
    (∀ j : JobId,
      let n := (s.yokJob j).read
      let u := s.updYok j (fun y => { y with read := n + 1 })
      (s.yoked j = true → (s.job j).live = true → n < (s.srvJob j).deliver → s.baseOf j (n + 1) ≤ s.jobBeat j →
        (s.readDigests j n = none → exec (.digestRead j) s = .next (u.hubErr j 0x0802 0)) ∧
        (∀ ds, s.readDigests j n = some ds →
          let v := u.updYok j (fun y => { y with own := Tab.set (fun _ => none) y.own n (some ds) })
          (s.jobYoke j = 1 ∨ s.jobYoke j = 3 ∧ s.yokState = 2 → exec (.digestRead j) s = .next ((v.sendDigests j n ds).confirm j)) ∧
          (s.jobYoke j ≠ 1 → s.jobYoke j ≠ 3 ∨ s.yokState ≠ 2 → exec (.digestRead j) s = .next (v.confirm j)))) ∧
      ((s.job j).live = true → s.jobYoke j = 4 → ((State.copyOn j 8192 s).yokJob j).todo ≠ [] →
        exec (.precopyPassEnd j) s = .next (State.copyOn j 8192 s)) ∧
      (s.jobYoke j ≠ 4 → s.jobYoke j ≠ 5 → exec (.precopyPassEnd j) s = .next s)) ∧
    (∀ (good : Bool) (r : LoftReq) rest, s.yok.reqs = r :: rest →
      (s.reqWaits r = true → exec (.loftReqDeferredServe good) s = .next s) ∧
      (s.reqWaits r = false →
        exec (.loftReqDeferredServe good) s = .next ((s.updYoke (fun y => { y with reqs := rest })).serveReq r good))) ∧
    (∀ (p : PortId) (j : Nat) (r : RPkt),
      let ls := (s.openRx p j r).1
      let h := r.pkt.head
      (DeliversCtl s p j 0x18 r →
        (s.yokJob j).conf ≤ ctlNat ls 8 8 → ctlNat ls 8 8 < (s.yokJob j).read + 31 →
        let store (t : Tab (Option Nat)) (i : Nat) := if ctlByte ls 2 + i < 64
          then Tab.set (fun _ => none) t (64 * ctlNat ls 8 8 + ctlByte ls 2 + i) (some (ctlNat ls (16 + 8 * i) 8)) else t
        exec (.digest p) s = .next (Accepted s p 2 j r (fun u => (u.updYok j (fun y =>
          { y with got := (List.range (min 6 (ctlByte ls 1))).foldl store y.got })).confirm j))) ∧
      (DeliversCtl s p j 0x18 r → (s.yokJob j).read + 31 ≤ ctlNat ls 8 8 →
        exec (.digest p) s = .next (Accepted s p 2 j r (fun u => u.fsat F.YOK_COUNT_DISCARDED 1))) ∧
      (DeliversCtl s p j 0x1E r → s.isHead j = true → exec (.mismatchNote p) s = .next (Accepted s p 2 j r (fun u =>
        u.updYok j (fun y => { y with mismatch := some (ctlNat ls 8 8) })))) ∧
      (DeliversCtl s p j 0x19 r → ∀ good : Bool,
        let q : LoftReq := ⟨j, ctlByte ls 1, ctlNat ls 4 4 / 256 * 256, ctlNat ls 8 8⟩
        (s.yok.reqs = [] → s.reqWaits q = false →
          exec (.loftReq p good) s = .next (Accepted s p 2 j r (fun u => u.serveReq q good))) ∧
        (s.yok.reqs ≠ [] ∨ s.reqWaits q = true → exec (.loftReq p good) s = .next (Accepted s p 2 j r (fun u =>
          u.updYoke (fun y => { y with reqs := y.reqs ++ [q] }))))) ∧
      (DeliversCtl s p j 0x1A r → ∀ n f, s.failAt (ctlByte ls 1 * 0x80000000 + ctlNat ls 4 4) = some (n, f) →
        f.stage = .partner → exec (.loftNak p) s = .next (Accepted s p 2 j r (fun u => u.askHost n f))) ∧
      (DeliversCtl s p j 0x1C r →
        (s.jobYoke j = 6 → ctlNat ls 1 2 = 0x080B → exec (.yokeHalt p) s = .next (Accepted s p 2 j r (fun u => u.abandon j))) ∧
        (s.jobYoke j = 6 → ctlNat ls 1 2 ≠ 0x080B →
          exec (.yokeHalt p) s = .next (Accepted s p 2 j r (fun u => (u.hubErr j 0x0807 0).abandon j))) ∧
        (s.jobYoke j = 1 → exec (.yokeHalt p) s = .next (Accepted s p 2 j r (fun u => (u.hubErr j 0x0807 0).goSolo j)))) ∧
      (DeliversCtl s p j 0x1B r → s.portBusy p = false →
        let bs (u : State) := ((List.range ((ctlNat ls 20 4 + 63) / 64)).flatMap (fun i =>
          u.hubGet (u.fget (F.YOK_JOB_AREA_JOURNAL j) * 4096 + (ctlNat ls 16 4 + 64 * i) % 1048576) 64)).take (ctlNat ls 20 4)
        exec (.journal p) s = .next (Accepted s p 2 j r (fun u => match itemsOf (ctlNat ls 20 4) (bs u) with
          | none => u.hubErr j 0x080A 0
          | some is_ => u.updYok j (fun y => { y with journal := y.journal ++ [(ctlNat ls 8 8, is_)] })))) ∧
      (DeliversCtl s p j 0x1F r → s.isHead j = true → ctlByte ls 1 = 0 → exec (.yokeReady p) s = .next (Accepted s p 2 j r
        (fun u => u.updYok j (fun y => { y with ready0 := y.ready0 ++ [h.src] })))) ∧
      (DeliversCtl s p j 0x1F r → s.isHead j = true → ctlByte ls 1 = 1 → exec (.yokeReady p) s = .next (Accepted s p 2 j r
        (fun u => (u.updYok j (fun y => { y with ready1 := y.ready1 ++ [h.src] })).forkCheck j))) ∧
      (DeliversCtl s p j 0x14 r → s.isHead j = true → s.jobYoke j = 5 → ∃ f : State → State,
        exec (.forkReady p) s = .next (Accepted s p 2 j r f) ∧ ∀ u, ((f u).yokJob j).ready1 = [] ∧
          ((u.srvJob j).reason = 6 → u.isHead j = true → u.jobYoke j = 5 → ((f u).srvJob j).reason = 0)) ∧
      (DeliversCtl s p j 0x1D r → s.jobYoke j = 6 → ∀ sections : List Byte, ∃ f : State → State,
        exec (.reyokeEnd p sections) s = .next (Accepted s p 2 j r (fun u => ((f u).yokeReady j 1).forkCheck j)) ∧
        ∀ u, ((f u).infoOf j).beat = ctlNat ls 8 8 ∧ ((f u).job j).launchPending = true ∧ ((f u).srvJob j).dbase = ctlNat ls 8 8))

/-! ### Host ports, loading, deployment and teardown -/

/-- The host ports (R355 to R378). Corner cases of COPY, of vectors and of a port's return are the model's readings (log
entries 80, 83 and 85). -/
def Obligations.HostPortsComplete : Prop :=
  ∀ (p : HostPort) (s : State),
    let h := s.hst p
    (∀ (width speed : Fin 4) (flit vfs : Bool), h.perst = false → s.powered = true →
      Runs (.hostLinkUp p width speed flit vfs) s (fun t => (t.hst p).up = true ∧ (t.hst p).vfOn = vfs ∧
        t.fget (F.HST_PORT_STATE_WIDTH p) = width.val ∧ t.fget (F.HST_PORT_STATE_SPEED p) = speed.val ∧
        ((t.hst p).absent = false ↔ h.absent = false ∨ h.waiting = []) ∧ (∀ q, q ≠ p.val → t.hst q = s.hst q) ∧
        t = { s with host := t.host, regs := t.regs })) ∧
    (∀ (width speed : Fin 4) (flit vfs : Bool), h.perst = true → exec (.hostLinkUp p width speed flit vfs) s = .next s) ∧
    (h.up = true → exec (.hostLinkDown p) s = .next (s.linkGone p)) ∧
    (h.up = true → s.copies.all (fun c => c.port ≠ p.val) = true → Runs (.hostLinkDown p) s (fun t =>
      (t.hst p).up = false ∧ (t.hst p).absent = true ∧ (t.hst p).waiting = s.ownedBy p ∧ (t.hst p).fresh = true ∧
      t.fget (F.HST_PORT_STATE_WIDTH p) = 0 ∧ t.jobs = s.jobs ∧ ∀ q, q ≠ p.val → t.hst q = s.hst q)) ∧
    Runs (.perstAssert p) s (fun t => (t.hst p).perst = true ∧ (t.hst p).up = false ∧ (t.hst p).ideSecure = false ∧
      (t.hst p).masked = [] ∧ (t.hst p).fresh = true ∧ t.reg (R.HST_DEVRING_BASE p) = 0 ∧ t.jobs = s.jobs ∧
      t.rings = s.rings ∧ t.stalls = s.stalls) ∧
    Runs (.perstDeassert p) s (fun t => t.hst p = { h with perst := false } ∧ (∀ q, q ≠ p.val → t.hst q = s.hst q) ∧
      t = { s with host := t.host }) ∧
    (h.ideSecure = true → Runs (.ideFault p) s (fun t => (t.hst p).ideSecure = false ∧ (t.hst p).absent = true ∧
      ∀ q, q ≠ p.val → t.hst q = s.hst q)) ∧
    (h.ideSecure = false → exec (.ideFault p) s = .next s) ∧
    (∀ stream : Fin 5, s.canRead p = true → s.inSession p = true → Runs (.ideKm p stream) s (fun t =>
      (t.hst p).ideSecure = true ∧ stream.val ∈ (t.hst p).ideKeys ∧ t.fbit (F.HST_PORT_STATE_IDE_SECURE p) = true ∧
      ∀ q, q ≠ p.val → t.hst q = s.hst q)) ∧
    (∀ host : List HostPiece, s.pollsDevice p = false → exec (.deviceRingPoll p host) s = .next s) ∧
    (∀ host : List HostPiece, s.pollsDevice p = true → h.fresh = false → ∀ v u,
      s.hindex p host (s.reg (R.HST_DEVRING_HDR p) + 192) = (some v, u) →
      let w := (u.updHst p (fun h => { h with devDone := nearIdx h.devDone v })).flushDev p
      exec (.deviceRingPoll p host) s = .next ((w.latchDev p host).1.foldl
        (fun s b => s.devCommand host ⟨p, field b 0 4, b⟩) (w.latchDev p host).2)) ∧
    (∀ i at_, h.stall = some (i, at_) → h.stallSaid = false → at_ + 1000000 ≤ s.refNs →
      Runs (.ringStallTimeout p none) s (fun t => (t.hst p).stallSaid = true ∧
        (∃ e, t.err.flight = s.err.flight ++ [e] ∧ e.code = 0x0902))) ∧
    (∀ (n : Fin 65536) (host : List HostPiece) (c : CopyCmd), s.copies[n.val]? = some c → s.copyWaits n c = false →
      (c.in_ = true → s.touchesWeight c.addr c.len = true → exec (.copyComplete n host) s = .next (s.endCopy 10 c)) ∧
      (c.in_ = true → s.touchesWeight c.addr c.len = false → ∀ bs u, s.hread c.port host c.host c.len = (some bs, u) →
        ∃ v : State, (v = (match ((cutLines (c.len / 64) c.addr bs).foldl (fun s x => s.hostStore c.job x.1 c.epoch x.2) u).copyKey
              c.job c.addr c.sel with
            | some (some key) => ((cutLines (c.len / 64) c.addr bs).foldl (fun s x => s.hostStore c.job x.1 c.epoch x.2) u).signal key c.inc
            | _ => (cutLines (c.len / 64) c.addr bs).foldl (fun s x => s.hostStore c.job x.1 c.epoch x.2) u)) ∧
          exec (.copyComplete n host) s = .next (v.endCopy 0 c)) ∧
      (c.in_ = true → s.touchesWeight c.addr c.len = false → ∀ u, s.hread c.port host c.host c.len = (none, u) →
        exec (.copyComplete n host) s = .next (u.endCopy 11 c)) ∧
      (c.in_ = false → ∃ v : State, v = (s.offBanks c.job c.addr c.len).hostWrite c.port c.host (s.hubGet c.addr c.len) ∧
        exec (.copyComplete n host) s = .next ({ v with copies := v.copies.erase c }.devRec c.port
          ⟨c.tag, c.seq, 0x25, 0, c.job, 0, s.poisonedLines c.addr c.len⟩))) ∧
    (∀ (addr : Fin 68719476736) (len : Fin 4097) (ide : Bool), s.canRead p = true →
      (s.fbit (F.HST_PORT_CFG_IDE_REQUIRED p) = true → ide = true) →
      (s.barOk p addr len false = true → exec (.bar2Access p addr none len ide) s =
        .next ((s.barOff addr len).send (.answer p (if (s.barRead addr len).2 then 2 else 0) (s.barRead addr len).1))) ∧
      (∀ bs : List Byte, s.barOk p addr bs.length true = true →
        exec (.bar2Access p addr (some bs) len ide) s = .next (s.barWrite addr bs)) ∧
      (s.barOk p addr len false = false → exec (.bar2Access p addr none len ide) s =
        .next (((s.fsat (F.HST_ERRCNT_BAR_DENIED p) 1).hstErr p 0x0904).send (.answer p 1 0)))) ∧
    (∀ (fn : Fin 9) (vec : Fin 16),
      let k := 16 * fn.val + vec.val
      (h.pend.contains k = true → Tab.get zeroNat h.fired k = 0 →
        Runs (.msiXFire p fn vec false) s (fun t => t.out = s.out ++ [.msix p fn vec] ∧ ¬ k ∈ (t.hst p).pend ∧
          ¬ k ∈ (t.hst p).masked ∧ ∀ q, q ≠ p.val → t.hst q = s.hst q)) ∧
      (h.due.contains k = false → Runs (.msiXFire p fn vec true) s (fun t => k ∈ (t.hst p).masked ∧ t.out = s.out ∧
        (t.hst p).pend = h.pend ∧ ∀ q, q ≠ p.val → t.hst q = s.hst q)))

/-- Loading, deploying and tearing down (R94, R291 to R298, R392 to R405). The order of checks and the phases of a
teardown between its rows are the model's readings (log entries 86 to 89). -/
def Obligations.LoadAndTeardownComplete : Prop :=
  ∀ s : State,
    (∀ (j : JobId) (host : List HostPiece) (g b : Bool),
      ((s.job j).phase ≠ .loading → exec (.loadDone j host g b) s = .next s) ∧
      ((s.job j).phase = .loading → ∀ u,
        s.hread (s.loadRec j).port host (s.loadRec j).img (s.loadRec j).imgLen = (none, u) →
        exec (.loadDone j host g b) s = .next (u.loadReadFails j)) ∧
      ((s.job j).phase = .loading → ∀ img u p v,
        s.hread (s.loadRec j).port host (s.loadRec j).img (s.loadRec j).imgLen = (some img, u) →
        u.hread (s.loadRec j).port host (s.loadRec j).params (prmLength (s.imageBody img)) = (some p, v) →
        (field p 3 1 ≠ 0 → exec (.loadDone j host g b) s = .next (v.loadBadRecord j)) ∧
        (field p 3 1 = 0 → field p 58 6 = 0 →
          (∀ code r, v.loadChecks j (s.loadRec j) img p g b = .inl (code, r) → code ≠ 8 →
            exec (.loadDone j host g b) s = .next (v.loadFails j code r)) ∧
          (∀ m, v.loadChecks j (s.loadRec j) img p g b = .inr m →
            exec (.loadDone j host g b) s = .next (v.loadResume j host (s.loadRec j) m p (shake (s.imageBody img))))))) ∧
    (∀ (n : Fin 4096) (host : List HostPiece) q b x, s.sec.loads[n.val]? = some q →
      (s.secJob q.job).bale q.kind q.slot = some b → b.shards[q.shard]? = some x →
      let r := State.loadGranules q.port host b x x.count 0 [] { s with sec := { s.sec with loads := s.sec.loads.eraseIdx n.val } }
      let code := if r.1.1 ≠ 0 then r.1.1 else if shake r.1.2 = x.hash then 0 else 10
      Runs (.shardVerified n host) s (fun t => t = r.2.shardEnds q code ∧ ∃ c y, (t.secJob q.job).bale q.kind q.slot = some c ∧
        c.shards[q.shard]? = some y ∧ y.st = (if code = 0 then 2 else 0))) ∧
    (∀ j : JobId,
      (∀ b, (s.secJob j).dep = some b → s.isHead j = true → (s.secJob j).commitSent = false → (s.job j).phase ≠ .free →
        s.peerCount j ≤ (s.ctr (keyGate (s.gateG j))).val →
        ((∀ i < (s.infoOf j).ranks.length, field (s.hubGet (s.areaOf j + 0x8000 + 64 * i) 64) 16 32 = b.mhash) →
          Runs (.commit j) s (fun t => (t.secJob j).commitSent = true ∧
            t = (s.updSec j (fun c => { c with commitSent := true })).hubSendAll j (s.areaOf j) 0 (s.gateG j + 1) 1 true
              (pad 64 (leBytes 8 b.dep ++ leBytes 8 (max (s.infoOf j).launch (s.nowNs + 1000 * s.fget F.SEC_CTRL_COMMIT_LEAD_US)) ++
                leBytes 32 b.mhash)))) ∧
        ((∃ i < (s.infoOf j).ranks.length, field (s.hubGet (s.areaOf j + 0x8000 + 64 * i) 64) 16 32 ≠ b.mhash) →
          Runs (.commit j) s (fun t => (t.secJob j).commitSent = true ∧ Raises s t 0x0A07 2 ∧
            t = (s.updSec j (fun c => { c with commitSent := true })).hubErr j 0x0A07 0))) ∧
      ((s.job j).phase ≠ .free → s.deployState j ≠ 3 → s.deployState j ≠ 5 → 1 ≤ (s.ctr (keyGate (s.gateG j + 1))).val →
        let line := s.hubGet (s.areaOf j) 64
        (∀ b, (s.secJob j).dep = some b → field line 0 8 = b.dep → field line 16 32 = b.mhash → s.deployState j = 2 →
          Runs (.commitReceived j) s (fun t => (t.infoOf j).launch = field line 8 8 ∧ t.deployState j = 3 ∧
            (t.job j).launchPending = ((s.job j).phase = .ready && !s.fbit (F.YOK_JOB_CFG_REJOIN j)))) ∧
        ((s.secJob j).dep = none ∨ s.deployState j ≠ 2 → exec (.commitReceived j) s =
          .next ((s.hubErr j 0x0A07 0).fset (F.SEC_JOB_STATE_DEPLOY j) 5))) ∧
      (∀ b, (s.secJob j).dep = some b → s.deployState j = 1 ∨ s.deployState j = 2 → b.since + s.deployLimit ≤ s.refNs →
        Runs (.deployTimeout j none) s (fun t => t.deployState j = 4 ∧ Raises s t 0x0A05 1 ∧
          t = (s.fset (F.SEC_JOB_STATE_DEPLOY j) 4).hubErr j 0x0A05 0)) ∧
      ((s.job j).live = true → (s.ctr (keyGate (s.gateG j + 2))).val ≠ 0 → (∀ i < 256, s.noticeAt j i = none) →
        exec (.adapterNotice j) s = .next s) ∧
      (∀ (i : Fin 256) n, (s.job j).live = true → (s.ctr (keyGate (s.gateG j + 2))).val ≠ 0 → s.noticeAt j i = some n →
        (∀ k < 256, k ≠ i.val → s.noticeAt j k = none) → (∀ x ∈ (s.secJob j).notices, x.1 ≠ i.val) →
        Runs (.adapterNotice j) s (fun t => ∃ u : State,
          u = s.updSec j (fun c => { c with notices := Tab.put i.val n c.notices }) ∧
          t = u.devNote (s.ring j).port 0x3E 0 j i (n.1 + n.2.1 * 2 ^ 32))) ∧
      ((s.job j).phase = .teardown → s.fget (F.SEC_JOB_STATE_TEARDOWN j) = 1 → s.jobSending j = false →
        Runs (.teardownRevoke j) s (fun t => (t.secJob j).kjob = none ∧ t.fget (F.SEC_JOB_STATE_KEY j) = 2 ∧
          t.fget (F.SEC_JOB_STATE_TEARDOWN j) = 2 ∧ (∀ x ∈ t.fab.outs, x.1 / 16384 ≠ j.val) ∧
          (∀ x ∈ t.fab.ins, x.1 / 16384 ≠ j.val) ∧ (∀ i ∈ t.fab.sealq, i.job ≠ j.val) ∧
          t = { s with fab := t.fab, sec := t.sec, regs := t.regs })) ∧
      ((s.job j).phase = .teardown → s.fget (F.SEC_JOB_STATE_TEARDOWN j) = 2 → s.jobArriving j = false →
        exec (.teardownDrainEnd j) s =
          .next ((s.job j).barns.foldl State.startClear (s.fset (F.SEC_JOB_STATE_TEARDOWN j) 4))) ∧
      ((s.job j).phase ≠ .teardown → exec (.teardownRevoke j) s = .next s ∧ exec (.teardownDrainEnd j) s = .next s ∧
        ∀ bad, exec (.teardownScrubDone j bad) s = .next s) ∧
      ((s.job j).phase = .teardown → s.fget (F.SEC_JOB_STATE_TEARDOWN j) = 4 →
        (∀ b ∈ (s.job j).barns, s.tck.cleared.contains b = true) →
        (s.err.fatal = false → exec (.teardownScrubDone j none) s = .next (s.freeContext j)) ∧
        (∀ b : Barn, s.ownsBarn j b = true → exec (.teardownScrubDone j (some b)) s =
          .next (((s.fset (F.SPD_CLEAR_STATE b) 4).updLoft b Loft.scrubbed).raise { code := 0x0A08, blk := b, job := some j.val })))) ∧
    (∀ b : Barn, s.fget (F.SPD_CLEAR_STATE b) = 1 →
      Runs (.barnClearDone b none) s (fun t => b.val ∈ t.tck.cleared ∧ (∀ k < 48, t.stall (48 * b.val + k) = {}) ∧
        (∀ i, i / 48 ≠ b.val → t.stall i = s.stall i) ∧ (s.fget F.TCK_STATE_STATE ≠ 1 → t.fget (F.SPD_CLEAR_STATE b) = 2)) ∧
      ∀ k : StallId, Runs (.barnClearDone b (some k)) s (fun t => t.fget (F.SPD_CLEAR_STATE b) = 4 ∧
        t.fbit (F.SPD_CLEAR_FAULT b) = true ∧ Raises s t 0x0210 3))

/-! ### Attestation and the signer table -/

/-- Attestation (R382 to R384). The message codes and the errors for an unknown slot and out of turn are the model's
(log entry 72). -/
def Obligations.AttestationAnswers : Prop :=
  ∀ (t : Fin 3) (req : List Byte) (s : State),
    let conn := Tab.get zeroNat s.sec.spdm t.val
    let err (c : Instr) (e : Nat) := Says c t req (spdmMsg 0x7F e 0 []) conn s
    (s.spdmUp t = false → ∀ c, IsSpdm t req c → exec c s = .next s) ∧
    (s.spdmUp t = true →
      Runs (.getVersion t req) s (fun u =>
        u.out = s.out ++ [.message (10 + t) (spdmMsg 0x04 0 0 (leBytes 1 0 ++ leBytes 1 1 ++ leBytes 2 0x1300))] ∧
        u.transcript t = req ++ spdmMsg 0x04 0 0 (leBytes 1 0 ++ leBytes 1 1 ++ leBytes 2 0x1300) ∧
        Tab.get zeroNat u.sec.spdm t.val = 0 ∧
        u = { s with sec := { s.sec with script := u.sec.script, spdm := u.sec.spdm }, out := u.out }) ∧
      Says (.getCapabilities t req) t req
        (spdmMsg 0x61 0 0 (leBytes 4 0 ++ leBytes 4 0x2D6 ++ leBytes 4 4096 ++ leBytes 4 4096)) conn s ∧
      Says (.negotiateAlgorithms t req true) t req (spdmMsg 0x63 0 0 (ascii "ML-DSA-65 SHAKE256 ML-KEM-1024")) conn s ∧
      err (.negotiateAlgorithms t req false) 1 ∧
      Says (.getDigests t req) t req
        (spdmMsg 0x01 0 3 (leBytes 32 (shake (Config.certChain 0)) ++ leBytes 32 (shake (Config.certChain 1)))) conn s ∧
      (let slot := field req 2 1 % 16
       let off := field req 4 2
       let c := Config.certChain slot
       let part := (c.drop off).take (field req 6 2)
       (slot < 2 → off ≤ c.length → Says (.getCertificate t req) t req (spdmMsg 0x02 slot 0
          (leBytes 2 part.length ++ leBytes 2 (c.length - off - part.length) ++ part)) conn s) ∧
       (2 ≤ slot ∨ c.length < off → err (.getCertificate t req) 1)) ∧
      (let slot := field req 2 1
       (slot < 2 → SaysSigned (.challenge t req) t req
          (spdmMsg 0x03 slot 3 (leBytes 32 (shake (Config.certChain slot)) ++ s.nonce.1 ++ leBytes 2 0)) conn s) ∧
       (2 ≤ slot → err (.challenge t req) 1)) ∧
      (let i := field req 3 1
       let is_ := if i = 255 then [1, 2, 3, 4, 5, 6, 7, 8, 9, 10, 11, 12, 13] else if i = 0 then [] else [i]
       let blocks := is_.flatMap s.block
       let m := spdmMsg 0x60 (if i = 0 then 13 else 0) 0
         (leBytes 1 is_.length ++ leBytes 3 blocks.length ++ blocks ++ s.nonce.1 ++ leBytes 2 0)
       (14 ≤ i ∧ i ≤ 254 → err (.getMeasurements t req) 1) ∧
       (¬ (14 ≤ i ∧ i ≤ 254) → bit (field req 2 1) 0 = true → SaysSigned (.getMeasurements t req) t req m conn s) ∧
       (¬ (14 ≤ i ∧ i ≤ 254) → bit (field req 2 1) 0 = false → Says (.getMeasurements t req) t req m conn s)) ∧
      SaysSigned (.keyExchange t req) t req (spdmMsg 0x64 0 0 (leBytes 4 0 ++ s.nonce.1 ++ s.nonce.2.nonce.1)) 1 s ∧
      (conn = 1 → Says (.finish t req) t req (spdmMsg 0x65 0 0 []) 2 s) ∧
      (conn ≠ 1 → err (.finish t req) 4) ∧
      (conn = 2 → Says (.endSession t req) t req (spdmMsg 0x6C 0 0 []) 0 s) ∧
      (conn ≠ 2 → err (.endSession t req) 4) ∧
      err (.spdmUnsupported t req) 7)

/-- The measurement blocks (R384). The order and widths inside a block are the model's (log entry 72). -/
def Obligations.MeasurementBlocks : Prop :=
  ∀ s : State,
    s.measure 1 = some (leBytes 32 Config.romDigest.toNat, false) ∧
    s.measure 2 = some (leBytes 32 (shake s.fwImage) ++ leBytes 4 (s.fget F.TCK_STATE_FW_VERSION), false) ∧
    s.measure 3 = some (leBytes 32 (shake s.libBytes) ++ leBytes 4 s.tck.libVer, false) ∧
    (∃ c, s.measure 4 = some (c, true) ∧ c.length = 224 ∧ field c 0 8 = (Config.gradeCode (s.stallCount 0)).toNat ∧
      ∀ b < 24, field c (8 + b) 1 = popCount 48 (s.goodMask b) ∧ field c (32 + 8 * b) 8 = s.goodMask b % 2 ^ 64) ∧
    s.measure 5 = some (leBytes 32 (shake (leBytes 8 (s.reg R.SEC_CTRL) ++
      (List.range 16).flatMap (fun e => leBytes 32 (s.signer e)) ++ leBytes 4 (s.fget F.SEC_SIGNER_ROLE_ROLES))), false) ∧
    (∀ j < 8, ∃ c, s.measure (6 + j) = some (c, true) ∧
      ((s.job j).phase = .free → ∀ x ∈ c, x = 0) ∧
      ((s.job j).phase ≠ .free → field c 0 2 = s.fjob j % 2 ^ 16 ∧ field c 2 8 = (s.infoOf j).deploy % 2 ^ 64 ∧
        field c 10 1 = s.fget (F.SEC_JOB_STATE_DEPLOY j) % 256)) ∧
    (∀ i c raw, i < 256 → s.measure i = some (c, raw) → c.length < 2 ^ 16 - 3 → ∃ pre, s.block i = pre ++ c ∧ pre.length = 7 ∧
      field pre 0 1 = i ∧ field pre 1 1 = 1 ∧ field pre 2 2 = c.length + 3 ∧ bit (field pre 4 1) 7 = raw ∧ field pre 5 2 = c.length)

/-- The signer table (R385). -/
def Obligations.SignerTableLocks : Prop :=
  ∀ (s : State) (src : Source) (addr : Fin 68719476736) (v : Word) (ok : Bool),
    Runs .signerLock s (fun t => t.sec = { s.sec with lock := true } ∧ t.fget F.SEC_CTRL_SIGNER_LOCK = 1 ∧
      t.fget F.SEC_SIGNER_ROLE_ROLES = s.fget F.SEC_SIGNER_ROLE_ROLES ∧ t = { s with sec := t.sec, regs := t.regs }) ∧
    (addr.val = 0xF00000000 + R.SEC_CTRL → s.ctrlAhead (sourcePt src) 28 = false → bit v.toNat 2 = true → Runs (.regWr src addr v ok) s (fun t =>
      t.sec = { s.sec with lock := true } ∧ t.fget F.SEC_CTRL_SIGNER_LOCK = 1)) ∧
    (s.sec.lock = true → s.ctrlAhead (sourcePt src) 28 = false → ∀ a ∈ [R.SEC_CTRL, R.SEC_DATA, R.SEC_SIGNER_ROLE], ∀ win < 4,
      addr.val = 0xF00000000 + a + 0x4000 * win → Runs (.regWr src addr v ok) s (fun t =>
        t.sec = s.sec ∧ t.fget F.SEC_SIGNER_ROLE_ROLES = s.fget F.SEC_SIGNER_ROLE_ROLES)) ∧
    (s.sec.lock = false → s.ctrlAhead (sourcePt src) 28 = false → s.fget F.SEC_SEL_TABLE = 0 → addr.val = 0xF00000000 + R.SEC_DATA →
      Runs (.regWr src addr v ok) s (fun t => t.sec.lock = false ∧
        ∀ n, Tab.get zeroNat t.sec.signers n =
          if n = 4 * s.fget F.SEC_SEL_INDEX + s.fget F.SEC_SEL_WORD then v.toNat else Tab.get zeroNat s.sec.signers n)) ∧
    (s.sec.lock = false → s.ctrlAhead (sourcePt src) 28 = false → addr.val = 0xF00000000 + R.SEC_SIGNER_ROLE →
      Runs (.regWr src addr v ok) s (fun t => t.fget F.SEC_SIGNER_ROLE_ROLES = v.toNat % 2 ^ 32 ∧ t.sec = s.sec))

/-! ### The Tackroom, power and resets -/

/-- The firmware of the Tackroom (R423, R437, R463, R466). Outcomes of flash reads are operands (log entry 73). -/
def Obligations.FirmwareCompletes : Prop :=
  ∀ (security version libVer : Word32) (lib : List Word32) (flash : List (Fin 2048 × Bool)) (s : State),
    let st := s.fget F.TCK_STATE_STATE
    let runs (t : State) : Prop := t.fget F.TCK_STATE_STATE = 1 ∧ t.fget F.TCK_STATE_IMAGE_VALID = 1 ∧
      t.fget F.TCK_STATE_FW_VERSION = version.toNat ∧ t.tck.libVer = libVer.toNat ∧ t.tck.restart = 0 ∧
      t.tck.fwSec = security.toNat
    (s.powered = true → st = 0 ∨ st = 3 → s.tck.fwBad = false → s.tck.fwSec ≤ security.toNat →
      Runs (.fwVerifyDone true security version libVer lib []) s (fun t => runs t ∧
        (s.tck.started = false → ∀ b ∈ [Blk.pcr, .pwr, .err, .tck, .ldr], t.enabled (b.base 0) = true))) ∧
    (s.powered = true → st = 0 ∨ st = 3 → Runs (.fwVerifyDone false security version libVer lib flash) s (fun t =>
      t.fget F.TCK_STATE_STATE = 3 ∧ t.fget F.TCK_STATE_IMAGE_VALID = 0 ∧ t.fget F.TCK_STATE_FW_VERSION = 0)) ∧
    (s.powered = true → st = 0 ∨ st = 3 → security.toNat < s.tck.fwSec → Runs (.fwVerifyDone true security version libVer lib flash) s (fun t =>
      t.fget F.TCK_STATE_STATE = 3 ∧ t.fget F.TCK_STATE_IMAGE_VALID = 0 ∧ t.tck.fwSec = s.tck.fwSec)) ∧
    (∀ valid, s.powered = false ∨ st = 1 ∨ st = 2 → exec (.fwVerifyDone valid security version libVer lib flash) s = .next s) ∧
    (st = 1 → Runs .watchdogExpiry s (fun t => t.fget F.TCK_STATE_STATE = 2 ∧ t.tck.restart = 1 ∧ t.jobs = s.jobs ∧
      t.stalls = s.stalls)) ∧
    (st ≠ 1 → exec .watchdogExpiry s = .next s) ∧
    (s.powered = true → Runs .lockstepMismatch s (fun t =>
      t.fget F.TCK_STATE_STATE = 2 ∧ t.tck.restart = 3 ∧ Raises s t 0x0B02 3)) ∧
    (s.powered = false → exec .lockstepMismatch s = .next s) ∧
    (st = 2 → s.tck.fwBad = false → s.tck.fwSec ≤ security.toNat → Runs (.fwRestartDone true security version libVer lib []) s (fun t =>
      runs t ∧ (s.tck.restart = 1 → ∃ r ∈ t.err.flight, r.code = 0x0B09))) ∧
    (st = 2 → Runs (.fwRestartDone false security version libVer lib flash) s (fun t => t.fget F.TCK_STATE_STATE = 3)) ∧
    (∀ valid, st ≠ 2 → exec (.fwRestartDone valid security version libVer lib flash) s = .next s)

/-- Sensors and the step policy (R425 to R430). Counts of intervals are the model's reading (log entry 77). -/
def Obligations.SensorsAndPolicyComplete : Prop :=
  ∀ (temps : List (Fin 60 × BitVec 16)) (volts : List (Fin 36 × BitVec 16)) (power : List (Fin 8 × Word32)) (s : State),
    (s.powered = false → exec (.sensorSample temps volts power) s = .next s) ∧
    (s.powered = true → (temps.map Prod.fst).Nodup → (volts.map Prod.fst).Nodup → (power.map Prod.fst).Nodup →
      Runs (.sensorSample temps volts power) s (fun t =>
        (∀ x ∈ temps, t.fget (F.TCK_TEMP_READING x.1) = x.2.toNat ∧
          (x.2.toInt < -640 ∨ 2400 < x.2.toInt → t.fbit (F.TCK_TEMP_FAULT x.1) = true)) ∧
        (∀ x ∈ volts, t.fget (F.TCK_VOLT_MV x.1) = x.2.toNat ∧
          (x.1.val < 29 → x.2.toNat < 400 ∨ 1000 < x.2.toNat → t.fbit (F.TCK_VOLT_FAULT x.1) = true)) ∧
        (∀ x ∈ power, t.fget (F.TCK_POWER_MW x.1) = x.2.toNat ∧
          t.fget (F.TCK_POWER_PEAK x.1) = max (s.fget (F.TCK_POWER_PEAK x.1)) x.2.toNat))) ∧
    (∀ (i : Fin 60) (v : BitVec 16), s.powered = true → 48 ≤ i.val → 1760 ≤ v.toInt → v.toInt ≤ 2400 →
      s.fbit (F.TCK_TEMP_FAULT i) = false → 1 ≤ Tab.get zeroNat s.tck.hot i → s.tck.trip = false →
      Runs (.sensorSample [(i, v)] [] []) s (fun t => t.tck.trip = true ∧ Out.pin 1 false ∈ t.out ∧
        ∃ r ∈ t.err.flight, r.code = 0x0B01 ∧ r.sev = 3)) ∧
    (s.tck.pwrGood = true → Runs .railFault s (fun t => Raises s t 0x0D03 3)) ∧
    (s.tck.pwrGood = false → exec .railFault s = .next s) ∧
    (s.fget F.TCK_STATE_STATE = 1 → Runs .policyTick s (fun t =>
      (∀ r < 29, t.lastReq r = min (t.fget F.TCK_POLICY_BASE_STEP - Tab.get zeroNat t.tck.trim r)
        (min (15 - Tab.get zeroNat t.tck.ceil r) (t.fget F.TCK_ENVELOPE_CEILING))) ∧
      ((∃ r < 29, t.lastReq r ≠ s.lastReq r) → ∀ r < 29, t.fget (F.PCR_STEP_REQ_STEP r) = t.lastReq r) ∧
      ((∀ r < 29, t.lastReq r = s.lastReq r) → ∀ r < 29, t.fget (F.PCR_STEP_REQ_STEP r) = s.fget (F.PCR_STEP_REQ_STEP r)))) ∧
    (s.fget F.TCK_STATE_STATE ≠ 1 → exec .policyTick s = .next s)

/-- Larkspur (R433). -/
def Obligations.LarkspurCaptures : Prop :=
  ∀ s : State,
    (∀ v : Word, bit v.toNat 0 = true → s.fbit F.TCK_LSP_CTL_RUN = false → Runs (.lspRun v) s (fun t =>
      t.fbit F.TCK_LSP_CTL_RUN = true ∧ t.tck.lsp = [] ∧ t.tck.lspq = [] ∧ t.fget F.TCK_LSP_STAT_NEXT = 0 ∧
      t = { s with tck := t.tck, regs := t.regs })) ∧
    (∀ v : Word, bit v.toNat 0 = false → Runs (.lspRun v) s (fun t =>
      t.fbit F.TCK_LSP_CTL_RUN = false ∧ t.tck.lsp = s.tck.lsp ∧ t = { s with tck := t.tck, regs := t.regs })) ∧
    (∀ q qs, s.tck.lspq = q :: qs → s.fbit F.TCK_LSP_CTL_RUN = true → (s.tck.lastLsp = 0 ∨ s.tck.lastLsp + 4 ≤ s.refNs + 1) →
      Runs .larkspurEntry s (fun t =>
        let i := s.fget F.TCK_LSP_STAT_NEXT
        (∀ n, Tab.get (fun _ => none) t.tck.lsp n = if n = i then some q.2 else Tab.get (fun _ => none) s.tck.lsp n) ∧
        t.tck.lspq = qs ∧ t.fget F.TCK_LSP_STAT_NEXT = (i + 1) % 262144 ∧ t = { s with tck := t.tck, regs := t.regs })) ∧
    ((s.tck.lspq = [] ∨ s.fbit F.TCK_LSP_CTL_RUN = false ∨ (s.tck.lastLsp ≠ 0 ∧ s.refNs + 1 < s.tck.lastLsp + 4)) →
      exec .larkspurEntry s = .next s) ∧
    (∀ src r job data, 8 ≤ (s.tck.lspq.filter (fun q => q.1 = src && q.2.src ≠ 15)).length →
      (s.trace src r job data).tck.lspq = s.tck.lspq) ∧
    (∀ src r job data, s.fbit F.TCK_LSP_CTL_RUN = true → bit (s.fget F.TCK_LSP_CTL_SOURCES) src = true →
      8 ≤ (s.tck.lspq.filter (fun q => q.1 = src && q.2.src ≠ 15)).length →
      (s.trace src r job data).fget F.TCK_LSP_STAT_DROPPED =
        (s.fget F.TCK_LSP_STAT_DROPPED + 1) % 2 ^ F.TCK_LSP_STAT_DROPPED.width)

/-- The mailboxes and MCTP (R434 to R438). The byte layouts, and that a request completes at once, are the model's
choice (log entries 70 and 71). -/
def Obligations.MailboxesAnswer : Prop :=
  ∀ (p : HostPort) (ok : Bool) (s : State) (op len tag : Nat) (body : List Byte), MbxHolds s p op len tag body →
    let st := s.fget F.TCK_STATE_STATE
    let level := s.fget (F.TCK_MBX_CTL_LEVEL p)
    let go := Instr.mbxGo p ok
    let idle := s.fbit (F.TCK_MBX_CTL_BUSY p) = false
    let agreed := st = 1 ∧ level ≠ 0
    let w (o n : Nat) := field body o n
    (¬ idle → exec go s = .next s) ∧
    (idle → st ≠ 1 → ¬ (st = 3 ∧ op = 6) → MbxSays go p 1 tag [] s) ∧
    (idle → st = 1 → op = 1 → MbxSays go p 0 tag s.infoBytes s) ∧
    (idle → st = 1 → op = 2 → w 0 2 = 3 → MbxSays go p 0 tag (leBytes 2 3 ++ leBytes 2 (min (w 2 2) 1)) s ∧
      Runs go s (fun t => t.fget (F.TCK_MBX_CTL_LEVEL p) = 0x30000 + min (w 2 2) 1)) ∧
    (idle → st = 1 → op = 2 → w 0 2 ≠ 3 → MbxSays go p 3 tag [] s ∧
      Runs go s (fun t => t.fget (F.TCK_MBX_CTL_LEVEL p) = level)) ∧
    (idle → st = 1 → op ≠ 1 → op ≠ 2 → level = 0 → MbxSays go p 3 tag [] s) ∧
    (idle → agreed → op = 3 → ∃ status rec_, s.logRead (w 0 4) (w 4 4) = (status, rec_) ∧ MbxSays go p status tag rec_ s) ∧
    (idle → agreed → op = 4 → MbxSays go p 0 tag s.sensorBytes s) ∧
    (idle → agreed → op = 5 → ∃ limits, limits.length = 96 ∧ MbxSays go p 0 tag limits s) ∧
    (idle → agreed ∨ st = 3 → op = 6 → w 0 4 = 0 → s.tck.fwUpdate = true → MbxSays go p 1 tag [] s) ∧
    (idle → agreed ∨ st = 3 → op = 6 → w 0 4 = 0 → s.tck.fwUpdate = false → Runs go s (fun t => t.tck.fwUpdate = true ∧
      t.tck.fwBad = true ∧ t.tck.fwWrites = [] ∧ t.fget F.TCK_STATE_IMAGE_VALID = 0 ∧
      t.mbxGet p 0 8 = mbxBytes 0 tag [])) ∧
    (idle → agreed ∨ st = 3 → op = 6 → w 0 4 = 2 → s.tck.fwUpdate = true → Runs go s (fun t =>
      t.tck.fwUpdate = false ∧ t.tck.fwBad = (!ok) ∧ t.fget F.TCK_STATE_IMAGE_VALID = (if ok = true then 1 else 0) ∧
      (ok = false → Raises s t 0x0B06 1) ∧ t.mbxGet p 0 8 = mbxBytes 0 tag [])) ∧
    (idle → agreed → op = 7 → Runs go s (fun t => t.fget F.TCK_STATE_STATE = 2 ∧ t.tck.restart = 2 ∧ t.jobs = s.jobs)) ∧
    (idle → agreed → op = 8 → level % 65536 = 0 → MbxSays go p 3 tag [] s) ∧
    (idle → agreed → op = 8 → level % 65536 ≠ 0 →
      ∃ status tr, s.traceRead (w 0 4) (w 4 4) = (status, tr) ∧ MbxSays go p status tag tr s) ∧
    (idle → agreed → op = 0 ∨ 8 < op → MbxSays go p 2 tag [] s) ∧
    (∀ (ch : Fin 3) (ty : BitVec 8) (msg : List Byte) (off : Word32),
      (s.powered = false ∨ st = 2 ∨ (ch.val < 2 ∧ s.canRead ch = false) → exec (.pldmRequest ch ty msg off ok) s = .next s) ∧
      (s.powered = true → st ≠ 2 → (ch.val < 2 → s.canRead ch = true) →
        (ty = 0 → Runs (.pldmRequest ch ty msg off ok) s (fun t => ∃ m,
          t.out = s.out ++ [.message (20 + ch) m] ∧ t = { s with out := t.out, freeCtr := t.freeCtr })) ∧
        (1 < ty.toNat → exec (.pldmRequest ch ty msg off ok) s = .next s) ∧
        (ty = 1 → st = 1 → exec (.pldmRequest ch ty msg off ok) s = .next (s.pldm (20 + ch) off.toNat ok msg)) ∧
        (ty = 1 → st = 0 → exec (.pldmRequest ch ty msg off ok) s = .next s)) ∧
      (∀ c, bit (field msg 0 1) 7 = true → Runs (.pldmRequest ch ty msg off ok) s (fun _ => True) ∧
        ∃ r m, (s.pldm c off.toNat ok msg).out = r ++ [.message c m] ∧ field m 0 1 = field msg 0 1 % 32 ∧
          field m 1 1 = field msg 1 1 % 64 ∧ field m 2 1 = field msg 2 1))

/-- Power and resets (R459 to R465). What survives a reset beyond R461's words is the model's reading (log entry 79). -/
def Obligations.ResetsComplete : Prop :=
  ∀ s : State,
    (s.tck.pwrGood = false → Runs .pwrGoodRise s (fun t => t.tck.pwrGood = true ∧ Booting s t ∧ FlashKept s t)) ∧
    (s.tck.pwrGood = true → exec .pwrGoodRise s = .next s) ∧
    (∀ c ∈ [Instr.pwrGoodFall, .vtckBrownout],
      (s.tck.pwrGood = true → Runs c s (fun t => Cleared t ∧ t.regs = [] ∧ FlashKept s t ∧ t.tck.pwrGood = false ∧
        t.tck.trip = false ∧ t.tck.lsp = [] ∧ t.out = s.out ++ (if s.tck.trip then [.pin 1 true] else []))) ∧
      (s.tck.pwrGood = false → exec c s = .next s)) ∧
    (s.powered = true → Runs .sysResetAssert s (fun t => Cleared t ∧ FlashKept s t ∧ t.powered = false ∧
      t.tck.pwrGood = true ∧ t.tck.trip = s.tck.trip ∧ t.tck.lsp = s.tck.lsp ∧ t.out = s.out ∧
      ∀ a, a ≠ R.TCK_LSP_STAT → t.reg a = State.reset.reg a)) ∧
    (s.powered = false → exec .sysResetAssert s = .next s) ∧
    (s.tck.pwrGood = true → s.tck.sysReset = true →
      Runs .sysResetDeassert s (fun t => t.powered = true ∧ Booting s t ∧ FlashKept s t)) ∧
    (s.tck.pwrGood = false ∨ s.tck.sysReset = false → exec .sysResetDeassert s = .next s) ∧
    (∀ b : Barn, s.powered = true → ¬ b.val ∈ s.tck.tested → (s.barn b).owner = none →
      s.fget (F.SPD_CLEAR_STATE b) = 1 ∨ s.fget (F.SPD_CLEAR_STATE b) = 2 →
      Runs (.loftTestDone b []) s (fun t => b.val ∈ t.tck.tested ∧ t.loft b = (s.loft b).scrubbed ∧
        ∀ n, n ≠ b.val → t.loft n = s.loft n) ∧
      (∀ k : BankId, (s.bank b k).spares = 0 → Runs (.loftTestDone b [(k, false)]) s (fun t =>
        t.fget (F.SPD_CLEAR_STATE b) = 4 ∧ t.tck.tested = s.tck.tested ∧ ∃ r ∈ t.err.flight, r.code = 0x0309 ∧ r.inst = k))) ∧
    (∀ (b : Barn) (bad : List (BankId × Bool)), s.powered = false ∨ b.val ∈ s.tck.tested ∨ (s.barn b).owner ≠ none →
      exec (.loftTestDone b bad) s = .next s)

/-! ### Registers -/

/-- The register map (R443, R446, R455, R456). -/
def Obligations.RegistersHoldTheirFields : Prop :=
  ∀ b ∈ Blk.all, ∀ i < b.count, ∀ r ∈ b.rows, ∀ k1 < r.n1, ∀ k2 < r.n2, ∀ f ∈ r.fields, ∀ (s : State) (v : Nat),
    let a := b.base i + r.off + k1 * r.s1 + k2 * r.s2
    (s.fset ⟨a, f.lo, f.width⟩ v).fget ⟨a, f.lo, f.width⟩ = v % 2 ^ f.width ∧
    (∀ g ∈ r.fields, g ≠ f → (s.fset ⟨a, f.lo, f.width⟩ v).fget ⟨a, g.lo, g.width⟩ = s.fget ⟨a, g.lo, g.width⟩) ∧
    (∀ n, n ≠ a → (s.fset ⟨a, f.lo, f.width⟩ v).reg n = s.reg n) ∧
    (0 < r.off → State.reset.fget ⟨a, f.lo, f.width⟩ = f.reset)

/-- Register writes (R441 to R448, R450). The forms of accesses left open are the model's (log entries 102 and 103). -/
def Obligations.RegisterWritesObeyTheirFields : Prop :=
  ∀ (src : Source) (addr : Fin 68719476736) (a : Nat) (v : Word) (ok : Bool) (s : State), addr.val = 0xF00000000 + a →
    let w := v.toNat
    let part (f : FieldRow) (n : Nat) := bits n (f.lo + f.width - 1) f.lo
    (s.ctrlAhead (sourcePt src) (regPoint a) = true → a < 2 ^ 36 → exec (.regWr src addr v ok) s = .next (s.ctrlPut 2 (sourcePt src) (regPoint a) 63
      ((0xF00000000 + a) % 2 ^ 36 + w * 2 ^ 36) (some ⟨src, 0, a, 8, 0, some (v, ok)⟩))) ∧
    (∀ h, s.ctrlAhead (sourcePt src) (regPoint a) = false → Plain s a h 0 → Runs (.regWr src addr v ok) s (fun t =>
      (∀ f ∈ h.row.fields, t.fget (h.fld f) =
        if (f.acc = .rw ∧ f.sticky = false) ∨ (f.acc = .rwl ∧ s.rwlOpen h = true) then part f w else s.fget (h.fld f)) ∧
      ((∃ f ∈ h.row.fields, f.acc = .rwl) → s.rwlOpen h = false →
        t.fget (F.BLK_STATUS_WRITE_IGNORED (h.blk.base h.i)) = 1 ∧
        t.fget (F.BLK_COUNT_IGNORED (h.blk.base h.i)) = min 0xFFFF (s.fget (F.BLK_COUNT_IGNORED (h.blk.base h.i)) + 1)) ∧
      (s.rwlOpen h = true ∨ (∀ f ∈ h.row.fields, f.acc ≠ .rwl) → ∀ n, n ≠ h.addr → t.reg n = s.reg n) ∧
      t = { s with regs := t.regs, time := { s.time with latch := t.time.latch } })) ∧
    (∀ h win, s.ctrlAhead (sourcePt src) (regPoint a) = false → Plain s a h win → 1 ≤ win → win ≤ 3 → Runs (.regWr src addr v ok) s (fun t =>
      ∀ f ∈ h.row.fields, t.fget (h.fld f) =
        if part f w = 0 ∨ f.acc = .ro ∨ f.acc = .wo ∨ (f.acc = .rwl ∧ s.rwlOpen h = false) then s.fget (h.fld f)
        else if f.sticky then (if win = 2 then 0 else s.fget (h.fld f))
        else if win = 1 then part f (s.regValue h) ||| part f w
        else if win = 2 then part f (s.regValue h) - (part f (s.regValue h) &&& part f w)
        else part f (s.regValue h) ^^^ part f w)) ∧
    (s.ctrlAhead (sourcePt src) (regPoint a) = false → regHit a = none ∨ a % 8 ≠ 0 → a < 2 ^ 32 → inMbx a = false → exec (.regWr src addr v ok) s =
      .next ((s.setLatch (srcNum src) a none).unmapped (srcNum src) true a)) ∧
    (∀ n wr x, (∀ b i, findBlk x = some (b, i) → (s.unmapped n wr x).fget (F.BLK_COUNT_UNMAPPED (b.base i)) =
      min 0xFFFF (s.fget (F.BLK_COUNT_UNMAPPED (b.base i)) + 1))) ∧
    (∀ (fn : Fin 9) (low : Fin 4294967296) (len : Fin 4097) (ide : Bool), low.val = a →
      (s.srcUp src = false ∨ s.srcDenied src ide = true → exec (.registerWrite src fn low len ide v ok) s = .next s) ∧
      (s.srcUp src = true → s.srcDenied src ide = false → src = .tackroom ∨ fn.val = 0 →
        (len.val = 8 → exec (.registerWrite src fn low len ide v ok) s = exec (.regWr src addr v ok) s) ∧
        (s.ctrlAhead (sourcePt src) (regPoint a) = false → len.val ≠ 4 ∧ len.val ≠ 8 → exec (.registerWrite src fn low len ide v ok) s =
          .next ((s.setLatch (srcNum src) a none).unmapped (srcNum src) true a))) ∧
      (s.srcUp src = true → s.srcDenied src ide = false → src ≠ .tackroom → fn.val ≠ 0 →
        a % 65536 / 16 ≠ 0x100 → a % 65536 / 8 ≠ 0x300 → exec (.registerWrite src fn low len ide v ok) s =
          .next (s.unmapped (srcNum src) true (Blk.base .hst (srcNum src) + 0x30))))

/-- Enabling blocks (R451, R453, R454). -/
def Obligations.BlocksAreEnabled : Prop :=
  ∀ (blk : Fin 17) (i : Fin 24) (s : State),
    let b := blkNth blk
    let base := b.base i
    (i.val < b.count →
      Runs (.blkEnable blk i false) s (fun t => t.enabled base = false ∧ t = { s with regs := t.regs } ∧
        ∀ a, a ≠ R.BLK_CTRL base → t.reg a = s.reg a) ∧
      (s.cfgCrc b i = s.cfgRefOf b i → Runs (.blkEnable blk i true) s (fun t => t.enabled base = true ∧
        (b ≠ .lnk → t = { s with regs := t.regs } ∧ ∀ a, a ≠ R.BLK_CTRL base → t.reg a = s.reg a))) ∧
      (s.cfgCrc b i ≠ s.cfgRefOf b i → Runs (.blkEnable blk i true) s (fun t => t.enabled base = s.enabled base ∧
        t.fget (F.BLK_STATUS_ENABLE_REFUSED base) = 1 ∧ t = { s with regs := t.regs } ∧
        ∀ a, a ≠ R.BLK_STATUS base → t.reg a = s.reg a)) ∧
      (s.enabled base = false ∨ s.cfgCrc b i = s.cfgRefOf b i → exec (.cfgCrcCheck blk i none) s = .next s) ∧
      (s.enabled base = true → s.cfgCrc b i ≠ s.cfgRefOf b i → Runs (.cfgCrcCheck blk i none) s (fun t =>
        t.enabled base = false ∧ t.fget (F.BLK_STATUS_CRC_FAULT base) = 1 ∧ Raises s t 0x0C01 2)) ∧
      (s.commitRef b i).cfgRefOf b i = (s.commitRef b i).cfgCrc b i) ∧
    (b.count ≤ i.val → ∀ on flip, exec (.blkEnable blk i on) s = .next s ∧ exec (.cfgCrcCheck blk i flip) s = .next s)

/-! ### The whole device -/

/-- Reset (R455, R461, R469). The moment that reset names is the model's choice (log entry 11). -/
def Obligations.ResetState : Prop :=
  let s := State.reset
  (∀ b ∈ Blk.all, ∀ i < b.count, s.enabled (b.base i) = false ∧ s.cfgRefOf b i = s.cfgCrc b i) ∧
  s.nowNs = 0 ∧ s.fget F.PCR_TIME_CTRL_SOURCE = 0 ∧ s.fget F.PCR_TIME_STATUS_STATE = 0 ∧ s.fget F.PCR_TIME_CTRL_ALLOW_STEP = 1 ∧
  (∀ r < 29, s.beat r = 0) ∧ (∀ j < 8, (s.job j).phase = .free) ∧ (∀ p < 32, s.portSt p = 0) ∧
  s.fget F.TCK_STATE_STATE = 0 ∧ s.err = {} ∧ s.pending = [] ∧ s.Inv

/-- The invariant of the register file. -/
def Obligations.StepKeepsInv : Prop := ∀ s t : State, s.Inv → step s = .next t → t.Inv

/-- What every command leaves alone, and that every command runs. The queue is the model's (log entry 1). -/
def Obligations.CommandsLeaveTheQueue : Prop :=
  ∀ (c : Instr) (s : State), Runs c s (fun t => t.pending = s.pending ∧ t.fused = s.fused)
end

