-- ==== Sys2Proof/Laws/Tab.lean ====
section
/-! SUPPORT. Sparse tables: reading after a write, and that every operation keeps the canonical form. -/

namespace Sys2Proof.Machine

variable {α : Type} {d : Nat → α}

theorem Tab.get_put_same (t : Tab α) (k : Nat) (v : α) : Tab.get d (Tab.put k v t) k = v := by
  induction t with
  | nil => simp [Tab.put, Tab.get]
  | cons e t ih =>
    obtain ⟨k', v'⟩ := e
    simp only [Tab.put]
    split
    · simp [Tab.get]
    · split <;> simp_all [Tab.get]

theorem Tab.get_put_other (t : Tab α) {k n : Nat} (v : α) (h : n ≠ k) :
    Tab.get d (Tab.put k v t) n = Tab.get d t n := by
  induction t with
  | nil => simp [Tab.put, Tab.get, h]
  | cons e t ih =>
    obtain ⟨k', v'⟩ := e
    simp only [Tab.put]
    split
    · simp [Tab.get, h]
    · split
      · subst_vars; simp [Tab.get, h]
      · simp [Tab.get, ih]

theorem Tab.get_del_same (t : Tab α) (k : Nat) : Tab.get d (Tab.del k t) k = d k := by
  induction t with
  | nil => simp [Tab.del, Tab.get]
  | cons e t ih =>
    obtain ⟨k', v'⟩ := e
    simp only [Tab.del]
    split <;> simp_all [Tab.get]

theorem Tab.get_del_other (t : Tab α) {k n : Nat} (h : n ≠ k) : Tab.get d (Tab.del k t) n = Tab.get d t n := by
  induction t with
  | nil => simp [Tab.del]
  | cons e t ih =>
    obtain ⟨k', v'⟩ := e
    simp only [Tab.del]
    split
    · subst_vars; simp [Tab.get, h, ih]
    · simp [Tab.get, ih]

variable [DecidableEq α]

@[simp] theorem Tab.get_set_same (t : Tab α) (k : Nat) (v : α) : Tab.get d (Tab.set d t k v) k = v := by
  unfold Tab.set
  split
  · simp_all [Tab.get_del_same]
  · exact Tab.get_put_same t k v

theorem Tab.get_set_other (t : Tab α) {k n : Nat} (v : α) (h : n ≠ k) :
    Tab.get d (Tab.set d t k v) n = Tab.get d t n := by
  unfold Tab.set
  split
  · exact Tab.get_del_other t h
  · exact Tab.get_put_other t v h

theorem Tab.get_set (t : Tab α) (k n : Nat) (v : α) :
    Tab.get d (Tab.set d t k v) n = if n = k then v else Tab.get d t n := by
  split
  · next h => subst h; exact Tab.get_set_same t n v
  · next h => exact Tab.get_set_other t v h

@[simp] theorem Tab.get_upd_same (t : Tab α) (k : Nat) (f : α → α) :
    Tab.get d (Tab.upd d t k f) k = f (Tab.get d t k) := Tab.get_set_same t k _

theorem Tab.get_upd_other (t : Tab α) {k n : Nat} (f : α → α) (h : n ≠ k) :
    Tab.get d (Tab.upd d t k f) n = Tab.get d t n := Tab.get_set_other t _ h

/-! ### The canonical form -/

theorem Tab.wfFrom_mono {t : Tab α} {a b : Nat} (h : a ≤ b) (w : Tab.wfFrom d b t = true) : Tab.wfFrom d a t = true := by
  cases t with
  | nil => rfl
  | cons e t =>
    obtain ⟨k', v'⟩ := e
    simp only [Tab.wfFrom, Bool.and_eq_true, decide_eq_true_eq] at w ⊢
    exact ⟨⟨Nat.le_trans h w.1.1, w.1.2⟩, w.2⟩

theorem Tab.wfFrom_del {t : Tab α} {a k : Nat} (w : Tab.wfFrom d a t = true) : Tab.wfFrom d a (Tab.del k t) = true := by
  induction t generalizing a with
  | nil => rfl
  | cons e t ih =>
    obtain ⟨k', v'⟩ := e
    simp only [Tab.wfFrom, Bool.and_eq_true, decide_eq_true_eq] at w
    simp only [Tab.del]
    split
    · exact Tab.wfFrom_mono (Nat.le_succ_of_le w.1.1) (ih w.2)
    · simp only [Tab.wfFrom, Bool.and_eq_true, decide_eq_true_eq]
      exact ⟨w.1, ih w.2⟩

theorem Tab.wfFrom_put {t : Tab α} {a k : Nat} {v : α} (ha : a ≤ k) (hv : v ≠ d k) (w : Tab.wfFrom d a t = true) :
    Tab.wfFrom d a (Tab.put k v t) = true := by
  induction t generalizing a with
  | nil => simp [Tab.put, Tab.wfFrom, ha, hv]
  | cons e t ih =>
    obtain ⟨k', v'⟩ := e
    simp only [Tab.wfFrom, Bool.and_eq_true, decide_eq_true_eq] at w
    simp only [Tab.put]
    split
    · simp only [Tab.wfFrom, Bool.and_eq_true, decide_eq_true_eq]
      exact ⟨⟨ha, hv⟩, ⟨by omega, w.1.2⟩, w.2⟩
    · split
      · subst_vars; simp only [Tab.wfFrom, Bool.and_eq_true, decide_eq_true_eq]; exact ⟨⟨ha, hv⟩, w.2⟩
      · simp only [Tab.wfFrom, Bool.and_eq_true, decide_eq_true_eq]
        exact ⟨w.1, ih (by omega) w.2⟩

/-- A write keeps the canonical form. -/
theorem Tab.wf_set {t : Tab α} (k : Nat) (v : α) (w : Tab.wf d t = true) : Tab.wf d (Tab.set d t k v) = true := by
  unfold Tab.set
  split
  · exact Tab.wfFrom_del w
  · next h => exact Tab.wfFrom_put (Nat.zero_le k) h w

theorem Tab.wf_upd {t : Tab α} (k : Nat) (f : α → α) (w : Tab.wf d t = true) : Tab.wf d (Tab.upd d t k f) = true :=
  Tab.wf_set k _ w

theorem Tab.wf_setRun {t : Tab α} (k : Nat) (vs : List α) (w : Tab.wf d t = true) :
    Tab.wf d (Tab.setRun d t k vs) = true := by
  induction vs generalizing t k with
  | nil => exact w
  | cons v vs ih => exact ih (k + 1) (Tab.wf_set k v w)

/-- What a write lists: the value written, or what was listed before. -/
theorem Tab.mem_set {t : Tab α} {k : Nat} {v : α} {e : Nat × α} (h : e ∈ Tab.set d t k v) : e = (k, v) ∨ e ∈ t := by
  have hdel : ∀ t : Tab α, e ∈ Tab.del k t → e ∈ t := by
    intro t
    induction t with
    | nil => simp [Tab.del]
    | cons x t ih =>
      simp only [Tab.del]
      split <;> intro h
      · exact List.mem_cons_of_mem _ (ih h)
      · rcases List.mem_cons.1 h with h | h
        · exact List.mem_cons.2 (.inl h)
        · exact List.mem_cons_of_mem _ (ih h)
  have hput : ∀ t : Tab α, e ∈ Tab.put k v t → e = (k, v) ∨ e ∈ t := by
    intro t
    induction t with
    | nil => intro h; exact .inl (by simpa [Tab.put] using h)
    | cons x t ih =>
      simp only [Tab.put]
      split
      · intro h
        rcases List.mem_cons.1 h with h | h
        · exact .inl h
        · exact .inr h
      · split <;> intro h
        · rcases List.mem_cons.1 h with h | h
          · exact .inl h
          · exact .inr (List.mem_cons_of_mem _ h)
        · rcases List.mem_cons.1 h with h | h
          · exact .inr (List.mem_cons.2 (.inl h))
          · rcases ih h with h | h
            · exact .inl h
            · exact .inr (List.mem_cons_of_mem _ h)
  unfold Tab.set at h
  split at h
  · exact .inr (hdel t h)
  · exact hput t h

theorem Tab.wfFrom_filter {t : Tab α} {a : Nat} (p : Nat × α → Bool) (w : Tab.wfFrom d a t = true) :
    Tab.wfFrom d a (t.filter p) = true := by
  induction t generalizing a with
  | nil => exact w
  | cons e t ih =>
    obtain ⟨k, v⟩ := e
    simp only [Tab.wfFrom, Bool.and_eq_true, decide_eq_true_eq] at w
    have k1 := ih w.2
    simp only [List.filter]
    split
    · simp only [Tab.wfFrom, Bool.and_eq_true, decide_eq_true_eq]
      exact ⟨w.1, k1⟩
    · exact Tab.wfFrom_mono (by omega) k1

/-- Leaving entries out keeps the canonical form. -/
theorem Tab.wf_filter {t : Tab α} (p : Nat × α → Bool) (w : Tab.wf d t = true) : Tab.wf d (t.filter p) = true :=
  Tab.wfFrom_filter p w

theorem Tab.wf_dropRange {t : Tab α} (lo n : Nat) (w : Tab.wf d t = true) : Tab.wf d (Tab.dropRange lo n t) = true :=
  Tab.wf_filter _ w

end Sys2Proof.Machine
end

