-- ==== Sys2Proof/Laws/Keeps.lean ====
section
/-! SUPPORT. What every operation of the device keeps: the queue, the fuses, and the one form of the register file. -/

namespace Sys2Proof.Machine

/-- From `s` to `t` the queue and the fuses stay, and the register file keeps its form. -/
def Keeps (s t : State) : Prop := t.pending = s.pending ∧ t.fused = s.fused ∧ (s.Inv → t.Inv)

/-- A command answers a next state that keeps them. -/
def Nexts (s : State) (r : Res) : Prop := ∃ t, r = .next t ∧ Keeps s t

theorem Keeps.refl (s : State) : Keeps s s := ⟨rfl, rfl, id⟩

theorem Keeps.trans {s t u : State} (h : Keeps s t) (k : Keeps t u) : Keeps s u :=
  ⟨k.1.trans h.1, k.2.1.trans h.2.1, fun i => k.2.2 (h.2.2 i)⟩

/-- An update of other fields keeps them. -/
theorem Keeps.upd {z u : State} {mask cfgRef time regions err stalls barns ctrs jobs lofts mesh acts mism links fab srv prefix_ yok host rings copies loads info sec tck rep out freeCtr} (h : Keeps z u) :
    Keeps z (State.mk u.pending u.regs u.fused mask cfgRef time regions err stalls barns ctrs jobs lofts mesh acts mism links fab srv prefix_ yok host rings copies loads info sec tck rep out freeCtr) := h

theorem Keeps.ite {z s t : State} {c : Prop} [Decidable c] (h : Keeps z s) (k : Keeps z t) : Keeps z (if c then s else t) := by
  split
  · exact h
  · exact k

theorem Keeps.ite_snd {α : Type} {z : State} {p q : α × State} {c : Prop} [Decidable c] (h : Keeps z p.2) (k : Keeps z q.2) :
    Keeps z (if c then p else q).2 := by
  split
  · exact h
  · exact k

theorem Keeps.ite_fst {α : Type} {z : State} {p q : State × α} {c : Prop} [Decidable c] (h : Keeps z p.1) (k : Keeps z q.1) :
    Keeps z (if c then p else q).1 := by
  split
  · exact h
  · exact k

theorem Nexts.ite {z : State} {p q : Res} {c : Prop} [Decidable c] (h : Nexts z p) (k : Nexts z q) :
    Nexts z (if c then p else q) := by
  split
  · exact h
  · exact k

theorem Keeps.snd {α : Type} {z s : State} {a : α} (h : Keeps z s) : Keeps z (a, s).2 := h
theorem Keeps.fst {α : Type} {z s : State} {a : α} (h : Keeps z s) : Keeps z (s, a).1 := h
theorem Keeps.third {α β : Type} {z s : State} {a : α} {b : β} (h : Keeps z s) : Keeps z (a, b, s).2.2 := h

theorem Keeps.next {z t : State} (h : Keeps z t) : Nexts z (.next t) := ⟨t, rfl, h⟩

theorem Keeps.have_ {z x : State} {P : Prop} (h : Keeps z x) (k : Keeps z x → P) : P := k h

theorem keeps_foldl {α : Type} {z : State} {f : State → α → State} (l : List α) {s : State} (h : Keeps z s)
    (hf : ∀ t x, Keeps z t → Keeps z (f t x)) : Keeps z (l.foldl f s) := by
  induction l generalizing s with
  | nil => exact h
  | cons x l ih => exact ih (hf s x h)

theorem keeps_foldl_fst {α β : Type} {z : State} {f : State × β → α → State × β} (l : List α) {p : State × β}
    (h : Keeps z p.1) (hf : ∀ q x, Keeps z q.1 → Keeps z (f q x).1) : Keeps z (l.foldl f p).1 := by
  induction l generalizing p with
  | nil => exact h
  | cons x l ih => exact ih (hf p x h)

theorem keeps_foldl_snd {α β : Type} {z : State} {f : β × State → α → β × State} (l : List α) {p : β × State}
    (h : Keeps z p.2) (hf : ∀ q x, Keeps z q.2 → Keeps z (f q x).2) : Keeps z (l.foldl f p).2 := by
  induction l generalizing p with
  | nil => exact h
  | cons x l ih => exact ih (hf p x h)

theorem keeps_foldl_third {α β γ : Type} {z : State} {f : α × β × State → γ → α × β × State} (l : List γ) {p : α × β × State}
    (h : Keeps z p.2.2) (hf : ∀ q x, Keeps z q.2.2 → Keeps z (f q x).2.2) : Keeps z (l.foldl f p).2.2 := by
  induction l generalizing p with
  | nil => exact h
  | cons x l ih => exact ih (hf p x h)

/-- What an instruction of the control core does, if it does anything, keeps them. -/
def CoreKeeps (z : State) (o : Option (State → State)) : Prop := ∀ g, o = some g → ∀ t, Keeps z t → Keeps z (g t)

theorem CoreKeeps.none {z : State} : CoreKeeps z none := fun _ e => nomatch e

theorem CoreKeeps.some {z : State} {g : State → State} (h : ∀ t, Keeps z t → Keeps z (g t)) : CoreKeeps z (some g) :=
  fun _ e => by cases e; exact h

theorem CoreKeeps.ite {z : State} {p q : Option (State → State)} {c : Prop} [Decidable c] (h : CoreKeeps z p)
    (k : CoreKeeps z q) : CoreKeeps z (if c then p else q) := by
  split
  · exact h
  · exact k

end Sys2Proof.Machine
end

