-- ==== Sys2Proof/Laws/Keeps/Ops.lean ====
section
/-! SUPPORT. What the operations of Sys2Proof/Machine/Ops.lean keep: the queue, the fuses, and the form of the register
file. -/

namespace Sys2Proof.Machine

theorem State.setReg_keeps {z s : State} (a v : Nat) (h : Keeps z s) : Keeps z (s.setReg a v) := by
  refine ⟨h.1, h.2.1, fun i => ⟨Tab.wf_set _ _ (h.2.2 i).1, fun e he => ?_⟩⟩
  rcases Tab.mem_set he with rfl | he
  · simp [BitVec.and_assoc]
  · exact (h.2.2 i).2 e he

theorem State.fset_keeps {z : State} {s : State} (a1) (a2) (h : Keeps z s) : Keeps z (State.fset s a1 a2) := by
  unfold State.fset
  repeat' first | with_reducible assumption | with_reducible apply State.setReg_keeps

theorem State.fsat_keeps {z : State} {s : State} (a1) (a2) (h : Keeps z s) : Keeps z (State.fsat s a1 a2) := by
  unfold State.fsat
  repeat' first | with_reducible assumption | with_reducible apply State.fset_keeps

theorem State.ctrlPut_keeps {z : State} {s : State} (a1) (a2) (a3) (a4) (a5) (a6) (h : Keeps z s) :
    Keeps z (State.ctrlPut s a1 a2 a3 a4 a5 a6) := by
  unfold State.ctrlPut
  repeat' first
    | with_reducible assumption | ((try lift_lets); intro x; clear_value x)
    | (fail_if_no_progress (with_reducible apply Keeps.upd))

theorem State.ctrlSend_keeps {z : State} {s : State} (a1) (a2) (a3) (a4) (a5) (h : Keeps z s) :
    Keeps z (State.ctrlSend s a1 a2 a3 a4 a5) := by
  unfold State.ctrlSend
  repeat' first | with_reducible assumption | with_reducible apply State.ctrlPut_keeps

theorem State.send_keeps {z : State} {s : State} (a1) (h : Keeps z s) : Keeps z (State.send s a1) := by
  unfold State.send
  repeat' first | with_reducible assumption | (fail_if_no_progress (with_reducible apply Keeps.upd))

theorem State.updJob_keeps {z : State} {s : State} (a1) (a2) (h : Keeps z s) : Keeps z (State.updJob s a1 a2) := by
  unfold State.updJob
  repeat' first | with_reducible assumption | (fail_if_no_progress (with_reducible apply Keeps.upd))

theorem State.updStall_keeps {z : State} {s : State} (a1) (a2) (h : Keeps z s) :
    Keeps z (State.updStall s a1 a2) := by
  unfold State.updStall
  repeat' first | with_reducible assumption | (fail_if_no_progress (with_reducible apply Keeps.upd))

theorem State.updLoft_keeps {z : State} {s : State} (a1) (a2) (h : Keeps z s) : Keeps z (State.updLoft s a1 a2) := by
  unfold State.updLoft
  repeat' first | with_reducible assumption | (fail_if_no_progress (with_reducible apply Keeps.upd))

theorem State.fsetB_keeps {z : State} {s : State} (a1) (a2) (h : Keeps z s) : Keeps z (State.fsetB s a1 a2) := by
  unfold State.fsetB
  repeat' first | with_reducible assumption | with_reducible apply State.fset_keeps

theorem State.showHold_keeps {z : State} {s : State} (a1) (h : Keeps z s) : Keeps z (State.showHold s a1) := by
  unfold State.showHold
  repeat' first
    | with_reducible assumption | with_reducible apply State.fset_keeps
    | with_reducible apply State.fsetB_keeps

theorem State.countStarved_keeps {z : State} {s : State} (a1) (h : Keeps z s) :
    Keeps z (State.countStarved s a1) := by
  unfold State.countStarved
  repeat' first | with_reducible assumption | with_reducible apply Keeps.ite | with_reducible apply State.fsat_keeps

theorem State.updRegion_keeps {z : State} {s : State} (a1) (a2) (h : Keeps z s) :
    Keeps z (State.updRegion s a1 a2) := by
  unfold State.updRegion
  repeat' first | with_reducible assumption | (fail_if_no_progress (with_reducible apply Keeps.upd))

theorem State.clearCauses_keeps {z : State} {s : State} (a1) (a2) (h : Keeps z s) :
    Keeps z (State.clearCauses s a1 a2) := by
  unfold State.clearCauses
  repeat' first
    | with_reducible assumption | with_reducible refine keeps_foldl _ ?_ (fun t x ht => ?_)
    | with_reducible apply State.showHold_keeps | with_reducible apply State.countStarved_keeps
    | with_reducible apply State.updRegion_keeps

theorem State.clearCausesAll_keeps {z : State} {s : State} (a1) (h : Keeps z s) :
    Keeps z (State.clearCausesAll s a1) := by
  unfold State.clearCausesAll
  repeat' first
    | with_reducible assumption | with_reducible refine keeps_foldl _ ?_ (fun t x ht => ?_)
    | with_reducible apply Keeps.ite | with_reducible apply State.clearCauses_keeps

theorem State.fwrap_keeps {z : State} {s : State} (a1) (a2) (h : Keeps z s) : Keeps z (State.fwrap s a1 a2) := by
  unfold State.fwrap
  repeat' first | with_reducible assumption | with_reducible apply State.fset_keeps

theorem State.trace_keeps {z : State} {s : State} (a1) (a2) (a3) (a4) (h : Keeps z s) :
    Keeps z (State.trace s a1 a2 a3 a4) := by
  unfold State.trace
  repeat' first
    | with_reducible assumption | with_reducible apply Keeps.ite | with_reducible apply State.fwrap_keeps
    | ((try lift_lets); intro x; clear_value x) | (fail_if_no_progress (with_reducible apply Keeps.upd))

theorem State.free_keeps {z : State} {s : State} (h : Keeps z s) : Keeps z (State.free s).2 := by
  unfold State.free
  repeat' first | with_reducible assumption | (fail_if_no_progress (with_reducible apply Keeps.upd))

theorem State.updCtr_keeps {z : State} {s : State} (a1) (a2) (h : Keeps z s) : Keeps z (State.updCtr s a1 a2) := by
  unfold State.updCtr
  repeat' first | with_reducible assumption | (fail_if_no_progress (with_reducible apply Keeps.upd))

theorem State.addAct_keeps {z : State} {s : State} (a1) (h : Keeps z s) : Keeps z (State.addAct s a1) := by
  unfold State.addAct
  repeat' first | with_reducible assumption | (fail_if_no_progress (with_reducible apply Keeps.upd))

theorem State.updBarn_keeps {z : State} {s : State} (a1) (a2) (h : Keeps z s) : Keeps z (State.updBarn s a1 a2) := by
  unfold State.updBarn
  repeat' first | with_reducible assumption | (fail_if_no_progress (with_reducible apply Keeps.upd))

theorem State.addCause_keeps {z : State} {s : State} (a1) (a2) (a3) (a4) (a5) (a6) (h : Keeps z s) :
    Keeps z (State.addCause s a1 a2 a3 a4 a5 a6) := by
  unfold State.addCause
  repeat' first
    | with_reducible assumption | with_reducible apply Keeps.ite
    | with_reducible apply State.updRegion_keeps | with_reducible apply State.fset_keeps
    | with_reducible apply State.showHold_keeps | with_reducible apply State.trace_keeps
    | with_reducible apply State.fwrap_keeps

end Sys2Proof.Machine
end

