-- ==== Sys2Proof/Laws/Keeps/Raise.lean ====
section
/-! SUPPORT. What the operations of Sys2Proof/Machine/Raise.lean keep: the queue, the fuses, and the form of the register
file. -/

namespace Sys2Proof.Machine

theorem State.sendRec_keeps {z : State} {s : State} (a1) (h : Keeps z s) : Keeps z (State.sendRec s a1) := by
  unfold State.sendRec
  repeat' first
    | with_reducible assumption | with_reducible refine keeps_foldl _ ?_ (fun t x ht => ?_)
    | with_reducible apply State.ctrlSend_keeps

theorem State.raiseRec_keeps {z : State} {s : State} (a1) (h : Keeps z s) : Keeps z (State.raiseRec s a1) := by
  unfold State.raiseRec
  repeat' first
    | with_reducible assumption | with_reducible apply State.fsat_keeps
    | with_reducible apply State.sendRec_keeps | ((try lift_lets); intro x; clear_value x) | split
    | (fail_if_no_progress (with_reducible apply Keeps.upd))

theorem State.haltStalls_keeps {z : State} {s : State} (a1) (h : Keeps z s) : Keeps z (State.haltStalls s a1) := by
  unfold State.haltStalls
  repeat' first
    | with_reducible assumption | with_reducible refine keeps_foldl _ ?_ (fun t x ht => ?_)
    | with_reducible apply Keeps.ite | with_reducible apply State.updJob_keeps
    | with_reducible apply State.updStall_keeps | with_reducible apply State.updLoft_keeps
    | with_reducible apply State.clearCausesAll_keeps

theorem State.dropGone_keeps {z : State} {s : State} (a1) (h : Keeps z s) : Keeps z (State.dropGone s a1) := by
  unfold State.dropGone
  repeat' first
    | with_reducible assumption | with_reducible apply Keeps.ite
    | with_reducible apply State.updStall_keeps
    | ((try lift_lets); intro x; refine Keeps.have_ (z := z) (x := x) ?_ ?_;
        (on_goal 2 => (intro hx; clear_value x)); subst x)
    | (fail_if_no_progress (with_reducible apply Keeps.upd))

theorem State.haltRegion_keeps {z : State} {s : State} (a1) (a2) (a3) (h : Keeps z s) :
    Keeps z (State.haltRegion s a1 a2 a3) := by
  unfold State.haltRegion
  repeat' first
    | with_reducible assumption | with_reducible refine keeps_foldl _ ?_ (fun t x ht => ?_)
    | with_reducible apply Keeps.ite | with_reducible apply State.dropGone_keeps
    | with_reducible apply State.updStall_keeps | with_reducible apply State.clearCauses_keeps
    | with_reducible apply State.updLoft_keeps | (fail_if_no_progress (with_reducible apply Keeps.upd))

theorem State.endBeat_keeps {z : State} {s : State} (a1) (a2) (h : Keeps z s) : Keeps z (State.endBeat s a1 a2) := by
  unfold State.endBeat
  repeat' first
    | with_reducible assumption | with_reducible refine keeps_foldl _ ?_ (fun t x ht => ?_)
    | with_reducible apply Keeps.ite | with_reducible apply State.dropGone_keeps
    | with_reducible apply State.haltRegion_keeps
    | ((try lift_lets); intro x; refine Keeps.have_ (z := z) (x := x) ?_ ?_;
        (on_goal 2 => (intro hx; clear_value x)); subst x)
    | split

theorem State.endRecovery_keeps {z : State} {s : State} (a1) (a2) (a3) (a4) (h : Keeps z s) :
    Keeps z (State.endRecovery s a1 a2 a3 a4) := by
  unfold State.endRecovery
  repeat' first
    | with_reducible assumption | ((try lift_lets); intro x; clear_value x)
    | (fail_if_no_progress (with_reducible apply Keeps.upd))

end Sys2Proof.Machine
end

