-- ==== Sys2Proof/Laws/Keeps/Units.lean ====
section
/-! SUPPORT. What the operations of Sys2Proof/Machine/Units.lean keep: the queue, the fuses, and the form of the register
file. -/

namespace Sys2Proof.Machine

theorem State.updFab_keeps {z : State} {s : State} (a1) (h : Keeps z s) : Keeps z (State.updFab s a1) := by
  unfold State.updFab
  repeat' first | with_reducible assumption | (fail_if_no_progress (with_reducible apply Keeps.upd))

theorem State.hostWrite_keeps {z : State} {s : State} (a1) (a2) (a3) (h : Keeps z s) :
    Keeps z (State.hostWrite s a1 a2 a3) := by
  unfold State.hostWrite
  repeat' first
    | with_reducible assumption | with_reducible apply Keeps.ite | with_reducible apply State.setReg_keeps
    | with_reducible apply State.send_keeps

theorem State.updHst_keeps {z : State} {s : State} (a1) (a2) (h : Keeps z s) : Keeps z (State.updHst s a1 a2) := by
  unfold State.updHst
  repeat' first | with_reducible assumption | (fail_if_no_progress (with_reducible apply Keeps.upd))

theorem State.fireVec_keeps {z : State} {s : State} (a1) (a2) (a3) (h : Keeps z s) :
    Keeps z (State.fireVec s a1 a2 a3) := by
  unfold State.fireVec
  repeat' first
    | with_reducible assumption | with_reducible apply Keeps.ite | with_reducible apply State.updHst_keeps
    | with_reducible apply State.send_keeps

theorem State.updSrv_keeps {z : State} {s : State} (a1) (a2) (h : Keeps z s) : Keeps z (State.updSrv s a1 a2) := by
  unfold State.updSrv
  repeat' first | with_reducible assumption | (fail_if_no_progress (with_reducible apply Keeps.upd))

theorem State.writeCpl_keeps {z : State} {s : State} (a1) (a2) (h : Keeps z s) : Keeps z (State.writeCpl s a1 a2) := by
  unfold State.writeCpl
  repeat' first | with_reducible assumption | with_reducible apply State.hostWrite_keeps | split

theorem State.flushCpl_keeps {z : State} {s : State} (a1) (h : Keeps z s) : Keeps z (State.flushCpl s a1) := by
  unfold State.flushCpl
  repeat' first
    | with_reducible assumption | with_reducible refine keeps_foldl _ ?_ (fun t x ht => ?_)
    | with_reducible apply Keeps.ite | with_reducible apply State.hostWrite_keeps
    | with_reducible apply State.writeCpl_keeps
    | with_reducible apply State.fireVec_keeps | with_reducible apply State.fset_keeps
    | with_reducible apply State.updSrv_keeps

theorem State.pushCpl_keeps {z : State} {s : State} (a1) (a2) (h : Keeps z s) : Keeps z (State.pushCpl s a1 a2) := by
  unfold State.pushCpl
  repeat' first
    | with_reducible assumption | with_reducible apply State.flushCpl_keeps
    | with_reducible apply State.updSrv_keeps

theorem State.updLink_keeps {z : State} {s : State} (a1) (a2) (h : Keeps z s) : Keeps z (State.updLink s a1 a2) := by
  unfold State.updLink
  repeat' first | with_reducible assumption | (fail_if_no_progress (with_reducible apply Keeps.upd))

theorem State.updYok_keeps {z : State} {s : State} (a1) (a2) (h : Keeps z s) : Keeps z (State.updYok s a1 a2) := by
  unfold State.updYok
  repeat' first
    | with_reducible assumption | ((try lift_lets); intro x; clear_value x)
    | (fail_if_no_progress (with_reducible apply Keeps.upd))

theorem State.flushDev_keeps {z : State} {s : State} (a1) (h : Keeps z s) : Keeps z (State.flushDev s a1) := by
  unfold State.flushDev
  repeat' first
    | with_reducible assumption | with_reducible refine keeps_foldl _ ?_ (fun t x ht => ?_)
    | with_reducible apply Keeps.ite | with_reducible apply State.hostWrite_keeps
    | with_reducible apply State.fireVec_keeps | with_reducible apply State.updHst_keeps

theorem State.devRec_keeps {z : State} {s : State} (a1) (a2) (h : Keeps z s) : Keeps z (State.devRec s a1 a2) := by
  unfold State.devRec
  repeat' first
    | with_reducible assumption | with_reducible apply Keeps.ite
    | with_reducible apply State.flushDev_keeps | with_reducible apply State.updHst_keeps

theorem State.updInfo_keeps {z : State} {s : State} (a1) (a2) (h : Keeps z s) : Keeps z (State.updInfo s a1 a2) := by
  unfold State.updInfo
  repeat' first | with_reducible assumption | (fail_if_no_progress (with_reducible apply Keeps.upd))

theorem State.updRing_keeps {z : State} {s : State} (a1) (a2) (h : Keeps z s) : Keeps z (State.updRing s a1 a2) := by
  unfold State.updRing
  repeat' first | with_reducible assumption | (fail_if_no_progress (with_reducible apply Keeps.upd))

theorem State.updSec_keeps {z : State} {s : State} (a1) (a2) (h : Keeps z s) : Keeps z (State.updSec s a1 a2) := by
  unfold State.updSec
  repeat' first
    | with_reducible assumption | ((try lift_lets); intro x; clear_value x)
    | (fail_if_no_progress (with_reducible apply Keeps.upd))

theorem State.setReport_keeps {z : State} {s : State} (a1) (a2) (h : Keeps z s) :
    Keeps z (State.setReport s a1 a2) := by
  unfold State.setReport
  repeat' first | with_reducible assumption | (fail_if_no_progress (with_reducible apply Keeps.upd))

theorem State.devNote_keeps {z : State} {s : State} (a1) (a2) (a3) (a4) (a5) (a6) (h : Keeps z s) :
    Keeps z (State.devNote s a1 a2 a3 a4 a5 a6) := by
  unfold State.devNote
  repeat' first | with_reducible assumption | with_reducible apply State.devRec_keeps

end Sys2Proof.Machine
end

