-- ==== Sys2Proof/Laws/Keeps/LinkOps.lean ====
section
/-! SUPPORT. What the operations of Sys2Proof/Machine/LinkOps.lean keep: the queue, the fuses, and the form of the register
file. -/

namespace Sys2Proof.Machine

theorem State.updOut_keeps {z : State} {s : State} (a1) (a2) (h : Keeps z s) : Keeps z (State.updOut s a1 a2) := by
  unfold State.updOut
  repeat' first | with_reducible assumption | with_reducible apply State.updFab_keeps

theorem State.handOver_keeps {z : State} {s : State} (a1) (a2) (a3) (a4) (a5) (a6) (h : Keeps z s) :
    Keeps z (State.handOver s a1 a2 a3 a4 a5 a6) := by
  unfold State.handOver
  repeat' first
    | with_reducible assumption | with_reducible apply State.updFab_keeps
    | with_reducible apply State.updOut_keeps

theorem State.tryOriginate_keeps {z : State} {s : State} (a1) (a2) (a3) (a4) (a5) (h : Keeps z s) :
    Keeps z (State.tryOriginate s a1 a2 a3 a4 a5).1 := by
  unfold State.tryOriginate
  repeat' first
    | with_reducible assumption | with_reducible apply Keeps.ite_fst
    | with_reducible apply State.raiseRec_keeps | with_reducible apply State.handOver_keeps | split

theorem State.tryControl_keeps {z : State} {s : State} (a1) (a2) (a3) (a4) (a5) (h : Keeps z s) :
    Keeps z (State.tryControl s a1 a2 a3 a4 a5).1 := by
  unfold State.tryControl
  repeat' first | with_reducible assumption | with_reducible apply State.tryOriginate_keeps

theorem State.lnkErr_keeps {z : State} {s : State} (a1) (a2) (a3) (h : Keeps z s) :
    Keeps z (State.lnkErr s a1 a2 a3) := by
  unfold State.lnkErr
  repeat' first | with_reducible assumption | with_reducible apply State.raiseRec_keeps

theorem State.abortRx_keeps {z : State} {s : State} (a1) (a2) (h : Keeps z s) : Keeps z (State.abortRx s a1 a2) := by
  unfold State.abortRx
  repeat' first
    | with_reducible assumption | with_reducible refine keeps_foldl _ ?_ (fun t x ht => ?_)
    | with_reducible apply State.fsat_keeps | with_reducible apply State.updLink_keeps

theorem State.setPort_keeps {z : State} {s : State} (a1) (a2) (h : Keeps z s) : Keeps z (State.setPort s a1 a2) := by
  unfold State.setPort
  repeat' first
    | with_reducible assumption | with_reducible apply State.trace_keeps
    | with_reducible apply State.updLink_keeps | with_reducible apply State.fset_keeps

theorem State.markRoutes_keeps {z : State} {s : State} (a1) (h : Keeps z s) : Keeps z (State.markRoutes s a1).2 := by
  unfold State.markRoutes
  repeat' first
    | with_reducible assumption | with_reducible apply State.fwrap_keeps
    | with_reducible apply State.updFab_keeps

theorem State.sendBypass_keeps {z : State} {s : State} (a1) (a2) (h : Keeps z s) :
    Keeps z (State.sendBypass s a1 a2) := by
  unfold State.sendBypass
  repeat' first
    | with_reducible assumption | with_reducible apply Keeps.ite
    | with_reducible apply State.updLink_keeps

theorem State.sendNotices_keeps {z : State} {s : State} (a1) (a2) (a3) (h : Keeps z s) :
    Keeps z (State.sendNotices s a1 a2 a3) := by
  unfold State.sendNotices
  repeat' first
    | with_reducible assumption | with_reducible refine keeps_foldl _ ?_ (fun t x ht => ?_)
    | with_reducible apply Keeps.ite | with_reducible apply State.fwrap_keeps
    | with_reducible apply State.sendBypass_keeps

theorem State.linkDown_keeps {z : State} {s : State} (a1) (a2) (h : Keeps z s) :
    Keeps z (State.linkDown s a1 a2).2 := by
  unfold State.linkDown
  repeat' first
    | with_reducible assumption | with_reducible refine keeps_foldl _ ?_ (fun t x ht => ?_)
    | with_reducible apply Keeps.ite_snd | with_reducible apply State.lnkErr_keeps
    | with_reducible apply State.abortRx_keeps | with_reducible apply State.setPort_keeps
    | with_reducible apply State.updLink_keeps | with_reducible apply State.setReg_keeps
    | with_reducible apply State.markRoutes_keeps | with_reducible apply State.raiseRec_keeps
    | with_reducible apply State.sendNotices_keeps | ((try lift_lets); intro x; clear_value x)
    | (fail_if_no_progress (with_reducible apply Keeps.upd))

theorem State.linkDownOpen_keeps {z : State} {s : State} (a1) (h : Keeps z s) :
    Keeps z (State.linkDownOpen s a1).2 := by
  unfold State.linkDownOpen
  repeat' first
    | with_reducible assumption | with_reducible apply State.linkDown_keeps
    | with_reducible apply State.free_keeps

theorem State.emit_keeps {z : State} {s : State} (a1) (a2) (h : Keeps z s) : Keeps z (State.emit s a1 a2) := by
  unfold State.emit
  repeat' first
    | with_reducible assumption | with_reducible apply State.updLink_keeps
    | with_reducible apply State.send_keeps

theorem State.putFlit_keeps {z : State} {s : State} (a1) (a2) (a3) (h : Keeps z s) :
    Keeps z (State.putFlit s a1 a2 a3) := by
  unfold State.putFlit
  repeat' first
    | with_reducible assumption | with_reducible apply State.updLink_keeps
    | with_reducible apply State.emit_keeps

theorem State.linkNotice_keeps {z : State} {s : State} (a1) (h : Keeps z s) : Keeps z (State.linkNotice s a1) := by
  unfold State.linkNotice
  repeat' first
    | with_reducible assumption | with_reducible apply Keeps.ite | with_reducible apply State.fwrap_keeps
    | with_reducible apply State.putFlit_keeps

theorem State.updIn_keeps {z : State} {s : State} (a1) (a2) (h : Keeps z s) : Keeps z (State.updIn s a1 a2) := by
  unfold State.updIn
  repeat' first | with_reducible assumption | with_reducible apply State.updFab_keeps

theorem State.freeRx_keeps {z : State} {s : State} (a1) (a2) (a3) (h : Keeps z s) :
    Keeps z (State.freeRx s a1 a2 a3) := by
  unfold State.freeRx
  repeat' first | with_reducible assumption | with_reducible apply State.updLink_keeps

theorem State.setRoute_keeps {z : State} {s : State} (a1) (a2) (a3) (h : Keeps z s) :
    Keeps z (State.setRoute s a1 a2 a3) := by
  unfold State.setRoute
  repeat' first | with_reducible assumption | with_reducible apply State.updFab_keeps

end Sys2Proof.Machine
end

