-- ==== Sys2Proof/Laws/Keeps/Fail.lean ====
section
/-! SUPPORT. What the operations of Sys2Proof/Machine/Fail.lean keep: the queue, the fuses, and the form of the register
file. -/

namespace Sys2Proof.Machine

theorem State.haltControl_keeps {z : State} {s : State} (a1) (a2) (a3) (a4) (h : Keeps z s) :
    Keeps z (State.haltControl s a1 a2 a3 a4) := by
  unfold State.haltControl
  repeat' first | with_reducible assumption | with_reducible apply State.tryControl_keeps

theorem State.headHalt_keeps {z : State} {s : State} (a1) (a2) (h : Keeps z s) :
    Keeps z (State.headHalt s a1 a2) := by
  unfold State.headHalt
  repeat' first
    | with_reducible assumption | with_reducible refine keeps_foldl _ ?_ (fun t x ht => ?_)
    | with_reducible apply Keeps.ite | with_reducible apply State.haltControl_keeps
    | with_reducible apply State.pushCpl_keeps | with_reducible apply State.fset_keeps
    | with_reducible apply State.updSrv_keeps | ((try lift_lets); intro x; try clear_value x)

theorem State.haltSends_keeps {z : State} {s : State} (a1) (a2) (h : Keeps z s) :
    Keeps z (State.haltSends s a1 a2) := by
  unfold State.haltSends
  repeat' first
    | with_reducible assumption | with_reducible apply Keeps.ite | with_reducible apply State.fset_keeps
    | with_reducible apply State.haltControl_keeps | with_reducible apply State.headHalt_keeps

theorem State.haltNow_keeps {z : State} {s : State} (a1) (a2) (h : Keeps z s) : Keeps z (State.haltNow s a1 a2) := by
  unfold State.haltNow
  repeat' first
    | with_reducible assumption | with_reducible apply Keeps.ite
    | with_reducible apply State.haltSends_keeps | with_reducible apply State.haltStalls_keeps

theorem State.deviceFatal_keeps {z : State} {s : State} (a1) (h : Keeps z s) : Keeps z (State.deviceFatal s a1) := by
  unfold State.deviceFatal
  repeat' first
    | with_reducible assumption | with_reducible refine keeps_foldl _ ?_ (fun t x ht => ?_)
    | with_reducible apply State.haltNow_keeps | with_reducible apply State.linkDownOpen_keeps
    | with_reducible apply State.linkNotice_keeps | ((try lift_lets); intro x; clear_value x)
    | (fail_if_no_progress (with_reducible apply Keeps.upd))

theorem State.haltBoundary_keeps {z : State} {s : State} (a1) (a2) (a3) (h : Keeps z s) :
    Keeps z (State.haltBoundary s a1 a2 a3) := by
  unfold State.haltBoundary
  repeat' first
    | with_reducible assumption | with_reducible apply Keeps.ite
    | with_reducible apply State.haltNow_keeps | with_reducible apply State.updJob_keeps | split

theorem State.raise_keeps {z : State} {s : State} (a1) (h : Keeps z s) : Keeps z (State.raise s a1) := by
  unfold State.raise
  repeat' first
    | with_reducible assumption | with_reducible refine keeps_foldl _ ?_ (fun t x ht => ?_)
    | with_reducible apply Keeps.ite | with_reducible apply State.raiseRec_keeps
    | with_reducible apply State.deviceFatal_keeps | with_reducible apply State.haltBoundary_keeps
    | with_reducible apply State.haltNow_keeps | split

theorem State.hubErr_keeps {z : State} {s : State} (a1) (a2) (a3) (h : Keeps z s) :
    Keeps z (State.hubErr s a1 a2 a3) := by
  unfold State.hubErr
  repeat' first | with_reducible assumption | with_reducible apply State.raise_keeps

theorem State.originate_keeps {z : State} {s : State} (a1) (a2) (a3) (a4) (h : Keeps z s) :
    Keeps z (State.originate s a1 a2 a3 a4) := by
  unfold State.originate
  repeat' first
    | with_reducible assumption | with_reducible apply Keeps.ite
    | with_reducible apply State.tryOriginate_keeps | with_reducible apply State.haltNow_keeps

theorem State.sendControl_keeps {z : State} {s : State} (a1) (a2) (a3) (a4) (a5) (h : Keeps z s) :
    Keeps z (State.sendControl s a1 a2 a3 a4 a5) := by
  unfold State.sendControl
  repeat' first
    | with_reducible assumption | with_reducible apply Keeps.ite
    | with_reducible apply State.tryControl_keeps | with_reducible apply State.haltNow_keeps

theorem State.raiseStlAt_keeps {z : State} {s : State} (a1) (a2) (a3) (a4) (a5) (a6) (a7) (h : Keeps z s) :
    Keeps z (State.raiseStlAt s a1 a2 a3 a4 a5 a6 a7) := by
  unfold State.raiseStlAt
  repeat' first
    | with_reducible assumption | with_reducible apply Keeps.ite | with_reducible apply State.fset_keeps
    | with_reducible apply State.raise_keeps

theorem State.raiseStl_keeps {z : State} {s : State} (a1) (a2) (a3) (a4) (a5) (a6) (h : Keeps z s) :
    Keeps z (State.raiseStl s a1 a2 a3 a4 a5 a6) := by
  unfold State.raiseStl
  repeat' first | with_reducible assumption | with_reducible apply State.raiseStlAt_keeps

theorem State.controlPeers_keeps {z : State} {s : State} (a1) (a2) (a3) (a4) (h : Keeps z s) :
    Keeps z (State.controlPeers s a1 a2 a3 a4) := by
  unfold State.controlPeers
  repeat' first
    | with_reducible assumption | with_reducible refine keeps_foldl _ ?_ (fun t x ht => ?_)
    | with_reducible apply State.sendControl_keeps

theorem State.hubOnce_keeps {z : State} {s : State} (a1) (a2) (a3) (h : Keeps z s) :
    Keeps z (State.hubOnce s a1 a2 a3) := by
  unfold State.hubOnce
  repeat' first
    | with_reducible assumption | with_reducible apply Keeps.ite | with_reducible apply State.raise_keeps
    | with_reducible apply State.setReport_keeps

theorem State.stlErr_keeps {z : State} {s : State} (a1) (a2) (a3) (a4) (h : Keeps z s) :
    Keeps z (State.stlErr s a1 a2 a3 a4) := by
  unfold State.stlErr
  repeat' first | with_reducible assumption | with_reducible apply State.raiseStl_keeps

theorem State.stlErrAt_keeps {z : State} {s : State} (a1) (a2) (a3) (a4) (a5) (h : Keeps z s) :
    Keeps z (State.stlErrAt s a1 a2 a3 a4 a5) := by
  unfold State.stlErrAt
  repeat' first | with_reducible assumption | with_reducible apply State.raiseStlAt_keeps

end Sys2Proof.Machine
end

