-- ==== Sys2Proof/Laws/Keeps/Engine.lean ====
section
/-! SUPPORT. What the operations of Sys2Proof/Machine/Engine.lean keep: the queue, the fuses, and the form of the register
file. -/

namespace Sys2Proof.Machine

theorem State.settle_keeps {z : State} {s : State} (a1) (h : Keeps z s) : Keeps z (State.settle s a1) := by
  unfold State.settle
  repeat' first
    | with_reducible assumption | with_reducible apply Keeps.ite | with_reducible apply State.updCtr_keeps
    | with_reducible apply State.raiseStl_keeps | with_reducible apply State.raise_keeps

theorem State.closeCtr_keeps {z : State} {s : State} (a1) (h : Keeps z s) : Keeps z (State.closeCtr s a1) := by
  unfold State.closeCtr
  repeat' first
    | with_reducible assumption | with_reducible apply State.updCtr_keeps
    | with_reducible apply State.settle_keeps

theorem State.closeCtrs_keeps {z : State} {s : State} (a1) (h : Keeps z s) : Keeps z (State.closeCtrs s a1) := by
  unfold State.closeCtrs
  repeat' first
    | with_reducible assumption | with_reducible refine keeps_foldl _ ?_ (fun t x ht => ?_)
    | with_reducible apply State.closeCtr_keeps

theorem State.signal_keeps {z : State} {s : State} (a1) (a2) (h : Keeps z s) : Keeps z (State.signal s a1 a2) := by
  unfold State.signal
  repeat' first | with_reducible assumption | with_reducible apply State.updCtr_keeps

theorem State.ctrWrite_keeps {z : State} {s : State} (a1) (a2) (h : Keeps z s) :
    Keeps z (State.ctrWrite s a1 a2) := by
  unfold State.ctrWrite
  repeat' first | with_reducible assumption | with_reducible apply State.updCtr_keeps

end Sys2Proof.Machine
end

