-- ==== Sys2Proof/Laws/Keeps/Spad.lean ====
section
/-! SUPPORT. What the operations of Sys2Proof/Machine/Spad.lean keep: the queue, the fuses, and the form of the register
file. -/

namespace Sys2Proof.Machine

theorem State.writeLine_keeps {z : State} {s : State} (a1) (a2) (a3) (a4) (h : Keeps z s) :
    Keeps z (State.writeLine s a1 a2 a3 a4) := by
  unfold State.writeLine
  repeat' first | with_reducible assumption | with_reducible apply State.updStall_keeps

theorem State.useBank_keeps {z : State} {s : State} (a1) (a2) (a3) (a4) (a5) (h : Keeps z s) :
    Keeps z (State.useBank s a1 a2 a3 a4 a5).2 := by
  unfold State.useBank
  repeat' first
    | with_reducible assumption | with_reducible apply State.updStall_keeps
    | ((try lift_lets); intro x; clear_value x) | split

theorem State.spadErr_keeps {z : State} {s : State} (a1) (a2) (a3) (a4) (a5) (a6) (a7) (h : Keeps z s) :
    Keeps z (State.spadErr s a1 a2 a3 a4 a5 a6 a7) := by
  unfold State.spadErr
  repeat' first
    | with_reducible assumption | with_reducible apply Keeps.ite | with_reducible apply State.fsat_keeps
    | with_reducible apply State.fset_keeps | with_reducible apply State.raiseStl_keeps | split

theorem State.checkEpoch_keeps {z : State} {s : State} (a1) (a2) (a3) (a4) (a5) (a6) (h : Keeps z s) :
    Keeps z (State.checkEpoch s a1 a2 a3 a4 a5 a6).2 := by
  unfold State.checkEpoch
  repeat' first
    | with_reducible assumption | with_reducible apply Keeps.ite_snd
    | with_reducible apply State.spadErr_keeps | split | (fail_if_no_progress (with_reducible apply Keeps.upd))

theorem State.spadEcc_keeps {z : State} {s : State} (a1) (a2) (a3) (a4) (h : Keeps z s) :
    Keeps z (State.spadEcc s a1 a2 a3 a4) := by
  unfold State.spadEcc
  repeat' first
    | with_reducible assumption | with_reducible apply Keeps.ite
    | with_reducible apply State.spadErr_keeps | with_reducible apply State.updStall_keeps

theorem State.rdLine_keeps {z : State} {s : State} (a1) (a2) (a3) (a4) (a5) (a6) (a7) (a8) (h : Keeps z s) :
    Keeps z (State.rdLine s a1 a2 a3 a4 a5 a6 a7 a8).2 := by
  unfold State.rdLine
  repeat' first
    | with_reducible assumption | with_reducible apply Keeps.ite_snd
    | with_reducible apply State.useBank_keeps | with_reducible apply State.checkEpoch_keeps
    | with_reducible apply State.spadEcc_keeps | ((try lift_lets); intro x; clear_value x) | split

theorem State.rdLines_keeps {z : State} (b k beat rank ord : Nat) (ep : Option Nat) (ecc : List EccHit) (ls : List Nat) {s : State}
    (h : Keeps z s) : Keeps z (s.rdLines b k beat rank ord ep ecc ls).2 := by
  induction ls generalizing s with
  | nil => exact h
  | cons l ls ih =>
    unfold State.rdLines
    repeat' first | with_reducible assumption | with_reducible apply ih | with_reducible apply State.rdLine_keeps

theorem State.raiseClash_keeps {z : State} {s : State} (a1) (h : Keeps z s) : Keeps z (State.raiseClash s a1) := by
  unfold State.raiseClash
  repeat' first
    | with_reducible assumption | with_reducible apply Keeps.ite
    | with_reducible apply State.updStall_keeps | with_reducible apply State.spadErr_keeps
    | ((try lift_lets); intro x; clear_value x) | split | dsimp only

theorem State.putLine_keeps {z : State} {s : State} (a1) (a2) (a3) (a4) (a5) (a6) (h : Keeps z s) :
    Keeps z (State.putLine s a1 a2 a3 a4 a5 a6) := by
  unfold State.putLine
  repeat' first
    | with_reducible assumption | with_reducible apply Keeps.ite
    | with_reducible apply State.useBank_keeps | with_reducible apply State.writeLine_keeps

theorem State.putBytes_keeps {z : State} {s : State} (a1) (a2) (a3) (a4) (a5) (a6) (a7) (h : Keeps z s) :
    Keeps z (State.putBytes s a1 a2 a3 a4 a5 a6 a7) := by
  unfold State.putBytes
  repeat' first
    | with_reducible assumption | with_reducible refine keeps_foldl _ ?_ (fun t x ht => ?_)
    | with_reducible apply State.putLine_keeps

end Sys2Proof.Machine
end

