-- ==== Sys2Proof/Laws/Keeps/Issue.lean ====
section
/-! SUPPORT. What the operations of Sys2Proof/Machine/Issue.lean keep: the queue, the fuses, and the form of the register
file. -/

namespace Sys2Proof.Machine

theorem State.countDone_keeps {z : State} {s : State} (a1) (a2) (a3) (h : Keeps z s) :
    Keeps z (State.countDone s a1 a2 a3) := by
  unfold State.countDone
  repeat' first
    | with_reducible assumption | with_reducible apply Keeps.ite | with_reducible apply State.fwrap_keeps
    | split

theorem State.complete_keeps {z : State} {s : State} (a1) (a2) (a3) (h : Keeps z s) :
    Keeps z (State.complete s a1 a2 a3) := by
  unfold State.complete
  repeat' first
    | with_reducible assumption | with_reducible apply Keeps.ite
    | with_reducible apply State.updStall_keeps | with_reducible apply State.signal_keeps
    | with_reducible apply State.countDone_keeps | ((try lift_lets); intro x; clear_value x) | split

theorem State.inFlight_keeps {z : State} {s : State} (a1) (a2) (a3) (a4) (a5) (a6) (a7) (a8) (h : Keeps z s) :
    Keeps z (State.inFlight s a1 a2 a3 a4 a5 a6 a7 a8) := by
  unfold State.inFlight
  repeat' first | with_reducible assumption | with_reducible apply State.updStall_keeps

theorem State.traceIssue_keeps {z : State} {s : State} (a1) (a2) (a3) (a4) (h : Keeps z s) :
    Keeps z (State.traceIssue s a1 a2 a3 a4) := by
  unfold State.traceIssue
  repeat' first | with_reducible assumption | with_reducible apply Keeps.ite | with_reducible apply State.trace_keeps

theorem State.issueHead_keeps {z : State} {s : State} (a1) (a2) (a3) (a4) (a5) (h : Keeps z s) :
    Keeps z (State.issueHead s a1 a2 a3 a4 a5) := by
  unfold State.issueHead
  repeat' first
    | with_reducible assumption | with_reducible apply Keeps.ite
    | with_reducible apply State.traceIssue_keeps | with_reducible apply State.updStall_keeps
    | with_reducible apply State.updCtr_keeps | with_reducible apply State.signal_keeps
    | with_reducible apply State.stlErr_keeps | split

theorem State.issue_keeps {z s : State} {b k e : Nat} {p : QCmd → Bool} {body : State → Nat → Cmd → State}
    (h : Keeps z s) (hb : ∀ t j w, Keeps z t → Keeps z (body t j w)) : Keeps z (s.issue b k e p body) := by
  unfold State.issue
  repeat' first
    | with_reducible assumption | with_reducible apply hb | with_reducible apply Keeps.ite
    | with_reducible apply State.issueHead_keeps | with_reducible apply State.addCause_keeps | split

end Sys2Proof.Machine
end

