-- ==== Sys2Proof/Laws/Keeps/LoftOps.lean ====
section
/-! SUPPORT. What the operations of Sys2Proof/Machine/LoftOps.lean keep: the queue, the fuses, and the form of the register
file. -/

namespace Sys2Proof.Machine

theorem State.loftFirst_keeps {z : State} {s : State} (a1) (a2) (a3) (h : Keeps z s) :
    Keeps z (State.loftFirst s a1 a2 a3) := by
  unfold State.loftFirst
  repeat' first | with_reducible assumption | with_reducible apply Keeps.ite | with_reducible apply State.fset_keeps

theorem State.loftErr_keeps {z : State} {s : State} (a1) (a2) (a3) (a4) (a5) (a6) (h : Keeps z s) :
    Keeps z (State.loftErr s a1 a2 a3 a4 a5 a6) := by
  unfold State.loftErr
  repeat' first
    | with_reducible assumption | with_reducible apply State.fsat_keeps
    | with_reducible apply State.raise_keeps | with_reducible apply State.loftFirst_keeps | split

theorem State.loftStore_keeps {z : State} {s : State} (a1) (a2) (a3) (a4) (a5) (a6) (h : Keeps z s) :
    Keeps z (State.loftStore s a1 a2 a3 a4 a5 a6) := by
  unfold State.loftStore
  repeat' first
    | with_reducible assumption | with_reducible apply Keeps.ite
    | with_reducible apply State.loftErr_keeps | with_reducible apply State.updLoft_keeps

theorem State.updBank_keeps {z : State} {s : State} (a1) (a2) (a3) (h : Keeps z s) :
    Keeps z (State.updBank s a1 a2 a3) := by
  unfold State.updBank
  repeat' first | with_reducible assumption | with_reducible apply State.updLoft_keeps

theorem State.showSpares_keeps {z : State} {s : State} (a1) (h : Keeps z s) : Keeps z (State.showSpares s a1) := by
  unfold State.showSpares
  repeat' first | with_reducible assumption | with_reducible apply State.fset_keeps

theorem State.useLoft_keeps {z : State} {s : State} (a1) (a2) (a3) (a4) (a5) (a6) (h : Keeps z s) :
    Keeps z (State.useLoft s a1 a2 a3 a4 a5 a6).2 := by
  unfold State.useLoft
  repeat' first
    | with_reducible assumption | with_reducible apply State.updLoft_keeps
    | ((try lift_lets); intro x; clear_value x) | split

theorem State.noSpares_keeps {z : State} {s : State} (a1) (a2) (a3) (a4) (h : Keeps z s) :
    Keeps z (State.noSpares s a1 a2 a3 a4) := by
  unfold State.noSpares
  repeat' first
    | with_reducible assumption | with_reducible apply Keeps.ite | with_reducible apply State.raise_keeps
    | with_reducible apply State.loftFirst_keeps | with_reducible apply State.updBank_keeps

theorem State.retireRow_keeps {z : State} {s : State} (a1) (a2) (a3) (h : Keeps z s) :
    Keeps z (State.retireRow s a1 a2 a3) := by
  unfold State.retireRow
  repeat' first
    | with_reducible assumption | with_reducible apply Keeps.ite | with_reducible apply State.fset_keeps
    | with_reducible apply State.updBank_keeps | with_reducible apply State.showSpares_keeps
    | with_reducible apply State.noSpares_keeps
    | ((try lift_lets); intro x; refine Keeps.have_ (z := z) (x := x) ?_ ?_;
        (on_goal 2 => (intro hx; clear_value x)); subst x)
    | ((try lift_lets); intro x; clear_value x) | (fail_if_no_progress (with_reducible apply Keeps.upd))

theorem State.beginRetire_keeps {z : State} {s : State} (a1) (a2) (a3) (h : Keeps z s) :
    Keeps z (State.beginRetire s a1 a2 a3) := by
  unfold State.beginRetire
  repeat' first
    | with_reducible assumption | with_reducible apply Keeps.ite
    | with_reducible apply State.updLoft_keeps | with_reducible apply State.retireRow_keeps

theorem State.loftRead_keeps {z : State} {s : State} (a1) (a2) (a3) (a4) (h : Keeps z s) :
    Keeps z (State.loftRead s a1 a2 a3 a4).2.2 := by
  unfold State.loftRead
  repeat' first
    | with_reducible assumption | with_reducible apply Keeps.ite
    | with_reducible apply State.loftErr_keeps | with_reducible apply State.updLoft_keeps
    | with_reducible apply State.beginRetire_keeps
    | ((try lift_lets); intro x; refine Keeps.have_ (z := z) (x := x) ?_ ?_;
        (on_goal 2 => (intro hx; clear_value x)); subst x)
    | ((try lift_lets); intro x; clear_value x) | split

theorem State.holdFor_keeps {z : State} {s : State} (a1) (a2) (h : Keeps z s) : Keeps z (State.holdFor s a1 a2) := by
  unfold State.holdFor
  repeat' first
    | with_reducible assumption | with_reducible apply Keeps.ite | with_reducible apply State.addAct_keeps
    | with_reducible apply State.addCause_keeps

theorem State.bondAll_keeps {z : State} {s : State} (a1) (a2) (a3) (h : Keeps z s) :
    Keeps z (State.bondAll s a1 a2 a3) := by
  unfold State.bondAll
  repeat' first | with_reducible assumption | with_reducible apply State.updLoft_keeps

theorem State.bondUse_keeps {z : State} {s : State} (a1) (a2) (a3) (a4) (h : Keeps z s) :
    Keeps z (State.bondUse s a1 a2 a3 a4) := by
  unfold State.bondUse
  repeat' first
    | with_reducible assumption | with_reducible apply State.updStall_keeps
    | with_reducible apply State.bondAll_keeps

theorem State.giveBlock_keeps {z : State} {s : State} (a1) (a2) (h : Keeps z s) :
    Keeps z (State.giveBlock s a1 a2) := by
  unfold State.giveBlock
  repeat' first
    | with_reducible assumption | with_reducible apply State.updLoft_keeps
    | ((try lift_lets); intro x; refine Keeps.have_ (z := z) (x := x) ?_ ?_;
        (on_goal 2 => (intro hx; clear_value x)); subst x)
    | ((try lift_lets); intro x; clear_value x) | (fail_if_no_progress (with_reducible apply Keeps.upd))

theorem State.bondCheck_keeps {z : State} {s : State} (a1) (a2) (h : Keeps z s) :
    Keeps z (State.bondCheck s a1 a2) := by
  unfold State.bondCheck
  repeat' first
    | with_reducible assumption | with_reducible apply Keeps.ite
    | with_reducible apply State.addCause_keeps | with_reducible apply State.updStall_keeps

theorem State.bondCheckAll_keeps {z : State} {s : State} (a1) (a2) (h : Keeps z s) :
    Keeps z (State.bondCheckAll s a1 a2) := by
  unfold State.bondCheckAll
  repeat' first
    | with_reducible assumption | with_reducible apply Keeps.ite
    | with_reducible apply State.updLoft_keeps | with_reducible apply State.addCause_keeps

theorem State.raiseLoftClash_keeps {z : State} {s : State} (a1) (h : Keeps z s) :
    Keeps z (State.raiseLoftClash s a1) := by
  unfold State.raiseLoftClash
  repeat' first
    | with_reducible assumption | with_reducible apply Keeps.ite
    | with_reducible apply State.updLoft_keeps | with_reducible apply State.loftErr_keeps | split

theorem State.loftEnter_keeps {z : State} {s : State} (a1) (a2) (a3) (a4) (h : Keeps z s) :
    Keeps z (State.loftEnter s a1 a2 a3 a4) := by
  unfold State.loftEnter
  repeat' first
    | with_reducible assumption | with_reducible apply Keeps.ite
    | with_reducible apply State.updLoft_keeps | with_reducible apply State.updBank_keeps
    | with_reducible apply State.loftErr_keeps

theorem State.loftLeave_keeps {z : State} {s : State} (a1) (a2) (a3) (h : Keeps z s) :
    Keeps z (State.loftLeave s a1 a2 a3) := by
  unfold State.loftLeave
  repeat' first
    | with_reducible assumption | with_reducible apply State.updLoft_keeps
    | with_reducible apply State.updBank_keeps

end Sys2Proof.Machine
end

