-- ==== Sys2Proof/Laws/Keeps/Vector.lean ====
section
/-! SUPPORT. What the operations of Sys2Proof/Machine/Vector.lean keep: the queue, the fuses, and the form of the register
file. -/

namespace Sys2Proof.Machine

theorem State.vecEcc_keeps {z : State} {s : State} (a1) (a2) (a3) (a4) (h : Keeps z s) :
    Keeps z (State.vecEcc s a1 a2 a3 a4) := by
  unfold State.vecEcc
  repeat' first
    | with_reducible assumption | with_reducible apply Keeps.ite
    | with_reducible apply State.raiseStl_keeps | with_reducible apply State.fsat_keeps
    | with_reducible apply State.updStall_keeps

theorem State.vecHits_keeps {z : State} (i reg : Nat) (hs : List EccHit) {s : State} (h : Keeps z s) :
    Keeps z (s.vecHits i reg hs).2 := by
  induction hs generalizing s with
  | nil => exact h
  | cons e hs ih =>
    unfold State.vecHits
    repeat' first
      | with_reducible assumption | with_reducible apply ih | with_reducible apply Keeps.ite_snd
      | with_reducible apply State.vecEcc_keeps

theorem State.takeMask_keeps {z : State} {s : State} (a1) (a2) (h : Keeps z s) :
    Keeps z (State.takeMask s a1 a2).2 := by
  unfold State.takeMask
  repeat' first
    | with_reducible assumption | with_reducible apply Keeps.ite
    | with_reducible apply State.vecHits_keeps | with_reducible apply State.updStall_keeps

theorem State.takeReg_keeps {z : State} {s : State} (a1) (a2) (h : Keeps z s) :
    Keeps z (State.takeReg s a1 a2).2 := by
  unfold State.takeReg
  repeat' first
    | with_reducible assumption | with_reducible refine keeps_foldl _ ?_ (fun t x ht => ?_)
    | with_reducible apply State.vecHits_keeps | with_reducible apply State.updStall_keeps

theorem State.repEnds_keeps {z : State} {s : State} (a1) (a2) (h : Keeps z s) : Keeps z (State.repEnds s a1 a2) := by
  unfold State.repEnds
  repeat' first | with_reducible assumption | with_reducible apply State.addAct_keeps

theorem State.vecCmp_keeps {z : State} {s : State} (a1) (a2) (a3) (a4) (a5) (a6) (h : Keeps z s) :
    Keeps z (State.vecCmp s a1 a2 a3 a4 a5 a6) := by
  unfold State.vecCmp
  repeat' first | with_reducible assumption | with_reducible apply State.addAct_keeps

theorem State.vecMlogic_keeps {z : State} {s : State} (a1) (a2) (a3) (a4) (h : Keeps z s) :
    Keeps z (State.vecMlogic s a1 a2 a3 a4) := by
  unfold State.vecMlogic
  repeat' first | with_reducible assumption | with_reducible apply State.addAct_keeps

theorem State.special152_keeps {z : State} {s : State} (a1) (a2) (h : Keeps z s) :
    Keeps z (State.special152 s a1 a2) := by
  unfold State.special152
  repeat' first | with_reducible assumption | with_reducible apply Keeps.ite | with_reducible apply State.fsat_keeps

theorem State.vecPack_keeps {z : State} {s : State} (a1) (a2) (a3) (a4) (a5) (a6) (h : Keeps z s) :
    Keeps z (State.vecPack s a1 a2 a3 a4 a5 a6).1 := by
  unfold State.vecPack
  repeat' first
    | with_reducible assumption | with_reducible apply State.special152_keeps
    | with_reducible apply State.addAct_keeps

theorem State.putReg_keeps {z : State} {s : State} (a1) (a2) (a3) (a4) (h : Keeps z s) :
    Keeps z (State.putReg s a1 a2 a3 a4) := by
  unfold State.putReg
  repeat' first | with_reducible assumption | with_reducible apply State.addAct_keeps

theorem State.vecUnpack_keeps {z : State} {s : State} (a1) (a2) (a3) (a4) (a5) (a6) (h : Keeps z s) :
    Keeps z (State.vecUnpack s a1 a2 a3 a4 a5 a6) := by
  unfold State.vecUnpack
  repeat' first
    | with_reducible assumption | with_reducible apply State.putReg_keeps
    | with_reducible apply State.special152_keeps

theorem State.vecReduce_keeps {z : State} {s : State} (a1) (a2) (a3) (a4) (a5) (h : Keeps z s) :
    Keeps z (State.vecReduce s a1 a2 a3 a4 a5) := by
  unfold State.vecReduce
  repeat' first
    | with_reducible assumption | with_reducible apply Keeps.ite | with_reducible apply State.putReg_keeps
    | with_reducible apply State.special152_keeps

theorem State.vecLanes_keeps {z : State} {s : State} (a1) (a2) (a3) (a4) (a5) (a6) (a7) (h : Keeps z s) :
    Keeps z (State.vecLanes s a1 a2 a3 a4 a5 a6 a7) := by
  unfold State.vecLanes
  repeat' first
    | with_reducible assumption | with_reducible apply State.putReg_keeps
    | with_reducible apply State.special152_keeps

theorem State.vecRep_keeps {z : State} {s : State} (a1) (a2) (a3) (h : Keeps z s) :
    Keeps z (State.vecRep s a1 a2 a3) := by
  unfold State.vecRep
  repeat' first
    | with_reducible assumption | with_reducible apply Keeps.ite | with_reducible apply Keeps.ite_snd
    | with_reducible apply Keeps.ite_fst | with_reducible apply State.takeMask_keeps
    | with_reducible apply State.takeReg_keeps | with_reducible apply State.repEnds_keeps
    | with_reducible apply State.vecCmp_keeps | with_reducible apply State.vecMlogic_keeps
    | with_reducible apply State.vecPack_keeps | with_reducible apply State.vecUnpack_keeps
    | with_reducible apply State.vecReduce_keeps | with_reducible apply State.vecLanes_keeps
    | with_reducible apply State.addAct_keeps

theorem State.landReg_keeps {z : State} {s : State} (a1) (a2) (a3) (a4) (h : Keeps z s) :
    Keeps z (State.landReg s a1 a2 a3 a4) := by
  unfold State.landReg
  repeat' first | with_reducible assumption | with_reducible apply State.updStall_keeps

theorem State.vecPackPut_keeps {z : State} {s : State} (a1) (a2) (a3) (a4) (a5) (a6) (h : Keeps z s) :
    Keeps z (State.vecPackPut s a1 a2 a3 a4 a5 a6) := by
  unfold State.vecPackPut
  repeat' first
    | with_reducible assumption | with_reducible apply State.landReg_keeps
    | ((try lift_lets); intro x; refine Keeps.have_ (z := z) (x := x) ?_ ?_;
        (on_goal 2 => (intro hx; clear_value x)); subst x)
    | ((try lift_lets); intro x; clear_value x) | split

theorem State.putMask_keeps {z : State} {s : State} (a1) (a2) (a3) (a4) (a5) (a6) (h : Keeps z s) :
    Keeps z (State.putMask s a1 a2 a3 a4 a5 a6) := by
  unfold State.putMask
  repeat' first
    | with_reducible assumption | with_reducible apply Keeps.ite
    | with_reducible apply State.updStall_keeps

theorem State.vecTscan_keeps {z : State} {s : State} (a1) (a2) (a3) (a4) (a5) (h : Keeps z s) :
    Keeps z (State.vecTscan s a1 a2 a3 a4 a5) := by
  unfold State.vecTscan
  repeat' first
    | with_reducible assumption | with_reducible refine keeps_foldl _ ?_ (fun t x ht => ?_)
    | with_reducible apply State.putReg_keeps | with_reducible apply State.special152_keeps

theorem State.vecTred_keeps {z : State} {s : State} (a1) (a2) (a3) (h : Keeps z s) :
    Keeps z (State.vecTred s a1 a2 a3) := by
  unfold State.vecTred
  repeat' first
    | with_reducible assumption | with_reducible refine keeps_foldl _ ?_ (fun t x ht => ?_)
    | with_reducible apply Keeps.ite | with_reducible apply State.special152_keeps
    | with_reducible apply State.putReg_keeps

theorem State.vecTile_keeps {z : State} {s : State} (a1) (a2) (a3) (h : Keeps z s) :
    Keeps z (State.vecTile s a1 a2 a3) := by
  unfold State.vecTile
  repeat' first
    | with_reducible assumption | with_reducible apply Keeps.ite | with_reducible apply Keeps.ite_snd
    | with_reducible apply State.takeReg_keeps | with_reducible apply State.addAct_keeps
    | with_reducible apply State.repEnds_keeps | with_reducible apply State.vecTscan_keeps
    | with_reducible apply State.vecTred_keeps

theorem State.putLoad_keeps {z : State} {s : State} (a1) (a2) (a3) (a4) (a5) (a6) (h : Keeps z s) :
    Keeps z (State.putLoad s a1 a2 a3 a4 a5 a6) := by
  unfold State.putLoad
  repeat' first
    | with_reducible assumption | with_reducible apply State.putReg_keeps
    | with_reducible apply State.repEnds_keeps

theorem State.vecLoad_keeps {z : State} {s : State} (a1) (a2) (h : Keeps z s) : Keeps z (State.vecLoad s a1 a2) := by
  unfold State.vecLoad
  repeat' first
    | with_reducible assumption | with_reducible apply Keeps.ite
    | with_reducible apply State.takeMask_keeps | with_reducible apply State.rdLines_keeps
    | with_reducible apply State.putLoad_keeps | with_reducible apply State.addAct_keeps

theorem State.vecStore_keeps {z : State} {s : State} (a1) (a2) (h : Keeps z s) :
    Keeps z (State.vecStore s a1 a2) := by
  unfold State.vecStore
  repeat' first
    | with_reducible assumption | with_reducible apply Keeps.ite
    | with_reducible apply State.takeMask_keeps | with_reducible apply State.takeReg_keeps
    | with_reducible apply State.addAct_keeps | with_reducible apply State.repEnds_keeps

theorem State.vecStorePut_keeps {z : State} {s : State} (a1) (a2) (a3) (a4) (a5) (h : Keeps z s) :
    Keeps z (State.vecStorePut s a1 a2 a3 a4 a5) := by
  unfold State.vecStorePut
  repeat' first
    | with_reducible assumption | with_reducible refine keeps_foldl _ ?_ (fun t x ht => ?_)
    | with_reducible apply Keeps.ite | with_reducible apply State.putLine_keeps

theorem State.vecGather_keeps {z : State} {s : State} (a1) (a2) (a3) (a4) (a5) (a6) (h : Keeps z s) :
    Keeps z (State.vecGather s a1 a2 a3 a4 a5 a6) := by
  unfold State.vecGather
  repeat' first
    | with_reducible assumption | with_reducible apply Keeps.ite | with_reducible apply Keeps.ite_snd
    | with_reducible apply State.takeMask_keeps | with_reducible apply State.rdLines_keeps
    | with_reducible apply State.addAct_keeps | with_reducible apply State.putLoad_keeps

theorem State.vecWork_keeps {z : State} {s : State} (a1) (h : Keeps z s) : Keeps z (State.vecWork s a1) := by
  unfold State.vecWork
  repeat' first
    | with_reducible assumption | with_reducible apply State.vecRep_keeps
    | with_reducible apply State.landReg_keeps | with_reducible apply State.vecPackPut_keeps
    | with_reducible apply State.putMask_keeps | with_reducible apply State.fwrap_keeps
    | with_reducible apply State.vecTile_keeps | with_reducible apply State.vecLoad_keeps
    | with_reducible apply State.vecStore_keeps | with_reducible apply State.vecStorePut_keeps
    | with_reducible apply State.vecGather_keeps | split

theorem State.vecIssue_keeps (s : State) (a1) (a2) (a3) (a4) : Nexts s (State.vecIssue s a1 a2 a3 a4) := by
  have h := Keeps.refl s
  unfold State.vecIssue
  repeat' first
    | with_reducible assumption | with_reducible refine State.issue_keeps ?_ (fun t j w ht => ?_)
    | with_reducible apply State.updStall_keeps | with_reducible apply State.inFlight_keeps
    | with_reducible apply State.addAct_keeps | with_reducible apply State.fset_keeps
    | with_reducible apply Keeps.next

theorem execVld_keeps (s : State) (a0) (a1) (a2) : Nexts s (execVld a0 a1 a2 s) := by
  have h := Keeps.refl s
  unfold execVld
  repeat' first | with_reducible apply State.vecIssue_keeps

theorem execVst_keeps (s : State) (a0) (a1) (a2) : Nexts s (execVst a0 a1 a2 s) := by
  have h := Keeps.refl s
  unfold execVst
  repeat' first | with_reducible apply State.vecIssue_keeps

theorem execVlds_keeps (s : State) (a0) (a1) (a2) : Nexts s (execVlds a0 a1 a2 s) := by
  have h := Keeps.refl s
  unfold execVlds
  repeat' first | with_reducible apply State.vecIssue_keeps

theorem execFadd_keeps (s : State) (a0) (a1) (a2) : Nexts s (execFadd a0 a1 a2 s) := by
  have h := Keeps.refl s
  unfold execFadd
  repeat' first | with_reducible apply State.vecIssue_keeps

theorem execFsub_keeps (s : State) (a0) (a1) (a2) : Nexts s (execFsub a0 a1 a2 s) := by
  have h := Keeps.refl s
  unfold execFsub
  repeat' first | with_reducible apply State.vecIssue_keeps

theorem execFmul_keeps (s : State) (a0) (a1) (a2) : Nexts s (execFmul a0 a1 a2 s) := by
  have h := Keeps.refl s
  unfold execFmul
  repeat' first | with_reducible apply State.vecIssue_keeps

theorem execFma_keeps (s : State) (a0) (a1) (a2) : Nexts s (execFma a0 a1 a2 s) := by
  have h := Keeps.refl s
  unfold execFma
  repeat' first | with_reducible apply State.vecIssue_keeps

theorem execFmin_keeps (s : State) (a0) (a1) (a2) : Nexts s (execFmin a0 a1 a2 s) := by
  have h := Keeps.refl s
  unfold execFmin
  repeat' first | with_reducible apply State.vecIssue_keeps

theorem execFmax_keeps (s : State) (a0) (a1) (a2) : Nexts s (execFmax a0 a1 a2 s) := by
  have h := Keeps.refl s
  unfold execFmax
  repeat' first | with_reducible apply State.vecIssue_keeps

theorem execFabs_keeps (s : State) (a0) (a1) (a2) : Nexts s (execFabs a0 a1 a2 s) := by
  have h := Keeps.refl s
  unfold execFabs
  repeat' first | with_reducible apply State.vecIssue_keeps

theorem execFneg_keeps (s : State) (a0) (a1) (a2) : Nexts s (execFneg a0 a1 a2 s) := by
  have h := Keeps.refl s
  unfold execFneg
  repeat' first | with_reducible apply State.vecIssue_keeps

theorem execFdiv_keeps (s : State) (a0) (a1) (a2) : Nexts s (execFdiv a0 a1 a2 s) := by
  have h := Keeps.refl s
  unfold execFdiv
  repeat' first | with_reducible apply State.vecIssue_keeps

theorem execFsqrt_keeps (s : State) (a0) (a1) (a2) : Nexts s (execFsqrt a0 a1 a2 s) := by
  have h := Keeps.refl s
  unfold execFsqrt
  repeat' first | with_reducible apply State.vecIssue_keeps

theorem execFrcp_keeps (s : State) (a0) (a1) (a2) : Nexts s (execFrcp a0 a1 a2 s) := by
  have h := Keeps.refl s
  unfold execFrcp
  repeat' first | with_reducible apply State.vecIssue_keeps

theorem execFrsqrt_keeps (s : State) (a0) (a1) (a2) : Nexts s (execFrsqrt a0 a1 a2 s) := by
  have h := Keeps.refl s
  unfold execFrsqrt
  repeat' first | with_reducible apply State.vecIssue_keeps

theorem execFexp_keeps (s : State) (a0) (a1) (a2) : Nexts s (execFexp a0 a1 a2 s) := by
  have h := Keeps.refl s
  unfold execFexp
  repeat' first | with_reducible apply State.vecIssue_keeps

theorem execFlog_keeps (s : State) (a0) (a1) (a2) : Nexts s (execFlog a0 a1 a2 s) := by
  have h := Keeps.refl s
  unfold execFlog
  repeat' first | with_reducible apply State.vecIssue_keeps

theorem execFtanh_keeps (s : State) (a0) (a1) (a2) : Nexts s (execFtanh a0 a1 a2 s) := by
  have h := Keeps.refl s
  unfold execFtanh
  repeat' first | with_reducible apply State.vecIssue_keeps

theorem execFsigm_keeps (s : State) (a0) (a1) (a2) : Nexts s (execFsigm a0 a1 a2 s) := by
  have h := Keeps.refl s
  unfold execFsigm
  repeat' first | with_reducible apply State.vecIssue_keeps

theorem execFerf_keeps (s : State) (a0) (a1) (a2) : Nexts s (execFerf a0 a1 a2 s) := by
  have h := Keeps.refl s
  unfold execFerf
  repeat' first | with_reducible apply State.vecIssue_keeps

theorem execIadd_keeps (s : State) (a0) (a1) (a2) : Nexts s (execIadd a0 a1 a2 s) := by
  have h := Keeps.refl s
  unfold execIadd
  repeat' first | with_reducible apply State.vecIssue_keeps

theorem execIsub_keeps (s : State) (a0) (a1) (a2) : Nexts s (execIsub a0 a1 a2 s) := by
  have h := Keeps.refl s
  unfold execIsub
  repeat' first | with_reducible apply State.vecIssue_keeps

theorem execImul_keeps (s : State) (a0) (a1) (a2) : Nexts s (execImul a0 a1 a2 s) := by
  have h := Keeps.refl s
  unfold execImul
  repeat' first | with_reducible apply State.vecIssue_keeps

theorem execImulhu_keeps (s : State) (a0) (a1) (a2) : Nexts s (execImulhu a0 a1 a2 s) := by
  have h := Keeps.refl s
  unfold execImulhu
  repeat' first | with_reducible apply State.vecIssue_keeps

theorem execImin_keeps (s : State) (a0) (a1) (a2) : Nexts s (execImin a0 a1 a2 s) := by
  have h := Keeps.refl s
  unfold execImin
  repeat' first | with_reducible apply State.vecIssue_keeps

theorem execImax_keeps (s : State) (a0) (a1) (a2) : Nexts s (execImax a0 a1 a2 s) := by
  have h := Keeps.refl s
  unfold execImax
  repeat' first | with_reducible apply State.vecIssue_keeps

theorem execVecAnd_keeps (s : State) (a0) (a1) (a2) : Nexts s (execVecAnd a0 a1 a2 s) := by
  have h := Keeps.refl s
  unfold execVecAnd
  repeat' first | with_reducible apply State.vecIssue_keeps

theorem execVecOr_keeps (s : State) (a0) (a1) (a2) : Nexts s (execVecOr a0 a1 a2 s) := by
  have h := Keeps.refl s
  unfold execVecOr
  repeat' first | with_reducible apply State.vecIssue_keeps

theorem execVecXor_keeps (s : State) (a0) (a1) (a2) : Nexts s (execVecXor a0 a1 a2 s) := by
  have h := Keeps.refl s
  unfold execVecXor
  repeat' first | with_reducible apply State.vecIssue_keeps

theorem execShl_keeps (s : State) (a0) (a1) (a2) : Nexts s (execShl a0 a1 a2 s) := by
  have h := Keeps.refl s
  unfold execShl
  repeat' first | with_reducible apply State.vecIssue_keeps

theorem execShr_keeps (s : State) (a0) (a1) (a2) : Nexts s (execShr a0 a1 a2 s) := by
  have h := Keeps.refl s
  unfold execShr
  repeat' first | with_reducible apply State.vecIssue_keeps

theorem execVecSra_keeps (s : State) (a0) (a1) (a2) : Nexts s (execVecSra a0 a1 a2 s) := by
  have h := Keeps.refl s
  unfold execVecSra
  repeat' first | with_reducible apply State.vecIssue_keeps

theorem execIdiv_keeps (s : State) (a0) (a1) (a2) : Nexts s (execIdiv a0 a1 a2 s) := by
  have h := Keeps.refl s
  unfold execIdiv
  repeat' first | with_reducible apply State.vecIssue_keeps

theorem execIrem_keeps (s : State) (a0) (a1) (a2) : Nexts s (execIrem a0 a1 a2 s) := by
  have h := Keeps.refl s
  unfold execIrem
  repeat' first | with_reducible apply State.vecIssue_keeps

theorem execIdivu_keeps (s : State) (a0) (a1) (a2) : Nexts s (execIdivu a0 a1 a2 s) := by
  have h := Keeps.refl s
  unfold execIdivu
  repeat' first | with_reducible apply State.vecIssue_keeps

theorem execIremu_keeps (s : State) (a0) (a1) (a2) : Nexts s (execIremu a0 a1 a2 s) := by
  have h := Keeps.refl s
  unfold execIremu
  repeat' first | with_reducible apply State.vecIssue_keeps

theorem execFcmp_keeps (s : State) (a0) (a1) (a2) : Nexts s (execFcmp a0 a1 a2 s) := by
  have h := Keeps.refl s
  unfold execFcmp
  repeat' first | with_reducible apply State.vecIssue_keeps

theorem execIcmp_keeps (s : State) (a0) (a1) (a2) : Nexts s (execIcmp a0 a1 a2 s) := by
  have h := Keeps.refl s
  unfold execIcmp
  repeat' first | with_reducible apply State.vecIssue_keeps

theorem execMlogic_keeps (s : State) (a0) (a1) (a2) : Nexts s (execMlogic a0 a1 a2 s) := by
  have h := Keeps.refl s
  unfold execMlogic
  repeat' first | with_reducible apply State.vecIssue_keeps

theorem execVsel_keeps (s : State) (a0) (a1) (a2) : Nexts s (execVsel a0 a1 a2 s) := by
  have h := Keeps.refl s
  unfold execVsel
  repeat' first | with_reducible apply State.vecIssue_keeps

theorem execVmov_keeps (s : State) (a0) (a1) (a2) : Nexts s (execVmov a0 a1 a2 s) := by
  have h := Keeps.refl s
  unfold execVmov
  repeat' first | with_reducible apply State.vecIssue_keeps

theorem execVperm_keeps (s : State) (a0) (a1) (a2) : Nexts s (execVperm a0 a1 a2 s) := by
  have h := Keeps.refl s
  unfold execVperm
  repeat' first | with_reducible apply State.vecIssue_keeps

theorem execVlane_keeps (s : State) (a0) (a1) (a2) : Nexts s (execVlane a0 a1 a2 s) := by
  have h := Keeps.refl s
  unfold execVlane
  repeat' first | with_reducible apply State.vecIssue_keeps

theorem execCvtP_keeps (s : State) (a0) (a1) (a2) : Nexts s (execCvtP a0 a1 a2 s) := by
  have h := Keeps.refl s
  unfold execCvtP
  repeat' first | with_reducible apply State.vecIssue_keeps

theorem execCvtU_keeps (s : State) (a0) (a1) (a2) : Nexts s (execCvtU a0 a1 a2 s) := by
  have h := Keeps.refl s
  unfold execCvtU
  repeat' first | with_reducible apply State.vecIssue_keeps

theorem execFtoi_keeps (s : State) (a0) (a1) (a2) : Nexts s (execFtoi a0 a1 a2 s) := by
  have h := Keeps.refl s
  unfold execFtoi
  repeat' first | with_reducible apply State.vecIssue_keeps

theorem execItof_keeps (s : State) (a0) (a1) (a2) : Nexts s (execItof a0 a1 a2 s) := by
  have h := Keeps.refl s
  unfold execItof
  repeat' first | with_reducible apply State.vecIssue_keeps

theorem execRsum_keeps (s : State) (a0) (a1) (a2) : Nexts s (execRsum a0 a1 a2 s) := by
  have h := Keeps.refl s
  unfold execRsum
  repeat' first | with_reducible apply State.vecIssue_keeps

theorem execRmax_keeps (s : State) (a0) (a1) (a2) : Nexts s (execRmax a0 a1 a2 s) := by
  have h := Keeps.refl s
  unfold execRmax
  repeat' first | with_reducible apply State.vecIssue_keeps

theorem execRmin_keeps (s : State) (a0) (a1) (a2) : Nexts s (execRmin a0 a1 a2 s) := by
  have h := Keeps.refl s
  unfold execRmin
  repeat' first | with_reducible apply State.vecIssue_keeps

theorem execRargmax_keeps (s : State) (a0) (a1) (a2) : Nexts s (execRargmax a0 a1 a2 s) := by
  have h := Keeps.refl s
  unfold execRargmax
  repeat' first | with_reducible apply State.vecIssue_keeps

theorem execTred_keeps (s : State) (a0) (a1) (a2) : Nexts s (execTred a0 a1 a2 s) := by
  have h := Keeps.refl s
  unfold execTred
  repeat' first | with_reducible apply State.vecIssue_keeps

theorem execTscan_keeps (s : State) (a0) (a1) (a2) : Nexts s (execTscan a0 a1 a2 s) := by
  have h := Keeps.refl s
  unfold execTscan
  repeat' first | with_reducible apply State.vecIssue_keeps

end Sys2Proof.Machine
end

