-- ==== Sys2Proof/Laws/Keeps/Array.lean ====
section
/-! SUPPORT. What the operations of Sys2Proof/Machine/Array.lean keep: the queue, the fuses, and the form of the register
file. -/

namespace Sys2Proof.Machine

theorem State.accEcc_keeps {z : State} {s : State} (a1) (a2) (a3) (a4) (h : Keeps z s) :
    Keeps z (State.accEcc s a1 a2 a3 a4) := by
  unfold State.accEcc
  repeat' first
    | with_reducible assumption | with_reducible apply Keeps.ite
    | with_reducible apply State.raiseStl_keeps | with_reducible apply State.fsat_keeps
    | with_reducible apply State.updStall_keeps

theorem State.readAcc_keeps {z : State} {s : State} (a1) (a2) (a3) (a4) (a5) (h : Keeps z s) :
    Keeps z (State.readAcc s a1 a2 a3 a4 a5).2 := by
  unfold State.readAcc
  repeat' first
    | with_reducible assumption | with_reducible apply State.accEcc_keeps
    | ((try lift_lets); intro x; clear_value x) | split

theorem State.writeAcc_keeps {z : State} {s : State} (a1) (a2) (a3) (a4) (a5) (h : Keeps z s) :
    Keeps z (State.writeAcc s a1 a2 a3 a4 a5) := by
  unfold State.writeAcc
  repeat' first | with_reducible assumption | with_reducible apply State.updStall_keeps

theorem State.accDrain_keeps {z : State} {s : State} (a1) (a2) (h : Keeps z s) :
    Keeps z (State.accDrain s a1 a2) := by
  unfold State.accDrain
  repeat' first
    | with_reducible assumption | with_reducible apply Keeps.ite
    | with_reducible apply State.readAcc_keeps | with_reducible apply State.writeAcc_keeps
    | with_reducible apply State.addAct_keeps | split | with_reducible refine keeps_foldl_snd _ ?_ (fun q x hq => ?_)

theorem State.updStat_keeps {z : State} {s : State} (a1) (a2) (a3) (h : Keeps z s) :
    Keeps z (State.updStat s a1 a2 a3) := by
  unfold State.updStat
  repeat' first | with_reducible assumption | with_reducible apply State.updStall_keeps

theorem State.arrScales_keeps {z : State} {s : State} (a1) (h : Keeps z s) : Keeps z (State.arrScales s a1) := by
  unfold State.arrScales
  repeat' first
    | with_reducible assumption | with_reducible apply State.rdLine_keeps
    | with_reducible apply State.updStat_keeps

theorem State.arrTile_keeps {z : State} {s : State} (a1) (a2) (h : Keeps z s) : Keeps z (State.arrTile s a1 a2) := by
  unfold State.arrTile
  repeat' first
    | with_reducible assumption | with_reducible apply Keeps.ite
    | with_reducible apply State.rdLines_keeps | with_reducible apply State.updStat_keeps
    | with_reducible apply State.addAct_keeps

theorem State.updPass_keeps {z : State} {s : State} (a1) (a2) (a3) (h : Keeps z s) :
    Keeps z (State.updPass s a1 a2 a3) := by
  unfold State.updPass
  repeat' first | with_reducible assumption | with_reducible apply State.updStall_keeps

theorem State.mmaRead_keeps {z : State} {s : State} (a1) (a2) (h : Keeps z s) : Keeps z (State.mmaRead s a1 a2) := by
  unfold State.mmaRead
  repeat' first
    | with_reducible assumption | with_reducible apply Keeps.ite
    | with_reducible apply State.rdLines_keeps | with_reducible apply State.updPass_keeps
    | with_reducible apply State.addAct_keeps

theorem State.mmaBlk_keeps {z : State} {s : State} (a1) (a2) (h : Keeps z s) : Keeps z (State.mmaBlk s a1 a2) := by
  unfold State.mmaBlk
  repeat' first
    | with_reducible assumption | with_reducible apply State.useLoft_keeps
    | with_reducible apply State.loftRead_keeps | with_reducible apply State.updPass_keeps | split

theorem State.mmaNeed_keeps {z : State} {s : State} (a1) (a2) (h : Keeps z s) : Keeps z (State.mmaNeed s a1 a2) := by
  unfold State.mmaNeed
  repeat' first | with_reducible assumption | with_reducible apply State.holdFor_keeps | split

theorem State.mmaBond_keeps {z : State} {s : State} (a1) (a2) (h : Keeps z s) : Keeps z (State.mmaBond s a1 a2) := by
  unfold State.mmaBond
  repeat' first
    | with_reducible assumption | with_reducible apply Keeps.ite
    | with_reducible apply State.bondUse_keeps | with_reducible apply State.addAct_keeps

theorem State.mmaRowAt_keeps {z : State} {s : State} (a1) (a2) (a3) (a4) (h : Keeps z s) :
    Keeps z (State.mmaRowAt s a1 a2 a3 a4) := by
  unfold State.mmaRowAt
  repeat' first
    | with_reducible assumption | with_reducible apply Keeps.ite_snd
    | with_reducible apply State.readAcc_keeps | with_reducible apply State.writeAcc_keeps
    | with_reducible apply State.fsat_keeps

theorem State.mmaRow_keeps {z : State} {s : State} (a1) (a2) (h : Keeps z s) : Keeps z (State.mmaRow s a1 a2) := by
  unfold State.mmaRow
  repeat' first
    | with_reducible assumption | with_reducible refine keeps_foldl _ ?_ (fun t x ht => ?_)
    | with_reducible apply Keeps.ite | with_reducible apply State.mmaRowAt_keeps
    | with_reducible apply State.addAct_keeps | ((try lift_lets); intro x; clear_value x) | split

theorem State.arrWork_keeps {z : State} {s : State} (a1) (h : Keeps z s) : Keeps z (State.arrWork s a1) := by
  unfold State.arrWork
  repeat' first
    | with_reducible assumption | with_reducible apply State.arrTile_keeps
    | with_reducible apply State.arrScales_keeps | with_reducible apply State.mmaRead_keeps
    | with_reducible apply State.mmaBlk_keeps | with_reducible apply State.mmaNeed_keeps
    | with_reducible apply State.mmaBond_keeps | with_reducible apply State.mmaRow_keeps
    | with_reducible apply State.accDrain_keeps | split

theorem State.mmaStart_keeps {z : State} {s : State} (a1) (a2) (a3) (a4) (a5) (h : Keeps z s) :
    Keeps z (State.mmaStart s a1 a2 a3 a4 a5) := by
  unfold State.mmaStart
  repeat' first
    | with_reducible assumption | with_reducible refine keeps_foldl _ ?_ (fun t x ht => ?_)
    | with_reducible apply Keeps.ite | with_reducible apply State.updStall_keeps
    | with_reducible apply State.inFlight_keeps | with_reducible apply State.addAct_keeps

theorem execArrLoad_keeps (s : State) (a0) (a1) (a2) : Nexts s (execArrLoad a0 a1 a2 s) := by
  have h := Keeps.refl s
  unfold execArrLoad
  repeat' first
    | with_reducible assumption | with_reducible refine State.issue_keeps ?_ (fun t j w ht => ?_)
    | with_reducible apply State.addAct_keeps | with_reducible apply State.inFlight_keeps
    | with_reducible apply Keeps.next

theorem execMma_keeps (s : State) (a0) (a1) (a2) : Nexts s (execMma a0 a1 a2 s) := by
  have h := Keeps.refl s
  unfold execMma
  repeat' first
    | with_reducible assumption | with_reducible refine State.issue_keeps ?_ (fun t j w ht => ?_)
    | with_reducible apply State.mmaStart_keeps | with_reducible apply Keeps.next

theorem execAccDrain_keeps (s : State) (a0) (a1) (a2) : Nexts s (execAccDrain a0 a1 a2 s) := by
  have h := Keeps.refl s
  unfold execAccDrain
  repeat' first
    | with_reducible assumption | with_reducible refine State.issue_keeps ?_ (fun t j w ht => ?_)
    | with_reducible apply State.addAct_keeps | with_reducible apply State.inFlight_keeps
    | with_reducible apply Keeps.next

end Sys2Proof.Machine
end

