-- ==== Sys2Proof/Laws/Keeps/MeshOps.lean ====
section
/-! SUPPORT. What the operations of Sys2Proof/Machine/MeshOps.lean keep: the queue, the fuses, and the form of the register
file. -/

namespace Sys2Proof.Machine

theorem State.netErr_keeps {z : State} {s : State} (a1) (a2) (a3) (a4) (a5) (a6) (h : Keeps z s) :
    Keeps z (State.netErr s a1 a2 a3 a4 a5 a6) := by
  unfold State.netErr
  repeat' first
    | with_reducible assumption | with_reducible apply Keeps.ite | with_reducible apply State.fset_keeps
    | with_reducible apply State.raise_keeps

theorem State.setOutst_keeps {z : State} {s : State} (a1) (a2) (a3) (h : Keeps z s) :
    Keeps z (State.setOutst s a1 a2 a3) := by
  unfold State.setOutst
  repeat' first
    | with_reducible assumption | ((try lift_lets); intro x; clear_value x)
    | (fail_if_no_progress (with_reducible apply Keeps.upd))

theorem State.setRsv_keeps {z : State} {s : State} (a1) (a2) (h : Keeps z s) : Keeps z (State.setRsv s a1 a2) := by
  unfold State.setRsv
  repeat' first
    | with_reducible assumption | ((try lift_lets); intro x; clear_value x)
    | (fail_if_no_progress (with_reducible apply Keeps.upd))

theorem State.leave_keeps {z : State} {s : State} (a1) (h : Keeps z s) : Keeps z (State.leave s a1) := by
  unfold State.leave
  repeat' first
    | with_reducible assumption | with_reducible apply Keeps.ite
    | with_reducible apply State.setOutst_keeps | with_reducible apply State.setRsv_keeps
    | ((try lift_lets); intro x; refine Keeps.have_ (z := z) (x := x) ?_ ?_;
        (on_goal 2 => (intro hx; clear_value x)); subst x)
    | ((try lift_lets); intro x; clear_value x) | split | (fail_if_no_progress (with_reducible apply Keeps.upd))

theorem State.unsRelease_keeps {z : State} {s : State} (h : Keeps z s) : Keeps z (State.unsRelease s) := by
  unfold State.unsRelease
  repeat' first
    | with_reducible assumption | with_reducible refine keeps_foldl _ ?_ (fun t x ht => ?_)
    | with_reducible apply State.leave_keeps

theorem State.unsSend_keeps {z s : State} (p : UPkt) (h : Keeps z s) : Keeps z (s.unsSend p) := by
  unfold State.unsSend
  exact State.unsRelease_keeps h

theorem State.keepItems_keeps {z : State} {s : State} (a1) (a2) (a3) (a4) (a5) (h : Keeps z s) :
    Keeps z (State.keepItems s a1 a2 a3 a4 a5) := by
  unfold State.keepItems
  repeat' first
    | with_reducible assumption | ((try lift_lets); intro x; clear_value x)
    | (fail_if_no_progress (with_reducible apply Keeps.upd))

theorem State.ctrlStep_keeps {z : State} {x : State × List Nat} (c : CPkt) (h : Keeps z x.1) :
    Keeps z (State.ctrlStep x c).1 := by
  unfold State.ctrlStep
  repeat' first
    | with_reducible assumption | with_reducible apply Keeps.ite | with_reducible apply Keeps.ite_fst
    | with_reducible apply State.keepItems_keeps
    | ((try lift_lets); intro x; refine Keeps.have_ (z := z) (x := x) ?_ ?_;
        (on_goal 2 => (intro hx; clear_value x)); subst x)
    | ((try lift_lets); intro x; clear_value x) | (fail_if_no_progress (with_reducible apply Keeps.upd))

theorem State.ctrlMove_keeps {z : State} {s : State} (a1) (h : Keeps z s) : Keeps z (State.ctrlMove s a1) := by
  unfold State.ctrlMove
  repeat' first
    | with_reducible assumption | with_reducible apply State.ctrlStep_keeps
    | with_reducible refine keeps_foldl_fst _ ?_ (fun q x hq => ?_)

theorem State.ctrlTake_keeps {z s t : State} {p : CPkt → Bool} {c : CPkt}
    (e : s.ctrlTake p = some (c, t)) (h : Keeps z s) : Keeps z t := by
  unfold State.ctrlTake at e
  split at e
  · cases e
  · split at e
    · cases e
      exact h
    · cases e

theorem State.newFlit_keeps {z : State} {s : State} (a1) (a2) (a3) (a4) (h : Keeps z s) :
    Keeps z (State.newFlit s a1 a2 a3 a4).2 := by
  unfold State.newFlit
  repeat' first
    | with_reducible assumption | ((try lift_lets); intro x; clear_value x)
    | (fail_if_no_progress (with_reducible apply Keeps.upd))

theorem State.newFlits_keeps {z : State} (key job : Nat) (us : List (Flit × List (Nat × Nat × Nat))) {s : State} (h : Keeps z s) :
    Keeps z (s.newFlits key job us).2 := by
  induction us generalizing s with
  | nil => exact h
  | cons u us ih =>
    unfold State.newFlits
    repeat' first | with_reducible assumption | with_reducible apply ih | with_reducible apply State.newFlit_keeps

theorem State.landLines_keeps {z : State} {s : State} (a1) (a2) (a3) (h : Keeps z s) :
    Keeps z (State.landLines s a1 a2 a3) := by
  unfold State.landLines
  repeat' first
    | with_reducible assumption | with_reducible refine keeps_foldl _ ?_ (fun t x ht => ?_)
    | with_reducible apply Keeps.ite | with_reducible apply State.holdFor_keeps
    | with_reducible apply State.putLine_keeps | split

theorem State.traceSched_keeps {z : State} {s : State} (a1) (a2) (h : Keeps z s) :
    Keeps z (State.traceSched s a1 a2) := by
  unfold State.traceSched
  repeat' first
    | with_reducible assumption | with_reducible refine keeps_foldl _ ?_ (fun t x ht => ?_)
    | with_reducible apply Keeps.ite | with_reducible apply State.trace_keeps

theorem State.resolveChan_keeps {z : State} {s : State} (a1) (a2) (h : Keeps z s) :
    Keeps z (State.resolveChan s a1 a2) := by
  unfold State.resolveChan
  repeat' first
    | with_reducible assumption | with_reducible refine keeps_foldl _ ?_ (fun t x ht => ?_)
    | with_reducible apply Keeps.ite | with_reducible apply State.keepItems_keeps
    | with_reducible apply State.fwrap_keeps | with_reducible apply State.traceSched_keeps
    | with_reducible apply State.netErr_keeps
    | ((try lift_lets); intro x; refine Keeps.have_ (z := z) (x := x) ?_ ?_;
        (on_goal 2 => (intro hx; clear_value x)); subst x)
    | ((try lift_lets); intro x; clear_value x) | split | (fail_if_no_progress (with_reducible apply Keeps.upd))

theorem State.resolveTo_keeps {z : State} (r now n : Nat) {s : State} (h : Keeps z s) :
    Keeps z (State.resolveTo r now n s) := by
  induction n generalizing s with
  | zero => exact h
  | succ n ih =>
    unfold State.resolveTo
    repeat' first
      | with_reducible assumption | with_reducible apply ih
      | with_reducible refine keeps_foldl _ ?_ (fun t x ht => ?_) | with_reducible apply State.resolveChan_keeps
      | ((try lift_lets); intro x; clear_value x) | split | (fail_if_no_progress (with_reducible apply Keeps.upd))

theorem State.resolve_keeps {z : State} {s : State} (a1) (a2) (h : Keeps z s) : Keeps z (State.resolve s a1 a2) := by
  unfold State.resolve
  repeat' first | with_reducible assumption | with_reducible apply State.resolveTo_keeps

theorem State.slotsTake_keeps {z : State} {s : State} (a1) (a2) (h : Keeps z s) :
    Keeps z (State.slotsTake s a1 a2) := by
  unfold State.slotsTake
  repeat' first
    | with_reducible assumption | ((try lift_lets); intro x; clear_value x)
    | (fail_if_no_progress (with_reducible apply Keeps.upd))

end Sys2Proof.Machine
end

