-- ==== Sys2Proof/Laws/Keeps/FabricOps.lean ====
section
/-! SUPPORT. What the operations of Sys2Proof/Machine/FabricOps.lean keep: the queue, the fuses, and the form of the register
file. -/

namespace Sys2Proof.Machine

theorem State.performPkt_keeps {z : State} {s : State} (a1) (a2) (a3) (a4) (h : Keeps z s) :
    Keeps z (State.performPkt s a1 a2 a3 a4) := by
  unfold State.performPkt
  repeat' first | with_reducible assumption | with_reducible apply State.unsSend_keeps

theorem State.queuePkt_keeps {z : State} {s : State} (a1) (a2) (a3) (h : Keeps z s) :
    Keeps z (State.queuePkt s a1 a2 a3) := by
  unfold State.queuePkt
  repeat' first
    | with_reducible assumption | with_reducible apply State.updLink_keeps
    | with_reducible apply State.updFab_keeps

theorem State.transmit_keeps {z : State} {s : State} (a1) (a2) (a3) (a4) (h : Keeps z s) :
    Keeps z (State.transmit s a1 a2 a3 a4) := by
  unfold State.transmit
  repeat' first
    | with_reducible assumption | with_reducible refine keeps_foldl _ ?_ (fun t x ht => ?_)
    | with_reducible apply State.queuePkt_keeps | ((try lift_lets); intro x; clear_value x) | split

theorem State.sendKept_keeps {z : State} {s : State} (a1) (a2) (a3) (h : Keeps z s) :
    Keeps z (State.sendKept s a1 a2 a3) := by
  unfold State.sendKept
  repeat' first
    | with_reducible assumption | with_reducible apply Keeps.ite | with_reducible apply State.updOut_keeps
    | with_reducible apply State.transmit_keeps | with_reducible apply State.performPkt_keeps

theorem State.releaseWait_keeps {z : State} {s : State} (a1) (h : Keeps z s) : Keeps z (State.releaseWait s a1) := by
  unfold State.releaseWait
  repeat' first
    | with_reducible assumption | with_reducible refine keeps_foldl _ ?_ (fun t x ht => ?_)
    | with_reducible apply Keeps.ite | with_reducible apply State.sendKept_keeps
    | with_reducible apply State.updOut_keeps

theorem State.ackStream_keeps {z : State} {s : State} (a1) (a2) (a3) (h : Keeps z s) :
    Keeps z (State.ackStream s a1 a2 a3) := by
  unfold State.ackStream
  repeat' first
    | with_reducible assumption | with_reducible apply Keeps.ite
    | with_reducible apply State.releaseWait_keeps | with_reducible apply State.updOut_keeps
    | ((try lift_lets); intro x; clear_value x) | split | dsimp only

theorem State.lostRoute_keeps {z : State} {s : State} (a1) (a2) (h : Keeps z s) :
    Keeps z (State.lostRoute s a1 a2) := by
  unfold State.lostRoute
  repeat' first
    | with_reducible assumption | with_reducible apply State.hubErr_keeps
    | with_reducible apply State.fset_keeps

theorem State.resend_keeps {z : State} {s : State} (a1) (a2) (h : Keeps z s) : Keeps z (State.resend s a1 a2) := by
  unfold State.resend
  repeat' first
    | with_reducible assumption | with_reducible refine keeps_foldl _ ?_ (fun t x ht => ?_)
    | with_reducible apply State.fwrap_keeps | with_reducible apply State.transmit_keeps
    | with_reducible apply State.updOut_keeps

theorem State.sendAck_keeps {z : State} {s : State} (a1) (a2) (h : Keeps z s) : Keeps z (State.sendAck s a1 a2) := by
  unfold State.sendAck
  repeat' first
    | with_reducible assumption | with_reducible apply Keeps.ite | with_reducible apply State.updIn_keeps
    | with_reducible apply State.updFab_keeps
    | ((try lift_lets); intro x; refine Keeps.have_ (z := z) (x := x) ?_ ?_;
        (on_goal 2 => (intro hx; clear_value x)); subst x)
    | ((try lift_lets); intro x; clear_value x) | split

theorem State.doSwitch_keeps {z : State} {s : State} (a1) (a2) (a3) (h : Keeps z s) :
    Keeps z (State.doSwitch s a1 a2 a3) := by
  unfold State.doSwitch
  repeat' first
    | with_reducible assumption | with_reducible refine keeps_foldl _ ?_ (fun t x ht => ?_)
    | with_reducible apply Keeps.ite | with_reducible apply State.fset_keeps | with_reducible apply State.updFab_keeps
    | with_reducible apply State.lostRoute_keeps | with_reducible apply State.resend_keeps
    | with_reducible apply State.updOut_keeps | with_reducible apply State.sendAck_keeps
    | with_reducible apply State.raise_keeps
    | ((try lift_lets); intro x; refine Keeps.have_ (z := z) (x := x) ?_ ?_;
        (on_goal 2 => (intro hx; clear_value x)); subst x)
    | ((try lift_lets); intro x; clear_value x) | split

theorem State.gotSwitch_keeps {z : State} {s : State} (a1) (a2) (a3) (h : Keeps z s) :
    Keeps z (State.gotSwitch s a1 a2 a3) := by
  unfold State.gotSwitch
  repeat' first
    | with_reducible assumption | with_reducible apply Keeps.ite
    | with_reducible apply State.doSwitch_keeps | with_reducible apply State.fset_keeps
    | with_reducible apply State.updFab_keeps

theorem State.sendSwitch_keeps {z : State} {s : State} (a1) (a2) (a3) (h : Keeps z s) :
    Keeps z (State.sendSwitch s a1 a2 a3) := by
  unfold State.sendSwitch
  repeat' first
    | with_reducible assumption | with_reducible apply State.gotSwitch_keeps
    | with_reducible apply State.controlPeers_keeps

theorem State.dropRx_keeps {z : State} {s : State} (a1) (a2) (a3) (h : Keeps z s) :
    Keeps z (State.dropRx s a1 a2 a3) := by
  unfold State.dropRx
  repeat' first
    | with_reducible assumption | with_reducible apply State.updLink_keeps
    | with_reducible apply State.freeRx_keeps

theorem State.receive_keeps {z s : State} {p v : Nat} {want : FabHdr → List Line → Bool}
    {act : State → Nat → FabHdr → List Line → State} (h : Keeps z s) (ha : ∀ t j hd ls, Keeps z t → Keeps z (act t j hd ls)) :
    Keeps z (s.receive p v want act) := by
  unfold State.receive
  repeat' first
    | with_reducible assumption | with_reducible apply ha | with_reducible apply Keeps.ite
    | with_reducible apply State.dropRx_keeps | with_reducible apply State.hubOnce_keeps
    | with_reducible apply State.fsat_keeps | with_reducible apply State.fwrap_keeps
    | with_reducible apply State.updIn_keeps | with_reducible apply State.sendAck_keeps
    | ((try lift_lets); intro x; clear_value x) | split

theorem State.control_keeps {z s : State} {p sub : Nat} {act : State → Nat → FabHdr → List Line → State} (h : Keeps z s)
    (ha : ∀ t j hd ls, Keeps z t → Keeps z (act t j hd ls)) : Keeps z (s.control p sub act) := by
  unfold State.control
  exact State.receive_keeps h ha

theorem State.sealed_keeps {z : State} {s : State} (a1) (h : Keeps z s) : Keeps z (State.sealed s a1) := by
  unfold State.sealed
  repeat' first
    | with_reducible assumption | with_reducible apply Keeps.ite
    | with_reducible apply State.transmit_keeps | with_reducible apply State.updOut_keeps
    | with_reducible apply State.sendKept_keeps | ((try lift_lets); intro x; clear_value x) | split

end Sys2Proof.Machine
end

