-- ==== Sys2Proof/Laws/Keeps/Dma.lean ====
section
/-! SUPPORT. What the operations of Sys2Proof/Machine/Dma.lean keep: the queue, the fuses, and the form of the register
file. -/

namespace Sys2Proof.Machine

theorem State.farReqOut_keeps {z : State} {s : State} (a1) (h : Keeps z s) : Keeps z (State.farReqOut s a1) := by
  unfold State.farReqOut
  repeat' first
    | with_reducible assumption | with_reducible apply State.hubErr_keeps
    | with_reducible apply State.newFlit_keeps | with_reducible apply State.addAct_keeps
    | ((try lift_lets); intro x; clear_value x) | split

theorem State.dmaReq_keeps {z : State} {s : State} (a1) (a2) (h : Keeps z s) : Keeps z (State.dmaReq s a1 a2) := by
  unfold State.dmaReq
  repeat' first
    | with_reducible assumption | with_reducible apply Keeps.ite
    | with_reducible apply State.newFlits_keeps | with_reducible apply State.addAct_keeps

theorem State.dmaFirst_keeps {z : State} {s : State} (a1) (a2) (h : Keeps z s) :
    Keeps z (State.dmaFirst s a1 a2) := by
  unfold State.dmaFirst
  repeat' first
    | with_reducible assumption | with_reducible apply Keeps.ite | with_reducible apply State.addAct_keeps
    | with_reducible apply State.farReqOut_keeps | with_reducible apply State.dmaReq_keeps | split

theorem State.dmaFarErr_keeps {z : State} {s : State} (a1) (a2) (a3) (a4) (h : Keeps z s) :
    Keeps z (State.dmaFarErr s a1 a2 a3 a4) := by
  unfold State.dmaFarErr
  repeat' first
    | with_reducible assumption | with_reducible apply Keeps.ite | with_reducible apply State.fset_keeps
    | with_reducible apply State.netErr_keeps | with_reducible apply State.raise_keeps

theorem State.dmaCopy_keeps {z : State} {s : State} (a1) (a2) (a3) (a4) (a5) (h : Keeps z s) :
    Keeps z (State.dmaCopy s a1 a2 a3 a4 a5) := by
  unfold State.dmaCopy
  repeat' first
    | with_reducible assumption | with_reducible apply Keeps.ite
    | with_reducible apply State.inFlight_keeps | with_reducible apply State.dmaFirst_keeps
    | with_reducible apply State.dmaFarErr_keeps

theorem State.dmaEnter_keeps {z : State} {s : State} (a1) (a2) (h : Keeps z s) :
    Keeps z (State.dmaEnter s a1 a2) := by
  unfold State.dmaEnter
  repeat' first | with_reducible assumption | with_reducible apply State.loftEnter_keeps

theorem State.dmaFar_keeps {z : State} {s : State} (a1) (a2) (a3) (h : Keeps z s) :
    Keeps z (State.dmaFar s a1 a2 a3) := by
  unfold State.dmaFar
  repeat' first
    | with_reducible assumption | with_reducible apply Keeps.ite_snd
    | with_reducible apply State.rdLine_keeps | with_reducible apply State.newFlit_keeps
    | with_reducible apply State.addAct_keeps | with_reducible refine keeps_foldl_snd _ ?_ (fun q x hq => ?_)

theorem State.dmaFill_keeps {z : State} {s : State} (a1) (a2) (h : Keeps z s) : Keeps z (State.dmaFill s a1 a2) := by
  unfold State.dmaFill
  repeat' first
    | with_reducible assumption | with_reducible refine keeps_foldl _ ?_ (fun t x ht => ?_)
    | with_reducible apply Keeps.ite | with_reducible apply State.putLine_keeps
    | with_reducible apply State.addAct_keeps

theorem State.dmaHandOver_keeps {z : State} {s : State} (a1) (a2) (a3) (a4) (a5) (h : Keeps z s) :
    Keeps z (State.dmaHandOver s a1 a2 a3 a4 a5).2 := by
  unfold State.dmaHandOver
  repeat' first
    | with_reducible assumption | with_reducible apply Keeps.ite_snd
    | with_reducible apply State.hubErr_keeps | with_reducible apply State.newFlits_keeps
    | with_reducible apply State.addAct_keeps | ((try lift_lets); intro x; clear_value x) | split

theorem State.dmaLand_keeps {z : State} {s : State} (a1) (a2) (a3) (h : Keeps z s) :
    Keeps z (State.dmaLand s a1 a2 a3) := by
  unfold State.dmaLand
  repeat' first
    | with_reducible assumption | with_reducible apply Keeps.ite
    | with_reducible apply State.landLines_keeps | with_reducible apply State.bondUse_keeps

theorem State.dmaSend_keeps {z : State} {s : State} (a1) (a2) (a3) (a4) (a5) (h : Keeps z s) :
    Keeps z (State.dmaSend s a1 a2 a3 a4 a5).2 := by
  unfold State.dmaSend
  repeat' first
    | with_reducible assumption | with_reducible apply Keeps.ite | with_reducible apply Keeps.ite_snd
    | with_reducible apply State.addAct_keeps | with_reducible apply State.dmaHandOver_keeps
    | with_reducible apply State.newFlits_keeps | with_reducible apply State.bondUse_keeps
    | with_reducible apply State.bondAll_keeps | with_reducible apply State.loftEnter_keeps
    | ((try lift_lets); intro x; refine Keeps.have_ (z := z) (x := x.2) ?_ ?_;
        (on_goal 2 => (intro hx; clear_value x)); subst x)
    | ((try lift_lets); intro x; clear_value x) | split

theorem State.dmaRead_keeps {z : State} {s : State} (a1) (a2) (a3) (h : Keeps z s) :
    Keeps z (State.dmaRead s a1 a2 a3) := by
  unfold State.dmaRead
  repeat' first
    | with_reducible assumption | with_reducible apply Keeps.ite
    | with_reducible apply State.rdLines_keeps | with_reducible apply State.dmaSend_keeps
    | with_reducible apply State.addAct_keeps

theorem State.dmaZero_keeps {z : State} {s : State} (a1) (a2) (h : Keeps z s) : Keeps z (State.dmaZero s a1 a2) := by
  unfold State.dmaZero
  repeat' first
    | with_reducible assumption | with_reducible refine keeps_foldl _ ?_ (fun t x ht => ?_)
    | with_reducible apply Keeps.ite | with_reducible apply State.putLine_keeps
    | with_reducible apply State.addAct_keeps

theorem State.loftReq_keeps {z : State} {s : State} (a1) (a2) (h : Keeps z s) : Keeps z (State.loftReq s a1 a2) := by
  unfold State.loftReq
  repeat' first
    | with_reducible assumption | with_reducible apply Keeps.ite
    | with_reducible apply State.newFlit_keeps | with_reducible apply State.addAct_keeps

theorem State.rdLand_keeps {z : State} {s : State} (a1) (a2) (a3) (a4) (a5) (a6) (h : Keeps z s) :
    Keeps z (State.rdLand s a1 a2 a3 a4 a5 a6) := by
  unfold State.rdLand
  repeat' first
    | with_reducible assumption | with_reducible refine keeps_foldl _ ?_ (fun t x ht => ?_)
    | with_reducible apply Keeps.ite_snd | with_reducible apply State.newFlits_keeps
    | with_reducible apply State.bondAll_keeps | with_reducible apply State.addAct_keeps

theorem State.loftRd_keeps {z : State} {s : State} (a1) (a2) (a3) (h : Keeps z s) :
    Keeps z (State.loftRd s a1 a2 a3) := by
  unfold State.loftRd
  repeat' first
    | with_reducible assumption | with_reducible apply Keeps.ite
    | with_reducible apply State.useLoft_keeps | with_reducible apply State.loftRead_keeps
    | with_reducible apply State.addAct_keeps | with_reducible apply State.rdLand_keeps | split

theorem State.lcOut_keeps {z : State} {s : State} (a1) (a2) (a3) (a4) (h : Keeps z s) :
    Keeps z (State.lcOut s a1 a2 a3 a4) := by
  unfold State.lcOut
  repeat' first
    | with_reducible assumption | with_reducible apply Keeps.ite
    | with_reducible apply State.holdFor_keeps | with_reducible apply State.bondUse_keeps
    | with_reducible apply State.dmaSend_keeps | with_reducible apply State.addAct_keeps
    | ((try lift_lets); intro x; refine Keeps.have_ (z := z) (x := x) ?_ ?_;
        (on_goal 2 => (intro hx; clear_value x)); subst x)
    | ((try lift_lets); intro x; refine Keeps.have_ (z := z) (x := x.2) ?_ ?_;
        (on_goal 2 => (intro hx; clear_value x)); subst x)
    | ((try lift_lets); intro x; clear_value x) | split

theorem State.loftWr_keeps {z : State} {s : State} (a1) (a2) (a3) (h : Keeps z s) :
    Keeps z (State.loftWr s a1 a2 a3) := by
  unfold State.loftWr
  repeat' first
    | with_reducible assumption | with_reducible apply Keeps.ite
    | with_reducible apply State.holdFor_keeps | with_reducible apply State.loftLeave_keeps
    | with_reducible apply State.useLoft_keeps | with_reducible apply State.loftStore_keeps
    | ((try lift_lets); intro x; refine Keeps.have_ (z := z) (x := x) ?_ ?_;
        (on_goal 2 => (intro hx; clear_value x)); subst x)
    | ((try lift_lets); intro x; refine Keeps.have_ (z := z) (x := x.2) ?_ ?_;
        (on_goal 2 => (intro hx; clear_value x)); subst x)
    | ((try lift_lets); intro x; clear_value x) | split

theorem State.edgePkt_keeps {z : State} {s : State} (a1) (a2) (a3) (h : Keeps z s) :
    Keeps z (State.edgePkt s a1 a2 a3) := by
  unfold State.edgePkt
  repeat' first
    | with_reducible assumption | with_reducible apply Keeps.ite | with_reducible apply State.raise_keeps
    | with_reducible apply State.handOver_keeps

theorem State.farReqEdge_keeps {z : State} {s : State} (a1) (a2) (h : Keeps z s) :
    Keeps z (State.farReqEdge s a1 a2) := by
  unfold State.farReqEdge
  repeat' first
    | with_reducible assumption | with_reducible apply Keeps.ite | with_reducible apply State.updFab_keeps
    | with_reducible apply State.edgePkt_keeps

theorem State.edgeOut_keeps {z : State} {s : State} (a1) (a2) (a3) (h : Keeps z s) :
    Keeps z (State.edgeOut s a1 a2 a3) := by
  unfold State.edgeOut
  repeat' first
    | with_reducible assumption | with_reducible refine keeps_foldl _ ?_ (fun t x ht => ?_)
    | with_reducible apply State.edgePkt_keeps

theorem State.rdsRead_keeps {z : State} {s : State} (a1) (a2) (a3) (a4) (h : Keeps z s) :
    Keeps z (State.rdsRead s a1 a2 a3 a4) := by
  unfold State.rdsRead
  repeat' first
    | with_reducible assumption | with_reducible apply Keeps.ite
    | with_reducible apply State.rdLines_keeps | with_reducible apply State.addAct_keeps

theorem State.dmaWork_keeps {z : State} {s : State} (a1) (h : Keeps z s) : Keeps z (State.dmaWork s a1) := by
  unfold State.dmaWork
  repeat' first
    | with_reducible assumption | with_reducible apply State.dmaRead_keeps
    | with_reducible apply State.dmaReq_keeps | with_reducible apply State.dmaFar_keeps
    | with_reducible apply State.dmaZero_keeps | with_reducible apply State.loftReq_keeps
    | with_reducible apply State.loftRd_keeps | with_reducible apply State.lcOut_keeps
    | with_reducible apply State.dmaEnter_keeps | with_reducible apply State.loftWr_keeps
    | with_reducible apply State.dmaFill_keeps | with_reducible apply State.farReqEdge_keeps
    | with_reducible apply State.edgeOut_keeps | with_reducible apply State.rdsRead_keeps
    | with_reducible apply State.dmaLand_keeps | split

theorem execDmaRd_keeps (s : State) (a0) (a1) (a2) : Nexts s (execDmaRd a0 a1 a2 s) := by
  have h := Keeps.refl s
  unfold execDmaRd
  repeat' first
    | with_reducible assumption | with_reducible refine State.issue_keeps ?_ (fun t j w ht => ?_)
    | with_reducible apply State.dmaCopy_keeps | with_reducible apply Keeps.next

theorem execDmaWr_keeps (s : State) (a0) (a1) (a2) : Nexts s (execDmaWr a0 a1 a2 s) := by
  have h := Keeps.refl s
  unfold execDmaWr
  repeat' first
    | with_reducible assumption | with_reducible refine State.issue_keeps ?_ (fun t j w ht => ?_)
    | with_reducible apply State.dmaCopy_keeps | with_reducible apply Keeps.next

theorem execDmaLcopy_keeps (s : State) (a0) (a1) (a2) : Nexts s (execDmaLcopy a0 a1 a2 s) := by
  have h := Keeps.refl s
  unfold execDmaLcopy
  repeat' first
    | with_reducible assumption | with_reducible refine State.issue_keeps ?_ (fun t j w ht => ?_)
    | with_reducible apply State.dmaCopy_keeps | with_reducible apply Keeps.next

theorem execDmaRds_keeps (s : State) (a0) (a1) (a2) : Nexts s (execDmaRds a0 a1 a2 s) := by
  have h := Keeps.refl s
  unfold execDmaRds
  repeat' first
    | with_reducible assumption | with_reducible refine State.issue_keeps ?_ (fun t j w ht => ?_)
    | with_reducible apply State.addAct_keeps | with_reducible apply State.inFlight_keeps
    | with_reducible apply Keeps.next

theorem execDmaFill_keeps (s : State) (a0) (a1) (a2) : Nexts s (execDmaFill a0 a1 a2 s) := by
  have h := Keeps.refl s
  unfold execDmaFill
  repeat' first
    | with_reducible assumption | with_reducible refine State.issue_keeps ?_ (fun t j w ht => ?_)
    | with_reducible apply State.addAct_keeps | with_reducible apply State.inFlight_keeps
    | with_reducible apply Keeps.next

end Sys2Proof.Machine
end

