-- ==== Sys2Proof/Laws/Keeps/LoftEng.lean ====
section
/-! SUPPORT. What the operations of Sys2Proof/Machine/LoftEng.lean keep: the queue, the fuses, and the form of the register
file. -/

namespace Sys2Proof.Machine

theorem State.lftVec_keeps {z : State} {s : State} (a1) (a2) (a3) (a4) (h : Keeps z s) :
    Keeps z (State.lftVec s a1 a2 a3 a4) := by
  unfold State.lftVec
  repeat' first
    | with_reducible assumption | with_reducible apply Keeps.ite
    | with_reducible apply State.rdLines_keeps | with_reducible apply State.bondUse_keeps
    | with_reducible apply State.addAct_keeps | with_reducible apply State.updLoft_keeps

theorem State.mvDo_keeps {z : State} {s : State} (a1) (a2) (h : Keeps z s) : Keeps z (State.mvDo s a1 a2) := by
  unfold State.mvDo
  repeat' first
    | with_reducible assumption | with_reducible refine keeps_foldl _ ?_ (fun t x ht => ?_)
    | with_reducible apply Keeps.ite | with_reducible apply State.holdFor_keeps
    | with_reducible apply State.updLoft_keeps | with_reducible apply State.addAct_keeps
    | ((try lift_lets); intro x; refine Keeps.have_ (z := z) (x := x) ?_ ?_;
        (on_goal 2 => (intro hx; clear_value x)); subst x)
    | ((try lift_lets); intro x; clear_value x) | split

theorem State.mvRead_keeps {z : State} {s : State} (a1) (a2) (h : Keeps z s) :
    Keeps z (State.mvRead s a1 a2).2.2 := by
  unfold State.mvRead
  repeat' first
    | with_reducible assumption | with_reducible apply State.useLoft_keeps
    | with_reducible apply State.loftRead_keeps
    | ((try lift_lets); intro x; refine Keeps.have_ (z := z) (x := x.2) ?_ ?_;
        (on_goal 2 => (intro hx; clear_value x)); subst x)
    | split

theorem State.mvBankReads_keeps {z : State} {s : State} (a1) (a2) (a3) (a4) (h : Keeps z s) :
    Keeps z (State.mvBankReads s a1 a2 a3 a4) := by
  unfold State.mvBankReads
  repeat' first
    | with_reducible assumption | with_reducible apply Keeps.ite | with_reducible apply State.mvRead_keeps
    | with_reducible apply State.updLoft_keeps
    | ((try lift_lets); intro x; refine Keeps.have_ (z := z) (x := x) ?_ ?_;
        (on_goal 2 => (intro hx; clear_value x)); subst x)
    | ((try lift_lets); intro x; clear_value x) | split

theorem State.mvStep_keeps {z : State} {s : State} (a1) (a2) (h : Keeps z s) : Keeps z (State.mvStep s a1 a2) := by
  unfold State.mvStep
  repeat' first
    | with_reducible assumption | with_reducible refine keeps_foldl _ ?_ (fun t x ht => ?_)
    | with_reducible apply State.mvDo_keeps | with_reducible apply State.mvBankReads_keeps

theorem State.mvEmit_keeps {z : State} {s : State} (a1) (a2) (a3) (h : Keeps z s) :
    Keeps z (State.mvEmit s a1 a2 a3) := by
  unfold State.mvEmit
  repeat' first
    | with_reducible assumption | with_reducible apply Keeps.ite
    | with_reducible apply State.putLine_keeps | with_reducible apply State.bondUse_keeps
    | with_reducible apply State.addAct_keeps

theorem State.lftWork_keeps {z : State} {s : State} (a1) (h : Keeps z s) : Keeps z (State.lftWork s a1) := by
  unfold State.lftWork
  repeat' first
    | with_reducible assumption | with_reducible apply State.lftVec_keeps
    | with_reducible apply State.mvStep_keeps | with_reducible apply State.mvDo_keeps
    | with_reducible apply State.mvEmit_keeps | split

theorem execLftVec_keeps (s : State) (a0) (a1) (a2) : Nexts s (execLftVec a0 a1 a2 s) := by
  have h := Keeps.refl s
  unfold execLftVec
  repeat' first
    | with_reducible assumption | with_reducible refine State.issue_keeps ?_ (fun t j w ht => ?_)
    | with_reducible apply State.addAct_keeps | with_reducible apply State.inFlight_keeps
    | with_reducible apply Keeps.next

theorem execLftMv_keeps (s : State) (a0) (a1) (a2) : Nexts s (execLftMv a0 a1 a2 s) := by
  have h := Keeps.refl s
  unfold execLftMv
  repeat' first
    | with_reducible assumption | with_reducible apply Keeps.ite
    | with_reducible refine State.issue_keeps ?_ (fun t j w ht => ?_) | with_reducible apply State.inFlight_keeps
    | with_reducible apply State.fset_keeps | with_reducible apply State.addAct_keeps
    | with_reducible apply Keeps.next

theorem execLftPwr_keeps (s : State) (a0) (a1) (a2) : Nexts s (execLftPwr a0 a1 a2 s) := by
  have h := Keeps.refl s
  unfold execLftPwr
  repeat' first
    | with_reducible assumption | with_reducible refine keeps_foldl _ ?_ (fun t x ht => ?_)
    | with_reducible apply Keeps.ite | with_reducible refine State.issue_keeps ?_ (fun t j w ht => ?_)
    | with_reducible apply State.updBank_keeps | with_reducible apply State.inFlight_keeps
    | with_reducible apply Keeps.next

theorem execBankDrainDone_keeps (s : State) (a0) (a1) : Nexts s (execBankDrainDone a0 a1 s) := by
  have h := Keeps.refl s
  unfold execBankDrainDone
  repeat' first
    | with_reducible assumption | with_reducible refine keeps_foldl _ ?_ (fun t x ht => ?_)
    | with_reducible apply Keeps.ite | with_reducible apply Nexts.ite | with_reducible apply State.updLoft_keeps
    | with_reducible apply State.updStall_keeps
    | ((try lift_lets); intro x; refine Keeps.have_ (z := s) (x := x) ?_ ?_;
        (on_goal 2 => (intro hx; clear_value x)); subst x)
    | with_reducible apply Keeps.next

theorem execBankWakeDone_keeps (s : State) (a0) (a1) : Nexts s (execBankWakeDone a0 a1 s) := by
  have h := Keeps.refl s
  unfold execBankWakeDone
  repeat' first
    | with_reducible assumption | with_reducible apply Nexts.ite
    | with_reducible apply State.updBank_keeps | with_reducible apply Keeps.next

theorem execBankRefresh_keeps (s : State) (a0) (a1) : Nexts s (execBankRefresh a0 a1 s) := by
  have h := Keeps.refl s
  unfold execBankRefresh
  repeat' first
    | with_reducible assumption | with_reducible apply Nexts.ite
    | with_reducible apply State.updBank_keeps | with_reducible apply Keeps.next

theorem execTimerRefresh_keeps (s : State) (a0) (a1) : Nexts s (execTimerRefresh a0 a1 s) := by
  have h := Keeps.refl s
  unfold execTimerRefresh
  repeat' first
    | with_reducible assumption | with_reducible apply Nexts.ite | with_reducible apply State.fwrap_keeps
    | with_reducible apply State.updBank_keeps | with_reducible apply Keeps.next

end Sys2Proof.Machine
end

