-- ==== Sys2Proof/Laws/Keeps/Network.lean ====
section
/-! SUPPORT. What the operations of Sys2Proof/Machine/Network.lean keep: the queue, the fuses, and the form of the register
file. -/

namespace Sys2Proof.Machine

theorem State.netRead_keeps {z : State} {s : State} (a1) (a2) (h : Keeps z s) : Keeps z (State.netRead s a1 a2) := by
  unfold State.netRead
  repeat' first
    | with_reducible assumption | with_reducible refine keeps_foldl _ ?_ (fun t x ht => ?_)
    | with_reducible apply Keeps.ite | with_reducible apply State.rdLines_keeps
    | with_reducible apply State.newFlits_keeps | with_reducible apply State.addAct_keeps

theorem State.slotLand_keeps {z : State} {s : State} (a1) (a2) (a3) (a4) (h : Keeps z s) :
    Keeps z (State.slotLand s a1 a2 a3 a4) := by
  unfold State.slotLand
  repeat' first
    | with_reducible assumption | with_reducible apply Keeps.ite | with_reducible apply State.netErr_keeps
    | with_reducible apply State.putLine_keeps | with_reducible apply State.updStall_keeps
    | with_reducible apply State.signal_keeps | split

theorem State.slotSet_keeps {z : State} {s : State} (a1) (h : Keeps z s) : Keeps z (State.slotSet s a1) := by
  unfold State.slotSet
  repeat' first | with_reducible assumption | with_reducible apply State.updStall_keeps

theorem State.sigSet_keeps {z : State} {s : State} (a1) (a2) (a3) (h : Keeps z s) :
    Keeps z (State.sigSet s a1 a2 a3) := by
  unfold State.sigSet
  repeat' first | with_reducible assumption | with_reducible apply Keeps.ite | with_reducible apply State.signal_keeps

theorem State.netWork_keeps {z : State} {s : State} (a1) (h : Keeps z s) : Keeps z (State.netWork s a1) := by
  unfold State.netWork
  repeat' first
    | with_reducible assumption | with_reducible apply State.netRead_keeps
    | with_reducible apply State.slotLand_keeps | with_reducible apply State.slotSet_keeps
    | with_reducible apply State.sigSet_keeps | split

theorem execNetSend_keeps (s : State) (a0) (a1) (a2) : Nexts s (execNetSend a0 a1 a2 s) := by
  have h := Keeps.refl s
  unfold execNetSend
  repeat' first
    | with_reducible assumption | with_reducible refine State.issue_keeps ?_ (fun t j w ht => ?_)
    | with_reducible apply State.addAct_keeps | with_reducible apply State.inFlight_keeps
    | with_reducible apply Keeps.next

theorem execNetSlot_keeps (s : State) (a0) (a1) (a2) : Nexts s (execNetSlot a0 a1 a2 s) := by
  have h := Keeps.refl s
  unfold execNetSlot
  repeat' first
    | with_reducible assumption | with_reducible refine State.issue_keeps ?_ (fun t j w ht => ?_)
    | with_reducible apply State.addAct_keeps | with_reducible apply State.inFlight_keeps
    | with_reducible apply Keeps.next

theorem execNetSig_keeps (s : State) (a0) (a1) (a2) : Nexts s (execNetSig a0 a1 a2 s) := by
  have h := Keeps.refl s
  unfold execNetSig
  repeat' first
    | with_reducible assumption | with_reducible refine keeps_foldl _ ?_ (fun t x ht => ?_)
    | with_reducible refine State.issue_keeps ?_ (fun t j w ht => ?_) | with_reducible apply State.inFlight_keeps
    | with_reducible apply State.newFlit_keeps | with_reducible apply State.addAct_keeps
    | with_reducible apply Keeps.next

end Sys2Proof.Machine
end

