-- ==== Sys2Proof/Laws/Keeps/Acts.lean ====
section
/-! SUPPORT. What the operations of Sys2Proof/Machine/Acts.lean keep: the queue, the fuses, and the form of the register
file. -/

namespace Sys2Proof.Machine

theorem State.closeStall_keeps {z : State} {s : State} (a1) (a2) (h : Keeps z s) :
    Keeps z (State.closeStall s a1 a2) := by
  unfold State.closeStall
  repeat' first
    | with_reducible assumption | with_reducible apply State.updStall_keeps
    | with_reducible apply State.bondCheck_keeps | with_reducible apply State.raiseClash_keeps

theorem State.closeBarn_keeps {z : State} {s : State} (a1) (a2) (h : Keeps z s) :
    Keeps z (State.closeBarn s a1 a2) := by
  unfold State.closeBarn
  repeat' first
    | with_reducible assumption | with_reducible refine keeps_foldl _ ?_ (fun t x ht => ?_)
    | with_reducible apply State.closeStall_keeps | with_reducible apply State.updLoft_keeps
    | with_reducible apply State.bondCheckAll_keeps | with_reducible apply State.raiseLoftClash_keeps

theorem State.perform_keeps {z : State} {s : State} (a1) (h : Keeps z s) : Keeps z (State.perform s a1) := by
  unfold State.perform
  repeat' first
    | with_reducible assumption | with_reducible apply Keeps.ite
    | with_reducible apply State.dmaWork_keeps | with_reducible apply State.landLines_keeps
    | with_reducible apply State.vecWork_keeps | with_reducible apply State.arrWork_keeps
    | with_reducible apply State.lftWork_keeps | with_reducible apply State.netWork_keeps | split

theorem State.dueWork_keeps {z : State} {s : State} (a1) (h : Keeps z s) : Keeps z (State.dueWork s a1) := by
  unfold State.dueWork
  repeat' first
    | with_reducible assumption | with_reducible refine keeps_foldl _ ?_ (fun t x ht => ?_)
    | with_reducible apply State.resolve_keeps | with_reducible apply State.perform_keeps
    | (fail_if_no_progress (with_reducible apply Keeps.upd))

theorem State.runActs_keeps {z : State} {s : State} (a1) (h : Keeps z s) : Keeps z (State.runActs s a1) := by
  unfold State.runActs
  repeat' first
    | with_reducible assumption | with_reducible apply Keeps.ite
    | with_reducible apply State.dueWork_keeps | with_reducible apply State.closeBarn_keeps

end Sys2Proof.Machine
end

