-- ==== Sys2Proof/Laws/Keeps/Cfg.lean ====
section
/-! SUPPORT. What the operations of Sys2Proof/Machine/Cfg.lean keep: the queue, the fuses, and the form of the register
file. -/

namespace Sys2Proof.Machine

theorem State.setCfgRef_keeps {z : State} {s : State} (a1) (a2) (a3) (h : Keeps z s) :
    Keeps z (State.setCfgRef s a1 a2 a3) := by
  unfold State.setCfgRef
  repeat' first | with_reducible assumption | (fail_if_no_progress (with_reducible apply Keeps.upd))

theorem State.commitRef_keeps {z : State} {s : State} (a1) (a2) (h : Keeps z s) :
    Keeps z (State.commitRef s a1 a2) := by
  unfold State.commitRef
  repeat' first | with_reducible assumption | with_reducible apply State.setCfgRef_keeps

theorem State.hwSet_keeps {z : State} {s : State} (a1) (a2) (a3) (a4) (h : Keeps z s) :
    Keeps z (State.hwSet s a1 a2 a3 a4) := by
  unfold State.hwSet
  repeat' first
    | with_reducible assumption | with_reducible apply State.commitRef_keeps
    | with_reducible apply State.fset_keeps

end Sys2Proof.Machine
end

