-- ==== Sys2Proof/Laws/Keeps/Banks.lean ====
section
/-! SUPPORT. What the operations of Sys2Proof/Machine/Banks.lean keep: the queue, the fuses, and the form of the register
file. -/

namespace Sys2Proof.Machine

theorem State.takeBank_keeps {z : State} {s : State} (a1) (a2) (h : Keeps z s) :
    Keeps z (State.takeBank s a1 a2) := by
  unfold State.takeBank
  repeat' first | with_reducible assumption | with_reducible apply State.updStall_keeps

theorem State.pokeLine_keeps {z : State} {s : State} (a1) (a2) (a3) (h : Keeps z s) :
    Keeps z (State.pokeLine s a1 a2 a3) := by
  unfold State.pokeLine
  repeat' first
    | with_reducible assumption | with_reducible apply Keeps.ite
    | with_reducible apply State.writeLine_keeps | with_reducible apply State.takeBank_keeps

theorem State.pokeAcc_keeps {z : State} {s : State} (a1) (a2) (a3) (h : Keeps z s) :
    Keeps z (State.pokeAcc s a1 a2 a3) := by
  unfold State.pokeAcc
  repeat' first | with_reducible assumption | with_reducible apply State.updStall_keeps

theorem State.bondTake_keeps {z : State} {s : State} (a1) (a2) (h : Keeps z s) :
    Keeps z (State.bondTake s a1 a2) := by
  unfold State.bondTake
  repeat' first | with_reducible assumption | with_reducible apply State.updLoft_keeps

theorem State.foresee_keeps {z : State} {s : State} (a1) (h : Keeps z s) : Keeps z (State.foresee s a1) := by
  unfold State.foresee
  repeat' first
    | with_reducible assumption | with_reducible apply Keeps.ite
    | with_reducible apply State.dueWork_keeps

theorem State.takeLoft_keeps {z : State} {s : State} (a1) (a2) (h : Keeps z s) :
    Keeps z (State.takeLoft s a1 a2) := by
  unfold State.takeLoft
  repeat' first | with_reducible assumption | with_reducible apply State.updLoft_keeps

end Sys2Proof.Machine
end

