-- ==== Sys2Proof/Laws/Keeps/DevMem.lean ====
section
/-! SUPPORT. What the operations of Sys2Proof/Machine/DevMem.lean keep: the queue, the fuses, and the form of the register
file. -/

namespace Sys2Proof.Machine

theorem State.hubPoke_keeps {z : State} {s : State} (a1) (a2) (a3) (h : Keeps z s) :
    Keeps z (State.hubPoke s a1 a2 a3) := by
  unfold State.hubPoke
  repeat' first
    | with_reducible assumption | with_reducible apply Keeps.ite
    | with_reducible apply State.pokeLine_keeps | with_reducible apply State.loftErr_keeps
    | with_reducible apply State.loftStore_keeps | split

theorem State.hubPut_keeps {z : State} {s : State} (a1) (a2) (a3) (a4) (h : Keeps z s) :
    Keeps z (State.hubPut s a1 a2 a3 a4) := by
  unfold State.hubPut
  repeat' first
    | with_reducible assumption | with_reducible refine keeps_foldl _ ?_ (fun t x ht => ?_)
    | with_reducible apply State.hubPoke_keeps

theorem State.setCtr_keeps {z : State} {s : State} (a1) (a2) (h : Keeps z s) : Keeps z (State.setCtr s a1 a2) := by
  unfold State.setCtr
  repeat' first | with_reducible assumption | with_reducible apply State.updCtr_keeps

theorem State.offBanks_keeps {z : State} {s : State} (a1) (a2) (a3) (h : Keeps z s) :
    Keeps z (State.offBanks s a1 a2 a3) := by
  unfold State.offBanks
  repeat' first
    | with_reducible assumption | with_reducible refine keeps_foldl _ ?_ (fun t x ht => ?_)
    | with_reducible apply Keeps.ite | with_reducible apply State.loftErr_keeps | split

end Sys2Proof.Machine
end

