-- ==== Sys2Proof/Laws/Keeps/PortDown.lean ====
section
/-! SUPPORT. What the operations of Sys2Proof/Machine/PortDown.lean keep: the queue, the fuses, and the form of the register
file. -/

namespace Sys2Proof.Machine

theorem State.routeLost_keeps {z : State} {s : State} (a1) (a2) (a3) (h : Keeps z s) :
    Keeps z (State.routeLost s a1 a2 a3) := by
  unfold State.routeLost
  repeat' first
    | with_reducible assumption | with_reducible apply Keeps.ite
    | with_reducible apply State.sendSwitch_keeps | with_reducible apply State.updFab_keeps
    | with_reducible apply State.sendControl_keeps | with_reducible apply State.lostRoute_keeps

theorem State.routesLost_keeps {z : State} {s : State} (a1) (h : Keeps z s) : Keeps z (State.routesLost s a1) := by
  unfold State.routesLost
  repeat' first
    | with_reducible assumption | with_reducible refine keeps_foldl _ ?_ (fun t x ht => ?_)
    | with_reducible apply State.routeLost_keeps

theorem State.portDown_keeps {z : State} {s : State} (a1) (a2) (h : Keeps z s) :
    Keeps z (State.portDown s a1 a2) := by
  unfold State.portDown
  repeat' first
    | with_reducible assumption | with_reducible apply State.linkDown_keeps
    | with_reducible apply State.routesLost_keeps

end Sys2Proof.Machine
end

