-- ==== Sys2Proof/Laws/Keeps/Link.lean ====
section
/-! SUPPORT. What the operations of Sys2Proof/Machine/Link.lean keep: the queue, the fuses, and the form of the register
file. -/

namespace Sys2Proof.Machine

theorem State.ackFlit_keeps {z : State} {s : State} (a1) (a2) (h : Keeps z s) : Keeps z (State.ackFlit s a1 a2) := by
  unfold State.ackFlit
  repeat' first
    | with_reducible assumption | with_reducible apply Keeps.ite
    | with_reducible apply State.updLink_keeps | ((try lift_lets); intro x; clear_value x) | split | dsimp only

theorem State.aligned_keeps {z : State} {s : State} (a1) (h : Keeps z s) : Keeps z (State.aligned s a1) := by
  unfold State.aligned
  repeat' first | with_reducible assumption | with_reducible apply State.updLink_keeps

theorem State.countFec_keeps {z : State} {s : State} (a1) (a2) (h : Keeps z s) :
    Keeps z (State.countFec s a1 a2) := by
  unfold State.countFec
  repeat' first
    | with_reducible assumption | with_reducible apply State.updLink_keeps
    | with_reducible apply State.fwrap_keeps

theorem State.nakPend_keeps {z : State} {s : State} (a1) (h : Keeps z s) : Keeps z (State.nakPend s a1) := by
  unfold State.nakPend
  repeat' first
    | with_reducible assumption | with_reducible apply Keeps.ite
    | with_reducible apply State.updLink_keeps

theorem State.badFlit_keeps {z : State} {s : State} (a1) (h : Keeps z s) : Keeps z (State.badFlit s a1) := by
  unfold State.badFlit
  repeat' first
    | with_reducible assumption | with_reducible apply Keeps.ite | with_reducible apply State.fwrap_keeps
    | with_reducible apply State.nakPend_keeps

theorem State.protocolDown_keeps {z : State} {s : State} (a1) (h : Keeps z s) :
    Keeps z (State.protocolDown s a1) := by
  unfold State.protocolDown
  repeat' first
    | with_reducible assumption | with_reducible apply State.portDown_keeps
    | with_reducible apply State.lnkErr_keeps

theorem State.storeAgreed_keeps {z : State} {s : State} (a1) (a2) (a3) (h : Keeps z s) :
    Keeps z (State.storeAgreed s a1 a2 a3) := by
  unfold State.storeAgreed
  repeat' first
    | with_reducible assumption | with_reducible apply State.setReg_keeps
    | with_reducible apply State.fset_keeps

theorem State.enterActive_keeps {z : State} {s : State} (a1) (h : Keeps z s) : Keeps z (State.enterActive s a1) := by
  unfold State.enterActive
  repeat' first
    | with_reducible assumption | with_reducible apply Keeps.ite
    | with_reducible apply State.updLink_keeps | with_reducible apply State.storeAgreed_keeps
    | with_reducible apply State.setPort_keeps | with_reducible apply State.lnkErr_keeps
    | ((try lift_lets); intro x; clear_value x) | split | (fail_if_no_progress (with_reducible apply Keeps.upd))

theorem State.takeCap_keeps {z : State} {s : State} (a1) (a2) (h : Keeps z s) : Keeps z (State.takeCap s a1 a2) := by
  unfold State.takeCap
  repeat' first
    | with_reducible assumption | with_reducible apply Keeps.ite
    | with_reducible apply State.linkDownOpen_keeps | with_reducible apply State.routesLost_keeps
    | with_reducible apply State.enterActive_keeps | with_reducible apply State.updLink_keeps

theorem State.takeCfg_keeps {z : State} {s : State} (a1) (a2) (h : Keeps z s) : Keeps z (State.takeCfg s a1 a2) := by
  unfold State.takeCfg
  repeat' first | with_reducible assumption | with_reducible apply State.updLink_keeps

theorem State.enterRetrain_keeps {z : State} {s : State} (a1) (a2) (a3) (a4) (a5) (h : Keeps z s) :
    Keeps z (State.enterRetrain s a1 a2 a3 a4 a5) := by
  unfold State.enterRetrain
  repeat' first
    | with_reducible assumption | with_reducible apply Keeps.ite
    | with_reducible apply State.updLink_keeps | with_reducible apply State.setPort_keeps
    | with_reducible apply State.takeCfg_keeps | with_reducible apply State.lnkErr_keeps
    | with_reducible apply State.fsat_keeps

theorem State.retrainSame_keeps {z : State} {s : State} (a1) (h : Keeps z s) : Keeps z (State.retrainSame s a1) := by
  unfold State.retrainSame
  repeat' first | with_reducible assumption | with_reducible apply State.enterRetrain_keeps

theorem State.creditFlit_keeps {z : State} {s : State} (a1) (a2) (h : Keeps z s) :
    Keeps z (State.creditFlit s a1 a2) := by
  unfold State.creditFlit
  repeat' first
    | with_reducible assumption | with_reducible apply Keeps.ite
    | with_reducible apply State.updLink_keeps | with_reducible apply State.retrainSame_keeps
    | with_reducible apply State.lnkErr_keeps

theorem State.replayDue_keeps {z : State} {s : State} (a1) (a2) (h : Keeps z s) :
    Keeps z (State.replayDue s a1 a2) := by
  unfold State.replayDue
  repeat' first
    | with_reducible assumption | with_reducible apply Keeps.ite
    | with_reducible apply State.updLink_keeps | with_reducible apply State.lnkErr_keeps
    | with_reducible apply State.setReport_keeps | with_reducible apply State.retrainSame_keeps
    | with_reducible apply State.fsat_keeps

theorem State.nakFlit_keeps {z : State} {s : State} (a1) (a2) (h : Keeps z s) : Keeps z (State.nakFlit s a1 a2) := by
  unfold State.nakFlit
  repeat' first
    | with_reducible assumption | with_reducible apply Keeps.ite
    | with_reducible apply State.replayDue_keeps | with_reducible apply State.updLink_keeps

theorem State.goodFlit_keeps {z : State} {s : State} (a1) (a2) (h : Keeps z s) :
    Keeps z (State.goodFlit s a1 a2) := by
  unfold State.goodFlit
  repeat' first
    | with_reducible assumption | with_reducible apply State.creditFlit_keeps
    | with_reducible apply State.nakFlit_keeps | with_reducible apply State.ackFlit_keeps

theorem State.takeUnit_keeps {z : State} {s : State} (a1) (a2) (a3) (a4) (a5) (h : Keeps z s) :
    Keeps z (State.takeUnit s a1 a2 a3 a4 a5) := by
  unfold State.takeUnit
  repeat' first
    | with_reducible assumption | with_reducible refine keeps_foldl _ ?_ (fun t x ht => ?_)
    | with_reducible apply Keeps.ite | with_reducible apply State.updLink_keeps
    | with_reducible apply State.updFab_keeps | split

theorem State.sweepRx_keeps {z : State} {s : State} (a1) (a2) (h : Keeps z s) : Keeps z (State.sweepRx s a1 a2) := by
  unfold State.sweepRx
  repeat' first
    | with_reducible assumption | with_reducible refine keeps_foldl _ ?_ (fun t x ht => ?_)
    | with_reducible apply Keeps.ite | with_reducible apply State.freeRx_keeps
    | with_reducible apply State.updLink_keeps

theorem State.takeUnits_keeps {z : State} {s : State} (a1) (a2) (a3) (h : Keeps z s) :
    Keeps z (State.takeUnits s a1 a2 a3) := by
  unfold State.takeUnits
  repeat' first
    | with_reducible assumption | with_reducible refine keeps_foldl _ ?_ (fun t x ht => ?_)
    | with_reducible apply State.takeUnit_keeps | with_reducible apply State.sweepRx_keeps

theorem State.nakEnd_keeps {z : State} {s : State} (a1) (h : Keeps z s) : Keeps z (State.nakEnd s a1) := by
  unfold State.nakEnd
  repeat' first | with_reducible assumption | with_reducible apply State.updLink_keeps

theorem State.takeData_keeps {z : State} {s : State} (a1) (a2) (a3) (h : Keeps z s) :
    Keeps z (State.takeData s a1 a2 a3) := by
  unfold State.takeData
  repeat' first
    | with_reducible assumption | with_reducible apply Keeps.ite
    | with_reducible apply State.protocolDown_keeps | with_reducible apply State.goodFlit_keeps
    | with_reducible apply State.takeUnits_keeps | with_reducible apply State.nakEnd_keeps
    | with_reducible apply State.updLink_keeps | with_reducible apply State.nakPend_keeps
    | with_reducible apply State.fsat_keeps

theorem State.seqShown_keeps {z : State} {s : State} (a1) (a2) (h : Keeps z s) :
    Keeps z (State.seqShown s a1 a2) := by
  unfold State.seqShown
  repeat' first
    | with_reducible assumption | with_reducible apply Keeps.ite | with_reducible apply State.nakEnd_keeps
    | with_reducible apply State.nakPend_keeps

theorem State.takeMsg_keeps {z : State} {s : State} (a1) (a2) (h : Keeps z s) : Keeps z (State.takeMsg s a1 a2) := by
  unfold State.takeMsg
  repeat' first
    | with_reducible assumption | with_reducible apply Keeps.ite | with_reducible apply State.fsat_keeps
    | with_reducible apply State.lnkErr_keeps | with_reducible apply State.setReport_keeps
    | with_reducible apply State.updLink_keeps

theorem State.takeGood_keeps {z : State} {s : State} (a1) (a2) (a3) (h : Keeps z s) :
    Keeps z (State.takeGood s a1 a2 a3) := by
  unfold State.takeGood
  repeat' first
    | with_reducible assumption | with_reducible refine keeps_foldl _ ?_ (fun t x ht => ?_)
    | with_reducible apply Keeps.ite | with_reducible apply State.protocolDown_keeps
    | with_reducible apply State.takeCap_keeps | with_reducible apply State.takeData_keeps
    | with_reducible apply State.seqShown_keeps | with_reducible apply State.goodFlit_keeps
    | with_reducible apply State.takeMsg_keeps

theorem State.arriveFlit_keeps {z : State} {s : State} (a1) (a2) (h : Keeps z s) :
    Keeps z (State.arriveFlit s a1 a2) := by
  unfold State.arriveFlit
  repeat' first
    | with_reducible assumption | with_reducible apply Keeps.ite
    | with_reducible apply State.updLink_keeps | with_reducible apply State.countFec_keeps
    | with_reducible apply State.badFlit_keeps | with_reducible apply State.takeGood_keeps
    | ((try lift_lets); intro x; refine Keeps.have_ (z := z) (x := x) ?_ ?_;
        (on_goal 2 => (intro hx; clear_value x)); subst x)
    | ((try lift_lets); intro x; clear_value x) | split

theorem State.enterDetect_keeps {z : State} {s : State} (a1) (h : Keeps z s) : Keeps z (State.enterDetect s a1) := by
  unfold State.enterDetect
  repeat' first
    | with_reducible assumption | with_reducible apply State.setPort_keeps
    | with_reducible apply State.takeCfg_keeps

theorem State.tryStart_keeps {z : State} {s : State} (a1) (h : Keeps z s) : Keeps z (State.tryStart s a1) := by
  unfold State.tryStart
  repeat' first
    | with_reducible assumption | with_reducible apply Keeps.ite
    | with_reducible apply State.enterDetect_keeps

theorem State.startHeld_keeps {z : State} {s : State} (h : Keeps z s) : Keeps z (State.startHeld s) := by
  unfold State.startHeld
  repeat' first
    | with_reducible assumption | with_reducible refine keeps_foldl _ ?_ (fun t x ht => ?_)
    | with_reducible apply State.tryStart_keeps

theorem State.portRetrain_keeps {z : State} {s : State} (a1) (h : Keeps z s) : Keeps z (State.portRetrain s a1) := by
  unfold State.portRetrain
  repeat' first
    | with_reducible assumption | with_reducible apply Keeps.ite
    | with_reducible apply State.enterRetrain_keeps

theorem State.portEnable_keeps {z : State} {s : State} (a1) (h : Keeps z s) : Keeps z (State.portEnable s a1) := by
  unfold State.portEnable
  repeat' first
    | with_reducible assumption | with_reducible apply State.tryStart_keeps
    | with_reducible apply State.fset_keeps

theorem State.portOff_keeps {z : State} {s : State} (a1) (h : Keeps z s) : Keeps z (State.portOff s a1) := by
  unfold State.portOff
  repeat' first | with_reducible assumption | with_reducible apply State.setPort_keeps

theorem State.portDisable_keeps {z : State} {s : State} (a1) (h : Keeps z s) : Keeps z (State.portDisable s a1) := by
  unfold State.portDisable
  repeat' first
    | with_reducible assumption | with_reducible apply Keeps.ite | with_reducible apply State.fset_keeps
    | with_reducible apply State.portOff_keeps | with_reducible apply State.portDown_keeps
    | with_reducible apply State.linkNotice_keeps

theorem State.setLanes_keeps {z : State} {s : State} (a1) (a2) (a3) (h : Keeps z s) :
    Keeps z (State.setLanes s a1 a2 a3) := by
  unfold State.setLanes
  repeat' first | with_reducible assumption | with_reducible apply State.fset_keeps

theorem State.takeStored_keeps {z s t : State} {p bt : Nat} {m : BitVec 128 × Nat} (e : s.takeStored p bt = some (m, t))
    (h : Keeps z s) : Keeps z t := by
  unfold State.takeStored at e
  split at e
  · cases e
    exact State.updLink_keeps _ _ h
  · cases e

theorem State.trainFailed_keeps {z : State} {s : State} (a1) (h : Keeps z s) : Keeps z (State.trainFailed s a1) := by
  unfold State.trainFailed
  repeat' first
    | with_reducible assumption | with_reducible apply State.portDown_keeps
    | with_reducible apply State.lnkErr_keeps

theorem execPortEnable_keeps (s : State) (a0) : Nexts s (execPortEnable a0 s) := by
  have h := Keeps.refl s
  unfold execPortEnable
  repeat' first
    | with_reducible assumption | with_reducible apply State.portEnable_keeps
    | with_reducible apply Keeps.next

theorem execPortDisable_keeps (s : State) (a0) : Nexts s (execPortDisable a0 s) := by
  have h := Keeps.refl s
  unfold execPortDisable
  repeat' first
    | with_reducible assumption | with_reducible apply State.portDisable_keeps
    | with_reducible apply Keeps.next

theorem execPortRetrain_keeps (s : State) (a0) : Nexts s (execPortRetrain a0 s) := by
  have h := Keeps.refl s
  unfold execPortRetrain
  repeat' first
    | with_reducible assumption | with_reducible apply State.portRetrain_keeps
    | with_reducible apply Keeps.next

theorem execDetectDone_keeps (s : State) (a0) : Nexts s (execDetectDone a0 s) := by
  have h := Keeps.refl s
  unfold execDetectDone
  repeat' first
    | with_reducible assumption | with_reducible apply State.setPort_keeps
    | with_reducible apply State.updLink_keeps | split | with_reducible apply Keeps.next

theorem execEqualiseEnd_keeps (s : State) (a0) (a1) : Nexts s (execEqualiseEnd a0 a1 s) := by
  have h := Keeps.refl s
  unfold execEqualiseEnd
  repeat' first
    | with_reducible assumption | with_reducible apply State.setPort_keeps
    | with_reducible apply State.setLanes_keeps | with_reducible apply State.trainFailed_keeps
    | with_reducible apply State.updLink_keeps | ((try lift_lets); intro x; clear_value x) | split
    | with_reducible apply Keeps.next

theorem execAlignEnd_keeps (s : State) (a0) (a1) : Nexts s (execAlignEnd a0 a1 s) := by
  have h := Keeps.refl s
  unfold execAlignEnd
  repeat' first
    | with_reducible assumption | with_reducible apply State.setPort_keeps
    | with_reducible apply State.aligned_keeps | with_reducible apply State.trainFailed_keeps
    | with_reducible apply State.updLink_keeps | split | with_reducible apply Keeps.next

theorem execCap_keeps (s : State) (a0) (a1) : Nexts s (execCap a0 a1 s) := by
  have h := Keeps.refl s
  unfold execCap
  repeat' first
    | with_reducible assumption | with_reducible apply State.arriveFlit_keeps
    | with_reducible apply Keeps.next

theorem execCapTimeout_keeps (s : State) (a0) : Nexts s (execCapTimeout a0 s) := by
  have h := Keeps.refl s
  unfold execCapTimeout
  repeat' first
    | with_reducible assumption | with_reducible apply State.portDown_keeps
    | with_reducible apply State.lnkErr_keeps | split | with_reducible apply Keeps.next

theorem execDownTimeout_keeps (s : State) (a0) : Nexts s (execDownTimeout a0 s) := by
  have h := Keeps.refl s
  unfold execDownTimeout
  repeat' first
    | with_reducible assumption | with_reducible apply State.portOff_keeps
    | with_reducible apply State.enterDetect_keeps | split | with_reducible apply Keeps.next

theorem execRetrainTimeout_keeps (s : State) (a0) : Nexts s (execRetrainTimeout a0 s) := by
  have h := Keeps.refl s
  unfold execRetrainTimeout
  repeat' first
    | with_reducible assumption | with_reducible apply State.portDown_keeps | split
    | with_reducible apply Keeps.next

theorem execLaneFail_keeps (s : State) (a0) (a1) : Nexts s (execLaneFail a0 a1 s) := by
  have h := Keeps.refl s
  unfold execLaneFail
  repeat' first
    | with_reducible assumption | with_reducible apply State.linkDownOpen_keeps
    | with_reducible apply State.routesLost_keeps | with_reducible apply State.enterRetrain_keeps
    | with_reducible apply State.lnkErr_keeps
    | ((try lift_lets); intro x; refine Keeps.have_ (z := s) (x := x.2) ?_ ?_;
        (on_goal 2 => (intro hx; clear_value x)); subst x)
    | ((try lift_lets); intro x; clear_value x) | split | with_reducible apply Keeps.next

theorem execFlitSlot_keeps (s : State) (a0) : Nexts s (execFlitSlot a0 s) := by
  have h := Keeps.refl s
  unfold execFlitSlot
  repeat' first
    | with_reducible assumption | with_reducible apply State.emit_keeps
    | with_reducible apply State.enterActive_keeps | with_reducible apply State.updLink_keeps
    | with_reducible apply State.putFlit_keeps | with_reducible apply State.fwrap_keeps
    | ((try lift_lets); intro x; refine Keeps.have_ (z := s) (x := x) ?_ ?_;
        (on_goal 2 => (intro hx; clear_value x)); subst x)
    | ((try lift_lets); intro x; clear_value x) | split | with_reducible apply Keeps.next

theorem execData_keeps (s : State) (a0) (a1) : Nexts s (execData a0 a1 s) := by
  have h := Keeps.refl s
  unfold execData
  repeat' first
    | with_reducible assumption | with_reducible apply State.arriveFlit_keeps
    | with_reducible apply Keeps.next

theorem execIdle_keeps (s : State) (a0) (a1) : Nexts s (execIdle a0 a1 s) := by
  have h := Keeps.refl s
  unfold execIdle
  repeat' first
    | with_reducible assumption | with_reducible apply State.arriveFlit_keeps
    | with_reducible apply Keeps.next

theorem execBypass_keeps (s : State) (a0) (a1) : Nexts s (execBypass a0 a1 s) := by
  have h := Keeps.refl s
  unfold execBypass
  repeat' first
    | with_reducible assumption | with_reducible apply State.arriveFlit_keeps
    | with_reducible apply Keeps.next

theorem execBadFlit_keeps (s : State) (a0) (a1) : Nexts s (execBadFlit a0 a1 s) := by
  have h := Keeps.refl s
  unfold execBadFlit
  repeat' first
    | with_reducible assumption | with_reducible apply State.arriveFlit_keeps
    | with_reducible apply Keeps.next

theorem execNakRenew_keeps (s : State) (a0) : Nexts s (execNakRenew a0 s) := by
  have h := Keeps.refl s
  unfold execNakRenew
  repeat' first
    | with_reducible assumption | with_reducible apply State.updLink_keeps
    | ((try lift_lets); intro x; clear_value x) | split | with_reducible apply Keeps.next

theorem execReplayTimer_keeps (s : State) (a0) : Nexts s (execReplayTimer a0 s) := by
  have h := Keeps.refl s
  unfold execReplayTimer
  repeat' first
    | with_reducible assumption | with_reducible apply State.replayDue_keeps
    | ((try lift_lets); intro x; clear_value x) | split | with_reducible apply Keeps.next

theorem execLinkSilence_keeps (s : State) (a0) : Nexts s (execLinkSilence a0 s) := by
  have h := Keeps.refl s
  unfold execLinkSilence
  repeat' first
    | with_reducible assumption | with_reducible apply State.portDown_keeps | split
    | with_reducible apply Keeps.next

theorem execLinkNotice_keeps (s : State) (a0) : Nexts s (execLinkNotice a0 s) := by
  have h := Keeps.refl s
  unfold execLinkNotice
  repeat' first
    | with_reducible assumption | with_reducible apply State.portDown_keeps | split
    | with_reducible apply Keeps.next | refine State.takeStored_keeps (by with_reducible assumption) ?_

theorem execFecInterval_keeps (s : State) (a0) : Nexts s (execFecInterval a0 s) := by
  have h := Keeps.refl s
  unfold execFecInterval
  repeat' first
    | with_reducible assumption | with_reducible apply State.updLink_keeps
    | with_reducible apply State.lnkErr_keeps
    | ((try lift_lets); intro x; refine Keeps.have_ (z := s) (x := x) ?_ ?_;
        (on_goal 2 => (intro hx; clear_value x)); subst x)
    | ((try lift_lets); intro x; clear_value x) | split | with_reducible apply Keeps.next

theorem execTimeExchangeStart_keeps (s : State) (a0) : Nexts s (execTimeExchangeStart a0 s) := by
  have h := Keeps.refl s
  unfold execTimeExchangeStart
  repeat' first
    | with_reducible assumption | with_reducible apply State.sendBypass_keeps
    | with_reducible apply State.updLink_keeps | ((try lift_lets); intro x; clear_value x) | split
    | with_reducible apply Keeps.next

theorem execTimeReq_keeps (s : State) (a0) : Nexts s (execTimeReq a0 s) := by
  have h := Keeps.refl s
  unfold execTimeReq
  repeat' first
    | with_reducible assumption | with_reducible apply State.updLink_keeps | split
    | with_reducible apply Keeps.next | refine State.takeStored_keeps (by with_reducible assumption) ?_

theorem execTimeRsp_keeps (s : State) (a0) : Nexts s (execTimeRsp a0 s) := by
  have h := Keeps.refl s
  unfold execTimeRsp
  repeat' first
    | with_reducible assumption | with_reducible apply State.updLink_keeps | split
    | with_reducible apply Keeps.next | refine State.takeStored_keeps (by with_reducible assumption) ?_

theorem execTimeExchangeAbandon_keeps (s : State) (a0) : Nexts s (execTimeExchangeAbandon a0 s) := by
  have h := Keeps.refl s
  unfold execTimeExchangeAbandon
  repeat' first
    | with_reducible assumption | with_reducible apply State.updLink_keeps | split
    | with_reducible apply Keeps.next

end Sys2Proof.Machine
end

