-- ==== Sys2Proof/Laws/Keeps/Steps.lean ====
section
/-! SUPPORT. What the operations of Sys2Proof/Machine/Steps.lean keep: the queue, the fuses, and the form of the register
file. -/

namespace Sys2Proof.Machine

theorem State.showAlert_keeps {z : State} {s : State} (h : Keeps z s) : Keeps z (State.showAlert s) := by
  unfold State.showAlert
  repeat' first
    | with_reducible assumption | with_reducible refine keeps_foldl _ ?_ (fun t x ht => ?_)
    | with_reducible apply Keeps.ite | with_reducible apply State.fset_keeps | with_reducible apply State.send_keeps
    | ((try lift_lets); intro x; clear_value x) | (fail_if_no_progress (with_reducible apply Keeps.upd))

theorem State.grant_keeps {z : State} {s : State} (a1) (a2) (h : Keeps z s) : Keeps z (State.grant s a1 a2) := by
  unfold State.grant
  repeat' first
    | with_reducible assumption | with_reducible apply Keeps.ite
    | with_reducible apply State.updRegion_keeps | with_reducible apply State.raise_keeps
    | with_reducible apply State.fset_keeps

theorem State.applyOne_keeps {z : State} {s : State} (a1) (h : Keeps z s) : Keeps z (State.applyOne s a1) := by
  unfold State.applyOne
  repeat' first
    | with_reducible assumption | with_reducible apply Keeps.ite | with_reducible apply State.grant_keeps
    | ((try lift_lets); intro x; clear_value x) | (fail_if_no_progress (with_reducible apply Keeps.upd))

theorem State.refreshSteps_keeps {z : State} {s : State} (h : Keeps z s) : Keeps z (State.refreshSteps s) := by
  unfold State.refreshSteps
  repeat' first
    | with_reducible assumption | with_reducible refine keeps_foldl _ ?_ (fun t x ht => ?_)
    | with_reducible apply State.showAlert_keeps | with_reducible apply State.fsetB_keeps
    | with_reducible apply State.fset_keeps

theorem State.applySteps_keeps {z : State} {s : State} (h : Keeps z s) : Keeps z (State.applySteps s) := by
  unfold State.applySteps
  repeat' first
    | with_reducible assumption | with_reducible refine keeps_foldl _ ?_ (fun t x ht => ?_)
    | with_reducible apply State.refreshSteps_keeps | with_reducible apply State.applyOne_keeps

theorem State.guardTick_keeps {z s0 s : State} (r : Nat) (h : Keeps z s) : Keeps z (State.guardTick s0 s r) := by
  unfold State.guardTick
  repeat' first
    | with_reducible assumption | with_reducible apply Keeps.ite
    | with_reducible apply State.updRegion_keeps | with_reducible apply State.raise_keeps
    | ((try lift_lets); intro x; refine Keeps.have_ (z := z) (x := x) ?_ ?_;
        (on_goal 2 => (intro hx; clear_value x)); subst x)
    | split

theorem execStepTick_keeps (s : State) : Nexts s (execStepTick s) := by
  have h := Keeps.refl s
  unfold execStepTick
  repeat' first
    | with_reducible assumption | with_reducible refine keeps_foldl _ ?_ (fun t x ht => ?_)
    | with_reducible apply Keeps.ite | with_reducible apply State.refreshSteps_keeps
    | with_reducible apply State.trace_keeps | with_reducible apply State.fset_keeps
    | ((try lift_lets); intro x; refine Keeps.have_ (z := s) (x := x) ?_ ?_;
        (on_goal 2 => (intro hx; clear_value x)); subst x)
    | with_reducible apply Keeps.next

theorem execStepApply_keeps (s : State) : Nexts s (execStepApply s) := by
  have h := Keeps.refl s
  unfold execStepApply
  repeat' first
    | with_reducible assumption | with_reducible apply State.applySteps_keeps | split
    | with_reducible apply Keeps.next

theorem execThrottleAssert_keeps (s : State) : Nexts s (execThrottleAssert s) := by
  have h := Keeps.refl s
  unfold execThrottleAssert
  repeat' first
    | with_reducible assumption | with_reducible apply State.fwrap_keeps
    | with_reducible apply State.fset_keeps | with_reducible apply State.refreshSteps_keeps
    | ((try lift_lets); intro x; refine Keeps.have_ (z := s) (x := x) ?_ ?_;
        (on_goal 2 => (intro hx; clear_value x)); subst x)
    | ((try lift_lets); intro x; clear_value x) | split | (fail_if_no_progress (with_reducible apply Keeps.upd))
    | with_reducible apply Keeps.next

theorem execThrottleDeassert_keeps (s : State) : Nexts s (execThrottleDeassert s) := by
  have h := Keeps.refl s
  unfold execThrottleDeassert
  repeat' first
    | with_reducible assumption | with_reducible apply State.refreshSteps_keeps
    | with_reducible apply State.fset_keeps | with_reducible apply Keeps.next

theorem execThrottleStuck_keeps (s : State) : Nexts s (execThrottleStuck s) := by
  have h := Keeps.refl s
  unfold execThrottleStuck
  repeat' first
    | with_reducible assumption | with_reducible apply State.raise_keeps
    | with_reducible apply State.fset_keeps
    | ((try lift_lets); intro x; refine Keeps.have_ (z := s) (x := x) ?_ ?_;
        (on_goal 2 => (intro hx; clear_value x)); subst x)
    | ((try lift_lets); intro x; clear_value x) | split | (fail_if_no_progress (with_reducible apply Keeps.upd))
    | with_reducible apply Keeps.next

theorem execThermalGuardTick_keeps (s : State) : Nexts s (execThermalGuardTick s) := by
  have h := Keeps.refl s
  unfold execThermalGuardTick
  repeat' first
    | with_reducible assumption | with_reducible refine keeps_foldl _ ?_ (fun t x ht => ?_)
    | with_reducible apply State.refreshSteps_keeps | with_reducible apply State.guardTick_keeps
    | with_reducible apply Keeps.next

end Sys2Proof.Machine
end

