-- ==== Sys2Proof/Laws/Keeps/Time.lean ====
section
/-! SUPPORT. What the operations of Sys2Proof/Machine/Time.lean keep: the queue, the fuses, and the form of the register
file. -/

namespace Sys2Proof.Machine

theorem State.updTime_keeps {z : State} {s : State} (a1) (h : Keeps z s) : Keeps z (State.updTime s a1) := by
  unfold State.updTime
  repeat' first | with_reducible assumption | (fail_if_no_progress (with_reducible apply Keeps.upd))

theorem State.clockEdge_keeps {z : State} {s : State} (h : Keeps z s) : Keeps z (State.clockEdge s) := by
  unfold State.clockEdge
  repeat' first
    | with_reducible assumption | with_reducible apply Keeps.ite | with_reducible apply Keeps.ite_snd
    | with_reducible apply State.free_keeps | with_reducible apply State.updTime_keeps
    | with_reducible apply State.fset_keeps

theorem State.localTick_keeps {z : State} {s : State} (a1) (h : Keeps z s) : Keeps z (State.localTick s a1) := by
  unfold State.localTick
  repeat' first | with_reducible assumption | with_reducible apply State.updRegion_keeps

theorem State.jump_keeps {z : State} {s : State} (a1) (h : Keeps z s) : Keeps z (State.jump s a1) := by
  unfold State.jump
  repeat' first | with_reducible assumption | with_reducible apply State.updTime_keeps

theorem State.slewTo_keeps {z : State} {s : State} (a1) (h : Keeps z s) : Keeps z (State.slewTo s a1) := by
  unfold State.slewTo
  repeat' first | with_reducible assumption | with_reducible apply State.updTime_keeps

theorem State.refuseJump_keeps {z : State} {s : State} (a1) (h : Keeps z s) : Keeps z (State.refuseJump s a1) := by
  unfold State.refuseJump
  repeat' first
    | with_reducible assumption | with_reducible apply State.raise_keeps
    | with_reducible apply State.fset_keeps | with_reducible apply State.updTime_keeps
    | with_reducible apply State.slewTo_keeps

theorem State.stimeSet_keeps {z : State} {s : State} (a1) (h : Keeps z s) : Keeps z (State.stimeSet s a1) := by
  unfold State.stimeSet
  repeat' first
    | with_reducible assumption | with_reducible apply Keeps.ite | with_reducible apply State.jump_keeps
    | with_reducible apply State.refuseJump_keeps

theorem State.startSource_keeps {z : State} {s : State} (h : Keeps z s) : Keeps z (State.startSource s) := by
  unfold State.startSource
  repeat' first
    | with_reducible assumption | with_reducible apply Keeps.ite | with_reducible apply State.fset_keeps
    | with_reducible apply State.updTime_keeps

theorem State.latchFrac_keeps {z : State} {s : State} (h : Keeps z s) : Keeps z (State.latchFrac s) := by
  unfold State.latchFrac
  repeat' first | with_reducible assumption | with_reducible apply State.fset_keeps

theorem State.launchStalls_keeps {z : State} {s : State} (a1) (h : Keeps z s) :
    Keeps z (State.launchStalls s a1) := by
  unfold State.launchStalls
  repeat' first
    | with_reducible assumption | with_reducible refine keeps_foldl _ ?_ (fun t x ht => ?_)
    | with_reducible apply State.updStall_keeps

theorem State.launch_keeps {z : State} {s : State} (a1) (h : Keeps z s) : Keeps z (State.launch s a1) := by
  unfold State.launch
  repeat' first
    | with_reducible assumption | with_reducible apply State.fset_keeps
    | with_reducible apply State.updJob_keeps | with_reducible apply State.launchStalls_keeps

theorem State.newRate_keeps {z : State} {s : State} (h : Keeps z s) : Keeps z (State.newRate s) := by
  unfold State.newRate
  repeat' first
    | with_reducible assumption | with_reducible apply State.free_keeps
    | with_reducible apply State.fset_keeps | with_reducible apply State.updTime_keeps

theorem State.ppsAccept_keeps {z : State} {s : State} (a1) (h : Keeps z s) : Keeps z (State.ppsAccept s a1) := by
  unfold State.ppsAccept
  repeat' first
    | with_reducible assumption | with_reducible apply State.fset_keeps
    | with_reducible apply State.newRate_keeps | with_reducible apply State.slewTo_keeps
    | with_reducible apply State.updTime_keeps

theorem State.ppsFault_keeps {z : State} {s : State} (h : Keeps z s) : Keeps z (State.ppsFault s) := by
  unfold State.ppsFault
  repeat' first
    | with_reducible assumption | with_reducible apply State.fset_keeps
    | with_reducible apply State.raise_keeps | with_reducible apply State.updTime_keeps

theorem State.ppsLock_keeps {z : State} {s : State} (h : Keeps z s) : Keeps z (State.ppsLock s) := by
  unfold State.ppsLock
  repeat' first
    | with_reducible assumption | with_reducible apply Keeps.ite
    | with_reducible apply State.ppsAccept_keeps | with_reducible apply State.updTime_keeps
    | with_reducible apply State.jump_keeps | with_reducible apply State.refuseJump_keeps

theorem State.ppsReject_keeps {z : State} {s : State} (h : Keeps z s) : Keeps z (State.ppsReject s) := by
  unfold State.ppsReject
  repeat' first
    | with_reducible assumption | with_reducible apply State.updTime_keeps
    | with_reducible apply State.fsat_keeps

theorem State.ppsPulse_keeps {z : State} {s : State} (h : Keeps z s) : Keeps z (State.ppsPulse s) := by
  unfold State.ppsPulse
  repeat' first
    | with_reducible assumption | with_reducible apply Keeps.ite
    | with_reducible apply State.ppsLock_keeps | with_reducible apply State.updTime_keeps
    | with_reducible apply State.ppsAccept_keeps | with_reducible apply State.ppsReject_keeps
    | with_reducible apply State.ppsFault_keeps
    | ((try lift_lets); intro x; refine Keeps.have_ (z := z) (x := x) ?_ ?_;
        (on_goal 2 => (intro hx; clear_value x)); subst x)
    | ((try lift_lets); intro x; clear_value x) | split

theorem execTimeFollow_keeps (s : State) (a0) : Nexts s (execTimeFollow a0 s) := by
  have h := Keeps.refl s
  unfold execTimeFollow
  repeat' first
    | with_reducible assumption | with_reducible apply Keeps.ite
    | with_reducible apply State.updLink_keeps | with_reducible apply State.fset_keeps
    | with_reducible apply State.updTime_keeps | with_reducible apply State.newRate_keeps
    | ((try lift_lets); intro x; clear_value x) | split | with_reducible apply Keeps.next
    | refine State.takeStored_keeps (by with_reducible assumption) ?_ | dsimp only

theorem execStimeSet_keeps (s : State) (a0) (a1) : Nexts s (execStimeSet a0 a1 s) := by
  have h := Keeps.refl s
  unfold execStimeSet
  repeat' first
    | with_reducible assumption | with_reducible apply State.stimeSet_keeps
    | with_reducible apply Keeps.next

theorem execStimeNsRead_keeps (s : State) (a0) : Nexts s (execStimeNsRead a0 s) := by
  have h := Keeps.refl s
  unfold execStimeNsRead
  repeat' first
    | with_reducible assumption | with_reducible apply State.send_keeps
    | with_reducible apply State.latchFrac_keeps | with_reducible apply Keeps.next

theorem execRefclkLost_keeps (s : State) : Nexts s (execRefclkLost s) := by
  have h := Keeps.refl s
  unfold execRefclkLost
  repeat' first
    | with_reducible assumption | with_reducible refine keeps_foldl _ ?_ (fun t x ht => ?_)
    | with_reducible apply State.fset_keeps | with_reducible apply State.raise_keeps
    | with_reducible apply State.updTime_keeps | with_reducible apply State.portDown_keeps
    | ((try lift_lets); intro x; refine Keeps.have_ (z := s) (x := x) ?_ ?_;
        (on_goal 2 => (intro hx; clear_value x)); subst x)
    | split | with_reducible apply Keeps.next

theorem execRefclkRestored_keeps (s : State) : Nexts s (execRefclkRestored s) := by
  have h := Keeps.refl s
  unfold execRefclkRestored
  repeat' first
    | with_reducible assumption | with_reducible apply State.fset_keeps
    | with_reducible apply State.startHeld_keeps | with_reducible apply State.startSource_keeps
    | with_reducible apply State.updTime_keeps | with_reducible apply State.refreshSteps_keeps
    | with_reducible apply State.grant_keeps
    | ((try lift_lets); intro x; refine Keeps.have_ (z := s) (x := x) ?_ ?_;
        (on_goal 2 => (intro hx; clear_value x)); subst x)
    | split | with_reducible apply Keeps.next

theorem execPpsPulse_keeps (s : State) (a0) : Nexts s (execPpsPulse a0 s) := by
  have h := Keeps.refl s
  unfold execPpsPulse
  repeat' first
    | with_reducible assumption | with_reducible apply State.ppsPulse_keeps | split
    | with_reducible apply Keeps.next

theorem execPpsFault_keeps (s : State) : Nexts s (execPpsFault s) := by
  have h := Keeps.refl s
  unfold execPpsFault
  repeat' first
    | with_reducible assumption | with_reducible apply State.ppsFault_keeps | split
    | with_reducible apply Keeps.next

theorem execLocalTimeSync_keeps (s : State) : Nexts s (execLocalTimeSync s) := by
  have h := Keeps.refl s
  unfold execLocalTimeSync
  repeat' first
    | with_reducible assumption | with_reducible refine keeps_foldl _ ?_ (fun t x ht => ?_)
    | with_reducible apply State.updRegion_keeps | ((try lift_lets); intro x; clear_value x)
    | with_reducible apply Keeps.next

theorem execLaunchTimeReached_keeps (s : State) (a0) : Nexts s (execLaunchTimeReached a0 s) := by
  have h := Keeps.refl s
  unfold execLaunchTimeReached
  repeat' first
    | with_reducible assumption | with_reducible apply State.launch_keeps | split
    | with_reducible apply Keeps.next

theorem execPpsExpectedSecond_keeps (s : State) : Nexts s (execPpsExpectedSecond s) := by
  have h := Keeps.refl s
  unfold execPpsExpectedSecond
  repeat' first
    | with_reducible assumption | with_reducible apply State.fset_keeps | split
    | with_reducible apply Keeps.next

end Sys2Proof.Machine
end

