-- ==== Sys2Proof/Laws/Keeps/Rings.lean ====
section
/-! SUPPORT. What the operations of Sys2Proof/Machine/Rings.lean keep: the queue, the fuses, and the form of the register
file. -/

namespace Sys2Proof.Machine

theorem State.hstErr_keeps {z : State} {s : State} (a1) (a2) (h : Keeps z s) : Keeps z (State.hstErr s a1 a2) := by
  unfold State.hstErr
  repeat' first | with_reducible assumption | with_reducible apply State.raise_keeps

theorem State.readFailed_keeps {z : State} {s : State} (a1) (h : Keeps z s) : Keeps z (State.readFailed s a1) := by
  unfold State.readFailed
  repeat' first
    | with_reducible assumption | with_reducible apply State.hstErr_keeps
    | with_reducible apply State.fsat_keeps

theorem State.hread_keeps {z : State} {s : State} (a1) (a2) (a3) (a4) (h : Keeps z s) :
    Keeps z (State.hread s a1 a2 a3 a4).2 := by
  unfold State.hread
  repeat' first
    | with_reducible assumption | with_reducible apply State.setReg_keeps
    | with_reducible apply State.readFailed_keeps | split

theorem State.hindex_keeps {z : State} {s : State} (a1) (a2) (a3) (h : Keeps z s) :
    Keeps z (State.hindex s a1 a2 a3).2 := by
  unfold State.hindex
  repeat' first | with_reducible assumption | with_reducible apply State.hread_keeps

theorem State.setOwner_keeps {z : State} {s : State} (a1) (a2) (h : Keeps z s) :
    Keeps z (State.setOwner s a1 a2) := by
  unfold State.setOwner
  repeat' first
    | with_reducible assumption | with_reducible refine keeps_foldl _ ?_ (fun t x ht => ?_)
    | with_reducible apply State.fset_keeps | with_reducible apply State.fsetB_keeps
    | with_reducible apply State.updRing_keeps

theorem State.flushOut_keeps {z : State} {s : State} (a1) (h : Keeps z s) : Keeps z (State.flushOut s a1) := by
  unfold State.flushOut
  repeat' first
    | with_reducible assumption | with_reducible refine keeps_foldl _ ?_ (fun t x ht => ?_)
    | with_reducible apply Keeps.ite | with_reducible apply State.hostWrite_keeps
    | with_reducible apply State.fireVec_keeps | with_reducible apply State.fset_keeps
    | with_reducible apply State.updSrv_keeps

theorem State.writeHeld_keeps {z : State} {s : State} (a1) (h : Keeps z s) : Keeps z (State.writeHeld s a1) := by
  unfold State.writeHeld
  repeat' first
    | with_reducible assumption | with_reducible refine keeps_foldl _ ?_ (fun t x ht => ?_)
    | with_reducible apply Keeps.ite | with_reducible apply State.hostWrite_keeps | with_reducible apply State.fset_keeps
    | with_reducible apply State.writeCpl_keeps | with_reducible apply State.updSrv_keeps | with_reducible apply State.fireVec_keeps
    | ((try lift_lets); intro x; refine Keeps.have_ (z := z) (x := x) ?_ ?_;
        (on_goal 2 => (intro hx; clear_value x)); subst x)
    | ((try lift_lets); intro x; clear_value x) | split

theorem State.attach_keeps {z : State} {s : State} (a1) (a2) (a3) (a4) (h : Keeps z s) :
    Keeps z (State.attach s a1 a2 a3 a4).2 := by
  unfold State.attach
  repeat' first
    | with_reducible assumption | with_reducible apply State.hindex_keeps
    | with_reducible apply State.updRing_keeps | with_reducible apply State.setOwner_keeps
    | with_reducible apply State.hostWrite_keeps | with_reducible apply State.fset_keeps
    | with_reducible apply State.writeHeld_keeps
    | ((try lift_lets); intro x; refine Keeps.have_ (z := z) (x := x.2) ?_ ?_;
        (on_goal 2 => (intro hx; clear_value x)); subst x)
    | ((try lift_lets); intro x; clear_value x) | split

theorem State.consumed_keeps {z : State} {s : State} (a1) (a2) (a3) (h : Keeps z s) :
    Keeps z (State.consumed s a1 a2 a3) := by
  unfold State.consumed
  repeat' first
    | with_reducible assumption | with_reducible apply State.flushOut_keeps
    | with_reducible apply State.flushCpl_keeps | with_reducible apply State.updSrv_keeps
    | with_reducible apply State.fset_keeps | with_reducible apply State.updRing_keeps

theorem State.readConsumers_keeps {z : State} {s : State} (a1) (a2) (h : Keeps z s) :
    Keeps z (State.readConsumers s a1 a2).2 := by
  unfold State.readConsumers
  repeat' first
    | with_reducible assumption | with_reducible apply State.hindex_keeps
    | with_reducible apply State.consumed_keeps
    | ((try lift_lets); intro x; refine Keeps.have_ (z := z) (x := x.2) ?_ ?_;
        (on_goal 2 => (intro hx; clear_value x)); subst x)
    | ((try lift_lets); intro x; clear_value x) | split

theorem State.latchFrom_keeps {z : State} (p : Nat) (hp : List HostPiece) (base log i n : Nat) (acc : List (List Byte)) {s : State}
    (h : Keeps z s) : Keeps z (s.latchFrom p hp base log i n acc).2 := by
  induction n generalizing s i acc with
  | zero => exact h
  | succ n ih =>
    unfold State.latchFrom
    repeat' first
      | with_reducible assumption | with_reducible apply ih | with_reducible apply Keeps.ite_snd
      | with_reducible apply State.hread_keeps
      | ((try lift_lets); intro x; refine Keeps.have_ (z := z) (x := x.2) ?_ ?_;
          (on_goal 2 => (intro hx; clear_value x)); subst x)
      | split

end Sys2Proof.Machine
end

