-- ==== Sys2Proof/Laws/Keeps/SecOps.lean ====
section
/-! SUPPORT. What the operations of Sys2Proof/Machine/SecOps.lean keep: the queue, the fuses, and the form of the register
file. -/

namespace Sys2Proof.Machine

theorem State.hubSend_keeps {z : State} {s : State} (a1) (a2) (a3) (a4) (a5) (a6) (a7) (a8) (h : Keeps z s) :
    Keeps z (State.hubSend s a1 a2 a3 a4 a5 a6 a7 a8) := by
  unfold State.hubSend
  repeat' first
    | with_reducible assumption | with_reducible refine keeps_foldl _ ?_ (fun t x ht => ?_)
    | with_reducible apply Keeps.ite | with_reducible apply State.hubPut_keeps
    | with_reducible apply State.updCtr_keeps | with_reducible apply State.originate_keeps

theorem State.hubSendAll_keeps {z : State} {s : State} (a1) (a2) (a3) (a4) (a5) (a6) (a7) (h : Keeps z s) :
    Keeps z (State.hubSendAll s a1 a2 a3 a4 a5 a6 a7) := by
  unfold State.hubSendAll
  repeat' first
    | with_reducible assumption | with_reducible refine keeps_foldl _ ?_ (fun t x ht => ?_)
    | with_reducible apply State.hubSend_keeps

theorem State.showKeys_keeps {z : State} {s : State} (h : Keeps z s) : Keeps z (State.showKeys s) := by
  unfold State.showKeys
  repeat' first | with_reducible assumption | with_reducible apply State.fset_keeps

theorem State.sendVerify_keeps {z : State} {s : State} (a1) (a2) (a3) (a4) (h : Keeps z s) :
    Keeps z (State.sendVerify s a1 a2 a3 a4) := by
  unfold State.sendVerify
  repeat' first | with_reducible assumption | with_reducible apply State.hubSend_keeps

end Sys2Proof.Machine
end

