-- ==== Sys2Proof/Laws/Keeps/SrvOps.lean ====
section
/-! SUPPORT. What the operations of Sys2Proof/Machine/SrvOps.lean keep: the queue, the fuses, and the form of the register
file. -/

namespace Sys2Proof.Machine

theorem State.setWay_keeps {z : State} {s : State} (a1) (a2) (a3) (h : Keeps z s) :
    Keeps z (State.setWay s a1 a2 a3) := by
  unfold State.setWay
  repeat' first | with_reducible assumption | (fail_if_no_progress (with_reducible apply Keeps.upd))

theorem State.showPfx_keeps {z : State} {s : State} (h : Keeps z s) : Keeps z (State.showPfx s) := by
  unfold State.showPfx
  repeat' first | with_reducible assumption | with_reducible apply State.fset_keeps

theorem State.showSrv_keeps {z : State} {s : State} (a1) (h : Keeps z s) : Keeps z (State.showSrv s a1) := by
  unfold State.showSrv
  repeat' first
    | with_reducible assumption | with_reducible apply State.showPfx_keeps
    | with_reducible apply State.fset_keeps

theorem State.jot_keeps {z : State} {s : State} (a1) (a2) (a3) (h : Keeps z s) : Keeps z (State.jot s a1 a2 a3) := by
  unfold State.jot
  repeat' first | with_reducible assumption | with_reducible apply Keeps.ite | with_reducible apply State.updSrv_keeps

theorem State.takeItem_keeps {z s t : State} {j k : Nat} {bs : List Byte} (e : s.takeItem j k = some (bs, t)) (h : Keeps z s) :
    Keeps z t := by
  unfold State.takeItem at e
  split at e
  · split at e
    · cases e
      exact State.updSrv_keeps _ _ h
    · cases e
  · cases e

theorem State.breach_keeps {z : State} {s : State} (a1) (h : Keeps z s) : Keeps z (State.breach s a1) := by
  unfold State.breach
  repeat' first | with_reducible assumption | with_reducible apply State.updSrv_keeps

theorem State.headRead_keeps {z : State} {s : State} (a1) (a2) (a3) (a4) (h : Keeps z s) :
    Keeps z (State.headRead s a1 a2 a3 a4).2 := by
  unfold State.headRead
  repeat' first
    | with_reducible assumption | with_reducible apply Keeps.ite_snd
    | with_reducible apply State.breach_keeps | with_reducible apply State.hread_keeps
    | with_reducible apply State.jot_keeps | split | refine State.takeItem_keeps (by with_reducible assumption) ?_

theorem State.setKv_keeps {z : State} {s : State} (a1) (a2) (a3) (h : Keeps z s) :
    Keeps z (State.setKv s a1 a2 a3) := by
  unfold State.setKv
  repeat' first | with_reducible assumption | with_reducible apply State.updSrv_keeps

theorem State.addRef_keeps {z : State} {s : State} (a1) (a2) (h : Keeps z s) : Keeps z (State.addRef s a1 a2) := by
  unfold State.addRef
  repeat' first | with_reducible assumption | with_reducible apply State.setKv_keeps

theorem State.updEnt_keeps {z : State} {s : State} (a1) (a2) (a3) (h : Keeps z s) :
    Keeps z (State.updEnt s a1 a2 a3) := by
  unfold State.updEnt
  repeat' first | with_reducible assumption | with_reducible apply State.updSrv_keeps

theorem State.setRow_keeps {z : State} {s : State} (a1) (a2) (a3) (h : Keeps z s) :
    Keeps z (State.setRow s a1 a2 a3) := by
  unfold State.setRow
  repeat' first
    | with_reducible assumption | with_reducible apply State.updSrv_keeps
    | with_reducible apply State.updEnt_keeps

theorem State.dropRef_keeps {z : State} {s : State} (a1) (a2) (h : Keeps z s) : Keeps z (State.dropRef s a1 a2) := by
  unfold State.dropRef
  repeat' first | with_reducible assumption | with_reducible apply Keeps.ite | with_reducible apply State.setKv_keeps

theorem State.pushOut_keeps {z : State} {s : State} (a1) (a2) (a3) (a4) (a5) (h : Keeps z s) :
    Keeps z (State.pushOut s a1 a2 a3 a4 a5) := by
  unfold State.pushOut
  repeat' first | with_reducible assumption | with_reducible apply State.updSrv_keeps

theorem State.updCust_keeps {z : State} {s : State} (a1) (a2) (a3) (h : Keeps z s) :
    Keeps z (State.updCust s a1 a2 a3) := by
  unfold State.updCust
  repeat' first | with_reducible assumption | with_reducible apply State.updSrv_keeps

theorem State.dropPfx_keeps {z : State} {s : State} (a1) (a2) (h : Keeps z s) : Keeps z (State.dropPfx s a1 a2) := by
  unfold State.dropPfx
  repeat' first | with_reducible assumption | (fail_if_no_progress (with_reducible apply Keeps.upd))

theorem State.kvLost_keeps {z : State} {s : State} (a1) (a2) (h : Keeps z s) : Keeps z (State.kvLost s a1 a2) := by
  unfold State.kvLost
  repeat' first
    | with_reducible assumption | with_reducible refine keeps_foldl _ ?_ (fun t x ht => ?_)
    | with_reducible apply Keeps.ite | with_reducible apply State.raise_keeps
    | with_reducible apply State.updEnt_keeps | with_reducible apply State.dropPfx_keeps
    | with_reducible apply State.showSrv_keeps | with_reducible apply State.setKv_keeps

theorem State.takeBlk_keeps {z s t : State} {j b : Nat} (e : s.takeBlk j = some (b, t)) (h : Keeps z s) :
    Keeps z t := by
  unfold State.takeBlk at e
  split at e
  · cases e
    exact State.setKv_keeps _ _ _ h
  · split at e
    · cases e
      exact State.setKv_keeps _ _ _ (State.dropPfx_keeps _ _ h)
    · cases e

theorem State.takeBlks_keeps {z t : State} {j n : Nat} {acc bs : List Nat} {s : State} (e : State.takeBlks j n s acc = some (bs, t))
    (h : Keeps z s) : Keeps z t := by
  induction n generalizing s acc with
  | zero => cases e; exact h
  | succ n ih =>
    unfold State.takeBlks at e
    split at e
    · exact ih e (State.takeBlk_keeps (by assumption) h)
    · cases e

theorem State.pfxEnter_keeps {z : State} {s : State} (a1) (a2) (a3) (a4) (h : Keeps z s) :
    Keeps z (State.pfxEnter s a1 a2 a3 a4) := by
  unfold State.pfxEnter
  repeat' first
    | with_reducible assumption | with_reducible apply Keeps.ite | with_reducible apply State.setWay_keeps
    | with_reducible apply State.setKv_keeps | ((try lift_lets); intro x; clear_value x) | split

end Sys2Proof.Machine
end

