-- ==== Sys2Proof/Laws/Keeps/Relay.lean ====
section
/-! SUPPORT. What the operations of Sys2Proof/Machine/Relay.lean keep: the queue, the fuses, and the form of the register
file. -/

namespace Sys2Proof.Machine

theorem State.cutoverStart_keeps {z : State} {s : State} (a1) (a2) (h : Keeps z s) :
    Keeps z (State.cutoverStart s a1 a2) := by
  unfold State.cutoverStart
  repeat' first
    | with_reducible assumption | with_reducible apply State.updYok_keeps
    | with_reducible apply State.fset_keeps

theorem State.jobCtl_keeps {z : State} {s : State} (a1) (a2) (a3) (a4) (a5) (a6) (h : Keeps z s) :
    Keeps z (State.jobCtl s a1 a2 a3 a4 a5 a6) := by
  unfold State.jobCtl
  repeat' first | with_reducible assumption | with_reducible apply State.ctrlSend_keeps

theorem State.resumeJob_keeps {z : State} {s : State} (a1) (h : Keeps z s) : Keeps z (State.resumeJob s a1) := by
  unfold State.resumeJob
  repeat' first
    | with_reducible assumption | with_reducible apply Keeps.ite | with_reducible apply State.updJob_keeps
    | with_reducible apply State.fset_keeps | with_reducible apply State.updSrv_keeps | split

theorem State.deliverStep_keeps {z : State} {s : State} (a1) (h : Keeps z s) : Keeps z (State.deliverStep s a1) := by
  unfold State.deliverStep
  repeat' first
    | with_reducible assumption | with_reducible refine keeps_foldl _ ?_ (fun t x ht => ?_)
    | with_reducible apply Keeps.ite | with_reducible apply State.setCtr_keeps
    | with_reducible apply State.jobCtl_keeps | with_reducible apply State.updSrv_keeps
    | with_reducible apply State.updJob_keeps | with_reducible apply State.fset_keeps
    | with_reducible apply State.resumeJob_keeps

theorem State.relaySuspend_keeps {z : State} {s : State} (a1) (a2) (a3) (h : Keeps z s) :
    Keeps z (State.relaySuspend s a1 a2 a3) := by
  unfold State.relaySuspend
  repeat' first
    | with_reducible assumption | with_reducible refine keeps_foldl _ ?_ (fun t x ht => ?_)
    | with_reducible apply Keeps.ite | with_reducible apply State.hubErr_keeps | with_reducible apply State.fset_keeps
    | with_reducible apply State.updSrv_keeps | with_reducible apply State.updJob_keeps
    | with_reducible apply State.jobCtl_keeps

theorem State.relayHalt_keeps {z : State} {s : State} (a1) (h : Keeps z s) : Keeps z (State.relayHalt s a1) := by
  unfold State.relayHalt
  repeat' first
    | with_reducible assumption | with_reducible refine keeps_foldl _ ?_ (fun t x ht => ?_)
    | with_reducible apply Keeps.ite | with_reducible apply State.hubErr_keeps
    | with_reducible apply State.jobCtl_keeps

theorem State.takeJobCtl_keeps {z s : State} {b act : Nat} {f : State → Nat → Nat → Nat → State} (h : Keeps z s)
    (hf : ∀ t x y w, Keeps z t → Keeps z (f t x y w)) : Keeps z (s.takeJobCtl b act f) := by
  unfold State.takeJobCtl
  split
  · exact h
  · have h1 := State.ctrlTake_keeps (by assumption) h
    dsimp only
    split
    · exact hf _ _ _ _ h1
    · exact h1

theorem execJobCtlWindow_keeps (s : State) (a0) : Nexts s (execJobCtlWindow a0 s) := by
  have h := Keeps.refl s
  unfold execJobCtlWindow
  repeat' first
    | with_reducible assumption | with_reducible apply Keeps.ite
    | with_reducible refine State.takeJobCtl_keeps ?_ (fun t a b c ht => ?_)
    | with_reducible apply State.updStall_keeps | with_reducible apply Keeps.next

theorem execJobCtlBase_keeps (s : State) (a0) : Nexts s (execJobCtlBase a0 s) := by
  have h := Keeps.refl s
  unfold execJobCtlBase
  repeat' first
    | with_reducible assumption | with_reducible refine State.takeJobCtl_keeps ?_ (fun t a b c ht => ?_)
    | with_reducible apply State.updStall_keeps | with_reducible apply Keeps.next

theorem execJobCtlSuspend_keeps (s : State) (a0) : Nexts s (execJobCtlSuspend a0 s) := by
  have h := Keeps.refl s
  unfold execJobCtlSuspend
  repeat' first
    | with_reducible assumption | with_reducible apply State.updJob_keeps
    | ((try lift_lets); intro x; clear_value x) | split | with_reducible apply Keeps.next
    | refine State.ctrlTake_keeps (by with_reducible assumption) ?_

theorem execJobCtlHalt_keeps (s : State) (a0) : Nexts s (execJobCtlHalt a0 s) := by
  have h := Keeps.refl s
  unfold execJobCtlHalt
  repeat' first
    | with_reducible assumption | with_reducible refine keeps_foldl _ ?_ (fun t x ht => ?_)
    | with_reducible apply State.updStall_keeps | ((try lift_lets); intro x; clear_value x) | split
    | with_reducible apply Keeps.next | refine State.ctrlTake_keeps (by with_reducible assumption) ?_

theorem execStepDescriptorArrival_keeps (s : State) (a0) : Nexts s (execStepDescriptorArrival a0 s) := by
  have h := Keeps.refl s
  unfold execStepDescriptorArrival
  repeat' first
    | with_reducible assumption | with_reducible apply State.deliverStep_keeps | split
    | with_reducible apply Keeps.next

theorem execSuspendBeat_keeps (s : State) (a0) : Nexts s (execSuspendBeat a0 s) := by
  have h := Keeps.refl s
  unfold execSuspendBeat
  repeat' first
    | with_reducible assumption | with_reducible refine keeps_foldl _ ?_ (fun t x ht => ?_)
    | with_reducible apply State.updLoft_keeps | with_reducible apply State.fset_keeps
    | with_reducible apply State.updJob_keeps | with_reducible apply State.cutoverStart_keeps
    | ((try lift_lets); intro x; refine Keeps.have_ (z := s) (x := x) ?_ ?_;
        (on_goal 2 => (intro hx; clear_value x)); subst x)
    | ((try lift_lets); intro x; clear_value x) | split | with_reducible apply Keeps.next

theorem execHaltNote_keeps (s : State) (a0) : Nexts s (execHaltNote a0 s) := by
  have h := Keeps.refl s
  unfold execHaltNote
  repeat' first
    | with_reducible assumption | with_reducible apply Keeps.ite
    | with_reducible refine State.control_keeps ?_ (fun t j w ls ht => ?_)
    | with_reducible apply State.relayHalt_keeps | with_reducible apply State.headHalt_keeps
    | with_reducible apply Keeps.next

theorem execHalt_keeps (s : State) (a0) : Nexts s (execHalt a0 s) := by
  have h := Keeps.refl s
  unfold execHalt
  repeat' first
    | with_reducible assumption | with_reducible refine State.control_keeps ?_ (fun t j w ls ht => ?_)
    | with_reducible apply State.relayHalt_keeps | with_reducible apply Keeps.next

theorem execSuspend_keeps (s : State) (a0) : Nexts s (execSuspend a0 s) := by
  have h := Keeps.refl s
  unfold execSuspend
  repeat' first
    | with_reducible assumption | with_reducible refine State.control_keeps ?_ (fun t j w ls ht => ?_)
    | with_reducible apply State.relaySuspend_keeps | with_reducible apply Keeps.next

theorem execKvLost_keeps (s : State) (a0) : Nexts s (execKvLost a0 s) := by
  have h := Keeps.refl s
  unfold execKvLost
  repeat' first
    | with_reducible assumption | with_reducible apply Keeps.ite
    | with_reducible refine State.control_keeps ?_ (fun t j w ls ht => ?_) | with_reducible apply State.kvLost_keeps
    | with_reducible apply Keeps.next

theorem execJobHaltBoundary_keeps (s : State) (a0) (a1) : Nexts s (execJobHaltBoundary a0 a1 s) := by
  have h := Keeps.refl s
  unfold execJobHaltBoundary
  repeat' first
    | with_reducible assumption | with_reducible apply State.haltNow_keeps
    | with_reducible apply State.haltRegion_keeps | split | with_reducible apply Keeps.next

end Sys2Proof.Machine
end

