-- ==== Sys2Proof/Laws/Keeps/Head.lean ====
section
/-! SUPPORT. What the operations of Sys2Proof/Machine/Head.lean keep: the queue, the fuses, and the form of the register
file. -/

namespace Sys2Proof.Machine

theorem State.setAd_keeps {z : State} {s : State} (a1) (a2) (a3) (h : Keeps z s) :
    Keeps z (State.setAd s a1 a2 a3) := by
  unfold State.setAd
  repeat' first | with_reducible assumption | with_reducible apply State.updSrv_keeps

theorem State.answerCmd_keeps {z : State} {s : State} (a1) (a2) (a3) (a4) (a5) (h : Keeps z s) :
    Keeps z (State.answerCmd s a1 a2 a3 a4 a5) := by
  unfold State.answerCmd
  repeat' first | with_reducible assumption | with_reducible apply State.pushCpl_keeps

theorem State.activateSlot_keeps {z : State} {s : State} (a1) (a2) (h : Keeps z s) :
    Keeps z (State.activateSlot s a1 a2) := by
  unfold State.activateSlot
  repeat' first
    | with_reducible assumption | with_reducible apply State.setAd_keeps
    | with_reducible apply State.jot_keeps | with_reducible apply State.answerCmd_keeps | split

theorem State.activateAll_keeps {z : State} {s : State} (a1) (h : Keeps z s) : Keeps z (State.activateAll s a1) := by
  unfold State.activateAll
  repeat' first
    | with_reducible assumption | with_reducible refine keeps_foldl _ ?_ (fun t x ht => ?_)
    | with_reducible apply Keeps.ite | with_reducible apply State.updSrv_keeps
    | with_reducible apply State.activateSlot_keeps

theorem State.readManifest_keeps {z : State} {s : State} (a1) (a2) (a3) (h : Keeps z s) :
    Keeps z (State.readManifest s a1 a2 a3).2 := by
  unfold State.readManifest
  repeat' first
    | with_reducible assumption | with_reducible apply Keeps.ite_snd
    | with_reducible apply State.headRead_keeps
    | ((try lift_lets); intro x; refine Keeps.have_ (z := z) (x := x.2) ?_ ?_;
        (on_goal 2 => (intro hx; clear_value x)); subst x)
    | split

theorem State.adapterLoad_keeps {z : State} {s : State} (a1) (a2) (a3) (h : Keeps z s) :
    Keeps z (State.adapterLoad s a1 a2 a3) := by
  unfold State.adapterLoad
  repeat' first
    | with_reducible assumption | with_reducible apply Keeps.ite
    | with_reducible apply State.answerCmd_keeps | with_reducible apply State.readManifest_keeps
    | with_reducible apply State.raise_keeps | with_reducible apply State.setAd_keeps
    | with_reducible apply State.hubSendAll_keeps | ((try lift_lets); intro x; clear_value x) | split

theorem State.adapterRetire_keeps {z : State} {s : State} (a1) (a2) (h : Keeps z s) :
    Keeps z (State.adapterRetire s a1 a2) := by
  unfold State.adapterRetire
  repeat' first
    | with_reducible assumption | with_reducible apply State.answerCmd_keeps
    | with_reducible apply State.setAd_keeps | split

theorem State.answerCancels_keeps {z : State} {s : State} (a1) (h : Keeps z s) :
    Keeps z (State.answerCancels s a1) := by
  unfold State.answerCancels
  repeat' first
    | with_reducible assumption | with_reducible refine keeps_foldl _ ?_ (fun t x ht => ?_)
    | with_reducible apply State.answerCmd_keeps | with_reducible apply State.updSrv_keeps

theorem State.refuse_keeps {z : State} {s : State} (a1) (a2) (a3) (a4) (h : Keeps z s) :
    Keeps z (State.refuse s a1 a2 a3 a4) := by
  unfold State.refuse
  repeat' first
    | with_reducible assumption | with_reducible apply Keeps.ite
    | with_reducible apply State.pushCpl_keeps | with_reducible apply State.raise_keeps

theorem State.submit_keeps {z : State} {s : State} (a1) (a2) (a3) (h : Keeps z s) :
    Keeps z (State.submit s a1 a2 a3) := by
  unfold State.submit
  repeat' first
    | with_reducible assumption | with_reducible refine keeps_foldl _ ?_ (fun t x ht => ?_)
    | with_reducible apply Keeps.ite | with_reducible apply State.headRead_keeps
    | with_reducible apply State.refuse_keeps | with_reducible apply State.updEnt_keeps
    | with_reducible apply State.updSrv_keeps | with_reducible apply State.setAd_keeps
    | ((try lift_lets); intro x; refine Keeps.have_ (z := z) (x := x) ?_ ?_;
        (on_goal 2 => (intro hx; clear_value x)); subst x)
    | ((try lift_lets); intro x; refine Keeps.have_ (z := z) (x := x.2) ?_ ?_;
        (on_goal 2 => (intro hx; clear_value x)); subst x)
    | ((try lift_lets); intro x; clear_value x) | split

theorem State.cancel_keeps {z : State} {s : State} (a1) (a2) (h : Keeps z s) : Keeps z (State.cancel s a1 a2) := by
  unfold State.cancel
  repeat' first
    | with_reducible assumption | with_reducible refine keeps_foldl _ ?_ (fun t x ht => ?_)
    | with_reducible apply Keeps.ite | with_reducible apply State.answerCmd_keeps
    | with_reducible apply State.updEnt_keeps | with_reducible apply State.updSrv_keeps

theorem State.draft_keeps {z : State} {s : State} (a1) (a2) (h : Keeps z s) : Keeps z (State.draft s a1 a2) := by
  unfold State.draft
  repeat' first
    | with_reducible assumption | with_reducible apply Keeps.ite | with_reducible apply State.raise_keeps
    | with_reducible apply State.updEnt_keeps | ((try lift_lets); intro x; clear_value x) | split

theorem State.applyCmd_keeps {z : State} {s : State} (a1) (a2) (a3) (h : Keeps z s) :
    Keeps z (State.applyCmd s a1 a2 a3) := by
  unfold State.applyCmd
  repeat' first
    | with_reducible assumption | with_reducible apply Keeps.ite | with_reducible apply State.submit_keeps
    | with_reducible apply State.cancel_keeps | with_reducible apply State.draft_keeps
    | with_reducible apply State.adapterLoad_keeps | with_reducible apply State.adapterRetire_keeps
    | with_reducible apply State.updSrv_keeps | with_reducible apply State.refuse_keeps

theorem State.trimRow_keeps {z : State} {s : State} (a1) (a2) (h : Keeps z s) : Keeps z (State.trimRow s a1 a2) := by
  unfold State.trimRow
  repeat' first
    | with_reducible assumption | with_reducible refine keeps_foldl _ ?_ (fun t x ht => ?_)
    | with_reducible apply Keeps.ite | with_reducible apply State.setRow_keeps
    | with_reducible apply State.dropRef_keeps

theorem State.deliverToks_keeps {z : State} (j e : Nat) (d : Bool) (ts : List Nat) {s : State} (h : Keeps z s) :
    Keeps z (State.deliverToks j e d ts s) := by
  induction ts generalizing s with
  | nil => exact h
  | cons t ts ih =>
    unfold State.deliverToks
    repeat' first
      | with_reducible assumption | with_reducible apply ih | with_reducible apply Keeps.ite
      | with_reducible apply State.updEnt_keeps | with_reducible apply State.pushOut_keeps
      | with_reducible apply State.updCust_keeps

theorem State.applyReturn_keeps {z : State} {s : State} (a1) (a2) (a3) (h : Keeps z s) :
    Keeps z (State.applyReturn s a1 a2 a3) := by
  unfold State.applyReturn
  repeat' first
    | with_reducible assumption | with_reducible apply Keeps.ite | with_reducible apply State.hubErr_keeps
    | with_reducible apply State.updEnt_keeps | with_reducible apply State.hostWrite_keeps
    | with_reducible apply State.trimRow_keeps | with_reducible apply State.deliverToks_keeps

theorem State.enterBlocks_keeps {z : State} (j e st n : Nat) {s : State} (h : Keeps z s) :
    Keeps z (State.enterBlocks j e st n s) := by
  induction n generalizing s with
  | zero => exact h
  | succ n ih =>
    unfold State.enterBlocks
    repeat' first
      | with_reducible assumption | with_reducible apply ih | with_reducible apply Keeps.ite
      | with_reducible apply State.pfxEnter_keeps | with_reducible apply State.updEnt_keeps

theorem State.releaseEnt_keeps {z : State} {s : State} (a1) (a2) (h : Keeps z s) :
    Keeps z (State.releaseEnt s a1 a2) := by
  unfold State.releaseEnt
  repeat' first
    | with_reducible assumption | with_reducible refine keeps_foldl _ ?_ (fun t x ht => ?_)
    | with_reducible apply Keeps.ite | with_reducible apply State.pushCpl_keeps
    | with_reducible apply State.setAd_keeps | with_reducible apply State.updSrv_keeps
    | with_reducible apply State.dropRef_keeps | with_reducible apply State.answerCancels_keeps

theorem State.freeSlot_keeps {z : State} {s : State} (a1) (a2) (h : Keeps z s) :
    Keeps z (State.freeSlot s a1 a2) := by
  unfold State.freeSlot
  repeat' first
    | with_reducible assumption | with_reducible apply State.showKeys_keeps
    | with_reducible apply State.updSec_keeps | with_reducible apply State.setCtr_keeps
    | with_reducible apply State.setAd_keeps

theorem State.pollRing_keeps {z : State} {s : State} (a1) (a2) (a3) (h : Keeps z s) :
    Keeps z (State.pollRing s a1 a2 a3).2 := by
  unfold State.pollRing
  repeat' first
    | with_reducible assumption | with_reducible refine keeps_foldl _ ?_ (fun t x ht => ?_)
    | with_reducible apply Keeps.ite | with_reducible apply Keeps.ite_snd
    | with_reducible apply State.readConsumers_keeps | with_reducible apply State.jot_keeps
    | with_reducible apply State.hindex_keeps | with_reducible apply State.latchFrom_keeps
    | with_reducible apply State.updRing_keeps | with_reducible apply State.fset_keeps
    | with_reducible apply State.hostWrite_keeps
    | ((try lift_lets); intro x; refine Keeps.have_ (z := z) (x := x) ?_ ?_;
        (on_goal 2 => (intro hx; clear_value x)); subst x)
    | ((try lift_lets); intro x; refine Keeps.have_ (z := z) (x := x.2) ?_ ?_;
        (on_goal 2 => (intro hx; clear_value x)); subst x)
    | split

theorem State.poll_keeps {z : State} {s : State} (a1) (a2) (h : Keeps z s) : Keeps z (State.poll s a1 a2).2 := by
  unfold State.poll
  repeat' first
    | with_reducible assumption | with_reducible apply Keeps.ite_snd
    | with_reducible apply State.updYok_keeps | with_reducible apply State.consumed_keeps
    | with_reducible apply State.updSrv_keeps | with_reducible apply State.pollRing_keeps | split

theorem State.wakeForks_keeps {z : State} {s : State} (a1) (a2) (h : Keeps z s) :
    Keeps z (State.wakeForks s a1 a2) := by
  unfold State.wakeForks
  repeat' first
    | with_reducible assumption | with_reducible refine keeps_foldl _ ?_ (fun t x ht => ?_)
    | with_reducible apply State.updEnt_keeps

theorem State.retireItem_keeps {z : State} {s : State} (a1) (a2) (a3) (h : Keeps z s) :
    Keeps z (State.retireItem s a1 a2 a3) := by
  unfold State.retireItem
  repeat' first
    | with_reducible assumption | with_reducible apply Keeps.ite | with_reducible apply State.updEnt_keeps
    | with_reducible apply State.enterBlocks_keeps | with_reducible apply State.hubErr_keeps
    | with_reducible apply State.applyReturn_keeps | with_reducible apply State.wakeForks_keeps

theorem State.retireAll_keeps {z : State} (j n : Nat) {s : State} (h : Keeps z s) :
    Keeps z (State.retireAll j n s) := by
  induction n generalizing s with
  | zero => exact h
  | succ n ih =>
    unfold State.retireAll
    repeat' first
      | with_reducible assumption | with_reducible apply ih
      | with_reducible refine keeps_foldl _ ?_ (fun t x ht => ?_) | with_reducible apply Keeps.ite
      | with_reducible apply State.retireItem_keeps | with_reducible apply State.updSrv_keeps
      | with_reducible apply State.setCtr_keeps | split

theorem State.releaseAll_keeps {z : State} {s : State} (a1) (h : Keeps z s) : Keeps z (State.releaseAll s a1) := by
  unfold State.releaseAll
  repeat' first
    | with_reducible assumption | with_reducible refine keeps_foldl _ ?_ (fun t x ht => ?_)
    | with_reducible apply State.releaseEnt_keeps | with_reducible apply State.freeSlot_keeps

end Sys2Proof.Machine
end

