-- ==== Sys2Proof/Laws/Keeps/Compose.lean ====
section
/-! SUPPORT. What the operations of Sys2Proof/Machine/Compose.lean keep: the queue, the fuses, and the form of the register
file. -/

namespace Sys2Proof.Machine

theorem State.sendJournal_keeps {z : State} {s : State} (a1) (a2) (h : Keeps z s) :
    Keeps z (State.sendJournal s a1 a2) := by
  unfold State.sendJournal
  repeat' first
    | with_reducible assumption | with_reducible refine keeps_foldl _ ?_ (fun t x ht => ?_)
    | with_reducible apply Keeps.ite | with_reducible apply State.updSrv_keeps
    | with_reducible apply State.originate_keeps | with_reducible apply State.updYok_keeps

theorem State.closeIdle_keeps {z : State} {s : State} (a1) (h : Keeps z s) : Keeps z (State.closeIdle s a1) := by
  unfold State.closeIdle
  repeat' first
    | with_reducible assumption | with_reducible apply Keeps.ite
    | with_reducible apply State.showSrv_keeps | with_reducible apply State.sendJournal_keeps
    | with_reducible apply State.updSrv_keeps

theorem State.closePoint_keeps {z : State} {s : State} (a1) (a2) (h : Keeps z s) :
    Keeps z (State.closePoint s a1 a2) := by
  unfold State.closePoint
  repeat' first
    | with_reducible assumption | with_reducible apply Keeps.ite | with_reducible apply State.hubErr_keeps
    | with_reducible apply State.updSrv_keeps | with_reducible apply State.sendJournal_keeps
    | with_reducible apply State.updYok_keeps | with_reducible apply State.showSrv_keeps
    | with_reducible apply State.flushOut_keeps | with_reducible apply State.flushCpl_keeps

theorem State.giveBlocks_keeps {z s t : State} {j e n : Nat} (q : s.giveBlocks j e n = some t) (h : Keeps z s) :
    Keeps z t := by
  unfold State.giveBlocks at q
  dsimp only at q
  split at q
  · cases q
  · rename_i s1 q1
    have h1 : Keeps z s1 := by
      split at q1
      · split at q1
        · cases q1
          repeat' first
            | with_reducible assumption | with_reducible apply Keeps.ite
            | with_reducible apply State.setRow_keeps | with_reducible apply State.dropRef_keeps
            | with_reducible apply State.updSrv_keeps | refine State.takeBlk_keeps (by with_reducible assumption) ?_
        · cases q1
      · cases q1
        exact h
    split at q
    · cases q
      exact h1
    · split at q
      · cases q
        repeat' first
          | with_reducible assumption | with_reducible apply State.setRow_keeps
          | refine State.takeBlks_keeps (by with_reducible assumption) ?_
      · cases q

theorem State.promptFailed_keeps {z : State} {s : State} (a1) (a2) (h : Keeps z s) :
    Keeps z (State.promptFailed s a1 a2) := by
  unfold State.promptFailed
  repeat' first
    | with_reducible assumption | with_reducible refine keeps_foldl _ ?_ (fun t x ht => ?_)
    | with_reducible apply Keeps.ite | with_reducible apply State.updEnt_keeps

theorem State.composeItem_keeps {z s : State} (j : Nat) (hp : List HostPiece) (c : Comp) (e : Nat) (h : Keeps z s) :
    Keeps z (s.composeItem j hp c e).2.2 := by
  unfold State.composeItem
  lift_lets
  intro x n mark
  have hm (a b : List Nat) (k sl : Nat) (l : Bool) (t : State) (h : Keeps z t) : Keeps z (mark a b k sl l t).2 := by
    subst mark
    exact State.updEnt_keeps _ _ _ h
  clear_value mark
  split
  · split
    · repeat' first | with_reducible assumption | with_reducible apply State.updSrv_keeps
    · have h1 := State.giveBlocks_keeps (by assumption) h
      repeat' first
        | with_reducible assumption | with_reducible apply hm | with_reducible apply State.headRead_keeps
        | ((try lift_lets); intro x; refine Keeps.have_ (z := z) (x := x.2) ?_ ?_;
            (on_goal 2 => (intro hx; clear_value x)); subst x)
        | ((try lift_lets); intro x; clear_value x) | split
  · repeat' first
      | with_reducible assumption | with_reducible apply hm | with_reducible apply State.updEnt_keeps
      | with_reducible apply State.updSrv_keeps | with_reducible apply State.headRead_keeps
      | with_reducible apply State.promptFailed_keeps
      | ((try lift_lets); intro x; refine Keeps.have_ (z := z) (x := x.2) ?_ ?_;
          (on_goal 2 => (intro hx; clear_value x)); subst x)
      | ((try lift_lets); intro x; clear_value x) | split

theorem State.serveItems_keeps {z : State} (j : Nat) (hp : List HostPiece) (cu : Nat) (es : List Nat) (sv : Bool) (c : Comp)
    {s : State} (h : Keeps z s) : Keeps z (State.serveItems j hp cu es sv c s).2.2 := by
  induction es generalizing s sv c with
  | nil => exact h
  | cons e es ih =>
    unfold State.serveItems
    repeat' first
      | with_reducible assumption | with_reducible apply ih | with_reducible apply State.composeItem_keeps
      | with_reducible apply State.updCust_keeps
      | ((try lift_lets); intro x; refine Keeps.have_ (z := z) (x := x) ?_ ?_;
          (on_goal 2 => (intro hx; clear_value x)); subst x)
      | ((try lift_lets); intro x; refine Keeps.have_ (z := z) (x := x.2.2) ?_ ?_;
          (on_goal 2 => (intro hx; clear_value x)); subst x)
      | ((try lift_lets); intro x; clear_value x) | split

theorem State.turn_keeps {z : State} (j : Nat) (hp : List HostPiece) (cu : Nat) {d : (List Nat × Option Nat) × Comp × State}
    (h : Keeps z d.2.2) : Keeps z (State.turn j hp cu d).2.2 := by
  unfold State.turn
  repeat' first
    | with_reducible assumption | with_reducible apply State.updCust_keeps
    | with_reducible apply State.serveItems_keeps
    | ((try lift_lets); intro x; refine Keeps.have_ (z := z) (x := x) ?_ ?_;
        (on_goal 2 => (intro hx; clear_value x)); subst x)
    | ((try lift_lets); intro x; refine Keeps.have_ (z := z) (x := x.2.2) ?_ ?_;
        (on_goal 2 => (intro hx; clear_value x)); subst x)
    | ((try lift_lets); intro x; clear_value x) | split

theorem State.rounds_keeps {z : State} (j : Nat) (hp : List HostPiece) (n : Nat) {d : (List Nat × Option Nat) × Comp × State}
    (h : Keeps z d.2.2) : Keeps z (State.rounds j hp n d).2.2 := by
  induction n generalizing d with
  | zero => exact h
  | succ n ih =>
    unfold State.rounds
    split
    · apply ih
      exact keeps_foldl_third _ h (fun q x hq => State.turn_keeps _ _ _ hq)
    · exact h

theorem State.groupWrite_keeps {z : State} {s : State} (a1) (a2) (a3) (a4) (a5) (a6) (a7) (h : Keeps z s) :
    Keeps z (State.groupWrite s a1 a2 a3 a4 a5 a6 a7) := by
  unfold State.groupWrite
  repeat' first
    | with_reducible assumption | with_reducible refine keeps_foldl _ ?_ (fun t x ht => ?_)
    | with_reducible apply State.originate_keeps

theorem State.sendStep_keeps {z : State} {s : State} (a1) (a2) (h : Keeps z s) :
    Keeps z (State.sendStep s a1 a2) := by
  unfold State.sendStep
  repeat' first
    | with_reducible assumption | with_reducible refine keeps_foldl _ ?_ (fun t x ht => ?_)
    | with_reducible apply State.groupWrite_keeps

theorem State.composeStep_keeps {z : State} {s : State} (a1) (a2) (h : Keeps z s) :
    Keeps z (State.composeStep s a1 a2) := by
  unfold State.composeStep
  repeat' first
    | with_reducible assumption | with_reducible apply State.updSrv_keeps
    | with_reducible apply State.rounds_keeps | with_reducible apply State.sendStep_keeps
    | with_reducible apply State.fset_keeps
    | ((try lift_lets); intro x; refine Keeps.have_ (z := z) (x := x) ?_ ?_;
        (on_goal 2 => (intro hx; clear_value x)); subst x)
    | split

theorem State.exhaust_keeps {z : State} (j n : Nat) {s : State} (h : Keeps z s) : Keeps z (State.exhaust j n s) := by
  induction n generalizing s with
  | zero => exact h
  | succ n ih =>
    unfold State.exhaust
    repeat' first
      | with_reducible assumption | with_reducible apply ih | with_reducible apply Keeps.ite
      | with_reducible apply State.raise_keeps | with_reducible apply State.updEnt_keeps
      | with_reducible apply State.releaseEnt_keeps | split

theorem State.openEntry_keeps {z : State} {s : State} (a1) (h : Keeps z s) : Keeps z (State.openEntry s a1) := by
  unfold State.openEntry
  repeat' first
    | with_reducible assumption | with_reducible apply Keeps.ite | with_reducible apply State.updYok_keeps
    | with_reducible apply State.hubErr_keeps | with_reducible apply State.updSrv_keeps | split

theorem State.pointStart_keeps {z : State} {s : State} (a1) (a2) (h : Keeps z s) :
    Keeps z (State.pointStart s a1 a2).2 := by
  unfold State.pointStart
  repeat' first
    | with_reducible assumption | with_reducible apply State.openEntry_keeps
    | with_reducible apply State.poll_keeps | with_reducible apply State.activateAll_keeps
    | with_reducible apply State.retireAll_keeps

theorem State.refill_keeps {z : State} {s : State} (a1) (h : Keeps z s) : Keeps z (State.refill s a1) := by
  unfold State.refill
  repeat' first
    | with_reducible assumption | with_reducible apply Keeps.ite | with_reducible apply State.updSrv_keeps
    | with_reducible apply State.breach_keeps | with_reducible apply State.jot_keeps | split
    | refine State.takeItem_keeps (by with_reducible assumption) ?_

theorem State.lookup_keeps {z : State} (j : Nat) (hp : List HostPiece) (e n : Nat) (hits : List (Nat × Nat)) (chain : Nat)
    (toks : List Nat) {s : State} (h : Keeps z s) : Keeps z (State.lookup j hp e n s hits chain toks).2 := by
  induction n generalizing s hits chain toks with
  | zero => exact h
  | succ n ih =>
    unfold State.lookup
    repeat' first
      | with_reducible assumption | with_reducible apply ih | with_reducible apply State.headRead_keeps
      | ((try lift_lets); intro x; refine Keeps.have_ (z := z) (x := x.2) ?_ ?_;
          (on_goal 2 => (intro hx; clear_value x)); subst x)
      | ((try lift_lets); intro x; clear_value x) | split

theorem State.startEnt_keeps {z : State} {s : State} (a1) (a2) (a3) (h : Keeps z s) :
    Keeps z (State.startEnt s a1 a2 a3).2 := by
  unfold State.startEnt
  repeat' first
    | with_reducible assumption | with_reducible refine keeps_foldl _ ?_ (fun t x ht => ?_)
    | with_reducible apply Keeps.ite_snd | with_reducible apply State.lookup_keeps
    | with_reducible apply State.promptFailed_keeps | with_reducible apply State.addRef_keeps
    | with_reducible apply State.setRow_keeps | with_reducible apply State.updEnt_keeps
    | with_reducible apply State.fwrap_keeps
    | ((try lift_lets); intro x; refine Keeps.have_ (z := z) (x := x) ?_ ?_;
        (on_goal 2 => (intro hx; clear_value x)); subst x)
    | split | (fail_if_no_progress (with_reducible apply Keeps.upd))
    | refine State.takeBlks_keeps (by with_reducible assumption) ?_

theorem State.startAll_keeps {z : State} (j : Nat) (hp : List HostPiece) (es : List Nat) {s : State} (h : Keeps z s) :
    Keeps z (State.startAll j hp es s) := by
  induction es generalizing s with
  | nil => exact h
  | cons e es ih =>
    unfold State.startAll
    repeat' first
      | with_reducible assumption | with_reducible apply ih | with_reducible apply Keeps.ite
      | with_reducible apply State.startEnt_keeps

theorem State.suspendFor_keeps {z : State} {s : State} (a1) (a2) (h : Keeps z s) :
    Keeps z (State.suspendFor s a1 a2) := by
  unfold State.suspendFor
  repeat' first
    | with_reducible assumption | with_reducible apply Keeps.ite | with_reducible apply State.jot_keeps
    | with_reducible apply State.hubErr_keeps | with_reducible apply State.updSrv_keeps
    | with_reducible apply State.fsetB_keeps | with_reducible apply State.relaySuspend_keeps
    | with_reducible apply State.controlPeers_keeps

theorem State.suspendOrCompose_keeps {z s : State} (j : Nat) (hp : List HostPiece) (h : Keeps z s) :
    Keeps z (s.suspendOrCompose j hp) := by
  have go (t : State) (h : Keeps z t) :
      Keeps z (State.exhaust j 4096 (State.startAll j hp ((t.refill j).queuedEnts j) (t.refill j))) :=
    State.exhaust_keeps _ _ (State.startAll_keeps _ _ _ (State.refill_keeps _ h))
  unfold State.suspendOrCompose
  lift_lets
  intro x
  have gx (t : State) (h : Keeps z t) : Keeps z (x t) := by
    have h2 := go t h
    subst x
    dsimp only
    generalize State.exhaust j 4096 (State.startAll j hp ((t.refill j).queuedEnts j) (t.refill j)) = u at h2 ⊢
    split
    · exact State.suspendFor_keeps _ _ h2
    · split
      · rename_i bs s3 e
        have h3 : Keeps z s3 := by
          split at e
          · exact State.takeItem_keeps e h2
          · cases e
        exact State.suspendFor_keeps _ _ h3
      · repeat' first
          | with_reducible assumption | with_reducible apply Keeps.ite
          | with_reducible apply State.fset_keeps | with_reducible apply State.composeStep_keeps
  clear_value x
  repeat' first
    | with_reducible assumption | with_reducible apply gx | with_reducible apply Keeps.ite
    | with_reducible apply State.suspendFor_keeps | split
    | refine State.takeItem_keeps (by with_reducible assumption) ?_

theorem State.closeDead_keeps {z : State} {s : State} (a1) (h : Keeps z s) : Keeps z (State.closeDead s a1) := by
  unfold State.closeDead
  repeat' first
    | with_reducible assumption | with_reducible apply State.showSrv_keeps | with_reducible apply State.flushOut_keeps
    | with_reducible apply State.flushCpl_keeps | with_reducible apply State.updSrv_keeps

theorem State.pointEnd_keeps {z : State} {s : State} (a1) (a2) (a3) (h : Keeps z s) :
    Keeps z (State.pointEnd s a1 a2 a3) := by
  unfold State.pointEnd
  repeat' first
    | with_reducible assumption | with_reducible refine keeps_foldl _ ?_ (fun t x ht => ?_)
    | with_reducible apply Keeps.ite | with_reducible apply State.applyCmd_keeps
    | with_reducible apply State.closeDead_keeps
    | with_reducible apply State.closePoint_keeps | with_reducible apply State.suspendOrCompose_keeps
    | with_reducible apply State.releaseAll_keeps

theorem State.idlePoll_keeps {z : State} {s : State} (a1) (a2) (h : Keeps z s) :
    Keeps z (State.idlePoll s a1 a2) := by
  unfold State.idlePoll
  repeat' first
    | with_reducible assumption | with_reducible apply Keeps.ite
    | with_reducible apply State.pointStart_keeps | with_reducible apply State.closeIdle_keeps
    | with_reducible apply State.pointEnd_keeps

theorem State.retirePaused_keeps {z : State} {s : State} (a1) (h : Keeps z s) :
    Keeps z (State.retirePaused s a1) := by
  unfold State.retirePaused
  repeat' first
    | with_reducible assumption | with_reducible apply Keeps.ite
    | with_reducible apply State.closePoint_keeps | with_reducible apply State.closeDead_keeps
    | with_reducible apply State.releaseAll_keeps | with_reducible apply State.retireAll_keeps
    | with_reducible apply State.openEntry_keeps
    | ((try lift_lets); intro x; refine Keeps.have_ (z := z) (x := x) ?_ ?_;
        (on_goal 2 => (intro hx; clear_value x)); subst x)
    | split

theorem execCompositionPoint_keeps (s : State) (a0) (a1) : Nexts s (execCompositionPoint a0 a1 s) := by
  have h := Keeps.refl s
  unfold execCompositionPoint
  repeat' first
    | with_reducible assumption | with_reducible apply State.retirePaused_keeps
    | with_reducible apply State.idlePoll_keeps | with_reducible apply State.pointStart_keeps
    | with_reducible apply State.pointEnd_keeps
    | ((try lift_lets); intro x; refine Keeps.have_ (z := s) (x := x.2) ?_ ?_;
        (on_goal 2 => (intro hx; clear_value x)); subst x)
    | split | with_reducible apply Keeps.next

theorem execIdlePoll_keeps (s : State) (a0) (a1) : Nexts s (execIdlePoll a0 a1 s) := by
  have h := Keeps.refl s
  unfold execIdlePoll
  repeat' first
    | with_reducible assumption | with_reducible apply State.idlePoll_keeps | split
    | with_reducible apply Keeps.next

end Sys2Proof.Machine
end

