-- ==== Sys2Proof/Laws/Keeps/Save.lean ====
section
/-! SUPPORT. What the operations of Sys2Proof/Machine/Save.lean keep: the queue, the fuses, and the form of the register
file. -/

namespace Sys2Proof.Machine

theorem State.takeSync_keeps {z : State} {s : State} (a1) (a2) (h : Keeps z s) :
    Keeps z (State.takeSync s a1 a2) := by
  unfold State.takeSync
  repeat' first
    | with_reducible assumption | with_reducible refine keeps_foldl _ ?_ (fun t x ht => ?_)
    | with_reducible apply State.setCtr_keeps

theorem State.takePersist_keeps {z : State} {s : State} (a1) (a2) (h : Keeps z s) :
    Keeps z (State.takePersist s a1 a2) := by
  unfold State.takePersist
  repeat' first
    | with_reducible assumption | with_reducible refine keeps_foldl _ ?_ (fun t x ht => ?_)
    | with_reducible apply State.hubPoke_keeps

theorem State.takeSlots_keeps {z : State} {s : State} (a1) (h : Keeps z s) : Keeps z (State.takeSlots s a1) := by
  unfold State.takeSlots
  repeat' first
    | with_reducible assumption | with_reducible refine keeps_foldl _ ?_ (fun t x ht => ?_)
    | with_reducible apply State.updStall_keeps

theorem State.takePfx_keeps {z : State} {s : State} (a1) (a2) (h : Keeps z s) : Keeps z (State.takePfx s a1 a2) := by
  unfold State.takePfx
  repeat' first
    | with_reducible assumption | with_reducible apply State.setWay_keeps
    | ((try lift_lets); intro x; clear_value x) | split

theorem State.takeServing_keeps {z : State} {s : State} (a1) (a2) (h : Keeps z s) :
    Keeps z (State.takeServing s a1 a2) := by
  unfold State.takeServing
  repeat' first
    | with_reducible assumption | with_reducible refine keeps_foldl _ ?_ (fun t x ht => ?_)
    | with_reducible apply Keeps.ite | with_reducible apply State.updSrv_keeps
    | with_reducible apply State.takePfx_keeps

theorem State.takeSections_keeps {z : State} {s : State} (a1) (a2) (h : Keeps z s) :
    Keeps z (State.takeSections s a1 a2) := by
  unfold State.takeSections
  repeat' first
    | with_reducible assumption | with_reducible apply Keeps.ite
    | with_reducible apply State.takeSync_keeps | with_reducible apply State.takePersist_keeps
    | with_reducible apply State.takeSlots_keeps | with_reducible apply State.takeServing_keeps

theorem execJobQuiescentSave_keeps (s : State) (a0) (a1) (a2) : Nexts s (execJobQuiescentSave a0 a1 a2 s) := by
  have h := Keeps.refl s
  unfold execJobQuiescentSave
  repeat' first
    | with_reducible assumption | with_reducible apply Keeps.ite
    | with_reducible apply State.retirePaused_keeps | with_reducible apply State.updInfo_keeps
    | with_reducible apply State.devNote_keeps | with_reducible apply State.hostWrite_keeps
    | ((try lift_lets); intro x; refine Keeps.have_ (z := s) (x := x) ?_ ?_;
        (on_goal 2 => (intro hx; clear_value x)); subst x)
    | ((try lift_lets); intro x; clear_value x) | split | with_reducible apply Keeps.next

end Sys2Proof.Machine
end

