-- ==== Sys2Proof/Laws/Keeps/Load.lean ====
section
/-! SUPPORT. What the operations of Sys2Proof/Machine/Load.lean keep: the queue, the fuses, and the form of the register
file. -/

namespace Sys2Proof.Machine

theorem State.answerCreate_keeps {z : State} {s : State} (a1) (a2) (a3) (a4) (a5) (h : Keeps z s) :
    Keeps z (State.answerCreate s a1 a2 a3 a4 a5) := by
  unfold State.answerCreate
  repeat' first | with_reducible assumption | with_reducible apply State.devRec_keeps

theorem State.setLoad_keeps {z : State} {s : State} (a1) (a2) (h : Keeps z s) : Keeps z (State.setLoad s a1 a2) := by
  unfold State.setLoad
  repeat' first | with_reducible assumption | (fail_if_no_progress (with_reducible apply Keeps.upd))

theorem State.emptyContext_keeps {z : State} {s : State} (a1) (h : Keeps z s) :
    Keeps z (State.emptyContext s a1) := by
  unfold State.emptyContext
  repeat' first
    | with_reducible assumption | with_reducible refine keeps_foldl _ ?_ (fun t x ht => ?_)
    | with_reducible apply State.fset_keeps | with_reducible apply State.updBarn_keeps
    | with_reducible apply State.updInfo_keeps | with_reducible apply State.setLoad_keeps
    | with_reducible apply State.updRing_keeps | with_reducible apply State.setOwner_keeps
    | with_reducible apply State.updJob_keeps

theorem State.clearFabCfg_keeps {z : State} {s : State} (a1) (h : Keeps z s) : Keeps z (State.clearFabCfg s a1) := by
  unfold State.clearFabCfg
  repeat' first
    | with_reducible assumption | with_reducible apply State.commitRef_keeps
    | with_reducible apply State.setReg_keeps

theorem State.loadStatus_keeps {z : State} {s : State} (a1) (a2) (a3) (h : Keeps z s) :
    Keeps z (State.loadStatus s a1 a2 a3) := by
  unfold State.loadStatus
  repeat' first | with_reducible assumption | with_reducible apply State.fset_keeps

theorem State.loadEnds_keeps {z : State} {s : State} (a1) (h : Keeps z s) : Keeps z (State.loadEnds s a1) := by
  unfold State.loadEnds
  repeat' first
    | with_reducible assumption | with_reducible apply State.loadStatus_keeps
    | with_reducible apply State.free_keeps

theorem State.loadReadFails_keeps {z : State} {s : State} (a1) (h : Keeps z s) :
    Keeps z (State.loadReadFails s a1) := by
  unfold State.loadReadFails
  repeat' first
    | with_reducible assumption | with_reducible apply State.answerCreate_keeps
    | with_reducible apply State.emptyContext_keeps | with_reducible apply State.clearFabCfg_keeps
    | with_reducible apply State.loadEnds_keeps

theorem State.writeLimits_keeps {z : State} {s : State} (a1) (h : Keeps z s) : Keeps z (State.writeLimits s a1) := by
  unfold State.writeLimits
  repeat' first
    | with_reducible assumption | with_reducible refine keeps_foldl _ ?_ (fun t x ht => ?_)
    | with_reducible apply State.commitRef_keeps | with_reducible apply State.fset_keeps

theorem State.writeFabCfg_keeps {z : State} {s : State} (a1) (a2) (a3) (a4) (h : Keeps z s) :
    Keeps z (State.writeFabCfg s a1 a2 a3 a4) := by
  unfold State.writeFabCfg
  repeat' first
    | with_reducible assumption | with_reducible apply State.commitRef_keeps
    | with_reducible apply State.fset_keeps

theorem State.startRecords_keeps {z : State} {s : State} (a1) (a2) (a3) (a4) (a5) (a6) (a7) (h : Keeps z s) :
    Keeps z (State.startRecords s a1 a2 a3 a4 a5 a6 a7) := by
  unfold State.startRecords
  repeat' first
    | with_reducible assumption | with_reducible refine keeps_foldl _ ?_ (fun t x ht => ?_)
    | with_reducible apply State.updJob_keeps | with_reducible apply State.updInfo_keeps
    | with_reducible apply State.updSrv_keeps | with_reducible apply State.updYok_keeps
    | with_reducible apply State.updSec_keeps | with_reducible apply State.setReg_keeps
    | with_reducible apply State.fset_keeps | with_reducible apply State.updBarn_keeps

theorem State.classGranules_keeps {z : State} {s : State} (a1) (a2) (h : Keeps z s) :
    Keeps z (State.classGranules s a1 a2) := by
  unfold State.classGranules
  repeat' first
    | with_reducible assumption | with_reducible refine keeps_foldl _ ?_ (fun t x ht => ?_)
    | with_reducible apply State.updLoft_keeps

theorem State.zeroCounters_keeps {z : State} {s : State} (a1) (h : Keeps z s) :
    Keeps z (State.zeroCounters s a1) := by
  unfold State.zeroCounters
  repeat' first | with_reducible assumption | (fail_if_no_progress (with_reducible apply Keeps.upd))

theorem State.writePausable_keeps {z : State} {s : State} (a1) (a2) (h : Keeps z s) :
    Keeps z (State.writePausable s a1 a2) := by
  unfold State.writePausable
  repeat' first
    | with_reducible assumption | with_reducible refine keeps_foldl _ ?_ (fun t x ht => ?_)
    | with_reducible apply State.fsetB_keeps

theorem State.writeShapes_keeps {z : State} {s : State} (a1) (a2) (a3) (a4) (h : Keeps z s) :
    Keeps z (State.writeShapes s a1 a2 a3 a4) := by
  unfold State.writeShapes
  repeat' first
    | with_reducible assumption | with_reducible refine keeps_foldl _ ?_ (fun t x ht => ?_)
    | with_reducible apply State.fset_keeps | with_reducible apply State.fsetB_keeps | split

theorem State.writeStalls_keeps {z : State} {s : State} (a1) (a2) (a3) (a4) (h : Keeps z s) :
    Keeps z (State.writeStalls s a1 a2 a3 a4) := by
  unfold State.writeStalls
  repeat' first
    | with_reducible assumption | with_reducible refine keeps_foldl _ ?_ (fun t x ht => ?_)
    | with_reducible apply State.writeShapes_keeps | with_reducible apply State.updStall_keeps
    | with_reducible apply State.commitRef_keeps

theorem State.otherGranules_keeps {z : State} {s : State} (a1) (a2) (h : Keeps z s) :
    Keeps z (State.otherGranules s a1 a2) := by
  unfold State.otherGranules
  repeat' first
    | with_reducible assumption | with_reducible refine keeps_foldl _ ?_ (fun t x ht => ?_)
    | with_reducible apply Keeps.ite | with_reducible apply State.updLoft_keeps

theorem State.writeConst_keeps {z : State} {s : State} (a1) (a2) (h : Keeps z s) :
    Keeps z (State.writeConst s a1 a2) := by
  unfold State.writeConst
  repeat' first
    | with_reducible assumption | with_reducible refine keeps_foldl _ ?_ (fun t x ht => ?_)
    | with_reducible apply State.hubPut_keeps | with_reducible apply State.otherGranules_keeps

theorem State.install_keeps {z : State} {s : State} (a1) (a2) (a3) (a4) (a5) (a6) (a7) (h : Keeps z s) :
    Keeps z (State.install s a1 a2 a3 a4 a5 a6 a7) := by
  unfold State.install
  repeat' first
    | with_reducible assumption | with_reducible apply State.writeLimits_keeps
    | with_reducible apply State.writeFabCfg_keeps | with_reducible apply State.startRecords_keeps
    | with_reducible apply State.classGranules_keeps | with_reducible apply State.zeroCounters_keeps
    | with_reducible apply State.writePausable_keeps | with_reducible apply State.writeStalls_keeps
    | with_reducible apply State.writeConst_keeps

theorem State.lateLaunch_keeps {z : State} {s : State} (a1) (h : Keeps z s) : Keeps z (State.lateLaunch s a1) := by
  unfold State.lateLaunch
  repeat' first | with_reducible assumption | with_reducible apply Keeps.ite | with_reducible apply State.hubErr_keeps

theorem State.accept_keeps {z : State} {s : State} (a1) (a2) (a3) (a4) (a5) (a6) (a7) (a8) (a9) (a10) (h : Keeps z s) :
    Keeps z (State.accept s a1 a2 a3 a4 a5 a6 a7 a8 a9 a10) := by
  unfold State.accept
  repeat' first
    | with_reducible assumption | with_reducible apply Keeps.ite | with_reducible apply State.hindex_keeps
    | with_reducible apply State.loadReadFails_keeps | with_reducible apply State.install_keeps
    | with_reducible apply State.fset_keeps | with_reducible apply State.takeSections_keeps
    | with_reducible apply State.updRing_keeps | with_reducible apply State.answerCreate_keeps
    | with_reducible apply State.showSrv_keeps | with_reducible apply State.lateLaunch_keeps
    | with_reducible apply State.setLoad_keeps | with_reducible apply State.loadStatus_keeps
    | with_reducible apply State.attach_keeps

theorem State.loadBadRecord_keeps {z : State} {s : State} (a1) (h : Keeps z s) :
    Keeps z (State.loadBadRecord s a1) := by
  unfold State.loadBadRecord
  repeat' first
    | with_reducible assumption | with_reducible apply State.answerCreate_keeps
    | with_reducible apply State.emptyContext_keeps | with_reducible apply State.clearFabCfg_keeps
    | with_reducible apply State.loadEnds_keeps

theorem State.loadFails_keeps {z : State} {s : State} (a1) (a2) (a3) (h : Keeps z s) :
    Keeps z (State.loadFails s a1 a2 a3) := by
  unfold State.loadFails
  repeat' first
    | with_reducible assumption | with_reducible apply State.answerCreate_keeps
    | with_reducible apply State.emptyContext_keeps | with_reducible apply State.clearFabCfg_keeps
    | with_reducible apply State.loadStatus_keeps

theorem State.readSect_keeps {z : State} {s : State} (a1) (a2) (a3) (h : Keeps z s) :
    Keeps z (State.readSect s a1 a2 a3).2 := by
  unfold State.readSect
  repeat' first
    | with_reducible assumption | with_reducible apply State.hread_keeps
    | ((try lift_lets); intro x; refine Keeps.have_ (z := z) (x := x.2) ?_ ?_;
        (on_goal 2 => (intro hx; clear_value x)); subst x)
    | ((try lift_lets); intro x; clear_value x) | split

theorem State.readSects_keeps {z : State} (p : Nat) (hp : List HostPiece) (n a : Nat) (acc : List Byte) {s : State}
    (h : Keeps z s) : Keeps z (State.readSects p hp n a acc s).2 := by
  induction n generalizing s a acc with
  | zero => exact h
  | succ n ih =>
    unfold State.readSects
    repeat' first
      | with_reducible assumption | with_reducible apply ih | with_reducible apply State.readSect_keeps
      | ((try lift_lets); intro x; refine Keeps.have_ (z := z) (x := x.2) ?_ ?_;
          (on_goal 2 => (intro hx; clear_value x)); subst x)
      | split

theorem State.loadResume_keeps {z : State} {s : State} (a1) (a2) (a3) (a4) (a5) (a6) (h : Keeps z s) :
    Keeps z (State.loadResume s a1 a2 a3 a4 a5 a6) := by
  unfold State.loadResume
  repeat' first
    | with_reducible assumption | with_reducible apply Keeps.ite | with_reducible apply State.accept_keeps
    | with_reducible apply State.readSect_keeps | with_reducible apply State.loadReadFails_keeps
    | with_reducible apply State.loadFails_keeps | with_reducible apply State.readSects_keeps
    | ((try lift_lets); intro x; refine Keeps.have_ (z := z) (x := x.2) ?_ ?_;
        (on_goal 2 => (intro hx; clear_value x)); subst x)
    | split

theorem execLoadDone_keeps (s : State) (a0) (a1) (a2) (a3) : Nexts s (execLoadDone a0 a1 a2 a3 s) := by
  have h := Keeps.refl s
  unfold execLoadDone
  repeat' first
    | with_reducible assumption | with_reducible apply State.hread_keeps
    | with_reducible apply State.loadReadFails_keeps | with_reducible apply State.loadBadRecord_keeps
    | with_reducible apply State.loadFails_keeps | with_reducible apply State.raise_keeps
    | with_reducible apply State.loadResume_keeps
    | ((try lift_lets); intro x; refine Keeps.have_ (z := s) (x := x.2) ?_ ?_;
        (on_goal 2 => (intro hx; clear_value x)); subst x)
    | ((try lift_lets); intro x; clear_value x) | split | with_reducible apply Keeps.next

end Sys2Proof.Machine
end

