-- ==== Sys2Proof/Laws/Keeps/LoftRepair.lean ====
section
/-! SUPPORT. What the operations of Sys2Proof/Machine/LoftRepair.lean keep: the queue, the fuses, and the form of the register
file. -/

namespace Sys2Proof.Machine

theorem State.dropFail_keeps {z : State} {s : State} (a1) (a2) (h : Keeps z s) :
    Keeps z (State.dropFail s a1 a2) := by
  unfold State.dropFail
  repeat' first | with_reducible assumption | with_reducible apply State.updLoft_keeps

theorem State.deliver_keeps {z : State} {s : State} (a1) (a2) (a3) (h : Keeps z s) :
    Keeps z (State.deliver s a1 a2 a3) := by
  unfold State.deliver
  repeat' first
    | with_reducible assumption | with_reducible apply State.dropFail_keeps
    | with_reducible apply State.giveBlock_keeps

theorem State.lostBlock_keeps {z : State} {s : State} (a1) (a2) (h : Keeps z s) :
    Keeps z (State.lostBlock s a1 a2) := by
  unfold State.lostBlock
  repeat' first
    | with_reducible assumption | with_reducible apply Keeps.ite
    | with_reducible apply State.updLoft_keeps | with_reducible apply State.deliver_keeps
    | with_reducible apply State.loftErr_keeps | with_reducible apply State.kvLost_keeps
    | with_reducible apply State.sendControl_keeps
    | ((try lift_lets); intro x; refine Keeps.have_ (z := z) (x := x) ?_ ?_;
        (on_goal 2 => (intro hx; clear_value x)); subst x)
    | split

theorem State.setFail_keeps {z : State} {s : State} (a1) (a2) (a3) (h : Keeps z s) :
    Keeps z (State.setFail s a1 a2 a3) := by
  unfold State.setFail
  repeat' first | with_reducible assumption | with_reducible apply State.updLoft_keeps

theorem State.askHost_keeps {z : State} {s : State} (a1) (a2) (h : Keeps z s) : Keeps z (State.askHost s a1 a2) := by
  unfold State.askHost
  repeat' first
    | with_reducible assumption | with_reducible apply Keeps.ite
    | with_reducible apply State.lostBlock_keeps | with_reducible apply State.updSec_keeps
    | with_reducible apply State.setFail_keeps | with_reducible apply State.devNote_keeps
    | ((try lift_lets); intro x; clear_value x) | split

theorem State.fixStep_keeps {z : State} {s : State} (a1) (a2) (a3) (a4) (h : Keeps z s) :
    Keeps z (State.fixStep s a1 a2 a3 a4) := by
  unfold State.fixStep
  repeat' first
    | with_reducible assumption | with_reducible apply Keeps.ite
    | with_reducible apply State.updLoft_keeps | with_reducible apply State.endRecovery_keeps
    | with_reducible apply State.beginRetire_keeps | with_reducible apply State.retireRow_keeps

theorem State.startResend_keeps {z : State} {s : State} (a1) (a2) (h : Keeps z s) :
    Keeps z (State.startResend s a1 a2) := by
  unfold State.startResend
  repeat' first
    | with_reducible assumption | with_reducible apply Keeps.ite
    | with_reducible apply State.lostBlock_keeps | with_reducible apply State.ctrlSend_keeps
    | with_reducible apply State.setFail_keeps | with_reducible apply State.askHost_keeps | split

theorem State.rereadFails_keeps {z : State} {s : State} (a1) (a2) (h : Keeps z s) :
    Keeps z (State.rereadFails s a1 a2) := by
  unfold State.rereadFails
  repeat' first
    | with_reducible assumption | with_reducible apply State.startResend_keeps
    | with_reducible apply State.setFail_keeps | with_reducible apply State.fwrap_keeps | split

theorem execBlockReread_keeps (s : State) (a0) (a1) : Nexts s (execBlockReread a0 a1 s) := by
  have h := Keeps.refl s
  unfold execBlockReread
  repeat' first
    | with_reducible assumption | with_reducible apply State.takeLoft_keeps
    | with_reducible apply State.loftErr_keeps | with_reducible apply State.deliver_keeps
    | with_reducible apply State.updLoft_keeps | with_reducible apply State.dropFail_keeps
    | with_reducible apply State.rereadFails_keeps
    | ((try lift_lets); intro x; refine Keeps.have_ (z := s) (x := x) ?_ ?_;
        (on_goal 2 => (intro hx; clear_value x)); subst x)
    | split | with_reducible apply Keeps.next

theorem execResendSlotGrant_keeps (s : State) (a0) : Nexts s (execResendSlotGrant a0 s) := by
  have h := Keeps.refl s
  unfold execResendSlotGrant
  repeat' first
    | with_reducible assumption | with_reducible apply State.startResend_keeps
    | with_reducible apply State.setFail_keeps | ((try lift_lets); intro x; clear_value x) | split
    | with_reducible apply Keeps.next

theorem execBlockResent_keeps (s : State) (a0) : Nexts s (execBlockResent a0 s) := by
  have h := Keeps.refl s
  unfold execBlockResent
  repeat' first
    | with_reducible assumption | with_reducible apply State.updLoft_keeps
    | with_reducible apply State.deliver_keeps | with_reducible apply State.loftErr_keeps
    | ((try lift_lets); intro x; refine Keeps.have_ (z := s) (x := x) ?_ ?_;
        (on_goal 2 => (intro hx; clear_value x)); subst x)
    | ((try lift_lets); intro x; clear_value x) | split | (fail_if_no_progress (with_reducible apply Keeps.upd))
    | with_reducible apply Keeps.next

theorem execLoftWritebackVerify_keeps (s : State) (a0) (a1) : Nexts s (execLoftWritebackVerify a0 a1 s) := by
  have h := Keeps.refl s
  unfold execLoftWritebackVerify
  repeat' first
    | with_reducible assumption | with_reducible apply State.fixStep_keeps
    | with_reducible apply State.takeLoft_keeps | split | with_reducible apply Keeps.next

theorem execCtrlLoftReq_keeps (s : State) (a0) : Nexts s (execCtrlLoftReq a0 s) := by
  have h := Keeps.refl s
  unfold execCtrlLoftReq
  repeat' first
    | with_reducible assumption | with_reducible apply State.sendControl_keeps
    | with_reducible apply State.askHost_keeps | ((try lift_lets); intro x; clear_value x) | split
    | with_reducible apply Keeps.next | refine State.ctrlTake_keeps (by with_reducible assumption) ?_

theorem execLoftNak_keeps (s : State) (a0) : Nexts s (execLoftNak a0 s) := by
  have h := Keeps.refl s
  unfold execLoftNak
  repeat' first
    | with_reducible assumption | with_reducible apply Keeps.ite
    | with_reducible refine State.control_keeps ?_ (fun t j w ls ht => ?_) | with_reducible apply State.askHost_keeps
    | split | with_reducible apply Keeps.next

end Sys2Proof.Machine
end

