-- ==== Sys2Proof/Laws/Keeps/Bale.lean ====
section
/-! SUPPORT. What the operations of Sys2Proof/Machine/Bale.lean keep: the queue, the fuses, and the form of the register
file. -/

namespace Sys2Proof.Machine

theorem State.answerDev_keeps {z : State} {s : State} (a1) (a2) (a3) (a4) (a5) (h : Keeps z s) :
    Keeps z (State.answerDev s a1 a2 a3 a4 a5) := by
  unfold State.answerDev
  repeat' first | with_reducible assumption | with_reducible apply State.devRec_keeps

theorem State.answerSec_keeps {z : State} {s : State} (a1) (a2) (h : Keeps z s) :
    Keeps z (State.answerSec s a1 a2) := by
  unfold State.answerSec
  repeat' first
    | with_reducible assumption | with_reducible apply Keeps.ite
    | with_reducible apply State.answerDev_keeps | with_reducible apply State.raise_keeps

theorem State.granuleGone_keeps {z s : State} (a : Nat) (h : Keeps z s) : Keeps z (s.granuleGone a) := by
  have e : @State.granuleGone = fun s a => match s.failAt (srcAddr a) with
    | some (n, f) => s.lostBlock n f
    | none => s := rfl
  rw [e]
  beta_reduce
  generalize s.failAt (srcAddr a) = o
  cases o with
  | none => exact h
  | some x => exact State.lostBlock_keeps _ _ h

theorem State.countReject_keeps {z : State} {s : State} (a1) (h : Keeps z s) : Keeps z (State.countReject s a1) := by
  unfold State.countReject
  repeat' first | with_reducible assumption | with_reducible apply State.fsat_keeps

theorem State.baleGranule_keeps {z : State} {s : State} (a1) (a2) (h : Keeps z s) :
    Keeps z (State.baleGranule s a1 a2) := by
  unfold State.baleGranule
  repeat' first
    | with_reducible assumption | with_reducible apply Keeps.ite
    | with_reducible apply State.answerSec_keeps | with_reducible apply State.updSec_keeps
    | with_reducible apply State.granuleGone_keeps | with_reducible apply State.hread_keeps
    | with_reducible apply State.answerDev_keeps | with_reducible apply State.raise_keeps
    | with_reducible apply State.countReject_keeps | ((try lift_lets); intro x; clear_value x) | split
    | (fail_if_no_progress (with_reducible apply Keeps.upd))

theorem State.weighGranules_keeps {z : State} {s : State} (a1) (h : Keeps z s) :
    Keeps z (State.weighGranules s a1) := by
  unfold State.weighGranules
  repeat' first
    | with_reducible assumption | with_reducible refine keeps_foldl _ ?_ (fun t x ht => ?_)
    | with_reducible apply State.updLoft_keeps

theorem State.showShards_keeps {z : State} {s : State} (a1) (h : Keeps z s) : Keeps z (State.showShards s a1) := by
  unfold State.showShards
  repeat' first | with_reducible assumption | with_reducible apply State.fset_keeps | split

theorem State.checkVerified_keeps {z : State} {s : State} (a1) (a2) (a3) (h : Keeps z s) :
    Keeps z (State.checkVerified s a1 a2 a3) := by
  unfold State.checkVerified
  repeat' first
    | with_reducible assumption | with_reducible apply Keeps.ite | with_reducible apply State.updSec_keeps
    | with_reducible apply State.sendVerify_keeps | with_reducible apply State.fset_keeps | split

theorem State.baleOpen_keeps {z : State} {s : State} (a1) (a2) (h : Keeps z s) :
    Keeps z (State.baleOpen s a1 a2) := by
  unfold State.baleOpen
  repeat' first
    | with_reducible assumption | with_reducible apply Keeps.ite | with_reducible apply State.hread_keeps
    | with_reducible apply State.answerDev_keeps | with_reducible apply State.answerSec_keeps
    | with_reducible apply State.showKeys_keeps | with_reducible apply State.weighGranules_keeps
    | with_reducible apply State.updSec_keeps | with_reducible apply State.showShards_keeps
    | with_reducible apply State.fset_keeps | with_reducible apply State.checkVerified_keeps
    | ((try lift_lets); intro x; refine Keeps.have_ (z := z) (x := x) ?_ ?_;
        (on_goal 2 => (intro hx; clear_value x)); subst x)
    | ((try lift_lets); intro x; refine Keeps.have_ (z := z) (x := x.2) ?_ ?_;
        (on_goal 2 => (intro hx; clear_value x)); subst x)
    | ((try lift_lets); intro x; clear_value x) | split

theorem State.updShard_keeps {z : State} {s : State} (a1) (a2) (a3) (a4) (a5) (h : Keeps z s) :
    Keeps z (State.updShard s a1 a2 a3 a4 a5) := by
  unfold State.updShard
  repeat' first | with_reducible assumption | with_reducible apply State.updSec_keeps

theorem State.baleShard_keeps {z : State} {s : State} (a1) (h : Keeps z s) : Keeps z (State.baleShard s a1) := by
  unfold State.baleShard
  repeat' first
    | with_reducible assumption | with_reducible apply Keeps.ite
    | with_reducible apply State.answerSec_keeps | with_reducible apply State.updShard_keeps
    | ((try lift_lets); intro x; refine Keeps.have_ (z := z) (x := x) ?_ ?_;
        (on_goal 2 => (intro hx; clear_value x)); subst x)
    | ((try lift_lets); intro x; clear_value x) | split | (fail_if_no_progress (with_reducible apply Keeps.upd))

theorem State.jobKey_keeps {z : State} {s : State} (a1) (a2) (h : Keeps z s) : Keeps z (State.jobKey s a1 a2) := by
  unfold State.jobKey
  repeat' first
    | with_reducible assumption | with_reducible apply Keeps.ite | with_reducible apply State.hread_keeps
    | with_reducible apply State.answerDev_keeps | with_reducible apply State.answerSec_keeps
    | with_reducible apply State.showKeys_keeps | with_reducible apply State.fset_keeps
    | with_reducible apply State.updSec_keeps
    | ((try lift_lets); intro x; refine Keeps.have_ (z := z) (x := x.2) ?_ ?_;
        (on_goal 2 => (intro hx; clear_value x)); subst x)
    | ((try lift_lets); intro x; clear_value x) | split

theorem State.loadGranules_keeps {z : State} (p : Nat) (hp : List HostPiece) (b : Bale) (x : Shard) (n g : Nat) (acc : List Byte)
    {s : State} (h : Keeps z s) : Keeps z (State.loadGranules p hp b x n g acc s).2 := by
  induction n generalizing s g acc with
  | zero => exact h
  | succ n ih =>
    unfold State.loadGranules
    repeat' first
      | with_reducible assumption | with_reducible apply ih | with_reducible apply State.hread_keeps
      | with_reducible apply State.hubPut_keeps
      | ((try lift_lets); intro x; refine Keeps.have_ (z := z) (x := x.2) ?_ ?_;
          (on_goal 2 => (intro hx; clear_value x)); subst x)
      | split

theorem State.shardEnds_keeps {z : State} {s : State} (a1) (a2) (h : Keeps z s) :
    Keeps z (State.shardEnds s a1 a2) := by
  unfold State.shardEnds
  repeat' first
    | with_reducible assumption | with_reducible apply Keeps.ite
    | with_reducible apply State.updShard_keeps | with_reducible apply State.showShards_keeps
    | with_reducible apply State.raise_keeps | with_reducible apply State.countReject_keeps
    | with_reducible apply State.devRec_keeps | with_reducible apply State.checkVerified_keeps

theorem execShardVerified_keeps (s : State) (a0) (a1) : Nexts s (execShardVerified a0 a1 s) := by
  have h := Keeps.refl s
  unfold execShardVerified
  repeat' first
    | with_reducible assumption | with_reducible apply State.loadGranules_keeps
    | with_reducible apply State.shardEnds_keeps
    | ((try lift_lets); intro x; refine Keeps.have_ (z := s) (x := x) ?_ ?_;
        (on_goal 2 => (intro hx; clear_value x)); subst x)
    | ((try lift_lets); intro x; refine Keeps.have_ (z := s) (x := x.2) ?_ ?_;
        (on_goal 2 => (intro hx; clear_value x)); subst x)
    | ((try lift_lets); intro x; clear_value x) | split | (fail_if_no_progress (with_reducible apply Keeps.upd))
    | with_reducible apply Keeps.next

theorem execCommit_keeps (s : State) (a0) : Nexts s (execCommit a0 s) := by
  have h := Keeps.refl s
  unfold execCommit
  repeat' first
    | with_reducible assumption | with_reducible apply State.updSec_keeps
    | with_reducible apply State.hubSendAll_keeps | with_reducible apply State.hubErr_keeps
    | ((try lift_lets); intro x; refine Keeps.have_ (z := s) (x := x) ?_ ?_;
        (on_goal 2 => (intro hx; clear_value x)); subst x)
    | ((try lift_lets); intro x; clear_value x) | split | with_reducible apply Keeps.next

theorem execCommitReceived_keeps (s : State) (a0) : Nexts s (execCommitReceived a0 s) := by
  have h := Keeps.refl s
  unfold execCommitReceived
  repeat' first
    | with_reducible assumption | with_reducible apply State.updInfo_keeps
    | with_reducible apply State.fset_keeps | with_reducible apply State.lateLaunch_keeps
    | with_reducible apply State.updJob_keeps | with_reducible apply State.hubErr_keeps
    | ((try lift_lets); intro x; refine Keeps.have_ (z := s) (x := x) ?_ ?_;
        (on_goal 2 => (intro hx; clear_value x)); subst x)
    | ((try lift_lets); intro x; clear_value x) | split | with_reducible apply Keeps.next

theorem execDeployTimeout_keeps (s : State) (a0) (a1) : Nexts s (execDeployTimeout a0 a1 s) := by
  have h := Keeps.refl s
  unfold execDeployTimeout
  repeat' first
    | with_reducible assumption | with_reducible apply State.hubErr_keeps
    | with_reducible apply State.fset_keeps | with_reducible apply State.answerCmd_keeps
    | with_reducible apply State.freeSlot_keeps | ((try lift_lets); intro x; clear_value x) | split
    | with_reducible apply Keeps.next

theorem execAdapterNotice_keeps (s : State) (a0) : Nexts s (execAdapterNotice a0 s) := by
  have h := Keeps.refl s
  unfold execAdapterNotice
  repeat' first
    | with_reducible assumption | with_reducible refine keeps_foldl _ ?_ (fun t x ht => ?_)
    | with_reducible apply Keeps.ite | with_reducible apply State.devNote_keeps
    | with_reducible apply State.updSec_keeps | ((try lift_lets); intro x; clear_value x) | split
    | with_reducible apply Keeps.next

end Sys2Proof.Machine
end

