-- ==== Sys2Proof/Laws/Keeps/HostPort.lean ====
section
/-! SUPPORT. What the operations of Sys2Proof/Machine/HostPort.lean keep: the queue, the fuses, and the form of the register
file. -/

namespace Sys2Proof.Machine

theorem State.showPort_keeps {z : State} {s : State} (a1) (h : Keeps z s) : Keeps z (State.showPort s a1) := by
  unfold State.showPort
  repeat' first | with_reducible assumption | with_reducible apply State.fsetB_keeps

theorem State.portBack_keeps {z : State} {s : State} (a1) (h : Keeps z s) : Keeps z (State.portBack s a1) := by
  unfold State.portBack
  repeat' first
    | with_reducible assumption | with_reducible apply Keeps.ite
    | with_reducible apply State.showPort_keeps | with_reducible apply State.updHst_keeps

theorem State.settled_keeps {z : State} {s : State} (a1) (h : Keeps z s) : Keeps z (State.settled s a1) := by
  unfold State.settled
  repeat' first
    | with_reducible assumption | with_reducible refine keeps_foldl _ ?_ (fun t x ht => ?_)
    | with_reducible apply State.portBack_keeps | with_reducible apply State.updHst_keeps

theorem State.attachCmd_keeps {z s : State} {h' : List HostPiece} {c : DevCmd} {done : State → State} (h : Keeps z s)
    (hd : ∀ t, Keeps z t → Keeps z (done t)) : Keeps z (s.attachCmd h' c done) := by
  unfold State.attachCmd
  repeat' first
    | with_reducible assumption | with_reducible apply hd | with_reducible apply Keeps.ite
    | with_reducible apply State.hread_keeps | with_reducible apply State.answerDev_keeps
    | with_reducible apply State.hindex_keeps | with_reducible apply State.attach_keeps
    | with_reducible apply State.settled_keeps
    | ((try lift_lets); intro x; refine Keeps.have_ (z := z) (x := x.2) ?_ ?_;
        (on_goal 2 => (intro hx; clear_value x)); subst x)
    | split

theorem State.barOff_keeps {z : State} {s : State} (a1) (a2) (h : Keeps z s) : Keeps z (State.barOff s a1 a2) := by
  unfold State.barOff
  repeat' first | with_reducible assumption | with_reducible apply State.offBanks_keeps | split

theorem State.hostStore_keeps {z : State} {s : State} (a1) (a2) (a3) (a4) (h : Keeps z s) :
    Keeps z (State.hostStore s a1 a2 a3 a4) := by
  unfold State.hostStore
  repeat' first
    | with_reducible assumption | with_reducible apply Keeps.ite
    | with_reducible apply State.pokeLine_keeps | with_reducible apply State.loftStore_keeps
    | with_reducible apply State.loftErr_keeps | split

theorem State.barWrite_keeps {z : State} {s : State} (a1) (a2) (h : Keeps z s) :
    Keeps z (State.barWrite s a1 a2) := by
  unfold State.barWrite
  repeat' first
    | with_reducible assumption | with_reducible refine keeps_foldl _ ?_ (fun t x ht => ?_)
    | with_reducible apply State.updCtr_keeps | with_reducible apply State.pokeAcc_keeps
    | with_reducible apply State.hostStore_keeps | split

theorem State.beginCopy_keeps {z : State} {s : State} (a1) (a2) (h : Keeps z s) :
    Keeps z (State.beginCopy s a1 a2) := by
  unfold State.beginCopy
  repeat' first
    | with_reducible assumption | with_reducible apply Keeps.ite
    | with_reducible apply State.answerDev_keeps | (fail_if_no_progress (with_reducible apply Keeps.upd))

theorem State.takeContext_keeps {z : State} {s : State} (a1) (a2) (a3) (h : Keeps z s) :
    Keeps z (State.takeContext s a1 a2 a3) := by
  unfold State.takeContext
  repeat' first
    | with_reducible assumption | with_reducible refine keeps_foldl _ ?_ (fun t x ht => ?_)
    | with_reducible apply State.updJob_keeps | with_reducible apply State.fset_keeps
    | with_reducible apply State.updBarn_keeps | with_reducible apply State.updRing_keeps
    | with_reducible apply State.setLoad_keeps | with_reducible apply State.setOwner_keeps

theorem State.createJob_keeps {z : State} {s : State} (a1) (a2) (h : Keeps z s) :
    Keeps z (State.createJob s a1 a2) := by
  unfold State.createJob
  repeat' first
    | with_reducible assumption | with_reducible apply Keeps.ite | with_reducible apply State.hread_keeps
    | with_reducible apply State.answerDev_keeps | with_reducible apply State.takeContext_keeps
    | ((try lift_lets); intro x; refine Keeps.have_ (z := z) (x := x) ?_ ?_;
        (on_goal 2 => (intro hx; clear_value x)); subst x)
    | ((try lift_lets); intro x; refine Keeps.have_ (z := z) (x := x.2) ?_ ?_;
        (on_goal 2 => (intro hx; clear_value x)); subst x)
    | ((try lift_lets); intro x; clear_value x) | split

theorem State.endCopy_keeps {z : State} {s : State} (a1) (a2) (h : Keeps z s) : Keeps z (State.endCopy s a1 a2) := by
  unfold State.endCopy
  repeat' first
    | with_reducible assumption | with_reducible apply State.devRec_keeps
    | (fail_if_no_progress (with_reducible apply Keeps.upd))

theorem State.fenceJob_keeps {z : State} {s : State} (a1) (h : Keeps z s) : Keeps z (State.fenceJob s a1) := by
  unfold State.fenceJob
  repeat' first
    | with_reducible assumption | with_reducible refine keeps_foldl _ ?_ (fun t x ht => ?_)
    | with_reducible apply State.updFab_keeps | with_reducible apply State.haltNow_keeps
    | with_reducible apply State.endCopy_keeps | with_reducible apply State.devRec_keeps
    | with_reducible apply State.fset_keeps | with_reducible apply State.updJob_keeps
    | ((try lift_lets); intro x; clear_value x) | (fail_if_no_progress (with_reducible apply Keeps.upd))

theorem State.destroyJob_keeps {z : State} {s : State} (a1) (h : Keeps z s) : Keeps z (State.destroyJob s a1) := by
  unfold State.destroyJob
  repeat' first
    | with_reducible assumption | with_reducible apply State.setLoad_keeps
    | with_reducible apply State.fenceJob_keeps

theorem State.take_keeps {z : State} {s : State} (a1) (a2) (h : Keeps z s) : Keeps z (State.take s a1 a2) := by
  unfold State.take
  repeat' first
    | with_reducible assumption | with_reducible apply Keeps.ite
    | with_reducible apply State.answerDev_keeps | with_reducible apply State.hstErr_keeps
    | with_reducible refine State.attachCmd_keeps ?_ (fun t ht => ?_) | with_reducible apply State.fset_keeps
    | with_reducible apply State.devNote_keeps

theorem State.reattach_keeps {z : State} {s : State} (a1) (a2) (h : Keeps z s) :
    Keeps z (State.reattach s a1 a2) := by
  unfold State.reattach
  repeat' first | with_reducible assumption | with_reducible refine State.attachCmd_keeps ?_ (fun t ht => ?_)

theorem State.devCommand_keeps {z : State} {s : State} (a1) (a2) (h : Keeps z s) :
    Keeps z (State.devCommand s a1 a2) := by
  unfold State.devCommand
  repeat' first
    | with_reducible assumption | with_reducible apply Keeps.ite
    | with_reducible apply State.answerDev_keeps | with_reducible apply State.createJob_keeps
    | with_reducible apply State.take_keeps | with_reducible apply State.destroyJob_keeps
    | with_reducible apply State.reattach_keeps | with_reducible apply State.beginCopy_keeps
    | with_reducible apply State.baleOpen_keeps | with_reducible apply State.baleShard_keeps
    | with_reducible apply State.baleGranule_keeps | with_reducible apply State.jobKey_keeps | split

theorem State.failCopies_keeps {z : State} {s : State} (a1) (h : Keeps z s) : Keeps z (State.failCopies s a1) := by
  unfold State.failCopies
  repeat' first
    | with_reducible assumption | with_reducible refine keeps_foldl _ ?_ (fun t x ht => ?_)
    | with_reducible apply State.endCopy_keeps | with_reducible apply State.readFailed_keeps

theorem State.latchDev_keeps {z : State} {s : State} (a1) (a2) (h : Keeps z s) :
    Keeps z (State.latchDev s a1 a2).2 := by
  unfold State.latchDev
  repeat' first
    | with_reducible assumption | with_reducible apply Keeps.ite | with_reducible apply State.hindex_keeps
    | with_reducible apply State.latchFrom_keeps | with_reducible apply State.updHst_keeps
    | with_reducible apply State.hostWrite_keeps
    | ((try lift_lets); intro x; refine Keeps.have_ (z := z) (x := x.2) ?_ ?_;
        (on_goal 2 => (intro hx; clear_value x)); subst x)
    | ((try lift_lets); intro x; clear_value x) | split

theorem State.portAbsent_keeps {z : State} {s : State} (a1) (h : Keeps z s) : Keeps z (State.portAbsent s a1) := by
  unfold State.portAbsent
  repeat' first
    | with_reducible assumption | with_reducible apply Keeps.ite | with_reducible apply State.fwrap_keeps
    | with_reducible apply State.hstErr_keeps | with_reducible apply State.showPort_keeps
    | with_reducible apply State.updHst_keeps

theorem State.linkGone_keeps {z : State} {s : State} (a1) (h : Keeps z s) : Keeps z (State.linkGone s a1) := by
  unfold State.linkGone
  repeat' first
    | with_reducible assumption | with_reducible apply State.updHst_keeps
    | with_reducible apply State.failCopies_keeps | with_reducible apply State.portAbsent_keeps
    | with_reducible apply State.fset_keeps

theorem State.perstReset_keeps {z : State} {s : State} (a1) (h : Keeps z s) : Keeps z (State.perstReset s a1) := by
  unfold State.perstReset
  repeat' first
    | with_reducible assumption | with_reducible apply State.updHst_keeps
    | with_reducible apply State.setReg_keeps | with_reducible apply State.fset_keeps
    | with_reducible apply State.commitRef_keeps
    | ((try lift_lets); intro x; refine Keeps.have_ (z := z) (x := x) ?_ ?_;
        (on_goal 2 => (intro hx; clear_value x)); subst x)
    | ((try lift_lets); intro x; clear_value x) | (fail_if_no_progress (with_reducible apply Keeps.upd))

theorem State.startRing_keeps {z : State} {s : State} (a1) (a2) (h : Keeps z s) :
    Keeps z (State.startRing s a1 a2).2 := by
  unfold State.startRing
  repeat' first
    | with_reducible assumption | with_reducible apply Keeps.ite_snd
    | with_reducible apply State.hindex_keeps | with_reducible apply State.updHst_keeps
    | with_reducible apply State.hostWrite_keeps
    | ((try lift_lets); intro x; refine Keeps.have_ (z := z) (x := x.2) ?_ ?_;
        (on_goal 2 => (intro hx; clear_value x)); subst x)
    | split

theorem execDeviceRingPoll_keeps (s : State) (a0) (a1) : Nexts s (execDeviceRingPoll a0 a1 s) := by
  have h := Keeps.refl s
  unfold execDeviceRingPoll
  repeat' first
    | with_reducible assumption | with_reducible refine keeps_foldl _ ?_ (fun t x ht => ?_)
    | with_reducible apply State.startRing_keeps | with_reducible apply State.hindex_keeps
    | with_reducible apply State.flushDev_keeps | with_reducible apply State.updHst_keeps
    | with_reducible apply State.latchDev_keeps | with_reducible apply State.devCommand_keeps
    | ((try lift_lets); intro x; refine Keeps.have_ (z := s) (x := x) ?_ ?_;
        (on_goal 2 => (intro hx; clear_value x)); subst x)
    | ((try lift_lets); intro x; refine Keeps.have_ (z := s) (x := x.2) ?_ ?_;
        (on_goal 2 => (intro hx; clear_value x)); subst x)
    | ((try lift_lets); intro x; clear_value x) | split | with_reducible apply Keeps.next

theorem execCopyComplete_keeps (s : State) (a0) (a1) : Nexts s (execCopyComplete a0 a1 s) := by
  have h := Keeps.refl s
  unfold execCopyComplete
  repeat' first
    | with_reducible assumption | with_reducible refine keeps_foldl _ ?_ (fun t x ht => ?_)
    | with_reducible apply State.endCopy_keeps | with_reducible apply State.hread_keeps
    | with_reducible apply State.hostStore_keeps | with_reducible apply State.signal_keeps
    | with_reducible apply State.hostWrite_keeps | with_reducible apply State.offBanks_keeps
    | with_reducible apply State.devRec_keeps
    | ((try lift_lets); intro x; refine Keeps.have_ (z := s) (x := x) ?_ ?_;
        (on_goal 2 => (intro hx; clear_value x)); subst x)
    | ((try lift_lets); intro x; refine Keeps.have_ (z := s) (x := x.2) ?_ ?_;
        (on_goal 2 => (intro hx; clear_value x)); subst x)
    | ((try lift_lets); intro x; clear_value x) | split | (fail_if_no_progress (with_reducible apply Keeps.upd))
    | with_reducible apply Keeps.next

theorem execHostLinkDown_keeps (s : State) (a0) : Nexts s (execHostLinkDown a0 s) := by
  have h := Keeps.refl s
  unfold execHostLinkDown
  repeat' first
    | with_reducible assumption | with_reducible apply State.linkGone_keeps | split
    | with_reducible apply Keeps.next

theorem execHostLinkUp_keeps (s : State) (a0) (a1) (a2) (a3) (a4) : Nexts s (execHostLinkUp a0 a1 a2 a3 a4 s) := by
  have h := Keeps.refl s
  unfold execHostLinkUp
  repeat' first
    | with_reducible assumption | with_reducible apply State.updHst_keeps
    | with_reducible apply State.portBack_keeps | with_reducible apply State.fsetB_keeps
    | with_reducible apply State.fset_keeps
    | ((try lift_lets); intro x; refine Keeps.have_ (z := s) (x := x) ?_ ?_;
        (on_goal 2 => (intro hx; clear_value x)); subst x)
    | split | with_reducible apply Keeps.next

theorem execPerstAssert_keeps (s : State) (a0) : Nexts s (execPerstAssert a0 s) := by
  have h := Keeps.refl s
  unfold execPerstAssert
  repeat' first
    | with_reducible assumption | with_reducible apply State.showPort_keeps
    | with_reducible apply State.perstReset_keeps | with_reducible apply State.linkGone_keeps
    | with_reducible apply State.updHst_keeps | with_reducible apply Keeps.next

theorem execPerstDeassert_keeps (s : State) (a0) : Nexts s (execPerstDeassert a0 s) := by
  have h := Keeps.refl s
  unfold execPerstDeassert
  repeat' first
    | with_reducible assumption | with_reducible apply State.updHst_keeps
    | with_reducible apply Keeps.next

theorem execIdeFault_keeps (s : State) (a0) : Nexts s (execIdeFault a0 s) := by
  have h := Keeps.refl s
  unfold execIdeFault
  repeat' first
    | with_reducible assumption | with_reducible apply State.fsat_keeps
    | with_reducible apply State.updHst_keeps | with_reducible apply State.portAbsent_keeps
    | with_reducible apply State.hstErr_keeps
    | ((try lift_lets); intro x; refine Keeps.have_ (z := s) (x := x) ?_ ?_;
        (on_goal 2 => (intro hx; clear_value x)); subst x)
    | split | with_reducible apply Keeps.next

theorem execBar2Access_keeps (s : State) (a0) (a1) (a2) (a3) (a4) : Nexts s (execBar2Access a0 a1 a2 a3 a4 s) := by
  have h := Keeps.refl s
  unfold execBar2Access
  repeat' first
    | with_reducible assumption | with_reducible apply State.send_keeps
    | with_reducible apply State.hstErr_keeps | with_reducible apply State.fsat_keeps
    | with_reducible apply State.barWrite_keeps | with_reducible apply State.barOff_keeps
    | ((try lift_lets); intro x; refine Keeps.have_ (z := s) (x := x) ?_ ?_;
        (on_goal 2 => (intro hx; clear_value x)); subst x)
    | ((try lift_lets); intro x; clear_value x) | split | with_reducible apply Keeps.next

theorem execRingStallTimeout_keeps (s : State) (a0) (a1) : Nexts s (execRingStallTimeout a0 a1 s) := by
  have h := Keeps.refl s
  unfold execRingStallTimeout
  repeat' first
    | with_reducible assumption | with_reducible apply State.hstErr_keeps
    | with_reducible apply State.fsat_keeps | with_reducible apply State.updHst_keeps
    | with_reducible apply State.updRing_keeps | ((try lift_lets); intro x; clear_value x) | split
    | with_reducible apply Keeps.next

theorem execMsiXFire_keeps (s : State) (a0) (a1) (a2) (a3) : Nexts s (execMsiXFire a0 a1 a2 a3 s) := by
  have h := Keeps.refl s
  unfold execMsiXFire
  repeat' first
    | with_reducible assumption | with_reducible apply State.updHst_keeps
    | with_reducible apply State.fireVec_keeps
    | ((try lift_lets); intro x; refine Keeps.have_ (z := s) (x := x) ?_ ?_;
        (on_goal 2 => (intro hx; clear_value x)); subst x)
    | ((try lift_lets); intro x; clear_value x) | split | with_reducible apply Keeps.next

theorem execIdeKm_keeps (s : State) (a0) (a1) : Nexts s (execIdeKm a0 a1 s) := by
  have h := Keeps.refl s
  unfold execIdeKm
  repeat' first
    | with_reducible assumption | with_reducible apply State.showPort_keeps
    | with_reducible apply State.portBack_keeps | with_reducible apply State.updHst_keeps | split
    | with_reducible apply Keeps.next

end Sys2Proof.Machine
end

