-- ==== Sys2Proof/Laws/Keeps/Barns.lean ====
section
/-! SUPPORT. What the operations of Sys2Proof/Machine/Barns.lean keep: the queue, the fuses, and the form of the register
file. -/

namespace Sys2Proof.Machine

theorem State.startClear_keeps {z : State} {s : State} (a1) (h : Keeps z s) : Keeps z (State.startClear s a1) := by
  unfold State.startClear
  repeat' first
    | with_reducible assumption | with_reducible apply State.fset_keeps
    | with_reducible apply State.updBarn_keeps | ((try lift_lets); intro x; clear_value x)
    | (fail_if_no_progress (with_reducible apply Keeps.upd))

theorem State.clearBarn_keeps {z : State} {s : State} (a1) (h : Keeps z s) : Keeps z (State.clearBarn s a1) := by
  unfold State.clearBarn
  repeat' first
    | with_reducible assumption | with_reducible refine keeps_foldl _ ?_ (fun t x ht => ?_)
    | with_reducible apply State.setReg_keeps | with_reducible apply State.commitRef_keeps
    | with_reducible apply State.updLoft_keeps | (fail_if_no_progress (with_reducible apply Keeps.upd))

theorem State.scrubContext_keeps {z : State} {s : State} (a1) (h : Keeps z s) :
    Keeps z (State.scrubContext s a1) := by
  unfold State.scrubContext
  repeat' first
    | with_reducible assumption | with_reducible apply State.updYok_keeps
    | with_reducible apply State.updSec_keeps | with_reducible apply State.updSrv_keeps
    | with_reducible apply State.setReg_keeps | with_reducible apply State.showPfx_keeps
    | with_reducible apply State.fset_keeps | ((try lift_lets); intro x; clear_value x)
    | (fail_if_no_progress (with_reducible apply Keeps.upd))

theorem State.retireStalls_keeps {z : State} {s : State} (a1) (h : Keeps z s) :
    Keeps z (State.retireStalls s a1) := by
  unfold State.retireStalls
  repeat' first
    | with_reducible assumption | with_reducible apply Keeps.ite
    | with_reducible apply State.commitRef_keeps | (fail_if_no_progress (with_reducible apply Keeps.upd))

theorem State.giveLibrary_keeps {z : State} {s : State} (a1) (h : Keeps z s) : Keeps z (State.giveLibrary s a1) := by
  unfold State.giveLibrary
  repeat' first | with_reducible assumption | with_reducible apply State.updBarn_keeps

theorem State.freeContext_keeps {z : State} {s : State} (a1) (h : Keeps z s) : Keeps z (State.freeContext s a1) := by
  unfold State.freeContext
  repeat' first
    | with_reducible assumption | with_reducible refine keeps_foldl _ ?_ (fun t x ht => ?_)
    | with_reducible apply State.updLoft_keeps | with_reducible apply State.scrubContext_keeps
    | with_reducible apply State.settled_keeps | with_reducible apply State.emptyContext_keeps
    | with_reducible apply State.clearFabCfg_keeps | with_reducible apply State.retireStalls_keeps
    | with_reducible apply State.giveLibrary_keeps | with_reducible apply State.devRec_keeps

theorem State.fwEnable_keeps {z : State} {s : State} (a1) (a2) (h : Keeps z s) :
    Keeps z (State.fwEnable s a1 a2) := by
  unfold State.fwEnable
  repeat' first
    | with_reducible assumption | with_reducible apply State.fset_keeps
    | with_reducible apply State.commitRef_keeps

theorem State.openBarn_keeps {z : State} {s : State} (a1) (h : Keeps z s) : Keeps z (State.openBarn s a1) := by
  unfold State.openBarn
  repeat' first
    | with_reducible assumption | with_reducible refine keeps_foldl _ ?_ (fun t x ht => ?_)
    | with_reducible apply Keeps.ite | with_reducible apply State.retireStalls_keeps
    | with_reducible apply State.giveLibrary_keeps | with_reducible apply State.fset_keeps
    | with_reducible apply State.fwEnable_keeps

theorem execTeardownRevoke_keeps (s : State) (a0) : Nexts s (execTeardownRevoke a0 s) := by
  have h := Keeps.refl s
  unfold execTeardownRevoke
  repeat' first
    | with_reducible assumption | with_reducible apply State.updFab_keeps
    | with_reducible apply State.showKeys_keeps | with_reducible apply State.updSec_keeps
    | with_reducible apply State.fset_keeps
    | ((try lift_lets); intro x; refine Keeps.have_ (z := s) (x := x) ?_ ?_;
        (on_goal 2 => (intro hx; clear_value x)); subst x)
    | split | with_reducible apply Keeps.next

theorem execTeardownDrainEnd_keeps (s : State) (a0) : Nexts s (execTeardownDrainEnd a0 s) := by
  have h := Keeps.refl s
  unfold execTeardownDrainEnd
  repeat' first
    | with_reducible assumption | with_reducible refine keeps_foldl _ ?_ (fun t x ht => ?_)
    | with_reducible apply State.startClear_keeps | with_reducible apply State.fset_keeps | split
    | with_reducible apply Keeps.next

theorem execTeardownScrubDone_keeps (s : State) (a0) (a1) : Nexts s (execTeardownScrubDone a0 a1 s) := by
  have h := Keeps.refl s
  unfold execTeardownScrubDone
  repeat' first
    | with_reducible assumption | with_reducible apply State.raise_keeps
    | with_reducible apply State.updLoft_keeps | with_reducible apply State.fset_keeps
    | with_reducible apply State.freeContext_keeps | split | with_reducible apply Keeps.next

theorem execBarnClearDone_keeps (s : State) (a0) (a1) : Nexts s (execBarnClearDone a0 a1 s) := by
  have h := Keeps.refl s
  unfold execBarnClearDone
  repeat' first
    | with_reducible assumption | with_reducible apply State.clearBarn_keeps
    | with_reducible apply State.raise_keeps | with_reducible apply State.fset_keeps
    | with_reducible apply State.fwrap_keeps | with_reducible apply State.openBarn_keeps
    | ((try lift_lets); intro x; refine Keeps.have_ (z := s) (x := x) ?_ ?_;
        (on_goal 2 => (intro hx; clear_value x)); subst x)
    | ((try lift_lets); intro x; clear_value x) | split | (fail_if_no_progress (with_reducible apply Keeps.upd))
    | with_reducible apply Keeps.next

end Sys2Proof.Machine
end

