-- ==== Sys2Proof/Laws/Keeps/Control.lean ====
section
/-! SUPPORT. What the operations of Sys2Proof/Machine/Control.lean keep: the queue, the fuses, and the form of the register
file. -/

namespace Sys2Proof.Machine

theorem State.core_keeps {s : State} {b k : Nat} {f : Insn → Option (State → State)} (hf : ∀ i, CoreKeeps s (f i)) :
    Nexts s (s.core b k f) := by
  have h := Keeps.refl s
  unfold State.core
  repeat' first | exact ⟨_, rfl, h⟩ | split
  exact ⟨_, rfl, hf _ _ (by assumption) s h⟩

theorem State.result_keeps {z : State} {s : State} (a1) (a2) (a3) (a4) (h : Keeps z s) :
    Keeps z (State.result s a1 a2 a3 a4) := by
  unfold State.result
  repeat' first | with_reducible assumption | with_reducible apply State.updStall_keeps

theorem State.alu_keeps (s : State) (a1) (a2) (a3) : Nexts s (State.alu s a1 a2 a3) := by
  have h := Keeps.refl s
  unfold State.alu
  repeat' first
    | with_reducible assumption | with_reducible refine State.core_keeps (fun i => ?_)
    | with_reducible apply State.result_keeps | split | with_reducible apply CoreKeeps.none
    | with_reducible refine CoreKeeps.some (fun t ht => ?_)

theorem State.denyCtr_keeps {z : State} {s : State} (a1) (a2) (a3) (h : Keeps z s) :
    Keeps z (State.denyCtr s a1 a2 a3) := by
  unfold State.denyCtr
  repeat' first | with_reducible assumption | with_reducible apply State.raise_keeps

theorem State.illegalInsn_keeps {z : State} {s : State} (a1) (a2) (h : Keeps z s) :
    Keeps z (State.illegalInsn s a1 a2) := by
  unfold State.illegalInsn
  repeat' first | with_reducible assumption | with_reducible apply State.stlErr_keeps

theorem State.immOp_keeps (s : State) (a1) (a2) (a3) : Nexts s (State.immOp s a1 a2 a3) := by
  have h := Keeps.refl s
  unfold State.immOp
  repeat' first
    | with_reducible assumption | with_reducible refine State.core_keeps (fun i => ?_)
    | with_reducible apply State.result_keeps | split | with_reducible apply CoreKeeps.none
    | with_reducible refine CoreKeeps.some (fun t ht => ?_)

theorem State.pushCmd_keeps {z : State} {s : State} (a1) (a2) (a3) (a4) (a5) (h : Keeps z s) :
    Keeps z (State.pushCmd s a1 a2 a3 a4 a5) := by
  unfold State.pushCmd
  repeat' first
    | with_reducible assumption | with_reducible apply Keeps.ite
    | with_reducible apply State.updStall_keeps | with_reducible apply State.clearCauses_keeps
    | with_reducible apply State.stlErrAt_keeps | with_reducible apply State.raise_keeps | split

theorem State.step1_keeps {z : State} {s : State} (a1) (a2) (h : Keeps z s) : Keeps z (State.step1 s a1 a2) := by
  unfold State.step1
  repeat' first | with_reducible assumption | with_reducible apply State.updStall_keeps

theorem State.waitcSees_keeps {z : State} {s : State} (a1) (a2) (a3) (a4) (h : Keeps z s) :
    Keeps z (State.waitcSees s a1 a2 a3 a4) := by
  unfold State.waitcSees
  repeat' first
    | with_reducible assumption | with_reducible apply Keeps.ite
    | with_reducible apply State.updStall_keeps | split

theorem execAdd_keeps (s : State) (a0) (a1) : Nexts s (execAdd a0 a1 s) := by
  have h := Keeps.refl s
  unfold execAdd
  repeat' first | with_reducible apply State.alu_keeps

theorem execSub_keeps (s : State) (a0) (a1) : Nexts s (execSub a0 a1 s) := by
  have h := Keeps.refl s
  unfold execSub
  repeat' first | with_reducible apply State.alu_keeps

theorem execAnd_keeps (s : State) (a0) (a1) : Nexts s (execAnd a0 a1 s) := by
  have h := Keeps.refl s
  unfold execAnd
  repeat' first | with_reducible apply State.alu_keeps

theorem execOr_keeps (s : State) (a0) (a1) : Nexts s (execOr a0 a1 s) := by
  have h := Keeps.refl s
  unfold execOr
  repeat' first | with_reducible apply State.alu_keeps

theorem execXor_keeps (s : State) (a0) (a1) : Nexts s (execXor a0 a1 s) := by
  have h := Keeps.refl s
  unfold execXor
  repeat' first | with_reducible apply State.alu_keeps

theorem execSll_keeps (s : State) (a0) (a1) : Nexts s (execSll a0 a1 s) := by
  have h := Keeps.refl s
  unfold execSll
  repeat' first | with_reducible apply State.alu_keeps

theorem execSrl_keeps (s : State) (a0) (a1) : Nexts s (execSrl a0 a1 s) := by
  have h := Keeps.refl s
  unfold execSrl
  repeat' first | with_reducible apply State.alu_keeps

theorem execSra_keeps (s : State) (a0) (a1) : Nexts s (execSra a0 a1 s) := by
  have h := Keeps.refl s
  unfold execSra
  repeat' first | with_reducible apply State.alu_keeps

theorem execSlt_keeps (s : State) (a0) (a1) : Nexts s (execSlt a0 a1 s) := by
  have h := Keeps.refl s
  unfold execSlt
  repeat' first | with_reducible apply State.alu_keeps

theorem execSltu_keeps (s : State) (a0) (a1) : Nexts s (execSltu a0 a1 s) := by
  have h := Keeps.refl s
  unfold execSltu
  repeat' first | with_reducible apply State.alu_keeps

theorem execMin_keeps (s : State) (a0) (a1) : Nexts s (execMin a0 a1 s) := by
  have h := Keeps.refl s
  unfold execMin
  repeat' first | with_reducible apply State.alu_keeps

theorem execMax_keeps (s : State) (a0) (a1) : Nexts s (execMax a0 a1 s) := by
  have h := Keeps.refl s
  unfold execMax
  repeat' first | with_reducible apply State.alu_keeps

theorem execMinu_keeps (s : State) (a0) (a1) : Nexts s (execMinu a0 a1 s) := by
  have h := Keeps.refl s
  unfold execMinu
  repeat' first | with_reducible apply State.alu_keeps

theorem execMaxu_keeps (s : State) (a0) (a1) : Nexts s (execMaxu a0 a1 s) := by
  have h := Keeps.refl s
  unfold execMaxu
  repeat' first | with_reducible apply State.alu_keeps

theorem execMul_keeps (s : State) (a0) (a1) : Nexts s (execMul a0 a1 s) := by
  have h := Keeps.refl s
  unfold execMul
  repeat' first | with_reducible apply State.alu_keeps

theorem execMulhu_keeps (s : State) (a0) (a1) : Nexts s (execMulhu a0 a1 s) := by
  have h := Keeps.refl s
  unfold execMulhu
  repeat' first | with_reducible apply State.alu_keeps

theorem execMulh_keeps (s : State) (a0) (a1) : Nexts s (execMulh a0 a1 s) := by
  have h := Keeps.refl s
  unfold execMulh
  repeat' first | with_reducible apply State.alu_keeps

theorem execDivu_keeps (s : State) (a0) (a1) : Nexts s (execDivu a0 a1 s) := by
  have h := Keeps.refl s
  unfold execDivu
  repeat' first | with_reducible apply State.alu_keeps

theorem execRemu_keeps (s : State) (a0) (a1) : Nexts s (execRemu a0 a1 s) := by
  have h := Keeps.refl s
  unfold execRemu
  repeat' first | with_reducible apply State.alu_keeps

theorem execAddi_keeps (s : State) (a0) (a1) : Nexts s (execAddi a0 a1 s) := by
  have h := Keeps.refl s
  unfold execAddi
  repeat' first | with_reducible apply State.immOp_keeps

theorem execAndi_keeps (s : State) (a0) (a1) : Nexts s (execAndi a0 a1 s) := by
  have h := Keeps.refl s
  unfold execAndi
  repeat' first | with_reducible apply State.immOp_keeps

theorem execOri_keeps (s : State) (a0) (a1) : Nexts s (execOri a0 a1 s) := by
  have h := Keeps.refl s
  unfold execOri
  repeat' first | with_reducible apply State.immOp_keeps

theorem execXori_keeps (s : State) (a0) (a1) : Nexts s (execXori a0 a1 s) := by
  have h := Keeps.refl s
  unfold execXori
  repeat' first | with_reducible apply State.immOp_keeps

theorem execSlli_keeps (s : State) (a0) (a1) : Nexts s (execSlli a0 a1 s) := by
  have h := Keeps.refl s
  unfold execSlli
  repeat' first | with_reducible apply State.immOp_keeps

theorem execSrli_keeps (s : State) (a0) (a1) : Nexts s (execSrli a0 a1 s) := by
  have h := Keeps.refl s
  unfold execSrli
  repeat' first | with_reducible apply State.immOp_keeps

theorem execSrai_keeps (s : State) (a0) (a1) : Nexts s (execSrai a0 a1 s) := by
  have h := Keeps.refl s
  unfold execSrai
  repeat' first | with_reducible apply State.immOp_keeps

theorem execShi_keeps (s : State) (a0) (a1) : Nexts s (execShi a0 a1 s) := by
  have h := Keeps.refl s
  unfold execShi
  repeat' first | with_reducible apply State.immOp_keeps

theorem execLd_keeps (s : State) (a0) (a1) : Nexts s (execLd a0 a1 s) := by
  have h := Keeps.refl s
  unfold execLd
  repeat' first
    | with_reducible assumption | with_reducible apply Keeps.ite
    | with_reducible refine State.core_keeps (fun i => ?_) | with_reducible apply State.updStall_keeps
    | with_reducible apply State.stlErrAt_keeps | with_reducible apply State.result_keeps | split
    | with_reducible apply CoreKeeps.none | with_reducible refine CoreKeeps.some (fun t ht => ?_)

theorem execLdDataReady_keeps (s : State) (a0) (a1) (a2) : Nexts s (execLdDataReady a0 a1 a2 s) := by
  have h := Keeps.refl s
  unfold execLdDataReady
  repeat' first
    | with_reducible assumption | with_reducible apply Nexts.ite
    | with_reducible apply State.updStall_keeps | with_reducible apply State.takeBank_keeps
    | with_reducible apply State.stlErr_keeps | with_reducible apply State.spadEcc_keeps
    | ((try lift_lets); intro x; clear_value x) | split | with_reducible apply Keeps.next | dsimp only

theorem execSt_keeps (s : State) (a0) (a1) : Nexts s (execSt a0 a1 s) := by
  have h := Keeps.refl s
  unfold execSt
  repeat' first
    | with_reducible assumption | with_reducible refine State.core_keeps (fun i => ?_)
    | with_reducible apply State.step1_keeps | with_reducible apply State.writeLine_keeps
    | with_reducible apply State.takeBank_keeps | with_reducible apply State.stlErrAt_keeps
    | ((try lift_lets); intro x; clear_value x) | split | with_reducible apply CoreKeeps.none
    | with_reducible refine CoreKeeps.some (fun t ht => ?_)

theorem execLds_keeps (s : State) (a0) (a1) : Nexts s (execLds a0 a1 s) := by
  have h := Keeps.refl s
  unfold execLds
  repeat' first
    | with_reducible assumption | with_reducible refine State.core_keeps (fun i => ?_)
    | with_reducible apply State.result_keeps | split | with_reducible apply CoreKeeps.none
    | with_reducible refine CoreKeeps.some (fun t ht => ?_)

theorem execRdsr_keeps (s : State) (a0) (a1) : Nexts s (execRdsr a0 a1 s) := by
  have h := Keeps.refl s
  unfold execRdsr
  repeat' first
    | with_reducible assumption | with_reducible refine State.core_keeps (fun i => ?_)
    | with_reducible apply State.result_keeps | split | with_reducible apply CoreKeeps.none
    | with_reducible refine CoreKeeps.some (fun t ht => ?_)

theorem execSyncrd_keeps (s : State) (a0) (a1) : Nexts s (execSyncrd a0 a1 s) := by
  have h := Keeps.refl s
  unfold execSyncrd
  repeat' first
    | with_reducible assumption | with_reducible apply Keeps.ite
    | with_reducible refine State.core_keeps (fun i => ?_) | with_reducible apply State.result_keeps
    | with_reducible apply State.denyCtr_keeps | split | with_reducible apply CoreKeeps.none
    | with_reducible refine CoreKeeps.some (fun t ht => ?_)

theorem execSyncwr_keeps (s : State) (a0) (a1) : Nexts s (execSyncwr a0 a1 s) := by
  have h := Keeps.refl s
  unfold execSyncwr
  repeat' first
    | with_reducible assumption | with_reducible apply Keeps.ite
    | with_reducible refine State.core_keeps (fun i => ?_) | with_reducible apply State.step1_keeps
    | with_reducible apply State.denyCtr_keeps | with_reducible apply State.ctrWrite_keeps | split
    | with_reducible apply CoreKeeps.none | with_reducible refine CoreKeeps.some (fun t ht => ?_)

theorem execSyncadd_keeps (s : State) (a0) (a1) : Nexts s (execSyncadd a0 a1 s) := by
  have h := Keeps.refl s
  unfold execSyncadd
  repeat' first
    | with_reducible assumption | with_reducible apply Keeps.ite
    | with_reducible refine State.core_keeps (fun i => ?_) | with_reducible apply State.step1_keeps
    | with_reducible apply State.denyCtr_keeps | with_reducible apply State.signal_keeps | split
    | with_reducible apply CoreKeeps.none | with_reducible refine CoreKeeps.some (fun t ht => ?_)

theorem execWaitc_keeps (s : State) (a0) (a1) : Nexts s (execWaitc a0 a1 s) := by
  have h := Keeps.refl s
  unfold execWaitc
  repeat' first
    | with_reducible assumption | with_reducible apply Keeps.ite
    | with_reducible refine State.core_keeps (fun i => ?_) | with_reducible apply State.step1_keeps
    | with_reducible apply State.denyCtr_keeps | with_reducible apply State.updStall_keeps | split
    | with_reducible apply CoreKeeps.none | with_reducible refine CoreKeeps.some (fun t ht => ?_)

theorem execWaitcSatisfied_keeps (s : State) (a0) (a1) : Nexts s (execWaitcSatisfied a0 a1 s) := by
  have h := Keeps.refl s
  unfold execWaitcSatisfied
  repeat' first
    | with_reducible assumption | with_reducible apply State.waitcSees_keeps | split
    | with_reducible apply Keeps.next

theorem execPush_keeps (s : State) (a0) (a1) : Nexts s (execPush a0 a1 s) := by
  have h := Keeps.refl s
  unfold execPush
  repeat' first
    | with_reducible assumption | with_reducible apply Keeps.ite
    | with_reducible refine State.core_keeps (fun i => ?_) | with_reducible apply State.pushCmd_keeps
    | with_reducible apply State.step1_keeps | with_reducible apply State.updStall_keeps | split
    | with_reducible apply CoreKeeps.none | with_reducible refine CoreKeeps.some (fun t ht => ?_)

theorem execPushResume_keeps (s : State) (a0) (a1) : Nexts s (execPushResume a0 a1 s) := by
  have h := Keeps.refl s
  unfold execPushResume
  repeat' first
    | with_reducible assumption | with_reducible apply Nexts.ite
    | with_reducible apply State.pushCmd_keeps | with_reducible apply State.updStall_keeps
    | ((try lift_lets); intro x; clear_value x) | split | with_reducible apply Keeps.next

theorem execLoop_keeps (s : State) (a0) (a1) : Nexts s (execLoop a0 a1 s) := by
  have h := Keeps.refl s
  unfold execLoop
  repeat' first
    | with_reducible assumption | with_reducible apply Keeps.ite
    | with_reducible refine State.core_keeps (fun i => ?_) | with_reducible apply State.illegalInsn_keeps
    | with_reducible apply State.updStall_keeps | split | with_reducible apply CoreKeeps.none
    | with_reducible refine CoreKeeps.some (fun t ht => ?_)

theorem execLoopidx_keeps (s : State) (a0) (a1) : Nexts s (execLoopidx a0 a1 s) := by
  have h := Keeps.refl s
  unfold execLoopidx
  repeat' first
    | with_reducible assumption | with_reducible refine State.core_keeps (fun i => ?_)
    | with_reducible apply State.result_keeps | split | with_reducible apply CoreKeeps.none
    | with_reducible refine CoreKeeps.some (fun t ht => ?_)

theorem execSkipIf_keeps (s : State) (a0) (a1) : Nexts s (execSkipIf a0 a1 s) := by
  have h := Keeps.refl s
  unfold execSkipIf
  repeat' first
    | with_reducible assumption | with_reducible apply Keeps.ite
    | with_reducible refine State.core_keeps (fun i => ?_) | with_reducible apply State.illegalInsn_keeps
    | with_reducible apply State.updStall_keeps | with_reducible apply State.step1_keeps | split
    | with_reducible apply CoreKeeps.none | with_reducible refine CoreKeeps.some (fun t ht => ?_)

theorem execCallLib_keeps (s : State) (a0) (a1) : Nexts s (execCallLib a0 a1 s) := by
  have h := Keeps.refl s
  unfold execCallLib
  repeat' first
    | with_reducible assumption | with_reducible apply Keeps.ite
    | with_reducible refine State.core_keeps (fun i => ?_) | with_reducible apply State.illegalInsn_keeps
    | with_reducible apply State.stlErr_keeps | with_reducible apply State.updStall_keeps | split
    | with_reducible apply CoreKeeps.none | with_reducible refine CoreKeeps.some (fun t ht => ?_)

theorem execRet_keeps (s : State) (a0) (a1) : Nexts s (execRet a0 a1 s) := by
  have h := Keeps.refl s
  unfold execRet
  repeat' first
    | with_reducible assumption | with_reducible apply Keeps.ite
    | with_reducible refine State.core_keeps (fun i => ?_) | with_reducible apply State.illegalInsn_keeps
    | with_reducible apply State.updStall_keeps | ((try lift_lets); intro x; clear_value x) | split
    | with_reducible apply CoreKeeps.none | with_reducible refine CoreKeeps.some (fun t ht => ?_)

theorem execBaseAdd_keeps (s : State) (a0) (a1) : Nexts s (execBaseAdd a0 a1 s) := by
  have h := Keeps.refl s
  unfold execBaseAdd
  repeat' first
    | with_reducible assumption | with_reducible apply Keeps.ite
    | with_reducible refine State.core_keeps (fun i => ?_) | with_reducible apply State.illegalInsn_keeps
    | with_reducible apply State.updStall_keeps | split | with_reducible apply CoreKeeps.none
    | with_reducible refine CoreKeeps.some (fun t ht => ?_)

theorem execStepEnd_keeps (s : State) (a0) (a1) : Nexts s (execStepEnd a0 a1 s) := by
  have h := Keeps.refl s
  unfold execStepEnd
  repeat' first
    | with_reducible assumption | with_reducible apply Keeps.ite
    | with_reducible refine State.core_keeps (fun i => ?_) | with_reducible apply State.illegalInsn_keeps
    | with_reducible apply State.updStall_keeps | split | with_reducible apply CoreKeeps.none
    | with_reducible refine CoreKeeps.some (fun t ht => ?_)

theorem execStepEndResume_keeps (s : State) (a0) (a1) : Nexts s (execStepEndResume a0 a1 s) := by
  have h := Keeps.refl s
  unfold execStepEndResume
  repeat' first
    | with_reducible assumption | with_reducible apply Nexts.ite
    | with_reducible apply State.updStall_keeps | with_reducible apply State.trace_keeps
    | with_reducible apply State.stlErr_keeps
    | ((try lift_lets); intro x; refine Keeps.have_ (z := s) (x := x) ?_ ?_;
        (on_goal 2 => (intro hx; clear_value x)); subst x)
    | with_reducible apply Keeps.next

theorem execNop_keeps (s : State) (a0) (a1) : Nexts s (execNop a0 a1 s) := by
  have h := Keeps.refl s
  unfold execNop
  repeat' first
    | with_reducible assumption | with_reducible refine State.core_keeps (fun i => ?_)
    | with_reducible apply State.step1_keeps | split | with_reducible apply CoreKeeps.none
    | with_reducible refine CoreKeeps.some (fun t ht => ?_)

theorem execIllegalInstruction_keeps (s : State) (a0) (a1) : Nexts s (execIllegalInstruction a0 a1 s) := by
  have h := Keeps.refl s
  unfold execIllegalInstruction
  repeat' first
    | with_reducible assumption | with_reducible apply Nexts.ite
    | with_reducible apply State.illegalInsn_keeps | with_reducible apply Keeps.next

theorem execImemFetchError_keeps (s : State) (a0) (a1) (a2) : Nexts s (execImemFetchError a0 a1 a2 s) := by
  have h := Keeps.refl s
  unfold execImemFetchError
  repeat' first
    | with_reducible assumption | with_reducible apply Nexts.ite | with_reducible apply State.stlErr_keeps
    | split | with_reducible apply Keeps.next

theorem execEngineDueBeat_keeps (s : State) (a0) (a1) (a2) : Nexts s (execEngineDueBeat a0 a1 a2 s) := by
  have h := Keeps.refl s
  unfold execEngineDueBeat
  repeat' first
    | with_reducible assumption | with_reducible apply Nexts.ite | with_reducible apply State.fwrap_keeps
    | with_reducible apply State.addCause_keeps | ((try lift_lets); intro x; clear_value x) | split
    | with_reducible apply Keeps.next

theorem execNullCommand_keeps (s : State) (a0) (a1) (a2) : Nexts s (execNullCommand a0 a1 a2 s) := by
  have h := Keeps.refl s
  unfold execNullCommand
  repeat' first
    | with_reducible assumption | with_reducible refine State.issue_keeps ?_ (fun t j w ht => ?_)
    | with_reducible apply State.inFlight_keeps | with_reducible apply Keeps.next

theorem execCommandComplete_keeps (s : State) (a0) (a1) (a2) : Nexts s (execCommandComplete a0 a1 a2 s) := by
  have h := Keeps.refl s
  unfold execCommandComplete
  repeat' first
    | with_reducible assumption | with_reducible apply State.complete_keeps
    | with_reducible apply Keeps.next

theorem execCommandLate_keeps (s : State) (a0) (a1) (a2) : Nexts s (execCommandLate a0 a1 a2 s) := by
  have h := Keeps.refl s
  unfold execCommandLate
  repeat' first
    | with_reducible assumption | with_reducible apply Nexts.ite | with_reducible apply State.stlErr_keeps
    | with_reducible apply State.updStall_keeps | split | with_reducible apply Keeps.next

theorem execSyncSettle_keeps (s : State) (a0) : Nexts s (execSyncSettle a0 s) := by
  have h := Keeps.refl s
  unfold execSyncSettle
  repeat' first
    | with_reducible assumption | with_reducible apply State.settle_keeps
    | with_reducible apply Keeps.next

end Sys2Proof.Machine
end

