-- ==== Sys2Proof/Laws/Keeps/Errors.lean ====
section
/-! SUPPORT. What the operations of Sys2Proof/Machine/Errors.lean keep: the queue, the fuses, and the form of the register
file. -/

namespace Sys2Proof.Machine

theorem State.showHeld_keeps {z : State} {s : State} (h : Keeps z s) : Keeps z (State.showHeld s) := by
  unfold State.showHeld
  repeat' first | with_reducible assumption | with_reducible apply State.fset_keeps

theorem State.traceRec_keeps {z : State} {s : State} (a1) (h : Keeps z s) : Keeps z (State.traceRec s a1) := by
  unfold State.traceRec
  repeat' first
    | with_reducible assumption | with_reducible apply Keeps.ite | with_reducible apply State.trace_keeps
    | with_reducible apply State.fset_keeps | ((try lift_lets); intro x; clear_value x)
    | (fail_if_no_progress (with_reducible apply Keeps.upd))

theorem State.recAlarm_keeps {z : State} {s : State} (a1) (h : Keeps z s) : Keeps z (State.recAlarm s a1) := by
  unfold State.recAlarm
  repeat' first
    | with_reducible assumption | with_reducible refine keeps_foldl _ ?_ (fun t x ht => ?_)
    | with_reducible apply Keeps.ite | with_reducible apply State.fireVec_keeps
    | with_reducible apply State.showAlert_keeps | with_reducible apply State.fset_keeps

theorem State.acceptRec_keeps {z : State} {s : State} (a1) (h : Keeps z s) : Keeps z (State.acceptRec s a1) := by
  unfold State.acceptRec
  repeat' first
    | with_reducible assumption | with_reducible apply State.showHeld_keeps
    | with_reducible apply State.fset_keeps | with_reducible apply State.traceRec_keeps
    | with_reducible apply State.recAlarm_keeps | ((try lift_lets); intro x; clear_value x)
    | (fail_if_no_progress (with_reducible apply Keeps.upd))

theorem State.dropRec_keeps {z : State} {s : State} (a1) (h : Keeps z s) : Keeps z (State.dropRec s a1) := by
  unfold State.dropRec
  repeat' first
    | with_reducible assumption | with_reducible apply Keeps.ite | with_reducible apply State.fsat_keeps
    | ((try lift_lets); intro x; clear_value x) | (fail_if_no_progress (with_reducible apply Keeps.upd))

theorem State.collect_keeps {z : State} {s : State} (a1) (h : Keeps z s) : Keeps z (State.collect s a1) := by
  unfold State.collect
  repeat' first
    | with_reducible assumption | with_reducible apply Keeps.ite
    | with_reducible apply State.dropRec_keeps | with_reducible apply State.acceptRec_keeps
    | ((try lift_lets); intro x; clear_value x) | (fail_if_no_progress (with_reducible apply Keeps.upd))

theorem State.tckErr_keeps {z : State} {s : State} (a1) (a2) (a3) (h : Keeps z s) :
    Keeps z (State.tckErr s a1 a2 a3) := by
  unfold State.tckErr
  repeat' first | with_reducible assumption | with_reducible apply State.raise_keeps

theorem State.freeHeld_keeps {z : State} {s : State} (h : Keeps z s) : Keeps z (State.freeHeld s) := by
  unfold State.freeHeld
  repeat' first
    | with_reducible assumption | with_reducible apply State.showHeld_keeps
    | ((try lift_lets); intro x; clear_value x) | (fail_if_no_progress (with_reducible apply Keeps.upd))

theorem State.writeConsumer_keeps {z : State} {s : State} (a1) (h : Keeps z s) :
    Keeps z (State.writeConsumer s a1) := by
  unfold State.writeConsumer
  repeat' first
    | with_reducible assumption | with_reducible apply State.freeHeld_keeps
    | with_reducible apply State.fset_keeps

theorem State.logRec_keeps {z : State} {s : State} (a1) (h : Keeps z s) : Keeps z (State.logRec s a1) := by
  unfold State.logRec
  repeat' first
    | with_reducible assumption | with_reducible apply Keeps.ite | with_reducible apply State.fset_keeps
    | with_reducible apply State.tckErr_keeps | ((try lift_lets); intro x; clear_value x)
    | (fail_if_no_progress (with_reducible apply Keeps.upd))

theorem State.retireFor_keeps {z : State} {s : State} (a1) (h : Keeps z s) : Keeps z (State.retireFor s a1) := by
  unfold State.retireFor
  repeat' first
    | with_reducible assumption | with_reducible apply Keeps.ite
    | with_reducible apply State.retireStalls_keeps | ((try lift_lets); intro x; clear_value x)
    | (fail_if_no_progress (with_reducible apply Keeps.upd))

theorem State.takeParts_keeps {z s t : State} {p : Nat} (e : s.takeParts p = some t) (h : Keeps z s) :
    Keeps z t := by
  have step : ∀ (l : List Nat) (o : Option State), (∀ u, o = some u → Keeps z u) →
      ∀ u, l.foldl (fun t i => t.bind (fun s => (s.ctrlTake (fun c => c.ty = 8 && c.src = p && c.stall = i)).map Prod.snd)) o = some u →
        Keeps z u := by
    intro l
    induction l with
    | nil => exact fun o ho u hu => ho u hu
    | cons i l ih =>
      intro o ho
      refine ih _ (fun u hu => ?_)
      obtain ⟨v, hv, hu⟩ := Option.bind_eq_some_iff.mp hu
      obtain ⟨x, hx, rfl⟩ := Option.map_eq_some_iff.mp hu
      exact State.ctrlTake_keeps hx (ho v hv)
  exact step _ _ (fun u hu => by cases hu; exact h) t e

theorem execErrRec_keeps (s : State) (a0) : Nexts s (execErrRec a0 s) := by
  have h := Keeps.refl s
  unfold execErrRec
  repeat' first
    | with_reducible assumption | with_reducible apply State.collect_keeps
    | ((try lift_lets); intro x; clear_value x) | split | (fail_if_no_progress (with_reducible apply Keeps.upd))
    | with_reducible apply Keeps.next | refine State.takeParts_keeps (by with_reducible assumption) ?_

theorem execLogCopy_keeps (s : State) : Nexts s (execLogCopy s) := by
  have h := Keeps.refl s
  unfold execLogCopy
  repeat' first
    | with_reducible assumption | with_reducible apply State.freeHeld_keeps
    | with_reducible apply State.retireFor_keeps | with_reducible apply State.logRec_keeps
    | ((try lift_lets); intro x; refine Keeps.have_ (z := s) (x := x) ?_ ?_;
        (on_goal 2 => (intro hx; clear_value x)); subst x)
    | ((try lift_lets); intro x; clear_value x) | split | (fail_if_no_progress (with_reducible apply Keeps.upd))
    | with_reducible apply Keeps.next

theorem execErrConsumerWrite_keeps (s : State) (a0) : Nexts s (execErrConsumerWrite a0 s) := by
  have h := Keeps.refl s
  unfold execErrConsumerWrite
  repeat' first
    | with_reducible assumption | with_reducible apply State.writeConsumer_keeps
    | with_reducible apply Keeps.next

end Sys2Proof.Machine
end

