-- ==== Sys2Proof/Laws/Keeps/Fabric.lean ====
section
/-! SUPPORT. What the operations of Sys2Proof/Machine/Fabric.lean keep: the queue, the fuses, and the form of the register
file. -/

namespace Sys2Proof.Machine

theorem State.arriveErr_keeps {z : State} {s : State} (a1) (a2) (a3) (a4) (h : Keeps z s) :
    Keeps z (State.arriveErr s a1 a2 a3 a4) := by
  unfold State.arriveErr
  repeat' first
    | with_reducible assumption | with_reducible apply Keeps.ite | with_reducible apply State.netErr_keeps
    | with_reducible apply State.hubErr_keeps

theorem State.acceptWrite_keeps {z : State} {s : State} (a1) (a2) (a3) (a4) (h : Keeps z s) :
    Keeps z (State.acceptWrite s a1 a2 a3 a4) := by
  unfold State.acceptWrite
  repeat' first
    | with_reducible assumption | with_reducible apply Keeps.ite
    | with_reducible apply State.arriveErr_keeps | with_reducible apply State.performPkt_keeps | split

theorem State.updRx_keeps {z : State} {s : State} (a1) (a2) (a3) (a4) (h : Keeps z s) :
    Keeps z (State.updRx s a1 a2 a3 a4) := by
  unfold State.updRx
  repeat' first | with_reducible assumption | with_reducible apply State.updLink_keeps

theorem State.beginOut_keeps {z : State} {s : State} (a1) (a2) (a3) (a4) (h : Keeps z s) :
    Keeps z (State.beginOut s a1 a2 a3 a4) := by
  unfold State.beginOut
  repeat' first
    | with_reducible assumption | with_reducible apply Keeps.ite | with_reducible apply State.updRx_keeps
    | with_reducible apply State.updLink_keeps | with_reducible apply State.unsSend_keeps

theorem State.tblWrite_keeps {z : State} {s : State} (a1) (h : Keeps z s) : Keeps z (State.tblWrite s a1) := by
  unfold State.tblWrite
  repeat' first
    | with_reducible assumption | with_reducible apply Keeps.ite
    | with_reducible apply State.setRoute_keeps | with_reducible apply State.updFab_keeps

theorem State.jobCtlGo_keeps {z : State} {s : State} (a1) (a2) (a3) (h : Keeps z s) :
    Keeps z (State.jobCtlGo s a1 a2 a3) := by
  unfold State.jobCtlGo
  repeat' first
    | with_reducible assumption | with_reducible apply Keeps.ite
    | with_reducible apply State.sendSwitch_keeps | with_reducible apply State.updFab_keeps

theorem State.landTransit_keeps {z s : State} (v : Nat) (q : UPkt) (t : TPkt) (h : Keeps z s) :
    Keeps z (s.landTransit v q t) := by
  unfold State.landTransit
  exact State.unsRelease_keeps (Keeps.upd (State.updLink_keeps _ _ h))

theorem execRouteNotice_keeps (s : State) (a0) : Nexts s (execRouteNotice a0 s) := by
  have h := Keeps.refl s
  unfold execRouteNotice
  repeat' first
    | with_reducible assumption | with_reducible refine keeps_foldl _ ?_ (fun t x ht => ?_)
    | with_reducible apply State.setRoute_keeps | with_reducible apply State.sendNotices_keeps
    | with_reducible apply State.fwrap_keeps | with_reducible apply State.routesLost_keeps
    | ((try lift_lets); intro x; refine Keeps.have_ (z := s) (x := x) ?_ ?_;
        (on_goal 2 => (intro hx; clear_value x)); subst x)
    | ((try lift_lets); intro x; clear_value x) | split | with_reducible apply Keeps.next
    | refine State.takeStored_keeps (by with_reducible assumption) ?_

theorem execTransitForward_keeps (s : State) (a0) (a1) : Nexts s (execTransitForward a0 a1 s) := by
  have h := Keeps.refl s
  unfold execTransitForward
  repeat' first
    | with_reducible assumption | with_reducible refine keeps_foldl _ ?_ (fun t x ht => ?_)
    | with_reducible apply Keeps.ite | with_reducible apply State.landTransit_keeps
    | with_reducible apply State.dropRx_keeps | with_reducible apply State.hubOnce_keeps
    | with_reducible apply State.fsat_keeps | with_reducible apply State.beginOut_keeps
    | with_reducible apply State.sweepRx_keeps | with_reducible apply State.updRx_keeps
    | ((try lift_lets); intro x; clear_value x) | split | with_reducible apply Keeps.next | dsimp only

theorem execSealSlice_keeps (s : State) : Nexts s (execSealSlice s) := by
  have h := Keeps.refl s
  unfold execSealSlice
  repeat' first
    | with_reducible assumption | with_reducible apply State.updFab_keeps
    | with_reducible apply State.sealed_keeps | with_reducible apply State.updLink_keeps
    | ((try lift_lets); intro x; refine Keeps.have_ (z := s) (x := x) ?_ ?_;
        (on_goal 2 => (intro hx; clear_value x)); subst x)
    | split | with_reducible apply Keeps.next

theorem execWrite_keeps (s : State) (a0) : Nexts s (execWrite a0 s) := by
  have h := Keeps.refl s
  unfold execWrite
  repeat' first
    | with_reducible assumption | with_reducible refine State.receive_keeps ?_ (fun t j w ls ht => ?_)
    | with_reducible apply State.acceptWrite_keeps | with_reducible apply Keeps.next

theorem execReadReq_keeps (s : State) (a0) : Nexts s (execReadReq a0 s) := by
  have h := Keeps.refl s
  unfold execReadReq
  repeat' first
    | with_reducible assumption | with_reducible refine keeps_foldl _ ?_ (fun t x ht => ?_)
    | with_reducible refine State.receive_keeps ?_ (fun t j w ls ht => ?_) | with_reducible apply State.updFab_keeps
    | with_reducible apply State.unsSend_keeps | with_reducible apply Keeps.next

theorem execReadRsp_keeps (s : State) (a0) : Nexts s (execReadRsp a0 s) := by
  have h := Keeps.refl s
  unfold execReadRsp
  repeat' first
    | with_reducible assumption | with_reducible apply Keeps.ite
    | with_reducible refine State.receive_keeps ?_ (fun t j w ls ht => ?_) | with_reducible apply State.updFab_keeps
    | with_reducible apply State.acceptWrite_keeps | ((try lift_lets); intro x; clear_value x)
    | (fail_if_no_progress (with_reducible apply Keeps.upd)) | with_reducible apply Keeps.next

theorem execAck_keeps (s : State) (a0) : Nexts s (execAck a0 s) := by
  have h := Keeps.refl s
  unfold execAck
  repeat' first
    | with_reducible assumption | with_reducible refine State.receive_keeps ?_ (fun t j w ls ht => ?_)
    | with_reducible apply State.ackStream_keeps | with_reducible apply Keeps.next

theorem execAckTimer_keeps (s : State) (a0) (a1) : Nexts s (execAckTimer a0 a1 s) := by
  have h := Keeps.refl s
  unfold execAckTimer
  repeat' first
    | with_reducible assumption | with_reducible apply State.sendAck_keeps
    | ((try lift_lets); intro x; clear_value x) | split | with_reducible apply Keeps.next

theorem execResendTimer_keeps (s : State) (a0) (a1) : Nexts s (execResendTimer a0 a1 s) := by
  have h := Keeps.refl s
  unfold execResendTimer
  repeat' first
    | with_reducible assumption | with_reducible apply State.hubOnce_keeps
    | with_reducible apply State.resend_keeps | ((try lift_lets); intro x; clear_value x) | split
    | with_reducible apply Keeps.next

theorem execDownHoldExpiry_keeps (s : State) (a0) : Nexts s (execDownHoldExpiry a0 s) := by
  have h := Keeps.refl s
  unfold execDownHoldExpiry
  repeat' first
    | with_reducible assumption | with_reducible apply State.fsat_keeps
    | with_reducible apply State.updLink_keeps | ((try lift_lets); intro x; clear_value x) | split
    | with_reducible apply Keeps.next

theorem execRouteFail_keeps (s : State) (a0) : Nexts s (execRouteFail a0 s) := by
  have h := Keeps.refl s
  unfold execRouteFail
  repeat' first
    | with_reducible assumption | with_reducible apply Keeps.ite
    | with_reducible refine State.control_keeps ?_ (fun t j w ls ht => ?_)
    | with_reducible apply State.sendSwitch_keeps | with_reducible apply State.updFab_keeps
    | with_reducible apply State.lostRoute_keeps | with_reducible apply Keeps.next

theorem execPlanSwitch_keeps (s : State) (a0) : Nexts s (execPlanSwitch a0 s) := by
  have h := Keeps.refl s
  unfold execPlanSwitch
  repeat' first
    | with_reducible assumption | with_reducible refine State.control_keeps ?_ (fun t j w ls ht => ?_)
    | with_reducible apply State.gotSwitch_keeps | with_reducible apply Keeps.next

theorem execPlanSwitchBeat_keeps (s : State) (a0) : Nexts s (execPlanSwitchBeat a0 s) := by
  have h := Keeps.refl s
  unfold execPlanSwitchBeat
  repeat' first
    | with_reducible assumption | with_reducible apply State.doSwitch_keeps | split
    | with_reducible apply Keeps.next

theorem execFabJobCtlGo_keeps (s : State) (a0) (a1) (a2) : Nexts s (execFabJobCtlGo a0 a1 a2 s) := by
  have h := Keeps.refl s
  unfold execFabJobCtlGo
  repeat' first
    | with_reducible assumption | with_reducible apply State.jobCtlGo_keeps
    | with_reducible apply Keeps.next

theorem execFabTblWrite_keeps (s : State) (a0) : Nexts s (execFabTblWrite a0 s) := by
  have h := Keeps.refl s
  unfold execFabTblWrite
  repeat' first
    | with_reducible assumption | with_reducible apply State.tblWrite_keeps
    | with_reducible apply Keeps.next

theorem execMalformedFabricPacket_keeps (s : State) (a0) (a1) : Nexts s (execMalformedFabricPacket a0 a1 s) := by
  have h := Keeps.refl s
  unfold execMalformedFabricPacket
  repeat' first
    | with_reducible assumption | with_reducible apply State.raise_keeps
    | with_reducible apply State.dropRx_keeps | ((try lift_lets); intro x; clear_value x) | split
    | with_reducible apply Keeps.next

end Sys2Proof.Machine
end

