-- ==== Sys2Proof/Laws/Keeps/Power.lean ====
section
/-! SUPPORT. What the operations of Sys2Proof/Machine/Power.lean keep: the queue, the fuses, and the form of the register
file. -/

namespace Sys2Proof.Machine

theorem State.powerNote_keeps {z : State} {s : State} (a1) (a2) (h : Keeps z s) :
    Keeps z (State.powerNote s a1 a2) := by
  unfold State.powerNote
  repeat' first
    | with_reducible assumption | with_reducible apply Keeps.ite | with_reducible apply State.fsat_keeps
    | with_reducible apply State.raise_keeps | with_reducible apply State.setReport_keeps

theorem State.powerBeat_keeps {z : State} {s : State} (a1) (h : Keeps z s) : Keeps z (State.powerBeat s a1) := by
  unfold State.powerBeat
  repeat' first
    | with_reducible assumption | with_reducible apply Keeps.ite
    | with_reducible apply State.updBarn_keeps | with_reducible apply State.fset_keeps
    | with_reducible apply State.powerNote_keeps | with_reducible apply State.addCause_keeps
    | ((try lift_lets); intro x; clear_value x) | split

theorem State.countActive_keeps {z : State} {s : State} (a1) (h : Keeps z s) : Keeps z (State.countActive s a1) := by
  unfold State.countActive
  repeat' first
    | with_reducible assumption | with_reducible refine keeps_foldl _ ?_ (fun t x ht => ?_)
    | with_reducible apply Keeps.ite | with_reducible apply State.fwrap_keeps

theorem State.countPowerHeld_keeps {z : State} {s : State} (a1) (h : Keeps z s) :
    Keeps z (State.countPowerHeld s a1) := by
  unfold State.countPowerHeld
  repeat' first | with_reducible assumption | with_reducible apply Keeps.ite | with_reducible apply State.fsat_keeps

end Sys2Proof.Machine
end

