-- ==== Sys2Proof/Laws/Keeps/Tackroom.lean ====
section
/-! SUPPORT. What the operations of Sys2Proof/Machine/Tackroom.lean keep: the queue, the fuses, and the form of the register
file. -/

namespace Sys2Proof.Machine

theorem State.envelope_keeps {z : State} {s : State} (h : Keeps z s) : Keeps z (State.envelope s) := by
  unfold State.envelope
  repeat' first
    | with_reducible assumption | with_reducible apply Keeps.ite | with_reducible apply State.fset_keeps
    | with_reducible apply State.tckErr_keeps
    | ((try lift_lets); intro x; refine Keeps.have_ (z := z) (x := x) ?_ ?_;
        (on_goal 2 => (intro hx; clear_value x)); subst x)
    | ((try lift_lets); intro x; clear_value x) | (fail_if_no_progress (with_reducible apply Keeps.upd))

theorem State.flashRead_keeps {z : State} {s : State} (a1) (a2) (h : Keeps z s) :
    Keeps z (State.flashRead s a1 a2) := by
  unfold State.flashRead
  repeat' first
    | with_reducible assumption | with_reducible apply Keeps.ite | with_reducible apply State.tckErr_keeps
    | with_reducible apply State.commitRef_keeps | with_reducible apply State.fset_keeps
    | with_reducible apply State.setReg_keeps | with_reducible apply State.fwrap_keeps
    | ((try lift_lets); intro x; clear_value x) | (fail_if_no_progress (with_reducible apply Keeps.upd))

theorem State.flashReads_keeps {z : State} {s : State} (a1) (h : Keeps z s) : Keeps z (State.flashReads s a1) := by
  unfold State.flashReads
  repeat' first
    | with_reducible assumption | with_reducible refine keeps_foldl _ ?_ (fun t x ht => ?_)
    | with_reducible apply Keeps.ite | with_reducible apply State.flashRead_keeps
    | with_reducible apply State.tckErr_keeps
    | ((try lift_lets); intro x; refine Keeps.have_ (z := z) (x := x) ?_ ?_;
        (on_goal 2 => (intro hx; clear_value x)); subst x)
    | ((try lift_lets); intro x; clear_value x) | (fail_if_no_progress (with_reducible apply Keeps.upd))

theorem State.fwBegin_keeps {z : State} {s : State} (h : Keeps z s) : Keeps z (State.fwBegin s) := by
  unfold State.fwBegin
  repeat' first
    | with_reducible assumption | with_reducible apply State.fset_keeps
    | ((try lift_lets); intro x; clear_value x) | (fail_if_no_progress (with_reducible apply Keeps.upd))

theorem State.fwData_keeps {z : State} {s : State} (a1) (a2) (h : Keeps z s) : Keeps z (State.fwData s a1 a2) := by
  unfold State.fwData
  repeat' first
    | with_reducible assumption | ((try lift_lets); intro x; clear_value x)
    | (fail_if_no_progress (with_reducible apply Keeps.upd))

theorem State.fwEnd_keeps {z : State} {s : State} (a1) (h : Keeps z s) : Keeps z (State.fwEnd s a1) := by
  unfold State.fwEnd
  repeat' first
    | with_reducible assumption | with_reducible apply Keeps.ite | with_reducible apply State.fset_keeps
    | with_reducible apply State.tckErr_keeps | ((try lift_lets); intro x; clear_value x)
    | (fail_if_no_progress (with_reducible apply Keeps.upd))

theorem State.fwUpdateCmd_keeps {z : State} {s : State} (a1) (a2) (a3) (h : Keeps z s) :
    Keeps z (State.fwUpdateCmd s a1 a2 a3).2 := by
  unfold State.fwUpdateCmd
  repeat' first
    | with_reducible assumption | with_reducible apply Keeps.ite_snd
    | with_reducible apply State.fwBegin_keeps | with_reducible apply State.fwData_keeps
    | with_reducible apply State.fwEnd_keeps

theorem State.mbxAnswer_keeps {z : State} {s : State} (a1) (a2) (a3) (a4) (h : Keeps z s) :
    Keeps z (State.mbxAnswer s a1 a2 a3 a4) := by
  unfold State.mbxAnswer
  repeat' first
    | with_reducible assumption | with_reducible apply State.fset_keeps
    | ((try lift_lets); intro x; clear_value x) | (fail_if_no_progress (with_reducible apply Keeps.upd))

theorem State.setLevel_keeps {z : State} {s : State} (a1) (a2) (a3) (a4) (h : Keeps z s) :
    Keeps z (State.setLevel s a1 a2 a3 a4) := by
  unfold State.setLevel
  repeat' first
    | with_reducible assumption | with_reducible apply Keeps.ite
    | with_reducible apply State.mbxAnswer_keeps | with_reducible apply State.fset_keeps

theorem powerTable_keeps {z : State} (n : Nat) (acc : List Byte) {s : State} (h : Keeps z s) :
    Keeps z (powerTable n s acc).2 := by
  induction n generalizing s acc with
  | zero => exact h
  | succ n ih =>
    unfold powerTable
    repeat' first | with_reducible assumption | with_reducible apply ih | with_reducible apply State.free_keeps

theorem State.restartTck_keeps {z : State} {s : State} (a1) (h : Keeps z s) : Keeps z (State.restartTck s a1) := by
  unfold State.restartTck
  repeat' first
    | with_reducible assumption | with_reducible apply State.refreshSteps_keeps
    | with_reducible apply State.fset_keeps | ((try lift_lets); intro x; clear_value x)
    | (fail_if_no_progress (with_reducible apply Keeps.upd))

theorem State.mailbox_keeps {z : State} {s : State} (a1) (a2) (h : Keeps z s) : Keeps z (State.mailbox s a1 a2) := by
  unfold State.mailbox
  repeat' first
    | with_reducible assumption | with_reducible apply Keeps.ite
    | with_reducible apply State.mbxAnswer_keeps | with_reducible apply State.setLevel_keeps
    | with_reducible apply powerTable_keeps | with_reducible apply State.fwUpdateCmd_keeps
    | with_reducible apply State.restartTck_keeps

theorem State.lspStop_keeps {z : State} {s : State} (h : Keeps z s) : Keeps z (State.lspStop s) := by
  unfold State.lspStop
  repeat' first
    | with_reducible assumption | with_reducible apply State.fset_keeps
    | ((try lift_lets); intro x; clear_value x) | (fail_if_no_progress (with_reducible apply Keeps.upd))

theorem State.lspControl_keeps {z : State} {s : State} (a1) (h : Keeps z s) : Keeps z (State.lspControl s a1) := by
  unfold State.lspControl
  repeat' first
    | with_reducible assumption | with_reducible apply Keeps.ite | with_reducible apply State.setReg_keeps
    | with_reducible apply State.fset_keeps | with_reducible apply State.lspStop_keeps
    | ((try lift_lets); intro x; clear_value x) | (fail_if_no_progress (with_reducible apply Keeps.upd))

theorem State.meanPower_keeps {z : State} {s : State} (h : Keeps z s) : Keeps z (State.meanPower s) := by
  unfold State.meanPower
  repeat' first
    | with_reducible assumption | with_reducible apply State.fset_keeps
    | ((try lift_lets); intro x; clear_value x) | (fail_if_no_progress (with_reducible apply Keeps.upd))

theorem State.sensorFault_keeps {z : State} {s : State} (a1) (h : Keeps z s) : Keeps z (State.sensorFault s a1) := by
  unfold State.sensorFault
  repeat' first
    | with_reducible assumption | with_reducible apply Keeps.ite
    | with_reducible apply State.showAlert_keeps | with_reducible apply State.tckErr_keeps
    | with_reducible apply State.fset_keeps

theorem State.pairFault_keeps {z : State} {s : State} (a1) (h : Keeps z s) : Keeps z (State.pairFault s a1) := by
  unfold State.pairFault
  repeat' first
    | with_reducible assumption | with_reducible apply Keeps.ite | with_reducible apply Keeps.ite_snd
    | with_reducible apply State.free_keeps | with_reducible apply State.sensorFault_keeps
    | ((try lift_lets); intro x; refine Keeps.have_ (z := z) (x := x.2) ?_ ?_;
        (on_goal 2 => (intro hx; clear_value x)); subst x)
    | split

theorem State.pldmAnswer_keeps {z : State} {s : State} (a1) (a2) (a3) (h : Keeps z s) :
    Keeps z (State.pldmAnswer s a1 a2 a3).2 := by
  unfold State.pldmAnswer
  repeat' first
    | with_reducible assumption | with_reducible apply Keeps.ite_snd
    | with_reducible apply State.free_keeps | with_reducible apply State.fwBegin_keeps
    | with_reducible apply State.restartTck_keeps | ((try lift_lets); intro x; clear_value x) | split
    | (fail_if_no_progress (with_reducible apply Keeps.upd))

theorem State.pldm_keeps {z : State} {s : State} (a1) (a2) (a3) (a4) (h : Keeps z s) :
    Keeps z (State.pldm s a1 a2 a3 a4) := by
  unfold State.pldm
  repeat' first
    | with_reducible assumption | with_reducible apply Keeps.ite
    | with_reducible apply State.pldmAnswer_keeps | with_reducible apply State.send_keeps
    | with_reducible apply State.fwData_keeps | with_reducible apply State.fwEnd_keeps

theorem State.policyRegion_keeps {z : State} {s : State} (a1) (h : Keeps z s) :
    Keeps z (State.policyRegion s a1) := by
  unfold State.policyRegion
  repeat' first
    | with_reducible assumption | ((try lift_lets); intro x; clear_value x)
    | (fail_if_no_progress (with_reducible apply Keeps.upd))

theorem State.readPower_keeps {z : State} {s : State} (a1) (a2) (h : Keeps z s) :
    Keeps z (State.readPower s a1 a2) := by
  unfold State.readPower
  repeat' first | with_reducible assumption | with_reducible apply Keeps.ite | with_reducible apply State.fset_keeps

theorem State.readTemp_keeps {z : State} {s : State} (a1) (a2) (h : Keeps z s) :
    Keeps z (State.readTemp s a1 a2) := by
  unfold State.readTemp
  repeat' first
    | with_reducible assumption | with_reducible apply Keeps.ite | with_reducible apply State.fset_keeps
    | with_reducible apply State.sensorFault_keeps

theorem State.readVolt_keeps {z : State} {s : State} (a1) (a2) (h : Keeps z s) :
    Keeps z (State.readVolt s a1 a2) := by
  unfold State.readVolt
  repeat' first
    | with_reducible assumption | with_reducible apply Keeps.ite | with_reducible apply State.fset_keeps
    | with_reducible apply State.sensorFault_keeps

theorem State.recovery_keeps {z : State} {s : State} (h : Keeps z s) : Keeps z (State.recovery s) := by
  unfold State.recovery
  repeat' first
    | with_reducible assumption | with_reducible apply State.refreshSteps_keeps
    | with_reducible apply State.fset_keeps | ((try lift_lets); intro x; clear_value x)
    | (fail_if_no_progress (with_reducible apply Keeps.upd))

theorem State.runFirmware_keeps {z : State} {s : State} (a1) (h : Keeps z s) : Keeps z (State.runFirmware s a1) := by
  unfold State.runFirmware
  repeat' first
    | with_reducible assumption | with_reducible refine keeps_foldl _ ?_ (fun t x ht => ?_)
    | with_reducible apply Keeps.ite | with_reducible apply State.fset_keeps
    | with_reducible apply State.fwEnable_keeps | with_reducible apply State.openBarn_keeps
    | with_reducible apply State.giveLibrary_keeps | with_reducible apply State.startHeld_keeps
    | with_reducible apply State.refreshSteps_keeps | with_reducible apply State.tckErr_keeps
    | ((try lift_lets); intro x; clear_value x) | (fail_if_no_progress (with_reducible apply Keeps.upd))

theorem State.romDone_keeps {z : State} {s : State} (a1) (a2) (h : Keeps z s) : Keeps z (State.romDone s a1 a2) := by
  unfold State.romDone
  repeat' first
    | with_reducible assumption | with_reducible apply Keeps.ite
    | with_reducible apply State.flashReads_keeps | with_reducible apply State.runFirmware_keeps
    | with_reducible apply State.recovery_keeps | ((try lift_lets); intro x; clear_value x)
    | (fail_if_no_progress (with_reducible apply Keeps.upd))

theorem State.tripNow_keeps {z : State} {s : State} (h : Keeps z s) : Keeps z (State.tripNow s) := by
  unfold State.tripNow
  repeat' first
    | with_reducible assumption | with_reducible apply Keeps.ite | with_reducible apply State.send_keeps
    | with_reducible apply State.refreshSteps_keeps | with_reducible apply State.tckErr_keeps
    | ((try lift_lets); intro x; clear_value x) | (fail_if_no_progress (with_reducible apply Keeps.upd))

theorem State.tripCheck_keeps {z : State} {s : State} (a1) (h : Keeps z s) : Keeps z (State.tripCheck s a1) := by
  unfold State.tripCheck
  repeat' first
    | with_reducible assumption | with_reducible apply Keeps.ite
    | with_reducible apply State.tripNow_keeps
    | ((try lift_lets); intro x; refine Keeps.have_ (z := z) (x := x) ?_ ?_;
        (on_goal 2 => (intro hx; clear_value x)); subst x)
    | ((try lift_lets); intro x; clear_value x) | split | (fail_if_no_progress (with_reducible apply Keeps.upd))

theorem execMbxGo_keeps (s : State) (a0) (a1) : Nexts s (execMbxGo a0 a1 s) := by
  have h := Keeps.refl s
  unfold execMbxGo
  repeat' first
    | with_reducible assumption | with_reducible apply State.mailbox_keeps | split
    | with_reducible apply Keeps.next

theorem execPldmRequest_keeps (s : State) (a0) (a1) (a2) (a3) (a4) : Nexts s (execPldmRequest a0 a1 a2 a3 a4 s) := by
  have h := Keeps.refl s
  unfold execPldmRequest
  repeat' first
    | with_reducible assumption | with_reducible apply State.send_keeps
    | with_reducible apply State.free_keeps | with_reducible apply State.pldm_keeps
    | ((try lift_lets); intro x; clear_value x) | split | with_reducible apply Keeps.next

theorem execLarkspurEntry_keeps (s : State) : Nexts s (execLarkspurEntry s) := by
  have h := Keeps.refl s
  unfold execLarkspurEntry
  repeat' first
    | with_reducible assumption | with_reducible apply State.fset_keeps
    | with_reducible apply State.lspStop_keeps
    | ((try lift_lets); intro x; refine Keeps.have_ (z := s) (x := x) ?_ ?_;
        (on_goal 2 => (intro hx; clear_value x)); subst x)
    | ((try lift_lets); intro x; clear_value x) | split | (fail_if_no_progress (with_reducible apply Keeps.upd))
    | with_reducible apply Keeps.next

theorem execLspRun_keeps (s : State) (a0) : Nexts s (execLspRun a0 s) := by
  have h := Keeps.refl s
  unfold execLspRun
  repeat' first
    | with_reducible assumption | with_reducible apply State.lspControl_keeps
    | with_reducible apply Keeps.next

theorem execSensorSample_keeps (s : State) (a0) (a1) (a2) : Nexts s (execSensorSample a0 a1 a2 s) := by
  have h := Keeps.refl s
  unfold execSensorSample
  repeat' first
    | with_reducible assumption | with_reducible refine keeps_foldl _ ?_ (fun t x ht => ?_)
    | with_reducible apply Keeps.ite | with_reducible apply State.readTemp_keeps
    | with_reducible apply State.pairFault_keeps | with_reducible apply State.tripCheck_keeps
    | with_reducible apply State.readVolt_keeps | with_reducible apply State.readPower_keeps
    | with_reducible apply State.meanPower_keeps
    | ((try lift_lets); intro x; refine Keeps.have_ (z := s) (x := x) ?_ ?_;
        (on_goal 2 => (intro hx; clear_value x)); subst x)
    | split | with_reducible apply Keeps.next

theorem execRailFault_keeps (s : State) : Nexts s (execRailFault s) := by
  have h := Keeps.refl s
  unfold execRailFault
  repeat' first
    | with_reducible assumption | with_reducible apply State.tckErr_keeps | split
    | with_reducible apply Keeps.next

theorem State.applyReqs_keeps {z : State} {s : State} (h : Keeps z s) : Keeps z (State.applyReqs s) := by
  unfold State.applyReqs
  repeat' first
    | with_reducible assumption | with_reducible refine keeps_foldl _ ?_ (fun t x ht => ?_)
    | with_reducible apply Keeps.ite | with_reducible apply State.fset_keeps | with_reducible apply State.applySteps_keeps
    | ((try lift_lets); intro x; refine Keeps.have_ (z := z) (x := x) ?_ ?_;
        (on_goal 2 => (intro hx; clear_value x)); subst x)
    | ((try lift_lets); intro x; clear_value x) | (fail_if_no_progress (with_reducible apply Keeps.upd))

theorem execPolicyTick_keeps (s : State) : Nexts s (execPolicyTick s) := by
  have h := Keeps.refl s
  unfold execPolicyTick
  repeat' first
    | with_reducible assumption | with_reducible refine keeps_foldl _ ?_ (fun t x ht => ?_)
    | with_reducible apply Keeps.ite | with_reducible apply State.envelope_keeps
    | with_reducible apply State.policyRegion_keeps
    | with_reducible apply State.applyReqs_keeps | with_reducible apply State.showAlert_keeps
    | ((try lift_lets); intro x; refine Keeps.have_ (z := s) (x := x) ?_ ?_;
        (on_goal 2 => (intro hx; clear_value x)); subst x)
    | split | with_reducible apply Keeps.next

theorem execLockstepMismatch_keeps (s : State) : Nexts s (execLockstepMismatch s) := by
  have h := Keeps.refl s
  unfold execLockstepMismatch
  repeat' first
    | with_reducible assumption | with_reducible apply State.restartTck_keeps
    | with_reducible apply State.tckErr_keeps | split | with_reducible apply Keeps.next

theorem execWatchdogExpiry_keeps (s : State) : Nexts s (execWatchdogExpiry s) := by
  have h := Keeps.refl s
  unfold execWatchdogExpiry
  repeat' first
    | with_reducible assumption | with_reducible apply State.restartTck_keeps | split
    | with_reducible apply Keeps.next

theorem execFwRestartDone_keeps (s : State) (a0) (a1) (a2) (a3) (a4) (a5) :
    Nexts s (execFwRestartDone a0 a1 a2 a3 a4 a5 s) := by
  have h := Keeps.refl s
  unfold execFwRestartDone
  repeat' first
    | with_reducible assumption | with_reducible apply State.romDone_keeps | split
    | with_reducible apply Keeps.next

theorem execFwVerifyDone_keeps (s : State) (a0) (a1) (a2) (a3) (a4) (a5) :
    Nexts s (execFwVerifyDone a0 a1 a2 a3 a4 a5 s) := by
  have h := Keeps.refl s
  unfold execFwVerifyDone
  repeat' first
    | with_reducible assumption | with_reducible apply State.romDone_keeps | split
    | with_reducible apply Keeps.next

end Sys2Proof.Machine
end

