-- ==== Sys2Proof/Laws/Keeps/Startup.lean ====
section
/-! SUPPORT. What the operations of Sys2Proof/Machine/Startup.lean keep: the queue, the fuses, and the form of the register
file. -/

namespace Sys2Proof.Machine

theorem State.applyRemaps_keeps {z : State} {s : State} (h : Keeps z s) : Keeps z (State.applyRemaps s) := by
  unfold State.applyRemaps
  repeat' first
    | with_reducible assumption | with_reducible refine keeps_foldl _ ?_ (fun t x ht => ?_)
    | with_reducible apply State.fset_keeps | with_reducible apply State.updBank_keeps
    | with_reducible apply State.showSpares_keeps

theorem State.boot_keeps {z : State} {s : State} (h : Keeps z s) : Keeps z (State.boot s) := by
  unfold State.boot
  repeat' first
    | with_reducible assumption | with_reducible refine keeps_foldl _ ?_ (fun t x ht => ?_)
    | with_reducible apply State.fset_keeps | with_reducible apply State.startClear_keeps
    | with_reducible apply State.applyRemaps_keeps | with_reducible apply State.showAlert_keeps
    | with_reducible apply State.commitRef_keeps | ((try lift_lets); intro x; clear_value x)
    | (fail_if_no_progress (with_reducible apply Keeps.upd))

theorem State.kept_keeps {z s : State} (h : Keeps z s) : Keeps z s.kept := by
  exact ⟨h.1, h.2.1, fun _ => ⟨(rfl : Tab.wf regReset [] = true), fun _ e => nomatch e⟩⟩

theorem State.powerOff_keeps {z : State} {s : State} (h : Keeps z s) : Keeps z (State.powerOff s) := by
  unfold State.powerOff
  repeat' first
    | with_reducible assumption | with_reducible apply Keeps.ite | with_reducible apply State.send_keeps
    | with_reducible apply State.kept_keeps

theorem State.sysResetOn_keeps {z : State} {s : State} (h : Keeps z s) : Keeps z (State.sysResetOn s) := by
  unfold State.sysResetOn
  repeat' first
    | with_reducible assumption | with_reducible apply State.kept_keeps
    | with_reducible apply State.fset_keeps | ((try lift_lets); intro x; clear_value x)
    | (fail_if_no_progress (with_reducible apply Keeps.upd))

theorem State.testRow_keeps {z : State} {s : State} (a1) (a2) (h : Keeps z s) :
    Keeps z (State.testRow s a1 a2).2 := by
  unfold State.testRow
  repeat' first
    | with_reducible assumption | with_reducible apply Keeps.ite_snd
    | with_reducible apply State.showSpares_keeps | with_reducible apply State.updBank_keeps
    | with_reducible apply State.retireRow_keeps | with_reducible apply State.noSpares_keeps

theorem State.testRows_keeps {z : State} (b : Nat) (rs : List (BankId × Bool)) (ok : Bool) {s : State} (h : Keeps z s) :
    Keeps z (State.testRows b rs ok s).2 := by
  induction rs generalizing s ok with
  | nil => exact h
  | cons r rs ih =>
    unfold State.testRows
    repeat' first | with_reducible assumption | with_reducible apply ih | with_reducible apply State.testRow_keeps

theorem execPwrGoodRise_keeps (s : State) : Nexts s (execPwrGoodRise s) := by
  have h := Keeps.refl s
  unfold execPwrGoodRise
  repeat' first
    | with_reducible assumption | with_reducible apply State.boot_keeps
    | ((try lift_lets); intro x; clear_value x) | split | (fail_if_no_progress (with_reducible apply Keeps.upd))
    | with_reducible apply Keeps.next

theorem execPwrGoodFall_keeps (s : State) : Nexts s (execPwrGoodFall s) := by
  have h := Keeps.refl s
  unfold execPwrGoodFall
  repeat' first
    | with_reducible assumption | with_reducible apply State.powerOff_keeps | split
    | with_reducible apply Keeps.next

theorem execVtckBrownout_keeps (s : State) : Nexts s (execVtckBrownout s) := by
  have h := Keeps.refl s
  unfold execVtckBrownout
  repeat' first
    | with_reducible assumption | with_reducible apply State.powerOff_keeps | split
    | with_reducible apply Keeps.next

theorem execSysResetAssert_keeps (s : State) : Nexts s (execSysResetAssert s) := by
  have h := Keeps.refl s
  unfold execSysResetAssert
  repeat' first
    | with_reducible assumption | with_reducible apply State.sysResetOn_keeps | split
    | with_reducible apply Keeps.next

theorem execSysResetDeassert_keeps (s : State) : Nexts s (execSysResetDeassert s) := by
  have h := Keeps.refl s
  unfold execSysResetDeassert
  repeat' first
    | with_reducible assumption | with_reducible apply State.boot_keeps
    | ((try lift_lets); intro x; clear_value x) | split | (fail_if_no_progress (with_reducible apply Keeps.upd))
    | with_reducible apply Keeps.next

theorem execLoftTestDone_keeps (s : State) (a0) (a1) : Nexts s (execLoftTestDone a0 a1 s) := by
  have h := Keeps.refl s
  unfold execLoftTestDone
  repeat' first
    | with_reducible assumption | with_reducible apply State.testRows_keeps
    | with_reducible apply State.updLoft_keeps | with_reducible apply State.openBarn_keeps
    | with_reducible apply State.fset_keeps
    | ((try lift_lets); intro x; refine Keeps.have_ (z := s) (x := x) ?_ ?_;
        (on_goal 2 => (intro hx; clear_value x)); subst x)
    | ((try lift_lets); intro x; refine Keeps.have_ (z := s) (x := x.2) ?_ ?_;
        (on_goal 2 => (intro hx; clear_value x)); subst x)
    | ((try lift_lets); intro x; clear_value x) | split | (fail_if_no_progress (with_reducible apply Keeps.upd))
    | with_reducible apply Keeps.next

end Sys2Proof.Machine
end

