-- ==== Sys2Proof/Laws/Keeps/Uns.lean ====
section
/-! SUPPORT. What the operations of Sys2Proof/Machine/Uns.lean keep: the queue, the fuses, and the form of the register
file. -/

namespace Sys2Proof.Machine

theorem State.addWait_keeps {z : State} {s : State} (a1) (a2) (h : Keeps z s) : Keeps z (State.addWait s a1 a2) := by
  unfold State.addWait
  repeat' first | with_reducible assumption | with_reducible apply State.updLoft_keeps

theorem State.dropUns_keeps {z : State} {s : State} (a1) (h : Keeps z s) : Keeps z (State.dropUns s a1) := by
  unfold State.dropUns
  repeat' first
    | with_reducible assumption | ((try lift_lets); intro x; clear_value x)
    | (fail_if_no_progress (with_reducible apply Keeps.upd))

theorem State.discardItem_keeps {z : State} {s : State} (a1) (h : Keeps z s) : Keeps z (State.discardItem s a1) := by
  unfold State.discardItem
  repeat' first
    | with_reducible assumption | with_reducible apply Keeps.ite
    | with_reducible apply State.dropUns_keeps | ((try lift_lets); intro x; clear_value x)
    | (fail_if_no_progress (with_reducible apply Keeps.upd))

theorem State.setUns_keeps {z : State} {s : State} (a1) (a2) (h : Keeps z s) : Keeps z (State.setUns s a1 a2) := by
  unfold State.setUns
  repeat' first
    | with_reducible assumption | ((try lift_lets); intro x; clear_value x)
    | (fail_if_no_progress (with_reducible apply Keeps.upd))

theorem State.lineEnters_keeps {z : State} {s : State} (a1) (a2) (h : Keeps z s) :
    Keeps z (State.lineEnters s a1 a2) := by
  unfold State.lineEnters
  repeat' first
    | with_reducible assumption | with_reducible apply Keeps.ite | with_reducible apply State.setUns_keeps
    | with_reducible apply State.updBank_keeps | with_reducible apply State.loftErr_keeps | split

theorem State.pktEnters_keeps {z : State} {s : State} (a1) (a2) (h : Keeps z s) :
    Keeps z (State.pktEnters s a1 a2) := by
  unfold State.pktEnters
  repeat' first
    | with_reducible assumption | with_reducible refine keeps_foldl _ ?_ (fun t x ht => ?_)
    | with_reducible apply Keeps.ite | with_reducible apply State.lineEnters_keeps

theorem State.resendHold_keeps {z : State} {s : State} (a1) (a2) (h : Keeps z s) :
    Keeps z (State.resendHold s a1 a2) := by
  unfold State.resendHold
  repeat' first
    | with_reducible assumption | with_reducible apply Keeps.ite
    | with_reducible apply State.updRegion_keeps | with_reducible apply State.addCause_keeps

theorem State.wrDone_keeps {z : State} {s : State} (a1) (a2) (a3) (h : Keeps z s) :
    Keeps z (State.wrDone s a1 a2 a3) := by
  unfold State.wrDone
  repeat' first
    | with_reducible assumption | with_reducible apply State.ctrlSend_keeps
    | ((try lift_lets); intro x; clear_value x) | (fail_if_no_progress (with_reducible apply Keeps.upd))

theorem State.unsEnd_keeps {z : State} {s : State} (a1) (h : Keeps z s) : Keeps z (State.unsEnd s a1) := by
  unfold State.unsEnd
  repeat' first
    | with_reducible assumption | with_reducible apply Keeps.ite
    | with_reducible apply State.dropUns_keeps | with_reducible apply State.unsRelease_keeps
    | with_reducible apply State.wrDone_keeps

theorem State.serveOut_keeps {z : State} {s : State} (a1) (a2) (h : Keeps z s) :
    Keeps z (State.serveOut s a1 a2) := by
  unfold State.serveOut
  repeat' first
    | with_reducible assumption | with_reducible apply Keeps.ite
    | with_reducible apply State.originate_keeps | with_reducible apply State.updFab_keeps | split
    | (fail_if_no_progress (with_reducible apply Keeps.upd))

theorem State.respond_keeps {z : State} {s : State} (a1) (h : Keeps z s) : Keeps z (State.respond s a1) := by
  unfold State.respond
  repeat' first
    | with_reducible assumption | with_reducible apply Keeps.ite | with_reducible apply State.unsEnd_keeps
    | with_reducible apply State.setRsv_keeps | with_reducible apply State.serveOut_keeps
    | with_reducible apply State.setOutst_keeps | split

theorem State.unsSignal_keeps {z : State} {s : State} (a1) (a2) (a3) (a4) (h : Keeps z s) :
    Keeps z (State.unsSignal s a1 a2 a3 a4) := by
  unfold State.unsSignal
  repeat' first
    | with_reducible assumption | with_reducible apply Keeps.ite | with_reducible apply State.signal_keeps
    | with_reducible apply State.ctrlSend_keeps | split

theorem State.unsDone_keeps {z : State} {s : State} (a1) (h : Keeps z s) : Keeps z (State.unsDone s a1) := by
  unfold State.unsDone
  repeat' first
    | with_reducible assumption | with_reducible apply Keeps.ite | with_reducible apply State.unsEnd_keeps
    | with_reducible apply State.unsSignal_keeps | with_reducible apply State.setUns_keeps | split

theorem State.serveSend_keeps {z : State} {s : State} (a1) (a2) (h : Keeps z s) :
    Keeps z (State.serveSend s a1 a2) := by
  unfold State.serveSend
  repeat' first
    | with_reducible assumption | with_reducible apply Keeps.ite
    | with_reducible apply State.unsSend_keeps | ((try lift_lets); intro x; clear_value x) | split

theorem State.serveLine_keeps {z : State} {s : State} (a1) (a2) (h : Keeps z s) :
    Keeps z (State.serveLine s a1 a2) := by
  unfold State.serveLine
  repeat' first | with_reducible assumption | with_reducible apply State.updFab_keeps

theorem State.serveGot_keeps {z : State} {s : State} (a1) (a2) (a3) (a4) (a5) (a6) (a7) (h : Keeps z s) :
    Keeps z (State.serveGot s a1 a2 a3 a4 a5 a6 a7) := by
  unfold State.serveGot
  repeat' first
    | with_reducible assumption | with_reducible apply Keeps.ite_snd
    | with_reducible apply State.unsDone_keeps | with_reducible apply State.checkEpoch_keeps
    | with_reducible apply State.serveSend_keeps | with_reducible apply State.serveLine_keeps
    | ((try lift_lets); intro x; clear_value x) | split

theorem State.tracePkt_keeps {z : State} {s : State} (a1) (h : Keeps z s) : Keeps z (State.tracePkt s a1) := by
  unfold State.tracePkt
  repeat' first
    | with_reducible assumption | with_reducible refine keeps_foldl _ ?_ (fun t x ht => ?_)
    | with_reducible apply Keeps.ite | with_reducible apply State.trace_keeps

theorem State.uncount_keeps {z : State} {s : State} (a1) (h : Keeps z s) : Keeps z (State.uncount s a1) := by
  unfold State.uncount
  repeat' first
    | with_reducible assumption | with_reducible refine keeps_foldl _ ?_ (fun t x ht => ?_)
    | with_reducible apply Keeps.ite | with_reducible apply State.updBank_keeps | split

theorem State.turnAway_keeps {z : State} {s : State} (a1) (a2) (a3) (h : Keeps z s) :
    Keeps z (State.turnAway s a1 a2 a3) := by
  unfold State.turnAway
  repeat' first
    | with_reducible assumption | with_reducible refine keeps_foldl _ ?_ (fun t x ht => ?_)
    | with_reducible apply Keeps.ite | with_reducible apply State.arriveErr_keeps
    | with_reducible apply State.unsEnd_keeps | with_reducible apply State.uncount_keeps
    | with_reducible apply State.updFab_keeps | with_reducible apply State.serveGot_keeps
    | with_reducible apply State.setUns_keeps

theorem State.unsLine_keeps {z : State} {s : State} (a1) (a2) (h : Keeps z s) : Keeps z (State.unsLine s a1 a2) := by
  unfold State.unsLine
  repeat' first
    | with_reducible assumption | with_reducible apply Keeps.ite
    | with_reducible apply State.updStall_keeps | with_reducible apply State.addWait_keeps
    | with_reducible apply State.unsDone_keeps | with_reducible apply State.serveGot_keeps
    | with_reducible apply State.pokeAcc_keeps | with_reducible apply State.raise_keeps
    | ((try lift_lets); intro x; clear_value x) | split | dsimp only

theorem State.unsMove_keeps {z : State} {s : State} (a1) (a2) (a3) (a4) (a5) (h : Keeps z s) :
    Keeps z (State.unsMove s a1 a2 a3 a4 a5) := by
  unfold State.unsMove
  repeat' first
    | with_reducible assumption | with_reducible apply Keeps.ite
    | with_reducible apply State.keepItems_keeps | with_reducible apply State.slotsTake_keeps
    | with_reducible apply State.fwrap_keeps | with_reducible apply State.pktEnters_keeps
    | with_reducible apply State.setUns_keeps

theorem execUnsBankAccess_keeps (s : State) (a0) (a1) (a2) : Nexts s (execUnsBankAccess a0 a1 a2 s) := by
  have h := Keeps.refl s
  unfold execUnsBankAccess
  repeat' first
    | with_reducible assumption | with_reducible apply State.updStall_keeps
    | with_reducible apply State.takeBank_keeps | with_reducible apply State.unsDone_keeps
    | with_reducible apply State.writeLine_keeps | with_reducible apply State.serveGot_keeps
    | with_reducible apply State.spadEcc_keeps
    | ((try lift_lets); intro x; refine Keeps.have_ (z := s) (x := x) ?_ ?_;
        (on_goal 2 => (intro hx; clear_value x)); subst x)
    | ((try lift_lets); intro x; clear_value x) | split | with_reducible apply Keeps.next

theorem execSpadWriteback_keeps (s : State) (a0) (a1) : Nexts s (execSpadWriteback a0 a1 s) := by
  have h := Keeps.refl s
  unfold execSpadWriteback
  repeat' first
    | with_reducible assumption | with_reducible apply State.endRecovery_keeps
    | with_reducible apply State.updStall_keeps | with_reducible apply State.takeBank_keeps
    | ((try lift_lets); intro x; clear_value x) | split | with_reducible apply Keeps.next

theorem execSpadScrub_keeps (s : State) (a0) (a1) (a2) (a3) : Nexts s (execSpadScrub a0 a1 a2 a3 s) := by
  have h := Keeps.refl s
  unfold execSpadScrub
  repeat' first
    | with_reducible assumption | with_reducible apply State.takeBank_keeps
    | with_reducible apply State.spadEcc_keeps | with_reducible apply State.writeLine_keeps
    | ((try lift_lets); intro x; refine Keeps.have_ (z := s) (x := x) ?_ ?_;
        (on_goal 2 => (intro hx; clear_value x)); subst x)
    | ((try lift_lets); intro x; clear_value x) | split | with_reducible apply Keeps.next

theorem execAccHostAccess_keeps (s : State) (a0) (a1) (a2) (a3) (a4) (a5) (a6) :
    Nexts s (execAccHostAccess a0 a1 a2 a3 a4 a5 a6 s) := by
  have h := Keeps.refl s
  unfold execAccHostAccess
  repeat' first
    | with_reducible assumption | with_reducible apply State.pokeAcc_keeps
    | with_reducible apply State.readAcc_keeps | with_reducible apply State.send_keeps
    | ((try lift_lets); intro x; refine Keeps.have_ (z := s) (x := x.2) ?_ ?_;
        (on_goal 2 => (intro hx; clear_value x)); subst x)
    | ((try lift_lets); intro x; clear_value x) | split | with_reducible apply Keeps.next

theorem execUnsLoftAccess_keeps (n : Barn) (i : Fin 65536) (e : EccOutcome) (s : State) :
    Nexts s (execUnsLoftAccess n i e s) := by
  have h := Keeps.refl s
  unfold execUnsLoftAccess
  apply Keeps.next
  split
  · exact h
  · rename_i w _
    dsimp only
    have gone (t : State) (k : Keeps s t) : Keeps s (t.updLoft n (fun l => { l with waits := l.waits.erase w })) :=
      State.updLoft_keeps _ _ k
    repeat' first
      | with_reducible assumption | with_reducible apply gone | with_reducible apply Keeps.ite
      | with_reducible apply State.bondTake_keeps | with_reducible apply State.takeLoft_keeps
      | with_reducible apply State.updBank_keeps | with_reducible apply State.unsDone_keeps
      | with_reducible apply State.loftStore_keeps | with_reducible apply State.loftRead_keeps
      | with_reducible apply State.serveGot_keeps | split

theorem execLoftScrub_keeps (s : State) (a0) (a1) (a2) : Nexts s (execLoftScrub a0 a1 a2 s) := by
  have h := Keeps.refl s
  unfold execLoftScrub
  repeat' first
    | with_reducible assumption | with_reducible apply State.loftRead_keeps
    | with_reducible apply State.takeLoft_keeps | ((try lift_lets); intro x; clear_value x) | split
    | with_reducible apply Keeps.next

theorem execUnsPacketPerform_keeps (s : State) (a0) : Nexts s (execUnsPacketPerform a0 s) := by
  have h := Keeps.refl s
  unfold execUnsPacketPerform
  repeat' first
    | with_reducible assumption | with_reducible refine keeps_foldl _ ?_ (fun t x ht => ?_)
    | with_reducible apply State.respond_keeps | with_reducible apply State.turnAway_keeps
    | with_reducible apply State.unsLine_keeps | with_reducible apply State.setUns_keeps | split
    | with_reducible apply Keeps.next

theorem execUnsFlitCredit_keeps (s : State) (a0) (a1) : Nexts s (execUnsFlitCredit a0 a1 s) := by
  have h := Keeps.refl s
  unfold execUnsFlitCredit
  repeat' first
    | with_reducible assumption | with_reducible apply Keeps.ite
    | with_reducible apply State.tracePkt_keeps | with_reducible apply State.unsMove_keeps
    | ((try lift_lets); intro x; refine Keeps.have_ (z := s) (x := x) ?_ ?_;
        (on_goal 2 => (intro hx; clear_value x)); subst x)
    | split | with_reducible apply Keeps.next | dsimp only

theorem execHopResend_keeps (s : State) (a0) (a1) : Nexts s (execHopResend a0 a1 s) := by
  have h := Keeps.refl s
  unfold execHopResend
  repeat' first
    | with_reducible assumption | with_reducible apply Keeps.ite | with_reducible apply State.fwrap_keeps
    | with_reducible apply State.resendHold_keeps | with_reducible apply State.fsat_keeps
    | with_reducible apply State.netErr_keeps | with_reducible apply State.discardItem_keeps
    | ((try lift_lets); intro x; clear_value x) | split | with_reducible apply Keeps.next

theorem execSyncAdd_keeps (s : State) (a0) (a1) : Nexts s (execSyncAdd a0 a1 s) := by
  have h := Keeps.refl s
  unfold execSyncAdd
  repeat' first
    | with_reducible assumption | with_reducible apply State.signal_keeps | split
    | with_reducible apply Keeps.next | refine State.ctrlTake_keeps (by with_reducible assumption) ?_

theorem execGateVal_keeps (s : State) (a0) (a1) : Nexts s (execGateVal a0 a1 s) := by
  have h := Keeps.refl s
  unfold execGateVal
  repeat' first
    | with_reducible assumption | with_reducible apply State.waitcSees_keeps | split
    | with_reducible apply Keeps.next | refine State.ctrlTake_keeps (by with_reducible assumption) ?_

theorem execWrDone_keeps (s : State) (a0) (a1) : Nexts s (execWrDone a0 a1 s) := by
  have h := Keeps.refl s
  unfold execWrDone
  repeat' first
    | with_reducible assumption | with_reducible apply State.setOutst_keeps
    | with_reducible apply State.unsRelease_keeps
    | ((try lift_lets); intro x; refine Keeps.have_ (z := s) (x := x) ?_ ?_;
        (on_goal 2 => (intro hx; clear_value x)); subst x)
    | ((try lift_lets); intro x; clear_value x) | split | (fail_if_no_progress (with_reducible apply Keeps.upd))
    | with_reducible apply Keeps.next | refine State.ctrlTake_keeps (by with_reducible assumption) ?_

theorem execReservedCtrlType_keeps (s : State) (a0) : Nexts s (execReservedCtrlType a0 s) := by
  have h := Keeps.refl s
  unfold execReservedCtrlType
  repeat' first
    | with_reducible assumption | with_reducible apply State.netErr_keeps
    | with_reducible apply Keeps.next

end Sys2Proof.Machine
end

