-- ==== Sys2Proof/Laws/Keeps/Yoke.lean ====
section
/-! SUPPORT. What the operations of Sys2Proof/Machine/Yoke.lean keep: the queue, the fuses, and the form of the register
file. -/

namespace Sys2Proof.Machine

theorem State.setJobYoke_keeps {z : State} {s : State} (a1) (a2) (h : Keeps z s) :
    Keeps z (State.setJobYoke s a1 a2) := by
  unfold State.setJobYoke
  repeat' first | with_reducible assumption | with_reducible apply State.fset_keeps

theorem State.sendConfirm_keeps {z : State} {s : State} (a1) (a2) (h : Keeps z s) :
    Keeps z (State.sendConfirm s a1 a2) := by
  unfold State.sendConfirm
  repeat' first
    | with_reducible assumption | with_reducible apply Keeps.ite | with_reducible apply State.updCtr_keeps
    | with_reducible apply State.originate_keeps

theorem State.digestMismatch_keeps {z : State} {s : State} (a1) (a2) (a3) (h : Keeps z s) :
    Keeps z (State.digestMismatch s a1 a2 a3) := by
  unfold State.digestMismatch
  repeat' first
    | with_reducible assumption | with_reducible apply Keeps.ite | with_reducible apply State.hubErr_keeps
    | with_reducible apply State.fset_keeps | with_reducible apply State.setJobYoke_keeps
    | with_reducible apply State.updYok_keeps | with_reducible apply State.sendControl_keeps

theorem State.confirmAll_keeps {z : State} (j n : Nat) {s : State} (h : Keeps z s) :
    Keeps z (State.confirmAll j n s) := by
  induction n generalizing s with
  | zero => exact h
  | succ n ih =>
    unfold State.confirmAll
    dsimp only
    repeat' first
      | with_reducible assumption | with_reducible apply ih | with_reducible apply Keeps.ite
      | with_reducible apply State.updYok_keeps | with_reducible apply State.fset_keeps
      | with_reducible apply State.sendConfirm_keeps | with_reducible apply State.fwrap_keeps
      | with_reducible apply State.digestMismatch_keeps | split

theorem State.confirm_keeps {z : State} {s : State} (a1) (h : Keeps z s) : Keeps z (State.confirm s a1) := by
  unfold State.confirm
  repeat' first | with_reducible assumption | with_reducible apply State.confirmAll_keeps

theorem State.abandon_keeps {z : State} {s : State} (a1) (h : Keeps z s) : Keeps z (State.abandon s a1) := by
  unfold State.abandon
  repeat' first
    | with_reducible assumption | with_reducible apply Keeps.ite
    | with_reducible apply State.setJobYoke_keeps | with_reducible apply State.hubErr_keeps
    | with_reducible apply State.updYok_keeps | with_reducible apply State.confirm_keeps
    | with_reducible apply State.updSrv_keeps

theorem State.abandonReyoke_keeps {z : State} {s : State} (a1) (h : Keeps z s) :
    Keeps z (State.abandonReyoke s a1) := by
  unfold State.abandonReyoke
  repeat' first
    | with_reducible assumption | with_reducible apply Keeps.ite
    | with_reducible apply State.abandon_keeps | with_reducible apply State.sendControl_keeps

theorem State.copyOn_keeps {z : State} (j n : Nat) {s : State} (h : Keeps z s) : Keeps z (State.copyOn j n s) := by
  induction n generalizing s with
  | zero => exact h
  | succ n ih =>
    unfold State.copyOn
    repeat' first
      | with_reducible assumption | with_reducible apply ih | with_reducible apply State.originate_keeps
      | with_reducible apply State.updYok_keeps | ((try lift_lets); intro x; clear_value x) | split | dsimp only

theorem State.dropYoke_keeps {z : State} {s : State} (a1) (h : Keeps z s) : Keeps z (State.dropYoke s a1) := by
  unfold State.dropYoke
  repeat' first | with_reducible assumption | with_reducible apply Keeps.ite | with_reducible apply State.hubErr_keeps

theorem State.forkCheck_keeps {z : State} {s : State} (a1) (h : Keeps z s) : Keeps z (State.forkCheck s a1) := by
  unfold State.forkCheck
  repeat' first
    | with_reducible assumption | with_reducible apply Keeps.ite | with_reducible apply State.updYok_keeps
    | with_reducible apply State.setJobYoke_keeps | with_reducible apply State.sendControl_keeps

theorem State.goSolo_keeps {z : State} {s : State} (a1) (h : Keeps z s) : Keeps z (State.goSolo s a1) := by
  unfold State.goSolo
  repeat' first
    | with_reducible assumption | with_reducible apply Keeps.ite
    | with_reducible apply State.setJobYoke_keeps | with_reducible apply State.updYok_keeps
    | with_reducible apply State.confirm_keeps

theorem State.updYoke_keeps {z : State} {s : State} (a1) (h : Keeps z s) : Keeps z (State.updYoke s a1) := by
  unfold State.updYoke
  repeat' first | with_reducible assumption | (fail_if_no_progress (with_reducible apply Keeps.upd))

theorem State.setYokState_keeps {z : State} {s : State} (a1) (h : Keeps z s) : Keeps z (State.setYokState s a1) := by
  unfold State.setYokState
  repeat' first | with_reducible assumption | with_reducible apply State.fset_keeps

theorem State.heartbeat_keeps {z : State} {s : State} (a1) (h : Keeps z s) : Keeps z (State.heartbeat s a1) := by
  unfold State.heartbeat
  repeat' first
    | with_reducible assumption | with_reducible apply Keeps.ite
    | with_reducible apply State.updYoke_keeps | with_reducible apply State.fset_keeps
    | with_reducible apply State.setYokState_keeps

theorem State.yokeEnable_keeps {z : State} {s : State} (a1) (h : Keeps z s) : Keeps z (State.yokeEnable s a1) := by
  unfold State.yokeEnable
  repeat' first
    | with_reducible assumption | with_reducible apply Keeps.ite
    | with_reducible apply State.updYoke_keeps | with_reducible apply State.setYokState_keeps
    | with_reducible apply State.fset_keeps

theorem State.keep_keeps {z : State} {s : State} (a1) (h : Keeps z s) : Keeps z (State.keep s a1) := by
  unfold State.keep
  repeat' first
    | with_reducible assumption | with_reducible apply Keeps.ite | with_reducible apply State.updYok_keeps
    | with_reducible apply State.controlPeers_keeps | with_reducible apply State.goSolo_keeps
    | with_reducible apply State.updSrv_keeps

theorem State.reyoke_keeps {z : State} {s : State} (a1) (h : Keeps z s) : Keeps z (State.reyoke s a1) := by
  unfold State.reyoke
  repeat' first
    | with_reducible assumption | with_reducible apply Keeps.ite | with_reducible apply State.updYok_keeps
    | with_reducible apply State.fset_keeps | with_reducible apply State.setJobYoke_keeps

theorem State.partnerLost_keeps {z : State} {s : State} (h : Keeps z s) : Keeps z (State.partnerLost s) := by
  unfold State.partnerLost
  repeat' first
    | with_reducible assumption | with_reducible refine keeps_foldl _ ?_ (fun t x ht => ?_)
    | with_reducible apply Keeps.ite | with_reducible apply State.setYokState_keeps
    | with_reducible apply State.raise_keeps | with_reducible apply State.goSolo_keeps
    | with_reducible apply State.abandon_keeps

theorem State.sendDigests_keeps {z : State} {s : State} (a1) (a2) (a3) (h : Keeps z s) :
    Keeps z (State.sendDigests s a1 a2 a3) := by
  unfold State.sendDigests
  repeat' first
    | with_reducible assumption | with_reducible refine keeps_foldl _ ?_ (fun t x ht => ?_)
    | with_reducible apply State.sendControl_keeps

theorem State.serveReq_keeps {z : State} {s : State} (a1) (a2) (h : Keeps z s) :
    Keeps z (State.serveReq s a1 a2) := by
  unfold State.serveReq
  repeat' first
    | with_reducible assumption | with_reducible apply Keeps.ite | with_reducible apply State.fwrap_keeps
    | with_reducible apply State.originate_keeps | with_reducible apply State.sendControl_keeps

theorem State.yokeReady_keeps {z : State} {s : State} (a1) (a2) (h : Keeps z s) :
    Keeps z (State.yokeReady s a1 a2) := by
  unfold State.yokeReady
  repeat' first
    | with_reducible assumption | with_reducible apply Keeps.ite | with_reducible apply State.updYok_keeps
    | with_reducible apply State.sendControl_keeps

theorem execYokeHb_keeps (s : State) (a0) : Nexts s (execYokeHb a0 s) := by
  have h := Keeps.refl s
  unfold execYokeHb
  repeat' first
    | with_reducible assumption | with_reducible apply State.heartbeat_keeps
    | with_reducible apply State.updYoke_keeps | split | with_reducible apply Keeps.next
    | refine State.takeStored_keeps (by with_reducible assumption) ?_

theorem execDigestRead_keeps (s : State) (a0) : Nexts s (execDigestRead a0 s) := by
  have h := Keeps.refl s
  unfold execDigestRead
  repeat' first
    | with_reducible assumption | with_reducible apply State.updYok_keeps
    | with_reducible apply State.hubErr_keeps | with_reducible apply State.confirm_keeps
    | with_reducible apply State.sendDigests_keeps
    | ((try lift_lets); intro x; refine Keeps.have_ (z := s) (x := x) ?_ ?_;
        (on_goal 2 => (intro hx; clear_value x)); subst x)
    | ((try lift_lets); intro x; clear_value x) | split | with_reducible apply Keeps.next

theorem execDigest_keeps (s : State) (a0) : Nexts s (execDigest a0 s) := by
  have h := Keeps.refl s
  unfold execDigest
  repeat' first
    | with_reducible assumption | with_reducible apply Keeps.ite
    | with_reducible refine State.control_keeps ?_ (fun t j w ls ht => ?_) | with_reducible apply State.fsat_keeps
    | with_reducible apply State.confirm_keeps | with_reducible apply State.updYok_keeps
    | with_reducible apply Keeps.next

theorem execMismatchNote_keeps (s : State) (a0) : Nexts s (execMismatchNote a0 s) := by
  have h := Keeps.refl s
  unfold execMismatchNote
  repeat' first
    | with_reducible assumption | with_reducible apply Keeps.ite
    | with_reducible refine State.control_keeps ?_ (fun t j w ls ht => ?_) | with_reducible apply State.updYok_keeps
    | with_reducible apply Keeps.next

theorem execLoftReq_keeps (s : State) (a0) (a1) : Nexts s (execLoftReq a0 a1 s) := by
  have h := Keeps.refl s
  unfold execLoftReq
  repeat' first
    | with_reducible assumption | with_reducible apply Keeps.ite
    | with_reducible refine State.control_keeps ?_ (fun t j w ls ht => ?_) | with_reducible apply State.serveReq_keeps
    | with_reducible apply State.updYoke_keeps | with_reducible apply Keeps.next

theorem execLoftReqDeferredServe_keeps (s : State) (a0) : Nexts s (execLoftReqDeferredServe a0 s) := by
  have h := Keeps.refl s
  unfold execLoftReqDeferredServe
  repeat' first
    | with_reducible assumption | with_reducible apply State.serveReq_keeps
    | with_reducible apply State.updYoke_keeps | split | with_reducible apply Keeps.next

theorem execJournal_keeps (s : State) (a0) : Nexts s (execJournal a0 s) := by
  have h := Keeps.refl s
  unfold execJournal
  repeat' first
    | with_reducible assumption | with_reducible refine State.control_keeps ?_ (fun t j w ls ht => ?_)
    | with_reducible apply State.hubErr_keeps | with_reducible apply State.updYok_keeps
    | ((try lift_lets); intro x; clear_value x) | split | with_reducible apply Keeps.next

theorem execYokeHalt_keeps (s : State) (a0) : Nexts s (execYokeHalt a0 s) := by
  have h := Keeps.refl s
  unfold execYokeHalt
  repeat' first
    | with_reducible assumption | with_reducible apply Keeps.ite
    | with_reducible refine State.control_keeps ?_ (fun t j w ls ht => ?_) | with_reducible apply State.abandon_keeps
    | with_reducible apply State.hubErr_keeps | with_reducible apply State.goSolo_keeps
    | with_reducible apply Keeps.next

theorem execReyokeEnd_keeps (s : State) (a0) (a1) : Nexts s (execReyokeEnd a0 a1 s) := by
  have h := Keeps.refl s
  unfold execReyokeEnd
  repeat' first
    | with_reducible assumption | with_reducible apply Keeps.ite
    | with_reducible refine State.control_keeps ?_ (fun t j w ls ht => ?_)
    | with_reducible apply State.takeSections_keeps | with_reducible apply State.fset_keeps
    | with_reducible apply State.updInfo_keeps | with_reducible apply State.updJob_keeps
    | with_reducible apply State.updSrv_keeps | with_reducible apply State.updYok_keeps
    | with_reducible apply State.forkCheck_keeps | with_reducible apply State.yokeReady_keeps
    | ((try lift_lets); intro x; clear_value x) | with_reducible apply Keeps.next

theorem execYokeReady_keeps (s : State) (a0) : Nexts s (execYokeReady a0 s) := by
  have h := Keeps.refl s
  unfold execYokeReady
  repeat' first
    | with_reducible assumption | with_reducible apply Keeps.ite
    | with_reducible refine State.control_keeps ?_ (fun t j w ls ht => ?_) | with_reducible apply State.updCtr_keeps
    | with_reducible apply State.goSolo_keeps | with_reducible apply State.updYok_keeps
    | with_reducible apply State.forkCheck_keeps | with_reducible apply Keeps.next

theorem execForkReady_keeps (s : State) (a0) : Nexts s (execForkReady a0 s) := by
  have h := Keeps.refl s
  unfold execForkReady
  repeat' first
    | with_reducible assumption | with_reducible apply Keeps.ite
    | with_reducible refine State.control_keeps ?_ (fun t j w ls ht => ?_) | with_reducible apply State.updSrv_keeps
    | with_reducible apply State.updYok_keeps | with_reducible apply State.setJobYoke_keeps
    | with_reducible apply Keeps.next

theorem execPrecopyPassEnd_keeps (s : State) (a0) : Nexts s (execPrecopyPassEnd a0 s) := by
  have h := Keeps.refl s
  unfold execPrecopyPassEnd
  repeat' first
    | with_reducible assumption | with_reducible apply State.copyOn_keeps
    | with_reducible apply State.fset_keeps | with_reducible apply State.fwrap_keeps
    | with_reducible apply State.updYok_keeps | with_reducible apply State.yokeReady_keeps
    | with_reducible apply State.send_keeps | with_reducible apply State.sendControl_keeps
    | ((try lift_lets); intro x; refine Keeps.have_ (z := s) (x := x) ?_ ?_;
        (on_goal 2 => (intro hx; clear_value x)); subst x)
    | ((try lift_lets); intro x; clear_value x) | split | with_reducible apply Keeps.next

theorem execKeep_keeps (s : State) (a0) : Nexts s (execKeep a0 s) := by
  have h := Keeps.refl s
  unfold execKeep
  repeat' first | with_reducible assumption | with_reducible apply State.keep_keeps | with_reducible apply Keeps.next

theorem execDrop_keeps (s : State) (a0) : Nexts s (execDrop a0 s) := by
  have h := Keeps.refl s
  unfold execDrop
  repeat' first
    | with_reducible assumption | with_reducible apply State.dropYoke_keeps
    | with_reducible apply Keeps.next

theorem execReyoke_keeps (s : State) (a0) : Nexts s (execReyoke a0 s) := by
  have h := Keeps.refl s
  unfold execReyoke
  repeat' first
    | with_reducible assumption | with_reducible apply State.reyoke_keeps
    | with_reducible apply Keeps.next

theorem execAbandon_keeps (s : State) (a0) : Nexts s (execAbandon a0 s) := by
  have h := Keeps.refl s
  unfold execAbandon
  repeat' first
    | with_reducible assumption | with_reducible apply State.abandonReyoke_keeps
    | with_reducible apply Keeps.next

theorem execReyokeAbandoned_keeps (s : State) (a0) : Nexts s (execReyokeAbandoned a0 s) := by
  have h := Keeps.refl s
  unfold execReyokeAbandoned
  repeat' first
    | with_reducible assumption | with_reducible apply State.abandon_keeps | split
    | with_reducible apply Keeps.next

theorem execYokeEnable_keeps (s : State) : Nexts s (execYokeEnable s) := by
  have h := Keeps.refl s
  unfold execYokeEnable
  repeat' first
    | with_reducible apply State.fsat_keeps | with_reducible apply State.fset_keeps
    | with_reducible assumption | with_reducible apply State.yokeEnable_keeps | split
    | with_reducible apply Keeps.next

theorem execYokeFormed_keeps (s : State) : Nexts s (execYokeFormed s) := by
  have h := Keeps.refl s
  unfold execYokeFormed
  repeat' first
    | with_reducible assumption | with_reducible apply State.setYokState_keeps | split
    | with_reducible apply Keeps.next

theorem execYokeFormTimeout_keeps (s : State) : Nexts s (execYokeFormTimeout s) := by
  have h := Keeps.refl s
  unfold execYokeFormTimeout
  repeat' first
    | with_reducible assumption | with_reducible apply State.raise_keeps
    | with_reducible apply State.updYoke_keeps | split | with_reducible apply Keeps.next

theorem execHeartbeatSend_keeps (s : State) : Nexts s (execHeartbeatSend s) := by
  have h := Keeps.refl s
  unfold execHeartbeatSend
  repeat' first
    | with_reducible assumption | with_reducible apply State.updYoke_keeps
    | with_reducible apply State.send_keeps | with_reducible apply State.sendBypass_keeps
    | ((try lift_lets); intro x; refine Keeps.have_ (z := s) (x := x) ?_ ?_;
        (on_goal 2 => (intro hx; clear_value x)); subst x)
    | ((try lift_lets); intro x; clear_value x) | split | with_reducible apply Keeps.next

theorem execYokeHbInPulse_keeps (s : State) (a0) : Nexts s (execYokeHbInPulse a0 s) := by
  have h := Keeps.refl s
  unfold execYokeHbInPulse
  repeat' first
    | with_reducible assumption | with_reducible apply State.heartbeat_keeps | split
    | with_reducible apply Keeps.next

theorem execHbPathTimeout_keeps (s : State) (a0) : Nexts s (execHbPathTimeout a0 s) := by
  have h := Keeps.refl s
  unfold execHbPathTimeout
  repeat' first
    | with_reducible assumption | with_reducible apply State.raise_keeps
    | with_reducible apply State.fset_keeps | with_reducible apply State.partnerLost_keeps
    | ((try lift_lets); intro x; refine Keeps.have_ (z := s) (x := x) ?_ ?_;
        (on_goal 2 => (intro hx; clear_value x)); subst x)
    | ((try lift_lets); intro x; clear_value x) | split | with_reducible apply Keeps.next

theorem execYokeCut_keeps (s : State) : Nexts s (execYokeCut s) := by
  have h := Keeps.refl s
  unfold execYokeCut
  repeat' first
    | with_reducible assumption | with_reducible refine keeps_foldl _ ?_ (fun t x ht => ?_)
    | with_reducible apply Keeps.ite | with_reducible apply State.setYokState_keeps
    | with_reducible apply State.raise_keeps | with_reducible apply State.goSolo_keeps
    | with_reducible apply State.abandon_keeps | with_reducible apply State.hubErr_keeps
    | ((try lift_lets); intro x; refine Keeps.have_ (z := s) (x := x) ?_ ?_;
        (on_goal 2 => (intro hx; clear_value x)); subst x)
    | split | with_reducible apply Keeps.next

end Sys2Proof.Machine
end

