-- ==== Sys2Proof/Laws/Keeps/RegRead.lean ====
section
/-! SUPPORT. What the operations of Sys2Proof/Machine/RegRead.lean keep: the queue, the fuses, and the form of the register
file. -/

namespace Sys2Proof.Machine

theorem State.setLatch_keeps {z : State} {s : State} (a1) (a2) (a3) (h : Keeps z s) :
    Keeps z (State.setLatch s a1 a2 a3) := by
  unfold State.setLatch
  repeat' first
    | with_reducible assumption | ((try lift_lets); intro x; clear_value x)
    | (fail_if_no_progress (with_reducible apply Keeps.upd))

theorem State.unmapped_keeps {z : State} {s : State} (a1) (a2) (a3) (h : Keeps z s) :
    Keeps z (State.unmapped s a1 a2 a3) := by
  unfold State.unmapped
  repeat' first
    | with_reducible assumption | with_reducible apply Keeps.ite | with_reducible apply State.fsat_keeps
    | with_reducible apply State.raise_keeps | ((try lift_lets); intro x; clear_value x) | split
    | (fail_if_no_progress (with_reducible apply Keeps.upd))

theorem State.regReply_keeps {z : State} {s : State} (a1) (a2) (a3) (a4) (a5) (h : Keeps z s) :
    Keeps z (State.regReply s a1 a2 a3 a4 a5) := by
  unfold State.regReply
  repeat' first | with_reducible assumption | with_reducible apply State.ctrlSend_keeps

theorem State.readEffect_keeps {z : State} {s : State} (a1) (h : Keeps z s) : Keeps z (State.readEffect s a1) := by
  unfold State.readEffect
  repeat' first
    | with_reducible assumption | with_reducible apply Keeps.ite
    | with_reducible apply State.latchFrac_keeps

theorem State.regRead_keeps {z : State} {s : State} (a1) (a2) (a3) (h : Keeps z s) :
    Keeps z (State.regRead s a1 a2 a3).2 := by
  unfold State.regRead
  repeat' first
    | with_reducible assumption | with_reducible apply Keeps.ite_snd
    | with_reducible apply State.setLatch_keeps | with_reducible apply State.unmapped_keeps
    | with_reducible apply State.readEffect_keeps | split

theorem State.vfRead_keeps {z : State} {s : State} (a1) (a2) (a3) (a4) (h : Keeps z s) :
    Keeps z (State.vfRead s a1 a2 a3 a4).2 := by
  unfold State.vfRead
  repeat' first
    | with_reducible assumption | with_reducible apply Keeps.ite_snd
    | with_reducible apply State.regRead_keeps | with_reducible apply State.free_keeps
    | with_reducible apply State.unmapped_keeps

theorem State.regAnswer_keeps {z : State} {s : State} (a1) (a2) (a3) (a4) (a5) (h : Keeps z s) :
    Keeps z (State.regAnswer s a1 a2 a3 a4 a5) := by
  unfold State.regAnswer
  repeat' first
    | with_reducible assumption | with_reducible apply Keeps.ite | with_reducible apply Keeps.ite_snd
    | with_reducible apply State.regReply_keeps | with_reducible apply State.unmapped_keeps
    | with_reducible apply State.vfRead_keeps | with_reducible apply State.regRead_keeps

theorem execRegRd_keeps (src : Source) (fn : Fin 9) (a : Fin 4294967296) (n : Fin 4097) (ide : Bool) (tag : Fin 1024)
    (s : State) : Nexts s (execRegRd src fn a n ide tag s) := by
  have h := Keeps.refl s
  unfold execRegRd
  repeat' first
    | with_reducible assumption | with_reducible apply State.regReply_keeps
    | with_reducible apply State.ctrlPut_keeps | with_reducible apply State.regAnswer_keeps | split
    | with_reducible apply Keeps.next

theorem execRegRsp_keeps (s : State) (a0) (a1) : Nexts s (execRegRsp a0 a1 s) := by
  have h := Keeps.refl s
  unfold execRegRsp
  repeat' first
    | with_reducible assumption | with_reducible apply State.send_keeps | split
    | with_reducible apply Keeps.next | refine State.ctrlTake_keeps (by with_reducible assumption) ?_

end Sys2Proof.Machine
end

