-- ==== Sys2Proof/Laws/Keeps/Regions.lean ====
section
/-! SUPPORT. What the operations of Sys2Proof/Machine/Regions.lean keep: the queue, the fuses, and the form of the register
file. -/

namespace Sys2Proof.Machine

theorem State.beginBeat_keeps {z : State} {s : State} (a1) (h : Keeps z s) : Keeps z (State.beginBeat s a1) := by
  unfold State.beginBeat
  repeat' first
    | with_reducible assumption | with_reducible apply Keeps.ite
    | with_reducible apply State.powerBeat_keeps

theorem State.goOn_keeps {z : State} {s : State} (a1) (h : Keeps z s) : Keeps z (State.goOn s a1) := by
  unfold State.goOn
  repeat' first
    | with_reducible assumption | with_reducible apply Keeps.ite
    | with_reducible apply State.beginBeat_keeps | with_reducible apply State.updRegion_keeps
    | with_reducible apply State.fwrap_keeps

theorem State.spreadTo_keeps {z s0 s : State} (r : Nat) (h : Keeps z s) : Keeps z (s0.spreadTo s r) := by
  unfold State.spreadTo
  repeat' first
    | with_reducible assumption | with_reducible apply State.showHold_keeps
    | with_reducible apply State.updRegion_keeps

theorem State.skewRelease_keeps {z : State} {s : State} (a1) (h : Keeps z s) : Keeps z (State.skewRelease s a1) := by
  unfold State.skewRelease
  repeat' first
    | with_reducible assumption | with_reducible apply Keeps.ite
    | with_reducible apply State.beginBeat_keeps | with_reducible apply State.closeCtrs_keeps
    | with_reducible apply State.updRegion_keeps

theorem State.completeBeat_keeps {z s0 s : State} (r : Nat) (h : Keeps z s) : Keeps z (s0.completeBeat s r) := by
  unfold State.completeBeat
  repeat' first
    | with_reducible assumption | with_reducible refine keeps_foldl _ ?_ (fun t x ht => ?_)
    | with_reducible apply Keeps.ite | with_reducible apply State.closeCtrs_keeps
    | with_reducible apply State.countActive_keeps | with_reducible apply State.endBeat_keeps
    | with_reducible apply State.fwrap_keeps | with_reducible apply State.goOn_keeps
    | with_reducible apply State.spreadTo_keeps | with_reducible apply State.skewRelease_keeps

theorem State.countSlip_keeps {z : State} {s : State} (a1) (h : Keeps z s) : Keeps z (State.countSlip s a1) := by
  unfold State.countSlip
  repeat' first
    | with_reducible assumption | with_reducible refine keeps_foldl _ ?_ (fun t x ht => ?_)
    | with_reducible apply Keeps.ite | with_reducible apply State.fwrap_keeps

theorem State.gateVals_keeps {z : State} {s : State} (h : Keeps z s) : Keeps z (State.gateVals s) := by
  unfold State.gateVals
  repeat' first
    | with_reducible assumption | with_reducible refine keeps_foldl _ ?_ (fun t x ht => ?_)
    | with_reducible apply State.updStall_keeps | with_reducible apply State.ctrlSend_keeps | split

theorem State.ctrlPeriod_keeps {z : State} {s : State} (a1) (h : Keeps z s) : Keeps z (State.ctrlPeriod s a1) := by
  unfold State.ctrlPeriod
  repeat' first
    | with_reducible assumption | with_reducible apply Keeps.ite
    | with_reducible apply State.ctrlMove_keeps | with_reducible apply State.gateVals_keeps

theorem State.dropOver_keeps {z : State} {s : State} (a1) (h : Keeps z s) : Keeps z (State.dropOver s a1) := by
  unfold State.dropOver
  repeat' first | with_reducible assumption | with_reducible apply State.updRegion_keeps

theorem State.releaseOwn_keeps {z : State} {s : State} (a1) (h : Keeps z s) : Keeps z (State.releaseOwn s a1) := by
  unfold State.releaseOwn
  repeat' first
    | with_reducible assumption | with_reducible apply Keeps.ite
    | with_reducible apply State.showHold_keeps | with_reducible apply State.updRegion_keeps
    | with_reducible apply State.trace_keeps | with_reducible apply State.raise_keeps
    | ((try lift_lets); intro x; refine Keeps.have_ (z := z) (x := x) ?_ ?_;
        (on_goal 2 => (intro hx; clear_value x)); subst x)
    | split

theorem State.tickCauses_keeps {z : State} {s : State} (a1) (h : Keeps z s) : Keeps z (State.tickCauses s a1) := by
  unfold State.tickCauses
  repeat' first | with_reducible assumption | with_reducible apply State.updRegion_keeps

theorem State.refreshHold_keeps {z : State} {s : State} (a1) (h : Keeps z s) : Keeps z (State.refreshHold s a1) := by
  unfold State.refreshHold
  repeat' first
    | with_reducible assumption | with_reducible apply Keeps.ite
    | with_reducible apply State.addCause_keeps

theorem State.heldPeriod_keeps {z s0 s : State} (r : Nat) (h : Keeps z s) : Keeps z (s0.heldPeriod s r) := by
  unfold State.heldPeriod
  repeat' first
    | with_reducible assumption | with_reducible refine keeps_foldl _ ?_ (fun t x ht => ?_)
    | with_reducible apply Keeps.ite | with_reducible apply State.countStarved_keeps
    | with_reducible apply State.closeCtrs_keeps | with_reducible apply State.countPowerHeld_keeps
    | with_reducible apply State.countSlip_keeps | with_reducible apply State.releaseOwn_keeps
    | with_reducible apply State.dropOver_keeps | with_reducible apply State.tickCauses_keeps
    | with_reducible apply State.spreadTo_keeps | with_reducible apply State.refreshHold_keeps
    | with_reducible apply State.goOn_keeps

theorem State.periodEnd_keeps {z s0 s : State} (r : Nat) (h : Keeps z s) : Keeps z (s0.periodEnd s r) := by
  unfold State.periodEnd
  repeat' first
    | with_reducible assumption | with_reducible apply Keeps.ite
    | with_reducible apply State.ctrlPeriod_keeps | with_reducible apply State.localTick_keeps
    | with_reducible apply State.updRegion_keeps | with_reducible apply State.heldPeriod_keeps
    | with_reducible apply State.goOn_keeps | with_reducible apply State.spreadTo_keeps
    | with_reducible apply State.closeCtrs_keeps | with_reducible apply State.runActs_keeps
    | with_reducible apply State.completeBeat_keeps

theorem State.endPeriod_keeps {z s0 s : State} (r : Nat) (h : Keeps z s) : Keeps z (State.endPeriod s0 s r) := by
  unfold State.endPeriod
  repeat' first
    | with_reducible assumption | with_reducible apply Keeps.ite
    | with_reducible apply State.periodEnd_keeps

theorem State.endPeriods_keeps {z : State} (n : Nat) {s : State} (h : Keeps z s) : Keeps z (s.endPeriods n) := by
  induction n generalizing s with
  | zero => exact h
  | succ n ih =>
    unfold State.endPeriods
    repeat' first
      | with_reducible assumption | with_reducible apply ih
      | with_reducible refine keeps_foldl _ ?_ (fun t x ht => ?_) | with_reducible apply State.updRegion_keeps
      | with_reducible apply State.endPeriod_keeps

theorem State.endsNow_keeps {z : State} {s : State} (a1) (h : Keeps z s) : Keeps z (State.endsNow s a1) := by
  unfold State.endsNow
  repeat' first
    | with_reducible assumption | with_reducible apply State.updRegion_keeps
    | with_reducible apply State.periodEnd_keeps

theorem State.tick_keeps {z : State} {s : State} (h : Keeps z s) : Keeps z (State.tick s) := by
  unfold State.tick
  repeat' first
    | with_reducible assumption | with_reducible refine keeps_foldl _ ?_ (fun t x ht => ?_)
    | with_reducible apply State.clockEdge_keeps | with_reducible apply State.updRegion_keeps
    | with_reducible apply State.endPeriods_keeps

theorem execSkewWaitRelease_keeps (s : State) (a0) : Nexts s (execSkewWaitRelease a0 s) := by
  have h := Keeps.refl s
  unfold execSkewWaitRelease
  repeat' first
    | with_reducible assumption | with_reducible apply State.skewRelease_keeps
    | with_reducible apply Keeps.next

theorem execHandshakeLate_keeps (s : State) (a0) (a1) : Nexts s (execHandshakeLate a0 a1 s) := by
  have h := Keeps.refl s
  unfold execHandshakeLate
  repeat' first
    | with_reducible assumption | with_reducible apply State.addCause_keeps | split
    | with_reducible apply Keeps.next

theorem execHoldSpread_keeps (s : State) (a0) : Nexts s (execHoldSpread a0 s) := by
  have h := Keeps.refl s
  unfold execHoldSpread
  repeat' first
    | with_reducible assumption | with_reducible apply State.endsNow_keeps | split
    | with_reducible apply Keeps.next

theorem execHoldRelease_keeps (s : State) (a0) : Nexts s (execHoldRelease a0 s) := by
  have h := Keeps.refl s
  unfold execHoldRelease
  repeat' first
    | with_reducible assumption | with_reducible apply State.dropOver_keeps
    | with_reducible apply State.clearCauses_keeps | with_reducible apply State.endsNow_keeps
    | ((try lift_lets); intro x; refine Keeps.have_ (z := s) (x := x) ?_ ?_;
        (on_goal 2 => (intro hx; clear_value x)); subst x)
    | split | with_reducible apply Keeps.next

theorem execHoldTimeout_keeps (s : State) (a0) : Nexts s (execHoldTimeout a0 s) := by
  have h := Keeps.refl s
  unfold execHoldTimeout
  repeat' first
    | with_reducible assumption | with_reducible apply State.raise_keeps
    | with_reducible apply State.updRegion_keeps | split | with_reducible apply Keeps.next

end Sys2Proof.Machine
end

