-- ==== Sys2Proof/Laws/Keeps/Spdm.lean ====
section
/-! SUPPORT. What the operations of Sys2Proof/Machine/Spdm.lean keep: the queue, the fuses, and the form of the register
file. -/

namespace Sys2Proof.Machine

theorem State.lockSigners_keeps {z : State} {s : State} (h : Keeps z s) : Keeps z (State.lockSigners s) := by
  unfold State.lockSigners
  repeat' first
    | with_reducible assumption | with_reducible apply State.fset_keeps
    | ((try lift_lets); intro x; clear_value x) | (fail_if_no_progress (with_reducible apply Keeps.upd))

theorem State.nonce_keeps {z : State} {s : State} (h : Keeps z s) : Keeps z (State.nonce s).2 := by
  unfold State.nonce
  repeat' first | with_reducible assumption | with_reducible apply State.free_keeps

theorem State.script_keeps {z : State} {s : State} (a1) (a2) (h : Keeps z s) : Keeps z (State.script s a1 a2) := by
  unfold State.script
  repeat' first
    | with_reducible assumption | ((try lift_lets); intro x; clear_value x)
    | (fail_if_no_progress (with_reducible apply Keeps.upd))

theorem State.setSpdm_keeps {z : State} {s : State} (a1) (a2) (h : Keeps z s) : Keeps z (State.setSpdm s a1 a2) := by
  unfold State.setSpdm
  repeat' first
    | with_reducible assumption | ((try lift_lets); intro x; clear_value x)
    | (fail_if_no_progress (with_reducible apply Keeps.upd))

theorem State.spdm_keeps {s : State} {t : Nat} {req : List Byte} {answer : State → State} (h : Keeps s s)
    (ha : ∀ t, Keeps s t → Keeps s (answer t)) : Nexts s (s.spdm t req answer) := by
  unfold State.spdm
  apply Keeps.next
  split
  · exact ha _ (State.script_keeps _ _ h)
  · exact h

theorem State.spdmSend_keeps {z : State} {s : State} (a1) (a2) (a3) (a4) (a5) (h : Keeps z s) :
    Keeps z (State.spdmSend s a1 a2 a3 a4 a5) := by
  unfold State.spdmSend
  repeat' first
    | with_reducible assumption | with_reducible apply State.send_keeps
    | with_reducible apply State.script_keeps

theorem State.spdmError_keeps {z : State} {s : State} (a1) (a2) (h : Keeps z s) :
    Keeps z (State.spdmError s a1 a2) := by
  unfold State.spdmError
  repeat' first | with_reducible assumption | with_reducible apply State.spdmSend_keeps

theorem State.spdmSign_keeps {z : State} {s : State} (a1) (a2) (a3) (a4) (a5) (h : Keeps z s) :
    Keeps z (State.spdmSign s a1 a2 a3 a4 a5) := by
  unfold State.spdmSign
  repeat' first | with_reducible assumption | with_reducible apply State.spdmSend_keeps

theorem execGetVersion_keeps (s : State) (a0) (a1) : Nexts s (execGetVersion a0 a1 s) := by
  have h := Keeps.refl s
  unfold execGetVersion
  repeat' first
    | with_reducible assumption | with_reducible apply State.setSpdm_keeps
    | with_reducible apply State.spdmSend_keeps | with_reducible apply State.script_keeps
    | ((try lift_lets); intro x; refine Keeps.have_ (z := s) (x := x) ?_ ?_;
        (on_goal 2 => (intro hx; clear_value x)); subst x)
    | ((try lift_lets); intro x; clear_value x) | split | (fail_if_no_progress (with_reducible apply Keeps.upd))
    | with_reducible apply Keeps.next

theorem execGetCapabilities_keeps (s : State) (a0) (a1) : Nexts s (execGetCapabilities a0 a1 s) := by
  have h := Keeps.refl s
  unfold execGetCapabilities
  repeat' first
    | with_reducible assumption | with_reducible refine State.spdm_keeps ?_ (fun t ht => ?_)
    | with_reducible apply State.spdmSend_keeps

theorem execNegotiateAlgorithms_keeps (s : State) (a0) (a1) (a2) : Nexts s (execNegotiateAlgorithms a0 a1 a2 s) := by
  have h := Keeps.refl s
  unfold execNegotiateAlgorithms
  repeat' first
    | with_reducible assumption | with_reducible apply Keeps.ite
    | with_reducible refine State.spdm_keeps ?_ (fun t ht => ?_) | with_reducible apply State.spdmSend_keeps
    | with_reducible apply State.spdmError_keeps

theorem execGetDigests_keeps (s : State) (a0) (a1) : Nexts s (execGetDigests a0 a1 s) := by
  have h := Keeps.refl s
  unfold execGetDigests
  repeat' first
    | with_reducible assumption | with_reducible refine State.spdm_keeps ?_ (fun t ht => ?_)
    | with_reducible apply State.spdmSend_keeps

theorem execGetCertificate_keeps (s : State) (a0) (a1) : Nexts s (execGetCertificate a0 a1 s) := by
  have h := Keeps.refl s
  unfold execGetCertificate
  repeat' first
    | with_reducible assumption | with_reducible apply Keeps.ite
    | with_reducible refine State.spdm_keeps ?_ (fun t ht => ?_) | with_reducible apply State.spdmError_keeps
    | with_reducible apply State.spdmSend_keeps

theorem execChallenge_keeps (s : State) (a0) (a1) : Nexts s (execChallenge a0 a1 s) := by
  have h := Keeps.refl s
  unfold execChallenge
  repeat' first
    | with_reducible assumption | with_reducible apply Keeps.ite
    | with_reducible refine State.spdm_keeps ?_ (fun t ht => ?_) | with_reducible apply State.spdmError_keeps
    | with_reducible apply State.nonce_keeps | with_reducible apply State.spdmSign_keeps

theorem execGetMeasurements_keeps (s : State) (a0) (a1) : Nexts s (execGetMeasurements a0 a1 s) := by
  have h := Keeps.refl s
  unfold execGetMeasurements
  repeat' first
    | with_reducible assumption | with_reducible apply Keeps.ite
    | with_reducible refine State.spdm_keeps ?_ (fun t ht => ?_) | with_reducible apply State.spdmError_keeps
    | with_reducible apply State.nonce_keeps | with_reducible apply State.spdmSign_keeps
    | with_reducible apply State.spdmSend_keeps

theorem execKeyExchange_keeps (s : State) (a0) (a1) : Nexts s (execKeyExchange a0 a1 s) := by
  have h := Keeps.refl s
  unfold execKeyExchange
  repeat' first
    | with_reducible assumption | with_reducible refine State.spdm_keeps ?_ (fun t ht => ?_)
    | with_reducible apply State.nonce_keeps | with_reducible apply State.spdmSign_keeps
    | with_reducible apply State.setSpdm_keeps

theorem execFinish_keeps (s : State) (a0) (a1) : Nexts s (execFinish a0 a1 s) := by
  have h := Keeps.refl s
  unfold execFinish
  repeat' first
    | with_reducible assumption | with_reducible apply Keeps.ite
    | with_reducible refine State.spdm_keeps ?_ (fun t ht => ?_) | with_reducible apply State.spdmSend_keeps
    | with_reducible apply State.setSpdm_keeps | with_reducible apply State.spdmError_keeps

theorem execEndSession_keeps (s : State) (a0) (a1) : Nexts s (execEndSession a0 a1 s) := by
  have h := Keeps.refl s
  unfold execEndSession
  repeat' first
    | with_reducible assumption | with_reducible apply Keeps.ite
    | with_reducible refine State.spdm_keeps ?_ (fun t ht => ?_) | with_reducible apply State.setSpdm_keeps
    | with_reducible apply State.spdmSend_keeps | with_reducible apply State.spdmError_keeps

theorem execSpdmUnsupported_keeps (s : State) (a0) (a1) : Nexts s (execSpdmUnsupported a0 a1 s) := by
  have h := Keeps.refl s
  unfold execSpdmUnsupported
  repeat' first
    | with_reducible assumption | with_reducible refine State.spdm_keeps ?_ (fun t ht => ?_)
    | with_reducible apply State.spdmError_keeps

theorem execSignerLock_keeps (s : State) : Nexts s (execSignerLock s) := by
  have h := Keeps.refl s
  unfold execSignerLock
  repeat' first
    | with_reducible assumption | with_reducible apply State.lockSigners_keeps
    | with_reducible apply Keeps.next

end Sys2Proof.Machine
end

