-- ==== Sys2Proof/Laws/Keeps/RegWrite.lean ====
section
/-! SUPPORT. What the operations of Sys2Proof/Machine/RegWrite.lean keep: the queue, the fuses, and the form of the register
file. -/

namespace Sys2Proof.Machine

theorem State.blkEnable_keeps {z : State} {s : State} (a1) (a2) (a3) (h : Keeps z s) :
    Keeps z (State.blkEnable s a1 a2 a3) := by
  unfold State.blkEnable
  repeat' first
    | with_reducible assumption | with_reducible apply Keeps.ite | with_reducible apply State.fset_keeps
    | with_reducible apply State.startHeld_keeps

theorem State.flipCfg_keeps {z : State} {s : State} (a1) (a2) (a3) (a4) (h : Keeps z s) :
    Keeps z (State.flipCfg s a1 a2 a3 a4) := by
  unfold State.flipCfg
  repeat' first
    | with_reducible assumption | with_reducible apply Keeps.ite | with_reducible apply State.setReg_keeps
    | split | (fail_if_no_progress (with_reducible apply Keeps.upd))

theorem State.mbxWrite_keeps {z : State} {s : State} (a1) (a2) (a3) (h : Keeps z s) :
    Keeps z (State.mbxWrite s a1 a2 a3) := by
  unfold State.mbxWrite
  repeat' first
    | with_reducible assumption | with_reducible apply Keeps.ite | with_reducible apply State.fset_keeps
    | ((try lift_lets); intro x; clear_value x) | (fail_if_no_progress (with_reducible apply Keeps.upd))

theorem State.srvWrite_keeps {z : State} {s : State} (a1) (a2) (h : Keeps z s) :
    Keeps z (State.srvWrite s a1 a2) := by
  unfold State.srvWrite
  repeat' first
    | with_reducible assumption | with_reducible apply Keeps.ite
    | with_reducible apply State.updCust_keeps | with_reducible apply State.updSrv_keeps

theorem State.yokAction_keeps {z : State} {s : State} (a1) (a2) (h : Keeps z s) :
    Keeps z (State.yokAction s a1 a2) := by
  unfold State.yokAction
  repeat' first
    | with_reducible assumption | with_reducible apply Keeps.ite | with_reducible apply State.keep_keeps
    | with_reducible apply State.dropYoke_keeps | with_reducible apply State.reyoke_keeps
    | with_reducible apply State.abandonReyoke_keeps

theorem State.secWrite_keeps {z : State} {s : State} (a1) (h : Keeps z s) : Keeps z (State.secWrite s a1) := by
  unfold State.secWrite
  repeat' first
    | with_reducible assumption | with_reducible apply Keeps.ite
    | ((try lift_lets); intro x; clear_value x) | (fail_if_no_progress (with_reducible apply Keeps.upd))

theorem State.maskWrite_keeps {z : State} {s : State} (a1) (a2) (h : Keeps z s) :
    Keeps z (State.maskWrite s a1 a2) := by
  unfold State.maskWrite
  repeat' first
    | with_reducible assumption | with_reducible apply Keeps.ite
    | with_reducible apply State.commitRef_keeps | (fail_if_no_progress (with_reducible apply Keeps.upd))

theorem State.regAct_keeps {z : State} {s a1 : State} (a2) (a3) (a4) (a5) (a6) (h : Keeps z s) :
    Keeps z (State.regAct s a1 a2 a3 a4 a5 a6) := by
  unfold State.regAct
  repeat' first
    | with_reducible assumption | with_reducible apply Keeps.ite
    | with_reducible apply State.blkEnable_keeps | with_reducible apply State.setCfgRef_keeps
    | with_reducible apply State.applySteps_keeps | with_reducible apply State.stimeSet_keeps
    | with_reducible apply State.startSource_keeps | with_reducible apply State.portRetrain_keeps
    | with_reducible apply State.portEnable_keeps | with_reducible apply State.portDisable_keeps
    | with_reducible apply State.tblWrite_keeps | with_reducible apply State.jobCtlGo_keeps
    | with_reducible apply State.srvWrite_keeps | with_reducible apply State.yokeEnable_keeps
    | with_reducible apply State.yokAction_keeps | with_reducible apply State.lockSigners_keeps
    | with_reducible apply State.secWrite_keeps | with_reducible apply State.setReg_keeps
    | with_reducible apply State.writeConsumer_keeps | with_reducible apply State.freeHeld_keeps
    | with_reducible apply State.showAlert_keeps | with_reducible apply State.refreshSteps_keeps
    | with_reducible apply State.mailbox_keeps | with_reducible apply State.lspControl_keeps
    | with_reducible apply State.maskWrite_keeps
    | ((try lift_lets); intro x; refine Keeps.have_ (z := z) (x := x) ?_ ?_;
        (on_goal 2 => (intro hx; clear_value x)); subst x)
    | ((try lift_lets); intro x; clear_value x) | split

theorem State.regPerform_keeps {z : State} {s : State} (a1) (a2) (a3) (h : Keeps z s) :
    Keeps z (State.regPerform s a1 a2 a3) := by
  unfold State.regPerform
  repeat' first
    | with_reducible assumption | with_reducible apply Keeps.ite | with_reducible apply State.setReg_keeps
    | with_reducible apply State.fsat_keeps | with_reducible apply State.fset_keeps
    | with_reducible apply State.commitRef_keeps | with_reducible apply State.regAct_keeps

theorem State.regWrite_keeps {z : State} {s : State} (a1) (a2) (a3) (a4) (a5) (h : Keeps z s) :
    Keeps z (State.regWrite s a1 a2 a3 a4 a5) := by
  unfold State.regWrite
  repeat' first
    | with_reducible assumption | with_reducible apply Keeps.ite
    | with_reducible apply State.setLatch_keeps | with_reducible apply State.unmapped_keeps
    | with_reducible apply State.mbxWrite_keeps | with_reducible apply State.regPerform_keeps | split

theorem State.performReq_keeps {z : State} {s : State} (a1) (h : Keeps z s) : Keeps z (State.performReq s a1) := by
  unfold State.performReq
  repeat' first
    | with_reducible assumption | with_reducible apply State.regWrite_keeps
    | with_reducible apply State.regAnswer_keeps | split

theorem State.regArrive_keeps {z : State} {s : State} (a1) (h : Keeps z s) : Keeps z (State.regArrive s a1) := by
  unfold State.regArrive
  repeat' first
    | with_reducible assumption | with_reducible apply State.performReq_keeps | split
    | refine State.ctrlTake_keeps (by with_reducible assumption) ?_

theorem State.regArrivals_keeps {z : State} {s : State} (h : Keeps z s) : Keeps z (State.regArrivals s) := by
  unfold State.regArrivals
  repeat' first
    | with_reducible assumption | with_reducible refine keeps_foldl _ ?_ (fun t x ht => ?_)
    | with_reducible apply State.regArrive_keeps

theorem State.idle_keeps {z : State} {s : State} (h : Keeps z s) : Keeps z (State.idle s) := by
  unfold State.idle
  repeat' first
    | with_reducible assumption | with_reducible apply State.regArrivals_keeps
    | with_reducible apply State.tick_keeps

theorem State.regSend_keeps {z : State} {s : State} (a1) (a2) (a3) (a4) (a5) (h : Keeps z s) :
    Keeps z (State.regSend s a1 a2 a3 a4 a5) := by
  unfold State.regSend
  repeat' first
    | with_reducible assumption | with_reducible apply Keeps.ite
    | with_reducible apply State.ctrlPut_keeps | with_reducible apply State.regWrite_keeps

theorem execRegWr_keeps (s : State) (a0) (a1) (a2) (a3) : Nexts s (execRegWr a0 a1 a2 a3 s) := by
  have h := Keeps.refl s
  unfold execRegWr
  repeat' first
    | with_reducible assumption | with_reducible apply State.regSend_keeps
    | with_reducible apply Keeps.next

theorem execCfgCrcCheck_keeps (b : Fin 17) (i : Fin 24) (f : Option (Fin 2016 × Fin 64)) (s : State) :
    Nexts s (execCfgCrcCheck b i f s) := by
  have h := Keeps.refl s
  have key (s0 : State) (h0 : Keeps s s0) (p : Prop) [Decidable p] (q : Prop) [Decidable q] (e : Err) (x y : Fld) (z : Fld) :
      Nexts s (.next (if p then s else if q then (((s0.fset x 0).fset y 1).fsat z 1).raise e else s0)) := by
    apply Keeps.next
    with_reducible apply Keeps.ite
    · exact h
    · with_reducible apply Keeps.ite
      · exact State.raise_keeps _ (State.fsat_keeps _ _ (State.fset_keeps _ _ (State.fset_keeps _ _ h0)))
      · exact h0
  unfold execCfgCrcCheck
  cases f with
  | none => exact key s h _ _ _ _ _ _
  | some x => exact key _ (State.flipCfg_keeps _ _ _ _ h) _ _ _ _ _ _

theorem execBlkEnable_keeps (s : State) (a0) (a1) (a2) : Nexts s (execBlkEnable a0 a1 a2 s) := by
  have h := Keeps.refl s
  unfold execBlkEnable
  repeat' first
    | with_reducible assumption | with_reducible apply State.blkEnable_keeps | split
    | with_reducible apply Keeps.next

theorem execRegisterWrite_keeps (s : State) (a0) (a1) (a2) (a3) (a4) (a5) (a6) :
    Nexts s (execRegisterWrite a0 a1 a2 a3 a4 a5 a6 s) := by
  have h := Keeps.refl s
  unfold execRegisterWrite
  repeat' first
    | with_reducible assumption | with_reducible apply State.unmapped_keeps
    | with_reducible apply State.regSend_keeps | ((try lift_lets); intro x; clear_value x) | split
    | with_reducible apply Keeps.next

end Sys2Proof.Machine
end

