-- ==== Sys2Proof/WellFormed.lean ====
section
/-! DEFINITION. Which commands are well-formed: what the operands of a command must satisfy beyond their types. -/

namespace Sys2Proof

/-- Instances of a register block, by its place in the block map (R456). -/
def blkCount (blk : Fin 17) : Nat :=
  if blk.val < 6 then 24 else if blk.val = 6 then 4 else if blk.val = 14 then 2 else 1

/-- Scratchpad lines, accumulator rows (1,024 x array + row), vector lanes (256 x lane + register, a mask m being register
32 + m), loft blocks or scratchpad tags of a memory that an error may lie in (R77, R96, R122, R153). -/
def eccLimit (mem : Nat) : Nat :=
  if mem = 0 ∨ mem = 4 then 49152 else if mem = 1 then 4096 else if mem = 2 then 16384 else 8388608

/-- Errors name one of the protected memories, and a place in it. -/
def eccWf (ecc : List EccHit) : Bool := ecc.all (fun e => decide (e.mem < 5) && decide (e.at_ < eccLimit e.mem) &&
  (e.mem ≠ 2 || decide (e.at_ % 256 < 40)))

/-- Host memory has 64-bit addresses. -/
def hostWf (host : List HostPiece) : Bool := host.all (fun h => decide (h.addr + h.bytes.length ≤ 2 ^ 64))

/-- A register access has at least one byte, and the Tackroom is no PCIe function (R441, R444). -/
def regWf (src : Source) (fn : Fin 9) (len : Fin 4097) : Bool :=
  decide (1 ≤ len.val) && (src ≠ .tackroom || decide (fn.val = 0))

/-- A BAR2 request covers at least one byte, stays in the window, and a write brings that many bytes (R357). -/
def bar2Wf (addr : Fin 68719476736) (wr : Option (List Byte)) (len : Fin 4097) : Bool :=
  decide (1 ≤ len.val) && decide (addr.val + len.val ≤ 68719476736) && wr.all (fun bs => decide (bs.length = len.val))

/-- Every sensor, block or bank is named once. -/
def noRepeat {α β : Type} [DecidableEq α] (l : List (α × β)) : Bool := decide (l.map Prod.fst).Nodup

/-- The check of one command. -/
def Instr.wf : Instr → Bool
  | .add _ _ => true
  | .sub _ _ => true
  | .and _ _ => true
  | .or _ _ => true
  | .xor _ _ => true
  | .sll _ _ => true
  | .srl _ _ => true
  | .sra _ _ => true
  | .slt _ _ => true
  | .sltu _ _ => true
  | .min _ _ => true
  | .max _ _ => true
  | .minu _ _ => true
  | .maxu _ _ => true
  | .mul _ _ => true
  | .mulhu _ _ => true
  | .mulh _ _ => true
  | .divu _ _ => true
  | .remu _ _ => true
  | .addi _ _ => true
  | .andi _ _ => true
  | .ori _ _ => true
  | .xori _ _ => true
  | .slli _ _ => true
  | .srli _ _ => true
  | .srai _ _ => true
  | .shi _ _ => true
  | .ld _ _ => true
  | .ldDataReady _ _ _ => true
  | .st _ _ => true
  | .lds _ _ => true
  | .rdsr _ _ => true
  | .syncrd _ _ => true
  | .syncwr _ _ => true
  | .syncadd _ _ => true
  | .waitc _ _ => true
  | .waitcSatisfied _ _ => true
  | .push _ _ => true
  | .pushResume _ _ => true
  | .loop _ _ => true
  | .loopidx _ _ => true
  | .skipIf _ _ => true
  | .callLib _ _ => true
  | .ret _ _ => true
  | .baseAdd _ _ => true
  | .stepEnd _ _ => true
  | .stepEndResume _ _ => true
  | .nop _ _ => true
  | .illegalInstruction _ _ => true
  | .imemFetchError _ _ _ => true
  | .engineDueBeat _ _ _ => true
  | .nullCommand _ _ _ => true
  | .commandComplete _ _ _ => true
  | .commandLate _ _ _ => true
  | .syncSettle _ => true
  | .dmaRd _ _ ecc => eccWf ecc
  | .dmaWr _ _ ecc => eccWf ecc
  | .dmaLcopy _ _ ecc => eccWf ecc
  | .dmaRds _ _ ecc => eccWf ecc
  | .dmaFill _ _ ecc => eccWf ecc
  | .unsBankAccess _ _ _ => true
  | .spadWriteback _ _ => true
  | .spadScrub _ _ _ _ => true
  | .arrLoad _ _ ecc => eccWf ecc
  | .mma _ _ ecc => eccWf ecc
  | .accDrain _ _ ecc => eccWf ecc
  | .accHostAccess _ _ _ _ _ _ _ => true
  | .vld _ _ ecc => eccWf ecc
  | .vst _ _ ecc => eccWf ecc
  | .vlds _ _ ecc => eccWf ecc
  | .fadd _ _ ecc => eccWf ecc
  | .fsub _ _ ecc => eccWf ecc
  | .fmul _ _ ecc => eccWf ecc
  | .fma _ _ ecc => eccWf ecc
  | .fmin _ _ ecc => eccWf ecc
  | .fmax _ _ ecc => eccWf ecc
  | .fabs _ _ ecc => eccWf ecc
  | .fneg _ _ ecc => eccWf ecc
  | .fdiv _ _ ecc => eccWf ecc
  | .fsqrt _ _ ecc => eccWf ecc
  | .frcp _ _ ecc => eccWf ecc
  | .frsqrt _ _ ecc => eccWf ecc
  | .fexp _ _ ecc => eccWf ecc
  | .flog _ _ ecc => eccWf ecc
  | .ftanh _ _ ecc => eccWf ecc
  | .fsigm _ _ ecc => eccWf ecc
  | .ferf _ _ ecc => eccWf ecc
  | .iadd _ _ ecc => eccWf ecc
  | .isub _ _ ecc => eccWf ecc
  | .imul _ _ ecc => eccWf ecc
  | .imulhu _ _ ecc => eccWf ecc
  | .imin _ _ ecc => eccWf ecc
  | .imax _ _ ecc => eccWf ecc
  | .vecAnd _ _ ecc => eccWf ecc
  | .vecOr _ _ ecc => eccWf ecc
  | .vecXor _ _ ecc => eccWf ecc
  | .shl _ _ ecc => eccWf ecc
  | .shr _ _ ecc => eccWf ecc
  | .vecSra _ _ ecc => eccWf ecc
  | .idiv _ _ ecc => eccWf ecc
  | .irem _ _ ecc => eccWf ecc
  | .idivu _ _ ecc => eccWf ecc
  | .iremu _ _ ecc => eccWf ecc
  | .fcmp _ _ ecc => eccWf ecc
  | .icmp _ _ ecc => eccWf ecc
  | .mlogic _ _ ecc => eccWf ecc
  | .vsel _ _ ecc => eccWf ecc
  | .vmov _ _ ecc => eccWf ecc
  | .vperm _ _ ecc => eccWf ecc
  | .vlane _ _ ecc => eccWf ecc
  | .cvtP _ _ ecc => eccWf ecc
  | .cvtU _ _ ecc => eccWf ecc
  | .ftoi _ _ ecc => eccWf ecc
  | .itof _ _ ecc => eccWf ecc
  | .rsum _ _ ecc => eccWf ecc
  | .rmax _ _ ecc => eccWf ecc
  | .rmin _ _ ecc => eccWf ecc
  | .rargmax _ _ ecc => eccWf ecc
  | .tred _ _ ecc => eccWf ecc
  | .tscan _ _ ecc => eccWf ecc
  | .lftVec _ _ ecc => eccWf ecc
  | .lftMv _ _ ecc => eccWf ecc
  | .lftPwr _ _ ecc => eccWf ecc
  | .bankDrainDone _ _ => true
  | .bankWakeDone _ _ => true
  | .bankRefresh _ _ => true
  | .timerRefresh _ _ => true
  | .unsLoftAccess _ _ _ => true
  | .loftScrub _ _ _ => true
  | .blockReread _ _ => true
  | .resendSlotGrant _ => true
  | .blockResent _ => true
  | .loftWritebackVerify _ _ => true
  | .netSend _ _ ecc => eccWf ecc
  | .netSlot _ _ ecc => eccWf ecc
  | .netSig _ _ ecc => eccWf ecc
  | .unsPacketPerform _ => true
  | .unsFlitCredit _ _ => true
  | .hopResend _ _ => true
  | .regRd src fn _ len _ _ => regWf src fn len
  | .regWr _ _ _ _ => true
  | .regRsp _ _ => true
  | .syncAdd _ _ => true
  | .gateVal _ _ => true
  | .wrDone _ _ => true
  | .jobCtlWindow _ => true
  | .jobCtlBase _ => true
  | .jobCtlSuspend _ => true
  | .jobCtlHalt _ => true
  | .errRec _ => true
  | .ctrlLoftReq _ => true
  | .reservedCtrlType _ => true
  | .portEnable _ => true
  | .portDisable _ => true
  | .portRetrain _ => true
  | .detectDone _ => true
  | .equaliseEnd _ _ => true
  | .alignEnd _ _ => true
  | .cap _ _ => true
  | .capTimeout _ => true
  | .downTimeout _ => true
  | .retrainTimeout _ => true
  | .laneFail _ _ => true
  | .flitSlot _ => true
  | .data _ _ => true
  | .idle _ _ => true
  | .bypass _ _ => true
  | .badFlit _ _ => true
  | .nakRenew _ => true
  | .replayTimer _ => true
  | .linkSilence _ => true
  | .linkNotice _ => true
  | .fecInterval _ => true
  | .timeExchangeStart _ => true
  | .timeReq _ => true
  | .timeRsp _ => true
  | .timeFollow _ => true
  | .timeExchangeAbandon _ => true
  | .routeNotice _ => true
  | .yokeHb _ => true
  | .transitForward _ _ => true
  | .sealSlice => true
  | .write _ => true
  | .readReq _ => true
  | .readRsp _ => true
  | .ack _ => true
  | .ackTimer _ _ => true
  | .resendTimer _ _ => true
  | .downHoldExpiry _ => true
  | .routeFail _ => true
  | .planSwitch _ => true
  | .planSwitchBeat _ => true
  | .fabJobCtlGo _ _ _ => true
  | .fabTblWrite _ => true
  | .compositionPoint _ host => hostWf host
  | .idlePoll _ host => hostWf host
  | .stepDescriptorArrival _ => true
  | .suspendBeat _ => true
  | .haltNote _ => true
  | .halt _ => true
  | .suspend _ => true
  | .kvLost _ => true
  | .jobHaltBoundary _ _ => true
  | .jobQuiescentSave _ _ _ => true
  | .digestRead _ => true
  | .digest _ => true
  | .mismatchNote _ => true
  | .loftReq _ _ => true
  | .loftReqDeferredServe _ => true
  | .loftNak _ => true
  | .journal _ => true
  | .yokeHalt _ => true
  | .reyokeEnd _ _ => true
  | .yokeReady _ => true
  | .forkReady _ => true
  | .precopyPassEnd _ => true
  | .keep _ => true
  | .drop _ => true
  | .reyoke _ => true
  | .abandon _ => true
  | .reyokeAbandoned _ => true
  | .yokeEnable => true
  | .yokeFormed => true
  | .yokeFormTimeout => true
  | .heartbeatSend => true
  | .yokeHbInPulse _ => true
  | .hbPathTimeout _ => true
  | .yokeCut => true
  | .deviceRingPoll _ host => hostWf host
  | .loadDone _ host _ _ => hostWf host
  | .copyComplete _ host => hostWf host
  | .shardVerified _ host => hostWf host
  | .commit _ => true
  | .commitReceived _ => true
  | .deployTimeout _ _ => true
  | .adapterNotice _ => true
  | .teardownRevoke _ => true
  | .teardownDrainEnd _ => true
  | .teardownScrubDone _ _ => true
  | .barnClearDone _ _ => true
  | .hostLinkDown _ => true
  | .hostLinkUp _ _ _ _ _ => true
  | .perstAssert _ => true
  | .perstDeassert _ => true
  | .ideFault _ => true
  | .bar2Access _ addr wr len _ => bar2Wf addr wr len
  | .ringStallTimeout _ _ => true
  | .msiXFire _ fn vec _ => decide (fn.val = 0 ∨ vec.val = 0)
  | .getVersion _ req => decide (4 ≤ req.length)
  | .getCapabilities _ req => decide (4 ≤ req.length)
  | .negotiateAlgorithms _ req _ => decide (4 ≤ req.length)
  | .getDigests _ req => decide (4 ≤ req.length)
  | .getCertificate _ req => decide (4 ≤ req.length)
  | .challenge _ req => decide (4 ≤ req.length)
  | .getMeasurements _ req => decide (4 ≤ req.length)
  | .keyExchange _ req => decide (4 ≤ req.length)
  | .finish _ req => decide (4 ≤ req.length)
  | .endSession _ req => decide (4 ≤ req.length)
  | .spdmUnsupported _ req => decide (4 ≤ req.length)
  | .ideKm _ _ => true
  | .mbxGo _ _ => true
  | .pldmRequest _ _ msg _ _ => decide (msg ≠ [])
  | .larkspurEntry => true
  | .logCopy => true
  | .errConsumerWrite _ => true
  | .stepTick => true
  | .stepApply => true
  | .stimeSet _ _ => true
  | .stimeNsRead _ => true
  | .throttleAssert => true
  | .throttleDeassert => true
  | .throttleStuck => true
  | .thermalGuardTick => true
  | .refclkLost => true
  | .refclkRestored => true
  | .ppsPulse _ => true
  | .ppsFault => true
  | .localTimeSync => true
  | .launchTimeReached _ => true
  | .skewWaitRelease _ => true
  | .handshakeLate r nb => decide (r ≠ nb)
  | .holdSpread _ => true
  | .holdRelease _ => true
  | .holdTimeout _ => true
  | .cfgCrcCheck blk i _ => decide (i.val < blkCount blk)
  | .blkEnable blk i _ => decide (i.val < blkCount blk)
  | .signerLock => true
  | .lspRun _ => true
  | .registerWrite src fn _ len _ _ _ => regWf src fn len
  | .sensorSample temps volts power => noRepeat temps && noRepeat volts && noRepeat power
  | .railFault => true
  | .policyTick => true
  | .lockstepMismatch => true
  | .watchdogExpiry => true
  | .fwRestartDone _ _ _ _ lib flash => noRepeat flash && decide (lib.length ≤ 262144)
  | .pwrGoodRise => true
  | .pwrGoodFall => true
  | .vtckBrownout => true
  | .sysResetAssert => true
  | .sysResetDeassert => true
  | .loftTestDone _ _ => true
  | .fwVerifyDone _ _ _ _ lib flash => noRepeat flash && decide (lib.length ≤ 262144)
  | .ppsExpectedSecond => true
  | .malformedFabricPacket _ _ => true

end Sys2Proof
end

