-- ==== Sys2Proof/Laws/PerInstr.lean ====
section
/-! SUPPORT. What the check of a command says of its operands, command by command: the errors that it names lie in one of the
four protected memories (R80, R96, R122, R153), and the host memory that it brings has 64-bit addresses. -/

namespace Sys2Proof.Laws.Operands

/-- The errors that a command's operands name. -/
def eccs : Instr → List EccHit
  | .dmaRd _ _ ecc => ecc
  | .dmaWr _ _ ecc => ecc
  | .dmaLcopy _ _ ecc => ecc
  | .dmaRds _ _ ecc => ecc
  | .dmaFill _ _ ecc => ecc
  | .arrLoad _ _ ecc => ecc
  | .mma _ _ ecc => ecc
  | .accDrain _ _ ecc => ecc
  | .vld _ _ ecc => ecc
  | .vst _ _ ecc => ecc
  | .vlds _ _ ecc => ecc
  | .fadd _ _ ecc => ecc
  | .fsub _ _ ecc => ecc
  | .fmul _ _ ecc => ecc
  | .fma _ _ ecc => ecc
  | .fmin _ _ ecc => ecc
  | .fmax _ _ ecc => ecc
  | .fabs _ _ ecc => ecc
  | .fneg _ _ ecc => ecc
  | .fdiv _ _ ecc => ecc
  | .fsqrt _ _ ecc => ecc
  | .frcp _ _ ecc => ecc
  | .frsqrt _ _ ecc => ecc
  | .fexp _ _ ecc => ecc
  | .flog _ _ ecc => ecc
  | .ftanh _ _ ecc => ecc
  | .fsigm _ _ ecc => ecc
  | .ferf _ _ ecc => ecc
  | .iadd _ _ ecc => ecc
  | .isub _ _ ecc => ecc
  | .imul _ _ ecc => ecc
  | .imulhu _ _ ecc => ecc
  | .imin _ _ ecc => ecc
  | .imax _ _ ecc => ecc
  | .vecAnd _ _ ecc => ecc
  | .vecOr _ _ ecc => ecc
  | .vecXor _ _ ecc => ecc
  | .shl _ _ ecc => ecc
  | .shr _ _ ecc => ecc
  | .vecSra _ _ ecc => ecc
  | .idiv _ _ ecc => ecc
  | .irem _ _ ecc => ecc
  | .idivu _ _ ecc => ecc
  | .iremu _ _ ecc => ecc
  | .fcmp _ _ ecc => ecc
  | .icmp _ _ ecc => ecc
  | .mlogic _ _ ecc => ecc
  | .vsel _ _ ecc => ecc
  | .vmov _ _ ecc => ecc
  | .vperm _ _ ecc => ecc
  | .vlane _ _ ecc => ecc
  | .cvtP _ _ ecc => ecc
  | .cvtU _ _ ecc => ecc
  | .ftoi _ _ ecc => ecc
  | .itof _ _ ecc => ecc
  | .rsum _ _ ecc => ecc
  | .rmax _ _ ecc => ecc
  | .rmin _ _ ecc => ecc
  | .rargmax _ _ ecc => ecc
  | .tred _ _ ecc => ecc
  | .tscan _ _ ecc => ecc
  | .lftVec _ _ ecc => ecc
  | .lftMv _ _ ecc => ecc
  | .lftPwr _ _ ecc => ecc
  | .netSend _ _ ecc => ecc
  | .netSlot _ _ ecc => ecc
  | .netSig _ _ ecc => ecc
  | _ => []

/-- The host memory that a command's operands bring. -/
def pieces : Instr → List HostPiece
  | .compositionPoint _ host => host
  | .idlePoll _ host => host
  | .deviceRingPoll _ host => host
  | .loadDone _ host _ _ => host
  | .copyComplete _ host => host
  | .shardVerified _ host => host
  | _ => []

/-- A well-formed command names errors in the protected memories, and host memory with 64-bit addresses. -/
def Statement (i : Instr) : Prop :=
  i.wf = true → (∀ e ∈ eccs i, e.mem < 5 ∧ e.at_ < eccLimit e.mem) ∧ (∀ h ∈ pieces i, h.addr + h.bytes.length ≤ 2 ^ 64)

theorem of_ecc {l : List EccHit} (h : eccWf l = true) (e : EccHit) (m : e ∈ l) : e.mem < 5 ∧ e.at_ < eccLimit e.mem := by
  have k := List.all_eq_true.mp h e m
  simp only [Bool.and_eq_true, decide_eq_true_eq] at k
  exact k.1

theorem of_host {l : List HostPiece} (h : hostWf l = true) (p : HostPiece) (m : p ∈ l) : p.addr + p.bytes.length ≤ 2 ^ 64 := by
  have k := List.all_eq_true.mp h p m
  simpa using k

theorem no_ecc (e : EccHit) (m : e ∈ []) : e.mem < 5 ∧ e.at_ < eccLimit e.mem := absurd m List.not_mem_nil

theorem no_host (p : HostPiece) (m : p ∈ []) : p.addr + p.bytes.length ≤ 2 ^ 64 := absurd m List.not_mem_nil

theorem add a0 a1 : Statement (.add a0 a1) := fun _ => ⟨no_ecc, no_host⟩
theorem sub a0 a1 : Statement (.sub a0 a1) := fun _ => ⟨no_ecc, no_host⟩
theorem and a0 a1 : Statement (.and a0 a1) := fun _ => ⟨no_ecc, no_host⟩
theorem or a0 a1 : Statement (.or a0 a1) := fun _ => ⟨no_ecc, no_host⟩
theorem xor a0 a1 : Statement (.xor a0 a1) := fun _ => ⟨no_ecc, no_host⟩
theorem sll a0 a1 : Statement (.sll a0 a1) := fun _ => ⟨no_ecc, no_host⟩
theorem srl a0 a1 : Statement (.srl a0 a1) := fun _ => ⟨no_ecc, no_host⟩
theorem sra a0 a1 : Statement (.sra a0 a1) := fun _ => ⟨no_ecc, no_host⟩
theorem slt a0 a1 : Statement (.slt a0 a1) := fun _ => ⟨no_ecc, no_host⟩
theorem sltu a0 a1 : Statement (.sltu a0 a1) := fun _ => ⟨no_ecc, no_host⟩
theorem min a0 a1 : Statement (.min a0 a1) := fun _ => ⟨no_ecc, no_host⟩
theorem max a0 a1 : Statement (.max a0 a1) := fun _ => ⟨no_ecc, no_host⟩
theorem minu a0 a1 : Statement (.minu a0 a1) := fun _ => ⟨no_ecc, no_host⟩
theorem maxu a0 a1 : Statement (.maxu a0 a1) := fun _ => ⟨no_ecc, no_host⟩
theorem mul a0 a1 : Statement (.mul a0 a1) := fun _ => ⟨no_ecc, no_host⟩
theorem mulhu a0 a1 : Statement (.mulhu a0 a1) := fun _ => ⟨no_ecc, no_host⟩
theorem mulh a0 a1 : Statement (.mulh a0 a1) := fun _ => ⟨no_ecc, no_host⟩
theorem divu a0 a1 : Statement (.divu a0 a1) := fun _ => ⟨no_ecc, no_host⟩
theorem remu a0 a1 : Statement (.remu a0 a1) := fun _ => ⟨no_ecc, no_host⟩
theorem addi a0 a1 : Statement (.addi a0 a1) := fun _ => ⟨no_ecc, no_host⟩
theorem andi a0 a1 : Statement (.andi a0 a1) := fun _ => ⟨no_ecc, no_host⟩
theorem ori a0 a1 : Statement (.ori a0 a1) := fun _ => ⟨no_ecc, no_host⟩
theorem xori a0 a1 : Statement (.xori a0 a1) := fun _ => ⟨no_ecc, no_host⟩
theorem slli a0 a1 : Statement (.slli a0 a1) := fun _ => ⟨no_ecc, no_host⟩
theorem srli a0 a1 : Statement (.srli a0 a1) := fun _ => ⟨no_ecc, no_host⟩
theorem srai a0 a1 : Statement (.srai a0 a1) := fun _ => ⟨no_ecc, no_host⟩
theorem shi a0 a1 : Statement (.shi a0 a1) := fun _ => ⟨no_ecc, no_host⟩
theorem ld a0 a1 : Statement (.ld a0 a1) := fun _ => ⟨no_ecc, no_host⟩
theorem ldDataReady a0 a1 a2 : Statement (.ldDataReady a0 a1 a2) := fun _ => ⟨no_ecc, no_host⟩
theorem st a0 a1 : Statement (.st a0 a1) := fun _ => ⟨no_ecc, no_host⟩
theorem lds a0 a1 : Statement (.lds a0 a1) := fun _ => ⟨no_ecc, no_host⟩
theorem rdsr a0 a1 : Statement (.rdsr a0 a1) := fun _ => ⟨no_ecc, no_host⟩
theorem syncrd a0 a1 : Statement (.syncrd a0 a1) := fun _ => ⟨no_ecc, no_host⟩
theorem syncwr a0 a1 : Statement (.syncwr a0 a1) := fun _ => ⟨no_ecc, no_host⟩
theorem syncadd a0 a1 : Statement (.syncadd a0 a1) := fun _ => ⟨no_ecc, no_host⟩
theorem waitc a0 a1 : Statement (.waitc a0 a1) := fun _ => ⟨no_ecc, no_host⟩
theorem waitcSatisfied a0 a1 : Statement (.waitcSatisfied a0 a1) := fun _ => ⟨no_ecc, no_host⟩
theorem push a0 a1 : Statement (.push a0 a1) := fun _ => ⟨no_ecc, no_host⟩
theorem pushResume a0 a1 : Statement (.pushResume a0 a1) := fun _ => ⟨no_ecc, no_host⟩
theorem loop a0 a1 : Statement (.loop a0 a1) := fun _ => ⟨no_ecc, no_host⟩
theorem loopidx a0 a1 : Statement (.loopidx a0 a1) := fun _ => ⟨no_ecc, no_host⟩
theorem skipIf a0 a1 : Statement (.skipIf a0 a1) := fun _ => ⟨no_ecc, no_host⟩
theorem callLib a0 a1 : Statement (.callLib a0 a1) := fun _ => ⟨no_ecc, no_host⟩
theorem ret a0 a1 : Statement (.ret a0 a1) := fun _ => ⟨no_ecc, no_host⟩
theorem baseAdd a0 a1 : Statement (.baseAdd a0 a1) := fun _ => ⟨no_ecc, no_host⟩
theorem stepEnd a0 a1 : Statement (.stepEnd a0 a1) := fun _ => ⟨no_ecc, no_host⟩
theorem stepEndResume a0 a1 : Statement (.stepEndResume a0 a1) := fun _ => ⟨no_ecc, no_host⟩
theorem nop a0 a1 : Statement (.nop a0 a1) := fun _ => ⟨no_ecc, no_host⟩
theorem illegalInstruction a0 a1 : Statement (.illegalInstruction a0 a1) := fun _ => ⟨no_ecc, no_host⟩
theorem imemFetchError a0 a1 a2 : Statement (.imemFetchError a0 a1 a2) := fun _ => ⟨no_ecc, no_host⟩
theorem engineDueBeat a0 a1 a2 : Statement (.engineDueBeat a0 a1 a2) := fun _ => ⟨no_ecc, no_host⟩
theorem nullCommand a0 a1 a2 : Statement (.nullCommand a0 a1 a2) := fun _ => ⟨no_ecc, no_host⟩
theorem commandComplete a0 a1 a2 : Statement (.commandComplete a0 a1 a2) := fun _ => ⟨no_ecc, no_host⟩
theorem commandLate a0 a1 a2 : Statement (.commandLate a0 a1 a2) := fun _ => ⟨no_ecc, no_host⟩
theorem syncSettle a0 : Statement (.syncSettle a0) := fun _ => ⟨no_ecc, no_host⟩
theorem dmaRd a0 a1 a2 : Statement (.dmaRd a0 a1 a2) := fun h => ⟨of_ecc h, no_host⟩
theorem dmaWr a0 a1 a2 : Statement (.dmaWr a0 a1 a2) := fun h => ⟨of_ecc h, no_host⟩
theorem dmaLcopy a0 a1 a2 : Statement (.dmaLcopy a0 a1 a2) := fun h => ⟨of_ecc h, no_host⟩
theorem dmaRds a0 a1 a2 : Statement (.dmaRds a0 a1 a2) := fun h => ⟨of_ecc h, no_host⟩
theorem dmaFill a0 a1 a2 : Statement (.dmaFill a0 a1 a2) := fun h => ⟨of_ecc h, no_host⟩
theorem unsBankAccess a0 a1 a2 : Statement (.unsBankAccess a0 a1 a2) := fun _ => ⟨no_ecc, no_host⟩
theorem spadWriteback a0 a1 : Statement (.spadWriteback a0 a1) := fun _ => ⟨no_ecc, no_host⟩
theorem spadScrub a0 a1 a2 a3 : Statement (.spadScrub a0 a1 a2 a3) := fun _ => ⟨no_ecc, no_host⟩
theorem arrLoad a0 a1 a2 : Statement (.arrLoad a0 a1 a2) := fun h => ⟨of_ecc h, no_host⟩
theorem mma a0 a1 a2 : Statement (.mma a0 a1 a2) := fun h => ⟨of_ecc h, no_host⟩
theorem accDrain a0 a1 a2 : Statement (.accDrain a0 a1 a2) := fun h => ⟨of_ecc h, no_host⟩
theorem accHostAccess a0 a1 a2 a3 a4 a5 a6 : Statement (.accHostAccess a0 a1 a2 a3 a4 a5 a6) := fun _ => ⟨no_ecc, no_host⟩
theorem vld a0 a1 a2 : Statement (.vld a0 a1 a2) := fun h => ⟨of_ecc h, no_host⟩
theorem vst a0 a1 a2 : Statement (.vst a0 a1 a2) := fun h => ⟨of_ecc h, no_host⟩
theorem vlds a0 a1 a2 : Statement (.vlds a0 a1 a2) := fun h => ⟨of_ecc h, no_host⟩
theorem fadd a0 a1 a2 : Statement (.fadd a0 a1 a2) := fun h => ⟨of_ecc h, no_host⟩
theorem fsub a0 a1 a2 : Statement (.fsub a0 a1 a2) := fun h => ⟨of_ecc h, no_host⟩
theorem fmul a0 a1 a2 : Statement (.fmul a0 a1 a2) := fun h => ⟨of_ecc h, no_host⟩
theorem fma a0 a1 a2 : Statement (.fma a0 a1 a2) := fun h => ⟨of_ecc h, no_host⟩
theorem fmin a0 a1 a2 : Statement (.fmin a0 a1 a2) := fun h => ⟨of_ecc h, no_host⟩
theorem fmax a0 a1 a2 : Statement (.fmax a0 a1 a2) := fun h => ⟨of_ecc h, no_host⟩
theorem fabs a0 a1 a2 : Statement (.fabs a0 a1 a2) := fun h => ⟨of_ecc h, no_host⟩
theorem fneg a0 a1 a2 : Statement (.fneg a0 a1 a2) := fun h => ⟨of_ecc h, no_host⟩
theorem fdiv a0 a1 a2 : Statement (.fdiv a0 a1 a2) := fun h => ⟨of_ecc h, no_host⟩
theorem fsqrt a0 a1 a2 : Statement (.fsqrt a0 a1 a2) := fun h => ⟨of_ecc h, no_host⟩
theorem frcp a0 a1 a2 : Statement (.frcp a0 a1 a2) := fun h => ⟨of_ecc h, no_host⟩
theorem frsqrt a0 a1 a2 : Statement (.frsqrt a0 a1 a2) := fun h => ⟨of_ecc h, no_host⟩
theorem fexp a0 a1 a2 : Statement (.fexp a0 a1 a2) := fun h => ⟨of_ecc h, no_host⟩
theorem flog a0 a1 a2 : Statement (.flog a0 a1 a2) := fun h => ⟨of_ecc h, no_host⟩
theorem ftanh a0 a1 a2 : Statement (.ftanh a0 a1 a2) := fun h => ⟨of_ecc h, no_host⟩
theorem fsigm a0 a1 a2 : Statement (.fsigm a0 a1 a2) := fun h => ⟨of_ecc h, no_host⟩
theorem ferf a0 a1 a2 : Statement (.ferf a0 a1 a2) := fun h => ⟨of_ecc h, no_host⟩
theorem iadd a0 a1 a2 : Statement (.iadd a0 a1 a2) := fun h => ⟨of_ecc h, no_host⟩
theorem isub a0 a1 a2 : Statement (.isub a0 a1 a2) := fun h => ⟨of_ecc h, no_host⟩
theorem imul a0 a1 a2 : Statement (.imul a0 a1 a2) := fun h => ⟨of_ecc h, no_host⟩
theorem imulhu a0 a1 a2 : Statement (.imulhu a0 a1 a2) := fun h => ⟨of_ecc h, no_host⟩
theorem imin a0 a1 a2 : Statement (.imin a0 a1 a2) := fun h => ⟨of_ecc h, no_host⟩
theorem imax a0 a1 a2 : Statement (.imax a0 a1 a2) := fun h => ⟨of_ecc h, no_host⟩
theorem vecAnd a0 a1 a2 : Statement (.vecAnd a0 a1 a2) := fun h => ⟨of_ecc h, no_host⟩
theorem vecOr a0 a1 a2 : Statement (.vecOr a0 a1 a2) := fun h => ⟨of_ecc h, no_host⟩
theorem vecXor a0 a1 a2 : Statement (.vecXor a0 a1 a2) := fun h => ⟨of_ecc h, no_host⟩
theorem shl a0 a1 a2 : Statement (.shl a0 a1 a2) := fun h => ⟨of_ecc h, no_host⟩
theorem shr a0 a1 a2 : Statement (.shr a0 a1 a2) := fun h => ⟨of_ecc h, no_host⟩
theorem vecSra a0 a1 a2 : Statement (.vecSra a0 a1 a2) := fun h => ⟨of_ecc h, no_host⟩
theorem idiv a0 a1 a2 : Statement (.idiv a0 a1 a2) := fun h => ⟨of_ecc h, no_host⟩
theorem irem a0 a1 a2 : Statement (.irem a0 a1 a2) := fun h => ⟨of_ecc h, no_host⟩
theorem idivu a0 a1 a2 : Statement (.idivu a0 a1 a2) := fun h => ⟨of_ecc h, no_host⟩
theorem iremu a0 a1 a2 : Statement (.iremu a0 a1 a2) := fun h => ⟨of_ecc h, no_host⟩
theorem fcmp a0 a1 a2 : Statement (.fcmp a0 a1 a2) := fun h => ⟨of_ecc h, no_host⟩
theorem icmp a0 a1 a2 : Statement (.icmp a0 a1 a2) := fun h => ⟨of_ecc h, no_host⟩
theorem mlogic a0 a1 a2 : Statement (.mlogic a0 a1 a2) := fun h => ⟨of_ecc h, no_host⟩
theorem vsel a0 a1 a2 : Statement (.vsel a0 a1 a2) := fun h => ⟨of_ecc h, no_host⟩
theorem vmov a0 a1 a2 : Statement (.vmov a0 a1 a2) := fun h => ⟨of_ecc h, no_host⟩
theorem vperm a0 a1 a2 : Statement (.vperm a0 a1 a2) := fun h => ⟨of_ecc h, no_host⟩
theorem vlane a0 a1 a2 : Statement (.vlane a0 a1 a2) := fun h => ⟨of_ecc h, no_host⟩
theorem cvtP a0 a1 a2 : Statement (.cvtP a0 a1 a2) := fun h => ⟨of_ecc h, no_host⟩
theorem cvtU a0 a1 a2 : Statement (.cvtU a0 a1 a2) := fun h => ⟨of_ecc h, no_host⟩
theorem ftoi a0 a1 a2 : Statement (.ftoi a0 a1 a2) := fun h => ⟨of_ecc h, no_host⟩
theorem itof a0 a1 a2 : Statement (.itof a0 a1 a2) := fun h => ⟨of_ecc h, no_host⟩
theorem rsum a0 a1 a2 : Statement (.rsum a0 a1 a2) := fun h => ⟨of_ecc h, no_host⟩
theorem rmax a0 a1 a2 : Statement (.rmax a0 a1 a2) := fun h => ⟨of_ecc h, no_host⟩
theorem rmin a0 a1 a2 : Statement (.rmin a0 a1 a2) := fun h => ⟨of_ecc h, no_host⟩
theorem rargmax a0 a1 a2 : Statement (.rargmax a0 a1 a2) := fun h => ⟨of_ecc h, no_host⟩
theorem tred a0 a1 a2 : Statement (.tred a0 a1 a2) := fun h => ⟨of_ecc h, no_host⟩
theorem tscan a0 a1 a2 : Statement (.tscan a0 a1 a2) := fun h => ⟨of_ecc h, no_host⟩
theorem lftVec a0 a1 a2 : Statement (.lftVec a0 a1 a2) := fun h => ⟨of_ecc h, no_host⟩
theorem lftMv a0 a1 a2 : Statement (.lftMv a0 a1 a2) := fun h => ⟨of_ecc h, no_host⟩
theorem lftPwr a0 a1 a2 : Statement (.lftPwr a0 a1 a2) := fun h => ⟨of_ecc h, no_host⟩
theorem bankDrainDone a0 a1 : Statement (.bankDrainDone a0 a1) := fun _ => ⟨no_ecc, no_host⟩
theorem bankWakeDone a0 a1 : Statement (.bankWakeDone a0 a1) := fun _ => ⟨no_ecc, no_host⟩
theorem bankRefresh a0 a1 : Statement (.bankRefresh a0 a1) := fun _ => ⟨no_ecc, no_host⟩
theorem timerRefresh a0 a1 : Statement (.timerRefresh a0 a1) := fun _ => ⟨no_ecc, no_host⟩
theorem unsLoftAccess a0 a1 a2 : Statement (.unsLoftAccess a0 a1 a2) := fun _ => ⟨no_ecc, no_host⟩
theorem loftScrub a0 a1 a2 : Statement (.loftScrub a0 a1 a2) := fun _ => ⟨no_ecc, no_host⟩
theorem blockReread a0 a1 : Statement (.blockReread a0 a1) := fun _ => ⟨no_ecc, no_host⟩
theorem resendSlotGrant a0 : Statement (.resendSlotGrant a0) := fun _ => ⟨no_ecc, no_host⟩
theorem blockResent a0 : Statement (.blockResent a0) := fun _ => ⟨no_ecc, no_host⟩
theorem loftWritebackVerify a0 a1 : Statement (.loftWritebackVerify a0 a1) := fun _ => ⟨no_ecc, no_host⟩
theorem netSend a0 a1 a2 : Statement (.netSend a0 a1 a2) := fun h => ⟨of_ecc h, no_host⟩
theorem netSlot a0 a1 a2 : Statement (.netSlot a0 a1 a2) := fun h => ⟨of_ecc h, no_host⟩
theorem netSig a0 a1 a2 : Statement (.netSig a0 a1 a2) := fun h => ⟨of_ecc h, no_host⟩
theorem unsPacketPerform a0 : Statement (.unsPacketPerform a0) := fun _ => ⟨no_ecc, no_host⟩
theorem unsFlitCredit a0 a1 : Statement (.unsFlitCredit a0 a1) := fun _ => ⟨no_ecc, no_host⟩
theorem hopResend a0 a1 : Statement (.hopResend a0 a1) := fun _ => ⟨no_ecc, no_host⟩
theorem regRd a0 a1 a2 a3 a4 a5 : Statement (.regRd a0 a1 a2 a3 a4 a5) := fun _ => ⟨no_ecc, no_host⟩
theorem regWr a0 a1 a2 a3 : Statement (.regWr a0 a1 a2 a3) := fun _ => ⟨no_ecc, no_host⟩
theorem regRsp a0 a1 : Statement (.regRsp a0 a1) := fun _ => ⟨no_ecc, no_host⟩
theorem syncAdd a0 a1 : Statement (.syncAdd a0 a1) := fun _ => ⟨no_ecc, no_host⟩
theorem gateVal a0 a1 : Statement (.gateVal a0 a1) := fun _ => ⟨no_ecc, no_host⟩
theorem wrDone a0 a1 : Statement (.wrDone a0 a1) := fun _ => ⟨no_ecc, no_host⟩
theorem jobCtlWindow a0 : Statement (.jobCtlWindow a0) := fun _ => ⟨no_ecc, no_host⟩
theorem jobCtlBase a0 : Statement (.jobCtlBase a0) := fun _ => ⟨no_ecc, no_host⟩
theorem jobCtlSuspend a0 : Statement (.jobCtlSuspend a0) := fun _ => ⟨no_ecc, no_host⟩
theorem jobCtlHalt a0 : Statement (.jobCtlHalt a0) := fun _ => ⟨no_ecc, no_host⟩
theorem errRec a0 : Statement (.errRec a0) := fun _ => ⟨no_ecc, no_host⟩
theorem ctrlLoftReq a0 : Statement (.ctrlLoftReq a0) := fun _ => ⟨no_ecc, no_host⟩
theorem reservedCtrlType a0 : Statement (.reservedCtrlType a0) := fun _ => ⟨no_ecc, no_host⟩
theorem portEnable a0 : Statement (.portEnable a0) := fun _ => ⟨no_ecc, no_host⟩
theorem portDisable a0 : Statement (.portDisable a0) := fun _ => ⟨no_ecc, no_host⟩
theorem portRetrain a0 : Statement (.portRetrain a0) := fun _ => ⟨no_ecc, no_host⟩
theorem detectDone a0 : Statement (.detectDone a0) := fun _ => ⟨no_ecc, no_host⟩
theorem equaliseEnd a0 a1 : Statement (.equaliseEnd a0 a1) := fun _ => ⟨no_ecc, no_host⟩
theorem alignEnd a0 a1 : Statement (.alignEnd a0 a1) := fun _ => ⟨no_ecc, no_host⟩
theorem cap a0 a1 : Statement (.cap a0 a1) := fun _ => ⟨no_ecc, no_host⟩
theorem capTimeout a0 : Statement (.capTimeout a0) := fun _ => ⟨no_ecc, no_host⟩
theorem downTimeout a0 : Statement (.downTimeout a0) := fun _ => ⟨no_ecc, no_host⟩
theorem retrainTimeout a0 : Statement (.retrainTimeout a0) := fun _ => ⟨no_ecc, no_host⟩
theorem laneFail a0 a1 : Statement (.laneFail a0 a1) := fun _ => ⟨no_ecc, no_host⟩
theorem flitSlot a0 : Statement (.flitSlot a0) := fun _ => ⟨no_ecc, no_host⟩
theorem data a0 a1 : Statement (.data a0 a1) := fun _ => ⟨no_ecc, no_host⟩
theorem idle a0 a1 : Statement (.idle a0 a1) := fun _ => ⟨no_ecc, no_host⟩
theorem bypass a0 a1 : Statement (.bypass a0 a1) := fun _ => ⟨no_ecc, no_host⟩
theorem badFlit a0 a1 : Statement (.badFlit a0 a1) := fun _ => ⟨no_ecc, no_host⟩
theorem nakRenew a0 : Statement (.nakRenew a0) := fun _ => ⟨no_ecc, no_host⟩
theorem replayTimer a0 : Statement (.replayTimer a0) := fun _ => ⟨no_ecc, no_host⟩
theorem linkSilence a0 : Statement (.linkSilence a0) := fun _ => ⟨no_ecc, no_host⟩
theorem linkNotice a0 : Statement (.linkNotice a0) := fun _ => ⟨no_ecc, no_host⟩
theorem fecInterval a0 : Statement (.fecInterval a0) := fun _ => ⟨no_ecc, no_host⟩
theorem timeExchangeStart a0 : Statement (.timeExchangeStart a0) := fun _ => ⟨no_ecc, no_host⟩
theorem timeReq a0 : Statement (.timeReq a0) := fun _ => ⟨no_ecc, no_host⟩
theorem timeRsp a0 : Statement (.timeRsp a0) := fun _ => ⟨no_ecc, no_host⟩
theorem timeFollow a0 : Statement (.timeFollow a0) := fun _ => ⟨no_ecc, no_host⟩
theorem timeExchangeAbandon a0 : Statement (.timeExchangeAbandon a0) := fun _ => ⟨no_ecc, no_host⟩
theorem routeNotice a0 : Statement (.routeNotice a0) := fun _ => ⟨no_ecc, no_host⟩
theorem yokeHb a0 : Statement (.yokeHb a0) := fun _ => ⟨no_ecc, no_host⟩
theorem transitForward a0 a1 : Statement (.transitForward a0 a1) := fun _ => ⟨no_ecc, no_host⟩
theorem sealSlice : Statement .sealSlice := fun _ => ⟨no_ecc, no_host⟩
theorem write a0 : Statement (.write a0) := fun _ => ⟨no_ecc, no_host⟩
theorem readReq a0 : Statement (.readReq a0) := fun _ => ⟨no_ecc, no_host⟩
theorem readRsp a0 : Statement (.readRsp a0) := fun _ => ⟨no_ecc, no_host⟩
theorem ack a0 : Statement (.ack a0) := fun _ => ⟨no_ecc, no_host⟩
theorem ackTimer a0 a1 : Statement (.ackTimer a0 a1) := fun _ => ⟨no_ecc, no_host⟩
theorem resendTimer a0 a1 : Statement (.resendTimer a0 a1) := fun _ => ⟨no_ecc, no_host⟩
theorem downHoldExpiry a0 : Statement (.downHoldExpiry a0) := fun _ => ⟨no_ecc, no_host⟩
theorem routeFail a0 : Statement (.routeFail a0) := fun _ => ⟨no_ecc, no_host⟩
theorem planSwitch a0 : Statement (.planSwitch a0) := fun _ => ⟨no_ecc, no_host⟩
theorem planSwitchBeat a0 : Statement (.planSwitchBeat a0) := fun _ => ⟨no_ecc, no_host⟩
theorem fabJobCtlGo a0 a1 a2 : Statement (.fabJobCtlGo a0 a1 a2) := fun _ => ⟨no_ecc, no_host⟩
theorem fabTblWrite a0 : Statement (.fabTblWrite a0) := fun _ => ⟨no_ecc, no_host⟩
theorem compositionPoint a0 a1 : Statement (.compositionPoint a0 a1) := fun h => ⟨no_ecc, of_host h⟩
theorem idlePoll a0 a1 : Statement (.idlePoll a0 a1) := fun h => ⟨no_ecc, of_host h⟩
theorem stepDescriptorArrival a0 : Statement (.stepDescriptorArrival a0) := fun _ => ⟨no_ecc, no_host⟩
theorem suspendBeat a0 : Statement (.suspendBeat a0) := fun _ => ⟨no_ecc, no_host⟩
theorem haltNote a0 : Statement (.haltNote a0) := fun _ => ⟨no_ecc, no_host⟩
theorem halt a0 : Statement (.halt a0) := fun _ => ⟨no_ecc, no_host⟩
theorem suspend a0 : Statement (.suspend a0) := fun _ => ⟨no_ecc, no_host⟩
theorem kvLost a0 : Statement (.kvLost a0) := fun _ => ⟨no_ecc, no_host⟩
theorem jobHaltBoundary a0 a1 : Statement (.jobHaltBoundary a0 a1) := fun _ => ⟨no_ecc, no_host⟩
theorem jobQuiescentSave a0 a1 a2 : Statement (.jobQuiescentSave a0 a1 a2) := fun _ => ⟨no_ecc, no_host⟩
theorem digestRead a0 : Statement (.digestRead a0) := fun _ => ⟨no_ecc, no_host⟩
theorem digest a0 : Statement (.digest a0) := fun _ => ⟨no_ecc, no_host⟩
theorem mismatchNote a0 : Statement (.mismatchNote a0) := fun _ => ⟨no_ecc, no_host⟩
theorem loftReq a0 a1 : Statement (.loftReq a0 a1) := fun _ => ⟨no_ecc, no_host⟩
theorem loftReqDeferredServe a0 : Statement (.loftReqDeferredServe a0) := fun _ => ⟨no_ecc, no_host⟩
theorem loftNak a0 : Statement (.loftNak a0) := fun _ => ⟨no_ecc, no_host⟩
theorem journal a0 : Statement (.journal a0) := fun _ => ⟨no_ecc, no_host⟩
theorem yokeHalt a0 : Statement (.yokeHalt a0) := fun _ => ⟨no_ecc, no_host⟩
theorem reyokeEnd a0 a1 : Statement (.reyokeEnd a0 a1) := fun _ => ⟨no_ecc, no_host⟩
theorem yokeReady a0 : Statement (.yokeReady a0) := fun _ => ⟨no_ecc, no_host⟩
theorem forkReady a0 : Statement (.forkReady a0) := fun _ => ⟨no_ecc, no_host⟩
theorem precopyPassEnd a0 : Statement (.precopyPassEnd a0) := fun _ => ⟨no_ecc, no_host⟩
theorem keep a0 : Statement (.keep a0) := fun _ => ⟨no_ecc, no_host⟩
theorem drop a0 : Statement (.drop a0) := fun _ => ⟨no_ecc, no_host⟩
theorem reyoke a0 : Statement (.reyoke a0) := fun _ => ⟨no_ecc, no_host⟩
theorem abandon a0 : Statement (.abandon a0) := fun _ => ⟨no_ecc, no_host⟩
theorem reyokeAbandoned a0 : Statement (.reyokeAbandoned a0) := fun _ => ⟨no_ecc, no_host⟩
theorem yokeEnable : Statement .yokeEnable := fun _ => ⟨no_ecc, no_host⟩
theorem yokeFormed : Statement .yokeFormed := fun _ => ⟨no_ecc, no_host⟩
theorem yokeFormTimeout : Statement .yokeFormTimeout := fun _ => ⟨no_ecc, no_host⟩
theorem heartbeatSend : Statement .heartbeatSend := fun _ => ⟨no_ecc, no_host⟩
theorem yokeHbInPulse a0 : Statement (.yokeHbInPulse a0) := fun _ => ⟨no_ecc, no_host⟩
theorem hbPathTimeout a0 : Statement (.hbPathTimeout a0) := fun _ => ⟨no_ecc, no_host⟩
theorem yokeCut : Statement .yokeCut := fun _ => ⟨no_ecc, no_host⟩
theorem deviceRingPoll a0 a1 : Statement (.deviceRingPoll a0 a1) := fun h => ⟨no_ecc, of_host h⟩
theorem loadDone a0 a1 a2 a3 : Statement (.loadDone a0 a1 a2 a3) := fun h => ⟨no_ecc, of_host h⟩
theorem copyComplete a0 a1 : Statement (.copyComplete a0 a1) := fun h => ⟨no_ecc, of_host h⟩
theorem shardVerified a0 a1 : Statement (.shardVerified a0 a1) := fun h => ⟨no_ecc, of_host h⟩
theorem commit a0 : Statement (.commit a0) := fun _ => ⟨no_ecc, no_host⟩
theorem commitReceived a0 : Statement (.commitReceived a0) := fun _ => ⟨no_ecc, no_host⟩
theorem deployTimeout a0 a1 : Statement (.deployTimeout a0 a1) := fun _ => ⟨no_ecc, no_host⟩
theorem adapterNotice a0 : Statement (.adapterNotice a0) := fun _ => ⟨no_ecc, no_host⟩
theorem teardownRevoke a0 : Statement (.teardownRevoke a0) := fun _ => ⟨no_ecc, no_host⟩
theorem teardownDrainEnd a0 : Statement (.teardownDrainEnd a0) := fun _ => ⟨no_ecc, no_host⟩
theorem teardownScrubDone a0 a1 : Statement (.teardownScrubDone a0 a1) := fun _ => ⟨no_ecc, no_host⟩
theorem barnClearDone a0 a1 : Statement (.barnClearDone a0 a1) := fun _ => ⟨no_ecc, no_host⟩
theorem hostLinkDown a0 : Statement (.hostLinkDown a0) := fun _ => ⟨no_ecc, no_host⟩
theorem hostLinkUp a0 a1 a2 a3 a4 : Statement (.hostLinkUp a0 a1 a2 a3 a4) := fun _ => ⟨no_ecc, no_host⟩
theorem perstAssert a0 : Statement (.perstAssert a0) := fun _ => ⟨no_ecc, no_host⟩
theorem perstDeassert a0 : Statement (.perstDeassert a0) := fun _ => ⟨no_ecc, no_host⟩
theorem ideFault a0 : Statement (.ideFault a0) := fun _ => ⟨no_ecc, no_host⟩
theorem bar2Access a0 a1 a2 a3 a4 : Statement (.bar2Access a0 a1 a2 a3 a4) := fun _ => ⟨no_ecc, no_host⟩
theorem ringStallTimeout a0 a1 : Statement (.ringStallTimeout a0 a1) := fun _ => ⟨no_ecc, no_host⟩
theorem msiXFire a0 a1 a2 a3 : Statement (.msiXFire a0 a1 a2 a3) := fun _ => ⟨no_ecc, no_host⟩
theorem getVersion a0 a1 : Statement (.getVersion a0 a1) := fun _ => ⟨no_ecc, no_host⟩
theorem getCapabilities a0 a1 : Statement (.getCapabilities a0 a1) := fun _ => ⟨no_ecc, no_host⟩
theorem negotiateAlgorithms a0 a1 a2 : Statement (.negotiateAlgorithms a0 a1 a2) := fun _ => ⟨no_ecc, no_host⟩
theorem getDigests a0 a1 : Statement (.getDigests a0 a1) := fun _ => ⟨no_ecc, no_host⟩
theorem getCertificate a0 a1 : Statement (.getCertificate a0 a1) := fun _ => ⟨no_ecc, no_host⟩
theorem challenge a0 a1 : Statement (.challenge a0 a1) := fun _ => ⟨no_ecc, no_host⟩
theorem getMeasurements a0 a1 : Statement (.getMeasurements a0 a1) := fun _ => ⟨no_ecc, no_host⟩
theorem keyExchange a0 a1 : Statement (.keyExchange a0 a1) := fun _ => ⟨no_ecc, no_host⟩
theorem finish a0 a1 : Statement (.finish a0 a1) := fun _ => ⟨no_ecc, no_host⟩
theorem endSession a0 a1 : Statement (.endSession a0 a1) := fun _ => ⟨no_ecc, no_host⟩
theorem spdmUnsupported a0 a1 : Statement (.spdmUnsupported a0 a1) := fun _ => ⟨no_ecc, no_host⟩
theorem ideKm a0 a1 : Statement (.ideKm a0 a1) := fun _ => ⟨no_ecc, no_host⟩
theorem mbxGo a0 a1 : Statement (.mbxGo a0 a1) := fun _ => ⟨no_ecc, no_host⟩
theorem pldmRequest a0 a1 a2 a3 a4 : Statement (.pldmRequest a0 a1 a2 a3 a4) := fun _ => ⟨no_ecc, no_host⟩
theorem larkspurEntry : Statement .larkspurEntry := fun _ => ⟨no_ecc, no_host⟩
theorem logCopy : Statement .logCopy := fun _ => ⟨no_ecc, no_host⟩
theorem errConsumerWrite a0 : Statement (.errConsumerWrite a0) := fun _ => ⟨no_ecc, no_host⟩
theorem stepTick : Statement .stepTick := fun _ => ⟨no_ecc, no_host⟩
theorem stepApply : Statement .stepApply := fun _ => ⟨no_ecc, no_host⟩
theorem stimeSet a0 a1 : Statement (.stimeSet a0 a1) := fun _ => ⟨no_ecc, no_host⟩
theorem stimeNsRead a0 : Statement (.stimeNsRead a0) := fun _ => ⟨no_ecc, no_host⟩
theorem throttleAssert : Statement .throttleAssert := fun _ => ⟨no_ecc, no_host⟩
theorem throttleDeassert : Statement .throttleDeassert := fun _ => ⟨no_ecc, no_host⟩
theorem throttleStuck : Statement .throttleStuck := fun _ => ⟨no_ecc, no_host⟩
theorem thermalGuardTick : Statement .thermalGuardTick := fun _ => ⟨no_ecc, no_host⟩
theorem refclkLost : Statement .refclkLost := fun _ => ⟨no_ecc, no_host⟩
theorem refclkRestored : Statement .refclkRestored := fun _ => ⟨no_ecc, no_host⟩
theorem ppsPulse a0 : Statement (.ppsPulse a0) := fun _ => ⟨no_ecc, no_host⟩
theorem ppsFault : Statement .ppsFault := fun _ => ⟨no_ecc, no_host⟩
theorem localTimeSync : Statement .localTimeSync := fun _ => ⟨no_ecc, no_host⟩
theorem launchTimeReached a0 : Statement (.launchTimeReached a0) := fun _ => ⟨no_ecc, no_host⟩
theorem skewWaitRelease a0 : Statement (.skewWaitRelease a0) := fun _ => ⟨no_ecc, no_host⟩
theorem handshakeLate a0 a1 : Statement (.handshakeLate a0 a1) := fun _ => ⟨no_ecc, no_host⟩
theorem holdSpread a0 : Statement (.holdSpread a0) := fun _ => ⟨no_ecc, no_host⟩
theorem holdRelease a0 : Statement (.holdRelease a0) := fun _ => ⟨no_ecc, no_host⟩
theorem holdTimeout a0 : Statement (.holdTimeout a0) := fun _ => ⟨no_ecc, no_host⟩
theorem cfgCrcCheck a0 a1 a2 : Statement (.cfgCrcCheck a0 a1 a2) := fun _ => ⟨no_ecc, no_host⟩
theorem blkEnable a0 a1 a2 : Statement (.blkEnable a0 a1 a2) := fun _ => ⟨no_ecc, no_host⟩
theorem signerLock : Statement .signerLock := fun _ => ⟨no_ecc, no_host⟩
theorem lspRun a0 : Statement (.lspRun a0) := fun _ => ⟨no_ecc, no_host⟩
theorem registerWrite a0 a1 a2 a3 a4 a5 a6 : Statement (.registerWrite a0 a1 a2 a3 a4 a5 a6) := fun _ => ⟨no_ecc, no_host⟩
theorem sensorSample a0 a1 a2 : Statement (.sensorSample a0 a1 a2) := fun _ => ⟨no_ecc, no_host⟩
theorem railFault : Statement .railFault := fun _ => ⟨no_ecc, no_host⟩
theorem policyTick : Statement .policyTick := fun _ => ⟨no_ecc, no_host⟩
theorem lockstepMismatch : Statement .lockstepMismatch := fun _ => ⟨no_ecc, no_host⟩
theorem watchdogExpiry : Statement .watchdogExpiry := fun _ => ⟨no_ecc, no_host⟩
theorem fwRestartDone a0 a1 a2 a3 a4 a5 : Statement (.fwRestartDone a0 a1 a2 a3 a4 a5) := fun _ => ⟨no_ecc, no_host⟩
theorem pwrGoodRise : Statement .pwrGoodRise := fun _ => ⟨no_ecc, no_host⟩
theorem pwrGoodFall : Statement .pwrGoodFall := fun _ => ⟨no_ecc, no_host⟩
theorem vtckBrownout : Statement .vtckBrownout := fun _ => ⟨no_ecc, no_host⟩
theorem sysResetAssert : Statement .sysResetAssert := fun _ => ⟨no_ecc, no_host⟩
theorem sysResetDeassert : Statement .sysResetDeassert := fun _ => ⟨no_ecc, no_host⟩
theorem loftTestDone a0 a1 : Statement (.loftTestDone a0 a1) := fun _ => ⟨no_ecc, no_host⟩
theorem fwVerifyDone a0 a1 a2 a3 a4 a5 : Statement (.fwVerifyDone a0 a1 a2 a3 a4 a5) := fun _ => ⟨no_ecc, no_host⟩
theorem ppsExpectedSecond : Statement .ppsExpectedSecond := fun _ => ⟨no_ecc, no_host⟩
theorem malformedFabricPacket a0 a1 : Statement (.malformedFabricPacket a0 a1) := fun _ => ⟨no_ecc, no_host⟩

end Sys2Proof.Laws.Operands
end

