-- ==== Sys2Proof/Laws/Regs.lean ====
section
/-! SUPPORT. Registers and their fields: what a register reads after a write, and what each field reads after a field is
written. -/

namespace Sys2Proof.Machine

/-! ### Bit fields -/

theorem testBit_bits (w lo n i : Nat) (h : 0 < n) :
    (bits w (lo + n - 1) lo).testBit i = (decide (i < n) && w.testBit (lo + i)) := by
  unfold bits
  have e : lo + n - 1 + 1 - lo = n := by omega
  rw [e, Nat.testBit_mod_two_pow, Nat.testBit_shiftRight]

theorem setBits_split (w lo n v : Nat) (h : 0 < n) :
    setBits w lo n v = 2 ^ (lo + n) * (w / 2 ^ (lo + n)) + (2 ^ lo * (v % 2 ^ n) + w % 2 ^ lo) := by
  unfold setBits bits
  have e : lo + n - 1 + 1 - lo = n := by omega
  rw [e, Nat.shiftRight_eq_div_pow]
  have a : w = 2 ^ lo * (w / 2 ^ lo) + w % 2 ^ lo := (Nat.div_add_mod w (2 ^ lo)).symm
  have b : w / 2 ^ lo = 2 ^ n * (w / 2 ^ lo / 2 ^ n) + w / 2 ^ lo % 2 ^ n := (Nat.div_add_mod _ _).symm
  have c : w / 2 ^ lo / 2 ^ n = w / 2 ^ (lo + n) := by rw [Nat.div_div_eq_div_mul, ← Nat.pow_add]
  rw [c] at b
  have d : w = 2 ^ (lo + n) * (w / 2 ^ (lo + n)) + 2 ^ lo * (w / 2 ^ lo % 2 ^ n) + w % 2 ^ lo := by
    conv => lhs; rw [a, b]
    rw [Nat.pow_add]
    ring
  have m : w / 2 ^ lo % 2 ^ n * 2 ^ lo = 2 ^ lo * (w / 2 ^ lo % 2 ^ n) := Nat.mul_comm _ _
  have m' : v % 2 ^ n * 2 ^ lo = 2 ^ lo * (v % 2 ^ n) := Nat.mul_comm _ _
  rw [m, m']
  omega

theorem testBit_setBits (w lo n v i : Nat) (h : 0 < n) :
    (setBits w lo n v).testBit i = if lo ≤ i ∧ i < lo + n then v.testBit (i - lo) else w.testBit i := by
  rw [setBits_split w lo n v h]
  have l1 : w % 2 ^ lo < 2 ^ lo := Nat.mod_lt _ (Nat.two_pow_pos _)
  have l2 : 2 ^ lo * (v % 2 ^ n) + w % 2 ^ lo < 2 ^ (lo + n) := by
    have l3 : v % 2 ^ n + 1 ≤ 2 ^ n := Nat.mod_lt _ (Nat.two_pow_pos _)
    have l4 := Nat.mul_le_mul_left (2 ^ lo) l3
    rw [Nat.pow_add]
    rw [Nat.mul_add] at l4
    omega
  rw [Nat.testBit_two_pow_mul_add _ l2, Nat.testBit_two_pow_mul_add _ l1]
  by_cases hi : i < lo + n
  · by_cases hl : i < lo
    · have : ¬ lo ≤ i := by omega
      simp [hi, hl, this, Nat.testBit_mod_two_pow]
    · have a : lo ≤ i := by omega
      have b : i - lo < n := by omega
      simp [hi, hl, a, b, Nat.testBit_mod_two_pow]
  · have a : i - (lo + n) + (lo + n) = i := by omega
    simp [hi, Nat.testBit_div_two_pow, a]

/-- A field that was written reads what was written. -/
theorem bits_setBits_same (w lo n v : Nat) (h : 0 < n) : bits (setBits w lo n v) (lo + n - 1) lo = v % 2 ^ n := by
  apply Nat.eq_of_testBit_eq
  intro i
  rw [testBit_bits _ _ _ _ h, testBit_setBits _ _ _ _ _ h, Nat.testBit_mod_two_pow]
  by_cases hi : i < n
  · have : lo + i - lo = i := by omega
    simp [hi, this]
  · simp [hi]

/-- A field that shares no bit with it stays. -/
theorem bits_setBits_other (w lo n v lo' n' : Nat) (h : 0 < n) (h' : 0 < n') (d : lo' + n' ≤ lo ∨ lo + n ≤ lo') :
    bits (setBits w lo n v) (lo' + n' - 1) lo' = bits w (lo' + n' - 1) lo' := by
  apply Nat.eq_of_testBit_eq
  intro i
  rw [testBit_bits _ _ _ _ h', testBit_bits _ _ _ _ h', testBit_setBits _ _ _ _ _ h]
  by_cases hi : i < n'
  · have : ¬ (lo ≤ lo' + i ∧ lo' + i < lo + n) := by omega
    rw [if_neg this]
  · simp [hi]

/-! ### Registers -/

variable (s : State)

/-- Every bit of the field lies in a field of the register's table. -/
def Fld.Listed (f : Fld) : Prop := 0 < f.width ∧ ∀ i < f.width, (regBits f.addr).getLsbD (f.lo + i) = true

theorem State.reg_setReg_same (a v : Nat) : (s.setReg a v).reg a = (BitVec.ofNat 64 v &&& regBits a).toNat := by
  simp [State.reg, State.setReg]

theorem State.reg_setReg_other {a b : Nat} (v : Nat) (h : b ≠ a) : (s.setReg a v).reg b = s.reg b := by
  simp [State.reg, State.setReg, Tab.get_set_other _ _ h]

theorem State.fget_setReg_other {a : Nat} (v : Nat) {f : Fld} (h : f.addr ≠ a) : (s.setReg a v).fget f = s.fget f := by
  simp [State.fget, State.reg_setReg_other s v h]

theorem State.reg_fset_other {f : Fld} {a : Nat} (v : Nat) (h : a ≠ f.addr) : (s.fset f v).reg a = s.reg a :=
  s.reg_setReg_other _ h

theorem State.fget_fset_other {f g : Fld} (v : Nat) (h : g.addr ≠ f.addr) : (s.fset f v).fget g = s.fget g :=
  s.fget_setReg_other _ h

/-- What a register holds of a stored value. -/
theorem State.fget_setReg_same (a v : Nat) {f : Fld} (e : f.addr = a) (h : f.Listed) :
    (s.setReg a v).fget f = bits v (f.lo + f.width - 1) f.lo := by
  subst e
  unfold State.fget
  rw [State.reg_setReg_same]
  apply Nat.eq_of_testBit_eq
  intro i
  rw [testBit_bits _ _ _ _ h.1, testBit_bits _ _ _ _ h.1]
  by_cases hi : i < f.width
  · have k := h.2 i hi
    have l : f.lo + i < 64 := BitVec.lt_of_getLsbD k
    rw [BitVec.getLsbD] at k
    have m : (v % 2 ^ 64).testBit (f.lo + i) = v.testBit (f.lo + i) := by
      rw [Nat.testBit_mod_two_pow]
      simp [l]
    rw [BitVec.toNat_and, Nat.testBit_and, k, BitVec.toNat_ofNat, m]
    simp
  · simp [hi]

/-- A field that was written reads the low bits of what was written. -/
theorem State.fget_fset_same {f : Fld} (v : Nat) (h : f.Listed) : (s.fset f v).fget f = v % 2 ^ f.width := by
  unfold State.fset
  rw [s.fget_setReg_same _ _ rfl h]
  exact bits_setBits_same _ _ _ _ h.1

/-- Another field of the register stays. -/
theorem State.fget_fset_disjoint {f g : Fld} (v : Nat) (e : g.addr = f.addr) (hf : 0 < f.width) (h : g.Listed)
    (d : g.lo + g.width ≤ f.lo ∨ f.lo + f.width ≤ g.lo) : (s.fset f v).fget g = s.fget g := by
  unfold State.fset
  rw [s.fget_setReg_same _ _ e h, bits_setBits_other _ _ _ _ _ _ hf h.1 d]
  simp [State.fget, e]

end Sys2Proof.Machine
end

