-- ==== Sys2Proof/Laws/Seal.lean ====
section
/-! SUPPORT. Byte strings and the stream cipher over them: bytes of a number and back, the pad taken off again, and what a number
shows below the bits that were put on top of it. -/

namespace Sys2Proof.Machine

@[simp] theorem leBytes_length (n v : Nat) : (leBytes n v).length = n := by
  induction n generalizing v with
  | zero => rfl
  | succ n ih => simp [leBytes, ih]

theorem leNat_lt (bs : List Byte) : leNat bs < 256 ^ bs.length := by
  induction bs with
  | nil => simp [leNat]
  | cons b bs ih =>
    have h := b.isLt
    simp only [leNat, List.length_cons, Nat.pow_succ]
    omega

theorem leNat_leBytes (n v : Nat) : leNat (leBytes n v) = v % 256 ^ n := by
  induction n generalizing v with
  | zero => simp [leBytes, leNat, Nat.mod_one]
  | succ n ih =>
    simp only [leBytes, leNat, ih, BitVec.toNat_ofNat]
    rw [show (256 : Nat) ^ (n + 1) = 256 * 256 ^ n from by rw [Nat.pow_succ]; ring, Nat.mod_mul]

theorem leBytes_leNat (bs : List Byte) : leBytes bs.length (leNat bs) = bs := by
  induction bs with
  | nil => rfl
  | cons b bs ih =>
    have h := b.isLt
    have a : (b.toNat + 256 * leNat bs) / 256 = leNat bs := by omega
    have c : BitVec.ofNat 8 (b.toNat + 256 * leNat bs) = b := by
      apply BitVec.eq_of_toNat_eq
      rw [BitVec.toNat_ofNat]
      omega
    simp only [List.length_cons, leBytes, leNat, a, c, ih]

theorem gcmPad_length (key : BitVec 256) (nonce : BitVec 96) (n : Nat) : (gcmPad key nonce n).length = n := by
  unfold gcmPad
  rw [List.length_take, List.length_flatMap]
  simp only [leBytes_length, List.map_const', List.length_range, List.sum_replicate, smul_eq_mul]
  omega

theorem xorBytes_length (a b : List Byte) : (xorBytes a b).length = min a.length b.length := by
  simp [xorBytes]

theorem xorBytes_twice (a b : List Byte) (h : a.length = b.length) : xorBytes (xorBytes a b) b = a := by
  induction a generalizing b with
  | nil => simp [xorBytes]
  | cons x xs ih =>
    cases b with
    | nil => simp at h
    | cons y ys =>
      have h' : xs.length = ys.length := by simpa using h
      have := ih ys h'
      simp only [xorBytes, List.zipWith_cons_cons] at this ⊢
      rw [this, BitVec.xor_assoc, BitVec.xor_self, BitVec.xor_zero]

@[simp] theorem gcmXor_length (key : BitVec 256) (nonce : BitVec 96) (m : List Byte) : (gcmXor key nonce m).length = m.length := by
  unfold gcmXor
  rw [xorBytes_length, gcmPad_length, Nat.min_self]

/-- The pad comes off again. -/
theorem gcmXor_twice (key : BitVec 256) (nonce : BitVec 96) (m : List Byte) : gcmXor key nonce (gcmXor key nonce m) = m := by
  unfold gcmXor
  rw [xorBytes_length, gcmPad_length, Nat.min_self]
  exact xorBytes_twice _ _ (by rw [gcmPad_length])

/-- Fields below bit `n` do not see what stands from bit `n` on. -/
theorem bits_low (c t n hi lo : Nat) (h : hi < n) : bits (c % 2 ^ n + t * 2 ^ n) hi lo = bits c hi lo := by
  unfold bits
  apply Nat.eq_of_testBit_eq
  intro i
  have l : c % 2 ^ n < 2 ^ n := Nat.mod_lt _ (Nat.two_pow_pos _)
  rw [Nat.testBit_mod_two_pow, Nat.testBit_mod_two_pow, Nat.testBit_shiftRight, Nat.testBit_shiftRight,
    show c % 2 ^ n + t * 2 ^ n = 2 ^ n * t + c % 2 ^ n from by ring, Nat.testBit_two_pow_mul_add _ l,
    Nat.testBit_mod_two_pow]
  by_cases hi' : i < hi + 1 - lo
  · have : lo + i < n := by omega
    simp [hi', this]
  · simp [hi']

theorem bit_low (c t n i : Nat) (h : i < n) : bit (c % 2 ^ n + t * 2 ^ n) i = bit c i := by
  unfold bit
  have l : c % 2 ^ n < 2 ^ n := Nat.mod_lt _ (Nat.two_pow_pos _)
  rw [show c % 2 ^ n + t * 2 ^ n = 2 ^ n * t + c % 2 ^ n from by ring, Nat.testBit_two_pow_mul_add _ l, Nat.testBit_mod_two_pow]
  simp [h]

/-- And what stands from bit `n` on reads as it is. -/
theorem bits_high (c t n w : Nat) (h : t < 2 ^ w) (hw : 0 < w) : bits (c % 2 ^ n + t * 2 ^ n) (n + w - 1) n = t := by
  unfold bits
  have l : c % 2 ^ n < 2 ^ n := Nat.mod_lt _ (Nat.two_pow_pos _)
  have e : n + w - 1 + 1 - n = w := by omega
  rw [Nat.shiftRight_eq_div_pow, e, show c % 2 ^ n + t * 2 ^ n = c % 2 ^ n + 2 ^ n * t from by ring,
    Nat.add_mul_div_left _ _ (Nat.two_pow_pos n), Nat.div_eq_of_lt l, Nat.zero_add, Nat.mod_eq_of_lt h]

/-- The authenticated data does not depend on the tag (R249). -/
theorem pktAad_low (c t : Nat) : pktAad (c % 2 ^ 160 + t * 2 ^ 160) = pktAad c := by
  unfold pktAad
  congr 1
  apply Nat.eq_of_testBit_eq
  intro i
  have l : c % 2 ^ 160 < 2 ^ 160 := Nat.mod_lt _ (Nat.two_pow_pos _)
  rw [Nat.testBit_mod_two_pow, Nat.testBit_mod_two_pow, testBit_setBits _ _ _ _ _ (by decide), testBit_setBits _ _ _ _ _ (by decide),
    show c % 2 ^ 160 + t * 2 ^ 160 = 2 ^ 160 * t + c % 2 ^ 160 from by ring, Nat.testBit_two_pow_mul_add _ l,
    Nat.testBit_mod_two_pow]
  by_cases h : i < 160
  · simp [h]
  · simp [h]

end Sys2Proof.Machine
end

