-- ==== Sys2Proof/Laws/State.lean ====
section
/-! SUPPORT. What each update of the state leaves alone: one lemma for each update and each field or record that it does not
touch, and the record that it does touch, read back. -/

namespace Sys2Proof.Machine

variable (s : State)

@[simp] theorem State.setReg_pending (a v : Nat) : (s.setReg a v).pending = s.pending := rfl
@[simp] theorem State.setReg_fused (a v : Nat) : (s.setReg a v).fused = s.fused := rfl
@[simp] theorem State.setReg_mask (a v : Nat) : (s.setReg a v).mask = s.mask := rfl
@[simp] theorem State.setReg_cfgRef (a v : Nat) : (s.setReg a v).cfgRef = s.cfgRef := rfl
@[simp] theorem State.setReg_time (a v : Nat) : (s.setReg a v).time = s.time := rfl
@[simp] theorem State.setReg_regions (a v : Nat) : (s.setReg a v).regions = s.regions := rfl
@[simp] theorem State.setReg_err (a v : Nat) : (s.setReg a v).err = s.err := rfl
@[simp] theorem State.setReg_stalls (a v : Nat) : (s.setReg a v).stalls = s.stalls := rfl
@[simp] theorem State.setReg_barns (a v : Nat) : (s.setReg a v).barns = s.barns := rfl
@[simp] theorem State.setReg_ctrs (a v : Nat) : (s.setReg a v).ctrs = s.ctrs := rfl
@[simp] theorem State.setReg_jobs (a v : Nat) : (s.setReg a v).jobs = s.jobs := rfl
@[simp] theorem State.setReg_lofts (a v : Nat) : (s.setReg a v).lofts = s.lofts := rfl
@[simp] theorem State.setReg_mesh (a v : Nat) : (s.setReg a v).mesh = s.mesh := rfl
@[simp] theorem State.setReg_acts (a v : Nat) : (s.setReg a v).acts = s.acts := rfl
@[simp] theorem State.setReg_mism (a v : Nat) : (s.setReg a v).mism = s.mism := rfl
@[simp] theorem State.setReg_links (a v : Nat) : (s.setReg a v).links = s.links := rfl
@[simp] theorem State.setReg_fab (a v : Nat) : (s.setReg a v).fab = s.fab := rfl
@[simp] theorem State.setReg_srv (a v : Nat) : (s.setReg a v).srv = s.srv := rfl
@[simp] theorem State.setReg_prefix_ (a v : Nat) : (s.setReg a v).prefix_ = s.prefix_ := rfl
@[simp] theorem State.setReg_yok (a v : Nat) : (s.setReg a v).yok = s.yok := rfl
@[simp] theorem State.setReg_host (a v : Nat) : (s.setReg a v).host = s.host := rfl
@[simp] theorem State.setReg_rings (a v : Nat) : (s.setReg a v).rings = s.rings := rfl
@[simp] theorem State.setReg_copies (a v : Nat) : (s.setReg a v).copies = s.copies := rfl
@[simp] theorem State.setReg_loads (a v : Nat) : (s.setReg a v).loads = s.loads := rfl
@[simp] theorem State.setReg_info (a v : Nat) : (s.setReg a v).info = s.info := rfl
@[simp] theorem State.setReg_sec (a v : Nat) : (s.setReg a v).sec = s.sec := rfl
@[simp] theorem State.setReg_tck (a v : Nat) : (s.setReg a v).tck = s.tck := rfl
@[simp] theorem State.setReg_rep (a v : Nat) : (s.setReg a v).rep = s.rep := rfl
@[simp] theorem State.setReg_out (a v : Nat) : (s.setReg a v).out = s.out := rfl
@[simp] theorem State.setReg_freeCtr (a v : Nat) : (s.setReg a v).freeCtr = s.freeCtr := rfl
@[simp] theorem State.setReg_to_region (a v : Nat) (x : Nat) : (s.setReg a v).region x = s.region x := rfl
@[simp] theorem State.setReg_to_stall (a v : Nat) (x : Nat) : (s.setReg a v).stall x = s.stall x := rfl
@[simp] theorem State.setReg_to_barn (a v : Nat) (x : Nat) : (s.setReg a v).barn x = s.barn x := rfl
@[simp] theorem State.setReg_to_job (a v : Nat) (x : Nat) : (s.setReg a v).job x = s.job x := rfl
@[simp] theorem State.setReg_to_ctr (a v : Nat) (x : Nat) : (s.setReg a v).ctr x = s.ctr x := rfl
@[simp] theorem State.setReg_to_loft (a v : Nat) (x : Nat) : (s.setReg a v).loft x = s.loft x := rfl
@[simp] theorem State.setReg_to_link (a v : Nat) (x : Nat) : (s.setReg a v).link x = s.link x := rfl
@[simp] theorem State.setReg_to_srvJob (a v : Nat) (x : Nat) : (s.setReg a v).srvJob x = s.srvJob x := rfl
@[simp] theorem State.setReg_to_hst (a v : Nat) (x : Nat) : (s.setReg a v).hst x = s.hst x := rfl
@[simp] theorem State.setReg_to_ring (a v : Nat) (x : Nat) : (s.setReg a v).ring x = s.ring x := rfl
@[simp] theorem State.setReg_to_infoOf (a v : Nat) (x : Nat) : (s.setReg a v).infoOf x = s.infoOf x := rfl
@[simp] theorem State.setReg_to_secJob (a v : Nat) (x : Nat) : (s.setReg a v).secJob x = s.secJob x := rfl
@[simp] theorem State.setReg_to_yokJob (a v : Nat) (x : Nat) : (s.setReg a v).yokJob x = s.yokJob x := rfl
@[simp] theorem State.setReg_to_goodMask (a v : Nat) (x : Nat) : (s.setReg a v).goodMask x = s.goodMask x := rfl
@[simp] theorem State.setReg_to_nowNs (a v : Nat)  : (s.setReg a v).nowNs = s.nowNs := rfl
@[simp] theorem State.setReg_to_refNs (a v : Nat)  : (s.setReg a v).refNs = s.refNs := rfl

@[simp] theorem State.updRegion_pending (n : Nat) (f : Region → Region) : (s.updRegion n f).pending = s.pending := rfl
@[simp] theorem State.updRegion_regs (n : Nat) (f : Region → Region) : (s.updRegion n f).regs = s.regs := rfl
@[simp] theorem State.updRegion_fused (n : Nat) (f : Region → Region) : (s.updRegion n f).fused = s.fused := rfl
@[simp] theorem State.updRegion_mask (n : Nat) (f : Region → Region) : (s.updRegion n f).mask = s.mask := rfl
@[simp] theorem State.updRegion_cfgRef (n : Nat) (f : Region → Region) : (s.updRegion n f).cfgRef = s.cfgRef := rfl
@[simp] theorem State.updRegion_time (n : Nat) (f : Region → Region) : (s.updRegion n f).time = s.time := rfl
@[simp] theorem State.updRegion_err (n : Nat) (f : Region → Region) : (s.updRegion n f).err = s.err := rfl
@[simp] theorem State.updRegion_stalls (n : Nat) (f : Region → Region) : (s.updRegion n f).stalls = s.stalls := rfl
@[simp] theorem State.updRegion_barns (n : Nat) (f : Region → Region) : (s.updRegion n f).barns = s.barns := rfl
@[simp] theorem State.updRegion_ctrs (n : Nat) (f : Region → Region) : (s.updRegion n f).ctrs = s.ctrs := rfl
@[simp] theorem State.updRegion_jobs (n : Nat) (f : Region → Region) : (s.updRegion n f).jobs = s.jobs := rfl
@[simp] theorem State.updRegion_lofts (n : Nat) (f : Region → Region) : (s.updRegion n f).lofts = s.lofts := rfl
@[simp] theorem State.updRegion_mesh (n : Nat) (f : Region → Region) : (s.updRegion n f).mesh = s.mesh := rfl
@[simp] theorem State.updRegion_acts (n : Nat) (f : Region → Region) : (s.updRegion n f).acts = s.acts := rfl
@[simp] theorem State.updRegion_mism (n : Nat) (f : Region → Region) : (s.updRegion n f).mism = s.mism := rfl
@[simp] theorem State.updRegion_links (n : Nat) (f : Region → Region) : (s.updRegion n f).links = s.links := rfl
@[simp] theorem State.updRegion_fab (n : Nat) (f : Region → Region) : (s.updRegion n f).fab = s.fab := rfl
@[simp] theorem State.updRegion_srv (n : Nat) (f : Region → Region) : (s.updRegion n f).srv = s.srv := rfl
@[simp] theorem State.updRegion_prefix_ (n : Nat) (f : Region → Region) : (s.updRegion n f).prefix_ = s.prefix_ := rfl
@[simp] theorem State.updRegion_yok (n : Nat) (f : Region → Region) : (s.updRegion n f).yok = s.yok := rfl
@[simp] theorem State.updRegion_host (n : Nat) (f : Region → Region) : (s.updRegion n f).host = s.host := rfl
@[simp] theorem State.updRegion_rings (n : Nat) (f : Region → Region) : (s.updRegion n f).rings = s.rings := rfl
@[simp] theorem State.updRegion_copies (n : Nat) (f : Region → Region) : (s.updRegion n f).copies = s.copies := rfl
@[simp] theorem State.updRegion_loads (n : Nat) (f : Region → Region) : (s.updRegion n f).loads = s.loads := rfl
@[simp] theorem State.updRegion_info (n : Nat) (f : Region → Region) : (s.updRegion n f).info = s.info := rfl
@[simp] theorem State.updRegion_sec (n : Nat) (f : Region → Region) : (s.updRegion n f).sec = s.sec := rfl
@[simp] theorem State.updRegion_tck (n : Nat) (f : Region → Region) : (s.updRegion n f).tck = s.tck := rfl
@[simp] theorem State.updRegion_rep (n : Nat) (f : Region → Region) : (s.updRegion n f).rep = s.rep := rfl
@[simp] theorem State.updRegion_out (n : Nat) (f : Region → Region) : (s.updRegion n f).out = s.out := rfl
@[simp] theorem State.updRegion_freeCtr (n : Nat) (f : Region → Region) : (s.updRegion n f).freeCtr = s.freeCtr := rfl
@[simp] theorem State.updRegion_to_reg (n : Nat) (f : Region → Region) (x : Nat) : (s.updRegion n f).reg x = s.reg x := rfl
@[simp] theorem State.updRegion_to_fget (n : Nat) (f : Region → Region) (x : Fld) : (s.updRegion n f).fget x = s.fget x := rfl
@[simp] theorem State.updRegion_to_fbit (n : Nat) (f : Region → Region) (x : Fld) : (s.updRegion n f).fbit x = s.fbit x := rfl
@[simp] theorem State.updRegion_to_beat (n : Nat) (f : Region → Region) (x : Nat) : (s.updRegion n f).beat x = s.beat x := rfl
@[simp] theorem State.updRegion_to_stall (n : Nat) (f : Region → Region) (x : Nat) : (s.updRegion n f).stall x = s.stall x := rfl
@[simp] theorem State.updRegion_to_barn (n : Nat) (f : Region → Region) (x : Nat) : (s.updRegion n f).barn x = s.barn x := rfl
@[simp] theorem State.updRegion_to_job (n : Nat) (f : Region → Region) (x : Nat) : (s.updRegion n f).job x = s.job x := rfl
@[simp] theorem State.updRegion_to_ctr (n : Nat) (f : Region → Region) (x : Nat) : (s.updRegion n f).ctr x = s.ctr x := rfl
@[simp] theorem State.updRegion_to_loft (n : Nat) (f : Region → Region) (x : Nat) : (s.updRegion n f).loft x = s.loft x := rfl
@[simp] theorem State.updRegion_to_link (n : Nat) (f : Region → Region) (x : Nat) : (s.updRegion n f).link x = s.link x := rfl
@[simp] theorem State.updRegion_to_srvJob (n : Nat) (f : Region → Region) (x : Nat) : (s.updRegion n f).srvJob x = s.srvJob x := rfl
@[simp] theorem State.updRegion_to_hst (n : Nat) (f : Region → Region) (x : Nat) : (s.updRegion n f).hst x = s.hst x := rfl
@[simp] theorem State.updRegion_to_ring (n : Nat) (f : Region → Region) (x : Nat) : (s.updRegion n f).ring x = s.ring x := rfl
@[simp] theorem State.updRegion_to_infoOf (n : Nat) (f : Region → Region) (x : Nat) : (s.updRegion n f).infoOf x = s.infoOf x := rfl
@[simp] theorem State.updRegion_to_secJob (n : Nat) (f : Region → Region) (x : Nat) : (s.updRegion n f).secJob x = s.secJob x := rfl
@[simp] theorem State.updRegion_to_yokJob (n : Nat) (f : Region → Region) (x : Nat) : (s.updRegion n f).yokJob x = s.yokJob x := rfl
@[simp] theorem State.updRegion_to_goodMask (n : Nat) (f : Region → Region) (x : Nat) : (s.updRegion n f).goodMask x = s.goodMask x := rfl
@[simp] theorem State.updRegion_to_nowNs (n : Nat) (f : Region → Region)  : (s.updRegion n f).nowNs = s.nowNs := rfl
@[simp] theorem State.updRegion_to_refNs (n : Nat) (f : Region → Region)  : (s.updRegion n f).refNs = s.refNs := rfl

@[simp] theorem State.updStall_pending (n : Nat) (f : Stall → Stall) : (s.updStall n f).pending = s.pending := rfl
@[simp] theorem State.updStall_regs (n : Nat) (f : Stall → Stall) : (s.updStall n f).regs = s.regs := rfl
@[simp] theorem State.updStall_fused (n : Nat) (f : Stall → Stall) : (s.updStall n f).fused = s.fused := rfl
@[simp] theorem State.updStall_mask (n : Nat) (f : Stall → Stall) : (s.updStall n f).mask = s.mask := rfl
@[simp] theorem State.updStall_cfgRef (n : Nat) (f : Stall → Stall) : (s.updStall n f).cfgRef = s.cfgRef := rfl
@[simp] theorem State.updStall_time (n : Nat) (f : Stall → Stall) : (s.updStall n f).time = s.time := rfl
@[simp] theorem State.updStall_regions (n : Nat) (f : Stall → Stall) : (s.updStall n f).regions = s.regions := rfl
@[simp] theorem State.updStall_err (n : Nat) (f : Stall → Stall) : (s.updStall n f).err = s.err := rfl
@[simp] theorem State.updStall_barns (n : Nat) (f : Stall → Stall) : (s.updStall n f).barns = s.barns := rfl
@[simp] theorem State.updStall_ctrs (n : Nat) (f : Stall → Stall) : (s.updStall n f).ctrs = s.ctrs := rfl
@[simp] theorem State.updStall_jobs (n : Nat) (f : Stall → Stall) : (s.updStall n f).jobs = s.jobs := rfl
@[simp] theorem State.updStall_lofts (n : Nat) (f : Stall → Stall) : (s.updStall n f).lofts = s.lofts := rfl
@[simp] theorem State.updStall_mesh (n : Nat) (f : Stall → Stall) : (s.updStall n f).mesh = s.mesh := rfl
@[simp] theorem State.updStall_acts (n : Nat) (f : Stall → Stall) : (s.updStall n f).acts = s.acts := rfl
@[simp] theorem State.updStall_mism (n : Nat) (f : Stall → Stall) : (s.updStall n f).mism = s.mism := rfl
@[simp] theorem State.updStall_links (n : Nat) (f : Stall → Stall) : (s.updStall n f).links = s.links := rfl
@[simp] theorem State.updStall_fab (n : Nat) (f : Stall → Stall) : (s.updStall n f).fab = s.fab := rfl
@[simp] theorem State.updStall_srv (n : Nat) (f : Stall → Stall) : (s.updStall n f).srv = s.srv := rfl
@[simp] theorem State.updStall_prefix_ (n : Nat) (f : Stall → Stall) : (s.updStall n f).prefix_ = s.prefix_ := rfl
@[simp] theorem State.updStall_yok (n : Nat) (f : Stall → Stall) : (s.updStall n f).yok = s.yok := rfl
@[simp] theorem State.updStall_host (n : Nat) (f : Stall → Stall) : (s.updStall n f).host = s.host := rfl
@[simp] theorem State.updStall_rings (n : Nat) (f : Stall → Stall) : (s.updStall n f).rings = s.rings := rfl
@[simp] theorem State.updStall_copies (n : Nat) (f : Stall → Stall) : (s.updStall n f).copies = s.copies := rfl
@[simp] theorem State.updStall_loads (n : Nat) (f : Stall → Stall) : (s.updStall n f).loads = s.loads := rfl
@[simp] theorem State.updStall_info (n : Nat) (f : Stall → Stall) : (s.updStall n f).info = s.info := rfl
@[simp] theorem State.updStall_sec (n : Nat) (f : Stall → Stall) : (s.updStall n f).sec = s.sec := rfl
@[simp] theorem State.updStall_tck (n : Nat) (f : Stall → Stall) : (s.updStall n f).tck = s.tck := rfl
@[simp] theorem State.updStall_rep (n : Nat) (f : Stall → Stall) : (s.updStall n f).rep = s.rep := rfl
@[simp] theorem State.updStall_out (n : Nat) (f : Stall → Stall) : (s.updStall n f).out = s.out := rfl
@[simp] theorem State.updStall_freeCtr (n : Nat) (f : Stall → Stall) : (s.updStall n f).freeCtr = s.freeCtr := rfl
@[simp] theorem State.updStall_to_reg (n : Nat) (f : Stall → Stall) (x : Nat) : (s.updStall n f).reg x = s.reg x := rfl
@[simp] theorem State.updStall_to_fget (n : Nat) (f : Stall → Stall) (x : Fld) : (s.updStall n f).fget x = s.fget x := rfl
@[simp] theorem State.updStall_to_fbit (n : Nat) (f : Stall → Stall) (x : Fld) : (s.updStall n f).fbit x = s.fbit x := rfl
@[simp] theorem State.updStall_to_beat (n : Nat) (f : Stall → Stall) (x : Nat) : (s.updStall n f).beat x = s.beat x := rfl
@[simp] theorem State.updStall_to_region (n : Nat) (f : Stall → Stall) (x : Nat) : (s.updStall n f).region x = s.region x := rfl
@[simp] theorem State.updStall_to_barn (n : Nat) (f : Stall → Stall) (x : Nat) : (s.updStall n f).barn x = s.barn x := rfl
@[simp] theorem State.updStall_to_job (n : Nat) (f : Stall → Stall) (x : Nat) : (s.updStall n f).job x = s.job x := rfl
@[simp] theorem State.updStall_to_ctr (n : Nat) (f : Stall → Stall) (x : Nat) : (s.updStall n f).ctr x = s.ctr x := rfl
@[simp] theorem State.updStall_to_loft (n : Nat) (f : Stall → Stall) (x : Nat) : (s.updStall n f).loft x = s.loft x := rfl
@[simp] theorem State.updStall_to_link (n : Nat) (f : Stall → Stall) (x : Nat) : (s.updStall n f).link x = s.link x := rfl
@[simp] theorem State.updStall_to_srvJob (n : Nat) (f : Stall → Stall) (x : Nat) : (s.updStall n f).srvJob x = s.srvJob x := rfl
@[simp] theorem State.updStall_to_hst (n : Nat) (f : Stall → Stall) (x : Nat) : (s.updStall n f).hst x = s.hst x := rfl
@[simp] theorem State.updStall_to_ring (n : Nat) (f : Stall → Stall) (x : Nat) : (s.updStall n f).ring x = s.ring x := rfl
@[simp] theorem State.updStall_to_infoOf (n : Nat) (f : Stall → Stall) (x : Nat) : (s.updStall n f).infoOf x = s.infoOf x := rfl
@[simp] theorem State.updStall_to_secJob (n : Nat) (f : Stall → Stall) (x : Nat) : (s.updStall n f).secJob x = s.secJob x := rfl
@[simp] theorem State.updStall_to_yokJob (n : Nat) (f : Stall → Stall) (x : Nat) : (s.updStall n f).yokJob x = s.yokJob x := rfl
@[simp] theorem State.updStall_to_goodMask (n : Nat) (f : Stall → Stall) (x : Nat) : (s.updStall n f).goodMask x = s.goodMask x := rfl
@[simp] theorem State.updStall_to_nowNs (n : Nat) (f : Stall → Stall)  : (s.updStall n f).nowNs = s.nowNs := rfl
@[simp] theorem State.updStall_to_refNs (n : Nat) (f : Stall → Stall)  : (s.updStall n f).refNs = s.refNs := rfl

@[simp] theorem State.updBarn_pending (n : Nat) (f : BarnSt → BarnSt) : (s.updBarn n f).pending = s.pending := rfl
@[simp] theorem State.updBarn_regs (n : Nat) (f : BarnSt → BarnSt) : (s.updBarn n f).regs = s.regs := rfl
@[simp] theorem State.updBarn_fused (n : Nat) (f : BarnSt → BarnSt) : (s.updBarn n f).fused = s.fused := rfl
@[simp] theorem State.updBarn_mask (n : Nat) (f : BarnSt → BarnSt) : (s.updBarn n f).mask = s.mask := rfl
@[simp] theorem State.updBarn_cfgRef (n : Nat) (f : BarnSt → BarnSt) : (s.updBarn n f).cfgRef = s.cfgRef := rfl
@[simp] theorem State.updBarn_time (n : Nat) (f : BarnSt → BarnSt) : (s.updBarn n f).time = s.time := rfl
@[simp] theorem State.updBarn_regions (n : Nat) (f : BarnSt → BarnSt) : (s.updBarn n f).regions = s.regions := rfl
@[simp] theorem State.updBarn_err (n : Nat) (f : BarnSt → BarnSt) : (s.updBarn n f).err = s.err := rfl
@[simp] theorem State.updBarn_stalls (n : Nat) (f : BarnSt → BarnSt) : (s.updBarn n f).stalls = s.stalls := rfl
@[simp] theorem State.updBarn_ctrs (n : Nat) (f : BarnSt → BarnSt) : (s.updBarn n f).ctrs = s.ctrs := rfl
@[simp] theorem State.updBarn_jobs (n : Nat) (f : BarnSt → BarnSt) : (s.updBarn n f).jobs = s.jobs := rfl
@[simp] theorem State.updBarn_lofts (n : Nat) (f : BarnSt → BarnSt) : (s.updBarn n f).lofts = s.lofts := rfl
@[simp] theorem State.updBarn_mesh (n : Nat) (f : BarnSt → BarnSt) : (s.updBarn n f).mesh = s.mesh := rfl
@[simp] theorem State.updBarn_acts (n : Nat) (f : BarnSt → BarnSt) : (s.updBarn n f).acts = s.acts := rfl
@[simp] theorem State.updBarn_mism (n : Nat) (f : BarnSt → BarnSt) : (s.updBarn n f).mism = s.mism := rfl
@[simp] theorem State.updBarn_links (n : Nat) (f : BarnSt → BarnSt) : (s.updBarn n f).links = s.links := rfl
@[simp] theorem State.updBarn_fab (n : Nat) (f : BarnSt → BarnSt) : (s.updBarn n f).fab = s.fab := rfl
@[simp] theorem State.updBarn_srv (n : Nat) (f : BarnSt → BarnSt) : (s.updBarn n f).srv = s.srv := rfl
@[simp] theorem State.updBarn_prefix_ (n : Nat) (f : BarnSt → BarnSt) : (s.updBarn n f).prefix_ = s.prefix_ := rfl
@[simp] theorem State.updBarn_yok (n : Nat) (f : BarnSt → BarnSt) : (s.updBarn n f).yok = s.yok := rfl
@[simp] theorem State.updBarn_host (n : Nat) (f : BarnSt → BarnSt) : (s.updBarn n f).host = s.host := rfl
@[simp] theorem State.updBarn_rings (n : Nat) (f : BarnSt → BarnSt) : (s.updBarn n f).rings = s.rings := rfl
@[simp] theorem State.updBarn_copies (n : Nat) (f : BarnSt → BarnSt) : (s.updBarn n f).copies = s.copies := rfl
@[simp] theorem State.updBarn_loads (n : Nat) (f : BarnSt → BarnSt) : (s.updBarn n f).loads = s.loads := rfl
@[simp] theorem State.updBarn_info (n : Nat) (f : BarnSt → BarnSt) : (s.updBarn n f).info = s.info := rfl
@[simp] theorem State.updBarn_sec (n : Nat) (f : BarnSt → BarnSt) : (s.updBarn n f).sec = s.sec := rfl
@[simp] theorem State.updBarn_tck (n : Nat) (f : BarnSt → BarnSt) : (s.updBarn n f).tck = s.tck := rfl
@[simp] theorem State.updBarn_rep (n : Nat) (f : BarnSt → BarnSt) : (s.updBarn n f).rep = s.rep := rfl
@[simp] theorem State.updBarn_out (n : Nat) (f : BarnSt → BarnSt) : (s.updBarn n f).out = s.out := rfl
@[simp] theorem State.updBarn_freeCtr (n : Nat) (f : BarnSt → BarnSt) : (s.updBarn n f).freeCtr = s.freeCtr := rfl
@[simp] theorem State.updBarn_to_reg (n : Nat) (f : BarnSt → BarnSt) (x : Nat) : (s.updBarn n f).reg x = s.reg x := rfl
@[simp] theorem State.updBarn_to_fget (n : Nat) (f : BarnSt → BarnSt) (x : Fld) : (s.updBarn n f).fget x = s.fget x := rfl
@[simp] theorem State.updBarn_to_fbit (n : Nat) (f : BarnSt → BarnSt) (x : Fld) : (s.updBarn n f).fbit x = s.fbit x := rfl
@[simp] theorem State.updBarn_to_beat (n : Nat) (f : BarnSt → BarnSt) (x : Nat) : (s.updBarn n f).beat x = s.beat x := rfl
@[simp] theorem State.updBarn_to_region (n : Nat) (f : BarnSt → BarnSt) (x : Nat) : (s.updBarn n f).region x = s.region x := rfl
@[simp] theorem State.updBarn_to_stall (n : Nat) (f : BarnSt → BarnSt) (x : Nat) : (s.updBarn n f).stall x = s.stall x := rfl
@[simp] theorem State.updBarn_to_job (n : Nat) (f : BarnSt → BarnSt) (x : Nat) : (s.updBarn n f).job x = s.job x := rfl
@[simp] theorem State.updBarn_to_ctr (n : Nat) (f : BarnSt → BarnSt) (x : Nat) : (s.updBarn n f).ctr x = s.ctr x := rfl
@[simp] theorem State.updBarn_to_loft (n : Nat) (f : BarnSt → BarnSt) (x : Nat) : (s.updBarn n f).loft x = s.loft x := rfl
@[simp] theorem State.updBarn_to_link (n : Nat) (f : BarnSt → BarnSt) (x : Nat) : (s.updBarn n f).link x = s.link x := rfl
@[simp] theorem State.updBarn_to_srvJob (n : Nat) (f : BarnSt → BarnSt) (x : Nat) : (s.updBarn n f).srvJob x = s.srvJob x := rfl
@[simp] theorem State.updBarn_to_hst (n : Nat) (f : BarnSt → BarnSt) (x : Nat) : (s.updBarn n f).hst x = s.hst x := rfl
@[simp] theorem State.updBarn_to_ring (n : Nat) (f : BarnSt → BarnSt) (x : Nat) : (s.updBarn n f).ring x = s.ring x := rfl
@[simp] theorem State.updBarn_to_infoOf (n : Nat) (f : BarnSt → BarnSt) (x : Nat) : (s.updBarn n f).infoOf x = s.infoOf x := rfl
@[simp] theorem State.updBarn_to_secJob (n : Nat) (f : BarnSt → BarnSt) (x : Nat) : (s.updBarn n f).secJob x = s.secJob x := rfl
@[simp] theorem State.updBarn_to_yokJob (n : Nat) (f : BarnSt → BarnSt) (x : Nat) : (s.updBarn n f).yokJob x = s.yokJob x := rfl
@[simp] theorem State.updBarn_to_goodMask (n : Nat) (f : BarnSt → BarnSt) (x : Nat) : (s.updBarn n f).goodMask x = s.goodMask x := rfl
@[simp] theorem State.updBarn_to_nowNs (n : Nat) (f : BarnSt → BarnSt)  : (s.updBarn n f).nowNs = s.nowNs := rfl
@[simp] theorem State.updBarn_to_refNs (n : Nat) (f : BarnSt → BarnSt)  : (s.updBarn n f).refNs = s.refNs := rfl

@[simp] theorem State.updJob_pending (n : Nat) (f : Job → Job) : (s.updJob n f).pending = s.pending := rfl
@[simp] theorem State.updJob_regs (n : Nat) (f : Job → Job) : (s.updJob n f).regs = s.regs := rfl
@[simp] theorem State.updJob_fused (n : Nat) (f : Job → Job) : (s.updJob n f).fused = s.fused := rfl
@[simp] theorem State.updJob_mask (n : Nat) (f : Job → Job) : (s.updJob n f).mask = s.mask := rfl
@[simp] theorem State.updJob_cfgRef (n : Nat) (f : Job → Job) : (s.updJob n f).cfgRef = s.cfgRef := rfl
@[simp] theorem State.updJob_time (n : Nat) (f : Job → Job) : (s.updJob n f).time = s.time := rfl
@[simp] theorem State.updJob_regions (n : Nat) (f : Job → Job) : (s.updJob n f).regions = s.regions := rfl
@[simp] theorem State.updJob_err (n : Nat) (f : Job → Job) : (s.updJob n f).err = s.err := rfl
@[simp] theorem State.updJob_stalls (n : Nat) (f : Job → Job) : (s.updJob n f).stalls = s.stalls := rfl
@[simp] theorem State.updJob_barns (n : Nat) (f : Job → Job) : (s.updJob n f).barns = s.barns := rfl
@[simp] theorem State.updJob_ctrs (n : Nat) (f : Job → Job) : (s.updJob n f).ctrs = s.ctrs := rfl
@[simp] theorem State.updJob_lofts (n : Nat) (f : Job → Job) : (s.updJob n f).lofts = s.lofts := rfl
@[simp] theorem State.updJob_mesh (n : Nat) (f : Job → Job) : (s.updJob n f).mesh = s.mesh := rfl
@[simp] theorem State.updJob_acts (n : Nat) (f : Job → Job) : (s.updJob n f).acts = s.acts := rfl
@[simp] theorem State.updJob_mism (n : Nat) (f : Job → Job) : (s.updJob n f).mism = s.mism := rfl
@[simp] theorem State.updJob_links (n : Nat) (f : Job → Job) : (s.updJob n f).links = s.links := rfl
@[simp] theorem State.updJob_fab (n : Nat) (f : Job → Job) : (s.updJob n f).fab = s.fab := rfl
@[simp] theorem State.updJob_srv (n : Nat) (f : Job → Job) : (s.updJob n f).srv = s.srv := rfl
@[simp] theorem State.updJob_prefix_ (n : Nat) (f : Job → Job) : (s.updJob n f).prefix_ = s.prefix_ := rfl
@[simp] theorem State.updJob_yok (n : Nat) (f : Job → Job) : (s.updJob n f).yok = s.yok := rfl
@[simp] theorem State.updJob_host (n : Nat) (f : Job → Job) : (s.updJob n f).host = s.host := rfl
@[simp] theorem State.updJob_rings (n : Nat) (f : Job → Job) : (s.updJob n f).rings = s.rings := rfl
@[simp] theorem State.updJob_copies (n : Nat) (f : Job → Job) : (s.updJob n f).copies = s.copies := rfl
@[simp] theorem State.updJob_loads (n : Nat) (f : Job → Job) : (s.updJob n f).loads = s.loads := rfl
@[simp] theorem State.updJob_info (n : Nat) (f : Job → Job) : (s.updJob n f).info = s.info := rfl
@[simp] theorem State.updJob_sec (n : Nat) (f : Job → Job) : (s.updJob n f).sec = s.sec := rfl
@[simp] theorem State.updJob_tck (n : Nat) (f : Job → Job) : (s.updJob n f).tck = s.tck := rfl
@[simp] theorem State.updJob_rep (n : Nat) (f : Job → Job) : (s.updJob n f).rep = s.rep := rfl
@[simp] theorem State.updJob_out (n : Nat) (f : Job → Job) : (s.updJob n f).out = s.out := rfl
@[simp] theorem State.updJob_freeCtr (n : Nat) (f : Job → Job) : (s.updJob n f).freeCtr = s.freeCtr := rfl
@[simp] theorem State.updJob_to_reg (n : Nat) (f : Job → Job) (x : Nat) : (s.updJob n f).reg x = s.reg x := rfl
@[simp] theorem State.updJob_to_fget (n : Nat) (f : Job → Job) (x : Fld) : (s.updJob n f).fget x = s.fget x := rfl
@[simp] theorem State.updJob_to_fbit (n : Nat) (f : Job → Job) (x : Fld) : (s.updJob n f).fbit x = s.fbit x := rfl
@[simp] theorem State.updJob_to_beat (n : Nat) (f : Job → Job) (x : Nat) : (s.updJob n f).beat x = s.beat x := rfl
@[simp] theorem State.updJob_to_region (n : Nat) (f : Job → Job) (x : Nat) : (s.updJob n f).region x = s.region x := rfl
@[simp] theorem State.updJob_to_stall (n : Nat) (f : Job → Job) (x : Nat) : (s.updJob n f).stall x = s.stall x := rfl
@[simp] theorem State.updJob_to_barn (n : Nat) (f : Job → Job) (x : Nat) : (s.updJob n f).barn x = s.barn x := rfl
@[simp] theorem State.updJob_to_ctr (n : Nat) (f : Job → Job) (x : Nat) : (s.updJob n f).ctr x = s.ctr x := rfl
@[simp] theorem State.updJob_to_loft (n : Nat) (f : Job → Job) (x : Nat) : (s.updJob n f).loft x = s.loft x := rfl
@[simp] theorem State.updJob_to_link (n : Nat) (f : Job → Job) (x : Nat) : (s.updJob n f).link x = s.link x := rfl
@[simp] theorem State.updJob_to_srvJob (n : Nat) (f : Job → Job) (x : Nat) : (s.updJob n f).srvJob x = s.srvJob x := rfl
@[simp] theorem State.updJob_to_hst (n : Nat) (f : Job → Job) (x : Nat) : (s.updJob n f).hst x = s.hst x := rfl
@[simp] theorem State.updJob_to_ring (n : Nat) (f : Job → Job) (x : Nat) : (s.updJob n f).ring x = s.ring x := rfl
@[simp] theorem State.updJob_to_infoOf (n : Nat) (f : Job → Job) (x : Nat) : (s.updJob n f).infoOf x = s.infoOf x := rfl
@[simp] theorem State.updJob_to_secJob (n : Nat) (f : Job → Job) (x : Nat) : (s.updJob n f).secJob x = s.secJob x := rfl
@[simp] theorem State.updJob_to_yokJob (n : Nat) (f : Job → Job) (x : Nat) : (s.updJob n f).yokJob x = s.yokJob x := rfl
@[simp] theorem State.updJob_to_goodMask (n : Nat) (f : Job → Job) (x : Nat) : (s.updJob n f).goodMask x = s.goodMask x := rfl
@[simp] theorem State.updJob_to_nowNs (n : Nat) (f : Job → Job)  : (s.updJob n f).nowNs = s.nowNs := rfl
@[simp] theorem State.updJob_to_refNs (n : Nat) (f : Job → Job)  : (s.updJob n f).refNs = s.refNs := rfl

@[simp] theorem State.updCtr_pending (n : Nat) (f : Counter → Counter) : (s.updCtr n f).pending = s.pending := rfl
@[simp] theorem State.updCtr_regs (n : Nat) (f : Counter → Counter) : (s.updCtr n f).regs = s.regs := rfl
@[simp] theorem State.updCtr_fused (n : Nat) (f : Counter → Counter) : (s.updCtr n f).fused = s.fused := rfl
@[simp] theorem State.updCtr_mask (n : Nat) (f : Counter → Counter) : (s.updCtr n f).mask = s.mask := rfl
@[simp] theorem State.updCtr_cfgRef (n : Nat) (f : Counter → Counter) : (s.updCtr n f).cfgRef = s.cfgRef := rfl
@[simp] theorem State.updCtr_time (n : Nat) (f : Counter → Counter) : (s.updCtr n f).time = s.time := rfl
@[simp] theorem State.updCtr_regions (n : Nat) (f : Counter → Counter) : (s.updCtr n f).regions = s.regions := rfl
@[simp] theorem State.updCtr_err (n : Nat) (f : Counter → Counter) : (s.updCtr n f).err = s.err := rfl
@[simp] theorem State.updCtr_stalls (n : Nat) (f : Counter → Counter) : (s.updCtr n f).stalls = s.stalls := rfl
@[simp] theorem State.updCtr_barns (n : Nat) (f : Counter → Counter) : (s.updCtr n f).barns = s.barns := rfl
@[simp] theorem State.updCtr_jobs (n : Nat) (f : Counter → Counter) : (s.updCtr n f).jobs = s.jobs := rfl
@[simp] theorem State.updCtr_lofts (n : Nat) (f : Counter → Counter) : (s.updCtr n f).lofts = s.lofts := rfl
@[simp] theorem State.updCtr_mesh (n : Nat) (f : Counter → Counter) : (s.updCtr n f).mesh = s.mesh := rfl
@[simp] theorem State.updCtr_acts (n : Nat) (f : Counter → Counter) : (s.updCtr n f).acts = s.acts := rfl
@[simp] theorem State.updCtr_mism (n : Nat) (f : Counter → Counter) : (s.updCtr n f).mism = s.mism := rfl
@[simp] theorem State.updCtr_links (n : Nat) (f : Counter → Counter) : (s.updCtr n f).links = s.links := rfl
@[simp] theorem State.updCtr_fab (n : Nat) (f : Counter → Counter) : (s.updCtr n f).fab = s.fab := rfl
@[simp] theorem State.updCtr_srv (n : Nat) (f : Counter → Counter) : (s.updCtr n f).srv = s.srv := rfl
@[simp] theorem State.updCtr_prefix_ (n : Nat) (f : Counter → Counter) : (s.updCtr n f).prefix_ = s.prefix_ := rfl
@[simp] theorem State.updCtr_yok (n : Nat) (f : Counter → Counter) : (s.updCtr n f).yok = s.yok := rfl
@[simp] theorem State.updCtr_host (n : Nat) (f : Counter → Counter) : (s.updCtr n f).host = s.host := rfl
@[simp] theorem State.updCtr_rings (n : Nat) (f : Counter → Counter) : (s.updCtr n f).rings = s.rings := rfl
@[simp] theorem State.updCtr_copies (n : Nat) (f : Counter → Counter) : (s.updCtr n f).copies = s.copies := rfl
@[simp] theorem State.updCtr_loads (n : Nat) (f : Counter → Counter) : (s.updCtr n f).loads = s.loads := rfl
@[simp] theorem State.updCtr_info (n : Nat) (f : Counter → Counter) : (s.updCtr n f).info = s.info := rfl
@[simp] theorem State.updCtr_sec (n : Nat) (f : Counter → Counter) : (s.updCtr n f).sec = s.sec := rfl
@[simp] theorem State.updCtr_tck (n : Nat) (f : Counter → Counter) : (s.updCtr n f).tck = s.tck := rfl
@[simp] theorem State.updCtr_rep (n : Nat) (f : Counter → Counter) : (s.updCtr n f).rep = s.rep := rfl
@[simp] theorem State.updCtr_out (n : Nat) (f : Counter → Counter) : (s.updCtr n f).out = s.out := rfl
@[simp] theorem State.updCtr_freeCtr (n : Nat) (f : Counter → Counter) : (s.updCtr n f).freeCtr = s.freeCtr := rfl
@[simp] theorem State.updCtr_to_reg (n : Nat) (f : Counter → Counter) (x : Nat) : (s.updCtr n f).reg x = s.reg x := rfl
@[simp] theorem State.updCtr_to_fget (n : Nat) (f : Counter → Counter) (x : Fld) : (s.updCtr n f).fget x = s.fget x := rfl
@[simp] theorem State.updCtr_to_fbit (n : Nat) (f : Counter → Counter) (x : Fld) : (s.updCtr n f).fbit x = s.fbit x := rfl
@[simp] theorem State.updCtr_to_beat (n : Nat) (f : Counter → Counter) (x : Nat) : (s.updCtr n f).beat x = s.beat x := rfl
@[simp] theorem State.updCtr_to_region (n : Nat) (f : Counter → Counter) (x : Nat) : (s.updCtr n f).region x = s.region x := rfl
@[simp] theorem State.updCtr_to_stall (n : Nat) (f : Counter → Counter) (x : Nat) : (s.updCtr n f).stall x = s.stall x := rfl
@[simp] theorem State.updCtr_to_barn (n : Nat) (f : Counter → Counter) (x : Nat) : (s.updCtr n f).barn x = s.barn x := rfl
@[simp] theorem State.updCtr_to_job (n : Nat) (f : Counter → Counter) (x : Nat) : (s.updCtr n f).job x = s.job x := rfl
@[simp] theorem State.updCtr_to_loft (n : Nat) (f : Counter → Counter) (x : Nat) : (s.updCtr n f).loft x = s.loft x := rfl
@[simp] theorem State.updCtr_to_link (n : Nat) (f : Counter → Counter) (x : Nat) : (s.updCtr n f).link x = s.link x := rfl
@[simp] theorem State.updCtr_to_srvJob (n : Nat) (f : Counter → Counter) (x : Nat) : (s.updCtr n f).srvJob x = s.srvJob x := rfl
@[simp] theorem State.updCtr_to_hst (n : Nat) (f : Counter → Counter) (x : Nat) : (s.updCtr n f).hst x = s.hst x := rfl
@[simp] theorem State.updCtr_to_ring (n : Nat) (f : Counter → Counter) (x : Nat) : (s.updCtr n f).ring x = s.ring x := rfl
@[simp] theorem State.updCtr_to_infoOf (n : Nat) (f : Counter → Counter) (x : Nat) : (s.updCtr n f).infoOf x = s.infoOf x := rfl
@[simp] theorem State.updCtr_to_secJob (n : Nat) (f : Counter → Counter) (x : Nat) : (s.updCtr n f).secJob x = s.secJob x := rfl
@[simp] theorem State.updCtr_to_yokJob (n : Nat) (f : Counter → Counter) (x : Nat) : (s.updCtr n f).yokJob x = s.yokJob x := rfl
@[simp] theorem State.updCtr_to_goodMask (n : Nat) (f : Counter → Counter) (x : Nat) : (s.updCtr n f).goodMask x = s.goodMask x := rfl
@[simp] theorem State.updCtr_to_nowNs (n : Nat) (f : Counter → Counter)  : (s.updCtr n f).nowNs = s.nowNs := rfl
@[simp] theorem State.updCtr_to_refNs (n : Nat) (f : Counter → Counter)  : (s.updCtr n f).refNs = s.refNs := rfl

@[simp] theorem State.updLoft_pending (n : Nat) (f : Loft → Loft) : (s.updLoft n f).pending = s.pending := rfl
@[simp] theorem State.updLoft_regs (n : Nat) (f : Loft → Loft) : (s.updLoft n f).regs = s.regs := rfl
@[simp] theorem State.updLoft_fused (n : Nat) (f : Loft → Loft) : (s.updLoft n f).fused = s.fused := rfl
@[simp] theorem State.updLoft_mask (n : Nat) (f : Loft → Loft) : (s.updLoft n f).mask = s.mask := rfl
@[simp] theorem State.updLoft_cfgRef (n : Nat) (f : Loft → Loft) : (s.updLoft n f).cfgRef = s.cfgRef := rfl
@[simp] theorem State.updLoft_time (n : Nat) (f : Loft → Loft) : (s.updLoft n f).time = s.time := rfl
@[simp] theorem State.updLoft_regions (n : Nat) (f : Loft → Loft) : (s.updLoft n f).regions = s.regions := rfl
@[simp] theorem State.updLoft_err (n : Nat) (f : Loft → Loft) : (s.updLoft n f).err = s.err := rfl
@[simp] theorem State.updLoft_stalls (n : Nat) (f : Loft → Loft) : (s.updLoft n f).stalls = s.stalls := rfl
@[simp] theorem State.updLoft_barns (n : Nat) (f : Loft → Loft) : (s.updLoft n f).barns = s.barns := rfl
@[simp] theorem State.updLoft_ctrs (n : Nat) (f : Loft → Loft) : (s.updLoft n f).ctrs = s.ctrs := rfl
@[simp] theorem State.updLoft_jobs (n : Nat) (f : Loft → Loft) : (s.updLoft n f).jobs = s.jobs := rfl
@[simp] theorem State.updLoft_mesh (n : Nat) (f : Loft → Loft) : (s.updLoft n f).mesh = s.mesh := rfl
@[simp] theorem State.updLoft_acts (n : Nat) (f : Loft → Loft) : (s.updLoft n f).acts = s.acts := rfl
@[simp] theorem State.updLoft_mism (n : Nat) (f : Loft → Loft) : (s.updLoft n f).mism = s.mism := rfl
@[simp] theorem State.updLoft_links (n : Nat) (f : Loft → Loft) : (s.updLoft n f).links = s.links := rfl
@[simp] theorem State.updLoft_fab (n : Nat) (f : Loft → Loft) : (s.updLoft n f).fab = s.fab := rfl
@[simp] theorem State.updLoft_srv (n : Nat) (f : Loft → Loft) : (s.updLoft n f).srv = s.srv := rfl
@[simp] theorem State.updLoft_prefix_ (n : Nat) (f : Loft → Loft) : (s.updLoft n f).prefix_ = s.prefix_ := rfl
@[simp] theorem State.updLoft_yok (n : Nat) (f : Loft → Loft) : (s.updLoft n f).yok = s.yok := rfl
@[simp] theorem State.updLoft_host (n : Nat) (f : Loft → Loft) : (s.updLoft n f).host = s.host := rfl
@[simp] theorem State.updLoft_rings (n : Nat) (f : Loft → Loft) : (s.updLoft n f).rings = s.rings := rfl
@[simp] theorem State.updLoft_copies (n : Nat) (f : Loft → Loft) : (s.updLoft n f).copies = s.copies := rfl
@[simp] theorem State.updLoft_loads (n : Nat) (f : Loft → Loft) : (s.updLoft n f).loads = s.loads := rfl
@[simp] theorem State.updLoft_info (n : Nat) (f : Loft → Loft) : (s.updLoft n f).info = s.info := rfl
@[simp] theorem State.updLoft_sec (n : Nat) (f : Loft → Loft) : (s.updLoft n f).sec = s.sec := rfl
@[simp] theorem State.updLoft_tck (n : Nat) (f : Loft → Loft) : (s.updLoft n f).tck = s.tck := rfl
@[simp] theorem State.updLoft_rep (n : Nat) (f : Loft → Loft) : (s.updLoft n f).rep = s.rep := rfl
@[simp] theorem State.updLoft_out (n : Nat) (f : Loft → Loft) : (s.updLoft n f).out = s.out := rfl
@[simp] theorem State.updLoft_freeCtr (n : Nat) (f : Loft → Loft) : (s.updLoft n f).freeCtr = s.freeCtr := rfl
@[simp] theorem State.updLoft_to_reg (n : Nat) (f : Loft → Loft) (x : Nat) : (s.updLoft n f).reg x = s.reg x := rfl
@[simp] theorem State.updLoft_to_fget (n : Nat) (f : Loft → Loft) (x : Fld) : (s.updLoft n f).fget x = s.fget x := rfl
@[simp] theorem State.updLoft_to_fbit (n : Nat) (f : Loft → Loft) (x : Fld) : (s.updLoft n f).fbit x = s.fbit x := rfl
@[simp] theorem State.updLoft_to_beat (n : Nat) (f : Loft → Loft) (x : Nat) : (s.updLoft n f).beat x = s.beat x := rfl
@[simp] theorem State.updLoft_to_region (n : Nat) (f : Loft → Loft) (x : Nat) : (s.updLoft n f).region x = s.region x := rfl
@[simp] theorem State.updLoft_to_stall (n : Nat) (f : Loft → Loft) (x : Nat) : (s.updLoft n f).stall x = s.stall x := rfl
@[simp] theorem State.updLoft_to_barn (n : Nat) (f : Loft → Loft) (x : Nat) : (s.updLoft n f).barn x = s.barn x := rfl
@[simp] theorem State.updLoft_to_job (n : Nat) (f : Loft → Loft) (x : Nat) : (s.updLoft n f).job x = s.job x := rfl
@[simp] theorem State.updLoft_to_ctr (n : Nat) (f : Loft → Loft) (x : Nat) : (s.updLoft n f).ctr x = s.ctr x := rfl
@[simp] theorem State.updLoft_to_link (n : Nat) (f : Loft → Loft) (x : Nat) : (s.updLoft n f).link x = s.link x := rfl
@[simp] theorem State.updLoft_to_srvJob (n : Nat) (f : Loft → Loft) (x : Nat) : (s.updLoft n f).srvJob x = s.srvJob x := rfl
@[simp] theorem State.updLoft_to_hst (n : Nat) (f : Loft → Loft) (x : Nat) : (s.updLoft n f).hst x = s.hst x := rfl
@[simp] theorem State.updLoft_to_ring (n : Nat) (f : Loft → Loft) (x : Nat) : (s.updLoft n f).ring x = s.ring x := rfl
@[simp] theorem State.updLoft_to_infoOf (n : Nat) (f : Loft → Loft) (x : Nat) : (s.updLoft n f).infoOf x = s.infoOf x := rfl
@[simp] theorem State.updLoft_to_secJob (n : Nat) (f : Loft → Loft) (x : Nat) : (s.updLoft n f).secJob x = s.secJob x := rfl
@[simp] theorem State.updLoft_to_yokJob (n : Nat) (f : Loft → Loft) (x : Nat) : (s.updLoft n f).yokJob x = s.yokJob x := rfl
@[simp] theorem State.updLoft_to_goodMask (n : Nat) (f : Loft → Loft) (x : Nat) : (s.updLoft n f).goodMask x = s.goodMask x := rfl
@[simp] theorem State.updLoft_to_nowNs (n : Nat) (f : Loft → Loft)  : (s.updLoft n f).nowNs = s.nowNs := rfl
@[simp] theorem State.updLoft_to_refNs (n : Nat) (f : Loft → Loft)  : (s.updLoft n f).refNs = s.refNs := rfl

@[simp] theorem State.addAct_pending (a : Act) : (s.addAct a).pending = s.pending := rfl
@[simp] theorem State.addAct_regs (a : Act) : (s.addAct a).regs = s.regs := rfl
@[simp] theorem State.addAct_fused (a : Act) : (s.addAct a).fused = s.fused := rfl
@[simp] theorem State.addAct_mask (a : Act) : (s.addAct a).mask = s.mask := rfl
@[simp] theorem State.addAct_cfgRef (a : Act) : (s.addAct a).cfgRef = s.cfgRef := rfl
@[simp] theorem State.addAct_time (a : Act) : (s.addAct a).time = s.time := rfl
@[simp] theorem State.addAct_regions (a : Act) : (s.addAct a).regions = s.regions := rfl
@[simp] theorem State.addAct_err (a : Act) : (s.addAct a).err = s.err := rfl
@[simp] theorem State.addAct_stalls (a : Act) : (s.addAct a).stalls = s.stalls := rfl
@[simp] theorem State.addAct_barns (a : Act) : (s.addAct a).barns = s.barns := rfl
@[simp] theorem State.addAct_ctrs (a : Act) : (s.addAct a).ctrs = s.ctrs := rfl
@[simp] theorem State.addAct_jobs (a : Act) : (s.addAct a).jobs = s.jobs := rfl
@[simp] theorem State.addAct_lofts (a : Act) : (s.addAct a).lofts = s.lofts := rfl
@[simp] theorem State.addAct_mesh (a : Act) : (s.addAct a).mesh = s.mesh := rfl
@[simp] theorem State.addAct_mism (a : Act) : (s.addAct a).mism = s.mism := rfl
@[simp] theorem State.addAct_links (a : Act) : (s.addAct a).links = s.links := rfl
@[simp] theorem State.addAct_fab (a : Act) : (s.addAct a).fab = s.fab := rfl
@[simp] theorem State.addAct_srv (a : Act) : (s.addAct a).srv = s.srv := rfl
@[simp] theorem State.addAct_prefix_ (a : Act) : (s.addAct a).prefix_ = s.prefix_ := rfl
@[simp] theorem State.addAct_yok (a : Act) : (s.addAct a).yok = s.yok := rfl
@[simp] theorem State.addAct_host (a : Act) : (s.addAct a).host = s.host := rfl
@[simp] theorem State.addAct_rings (a : Act) : (s.addAct a).rings = s.rings := rfl
@[simp] theorem State.addAct_copies (a : Act) : (s.addAct a).copies = s.copies := rfl
@[simp] theorem State.addAct_loads (a : Act) : (s.addAct a).loads = s.loads := rfl
@[simp] theorem State.addAct_info (a : Act) : (s.addAct a).info = s.info := rfl
@[simp] theorem State.addAct_sec (a : Act) : (s.addAct a).sec = s.sec := rfl
@[simp] theorem State.addAct_tck (a : Act) : (s.addAct a).tck = s.tck := rfl
@[simp] theorem State.addAct_rep (a : Act) : (s.addAct a).rep = s.rep := rfl
@[simp] theorem State.addAct_out (a : Act) : (s.addAct a).out = s.out := rfl
@[simp] theorem State.addAct_freeCtr (a : Act) : (s.addAct a).freeCtr = s.freeCtr := rfl
@[simp] theorem State.addAct_to_reg (a : Act) (x : Nat) : (s.addAct a).reg x = s.reg x := rfl
@[simp] theorem State.addAct_to_fget (a : Act) (x : Fld) : (s.addAct a).fget x = s.fget x := rfl
@[simp] theorem State.addAct_to_fbit (a : Act) (x : Fld) : (s.addAct a).fbit x = s.fbit x := rfl
@[simp] theorem State.addAct_to_beat (a : Act) (x : Nat) : (s.addAct a).beat x = s.beat x := rfl
@[simp] theorem State.addAct_to_region (a : Act) (x : Nat) : (s.addAct a).region x = s.region x := rfl
@[simp] theorem State.addAct_to_stall (a : Act) (x : Nat) : (s.addAct a).stall x = s.stall x := rfl
@[simp] theorem State.addAct_to_barn (a : Act) (x : Nat) : (s.addAct a).barn x = s.barn x := rfl
@[simp] theorem State.addAct_to_job (a : Act) (x : Nat) : (s.addAct a).job x = s.job x := rfl
@[simp] theorem State.addAct_to_ctr (a : Act) (x : Nat) : (s.addAct a).ctr x = s.ctr x := rfl
@[simp] theorem State.addAct_to_loft (a : Act) (x : Nat) : (s.addAct a).loft x = s.loft x := rfl
@[simp] theorem State.addAct_to_link (a : Act) (x : Nat) : (s.addAct a).link x = s.link x := rfl
@[simp] theorem State.addAct_to_srvJob (a : Act) (x : Nat) : (s.addAct a).srvJob x = s.srvJob x := rfl
@[simp] theorem State.addAct_to_hst (a : Act) (x : Nat) : (s.addAct a).hst x = s.hst x := rfl
@[simp] theorem State.addAct_to_ring (a : Act) (x : Nat) : (s.addAct a).ring x = s.ring x := rfl
@[simp] theorem State.addAct_to_infoOf (a : Act) (x : Nat) : (s.addAct a).infoOf x = s.infoOf x := rfl
@[simp] theorem State.addAct_to_secJob (a : Act) (x : Nat) : (s.addAct a).secJob x = s.secJob x := rfl
@[simp] theorem State.addAct_to_yokJob (a : Act) (x : Nat) : (s.addAct a).yokJob x = s.yokJob x := rfl
@[simp] theorem State.addAct_to_goodMask (a : Act) (x : Nat) : (s.addAct a).goodMask x = s.goodMask x := rfl
@[simp] theorem State.addAct_to_nowNs (a : Act)  : (s.addAct a).nowNs = s.nowNs := rfl
@[simp] theorem State.addAct_to_refNs (a : Act)  : (s.addAct a).refNs = s.refNs := rfl

@[simp] theorem State.send_pending (o : Out) : (s.send o).pending = s.pending := rfl
@[simp] theorem State.send_regs (o : Out) : (s.send o).regs = s.regs := rfl
@[simp] theorem State.send_fused (o : Out) : (s.send o).fused = s.fused := rfl
@[simp] theorem State.send_mask (o : Out) : (s.send o).mask = s.mask := rfl
@[simp] theorem State.send_cfgRef (o : Out) : (s.send o).cfgRef = s.cfgRef := rfl
@[simp] theorem State.send_time (o : Out) : (s.send o).time = s.time := rfl
@[simp] theorem State.send_regions (o : Out) : (s.send o).regions = s.regions := rfl
@[simp] theorem State.send_err (o : Out) : (s.send o).err = s.err := rfl
@[simp] theorem State.send_stalls (o : Out) : (s.send o).stalls = s.stalls := rfl
@[simp] theorem State.send_barns (o : Out) : (s.send o).barns = s.barns := rfl
@[simp] theorem State.send_ctrs (o : Out) : (s.send o).ctrs = s.ctrs := rfl
@[simp] theorem State.send_jobs (o : Out) : (s.send o).jobs = s.jobs := rfl
@[simp] theorem State.send_lofts (o : Out) : (s.send o).lofts = s.lofts := rfl
@[simp] theorem State.send_mesh (o : Out) : (s.send o).mesh = s.mesh := rfl
@[simp] theorem State.send_acts (o : Out) : (s.send o).acts = s.acts := rfl
@[simp] theorem State.send_mism (o : Out) : (s.send o).mism = s.mism := rfl
@[simp] theorem State.send_links (o : Out) : (s.send o).links = s.links := rfl
@[simp] theorem State.send_fab (o : Out) : (s.send o).fab = s.fab := rfl
@[simp] theorem State.send_srv (o : Out) : (s.send o).srv = s.srv := rfl
@[simp] theorem State.send_prefix_ (o : Out) : (s.send o).prefix_ = s.prefix_ := rfl
@[simp] theorem State.send_yok (o : Out) : (s.send o).yok = s.yok := rfl
@[simp] theorem State.send_host (o : Out) : (s.send o).host = s.host := rfl
@[simp] theorem State.send_rings (o : Out) : (s.send o).rings = s.rings := rfl
@[simp] theorem State.send_copies (o : Out) : (s.send o).copies = s.copies := rfl
@[simp] theorem State.send_loads (o : Out) : (s.send o).loads = s.loads := rfl
@[simp] theorem State.send_info (o : Out) : (s.send o).info = s.info := rfl
@[simp] theorem State.send_sec (o : Out) : (s.send o).sec = s.sec := rfl
@[simp] theorem State.send_tck (o : Out) : (s.send o).tck = s.tck := rfl
@[simp] theorem State.send_rep (o : Out) : (s.send o).rep = s.rep := rfl
@[simp] theorem State.send_freeCtr (o : Out) : (s.send o).freeCtr = s.freeCtr := rfl
@[simp] theorem State.send_to_reg (o : Out) (x : Nat) : (s.send o).reg x = s.reg x := rfl
@[simp] theorem State.send_to_fget (o : Out) (x : Fld) : (s.send o).fget x = s.fget x := rfl
@[simp] theorem State.send_to_fbit (o : Out) (x : Fld) : (s.send o).fbit x = s.fbit x := rfl
@[simp] theorem State.send_to_beat (o : Out) (x : Nat) : (s.send o).beat x = s.beat x := rfl
@[simp] theorem State.send_to_region (o : Out) (x : Nat) : (s.send o).region x = s.region x := rfl
@[simp] theorem State.send_to_stall (o : Out) (x : Nat) : (s.send o).stall x = s.stall x := rfl
@[simp] theorem State.send_to_barn (o : Out) (x : Nat) : (s.send o).barn x = s.barn x := rfl
@[simp] theorem State.send_to_job (o : Out) (x : Nat) : (s.send o).job x = s.job x := rfl
@[simp] theorem State.send_to_ctr (o : Out) (x : Nat) : (s.send o).ctr x = s.ctr x := rfl
@[simp] theorem State.send_to_loft (o : Out) (x : Nat) : (s.send o).loft x = s.loft x := rfl
@[simp] theorem State.send_to_link (o : Out) (x : Nat) : (s.send o).link x = s.link x := rfl
@[simp] theorem State.send_to_srvJob (o : Out) (x : Nat) : (s.send o).srvJob x = s.srvJob x := rfl
@[simp] theorem State.send_to_hst (o : Out) (x : Nat) : (s.send o).hst x = s.hst x := rfl
@[simp] theorem State.send_to_ring (o : Out) (x : Nat) : (s.send o).ring x = s.ring x := rfl
@[simp] theorem State.send_to_infoOf (o : Out) (x : Nat) : (s.send o).infoOf x = s.infoOf x := rfl
@[simp] theorem State.send_to_secJob (o : Out) (x : Nat) : (s.send o).secJob x = s.secJob x := rfl
@[simp] theorem State.send_to_yokJob (o : Out) (x : Nat) : (s.send o).yokJob x = s.yokJob x := rfl
@[simp] theorem State.send_to_goodMask (o : Out) (x : Nat) : (s.send o).goodMask x = s.goodMask x := rfl
@[simp] theorem State.send_to_nowNs (o : Out)  : (s.send o).nowNs = s.nowNs := rfl
@[simp] theorem State.send_to_refNs (o : Out)  : (s.send o).refNs = s.refNs := rfl

@[simp] theorem State.updLink_pending (n : Nat) (f : Link → Link) : (s.updLink n f).pending = s.pending := rfl
@[simp] theorem State.updLink_regs (n : Nat) (f : Link → Link) : (s.updLink n f).regs = s.regs := rfl
@[simp] theorem State.updLink_fused (n : Nat) (f : Link → Link) : (s.updLink n f).fused = s.fused := rfl
@[simp] theorem State.updLink_mask (n : Nat) (f : Link → Link) : (s.updLink n f).mask = s.mask := rfl
@[simp] theorem State.updLink_cfgRef (n : Nat) (f : Link → Link) : (s.updLink n f).cfgRef = s.cfgRef := rfl
@[simp] theorem State.updLink_time (n : Nat) (f : Link → Link) : (s.updLink n f).time = s.time := rfl
@[simp] theorem State.updLink_regions (n : Nat) (f : Link → Link) : (s.updLink n f).regions = s.regions := rfl
@[simp] theorem State.updLink_err (n : Nat) (f : Link → Link) : (s.updLink n f).err = s.err := rfl
@[simp] theorem State.updLink_stalls (n : Nat) (f : Link → Link) : (s.updLink n f).stalls = s.stalls := rfl
@[simp] theorem State.updLink_barns (n : Nat) (f : Link → Link) : (s.updLink n f).barns = s.barns := rfl
@[simp] theorem State.updLink_ctrs (n : Nat) (f : Link → Link) : (s.updLink n f).ctrs = s.ctrs := rfl
@[simp] theorem State.updLink_jobs (n : Nat) (f : Link → Link) : (s.updLink n f).jobs = s.jobs := rfl
@[simp] theorem State.updLink_lofts (n : Nat) (f : Link → Link) : (s.updLink n f).lofts = s.lofts := rfl
@[simp] theorem State.updLink_mesh (n : Nat) (f : Link → Link) : (s.updLink n f).mesh = s.mesh := rfl
@[simp] theorem State.updLink_acts (n : Nat) (f : Link → Link) : (s.updLink n f).acts = s.acts := rfl
@[simp] theorem State.updLink_mism (n : Nat) (f : Link → Link) : (s.updLink n f).mism = s.mism := rfl
@[simp] theorem State.updLink_fab (n : Nat) (f : Link → Link) : (s.updLink n f).fab = s.fab := rfl
@[simp] theorem State.updLink_srv (n : Nat) (f : Link → Link) : (s.updLink n f).srv = s.srv := rfl
@[simp] theorem State.updLink_prefix_ (n : Nat) (f : Link → Link) : (s.updLink n f).prefix_ = s.prefix_ := rfl
@[simp] theorem State.updLink_yok (n : Nat) (f : Link → Link) : (s.updLink n f).yok = s.yok := rfl
@[simp] theorem State.updLink_host (n : Nat) (f : Link → Link) : (s.updLink n f).host = s.host := rfl
@[simp] theorem State.updLink_rings (n : Nat) (f : Link → Link) : (s.updLink n f).rings = s.rings := rfl
@[simp] theorem State.updLink_copies (n : Nat) (f : Link → Link) : (s.updLink n f).copies = s.copies := rfl
@[simp] theorem State.updLink_loads (n : Nat) (f : Link → Link) : (s.updLink n f).loads = s.loads := rfl
@[simp] theorem State.updLink_info (n : Nat) (f : Link → Link) : (s.updLink n f).info = s.info := rfl
@[simp] theorem State.updLink_sec (n : Nat) (f : Link → Link) : (s.updLink n f).sec = s.sec := rfl
@[simp] theorem State.updLink_tck (n : Nat) (f : Link → Link) : (s.updLink n f).tck = s.tck := rfl
@[simp] theorem State.updLink_rep (n : Nat) (f : Link → Link) : (s.updLink n f).rep = s.rep := rfl
@[simp] theorem State.updLink_out (n : Nat) (f : Link → Link) : (s.updLink n f).out = s.out := rfl
@[simp] theorem State.updLink_freeCtr (n : Nat) (f : Link → Link) : (s.updLink n f).freeCtr = s.freeCtr := rfl
@[simp] theorem State.updLink_to_reg (n : Nat) (f : Link → Link) (x : Nat) : (s.updLink n f).reg x = s.reg x := rfl
@[simp] theorem State.updLink_to_fget (n : Nat) (f : Link → Link) (x : Fld) : (s.updLink n f).fget x = s.fget x := rfl
@[simp] theorem State.updLink_to_fbit (n : Nat) (f : Link → Link) (x : Fld) : (s.updLink n f).fbit x = s.fbit x := rfl
@[simp] theorem State.updLink_to_beat (n : Nat) (f : Link → Link) (x : Nat) : (s.updLink n f).beat x = s.beat x := rfl
@[simp] theorem State.updLink_to_region (n : Nat) (f : Link → Link) (x : Nat) : (s.updLink n f).region x = s.region x := rfl
@[simp] theorem State.updLink_to_stall (n : Nat) (f : Link → Link) (x : Nat) : (s.updLink n f).stall x = s.stall x := rfl
@[simp] theorem State.updLink_to_barn (n : Nat) (f : Link → Link) (x : Nat) : (s.updLink n f).barn x = s.barn x := rfl
@[simp] theorem State.updLink_to_job (n : Nat) (f : Link → Link) (x : Nat) : (s.updLink n f).job x = s.job x := rfl
@[simp] theorem State.updLink_to_ctr (n : Nat) (f : Link → Link) (x : Nat) : (s.updLink n f).ctr x = s.ctr x := rfl
@[simp] theorem State.updLink_to_loft (n : Nat) (f : Link → Link) (x : Nat) : (s.updLink n f).loft x = s.loft x := rfl
@[simp] theorem State.updLink_to_srvJob (n : Nat) (f : Link → Link) (x : Nat) : (s.updLink n f).srvJob x = s.srvJob x := rfl
@[simp] theorem State.updLink_to_hst (n : Nat) (f : Link → Link) (x : Nat) : (s.updLink n f).hst x = s.hst x := rfl
@[simp] theorem State.updLink_to_ring (n : Nat) (f : Link → Link) (x : Nat) : (s.updLink n f).ring x = s.ring x := rfl
@[simp] theorem State.updLink_to_infoOf (n : Nat) (f : Link → Link) (x : Nat) : (s.updLink n f).infoOf x = s.infoOf x := rfl
@[simp] theorem State.updLink_to_secJob (n : Nat) (f : Link → Link) (x : Nat) : (s.updLink n f).secJob x = s.secJob x := rfl
@[simp] theorem State.updLink_to_yokJob (n : Nat) (f : Link → Link) (x : Nat) : (s.updLink n f).yokJob x = s.yokJob x := rfl
@[simp] theorem State.updLink_to_goodMask (n : Nat) (f : Link → Link) (x : Nat) : (s.updLink n f).goodMask x = s.goodMask x := rfl
@[simp] theorem State.updLink_to_nowNs (n : Nat) (f : Link → Link)  : (s.updLink n f).nowNs = s.nowNs := rfl
@[simp] theorem State.updLink_to_refNs (n : Nat) (f : Link → Link)  : (s.updLink n f).refNs = s.refNs := rfl

@[simp] theorem State.updSrv_pending (n : Nat) (f : SrvJob → SrvJob) : (s.updSrv n f).pending = s.pending := rfl
@[simp] theorem State.updSrv_regs (n : Nat) (f : SrvJob → SrvJob) : (s.updSrv n f).regs = s.regs := rfl
@[simp] theorem State.updSrv_fused (n : Nat) (f : SrvJob → SrvJob) : (s.updSrv n f).fused = s.fused := rfl
@[simp] theorem State.updSrv_mask (n : Nat) (f : SrvJob → SrvJob) : (s.updSrv n f).mask = s.mask := rfl
@[simp] theorem State.updSrv_cfgRef (n : Nat) (f : SrvJob → SrvJob) : (s.updSrv n f).cfgRef = s.cfgRef := rfl
@[simp] theorem State.updSrv_time (n : Nat) (f : SrvJob → SrvJob) : (s.updSrv n f).time = s.time := rfl
@[simp] theorem State.updSrv_regions (n : Nat) (f : SrvJob → SrvJob) : (s.updSrv n f).regions = s.regions := rfl
@[simp] theorem State.updSrv_err (n : Nat) (f : SrvJob → SrvJob) : (s.updSrv n f).err = s.err := rfl
@[simp] theorem State.updSrv_stalls (n : Nat) (f : SrvJob → SrvJob) : (s.updSrv n f).stalls = s.stalls := rfl
@[simp] theorem State.updSrv_barns (n : Nat) (f : SrvJob → SrvJob) : (s.updSrv n f).barns = s.barns := rfl
@[simp] theorem State.updSrv_ctrs (n : Nat) (f : SrvJob → SrvJob) : (s.updSrv n f).ctrs = s.ctrs := rfl
@[simp] theorem State.updSrv_jobs (n : Nat) (f : SrvJob → SrvJob) : (s.updSrv n f).jobs = s.jobs := rfl
@[simp] theorem State.updSrv_lofts (n : Nat) (f : SrvJob → SrvJob) : (s.updSrv n f).lofts = s.lofts := rfl
@[simp] theorem State.updSrv_mesh (n : Nat) (f : SrvJob → SrvJob) : (s.updSrv n f).mesh = s.mesh := rfl
@[simp] theorem State.updSrv_acts (n : Nat) (f : SrvJob → SrvJob) : (s.updSrv n f).acts = s.acts := rfl
@[simp] theorem State.updSrv_mism (n : Nat) (f : SrvJob → SrvJob) : (s.updSrv n f).mism = s.mism := rfl
@[simp] theorem State.updSrv_links (n : Nat) (f : SrvJob → SrvJob) : (s.updSrv n f).links = s.links := rfl
@[simp] theorem State.updSrv_fab (n : Nat) (f : SrvJob → SrvJob) : (s.updSrv n f).fab = s.fab := rfl
@[simp] theorem State.updSrv_prefix_ (n : Nat) (f : SrvJob → SrvJob) : (s.updSrv n f).prefix_ = s.prefix_ := rfl
@[simp] theorem State.updSrv_yok (n : Nat) (f : SrvJob → SrvJob) : (s.updSrv n f).yok = s.yok := rfl
@[simp] theorem State.updSrv_host (n : Nat) (f : SrvJob → SrvJob) : (s.updSrv n f).host = s.host := rfl
@[simp] theorem State.updSrv_rings (n : Nat) (f : SrvJob → SrvJob) : (s.updSrv n f).rings = s.rings := rfl
@[simp] theorem State.updSrv_copies (n : Nat) (f : SrvJob → SrvJob) : (s.updSrv n f).copies = s.copies := rfl
@[simp] theorem State.updSrv_loads (n : Nat) (f : SrvJob → SrvJob) : (s.updSrv n f).loads = s.loads := rfl
@[simp] theorem State.updSrv_info (n : Nat) (f : SrvJob → SrvJob) : (s.updSrv n f).info = s.info := rfl
@[simp] theorem State.updSrv_sec (n : Nat) (f : SrvJob → SrvJob) : (s.updSrv n f).sec = s.sec := rfl
@[simp] theorem State.updSrv_tck (n : Nat) (f : SrvJob → SrvJob) : (s.updSrv n f).tck = s.tck := rfl
@[simp] theorem State.updSrv_rep (n : Nat) (f : SrvJob → SrvJob) : (s.updSrv n f).rep = s.rep := rfl
@[simp] theorem State.updSrv_out (n : Nat) (f : SrvJob → SrvJob) : (s.updSrv n f).out = s.out := rfl
@[simp] theorem State.updSrv_freeCtr (n : Nat) (f : SrvJob → SrvJob) : (s.updSrv n f).freeCtr = s.freeCtr := rfl
@[simp] theorem State.updSrv_to_reg (n : Nat) (f : SrvJob → SrvJob) (x : Nat) : (s.updSrv n f).reg x = s.reg x := rfl
@[simp] theorem State.updSrv_to_fget (n : Nat) (f : SrvJob → SrvJob) (x : Fld) : (s.updSrv n f).fget x = s.fget x := rfl
@[simp] theorem State.updSrv_to_fbit (n : Nat) (f : SrvJob → SrvJob) (x : Fld) : (s.updSrv n f).fbit x = s.fbit x := rfl
@[simp] theorem State.updSrv_to_beat (n : Nat) (f : SrvJob → SrvJob) (x : Nat) : (s.updSrv n f).beat x = s.beat x := rfl
@[simp] theorem State.updSrv_to_region (n : Nat) (f : SrvJob → SrvJob) (x : Nat) : (s.updSrv n f).region x = s.region x := rfl
@[simp] theorem State.updSrv_to_stall (n : Nat) (f : SrvJob → SrvJob) (x : Nat) : (s.updSrv n f).stall x = s.stall x := rfl
@[simp] theorem State.updSrv_to_barn (n : Nat) (f : SrvJob → SrvJob) (x : Nat) : (s.updSrv n f).barn x = s.barn x := rfl
@[simp] theorem State.updSrv_to_job (n : Nat) (f : SrvJob → SrvJob) (x : Nat) : (s.updSrv n f).job x = s.job x := rfl
@[simp] theorem State.updSrv_to_ctr (n : Nat) (f : SrvJob → SrvJob) (x : Nat) : (s.updSrv n f).ctr x = s.ctr x := rfl
@[simp] theorem State.updSrv_to_loft (n : Nat) (f : SrvJob → SrvJob) (x : Nat) : (s.updSrv n f).loft x = s.loft x := rfl
@[simp] theorem State.updSrv_to_link (n : Nat) (f : SrvJob → SrvJob) (x : Nat) : (s.updSrv n f).link x = s.link x := rfl
@[simp] theorem State.updSrv_to_hst (n : Nat) (f : SrvJob → SrvJob) (x : Nat) : (s.updSrv n f).hst x = s.hst x := rfl
@[simp] theorem State.updSrv_to_ring (n : Nat) (f : SrvJob → SrvJob) (x : Nat) : (s.updSrv n f).ring x = s.ring x := rfl
@[simp] theorem State.updSrv_to_infoOf (n : Nat) (f : SrvJob → SrvJob) (x : Nat) : (s.updSrv n f).infoOf x = s.infoOf x := rfl
@[simp] theorem State.updSrv_to_secJob (n : Nat) (f : SrvJob → SrvJob) (x : Nat) : (s.updSrv n f).secJob x = s.secJob x := rfl
@[simp] theorem State.updSrv_to_yokJob (n : Nat) (f : SrvJob → SrvJob) (x : Nat) : (s.updSrv n f).yokJob x = s.yokJob x := rfl
@[simp] theorem State.updSrv_to_goodMask (n : Nat) (f : SrvJob → SrvJob) (x : Nat) : (s.updSrv n f).goodMask x = s.goodMask x := rfl
@[simp] theorem State.updSrv_to_nowNs (n : Nat) (f : SrvJob → SrvJob)  : (s.updSrv n f).nowNs = s.nowNs := rfl
@[simp] theorem State.updSrv_to_refNs (n : Nat) (f : SrvJob → SrvJob)  : (s.updSrv n f).refNs = s.refNs := rfl

@[simp] theorem State.updHst_pending (n : Nat) (f : HostSt → HostSt) : (s.updHst n f).pending = s.pending := rfl
@[simp] theorem State.updHst_regs (n : Nat) (f : HostSt → HostSt) : (s.updHst n f).regs = s.regs := rfl
@[simp] theorem State.updHst_fused (n : Nat) (f : HostSt → HostSt) : (s.updHst n f).fused = s.fused := rfl
@[simp] theorem State.updHst_mask (n : Nat) (f : HostSt → HostSt) : (s.updHst n f).mask = s.mask := rfl
@[simp] theorem State.updHst_cfgRef (n : Nat) (f : HostSt → HostSt) : (s.updHst n f).cfgRef = s.cfgRef := rfl
@[simp] theorem State.updHst_time (n : Nat) (f : HostSt → HostSt) : (s.updHst n f).time = s.time := rfl
@[simp] theorem State.updHst_regions (n : Nat) (f : HostSt → HostSt) : (s.updHst n f).regions = s.regions := rfl
@[simp] theorem State.updHst_err (n : Nat) (f : HostSt → HostSt) : (s.updHst n f).err = s.err := rfl
@[simp] theorem State.updHst_stalls (n : Nat) (f : HostSt → HostSt) : (s.updHst n f).stalls = s.stalls := rfl
@[simp] theorem State.updHst_barns (n : Nat) (f : HostSt → HostSt) : (s.updHst n f).barns = s.barns := rfl
@[simp] theorem State.updHst_ctrs (n : Nat) (f : HostSt → HostSt) : (s.updHst n f).ctrs = s.ctrs := rfl
@[simp] theorem State.updHst_jobs (n : Nat) (f : HostSt → HostSt) : (s.updHst n f).jobs = s.jobs := rfl
@[simp] theorem State.updHst_lofts (n : Nat) (f : HostSt → HostSt) : (s.updHst n f).lofts = s.lofts := rfl
@[simp] theorem State.updHst_mesh (n : Nat) (f : HostSt → HostSt) : (s.updHst n f).mesh = s.mesh := rfl
@[simp] theorem State.updHst_acts (n : Nat) (f : HostSt → HostSt) : (s.updHst n f).acts = s.acts := rfl
@[simp] theorem State.updHst_mism (n : Nat) (f : HostSt → HostSt) : (s.updHst n f).mism = s.mism := rfl
@[simp] theorem State.updHst_links (n : Nat) (f : HostSt → HostSt) : (s.updHst n f).links = s.links := rfl
@[simp] theorem State.updHst_fab (n : Nat) (f : HostSt → HostSt) : (s.updHst n f).fab = s.fab := rfl
@[simp] theorem State.updHst_srv (n : Nat) (f : HostSt → HostSt) : (s.updHst n f).srv = s.srv := rfl
@[simp] theorem State.updHst_prefix_ (n : Nat) (f : HostSt → HostSt) : (s.updHst n f).prefix_ = s.prefix_ := rfl
@[simp] theorem State.updHst_yok (n : Nat) (f : HostSt → HostSt) : (s.updHst n f).yok = s.yok := rfl
@[simp] theorem State.updHst_rings (n : Nat) (f : HostSt → HostSt) : (s.updHst n f).rings = s.rings := rfl
@[simp] theorem State.updHst_copies (n : Nat) (f : HostSt → HostSt) : (s.updHst n f).copies = s.copies := rfl
@[simp] theorem State.updHst_loads (n : Nat) (f : HostSt → HostSt) : (s.updHst n f).loads = s.loads := rfl
@[simp] theorem State.updHst_info (n : Nat) (f : HostSt → HostSt) : (s.updHst n f).info = s.info := rfl
@[simp] theorem State.updHst_sec (n : Nat) (f : HostSt → HostSt) : (s.updHst n f).sec = s.sec := rfl
@[simp] theorem State.updHst_tck (n : Nat) (f : HostSt → HostSt) : (s.updHst n f).tck = s.tck := rfl
@[simp] theorem State.updHst_rep (n : Nat) (f : HostSt → HostSt) : (s.updHst n f).rep = s.rep := rfl
@[simp] theorem State.updHst_out (n : Nat) (f : HostSt → HostSt) : (s.updHst n f).out = s.out := rfl
@[simp] theorem State.updHst_freeCtr (n : Nat) (f : HostSt → HostSt) : (s.updHst n f).freeCtr = s.freeCtr := rfl
@[simp] theorem State.updHst_to_reg (n : Nat) (f : HostSt → HostSt) (x : Nat) : (s.updHst n f).reg x = s.reg x := rfl
@[simp] theorem State.updHst_to_fget (n : Nat) (f : HostSt → HostSt) (x : Fld) : (s.updHst n f).fget x = s.fget x := rfl
@[simp] theorem State.updHst_to_fbit (n : Nat) (f : HostSt → HostSt) (x : Fld) : (s.updHst n f).fbit x = s.fbit x := rfl
@[simp] theorem State.updHst_to_beat (n : Nat) (f : HostSt → HostSt) (x : Nat) : (s.updHst n f).beat x = s.beat x := rfl
@[simp] theorem State.updHst_to_region (n : Nat) (f : HostSt → HostSt) (x : Nat) : (s.updHst n f).region x = s.region x := rfl
@[simp] theorem State.updHst_to_stall (n : Nat) (f : HostSt → HostSt) (x : Nat) : (s.updHst n f).stall x = s.stall x := rfl
@[simp] theorem State.updHst_to_barn (n : Nat) (f : HostSt → HostSt) (x : Nat) : (s.updHst n f).barn x = s.barn x := rfl
@[simp] theorem State.updHst_to_job (n : Nat) (f : HostSt → HostSt) (x : Nat) : (s.updHst n f).job x = s.job x := rfl
@[simp] theorem State.updHst_to_ctr (n : Nat) (f : HostSt → HostSt) (x : Nat) : (s.updHst n f).ctr x = s.ctr x := rfl
@[simp] theorem State.updHst_to_loft (n : Nat) (f : HostSt → HostSt) (x : Nat) : (s.updHst n f).loft x = s.loft x := rfl
@[simp] theorem State.updHst_to_link (n : Nat) (f : HostSt → HostSt) (x : Nat) : (s.updHst n f).link x = s.link x := rfl
@[simp] theorem State.updHst_to_srvJob (n : Nat) (f : HostSt → HostSt) (x : Nat) : (s.updHst n f).srvJob x = s.srvJob x := rfl
@[simp] theorem State.updHst_to_ring (n : Nat) (f : HostSt → HostSt) (x : Nat) : (s.updHst n f).ring x = s.ring x := rfl
@[simp] theorem State.updHst_to_infoOf (n : Nat) (f : HostSt → HostSt) (x : Nat) : (s.updHst n f).infoOf x = s.infoOf x := rfl
@[simp] theorem State.updHst_to_secJob (n : Nat) (f : HostSt → HostSt) (x : Nat) : (s.updHst n f).secJob x = s.secJob x := rfl
@[simp] theorem State.updHst_to_yokJob (n : Nat) (f : HostSt → HostSt) (x : Nat) : (s.updHst n f).yokJob x = s.yokJob x := rfl
@[simp] theorem State.updHst_to_goodMask (n : Nat) (f : HostSt → HostSt) (x : Nat) : (s.updHst n f).goodMask x = s.goodMask x := rfl
@[simp] theorem State.updHst_to_nowNs (n : Nat) (f : HostSt → HostSt)  : (s.updHst n f).nowNs = s.nowNs := rfl
@[simp] theorem State.updHst_to_refNs (n : Nat) (f : HostSt → HostSt)  : (s.updHst n f).refNs = s.refNs := rfl

@[simp] theorem State.updRing_pending (n : Nat) (f : Ring → Ring) : (s.updRing n f).pending = s.pending := rfl
@[simp] theorem State.updRing_regs (n : Nat) (f : Ring → Ring) : (s.updRing n f).regs = s.regs := rfl
@[simp] theorem State.updRing_fused (n : Nat) (f : Ring → Ring) : (s.updRing n f).fused = s.fused := rfl
@[simp] theorem State.updRing_mask (n : Nat) (f : Ring → Ring) : (s.updRing n f).mask = s.mask := rfl
@[simp] theorem State.updRing_cfgRef (n : Nat) (f : Ring → Ring) : (s.updRing n f).cfgRef = s.cfgRef := rfl
@[simp] theorem State.updRing_time (n : Nat) (f : Ring → Ring) : (s.updRing n f).time = s.time := rfl
@[simp] theorem State.updRing_regions (n : Nat) (f : Ring → Ring) : (s.updRing n f).regions = s.regions := rfl
@[simp] theorem State.updRing_err (n : Nat) (f : Ring → Ring) : (s.updRing n f).err = s.err := rfl
@[simp] theorem State.updRing_stalls (n : Nat) (f : Ring → Ring) : (s.updRing n f).stalls = s.stalls := rfl
@[simp] theorem State.updRing_barns (n : Nat) (f : Ring → Ring) : (s.updRing n f).barns = s.barns := rfl
@[simp] theorem State.updRing_ctrs (n : Nat) (f : Ring → Ring) : (s.updRing n f).ctrs = s.ctrs := rfl
@[simp] theorem State.updRing_jobs (n : Nat) (f : Ring → Ring) : (s.updRing n f).jobs = s.jobs := rfl
@[simp] theorem State.updRing_lofts (n : Nat) (f : Ring → Ring) : (s.updRing n f).lofts = s.lofts := rfl
@[simp] theorem State.updRing_mesh (n : Nat) (f : Ring → Ring) : (s.updRing n f).mesh = s.mesh := rfl
@[simp] theorem State.updRing_acts (n : Nat) (f : Ring → Ring) : (s.updRing n f).acts = s.acts := rfl
@[simp] theorem State.updRing_mism (n : Nat) (f : Ring → Ring) : (s.updRing n f).mism = s.mism := rfl
@[simp] theorem State.updRing_links (n : Nat) (f : Ring → Ring) : (s.updRing n f).links = s.links := rfl
@[simp] theorem State.updRing_fab (n : Nat) (f : Ring → Ring) : (s.updRing n f).fab = s.fab := rfl
@[simp] theorem State.updRing_srv (n : Nat) (f : Ring → Ring) : (s.updRing n f).srv = s.srv := rfl
@[simp] theorem State.updRing_prefix_ (n : Nat) (f : Ring → Ring) : (s.updRing n f).prefix_ = s.prefix_ := rfl
@[simp] theorem State.updRing_yok (n : Nat) (f : Ring → Ring) : (s.updRing n f).yok = s.yok := rfl
@[simp] theorem State.updRing_host (n : Nat) (f : Ring → Ring) : (s.updRing n f).host = s.host := rfl
@[simp] theorem State.updRing_copies (n : Nat) (f : Ring → Ring) : (s.updRing n f).copies = s.copies := rfl
@[simp] theorem State.updRing_loads (n : Nat) (f : Ring → Ring) : (s.updRing n f).loads = s.loads := rfl
@[simp] theorem State.updRing_info (n : Nat) (f : Ring → Ring) : (s.updRing n f).info = s.info := rfl
@[simp] theorem State.updRing_sec (n : Nat) (f : Ring → Ring) : (s.updRing n f).sec = s.sec := rfl
@[simp] theorem State.updRing_tck (n : Nat) (f : Ring → Ring) : (s.updRing n f).tck = s.tck := rfl
@[simp] theorem State.updRing_rep (n : Nat) (f : Ring → Ring) : (s.updRing n f).rep = s.rep := rfl
@[simp] theorem State.updRing_out (n : Nat) (f : Ring → Ring) : (s.updRing n f).out = s.out := rfl
@[simp] theorem State.updRing_freeCtr (n : Nat) (f : Ring → Ring) : (s.updRing n f).freeCtr = s.freeCtr := rfl
@[simp] theorem State.updRing_to_reg (n : Nat) (f : Ring → Ring) (x : Nat) : (s.updRing n f).reg x = s.reg x := rfl
@[simp] theorem State.updRing_to_fget (n : Nat) (f : Ring → Ring) (x : Fld) : (s.updRing n f).fget x = s.fget x := rfl
@[simp] theorem State.updRing_to_fbit (n : Nat) (f : Ring → Ring) (x : Fld) : (s.updRing n f).fbit x = s.fbit x := rfl
@[simp] theorem State.updRing_to_beat (n : Nat) (f : Ring → Ring) (x : Nat) : (s.updRing n f).beat x = s.beat x := rfl
@[simp] theorem State.updRing_to_region (n : Nat) (f : Ring → Ring) (x : Nat) : (s.updRing n f).region x = s.region x := rfl
@[simp] theorem State.updRing_to_stall (n : Nat) (f : Ring → Ring) (x : Nat) : (s.updRing n f).stall x = s.stall x := rfl
@[simp] theorem State.updRing_to_barn (n : Nat) (f : Ring → Ring) (x : Nat) : (s.updRing n f).barn x = s.barn x := rfl
@[simp] theorem State.updRing_to_job (n : Nat) (f : Ring → Ring) (x : Nat) : (s.updRing n f).job x = s.job x := rfl
@[simp] theorem State.updRing_to_ctr (n : Nat) (f : Ring → Ring) (x : Nat) : (s.updRing n f).ctr x = s.ctr x := rfl
@[simp] theorem State.updRing_to_loft (n : Nat) (f : Ring → Ring) (x : Nat) : (s.updRing n f).loft x = s.loft x := rfl
@[simp] theorem State.updRing_to_link (n : Nat) (f : Ring → Ring) (x : Nat) : (s.updRing n f).link x = s.link x := rfl
@[simp] theorem State.updRing_to_srvJob (n : Nat) (f : Ring → Ring) (x : Nat) : (s.updRing n f).srvJob x = s.srvJob x := rfl
@[simp] theorem State.updRing_to_hst (n : Nat) (f : Ring → Ring) (x : Nat) : (s.updRing n f).hst x = s.hst x := rfl
@[simp] theorem State.updRing_to_infoOf (n : Nat) (f : Ring → Ring) (x : Nat) : (s.updRing n f).infoOf x = s.infoOf x := rfl
@[simp] theorem State.updRing_to_secJob (n : Nat) (f : Ring → Ring) (x : Nat) : (s.updRing n f).secJob x = s.secJob x := rfl
@[simp] theorem State.updRing_to_yokJob (n : Nat) (f : Ring → Ring) (x : Nat) : (s.updRing n f).yokJob x = s.yokJob x := rfl
@[simp] theorem State.updRing_to_goodMask (n : Nat) (f : Ring → Ring) (x : Nat) : (s.updRing n f).goodMask x = s.goodMask x := rfl
@[simp] theorem State.updRing_to_nowNs (n : Nat) (f : Ring → Ring)  : (s.updRing n f).nowNs = s.nowNs := rfl
@[simp] theorem State.updRing_to_refNs (n : Nat) (f : Ring → Ring)  : (s.updRing n f).refNs = s.refNs := rfl

@[simp] theorem State.updInfo_pending (n : Nat) (f : JobInfo → JobInfo) : (s.updInfo n f).pending = s.pending := rfl
@[simp] theorem State.updInfo_regs (n : Nat) (f : JobInfo → JobInfo) : (s.updInfo n f).regs = s.regs := rfl
@[simp] theorem State.updInfo_fused (n : Nat) (f : JobInfo → JobInfo) : (s.updInfo n f).fused = s.fused := rfl
@[simp] theorem State.updInfo_mask (n : Nat) (f : JobInfo → JobInfo) : (s.updInfo n f).mask = s.mask := rfl
@[simp] theorem State.updInfo_cfgRef (n : Nat) (f : JobInfo → JobInfo) : (s.updInfo n f).cfgRef = s.cfgRef := rfl
@[simp] theorem State.updInfo_time (n : Nat) (f : JobInfo → JobInfo) : (s.updInfo n f).time = s.time := rfl
@[simp] theorem State.updInfo_regions (n : Nat) (f : JobInfo → JobInfo) : (s.updInfo n f).regions = s.regions := rfl
@[simp] theorem State.updInfo_err (n : Nat) (f : JobInfo → JobInfo) : (s.updInfo n f).err = s.err := rfl
@[simp] theorem State.updInfo_stalls (n : Nat) (f : JobInfo → JobInfo) : (s.updInfo n f).stalls = s.stalls := rfl
@[simp] theorem State.updInfo_barns (n : Nat) (f : JobInfo → JobInfo) : (s.updInfo n f).barns = s.barns := rfl
@[simp] theorem State.updInfo_ctrs (n : Nat) (f : JobInfo → JobInfo) : (s.updInfo n f).ctrs = s.ctrs := rfl
@[simp] theorem State.updInfo_jobs (n : Nat) (f : JobInfo → JobInfo) : (s.updInfo n f).jobs = s.jobs := rfl
@[simp] theorem State.updInfo_lofts (n : Nat) (f : JobInfo → JobInfo) : (s.updInfo n f).lofts = s.lofts := rfl
@[simp] theorem State.updInfo_mesh (n : Nat) (f : JobInfo → JobInfo) : (s.updInfo n f).mesh = s.mesh := rfl
@[simp] theorem State.updInfo_acts (n : Nat) (f : JobInfo → JobInfo) : (s.updInfo n f).acts = s.acts := rfl
@[simp] theorem State.updInfo_mism (n : Nat) (f : JobInfo → JobInfo) : (s.updInfo n f).mism = s.mism := rfl
@[simp] theorem State.updInfo_links (n : Nat) (f : JobInfo → JobInfo) : (s.updInfo n f).links = s.links := rfl
@[simp] theorem State.updInfo_fab (n : Nat) (f : JobInfo → JobInfo) : (s.updInfo n f).fab = s.fab := rfl
@[simp] theorem State.updInfo_srv (n : Nat) (f : JobInfo → JobInfo) : (s.updInfo n f).srv = s.srv := rfl
@[simp] theorem State.updInfo_prefix_ (n : Nat) (f : JobInfo → JobInfo) : (s.updInfo n f).prefix_ = s.prefix_ := rfl
@[simp] theorem State.updInfo_yok (n : Nat) (f : JobInfo → JobInfo) : (s.updInfo n f).yok = s.yok := rfl
@[simp] theorem State.updInfo_host (n : Nat) (f : JobInfo → JobInfo) : (s.updInfo n f).host = s.host := rfl
@[simp] theorem State.updInfo_rings (n : Nat) (f : JobInfo → JobInfo) : (s.updInfo n f).rings = s.rings := rfl
@[simp] theorem State.updInfo_copies (n : Nat) (f : JobInfo → JobInfo) : (s.updInfo n f).copies = s.copies := rfl
@[simp] theorem State.updInfo_loads (n : Nat) (f : JobInfo → JobInfo) : (s.updInfo n f).loads = s.loads := rfl
@[simp] theorem State.updInfo_sec (n : Nat) (f : JobInfo → JobInfo) : (s.updInfo n f).sec = s.sec := rfl
@[simp] theorem State.updInfo_tck (n : Nat) (f : JobInfo → JobInfo) : (s.updInfo n f).tck = s.tck := rfl
@[simp] theorem State.updInfo_rep (n : Nat) (f : JobInfo → JobInfo) : (s.updInfo n f).rep = s.rep := rfl
@[simp] theorem State.updInfo_out (n : Nat) (f : JobInfo → JobInfo) : (s.updInfo n f).out = s.out := rfl
@[simp] theorem State.updInfo_freeCtr (n : Nat) (f : JobInfo → JobInfo) : (s.updInfo n f).freeCtr = s.freeCtr := rfl
@[simp] theorem State.updInfo_to_reg (n : Nat) (f : JobInfo → JobInfo) (x : Nat) : (s.updInfo n f).reg x = s.reg x := rfl
@[simp] theorem State.updInfo_to_fget (n : Nat) (f : JobInfo → JobInfo) (x : Fld) : (s.updInfo n f).fget x = s.fget x := rfl
@[simp] theorem State.updInfo_to_fbit (n : Nat) (f : JobInfo → JobInfo) (x : Fld) : (s.updInfo n f).fbit x = s.fbit x := rfl
@[simp] theorem State.updInfo_to_beat (n : Nat) (f : JobInfo → JobInfo) (x : Nat) : (s.updInfo n f).beat x = s.beat x := rfl
@[simp] theorem State.updInfo_to_region (n : Nat) (f : JobInfo → JobInfo) (x : Nat) : (s.updInfo n f).region x = s.region x := rfl
@[simp] theorem State.updInfo_to_stall (n : Nat) (f : JobInfo → JobInfo) (x : Nat) : (s.updInfo n f).stall x = s.stall x := rfl
@[simp] theorem State.updInfo_to_barn (n : Nat) (f : JobInfo → JobInfo) (x : Nat) : (s.updInfo n f).barn x = s.barn x := rfl
@[simp] theorem State.updInfo_to_job (n : Nat) (f : JobInfo → JobInfo) (x : Nat) : (s.updInfo n f).job x = s.job x := rfl
@[simp] theorem State.updInfo_to_ctr (n : Nat) (f : JobInfo → JobInfo) (x : Nat) : (s.updInfo n f).ctr x = s.ctr x := rfl
@[simp] theorem State.updInfo_to_loft (n : Nat) (f : JobInfo → JobInfo) (x : Nat) : (s.updInfo n f).loft x = s.loft x := rfl
@[simp] theorem State.updInfo_to_link (n : Nat) (f : JobInfo → JobInfo) (x : Nat) : (s.updInfo n f).link x = s.link x := rfl
@[simp] theorem State.updInfo_to_srvJob (n : Nat) (f : JobInfo → JobInfo) (x : Nat) : (s.updInfo n f).srvJob x = s.srvJob x := rfl
@[simp] theorem State.updInfo_to_hst (n : Nat) (f : JobInfo → JobInfo) (x : Nat) : (s.updInfo n f).hst x = s.hst x := rfl
@[simp] theorem State.updInfo_to_ring (n : Nat) (f : JobInfo → JobInfo) (x : Nat) : (s.updInfo n f).ring x = s.ring x := rfl
@[simp] theorem State.updInfo_to_secJob (n : Nat) (f : JobInfo → JobInfo) (x : Nat) : (s.updInfo n f).secJob x = s.secJob x := rfl
@[simp] theorem State.updInfo_to_yokJob (n : Nat) (f : JobInfo → JobInfo) (x : Nat) : (s.updInfo n f).yokJob x = s.yokJob x := rfl
@[simp] theorem State.updInfo_to_goodMask (n : Nat) (f : JobInfo → JobInfo) (x : Nat) : (s.updInfo n f).goodMask x = s.goodMask x := rfl
@[simp] theorem State.updInfo_to_nowNs (n : Nat) (f : JobInfo → JobInfo)  : (s.updInfo n f).nowNs = s.nowNs := rfl
@[simp] theorem State.updInfo_to_refNs (n : Nat) (f : JobInfo → JobInfo)  : (s.updInfo n f).refNs = s.refNs := rfl

@[simp] theorem State.updSec_pending (n : Nat) (f : SecJob → SecJob) : (s.updSec n f).pending = s.pending := rfl
@[simp] theorem State.updSec_regs (n : Nat) (f : SecJob → SecJob) : (s.updSec n f).regs = s.regs := rfl
@[simp] theorem State.updSec_fused (n : Nat) (f : SecJob → SecJob) : (s.updSec n f).fused = s.fused := rfl
@[simp] theorem State.updSec_mask (n : Nat) (f : SecJob → SecJob) : (s.updSec n f).mask = s.mask := rfl
@[simp] theorem State.updSec_cfgRef (n : Nat) (f : SecJob → SecJob) : (s.updSec n f).cfgRef = s.cfgRef := rfl
@[simp] theorem State.updSec_time (n : Nat) (f : SecJob → SecJob) : (s.updSec n f).time = s.time := rfl
@[simp] theorem State.updSec_regions (n : Nat) (f : SecJob → SecJob) : (s.updSec n f).regions = s.regions := rfl
@[simp] theorem State.updSec_err (n : Nat) (f : SecJob → SecJob) : (s.updSec n f).err = s.err := rfl
@[simp] theorem State.updSec_stalls (n : Nat) (f : SecJob → SecJob) : (s.updSec n f).stalls = s.stalls := rfl
@[simp] theorem State.updSec_barns (n : Nat) (f : SecJob → SecJob) : (s.updSec n f).barns = s.barns := rfl
@[simp] theorem State.updSec_ctrs (n : Nat) (f : SecJob → SecJob) : (s.updSec n f).ctrs = s.ctrs := rfl
@[simp] theorem State.updSec_jobs (n : Nat) (f : SecJob → SecJob) : (s.updSec n f).jobs = s.jobs := rfl
@[simp] theorem State.updSec_lofts (n : Nat) (f : SecJob → SecJob) : (s.updSec n f).lofts = s.lofts := rfl
@[simp] theorem State.updSec_mesh (n : Nat) (f : SecJob → SecJob) : (s.updSec n f).mesh = s.mesh := rfl
@[simp] theorem State.updSec_acts (n : Nat) (f : SecJob → SecJob) : (s.updSec n f).acts = s.acts := rfl
@[simp] theorem State.updSec_mism (n : Nat) (f : SecJob → SecJob) : (s.updSec n f).mism = s.mism := rfl
@[simp] theorem State.updSec_links (n : Nat) (f : SecJob → SecJob) : (s.updSec n f).links = s.links := rfl
@[simp] theorem State.updSec_fab (n : Nat) (f : SecJob → SecJob) : (s.updSec n f).fab = s.fab := rfl
@[simp] theorem State.updSec_srv (n : Nat) (f : SecJob → SecJob) : (s.updSec n f).srv = s.srv := rfl
@[simp] theorem State.updSec_prefix_ (n : Nat) (f : SecJob → SecJob) : (s.updSec n f).prefix_ = s.prefix_ := rfl
@[simp] theorem State.updSec_yok (n : Nat) (f : SecJob → SecJob) : (s.updSec n f).yok = s.yok := rfl
@[simp] theorem State.updSec_host (n : Nat) (f : SecJob → SecJob) : (s.updSec n f).host = s.host := rfl
@[simp] theorem State.updSec_rings (n : Nat) (f : SecJob → SecJob) : (s.updSec n f).rings = s.rings := rfl
@[simp] theorem State.updSec_copies (n : Nat) (f : SecJob → SecJob) : (s.updSec n f).copies = s.copies := rfl
@[simp] theorem State.updSec_loads (n : Nat) (f : SecJob → SecJob) : (s.updSec n f).loads = s.loads := rfl
@[simp] theorem State.updSec_info (n : Nat) (f : SecJob → SecJob) : (s.updSec n f).info = s.info := rfl
@[simp] theorem State.updSec_tck (n : Nat) (f : SecJob → SecJob) : (s.updSec n f).tck = s.tck := rfl
@[simp] theorem State.updSec_rep (n : Nat) (f : SecJob → SecJob) : (s.updSec n f).rep = s.rep := rfl
@[simp] theorem State.updSec_out (n : Nat) (f : SecJob → SecJob) : (s.updSec n f).out = s.out := rfl
@[simp] theorem State.updSec_freeCtr (n : Nat) (f : SecJob → SecJob) : (s.updSec n f).freeCtr = s.freeCtr := rfl
@[simp] theorem State.updSec_to_reg (n : Nat) (f : SecJob → SecJob) (x : Nat) : (s.updSec n f).reg x = s.reg x := rfl
@[simp] theorem State.updSec_to_fget (n : Nat) (f : SecJob → SecJob) (x : Fld) : (s.updSec n f).fget x = s.fget x := rfl
@[simp] theorem State.updSec_to_fbit (n : Nat) (f : SecJob → SecJob) (x : Fld) : (s.updSec n f).fbit x = s.fbit x := rfl
@[simp] theorem State.updSec_to_beat (n : Nat) (f : SecJob → SecJob) (x : Nat) : (s.updSec n f).beat x = s.beat x := rfl
@[simp] theorem State.updSec_to_region (n : Nat) (f : SecJob → SecJob) (x : Nat) : (s.updSec n f).region x = s.region x := rfl
@[simp] theorem State.updSec_to_stall (n : Nat) (f : SecJob → SecJob) (x : Nat) : (s.updSec n f).stall x = s.stall x := rfl
@[simp] theorem State.updSec_to_barn (n : Nat) (f : SecJob → SecJob) (x : Nat) : (s.updSec n f).barn x = s.barn x := rfl
@[simp] theorem State.updSec_to_job (n : Nat) (f : SecJob → SecJob) (x : Nat) : (s.updSec n f).job x = s.job x := rfl
@[simp] theorem State.updSec_to_ctr (n : Nat) (f : SecJob → SecJob) (x : Nat) : (s.updSec n f).ctr x = s.ctr x := rfl
@[simp] theorem State.updSec_to_loft (n : Nat) (f : SecJob → SecJob) (x : Nat) : (s.updSec n f).loft x = s.loft x := rfl
@[simp] theorem State.updSec_to_link (n : Nat) (f : SecJob → SecJob) (x : Nat) : (s.updSec n f).link x = s.link x := rfl
@[simp] theorem State.updSec_to_srvJob (n : Nat) (f : SecJob → SecJob) (x : Nat) : (s.updSec n f).srvJob x = s.srvJob x := rfl
@[simp] theorem State.updSec_to_hst (n : Nat) (f : SecJob → SecJob) (x : Nat) : (s.updSec n f).hst x = s.hst x := rfl
@[simp] theorem State.updSec_to_ring (n : Nat) (f : SecJob → SecJob) (x : Nat) : (s.updSec n f).ring x = s.ring x := rfl
@[simp] theorem State.updSec_to_infoOf (n : Nat) (f : SecJob → SecJob) (x : Nat) : (s.updSec n f).infoOf x = s.infoOf x := rfl
@[simp] theorem State.updSec_to_yokJob (n : Nat) (f : SecJob → SecJob) (x : Nat) : (s.updSec n f).yokJob x = s.yokJob x := rfl
@[simp] theorem State.updSec_to_goodMask (n : Nat) (f : SecJob → SecJob) (x : Nat) : (s.updSec n f).goodMask x = s.goodMask x := rfl
@[simp] theorem State.updSec_to_nowNs (n : Nat) (f : SecJob → SecJob)  : (s.updSec n f).nowNs = s.nowNs := rfl
@[simp] theorem State.updSec_to_refNs (n : Nat) (f : SecJob → SecJob)  : (s.updSec n f).refNs = s.refNs := rfl

@[simp] theorem State.updYok_pending (n : Nat) (f : YokJob → YokJob) : (s.updYok n f).pending = s.pending := rfl
@[simp] theorem State.updYok_regs (n : Nat) (f : YokJob → YokJob) : (s.updYok n f).regs = s.regs := rfl
@[simp] theorem State.updYok_fused (n : Nat) (f : YokJob → YokJob) : (s.updYok n f).fused = s.fused := rfl
@[simp] theorem State.updYok_mask (n : Nat) (f : YokJob → YokJob) : (s.updYok n f).mask = s.mask := rfl
@[simp] theorem State.updYok_cfgRef (n : Nat) (f : YokJob → YokJob) : (s.updYok n f).cfgRef = s.cfgRef := rfl
@[simp] theorem State.updYok_time (n : Nat) (f : YokJob → YokJob) : (s.updYok n f).time = s.time := rfl
@[simp] theorem State.updYok_regions (n : Nat) (f : YokJob → YokJob) : (s.updYok n f).regions = s.regions := rfl
@[simp] theorem State.updYok_err (n : Nat) (f : YokJob → YokJob) : (s.updYok n f).err = s.err := rfl
@[simp] theorem State.updYok_stalls (n : Nat) (f : YokJob → YokJob) : (s.updYok n f).stalls = s.stalls := rfl
@[simp] theorem State.updYok_barns (n : Nat) (f : YokJob → YokJob) : (s.updYok n f).barns = s.barns := rfl
@[simp] theorem State.updYok_ctrs (n : Nat) (f : YokJob → YokJob) : (s.updYok n f).ctrs = s.ctrs := rfl
@[simp] theorem State.updYok_jobs (n : Nat) (f : YokJob → YokJob) : (s.updYok n f).jobs = s.jobs := rfl
@[simp] theorem State.updYok_lofts (n : Nat) (f : YokJob → YokJob) : (s.updYok n f).lofts = s.lofts := rfl
@[simp] theorem State.updYok_mesh (n : Nat) (f : YokJob → YokJob) : (s.updYok n f).mesh = s.mesh := rfl
@[simp] theorem State.updYok_acts (n : Nat) (f : YokJob → YokJob) : (s.updYok n f).acts = s.acts := rfl
@[simp] theorem State.updYok_mism (n : Nat) (f : YokJob → YokJob) : (s.updYok n f).mism = s.mism := rfl
@[simp] theorem State.updYok_links (n : Nat) (f : YokJob → YokJob) : (s.updYok n f).links = s.links := rfl
@[simp] theorem State.updYok_fab (n : Nat) (f : YokJob → YokJob) : (s.updYok n f).fab = s.fab := rfl
@[simp] theorem State.updYok_srv (n : Nat) (f : YokJob → YokJob) : (s.updYok n f).srv = s.srv := rfl
@[simp] theorem State.updYok_prefix_ (n : Nat) (f : YokJob → YokJob) : (s.updYok n f).prefix_ = s.prefix_ := rfl
@[simp] theorem State.updYok_host (n : Nat) (f : YokJob → YokJob) : (s.updYok n f).host = s.host := rfl
@[simp] theorem State.updYok_rings (n : Nat) (f : YokJob → YokJob) : (s.updYok n f).rings = s.rings := rfl
@[simp] theorem State.updYok_copies (n : Nat) (f : YokJob → YokJob) : (s.updYok n f).copies = s.copies := rfl
@[simp] theorem State.updYok_loads (n : Nat) (f : YokJob → YokJob) : (s.updYok n f).loads = s.loads := rfl
@[simp] theorem State.updYok_info (n : Nat) (f : YokJob → YokJob) : (s.updYok n f).info = s.info := rfl
@[simp] theorem State.updYok_sec (n : Nat) (f : YokJob → YokJob) : (s.updYok n f).sec = s.sec := rfl
@[simp] theorem State.updYok_tck (n : Nat) (f : YokJob → YokJob) : (s.updYok n f).tck = s.tck := rfl
@[simp] theorem State.updYok_rep (n : Nat) (f : YokJob → YokJob) : (s.updYok n f).rep = s.rep := rfl
@[simp] theorem State.updYok_out (n : Nat) (f : YokJob → YokJob) : (s.updYok n f).out = s.out := rfl
@[simp] theorem State.updYok_freeCtr (n : Nat) (f : YokJob → YokJob) : (s.updYok n f).freeCtr = s.freeCtr := rfl
@[simp] theorem State.updYok_to_reg (n : Nat) (f : YokJob → YokJob) (x : Nat) : (s.updYok n f).reg x = s.reg x := rfl
@[simp] theorem State.updYok_to_fget (n : Nat) (f : YokJob → YokJob) (x : Fld) : (s.updYok n f).fget x = s.fget x := rfl
@[simp] theorem State.updYok_to_fbit (n : Nat) (f : YokJob → YokJob) (x : Fld) : (s.updYok n f).fbit x = s.fbit x := rfl
@[simp] theorem State.updYok_to_beat (n : Nat) (f : YokJob → YokJob) (x : Nat) : (s.updYok n f).beat x = s.beat x := rfl
@[simp] theorem State.updYok_to_region (n : Nat) (f : YokJob → YokJob) (x : Nat) : (s.updYok n f).region x = s.region x := rfl
@[simp] theorem State.updYok_to_stall (n : Nat) (f : YokJob → YokJob) (x : Nat) : (s.updYok n f).stall x = s.stall x := rfl
@[simp] theorem State.updYok_to_barn (n : Nat) (f : YokJob → YokJob) (x : Nat) : (s.updYok n f).barn x = s.barn x := rfl
@[simp] theorem State.updYok_to_job (n : Nat) (f : YokJob → YokJob) (x : Nat) : (s.updYok n f).job x = s.job x := rfl
@[simp] theorem State.updYok_to_ctr (n : Nat) (f : YokJob → YokJob) (x : Nat) : (s.updYok n f).ctr x = s.ctr x := rfl
@[simp] theorem State.updYok_to_loft (n : Nat) (f : YokJob → YokJob) (x : Nat) : (s.updYok n f).loft x = s.loft x := rfl
@[simp] theorem State.updYok_to_link (n : Nat) (f : YokJob → YokJob) (x : Nat) : (s.updYok n f).link x = s.link x := rfl
@[simp] theorem State.updYok_to_srvJob (n : Nat) (f : YokJob → YokJob) (x : Nat) : (s.updYok n f).srvJob x = s.srvJob x := rfl
@[simp] theorem State.updYok_to_hst (n : Nat) (f : YokJob → YokJob) (x : Nat) : (s.updYok n f).hst x = s.hst x := rfl
@[simp] theorem State.updYok_to_ring (n : Nat) (f : YokJob → YokJob) (x : Nat) : (s.updYok n f).ring x = s.ring x := rfl
@[simp] theorem State.updYok_to_infoOf (n : Nat) (f : YokJob → YokJob) (x : Nat) : (s.updYok n f).infoOf x = s.infoOf x := rfl
@[simp] theorem State.updYok_to_secJob (n : Nat) (f : YokJob → YokJob) (x : Nat) : (s.updYok n f).secJob x = s.secJob x := rfl
@[simp] theorem State.updYok_to_goodMask (n : Nat) (f : YokJob → YokJob) (x : Nat) : (s.updYok n f).goodMask x = s.goodMask x := rfl
@[simp] theorem State.updYok_to_nowNs (n : Nat) (f : YokJob → YokJob)  : (s.updYok n f).nowNs = s.nowNs := rfl
@[simp] theorem State.updYok_to_refNs (n : Nat) (f : YokJob → YokJob)  : (s.updYok n f).refNs = s.refNs := rfl

@[simp] theorem State.updFab_pending (f : FabSt → FabSt) : (s.updFab f).pending = s.pending := rfl
@[simp] theorem State.updFab_regs (f : FabSt → FabSt) : (s.updFab f).regs = s.regs := rfl
@[simp] theorem State.updFab_fused (f : FabSt → FabSt) : (s.updFab f).fused = s.fused := rfl
@[simp] theorem State.updFab_mask (f : FabSt → FabSt) : (s.updFab f).mask = s.mask := rfl
@[simp] theorem State.updFab_cfgRef (f : FabSt → FabSt) : (s.updFab f).cfgRef = s.cfgRef := rfl
@[simp] theorem State.updFab_time (f : FabSt → FabSt) : (s.updFab f).time = s.time := rfl
@[simp] theorem State.updFab_regions (f : FabSt → FabSt) : (s.updFab f).regions = s.regions := rfl
@[simp] theorem State.updFab_err (f : FabSt → FabSt) : (s.updFab f).err = s.err := rfl
@[simp] theorem State.updFab_stalls (f : FabSt → FabSt) : (s.updFab f).stalls = s.stalls := rfl
@[simp] theorem State.updFab_barns (f : FabSt → FabSt) : (s.updFab f).barns = s.barns := rfl
@[simp] theorem State.updFab_ctrs (f : FabSt → FabSt) : (s.updFab f).ctrs = s.ctrs := rfl
@[simp] theorem State.updFab_jobs (f : FabSt → FabSt) : (s.updFab f).jobs = s.jobs := rfl
@[simp] theorem State.updFab_lofts (f : FabSt → FabSt) : (s.updFab f).lofts = s.lofts := rfl
@[simp] theorem State.updFab_mesh (f : FabSt → FabSt) : (s.updFab f).mesh = s.mesh := rfl
@[simp] theorem State.updFab_acts (f : FabSt → FabSt) : (s.updFab f).acts = s.acts := rfl
@[simp] theorem State.updFab_mism (f : FabSt → FabSt) : (s.updFab f).mism = s.mism := rfl
@[simp] theorem State.updFab_links (f : FabSt → FabSt) : (s.updFab f).links = s.links := rfl
@[simp] theorem State.updFab_srv (f : FabSt → FabSt) : (s.updFab f).srv = s.srv := rfl
@[simp] theorem State.updFab_prefix_ (f : FabSt → FabSt) : (s.updFab f).prefix_ = s.prefix_ := rfl
@[simp] theorem State.updFab_yok (f : FabSt → FabSt) : (s.updFab f).yok = s.yok := rfl
@[simp] theorem State.updFab_host (f : FabSt → FabSt) : (s.updFab f).host = s.host := rfl
@[simp] theorem State.updFab_rings (f : FabSt → FabSt) : (s.updFab f).rings = s.rings := rfl
@[simp] theorem State.updFab_copies (f : FabSt → FabSt) : (s.updFab f).copies = s.copies := rfl
@[simp] theorem State.updFab_loads (f : FabSt → FabSt) : (s.updFab f).loads = s.loads := rfl
@[simp] theorem State.updFab_info (f : FabSt → FabSt) : (s.updFab f).info = s.info := rfl
@[simp] theorem State.updFab_sec (f : FabSt → FabSt) : (s.updFab f).sec = s.sec := rfl
@[simp] theorem State.updFab_tck (f : FabSt → FabSt) : (s.updFab f).tck = s.tck := rfl
@[simp] theorem State.updFab_rep (f : FabSt → FabSt) : (s.updFab f).rep = s.rep := rfl
@[simp] theorem State.updFab_out (f : FabSt → FabSt) : (s.updFab f).out = s.out := rfl
@[simp] theorem State.updFab_freeCtr (f : FabSt → FabSt) : (s.updFab f).freeCtr = s.freeCtr := rfl
@[simp] theorem State.updFab_to_reg (f : FabSt → FabSt) (x : Nat) : (s.updFab f).reg x = s.reg x := rfl
@[simp] theorem State.updFab_to_fget (f : FabSt → FabSt) (x : Fld) : (s.updFab f).fget x = s.fget x := rfl
@[simp] theorem State.updFab_to_fbit (f : FabSt → FabSt) (x : Fld) : (s.updFab f).fbit x = s.fbit x := rfl
@[simp] theorem State.updFab_to_beat (f : FabSt → FabSt) (x : Nat) : (s.updFab f).beat x = s.beat x := rfl
@[simp] theorem State.updFab_to_region (f : FabSt → FabSt) (x : Nat) : (s.updFab f).region x = s.region x := rfl
@[simp] theorem State.updFab_to_stall (f : FabSt → FabSt) (x : Nat) : (s.updFab f).stall x = s.stall x := rfl
@[simp] theorem State.updFab_to_barn (f : FabSt → FabSt) (x : Nat) : (s.updFab f).barn x = s.barn x := rfl
@[simp] theorem State.updFab_to_job (f : FabSt → FabSt) (x : Nat) : (s.updFab f).job x = s.job x := rfl
@[simp] theorem State.updFab_to_ctr (f : FabSt → FabSt) (x : Nat) : (s.updFab f).ctr x = s.ctr x := rfl
@[simp] theorem State.updFab_to_loft (f : FabSt → FabSt) (x : Nat) : (s.updFab f).loft x = s.loft x := rfl
@[simp] theorem State.updFab_to_link (f : FabSt → FabSt) (x : Nat) : (s.updFab f).link x = s.link x := rfl
@[simp] theorem State.updFab_to_srvJob (f : FabSt → FabSt) (x : Nat) : (s.updFab f).srvJob x = s.srvJob x := rfl
@[simp] theorem State.updFab_to_hst (f : FabSt → FabSt) (x : Nat) : (s.updFab f).hst x = s.hst x := rfl
@[simp] theorem State.updFab_to_ring (f : FabSt → FabSt) (x : Nat) : (s.updFab f).ring x = s.ring x := rfl
@[simp] theorem State.updFab_to_infoOf (f : FabSt → FabSt) (x : Nat) : (s.updFab f).infoOf x = s.infoOf x := rfl
@[simp] theorem State.updFab_to_secJob (f : FabSt → FabSt) (x : Nat) : (s.updFab f).secJob x = s.secJob x := rfl
@[simp] theorem State.updFab_to_yokJob (f : FabSt → FabSt) (x : Nat) : (s.updFab f).yokJob x = s.yokJob x := rfl
@[simp] theorem State.updFab_to_goodMask (f : FabSt → FabSt) (x : Nat) : (s.updFab f).goodMask x = s.goodMask x := rfl
@[simp] theorem State.updFab_to_nowNs (f : FabSt → FabSt)  : (s.updFab f).nowNs = s.nowNs := rfl
@[simp] theorem State.updFab_to_refNs (f : FabSt → FabSt)  : (s.updFab f).refNs = s.refNs := rfl

@[simp] theorem State.updRegion_same (n : Nat) (f : Region → Region) : (s.updRegion n f).region n = f (s.region n) :=
  Tab.get_upd_same _ n f
theorem State.updRegion_other {n m : Nat} (f : Region → Region) (h : m ≠ n) : (s.updRegion n f).region m = s.region m :=
  Tab.get_upd_other _ f h
@[simp] theorem State.updStall_same (n : Nat) (f : Stall → Stall) : (s.updStall n f).stall n = f (s.stall n) :=
  Tab.get_upd_same _ n f
theorem State.updStall_other {n m : Nat} (f : Stall → Stall) (h : m ≠ n) : (s.updStall n f).stall m = s.stall m :=
  Tab.get_upd_other _ f h
@[simp] theorem State.updBarn_same (n : Nat) (f : BarnSt → BarnSt) : (s.updBarn n f).barn n = f (s.barn n) :=
  Tab.get_upd_same _ n f
theorem State.updBarn_other {n m : Nat} (f : BarnSt → BarnSt) (h : m ≠ n) : (s.updBarn n f).barn m = s.barn m :=
  Tab.get_upd_other _ f h
@[simp] theorem State.updJob_same (n : Nat) (f : Job → Job) : (s.updJob n f).job n = f (s.job n) :=
  Tab.get_upd_same _ n f
theorem State.updJob_other {n m : Nat} (f : Job → Job) (h : m ≠ n) : (s.updJob n f).job m = s.job m :=
  Tab.get_upd_other _ f h
@[simp] theorem State.updCtr_same (n : Nat) (f : Counter → Counter) : (s.updCtr n f).ctr n = f (s.ctr n) :=
  Tab.get_upd_same _ n f
theorem State.updCtr_other {n m : Nat} (f : Counter → Counter) (h : m ≠ n) : (s.updCtr n f).ctr m = s.ctr m :=
  Tab.get_upd_other _ f h
@[simp] theorem State.updLoft_same (n : Nat) (f : Loft → Loft) : (s.updLoft n f).loft n = f (s.loft n) :=
  Tab.get_upd_same _ n f
theorem State.updLoft_other {n m : Nat} (f : Loft → Loft) (h : m ≠ n) : (s.updLoft n f).loft m = s.loft m :=
  Tab.get_upd_other _ f h
@[simp] theorem State.updLink_same (n : Nat) (f : Link → Link) : (s.updLink n f).link n = f (s.link n) :=
  Tab.get_upd_same _ n f
theorem State.updLink_other {n m : Nat} (f : Link → Link) (h : m ≠ n) : (s.updLink n f).link m = s.link m :=
  Tab.get_upd_other _ f h
@[simp] theorem State.updSrv_same (n : Nat) (f : SrvJob → SrvJob) : (s.updSrv n f).srvJob n = f (s.srvJob n) :=
  Tab.get_upd_same _ n f
theorem State.updSrv_other {n m : Nat} (f : SrvJob → SrvJob) (h : m ≠ n) : (s.updSrv n f).srvJob m = s.srvJob m :=
  Tab.get_upd_other _ f h
@[simp] theorem State.updHst_same (n : Nat) (f : HostSt → HostSt) : (s.updHst n f).hst n = f (s.hst n) :=
  Tab.get_upd_same _ n f
theorem State.updHst_other {n m : Nat} (f : HostSt → HostSt) (h : m ≠ n) : (s.updHst n f).hst m = s.hst m :=
  Tab.get_upd_other _ f h
@[simp] theorem State.updRing_same (n : Nat) (f : Ring → Ring) : (s.updRing n f).ring n = f (s.ring n) :=
  Tab.get_upd_same _ n f
theorem State.updRing_other {n m : Nat} (f : Ring → Ring) (h : m ≠ n) : (s.updRing n f).ring m = s.ring m :=
  Tab.get_upd_other _ f h
@[simp] theorem State.updInfo_same (n : Nat) (f : JobInfo → JobInfo) : (s.updInfo n f).infoOf n = f (s.infoOf n) :=
  Tab.get_upd_same _ n f
theorem State.updInfo_other {n m : Nat} (f : JobInfo → JobInfo) (h : m ≠ n) : (s.updInfo n f).infoOf m = s.infoOf m :=
  Tab.get_upd_other _ f h
@[simp] theorem State.updSec_same (n : Nat) (f : SecJob → SecJob) : (s.updSec n f).secJob n = f (s.secJob n) :=
  Tab.get_upd_same _ n f
theorem State.updSec_other {n m : Nat} (f : SecJob → SecJob) (h : m ≠ n) : (s.updSec n f).secJob m = s.secJob m :=
  Tab.get_upd_other _ f h
@[simp] theorem State.updYok_same (n : Nat) (f : YokJob → YokJob) : (s.updYok n f).yokJob n = f (s.yokJob n) :=
  Tab.get_upd_same _ n f
theorem State.updYok_other {n m : Nat} (f : YokJob → YokJob) (h : m ≠ n) : (s.updYok n f).yokJob m = s.yokJob m :=
  Tab.get_upd_other _ f h

/-! ### Registers -/

theorem State.setReg_same (a v : Nat) : (s.setReg a v).reg a = (BitVec.ofNat 64 v &&& regBits a).toNat := by
  simp [State.reg, State.setReg]

theorem State.setReg_other {a n : Nat} (v : Nat) (h : n ≠ a) : (s.setReg a v).reg n = s.reg n := by
  simp [State.reg, State.setReg, Tab.get_set_other _ _ h]

end Sys2Proof.Machine
end

