-- ==== Sys2Proof/Tests/Slice0.lean ====
section
/-! SUPPORT. The checks of well-formedness refuse what they must, and the first tests: the control core and its queues. Each
`wit_` theorem shows a state and operands that meet the hypotheses of a clause of a statement. -/

namespace Sys2Proof.Tests

-- One theorem after the other: their kernel evaluations would otherwise all wait at once, each with a stack of its own.
set_option Elab.async false
open Sys2Proof.Machine

/-! ### Ill-formed commands -/

/-- A memory number that no protected memory has, and places outside each memory (R77, R110, R122, R153). -/
theorem test_wf_ecc : (Instr.dmaRd 0 0 [⟨5, 0, true⟩]).wf = false ∧ (Instr.dmaRd 0 0 [⟨4, 49152, true⟩]).wf = false ∧
    (Instr.dmaRd 0 0 [⟨0, 49152, true⟩]).wf = false ∧
    (Instr.mma 0 0 [⟨1, 4096, true⟩]).wf = false ∧ (Instr.fadd 0 0 [⟨2, 16384, false⟩]).wf = false ∧
    (Instr.fadd 0 0 [⟨2, 40, false⟩]).wf = false ∧ (Instr.lftMv 0 0 [⟨3, 8388608, true⟩]).wf = false ∧
    (Instr.dmaRd 0 0 [⟨0, 49151, true⟩]).wf = true := by decide +kernel

/-- Host memory ends at 2^64; a register access has a byte; a Tackroom access names no function (R441). -/
theorem test_wf_access : (Instr.deviceRingPoll 0 [⟨2 ^ 64 - 1, [0, 0]⟩]).wf = false ∧
    (Instr.regRd .portA 0 0 0 false 0).wf = false ∧ (Instr.regRd .tackroom 1 0 8 false 0).wf = false ∧
    (Instr.registerWrite .tackroom 1 0 0 false 0 true).wf = false ∧ (Instr.regRd .portA 8 0 8 false 0).wf = true := by
  decide +kernel

/-- A BAR2 access of no byte, one past the window, and a write with another number of bytes (R357). -/
theorem test_wf_bar2 : (Instr.bar2Access 0 0 none 0 false).wf = false ∧
    (Instr.bar2Access 0 68719476735 none 2 false).wf = false ∧ (Instr.bar2Access 0 0 (some [1]) 2 false).wf = false ∧
    (Instr.bar2Access 0 68719476735 none 1 false).wf = true := by decide +kernel

/-- Messages without their header, a vector of a function that has one, a region beside itself, a block instance that is not
there, a sensor named twice, and a library too long. -/
theorem test_wf_rest : (Instr.getVersion 0 [0x13, 0x84, 0]).wf = false ∧ (Instr.pldmRequest 0 0 [] 0 true).wf = false ∧
    (Instr.msiXFire 0 1 1 false).wf = false ∧ (Instr.handshakeLate 3 3).wf = false ∧ (Instr.blkEnable 6 4 true).wf = false ∧
    (Instr.cfgCrcCheck 14 2 none).wf = false ∧ (Instr.sensorSample [(0, 1), (0, 2)] [] []).wf = false ∧
    (Instr.blkEnable 6 3 true).wf = true := by decide +kernel

theorem test_wf_library : (Instr.fwVerifyDone true 0 0 0 (List.replicate 262145 0) []).wf = false := by
  show (noRepeat (α := Fin 2048) (β := Bool) [] && decide ((List.replicate 262145 (0 : Word32)).length ≤ 262144)) = false
  rw [List.length_replicate]
  decide

/-! ### States -/

/-- What two lists of updates make of a state. -/
def via (s : State) (l : List (State → State)) : State := l.foldl (fun t f => f t) s

/-- Blocks are enabled. -/
def on (bases : List Nat) (s : State) : State := bases.foldl (fun t b => t.fset (F.BLK_CTRL_ENABLE b) 1) s

/-- Job 0 runs in barn 0 on all stalls; the barn's stalls are enabled. -/
def ran : State :=
  ((on [Blk.base .stl 0] State.reset).updBarn 0 (fun b => { b with owner := some 0 })).updJob 0
    (fun j => { j with phase := .running, barns := [0] })

/-- The control core of stall 0 of barn 0 runs a program; `f` says what else holds of the stall. -/
def core (ws : List Word32) (f : Stall → Stall) : State :=
  ran.updStall 0 (fun t => f { t with st := .run, imem := Tab.setRun zero32 [] 0 ws })

/-- An instruction word (R50): opcode in bits 31-26, rd in 25-21, rs1 in 20-16, and the rest. -/
def iw (op rd rs1 low : Nat) : Word32 := BitVec.ofNat 32 (op * 2 ^ 26 + rd * 2 ^ 21 + rs1 * 2 ^ 16 + low)

/-- A state with one stall changed, of what `core` makes. -/
def next (o : Host.Outcome State Fault Refusal) (p : State → Bool) : Bool :=
  match o with
  | .next t => p t
  | _ => false

/-! ### The step -/

theorem wit_StepRunsFront : (State.reset.pending = []) ∧
    ({ State.reset with pending := [Instr.logCopy] }).pending = Instr.logCopy :: [] := by decide +kernel

/-! ### The control core -/

/-- ADD x1, x2, x3. -/
theorem wit_AluInstructionsComplete_alu : AtInsn (core [iw 1 1 2 (3 * 2 ^ 11)] id) 0 0 (.alu .add 1 2 3) := by
  unfold AtInsn; decide +kernel

/-- ADDI x31, x0, −1. -/
theorem wit_AluInstructionsComplete_imm : AtInsn (core [iw 2 31 0 0xFFFF] id) 0 0 (.imm .addi 31 0 0xFFFF) := by
  unfold AtInsn; decide +kernel

/-- SUB of a register from itself plus a carry: 0 − 1 is all ones. -/
theorem test_sub_wraps : next (exec (.sub 0 0) (core [iw 1 1 0 (3 * 2 ^ 11 + 1)] (fun t => t.setX 3 1)))
    (fun t => t.xr 0 0 1 = 0xFFFFFFFFFFFFFFFF ∧ (t.stall 0).pc = 1) = true := by decide +kernel

/-- DIVU by zero gives all ones (R51). -/
theorem test_divu_zero : next (exec (.divu 0 0) (core [iw 1 1 2 (3 * 2 ^ 11 + 0x18)] (fun t => t.setX 2 7)))
    (fun t => t.xr 0 0 1 = 0xFFFFFFFFFFFFFFFF) = true := by decide +kernel

/-- ADDI sign-extends its immediate; x0 takes no write. -/
theorem test_addi_sign : next (exec (.addi 0 0) (core [iw 2 1 2 0xFFFE] (fun t => t.setX 2 1)))
    (fun t => t.xr 0 0 1 = 0xFFFFFFFFFFFFFFFF) = true ∧
    next (exec (.addi 0 0) (core [iw 2 0 2 5] id)) (fun t => t.xr 0 0 0 = 0) = true := by decide +kernel

theorem wit_RegisterReadsComplete : AtInsn (core [iw 0xC 1 0 63] id) 0 0 (.lds 1 63) ∧
    AtInsn (core [iw 0xD 1 0 9] id) 0 0 (.rdsr 1 9) ∧ AtInsn (core [iw 0x21 1 0 3] id) 0 0 (.loopidx 1 3) ∧
    AtInsn (core [iw 0x10 1 0 0] id) 0 0 (.syncrd 1 0) ∧ AtInsn (core [iw 0x10 1 0 0xC000] id) 0 0 (.syncrd 1 0xC000) := by
  unfold AtInsn; decide +kernel

theorem wit_RegisterReadsComplete_sel : selKey 0 0 0 = some 0 ∧ (core [iw 0x10 1 0 0] id).denied 0 0 0 = false ∧
    selKey 0 0 0xC000 = none := by decide +kernel

theorem wit_LoadsComplete : AtInsn (core [iw 0xA 1 2 8] id) 0 0 (.ld 1 2 8) ∧ AtInsn (core [iw 0xA 1 2 4] id) 0 0 (.ld 1 2 4) ∧
    ldLegal (ldAddr 0 8) = true ∧ ldLegal (ldAddr 0 4) = false ∧ ldLegal (ldAddr 0x2FFFF8 0) = true ∧
    ldLegal (ldAddr 0x300000 0) = false := by
  unfold AtInsn; decide +kernel

/-- A load waits, its data is clean; and one whose line is poisoned. -/
def loading (p : Bool) : State :=
  core [] (fun t => { t with pendLd := [(1, 0)], spad := { cur := [(0, ⟨5, 0, p⟩)] } })

theorem wit_LoadsComplete_data : (∀ p : Bool, ((loading p).stall (sx 0 0)).pendLd = (1, 0) :: [] ∧
    (loading p).bankFree (sx 0 0) (0 / 64) = true ∧ ((loading p).readLine (sx 0 0) ((loading p).beat 0) (0 / 64)).poison = p) := by
  decide +kernel

/-- The word at offset 8 of a line of bytes comes least significant byte first. -/
theorem test_ld_word : next (exec (.ldDataReady 0 0 .clean)
    (core [] (fun t => { t with pendLd := [(1, 8)], spad := { cur := [(0, ⟨0x1122334455667788 <<< 64, 0, false⟩)] } })))
    (fun t => t.xr 0 0 1 = 0x1122334455667788) = true := by decide +kernel

theorem wit_StoreWritesItsBytes : AtInsn (core [iw 0xB 1 2 56] id) 0 0 (.st 1 2 56) ∧ ldLegal (ldAddr 0 56) = true ∧
    (core [iw 0xB 1 2 56] id).bankFree (sx 0 0) (ldAddr 0 56 / 64) = true ∧
    AtInsn (core [iw 0xB 1 2 57] id) 0 0 (.st 1 2 57) ∧ ldLegal (ldAddr 0 57) = false := by
  unfold AtInsn; decide +kernel

/-- The job owns no gate counter, so gate counter 0 is denied. -/
theorem wit_CounterInstructionsComplete : AtInsn (core [iw 0x11 0 2 0] id) 0 0 (.syncwr 0 2) ∧
    AtInsn (core [iw 0x11 0 2 0xC000] id) 0 0 (.syncwr 0xC000 2) ∧ AtInsn (core [iw 0x11 0 2 0x8000] id) 0 0 (.syncwr 0x8000 2) ∧
    AtInsn (core [iw 0x12 0 2 0x4000] id) 0 0 (.syncadd 0x4000 2) ∧ AtInsn (core [iw 0x12 0 2 0xC000] id) 0 0 (.syncadd 0xC000 2) ∧
    AtInsn (core [iw 0x12 0 2 0x9FFF] id) 0 0 (.syncadd 0x9FFF 2) ∧ AtInsn (core [iw 0x13 0 2 63] id) 0 0 (.waitc 63 2) ∧
    AtInsn (core [iw 0x13 0 2 0xC000] id) 0 0 (.waitc 0xC000 2) ∧ AtInsn (core [iw 0x13 0 2 0x8000] id) 0 0 (.waitc 0x8000 2) := by
  unfold AtInsn; decide +kernel

theorem wit_CounterInstructionsComplete_sel :
    (∀ x ∈ [0, 63, 0x4000, 0x47FF], ∃ key, selKey 0 0 x = some key ∧ ran.denied 0 0 key = false) ∧
    (∀ x ∈ [0x8000, 0x9FFF], ∃ key, selKey 0 0 x = some key ∧ ran.denied 0 0 key = true) ∧ selKey 0 0 0xC000 = none := by
  refine ⟨?_, ?_, ?_⟩ <;> decide +kernel

end Sys2Proof.Tests
end

