-- ==== Sys2Proof/Tests/Cores.lean ====
section
/-! SUPPORT. Tests of control flow, queues and engines; each `wit_` theorem meets the hypotheses of a clause of a statement. -/

namespace Sys2Proof.Tests

-- One theorem after the other: their kernel evaluations would otherwise all wait at once, each with a stack of its own.
set_option Elab.async false
open Sys2Proof.Machine

/-! ### Control flow -/

theorem wit_ControlFlow_loop : AtInsn (core [iw 0x20 0 2 1] id) 0 0 (.loop 2 1) ∧ AtInsn (core [iw 0x20 0 2 0] id) 0 0 (.loop 2 4096) ∧
    ((core [] id).stall (sx 0 0)).atLoopEnd = false ∧ ((core [] id).stall (sx 0 0)).loops.length < 4 ∧
    (((core [] id).stall (sx 0 0)).xr 2).toNat % 2 ^ 32 = 0 ∧
    (((core [] (fun t => t.setX 2 1)).stall (sx 0 0)).xr 2).toNat % 2 ^ 32 ≠ 0 := by
  unfold AtInsn; decide +kernel

/-- The bound holds at the last index of the program, and at the end of the loop around. -/
theorem wit_ControlFlow_bound : LoopBound ((core [] id).stall (sx 0 0)) 16383 ∧
    LoopBound ((core [] (fun t => { t with loops := [⟨0, 5, 2, 0, 0⟩] })).stall (sx 0 0)) 5 := by
  refine ⟨⟨by decide +kernel, ?_⟩, ⟨by decide +kernel, ?_⟩⟩
  · intro l h
    have : ((core [] id).stall (sx 0 0)).loops.head? = none := by decide +kernel
    simp [this] at h
  · intro l h _
    have : ((core [] (fun t => { t with loops := [⟨0, 5, 2, 0, 0⟩] })).stall (sx 0 0)).loops.head? = some ⟨0, 5, 2, 0, 0⟩ := by
      decide +kernel
    rw [this] at h; cases h; decide

theorem wit_ControlFlow_skip : AtInsn (core [iw 0x22 0 0 0x3F] id) 0 0 (.skipIf 63 false 1) ∧
    AtInsn (core [iw 0x22 0 0 0xF40] id) 0 0 (.skipIf 0 true 16) := by
  unfold AtInsn; decide +kernel

theorem wit_ControlFlow_skipped : ∀ d < 16, ∀ w,
    ((core [iw 0x22 0 0 0xF40] id).stall (sx 0 0)).wordAt ((core [iw 0x22 0 0 0xF40] id).barn 0).store
      (((core [iw 0x22 0 0 0xF40] id).stall (sx 0 0)).pc + 1 + d) = some w → bits w 31 26 ≠ 0x20 := by
  intro d hd w h
  have h0 : ∀ d < 16, ((core [iw 0x22 0 0 0xF40] id).stall (sx 0 0)).wordAt ((core [iw 0x22 0 0 0xF40] id).barn 0).store
      (((core [iw 0x22 0 0 0xF40] id).stall (sx 0 0)).pc + 1 + d) = some 0 := by decide +kernel
  rw [h0 d hd] at h; cases h; decide

/-- The routine table of a barn whose first entry is valid (R58). -/
def lib : State := (core [iw 0x23 0 0 0] id).updBarn 0 (fun b => { b with store := [(0, 0x80001000)] })

theorem wit_ControlFlow_call : AtInsn lib 0 0 (.callLib 0) ∧ (lib.stall (sx 0 0)).atLoopEnd = false ∧
    (Tab.get zero32 (lib.barn 0).store 0).getLsbD 31 = true ∧ (lib.stall (sx 0 0)).rets.length < 4 := by
  unfold AtInsn; decide +kernel

theorem wit_ControlFlow_ret : AtInsn (core [iw 0x24 0 0 0] (fun t => { t with rets := [(7, false)] })) 0 0 .ret ∧
    ((core [] (fun t => { t with rets := [(7, false)] })).stall (sx 0 0)).rets = (7, false) :: [] := by
  unfold AtInsn; decide +kernel

theorem wit_ControlFlow_rest : AtInsn (core [iw 0x25 0 2 0] (fun t => t.setX 2 0xFFFFFF)) 0 0 (.baseAdd 2) ∧
    (((core [] (fun t => t.setX 2 0xFFFFFF)).stall (sx 0 0)).xr 2).toNat < 2 ^ 24 ∧
    AtInsn (core [iw 0x26 0 0 0] id) 0 0 .stepEnd ∧ ((core [] id).stall (sx 0 0)).loops = [] ∧
    ((core [] id).stall (sx 0 0)).rets = [] ∧ AtInsn (core [iw 0x3F 0 0 0] id) 0 0 .nop := by
  unfold AtInsn; decide +kernel

/-- Flag 0 is 0: SKIP.IF with imm[6] 1 skips one instruction, and with imm[6] 0 none (R57). -/
theorem test_skip_taken : next (exec (.skipIf 0 0) (core [iw 0x22 0 0 0x40] id)) (fun t => (t.stall 0).pc = 2) = true ∧
    next (exec (.skipIf 0 0) (core [iw 0x22 0 0 0] id)) (fun t => (t.stall 0).pc = 1) = true := by decide +kernel

/-- A stall that waits for its next window, whose shape's entry is valid or not. -/
def waits (v : Nat) : State :=
  (core [] (fun t => { t with st := .stepWait, nextGot := 2 ^ 64 - 1 })).fset (F.STL_SHAPE_ENTRY_VALID 0 0 0) v

theorem wit_StepsBegin : ((waits 1).stall (sx 0 0)).st = .stepWait ∧ ((waits 1).stall (sx 0 0)).nextGot = 2 ^ 64 - 1 ∧
    (waits 1).coreJob 0 0 = some 0 ∧ (waits 1).fbit (F.STL_SHAPE_ENTRY_VALID 0 0 0) = true ∧
    (waits 0).fbit (F.STL_SHAPE_ENTRY_VALID 0 0 0) = false ∧ ((waits 0).coreJob 0 0).isSome = true := by decide +kernel

/-- Opcode 0 is no instruction. -/
theorem wit_FetchErrors : (core [0] id).coreRuns 0 0 = true ∧ (core [0] id).fetchInsn 0 0 = none := by decide +kernel

/-! ### Queues -/

/-- A command word (R63): opcode and low bits, the selectors of no counter, and NEXT one. -/
def cw (op : Nat) (more : Nat := 0) : Cmd := BitVec.ofNat 256 (op + 3 * 2 ^ 62 + 3 * 2 ^ 94 + 2 ^ 232 + more)

/-- x4 to x7 hold a command. -/
def pushing (w : Cmd) (f : Stall → Stall) : State :=
  core [iw 0x18 0 4 2] (fun t => f ((((t.setX 4 (w.extractLsb' 0 64)).setX 5 (w.extractLsb' 64 64)).setX 6
    (w.extractLsb' 128 64)).setX 7 (w.extractLsb' 192 64)))

def word4 (t : Stall) : Cmd := t.xr 7 ++ t.xr 6 ++ t.xr 5 ++ t.xr 4

theorem wit_PushCompletes_legal : let s := pushing (cw 0x410) id; let t := s.stall (sx 0 0)
    AtInsn s 0 0 (.push 2 4) ∧ (t.queue 2).length < queueDepth 2 ∧ (s.step1 0 0).cmdIllegal 0 2 (word4 t) = false ∧
    (s.step1 0 0).cmdDenied 0 0 2 (word4 t) = none := by
  unfold AtInsn; decide +kernel

theorem wit_PushCompletes_illegal : let s := pushing (cw 0x409) id; let t := s.stall (sx 0 0)
    AtInsn s 0 0 (.push 2 4) ∧ (t.queue 2).length < queueDepth 2 ∧ (s.step1 0 0).cmdIllegal 0 2 (word4 t) = true := by
  unfold AtInsn; decide +kernel

/-- One entry short of full, and full. -/
theorem wit_PushCompletes_full :
    let full := pushing (cw 0x410) (fun t => t.setQueue 2 (List.replicate (queueDepth 2) ⟨0, 0, true, false⟩))
    let s := pushing (cw 0x410) (fun t => { t.setQueue 2 (List.replicate (queueDepth 2 - 1) ⟨0, 0, true, false⟩) with pushWait := some (2, 4) })
    AtInsn full 0 0 (.push 2 4) ∧ queueDepth 2 ≤ ((full.stall (sx 0 0)).queue 2).length ∧
    (s.stall (sx 0 0)).pushWait = some (2, 4) ∧ ((s.stall (sx 0 0)).queue 2).length < queueDepth 2 ∧ (s.coreJob 0 0).isSome = true := by
  unfold AtInsn; decide +kernel

/-- A command stands at the head of an engine's queue. -/
def head (e : Nat) (q : QCmd) (f : Stall → Stall) : State :=
  ran.updStall 0 (fun t => f (t.setQueue e [q]))

theorem wit_QueueEvents_due : let s := ran.updStall 0 (fun t => { t with due := [(2, .at 0)] })
    (s.barn 0).owner = some 0 ∧ (s.stall (sx 0 0)).dueBeat 2 = some 0 ∧ s.jobGoes 0 0 = true ∧ (s.region 0).skew = false ∧ 0 ≤ s.jobBeatAt 0 0 ∧
    (s.stall (sx 0 0)).queue 2 = [] := by decide +kernel

theorem wit_QueueEvents_null : let q : QCmd := ⟨cw 0, 0, true, false⟩
    (head 3 q id).headAt 0 0 3 = some (0, q) ∧ q.null = true ∧ (head 3 q id).waitOk 0 0 3 q = true := by decide +kernel

theorem wit_QueueEvents_done : let f : Flight := { eng := 2, chan := 0, iss := 0, done := 0, sel := 0, inc := 1, far := none, waits := [], w := cw 0x410, ord := 0 }
    let s := ran.updStall 0 (fun t => { t with flights := [f] })
    firstDone (s.beat 0) ((s.stall (sx 0 0)).flying 2) none = some f ∧ f.far = none := by decide +kernel

theorem wit_QueueEvents_late : let q : QCmd := ⟨cw 0x410, 0, false, false⟩
    let s := (head 2 q id).updJob 0 (fun j => { j with start := 1 })
    s.headAt 0 0 2 = some (0, q) ∧ q.issue < s.jobBeatAt 0 0 ∧ q.late = false := by decide +kernel

/-! ### Engine commands -/

theorem wit_IssueTakesTheHead : let q : QCmd := ⟨cw 0x410, 0, false, false⟩
    q.issue = (head 2 q id).jobBeatAt 0 0 ∧ (head 2 q id).fbit F.TCK_LSP_CTL_RUN = false := by decide +kernel

/-- For every row of the vector engine, at the first beat in which the engine is free. -/
theorem wit_VectorCommandsIssue : ∀ op ∈ vecRows.map Prod.fst, let q : QCmd := ⟨cw op, 0, false, false⟩
    let s := head 2 q id
    s.headAt 0 0 2 = some (0, q) ∧ isOpcode op q = true ∧ (s.stall (sx 0 0)).vecFree ≤ s.beat 0 ∧ s.waitOk 0 0 2 q = true := by
  decide +kernel

/-- A command that waits for counter 0 to be 1. -/
theorem wit_VectorCommandsIssue_wait : let q : QCmd := ⟨BitVec.ofNat 256 (0x410 + 2 ^ 64), 0, false, false⟩
    (head 2 q id).headAt 0 0 2 = some (0, q) ∧ isOpcode 0x410 q = true ∧ (head 2 q id).waitOk 0 0 2 q = false := by decide +kernel

theorem wit_DmaCommandsIssue : ∀ op ∈ [0x601, 0x602, 0x603, 0x604, 0x605], let q : QCmd := ⟨cw op, 0, false, false⟩
    (head 3 q id).headAt 0 0 3 = some (0, q) ∧ isOpcode op q = true ∧ (head 3 q id).waitOk 0 0 3 q = true ∧
    ((head 3 q id).dmaChan 0 0).isSome = true := by decide +kernel

theorem wit_ArrayCommandsIssue : ∀ op ∈ [0x201, 0x202, 0x203], let q : QCmd := ⟨cw op, 0, false, false⟩
    (head 1 q id).headAt 0 0 1 = some (0, q) ∧ isOpcode op q = true ∧ (head 1 q id).waitOk 0 0 1 q = true ∧
    (head 1 q id).arrAccepts 0 0 q.w = true := by decide +kernel

/-- MMA with its records in the loft. -/
theorem wit_ArrayCommandsIssue_loft : let q : QCmd := ⟨cw 0x202 (2 ^ 200), 0, false, false⟩
    (head 1 q id).headAt 0 0 1 = some (0, q) ∧ isOpcode 0x202 q = true ∧ mLoft q.w = true ∧
    (head 1 q id).arrAccepts 0 0 q.w = true := by decide +kernel

/-- Every engine of the loft at once is the most that LFT.MV may name: here 64, four layers of 16 banks. -/
theorem wit_LoftCommandsIssue : (∀ op ∈ [0xA01, 0xA02, 0xA03], let q : QCmd := ⟨cw op, 0, false, false⟩
      (head 5 q id).headAt 0 0 5 = some (0, q) ∧ isOpcode op q = true ∧ (head 5 q id).waitOk 0 0 5 q = true) ∧
    (∃ w : Cmd, (mvSet w).length = 64 ∧ (mvSet w).all (fun e => !((head 5 ⟨w, 0, false, false⟩ id).heldEngines 0).contains e) = true ∧
      ((head 5 ⟨w, 0, false, false⟩ id).heldEngines 0).length + (mvSet w).length ≤ 64) ∧
    (∃ w : Cmd, (bankSet (lpLmask w) (lpBmask w)).length = 256 ∧
      (bankSet (lpLmask w) (lpBmask w)).all (fun e => !((head 5 ⟨w, 0, false, false⟩ id).heldEngines 0 ++
        (head 5 ⟨w, 0, false, false⟩ id).pwrBanks 0).contains e) = true ∧ lpOn w = true) := by
  refine ⟨by decide +kernel, ⟨cw 0xA02 (0xF * 2 ^ 189 + 0xFFFF * 2 ^ 173), by decide +kernel⟩, ⟨BitVec.ofNat 256 (0xA03 + (2 ^ 16 - 1) * 2 ^ 216 + (2 ^ 16 - 1) * 2 ^ 200 + 2 ^ 199), by decide +kernel⟩⟩

theorem wit_NetworkCommandsIssue : ∀ op ∈ [0x801, 0x802, 0x803], let q : QCmd := ⟨cw op, 0, false, false⟩
    (head 4 q id).headAt 0 0 4 = some (0, q) ∧ isOpcode op q = true ∧ (head 4 q id).waitOk 0 0 4 q = true ∧
    ((head 4 q id).sendChan 0 0).isSome = true := by decide +kernel

end Sys2Proof.Tests
end

