-- ==== Sys2Proof/Tests/Examples.lean ====
section
/-! SUPPORT. Tests whose expected results stand in the manual's worked examples, and values worked by hand. -/

namespace Sys2Proof.Tests

-- One theorem after the other: their kernel evaluations would otherwise all wait at once, each with a stack of its own.
set_option Elab.async false
open Sys2Proof.Machine

/-- When the commands in flight of stall 0 are complete. -/
def ends (o : Host.Outcome State Fault Refusal) : List Nat :=
  match o with
  | .next t => (t.stall 0).flights.map Flight.done
  | _ => []

/-- Softmax along the rows of a tile: what each command takes until the next may issue, and until it completes. -/
theorem test_softmax_beats : let n := 3 * 2 ^ 203
    vecTimes (cw 0x401 n) = (4, 6, .vld 0) ∧ vecTimes (cw 0x474) = (4, 12, .vtile 0 []) ∧ vecTimes (cw 0x411 n) = (4, 6, .vec 0 false) ∧
    vecTimes (cw 0x420 n) = (8, 18, .vec 0 false) ∧ vecTimes (cw 0x41A n) = (8, 16, .vec 0 false) ∧
    vecTimes (cw 0x412 n) = (4, 6, .vec 0 false) ∧ vecTimes (cw 0x402 n) = (4, 5, .vst 0) := by decide +kernel

/-- A prefill projection fed from the loft: MMA.32x128.MXF4 with 256 features takes 312 beats; an MX tile load 3; a drain of 256
rows 65. -/
theorem test_prefill_beats : mmaDone (cw 0x202 (2 ^ 200 + 256 * 2 ^ 158 + 4 * 2 ^ 145 + 2 ^ 138 + 2 * 2 ^ 135)) = 312 ∧
    alBeats (cw 0x201 (2 * 2 ^ 182)) + 1 + 1 = 3 ∧ alMx (cw 0x201 (2 * 2 ^ 182)) = true ∧
    ends (exec (.accDrain 0 0 []) (head 1 ⟨cw 0x203 (256 * 2 ^ 187), 0, false, false⟩ id)) = [65] := by decide +kernel

/-- One decode slice with rows latched: issued in beat 23, engine cycle 0 in bank cycle 16, cycle 63 in bank cycle 80, complete in
beat 231; a broadcast of four groups takes 26 beats. -/
theorem test_decode_beats : let w := cw 0xA02 (100 * 2 ^ 217 + 8 * 2 ^ 205 + 4 * 2 ^ 189 + 15 * 2 ^ 173 + 3 * 2 ^ 171 + 8 * 2 ^ 159 +
      50 * 2 ^ 144 + 2 ^ 142 + 0x30000 * 2 ^ 120)
    mvC0 23 = 16 ∧ mvLast w 16 = 80 ∧ cycleBeat 23 23 80 + 7 + 16 * (mvSet w).length = 231 ∧
    ends (exec (.lftVec 0 0 []) (head 5 ⟨cw 0xA01 (3 * 2 ^ 207), 0, false, false⟩ id)) = [26] := by decide +kernel

/-- A consumer scheduled early: DMA.RD of 32 lines from the own loft takes 39 beats, DMA.WR of 32 lines to a stall of the same barn
22. -/
theorem test_dma_beats :
    ends (exec (.dmaRd 0 0 []) (head 3 ⟨cw 0x601 (0x10000 * 2 ^ 162 + 32 * 2 ^ 146), 0, false, false⟩ id)) = [39] ∧
    ends (exec (.dmaWr 0 0 []) (head 3 ⟨cw 0x602 (0xC01C00000 * 2 ^ 184 + 0x10000 * 2 ^ 162 + 32 * 2 ^ 146), 0, false, false⟩ id)) = [22] := by
  decide +kernel

/-- The CLR alias of LFT_ERRCNT in barn 7 lies at 0x74_8310. -/
theorem test_alias : R.LFT_ERRCNT 7 + 0x4000 * 2 = 0x748310 ∧
    (regHit 0x748310).map (fun h => (h.blk, h.i, h.addr)) = some (.lft, 7, R.LFT_ERRCNT 7) := by decide +kernel

/-- 1 + 2^-24 rounds to even; the smallest subnormal; a NaN gives the canonical NaN (R130, R142). -/
theorem test_fadd : fadd32 0x3F800000 0x33800000 = 0x3F800000 ∧ fadd32 0x3F800001 0x33800000 = 0x3F800002 ∧
    fadd32 0x7F800000 0xFF800000 = 0x7FC00000 ∧ fmul32 0x40400000 0x40800000 = 0x41400000 ∧ fdiv32 0x3F800000 0x40400000 = 0x3EAAAAAB ∧
    fsqrt32 0x41100000 = 0x40400000 := by decide +kernel

/-- The elementary functions at their exact points. -/
theorem test_functions : fexp32 0 = 0x3F800000 ∧ flog32 0x3F800000 = 0 ∧ ftanh32 0 = 0 ∧ fsigm32 0 = 0x3F000000 ∧ ferf32 0 = 0 := by
  decide +kernel

/-- FTOI rounds to even and saturates; ITOF of −1 (R133). -/
theorem test_convert : ftoi32 0x40200000 = 2 ∧ ftoi32 0x40600000 = 4 ∧ ftoi32 0x4F800000 = 0x7FFFFFFF ∧ ftoi32 0xCF800000 = 0x80000000 ∧
    itof32 0xFFFFFFFF = 0xBF800000 := by decide +kernel

/-- The largest values of the storage formats, and FP16 and BF16 of 1 (R98). -/
theorem test_formats : encodeNum fp16 (decodeNum fp32 0x3F800000) = 0x3C00 ∧ encodeNum bf16 (decodeNum fp32 0x3F800000) = 0x3F80 ∧
    encodeNum fp4 (decodeNum fp32 0x7F000000) = 7 ∧ encodeNum fp4 (decodeNum fp32 0x3F000000) = 1 := by decide +kernel

end Sys2Proof.Tests
end

