-- ==== Sys2Proof/Tests/Memories.lean ====
section
/-! SUPPORT. Tests of scratchpads, accumulators, lofts, repair and the mesh; each `wit_` theorem meets the hypotheses of a clause
of a statement. -/

namespace Sys2Proof.Tests

-- One theorem after the other: their kernel evaluations would otherwise all wait at once, each with a stack of its own.
set_option Elab.async false
open Sys2Proof.Machine

/-! ### Scratchpads and accumulators -/

def unsW (wr : Option LineVal) : UnsWait := ⟨5, wr, 2 ^ 64 - 1, 0, 0, 0⟩

theorem wit_ScratchpadAccesses_uns : ∀ wr ∈ [none, some (⟨1, 0, false⟩ : LineVal)],
    let s := ran.updStall 0 (fun t => { t with uns := [unsW wr] })
    (s.stall (sx 0 0)).uns.find? (fun w => s.spadFree 0 w.line) = some (unsW wr) ∧ (unsW wr).wr = wr := by decide +kernel

theorem wit_ScratchpadAccesses_rest : let s := ran.updStall 0 (fun t => { t with fixes := [0xFFFF, 3] })
    (s.stall (sx 0 0)).fixes.find? (s.fixFree (sx 0 0)) = some 0xFFFF ∧
    (∀ line ∈ [0, 49151], ran.bankFree (sx 0 0) line = true) ∧ (47 : StallId).val < ran.stallCount 0 ∧
    (∀ src ∈ [Source.tackroom, .portA], (ran.fset (F.HST_CTX_OWNED 0 0) 1).srcReaches src 0 = true) ∧
    (∀ arr ∈ [0, 3], ran.accBusy (sx 0 0) arr = false) := by decide +kernel

/-- A write back of one of two corrected words waits for its bank, which an access outside the schedule has taken, while the other
goes on (R84). -/
theorem test_writeback_bank : let s := (ran.updStall 0 (fun t => { t with fixes := [5, 3] })).takeBank 0 5
    next (exec (.spadWriteback 0 0) s) (fun t => (t.stall 0).fixes = [5]) = true := by decide +kernel

/-- A write of the accumulator's first entry and a read back of the row's first words. -/
theorem test_acc_write : next (exec (.accHostAccess .tackroom 0 0 0 1 (some 7) .clean) ran) (fun t =>
    ((t.stall 0).acc.readAt AccRow.zeroF 1 0).v = 7 <<< 32) = true := by decide +kernel

/-! ### Lofts -/

def banked (f : BankSt → BankSt) : State := ran.updBank 0 1 f

theorem wit_LoftBanks_close : let s := banked (fun x => { x with st := 1 })
    (s.bank 0 1).st = 1 ∧ (s.bank 0 1).writes = 0 := by decide +kernel

theorem wit_LoftBanks_wake : let s := banked (fun x => { x with st := 3, wake := 0 })
    (s.bank 0 1).st = 3 ∧ (s.bank 0 1).wake ≤ s.beat 0 := by decide +kernel

/-- Bank 0 has its slot in bank cycle 0. -/
theorem wit_LoftBanks_refresh : refreshSlot 0 (ran.loftF 0 / 2) = true ∧ (ran.bank 0 0).st = 0 ∧ ran.held 0 = false ∧
    (ran.bank 0 0).lastCyc ≠ ran.loftF 0 / 2 + 1 := by decide +kernel

theorem wit_LoftBanks_timer : let s := ran.updRegion 0 (fun g => { g with heldOwn := true, loc := 256 * 2 ^ 32 })
    (s.bank 0 0).st = 0 ∧ s.held 0 = true ∧ (s.bank 0 0).lastRef + 256 ≤ s.locNs 0 := by decide +kernel

/-- Bank cycles 0 to 63 give each bank its own (R155): bank 1 of layer 0 is refreshed in cycle 4. -/
theorem test_refresh_slots : refreshSlot 1 4 = true ∧ refreshSlot 16 1 = true ∧ refreshSlot 16 0 = false ∧
    refreshSlot 0 64 = true := by decide +kernel

def loftW (wr : Option (List Byte)) : LoftWait := ⟨32768, 0, wr, false, 0, 0, 0⟩

theorem wit_LoftRepair_access : ∀ wr ∈ [none, some [(1 : Byte)]],
    let s := ran.updLoft 0 (fun l => { l with waits := [loftW wr] })
    (s.loft 0).waits[0]? = some (loftW wr) ∧ s.loftFree 0 (blkBank (loftW wr).blk) = true ∧
    64 ≤ s.bondRoom 0 ∧ s.rereadFirst 0 (blkBank (loftW wr).blk) = false ∧
    s.repairing (srcId 0 (loftW wr).blk) = false ∧ (s.bank 0 (blkBank (loftW wr).blk)).st = 0 := by decide +kernel

theorem wit_LoftRepair_scrub : let s := ran.fset (F.LFT_CTRL_SCRUB 0) 1
    s.fget (F.LFT_CTRL_SCRUB 0) ≠ 0 ∧ (s.bank 0 (blkBank 32768)).st = 0 ∧ s.loftFree 0 (blkBank 32768) = true ∧
    s.rereadFirst 0 (blkBank 32768) = false := by decide +kernel

def failing (st : FixStage) (busy : List Nat) : State := ran.updLoft 0 (fun l => { l with
  failed := [⟨32768, st, none, 0, none, 0⟩] ++ busy.map (fun i => ⟨65536 + i, .partner, none, 0, some i, 0⟩) })

theorem wit_LoftRepair_reread : (let s := failing .reread []
      (s.loft 0).failed.find? (fun f => f.stage = .reread && s.loftFree 0 (blkBank f.blk)) = some ⟨32768, .reread, none, 0, none, 0⟩ ∧
      (s.bank 0 (blkBank 32768)).st = 0) ∧ ((failing .reread []).updBank 0 1 (fun x => { x with st := 2 })).loftFree 0 1 = true ∧ ((failing .reread [0, 1, 2]).loft 0).freeSlot = some 3 ∧
    ((failing .reread [0, 1, 2, 3]).loft 0).freeSlot = none ∧
    ((failing .wantSlot [0, 1, 3]).loft 0).failed.find? (fun f => f.stage = .wantSlot) = some ⟨32768, .wantSlot, none, 0, none, 0⟩ ∧
    ((failing .wantSlot [0, 1, 3]).loft 0).freeSlot = some 2 := by decide +kernel

/-- Byte 0 of block 32768 of loft 0. -/
def resentAt : Nat := 32768 * 256

theorem wit_LoftRepair_resent : let f : FailBlk := ⟨32768, .partner, none, 0, some 0, 0⟩
    let s := { failing .partner [] with yok := { resent := [(resentAt, [])] } }
    let s := s.updLoft 0 (fun l => { l with failed := [f] })
    s.yok.resent.find? (fun x => x.1 / 0x80000000 = 0) = some (resentAt, []) ∧ s.failAt resentAt = some (0, f) := by decide +kernel

theorem wit_LoftRepair_fix : ∀ n ∈ [0, 1, 2, 7], let s := ran.updLoft 0 (fun l => { l with fixes := [(32768, n)] })
    (s.loft 0).fixes.find? (fun x => s.loftFree 0 (blkBank x.1) && !s.rereadFirst 0 (blkBank x.1)) = some (32768, n) ∧
    (s.bank 0 (blkBank 32768)).st = 0 := by decide +kernel

/-- A control packet waits: type, source, destination, stall, body. -/
def ctl (t src dst k body : Nat) : State := { ran with mesh := { ctrl := [{ id := 1, word := ctrlWord t src dst k body, pos := dst, here := true }] } }

theorem wit_LoftRepair_request :
    let s := ((ctl 9 0 28 0 0).fset (F.YOK_JOB_CFG_YOKED 0) 1).fset F.YOK_STATE_STATE 2
    (∃ c u, s.ctrlTake (fun c => c.ty = 9 && c.src = 0) = some (c, u) ∧ u.partnerOk c.src (bits c.body 97 95) = true) := by
  refine ⟨_, _, rfl, ?_⟩; decide +kernel

/-! ### The mesh -/

def pk (form pos dst lines : Nat) : UPkt :=
  { id := 1, src := 28, dst := dst, pos := pos, via := if pos = dst then ejectBuf dst else 5, job := 0, form := form, addr := 0xC00000000, data := List.replicate lines ⟨0, 0, false⟩
    sel := 0xC000, inc := 0, fence := false, tag := 0, sent := true }

def meshed (p : UPkt) : State := { ran with mesh := { uns := [p] } }

/-- A packet of four lines at router 0 on its way to router 1, whose input has room for two of them. -/
theorem wit_MeshPackets_hop : let p := pk 0 0 1 4
    let s := { meshed p with mesh := { uns := [p, { pk 0 0 1 14 with id := 2, pos := 1, via := 2 }] } }
    s.mesh.uns[0]? = some p ∧ p.sent = true ∧ s.unsHop p 1 = some (1, 2, 1) ∧ s.fbit F.TCK_LSP_CTL_RUN = false ∧ p.out = 0 ∧
    min (p.flits - p.crossed) (min (s.slotsFree 1) (16 - s.viaFlits 2 p.rsp)) = 2 ∧
    (pk 1 0 1 0).form ≠ 0 := by decide +kernel

/-- The packet's first flits cross, and then the others when places are free (R196). -/
theorem test_credit_flits : let p := { pk 1 0 2 0 with lines := 1 }
    let q := { pk 0 0 2 4 with crossed := 2, out := 2 }
    next (exec (.unsFlitCredit 0 1) (meshed p)) (fun t => t.mesh.uns.map (fun x => (x.pos, x.via, x.crossed)) = [(1, 2, 0)]) = true ∧
    next (exec (.unsFlitCredit 0 1) (meshed q)) (fun t => t.mesh.uns.map (fun x => (x.pos, x.via, x.crossed)) = [(1, 2, 0)]) = true ∧
    next (exec (.unsFlitCredit 0 1) { meshed p with mesh := { uns := [p, { pk 0 0 1 16 with id := 2, pos := 1, via := 2 }] } })
      (fun t => t.mesh.uns.map (fun x => x.pos) = [0, 1]) = true := by decide +kernel

/-- A packet at its destination: a write of lines of a scratchpad of the job, a denied one, and a read response. -/
theorem wit_MeshPackets_perform : (∀ form ∈ [0, 2], let p := pk form 0 0 1
      (meshed p).mesh.uns[0]? = some p ∧ p.via = ejectBuf p.dst ∧ p.left = none) ∧
    (∀ i < 4, (meshed (pk 0 0 0 4)).arriveDenied 0 ((pk 0 0 0 4).addr + 64 * i) true = none) ∧
    (meshed { pk 0 0 0 1 with addr := 0xD00000000 }).arriveDenied 0 0xD00000000 true = some 0x0A01 := by decide +kernel

/-- A read request of the last three lines of seven. -/
theorem wit_MeshPackets_read : let p := { pk 1 0 0 0 with tag := 65536 * 5 + 4, lines := 3 }
    (meshed p).mesh.uns[0]? = some p ∧ p.via = ejectBuf p.dst ∧ p.left = none ∧ p.form = 1 ∧ p.flits ≤ 4 ∧
    (∀ i < p.flits, (meshed p).arriveDenied p.job (p.addr + 64 * i) false = none) := by decide +kernel

/-- A flit in a retention buffer of link 1 of barn 0, sent in this period. -/
theorem wit_MeshPackets_resend : let x : KeptItem := ⟨1, 0, 0, 7, [1], ⟨0, 0⟩⟩
    let s := { ran with mesh := { kept := [x] } }
    s.mesh.kept[0]? = some x ∧ (s.region (chanPlace x.chan).1).periods ≤ x.period + 4 := by decide +kernel

theorem wit_MeshPackets_link : linkExists 0 1 = true ∧ linkExists 17 0 = true ∧ linkExists 23 2 = true ∧ linkExists 18 0 = false := by
  decide +kernel

theorem wit_MeshPackets_control : (∀ x ∈ [(4, 0x4000), (6, 0), (3, 0)], ∃ c u, (ctl x.1 0 1 0 x.2).ctrlTake
      (fun c => c.ty = x.1 && c.src = 0 && c.dst = 1) = some (c, u) ∧ (x.1 = 4 → (selKey 1 c.stall (bits c.body 15 0)).isSome = true)) := by
  intro x hx
  simp only [List.mem_cons, List.not_mem_nil, or_false] at hx
  rcases hx with rfl | rfl | rfl <;> exact ⟨_, _, rfl, by decide +kernel⟩

/-- The Tackroom reads, and host port A, whose stream must be secure or not. -/
def reader (ide : Nat) : State :=
  let s := { ran with tck := { ran.tck with pwrGood := true } }
  (s.updHst 0 (fun h => { h with up := true, perst := false })).fset (F.HST_PORT_CFG_IDE_REQUIRED 0) ide

theorem wit_MeshPackets_regRd : (reader 0).srcUp .tackroom = true ∧ (reader 0).srcUp .portA = true ∧
    (reader 1).srcDenied .portA false = true ∧ (reader 0).srcDenied .portA false = false ∧
    (reader 1).srcDenied .tackroom false = false ∧ srcNum .tackroom = 2 ∧ (reader 0).ctrlAhead 29 0 = false ∧
    (ctl 1 29 0 63 0).ctrlAhead 29 0 = true := by decide +kernel

/-- The hub's packet to a control core that waits for 3 in gate counter 0 shows 3. -/
theorem wit_MeshPackets_gate : let s := (ctl 5 28 0 0 (3 * 2 ^ 14)).updStall 0 (fun t => { t with st := .waitc, waitc := some (0x200000, 3) })
    ∃ c u, s.ctrlTake (fun c => c.ty = 5 && c.dst = 0 && c.stall = 0) = some (c, u) ∧
      (u.stall (sx 0 0)).waitc = some (keyGate (bits c.body 13 0), 3) ∧ 3 ≤ bits c.body 45 14 ∧ (u.coreJob 0 0).isSome = true :=
  ⟨_, _, rfl, by decide +kernel⟩

/-- Consuming waits come first, then the last write, then the increments (R70), in whatever order they came. -/
theorem test_settle_order : next (exec (.syncSettle (.loc 0 0 0)) { ran with ctrs := [(0, ⟨9, [4], [], [2, 3], 9, false⟩)] })
    (fun t => (t.ctr 0).val = 10) = true ∧
    next (exec (.syncSettle (.loc 0 0 0)) { ran with ctrs := [(0, ⟨9, [4], [1, 7], [2], 9, false⟩)] }) (fun t => (t.ctr 0).val = 9) = true := by
  decide +kernel

end Sys2Proof.Tests
end

