-- ==== Sys2Proof/Tests/Ports.lean ====
section
/-! SUPPORT. Tests of the Unnar ports; each `wit_` theorem meets the hypotheses of a clause of a statement. -/

namespace Sys2Proof.Tests

-- One theorem after the other: their kernel evaluations would otherwise all wait at once, each with a stack of its own.
set_option Elab.async false
open Sys2Proof.Machine

/-- The Tackroom runs, the reference is there, the first edge block is enabled; port 0 is in a state, `ns` after the start. -/
def port (st : Nat) (ns : Nat := 0) (f : Link → Link := id) : State :=
  let s := via (on [Blk.base .lnk 0, Blk.base .pcr 0] State.reset) [fun s => s.fset F.TCK_STATE_STATE 1,
    fun s => s.fset F.PCR_TIME_STATUS_REF_PRESENT 1, fun s => s.fset (F.LNK_PORT_STATE_STATE 0 0) st, fun s => s.updLink 0 f]
  { s with time := { s.time with edges := ns * 4 / 5 } }

theorem wit_PortTraining_enable : (port 0).portSt 0 = 0 ∧ (port 0).err.fatal = false ∧ (port 0).fget F.TCK_STATE_STATE ≠ 0 ∧
    (port 0).fget F.TCK_STATE_STATE ≠ 3 ∧ (port 0).fbit F.PCR_TIME_STATUS_REF_PRESENT = true ∧
    (port 0).enabled (Blk.base .lnk 0) = true ∧ (port 7).portSt 0 ≠ 0 ∧ (port 1).portSt 0 = 1 := by decide +kernel

/-- All eight lanes, the upper half, and three lanes of the lower half. -/
theorem wit_PortTraining_equalise : (port 2).portSt 0 = 2 ∧ (port 2).workingSet 0 255 = some 255 ∧
    (port 2).workingSet 0 0xF7 = some 0xF0 ∧ (port 2).workingSet 0 7 = none ∧ ((port 2).link 0).trial ≠ 0 ∧
    ((port 2 0 (fun l => { l with trial := 0 })).link 0).trial = 0 := by decide +kernel

/-- A CAP payload of a partner with device ID 1 that agrees on 2.1, and says so. -/
def capBits (agrees : Nat) : BitVec 256 := BitVec.ofNat 256 (agrees + 6 * 2 ^ 8 + 3 * 2 ^ 16 + 2 ^ 24 + 2 * 2 ^ 72 + 2 ^ 80 +
  1 * 2 ^ 96 + 128 * 2 ^ 128 + 1024 * 2 ^ 144 + 128 * 2 ^ 160 + 1024 * 2 ^ 176 + 64 * 2 ^ 192 + 64 * 2 ^ 208)

theorem wit_PortTraining_cap : let s := port 4 0 (fun l => { l with agreedSent := true })
    s.portSt 0 = 4 ∧ s.agree 0 (capBits 1) = some (2, 1) ∧ bit (capByte (capBits 1) 0) 0 = true ∧ badCap (capBits 1).toNat = false ∧ badCap 0 = false ∧
    capByte (capBits 1) 9 = 2 ∧ capByte (capBits 1) 10 = 1 ∧ (s.link 0).agreedSent = true ∧ (s.link 0).isYoke = false ∧
    s.agree 0 0 = none := by decide +kernel

theorem wit_PortTraining_align : (port 3).portSt 0 = 3 := by decide +kernel

/-- A port whose eight lanes work at the lowest and at the middle rate. -/
def active (rate : Nat) (ns : Nat := 0) (f : Link → Link := id) : State :=
  via (port 5 ns f) [fun s => s.fset (F.LNK_PORT_STATE_LANES_GOOD 0 0) 255, fun s => s.fset (F.LNK_PORT_STATE_RATE 0 0) rate,
    fun s => s.fset (F.LNK_PORT_STATE_MAJOR 0 0) 2]

theorem wit_PortRetrain_lane : (active 1).portSt 0 = 5 ∧ (0x0F &&& (active 1).fget (F.LNK_PORT_STATE_LANES_GOOD 0 0)) ≠
      (active 1).fget (F.LNK_PORT_STATE_LANES_GOOD 0 0) ∧ (active 1).fget (F.LNK_PORT_STATE_MAJOR 0 0) ≠ 1 ∧
    goodHalf 0x0F = some 0x0F ∧ goodHalf 0x77 = none ∧ (active 1).fget (F.LNK_PORT_STATE_RATE 0 0) ≠ 0 := by decide +kernel

theorem wit_PortRetrain_states : (port 6 0 (fun l => { l with sub := 1 })).portSt 0 = 6 ∧
    ((port 6 0 (fun l => { l with sub := 1 })).link 0).sub = 1 ∧ (port 6).workingSet 0 255 = some 255 ∧
    ((port 6).link 0).sub = 0 ∧ (port 7).portSt 0 = 7 ∧ (port 7).fbit (F.LNK_PORT_CTRL_ENABLE 0 0) = false := by decide +kernel

/-- Each time limit exactly reached. -/
theorem wit_PortRetrain_times : let d := (port 7 10000000).fset (F.LNK_PORT_CTRL_ENABLE 0 0) 1
    d.portSt 0 = 7 ∧ d.fbit (F.LNK_PORT_CTRL_ENABLE 0 0) = true ∧ (d.link 0).since + 10000000 = d.refNs ∧ d.err.fatal = false ∧
    d.fbit F.PCR_TIME_STATUS_REF_PRESENT = true ∧
    (port 4 10000000).portSt 0 = 4 ∧ ((port 4 10000000).link 0).since + 10000000 = (port 4 10000000).refNs ∧
    (port 6 1000000).portSt 0 = 6 ∧ ((port 6 1000000).link 0).since + 1000000 = (port 6 1000000).refNs ∧
    (port 5 800).portSt 0 = 5 ∧ ((port 5 800).link 0).goodAt + 800 = (port 5 800).refNs := by decide +kernel

/-- A message that a port has received. -/
def told (m : BitVec 128) (st : Nat) (f : Link → Link := id) : State := port st 0 (fun l => f { l with store := [(m, 0)] })

theorem wit_PortRetrain_notice : (∃ m u, (told (6 <<< 120) 5).takeStored 0 6 = some (m, u) ∧ u.portOpen 0 = true) ∧
    ((port 7).fset (F.LNK_PORT_CTRL_ENABLE 0 0) 0).portSt 0 = 7 ∧ ((port 1).fset (F.LNK_PORT_CTRL_ENABLE 0 0) 0).portSt 0 ≠ 0 ∧
    ((port 1).fset (F.LNK_PORT_CTRL_ENABLE 0 0) 0).portSt 0 ≠ 7 := by
  refine ⟨⟨_, _, rfl, by decide +kernel⟩, by decide +kernel⟩

/-- What eight lanes whose scramblers give zeros carry for a flit. -/
def lanes8 (h : FlitHdr) (payload : Nat) : BitVec 2048 :=
  lanesOf 255 [] ((leBytes 256 (flitBytes h.pack payload).toNat).map BitVec.toNat)

def dataHdr : FlitHdr := { type := 1, start := 1, units := 1 }

/-- An IDLE flit and a DATA flit with the header of a packet of no lines; and levels that carry no good flit. -/
theorem wit_FlitsReceived_idle : (port 5).rxOf 0 (lanes8 { type := 0 } 0) = ⟨some (({ type := 0 } : FlitHdr).pack, 0), 0⟩ := by
  decide +kernel

theorem wit_FlitsReceived_data : (port 5).rxOf 0 (lanes8 dataHdr 0) = ⟨some (dataHdr.pack, 0), 0⟩ := by decide +kernel

theorem wit_FlitsReceived_bad : (port 5).rxOf 0 0 = ⟨none, 0⟩ := by decide +kernel

/-- What goes through the scramblers of the upper half's lanes comes back. -/
theorem test_lanes_scrambled : bytesOf 0xF0 scrLoad (lanesOf 0xF0 scrLoad (List.range 256)) = List.range 256 := by decide +kernel

/-- A header reads back as it was sent (R227). -/
theorem test_header_back : FlitHdr.unpack dataHdr.pack = dataHdr := by decide +kernel

/-- A header of each type; a DATA flit of one unit, the header of a packet of no lines, in its place and out of it. -/
theorem wit_FlitsReceived : let h (t seq : Nat) : Nat := ({ type := t, seq := seq } : FlitHdr).pack
    let d (seq : Nat) : Nat := ({ type := 1, seq := seq, start := 1, units := 1 } : FlitHdr).pack
    (port 5).portSt 0 = 5 ∧ badHeader (FlitHdr.unpack (h 4 0)) 0 = true ∧ badHeader (FlitHdr.unpack (h 0 0)) 0 = false ∧
    (FlitHdr.unpack (h 0 0)).type = 0 ∧ badHeader (FlitHdr.unpack (h 2 0)) 5 = false ∧ (FlitHdr.unpack (h 2 0)).type = 2 ∧
    badHeader (FlitHdr.unpack (d 0)) 0 = false ∧ (FlitHdr.unpack (d 0)).type = 1 ∧
    (FlitHdr.unpack (d 0)).seq = ((port 5).link 0).exp ∧
    badUnits (FlitHdr.unpack (d 0)) 0 (FlitHdr.unpack (d 0)).units 0 (((port 5).link 0).vc (FlitHdr.unpack (d 0)).vc).rest false = false ∧
    badAlone (FlitHdr.unpack (d 1)) 0 = false ∧ badAlone (FlitHdr.unpack (d 0xFFF)) 0 = false ∧
    subMod 12 (FlitHdr.unpack (d 1)).seq ((port 5).link 0).exp = 1 ∧
    subMod 12 (FlitHdr.unpack (d 0xFFF)).seq ((port 5).link 0).exp = 4095 := by decide +kernel

def ent : FlitEnt := ⟨0, 0, 1, 1, false, 0⟩

theorem wit_FlitsReceived_timers : let s := port 5 1000000 (fun l => { l with nak := some 0, held := [ent] })
    (s.link 0).nak = some 0 ∧ s.portSt 0 = 5 ∧ 0 + (s.link 0).timeout ≤ s.refNs ∧ (s.link 0).held ≠ [] ∧
    (s.link 0).timer + (s.link 0).timeout ≤ s.refNs ∧ (s.link 0).consec < (s.link 0).limit ∧
    (s.link 0).fecAt + 1000000 = s.refNs ∧ (bits (s.link 0).cfg 63 48 = 0 ∨ (s.link 0).fecSyms ≤ bits (s.link 0).cfg 63 48) := by
  decide +kernel

def tp : TPkt := ⟨1, [0], 1, false, false⟩

theorem wit_FlitsSent : let waits (l : Link) : Prop := (l.byq ≠ [] ∨ l.rsp.isSome = true ∨ l.follow.isSome = true) ∧ 7 ≤ l.bypGap
    let idle := port 5
    let again := port 5 0 (fun l => { l with held := [ent], replay := some 0 })
    let sends := port 5 0 (fun l => { l with adv := [(4, 1)], vcs := [(2, { tx := [tp] })] })
    let talks := port 5 0 (fun l => { l with byq := [0] })
    (idle.portSt 0 = 5 ∧ ¬ waits (idle.link 0) ∧ (idle.link 0).replay = none ∧ (idle.link 0).pickVc = none) ∧
    (again.portSt 0 = 5 ∧ ¬ waits (again.link 0) ∧ (again.link 0).replay = some 0 ∧ 0 < (again.link 0).held.length) ∧
    (sends.portSt 0 = 5 ∧ ¬ waits (sends.link 0) ∧ (sends.link 0).replay = none ∧ (sends.link 0).pickVc = some 2) ∧
    (talks.portSt 0 = 5 ∧ waits (talks.link 0)) ∧ (port 4).portSt 0 = 4 ∧ ((port 4).link 0).agreedGot = false := by
  decide +kernel

/-- A bad flit leaves the receiver waiting for its sequence number (R231). -/
theorem test_bad_flit : next (exec (.badFlit 0 0) (port 5)) (fun t => (t.link 0).nak = some 0 ∧ (t.link 0).exp = 0) = true := by
  decide +kernel

end Sys2Proof.Tests
end

