-- ==== Sys2Proof/Tests/Packets.lean ====
section
/-! SUPPORT. Packets that authenticate, for the witnesses of statements about packets: a packet of at most one line, sealed with a
key, opens to its line, and a state in which it has arrived delivers it. -/

namespace Sys2Proof.Tests

-- One theorem after the other: their kernel evaluations would otherwise all wait at once, each with a stack of its own.
set_option Elab.async false
open Sys2Proof.Machine

/-! ### One sealed packet -/

theorem sealed_head (key plane n : Nat) (p : FabPkt) : (sealPkt key plane n p).head = p.head := by
  have lt : ∀ t : BitVec 128, p.hdr.toNat % 2 ^ 160 + t.toNat / 2 ^ 32 * 2 ^ 160 < 2 ^ 256 := by
    intro t
    have := t.isLt
    omega
  unfold sealPkt FabPkt.head
  simp only [BitVec.toNat_ofNat, Nat.mod_eq_of_lt (lt _)]
  unfold FabHdr.unpack
  simp only [bits_low _ _ 160 _ _ (by decide : 159 < 160), bits_low _ _ 160 _ _ (by decide : 147 < 160),
    bits_low _ _ 160 _ _ (by decide : 130 < 160), bits_low _ _ 160 _ _ (by decide : 126 < 160),
    bits_low _ _ 160 _ _ (by decide : 121 < 160), bits_low _ _ 160 _ _ (by decide : 120 < 160),
    bits_low _ _ 160 _ _ (by decide : 112 < 160), bits_low _ _ 160 _ _ (by decide : 99 < 160),
    bits_low _ _ 160 _ _ (by decide : 63 < 160), bits_low _ _ 160 _ _ (by decide : 47 < 160),
    bits_low _ _ 160 _ _ (by decide : 31 < 160), bits_low _ _ 160 _ _ (by decide : 19 < 160),
    bits_low _ _ 160 _ _ (by decide : 7 < 160), bits_low _ _ 160 _ _ (by decide : 2 < 160),
    bit_low _ _ 160 _ (by decide : 122 < 160), bit_low _ _ 160 _ (by decide : 3 < 160)]

theorem linesBytes_one (bs : List Byte) (h : bs.length = 64) : linesBytes (bytesLines 1 bs) = bs := by
  have lt := leNat_lt bs
  rw [h] at lt
  have m : (BitVec.ofNat 512 (leNat bs)).toNat = leNat bs := by
    rw [BitVec.toNat_ofNat, Nat.mod_eq_of_lt (by omega)]
  have t : List.take 64 bs = bs := by rw [← h, List.take_length]
  simp only [bytesLines, linesBytes, List.flatMap_cons, List.flatMap_nil, List.append_nil, t, m]
  rw [← h, leBytes_leNat]

theorem bytesLines_one (l : Line) : bytesLines 1 (linesBytes [l]) = [l] := by
  have lt := l.isLt
  have t : List.take 64 (leBytes 64 l.toNat) = leBytes 64 l.toNat := List.take_of_length_le (by simp)
  simp only [bytesLines, linesBytes, List.flatMap_cons, List.flatMap_nil, List.append_nil, t, leNat_leBytes]
  rw [Nat.mod_eq_of_lt (by omega), BitVec.ofNat_toNat, BitVec.setWidth_eq]

theorem none_or_one {α : Type} (ls : List α) (h : ls.length ≤ 1) : ls = [] ∨ ∃ l, ls = [l] := by
  cases ls with
  | nil => exact .inl rfl
  | cons l ls =>
    cases ls with
    | nil => exact .inr ⟨l, rfl⟩
    | cons _ _ => simp at h

theorem bytesLines_length (n : Nat) (bs : List Byte) : (bytesLines n bs).length = n := by
  induction n generalizing bs with
  | zero => rfl
  | succ n ih => rw [bytesLines, List.length_cons, ih]

theorem opens (key plane n : Nat) (hdr : BitVec 256) (ls : List Line) (h : ls.length ≤ 1) :
    openPkt key plane n (sealPkt key plane n ⟨hdr, ls⟩) = (ls, true) := by
  have lt : ∀ t : BitVec 128, hdr.toNat % 2 ^ 160 + t.toNat / 2 ^ 32 * 2 ^ 160 < 2 ^ 256 := by
    intro t
    have := t.isLt
    omega
  have tl : ∀ t : BitVec 128, t.toNat / 2 ^ 32 < 2 ^ 96 := by
    intro t
    have := t.isLt
    omega
  unfold openPkt
  rw [sealed_head]
  have ct : linesBytes (sealPkt key plane n ⟨hdr, ls⟩).lines =
      gcmXor (keyOf key) (pktNonce (FabPkt.head ⟨hdr, ls⟩) plane n) (linesBytes ls) := by
    unfold sealPkt
    dsimp only
    obtain rfl | ⟨l, rfl⟩ := none_or_one ls h
    · simp [linesBytes, bytesLines, gcmXor, xorBytes]
    · exact linesBytes_one _ (by rw [gcmXor_length]; simp [linesBytes])
  have ll : (sealPkt key plane n ⟨hdr, ls⟩).lines.length = ls.length := by
    unfold sealPkt
    dsimp only
    rw [bytesLines_length]
  dsimp only
  rw [ct, ll, gcmXor_twice]
  have hn : (sealPkt key plane n ⟨hdr, ls⟩).hdr.toNat = hdr.toNat % 2 ^ 160 +
      (Config.gcmTag (keyOf key) (pktNonce (FabPkt.head ⟨hdr, ls⟩) plane n) (pktAad hdr.toNat)
        (gcmXor (keyOf key) (pktNonce (FabPkt.head ⟨hdr, ls⟩) plane n) (linesBytes ls))).toNat / 2 ^ 32 * 2 ^ 160 := by
    unfold sealPkt
    dsimp only
    rw [BitVec.toNat_ofNat, Nat.mod_eq_of_lt (lt _)]
  rw [hn, pktAad_low, bits_high _ _ 160 96 (tl _) (by decide)]
  refine Prod.ext ?_ (by simp)
  obtain rfl | ⟨l, rfl⟩ := none_or_one ls h
  · rfl
  · exact bytesLines_one l

/-! ### A packet that has arrived -/

/-- A packet of at most one line in a receive buffer. -/
def rpk (p : FabPkt) : RPkt :=
  let us := p.lines.flatMap (fun l => [BitVec.ofNat 256 l.toNat, BitVec.ofNat 256 (l.toNat / 2 ^ 256)])
  { id := 1, units := p.hdr :: us, need := 1 + us.length, aborted := false, outs := [], routed := false, here := true, slices := 9 }

theorem rpk_pkt (p : FabPkt) (h : p.lines.length ≤ 1) : (rpk p).pkt = p := by
  obtain ⟨hdr, ls⟩ := p
  obtain rfl | ⟨l, rfl⟩ := none_or_one ls h
  · simp [rpk, RPkt.pkt]
  · have lt := l.isLt
    have e : (BitVec.ofNat 256 l.toNat).toNat + (BitVec.ofNat 256 (l.toNat / 2 ^ 256)).toNat * 2 ^ 256 = l.toNat := by
      rw [BitVec.toNat_ofNat, BitVec.toNat_ofNat]
      omega
    have e2 : BitVec.ofNat 512 l.toNat = l := by rw [BitVec.ofNat_toNat, BitVec.setWidth_eq]
    simp only [rpk, RPkt.pkt, List.flatMap_cons, List.flatMap_nil, List.append_nil, List.headD_cons, List.drop_succ_cons,
      List.drop_zero, List.length_cons, List.length_nil]
    rw [show (0 + 1 + 1) / 2 = 1 from rfl, List.range_one, List.map_cons, List.map_nil, List.getD_cons_zero, List.getD_cons_succ,
      List.getD_cons_zero, e, e2]

/-- Sealed with key 0 on plane 0 under a stream number. -/
def arrived (n : Nat) (h : FabHdr) (ls : List Line) : RPkt := rpk (sealPkt 0 0 n ⟨BitVec.ofNat 256 h.pack, ls⟩)

theorem arrived_pkt (n : Nat) (h : FabHdr) (ls : List Line) (hl : ls.length ≤ 1) :
    (arrived n h ls).pkt = sealPkt 0 0 n ⟨BitVec.ofNat 256 h.pack, ls⟩ := by
  refine rpk_pkt _ ?_
  unfold sealPkt
  dsimp only
  rw [bytesLines_length]
  exact hl

theorem arrived_head (n : Nat) (h : FabHdr) (ls : List Line) (hl : ls.length ≤ 1)
    (hu : FabHdr.unpack (BitVec.ofNat 256 h.pack).toNat = h) : (arrived n h ls).pkt.head = h := by
  rw [arrived_pkt n h ls hl, sealed_head]
  exact hu

/-- Job 0 is job 5 of the fabric and holds key 0; this device is device 0; port 0 is a mesh port, or the yoke port of the yoked
job. -/
def base (yoke : Bool) (s : State) : State :=
  let s := via s [fun s => s.fset (F.FAB_JOB_CFG_FJOB 0) 5, fun s => s.fset (F.SEC_JOB_STATE_KEY 0) 1,
    fun s => s.fset (F.YOK_JOB_CFG_YOKED 0) 1]
  { s with sec := { jobs := [(0, { kjob := some 0 })] }, links := [(0, { ctrl := if yoke then 0x420 else 0x20 })] }

/-- In `s`, a packet stands alone in a receive buffer of port 0. -/
def holds (s : State) (v : Nat) (r : RPkt) : State := s.updLink 0 (fun l => { l with vcs := [(v, { rx := [r] })] })

/-- The conditions that are not about the key. -/
def fits (s : State) (v n : Nat) (h : FabHdr) (d : Nat) : Bool :=
  ((s.link 0).isYoke || (!h.mcast && h.dst = s.devId)) && !badFabHdr v h && (s.ctxOf h.fjob = some 0) &&
  (!(s.link 0).isYoke || ((h.dst = s.fget F.YOK_CFG_PARTNER || h.dst = s.devId) && s.fbit (F.YOK_JOB_CFG_YOKED 0))) &&
  h.d = d && slicesOf h.d ≤ 9 && (s.secJob 0).kjob = some 0 && s.fget (F.SEC_JOB_STATE_KEY 0) = 1 && s.planeOf 0 = 0 &&
  nearSeq (if h.kind = 3 then (s.outStream (s.inKey 0 0 h)).next else (s.inStream (s.inKey 0 0 h)).next) h.eseq = n &&
  (h.kind ≠ 3 || !bit h.addr 10) && FabHdr.unpack (BitVec.ofNat 256 h.pack).toNat = h

/-- The port keeps its kind: what the conditions read does not change with the buffer. -/
theorem holds_link (s : State) (v : Nat) (r : RPkt) :
    (holds s v r).link 0 = { s.link 0 with vcs := [(v, { rx := [r] })] } := by
  unfold holds State.updLink State.link Tab.upd
  rw [Tab.get_set, if_pos rfl]

theorem inKey_holds (s : State) (v : Nat) (r : RPkt) (h : FabHdr) : (holds s v r).inKey 0 0 h = s.inKey 0 0 h := by
  unfold State.inKey
  rw [holds_link]
  rfl

/-- A packet that fits has arrived whole and opens to its line. -/
theorem opened (s : State) (v n : Nat) (h : FabHdr) (ls : List Line) (hl : ls.length ≤ 1) (hf : fits s v n h ls.length = true) :
    (arrived n h ls).pkt.head = h ∧ (holds s v (arrived n h ls)).firstHere 0 v = some (arrived n h ls) ∧
    (holds s v (arrived n h ls)).openRx 0 0 (arrived n h ls) = (ls, true) := by
  simp only [fits, Bool.and_eq_true, Bool.or_eq_true, Bool.not_eq_true', decide_eq_true_eq] at hf
  obtain ⟨⟨⟨⟨⟨⟨⟨⟨⟨⟨⟨here, bad⟩, ctx⟩, yoke⟩, hd⟩, sl⟩, kj⟩, key⟩, plane⟩, num⟩, ack⟩, hu⟩ := hf
  have hh := arrived_head n h ls hl hu
  have lk := holds_link s v (arrived n h ls)
  have iy : ((holds s v (arrived n h ls)).link 0).isYoke = (s.link 0).isYoke := by rw [lk]; rfl
  have ik := inKey_holds s v (arrived n h ls) h
  have pl : (holds s v (arrived n h ls)).planeOf 0 = s.planeOf 0 := by unfold State.planeOf; rw [iy]; rfl
  refine ⟨hh, ?_, ?_⟩
  · have rx : (((holds s v (arrived n h ls)).link 0).vc v).rx = [arrived n h ls] := by
      rw [lk]
      unfold Link.vc Tab.get
      rw [if_pos rfl]
    have ih : (holds s v (arrived n h ls)).isHere 0 (arrived n h ls) = true := by
      unfold State.isHere
      rw [hh, iy]
      dsimp only
      rcases here with here | ⟨a, b⟩
      · rw [here]; rfl
      · rw [a]
        have b' : h.dst = (holds s v (arrived n h ls)).devId := b
        simp [b']
    unfold State.firstHere
    rw [rx, List.find?_cons_of_pos ih]
    dsimp only
    rw [if_pos]
    show (_ :: _ : List (BitVec 256)).length = 1 + _
    rw [List.length_cons, Nat.add_comm]
  · unfold State.openRx
    rw [hh]
    have kj' : ((holds s v (arrived n h ls)).secJob 0).kjob = some 0 := kj
    have key' : (holds s v (arrived n h ls)).fget (F.SEC_JOB_STATE_KEY 0) = 1 := key
    dsimp only
    rw [kj']
    dsimp only
    rw [if_pos key', ik, pl, plane, arrived_pkt n h ls hl]
    have n0 : (if h.kind = 3 then
        nearSeq ((holds s v (arrived n h ls)).outStream (if bit h.addr 10 = true then 16384 * 0 + 4096 + bits h.addr 9 0
          else s.inKey 0 0 h)).next h.eseq
        else nearSeq ((holds s v (arrived n h ls)).inStream (s.inKey 0 0 h)).next h.eseq) = n := by
      rw [← num]
      split
      · rename_i hk
        rcases ack with ack | a
        · exact absurd hk ack
        · rw [a]
          simp only [Bool.false_eq_true, if_false]
          rfl
      · rfl
    rw [n0]
    exact opens 0 0 n _ ls hl

/-- A packet that fits and has the number that its stream expects is delivered. -/
theorem delivers (s : State) (v n : Nat) (h : FabHdr) (ls : List Line) (hl : ls.length ≤ 1) (hf : fits s v n h ls.length = true)
    (hn : h.kind = 3 ∨ subMod 16 h.eseq ((s.inStream (s.inKey 0 0 h)).next % 65536) = 0) :
    Delivers (holds s v (arrived n h ls)) 0 v 0 (arrived n h ls) ∧
      ((holds s v (arrived n h ls)).openRx 0 0 (arrived n h ls)).1 = ls ∧ (arrived n h ls).pkt.head = h := by
  obtain ⟨hh, fh, op⟩ := opened s v n h ls hl hf
  simp only [fits, Bool.and_eq_true, Bool.or_eq_true, Bool.not_eq_true', decide_eq_true_eq] at hf
  obtain ⟨⟨⟨⟨⟨⟨⟨⟨⟨⟨⟨here, bad⟩, ctx⟩, yoke⟩, hd⟩, sl⟩, kj⟩, key⟩, plane⟩, num⟩, ack⟩, hu⟩ := hf
  refine ⟨?_, by rw [op], hh⟩
  have iy : ((holds s v (arrived n h ls)).link 0).isYoke = (s.link 0).isYoke := by rw [holds_link]; rfl
  unfold Delivers
  rw [hh, op]
  dsimp only
  rw [inKey_holds, iy]
  refine ⟨fh, bad, ctx, ?_, rfl, sl, rfl, hn⟩
  intro hy
  rcases yoke with y | ⟨a, b⟩
  · rw [hy] at y; cases y
  · exact ⟨a.elim .inl .inr, b⟩

end Sys2Proof.Tests
end

