-- ==== Sys2Proof/Tests/Fabrics.lean ====
section
/-! SUPPORT. Tests of the fabric; each `wit_` theorem meets the hypotheses of a clause of a statement. -/

namespace Sys2Proof.Tests

-- One theorem after the other: their kernel evaluations would otherwise all wait at once, each with a stack of its own.
set_option Elab.async false
open Sys2Proof.Machine

/-! ### Data packets -/

/-- Header of a packet of job 5 from device 1 to this device. -/
def hd (kind d addr : Nat) : FabHdr := { kind := kind, d := d, addr := addr, fjob := 5, src := 1 }

/-- A header survives packing (R249). -/
theorem wit_PacketsOpen : let h : FabHdr := { gen := 4095, rtag := 2 ^ 17 - 1, poison := 15, epoch := 15, plan := 1, siginc := 255
                                              sigidx := 8191, addr := 2 ^ 36 - 1, eseq := 65535, fjob := 65535, src := 4095, dst := 4095
                                              kind := 15, d := 7, fence := true, mcast := true }
    h.gen < 2 ^ 12 ∧ h.rtag < 2 ^ 17 ∧ h.poison < 2 ^ 4 ∧ h.epoch < 2 ^ 4 ∧ h.plan < 2 ∧ h.siginc < 2 ^ 8 ∧ h.sigidx < 2 ^ 13 ∧
    h.addr < 2 ^ 36 ∧ h.eseq < 2 ^ 16 ∧ h.fjob < 2 ^ 16 ∧ h.src < 2 ^ 12 ∧ h.dst < 2 ^ 12 ∧ h.kind < 2 ^ 4 ∧ h.d < 2 ^ 3 ∧
    FabHdr.unpack h.pack = h := by decide +kernel

theorem wit_PacketsOpen_flit : let h : FlitHdr := { type := 15, seq := 4095, ack := 4095, nakid := 3, vc := 3, start := 127, units := 7
                                                    crVc := 3, crKind := 1, crCount := 65535, nak := true, replay := true, abort := true }
    h.type < 2 ^ 4 ∧ h.seq < 2 ^ 12 ∧ h.ack < 2 ^ 12 ∧ h.nakid < 4 ∧ h.vc < 4 ∧ h.start < 2 ^ 7 ∧ h.units < 8 ∧ h.crVc < 4 ∧
    h.crKind < 2 ∧ h.crCount < 2 ^ 16 ∧ FlitHdr.unpack h.pack = h := by decide +kernel

/-- A packet of no line and one whose lines are in its units. -/
theorem wit_PacketsOpen_units : ({ id := 1, units := [0], need := 1, aborted := false, outs := [], routed := false, here := true, slices := 1 } : RPkt).units = FabPkt.units ⟨0, []⟩ := by decide +kernel

def fab : State := base false ran

theorem wit_DataPackets_write : let r := arrived 0 (hd 0 1 0xC00000000) [0]
    Delivers (holds fab 0 r) 0 0 0 r ∧ ((holds fab 0 r).openRx 0 0 r).1 = [0] ∧ r.pkt.head = hd 0 1 0xC00000000 := by
  exact delivers fab 0 0 _ _ (by decide) (by decide +kernel) (by decide +kernel)

/-- Its line goes to a scratchpad of the job; one for a barn that the job does not own is denied. -/
theorem wit_DataPackets_denied : let r := arrived 0 (hd 0 1 0xC10000000) [0]
    Delivers (holds fab 0 r) 0 0 0 r ∧ ((holds fab 0 r).openRx 0 0 r).1 = [0] ∧ r.pkt.head = hd 0 1 0xC10000000 ∧
    (∀ a ∈ [0xC00000000, 0xC00000000 + 64 * 0], (Taken (holds fab 0 r) 0 0 0 r).arriveDenied 0 a true = none) ∧
    (Taken (holds fab 0 r) 0 0 0 r).arriveDenied 0 (0xC10000000 + 64 * 0) true = some 0x0A01 := by
  have h := delivers fab 0 0 (hd 0 1 0xC10000000) [0] (by decide) (by decide +kernel) (by decide +kernel)
  exact ⟨h.1, h.2.1, h.2.2, by decide +kernel, by decide +kernel⟩

/-- A read request for the most lines. -/
def reqLine : Line := BitVec.ofNat 512 (49152 * 2 ^ 72)

theorem wit_DataPackets_request : let r := arrived 0 (hd 1 1 0) [reqLine]
    Delivers (holds fab 0 r) 0 0 0 r ∧ ((holds fab 0 r).openRx 0 0 r).1 = [reqLine] ∧ r.pkt.head = hd 1 1 0 ∧
    bits ([reqLine].headD 0).toNat 511 119 = 0 ∧ 1 ≤ ctlNat [reqLine] 9 2 ∧ ctlNat [reqLine] 9 2 = 49152 := by
  have h := delivers fab 0 0 (hd 1 1 0) [reqLine] (by decide) (by decide +kernel) (by decide +kernel)
  exact ⟨h.1, h.2.1, h.2.2, by decide +kernel, by decide +kernel, by decide +kernel⟩

theorem wit_DataPackets_response : ∀ yoke : Bool, let r := arrived 0 (hd 2 1 0) [0]
    let s := holds (base yoke ran) 1 r
    Delivers s 0 1 0 r ∧ (s.openRx 0 0 r).1 = [0] ∧ r.pkt.head = hd 2 1 0 ∧ (s.link 0).isYoke = yoke := by
  intro yoke
  have h := delivers (base yoke ran) 1 0 (hd 2 1 0) [0] (by decide) (by revert yoke; decide +kernel) (by revert yoke; decide +kernel)
  exact ⟨h.1, h.2.1, h.2.2, by rw [holds_link]; cases yoke <;> decide +kernel⟩

theorem wit_DataPackets_ack : let r := arrived 0 (hd 3 0 0) []
    Delivers (holds fab 2 r) 0 2 0 r ∧ r.pkt.head = hd 3 0 0 := by
  have h := delivers fab 2 0 (hd 3 0 0) [] (by decide) (by decide +kernel) (by decide +kernel)
  exact ⟨h.1, h.2.2⟩

/-! ### Packets turned away -/

/-- A packet that no key sealed. -/
def plain (h : FabHdr) (ls : List Line) : RPkt := rpk ⟨BitVec.ofNat 256 h.pack, ls⟩

theorem wit_PacketsTurnedAway_job : let r := plain { hd 0 1 0 with fjob := 6 } [0]
    (holds fab 0 r).firstHere 0 0 = some r ∧ badFabHdr 0 r.pkt.head = false ∧ r.pkt.head.kind = 0 ∧
    ((holds fab 0 r).link 0).isYoke = false ∧ (holds fab 0 r).ctxOf r.pkt.head.fjob = none := by decide +kernel

theorem wit_PacketsTurnedAway_abort : let r := { plain (hd 0 1 0) [0] with aborted := true }
    (holds fab 0 r).firstHere 0 0 = some r ∧ badFabHdr 0 r.pkt.head = false ∧ r.pkt.head.kind = 0 ∧
    ((holds fab 0 r).link 0).isYoke = false ∧ (holds fab 0 r).ctxOf r.pkt.head.fjob = some 0 ∧ r.aborted = true := by decide +kernel

/-- A context without a key opens nothing. -/
theorem wit_PacketsTurnedAway_key : let r := plain (hd 0 1 0) [0]
    let s := holds { fab with sec := {} } 0 r
    s.firstHere 0 0 = some r ∧ badFabHdr 0 r.pkt.head = false ∧ r.pkt.head.kind = 0 ∧ (s.link 0).isYoke = false ∧
    s.ctxOf r.pkt.head.fjob = some 0 ∧ r.aborted = false ∧ slicesOf r.pkt.head.d ≤ r.slices ∧ (s.openRx 0 0 r).2 = false := by
  decide +kernel

/-- The stream from device 1 expects a number. -/
def num (next : Nat) : State := { fab with fab := { ins := if next = 0 then [] else [(1, { next := next })] } }

/-- A packet with a number has arrived there, authentic, and its distance from the expected number is `d`. -/
def TurnedAway (next n e d : Nat) : Prop :=
  let h := { hd 0 1 0 with eseq := e }
  let r := arrived n h [0]
  let s := holds (num next) 0 r
  s.firstHere 0 0 = some r ∧ r.pkt.head = h ∧ (s.openRx 0 0 r).2 = true ∧ (s.link 0).isYoke = false ∧
  subMod 16 h.eseq ((s.inStream (s.inKey 0 0 h)).next % 65536) = d

theorem turnedAway (next n e d : Nat) (hf : fits (num next) 0 n { hd 0 1 0 with eseq := e } 1 = true)
    (hy : ((num next).link 0).isYoke = false)
    (hd_ : subMod 16 e (((num next).inStream ((num next).inKey 0 0 { hd 0 1 0 with eseq := e })).next % 65536) = d) :
    TurnedAway next n e d := by
  have h := opened (num next) 0 n { hd 0 1 0 with eseq := e } [0] (by decide) hf
  refine ⟨h.2.1, h.1, by rw [h.2.2], by rw [holds_link]; exact hy, ?_⟩
  dsimp only
  rw [inKey_holds]
  exact hd_

/-- Numbers just past the expected one, the last that counts as past it, the first that counts as a repeat, and the last. -/
theorem wit_PacketsTurnedAway_number : TurnedAway 0 1 1 1 ∧ TurnedAway 0 32767 32767 32767 ∧ TurnedAway 32768 0 0 32768 ∧
    TurnedAway 1 0 0 65535 :=
  ⟨turnedAway 0 1 1 1 (by decide +kernel) (by decide +kernel) (by decide +kernel),
   turnedAway 0 32767 32767 32767 (by decide +kernel) (by decide +kernel) (by decide +kernel),
   turnedAway 32768 0 0 32768 (by decide +kernel) (by decide +kernel) (by decide +kernel),
   turnedAway 1 0 0 65535 (by decide +kernel) (by decide +kernel) (by decide +kernel)⟩

theorem wit_PacketsTurnedAway_bad : let r := plain (hd 5 0 0) []
    (holds fab 2 r).firstHere 0 2 = some r ∧ badFabHdr 2 r.pkt.head = true := by decide +kernel

theorem wit_PacketsTurnedAway_timers : let k : KeptPkt := ⟨0, ⟨0, []⟩, 0, 0, [], 0, []⟩
    let s := { fab with fab := { ins := [(0, { since := some 0 })], outs := [(0, { kept := [k] })] } }
    let s := { s with time := { s.time with edges := 800 * s.fget F.FAB_CTRL_RESEND_US } }
    (s.inStream (16384 * 0 + 0)).since = some 0 ∧ 0 + 2000 ≤ s.refNs ∧ (s.outStream (16384 * 0 + 0)).kept = k :: [] ∧
    k.at_ + 1000 * s.fget F.FAB_CTRL_RESEND_US = s.refNs := by decide +kernel

/-! ### Routes and transit -/

/-- Device 7 is reached by port 1, which is up and has credit for one packet of a line. -/
def routed (ports : Nat) : State :=
  let s := via fab [fun s => s.fset (F.LNK_PORT_STATE_STATE 0 1) ports, fun s => s.updLink 1 (fun l => { l with adv := [(0, 1), (1, 1)] })]
  { s with fab := { s.fab with routes := [(7, 0x81)] } }

theorem wit_RoutesAndTransit_forward : let r := plain { hd 0 1 0 with dst := 7 } [0]
    let s := holds (routed 5) 0 r
    ((s.link 0).vc 0).rx.find? (fun r => !r.routed && (r.pkt.head.mcast || !s.isHere 0 r)) = some r ∧
    s.transitRoute 0 (FabHdr.unpack (r.units.headD 0).toNat) = some ([1], false) ∧
    (∀ o ∈ [1], (s.link o).hasCredit 0 (FabHdr.unpack (r.units.headD 0).toNat).d = true) ∧ s.transitHere 0 0 = none ∧
    1 / 8 = (0 : PortId).val / 8 ∧ r.outs = [] ∧ r.far = [] := by decide +kernel

/-- A packet in transit from port 0 has crossed the mesh to the edge of port 8 (R245). -/
def crossed : UPkt :=
  { id := 1, src := 0, dst := 25, pos := 25, via := ejectBuf 25, job := 0, form := 4, addr := 0, data := [⟨0, 0, false⟩], sel := 0xC000
    inc := 0, fence := false, tag := 0, sent := true, port := 8, far := some tp }

theorem wit_RoutesAndTransit_land : ({ fab with mesh := { uns := [crossed] } } : State).transitHere 0 0 = some (crossed, tp) := by
  decide +kernel

/-- It goes on from the output's queue. -/
theorem test_transit_lands : next (exec (.transitForward 0 0) { fab with mesh := { uns := [crossed] } }) (fun t =>
    t.mesh.uns = [] ∧ ((t.link 8).vc 0).tx = [tp]) = true := by decide +kernel

theorem wit_RoutesAndTransit_drop : let r := plain { hd 0 1 0 with dst := 7 } [0]
    let s := holds (routed 7) 0 r
    ((s.link 0).vc 0).rx.find? (fun r => !r.routed && (r.pkt.head.mcast || !s.isHere 0 r)) = some r ∧
    s.transitRoute 0 (FabHdr.unpack (r.units.headD 0).toNat) = none ∧ s.transitHere 0 0 = none ∧ r.units.length = r.need := by decide +kernel

theorem wit_RoutesAndTransit_seal : let i : SealItem := ⟨0, 1, 0, 2, 0, 0, ⟨0, []⟩, none⟩
    let s := { fab with fab := { sealq := [i] } }
    ((List.range 16).map (fun i => (s.fab.turn + i) % 16)).find? s.sealWork = some 0 ∧ 0 % 2 = 0 ∧
    s.fab.sealq.find? (fun i => i.job = 0 / 2) = some i ∧ 1 < i.slices := by decide +kernel

theorem wit_RoutesAndTransit_notice : ∃ m u, (told (5 <<< 120) 5).takeStored 0 5 = some (m, u) := ⟨_, _, rfl⟩

theorem wit_RoutesAndTransit_hold : let s := port 7 (5 + 1000000) (fun l => { l with downAt := 5, vcs := [(0, { tx := [tp] })] })
    let s := s.fset F.FAB_CTRL_DOWN_HOLD_US 1000
    let l := s.link 0
    s.portOpen 0 = false ∧ l.downAt ≠ 0 ∧ l.downAt + 1000 * s.fget F.FAB_CTRL_DOWN_HOLD_US = s.refNs ∧
    0 < (l.vc 0).tx.length + (l.vc 1).tx.length + (l.vc 2).tx.length := by decide +kernel

/-- A CONTROL packet of a subtype, with bytes above byte 0. -/
def ctlLine (sub rest : Nat) : Line := BitVec.ofNat 512 (sub + rest)

/-- A CONTROL packet is delivered: what remains to be shown is about concrete states. -/
theorem deliversCtl (s : State) (sub rest : Nat) (hf : fits s 2 0 (hd 4 1 0) 1 = true)
    (hn : subMod 16 (hd 4 1 0).eseq ((s.inStream (s.inKey 0 0 (hd 4 1 0))).next % 65536) = 0)
    (hs : ctlByte [ctlLine sub rest] 0 = sub) :
    let r := arrived 0 (hd 4 1 0) [ctlLine sub rest]
    DeliversCtl (holds s 2 r) 0 0 sub r ∧ ((holds s 2 r).openRx 0 0 r).1 = [ctlLine sub rest] := by
  have h := delivers s 2 0 (hd 4 1 0) [ctlLine sub rest] (by simp) hf (.inr hn)
  exact ⟨⟨h.1, by rw [h.2.2]; rfl, by rw [h.2.1]; exact hs⟩, h.2.1⟩

theorem wit_RoutesAndTransit_fail : let r := arrived 0 (hd 4 1 0) [ctlLine 1 0]
    DeliversCtl (holds fab 2 r) 0 0 1 r ∧ (holds fab 2 r).isHead 0 = true ∧ (holds fab 2 r).fab.switching.contains 0 = false ∧
    (holds fab 2 r).switchPending 0 = false ∧ (holds fab 2 r).planOf 0 = 0 := by
  exact ⟨(deliversCtl fab 1 0 (by decide +kernel) (by decide +kernel) (by decide +kernel)).1, by decide +kernel⟩

/-- Plan B from job beat 1 on. -/
theorem wit_RoutesAndTransit_switch : let l := ctlLine 2 (1 * 2 ^ 8 + 2 ^ 64)
    let r := arrived 0 (hd 4 1 0) [l]
    DeliversCtl (holds fab 2 r) 0 0 2 r ∧ ((holds fab 2 r).openRx 0 0 r).1 = [l] ∧ ((holds fab 2 r).job 0).phase ≠ .halted ∧
    ((holds fab 2 r).job 0).phase ≠ .teardown ∧
    ctlNat [l] 8 8 ≠ 0 ∧ (holds fab 2 r).jobBeat 0 < ctlNat [l] 8 8 := by
  have h := deliversCtl fab 2 (1 * 2 ^ 8 + 2 ^ 64) (by decide +kernel) (by decide +kernel) (by decide +kernel)
  exact ⟨h.1, h.2, by decide +kernel, by decide +kernel, by decide +kernel, by decide +kernel⟩

theorem wit_RoutesAndTransit_beat : let s := { fab with fab := { pend := [(0, 1, 0)] } }
    s.fab.pend.find? (fun x => x.1 = 0) = some (0, 1, 0) ∧ 0 ≤ s.jobBeat 0 ∧ fab.isHead 0 = true ∧ (fab.job 0).phase ≠ .free := by
  decide +kernel

theorem wit_RoutesAndTransit_table : ∀ x ∈ [(0, 4095), (1, 0), (2, 2047), (3, 511)],
    let s := (fab.fset F.FAB_TBL_SEL_TABLE x.1).fset F.FAB_TBL_SEL_INDEX x.2
    s.fget F.FAB_TBL_SEL_TABLE = x.1 ∧ s.fget F.FAB_TBL_SEL_INDEX = x.2 := by decide +kernel

/-- Writing a route entry clears LOST and keeps VALID and the port (R255). -/
theorem test_table_write : next (exec (.fabTblWrite 0xFF) (fab.fset F.FAB_TBL_SEL_INDEX 9)) (fun t => t.routeEnt 0 9 = 0x9F) = true := by
  decide +kernel

end Sys2Proof.Tests
end

