-- ==== Sys2Proof/Tests/Jobs.lean ====
section
/-! SUPPORT. Tests of jobs, errors, time and yokes; each `wit_` theorem meets the hypotheses of a clause of a statement. -/

namespace Sys2Proof.Tests

-- One theorem after the other: their kernel evaluations would otherwise all wait at once, each with a stack of its own.
set_option Elab.async false
open Sys2Proof.Machine

/-! ### Jobs -/

/-- A JOB_CTL packet for barn 0: its operation, and what its body holds beside. -/
def jobCtl (op body : Nat) (s : State) : State := { s with mesh := { ctrl := [{ id := 1, word := ctrlWord 7 28 0 5 (op * 2 ^ 99 + body), pos := 0, here := true }] } }

/-- Word 63 of the window arrives, and has arrived already. -/
theorem wit_JobControl_window : ∀ got ∈ [0, 2 ^ 63], let s := jobCtl 1 (63 * 2 ^ 93 + 7) (ran.updStall 5 (fun t => { t with nextGot := got }))
    (∃ c u, s.ctrlTake (fun c => c.ty = 7 && c.dst = 0 && bits c.body 102 99 = 1) = some (c, u) ∧
      s.ownsBarn (bits c.body 105 103) 0 = true ∧ bit (s.stall (48 * 0 + c.stall)).nextGot (bits c.body 98 93) = decide (got ≠ 0)) := by
  intro got hg
  simp only [List.mem_cons, List.not_mem_nil, or_false] at hg
  rcases hg with rfl | rfl <;> exact ⟨_, _, rfl, by decide +kernel⟩

theorem wit_JobControl_base : ∃ c u, (jobCtl 2 7 ran).ctrlTake (fun c => c.ty = 7 && c.dst = 0 && bits c.body 102 99 = 2) = some (c, u) ∧
    (jobCtl 2 7 ran).ownsBarn (bits c.body 105 103) 0 = true := ⟨_, _, rfl, by decide +kernel⟩

def withSrv (f : SrvJob → SrvJob) (s : State) : State := s.updSrv 0 f

theorem wit_JobControl_suspend : let s := jobCtl 3 9 (withSrv (fun q => { q with susp := some (1, 9) }) ran)
    ∃ c u, s.ctrlTake (fun c => c.ty = 7 && c.dst = 0 && bits c.body 102 99 = 3) = some (c, u) ∧
      (s.srvJob (bits c.body 105 103)).susp = some (1, bits c.body 63 0) ∧ (s.job (bits c.body 105 103)).phase = .running :=
  ⟨_, _, rfl, by decide +kernel⟩

theorem wit_JobControl_halt : let s := jobCtl 4 0 (ran.updJob 0 (fun j => { j with phase := .halted }))
    ∃ c u, s.ctrlTake (fun c => c.ty = 7 && c.dst = 0 && bits c.body 102 99 = 4) = some (c, u) ∧
      (s.job (bits c.body 105 103)).phase = .halted := ⟨_, _, rfl, by decide +kernel⟩

theorem wit_JobControl_step : let s := ran.updCtr (ran.stepKey 0 0) (fun c => { c with val := 1 })
    (s.job 0).live = true ∧ (s.job 0).haltDue = none ∧ (s.ctr (s.stepKey 0 (s.srvJob 0).deliver)).val = 1 ∧ s.windowWaits 0 = false := by
  decide +kernel

theorem wit_JobControl_launch : let s := ran.updJob 0 (fun j => { j with phase := .ready, launchPending := true })
    (s.job 0).phase = .ready ∧ (s.job 0).launchPending = true ∧ (s.infoOf 0).launch ≤ s.nowNs := by decide +kernel

theorem wit_JobControl_beat : let s := (withSrv (fun q => { q with susp := some (1, 0) }) ran)
    let h := ran.updJob 0 (fun j => { j with haltDue := some (0x0204, 0) })
    (s.srvJob 0).susp = some (1, 0) ∧ (s.job 0).phase = .running ∧ s.allReached 0 0 = true ∧ (s.job 0).haltDue = none ∧
    (h.job 0).haltDue = some (0x0204, 0) ∧ h.allReached 0 0 = true ∧ (h.job 0).barns.contains 0 = true ∧ 0 ≤ h.jobBeatRaw 0 0 := by
  decide +kernel

theorem wit_HeadAndRelay_packets : ∀ sub ∈ [0x12, 0x11, 0x10, 0x13], let r := arrived 0 (hd 4 1 0) [ctlLine sub 0]
    DeliversCtl (holds fab 2 r) 0 0 sub r ∧ (holds fab 2 r).isHead 0 = true := by
  intro sub hs
  exact ⟨(deliversCtl fab sub 0 (by decide +kernel) (by decide +kernel) (by revert sub; decide +kernel)).1, by revert sub; decide +kernel⟩

/-- A composition point is due: no step in flight; suspended for idleness; not the head. -/
theorem wit_HeadAndRelay_point : fab.pointDue 0 = true ∧ (fab.srvJob 0).reason = 0 ∧
    (withSrv (fun q => { q with reason := 1 }) fab).pointDue 0 = true ∧ ((withSrv (fun q => { q with reason := 1 }) fab).srvJob 0).reason = 1 ∧
    (withSrv (fun q => { q with reason := 4 }) fab).pointDue 0 = true ∧ ((withSrv (fun q => { q with reason := 4 }) fab).srvJob 0).reason = 4 ∧
    (fab.fset (F.FAB_JOB_CFG_HEAD 0) 9).pointDue 0 = false := by decide +kernel

theorem wit_HeadAndRelay_save : let s := (withSrv (fun q => { q with susp := some (4, 0) }) fab).updJob 0 (fun j => { j with phase := .suspended })
    (s.srvJob 0).susp = some (4, 0) ∧ (s.job 0).phase = .suspended ∧ s.quiescent 0 = true ∧ (s.infoOf 0).saving = false ∧
    s.isHead 0 = true ∧ (s.srvJob 0).pause = none := by decide +kernel

/-! ### Errors -/

/-- The last sum that fits, and the first that does not; while the next boundary is ahead, and with none. -/
theorem wit_CountersSaturate : let s (inc : Nat) : State := { ran with ctrs := [(0, ⟨0xFFFFFFFE, [], [], [inc], 0xFFFFFFFE, false⟩)] }
    let sum (x : Counter) : Nat := (x.writes.getLast?.getD (x.prev - x.consumes.sum)) + x.incs.sum
    sum ((s 1).ctr 0) = 0xFFFFFFFF ∧ sum ((s 2).ctr 0) = 0x100000000 ∧ ctrOwns (s 2) (.loc 0 0 0) 0 ∧ ((s 2).job 0).live = true ∧
    ((s 2).job 0).haltDue = none ∧ ((s 2).ctr 0).over_ = false ∧
    ((s 2).updJob 0 (fun j => { j with bounds := [1] })).jobBeatAt 0 (blkRegion (ctrPlace (s 2) (.loc 0 0 0)).1) < 1 := by
  refine ⟨by decide +kernel, by decide +kernel, ?_, by decide +kernel, by decide +kernel, by decide +kernel, by decide +kernel⟩
  unfold ctrOwns; decide +kernel

/-- A packet of every kind in a context without a key; the report was made just now, or never. -/
theorem wit_UnauthenticPacketsDiscarded : ∀ x ∈ [(0, 0), (0, 1), (1, 2), (2, 3), (2, 4)],
    let r := plain (hd x.2 (if x.2 = 3 then 0 else 1) 0) (if x.2 = 3 then [] else [0])
    let s := holds { fab with sec := {} } x.1 r
    s.firstHere 0 x.1 = some r ∧ badFabHdr x.1 r.pkt.head = false ∧ r.pkt.head.kind = x.2 ∧ s.ctxOf r.pkt.head.fjob = some 0 ∧
    (s.link 0).isYoke = false ∧ r.aborted = false ∧ slicesOf r.pkt.head.d ≤ r.slices ∧ s.portBusy 0 = false ∧
    (s.openRx 0 0 r).2 = false ∧ s.mayReport 0x0A02 0 = true ∧ ({ s with rep := [(0x0A02 * 2 ^ 20, 1)] }).mayReport 0x0A02 0 = false := by
  decide +kernel

theorem wit_UnauthenticPacketsDiscarded_key : ∀ k ∈ [0, 2], (fab.fset (F.SEC_JOB_STATE_KEY 0) k).fget (F.SEC_JOB_STATE_KEY 0) = k := by
  decide +kernel

def rec_ (sev : Nat) : ErrRec := ⟨0x0103, sev, true, false, some 7, 28, 0xFF, 0xFFFF, 2 ^ 64 - 1, 2 ^ 64 - 1, 2 ^ 64 - 1⟩

def collected (sev n : Nat) : State :=
  { fab with err := { flight := [rec_ sev], held := (List.range n).map (fun i => ⟨i, rec_ 0, false⟩) } }

/-- The last places that each severity may take, and the first that it may not. -/
theorem wit_ErrorsAreCollected : (collected 1 959).err.flight.find? (fun r => r.blk = 28) = some (rec_ 1) ∧ (rec_ 1).sev ≤ 1 ∧
    (collected 1 959).err.held.length = 959 ∧ (collected 1 960).err.held.length = 960 ∧ 1 < (rec_ 2).sev ∧
    (collected 2 1023).err.held.length = 1023 ∧ (collected 2 1024).err.held.length = 1024 ∧ (collected 2 1023).err.dropLow = 0 := by
  decide +kernel

/-- The three packets of a record of barn 0 have arrived; of none. -/
theorem wit_ErrorsAreCollected_parts : let u := ran.raise { code := 0x0103, blk := 0 }
    let s : State := { u with mesh := { u.mesh with ctrl := u.mesh.ctrl.map (fun (c : CPkt) => { c with here := true }) } }
    (s.takeParts (recPoint 0)).isSome = true ∧ (s.err.flight.find? (fun (r : ErrRec) => r.blk = 0)).isSome = true ∧
    u.takeParts (recPoint 0) = none := by decide +kernel

theorem wit_ErrorsAreCollected_record : let r := rec_ 3
    r.code < 2 ^ 16 ∧ r.sev < 4 ∧ r.blk < 256 ∧ r.inst < 256 ∧ r.fjob < 2 ^ 16 ∧ r.beat < 2 ^ 64 ∧ r.time < 2 ^ 64 ∧
    r.detail < 2 ^ 64 ∧ r.job = some 7 ∧ codeSev 0x0103 ≤ 1 ∧ fab.escalates { code := 0x0103, blk := 28 } = false := by decide +kernel

theorem wit_ErrorsAreCollected_log : let s := (collected 0 1).fset F.TCK_STATE_STATE 1
    s.fget F.TCK_STATE_STATE = 1 ∧ s.err.held.find? (fun e => !e.logged) = some ⟨0, rec_ 0, false⟩ ∧
    (({ rec_ 0 with escalated := false }).escalated && codeClass (rec_ 0).code = 1) = false := by decide +kernel

/-! ### Time and holds -/

theorem wit_StepsFollowTargets : (port 0).enabled pcrBase = true ∧ (port 0).time.refLost = false ∧ ran.enabled pcrBase = false ∧
    ran.throttled = false ∧ (ran.fset F.PCR_THROTTLE_ASSERTED 1).throttled = true ∧
    (maxOf 0 ((neighbours 28).map (fun q => (ran.region q).want)) - 3 ≤ minOf 15 ((neighbours 28).map (fun q => (ran.region q).want)) + 3) ∧
    (let s := (ran.fset F.PCR_THROTTLE_ASSERTED 1)
     let s := { s with time := { s.time with edges := 8000000000 } }
     s.throttled = true ∧ s.time.stuckSaid = false ∧ s.time.throttleSince + 10000000000 = s.refNs) ∧
    ({ port 0 with time := { (port 0).time with refLost := true } } : State).enabled pcrBase = true := by decide +kernel

/-- The first step that the clamp keeps, below and above: regions start at S4. -/
theorem wit_StepsFollowTargets_clamp : ∀ x ∈ [1, 7], let s := ran.fset (F.PCR_STEP_REQ_STEP 28) x
    maxOf 0 ((neighbours 28).map (fun q => (s.region q).want)) - 3 ≤ s.fget (F.PCR_STEP_REQ_STEP 28) ∧
    s.fget (F.PCR_STEP_REQ_STEP 28) ≤ minOf 15 ((neighbours 28).map (fun q => (s.region q).want)) + 3 := by decide +kernel

/-- A sensor of region 0 reads just below the guard's release and just at its onset. -/
theorem wit_StepsFollowTargets_guard : ∀ x ∈ [1631, 1680], ∃ i < 60,
    ((ran.fset (F.TCK_TEMP_READING i) x).fset (F.TCK_TEMP_FAULT i) 0).temp 0 = some (x : Int) := by
  intro x hx
  refine ⟨0, by decide, ?_⟩
  revert x; decide +kernel

theorem wit_TimeCompletes_set : (port 0).enabled pcrBase = true ∧ (port 0).mayJump = true ∧
    (let s := on [Blk.base .pcr 0] ran; s.enabled pcrBase = true ∧ s.mayJump = false) ∧
    (port 0).fbit F.PCR_TIME_STATUS_REF_PRESENT = true ∧
    (let s := { port 0 with time := { (port 0).time with refLost := true } }; s.time.refLost = true ∧ s.time.hubReq = none) ∧
    (let s := { port 0 with time := { (port 0).time with refLost := true, hubReq := some 5 } }; s.time.refLost = true ∧ s.time.hubReq = some 5) := by
  decide +kernel

/-- PPS_IN selected, locked, second 1 due at the last unit of its window. -/
def pps (st : Nat) (now : Nat) (f : TimeSt → TimeSt) : State :=
  let s := via (port 0) [fun s => s.fset F.PCR_TIME_CTRL_SOURCE 1, fun s => s.fset F.PCR_TIME_STATUS_STATE st,
    fun s => s.fset F.PCR_PPS_SECONDS_SECONDS 1]
  { s with time := f { s.time with now := now } }

theorem wit_TimeCompletes_pps : ∀ now ∈ [secUnits - winUnits, secUnits + winUnits], let s := pps 2 now id
    s.source = 1 ∧ s.enabled pcrBase = true ∧ s.timeState = 2 ∧ s.nearSecond (s.fget F.PCR_PPS_SECONDS_SECONDS) = true := by
  decide +kernel

theorem wit_TimeCompletes_fault : (let s := pps 2 (1500000000 * 2 ^ 32) id
      s.source = 1 ∧ s.timeState = 2 ∧ s.time.lastAccepted + 1500000000 = s.nowNs) ∧
    (let s := pps 2 0 (fun t => { t with rejects := 4 }); s.source = 1 ∧ s.timeState = 2 ∧ s.time.rejects = 4) ∧
    (let s := pps 4 secUnits id; s.timeState = 4 ∧ s.fget F.PCR_PPS_SECONDS_SECONDS * secUnits = s.time.now) := by decide +kernel

theorem wit_TimeCompletes_exchange : let x : TimeEx := ⟨3, some 0, some 1, some 2⟩
    (port 5 1000000).portSt 0 = 5 ∧ ((port 5 1000000).link 0).exAt + 1000000 = (port 5 1000000).refNs ∧
    (∃ m u, (told (1 <<< 120) 5).takeStored 0 1 = some (m, u)) ∧
    (∀ t ∈ [2, 3], let s := told (BitVec.ofNat 128 (t * 2 ^ 120 + 3 * 2 ^ 112)) 5 (fun l => { l with ex := some x })
      ∃ m u, s.takeStored 0 t = some (m, u) ∧ (s.link 0).ex = some x ∧ x.id = bits m.1.toNat 119 112 ∧ x.t1 = some 1 ∧ x.t4 = some 2 ∧
        s.source ≠ 2) ∧
    (let s := port 5 100000 (fun l => { l with ex := some x }); (s.link 0).ex = some x ∧ x.at_ = some 0 ∧ 0 + 100000 = s.refNs) := by
  refine ⟨by decide +kernel, by decide +kernel, ⟨_, _, rfl⟩, ?_, by decide +kernel⟩
  intro t ht
  simp only [List.mem_cons, List.not_mem_nil, or_false] at ht
  rcases ht with rfl | rfl <;> exact ⟨_, _, rfl, by decide +kernel⟩

def region (f : Region → Region) : State := ran.updRegion 0 f

def cause (code : Nat) : HoldCause := ⟨code, some 0, 0, 2, 0, 0, 0⟩

theorem wit_HoldsComplete : ((region (fun g => { g with skew := true })).region 0).skew = true ∧
    ((region (fun g => { g with skew := true })).region 0).held = false ∧ ran.mayBegin 0 = true ∧
    (ran.setReg (R.PCR_BEAT 0) 2).mayBegin 0 = false ∧ (ran.setReg (R.PCR_BEAT 0) 1).mayBegin 0 = true ∧
    (neighbours 0).contains 1 = true ∧ ran.held 1 = false ∧ (ran.region 0).heldOwn = false ∧
    (ran.region 0).causes.any (fun d => d.code = 1 && d.what = 1 && d.eng = 0) = false := by decide +kernel

/-- A hold for a command that waits no longer, while another region holds this one, and alone. -/
theorem wit_HoldsComplete_release : let s (o : List Nat) := region (fun g => { g with heldOwn := true, causes := [cause 3], origins := o })
    ((s [1]).region 0).heldOwn = true ∧ (∀ c ∈ ((s [1]).region 0).causes, (s [1]).causeOver 0 c = true ∧ c.code ≠ 1) ∧
    ((s [1]).region 0).origins ≠ [] ∧ ((s []).region 0).heldOwn = true ∧ ((s []).region 0).origins = [] := by decide +kernel

/-- A hold of region 0 reaches region 1; a block of loft 0 that is still in repair holds its barn on. -/
theorem wit_HoldsComplete_spread : let s := region (fun g => { g with heldOwn := true })
    (s.region 1).origins ≠ s.reaching 1 ∧ s.reaching 1 = [0] ∧ (ran.region 1).origins = ran.reaching 1 := by decide +kernel

theorem wit_HoldsComplete_stays : let c : HoldCause := ⟨8, some 0, srcId 0 32768, 0, 0, 0, 0⟩
    let s := region (fun g => { g with heldOwn := true, causes := [c] })
    let s := s.updLoft 0 (fun l => { l with failed := [⟨32768, .partner, none, 0, some 0, 0⟩] })
    (s.region 0).heldOwn = true ∧ c ∈ (s.region 0).causes ∧ s.causeOver 0 c = false ∧ c.code ≠ 1 := by decide +kernel

theorem wit_HoldsComplete_timeout : let s := region (fun g => { g with heldOwn := true, first := some (cause 3) })
    let s := s.updRegion 0 (fun g => { g with loc := 1000 * s.fget F.PCR_STALL_TIMEOUT_LIMIT_US * 2 ^ 32 })
    (s.region 0).first = some (cause 3) ∧ (s.region 0).heldOwn = true ∧ (cause 3).job = some 0 ∧ (s.job 0).live = true ∧
    s.err.fatal = false ∧ (cause 1).code = 1 ∧
    (cause 3).since + s.fget F.PCR_STALL_TIMEOUT_LIMIT_US * 1000 * 2 ^ 32 = (s.region 0).loc := by decide +kernel

/-! ### Yokes -/

theorem wit_YokeState_enable : fab.enabled (Blk.base .yok 0) = false ∧ fab.fbit F.YOK_CFG_ENABLE = false ∧
    (on [Blk.base .yok 0] fab).enabled (Blk.base .yok 0) = true := by decide +kernel

/-- The yoke is enabled, in a state; its port is port 0, in a state. -/
def yoke (st portSt : Nat) (ns : Nat) (f : YokSt → YokSt) : State :=
  let s := via (base true ran) [fun s => s.fset F.YOK_CFG_ENABLE 1, fun s => s.fset F.YOK_STATE_STATE st,
    fun s => s.fset (F.LNK_PORT_STATE_STATE 0 0) portSt, fun s => s.fset F.YOK_STATE_LINK_HB 1, fun s => s.fset F.YOK_STATE_PIN_HB 1,
    fun s => s.updLink 0 (fun l => { l with planeOther := 1 })]
  { s with yok := f s.yok, time := { s.time with now := ns * 2 ^ 32, edges := ns * 4 / 5 } }

theorem wit_YokeState_form : let s := yoke 1 5 100000000 (fun y => { y with partnerPrim := some true })
    let t := yoke 1 7 100000000 id
    s.yokState = 1 ∧ s.yokeMayForm = true ∧ t.yokState = 1 ∧ t.yokeMayForm = false ∧ t.yok.formRaised = false ∧
    t.yok.enabledAt + 100000000 = t.refNs ∧ s.fbit F.YOK_CFG_ENABLE = true ∧ s.nowNs / 1000000 ≠ s.yok.lastPulse ∧
    s.portSt s.yokPort = 5 ∧ t.portSt t.yokPort ≠ 5 := by decide +kernel

theorem wit_YokeState_heartbeat : let s := (yoke 2 5 0 id).updLink 0 (fun l => { l with store := [(4 <<< 120, 0)] })
    ∃ m u, s.takeStored 0 4 = some (m, u) ∧ s.fbit F.YOK_CFG_ENABLE = true ∧ (0 : PortId).val = s.yokPort := ⟨_, _, rfl, by decide +kernel⟩

theorem wit_YokeState_loss : let s (link pin : Nat) := ((yoke 2 5 (50 * 1000000000) (fun y => { y with downSince := some 0 })).fset
      F.YOK_STATE_LINK_HB link).fset F.YOK_STATE_PIN_HB pin
    (s 1 1).fbit F.YOK_CFG_ENABLE = true ∧ (s 1 1).fbit F.YOK_STATE_PIN_HB = true ∧ (s 1 1).yok.pinHb.getD 0 + (s 1 1).lossNs ≤ (s 1 1).refNs ∧
    (s 1 1).fbit F.YOK_STATE_LINK_HB = true ∧ (s 0 1).fbit F.YOK_STATE_LINK_HB = false ∧ (s 0 1).yokState = 2 ∧
    (s 1 1).yok.linkHb.getD 0 + (s 1 1).lossNs ≤ (s 1 1).refNs ∧
    (s 1 1).yok.downSince = some 0 ∧ 0 + (s 1 1).lossNs ≤ (s 1 1).refNs ∧ (s 1 1).fbit F.YOK_CFG_PRIMARY = false ∧
    ((s 1 1).fset F.YOK_CFG_PRIMARY 1).fbit F.YOK_CFG_PRIMARY = true ∧
    ((s 1 1).fset (F.YOK_JOB_CFG_YOKED 0) 0).yokedJobs = [] := by decide +kernel

theorem wit_YokeState_actions : let s (st : Nat) := (yoke 2 5 0 id).fset (F.YOK_JOB_STATE_STATE 0) st
    (s 3).isHead 0 = true ∧ (s 3).yoked 0 = true ∧ ((s 3).job 0).live = true ∧ (s 3).jobYoke 0 = 3 ∧ (s 2).jobYoke 0 = 2 ∧
    (s 2).fget (F.SEC_JOB_STATE_GEN 0) ≠ 4095 ∧ (s 4).jobYoke 0 = 4 ∧ ((s 4).fset F.YOK_STATE_STATE 3).yokState = 3 ∧
    ((s 3).fset (F.FAB_JOB_CFG_HEAD 0) 9).isHead 0 = false := by decide +kernel

/-- A step whose digests can be read at last, its slot written in a scratchpad of the job, or not. -/
def digests (ok : Bool) (st : Nat) : State :=
  let s := (yoke 2 7 0 id).fset (F.YOK_JOB_STATE_STATE 0) st
  let s := (withSrv (fun q => { q with deliver := 1 }) s).fset (F.YOK_JOB_AREA_DIGEST 0) (0xC00000000 / 4096)
  if ok then s else s.updStall 0 (fun t => { t with spad := { cur := [(0, ⟨0, 0, true⟩)] } })

theorem wit_YokeJobs_digest : (digests true 1).yoked 0 = true ∧ ((digests true 1).job 0).live = true ∧
    ((digests true 1).yokJob 0).read < ((digests true 1).srvJob 0).deliver ∧ (digests true 1).baseOf 0 1 ≤ (digests true 1).jobBeat 0 ∧
    ((digests true 1).readDigests 0 0).isSome = true ∧ (digests false 1).readDigests 0 0 = none ∧ (digests true 1).jobYoke 0 = 1 ∧
    (digests true 2).jobYoke 0 ≠ 1 := by decide +kernel

theorem wit_YokeJobs_copy : let s := digests true 4
    let s := { s with yok := { s.yok with jobs := [(0, { todo := [1] })] } }
    (s.job 0).live = true ∧ s.jobYoke 0 = 4 ∧ ((State.copyOn 0 8192 s).yokJob 0).todo ≠ [] ∧ (digests true 1).jobYoke 0 ≠ 4 ∧
    (digests true 1).jobYoke 0 ≠ 5 := by decide +kernel

/-- A request for the block as of job beat 1 waits, one as of job beat 0 does not. -/
theorem wit_YokeJobs_request : let s (b : Nat) := { digests true 1 with yok := { reqs := [⟨0, 0, 0, b⟩] } }
    (s 1).yok.reqs = ⟨0, 0, 0, 1⟩ :: [] ∧ (s 1).reqWaits ⟨0, 0, 0, 1⟩ = true ∧ (s 0).reqWaits ⟨0, 0, 0, 0⟩ = false := by decide +kernel

/-- The CONTROL packets of a yoked job. -/
theorem yokes (st sub rest : Nat) (hst : st ∈ [1, 5, 6]) (hs : ctlByte [ctlLine sub rest] 0 = sub) :
    let r := arrived 0 (hd 4 1 0) [ctlLine sub rest]
    let s := holds (digests true st) 2 r
    DeliversCtl s 0 0 sub r ∧ (s.openRx 0 0 r).1 = [ctlLine sub rest] := by
  refine deliversCtl (digests true st) sub rest ?_ ?_ hs <;> (revert st; decide +kernel)

theorem wit_YokeJobs_packets : ∀ x ∈ [(1, 0x18), (1, 0x1E), (1, 0x19), (1, 0x1A), (6, 0x1C), (1, 0x1C), (1, 0x1B), (1, 0x1F), (5, 0x14), (6, 0x1D)],
    let r := arrived 0 (hd 4 1 0) [ctlLine x.2 0]
    let s := holds (digests true x.1) 2 r
    DeliversCtl s 0 0 x.2 r ∧ s.isHead 0 = true ∧ s.jobYoke 0 = x.1 ∧ s.portBusy 0 = false ∧ s.yok.reqs = [] := by
  intro x hx
  refine ⟨(yokes x.1 x.2 0 (by revert x; decide) (by revert x; decide +kernel)).1, ?_⟩
  revert x; decide +kernel

/-- A digest of the last step that is kept, and of the first that is not; a report of phase 1; a refusal for a block in repair. -/
theorem wit_YokeJobs_bytes : (let l := [ctlLine 0x18 (30 * 2 ^ 64)]; ctlNat l 8 8 < ((digests true 1).yokJob 0).read + 31) ∧
    (let l := [ctlLine 0x18 (31 * 2 ^ 64)]; ((digests true 1).yokJob 0).read + 31 ≤ ctlNat l 8 8) ∧
    ctlByte [ctlLine 0x1F 0] 1 = 0 ∧ ctlByte [ctlLine 0x1F (2 ^ 8)] 1 = 1 ∧
    (let f : FailBlk := ⟨0, .partner, some 0, 0, some 0, 0⟩
     let s := (digests true 1).updLoft 0 (fun l => { l with failed := [f] })
     s.failAt (ctlByte [ctlLine 0x1A 0] 1 * 0x80000000 + ctlNat [ctlLine 0x1A 0] 4 4) = some (0, f) ∧ f.stage = .partner) ∧
    (digests true 1).reqWaits ⟨0, 0, 0, 1⟩ = true ∧ (digests true 1).reqWaits ⟨0, 0, 0, 0⟩ = false := by decide +kernel

end Sys2Proof.Tests
end

