-- ==== Sys2Proof/Tests/Hosts.lean ====
section
/-! SUPPORT. Tests of the host ports, loading, deployment, teardown, attestation, the Tackroom and the registers; each `wit_` theorem
meets the hypotheses of a clause of a statement. -/

namespace Sys2Proof.Tests

-- One theorem after the other: their kernel evaluations would otherwise all wait at once, each with a stack of its own.
set_option Elab.async false
open Sys2Proof.Machine

/-! ### Host ports -/

/-- Device 0 with the Tackroom running, host port A enabled with its link up; the port owns the context of job 0. -/
def hosted (f : HostSt → HostSt) (s : State) : State :=
  via { s with tck := { s.tck with pwrGood := true } } [fun s => s.fset F.TCK_STATE_STATE 1, fun s => s.fset (F.HST_PORT_CFG_ENABLE 0) 1,
    fun s => s.fset (F.HST_CTX_OWNED 0 0) 1, fun s => s.updRing 0 (fun r => { r with port := 0 }),
    fun s => s.updHst 0 (fun h => f { h with up := true, perst := false, absent := false, fresh := false })]

theorem wit_HostPorts_link : let s := hosted (fun h => { h with up := false }) fab
    (s.hst 0).perst = false ∧ s.powered = true ∧ (fab.hst 0).perst = true ∧ ((hosted id fab).hst 0).up = true ∧
    (hosted id fab).copies.all (fun c => c.port ≠ 0) = true ∧ ((hosted (fun h => { h with ideSecure := true }) fab).hst 0).ideSecure = true ∧
    (fab.hst 0).ideSecure = false ∧ fab.pollsDevice 0 = false := by decide +kernel

theorem wit_HostPorts_ide : let s := { hosted id fab with sec := { spdm := [(0, 2)] } }
    s.canRead 0 = true ∧ s.inSession 0 = true := by decide +kernel

theorem wit_HostPorts_poll : let s := hosted id fab
    s.pollsDevice 0 = true ∧ (s.hst 0).fresh = false ∧
    (∃ u, s.hindex 0 [⟨192, [5, 0, 0, 0]⟩] (s.reg (R.HST_DEVRING_HDR 0) + 192) = (some 5, u)) := by
  refine ⟨by decide +kernel, by decide +kernel, ((hosted id fab).hindex 0 [⟨192, [5, 0, 0, 0]⟩] ((hosted id fab).reg (R.HST_DEVRING_HDR 0) + 192)).2, ?_⟩
  refine Prod.ext ?_ rfl
  decide +kernel

theorem wit_HostPorts_stall : let s := hosted (fun h => { h with stall := some (0, 0) }) fab
    let s := { s with time := { s.time with edges := 800000 } }
    (s.hst 0).stall = some (0, 0) ∧ (s.hst 0).stallSaid = false ∧ 0 + 1000000 = s.refNs := by decide +kernel

def copy (in_ : Bool) : CopyCmd := ⟨0, 0, in_, 0, true, 0xC000, 0, 0, 0xC00000000, 64, 1, 1⟩

theorem wit_HostPorts_copy : ∀ in_ : Bool, let s := { hosted id fab with copies := [copy in_] }
    s.copies[0]? = some (copy in_) ∧ s.touchesWeight (copy in_).addr (copy in_).len = false ∧
    (s.updLoft 0 (fun l => { l with cls := [(0, 1)] })).touchesWeight 0 64 = true ∧ s.copyWaits 0 (copy in_) = false ∧ (copy in_).in_ = in_ ∧
    (s.hread 0 [⟨0, List.replicate 64 1⟩] (copy in_).host (copy in_).len).1 = some (List.replicate 64 1) ∧
    (s.hread 0 [⟨0, List.replicate 63 1⟩] (copy in_).host (copy in_).len).1 = none := by decide +kernel

/-- The last byte of the scratchpad of a stall, and the first past it. -/
theorem wit_HostPorts_bar2 : let s := hosted id fab
    s.canRead 0 = true ∧ (s.fbit (F.HST_PORT_CFG_IDE_REQUIRED 0) = true → false = true) ∧ s.barOk 0 0xC002FFFFF 1 false = true ∧
    s.barOk 0 0xC00000000 4096 true = true ∧ s.barOk 0 0xC00300000 1 false = false ∧ s.barOk 0 0xC10000000 1 false = false := by
  decide +kernel

theorem wit_HostPorts_msix : let s := hosted (fun h => { h with pend := [15] }) fab
    (s.hst 0).pend.contains (16 * 0 + 15) = true ∧ Tab.get zeroNat (s.hst 0).fired 15 = 0 ∧ (s.hst 0).due.contains 15 = false := by
  decide +kernel

/-! ### Loading -/

/-- The smallest image: no program, one rank, barn 0 (R294, R295). -/
def image : List Byte :=
  leBytes 2 0 ++ leBytes 2 9 ++ leBytes 1 0 ++ leBytes 1 44 ++ leBytes 2 0 ++ leBytes 2 1 ++ leBytes 2 1 ++ leBytes 52 0 ++
  leBytes 1 3 ++ leBytes 3 0 ++ leBytes 4 1 ++ leBytes 8 128 ++ leBytes 8 4 ++ leBytes 8 0 ++ leBytes 32 0 ++ leBytes 4 1

def params : List Byte := leBytes 2 0 ++ leBytes 1 44 ++ leBytes 63 0

def loads (img : List Byte) : State :=
  let s := via (hosted id State.reset) [fun s => s.fset F.SEC_CTRL_IMAGE_SIG 0,
    fun s => s.updJob 0 (fun j => { j with phase := .loading, barns := [0] })]
  { s with loads := [(0, some { port := 0, barns := 1, img := 0, imgLen := img.length, params := 4096 })] }

theorem wit_LoadAndTeardown_reads : (fab.job 0).phase ≠ .loading ∧ ((loads image).job 0).phase = .loading ∧
    ((loads image).hread 0 [] 0 132).1 = none ∧ ((loads image).hread 0 [⟨0, image⟩, ⟨4096, params⟩] 0 132).1 = some image ∧
    prmLength ((loads image).imageBody image) = 66 ∧ image.length = 132 ∧
    ((loads image).hread 0 [⟨0, image⟩, ⟨4096, params⟩] 4096 66).1 = some params ∧
    field params 3 1 = 0 ∧ field params 58 6 = 0 := by decide +kernel

/-- The checks pass; an image whose header breaks its layout fails the check IMAGE. -/
theorem wit_LoadAndTeardown_checks : (loads image).loadChecks 0 ((loads image).loadRec 0) image params true true = .inr image ∧
    (loads image).loadChecks 0 ((loads image).loadRec 0) (1 :: image.drop 1) params true true = .inl (1, 0) ∧
    (loads image).loadChecks 0 ((loads image).loadRec 0) image params true false = .inl (7, 0) := by decide +kernel

/-! ### Deployment -/

def bale (h : Nat) : Bale := ⟨0, 3, 1, 0, h, [⟨1, 0, 0, 1, 0, 1, 0⟩], 0, false⟩

/-- A deployment of job 0, whose control area is the scratchpad of stall 0; the gate counters from 0 on hold values. -/
def deploys (dep : Option Bale) (st : Nat) (gates : List Nat) (f : Stall → Stall) : State :=
  let s := via fab [fun s => s.fset (F.SEC_JOB_STATE_DEPLOY 0) st, fun s => s.fset (F.SEC_JOB_AREA_AREA 0) (0xC00000000 / 4096),
    fun s => s.updStall 0 f, fun s => s.updInfo 0 (fun i => { i with ranks := [0] })]
  { s with
    sec := { jobs := [(0, { kjob := some 0, dep := dep })], loads := [⟨0, 1, 1, 0, 0, 0, 0⟩] }
    ctrs := gates.zipIdx.map (fun g => (0x200000 + g.2, ⟨g.1, [], [], [], g.1, false⟩)) }

theorem wit_LoadAndTeardown_shard : let s := deploys (some (bale 0)) 1 [] id
    s.sec.loads[0]? = some ⟨0, 1, 1, 0, 0, 0, 0⟩ ∧ (s.secJob 0).bale 0 0 = some (bale 0) ∧
    (bale 0).shards[0]? = some ⟨1, 0, 0, 1, 0, 1, 0⟩ := by decide +kernel

theorem wit_LoadAndTeardown_commit : (∀ h ∈ [0, 1], let s := deploys (some (bale h)) 2 [1] id
      (s.secJob 0).dep = some (bale h) ∧ s.isHead 0 = true ∧ (s.secJob 0).commitSent = false ∧ (s.job 0).phase ≠ .free ∧
      s.peerCount 0 = (s.ctr (keyGate (s.gateG 0))).val ∧ (s.infoOf 0).ranks.length = 1 ∧
      field (s.hubGet (s.areaOf 0 + 0x8000 + 64 * 0) 64) 16 32 = 0 ∧ (bale h).mhash = h) := by decide +kernel

/-- The commit line names deployment 3. -/
theorem wit_LoadAndTeardown_received : let s := deploys (some (bale 0)) 2 [0, 1] (fun t => { t with spad := { cur := [(0, ⟨3, 0, false⟩)] } })
    (s.job 0).phase ≠ .free ∧ s.deployState 0 = 2 ∧ 1 ≤ (s.ctr (keyGate (s.gateG 0 + 1))).val ∧ (s.secJob 0).dep = some (bale 0) ∧
    field (s.hubGet (s.areaOf 0) 64) 0 8 = (bale 0).dep ∧ field (s.hubGet (s.areaOf 0) 64) 16 32 = (bale 0).mhash ∧
    ((deploys none 2 [0, 1] id).secJob 0).dep = none ∧ (deploys none 2 [0, 1] id).deployState 0 < 3 := by decide +kernel

theorem wit_LoadAndTeardown_timeout : let s := deploys (some (bale 0)) 1 [] id
    let s := { s with time := { s.time with edges := s.deployLimit } }
    (s.secJob 0).dep = some (bale 0) ∧ s.deployState 0 = 1 ∧ (bale 0).since + s.deployLimit ≤ s.refNs := by decide +kernel

/-- A notice for slot 255, and none. -/
theorem wit_LoadAndTeardown_notice : let s (l : Tab LineVal) := deploys none 3 [0, 0, 1] (fun t => { t with spad := { cur := l } })
    ((s []).job 0).live = true ∧ ((s []).ctr (keyGate ((s []).gateG 0 + 2))).val ≠ 0 ∧ (∀ i < 256, (s []).noticeAt 0 i = none) ∧
    (s [(256, ⟨1, 0, false⟩)]).noticeAt 0 255 = some (0, 0, 0) ∧ (∀ k < 255, (s [(256, ⟨1, 0, false⟩)]).noticeAt 0 k = none) ∧
    ((s []).secJob 0).notices = [] := by decide +kernel

def tears (step : Nat) : State :=
  let s := (fab.updJob 0 (fun j => { j with phase := .teardown })).fset (F.SEC_JOB_STATE_TEARDOWN 0) step
  { s with tck := { s.tck with cleared := [0] } }

theorem wit_LoadAndTeardown_tears : (∀ x ∈ [1, 2, 4], ((tears x).job 0).phase = .teardown ∧ (tears x).fget (F.SEC_JOB_STATE_TEARDOWN 0) = x) ∧
    (tears 1).jobSending 0 = false ∧ (tears 2).jobArriving 0 = false ∧ (∀ b ∈ ((tears 4).job 0).barns, (tears 4).tck.cleared.contains b = true) ∧
    (tears 4).err.fatal = false ∧ (tears 4).ownsBarn 0 0 = true ∧ (fab.job 0).phase ≠ .teardown ∧
    (fab.fset (F.SPD_CLEAR_STATE 23) 1).fget (F.SPD_CLEAR_STATE 23) = 1 ∧ fab.fget F.TCK_STATE_STATE ≠ 1 := by decide +kernel

/-! ### Attestation and signers -/

theorem wit_Attestation_up : fab.spdmUp 0 = false ∧ (hosted id fab).spdmUp 0 = true ∧ (hosted id fab).spdmUp 2 = true := by
  decide +kernel

/-- Slots, measurement indexes and connections at the ends of their ranges. -/
theorem wit_Attestation_fields : let r (a b : Nat) : List Byte := leBytes 1 0x13 ++ leBytes 1 0xE0 ++ leBytes 1 a ++ leBytes 1 b ++ leBytes 4 0
    field (r 1 0) 2 1 % 16 < 2 ∧ 2 ≤ field (r 2 0) 2 1 % 16 ∧ field (r 1 0) 4 2 = 0 ∧ field (r 1 0) 2 1 < 2 ∧ 2 ≤ field (r 2 0) 2 1 ∧
    field (r 0 14) 3 1 = 14 ∧ field (r 0 254) 3 1 = 254 ∧ field (r 0 13) 3 1 = 13 ∧ field (r 0 255) 3 1 = 255 ∧
    bit (field (r 1 0) 2 1) 0 = true ∧ bit (field (r 0 0) 2 1) 0 = false ∧ Tab.get zeroNat [(0, 2)] 0 = 2 ∧ Tab.get zeroNat [(0, 1)] 0 = 1 := by
  decide +kernel

theorem wit_MeasurementBlocks : (fab.measure 6).isSome = true ∧ (∃ c, fab.measure 6 = some (c, true) ∧ c.length < 2 ^ 16 - 3) ∧
    (State.reset.job 0).phase = .free := by
  refine ⟨by decide +kernel, ⟨(fab.measure 6).get!.1, ?_, by decide +kernel⟩, by decide +kernel⟩
  decide +kernel

theorem wit_SignerTable : (4 : Nat).testBit 2 = true ∧ bit (4 : Word).toNat 2 = true ∧
    (∀ a ∈ [R.SEC_CTRL, R.SEC_DATA, R.SEC_SIGNER_ROLE], ∀ win < 4, 0xF00000000 + a + 0x4000 * win < 68719476736) ∧
    ({ fab with sec := { lock := true } }).sec.lock = true ∧ fab.sec.lock = false ∧ fab.fget F.SEC_SEL_TABLE = 0 ∧
    fab.ctrlAhead (sourcePt .tackroom) 28 = false := by decide +kernel

/-! ### The Tackroom -/

def tck (st : Nat) (f : TckSt → TckSt) : State :=
  let s := fab.fset F.TCK_STATE_STATE st
  { s with tck := f { s.tck with pwrGood := true } }

theorem wit_Firmware : (∀ st ∈ [0, 1, 2, 3], (tck st id).powered = true ∧ (tck st id).fget F.TCK_STATE_STATE = st ∧
      (tck st id).tck.fwBad = false ∧ (tck st id).tck.fwSec ≤ 0 ∧ (tck st (fun t => { t with fwSec := 1 })).tck.fwSec = 0 + 1 ∧ (tck st id).tck.started = false) ∧ fab.powered = false ∧
    (tck 2 (fun t => { t with restart := 1 })).tck.restart = 1 := by decide +kernel

theorem wit_Sensors : fab.powered = false ∧ (tck 1 id).powered = true ∧ ([(0, 0), (59, 1)].map (Prod.fst (α := Fin 60) (β := BitVec 16))).Nodup ∧
    (BitVec.ofInt 16 (-641)).toInt < -640 ∧ 2400 < (BitVec.ofNat 16 2401).toInt ∧ (399 : BitVec 16).toNat < 400 ∧ 1000 < (1001 : BitVec 16).toNat ∧
    (1760 : BitVec 16).toInt = 1760 ∧ (2400 : BitVec 16).toInt ≤ 2400 ∧ (tck 1 id).fbit (F.TCK_TEMP_FAULT 48) = false ∧
    1 ≤ Tab.get zeroNat (tck 1 (fun t => { t with hot := [(48, 1)] })).tck.hot 48 ∧ (tck 1 id).tck.trip = false ∧
    (tck 1 id).tck.pwrGood = true ∧ fab.tck.pwrGood = false := by decide +kernel

def entry : Trace := ⟨0, 0, 0, 3, 0⟩

theorem wit_Larkspur : let s (l : Nat) (n : Nat) := { (tck 1 (fun t => { t with lspq := List.replicate n (3, entry), lastLsp := l })).fset
      F.TCK_LSP_CTL_RUN 1 with time := { edges := 8 } }
    bit (1 : Word).toNat 0 = true ∧ (tck 1 id).fbit F.TCK_LSP_CTL_RUN = false ∧ bit (0 : Word).toNat 0 = false ∧
    (s 6 1).tck.lspq = (3, entry) :: [] ∧ (s 6 1).fbit F.TCK_LSP_CTL_RUN = true ∧ (s 7 1).tck.lastLsp + 4 = (s 7 1).refNs + 1 ∧
    (s 8 1).refNs + 1 < (s 8 1).tck.lastLsp + 4 ∧ (s 0 0).tck.lspq = [] ∧
    8 = ((s 0 8).tck.lspq.filter (fun q => q.1 = 3 && q.2.src ≠ 15)).length ∧
    bit (((s 0 8).fset F.TCK_LSP_CTL_SOURCES 8).fget F.TCK_LSP_CTL_SOURCES) 3 = true := by decide +kernel

/-- A request in the mailbox of port A. -/
def mailed (st level busy : Nat) (req : List Byte) (f : TckSt → TckSt) : State :=
  via (tck st (fun t => f { t with buf := Tab.setRun zero8 [] 0 req })) [fun s => s.fset (F.TCK_MBX_CTL_LEVEL 0) level,
    fun s => s.fset (F.TCK_MBX_CTL_BUSY 0) busy]

def request (op : Nat) (body : List Byte) : List Byte := leBytes 2 op ++ leBytes 2 body.length ++ leBytes 4 7 ++ body

theorem wit_Mailboxes_holds : ∃ body, MbxHolds (mailed 1 0 0 (request 2 (leBytes 2 3)) id) 0 2 2 7 body ∧ field body 0 2 = 3 := by
  refine ⟨_, ⟨?_, ?_, ?_, rfl⟩, ?_⟩ <;> decide +kernel

theorem wit_Mailboxes_state : (mailed 1 0 1 [] id).fbit (F.TCK_MBX_CTL_BUSY 0) = true ∧
    (mailed 1 0x30001 0 [] id).fbit (F.TCK_MBX_CTL_BUSY 0) = false ∧ (mailed 1 0x30001 0 [] id).fget (F.TCK_MBX_CTL_LEVEL 0) % 65536 = 1 ∧
    (mailed 1 0x30000 0 [] id).fget (F.TCK_MBX_CTL_LEVEL 0) % 65536 = 0 ∧ (mailed 1 0x30000 0 [] id).fget (F.TCK_MBX_CTL_LEVEL 0) ≠ 0 ∧
    (mailed 3 0 0 [] id).fget F.TCK_STATE_STATE = 3 ∧ (mailed 1 0 0 [] (fun t => { t with fwUpdate := true })).tck.fwUpdate = true ∧
    (mailed 1 0 0 [] id).tck.fwUpdate = false ∧ (mailed 1 0 0 [] id).canRead 0 = false ∧ bit (field [(0x80 : Byte)] 0 1) 7 = true := by
  decide +kernel

theorem wit_Resets : fab.tck.pwrGood = false ∧ (tck 1 id).tck.pwrGood = true ∧ (tck 1 id).powered = true ∧
    (tck 1 (fun t => { t with sysReset := true })).tck.sysReset = true ∧ (tck 1 (fun t => { t with sysReset := true })).powered = false := by
  decide +kernel

theorem wit_Resets_test : let s (spares : Nat) := ((tck 0 id).fset (F.SPD_CLEAR_STATE 1) 2).updBank 1 255 (fun k => { k with spares := spares })
    (s 0).powered = true ∧ ¬ (1 ∈ (s 0).tck.tested) ∧ ((s 0).barn 1).owner = none ∧ (s 0).fget (F.SPD_CLEAR_STATE 1) = 2 ∧
    ((s 0).bank 1 255).spares = 0 := by decide +kernel

/-! ### Registers -/

theorem wit_RegistersHold : Blk.lnk ∈ Blk.all ∧ 3 < Blk.lnk.count ∧
    ((Blk.lnk.rows.filter (fun r => r.off = 0x140)).map (fun r => (r.n1, r.fields.length))) = [(8, 6)] := by decide +kernel

/-- A plain register of a barn's stalls through each window, and its address. -/
theorem wit_RegisterWrites_plain : ∀ win < 4, let a := R.STL_SHAPE_ENTRY 0 0 0 + 0x4000 * win
    ∃ h, regHit a = some h ∧ fab.regAbsent h = false ∧ a % 8 = 0 ∧ h.blk ∈ plainBlocks ∧ 0x100 ≤ h.o ∧
      (a - h.blk.base h.i) / 0x4000 = win := by
  intro win hw
  refine ⟨(regHit (R.STL_SHAPE_ENTRY 0 0 0 + 0x4000 * win)).get (by revert win; decide +kernel), ?_⟩
  revert win; decide +kernel

/-- A field that the block's enable locks, locked and open; an offset that no register has. -/
theorem wit_RegisterWrites_lock : (∃ h, regHit (R.STL_SHAPE_ENTRY 0 0 0) = some h ∧ (∃ f ∈ h.row.fields, f.acc = .rwl) ∧
      fab.rwlOpen h = false ∧ State.reset.rwlOpen h = true) ∧ regHit 0xFFFFFF8 = none ∧ inMbx 0xFFFFFF8 = false := by
  refine ⟨⟨(regHit (R.STL_SHAPE_ENTRY 0 0 0)).get (by decide +kernel), ?_⟩, by decide +kernel, by decide +kernel⟩
  decide +kernel

theorem wit_RegisterWrites_source : fab.srcUp .portA = false ∧ (reader 1).srcDenied .portA false = true ∧ (reader 0).srcUp .tackroom = true ∧
    (reader 0).srcDenied .tackroom false = false ∧ findBlk (R.STL_SHAPE_ENTRY 0 0 0) = some (.stl, 0) ∧
    fab.ctrlAhead (sourcePt .tackroom) (regPoint (R.STL_SHAPE_ENTRY 0 0 0)) = false ∧ regPoint (R.STL_SHAPE_ENTRY 0 0 0) = 0 ∧
    (ctl 1 29 0 63 0).ctrlAhead (sourcePt .tackroom) 0 = true ∧ 0x5000 % 65536 / 16 ≠ 0x100 ∧ 0x5000 % 65536 / 8 ≠ 0x300 := by decide +kernel

theorem wit_BlocksAreEnabled : (Fin.val (n := 24) 3) < (blkNth 6).count ∧ (blkNth 6).count ≤ (Fin.val (n := 24) 4) ∧
    State.reset.cfgCrc .spd 0 = State.reset.cfgRefOf .spd 0 ∧
    (∃ s : State, s.enabled (Blk.base .pwr 0) = true ∧ s.cfgCrc .pwr 0 ≠ s.cfgRefOf .pwr 0) := by
  refine ⟨by decide +kernel, by decide +kernel, by decide +kernel, (on [Blk.base .pwr 0] State.reset).fset (F.PWR_PLAN_LIMIT_LIMIT 0) 1025, ?_⟩
  decide +kernel

/-- R469 and the register map give these reset values. -/
theorem test_reset_registers : State.reset.fget F.PCR_TIME_CTRL_ALLOW_STEP = 1 ∧ State.reset.fget F.PCR_TIME_STATUS_STATE = 0 ∧
    State.reset.fget F.PCR_TIME_CTRL_SOURCE = 0 ∧ State.reset.reg (R.LNK_PORT_CTRL 0 0) = 0x20 ∧ State.reset.err = {} ∧
    State.reset.pending = [] := by decide +kernel

/-- A state that has the invariant, and steps. -/
theorem wit_StepKeepsInv : State.reset.Inv ∧ step State.reset = .next State.reset.idle :=
  ⟨⟨rfl, fun e h => absurd h (List.not_mem_nil)⟩, rfl⟩

end Sys2Proof.Tests
end

