-- ==== Sys2Proof/Tests/Library.lean ====
section
/-! SUPPORT. Tests of the library's routines, and witnesses for the statements about them. -/

namespace Sys2Proof.Machine

-- One theorem after the other: their kernel evaluations would otherwise all wait at once, each with a stack of its own.
set_option Elab.async false

/-- The published known answer of this generator of ten rounds for a key and a counter of zeros. -/
theorem test_gen_zero : gen 0 0 ⟨0, 0, 0, 0⟩ = ⟨0x6627E8D5, 0xE169C58D, 0xBC57AC4C, 0x9B00DBD8⟩ := by decide +kernel

/-- The uniform is below 1: 1 - 2⁻²⁴ is its largest value (R286). -/
theorem test_uniform_ends : uniformOf ⟨0xFFFFFFFF, 0, 0, 0⟩ = 0x3F7FFFFF ∧ uniformOf ⟨0xFF, 0, 0, 0⟩ = 0 := by decide +kernel

theorem wit_DrawsDiffer_gen : gen 1 2 ⟨3, 4, 5, 6⟩ = gen 1 2 ⟨3, 4, 5, 6⟩ ∧ gen 1 2 ⟨3, 4, 5, 6⟩ ≠ gen 1 2 ⟨4, 4, 5, 6⟩ := by
  decide +kernel
theorem wit_DrawsDiffer_draw : drawOf 7 1 2 0 0 ≠ drawOf 7 1 2 1 0 ∧ foldWord 3 9 = foldWord 3 9 := by decide +kernel

/-- Logits 1, -0, 3, 3: greedy takes the lower of two equal ones (R288). -/
def someLogits : List Nat := [0x3F800000, 0x80000000, 0x40400000, 0x40400000]

theorem wit_SamplersChooseTokens_greedy : (sample .greedy someLogits 0x3F800000 0).token = some 2 := by decide +kernel
theorem wit_SamplersChooseTokens_nan : (sample .temp [0, 0x7FC00000, 0xFFC00000] 0x3F800000 0).token = some 1 ∧
    (sample .temp [0, 0x7FC00000, 0xFFC00000] 0x3F800000 0).nan = true := by decide +kernel
theorem wit_SamplersChooseTokens_empty : (sample (.topK 4) [0xFF800000, 0xFF800000] 0x3F800000 0).token = some 0 := by decide +kernel
/-- A draw of 0 takes the first token with weight, and kept candidates go from the highest logit down (R289, R290). -/
theorem wit_SamplersChooseTokens_temp : (sample .temp someLogits 0x3F800000 0).token = some 0 := by decide +kernel
theorem wit_SamplersChooseTokens_topK : (sample (.topK 3) someLogits 0x3F800000 0).kept = some [2, 3, 0] ∧
    (sample (.topK 3) someLogits 0x3F800000 0x3F7FFFFF).token = some 0 := by decide +kernel
/-- p of 0 keeps one candidate (R290). -/
theorem wit_SamplersChooseTokens_topP : (sample (.topP 0) someLogits 0x3F800000 0).kept = some [2] := by decide +kernel
/-- A draft that is not what the routine returns is replaced by it (R319). -/
theorem wit_SamplersChooseTokens_drafts :
    verifyTokens false [(2, 0, 0, sample .greedy someLogits 0 0), (1, 0, 0, sample .greedy someLogits 0 0)] ⟨some 9, false, false, true, [], 0, none⟩ =
      [some 2, some 2] := by decide +kernel
/-- R338 by hand: the fold of one zero word into 1 is the multiplier, XORed with itself shifted right by 29. -/
theorem test_foldWord : foldWord 1 0 = 0x9E3779B97F4A7C15 ^^^ 0x4F1BBCDCB := by decide +kernel
theorem test_digestFold_poison : (digestFold 0 [(0, true)]).2 = true := by decide +kernel

end Sys2Proof.Machine
end

/-! SUPPORT. What a command and a step keep, from what each operation keeps (Sys2Proof/Laws/Keeps/). -/

namespace Sys2Proof.Machine

/-- Every command answers a next state that keeps the queue, the fuses and the form of the register file. -/
theorem exec_keeps (s : State) : ∀ c : Instr, Nexts s (exec c s)
  | .add .. => execAdd_keeps ..
  | .sub .. => execSub_keeps ..
  | .and .. => execAnd_keeps ..
  | .or .. => execOr_keeps ..
  | .xor .. => execXor_keeps ..
  | .sll .. => execSll_keeps ..
  | .srl .. => execSrl_keeps ..
  | .sra .. => execSra_keeps ..
  | .slt .. => execSlt_keeps ..
  | .sltu .. => execSltu_keeps ..
  | .min .. => execMin_keeps ..
  | .max .. => execMax_keeps ..
  | .minu .. => execMinu_keeps ..
  | .maxu .. => execMaxu_keeps ..
  | .mul .. => execMul_keeps ..
  | .mulhu .. => execMulhu_keeps ..
  | .mulh .. => execMulh_keeps ..
  | .divu .. => execDivu_keeps ..
  | .remu .. => execRemu_keeps ..
  | .addi .. => execAddi_keeps ..
  | .andi .. => execAndi_keeps ..
  | .ori .. => execOri_keeps ..
  | .xori .. => execXori_keeps ..
  | .slli .. => execSlli_keeps ..
  | .srli .. => execSrli_keeps ..
  | .srai .. => execSrai_keeps ..
  | .shi .. => execShi_keeps ..
  | .ld .. => execLd_keeps ..
  | .ldDataReady .. => execLdDataReady_keeps ..
  | .st .. => execSt_keeps ..
  | .lds .. => execLds_keeps ..
  | .rdsr .. => execRdsr_keeps ..
  | .syncrd .. => execSyncrd_keeps ..
  | .syncwr .. => execSyncwr_keeps ..
  | .syncadd .. => execSyncadd_keeps ..
  | .waitc .. => execWaitc_keeps ..
  | .waitcSatisfied .. => execWaitcSatisfied_keeps ..
  | .push .. => execPush_keeps ..
  | .pushResume .. => execPushResume_keeps ..
  | .loop .. => execLoop_keeps ..
  | .loopidx .. => execLoopidx_keeps ..
  | .skipIf .. => execSkipIf_keeps ..
  | .callLib .. => execCallLib_keeps ..
  | .ret .. => execRet_keeps ..
  | .baseAdd .. => execBaseAdd_keeps ..
  | .stepEnd .. => execStepEnd_keeps ..
  | .stepEndResume .. => execStepEndResume_keeps ..
  | .nop .. => execNop_keeps ..
  | .illegalInstruction .. => execIllegalInstruction_keeps ..
  | .imemFetchError .. => execImemFetchError_keeps ..
  | .engineDueBeat .. => execEngineDueBeat_keeps ..
  | .nullCommand .. => execNullCommand_keeps ..
  | .commandComplete .. => execCommandComplete_keeps ..
  | .commandLate .. => execCommandLate_keeps ..
  | .syncSettle .. => execSyncSettle_keeps ..
  | .dmaRd .. => execDmaRd_keeps ..
  | .dmaWr .. => execDmaWr_keeps ..
  | .dmaLcopy .. => execDmaLcopy_keeps ..
  | .dmaRds .. => execDmaRds_keeps ..
  | .dmaFill .. => execDmaFill_keeps ..
  | .unsBankAccess .. => execUnsBankAccess_keeps ..
  | .spadWriteback .. => execSpadWriteback_keeps ..
  | .spadScrub .. => execSpadScrub_keeps ..
  | .arrLoad .. => execArrLoad_keeps ..
  | .mma .. => execMma_keeps ..
  | .accDrain .. => execAccDrain_keeps ..
  | .accHostAccess .. => execAccHostAccess_keeps ..
  | .vld .. => execVld_keeps ..
  | .vst .. => execVst_keeps ..
  | .vlds .. => execVlds_keeps ..
  | .fadd .. => execFadd_keeps ..
  | .fsub .. => execFsub_keeps ..
  | .fmul .. => execFmul_keeps ..
  | .fma .. => execFma_keeps ..
  | .fmin .. => execFmin_keeps ..
  | .fmax .. => execFmax_keeps ..
  | .fabs .. => execFabs_keeps ..
  | .fneg .. => execFneg_keeps ..
  | .fdiv .. => execFdiv_keeps ..
  | .fsqrt .. => execFsqrt_keeps ..
  | .frcp .. => execFrcp_keeps ..
  | .frsqrt .. => execFrsqrt_keeps ..
  | .fexp .. => execFexp_keeps ..
  | .flog .. => execFlog_keeps ..
  | .ftanh .. => execFtanh_keeps ..
  | .fsigm .. => execFsigm_keeps ..
  | .ferf .. => execFerf_keeps ..
  | .iadd .. => execIadd_keeps ..
  | .isub .. => execIsub_keeps ..
  | .imul .. => execImul_keeps ..
  | .imulhu .. => execImulhu_keeps ..
  | .imin .. => execImin_keeps ..
  | .imax .. => execImax_keeps ..
  | .vecAnd .. => execVecAnd_keeps ..
  | .vecOr .. => execVecOr_keeps ..
  | .vecXor .. => execVecXor_keeps ..
  | .shl .. => execShl_keeps ..
  | .shr .. => execShr_keeps ..
  | .vecSra .. => execVecSra_keeps ..
  | .idiv .. => execIdiv_keeps ..
  | .irem .. => execIrem_keeps ..
  | .idivu .. => execIdivu_keeps ..
  | .iremu .. => execIremu_keeps ..
  | .fcmp .. => execFcmp_keeps ..
  | .icmp .. => execIcmp_keeps ..
  | .mlogic .. => execMlogic_keeps ..
  | .vsel .. => execVsel_keeps ..
  | .vmov .. => execVmov_keeps ..
  | .vperm .. => execVperm_keeps ..
  | .vlane .. => execVlane_keeps ..
  | .cvtP .. => execCvtP_keeps ..
  | .cvtU .. => execCvtU_keeps ..
  | .ftoi .. => execFtoi_keeps ..
  | .itof .. => execItof_keeps ..
  | .rsum .. => execRsum_keeps ..
  | .rmax .. => execRmax_keeps ..
  | .rmin .. => execRmin_keeps ..
  | .rargmax .. => execRargmax_keeps ..
  | .tred .. => execTred_keeps ..
  | .tscan .. => execTscan_keeps ..
  | .lftVec .. => execLftVec_keeps ..
  | .lftMv .. => execLftMv_keeps ..
  | .lftPwr _ _ ecc => execLftPwr_keeps s _ _ ecc
  | .bankDrainDone .. => execBankDrainDone_keeps ..
  | .bankWakeDone .. => execBankWakeDone_keeps ..
  | .bankRefresh .. => execBankRefresh_keeps ..
  | .timerRefresh .. => execTimerRefresh_keeps ..
  | .unsLoftAccess .. => execUnsLoftAccess_keeps ..
  | .loftScrub .. => execLoftScrub_keeps ..
  | .blockReread .. => execBlockReread_keeps ..
  | .resendSlotGrant .. => execResendSlotGrant_keeps ..
  | .blockResent .. => execBlockResent_keeps ..
  | .loftWritebackVerify .. => execLoftWritebackVerify_keeps ..
  | .netSend .. => execNetSend_keeps ..
  | .netSlot .. => execNetSlot_keeps ..
  | .netSig .. => execNetSig_keeps ..
  | .unsPacketPerform .. => execUnsPacketPerform_keeps ..
  | .unsFlitCredit .. => execUnsFlitCredit_keeps ..
  | .hopResend .. => execHopResend_keeps ..
  | .regRd .. => execRegRd_keeps ..
  | .regWr .. => execRegWr_keeps ..
  | .regRsp .. => execRegRsp_keeps ..
  | .syncAdd .. => execSyncAdd_keeps ..
  | .gateVal .. => execGateVal_keeps ..
  | .wrDone .. => execWrDone_keeps ..
  | .jobCtlWindow .. => execJobCtlWindow_keeps ..
  | .jobCtlBase .. => execJobCtlBase_keeps ..
  | .jobCtlSuspend .. => execJobCtlSuspend_keeps ..
  | .jobCtlHalt .. => execJobCtlHalt_keeps ..
  | .errRec .. => execErrRec_keeps ..
  | .ctrlLoftReq .. => execCtrlLoftReq_keeps ..
  | .reservedCtrlType .. => execReservedCtrlType_keeps ..
  | .portEnable .. => execPortEnable_keeps ..
  | .portDisable .. => execPortDisable_keeps ..
  | .portRetrain .. => execPortRetrain_keeps ..
  | .detectDone .. => execDetectDone_keeps ..
  | .equaliseEnd .. => execEqualiseEnd_keeps ..
  | .alignEnd .. => execAlignEnd_keeps ..
  | .cap .. => execCap_keeps ..
  | .capTimeout .. => execCapTimeout_keeps ..
  | .downTimeout .. => execDownTimeout_keeps ..
  | .retrainTimeout .. => execRetrainTimeout_keeps ..
  | .laneFail .. => execLaneFail_keeps ..
  | .flitSlot .. => execFlitSlot_keeps ..
  | .data .. => execData_keeps ..
  | .idle .. => execIdle_keeps ..
  | .bypass .. => execBypass_keeps ..
  | .badFlit .. => execBadFlit_keeps ..
  | .nakRenew .. => execNakRenew_keeps ..
  | .replayTimer .. => execReplayTimer_keeps ..
  | .linkSilence .. => execLinkSilence_keeps ..
  | .linkNotice .. => execLinkNotice_keeps ..
  | .fecInterval .. => execFecInterval_keeps ..
  | .timeExchangeStart .. => execTimeExchangeStart_keeps ..
  | .timeReq .. => execTimeReq_keeps ..
  | .timeRsp .. => execTimeRsp_keeps ..
  | .timeFollow .. => execTimeFollow_keeps ..
  | .timeExchangeAbandon .. => execTimeExchangeAbandon_keeps ..
  | .routeNotice .. => execRouteNotice_keeps ..
  | .yokeHb .. => execYokeHb_keeps ..
  | .transitForward .. => execTransitForward_keeps ..
  | .sealSlice => execSealSlice_keeps ..
  | .write .. => execWrite_keeps ..
  | .readReq .. => execReadReq_keeps ..
  | .readRsp .. => execReadRsp_keeps ..
  | .ack .. => execAck_keeps ..
  | .ackTimer .. => execAckTimer_keeps ..
  | .resendTimer .. => execResendTimer_keeps ..
  | .downHoldExpiry .. => execDownHoldExpiry_keeps ..
  | .routeFail .. => execRouteFail_keeps ..
  | .planSwitch .. => execPlanSwitch_keeps ..
  | .planSwitchBeat .. => execPlanSwitchBeat_keeps ..
  | .fabJobCtlGo .. => execFabJobCtlGo_keeps ..
  | .fabTblWrite .. => execFabTblWrite_keeps ..
  | .compositionPoint .. => execCompositionPoint_keeps ..
  | .idlePoll .. => execIdlePoll_keeps ..
  | .stepDescriptorArrival .. => execStepDescriptorArrival_keeps ..
  | .suspendBeat .. => execSuspendBeat_keeps ..
  | .haltNote .. => execHaltNote_keeps ..
  | .halt .. => execHalt_keeps ..
  | .suspend .. => execSuspend_keeps ..
  | .kvLost .. => execKvLost_keeps ..
  | .jobHaltBoundary .. => execJobHaltBoundary_keeps ..
  | .jobQuiescentSave .. => execJobQuiescentSave_keeps ..
  | .digestRead .. => execDigestRead_keeps ..
  | .digest .. => execDigest_keeps ..
  | .mismatchNote .. => execMismatchNote_keeps ..
  | .loftReq .. => execLoftReq_keeps ..
  | .loftReqDeferredServe .. => execLoftReqDeferredServe_keeps ..
  | .loftNak .. => execLoftNak_keeps ..
  | .journal .. => execJournal_keeps ..
  | .yokeHalt .. => execYokeHalt_keeps ..
  | .reyokeEnd .. => execReyokeEnd_keeps ..
  | .yokeReady .. => execYokeReady_keeps ..
  | .forkReady .. => execForkReady_keeps ..
  | .precopyPassEnd .. => execPrecopyPassEnd_keeps ..
  | .keep .. => execKeep_keeps ..
  | .drop .. => execDrop_keeps ..
  | .reyoke .. => execReyoke_keeps ..
  | .abandon .. => execAbandon_keeps ..
  | .reyokeAbandoned .. => execReyokeAbandoned_keeps ..
  | .yokeEnable => execYokeEnable_keeps ..
  | .yokeFormed => execYokeFormed_keeps ..
  | .yokeFormTimeout => execYokeFormTimeout_keeps ..
  | .heartbeatSend => execHeartbeatSend_keeps ..
  | .yokeHbInPulse .. => execYokeHbInPulse_keeps ..
  | .hbPathTimeout .. => execHbPathTimeout_keeps ..
  | .yokeCut => execYokeCut_keeps ..
  | .deviceRingPoll .. => execDeviceRingPoll_keeps ..
  | .loadDone .. => execLoadDone_keeps ..
  | .copyComplete .. => execCopyComplete_keeps ..
  | .shardVerified .. => execShardVerified_keeps ..
  | .commit .. => execCommit_keeps ..
  | .commitReceived .. => execCommitReceived_keeps ..
  | .deployTimeout .. => execDeployTimeout_keeps ..
  | .adapterNotice .. => execAdapterNotice_keeps ..
  | .teardownRevoke .. => execTeardownRevoke_keeps ..
  | .teardownDrainEnd .. => execTeardownDrainEnd_keeps ..
  | .teardownScrubDone .. => execTeardownScrubDone_keeps ..
  | .barnClearDone .. => execBarnClearDone_keeps ..
  | .hostLinkDown .. => execHostLinkDown_keeps ..
  | .hostLinkUp .. => execHostLinkUp_keeps ..
  | .perstAssert .. => execPerstAssert_keeps ..
  | .perstDeassert .. => execPerstDeassert_keeps ..
  | .ideFault .. => execIdeFault_keeps ..
  | .bar2Access .. => execBar2Access_keeps ..
  | .ringStallTimeout .. => execRingStallTimeout_keeps ..
  | .msiXFire .. => execMsiXFire_keeps ..
  | .getVersion .. => execGetVersion_keeps ..
  | .getCapabilities .. => execGetCapabilities_keeps ..
  | .negotiateAlgorithms .. => execNegotiateAlgorithms_keeps ..
  | .getDigests .. => execGetDigests_keeps ..
  | .getCertificate .. => execGetCertificate_keeps ..
  | .challenge .. => execChallenge_keeps ..
  | .getMeasurements .. => execGetMeasurements_keeps ..
  | .keyExchange .. => execKeyExchange_keeps ..
  | .finish .. => execFinish_keeps ..
  | .endSession .. => execEndSession_keeps ..
  | .spdmUnsupported .. => execSpdmUnsupported_keeps ..
  | .ideKm .. => execIdeKm_keeps ..
  | .mbxGo .. => execMbxGo_keeps ..
  | .pldmRequest .. => execPldmRequest_keeps ..
  | .larkspurEntry => execLarkspurEntry_keeps ..
  | .logCopy => execLogCopy_keeps ..
  | .errConsumerWrite .. => execErrConsumerWrite_keeps ..
  | .stepTick => execStepTick_keeps ..
  | .stepApply => execStepApply_keeps ..
  | .stimeSet src _ => execStimeSet_keeps s src _
  | .stimeNsRead .. => execStimeNsRead_keeps ..
  | .throttleAssert => execThrottleAssert_keeps ..
  | .throttleDeassert => execThrottleDeassert_keeps ..
  | .throttleStuck => execThrottleStuck_keeps ..
  | .thermalGuardTick => execThermalGuardTick_keeps ..
  | .refclkLost => execRefclkLost_keeps ..
  | .refclkRestored => execRefclkRestored_keeps ..
  | .ppsPulse .. => execPpsPulse_keeps ..
  | .ppsFault => execPpsFault_keeps ..
  | .localTimeSync => execLocalTimeSync_keeps ..
  | .launchTimeReached .. => execLaunchTimeReached_keeps ..
  | .skewWaitRelease .. => execSkewWaitRelease_keeps ..
  | .handshakeLate .. => execHandshakeLate_keeps ..
  | .holdSpread .. => execHoldSpread_keeps ..
  | .holdRelease .. => execHoldRelease_keeps ..
  | .holdTimeout .. => execHoldTimeout_keeps ..
  | .cfgCrcCheck .. => execCfgCrcCheck_keeps ..
  | .blkEnable .. => execBlkEnable_keeps ..
  | .signerLock => execSignerLock_keeps ..
  | .lspRun .. => execLspRun_keeps ..
  | .registerWrite .. => execRegisterWrite_keeps ..
  | .sensorSample .. => execSensorSample_keeps ..
  | .railFault => execRailFault_keeps ..
  | .policyTick => execPolicyTick_keeps ..
  | .lockstepMismatch => execLockstepMismatch_keeps ..
  | .watchdogExpiry => execWatchdogExpiry_keeps ..
  | .fwRestartDone .. => execFwRestartDone_keeps ..
  | .pwrGoodRise => execPwrGoodRise_keeps ..
  | .pwrGoodFall => execPwrGoodFall_keeps ..
  | .vtckBrownout => execVtckBrownout_keeps ..
  | .sysResetAssert => execSysResetAssert_keeps ..
  | .sysResetDeassert => execSysResetDeassert_keeps ..
  | .loftTestDone .. => execLoftTestDone_keeps ..
  | .fwVerifyDone .. => execFwVerifyDone_keeps ..
  | .ppsExpectedSecond => execPpsExpectedSecond_keeps ..
  | .malformedFabricPacket .. => execMalformedFabricPacket_keeps ..

/-- A step keeps the form of the register file, whether it runs a command or lets time pass. -/
theorem step_keeps_inv {s t : State} (hs : s.Inv) (h : step s = .next t) : t.Inv := by
  unfold step at h
  split at h
  case h_1 =>
    obtain rfl : s.idle = t := by simpa using h
    exact (State.idle_keeps (Keeps.refl s)).2.2 hs
  case h_2 c rest _ =>
    obtain ⟨u, hu, _, _, hinv⟩ := exec_keeps { s with pending := rest } c
    obtain rfl : u = t := by simpa [hu] using h
    exact hinv hs

/-- Settles O59: an empty queue lets the device idle, a command runs with the rest of the queue, and both keep the form. -/
theorem stepKeepsInv : Obligations.StepKeepsInv := by
  unfold Obligations.StepKeepsInv
  exact fun _ _ hs h => step_keeps_inv hs h

/-- Settles O60: what every command keeps includes the queue and the fuses. -/
theorem commandsLeaveTheQueue : Obligations.CommandsLeaveTheQueue := by
  unfold Obligations.CommandsLeaveTheQueue
  intro c s
  obtain ⟨t, ht, hpending, hfused, _⟩ := exec_keeps s c
  exact ⟨t, ht, hpending, hfused⟩

end Sys2Proof.Machine

/-! SUPPORT. The register map: every address of R456 leads to its block and its row, the bits that a row lists are those of
its fields, and a field holds at reset what its table says. -/

namespace Sys2Proof.Machine

/-! ### From an address to its block -/

/-- Blocks start at multiples of 64 KiB (R456). -/
theorem Blk.base_mod (b : Blk) (i : Nat) : b.base i % 0x10000 = 0 := by
  cases b <;> simp only [Blk.base, Blk.base0, Blk.stride] <;> omega

/-- No two blocks start at one address (R456). -/
theorem Blk.base_inj : ∀ b ∈ Blk.all, ∀ i < b.count, ∀ c ∈ Blk.all, ∀ j < c.count, b.base i = c.base j → b = c := by
  decide +kernel

/-- Blocks of one kind lie at least 64 KiB apart (R456). -/
theorem Blk.stride_of_count (b : Blk) : b.count = 1 ∨ 0x10000 ≤ b.stride := by
  cases b <;> decide

/-- The block number computed from an address inside a block is the block's. -/
theorem Blk.index_base_add (b : Blk) {i o : Nat} (hi : i < b.count) (ho : o < 0x10000) :
    (if b.count = 1 then 0 else (b.base i + o - b.base0) / b.stride) = i := by
  split
  next hone => omega
  next hmany =>
    have hs : 0x10000 ≤ b.stride := b.stride_of_count.resolve_left hmany
    have hd : b.base i + o - b.base0 = b.stride * i + o := by unfold Blk.base; omega
    rw [hd, Nat.mul_add_div (by omega), Nat.div_eq_of_lt (by omega), Nat.add_zero]

/-- The block number computed from an address names a block that starts at or below it. -/
theorem Blk.base_index_le (c : Blk) {a : Nat} (h : c.base0 ≤ a) :
    c.base (if c.count = 1 then 0 else (a - c.base0) / c.stride) ≤ a := by
  have hdiv := Nat.mul_div_le (a - c.base0) c.stride
  unfold Blk.base
  split
  · simpa using h
  · omega

/-- Among any blocks of the device, the search finds the block that an address lies in. -/
theorem blkAt_base_add {b : Blk} {i o : Nat} (hb : b ∈ Blk.all) (hi : i < b.count) (ho : o < 0x10000) (bs : List Blk)
    (hbs : ∀ c ∈ bs, c ∈ Blk.all) (hm : b ∈ bs) : blkAt (b.base i + o) bs = some (b, i) := by
  induction bs with
  | nil => exact absurd hm List.not_mem_nil
  | cons c cs ih =>
    by_cases hcb : c = b
    · subst hcb
      have hlow : c.base0 ≤ c.base i + o := by unfold Blk.base; omega
      simp only [blkAt, c.index_base_add hi ho]
      rw [if_pos ⟨hlow, hi, by omega⟩]
    · simp only [blkAt]
      rw [if_neg]
      · exact ih (fun d hd => hbs d (List.mem_cons_of_mem _ hd)) ((List.mem_cons.1 hm).resolve_left (Ne.symm hcb))
      · rintro ⟨hlow, hj, hnear⟩
        have hbelow := c.base_index_le hlow
        generalize (if c.count = 1 then 0 else (b.base i + o - c.base0) / c.stride) = j at hj hnear hbelow
        have hc := c.base_mod j
        have hb' := b.base_mod i
        refine hcb (Blk.base_inj c (hbs c List.mem_cons_self) j hj b hb i hi ?_)
        omega

theorem findBlk_base_add {b : Blk} {i o : Nat} (hb : b ∈ Blk.all) (hi : i < b.count) (ho : o < 0x10000) :
    findBlk (b.base i + o) = some (b, i) :=
  blkAt_base_add hb hi ho Blk.all (fun _ h => h) hb

/-! ### From an offset to its row -/

/-- The registers of a row do not run into each other, nor out of the block. -/
abbrev RegRow.Spaced (r : RegRow) : Prop :=
  0 < r.s1 ∧ (r.n2 = 1 ∨ 0 < r.s2 ∧ r.n2 * r.s2 ≤ r.s1) ∧ r.off + r.n1 * r.s1 ≤ 0x10000

/-- Two rows lie apart in the block. -/
abbrev RegRow.Apart (r q : RegRow) : Prop := r.off + r.n1 * r.s1 ≤ q.off ∨ q.off + q.n1 * q.s1 ≤ r.off

/-- Every register of a row, counted from the row's offset, lies within the row. -/
theorem RegRow.Spaced.inside {r : RegRow} (h : r.Spaced) {k1 k2 : Nat} (h1 : k1 < r.n1) (h2 : k2 < r.n2) :
    k2 * r.s2 < r.s1 ∧ k1 * r.s1 + k2 * r.s2 < r.n1 * r.s1 := by
  obtain ⟨hs1, hin, _⟩ := h
  have hlt : k2 * r.s2 < r.s1 := by
    rcases hin with hone | ⟨hs2, hfit⟩
    · obtain rfl : k2 = 0 := by omega
      simpa using hs1
    · exact Nat.lt_of_lt_of_le (Nat.mul_lt_mul_of_pos_right h2 hs2) hfit
  have hrow : (k1 + 1) * r.s1 ≤ r.n1 * r.s1 := Nat.mul_le_mul_right _ h1
  rw [Nat.add_mul, Nat.one_mul] at hrow
  exact ⟨hlt, by omega⟩

/-- A row lists the offset of each of its registers, by the numbers of the register in the row. -/
theorem RegRow.at_place {r : RegRow} (h : r.Spaced) {k1 k2 : Nat} (h1 : k1 < r.n1) (h2 : k2 < r.n2) :
    r.at (r.off + k1 * r.s1 + k2 * r.s2) = some (k1, k2) := by
  obtain ⟨hlt, _⟩ := h.inside h1 h2
  obtain ⟨hs1, hin, _⟩ := h
  have hd : r.off + k1 * r.s1 + k2 * r.s2 - r.off = k2 * r.s2 + k1 * r.s1 := by omega
  have hq : (k2 * r.s2 + k1 * r.s1) / r.s1 = k1 := by
    rw [Nat.add_mul_div_right _ _ hs1, Nat.div_eq_of_lt hlt, Nat.zero_add]
  have hm : (k2 * r.s2 + k1 * r.s1) % r.s1 = k2 * r.s2 := by
    rw [Nat.add_mul_mod_self_right, Nat.mod_eq_of_lt hlt]
  have hin1 : ¬ (r.off + k1 * r.s1 + k2 * r.s2 < r.off ∨ r.n1 ≤ k1) := by omega
  simp only [RegRow.at, hd, hq, hm, if_neg hin1]
  split
  next hone =>
    obtain rfl : k2 = 0 := by omega
    simp
  next hmany =>
    have hs2 : 0 < r.s2 := (hin.resolve_left hmany).1
    rw [Nat.mul_mod_left, Nat.mul_div_cancel _ hs2, if_pos ⟨rfl, h2⟩]

/-- A row lists no offset of a row that lies apart from it. -/
theorem RegRow.at_eq_none_of_apart {r q : RegRow} (hq : 0 < q.s1) (ha : q.Apart r) {o : Nat} (hlow : r.off ≤ o)
    (hhigh : o < r.off + r.n1 * r.s1) : q.at o = none := by
  have hout : o < q.off ∨ q.n1 ≤ (o - q.off) / q.s1 := by
    rcases ha with h | h
    · exact .inr ((Nat.le_div_iff_mul_le hq).2 (by omega))
    · exact .inl (by omega)
  simp only [RegRow.at, if_pos hout]

/-- Among rows that lie apart, the search finds the row that lists an offset. -/
theorem findRow_place {rows : List RegRow} (hs : ∀ r ∈ rows, r.Spaced) (ha : rows.Pairwise RegRow.Apart) {r : RegRow}
    (hr : r ∈ rows) {k1 k2 : Nat} (h1 : k1 < r.n1) (h2 : k2 < r.n2) :
    findRow rows (r.off + k1 * r.s1 + k2 * r.s2) = some (r, k1, k2) := by
  induction rows with
  | nil => exact absurd hr List.not_mem_nil
  | cons q rows ih =>
    obtain ⟨hq, ha⟩ := List.pairwise_cons.1 ha
    rcases List.mem_cons.1 hr with rfl | hr
    · simp only [findRow, RegRow.at_place (hs r List.mem_cons_self) h1 h2]
    · have hin := ((hs r (List.mem_cons_of_mem _ hr)).inside h1 h2).2
      have hmiss : q.at (r.off + k1 * r.s1 + k2 * r.s2) = none :=
        RegRow.at_eq_none_of_apart (hs q List.mem_cons_self).1 (hq r hr) (by omega) (by omega)
      simp only [findRow, hmiss]
      exact ih (fun p hp => hs p (List.mem_cons_of_mem _ hp)) ha hr

/-- The rows of every block are spaced and lie apart (the register tables). -/
theorem Blk.rows_spaced : ∀ b ∈ Blk.all, (∀ r ∈ b.rows, r.Spaced) ∧ b.rows.Pairwise RegRow.Apart := by
  decide +kernel

/-! ### What a row lists of its fields -/

/-- Two fields share no bit. -/
abbrev FieldRow.Apart (f g : FieldRow) : Prop := f.lo + f.width ≤ g.lo ∨ g.lo + g.width ≤ f.lo

/-- A field is a range of bits of a 64-bit register, and its row's reset value holds the field's. -/
abbrev RegRow.Holds (r : RegRow) (f : FieldRow) : Prop :=
  0 < f.width ∧ f.lo + f.width ≤ 64 ∧ bits (BitVec.ofNat 64 r.resetValue).toNat (f.lo + f.width - 1) f.lo = f.reset

/-- The fields of every register of the tables are such ranges, and no two of them share a bit. -/
theorem Blk.rows_fields :
    ∀ b ∈ Blk.all, ∀ r ∈ b.rows, (∀ f ∈ r.fields, r.Holds f) ∧ r.fields.Pairwise FieldRow.Apart := by
  decide +kernel

/-- The bits of a range of `n` bits from bit `lo` on. -/
theorem testBit_ones_mul (n lo i : Nat) (hi : i < n) : ((2 ^ n - 1) * 2 ^ lo).testBit (lo + i) = true := by
  rw [Nat.mul_comm, Nat.testBit_two_pow_mul]
  simp [hi]

/-- Bits once set stay set while more fields are added. -/
theorem testBit_foldl_fields (fs : List FieldRow) (m i : Nat)
    (h : m.testBit i = true ∨ ∃ f ∈ fs, ((2 ^ f.width - 1) * 2 ^ f.lo).testBit i = true) :
    (fs.foldl (fun m f => m ||| (2 ^ f.width - 1) * 2 ^ f.lo) m).testBit i = true := by
  induction fs generalizing m with
  | nil => simpa using h
  | cons g fs ih =>
    apply ih
    rw [Nat.testBit_or, Bool.or_eq_true]
    rcases h with h | ⟨f, hf, h⟩
    · exact .inl (.inl h)
    · rcases List.mem_cons.1 hf with rfl | hf
      · exact .inl (.inr h)
      · exact .inr ⟨f, hf, h⟩

/-- No bit of a field is reserved. -/
theorem RegRow.testBit_bitsOf {r : RegRow} {f : FieldRow} (hf : f ∈ r.fields) {i : Nat} (hi : i < f.width) :
    r.bitsOf.testBit (f.lo + i) = true :=
  testBit_foldl_fields r.fields 0 _ (.inr ⟨f, hf, testBit_ones_mul _ _ _ hi⟩)

/-! ### The registers at their addresses -/

section
variable {b : Blk} (hb : b ∈ Blk.all) {i : Nat} (hi : i < b.count) {r : RegRow} (hr : r ∈ b.rows) {k1 k2 : Nat}
  (h1 : k1 < r.n1) (h2 : k2 < r.n2)
include hb hi hr h1 h2

/-- Each register of each row is found at its own address. -/
theorem findBlk_register : findBlk (b.base i + r.off + k1 * r.s1 + k2 * r.s2) = some (b, i) := by
  have hs := (Blk.rows_spaced b hb).1 r hr
  have hin := (hs.inside h1 h2).2
  obtain ⟨_, _, hblock⟩ := hs
  rw [Nat.add_assoc, Nat.add_assoc]
  exact findBlk_base_add hb hi (by omega)

omit hi in
theorem findRow_register :
    findRow b.rows (b.base i + r.off + k1 * r.s1 + k2 * r.s2 - b.base i) = some (r, k1, k2) := by
  obtain ⟨hs, ha⟩ := Blk.rows_spaced b hb
  rw [show b.base i + r.off + k1 * r.s1 + k2 * r.s2 - b.base i = r.off + k1 * r.s1 + k2 * r.s2 by omega]
  exact findRow_place hs ha hr h1 h2

theorem regBits_register : regBits (b.base i + r.off + k1 * r.s1 + k2 * r.s2) = BitVec.ofNat 64 r.bitsOf := by
  simp only [regBits, findBlk_register hb hi hr h1 h2, findRow_register hb hr h1 h2]

/-- At offset 0 stands BLK_ID, whose value says which block it is (R455). -/
theorem regReset_register (ho : 0 < r.off) :
    regReset (b.base i + r.off + k1 * r.s1 + k2 * r.s2) = BitVec.ofNat 64 r.resetValue := by
  have hne : b.base i + r.off + k1 * r.s1 + k2 * r.s2 - b.base i ≠ 0 := by omega
  simp only [regReset, findBlk_register hb hi hr h1 h2, findRow_register hb hr h1 h2, if_neg hne]

/-- Every bit of a register's field is stored. -/
theorem listed_register {f : FieldRow} (hf : f ∈ r.fields) :
    Fld.Listed ⟨b.base i + r.off + k1 * r.s1 + k2 * r.s2, f.lo, f.width⟩ := by
  obtain ⟨hpos, htop, _⟩ := (Blk.rows_fields b hb r hr).1 f hf
  refine ⟨hpos, fun j hj => ?_⟩
  have hlt : f.lo + j < 64 := by change j < f.width at hj; omega
  simp only [regBits_register hb hi hr h1 h2, BitVec.getLsbD_ofNat, hlt, decide_true, Bool.true_and]
  exact RegRow.testBit_bitsOf hf hj

/-- At reset a field reads what its table says. -/
theorem fget_reset_register {f : FieldRow} (hf : f ∈ r.fields) (ho : 0 < r.off) :
    State.reset.fget ⟨b.base i + r.off + k1 * r.s1 + k2 * r.s2, f.lo, f.width⟩ = f.reset := by
  obtain ⟨_, _, hreset⟩ := (Blk.rows_fields b hb r hr).1 f hf
  have hreg : State.reset.reg (b.base i + r.off + k1 * r.s1 + k2 * r.s2) = (BitVec.ofNat 64 r.resetValue).toNat := by
    rw [← regReset_register hb hi hr h1 h2 ho]
    rfl
  rw [State.fget, hreg]
  exact hreset

end

/-- Settles O55: a field lies in the stored bits of its register, apart from the register's other fields. -/
theorem registersHoldTheirFields : Obligations.RegistersHoldTheirFields := by
  unfold Obligations.RegistersHoldTheirFields
  intro b hb i hi r hr k1 h1 k2 h2 f hf s v
  have listed {g : FieldRow} (hg : g ∈ r.fields) := listed_register hb hi hr h1 h2 hg
  refine ⟨s.fget_fset_same v (listed hf), fun g hg hne => ?_, fun n hn => s.reg_fset_other v hn,
    fget_reset_register hb hi hr h1 h2 hf⟩
  have : Std.Symm FieldRow.Apart := ⟨fun _ _ h => h.symm⟩
  have hapart : g.Apart f := (Blk.rows_fields b hb r hr).2.forall hg hf hne
  exact s.fget_fset_disjoint v rfl (listed hf).1 (listed hg) hapart

end Sys2Proof.Machine

/-! SUPPORT. Rules that the statements about pacing, time and jobs share: fields of the register file that lie apart, folds over a
range, errors that halt nothing, and what a trace entry leaves alone. -/

namespace Sys2Proof.Machine

/-! ### Folds over a range -/

/-- What holds of the first `k` steps of a fold over a range, for every `k`, holds of the whole fold. -/
theorem foldl_range_induction {α : Type} {f : α → Nat → α} {s : α} {n : Nat} (P : Nat → α → Prop) (h0 : P 0 s)
    (hs : ∀ k < n, ∀ t, P k t → P (k + 1) (f t k)) : P n ((List.range n).foldl f s) := by
  induction n with
  | zero => exact h0
  | succ n ih =>
    rw [List.range_succ, List.foldl_append]
    exact hs n (Nat.lt_succ_self n) _ (ih fun k hk => hs k (Nat.lt_succ_of_lt hk))

/-- What every step of a fold keeps, the fold keeps. -/
theorem foldl_keeps {α β : Type} {f : α → β → α} {P : α → Prop} (l : List β) {s : α} (h0 : P s)
    (hs : ∀ t, ∀ x ∈ l, P t → P (f t x)) : P (l.foldl f s) := by
  induction l generalizing s with
  | nil => exact h0
  | cons x l ih =>
    exact ih (hs s x List.mem_cons_self h0) fun t y hy ht => hs t y (List.mem_cons_of_mem x hy) ht

/-! ### Fields -/

/-- Two fields share no bit: they lie in different registers, or apart in one. -/
def Fld.Apart (g f : Fld) : Prop :=
  g.addr ≠ f.addr ∨ 0 < f.width ∧ (g.lo + g.width ≤ f.lo ∨ f.lo + f.width ≤ g.lo)

theorem State.fget_fset_apart (s : State) {f g : Fld} (v : Nat) (hg : g.Listed) (h : g.Apart f) :
    (s.fset f v).fget g = s.fget g := by
  by_cases ha : g.addr = f.addr
  · obtain ⟨hf, hbits⟩ := h.resolve_left fun hne => hne ha
    exact s.fget_fset_disjoint v ha hf hg hbits
  · exact s.fget_fset_other v ha

theorem State.fget_lt (s : State) {a lo w : Nat} (h : 0 < w) : s.fget ⟨a, lo, w⟩ < 2 ^ w := by
  simp only [State.fget, bits, show lo + w - 1 + 1 - lo = w by omega]
  exact Nat.mod_lt _ (Nat.two_pow_pos _)

/-- A field of a row of the register tables has all its bits stored. -/
theorem Fld.listed_of_row {a lo w : Nat} (b : Blk) (i off n1 s1 k : Nat) (hi : i < b.count) (hk : k < n1)
    (hrow : ∃ r ∈ b.rows, r.off = off ∧ r.n1 = n1 ∧ r.s1 = s1 ∧ 0 < r.n2 ∧ ∃ f ∈ r.fields, f.lo = lo ∧ f.width = w)
    (ha : a = b.base i + off + s1 * k) : Fld.Listed ⟨a, lo, w⟩ := by
  obtain ⟨r, hr, rfl, rfl, rfl, h2, f, hf, rfl, rfl⟩ := hrow
  have hb : b ∈ Blk.all := by cases b <;> decide
  have h := listed_register hb hi hr hk h2 hf
  rw [ha, Nat.mul_comm]
  simpa using h

/-! ### Station time -/

@[simp] theorem State.reg_updTime (s : State) (f : TimeSt → TimeSt) (a : Nat) : (s.updTime f).reg a = s.reg a := rfl
@[simp] theorem State.fget_updTime (s : State) (f : TimeSt → TimeSt) (g : Fld) : (s.updTime f).fget g = s.fget g := rfl
@[simp] theorem State.fbit_updTime (s : State) (f : TimeSt → TimeSt) (g : Fld) : (s.updTime f).fbit g = s.fbit g := rfl
@[simp] theorem State.region_updTime (s : State) (f : TimeSt → TimeSt) (q : Nat) : (s.updTime f).region q = s.region q := rfl
@[simp] theorem State.time_updTime (s : State) (f : TimeSt → TimeSt) : (s.updTime f).time = f s.time := rfl
@[simp] theorem State.err_updTime (s : State) (f : TimeSt → TimeSt) : (s.updTime f).err = s.err := rfl

/-! ### Trace entries -/

/-- A trace entry concerns Larkspur's queues and its counter of drops only. -/
theorem State.trace_frame (s : State) (src r : Nat) (job : Option Nat) (data : Nat) :
    s.trace src r job data = { s with regs := (s.trace src r job data).regs, tck := (s.trace src r job data).tck } := by
  unfold State.trace
  split
  · rfl
  · dsimp only
    split <;> rfl

theorem State.reg_trace (s : State) (src r : Nat) (job : Option Nat) (data : Nat) {a : Nat} (h : a ≠ R.TCK_LSP_STAT) :
    (s.trace src r job data).reg a = s.reg a := by
  unfold State.trace
  split
  · rfl
  · dsimp only
    split
    · exact State.reg_fset_other _ _ h
    · rfl

theorem State.fget_trace (s : State) (src r : Nat) (job : Option Nat) (data : Nat) {g : Fld} (h : g.addr ≠ R.TCK_LSP_STAT) :
    (s.trace src r job data).fget g = s.fget g := by
  simp only [State.fget, s.reg_trace src r job data h]

@[simp] theorem State.region_trace (s : State) (src r : Nat) (job : Option Nat) (data q : Nat) :
    (s.trace src r job data).region q = s.region q := by
  rw [State.trace_frame]
  rfl

@[simp] theorem State.time_trace (s : State) (src r : Nat) (job : Option Nat) (data : Nat) :
    (s.trace src r job data).time = s.time := by
  rw [State.trace_frame]

/-! ### Errors -/

/-- The packets of a record are all that its sending leaves. -/
theorem State.sendRec_frame (s : State) (r : ErrRec) : s.sendRec r = { s with mesh := (s.sendRec r).mesh } := rfl

/-- A record on its way concerns the collector's path, and the counter of escalations. -/
theorem State.raiseRec_frame (s : State) (e : Err) :
    s.raiseRec e = { s with regs := (s.raiseRec e).regs, err := (s.raiseRec e).err, mesh := (s.raiseRec e).mesh } := by
  simp only [State.raiseRec]
  rw [State.sendRec_frame]
  split <;> rfl

@[simp] theorem State.region_raiseRec (s : State) (e : Err) (q : Nat) : (s.raiseRec e).region q = s.region q := by
  rw [State.raiseRec_frame]
  rfl

@[simp] theorem State.time_raiseRec (s : State) (e : Err) : (s.raiseRec e).time = s.time := by rw [State.raiseRec_frame]

@[simp] theorem State.flight_raiseRec (s : State) (e : Err) : (s.raiseRec e).err.flight = s.err.flight ++ [s.recordOf e] := by
  simp only [State.raiseRec]
  split <;> rfl

/-- An error that belongs to no class of R417 does not escalate. -/
theorem State.escalates_of_class {s : State} {e : Err} (h : codeClass e.code = 0) : s.escalates e = false := by
  simp [State.escalates, h]

theorem State.reg_raiseRec {s : State} {e : Err} (h : codeClass e.code = 0) (a : Nat) : (s.raiseRec e).reg a = s.reg a := by
  have hesc : (s.recordOf e).escalated = false := State.escalates_of_class h
  simp only [State.raiseRec, hesc, Bool.false_eq_true, if_false]
  rfl

theorem State.fget_raiseRec {s : State} {e : Err} (h : codeClass e.code = 0) (g : Fld) : (s.raiseRec e).fget g = s.fget g := by
  simp only [State.fget, State.reg_raiseRec h]

theorem State.sevOf_of_class {s : State} {e : Err} (h : codeClass e.code = 0) : s.sevOf e = codeSev e.code := by
  simp [State.sevOf, State.escalates_of_class h]

theorem Raises.of_err {s t s' t' : State} {code sev : Nat} (h : Raises s t code sev) (hs : s'.err = s.err) (ht : t'.err = t.err) :
    Raises s' t' code sev := by
  unfold Raises
  rw [hs, ht]
  exact h

theorem State.raises_raiseRec {s : State} {e : Err} (h : codeClass e.code = 0) :
    Raises s (s.raiseRec e) e.code (codeSev e.code) :=
  ⟨s.recordOf e, [], s.flight_raiseRec e, rfl, State.sevOf_of_class h⟩

/-- A corrected or absorbed error that cannot escalate is recorded and halts nothing (R411). -/
theorem State.raise_of_mild {s : State} {e : Err} (h : codeClass e.code = 0) (hs : codeSev e.code < 2) :
    s.raise e = s.raiseRec e := by
  have h2 : ¬ codeSev e.code = sevContained := by simp only [sevContained]; omega
  have h3 : ¬ codeSev e.code = sevFatal := by simp only [sevFatal]; omega
  simp only [State.raise, State.sevOf_of_class h, if_neg h2, if_neg h3]

end Sys2Proof.Machine

/-! SUPPORT. The tick and the state that reset leaves. -/

namespace Sys2Proof.Machine

/-- Settles O2: an empty queue is the branch of the step that lets the device idle. -/
theorem stepTicks : Obligations.StepTicks := by
  unfold Obligations.StepTicks
  intro s h
  simp only [step, h, State.idle]

/-- Reset commits nothing, so a block's reference is the CRC of the configuration that reset gives it (R451). -/
theorem cfgRefOf_reset (b : Blk) (i : Nat) : State.reset.cfgRefOf b i = State.reset.cfgCrc b i := rfl

theorem enabled_reset : ∀ b ∈ Blk.all, ∀ i < b.count, State.reset.enabled (b.base i) = false := by
  decide +kernel

/-- The register file of reset lists nothing. -/
theorem inv_reset : State.reset.Inv := ⟨rfl, fun _ h => absurd h List.not_mem_nil⟩

/-- Settles O58: blocks and fields are read off the tables of the register map, the rest is the state's own reset values. -/
theorem resetState : Obligations.ResetState := by
  unfold Obligations.ResetState
  exact ⟨fun b hb i hi => ⟨enabled_reset b hb i hi, cfgRefOf_reset b i⟩, rfl, by decide +kernel, by decide +kernel,
    by decide +kernel, by decide +kernel, fun _ _ => rfl, by decide +kernel, by decide +kernel, rfl, rfl, inv_reset⟩

end Sys2Proof.Machine

/-! SUPPORT. Pacer steps (R21, R22, R32, R33): what bringing the step registers up to date shows and leaves alone, the clamp, the
step sequencer, the throttle and the thermal guard. -/

namespace Sys2Proof.Machine

/-! ### The fields of PCR_STEP_STATE -/

theorem listed_stepCur {r : Nat} (h : r < 29) : (F.PCR_STEP_STATE_CUR r).Listed :=
  Fld.listed_of_row .pcr 0 0x200 29 8 r (by decide) h (by decide) (by simp only [R.PCR_STEP_STATE, Blk.base, Blk.base0, Blk.stride])

theorem listed_stepTarget {r : Nat} (h : r < 29) : (F.PCR_STEP_STATE_TARGET r).Listed :=
  Fld.listed_of_row .pcr 0 0x200 29 8 r (by decide) h (by decide) (by simp only [R.PCR_STEP_STATE, Blk.base, Blk.base0, Blk.stride])

theorem listed_stepClamped {r : Nat} (h : r < 29) : (F.PCR_STEP_STATE_CLAMPED r).Listed :=
  Fld.listed_of_row .pcr 0 0x200 29 8 r (by decide) h (by decide) (by simp only [R.PCR_STEP_STATE, Blk.base, Blk.base0, Blk.stride])

/-- Two regions have two registers of steps. -/
theorem stepState_ne {r q : Nat} (h : q ≠ r) : R.PCR_STEP_STATE q ≠ R.PCR_STEP_STATE r := by
  simp only [R.PCR_STEP_STATE]
  omega

/-! ### Bringing PCR_STEP_STATE up to date -/

/-- What bringing the step registers up to date does for one region. -/
def State.showStep (s : State) (r : Nat) : State :=
  (((s.fset (F.PCR_STEP_STATE_TARGET r) (s.target r)).fsetB (F.PCR_STEP_STATE_MOVING r) (s.cur r ≠ s.target r)).fsetB
    (F.PCR_STEP_STATE_THROTTLED r) s.throttled).fsetB (F.PCR_STEP_STATE_GUARD r) (s.guardTarget r < s.baseTarget r)

theorem State.refreshSteps_eq (s : State) : s.refreshSteps = ((List.range 29).foldl State.showStep s).showAlert := rfl

theorem State.showStep_frame (s : State) (r : Nat) : s.showStep r = { s with regs := (s.showStep r).regs } := rfl

theorem State.reg_showStep_other (s : State) {r a : Nat} (h : a ≠ R.PCR_STEP_STATE r) : (s.showStep r).reg a = s.reg a := by
  unfold State.showStep State.fsetB
  rw [State.reg_fset_other _ _ h, State.reg_fset_other _ _ h, State.reg_fset_other _ _ h, State.reg_fset_other _ _ h]

/-- Of PCR_STEP_STATE, CUR and CLAMPED stay. -/
theorem State.fget_showStep_kept (s : State) (r : Nat) {a lo w : Nat} (hg : Fld.Listed ⟨a, lo, w⟩)
    (h : lo + w ≤ 4 ∨ lo = 9 ∧ w = 1) : (s.showStep r).fget ⟨a, lo, w⟩ = s.fget ⟨a, lo, w⟩ := by
  unfold State.showStep State.fsetB
  rw [State.fget_fset_apart _ _ hg (.inr ⟨Nat.succ_pos _, by simp only [F.PCR_STEP_STATE_GUARD]; omega⟩),
    State.fget_fset_apart _ _ hg (.inr ⟨Nat.succ_pos _, by simp only [F.PCR_STEP_STATE_THROTTLED]; omega⟩),
    State.fget_fset_apart _ _ hg (.inr ⟨Nat.succ_pos _, by simp only [F.PCR_STEP_STATE_MOVING]; omega⟩),
    State.fget_fset_apart _ _ hg (.inr ⟨Nat.succ_pos _, by simp only [F.PCR_STEP_STATE_TARGET]; omega⟩)]

theorem State.fget_showStep_target (s : State) {r : Nat} (h : r < 29) :
    (s.showStep r).fget (F.PCR_STEP_STATE_TARGET r) = s.target r % 2 ^ 4 := by
  have hg := listed_stepTarget h
  unfold State.showStep State.fsetB
  rw [State.fget_fset_apart _ _ hg (.inr ⟨Nat.one_pos, .inl (Nat.le_of_ble_eq_true rfl)⟩),
    State.fget_fset_apart _ _ hg (.inr ⟨Nat.one_pos, .inl (Nat.le_of_ble_eq_true rfl)⟩),
    State.fget_fset_apart _ _ hg (.inr ⟨Nat.one_pos, .inl (Nat.le_of_ble_eq_true rfl)⟩), State.fget_fset_same _ _ hg]
  rfl

/-- The pin and the messages that tell of a change of the causes of ALERT_N (R432, R436). -/
def State.tellAlert (u : State) (now was : Nat) : State :=
  let s2 := if (now = 0) = (was = 0) then u else u.send (.pin 0 (now = 0))
  if s2.fget F.TCK_STATE_STATE = 1 then
    ((List.range 6).filter (fun i => bit now i ≠ bit was i)).foldl (fun s i =>
      s.send (.message 4 [BitVec.ofNat 8 i, BitVec.ofNat 8 (b2n (bit now i))])) s2
  else s2

theorem State.showAlert_eq (s : State) : s.showAlert = if s.alertCauses = s.tck.alert then s else
    (({ s with tck := { s.tck with alert := s.alertCauses } } : State).fset F.TCK_ALERT_CAUSES s.alertCauses).tellAlert
      s.alertCauses s.tck.alert := rfl

theorem State.tellAlert_frame (u : State) (now was : Nat) : u.tellAlert now was = { u with out := (u.tellAlert now was).out } := by
  have hout : ∃ out, u.tellAlert now was = { u with out := out } := by
    have hpin : ∃ out, (if (now = 0) = (was = 0) then u else u.send (.pin 0 (now = 0))) = { u with out := out } := by
      split
      · exact ⟨_, rfl⟩
      · exact ⟨_, rfl⟩
    obtain ⟨out, hpin⟩ := hpin
    simp only [State.tellAlert, hpin]
    split
    · refine foldl_keeps (P := fun t : State => ∃ out, t = { u with out := out }) _ ⟨out, rfl⟩ ?_
      rintro _ i _ ⟨o, rfl⟩
      exact ⟨_, rfl⟩
    · exact ⟨out, rfl⟩
  obtain ⟨out, hout⟩ := hout
  rw [hout]

@[simp] theorem State.reg_tellAlert (u : State) (now was a : Nat) : (u.tellAlert now was).reg a = u.reg a := by
  rw [State.tellAlert_frame]
  rfl

theorem State.reg_showAlert (s : State) {a : Nat} (h : a ≠ R.TCK_ALERT) : s.showAlert.reg a = s.reg a := by
  rw [State.showAlert_eq]
  split
  · rfl
  · rw [State.reg_tellAlert, State.reg_fset_other _ _ h]
    rfl

theorem State.showAlert_frame (s : State) :
    s.showAlert = { s with regs := s.showAlert.regs, tck := s.showAlert.tck, out := s.showAlert.out } := by
  rw [State.showAlert_eq]
  split
  · rfl
  · rw [State.tellAlert_frame]
    rfl

theorem State.fget_showAlert (s : State) {g : Fld} (h : g.addr ≠ R.TCK_ALERT) : s.showAlert.fget g = s.fget g := by
  simp only [State.fget, s.reg_showAlert h]

/-! ### All regions -/

theorem State.refreshSteps_frame (s : State) :
    s.refreshSteps = { s with regs := s.refreshSteps.regs, tck := s.refreshSteps.tck, out := s.refreshSteps.out } := by
  have hfold : (List.range 29).foldl State.showStep s = { s with regs := ((List.range 29).foldl State.showStep s).regs } :=
    foldl_keeps (P := fun t : State => t = { s with regs := t.regs }) _ rfl fun t r _ ht => by
      rw [State.showStep_frame, ht]
  rw [State.refreshSteps_eq, State.showAlert_frame]
  generalize (List.range 29).foldl State.showStep s = u at hfold ⊢
  generalize u.showAlert = v
  rw [hfold]

@[simp] theorem State.region_refreshSteps (s : State) (q : Nat) : s.refreshSteps.region q = s.region q := by
  rw [State.refreshSteps_frame]
  rfl

@[simp] theorem State.time_refreshSteps (s : State) : s.refreshSteps.time = s.time := by rw [State.refreshSteps_frame]

/-- A register that is no region's PCR_STEP_STATE stays, but for TCK_ALERT. -/
theorem State.fget_refreshSteps_other (s : State) {g : Fld} (hg : ∀ r < 29, g.addr ≠ R.PCR_STEP_STATE r)
    (ha : g.addr ≠ R.TCK_ALERT) : s.refreshSteps.fget g = s.fget g := by
  rw [State.refreshSteps_eq, State.fget_showAlert _ ha]
  refine foldl_keeps (P := fun t : State => t.fget g = s.fget g) _ rfl fun t r hr ht => ?_
  rw [State.fget, State.reg_showStep_other _ (hg r (List.mem_range.1 hr))]
  exact ht

/-- Of PCR_STEP_STATE, CUR and CLAMPED stay. -/
theorem State.fget_refreshSteps_kept (s : State) {a lo w : Nat} (hg : Fld.Listed ⟨a, lo, w⟩) (ha : a ≠ R.TCK_ALERT)
    (h : lo + w ≤ 4 ∨ lo = 9 ∧ w = 1) : s.refreshSteps.fget ⟨a, lo, w⟩ = s.fget ⟨a, lo, w⟩ := by
  rw [State.refreshSteps_eq, State.fget_showAlert _ ha]
  refine foldl_keeps (P := fun t : State => t.fget ⟨a, lo, w⟩ = s.fget ⟨a, lo, w⟩) _ rfl fun t r _ ht => ?_
  rw [State.fget_showStep_kept t r hg h, ht]

/-- No register of the pacing hub is the Tackroom's TCK_ALERT. -/
theorem stepState_ne_alert {r : Nat} (h : r < 29) : R.PCR_STEP_STATE r ≠ R.TCK_ALERT := by
  simp only [R.PCR_STEP_STATE, R.TCK_ALERT]
  omega

theorem State.cur_refreshSteps (s : State) {r : Nat} (h : r < 29) : s.refreshSteps.cur r = s.cur r :=
  s.fget_refreshSteps_kept (listed_stepCur h) (stepState_ne_alert h) (by decide)

theorem State.clamped_refreshSteps (s : State) {r : Nat} (h : r < 29) :
    s.refreshSteps.fget (F.PCR_STEP_STATE_CLAMPED r) = s.fget (F.PCR_STEP_STATE_CLAMPED r) :=
  s.fget_refreshSteps_kept (listed_stepClamped h) (stepState_ne_alert h) (by decide)

theorem State.throttled_refreshSteps (s : State) : s.refreshSteps.throttled = s.throttled := by
  simp only [State.throttled, State.fbit]
  rw [s.fget_refreshSteps_other _ (by decide)]
  intro r hr
  simp only [F.PCR_THROTTLE_ASSERTED, R.PCR_THROTTLE, R.PCR_STEP_STATE]
  omega

/-! ### The throttle (R32) -/

/-- While the throttle is on, every target shown is S0. -/
theorem State.target_refreshSteps_throttled (s : State) (h : s.throttled = true) {r : Nat} (hr : r < 29) :
    s.refreshSteps.fget (F.PCR_STEP_STATE_TARGET r) = 0 := by
  rw [State.refreshSteps_eq, State.fget_showAlert _ (stepState_ne_alert hr)]
  have hfold := foldl_range_induction (f := State.showStep) (s := s) (n := 29)
    (fun k t => t.throttled = true ∧ ∀ r < k, t.fget (F.PCR_STEP_STATE_TARGET r) = 0) ⟨h, fun r hr => absurd hr (Nat.not_lt_zero r)⟩
  refine (hfold fun k hk t ⟨hon, hshown⟩ => ⟨?_, fun q hq => ?_⟩).2 r hr
  · rw [← hon, State.throttled, State.fbit, State.fget, State.reg_showStep_other]
    · rfl
    · simp only [F.PCR_THROTTLE_ASSERTED, R.PCR_THROTTLE, R.PCR_STEP_STATE]
      omega
  · by_cases hqk : q = k
    · rw [hqk, State.fget_showStep_target t hk, State.target, hon]
      rfl
    · rw [← hshown q (by omega)]
      exact congrArg (bits · _ _) (t.reg_showStep_other (stepState_ne hqk))

theorem throttleAsserted_listed : F.PCR_THROTTLE_ASSERTED.Listed :=
  Fld.listed_of_row .pcr 0 0x308 1 8 0 (by decide) (by decide) (by decide) rfl

theorem throttleEvents_listed : F.PCR_THROTTLE_EVENTS.Listed :=
  Fld.listed_of_row .pcr 0 0x308 1 8 0 (by decide) (by decide) (by decide) rfl

theorem throttleStuck_listed : F.PCR_THROTTLE_STUCK.Listed :=
  Fld.listed_of_row .pcr 0 0x308 1 8 0 (by decide) (by decide) (by decide) rfl

/-- PCR_THROTTLE is no region's step register. -/
theorem throttle_ne_stepState (r : Nat) (hr : r < 29) : R.PCR_THROTTLE ≠ R.PCR_STEP_STATE r := by
  simp only [R.PCR_THROTTLE, R.PCR_STEP_STATE]
  omega

theorem State.cur_fset_throttle (s : State) {f : Fld} (h : f.addr = R.PCR_THROTTLE) (v : Nat) {r : Nat} (hr : r < 29) :
    (s.fset f v).cur r = s.cur r :=
  s.fget_fset_other v (by rw [h]; exact (throttle_ne_stepState r hr).symm)

/-- The throttle comes on. -/
def State.throttleOn (s : State) : State :=
  ((s.fset F.PCR_THROTTLE_ASSERTED 1).fwrap F.PCR_THROTTLE_EVENTS 1).updTime
    (fun x => { x with throttleSince := s.refNs, stuckSaid := false })

theorem execThrottleAssert_eq (s : State) :
    execThrottleAssert s = .next (if s.throttled then s else s.throttleOn.refreshSteps) := rfl

theorem State.throttled_throttleOn (s : State) : s.throttleOn.throttled = true := by
  rw [State.throttled, State.fbit, State.throttleOn, State.fget_updTime, State.fwrap,
    State.fget_fset_apart _ _ throttleAsserted_listed (.inr ⟨by decide, by decide⟩), State.fget_fset_same _ _ throttleAsserted_listed]
  rfl

theorem State.events_throttleOn (s : State) : s.throttleOn.fget F.PCR_THROTTLE_EVENTS =
    wrapAdd F.PCR_THROTTLE_EVENTS.width (s.fget F.PCR_THROTTLE_EVENTS) 1 := by
  rw [State.throttleOn, State.fget_updTime, State.fwrap, State.fget_fset_same _ _ throttleEvents_listed, wrapAdd,
    State.fget_fset_apart _ _ throttleEvents_listed (.inr ⟨by decide, by decide⟩), Nat.mod_mod, wrapAdd]

theorem State.cur_throttleOn (s : State) {r : Nat} (hr : r < 29) : s.throttleOn.cur r = s.cur r := by
  rw [State.cur, State.throttleOn, State.fget_updTime, State.fwrap, ← State.cur, State.cur_fset_throttle _ rfl _ hr,
    State.cur_fset_throttle _ rfl _ hr]

/-- THROTTLE_ASSERT (R32). -/
theorem throttleAssert_runs {s : State} (h : s.throttled = false) : Runs .throttleAssert s (fun t => t.throttled = true ∧
    t.fget F.PCR_THROTTLE_EVENTS = wrapAdd F.PCR_THROTTLE_EVENTS.width (s.fget F.PCR_THROTTLE_EVENTS) 1 ∧
    t.time.throttleSince = s.refNs ∧ ∀ r < 29, t.fget (F.PCR_STEP_STATE_TARGET r) = 0 ∧ t.cur r = s.cur r) := by
  refine ⟨s.throttleOn.refreshSteps, ?_, ?_, ?_, ?_, fun r hr => ⟨?_, ?_⟩⟩
  · exact (execThrottleAssert_eq s).trans (by simp [h])
  · rw [State.throttled_refreshSteps, State.throttled_throttleOn]
  · rw [State.fget_refreshSteps_other _ throttle_ne_stepState (by decide), State.events_throttleOn]
  · rw [State.time_refreshSteps]
    rfl
  · exact State.target_refreshSteps_throttled _ s.throttled_throttleOn hr
  · rw [State.cur_refreshSteps _ hr, State.cur_throttleOn s hr]

theorem throttleAssert_again {s : State} (h : s.throttled = true) : Runs .throttleAssert s (fun t => t = s) :=
  ⟨s, (execThrottleAssert_eq s).trans (by simp [h]), rfl⟩

/-- THROTTLE_DEASSERT (R32). -/
theorem throttleDeassert_runs (s : State) :
    Runs .throttleDeassert s (fun t => t.throttled = false ∧ ∀ r < 29, t.cur r = s.cur r) := by
  refine ⟨_, rfl, ?_, fun r hr => ?_⟩
  · rw [State.throttled_refreshSteps, State.throttled, State.fbit, State.fget_fset_same _ _ throttleAsserted_listed]
    rfl
  · rw [State.cur_refreshSteps _ hr, State.cur_fset_throttle s rfl _ hr]

theorem execThrottleStuck_eq (s : State) : execThrottleStuck s =
    .next (if s.throttled = true ∧ s.time.stuckSaid = false ∧ s.time.throttleSince + 10000000000 ≤ s.refNs then
      ((s.fset F.PCR_THROTTLE_STUCK 1).raise { code := 0x0108, blk := 28 }).updTime (fun x => { x with stuckSaid := true })
    else s) := rfl

/-- THROTTLE_STUCK (R32). -/
theorem throttleStuck_runs {s : State} (h : s.throttled = true) (hn : s.time.stuckSaid = false)
    (hd : s.time.throttleSince + 10000000000 ≤ s.refNs) : Runs .throttleStuck s (fun t =>
      t.fbit F.PCR_THROTTLE_STUCK = true ∧ t.time.stuckSaid = true ∧ Raises s t 0x0108 1) := by
  refine ⟨_, execThrottleStuck_eq s, ?_⟩
  have hclass : codeClass (Err.code { code := 0x0108, blk := 28 }) = 0 := by decide
  rw [if_pos ⟨h, hn, hd⟩, State.raise_of_mild hclass (by decide)]
  refine ⟨?_, rfl, (State.raises_raiseRec hclass).of_err (State.setReg_err ..).symm (State.err_updTime ..)⟩
  rw [State.fbit_updTime, State.fbit, State.fget_raiseRec hclass, State.fget_fset_same _ _ throttleStuck_listed]
  rfl

/-! ### The step sequencer (R21) -/

theorem State.cur_lt (s : State) (r : Nat) : s.cur r < 16 := s.fget_lt (by decide)

/-- The move that a region takes towards a target, where the neighbours' steps let it (R21). -/
theorem State.nextStep_eq (s : State) (r : Nat) : s.nextStep r =
    let c := s.cur r
    let g := s.fget (F.PCR_STEP_STATE_TARGET r)
    let n := if c < g then c + 1 else if g < c then c - 1 else c
    if r = 28 ∧ s.time.refLost = true then c
    else if ∀ q ∈ neighbours r, n ≤ s.cur q + 3 ∧ s.cur q ≤ n + 3 then n else c := by
  simp only [State.nextStep, List.all_eq_true, decide_eq_true_eq]

theorem State.nextStep_lt (s : State) (r : Nat) : s.nextStep r < 16 := by
  have hc := s.cur_lt r
  have hg : s.fget (F.PCR_STEP_STATE_TARGET r) < 2 ^ 4 := s.fget_lt (by decide)
  simp only [State.nextStep]
  split_ifs <;> omega

/-- One region's part of a tick of the sequencer, when the device stood as `s0` shows it. -/
def State.moveStep (s0 t : State) (r : Nat) : State :=
  if s0.nextStep r = s0.cur r then t
  else (t.fset (F.PCR_STEP_STATE_CUR r) (s0.nextStep r)).trace 6 r none (s0.nextStep r)

theorem execStepTick_eq (s : State) :
    execStepTick s = .next ((List.range 29).foldl (State.moveStep s.refreshSteps) s.refreshSteps).refreshSteps := rfl

theorem stepState_ne_lsp {r : Nat} (h : r < 29) : R.PCR_STEP_STATE r ≠ R.TCK_LSP_STAT := by
  simp only [R.PCR_STEP_STATE, R.TCK_LSP_STAT]
  omega

theorem State.cur_moveStep_other (s0 t : State) {r q : Nat} (hq : q < 29) (h : q ≠ r) : (State.moveStep s0 t r).cur q = t.cur q := by
  unfold State.moveStep
  split
  · rfl
  · rw [State.cur, State.fget_trace _ _ _ _ _ (stepState_ne_lsp hq), State.fget_fset_other _ _ (stepState_ne h), State.cur]

theorem State.cur_moveStep_same (s0 t : State) {r : Nat} (hr : r < 29) (h : t.cur r = s0.cur r) :
    (State.moveStep s0 t r).cur r = s0.nextStep r := by
  unfold State.moveStep
  split
  next hstay => rw [h, hstay]
  next =>
    rw [State.cur, State.fget_trace _ _ _ _ _ (stepState_ne_lsp hr), State.fget_fset_same _ _ (listed_stepCur hr)]
    exact Nat.mod_eq_of_lt (s0.nextStep_lt r)

/-- STEP_TICK (R21): every region takes the move that the steps before the tick allow. -/
theorem stepTick_runs (s : State) : Runs .stepTick s (fun t => ∀ r < 29,
    let c := s.cur r
    let g := s.refreshSteps.fget (F.PCR_STEP_STATE_TARGET r)
    let n := if c < g then c + 1 else if g < c then c - 1 else c
    t.cur r = (if r = 28 ∧ s.time.refLost = true then c
      else if (∀ q ∈ neighbours r, n ≤ s.cur q + 3 ∧ s.cur q ≤ n + 3) then n else c)) := by
  refine ⟨_, execStepTick_eq s, fun r hr => ?_⟩
  have hfold := foldl_range_induction (f := State.moveStep s.refreshSteps) (s := s.refreshSteps) (n := 29)
    (fun k t => ∀ q < 29, t.cur q = if q < k then s.refreshSteps.nextStep q else s.refreshSteps.cur q)
    (fun q _ => (if_neg (Nat.not_lt_zero q)).symm) fun k hk t ht q hq => by
      by_cases hqk : q = k
      · subst hqk
        rw [if_pos (Nat.lt_succ_self q)]
        exact State.cur_moveStep_same _ t hq (by simpa using ht q hq)
      · rw [State.cur_moveStep_other _ t hq hqk, ht q hq]
        exact if_congr (by omega) rfl rfl
  have hcur : ∀ q ∈ neighbours r, s.refreshSteps.cur q = s.cur q := fun q hq =>
    s.cur_refreshSteps ((show ∀ r < 29, ∀ q ∈ neighbours r, q < 29 by decide) r hr q hq)
  rw [State.cur_refreshSteps _ hr, hfold r hr, if_pos hr, State.nextStep_eq, s.cur_refreshSteps hr, s.time_refreshSteps]
  dsimp only
  refine if_congr Iff.rfl rfl (if_congr (forall₂_congr fun q hq => by rw [hcur q hq]) rfl rfl)

/-! ### The thermal guard (R33) -/

/-- A region whose guard begins raises PCR_THERMAL_GUARD, which touches no region. -/
theorem State.region_raise_guard (s : State) (r q : Nat) : (s.raise { code := 0x010A, blk := r }).region q = s.region q := by
  rw [State.raise_of_mild (by simp only; decide) (by simp only; decide), State.region_raiseRec]

/-- The cap of a region after a tick of its guard. -/
def State.guardCap (s0 s : State) (r : Nat) : Option Nat :=
  match s0.temp r with
  | none => (s.region r).cap
  | some d => if d < 1632 ∨ ((s.region r).cap = none ∧ d < 1680) then none else some (s0.guardTarget r - 1)

/-- A tick of a region's guard sets the region's cap, and touches nothing else of the regions. -/
theorem State.region_guardTick (s0 s : State) (r q : Nat) : (State.guardTick s0 s r).region q =
    (s.updRegion r (fun g => { g with cap := State.guardCap s0 s r })).region q := by
  unfold State.guardTick State.guardCap
  cases s0.temp r with
  | none =>
    by_cases h : q = r
    · rw [h, State.updRegion_same]
    · rw [State.updRegion_other _ _ h]
  | some d =>
    by_cases hcold : d < 1632
    · simp only [hcold, if_true, true_or]
    · by_cases hoff : (s.region r).cap = none
      · by_cases hcool : d < 1680
        · simp only [hcold, hoff, hcool, if_true, if_false, and_self, or_true]
          by_cases h : q = r
          · rw [h, State.updRegion_same, ← hoff]
          · rw [State.updRegion_other _ _ h]
        · simp only [hcold, hoff, hcool, if_true, if_false, and_false, or_false, State.region_raise_guard]
      · simp only [hcold, hoff, if_false, false_and, or_false]

/-- THERMAL_GUARD_TICK (R33). -/
theorem thermalGuardTick_runs (s : State) : Runs .thermalGuardTick s (fun t => ∀ r < 29,
    (t.region r).want = (s.region r).want ∧
    (s.temp r = none → (t.region r).cap = (s.region r).cap) ∧
    ∀ d, s.temp r = some d →
      (d < 1632 → (t.region r).cap = none) ∧
      (1632 ≤ d → d < 1680 → (s.region r).cap = none → (t.region r).cap = none) ∧
      (1632 ≤ d → 1680 ≤ d ∨ (s.region r).cap ≠ none → (t.region r).cap = some (s.guardTarget r - 1))) := by
  refine ⟨_, rfl, fun r hr => ?_⟩
  have hfold := foldl_range_induction (f := State.guardTick s) (s := s) (n := 29)
    (fun k t => ∀ q, t.region q = if q < k then (State.guardTick s s q).region q else s.region q)
    (fun q => (if_neg (Nat.not_lt_zero q)).symm) fun k hk t ht q => by
      by_cases hqk : q = k
      · subst hqk
        have hq : t.region q = s.region q := by simpa using ht q
        rw [if_pos (Nat.lt_succ_self q), State.region_guardTick, State.region_guardTick, State.updRegion_same,
          State.updRegion_same, State.guardCap, State.guardCap, hq]
      · rw [State.region_guardTick, State.updRegion_other _ _ hqk, ht q]
        exact if_congr (by omega) rfl rfl
  rw [State.region_refreshSteps, hfold r, if_pos hr, State.region_guardTick, State.updRegion_same, State.guardCap]
  refine ⟨rfl, fun ht => by simp only [ht], fun d hd => ?_⟩
  simp only [hd]
  refine ⟨fun hcold => if_pos (.inl hcold), fun _ hcool hoff => if_pos (.inr ⟨hoff, hcool⟩), fun hwarm hon => if_neg ?_⟩
  rintro (hcold | ⟨hoff, hcool⟩)
  · omega
  · rcases hon with hhot | hon
    · omega
    · exact hon hoff

/-! ### The clamp of R22 -/

/-- A request clamped to within 3 steps of the neighbours' wanted targets. -/
def clampStep (ns : List Nat) (req : Nat) : Nat :=
  if req < maxOf 0 ns - 3 then maxOf 0 ns - 3 else if minOf 15 ns + 3 < req then minOf 15 ns + 3 else req

/-- What the clamp grants a region. -/
def State.granted (s : State) (r req : Nat) : Nat := clampStep ((neighbours r).map s.clampTarget) req

theorem State.grant_eq (s : State) (r req : Nat) : s.grant r req =
    if s.granted r req = req then s.updRegion r (fun g => { g with want := s.granted r req })
    else ((s.updRegion r (fun g => { g with want := s.granted r req })).fset (F.PCR_STEP_STATE_CLAMPED r) 1).raiseRec
      { code := 0x0101, blk := r, detail := r * 2 ^ 16 + req * 2 ^ 8 + s.granted r req } := by
  rw [← State.raise_of_mild (by simp only; decide) (by simp only; decide)]
  rfl

theorem State.region_grant (s : State) (r req q : Nat) :
    (s.grant r req).region q = (s.updRegion r (fun g => { g with want := s.granted r req })).region q := by
  rw [State.grant_eq]
  split
  · rfl
  · rw [State.region_raiseRec]
    rfl

@[simp] theorem State.time_grant (s : State) (r req : Nat) : (s.grant r req).time = s.time := by
  rw [State.grant_eq]
  split
  · rfl
  · rw [State.time_raiseRec]
    rfl

/-- A grant sets the region's own CLAMPED and no other field. -/
theorem State.fget_grant_apart (s : State) (r req : Nat) {g : Fld} (hg : g.Listed)
    (h : g.Apart (F.PCR_STEP_STATE_CLAMPED r)) : (s.grant r req).fget g = s.fget g := by
  rw [State.grant_eq]
  split
  · rfl
  · rw [State.fget_raiseRec (by simp only; decide), State.fget_fset_apart _ _ hg h]
    rfl

theorem State.clamped_grant (s : State) {r req : Nat} (hr : r < 29) (h : s.granted r req ≠ req) :
    (s.grant r req).fget (F.PCR_STEP_STATE_CLAMPED r) = 1 := by
  rw [State.grant_eq, if_neg h, State.fget_raiseRec (by simp only; decide), State.fget_fset_same _ _ (listed_stepClamped hr)]
  rfl

/-! ### APPLY (R22, R38) -/

theorem listed_stepReq {r : Nat} (h : r < 29) : (F.PCR_STEP_REQ_STEP r).Listed :=
  Fld.listed_of_row .pcr 0 0x100 29 8 r (by decide) h (by decide) (by simp only [R.PCR_STEP_REQ, Blk.base, Blk.base0, Blk.stride])

theorem State.applyOne_held {s : State} (h : s.time.refLost = true) : s.applyOne 28 =
    s.updTime (fun x => { x with hubReq := some (s.fget (F.PCR_STEP_REQ_STEP 28)) }) := if_pos ⟨rfl, h⟩

theorem State.applyOne_granted {s : State} {r : Nat} (h : ¬ (r = 28 ∧ s.time.refLost = true)) :
    s.applyOne r = s.grant r (s.fget (F.PCR_STEP_REQ_STEP r)) := if_neg h

/-- A region's request taking effect touches no field but the region's CLAMPED. -/
theorem State.fget_applyOne_apart (s : State) {r : Nat} {g : Fld} (hg : g.Listed)
    (h : g.Apart (F.PCR_STEP_STATE_CLAMPED r)) : (s.applyOne r).fget g = s.fget g := by
  by_cases hh : r = 28 ∧ s.time.refLost = true
  · obtain ⟨rfl, hlost⟩ := hh
    rw [State.applyOne_held hlost, State.fget_updTime]
  · rw [State.applyOne_granted hh, State.fget_grant_apart s r _ hg h]

theorem stepReq_apart (q r : Nat) (hq : q < 29) : (F.PCR_STEP_REQ_STEP q).Apart (F.PCR_STEP_STATE_CLAMPED r) := by
  left
  simp only [F.PCR_STEP_REQ_STEP, F.PCR_STEP_STATE_CLAMPED, R.PCR_STEP_REQ, R.PCR_STEP_STATE]
  omega

theorem stepCur_apart (q r : Nat) : (F.PCR_STEP_STATE_CUR q).Apart (F.PCR_STEP_STATE_CLAMPED r) :=
  .inr ⟨Nat.one_pos, .inl (by simp only [F.PCR_STEP_STATE_CUR, F.PCR_STEP_STATE_CLAMPED]; omega)⟩

theorem State.region_applyOne_other (s : State) {r q : Nat} (h : q ≠ r) : (s.applyOne r).region q = s.region q := by
  by_cases hh : r = 28 ∧ s.time.refLost = true
  · obtain ⟨rfl, hlost⟩ := hh
    rw [State.applyOne_held hlost, State.region_updTime]
  · rw [State.applyOne_granted hh, State.region_grant, State.updRegion_other _ _ h]

theorem State.refLost_applyOne (s : State) (r : Nat) : (s.applyOne r).time.refLost = s.time.refLost := by
  by_cases hh : r = 28 ∧ s.time.refLost = true
  · obtain ⟨rfl, hlost⟩ := hh
    rw [State.applyOne_held hlost]
    rfl
  · rw [State.applyOne_granted hh, State.time_grant]

/-- What holds after the requests of the regions below `k` have taken effect in `s`: the requests and the current steps stay,
and the regions from `k` on. -/
structure Applying (s : State) (k : Nat) (t : State) : Prop where
  req : ∀ q < 29, t.fget (F.PCR_STEP_REQ_STEP q) = s.fget (F.PCR_STEP_REQ_STEP q)
  cur : ∀ q < 29, t.cur q = s.cur q
  rest : ∀ q, k ≤ q → t.region q = s.region q
  refLost : t.time.refLost = s.time.refLost

theorem Applying.refl (s : State) : Applying s 0 s := ⟨fun _ _ => rfl, fun _ _ => rfl, fun _ _ => rfl, rfl⟩

theorem Applying.step {s t : State} {k : Nat} (h : Applying s k t) : Applying s (k + 1) (t.applyOne k) where
  req q hq := (t.fget_applyOne_apart (listed_stepReq hq) (stepReq_apart q k hq)).trans (h.req q hq)
  cur q hq := (t.fget_applyOne_apart (listed_stepCur hq) (stepCur_apart q k)).trans (h.cur q hq)
  rest q hq := (t.region_applyOne_other (by omega)).trans (h.rest q (by omega))
  refLost := (t.refLost_applyOne k).trans h.refLost

/-- The regions below `k` have the targets that the clamp grants them. -/
def Granted (s : State) (k : Nat) (t : State) : Prop := ∀ r < k,
  let req := s.fget (F.PCR_STEP_REQ_STEP r)
  (t.region r).want = clampStep ((neighbours r).map fun q => (if q < r then t.region q else s.region q).want) req ∧
  ((t.region r).want ≠ req → t.fget (F.PCR_STEP_STATE_CLAMPED r) ≠ 0)

theorem Granted.step {s t : State} {k : Nat} (hk : k < 29) (ha : Applying s k t) (hp : s.time.refLost = false)
    (h : Granted s k t) : Granted s (k + 1) (t.applyOne k) := by
  have hlost : t.time.refLost = false := ha.refLost.trans hp
  have hbelow (q : Nat) (hq : q < k) : (t.applyOne k).region q = t.region q := t.region_applyOne_other (by omega)
  have hreq := ha.req k hk
  have hone : t.applyOne k = t.grant k (s.fget (F.PCR_STEP_REQ_STEP k)) := by
    rw [State.applyOne_granted (by simp [hlost]), hreq]
  intro r hr
  by_cases hrk : r = k
  · subst hrk
    have hns : (neighbours r).map t.clampTarget =
        (neighbours r).map fun q => (if q < r then (t.applyOne r).region q else s.region q).want := by
      refine List.map_congr_left fun q _ => ?_
      rw [State.clampTarget, if_neg (by simp [hlost])]
      by_cases hq : q < r
      · rw [if_pos hq, hbelow q hq]
      · rw [if_neg hq, ha.rest q (by omega)]
    have hwant : ((t.applyOne r).region r).want = t.granted r (s.fget (F.PCR_STEP_REQ_STEP r)) := by
      rw [hone, State.region_grant, State.updRegion_same]
    refine ⟨by rw [hwant, State.granted, hns], fun hne => ?_⟩
    rw [hone, State.clamped_grant t hk (by rwa [← hwant])]
    decide
  · have hlt : r < k := by omega
    obtain ⟨hwant, hclamped⟩ := h r hlt
    have hcl : (t.applyOne k).fget (F.PCR_STEP_STATE_CLAMPED r) = t.fget (F.PCR_STEP_STATE_CLAMPED r) :=
      t.fget_applyOne_apart (listed_stepClamped (by omega)) (.inl (stepState_ne hrk))
    rw [hbelow r hlt, hcl]
    refine ⟨hwant.trans (congrArg (clampStep · _) (List.map_congr_left fun q _ => ?_)), hclamped⟩
    by_cases hq : q < r
    · rw [if_pos hq, if_pos hq, hbelow q (by omega)]
    · rw [if_neg hq, if_neg hq]

theorem execStepApply_eq {s : State} (h : s.enabled pcrBase = true) :
    execStepApply s = .next ((List.range 29).foldl State.applyOne s).refreshSteps :=
  congrArg Host.Outcome.next (if_pos h)

theorem applying (s : State) (n : Nat) : Applying s n ((List.range n).foldl State.applyOne s) :=
  foldl_range_induction (Applying s) (Applying.refl s) fun _ _ _ ht => ht.step

/-- STEP_APPLY with the reference there (R22): every region in turn gets what the clamp grants it. -/
theorem stepApply_runs {s : State} (he : s.enabled pcrBase = true) (hp : s.time.refLost = false) :
    Runs .stepApply s (fun t => ∀ r < 29,
      let ns := (neighbours r).map (fun q => (if q < r then t.region q else s.region q).want)
      let lo := maxOf 0 ns - 3
      let hi := minOf 15 ns + 3
      let req := s.fget (F.PCR_STEP_REQ_STEP r)
      (t.region r).want = (if req < lo then lo else if hi < req then hi else req) ∧
      ((t.region r).want ≠ req → t.fbit (F.PCR_STEP_STATE_CLAMPED r) = true) ∧ t.cur r = s.cur r) := by
  refine ⟨_, execStepApply_eq he, fun r hr => ?_⟩
  have hall := foldl_range_induction (f := State.applyOne) (s := s) (n := 29) (fun k t => Applying s k t ∧ Granted s k t)
    ⟨Applying.refl s, fun r hr => absurd hr (Nat.not_lt_zero r)⟩
    fun k hk t ⟨ha, hg⟩ => ⟨ha.step, hg.step hk ha hp⟩
  obtain ⟨ha, hg⟩ := hall
  obtain ⟨hwant, hclamped⟩ := hg r hr
  simp only [State.region_refreshSteps, State.fbit, State.clamped_refreshSteps _ hr, State.cur_refreshSteps _ hr, decide_eq_true_eq]
  exact ⟨hwant, hclamped, ha.cur r hr⟩

/-- STEP_APPLY while the reference is lost (R38): the hub's request waits. -/
theorem stepApply_holds_hub {s : State} (he : s.enabled pcrBase = true) (hp : s.time.refLost = true) :
    Runs .stepApply s (fun t => t.time.hubReq = some (s.fget (F.PCR_STEP_REQ_STEP 28)) ∧
      (t.region 28).want = (s.region 28).want ∧ t.cur 28 = s.cur 28) := by
  refine ⟨_, execStepApply_eq he, ?_⟩
  have hall := applying s 29
  beta_reduce
  rw [State.time_refreshSteps, State.region_refreshSteps, State.cur_refreshSteps _ (by decide), hall.cur 28 (by decide)]
  have h28 := applying s 28
  rw [List.range_succ, List.foldl_append]
  generalize (List.range 28).foldl State.applyOne s = u at h28
  have hhub : [28].foldl State.applyOne u = u.applyOne 28 := rfl
  rw [hhub, State.applyOne_held (h28.refLost.trans hp), h28.req 28 (by decide), State.region_updTime, h28.rest 28 le_rfl]
  exact ⟨rfl, rfl, rfl⟩

theorem stepApply_disabled {s : State} (h : s.enabled pcrBase = false) : Runs .stepApply s (fun t => t = s) :=
  ⟨s, congrArg Host.Outcome.next (if_neg (by simp [h])), rfl⟩

/-- Settles O40: one theorem for each row of the steps, the throttle and the guard. -/
theorem stepsFollowTargets : Obligations.StepsFollowTargets := by
  unfold Obligations.StepsFollowTargets
  exact fun s => ⟨stepApply_runs, stepApply_holds_hub, stepApply_disabled, stepTick_runs s, throttleAssert_runs,
    throttleAssert_again, throttleDeassert_runs s, throttleStuck_runs, thermalGuardTick_runs s⟩

end Sys2Proof.Machine

/-! SUPPORT. Jobs at their stalls (R29 to R43, R303 to R310, R491): JOB_CTL packets, the delivery of a step's window, launch,
suspension and halts. -/

namespace Sys2Proof.Machine

/-! ### JOB_CTL packets at a barn (R307) -/

/-- Taking a control packet concerns the mesh only. -/
theorem State.ctrlTake_frame {s u : State} {p : CPkt → Bool} {c : CPkt} (h : s.ctrlTake p = some (c, u)) :
    u = { s with mesh := u.mesh } := by
  unfold State.ctrlTake at h
  split at h
  · exact absurd h (by simp)
  · split at h
    · simp only [Option.some.injEq, Prod.mk.injEq] at h
      rw [← h.2]
    · exact absurd h (by simp)

/-- A JOB_CTL packet of an action for a barn. -/
def jobCtlFor (b act : Nat) (c : CPkt) : Bool := c.ty = 7 && c.dst = b && bits c.body 102 99 = act

/-- A JOB_CTL packet that has arrived for a barn which its job still owns does what its action says. -/
theorem State.takeJobCtl_owned {s u : State} {b act : Nat} {c : CPkt} {f : State → Nat → Nat → Nat → State}
    (h : s.ctrlTake (jobCtlFor b act) = some (c, u))
    (ho : s.ownsBarn (bits c.body 105 103) b = true) :
    s.takeJobCtl b act f = f u (48 * b + c.stall) (bits c.body 98 93) (bits c.body 63 0) := by
  have hu : u.ownsBarn (bits c.body 105 103) b = true := by rw [State.ctrlTake_frame h]; exact ho
  unfold State.takeJobCtl
  unfold jobCtlFor at h
  rw [h]
  exact if_pos hu

/-- A bit that is not set is set by adding it. -/
theorem bit_add_two_pow {n w : Nat} (h : bit n w = false) : bit (n + 2 ^ w) w = true := by
  rw [bit, Nat.add_comm, Nat.testBit_two_pow_add_eq, ← bit, h]
  rfl

section
variable {s u : State} {b : Barn} {c : CPkt}

theorem jobCtlWindow_takes
    (h : s.ctrlTake (jobCtlFor b 1) = some (c, u))
    (ho : s.ownsBarn (bits c.body 105 103) b = true)
    (hn : bit (s.stall (48 * b.val + c.stall)).nextGot (bits c.body 98 93) = false) :
    Runs (.jobCtlWindow b) s (fun t =>
      let i := 48 * b.val + c.stall
      let w := bits c.body 98 93
      OnlyStall i u t ∧ Tab.get zero64 (t.stall i).nextWindow w = BitVec.ofNat 64 (bits c.body 63 0) ∧
      (∀ n, n ≠ w → Tab.get zero64 (t.stall i).nextWindow n = Tab.get zero64 (s.stall i).nextWindow n) ∧
      bit (t.stall i).nextGot w = true ∧
      (t.stall i).nextShape = (if w = 2 then bits c.body 63 0 % 16 else (s.stall i).nextShape)) := by
  have hst (n : Nat) : u.stall n = s.stall n := by rw [State.ctrlTake_frame h]; rfl
  refine ⟨_, congrArg Host.Outcome.next ((State.takeJobCtl_owned h ho).trans (if_neg ?_)), ?_⟩
  · rw [hst, hn]
    decide
  · simp only [OnlyStall, State.updStall_same, hst, Tab.get_set_same]
    exact ⟨⟨rfl, fun n hne => (u.updStall_other _ hne).trans (hst n)⟩, trivial, fun n hne => Tab.get_set_other _ _ hne, bit_add_two_pow hn, trivial⟩

theorem jobCtlWindow_waits
    (h : s.ctrlTake (jobCtlFor b 1) = some (c, u))
    (ho : s.ownsBarn (bits c.body 105 103) b = true)
    (hn : bit (s.stall (48 * b.val + c.stall)).nextGot (bits c.body 98 93) = true) :
    exec (.jobCtlWindow b) s = .next s := by
  refine congrArg Host.Outcome.next ((State.takeJobCtl_owned h ho).trans (if_pos ?_))
  rw [State.ctrlTake_frame h]
  exact hn

theorem jobCtlBase_takes
    (h : s.ctrlTake (jobCtlFor b 2) = some (c, u))
    (ho : s.ownsBarn (bits c.body 105 103) b = true) :
    exec (.jobCtlBase b) s = .next (u.updStall (48 * b.val + c.stall) (fun t =>
      { t with nextBase := some (bits c.body 63 0) })) :=
  congrArg Host.Outcome.next (State.takeJobCtl_owned h ho)

theorem jobCtlSuspend_stops {r p : Nat}
    (h : s.ctrlTake (jobCtlFor b 3) = some (c, u))
    (hs : (s.srvJob (bits c.body 105 103)).susp = some (r, bits c.body 63 0)) (hp : p = bits c.body 63 0)
    (hr : (s.job (bits c.body 105 103)).phase = .running) :
    Runs (.jobCtlSuspend b) s (fun t => (∃ q, (t.job (bits c.body 105 103)).stop = some q ∧ q ≤ p) ∧
      (∀ k, k ≠ bits c.body 105 103 → t.job k = s.job k) ∧ t = { u with jobs := t.jobs }) := by
  subst hp
  have hjob (k : Nat) : u.job k = s.job k := by rw [State.ctrlTake_frame h]; rfl
  have hsrv : (u.srvJob (bits c.body 105 103)).susp = some (r, bits c.body 63 0) := by rw [State.ctrlTake_frame h]; exact hs
  refine ⟨u.updJob (bits c.body 105 103)
    (fun jb => { jb with stop := some (min (bits c.body 63 0) (jb.stop.getD (bits c.body 63 0))) }), ?_, 
    ⟨min (bits c.body 63 0) ((s.job (bits c.body 105 103)).stop.getD (bits c.body 63 0)), ?_, Nat.min_le_left _ _⟩, ?_, rfl⟩
  · refine congrArg Host.Outcome.next ?_
    unfold jobCtlFor at h
    simp only [h, hsrv, hjob, hr, true_and, if_true]
  · rw [State.updJob_same, hjob]
  · intro k hk
    rw [State.updJob_other _ _ hk, hjob]

theorem jobCtlHalt_halts
    (h : s.ctrlTake (jobCtlFor b 4) = some (c, u))
    (hp : (s.job (bits c.body 105 103)).phase = .halted) :
    exec (.jobCtlHalt b) s = .next (((u.jobStalls (bits c.body 105 103)).filter (fun i => i / 48 = b.val)).foldl
      (fun s i => s.updStall i Stall.halted) u) := by
  have hu : (u.job (bits c.body 105 103)).phase = .halted := by rw [State.ctrlTake_frame h]; exact hp
  refine congrArg Host.Outcome.next ?_
  unfold jobCtlFor at h
  rw [h]
  exact if_pos hu

end

/-! ### The delivery of a window (R303, R308) -/

/-- From `s` to `t` the mesh has taken `n` more control packets, and nothing else has changed. -/
def Sends (n : Nat) (s t : State) : Prop := t = { s with mesh := t.mesh } ∧ t.mesh.ctrl.length = s.mesh.ctrl.length + n

theorem Sends.refl (s : State) : Sends 0 s s := ⟨rfl, rfl⟩

theorem Sends.trans {m n : Nat} {s t u : State} (h : Sends m s t) (k : Sends n t u) : Sends (m + n) s u := by
  obtain ⟨ht, hn⟩ := h
  obtain ⟨hu, hm⟩ := k
  refine ⟨?_, by omega⟩
  rw [hu, ht]

theorem sends_jobCtl (s : State) (j b act k word v : Nat) : Sends 1 s (s.jobCtl j b act k word v) :=
  ⟨rfl, List.length_append⟩

/-- A fold whose every step sends `n` packets sends `n` for each element. -/
theorem sends_foldl {α : Type} {f : State → α → State} {n : Nat} (hf : ∀ t x, Sends n t (f t x)) (l : List α) (s : State) :
    Sends (n * l.length) s (l.foldl f s) := by
  induction l generalizing s with
  | nil => exact Sends.refl s
  | cons x l ih =>
    have h := (hf s x).trans (ih (f s x))
    rwa [Nat.add_comm, ← Nat.mul_succ] at h

/-- The 64 words of a window and the base beat after it go to a stall. -/
def State.sendWindow (j next : Nat) (ws : List Nat) (s : State) (bk : Nat × Nat) : State :=
  ((List.range 64).foldl (fun s w => s.jobCtl j bk.1 1 bk.2 w (ws.getD w 0)) s).jobCtl j bk.1 2 bk.2 0 next

theorem sends_sendWindow (j next : Nat) (ws : List Nat) (s : State) (bk : Nat × Nat) :
    Sends 65 s (s.sendWindow j next ws bk) :=
  (sends_foldl (fun t w => sends_jobCtl t j bk.1 1 bk.2 w _) (List.range 64) s).trans (sends_jobCtl _ j bk.1 2 bk.2 0 next)

theorem State.deliver_resumeJob (s : State) (j : Nat) : ((s.resumeJob j).srvJob j).deliver = (s.srvJob j).deliver := by
  unfold State.resumeJob
  split
  · split
    · simp [State.fset]
    · rfl
  · rfl

@[simp] theorem State.ctr_resumeJob (s : State) (j c : Nat) : (s.resumeJob j).ctr c = s.ctr c := by
  unfold State.resumeJob
  split
  · split <;> rfl
  · rfl

@[simp] theorem State.mesh_resumeJob (s : State) (j : Nat) : (s.resumeJob j).mesh = s.mesh := by
  unfold State.resumeJob
  split
  · split <;> rfl
  · rfl

/-- The registers that tell of a delivered step: the yoke's state of the job, and the step of a device that is not the head. -/
def State.showStepSent (s : State) (j n : Nat) : State :=
  let y := s.fget (F.YOK_JOB_STATE_STATE j)
  let s5 := if y = 5 ∨ y = 6 then s.fset (F.YOK_JOB_STATE_STATE j) 1 else s
  if s5.isHead j then s5 else s5.fset (F.SRV_JOB_STATE_STEP j) (n % 2 ^ 32)

theorem State.showStepSent_frame (s : State) (j n : Nat) :
    s.showStepSent j n = { s with regs := (s.showStepSent j n).regs } := by
  simp only [State.showStepSent]
  split <;> split <;> rfl

theorem State.srvJob_showStepSent (s : State) (j n k : Nat) : (s.showStepSent j n).srvJob k = s.srvJob k := by
  rw [State.showStepSent_frame]
  rfl

/-- The base beat of the step after the next one to deliver (R303). -/
def State.nextBaseBeat (s : State) (j : Nat) : Nat :=
  (s.srvJob j).dbase + s.fget (F.SRV_SHAPE_LEN j (field (s.hubGet (s.descAddr j (s.srvJob j).deliver) 64) 16 1 % 16))

/-- The next step's slot is cleared and its windows go out. -/
def State.sendWindows (s : State) (j : Nat) : State :=
  let s1 := s.setCtr (s.stepKey j (s.srvJob j).deliver) 0
  (s1.stallsOf j).foldl
    (State.sendWindow j (s.nextBaseBeat j) (s.windowOf j (s.srvJob j).deliver (s.srvJob j).dbase)) s1

theorem State.deliverStep_eq (s : State) (j : Nat) : s.deliverStep j =
    ((((s.sendWindows j).updSrv j (fun q => { q with
        deliver := (s.srvJob j).deliver + 1, dbase := s.nextBaseBeat j, resumed := false
        bases := Tab.set zeroNat q.bases (((s.srvJob j).deliver + 1) % 64) (s.nextBaseBeat j) })).updJob j (fun jb =>
      { jb with bounds := (jb.bounds ++ [s.nextBaseBeat j]).drop (jb.bounds.length - 63) })).showStepSent j
        (s.srvJob j).deliver).resumeJob j := rfl

/-- STEP_DESCRIPTOR_ARRIVAL (R303, R308). -/
theorem stepDescriptorArrival_runs {s : State} {j : JobId} (hl : (s.job j).live = true) (hd : (s.job j).haltDue = none)
    (hc : 1 ≤ (s.ctr (s.stepKey j (s.srvJob j).deliver)).val) (hw : s.windowWaits j = false) :
    Runs (.stepDescriptorArrival j) s (fun t =>
      (t.srvJob j).deliver = (s.srvJob j).deliver + 1 ∧ (t.ctr (s.stepKey j (s.srvJob j).deliver)).val = 0 ∧
      (∀ c, c ≠ s.stepKey j (s.srvJob j).deliver → t.ctr c = s.ctr c) ∧
      t.mesh.ctrl.length = s.mesh.ctrl.length + 65 * (s.stallsOf j).length) := by
  obtain ⟨hframe, hlen⟩ : Sends (65 * (s.stallsOf j).length) (s.setCtr (s.stepKey j (s.srvJob j).deliver) 0) (s.sendWindows j) :=
    sends_foldl (sends_sendWindow j _ _) _ _
  have hctr (c : Nat) : (s.deliverStep j).ctr c = (s.setCtr (s.stepKey j (s.srvJob j).deliver) 0).ctr c := by
    rw [State.deliverStep_eq, State.ctr_resumeJob, State.showStepSent_frame, hframe]
    rfl
  refine ⟨s.deliverStep j, congrArg Host.Outcome.next (if_pos (by simp [hl, hd, hc, hw])), ?_, ?_, fun c hne => ?_, ?_⟩
  · rw [State.deliverStep_eq, State.deliver_resumeJob, State.srvJob_showStepSent, State.updJob_to_srvJob, State.updSrv_same]
  · rw [hctr, State.setCtr, State.updCtr_same]
  · rw [hctr, State.setCtr, State.updCtr_other _ _ hne]
  · rw [State.deliverStep_eq, State.mesh_resumeJob, State.showStepSent_frame]
    exact hlen

/-! ### Launch (R42, R43, R66) -/

/-- Of the stalls only the due beats of their engines have changed, and nothing else. -/
def OnlyDue (s t : State) : Prop := t = { s with stalls := t.stalls } ∧ ∀ i, t.stall i = { s.stall i with due := (t.stall i).due }

theorem OnlyDue.launched {s t : State} (h : OnlyDue s t) (i base : Nat) : OnlyDue s (t.updStall i (Stall.launched base)) := by
  obtain ⟨hs, hd⟩ := h
  refine ⟨by rw [State.updStall, hs], fun n => ?_⟩
  by_cases hn : n = i
  · subst hn
    rw [State.updStall_same, hd n]
    rfl
  · rw [State.updStall_other _ _ hn]
    exact hd n

theorem onlyDue_launchStalls (s : State) (j : Nat) : OnlyDue s (s.launchStalls j) :=
  foldl_keeps (P := OnlyDue s) _ ⟨rfl, fun _ => rfl⟩ fun _ _ _ ht =>
    foldl_keeps (P := OnlyDue s) _ ht fun _ _ _ hu => hu.launched _ _

/-- LAUNCH_TIME_REACHED (R42, R43). -/
theorem launchTimeReached_runs {s : State} {j : JobId} (hp : (s.job j).phase = .ready) (hl : (s.job j).launchPending = true)
    (ht : (s.infoOf j).launch ≤ s.nowNs) : Runs (.launchTimeReached j) s (fun t =>
      (t.job j).phase = .running ∧ (t.job j).origin = s.beat 28 + 32 ∧
      (t.job j).start = (s.infoOf j).beat ∧ (t.job j).launchPending = false ∧
      (t.job j).stop = (s.srvJob j).susp.map Prod.snd ∧ (∀ k, k ≠ j.val → t.job k = s.job k) ∧
      t.regs = (s.fset (F.SRV_JOB_STATE_STATE j) 1).regs ∧ (∀ i, t.stall i = { s.stall i with due := (t.stall i).due }) ∧
      t = { s with jobs := t.jobs, regs := t.regs, stalls := t.stalls }) := by
  obtain ⟨hs, hd⟩ := onlyDue_launchStalls s j
  refine ⟨s.launch j, congrArg Host.Outcome.next (if_pos ⟨hp, hl, ht⟩), ?_⟩
  have hjob : (s.launch j).job j = { s.job j with
      phase := .running, launchPending := false, stop := (s.srvJob j).susp.map Prod.snd, origin := s.beat 28 + 32
      start := (s.infoOf j).beat } := by
    rw [State.launch, State.fset, State.setReg_to_job, State.updJob_same, hs]
    rfl
  refine ⟨?_, ?_, ?_, ?_, ?_, fun k hk => ?_, ?_, hd, ?_⟩
  · rw [hjob]
  · rw [hjob]
  · rw [hjob]
  · rw [hjob]
  · rw [hjob]
  · rw [State.launch, State.fset, State.setReg_to_job, State.updJob_other _ _ hk, hs]
    rfl
  · rw [State.launch, hs]
    rfl
  · rw [State.launch, hs]
    rfl

/-! ### Suspension (R29, R30, R305) -/

theorem listed_srvJobState (j : JobId) : (F.SRV_JOB_STATE_STATE j).Listed :=
  Fld.listed_of_row .srv 0 0x340 8 8 j (by decide) j.isLt (by decide) (by simp only [R.SRV_JOB_STATE, Blk.base, Blk.base0, Blk.stride])

/-- F goes on from job beat `p` in the lofts of the job's barns (R154). -/
def State.pauseLofts (s : State) (j p : Nat) : State :=
  (s.job j).barns.foldl (fun u n =>
    u.updLoft n (fun l => { l with fVal := p, fMark := (s.job j).origin + (p - (s.job j).start) })) s

theorem State.pauseLofts_frame (s : State) (j p : Nat) : s.pauseLofts j p = { s with lofts := (s.pauseLofts j p).lofts } :=
  foldl_keeps (P := fun t : State => t = { s with lofts := t.lofts }) _ rfl fun t n _ ht => by rw [State.updLoft, ht]

/-- The job is suspended at job beat `p`. -/
def State.suspended (s : State) (j reason p : Nat) : State :=
  (((s.pauseLofts j p).updJob j (fun jb => { jb with phase := .suspended, stop := some p })).fset (F.SRV_JOB_STATE_STATE j) 2).fset
    (F.SRV_JOB_STATE_REASON j) reason

theorem execSuspendBeat_eq {s : State} {j : JobId} {r p : Nat} (hs : (s.srvJob j).susp = some (r, p))
    (hp : (s.job j).phase = .running) (ha : s.allReached j p = true) (hd : (s.job j).haltDue = none) :
    execSuspendBeat j s = .next (if r = 6 ∧ (s.suspended j r p).fget (F.YOK_JOB_STATE_STATE j) = 5 then
      (s.suspended j r p).cutoverStart j p else s.suspended j r p) := by
  have hyok : (s.suspended j r p).fget (F.YOK_JOB_STATE_STATE j) = s.fget (F.YOK_JOB_STATE_STATE j) := by
    have hne : R.YOK_JOB_STATE j ≠ R.SRV_JOB_STATE j := by simp only [R.YOK_JOB_STATE, R.SRV_JOB_STATE]; omega
    rw [State.suspended, State.fget_fset_other _ _ hne, State.fget_fset_other _ _ hne, State.pauseLofts_frame]
    rfl
  rw [hyok]
  unfold execSuspendBeat
  rw [hs]
  exact congrArg Host.Outcome.next (if_pos (by simp [hp, ha, hd]))

theorem State.suspended_frame (s : State) (j r p : Nat) : s.suspended j r p =
    { s with jobs := (s.suspended j r p).jobs, regs := (s.suspended j r p).regs, lofts := (s.suspended j r p).lofts } := by
  rw [State.suspended, State.pauseLofts_frame]
  rfl

theorem State.job_suspended (s : State) (j r p k : Nat) :
    (s.suspended j r p).job k = (s.updJob j (fun jb => { jb with phase := .suspended, stop := some p })).job k := by
  rw [State.suspended, State.pauseLofts_frame]
  rfl

theorem State.srvState_suspended (s : State) (j : JobId) (r p : Nat) : (s.suspended j r p).fget (F.SRV_JOB_STATE_STATE j) = 2 := by
  have hl := listed_srvJobState j
  have hApart : (F.SRV_JOB_STATE_STATE j).Apart (F.SRV_JOB_STATE_REASON j) := .inr ⟨Nat.succ_pos 3, .inl (Nat.le_refl 4)⟩
  rw [State.suspended, State.fget_fset_apart _ _ hl hApart, State.fget_fset_same _ _ hl]
  rfl

theorem State.job_cutoverStart (s : State) (j p k : Nat) : (s.cutoverStart j p).job k = s.job k := by
  rw [State.cutoverStart, State.updYok_to_job, State.fset, State.setReg_to_job]

/-- SUSPEND_BEAT (R29, R30, R305). -/
theorem suspendBeat_runs {s : State} {j : JobId} {r p : Nat} (hs : (s.srvJob j).susp = some (r, p))
    (hp : (s.job j).phase = .running) (ha : s.allReached j p = true) (hd : (s.job j).haltDue = none) :
    Runs (.suspendBeat j) s (fun t =>
      (t.job j).phase = .suspended ∧ (t.job j).stop = some p ∧ (∀ k, k ≠ j.val → t.job k = s.job k) ∧
      (r ≠ 6 → t.fget (F.SRV_JOB_STATE_STATE j) = 2 ∧ t = { s with jobs := t.jobs, regs := t.regs, lofts := t.lofts })) := by
  have hjob (k : Nat) := s.job_suspended j r p k
  have hframe := s.suspended_frame j r p
  have hst := s.srvState_suspended j r p
  refine ⟨_, execSuspendBeat_eq hs hp ha hd, ?_⟩
  generalize s.suspended j r p = u at hjob hframe hst ⊢
  have hcut (k : Nat) : (if r = 6 ∧ u.fget (F.YOK_JOB_STATE_STATE j) = 5 then u.cutoverStart j p else u).job k =
      (s.updJob j (fun jb => { jb with phase := .suspended, stop := some p })).job k := by
    rw [← hjob]
    split
    · exact u.job_cutoverStart j p k
    · rfl
  rw [hcut, State.updJob_same]
  refine ⟨rfl, rfl, fun k hk => by rw [hcut, State.updJob_other _ _ hk], fun hr => ?_⟩
  rw [if_neg (fun h => hr h.1)]
  exact ⟨hst, hframe⟩

/-! ### Halts (R31, R491) -/

/-- A stall without its commands that have gone. -/
def Stall.dropped (ords : List Nat) (t : Stall) : Stall :=
  { t with flights := t.flights.filter (fun f => !f.gone), passes := t.passes.filter (fun p => !ords.contains p.ord) }

/-- Only the stall changes, and the notes of mismatches. -/
theorem State.dropGone_eq (s : State) (i : Nat) : s.dropGone i = s ∨
    ∃ ords m, s.dropGone i = { s.updStall i (Stall.dropped ords) with mism := m } := by
  simp only [State.dropGone]
  split
  · exact .inl rfl
  · exact .inr ⟨_, _, rfl⟩

/-- A command that has gone leaves its stall; the stall's state and queues stay, and so does all but stalls and notes. -/
theorem State.dropGone_frame (s : State) (i : Nat) :
    s.dropGone i = { s with stalls := (s.dropGone i).stalls, mism := (s.dropGone i).mism } := by
  obtain h | ⟨ords, m, h⟩ := s.dropGone_eq i <;> rw [h]
  rfl

theorem State.stall_withMism (s : State) (m : List Nat) (n : Nat) : ({ s with mism := m } : State).stall n = s.stall n := rfl

theorem State.stall_dropGone_other (s : State) {i n : Nat} (h : n ≠ i) : (s.dropGone i).stall n = s.stall n := by
  obtain hd | ⟨ords, m, hd⟩ := s.dropGone_eq i <;> rw [hd]
  rw [State.stall_withMism, State.updStall_other _ _ h]

theorem State.stall_dropGone_same (s : State) (i : Nat) :
    ((s.dropGone i).stall i).st = (s.stall i).st ∧ ((s.dropGone i).stall i).queues = (s.stall i).queues := by
  obtain hd | ⟨ords, m, hd⟩ := s.dropGone_eq i <;> rw [hd]
  · exact ⟨rfl, rfl⟩
  · rw [State.stall_withMism, State.updStall_same]
    exact ⟨rfl, rfl⟩

/-- A stall of a job that halts, at the end of a beat (R93). -/
def State.haltStall (s : State) (i : Nat) : State := (s.updStall i Stall.halted).dropGone i

theorem State.haltStall_frame (s : State) (i : Nat) :
    s.haltStall i = { s with stalls := (s.haltStall i).stalls, mism := (s.haltStall i).mism } := by
  rw [State.haltStall, State.dropGone_frame]
  rfl

theorem State.stall_haltStall_other (s : State) {i n : Nat} (h : n ≠ i) : (s.haltStall i).stall n = s.stall n := by
  rw [State.haltStall, State.stall_dropGone_other _ h, State.updStall_other _ _ h]

/-- A stall that has halted: no command is queued. -/
def Stall.Stopped (t : Stall) : Prop := t.st = .halted ∧ t.queues = []

theorem State.stopped_haltStall (s : State) (i : Nat) : ((s.haltStall i).stall i).Stopped := by
  obtain ⟨hst, hq⟩ := (s.updStall i Stall.halted).stall_dropGone_same i
  rw [State.updStall_same] at hst hq
  exact ⟨hst, hq⟩

theorem foldl_haltStall (l : List Nat) (s : State) : (l.foldl State.haltStall s).jobs = s.jobs ∧
    (∀ i, i ∉ l → (l.foldl State.haltStall s).stall i = s.stall i) ∧ ∀ i ∈ l, ((l.foldl State.haltStall s).stall i).Stopped := by
  induction l generalizing s with
  | nil => exact ⟨rfl, fun _ _ => rfl, fun _ h => absurd h List.not_mem_nil⟩
  | cons x l ih =>
    obtain ⟨hjobs, hrest, hstop⟩ := ih (s.haltStall x)
    refine ⟨hjobs.trans (by rw [State.haltStall_frame]), fun i hi => ?_, fun i hi => ?_⟩
    · rw [List.mem_cons, not_or] at hi
      exact (hrest i hi.2).trans (s.stall_haltStall_other hi.1)
    · by_cases hl : i ∈ l
      · exact hstop i hl
      · obtain rfl : i = x := (List.mem_cons.1 hi).resolve_right hl
        rw [List.foldl_cons, hrest i hl]
        exact s.stopped_haltStall i

theorem State.countStarved_frame (s : State) (c : HoldCause) : s.countStarved c = { s with regs := (s.countStarved c).regs } := by
  unfold State.countStarved
  split <;> rfl

theorem State.clearCauses_frame (s : State) (r : Nat) (p : HoldCause → Bool) :
    s.clearCauses r p = { s with regs := (s.clearCauses r p).regs, regions := (s.clearCauses r p).regions } := by
  have hfold : ∀ (l : List HoldCause) (u : State), l.foldl State.countStarved u = { u with regs := (l.foldl State.countStarved u).regs } :=
    fun l u => foldl_keeps (P := fun t : State => t = { u with regs := t.regs }) l rfl fun t c _ ht => by
      rw [State.countStarved_frame, ht]
  rw [State.clearCauses, hfold]
  rfl

theorem State.haltRegion_eq (s : State) (j r b : Nat) : s.haltRegion j r b =
    (let s1 := ((s.jobStalls j).filter (fun i => i / 48 = r)).foldl State.haltStall s
     let s2 := { s1 with acts := s1.acts.filter (fun a => a.job ≠ j || a.reg ≠ r || a.goesOn) }
     (if r < 24 then s2.updLoft r (Loft.halted b) else s2).clearCauses r (fun c => c.job = some j)) := rfl

/-- Of jobs and stalls, a halt in a region changes the job's stalls there. -/
theorem State.haltRegion_stalls (s : State) (j r b : Nat) : (s.haltRegion j r b).jobs = s.jobs ∧
    (∀ i, i / 48 ≠ r → (s.haltRegion j r b).stall i = s.stall i) ∧
    ∀ i ∈ s.jobStalls j, i / 48 = r → ((s.haltRegion j r b).stall i).Stopped := by
  obtain ⟨hjobs, hrest, hstop⟩ := foldl_haltStall ((s.jobStalls j).filter (fun i => i / 48 = r)) s
  rw [State.haltRegion_eq]
  generalize ((s.jobStalls j).filter (fun i => i / 48 = r)).foldl State.haltStall s = u at hjobs hrest hstop ⊢
  dsimp only
  rw [State.clearCauses_frame]
  have hstall (n : Nat) : State.stall (if r < 24 then
      ({ u with acts := u.acts.filter (fun a => a.job ≠ j || a.reg ≠ r || a.goesOn) } : State).updLoft r (Loft.halted b)
      else { u with acts := u.acts.filter (fun a => a.job ≠ j || a.reg ≠ r || a.goesOn) }) n = u.stall n := by
    split <;> rfl
  refine ⟨?_, fun i hi => (hstall i).trans (hrest i (by simp [hi])), fun i hi hr => ?_⟩
  · rw [← hjobs]
    split <;> rfl
  · have h := hstop i (by simp [hi, hr])
    rw [← hstall i] at h
    exact h

theorem jobHaltBoundary_hub {s : State} {j : JobId} {code p : Nat} (hd : (s.job j).haltDue = some (code, p))
    (ha : s.allReached j p = true) : exec (.jobHaltBoundary j 28) s = .next (s.haltNow j code) := by
  refine congrArg Host.Outcome.next ?_
  rw [hd]
  exact if_pos ha

theorem jobHaltBoundary_barn {s : State} {j : JobId} {code p : Nat} (hd : (s.job j).haltDue = some (code, p)) {r : RegionId}
    (hr : r.val < 24) (hb : (s.job j).barns.contains r.val = true) (hp : p ≤ s.jobBeatRaw j r) :
    Runs (.jobHaltBoundary j r) s (fun t => (∀ i, i / 48 ≠ r.val → t.stall i = s.stall i) ∧
      (∀ i ∈ s.jobStalls j, i / 48 = r.val → (t.stall i).st = .halted ∧ (t.stall i).queues = []) ∧ t.job j = s.job j) := by
  obtain ⟨hjobs, hrest, hstop⟩ := s.haltRegion_stalls j r (s.beat r)
  refine ⟨s.haltRegion j r (s.beat r), congrArg Host.Outcome.next ?_, hrest, hstop, by rw [State.job, hjobs, State.job]⟩
  rw [hd]
  dsimp only
  rw [if_neg (by omega), if_pos ⟨hb, hp⟩]

/-- Settles O34: one theorem for each row of the relay, the stalls and the job's regions. -/
theorem jobControlCompletes : Obligations.JobControlCompletes := by
  unfold Obligations.JobControlCompletes
  intro s
  refine ⟨fun b => ⟨fun c u h ho => ⟨jobCtlWindow_takes h ho, jobCtlWindow_waits h ho⟩, fun c u => jobCtlBase_takes,
    fun c u r h hs hp => jobCtlSuspend_stops h hs rfl hp, fun c u => jobCtlHalt_halts⟩,
    fun j => ⟨stepDescriptorArrival_runs, launchTimeReached_runs, fun r p => suspendBeat_runs, fun code p hd =>
      ⟨jobHaltBoundary_hub hd, fun r => jobHaltBoundary_barn hd⟩⟩⟩

end Sys2Proof.Machine

/-! SUPPORT. The loss of the reference takes ports down, and with them routes and jobs (R38, R264, R266): a state in which the
halt of a job writes the status of station time. -/

namespace Sys2Proof.Machine

/-- The reference is there and port 1 is ACTIVE. It is the port of the route to the only peer of running job 0, and a cause of
starvation that belongs to the job stands in region 0. The stall that the cause names has the index 48 × 48 + 38, and the starved
periods of such a stall would be counted at the address of PCR_TIME_STATUS. -/
def starvedAtStatus : State :=
  (({ regions := [(0, { causes := [⟨2, some 0, 48 * 48 + 38, 0, 0, 0, 0⟩] })]
      jobs := [(0, { phase := .running })]
      fab := { routes := [(0, 1)], peers := [(0, 1)] } } : State).fset F.PCR_TIME_STATUS_REF_PRESENT 1).fset
    (F.LNK_PORT_STATE_STATE 0 1) 5

/-- The STATE that the status shows in the state that an outcome answers. -/
def shownState : Res → Nat
  | .next t => t.timeState
  | _ => 0

/-- REF_HOLDOVER, which is 3, has become 4 by the starved period that the halt counts. -/
theorem shownState_refclkLost_starvedAtStatus : shownState (exec .refclkLost starvedAtStatus) = 4 := by decide +kernel

/-- Refutes O41: the clause on REFCLK_LOST. The port that goes down halts job 0 for its lost route, the halt releases the cause
of starvation and counts one period more, and the count of stall 48 × 48 + 38 stands in PCR_TIME_STATUS. -/
theorem not_timeCompletes : ¬ Obligations.TimeCompletes := by
  unfold Obligations.TimeCompletes
  intro h
  obtain ⟨-, -, hlost, -⟩ := h starvedAtStatus
  obtain ⟨t, ht, -, hstate, -⟩ := hlost (by decide +kernel)
  have hshown := shownState_refclkLost_starvedAtStatus
  rw [ht] at hshown
  exact absurd (hstate.symm.trans hshown) (by decide)

end Sys2Proof.Machine

/-! SUPPORT. Holds and their regions (R23 to R31): what a raised error and the halts that follow leave of the pacing regions, and
that the work of a beat leaves the regions' pacer periods alone. -/

namespace Sys2Proof.Machine

/-! ### Operations that leave regions, jobs and errors alone -/

/-- The pacing regions, the jobs and the errors under way. -/
def State.pacing (s : State) : Tab Region × Tab Job × ErrSt := (s.regions, s.jobs, s.err)

/-- An update of other fields. -/
@[simp] theorem State.pacing_mk {u : State} {pending regs fused mask cfgRef time stalls barns ctrs lofts mesh acts mism links fab srv prefix_ yok host rings copies loads info sec tck rep out freeCtr} :
    (State.mk pending regs fused mask cfgRef time u.regions u.err stalls barns ctrs u.jobs lofts mesh acts mism links fab srv prefix_
      yok host rings copies loads info sec tck rep out freeCtr).pacing = u.pacing := (rfl)

@[simp] theorem State.pacing_ite (c : Prop) [Decidable c] (s t : State) : (if c then s else t).pacing = if c then s.pacing else t.pacing :=
  apply_ite State.pacing c s t

theorem State.pacing_foldl {α : Type} {f : State → α → State} (hf : ∀ t x, (f t x).pacing = t.pacing) (l : List α) (s : State) :
    (l.foldl f s).pacing = s.pacing := by
  induction l generalizing s with
  | nil => rfl
  | cons x l ih => exact (ih (f s x)).trans (hf s x)

section
variable (s : State)

@[simp] theorem State.pacing_setReg (a v : Nat) : (s.setReg a v).pacing = s.pacing := (rfl)
@[simp] theorem State.pacing_fset (f : Fld) (v : Nat) : (s.fset f v).pacing = s.pacing := (rfl)
@[simp] theorem State.pacing_fwrap (f : Fld) (k : Nat) : (s.fwrap f k).pacing = s.pacing := (rfl)
@[simp] theorem State.pacing_fsat (f : Fld) (k : Nat) : (s.fsat f k).pacing = s.pacing := (rfl)
@[simp] theorem State.pacing_send (o : Out) : (s.send o).pacing = s.pacing := (rfl)
@[simp] theorem State.pacing_updStall (i : Nat) (f : Stall → Stall) : (s.updStall i f).pacing = s.pacing := (rfl)
@[simp] theorem State.pacing_updLoft (n : Nat) (f : Loft → Loft) : (s.updLoft n f).pacing = s.pacing := (rfl)
@[simp] theorem State.pacing_updLink (p : Nat) (f : Link → Link) : (s.updLink p f).pacing = s.pacing := (rfl)
@[simp] theorem State.pacing_updSrv (j : Nat) (f : SrvJob → SrvJob) : (s.updSrv j f).pacing = s.pacing := (rfl)
@[simp] theorem State.pacing_updHst (p : Nat) (f : HostSt → HostSt) : (s.updHst p f).pacing = s.pacing := (rfl)
@[simp] theorem State.pacing_updFab (f : FabSt → FabSt) : (s.updFab f).pacing = s.pacing := (rfl)

@[simp] theorem State.pacing_trace (src r : Nat) (job : Option Nat) (data : Nat) : (s.trace src r job data).pacing = s.pacing := by
  rw [State.trace_frame]
  rfl

@[simp] theorem State.pacing_showHold (r : Nat) : (s.showHold r).pacing = s.pacing := by simp only [State.showHold, State.fsetB, State.pacing_fset]

@[simp] theorem State.pacing_hostWrite (p a : Nat) (bs : List Byte) : (s.hostWrite p a bs).pacing = s.pacing := by simp only [State.hostWrite, State.pacing_ite, State.pacing_setReg, State.pacing_send, ite_self]

@[simp] theorem State.pacing_fireVec (p fn v : Nat) : (s.fireVec p fn v).pacing = s.pacing := by simp only [State.fireVec, State.pacing_ite, State.pacing_updHst, State.pacing_send, ite_self]

@[simp] theorem State.pacing_writeCpl (r : Ring) (c : CplRec) : (s.writeCpl r c).pacing = s.pacing := by
  rw [State.writeCpl, State.pacing_hostWrite]
  split <;> simp

@[simp] theorem State.pacing_flushCpl (j : Nat) : (s.flushCpl j).pacing = s.pacing := by
  simp only [State.flushCpl, State.pacing_ite, State.pacing_fireVec, State.pacing_fset, State.pacing_hostWrite, State.pacing_updSrv]
  rw [State.pacing_foldl (fun t c => t.pacing_writeCpl _ c), ite_self, ite_self]

@[simp] theorem State.pacing_pushCpl (j : Nat) (c : CplRec) : (s.pushCpl j c).pacing = s.pacing := by rw [State.pushCpl, State.pacing_flushCpl, State.pacing_updSrv]

@[simp] theorem State.pacing_setPort (p st : Nat) : (s.setPort p st).pacing = s.pacing := by rw [State.setPort, State.pacing_trace, State.pacing_updLink, State.pacing_fset]

@[simp] theorem State.pacing_sendBypass (p : Nat) (m : BitVec 128) : (s.sendBypass p m).pacing = s.pacing := by simp only [State.sendBypass, State.pacing_ite, State.pacing_updLink, ite_self]

@[simp] theorem State.pacing_handOver (j : Nat) (dest : FDest) (edge : Nat) (h : FabHdr) (lines : List Line) (plan : Option Nat) :
    (s.handOver j dest edge h lines plan).pacing = s.pacing := by simp only [State.handOver, State.updOut, State.pacing_updFab]

@[simp] theorem State.pacing_abortRx (p v : Nat) : (s.abortRx p v).pacing = s.pacing :=
  (State.pacing_updLink _ _ _).trans (State.pacing_foldl (fun t _ =>
    State.pacing_foldl (fun _ _ => (State.pacing_fsat _ _ _).trans (State.pacing_updLink _ _ _)) _ t) _ s)

@[simp] theorem State.pacing_markRoutes (p : Nat) : (s.markRoutes p).2.pacing = s.pacing := by rw [State.markRoutes, State.pacing_fwrap, State.pacing_updFab]

@[simp] theorem State.pacing_sendNotices (p origin : Nat) (ms : List (Nat × Nat)) : (s.sendNotices p origin ms).pacing = s.pacing := by
  rw [State.sendNotices, State.pacing_ite]
  refine ite_eq_left_iff.2 fun _ => State.pacing_foldl (fun t _ => State.pacing_foldl (fun u q => ?_) _ t) _ s
  rw [State.pacing_fwrap, State.pacing_sendBypass]

@[simp] theorem State.pacing_linkNotice (p : Nat) : (s.linkNotice p).pacing = s.pacing := by
  simp only [State.linkNotice, State.putFlit, State.emit, State.pacing_ite, State.pacing_fwrap, State.pacing_updLink, State.pacing_send, ite_self]

end

/-! ### Records of errors (R409) -/

/-- Regions, jobs and the fatal state are as they were; records may have been added to those under way. -/
structure Notes (s t : State) : Prop where
  regions : t.regions = s.regions
  jobs : t.jobs = s.jobs
  fatal : t.err.fatal = s.err.fatal
  flight : s.err.flight <+: t.err.flight

theorem Notes.of_pacing {s t : State} (h : t.pacing = s.pacing) : Notes s t := by
  obtain ⟨hr, hj, he⟩ : t.regions = s.regions ∧ t.jobs = s.jobs ∧ t.err = s.err := by
    simpa only [State.pacing, Prod.mk.injEq] using h
  exact ⟨hr, hj, by rw [he], by rw [he]⟩

theorem Notes.refl (s : State) : Notes s s := .of_pacing rfl

theorem Notes.trans {s t u : State} (h : Notes s t) (k : Notes t u) : Notes s u :=
  ⟨k.regions.trans h.regions, k.jobs.trans h.jobs, k.fatal.trans h.fatal, h.flight.trans k.flight⟩

theorem Notes.ite {z s t : State} {c : Prop} [Decidable c] (h : Notes z s) (k : Notes z t) : Notes z (if c then s else t) := by
  split
  · exact h
  · exact k

theorem State.notes_raiseRec (s : State) (e : Err) : Notes s (s.raiseRec e) := by
  have hfatal : (s.raiseRec e).err.fatal = s.err.fatal := by
    simp only [State.raiseRec]
    split <;> rfl
  have hflight := s.flight_raiseRec e
  have hframe := s.raiseRec_frame e
  generalize s.raiseRec e = t at hfatal hflight hframe ⊢
  exact ⟨by rw [hframe], by rw [hframe], hfatal, ⟨_, hflight.symm⟩⟩

theorem State.notes_tryOriginate (s : State) (j : Nat) (dest : FDest) (h : FabHdr) (lines : List Line) (plan : Option Nat) :
    Notes s (s.tryOriginate j dest h lines plan).1 := by
  unfold State.tryOriginate
  split
  · exact .refl s
  · split
    · exact s.notes_raiseRec _
    · exact .of_pacing (s.pacing_handOver ..)

theorem State.notes_haltControl (s : State) (j : Nat) (dest : FDest) (sub : Nat) (body : List Byte) :
    Notes s (s.haltControl j dest sub body) := s.notes_tryOriginate ..

theorem State.notes_headHalt (s : State) (j code : Nat) : Notes s (s.headHalt j code) := by
  unfold State.headHalt
  refine .ite (.refl s) ?_
  have hsent := foldl_keeps (P := Notes s) (f := fun s d => s.haltControl j (.dev d) 0x11 (leBytes 2 code)) (s.others j) (.refl s)
    fun t d _ ht => ht.trans (t.notes_haltControl ..)
  refine hsent.trans (.of_pacing ?_)
  rw [State.pacing_fset, State.pacing_fset, State.pacing_updSrv]
  exact State.pacing_foldl (fun t e => t.pacing_pushCpl ..) _ _

theorem State.notes_haltSends (s : State) (j code : Nat) : Notes s (s.haltSends j code) := by
  have hyoke : Notes s (if (s.fset (F.SRV_JOB_STATE_STATE j) 3).fbit (F.YOK_JOB_CFG_YOKED j) ∧
      (s.fset (F.SRV_JOB_STATE_STATE j) 3).fget (F.YOK_JOB_STATE_STATE j) ≠ 0 then
      (s.fset (F.SRV_JOB_STATE_STATE j) 3).haltControl j .yoke 0x1C (leBytes 2 code) else s.fset (F.SRV_JOB_STATE_STATE j) 3) :=
    .ite (.trans (.of_pacing (s.pacing_fset ..)) (State.notes_haltControl ..)) (.of_pacing (s.pacing_fset ..))
  exact hyoke.trans (.ite (State.notes_headHalt ..) (.ite (.refl _) (State.notes_haltControl ..)))

theorem State.notes_linkDown (s : State) (p cause : Nat) : Notes s (s.linkDown p cause).2 := by
  unfold State.linkDown
  extract_lets n s1 s2 s3 f s4 y m s5
  have hdown : Notes s s4 := by
    refine .trans (t := s1) (s.notes_raiseRec _) (.of_pacing ?_)
    rw [State.pacing_setReg, State.pacing_setPort, State.pacing_updLink]
    exact State.pacing_foldl (fun t v => t.pacing_abortRx p v) _ _
  have hmark : Notes s m.2 := hdown.trans (.of_pacing (s4.pacing_markRoutes p))
  split
  · exact hdown.trans (.of_pacing State.pacing_mk)
  · split
    · exact hmark
    · exact (hmark.trans (m.2.notes_raiseRec _)).trans (.of_pacing (s5.pacing_sendNotices ..))

theorem State.notes_linkDownOpen (s : State) (p : Nat) : Notes s (s.linkDownOpen p).2 :=
  .trans (.of_pacing State.pacing_mk) (State.notes_linkDown ..)

/-! ### Halts and raised errors (R31, R411, R413) -/

/-- A region has lost causes of its hold, and nothing else has changed in it. -/
def Region.Released (g h : Region) : Prop := h = { g with causes := h.causes } ∧ h.causes ⊆ g.causes

theorem Region.Released.refl (g : Region) : g.Released g := ⟨rfl, List.Subset.refl _⟩

theorem Region.Released.trans {g h k : Region} (a : g.Released h) (b : h.Released k) : g.Released k := by
  obtain ⟨hg, hs⟩ := a
  obtain ⟨hk, ks⟩ := b
  refine ⟨?_, List.Subset.trans ks hs⟩
  rw [hk, hg]

/-- What an error and its halts do: regions lose causes, a fatal device stays fatal, and records are added. -/
structure Calm (s t : State) : Prop where
  region : ∀ q, (s.region q).Released (t.region q)
  fatal : s.err.fatal = true → t.err.fatal = true
  flight : s.err.flight <+: t.err.flight

theorem Calm.refl (s : State) : Calm s s := ⟨fun _ => .refl _, id, List.prefix_refl _⟩

theorem Calm.trans {s t u : State} (h : Calm s t) (k : Calm t u) : Calm s u :=
  ⟨fun q => (h.region q).trans (k.region q), fun f => k.fatal (h.fatal f), h.flight.trans k.flight⟩

theorem Calm.ite {z s t : State} {c : Prop} [Decidable c] (h : Calm z s) (k : Calm z t) : Calm z (if c then s else t) := by
  split
  · exact h
  · exact k

theorem Notes.calm {s t : State} (h : Notes s t) : Calm s t :=
  ⟨fun q => by rw [State.region, State.region, h.regions]; exact .refl _, fun f => h.fatal.trans f, h.flight⟩

theorem Calm.of_pacing {s t : State} (h : t.pacing = s.pacing) : Calm s t := (Notes.of_pacing h).calm

theorem calm_foldl {α : Type} {f : State → α → State} (hf : ∀ t x, Calm t (f t x)) (l : List α) (s : State) : Calm s (l.foldl f s) :=
  foldl_keeps (P := Calm s) l (.refl s) fun t x _ ht => ht.trans (hf t x)

theorem State.calm_clearCauses (s : State) (r : Nat) (p : HoldCause → Bool) : Calm s (s.clearCauses r p) := by
  have hdrop : Calm s (s.updRegion r (fun g => { g with causes := g.causes.filter (fun c => !p c) })) := by
    refine ⟨fun q => ?_, id, List.prefix_refl _⟩
    by_cases hq : q = r
    · subst hq
      rw [State.updRegion_same]
      exact ⟨rfl, List.filter_subset_self _⟩
    · rw [State.updRegion_other _ _ hq]
      exact .refl _
  refine hdrop.trans (.of_pacing ?_)
  rw [State.clearCauses, State.pacing_showHold]
  refine State.pacing_foldl (fun t c => ?_) _ _
  rw [State.countStarved, State.pacing_ite, State.pacing_fsat, ite_self]

theorem State.calm_clearCausesAll (s : State) (p : HoldCause → Bool) : Calm s (s.clearCausesAll p) :=
  calm_foldl (fun t r => .ite (t.calm_clearCauses r p) (.refl t)) _ s

theorem State.calm_haltStalls (s : State) (j : Nat) : Calm s (s.haltStalls j) := by
  refine .trans ?_ (State.calm_clearCausesAll ..)
  have hjob (f : Job → Job) : Calm s (s.updJob j f) := ⟨fun _ => .refl _, id, List.prefix_refl _⟩
  exact (hjob _).trans ((calm_foldl (fun t i => .of_pacing (t.pacing_updStall i _)) _ _).trans
    (calm_foldl (fun t n => .ite (.of_pacing (t.pacing_updLoft n _)) (.refl t)) _ _))

theorem State.calm_haltNow (s : State) (j code : Nat) : Calm s (s.haltNow j code) :=
  .ite ((s.calm_haltStalls j).trans (State.notes_haltSends ..).calm) (.refl s)

theorem State.calm_haltBoundary (s : State) (j code r : Nat) : Calm s (s.haltBoundary j code r) := by
  unfold State.haltBoundary
  refine .ite ?_ (.refl s)
  split
  · exact s.calm_haltNow j code
  · exact .ite (.refl s) ⟨fun _ => .refl _, id, List.prefix_refl _⟩

/-- The ports that are up go down (R413). -/
theorem State.calm_deviceFatal (s : State) (code : Nat) : Calm s (s.deviceFatal code) ∧ (s.deviceFatal code).err.fatal = true := by
  have hfatal : Calm s { s with err := { s.err with fatal := true } } := ⟨fun _ => .refl _, fun _ => rfl, List.prefix_refl _⟩
  have hdown : Calm { s with err := { s.err with fatal := true } } (s.deviceFatal code) :=
    (calm_foldl (fun t j => t.calm_haltNow j code) _ _).trans
      (calm_foldl (fun t p => .trans (.of_pacing (t.pacing_linkNotice p)) (State.notes_linkDownOpen ..).calm) _ _)
  exact ⟨hfatal.trans hdown, hdown.fatal rfl⟩

theorem State.calm_raise (s : State) (e : Err) : Calm s (s.raise e) := by
  have hrec : Calm s (s.raiseRec e) := (s.notes_raiseRec e).calm
  unfold State.raise
  refine .ite (.ite hrec (hrec.trans (State.calm_deviceFatal ..).1)) (.ite (.ite ?_ ?_) hrec)
  · exact hrec.trans (calm_foldl (fun t j => t.calm_haltBoundary ..) _ _)
  · split
    · exact hrec.trans (calm_foldl (fun t j => t.calm_haltNow ..) _ _)
    · exact hrec.trans (calm_foldl (fun t j => t.calm_haltBoundary ..) _ _)
    · exact hrec

/-! ### The pacer periods through the work of a beat

Work adds causes to a region's hold and takes them away. It leaves what the pacer keeps: `State.pace`. -/

/-- What the pacer keeps of a region: the progress of its period, the periods begun, the origins of the holds that have spread to
it, and whether it waits for a neighbour. -/
def Region.pace (g : Region) : Nat × Nat × List Nat × Bool := (g.phase, g.periods, g.origins, g.skew)

def State.pace (s : State) (q : Nat) : Nat × Nat × List Nat × Bool := (s.region q).pace

/-- An update of other fields than the regions. -/
@[simp] theorem State.pace_mk {u : State} {pending regs fused mask cfgRef time err stalls barns ctrs jobs lofts mesh acts mism links fab srv prefix_ yok host rings copies loads info sec tck rep out freeCtr} :
    (State.mk pending regs fused mask cfgRef time u.regions err stalls barns ctrs jobs lofts mesh acts mism links fab srv prefix_
      yok host rings copies loads info sec tck rep out freeCtr).pace = u.pace := (rfl)

@[simp] theorem State.pace_ite (c : Prop) [Decidable c] (s t : State) : (if c then s else t).pace = if c then s.pace else t.pace :=
  apply_ite State.pace c s t

@[simp] theorem pace_ite_snd {α : Type} (c : Prop) [Decidable c] (p q : α × State) :
    (if c then p else q).2.pace = if c then p.2.pace else q.2.pace := apply_ite (fun x : α × State => x.2.pace) c p q

@[simp] theorem pace_ite_third {α β : Type} (c : Prop) [Decidable c] (p q : α × β × State) :
    (if c then p else q).2.2.pace = if c then p.2.2.pace else q.2.2.pace := apply_ite (fun x : α × β × State => x.2.2.pace) c p q

theorem State.pace_foldl {α : Type} {f : State → α → State} (hf : ∀ t x, (f t x).pace = t.pace) (l : List α) (s : State) :
    (l.foldl f s).pace = s.pace := by
  induction l generalizing s with
  | nil => rfl
  | cons x l ih => exact (ih (f s x)).trans (hf s x)

theorem pace_foldl_snd {α β : Type} {f : β × State → α → β × State} (hf : ∀ p x, (f p x).2.pace = p.2.pace) (l : List α)
    (p : β × State) : (l.foldl f p).2.pace = p.2.pace := by
  induction l generalizing p with
  | nil => rfl
  | cons x l ih => exact (ih (f p x)).trans (hf p x)

theorem Calm.pace {s t : State} (h : Calm s t) : t.pace = s.pace := by
  funext q
  rw [State.pace, (h.region q).1]
  rfl

section
variable (s : State)

@[simp] theorem State.pace_fset (f : Fld) (v : Nat) : (s.fset f v).pace = s.pace := (rfl)
@[simp] theorem State.pace_fwrap (f : Fld) (k : Nat) : (s.fwrap f k).pace = s.pace := (rfl)
@[simp] theorem State.pace_fsat (f : Fld) (k : Nat) : (s.fsat f k).pace = s.pace := (rfl)
@[simp] theorem State.pace_updStall (i : Nat) (f : Stall → Stall) : (s.updStall i f).pace = s.pace := (rfl)
@[simp] theorem State.pace_updBarn (i : Nat) (f : BarnSt → BarnSt) : (s.updBarn i f).pace = s.pace := (rfl)
@[simp] theorem State.pace_updLoft (n : Nat) (f : Loft → Loft) : (s.updLoft n f).pace = s.pace := (rfl)
@[simp] theorem State.pace_updBank (n k : Nat) (f : BankSt → BankSt) : (s.updBank n k f).pace = s.pace := (rfl)
@[simp] theorem State.pace_updCtr (k : Nat) (f : Counter → Counter) : (s.updCtr k f).pace = s.pace := (rfl)
@[simp] theorem State.pace_updFab (f : FabSt → FabSt) : (s.updFab f).pace = s.pace := (rfl)
@[simp] theorem State.pace_addAct (a : Act) : (s.addAct a).pace = s.pace := (rfl)
@[simp] theorem State.pace_setReport (code sub : Nat) : (s.setReport code sub).pace = s.pace := (rfl)
@[simp] theorem State.pace_trace (src r : Nat) (job : Option Nat) (data : Nat) : (s.trace src r job data).pace = s.pace :=
  (Calm.of_pacing (s.pacing_trace ..)).pace
@[simp] theorem State.pace_showHold (r : Nat) : (s.showHold r).pace = s.pace := (Calm.of_pacing (s.pacing_showHold r)).pace
@[simp] theorem State.pace_handOver (j : Nat) (dest : FDest) (edge : Nat) (h : FabHdr) (lines : List Line) (plan : Option Nat) :
    (s.handOver j dest edge h lines plan).pace = s.pace := (Calm.of_pacing (s.pacing_handOver ..)).pace
@[simp] theorem State.pace_raise (e : Err) : (s.raise e).pace = s.pace := (s.calm_raise e).pace
@[simp] theorem State.pace_hubErr (j code detail : Nat) : (s.hubErr j code detail).pace = s.pace := s.pace_raise _

@[simp] theorem State.pace_raiseStl (b k code detail tag inst : Nat) : (s.raiseStl b k code detail tag inst).pace = s.pace := by
  simp [State.raiseStl, State.raiseStlAt]

theorem State.pace_updRegion {r : Nat} {f : Region → Region} (hf : (f (s.region r)).pace = (s.region r).pace) :
    (s.updRegion r f).pace = s.pace := by
  funext q
  by_cases hq : q = r
  · subst hq
    rw [State.pace, State.updRegion_same, hf]
    rfl
  · rw [State.pace, State.updRegion_other _ _ hq]
    rfl

@[simp] theorem State.pace_addCause (r code : Nat) (job : Option Nat) (what eng left : Nat) :
    (s.addCause r code job what eng left).pace = s.pace := by
  simp only [State.addCause]
  split
  · rfl
  · split
    · rw [State.pace_showHold, State.pace_ite, State.pace_fset, ite_self, State.pace_updRegion]
      rfl
    · rw [State.pace_trace, State.pace_showHold, State.pace_fset, State.pace_fwrap, State.pace_updRegion]
      rfl

/-! #### Scratchpads -/

@[simp] theorem State.pace_signal (key inc : Nat) : (s.signal key inc).pace = s.pace := s.pace_updCtr ..
@[simp] theorem State.pace_writeLine (i b line : Nat) (v : LineVal) : (s.writeLine i b line v).pace = s.pace := s.pace_updStall ..

@[simp] theorem State.pace_spadErr (b k code detail addr : Nat) (cnt : Option Fld) (tag : Nat) :
    (s.spadErr b k code detail addr cnt tag).pace = s.pace := by
  cases cnt <;> simp [State.spadErr]

@[simp] theorem State.pace_spadEcc (b k line : Nat) (correctable : Bool) : (s.spadEcc b k line correctable).pace = s.pace := by
  simp [State.spadEcc]

@[simp] theorem State.pace_useBank (b k beat line rank : Nat) : (s.useBank b k beat line rank).2.pace = s.pace := by
  simp only [State.useBank]
  split <;> simp

@[simp] theorem State.pace_raiseClash (i : Nat) : (s.raiseClash i).pace = s.pace := by
  simp only [State.raiseClash]
  split <;> simp

@[simp] theorem State.pace_checkEpoch (b k line ord : Nat) (epoch : Option Nat) (l : LineVal) :
    (s.checkEpoch b k line ord epoch l).2.pace = s.pace := by
  cases epoch <;> simp [State.checkEpoch]

@[simp] theorem State.pace_rdLine (b k beat line rank ord : Nat) (epoch : Option Nat) (ecc : List EccHit) :
    (s.rdLine b k beat line rank ord epoch ecc).2.pace = s.pace := by
  simp only [State.rdLine]
  split
  · simp
  · split <;> simp

@[simp] theorem State.pace_putLine (b k beat line rank : Nat) (v : LineVal) : (s.putLine b k beat line rank v).pace = s.pace := by
  simp [State.putLine]

@[simp] theorem State.pace_rdLines (b k beat rank ord : Nat) (epoch : Option Nat) (ecc : List EccHit) (ls : List Nat) :
    (s.rdLines b k beat rank ord epoch ecc ls).2.pace = s.pace := by
  induction ls generalizing s with
  | nil => rfl
  | cons l ls ih => simp [State.rdLines, ih]

/-! #### Lofts -/

@[simp] theorem State.pace_loftErr (n code blk : Nat) (job : Option Nat) (cnt : Option Fld) (tag : Nat) :
    (s.loftErr n code blk job cnt tag).pace = s.pace := by
  cases cnt <;> simp [State.loftErr, State.loftFirst]

@[simp] theorem State.pace_beginRetire (n blk : Nat) (job : Option Nat) : (s.beginRetire n blk job).pace = s.pace := by
  simp [State.beginRetire, State.retireRow, State.noSpares, State.loftFirst, State.showSpares]

@[simp] theorem State.pace_useLoft (n beat blk rank who job : Nat) : (s.useLoft n beat blk rank who job).2.pace = s.pace := by
  simp only [State.useLoft]
  split <;> simp

@[simp] theorem State.pace_raiseLoftClash (n : Nat) : (s.raiseLoftClash n).pace = s.pace := by
  simp only [State.raiseLoftClash]
  split <;> simp

@[simp] theorem State.pace_loftRead (n blk : Nat) (job : Option Nat) (ecc : List EccHit) :
    (s.loftRead n blk job ecc).2.2.pace = s.pace := by
  simp only [State.loftRead]
  repeat' split
  all_goals simp

@[simp] theorem State.pace_holdFor (a : Act) (id : Nat) : (s.holdFor a id).pace = s.pace := by simp [State.holdFor]

@[simp] theorem State.pace_loftEnter (n blk ord : Nat) (job : Option Nat) : (s.loftEnter n blk ord job).pace = s.pace := by
  simp [State.loftEnter]

@[simp] theorem State.pace_loftStore (n blk : Nat) (job : Option Nat) (weight : Bool) (bytes : Nat) (f : BlockVal → BlockVal) :
    (s.loftStore n blk job weight bytes f).pace = s.pace := by simp [State.loftStore]

@[simp] theorem State.pace_loftLeave (n blk ord : Nat) : (s.loftLeave n blk ord).pace = s.pace := by simp [State.loftLeave]

@[simp] theorem State.pace_bondAll (n beat bytes : Nat) : (s.bondAll n beat bytes).pace = s.pace := by simp [State.bondAll]

@[simp] theorem State.pace_bondUse (i beat bytes : Nat) (down : Bool) : (s.bondUse i beat bytes down).pace = s.pace := by
  simp [State.bondUse]

@[simp] theorem State.pace_bondCheck (i beat : Nat) : (s.bondCheck i beat).pace = s.pace := by simp [State.bondCheck]

@[simp] theorem State.pace_bondCheckAll (n beat : Nat) : (s.bondCheckAll n beat).pace = s.pace := by simp [State.bondCheckAll]

end

section
variable (s : State) (a : Act)

/-! #### The vector engine -/

@[simp] theorem State.pace_vecHits (i reg : Nat) (ecc : List EccHit) : (s.vecHits i reg ecc).2.pace = s.pace := by
  induction ecc generalizing s with
  | nil => rfl
  | cons h hs ih => simp [State.vecHits, State.vecEcc, ih]

@[simp] theorem State.pace_takeReg (reg : Nat) : (s.takeReg a reg).2.pace = s.pace := by
  simp only [State.takeReg]
  rw [State.pace_foldl fun t l => t.pace_updStall _ _, State.pace_vecHits]

@[simp] theorem State.pace_takeMask (m : Nat) : (s.takeMask a m).2.pace = s.pace := by simp [State.takeMask]

@[simp] theorem State.pace_putReg (wb reg : Nat) (f : Nat → Option Lane) : (s.putReg a wb reg f).pace = s.pace := s.pace_addAct _

@[simp] theorem State.pace_repEnds (wb : Nat) : (s.repEnds a wb).pace = s.pace := s.pace_addAct _

@[simp] theorem State.pace_landReg (i beat reg : Nat) (xs : List (Option Lane)) : (s.landReg i beat reg xs).pace = s.pace :=
  s.pace_updStall ..

@[simp] theorem State.pace_putMask (i beat m part v pois : Nat) : (s.putMask i beat m part v pois).pace = s.pace := by
  simp only [State.putMask, State.pace_ite, State.pace_updStall, ite_self]

@[simp] theorem State.pace_special152 (i : Nat) (rs : List LaneRes) : (s.special152 i rs).pace = s.pace := by
  simp only [State.special152, State.pace_ite, State.pace_fsat, ite_self]

@[simp] theorem State.pace_vecLanes (k wb : Nat) (m : MaskVal) (x y z : List Lane) : (s.vecLanes a k wb m x y z).pace = s.pace := by
  simp only [State.vecLanes, State.pace_putReg, State.pace_special152]

@[simp] theorem State.pace_vecCmp (k wb : Nat) (m : MaskVal) (x y : List Lane) : (s.vecCmp a k wb m x y).pace = s.pace := by
  simp only [State.vecCmp, State.pace_addAct]

@[simp] theorem State.pace_vecPack (k wb : Nat) (prev : Bool) (m : MaskVal) (x : List Lane) :
    (s.vecPack a k wb prev m x).1.pace = s.pace := by
  simp only [State.vecPack, State.pace_addAct, State.pace_special152]

@[simp] theorem State.pace_vecPackPut (q : Nat) (els : List Nat) (part pois : Nat) (scale : Option (Nat × Nat)) :
    (s.vecPackPut a q els part pois scale).pace = s.pace := by
  simp only [State.vecPackPut]
  split <;> simp only [State.pace_landReg]

@[simp] theorem State.pace_vecUnpack (k wb : Nat) (m : MaskVal) (x y : List Lane) : (s.vecUnpack a k wb m x y).pace = s.pace := by
  simp only [State.vecUnpack, State.pace_putReg, State.pace_special152]

@[simp] theorem State.pace_vecReduce (k wb : Nat) (m : MaskVal) (x : List Lane) : (s.vecReduce a k wb m x).pace = s.pace := by
  simp only [State.vecReduce, State.pace_ite, State.pace_putReg, State.pace_special152, ite_self]

@[simp] theorem State.pace_vecMlogic (wb : Nat) (x y : MaskVal) : (s.vecMlogic a wb x y).pace = s.pace := by
  simp only [State.vecMlogic, State.pace_addAct]

@[simp] theorem State.pace_vecTred (wb : Nat) (t : List (List Lane)) : (s.vecTred a wb t).pace = s.pace := by
  simp only [State.vecTred, State.pace_ite, State.pace_putReg]
  rw [State.pace_foldl fun u j => u.pace_putReg a .., ite_self, State.pace_special152]

@[simp] theorem State.pace_vecTscan (wb : Nat) (ta tb : List (List Lane)) (start : List Lane) :
    (s.vecTscan a wb ta tb start).pace = s.pace := by
  simp only [State.vecTscan]
  rw [State.pace_foldl fun u j => u.pace_putReg a .., State.pace_special152]

theorem pace_ite_fst {α : Type} (c : Prop) [Decidable c] (p q : State × α) :
    (if c then p else q).1.pace = if c then p.1.pace else q.1.pace := apply_ite (fun x : State × α => x.1.pace) c p q

@[simp] theorem State.pace_vecRep (k : Nat) (prev : Bool) : (s.vecRep a k prev).pace = s.pace := by
  simp only [State.vecRep, State.pace_ite, pace_ite_fst, pace_ite_snd, State.pace_addAct, State.pace_vecCmp, State.pace_vecMlogic,
    State.pace_vecPack, State.pace_vecUnpack, State.pace_vecReduce, State.pace_vecLanes, State.pace_repEnds, State.pace_takeReg,
    State.pace_takeMask, ite_self]

@[simp] theorem State.pace_vecTile (j : Nat) (got : List (List Lane)) : (s.vecTile a j got).pace = s.pace := by
  simp only [State.vecTile, State.pace_ite, pace_ite_snd, State.pace_addAct, State.pace_vecTscan, State.pace_vecTred,
    State.pace_repEnds, State.pace_takeReg, ite_self]

@[simp] theorem State.pace_putLoad (wb k part mp : Nat) (ps : List PByte) : (s.putLoad a wb k part mp ps).pace = s.pace := by
  simp only [State.putLoad, State.pace_putReg, State.pace_repEnds]

@[simp] theorem State.pace_vecLoad (k : Nat) : (s.vecLoad a k).pace = s.pace := by simp [State.vecLoad]

@[simp] theorem State.pace_vecStore (k : Nat) : (s.vecStore a k).pace = s.pace := by simp [State.vecStore]

@[simp] theorem State.pace_vecStorePut (k : Nat) (lanes : List Lane) (part mp : Nat) :
    (s.vecStorePut a k lanes part mp).pace = s.pace :=
  State.pace_foldl (fun t q => by rw [State.pace_ite, State.pace_putLine, ite_self]) _ s

@[simp] theorem State.pace_vecGather (k q : Nat) (got : List (Nat × LineVal)) (part mp : Nat) :
    (s.vecGather a k q got part mp).pace = s.pace := by simp [State.vecGather]

@[simp] theorem State.pace_vecWork : (s.vecWork a).pace = s.pace := by
  unfold State.vecWork
  split <;> simp

/-! #### The array engine -/

@[simp] theorem State.pace_readAcc (i beat arr row : Nat) (ecc : List EccHit) : (s.readAcc i beat arr row ecc).2.pace = s.pace := by
  simp only [State.readAcc]
  split <;> simp [State.accEcc]

@[simp] theorem State.pace_writeAcc (i beat arr row : Nat) (v : AccRow) : (s.writeAcc i beat arr row v).pace = s.pace :=
  s.pace_updStall ..

@[simp] theorem State.pace_arrTile (q : Nat) : (s.arrTile a q).pace = s.pace := by simp [State.arrTile, State.updStat]

@[simp] theorem State.pace_arrScales : (s.arrScales a).pace = s.pace := by simp [State.arrScales, State.updStat]

@[simp] theorem State.pace_mmaRead (t : Nat) : (s.mmaRead a t).pace = s.pace := by simp [State.mmaRead, State.updPass]

@[simp] theorem State.pace_mmaBlk (blk : Nat) : (s.mmaBlk a blk).pace = s.pace := by
  simp only [State.mmaBlk, State.updPass, State.pace_updStall]
  split <;> simp

@[simp] theorem State.pace_mmaNeed (blk : Nat) : (s.mmaNeed a blk).pace = s.pace := by
  simp only [State.mmaNeed]
  split <;> simp

@[simp] theorem State.pace_mmaBond (t : Nat) : (s.mmaBond a t).pace = s.pace := by simp [State.mmaBond]

@[simp] theorem State.pace_mmaRowAt (ps : Pass) (j p : Nat) : (s.mmaRowAt a ps j p).pace = s.pace := by
  simp only [State.mmaRowAt, State.pace_fsat, State.pace_writeAcc, pace_ite_snd, State.pace_readAcc, ite_self]

@[simp] theorem State.pace_mmaRow (j : Nat) : (s.mmaRow a j).pace = s.pace := by
  simp only [State.mmaRow]
  split
  · rfl
  · rw [State.pace_ite, State.pace_addAct, ite_self]
    exact State.pace_foldl (fun t j => State.pace_foldl (fun u p => u.pace_mmaRowAt ..) _ t) _ s

@[simp] theorem State.pace_accDrain (k : Nat) : (s.accDrain a k).pace = s.pace := by
  simp only [State.accDrain, State.pace_ite, State.pace_addAct, ite_self]
  exact pace_foldl_snd (fun p n => by simp) _ ([], s)

@[simp] theorem State.pace_arrWork : (s.arrWork a).pace = s.pace := by
  unfold State.arrWork
  split <;> simp

end

section
variable (s : State) (a : Act)

/-! #### The mesh -/

@[simp] theorem State.pace_netErr (b code addr inst : Nat) (job : Option Nat) (detail : Nat) :
    (s.netErr b code addr inst job detail).pace = s.pace := by simp [State.netErr]

@[simp] theorem State.pace_newFlit (key job : Nat) (body : Flit) (us : List (Nat × Nat × Nat)) :
    (s.newFlit key job body us).2.pace = s.pace := State.pace_mk

@[simp] theorem State.pace_newFlits (key job : Nat) (us : List (Flit × List (Nat × Nat × Nat))) :
    (s.newFlits key job us).2.pace = s.pace := by
  induction us generalizing s with
  | nil => rfl
  | cons u us ih => simp [State.newFlits, ih]

@[simp] theorem State.pace_keepItems (c kind id : Nat) (dests : List Nat) (bodies : List Flit) :
    (s.keepItems c kind id dests bodies).pace = s.pace := State.pace_mk

@[simp] theorem State.pace_traceSched (b : Nat) (us : List ChanUse) : (s.traceSched b us).pace = s.pace := by
  rw [State.traceSched, State.pace_ite, State.pace_foldl fun t u => t.pace_trace .., ite_self]

@[simp] theorem State.pace_resolveChan (beat c : Nat) : (s.resolveChan beat c).pace = s.pace := by
  simp only [State.resolveChan]
  split <;> simp [State.pace_foldl fun (t : State) (u : ChanUse) => t.pace_keepItems c 0 u.flit u.dests [u.body]]

@[simp] theorem State.pace_resolveTo (r now n : Nat) : (State.resolveTo r now n s).pace = s.pace := by
  induction n generalizing s with
  | zero => rfl
  | succ n ih =>
    simp only [State.resolveTo]
    split
    · rfl
    · rw [ih, State.pace_mk, State.pace_foldl fun t c => t.pace_resolveChan ..]

@[simp] theorem State.pace_landLines (st : Nat) (vals : List Moving) : (s.landLines a st vals).pace = s.pace := by
  simp only [State.landLines]
  split
  · simp
  · exact State.pace_foldl (fun t m => by simp) _ s

/-! #### Copies -/

@[simp] theorem State.pace_dmaHandOver (x : Xfer) (k : Nat) (vals got : List Moving) :
    (s.dmaHandOver a x k vals got).2.pace = s.pace := by
  simp only [State.dmaHandOver]
  split <;> simp

@[simp] theorem State.pace_dmaSend (x : Xfer) (k : Nat) (vals got : List Moving) : (s.dmaSend a x k vals got).2.pace = s.pace := by
  simp only [State.dmaSend]
  split
  · rfl
  · split <;> simp

@[simp] theorem State.pace_dmaRead (k : Nat) (got : List Moving) : (s.dmaRead a k got).pace = s.pace := by simp [State.dmaRead]

@[simp] theorem State.pace_dmaReq (k : Nat) : (s.dmaReq a k).pace = s.pace := by simp [State.dmaReq]

@[simp] theorem State.pace_dmaFar (k : Nat) (flits : List Nat) : (s.dmaFar a k flits).pace = s.pace := by
  simp only [State.dmaFar, State.pace_addAct]
  exact pace_foldl_snd (fun p n => by simp only [pace_ite_snd, State.pace_newFlit, State.pace_rdLine, ite_self]) _ ([], s)

@[simp] theorem State.pace_dmaZero (k : Nat) : (s.dmaZero a k).pace = s.pace := by
  simp only [State.dmaZero, State.pace_ite, State.pace_addAct, ite_self]
  exact State.pace_foldl (fun t i => t.pace_putLine ..) _ s

@[simp] theorem State.pace_loftReq (m : Nat) : (s.loftReq a m).pace = s.pace := by simp [State.loftReq]

@[simp] theorem State.pace_rdLand (x : Xfer) (m : Nat) (v : BlockVal) (src : Option Nat) (carried : Bool) :
    (s.rdLand a x m v src carried).pace = s.pace :=
  State.pace_foldl (fun t q => by simp) _ s

@[simp] theorem State.pace_loftRd (m flit : Nat) : (s.loftRd a m flit).pace = s.pace := by
  simp only [State.loftRd, State.pace_ite, pace_ite_third, pace_ite_snd, State.pace_addAct, State.pace_rdLand, State.pace_loftRead, State.pace_useLoft, ite_self]

@[simp] theorem State.pace_dmaLand (st : Nat) (vals : List Moving) : (s.dmaLand a st vals).pace = s.pace := by simp [State.dmaLand]

@[simp] theorem State.pace_lcOut (k : Nat) (vals got : List Moving) : (s.lcOut a k vals got).pace = s.pace := by
  simp only [State.lcOut]
  split <;> simp

@[simp] theorem State.pace_loftWr (m : Nat) (vals : List Moving) : (s.loftWr a m vals).pace = s.pace := by
  simp only [State.loftWr]
  split <;> simp

@[simp] theorem State.pace_edgePkt (h : FabHdr) (lines : List Line) : (s.edgePkt a h lines).pace = s.pace := by simp [State.edgePkt]

@[simp] theorem State.pace_edgeOut (k : Nat) (vals : List Moving) : (s.edgeOut a k vals).pace = s.pace :=
  State.pace_foldl (fun t _ => t.pace_edgePkt ..) _ s

@[simp] theorem State.pace_farReqEdge (flit : Nat) : (s.farReqEdge a flit).pace = s.pace := by simp [State.farReqEdge]

@[simp] theorem State.pace_rdsRead (u q : Nat) (got : List (Nat × LineVal)) : (s.rdsRead a u q got).pace = s.pace := by
  simp [State.rdsRead]

@[simp] theorem State.pace_dmaFill (k : Nat) : (s.dmaFill a k).pace = s.pace := by
  simp [State.dmaFill, State.pace_foldl fun (t : State) (i : Nat) => t.pace_putLine ..]

@[simp] theorem State.pace_dmaWork : (s.dmaWork a).pace = s.pace := by
  unfold State.dmaWork
  split <;> simp [State.dmaEnter]

/-! #### Loft commands and the network engine -/

@[simp] theorem State.pace_lftVec (j q : Nat) (got : List PByte) : (s.lftVec a j q got).pace = s.pace := by simp [State.lftVec]

@[simp] theorem State.pace_mvRead (blk : Nat) : (s.mvRead a blk).2.2.pace = s.pace := by
  simp only [State.mvRead]
  split <;> simp

@[simp] theorem State.pace_mvBankReads (c0 c bank : Nat) : (s.mvBankReads a c0 c bank).pace = s.pace := by
  cases hscale : scaleReadAt a.w bank c0 c <;> cases hcycle : engOf bank c0 c <;> simp [State.mvBankReads, hscale, hcycle]

@[simp] theorem State.pace_mvDo (c : Nat) : (s.mvDo a c).pace = s.pace := by
  simp only [State.mvDo]
  split
  · simp
  · rw [State.pace_ite, State.pace_addAct, ite_self]
    exact State.pace_foldl (fun t p => t.pace_updLoft ..) _ s

@[simp] theorem State.pace_mvStep (c : Nat) : (s.mvStep a c).pace = s.pace := by
  rw [State.mvStep, State.pace_mvDo]
  exact State.pace_foldl (fun t e => t.pace_mvBankReads ..) _ s

@[simp] theorem State.pace_mvEmit (e q : Nat) : (s.mvEmit a e q).pace = s.pace := by simp [State.mvEmit]

@[simp] theorem State.pace_lftWork : (s.lftWork a).pace = s.pace := by
  unfold State.lftWork
  split <;> simp

@[simp] theorem State.pace_netRead (k : Nat) : (s.netRead a k).pace = s.pace := by
  simp only [State.netRead, State.pace_ite, State.pace_addAct, ite_self]
  rw [State.pace_foldl fun t it => State.pace_foldl (fun u d => u.pace_addAct _) _ t, State.pace_newFlits, State.pace_rdLines]

@[simp] theorem State.pace_slotLand (st : Nat) (m : Moving) (last : Bool) : (s.slotLand a st m last).pace = s.pace := by
  simp only [State.slotLand]
  split
  · rfl
  · split
    · simp
    · split
      · split <;> simp
      · simp

@[simp] theorem State.pace_netWork : (s.netWork a).pace = s.pace := by
  unfold State.netWork
  split <;> simp [State.slotSet, State.sigSet]

/-! #### The beat -/

@[simp] theorem State.pace_perform : (s.perform a).pace = s.pace := by
  unfold State.perform
  split <;> simp

@[simp] theorem State.pace_closeBarn (n now : Nat) : (s.closeBarn n now).pace = s.pace := by
  rw [State.closeBarn, State.pace_updLoft, State.pace_bondCheckAll, State.pace_raiseLoftClash]
  exact State.pace_foldl (fun t i => by simp [State.closeStall]) _ s

@[simp] theorem State.pace_dueWork (r : Nat) : (s.dueWork r).pace = s.pace := by
  rw [State.dueWork, State.pace_foldl State.pace_perform, State.pace_mk, State.resolve, State.pace_resolveTo]

@[simp] theorem State.pace_runActs (r : Nat) : (s.runActs r).pace = s.pace := by simp [State.runActs]

end

/-! ### Beat counts

No register that a contained error and its halts write is a beat count of a region. -/

/-- The beat counts of the regions (R23). -/
def State.beats (s : State) (r : Fin 29) : Nat := s.beat r

/-- The register is no beat count. -/
def NoBeat (a : Nat) : Prop := ∀ r : Fin 29, R.PCR_BEAT r ≠ a

theorem noBeat_of_ge {a : Nat} (h : 0x3000600 ≤ a) : NoBeat a := fun r => by
  simp only [R.PCR_BEAT]
  omega

@[simp] theorem State.beats_mk {u : State} {pending fused mask cfgRef time regions err stalls barns ctrs jobs lofts mesh acts mism links fab srv prefix_ yok host rings copies loads info sec tck rep out freeCtr} :
    (State.mk pending u.regs fused mask cfgRef time regions err stalls barns ctrs jobs lofts mesh acts mism links fab srv prefix_
      yok host rings copies loads info sec tck rep out freeCtr).beats = u.beats := (rfl)

@[simp] theorem State.beats_ite (c : Prop) [Decidable c] (s t : State) : (if c then s else t).beats = if c then s.beats else t.beats :=
  apply_ite State.beats c s t

theorem State.beats_foldl {α : Type} {f : State → α → State} (hf : ∀ t x, (f t x).beats = t.beats) (l : List α) (s : State) :
    (l.foldl f s).beats = s.beats :=
  foldl_keeps (P := fun t : State => t.beats = s.beats) l rfl fun t x _ ht => (hf t x).trans ht

section
variable (s : State)

theorem State.beats_fset {f : Fld} (v : Nat) (h : NoBeat f.addr) : (s.fset f v).beats = s.beats :=
  funext fun r => s.reg_fset_other v (h r)

theorem State.beats_fwrap {f : Fld} (k : Nat) (h : NoBeat f.addr) : (s.fwrap f k).beats = s.beats := s.beats_fset _ h
theorem State.beats_fsat {f : Fld} (k : Nat) (h : NoBeat f.addr) : (s.fsat f k).beats = s.beats := s.beats_fset _ h

@[simp] theorem State.beats_updSrv (j : Nat) (f : SrvJob → SrvJob) : (s.updSrv j f).beats = s.beats := (rfl)
@[simp] theorem State.beats_updHst (p : Nat) (f : HostSt → HostSt) : (s.updHst p f).beats = s.beats := (rfl)
@[simp] theorem State.beats_updFab (f : FabSt → FabSt) : (s.updFab f).beats = s.beats := (rfl)
@[simp] theorem State.beats_updCtr (k : Nat) (f : Counter → Counter) : (s.updCtr k f).beats = s.beats := (rfl)
@[simp] theorem State.beats_updBarn (n : Nat) (f : BarnSt → BarnSt) : (s.updBarn n f).beats = s.beats := (rfl)
@[simp] theorem State.beats_send (o : Out) : (s.send o).beats = s.beats := (rfl)
@[simp] theorem State.beats_updRegion (r : Nat) (f : Region → Region) : (s.updRegion r f).beats = s.beats := (rfl)
@[simp] theorem State.beats_updStall (i : Nat) (f : Stall → Stall) : (s.updStall i f).beats = s.beats := (rfl)
@[simp] theorem State.beats_updLoft (n : Nat) (f : Loft → Loft) : (s.updLoft n f).beats = s.beats := (rfl)
@[simp] theorem State.beats_updJob (j : Nat) (f : Job → Job) : (s.updJob j f).beats = s.beats := (rfl)

@[simp] theorem State.beats_trace (src r : Nat) (job : Option Nat) (data : Nat) : (s.trace src r job data).beats = s.beats :=
  funext fun q => s.reg_trace src r job data (noBeat_of_ge (by decide) q)

@[simp] theorem State.beats_showHold (r : Nat) : (s.showHold r).beats = s.beats := by
  have hr : NoBeat (R.PCR_HOLD r) := noBeat_of_ge (Nat.le_add_right ..)
  simp only [State.showHold, State.fsetB]
  rw [State.beats_fset _ _ hr, State.beats_fset _ _ hr, State.beats_fset _ _ hr]

theorem noBeat_stlStarve (b k : Nat) (hk : k < 48) : NoBeat (R.STL_STARVE b k) := fun r => by
  simp only [R.PCR_BEAT, R.STL_STARVE]
  omega

theorem noBeat_stlFault (b k : Nat) (hk : k < 48) : NoBeat (R.STL_FAULT b k) := fun r => by
  simp only [R.PCR_BEAT, R.STL_FAULT]
  omega

@[simp] theorem State.beats_countStarved (c : HoldCause) : (s.countStarved c).beats = s.beats := by
  rw [State.countStarved, State.beats_ite, State.beats_fsat _ _ (noBeat_stlStarve _ _ (Nat.mod_lt _ (by decide))), ite_self]

@[simp] theorem State.beats_clearCausesAll (p : HoldCause → Bool) : (s.clearCausesAll p).beats = s.beats :=
  State.beats_foldl (fun t r => by
    rw [State.beats_ite, State.clearCauses, State.beats_showHold, State.beats_foldl State.beats_countStarved, State.beats_updRegion,
      ite_self]) _ s

@[simp] theorem State.beats_hostWrite (p a : Nat) (bs : List Byte) : (s.hostWrite p a bs).beats = s.beats := by
  have hp : NoBeat (R.HST_DMA_OUT p) := noBeat_of_ge (by simp only [R.HST_DMA_OUT]; omega)
  have hset (v : Nat) (t : State) : (t.setReg (R.HST_DMA_OUT p) v).beats = t.beats := funext fun r => t.reg_setReg_other v (hp r)
  rw [State.hostWrite, State.beats_ite, hset, State.beats_send, ite_self]

@[simp] theorem State.beats_fireVec (p fn v : Nat) : (s.fireVec p fn v).beats = s.beats := by
  simp only [State.fireVec, State.beats_ite, State.beats_updHst, State.beats_send, ite_self]

@[simp] theorem State.beats_pushCpl (j : Nat) (c : CplRec) : (s.pushCpl j c).beats = s.beats := by
  have hwrite (t : State) (r : Ring) (c : CplRec) : (t.writeCpl r c).beats = t.beats := by
    rw [State.writeCpl, State.beats_hostWrite]
    split <;> simp
  have hcpl (p : Nat) : NoBeat (R.HST_CTX_CPL p j) := noBeat_of_ge (by simp only [R.HST_CTX_CPL]; omega)
  have hfset (t : State) (p v : Nat) : (t.fset (F.HST_CTX_CPL_PRODUCER p j) v).beats = t.beats := t.beats_fset v (hcpl p)
  simp only [State.pushCpl, State.flushCpl, State.beats_ite, State.beats_fireVec, hfset, State.beats_hostWrite, State.beats_updSrv]
  rw [State.beats_foldl fun t c => hwrite t _ c, State.beats_updSrv, ite_self, ite_self]

theorem State.beats_raiseRec {e : Err} (h : codeClass e.code = 0) : (s.raiseRec e).beats = s.beats :=
  funext fun _ => State.reg_raiseRec h _

@[simp] theorem State.beats_haltControl (j : Nat) (dest : FDest) (sub : Nat) (body : List Byte) :
    (s.haltControl j dest sub body).beats = s.beats := by
  simp only [State.haltControl, State.tryControl, State.tryOriginate]
  split
  · rfl
  · split
    · exact s.beats_raiseRec (by simp only; decide)
    · simp [State.handOver, State.updOut]

@[simp] theorem State.beats_headHalt (j code : Nat) : (s.headHalt j code).beats = s.beats := by
  have hcount : NoBeat (R.SRV_JOB_COUNT j) := noBeat_of_ge (by simp only [R.SRV_JOB_COUNT]; omega)
  have hstate : NoBeat (R.SRV_JOB_STATE j) := noBeat_of_ge (by simp only [R.SRV_JOB_STATE]; omega)
  have hseqs (t : State) : (t.fset (F.SRV_JOB_COUNT_SEQS j) 0).beats = t.beats := t.beats_fset _ hcount
  have hflight (t : State) : (t.fset (F.SRV_JOB_STATE_IN_FLIGHT j) 0).beats = t.beats := t.beats_fset _ hstate
  rw [State.headHalt, State.beats_ite, hflight, hseqs, State.beats_updSrv, State.beats_foldl fun t e => t.beats_pushCpl ..,
    State.beats_foldl fun t d => t.beats_haltControl .., ite_self]

@[simp] theorem State.beats_haltNow (j code : Nat) : (s.haltNow j code).beats = s.beats := by
  have hstate : NoBeat (R.SRV_JOB_STATE j) := noBeat_of_ge (by simp only [R.SRV_JOB_STATE]; omega)
  have hstalls : (s.haltStalls j).beats = s.beats := by
    rw [State.haltStalls, State.beats_clearCausesAll, State.beats_foldl fun t n => by rw [State.beats_ite, State.beats_updLoft, ite_self],
      State.beats_foldl fun t i => t.beats_updStall .., State.beats_updJob]
  have hset (t : State) : (t.fset (F.SRV_JOB_STATE_STATE j) 3).beats = t.beats := t.beats_fset _ hstate
  simp only [State.haltNow, State.haltSends, State.beats_ite, State.beats_headHalt, State.beats_haltControl, hset, hstalls, ite_self]

@[simp] theorem State.beats_haltBoundary (j code r : Nat) : (s.haltBoundary j code r).beats = s.beats := by
  simp only [State.haltBoundary]
  split
  · split
    · simp
    · simp
  · rfl

/-- An error that is not fatal and belongs to no class of R417. -/
theorem State.beats_raise {e : Err} (hclass : codeClass e.code = 0) (hsev : codeSev e.code < 3) : (s.raise e).beats = s.beats := by
  have hrec := s.beats_raiseRec hclass
  have hfatal : ¬ codeSev e.code = sevFatal := by simp only [sevFatal]; omega
  simp only [State.raise, State.sevOf_of_class hclass, State.escalates_of_class hclass, if_neg hfatal, State.beats_ite,
    Bool.false_eq_true, if_false]
  refine (ite_congr rfl (fun _ => ?_) fun _ => hrec).trans (ite_self _)
  split
  · rw [State.beats_foldl fun t j => t.beats_haltNow .., hrec]
  · rw [State.beats_foldl fun t j => t.beats_haltBoundary .., hrec]
  · exact hrec

@[simp] theorem State.beats_closeCtrs (r : Nat) : (s.closeCtrs r).beats = s.beats := by
  have hraise (t : State) (b inst : Nat) (job : Option Nat) :
      (t.raise { code := 0x0204, blk := b, inst := inst, job := job }).beats = t.beats :=
    t.beats_raise (by simp only; decide) (by simp only; decide)
  have hstl (t : State) (b k inst : Nat) (hk : k < 48) : (t.raiseStl b k 0x0204 0 0 inst).beats = t.beats := by
    have hfault := noBeat_stlFault b k hk
    rw [State.raiseStl, State.raiseStlAt, hraise, State.beats_ite, State.beats_fset _ _ hfault, State.beats_fset _ _ hfault,
      State.beats_fset _ _ hfault, ite_self]
  refine State.beats_foldl (fun t key => ?_) _ s
  simp only [State.closeCtr, State.settle, State.beats_updCtr, State.beats_ite, hraise, hstl _ _ _ _ (Nat.mod_lt _ (by decide)),
    ite_self]

end

/-! ### The end of a pacer period (R23 to R28) -/

section
variable (s : State)

/-- Counters that settle raise their overflows. -/
theorem State.calm_closeCtrs (r : Nat) : Calm s (s.closeCtrs r) := by
  have hctr (t : State) (key : Nat) (f : Counter → Counter) : Calm t (t.updCtr key f) := .of_pacing State.pacing_mk
  have hstl (t : State) (b k inst : Nat) : Calm t (t.raiseStl b k 0x0204 0 0 inst) := by
    unfold State.raiseStl State.raiseStlAt
    refine .trans (.of_pacing ?_) (State.calm_raise ..)
    rw [State.pacing_ite, State.pacing_fset, State.pacing_fset, State.pacing_fset, ite_self]
  refine calm_foldl (fun t key => ?_) _ s
  simp only [State.closeCtr, State.settle]
  refine .trans (.ite (.ite ?_ ?_) (hctr ..)) (hctr ..)
  · exact (hctr ..).trans (hstl ..)
  · exact (hctr ..).trans (State.calm_raise ..)

@[simp] theorem State.pace_closeCtrs (r : Nat) : (s.closeCtrs r).pace = s.pace := (s.calm_closeCtrs r).pace

/-- A beat that begins raises no more than PWR_WINDOW_OVER, and may add a hold by the power plan. -/
theorem State.beginBeat_cases (r : Nat) : ∃ u, Calm s u ∧ u.beats = s.beats ∧
    (s.beginBeat r = u ∨ ∃ j left, s.beginBeat r = u.addCause r 5 (some j) r 0 left) := by
  have hstat : NoBeat (R.PWR_PLAN_STAT r) := noBeat_of_ge (by simp only [R.PWR_PLAN_STAT]; omega)
  have hnote (t : State) (j : Nat) : Calm t (t.powerNote r j) ∧ (t.powerNote r j).beats = t.beats := by
    have hsat : Calm t (t.fsat (F.PWR_PLAN_STAT_WINDOWS r) 1) := .of_pacing (t.pacing_fsat ..)
    have hbeats : (t.fsat (F.PWR_PLAN_STAT_WINDOWS r) 1).beats = t.beats := t.beats_fsat _ hstat
    simp only [State.powerNote]
    split
    · refine ⟨hsat.trans (.trans (.of_pacing State.pacing_mk) (State.calm_raise ..)), ?_⟩
      rw [State.beats_raise _ (by simp only; decide) (by simp only; decide), State.setReport, State.beats_mk, hbeats]
    · exact ⟨hsat, hbeats⟩
  have hpeak (t : State) (v : Nat) : Calm t (t.fset (F.PWR_PLAN_STAT_PEAK r) v) ∧ (t.fset (F.PWR_PLAN_STAT_PEAK r) v).beats = t.beats :=
    ⟨.of_pacing (t.pacing_fset ..), t.beats_fset _ hstat⟩
  have hsame : ∃ u, Calm s u ∧ u.beats = s.beats ∧ (s = u ∨ ∃ j left, s = u.addCause r 5 (some j) r 0 left) :=
    ⟨s, .refl s, rfl, .inl rfl⟩
  unfold State.beginBeat State.powerBeat
  split
  · split
    · exact hsame
    · next j _ =>
      extract_lets jb sum ov first act hold s1 s2 s3
      have h1 : Calm s s1 ∧ s1.beats = s.beats := ⟨.of_pacing State.pacing_mk, rfl⟩
      have h2 : Calm s s2 ∧ s2.beats = s.beats := by
        simp only [s2]
        split
        · exact ⟨h1.1.trans (hpeak s1 sum).1, (hpeak s1 sum).2.trans h1.2⟩
        · exact h1
      have h3 : Calm s s3 ∧ s3.beats = s.beats := by
        simp only [s3]
        split
        · exact ⟨h2.1.trans (hnote s2 j).1, (hnote s2 j).2.trans h2.2⟩
        · exact h2
      split
      · exact hsame
      · refine ⟨s3, h3.1, h3.2, ?_⟩
        split
        · exact .inr ⟨j, hold, rfl⟩
        · exact .inl rfl
  · exact hsame

@[simp] theorem State.pace_beginBeat (r : Nat) : (s.beginBeat r).pace = s.pace := by
  obtain ⟨u, hcalm, -, h | ⟨j, left, h⟩⟩ := s.beginBeat_cases r <;> rw [h]
  · exact hcalm.pace
  · rw [State.pace_addCause, hcalm.pace]

@[simp] theorem State.pacing_countSlip (r : Nat) : (s.countSlip r).pacing = s.pacing := by
  simp only [State.countSlip, State.pacing_ite, State.pacing_fwrap]
  rw [State.pacing_foldl fun t j => t.pacing_fwrap .., State.pacing_fwrap, ite_self]

@[simp] theorem State.pacing_countPowerHeld (r : Nat) : (s.countPowerHeld r).pacing = s.pacing := by
  rw [State.countPowerHeld, State.pacing_ite, State.pacing_fsat, ite_self]

@[simp] theorem State.pace_countSlip (r : Nat) : (s.countSlip r).pace = s.pace := (Calm.of_pacing (s.pacing_countSlip r)).pace

@[simp] theorem State.pace_countPowerHeld (r : Nat) : (s.countPowerHeld r).pace = s.pace :=
  (Calm.of_pacing (s.pacing_countPowerHeld r)).pace

@[simp] theorem State.pace_countStarved (c : HoldCause) : (s.countStarved c).pace = s.pace := by simp [State.countStarved]

@[simp] theorem State.pace_tickCauses (r : Nat) : (s.tickCauses r).pace = s.pace := s.pace_updRegion rfl

@[simp] theorem State.pace_dropOver (r : Nat) : (s.dropOver r).pace = s.pace := s.pace_updRegion rfl

@[simp] theorem State.pace_releaseOwn (r : Nat) : (s.releaseOwn r).pace = s.pace := by
  have hend : (s.updRegion r (fun g => { g with heldOwn := false, first := none })).pace = s.pace := s.pace_updRegion rfl
  simp only [State.releaseOwn]
  split
  · split <;> simp [hend]
  · rfl

@[simp] theorem State.pace_refreshHold (r : Nat) : (s.refreshHold r).pace = s.pace := by simp [State.refreshHold]

@[simp] theorem State.pace_countActive (n : Nat) : (s.countActive n).pace = s.pace :=
  State.pace_foldl (fun t i => by simp) _ s

@[simp] theorem State.pace_dropGone (i : Nat) : (s.dropGone i).pace = s.pace := by simp [State.dropGone]

@[simp] theorem State.pace_endBeat (r b : Nat) : (s.endBeat r b).pace = s.pace := by
  have hgone (l : List Nat) (u : State) : (l.foldl State.dropGone u).pace = u.pace := State.pace_foldl State.pace_dropGone l u
  have hhalt (j : Nat) (u : State) : (u.haltRegion j r b).pace = u.pace := by
    rw [State.haltRegion, (State.calm_clearCauses ..).pace, State.pace_ite, State.pace_updLoft, ite_self, State.pace_mk]
    exact State.pace_foldl (fun t i => by rw [State.pace_dropGone, State.pace_updStall]) _ u
  simp only [State.endBeat]
  split <;> simp [hgone, hhalt]

@[simp] theorem State.pace_localTick (r : Nat) : (s.localTick r).pace = s.pace := s.pace_updRegion (by
  unfold Region.advance
  split <;> rfl)

/-! The control channels of a region leave all regions as they are. -/

theorem State.regions_ctrlMove (r : Nat) : (s.ctrlMove r).regions = s.regions := by
  have hstep (x : State × List Nat) (c : CPkt) : (State.ctrlStep x c).1.regions = x.1.regions := by
    simp only [State.ctrlStep]
    split
    · rfl
    · dsimp only
      split <;> rfl
  exact foldl_keeps (P := fun x : State × List Nat => x.1.regions = s.regions) _ rfl fun x c _ hx => (hstep x c).trans hx

theorem State.regions_ctrlPeriod (r : Nat) : (s.ctrlPeriod r).regions = s.regions := by
  have hvals : s.gateVals.regions = s.regions :=
    foldl_keeps (P := fun t : State => t.regions = s.regions) _ rfl fun t x _ ht => by
      dsimp only
      split
      · exact ht
      · exact ht
  unfold State.ctrlPeriod
  split
  · exact (State.regions_ctrlMove ..).trans hvals
  · exact State.regions_ctrlMove ..

end

/-! ### A period ends in a region (R26, R28) -/

/-- The region keeps its period, and the origins whose hold has reached it. -/
def SamePeriod (r : Nat) (s t : State) : Prop :=
  (t.region r).phase = (s.region r).phase ∧ (t.region r).periods = (s.region r).periods ∧ (t.region r).origins = (s.region r).origins

theorem SamePeriod.refl (r : Nat) (s : State) : SamePeriod r s s := ⟨rfl, rfl, rfl⟩

theorem SamePeriod.trans {r : Nat} {s t u : State} (h : SamePeriod r s t) (k : SamePeriod r t u) : SamePeriod r s u := by
  obtain ⟨hp, hn, ho⟩ := h
  obtain ⟨kp, kn, ko⟩ := k
  exact ⟨kp.trans hp, kn.trans hn, ko.trans ho⟩

theorem SamePeriod.of_pace {r : Nat} {s t : State} (h : t.pace = s.pace) : SamePeriod r s t := by
  have hr := congrFun h r
  simp only [State.pace, Region.pace, Prod.mk.injEq] at hr
  exact ⟨hr.1, hr.2.1, hr.2.2.1⟩

theorem samePeriod_setSkew (s : State) (r q : Nat) (b : Bool) : SamePeriod q s (s.updRegion r (fun g => { g with skew := b })) := by
  by_cases h : q = r
  · subst h
    rw [SamePeriod, State.updRegion_same]
    exact ⟨rfl, rfl, rfl⟩
  · rw [SamePeriod, State.updRegion_other _ _ h]
    exact ⟨rfl, rfl, rfl⟩

theorem samePeriod_goOn (s : State) (r q : Nat) : SamePeriod q s (s.goOn r) := by
  unfold State.goOn
  split
  · exact .refl q s
  · split
    · exact (samePeriod_setSkew s r q false).trans (.of_pace (State.pace_beginBeat ..))
    · exact (samePeriod_setSkew s r q true).trans (.of_pace (State.pace_fwrap ..))

theorem samePeriod_skewRelease (s : State) {r q : Nat} (h : q ≠ r) : SamePeriod q s (s.skewRelease r) := by
  simp only [State.skewRelease]
  split
  · refine .trans ?_ (.of_pace ((State.pace_beginBeat ..).trans (State.pace_closeCtrs ..)))
    rw [SamePeriod, State.updRegion_other _ _ h]
    exact ⟨rfl, rfl, rfl⟩
  · exact .refl q s

@[simp] theorem State.region_showHold (s : State) (r q : Nat) : (s.showHold r).region q = s.region q := rfl

/-- The region keeps its period and takes over what `s0` shows of its neighbours. -/
def Spreads (s0 s : State) (r : Nat) (t : State) : Prop :=
  (t.region r).phase = (s.region r).phase ∧ (t.region r).periods = (s.region r).periods ∧ (t.region r).origins = s0.reaching r

theorem Spreads.then {s0 s t u : State} {r : Nat} (h : Spreads s0 s r t) (k : SamePeriod r t u) : Spreads s0 s r u := by
  obtain ⟨hp, hn, ho⟩ := h
  obtain ⟨kp, kn, ko⟩ := k
  exact ⟨kp.trans hp, kn.trans hn, ko.trans ho⟩

theorem spreads_spreadTo {s0 s t : State} {r : Nat} (h : t.pace = s.pace) : Spreads s0 s r (State.spreadTo s0 t r) := by
  obtain ⟨hp, hn, -⟩ := SamePeriod.of_pace (r := r) h
  rw [State.spreadTo, Spreads, State.region_showHold, State.updRegion_same]
  exact ⟨hp, hn, rfl⟩

theorem spreads_heldPeriod (s0 s : State) (r : Nat) : Spreads s0 s r (State.heldPeriod s0 s r) := by
  unfold State.heldPeriod
  extract_lets t s1 s2 s3
  have hcount : t.pace = s.pace := by
    rw [State.pace_foldl State.pace_countStarved, State.pace_closeCtrs, State.pace_countPowerHeld, State.pace_countSlip]
  have hown : s1.pace = s.pace := by rw [State.pace_releaseOwn, State.pace_dropOver, State.pace_tickCauses, hcount]
  have hrefresh : s3.pace = s2.pace := by
    simp only [s3]
    rw [State.pace_ite, State.pace_refreshHold, ite_self]
  exact ((spreads_spreadTo hown).then (.of_pace hrefresh)).then (samePeriod_goOn s3 r r)

/-- No region is its own neighbour. -/
theorem not_mem_neighbours : ∀ r : RegionId, r.val ∉ neighbours r.val := by decide

theorem spreads_completeBeat (s0 s : State) (r : RegionId) : Spreads s0 s r (State.completeBeat s0 s r) := by
  unfold State.completeBeat
  extract_lets s1 s2 s3
  have hclose : s1.pace = s.pace := by
    simp only [s1]
    rw [State.pace_closeCtrs, State.pace_ite, State.pace_countActive, ite_self]
  have hbeat : s2.pace = s.pace := by rw [State.pace_endBeat, State.pace_fwrap, hclose]
  have hrest : SamePeriod r s3 ((neighbours r).foldl (fun s q => s.skewRelease q) s3) :=
    foldl_keeps (P := SamePeriod r s3) _ (.refl _ _) fun t q hq ht =>
      ht.trans (samePeriod_skewRelease t fun h => not_mem_neighbours r (h ▸ hq))
  exact ((spreads_spreadTo hbeat).then (samePeriod_goOn _ r r)).then hrest

/-- The period that ends in region `r` has been counted, and the region's control channels have carried. -/
def State.counted (s : State) (r : Nat) : State :=
  ((s.updRegion r (fun g => { g with periods := g.periods + 1 })).localTick r).ctrlPeriod r

theorem State.region_counted (s : State) (r : Nat) :
    (s.counted r).region r = { s.region r with periods := (s.region r).periods + 1 }.advance s.time.now (s.region r).cal := by
  rw [State.counted, State.region, State.regions_ctrlPeriod, ← State.region, State.localTick, State.updRegion_same,
    State.updRegion_same]
  rfl

theorem State.periodEnd_eq (s0 s : State) (r : Nat) : State.periodEnd s0 s r =
    if (s.counted r).held r then State.heldPeriod s0 (s.counted r) r
    else if ((s.counted r).region r).skew then (State.spreadTo s0 ((s.counted r).closeCtrs r) r).goOn r
    else if ((s.counted r).runActs r).held r then State.heldPeriod s0 ((s.counted r).runActs r) r
    else State.completeBeat s0 ((s.counted r).runActs r) r := rfl

theorem Spreads.of_pace {s0 s u t : State} {r : Nat} (h : u.pace = s.pace) (k : Spreads s0 u r t) : Spreads s0 s r t := by
  obtain ⟨hp, hn, -⟩ := SamePeriod.of_pace (r := r) h
  obtain ⟨kp, kn, ko⟩ := k
  exact ⟨kp.trans hp, kn.trans hn, ko⟩

theorem spreads_periodEnd (s0 s : State) (r : RegionId) : Spreads s0 (s.counted r) r (State.periodEnd s0 s r) := by
  rw [State.periodEnd_eq]
  split
  · exact spreads_heldPeriod ..
  · split
    · exact (spreads_spreadTo (State.pace_closeCtrs ..)).then (samePeriod_goOn ..)
    · split
      · exact .of_pace (State.pace_runActs ..) (spreads_heldPeriod ..)
      · exact .of_pace (State.pace_runActs ..) (spreads_completeBeat ..)

/-- An advance concerns local time only. -/
theorem Region.advance_frame (g : Region) (now d : Nat) :
    g.advance now d = { g with loc := (g.advance now d).loc, locHold := (g.advance now d).locHold } := by
  unfold Region.advance
  split <;> rfl

/-- The pacer period in progress of a region ends with the command that says so. -/
theorem State.endsNow_region (s : State) (r : RegionId) : ((s.endsNow r).region r).phase = 0 ∧
    ((s.endsNow r).region r).periods = (s.region r).periods + 1 ∧ ((s.endsNow r).region r).origins = s.reaching r := by
  have hholds (q o : Nat) : (s.updRegion r (fun g => { g with phase := 0 })).holdsFrom q o = s.holdsFrom q o := by
    unfold State.holdsFrom
    by_cases h : q = r
    · subst h
      rw [State.updRegion_same]
    · rw [State.updRegion_other _ _ h]
  have hreach : (s.updRegion r (fun g => { g with phase := 0 })).reaching r = s.reaching r := by
    simp only [State.reaching, hholds]
  obtain ⟨hp, hn, ho⟩ : Spreads (s.updRegion r (fun g => { g with phase := 0 })) _ r (s.endsNow r) := spreads_periodEnd ..
  rw [State.region_counted, Region.advance_frame, State.updRegion_same] at hp hn
  exact ⟨hp, hn, ho.trans hreach⟩

theorem State.mem_reaching (s : State) (r : RegionId) (o : Nat) : o ∈ s.reaching r ↔ o < 29 ∧ o ≠ r ∧
    ∃ q ∈ neighbours r, steps o q < steps o r ∧ if q = o then (s.region q).heldOwn = true else o ∈ (s.region q).origins := by
  have hholds (q : Nat) : s.holdsFrom q o = true ↔ if q = o then (s.region q).heldOwn = true else o ∈ (s.region q).origins := by
    unfold State.holdsFrom
    split <;> simp
  simp [State.reaching, hholds]

/-- HOLD_SPREAD (R26). -/
theorem holdSpread_runs (r : RegionId) (s : State) : Runs (.holdSpread r) s (fun t =>
    (∀ o, o ∈ (t.region r).origins ↔ o ∈ (s.region r).origins ∧ (s.region r).origins = s.reaching r ∨
      (s.region r).origins ≠ s.reaching r ∧ o < 29 ∧ o ≠ r ∧
        ∃ q ∈ neighbours r, steps o q < steps o r ∧
          (if q = o then (s.region q).heldOwn = true else o ∈ (s.region q).origins)) ∧
    ((s.region r).origins = s.reaching r → t = s) ∧
    ((s.region r).origins ≠ s.reaching r →
      (t.region r).periods = (s.region r).periods + 1 ∧ (t.region r).phase = 0)) := by
  by_cases h : (s.region r).origins = s.reaching r
  · refine ⟨s, congrArg Host.Outcome.next (if_pos h), fun o => ?_, fun _ => rfl, fun hne => absurd h hne⟩
    exact ⟨fun ho => .inl ⟨ho, h⟩, fun ho => ho.elim And.left fun hne => absurd h hne.1⟩
  · obtain ⟨hphase, hperiods, horigins⟩ := s.endsNow_region r
    refine ⟨s.endsNow r, congrArg Host.Outcome.next (if_neg h), fun o => ?_, fun he => absurd he h, fun _ => ⟨hperiods, hphase⟩⟩
    rw [horigins, s.mem_reaching]
    exact ⟨fun ho => .inr ⟨h, ho⟩, fun ho => ho.elim (fun he => absurd he.2 h) And.right⟩

/-! ### A skew wait ends (R23) -/

@[simp] theorem State.beats_addCause (s : State) (r code : Nat) (job : Option Nat) (what eng left : Nat) :
    (s.addCause r code job what eng left).beats = s.beats := by
  have hr : NoBeat (R.PCR_HOLD r) := noBeat_of_ge (Nat.le_add_right ..)
  have hlast (t : State) : (t.fset (F.PCR_HOLD_LAST_CAUSE r) code).beats = t.beats := t.beats_fset _ hr
  have hevents (t : State) : (t.fwrap (F.PCR_HOLD_ORIGIN_EVENTS r) 1).beats = t.beats := t.beats_fwrap _ hr
  simp only [State.addCause, State.beats_ite, State.beats_showHold, State.beats_trace, hlast, hevents, State.beats_updRegion, ite_self]

/-- SKEW_WAIT_RELEASE (R23). -/
theorem skewWaitRelease_runs {r : RegionId} {s : State} (hskew : (s.region r).skew = true) (hheld : (s.region r).held = false)
    (hmay : s.mayBegin r = true) : Runs (.skewWaitRelease r) s (fun t =>
      (t.region r).skew = false ∧ (t.region r).phase = 0 ∧ (t.region r).periods = (s.region r).periods + 1 ∧ t.beat r = s.beat r) := by
  let u := s.updRegion r (fun g =>
    { g.advance s.time.now (g.cal * g.phase / periodUnits) with skew := false, phase := 0, periods := (s.region r).periods + 1 })
  have hpace : ((u.closeCtrs r).beginBeat r).pace = u.pace := (State.pace_beginBeat ..).trans (State.pace_closeCtrs ..)
  have hbeats : ((u.closeCtrs r).beginBeat r).beats = s.beats := by
    obtain ⟨v, -, hv, h | ⟨j, left, h⟩⟩ := (u.closeCtrs r).beginBeat_cases r <;> rw [h]
    · rw [hv, State.beats_closeCtrs, State.beats_updRegion]
    · rw [State.beats_addCause, hv, State.beats_closeCtrs, State.beats_updRegion]
  refine ⟨(u.closeCtrs r).beginBeat r, congrArg Host.Outcome.next (if_pos (by simp [hskew, hheld, hmay])), ?_⟩
  have hr := congrFun hpace r
  simp only [State.pace, Region.pace, u, State.updRegion_same, Prod.mk.injEq] at hr
  obtain ⟨hphase, hperiods, -, hskew'⟩ := hr
  exact ⟨hskew', hphase, hperiods, congrFun hbeats r⟩

theorem skewWaitRelease_waits {r : RegionId} {s : State} (hmay : s.mayBegin r = false) :
    Runs (.skewWaitRelease r) s (fun t => t = s) :=
  ⟨s, congrArg Host.Outcome.next (if_neg (by simp [hmay])), rfl⟩

/-! ### A handshake that is late (R25, R28) -/

theorem listed_pcrHold {lo w : Nat} (r : RegionId)
    (h : ∃ x ∈ Blk.rows .pcr, x.off = 0x600 ∧ x.n1 = 29 ∧ x.s1 = 8 ∧ 0 < x.n2 ∧ ∃ f ∈ x.fields, f.lo = lo ∧ f.width = w) :
    Fld.Listed ⟨R.PCR_HOLD r, lo, w⟩ :=
  Fld.listed_of_row .pcr 0 0x600 29 8 r (by decide) r.isLt h (by simp only [R.PCR_HOLD, Blk.base, Blk.base0, Blk.stride])

theorem State.lastCause_showHold (s : State) (r : RegionId) :
    (s.showHold r).fget (F.PCR_HOLD_LAST_CAUSE r) = s.fget (F.PCR_HOLD_LAST_CAUSE r) := by
  have hl : (F.PCR_HOLD_LAST_CAUSE r).Listed := listed_pcrHold r (by decide)
  have happart {f : Fld} (hf : 0 < f.width) (hlo : 4 ≤ f.lo) : (F.PCR_HOLD_LAST_CAUSE r).Apart f := .inr ⟨hf, .inl hlo⟩
  simp only [State.showHold, State.fsetB]
  rw [State.fget_fset_apart _ _ hl (happart (by simp [F.PCR_HOLD_CUR_CAUSE]) (by simp [F.PCR_HOLD_CUR_CAUSE])),
    State.fget_fset_apart _ _ hl (happart (by simp [F.PCR_HOLD_PROPAGATED]) (by simp [F.PCR_HOLD_PROPAGATED])),
    State.fget_fset_apart _ _ hl (happart (by simp [F.PCR_HOLD_HELD]) (by simp [F.PCR_HOLD_HELD]))]

theorem State.held_showHold (s : State) (r : RegionId) : (s.showHold r).fbit (F.PCR_HOLD_HELD r) = s.held r := by
  have hl : (F.PCR_HOLD_HELD r).Listed := listed_pcrHold r (by decide)
  have hcur : (F.PCR_HOLD_HELD r).Apart (F.PCR_HOLD_CUR_CAUSE r) :=
    .inr ⟨by simp [F.PCR_HOLD_CUR_CAUSE], .inr (by simp [F.PCR_HOLD_CUR_CAUSE, F.PCR_HOLD_HELD])⟩
  have hprop : (F.PCR_HOLD_HELD r).Apart (F.PCR_HOLD_PROPAGATED r) :=
    .inr ⟨by simp [F.PCR_HOLD_PROPAGATED], .inl (by simp [F.PCR_HOLD_PROPAGATED, F.PCR_HOLD_HELD])⟩
  rw [State.held, State.fbit, State.showHold, State.fget_fset_apart _ _ hl hcur, State.fsetB, State.fget_fset_apart _ _ hl hprop,
    State.fsetB, State.fget_fset_same _ _ hl]
  generalize (s.region r).held = h
  cases h <;> rfl

/-- HANDSHAKE_LATE (R25, R28, R31). -/
theorem handshakeLate_runs {r nb : RegionId} {s : State} (hn : (neighbours r).contains nb.val = true) (hh : s.held nb = false)
    (hown : (s.region r).heldOwn = false)
    (hnew : (s.region r).causes.any (fun d => d.code = 1 && d.what = nb.val && d.eng = 0) = false) :
    Runs (.handshakeLate r nb) s (fun t => (t.region r).heldOwn = true ∧
      (t.region r).causes = [⟨1, none, nb.val, 0, 0, (s.region r).periods, (s.region r).loc⟩] ∧
      (t.region r).first = some ⟨1, none, nb.val, 0, 0, (s.region r).periods, (s.region r).loc⟩ ∧
      t.fget (F.PCR_HOLD_LAST_CAUSE r) = 1 ∧ t.fbit (F.PCR_HOLD_HELD r) = true ∧ ∀ q : RegionId, q ≠ r → t.region q = s.region q) := by
  let c : HoldCause := ⟨1, none, nb.val, 0, 0, (s.region r).periods, (s.region r).loc⟩
  let f (g : Region) : Region := { g with causes := [c], first := some c, heldOwn := true }
  let u := ((s.updRegion r f).fwrap (F.PCR_HOLD_ORIGIN_EVENTS r) 1).fset (F.PCR_HOLD_LAST_CAUSE r) 1
  have hu (q : Nat) : u.region q = (s.updRegion r f).region q := by
    simp only [u]
    rw [State.fset, State.setReg_to_region, State.fwrap, State.fset, State.setReg_to_region]
  have hadd : s.addCause r 1 none nb.val 0 0 = (u.showHold r).trace 0 r none 1 := by
    simp only [State.addCause]
    rw [if_neg (by rw [hnew]; decide), if_neg (by rw [hown]; decide)]
  have hregion (q : Nat) : (s.addCause r 1 none nb.val 0 0).region q = (s.updRegion r f).region q := by
    rw [hadd, State.region_trace, State.region_showHold, hu]
  refine ⟨s.addCause r 1 none nb.val 0 0, congrArg Host.Outcome.next (if_pos ⟨hn, hh⟩), ?_, ?_, ?_, ?_, ?_, fun q hq => ?_⟩
  · rw [hregion, State.updRegion_same]
  · rw [hregion, State.updRegion_same]
  · rw [hregion, State.updRegion_same]
  · have hl : (F.PCR_HOLD_LAST_CAUSE r).Listed := listed_pcrHold r (by decide)
    have hne : (F.PCR_HOLD_LAST_CAUSE r).addr ≠ R.TCK_LSP_STAT := by
      simp only [F.PCR_HOLD_LAST_CAUSE, R.PCR_HOLD, R.TCK_LSP_STAT]
      omega
    rw [hadd, State.fget_trace _ _ _ _ _ hne, State.lastCause_showHold, State.fget_fset_same _ _ hl]
    rfl
  · have hne : (F.PCR_HOLD_HELD r).addr ≠ R.TCK_LSP_STAT := by
      simp only [F.PCR_HOLD_HELD, R.PCR_HOLD, R.TCK_LSP_STAT]
      omega
    have hheld : u.held r = true := by
      rw [State.held, hu, State.updRegion_same]
      rfl
    rw [hadd, State.fbit, State.fget_trace _ _ _ _ _ hne, ← State.fbit, State.held_showHold, hheld]
  · rw [hregion, State.updRegion_other _ _ fun h => hq (Fin.ext h)]

/-! ### A hold's time limit (R31) -/

theorem State.jobs_clearCausesAll (s : State) (p : HoldCause → Bool) : (s.clearCausesAll p).jobs = s.jobs :=
  foldl_keeps (P := fun t : State => t.jobs = s.jobs) _ rfl fun t r _ ht => by
    split
    · rw [State.clearCauses_frame, ht]
    · exact ht

theorem State.jobs_haltStalls (s : State) (j : Nat) : (s.haltStalls j).jobs = (s.updJob j (fun jb =>
    { jb with phase := .halted, stop := some (s.jobBeat j), haltDue := none, launchPending := false })).jobs := by
  unfold State.haltStalls
  extract_lets f s1 s2 s3
  have hstalls : s2.jobs = s1.jobs := foldl_keeps (P := fun t : State => t.jobs = s1.jobs) _ rfl fun t i _ ht => ht
  have hlofts : s3.jobs = s1.jobs := foldl_keeps (P := fun t : State => t.jobs = s1.jobs) _ hstalls fun t n _ ht => by
    split <;> exact ht
  rw [State.jobs_clearCausesAll, hlofts]

/-- A live job that halts at once has halted (R31). -/
theorem State.phase_haltNow {s : State} {j : Nat} (h : (s.job j).live = true) (code : Nat) :
    ((s.haltNow j code).job j).phase = .halted := by
  rw [State.haltNow, if_pos h, State.job, (State.notes_haltSends ..).jobs, State.jobs_haltStalls, ← State.job, State.updJob_same]

theorem Raises.of_prefix {s t : State} {r : ErrRec} (h : s.err.flight ++ [r] <+: t.err.flight) : Raises s t r.code r.sev := by
  obtain ⟨more, h⟩ := h
  exact ⟨r, more, by rw [← h, List.append_assoc, List.singleton_append], rfl, rfl⟩

/-- HOLD_TIMEOUT of a hold whose first cause is a late handshake (R31). -/
theorem holdTimeout_handshake {r : RegionId} {s : State} {c : HoldCause} (hfirst : (s.region r).first = some c)
    (hown : (s.region r).heldOwn = true) (hdue : s.holdDue r c = true) (hc : c.code = 1) (hf : s.err.fatal = false) :
    Runs (.holdTimeout r) s (fun t => t.err.fatal = true ∧ Raises s t 0x0104 3) := by
  let e : Err := { code := 0x0104, blk := r, inst := c.what }
  have hclass : codeClass e.code = 0 := by simp only [e]; decide
  have hraise : s.raise e = (s.raiseRec e).deviceFatal e.code := by
    rw [State.raise, State.sevOf_of_class hclass, if_pos (by simp only [e]; decide), hf]
    rfl
  obtain ⟨hcalm, hfatal⟩ := (s.raiseRec e).calm_deviceFatal e.code
  refine ⟨s.raise e, ?_, by rw [hraise]; exact hfatal, ?_⟩
  · refine congrArg Host.Outcome.next ?_
    rw [hfirst]
    dsimp only
    rw [hown, hdue, if_neg (by decide), if_pos hc, hf]
    rfl
  · have hflight := hcalm.flight
    rw [s.flight_raiseRec, ← hraise] at hflight
    have h := Raises.of_prefix hflight
    rwa [show (s.recordOf e).sev = 3 from State.sevOf_of_class (s := s) hclass] at h

theorem holdTimeout_fatal {r : RegionId} {s : State} {c : HoldCause} (hfirst : (s.region r).first = some c)
    (hown : (s.region r).heldOwn = true) (hdue : s.holdDue r c = true) (hc : c.code = 1) (hf : s.err.fatal = true) :
    Runs (.holdTimeout r) s (fun t => t = s) := by
  refine ⟨s, congrArg Host.Outcome.next ?_, rfl⟩
  rw [hfirst]
  dsimp only
  rw [hown, hdue, if_neg (by decide), if_pos hc, hf]
  rfl

/-- HOLD_TIMEOUT of another hold: PCR_HOLD_TIMEOUT halts the job of its first cause at once (R31). -/
theorem holdTimeout_job {r : RegionId} {s : State} {c : HoldCause} (hfirst : (s.region r).first = some c)
    (hown : (s.region r).heldOwn = true) (hdue : s.holdDue r c = true) (hc : c.code ≠ 1) :
    Runs (.holdTimeout r) s (fun t => Raises s t 0x0102 2 ∧ (t.region r).first = (t.region r).causes.head? ∧
      ∀ j < 8, c.job = some j → (s.job j).live = true → (t.job j).phase = .halted) := by
  let e : Err := { code := 0x0102, blk := r, job := c.job }
  have hclass : codeClass e.code = 0 := by simp only [e]; decide
  have hraise : s.raise e = (c.job.toList).foldl (fun s j => s.haltNow j e.code) (s.raiseRec e) := by
    rw [State.raise, State.sevOf_of_class hclass, State.escalates_of_class hclass]
    rfl
  have hflight : s.err.flight ++ [s.recordOf e] <+: (s.raise e).err.flight := by
    rw [hraise, ← s.flight_raiseRec]
    exact (calm_foldl (fun t j => t.calm_haltNow j e.code) _ _).flight
  refine ⟨(s.raise e).updRegion r (fun g => { g with first := g.causes.head? }), ?_, ?_, ?_, fun j _ hj hlive => ?_⟩
  · refine congrArg Host.Outcome.next ?_
    rw [hfirst]
    dsimp only
    rw [hown, hdue, if_neg (by decide), if_neg hc]
  · have h : Raises s (s.raise e) 0x0102 (s.recordOf e).sev := Raises.of_prefix hflight
    rw [show (s.recordOf e).sev = 2 from State.sevOf_of_class (s := s) hclass] at h
    exact h
  · rw [State.updRegion_same]
  · have hrec : ((s.raiseRec e).job j).live = true := by rw [State.job, (s.notes_raiseRec e).jobs]; exact hlive
    have hjob : s.raise e = (s.raiseRec e).haltNow j e.code := by rw [hraise, hj]; rfl
    rw [State.updRegion_to_job, hjob]
    exact State.phase_haltNow hrec _

/-! ### The release of a hold (R25, R156) -/

/-- A handshake starves no stall: its end counts nothing. -/
theorem State.clearHandshake_eq (s : State) (r : Nat) : s.clearCauses r (fun c => c.code = 1) =
    (s.updRegion r (fun g => { g with causes := g.causes.filter (fun c => !decide (c.code = 1)) })).showHold r := by
  have hcount (l : List HoldCause) (hl : ∀ c ∈ l, c.code = 1) (u : State) : l.foldl State.countStarved u = u :=
    foldl_keeps (P := fun t : State => t = u) l rfl fun t c hc ht => by
      rw [State.countStarved, if_neg (by rw [hl c hc]; decide), ht]
  rw [State.clearCauses, hcount _ fun c hc => of_decide_eq_true (List.mem_filter.1 hc).2]

/-- Whether a wait is satisfied lies in counters, stalls, barns and jobs, and in the beat count of the region. -/
theorem State.waitOk_congr {s t : State} (h : t = { s with regs := t.regs, regions := t.regions }) {b : Nat} (hbeat : t.beat b = s.beat b)
    (k e : Nat) (q : QCmd) : t.waitOk b k e q = s.waitOk b k e q := by
  have hstall (i : Nat) : t.stall i = s.stall i := by rw [h]; rfl
  have hjob (j : Nat) : t.job j = s.job j := by rw [h]; rfl
  have hbarn (n : Nat) : t.barn n = s.barn n := by rw [h]; rfl
  have hctr (c : Nat) : t.ctr c = s.ctr c := by rw [h]; rfl
  have haccept (x e' : Nat) (c : QCmd) : t.canAccept b x e' c = s.canAccept b x e' c := by
    have hflights : t.loftFlights b = s.loftFlights b := by simp only [State.loftFlights, hstall]
    have harr : t.arrAccepts b x c.w = s.arrAccepts b x c.w := by rw [State.arrAccepts, State.arrAccepts, hstall, hbeat]
    have hdma : t.dmaChan b x = s.dmaChan b x := by rw [State.dmaChan, State.dmaChan, hstall, hbeat]
    have hsend : t.sendChan b x = s.sendChan b x := by rw [State.sendChan, State.sendChan, hstall, hbeat]
    have hheld : t.heldEngines b = s.heldEngines b := by rw [State.heldEngines, State.heldEngines, hflights, hbeat]
    have hpwr : t.pwrBanks b = s.pwrBanks b := by rw [State.pwrBanks, State.pwrBanks, hflights, hbeat]
    have hloft : t.lftAccepts b c.w = s.lftAccepts b c.w := by rw [State.lftAccepts, State.lftAccepts, hheld, hpwr]
    unfold State.canAccept
    rw [harr, hstall, hbeat, hdma, hsend, hloft]
  have hraw (j : Nat) : t.jobBeatRaw j b = s.jobBeatRaw j b := by rw [State.jobBeatRaw, State.jobBeatRaw, hjob, hbeat]
  have hat (j : Nat) : t.jobBeatAt j b = s.jobBeatAt j b := by rw [State.jobBeatAt, State.jobBeatAt, hjob, hraw]
  have hgoes (j : Nat) : t.jobGoes b j = s.jobGoes b j := by
    rw [State.jobGoes, State.jobGoes, State.jobBegun, State.jobBegun, hjob, hbeat, hraw]
  have hdue (x e' : Nat) : t.headDue b x e' = s.headDue b x e' := by
    unfold State.headDue
    rw [hbarn, hstall, hbeat]
    simp only [hgoes, hat]
  have hleft (key : Nat) : t.ctrLeft b k e key = s.ctrLeft b k e key := by
    unfold State.ctrLeft
    simp only [hdue, haccept, hctr]
  unfold State.waitOk
  simp only [hleft, hctr]

/-- What ends a cause lies in the lofts and in a wait. -/
theorem State.causeOver_congr {s t : State} (h : t = { s with regs := t.regs, regions := t.regions }) {r : Nat}
    (hbeat : t.beat r = s.beat r) (c : HoldCause) : t.causeOver r c = s.causeOver r c := by
  have hstall (i : Nat) : t.stall i = s.stall i := by rw [h]; rfl
  have hloft (n : Nat) : t.loft n = s.loft n := by rw [h]; rfl
  simp only [State.causeOver, State.repairing, State.waitOk_congr h hbeat, hstall, hloft]

/-- The handshake and the causes that are over leave the region's hold. -/
def State.dropCleared (s : State) (r : Nat) : State := (s.clearCauses r (fun c => c.code = 1)).dropOver r

theorem State.region_dropCleared (s : State) (r : RegionId) : (s.dropCleared r).region r =
    { s.region r with causes := (s.region r).causes.filter (fun c => c.code ≠ 1 && !s.causeOver r c) } := by
  have hbeats : (s.clearCauses r (fun c => c.code = 1)).beats = s.beats := by
    rw [State.clearHandshake_eq, State.beats_showHold, State.beats_updRegion]
  have hover (c : HoldCause) : (s.clearCauses r (fun c => c.code = 1)).causeOver r c = s.causeOver r c :=
    State.causeOver_congr (State.clearCauses_frame ..) (congrFun hbeats r) c
  rw [State.dropCleared, State.dropOver, State.updRegion_same, State.clearHandshake_eq, State.region_showHold, State.updRegion_same,
    ← State.clearHandshake_eq]
  simp only [hover, List.filter_filter, Bool.and_comm, decide_not]

theorem State.region_dropCleared_other (s : State) {r q : Nat} (h : q ≠ r) : (s.dropCleared r).region q = s.region q := by
  rw [State.dropCleared, State.dropOver, State.updRegion_other _ _ h, State.clearHandshake_eq, State.region_showHold,
    State.updRegion_other _ _ h]

/-- Only the power plan and a refresh hold the region by itself. -/
def PlanHolds (r : Nat) (s : State) : Prop := ∀ c ∈ (s.region r).causes, c.code = 5 ∨ c.code = 8

theorem PlanHolds.of_nil {r : Nat} {s : State} (h : (s.region r).causes = []) : PlanHolds r s := fun c hc => by
  rw [h] at hc
  exact absurd hc List.not_mem_nil

theorem PlanHolds.calm {r : Nat} {s t : State} (h : PlanHolds r s) (k : Calm s t) : PlanHolds r t :=
  fun c hc => h c ((k.region r).2 hc)

theorem PlanHolds.updRegion {r : Nat} {s : State} (h : PlanHolds r s) {f : Region → Region} (hf : ∀ g, (f g).causes = g.causes) :
    PlanHolds r (s.updRegion r f) := by
  rw [PlanHolds, State.updRegion_same, hf]
  exact h

theorem PlanHolds.addCause {r : Nat} {s : State} (h : PlanHolds r s) {code : Nat} (hcode : code = 5 ∨ code = 8) (job : Option Nat)
    (what eng left : Nat) : PlanHolds r (s.addCause r code job what eng left) := by
  unfold State.addCause
  extract_lets g c lower s1 s2 s3
  split
  · exact h
  · split
    · have hadd : PlanHolds r s1 := by
        rw [PlanHolds, State.updRegion_same]
        exact fun d hd => (List.mem_append.1 hd).elim (h d) fun hd => by rw [List.mem_singleton.1 hd]; exact hcode
      refine hadd.calm (.of_pacing ((State.pacing_showHold ..).trans ?_))
      simp only [s2]
      rw [State.pacing_ite, State.pacing_fset, ite_self]
    · have hnew : PlanHolds r s3 := by
        rw [PlanHolds, State.updRegion_same]
        exact fun d hd => by rw [List.mem_singleton.1 hd]; exact hcode
      refine hnew.calm (.of_pacing ?_)
      rw [State.pacing_trace, State.pacing_showHold, State.pacing_fset, State.pacing_fwrap]

theorem PlanHolds.goOn {r : Nat} {s : State} (h : PlanHolds r s) : PlanHolds r (s.goOn r) := by
  unfold State.goOn
  split
  · exact h
  · split
    · have hskew := h.updRegion (f := fun g => { g with skew := false }) fun _ => rfl
      obtain ⟨u, hu, -, hb | ⟨j, left, hb⟩⟩ := (s.updRegion r (fun g => { g with skew := false })).beginBeat_cases r <;> rw [hb]
      · exact hskew.calm hu
      · exact (hskew.calm hu).addCause (.inl rfl) _ _ _ _
    · exact (h.updRegion (f := fun g => { g with skew := true }) fun _ => rfl).calm (.of_pacing (State.pacing_fwrap ..))

theorem PlanHolds.releaseOwn {r : Nat} {s : State} (h : PlanHolds r s) : PlanHolds r (s.releaseOwn r) := by
  unfold State.releaseOwn
  extract_lets g s1 s2
  have hend : PlanHolds r s2 := (h.updRegion (f := fun g => { g with heldOwn := false, first := none }) fun _ => rfl).calm
    (.of_pacing ((State.pacing_trace ..).trans (State.pacing_showHold ..)))
  split
  · split
    · split
      · exact hend.calm (State.calm_raise ..)
      · exact hend
    · exact hend
  · exact h

/-- A hold whose causes are all over ends with the held period. -/
theorem planHolds_heldPeriod {s : State} {r : Nat} (s0 : State) (h : (s.region r).causes = []) :
    PlanHolds r (State.heldPeriod s0 s r) := by
  unfold State.heldPeriod
  extract_lets t s1 s2 s3
  have hcount : Calm s t := by
    have hclose : Calm s (((s.countSlip r).countPowerHeld r).closeCtrs r) :=
      .trans (.of_pacing ((State.pacing_countPowerHeld ..).trans (State.pacing_countSlip ..))) (State.calm_closeCtrs ..)
    simp only [t, h]
    exact hclose
  have hnil : (t.region r).causes = [] := List.eq_nil_of_subset_nil (h ▸ (hcount.region r).2)
  have hdrop : (((t.tickCauses r).dropOver r).region r).causes = [] := by
    rw [State.dropOver, State.updRegion_same, State.tickCauses, State.updRegion_same, hnil]
    rfl
  have hown : PlanHolds r s1 := (PlanHolds.of_nil hdrop).releaseOwn
  have hspread : PlanHolds r s2 := (hown.updRegion (f := fun g => { g with origins := s0.reaching r }) fun _ => rfl).calm
    (.of_pacing (State.pacing_showHold ..))
  have hrefresh : PlanHolds r s3 := by
    simp only [s3, State.refreshHold]
    split
    · exact hspread
    · split
      · exact hspread.addCause (.inr rfl) _ _ _ _
      · exact hspread
  exact hrefresh.goOn

/-- HOLD_RELEASE of a hold whose causes are all over (R25). -/
theorem holdRelease_ends {r : RegionId} {s : State} (hown : (s.region r).heldOwn = true)
    (hover : ∀ c ∈ (s.region r).causes, s.causeOver r c = true ∨ c.code = 1) : Runs (.holdRelease r) s (fun t =>
      (∀ c ∈ (t.region r).causes, c.code = 5 ∨ c.code = 8) ∧ (t.region r).periods = (s.region r).periods + 1) := by
  have hregion := s.region_dropCleared r
  rw [List.filter_eq_nil_iff.2 fun c hc => by obtain h | h := hover c hc <;> simp [h]] at hregion
  obtain ⟨-, hperiods, -⟩ := (s.dropCleared r).endsNow_region r
  rw [hregion] at hperiods
  refine ⟨(s.dropCleared r).endsNow r, ?_, ?_, hperiods⟩
  · refine congrArg Host.Outcome.next ((if_neg (by simp [hown])).trans (if_pos ?_))
    exact congrArg Region.causes hregion
  · let u := (s.dropCleared r).updRegion r (fun g => { g with phase := 0 })
    have hu : (u.counted r).region r =
        { ({ (s.dropCleared r).region r with phase := 0 } : Region) with periods := (s.region r).periods + 1 }.advance u.time.now
          (u.region r).cal := by
      rw [State.region_counted, State.updRegion_same, hregion]
    rw [Region.advance_frame, hregion] at hu
    have hheld : (u.counted r).held r = true := by
      rw [State.held, hu, Region.held, hown]
      rfl
    have hend : (s.dropCleared r).endsNow r = State.heldPeriod u (u.counted r) r := by
      rw [State.endsNow, State.periodEnd_eq, if_pos hheld]
    rw [hend]
    exact planHolds_heldPeriod u (by rw [hu])

/-- HOLD_RELEASE that leaves a cause (R25). -/
theorem holdRelease_stays {r : RegionId} {s : State} (hown : (s.region r).heldOwn = true)
    (hleft : ∃ c ∈ (s.region r).causes, s.causeOver r c = false ∧ c.code ≠ 1) : Runs (.holdRelease r) s (fun t =>
      (t.region r).causes = (s.region r).causes.filter (fun c => c.code ≠ 1 && !s.causeOver r c) ∧ (t.region r).heldOwn = true ∧
      (t.region r).first = (s.region r).first ∧ ∀ q : RegionId, q ≠ r → t.region q = s.region q) := by
  have hregion := s.region_dropCleared r
  refine ⟨s.dropCleared r, ?_, by rw [hregion], by rw [hregion, hown], by rw [hregion],
    fun q hq => s.region_dropCleared_other fun h => hq (Fin.ext h)⟩
  refine congrArg Host.Outcome.next ((if_neg (by simp [hown])).trans (if_neg ?_))
  obtain ⟨c, hc, hover, hcode⟩ := hleft
  intro hnil
  have hnil' : ((s.dropCleared r).region r).causes = [] := hnil
  rw [hregion] at hnil'
  exact absurd (List.mem_filter.2 ⟨hc, by simp [hover, hcode]⟩) (hnil' ▸ List.not_mem_nil)

/-- Settles O42: one theorem for each row, by what the end of a pacer period and the halts of an error leave of the regions. -/
theorem holdsComplete : Obligations.HoldsComplete := by
  unfold Obligations.HoldsComplete
  intro r s
  refine ⟨skewWaitRelease_runs, skewWaitRelease_waits, fun nb => handshakeLate_runs, holdSpread_runs r s, fun hown => ?_,
    holdRelease_ends, holdRelease_stays, fun c hfirst hown hdue => ?_⟩
  · exact ⟨s, congrArg Host.Outcome.next (if_pos (by simp [hown])), rfl⟩
  · have hd : s.holdDue r c = true := decide_eq_true hdue
    exact ⟨holdTimeout_handshake hfirst hown hd, holdTimeout_fatal hfirst hown hd, holdTimeout_job hfirst hown hd⟩

end Sys2Proof.Machine

/-! SUPPORT. The control core (R46 to R62): what the arithmetic computes, what an instruction at the program counter does, and
what writing a result, going on, and storing leave alone. -/

namespace Sys2Proof.Machine

/-! ### The arithmetic of R51 -/

theorem mulhu_toNat (a b : Word) : (aluResult .mulhu a b).toNat = a.toNat * b.toNat / 2 ^ 64 := by
  have hlt : a.toNat * b.toNat < 2 ^ 64 * 2 ^ 64 := Nat.mul_lt_mul'' a.isLt b.isLt
  rw [aluResult, BitVec.toNat_ofNat]
  exact Nat.mod_eq_of_lt (Nat.div_lt_of_lt_mul hlt)

/-- The low and the high word of a product make up the whole. -/
theorem mul_mulhu (a b : Word) : (aluResult .mul a b).toNat + 2 ^ 64 * (aluResult .mulhu a b).toNat = a.toNat * b.toNat := by
  rw [mulhu_toNat, aluResult, BitVec.toNat_mul]
  exact Nat.mod_add_div _ _

/-- The high word of a signed product fits in a word. -/
theorem mulh_toInt (a b : Word) : (aluResult .mulh a b).toInt = a.toInt * b.toInt / 2 ^ 64 := by
  have ha : |a.toInt| ≤ 2 ^ 63 := abs_le.2 ⟨a.le_toInt, a.toInt_lt.le⟩
  have hb : |b.toInt| ≤ 2 ^ 63 := abs_le.2 ⟨b.le_toInt, b.toInt_lt.le⟩
  have hab : |a.toInt * b.toInt| ≤ 2 ^ 63 * 2 ^ 63 := by
    rw [abs_mul]
    exact mul_le_mul ha hb (abs_nonneg _) (by norm_num)
  obtain ⟨hlo, hhi⟩ := abs_le.1 hab
  rw [aluResult, BitVec.toInt_ofInt]
  generalize a.toInt * b.toInt = p at hlo hhi ⊢
  exact Int.bmod_eq_of_le (by omega) (by omega)

theorem sra_toInt (a : Word) (n : Nat) : (a.sshiftRight n).toInt = a.toInt / 2 ^ n := by
  rw [BitVec.toInt_sshiftRight, Int.shiftRight_eq_div_pow]
  norm_cast

theorem min_toInt (a b : Word) : (aluResult .min a b).toInt = min a.toInt b.toInt := by
  rw [aluResult, apply_ite BitVec.toInt]
  exact (min_def _ _).symm

theorem max_toInt (a b : Word) : (aluResult .max a b).toInt = max a.toInt b.toInt := by
  rw [aluResult, apply_ite BitVec.toInt]
  exact (max_def _ _).symm

theorem minu_toNat (a b : Word) : (aluResult .minu a b).toNat = min a.toNat b.toNat := by
  rw [aluResult, apply_ite BitVec.toNat]
  exact (min_def _ _).symm

theorem maxu_toNat (a b : Word) : (aluResult .maxu a b).toNat = max a.toNat b.toNat := by
  rw [aluResult, apply_ite BitVec.toNat]
  exact (max_def _ _).symm

theorem divu_toNat (a b : Word) : (aluResult .divu a b).toNat = if b.toNat = 0 then 2 ^ 64 - 1 else a.toNat / b.toNat := by
  have hzero : b = 0 ↔ b.toNat = 0 := BitVec.toNat_inj.symm
  simp only [aluResult, hzero]
  split
  · rfl
  · exact Nat.mod_eq_of_lt ((Nat.div_le_self _ _).trans_lt a.isLt)

theorem remu_toNat (a b : Word) : (aluResult .remu a b).toNat = if b.toNat = 0 then a.toNat else a.toNat % b.toNat := by
  have hzero : b = 0 ↔ b.toNat = 0 := BitVec.toNat_inj.symm
  simp only [aluResult, hzero]
  split
  · rfl
  · exact Nat.mod_eq_of_lt ((Nat.mod_le _ _).trans_lt a.isLt)

/-- An immediate of 16 bits is sign-extended by ADDI. -/
theorem addi_toNat (a : Word) {n : Nat} (hn : n < 65536) :
    (immResult .addi a n).toNat = (a.toNat + n + (if n < 32768 then 0 else 2 ^ 64 - 65536)) % 2 ^ 64 := by
  rw [immResult, BitVec.toNat_add, BitVec.toNat_signExtend, BitVec.toNat_setWidth, BitVec.msb_eq_decide, BitVec.toNat_ofNat,
    Nat.mod_eq_of_lt hn]
  by_cases h : n < 32768
  · rw [if_pos h, if_neg (by simpa using h)]
    omega
  · rw [if_neg h, if_pos (by simpa using h)]
    omega

/-- The shift makes room for the immediate, so no carry arises. -/
theorem shi_toNat (a : Word) {n : Nat} (hn : n < 65536) : (immResult .shi a n).toNat = a.toNat * 65536 % 2 ^ 64 + n := by
  have hlow : a.toNat * 65536 % 2 ^ 64 = 2 ^ 16 * (a.toNat % 2 ^ 48) := by omega
  rw [immResult, BitVec.toNat_or, BitVec.toNat_shiftLeft, BitVec.toNat_ofNat, Nat.mod_eq_of_lt (by omega : n < 2 ^ 64),
    Nat.shiftLeft_eq, hlow, ← Nat.two_pow_add_eq_or_of_lt hn]

theorem getLsbD_ofNat_imm {n : Nat} (hn : n < 65536) (i : Nat) : (BitVec.ofNat 64 n).getLsbD i = n.testBit i := by
  rw [BitVec.getLsbD_ofNat, Bool.and_eq_right_iff_imp]
  intro h
  have := Nat.ge_two_pow_of_testBit h
  have : 2 ^ i < 2 ^ 64 := by omega
  simpa using (Nat.pow_lt_pow_iff_right (by norm_num)).1 this

/-- Settles O3, operation by operation. -/
theorem aluResults : Obligations.AluResults := by
  unfold Obligations.AluResults
  intro a b n hn
  have himm := getLsbD_ofNat_imm hn
  refine ⟨BitVec.toNat_add a b, ?_, fun i => ⟨BitVec.getLsbD_and, BitVec.getLsbD_or, BitVec.getLsbD_xor⟩,
    ?_, ?_, sra_toInt a _, ?_, ?_, min_toInt a b, max_toInt a b, minu_toNat a b, maxu_toNat a b, mul_mulhu a b, mulh_toInt a b,
    divu_toNat a b, remu_toNat a b, addi_toNat a hn, shi_toNat a hn, ?_, ?_, sra_toInt a _, fun i => ⟨?_, ?_, ?_⟩⟩
  · simp only [aluResult]
    bv_omega
  · rw [aluResult, BitVec.toNat_shiftLeft, Nat.shiftLeft_eq]
  · rw [aluResult, BitVec.toNat_ushiftRight, Nat.shiftRight_eq_div_pow]
  · exact apply_ite BitVec.toNat _ _ _
  · exact apply_ite BitVec.toNat _ _ _
  · rw [immResult, BitVec.toNat_shiftLeft, Nat.shiftLeft_eq]
  · rw [immResult, BitVec.toNat_ushiftRight, Nat.shiftRight_eq_div_pow]
  · rw [immResult, BitVec.getLsbD_and, himm]
  · rw [immResult, BitVec.getLsbD_or, himm]
  · rw [immResult, BitVec.getLsbD_xor, himm]

/-! ### Scalar registers and the next instruction -/

theorem Stall.setX_frame (t : Stall) (n : Nat) (v : Word) : t.setX n v = { t with x := (t.setX n v).x } := by
  unfold Stall.setX
  split <;> rfl

/-- x0 keeps reading as zero (R46). -/
theorem Stall.xr_setX (t : Stall) (n m : Nat) (v : Word) : (t.setX n v).xr m = if m = n ∧ n ≠ 0 then v else t.xr m := by
  unfold Stall.setX Stall.xr
  by_cases hn : n = 0
  · simp [hn]
  · by_cases hm : m = n
    · subst hm
      simp [hn]
    · simp [hn, hm, Tab.get_set_other _ _ hm]

theorem OnlyStall.updStall (s : State) (i : Nat) (f : Stall → Stall) : OnlyStall i s (s.updStall i f) :=
  ⟨rfl, fun _ h => s.updStall_other f h⟩

/-- A result is written to rd, and the core goes on (R46, R51, R54). -/
theorem State.result_completes (s : State) (b k rd : Nat) (v : Word) :
    RegsAfter s (s.result b k rd v) (48 * b + k) rd v ∧ GoesOn s (s.result b k rd v) (48 * b + k) ∧
      CoreOnly s (s.result b k rd v) (48 * b + k) := by
  unfold RegsAfter GoesOn CoreOnly State.result
  rw [State.updStall_same]
  refine ⟨fun n => Stall.xr_setX _ rd n v, ?_, .updStall .., ?_⟩
  · rw [Stall.setX_frame]
    exact ⟨rfl, rfl⟩
  · rw [Stall.setX_frame]
    rfl

/-- Going on changes the program counter and the loops only. -/
theorem State.step1_goesOn (s : State) (b k : Nat) : GoesOn s (s.step1 b k) (48 * b + k) ∧
    (s.step1 b k).stall (48 * b + k) = { s.stall (48 * b + k) with pc := ((s.step1 b k).stall (48 * b + k)).pc
                                                                   loops := ((s.step1 b k).stall (48 * b + k)).loops } := by
  unfold GoesOn State.step1
  rw [State.updStall_same]
  exact ⟨⟨rfl, rfl⟩, rfl⟩

/-! ### The instruction at the program counter (R47, R51, R52) -/

/-- The row executes the instruction that the core is about to execute, if it is one that it knows. -/
theorem State.core_at {s : State} {b k : Nat} {i : Insn} {f : Insn → Option (State → State)} (h : AtInsn s b k i) :
    s.core b k f = (f i).elim (.next s) (fun g => .next (g s)) := by
  obtain ⟨hruns, hfetch, hbusy⟩ := h
  rw [State.core, if_pos hruns, hfetch]
  simp only [hbusy]
  cases f i <;> rfl

theorem exec_aluRow (op : AluOp) (b : Barn) (k : StallId) (s : State) : exec (aluRow op b k) s = s.alu op b k := by
  cases op <;> rfl

theorem exec_immRow (op : ImmOp) (b : Barn) (k : StallId) (s : State) : exec (immRow op b k) s = s.immOp op b k := by
  cases op <;> rfl

/-- A command whose outcome is a result written to rd. -/
theorem runs_result {c : Instr} {s : State} {b k rd : Nat} {v : Word} (h : exec c s = .next (s.result b k rd v)) :
    Runs c s (fun t => RegsAfter s t (48 * b + k) rd v ∧ GoesOn s t (48 * b + k) ∧ CoreOnly s t (48 * b + k)) :=
  ⟨_, h, s.result_completes b k rd v⟩

/-- Settles O4: every operation of the two groups ends in a result written to rd. -/
theorem aluInstructionsComplete : Obligations.AluInstructionsComplete := by
  unfold Obligations.AluInstructionsComplete
  intro b k s rd rs1
  refine ⟨fun op rs2 h => runs_result ?_, fun op n h => runs_result ?_⟩
  · rw [exec_aluRow, State.alu, State.core_at h]
    exact congrArg (Option.elim · _ _) (if_pos rfl)
  · rw [exec_immRow, State.immOp, State.core_at h]
    exact congrArg (Option.elim · _ _) (if_pos rfl)

/-- The special registers are those of R53's table. -/
theorem State.special_eq (s : State) (b k n : Nat) : s.special b k n = specialReg s b k n := by
  unfold State.special specialReg
  match n with
  | 0 | 1 | 2 | 3 | 4 | 5 | 6 | 7 | 8 | 9 => rfl
  | n + 10 => rfl

/-- The iteration of the loop at a level, 0 where fewer loops are active (R54). -/
theorem iter_at (loops : List LoopEnt) (n : Nat) :
    (match loops[n]? with | some l => l.iter | none => 0) = ((loops.map LoopEnt.iter).drop n).headD 0 := by
  rw [List.headD_eq_head?_getD, List.head?_drop, List.getElem?_map]
  cases loops[n]? <;> rfl

/-- Settles O5: each of the four ends in a result written to rd. -/
theorem registerReadsComplete : Obligations.RegisterReadsComplete := by
  unfold Obligations.RegisterReadsComplete
  intro b k s rd n
  refine ⟨fun h => runs_result ((State.core_at h).trans rfl), fun h => runs_result ?_, fun h => runs_result ?_,
    fun key h hsel hden => runs_result ?_, fun h hsel => runs_result ?_⟩
  · rw [← State.special_eq]
    exact (State.core_at h).trans rfl
  · rw [← iter_at]
    exact (State.core_at h).trans rfl
  · refine (State.core_at h).trans ?_
    simp [hsel, hden]
  · refine (State.core_at h).trans ?_
    simp [hsel]

end Sys2Proof.Machine

/-! SUPPORT. Loads, stores, counters and control flow of the control core (R49, R54 to R61, R68, R74). -/

namespace Sys2Proof.Machine

/-! ### Writes on their way (R81) -/

theorem Timed.pick_append {α : Type} (b k : Nat) (l m : List (Fly α)) (best : Option (Fly α)) :
    Timed.pick b k (l ++ m) best = Timed.pick b k m (Timed.pick b k l best) := by
  induction l generalizing best with
  | nil => rfl
  | cons f l ih =>
    simp only [List.cons_append, Timed.pick]
    split
    · split <;> exact ih _
    · exact ih _

/-- The write that is picked landed before the beat. -/
theorem Timed.pick_beat_lt {α : Type} {b k : Nat} (l : List (Fly α)) {best : Option (Fly α)} (hbest : ∀ g, best = some g → g.beat < b) :
    ∀ g, Timed.pick b k l best = some g → g.beat < b := by
  induction l generalizing best with
  | nil => exact hbest
  | cons f l ih =>
    simp only [Timed.pick]
    by_cases hf : f.key = k ∧ f.beat < b
    · rw [if_pos hf]
      cases best with
      | none => exact ih fun g hg => Option.some.inj hg ▸ hf.2
      | some x =>
        refine ih fun g hg => ?_
        obtain rfl := Option.some.inj hg
        split
        · exact hf.2
        · exact hbest x rfl
    · rw [if_neg hf]
      exact ih hbest

/-- A write is what the next beat reads. -/
theorem Timed.readAt_write_next {α : Type} (d : Nat → α) (t : Timed α) (b k : Nat) (v : α) : (t.write b k v).readAt d (b + 1) k = v := by
  have hlt := Timed.pick_beat_lt (b := b + 1) (k := k) t.fly (best := none) nofun
  simp only [Timed.readAt, Timed.write, Timed.pick_append]
  cases h : Timed.pick (b + 1) k t.fly none with
  | none => simp [Timed.pick]
  | some g =>
    have hg : g.beat ≤ b := Nat.lt_succ_iff.1 (hlt g h)
    simp [Timed.pick, hg]

theorem Timed.readAt_write_other {α : Type} (d : Nat → α) (t : Timed α) {k n : Nat} (w b : Nat) (v : α) (h : n ≠ k) :
    (t.write w k v).readAt d b n = t.readAt d b n := by
  have hk : ¬ (k = n ∧ w < b) := fun hk => h hk.1.symm
  simp only [Timed.readAt, Timed.write, Timed.pick_append, Timed.pick, if_neg hk]

/-! ### LD and ST (R49) -/

/-- Settles O6: LD starts or is refused, and the data of the oldest load arrives with every outcome of its check codes. -/
theorem loadsComplete : Obligations.LoadsComplete := by
  unfold Obligations.LoadsComplete
  intro b k s
  refine ⟨fun rd rs1 imm h => ⟨fun hlegal => ?_, fun hlegal => ?_⟩, fun rd a rest hpend hfree => ?_⟩
  · exact (State.core_at h).trans (congrArg Host.Outcome.next (if_pos hlegal))
  · exact (State.core_at h).trans (congrArg Host.Outcome.next (if_neg (ne_true_of_eq_false hlegal)))
  · intro l put word
    have harrive (ecc : EccOutcome) : exec (.ldDataReady b k ecc) s = execLdDataReady b k ecc s := rfl
    simp only [execLdDataReady, hpend, hfree, if_true] at harrive
    refine ⟨fun hp => ?_, fun hp => ?_, fun hp => ?_, fun hp => ?_, ?_⟩
    · exact (harrive .clean).trans (congrArg Host.Outcome.next (if_neg (ne_true_of_eq_false hp)))
    · exact (harrive .corrected).trans (congrArg Host.Outcome.next (if_neg (ne_true_of_eq_false hp)))
    · exact (harrive .clean).trans (congrArg Host.Outcome.next (if_pos hp))
    · exact (harrive .corrected).trans (congrArg Host.Outcome.next (if_pos hp))
    · rintro ecc (rfl | rfl)
      · exact harrive .uncorrectable
      · exact harrive .tagError

/-- The state after a store of a register in the line of `a` (R49, R81). -/
def State.stored (s : State) (b k a : Nat) (v : Word) : State :=
  let l := s.readLine (48 * b + k) (s.beat b + 1) (a / 64)
  ((s.takeBank (48 * b + k) (a / 64)).writeLine (48 * b + k) (s.beat b) (a / 64)
    { l with data := BitVec.ofNat 512 (setBits l.data.toNat (a % 64 * 8) 64 v.toNat) }).step1 b k

theorem State.onlyStall_stored (s : State) (b k a : Nat) (v : Word) : OnlyStall (48 * b + k) s (s.stored b k a v) := by
  refine ⟨rfl, fun n hn => ?_⟩
  simp only [State.stored, State.step1, State.writeLine, State.takeBank]
  rw [State.updStall_other _ _ hn, State.updStall_other _ _ hn, State.updStall_other _ _ hn]

theorem State.xr_stored (s : State) (b k a : Nat) (v : Word) (n : Nat) :
    ((s.stored b k a v).stall (48 * b + k)).xr n = (s.stall (48 * b + k)).xr n := by
  simp only [State.stored, State.step1, State.writeLine, State.takeBank, State.updStall_same]
  rfl

/-- The store is a write of the line in the beat in progress. -/
theorem State.spad_stored (s : State) (b k a : Nat) (v : Word) :
    ((s.stored b k a v).stall (48 * b + k)).spad =
      ((s.stall (48 * b + k)).spad).write (s.beat b) (a / 64)
        { s.readLine (48 * b + k) (s.beat b + 1) (a / 64) with
          data := BitVec.ofNat 512 (setBits (s.readLine (48 * b + k) (s.beat b + 1) (a / 64)).data.toNat (a % 64 * 8) 64 v.toNat) } := by
  simp only [State.stored, State.step1, State.writeLine, State.takeBank, State.updStall_same]
  rfl

/-- A word of a line replaced, bit by bit. -/
theorem getLsbD_setWord (l : Line) (v : Word) {o : Nat} (ho : o + 64 ≤ 512) (n : Nat) :
    (BitVec.ofNat 512 (setBits l.toNat o 64 v.toNat)).getLsbD n =
      if o ≤ n ∧ n < o + 64 then v.getLsbD (n - o) else l.getLsbD n := by
  rw [BitVec.getLsbD_ofNat, testBit_setBits _ _ _ _ _ (by decide)]
  split
  · next hn =>
    have hlt : n < 512 := by omega
    simp [hlt, BitVec.getLsbD]
  · by_cases hn : n < 512
    · simp [hn, BitVec.getLsbD]
    · simp [hn, BitVec.getLsbD_of_ge l n (by omega)]

/-- Settles O7: a store is one write of one line in the beat in progress. -/
theorem storeWritesItsBytes : Obligations.StoreWritesItsBytes := by
  unfold Obligations.StoreWritesItsBytes
  intro b k s rs rs1 imm h a
  refine ⟨fun hlegal hfree => ⟨s.stored b k a (s.xr b k rs), ?_, ?_⟩, fun hlegal => ?_⟩
  · refine (State.core_at h).trans (congrArg (Option.elim · _ _) ((if_pos hlegal).trans (if_pos hfree)))
  · have ha : a % 64 * 8 + 64 ≤ 512 := by
      simp only [ldLegal, Bool.and_eq_true, decide_eq_true_eq] at hlegal
      omega
    have hline : (s.stored b k a (s.xr b k rs)).readLine (sx b k) (s.beat b + 1) (a / 64) = _ :=
      (congrArg (Timed.readAt LineVal.zeroF · _ _) (s.spad_stored b k a _)).trans (Timed.readAt_write_next ..)
    refine ⟨fun n => ?_, by rw [hline], by rw [hline], fun line beat hne => ?_, s.xr_stored b k a _, s.onlyStall_stored b k a _⟩
    · rw [hline]
      exact getLsbD_setWord _ _ ha n
    · exact (congrArg (Timed.readAt LineVal.zeroF · _ _) (s.spad_stored b k a _)).trans (Timed.readAt_write_other _ _ _ _ _ hne)
  · exact (State.core_at h).trans (congrArg (Option.elim · _ _) (if_neg (ne_true_of_eq_false hlegal)))

/-! ### Counter instructions (R68, R70, R74) -/

/-- A command that updates a counter, after which the core goes on: what it leaves alone. -/
theorem runs_updCtr {c : Instr} {s : State} {b k key : Nat} {f : Counter → Counter} {x : Counter}
    (h : exec c s = .next ((s.updCtr key f).step1 b k)) (hx : f (s.ctr key) = x) : Runs c s (fun t => t.ctr key = x ∧ (∀ c, c ≠ key → t.ctr c = s.ctr c) ∧
      GoesOn s t (48 * b + k) ∧ t = { s with ctrs := t.ctrs, stalls := t.stalls } ∧ StallsSame s t (48 * b + k)) := by
  subst hx
  obtain ⟨hgo, hstall⟩ := (s.updCtr key f).step1_goesOn b k
  exact ⟨_, h, s.updCtr_same key f, fun c hc => s.updCtr_other f hc, hgo, rfl, fun n hn => State.updStall_other _ _ hn, hstall⟩

/-- WAITC looks at the counter that it waits for (R74). -/
theorem State.waitcSees_reached {s : State} {b k key thr v : Nat} (hw : (s.stall (48 * b + k)).waitc = some (key, thr))
    (hv : thr ≤ v) (hj : (s.coreJob b k).isSome = true) :
    s.waitcSees b k key v = s.updStall (48 * b + k) (fun t => { t.advance with st := .run, waitc := none }) := by
  rw [State.waitcSees, hw]
  exact if_pos ⟨rfl, hv, hj⟩

/-- Settles O8: the selector and the job's rights decide what each does. -/
theorem counterInstructionsComplete : Obligations.CounterInstructionsComplete := by
  unfold Obligations.CounterInstructionsComplete
  intro b k s sel rs1
  refine ⟨fun h => ?_, fun h => ?_, fun h => ?_, fun key thr hw hj hle => ?_⟩
  · have hrow : exec (.syncwr b k) s = _ := State.core_at h
    simp only [Option.elim] at hrow
    refine ⟨fun hsel => ?_, fun key hsel hden => ?_, fun key hsel hden => ?_⟩
    · rw [hrow, hsel]
    · rw [hrow, hsel]
      exact congrArg Host.Outcome.next (if_pos hden)
    · have hset : exec (.syncwr b k) s = .next ((s.ctrWrite key (s.xr b k rs1).toNat).step1 b k) := by
        rw [hrow, hsel]
        exact congrArg Host.Outcome.next (if_neg (ne_true_of_eq_false hden))
      exact runs_updCtr hset rfl
  · have hrow : exec (.syncadd b k) s = _ := State.core_at h
    simp only [Option.elim] at hrow
    refine ⟨fun hsel => ?_, fun key hsel hden => ?_, fun key hsel hden => ?_⟩
    · rw [hrow, hsel]
    · rw [hrow, hsel]
      exact congrArg Host.Outcome.next (if_pos hden)
    · have hset : exec (.syncadd b k) s = .next ((s.signal key ((s.xr b k rs1).toNat % 2 ^ 32)).step1 b k) := by
        rw [hrow, hsel]
        exact congrArg Host.Outcome.next (if_neg (ne_true_of_eq_false hden))
      exact runs_updCtr hset rfl
  · have hrow : exec (.waitc b k) s = _ := State.core_at h
    simp only [Option.elim] at hrow
    refine ⟨fun hsel => ?_, fun key hsel hden => ?_, fun key hsel hden => ⟨fun hle => ?_, fun hlt => ?_⟩⟩
    · rw [hrow, hsel]
    · rw [hrow, hsel]
      exact congrArg Host.Outcome.next (if_pos hden)
    · rw [hrow, hsel]
      exact congrArg Host.Outcome.next ((if_neg (ne_true_of_eq_false hden)).trans (if_pos hle))
    · rw [hrow, hsel]
      exact congrArg Host.Outcome.next ((if_neg (ne_true_of_eq_false hden)).trans (if_neg (Nat.not_le.2 hlt)))
  · change execWaitcSatisfied b k s = _
    rw [execWaitcSatisfied, hw]
    exact congrArg Host.Outcome.next (State.waitcSees_reached hw hle hj)

end Sys2Proof.Machine

/-! SUPPORT. Control flow, steps and PUSH (R54 to R66): where an instruction goes on, how a step begins, and what a pushed command
leaves of the stall. -/

namespace Sys2Proof.Machine

/-! ### Control flow (R54 to R61) -/

/-- A body or a skipped range within its bounds ends inside the innermost loop of the routine or program. -/
theorem LoopBound.last_le_inner {t : Stall} {last : Nat} (h : LoopBound t last) {l : LoopEnt} (hl : t.inner = some l) :
    last ≤ l.last := by
  unfold Stall.inner at hl
  cases hloops : t.loops with
  | nil => simp [hloops] at hl
  | cons m ms =>
    simp only [hloops, Option.ite_none_right_eq_some, Option.some.injEq] at hl
    obtain ⟨hdepth, rfl⟩ := hl
    exact h.2 m (by rw [hloops]; rfl) hdepth

/-- An instruction that updates its stall only. -/
theorem runs_updStall {c : Instr} {s : State} {i : Nat} {f : Stall → Stall} {x : Stall} (h : exec c s = .next (s.updStall i f))
    (hx : f (s.stall i) = x) : Runs c s (fun t => OnlyStall i s t ∧ t.stall i = x) :=
  ⟨_, h, .updStall s i f, (s.updStall_same i f).trans hx⟩

/-- LOOP within its bounds (R54 to R56). -/
theorem loop_at {b : Barn} {k : StallId} {s : State} {rs1 len : Nat} (h : AtInsn s b k (.loop rs1 len))
    (hend : (s.stall (sx b k)).atLoopEnd = false) (hdepth : (s.stall (sx b k)).loops.length < 4)
    (hbound : LoopBound (s.stall (sx b k)) ((s.stall (sx b k)).pc + len)) : exec (.loop b k) s =
      .next (if ((s.stall (sx b k)).xr rs1).toNat % 2 ^ 32 = 0 then s.updStall (sx b k) (fun t => t.goOn ((s.stall (sx b k)).pc + len))
        else s.updStall (sx b k) (fun t =>
          { t with pc := t.pc + 1
                   loops := ⟨t.pc + 1, (s.stall (sx b k)).pc + len, ((s.stall (sx b k)).xr rs1).toNat % 2 ^ 32, 0, t.rets.length⟩ ::
                     t.loops })) := by
  refine (State.core_at h).trans (congrArg Host.Outcome.next (if_neg ?_))
  rintro (he | hd | hb | hl)
  · exact ne_true_of_eq_false hend he
  · exact Nat.not_le.2 hdepth hd
  · split at hb
    · next l hin => exact Nat.not_le.2 hb (hbound.last_le_inner hin)
    · exact Nat.not_le.2 hb hbound.1
  · exact Nat.not_le.2 hl hbound.1

/-- SKIP.IF over a range within its bounds and without a LOOP (R57). -/
theorem skipIf_at {b : Barn} {k : StallId} {s : State} {flag n : Nat} {pol : Bool} (h : AtInsn s b k (.skipIf flag pol n))
    (hend : (s.stall (sx b k)).atLoopEnd = false) (hbound : LoopBound (s.stall (sx b k)) ((s.stall (sx b k)).pc + n))
    (hloops : ∀ d < n, ∀ w, (s.stall (sx b k)).wordAt (s.barn b).store ((s.stall (sx b k)).pc + 1 + d) = some w → bits w 31 26 ≠ 0x20) :
    exec (.skipIf b k) s =
      .next (s.updStall (sx b k) (fun t => t.goOn (if (Tab.get zero64 (s.stall (sx b k)).window 3).getLsbD flag = !pol
        then (s.stall (sx b k)).pc + n else (s.stall (sx b k)).pc))) := by
  refine (State.core_at h).trans (congrArg Host.Outcome.next ((if_neg ?_).trans ?_))
  · rintro (he | hb | hl | hw)
    · exact ne_true_of_eq_false hend he
    · split at hb
      · next l hin => exact Nat.not_le.2 hb (hbound.last_le_inner hin)
      · exact Nat.not_le.2 hb hbound.1
    · exact Nat.not_le.2 hl hbound.1
    · obtain ⟨d, hd, hword⟩ := List.any_eq_true.1 hw
      have hfree := hloops d (List.mem_range.1 hd)
      cases hat : (s.stall (sx b k)).wordAt (s.barn b).store ((s.stall (sx b k)).pc + 1 + d) with
      | none => simp [hat] at hword
      | some w => exact hfree w hat (by simpa [hat] using hword)
  · by_cases hf : (Tab.get zero64 (s.stall (sx b k)).window 3).getLsbD flag = !pol
    · rw [if_pos hf]
      exact if_pos hf
    · rw [if_neg hf]
      refine (if_neg hf).trans ?_
      simp only [State.step1, State.updStall, Tab.upd]
      rfl

/-- BASE.ADD of a value of 24 bits (R61). -/
theorem baseAdd_at {b : Barn} {k : StallId} {s : State} {rs1 : Nat} (h : AtInsn s b k (.baseAdd rs1))
    (hv : (s.xr b k rs1).toNat < 2 ^ 24) : exec (.baseAdd b k) s =
      .next (s.updStall (sx b k) (fun t => { t.advance with base := t.base + (s.xr b k rs1).toNat })) :=
  (State.core_at h).trans (congrArg Host.Outcome.next (if_neg (Nat.not_le.2 hv)))

/-- Settles O9, instruction by instruction, under the rules' conditions for a legal one. -/
theorem controlFlowCompletes : Obligations.ControlFlowCompletes := by
  unfold Obligations.ControlFlowCompletes
  intro b k s i T
  refine ⟨fun rs1 len h hend hdepth hbound => ⟨fun hzero => ?_, fun hcount => ?_⟩, fun flag pol n h hend hbound hloops => ?_,
    fun idx h hend hvalid hdepth => ?_, fun pc rtn rest h hend hrets => ?_, fun rs1 h hv => ?_, fun h hloops hrets => ?_, fun h => ?_⟩
  · exact runs_updStall ((loop_at h hend hdepth hbound).trans (congrArg Host.Outcome.next (if_pos hzero))) rfl
  · exact runs_updStall ((loop_at h hend hdepth hbound).trans (congrArg Host.Outcome.next (if_neg hcount))) rfl
  · exact runs_updStall (skipIf_at h hend hbound hloops) rfl
  · have hbit : (!bit (Tab.get zero32 (s.barn b).store idx).toNat 31) ≠ true := by simpa [bit, BitVec.getLsbD] using hvalid
    refine runs_updStall ((State.core_at h).trans (congrArg Host.Outcome.next ((if_neg (ne_true_of_eq_false hend)).trans
      ((if_neg hbit).trans (if_neg (Nat.not_le.2 hdepth)))))) ?_
    simp only [bits, Nat.shiftRight_zero]
    rfl
  · have hrow : exec (.ret b k) s = _ := State.core_at h
    simp only [Option.elim] at hrow
    rw [hrets] at hrow
    exact runs_updStall (hrow.trans (congrArg Host.Outcome.next (if_neg (ne_true_of_eq_false hend)))) rfl
  · obtain ⟨t, hrun, honly, hstall⟩ := runs_updStall (baseAdd_at h hv) rfl
    refine ⟨t, hrun, honly, ?_, ?_⟩
    · unfold GoesOn
      rw [hstall]
      exact ⟨rfl, rfl⟩
    · rw [hstall]
      rfl
  · refine runs_updStall ((State.core_at h).trans (congrArg Host.Outcome.next (if_neg ?_))) rfl
    rintro (hl | hr)
    · exact hl hloops
    · exact hr hrets
  · exact ⟨_, (State.core_at h).trans rfl, .updStall .., s.step1_goesOn b k⟩

/-! ### Steps and fetching (R47, R48, R51, R60) -/

/-- Settles O10: the window that has come begins the step, and the errors name what the fetch met. -/
theorem stepsBeginAndFetchErrors : Obligations.StepsBeginAndFetchErrors := by
  unfold Obligations.StepsBeginAndFetchErrors
  intro b k s i T begun
  refine ⟨fun hst hgot => ⟨fun j hj hvalid => ?_, fun hj hvalid => ?_⟩, fun hruns hfetch => ?_, fun hruns => ⟨?_, ?_⟩⟩
  · have hseq : (begun.stall i).stepSeq = (Tab.get zero64 T.nextWindow 0).toNat := congrArg Stall.stepSeq (s.updStall_same i _)
    refine (if_pos ⟨hst, hgot, by rw [hj]; rfl⟩).trans ((if_pos hvalid).trans (congrArg Host.Outcome.next ?_))
    rw [hj, ← hseq]
    rfl
  · exact (if_pos ⟨hst, hgot, hj⟩).trans (if_neg (ne_true_of_eq_false hvalid))
  · refine (if_pos ⟨hruns, hfetch⟩).trans (congrArg Host.Outcome.next ?_)
    have hrtn : b2n T.rtn * 2 ^ 63 = if T.rtn then 2 ^ 63 else 0 := by cases T.rtn <;> rfl
    rw [← hrtn]
    rfl
  · exact if_pos hruns
  · exact if_pos hruns

/-! ### PUSH (R63 to R66) -/

/-- A command enters the queue of engine `e` last, and its NEXT declares the due beat (R64, R66); it ends a starvation. -/
def State.queued (s : State) (b k e : Nat) (w : Cmd) (issue : Nat) (null : Bool) : State :=
  (s.updStall (48 * b + k) (fun t =>
    { t.setQueue e (t.queue e ++ [⟨w, t.base + issue, null, false⟩]) with due := Tab.set noDue t.due e (dueOf t.base w) })).clearCauses b
    (fun c => c.code = 2 && c.what = 48 * b + k && c.eng = e)

theorem State.pushCmd_legal {s : State} {b k e : Nat} {w : Cmd} (pc : Nat) (hill : s.cmdIllegal b e w = false)
    (hden : s.cmdDenied b k e w = none) : s.pushCmd b k e w pc = s.queued b k e w (cIssue w) false := by
  rw [State.pushCmd, hill, hden]
  rfl

theorem State.pushCmd_illegal {s : State} {b k e : Nat} {w : Cmd} (pc : Nat) (hill : s.cmdIllegal b e w = true) :
    s.pushCmd b k e w pc = (s.queued b k e (s.nullCmd b k w) (cIssue w) true).stlErrAt b k 0x0202 0 pc := by
  rw [State.pushCmd, hill]
  rfl

@[simp] theorem State.stall_clearCauses (s : State) (r : Nat) (p : HoldCause → Bool) (n : Nat) :
    (s.clearCauses r p).stall n = s.stall n := by
  rw [State.clearCauses_frame]
  rfl

@[simp] theorem Stall.queue_setQueue_same (t : Stall) (e : Nat) (q : List QCmd) : (t.setQueue e q).queue e = q :=
  Tab.get_set_same ..

theorem Stall.queue_setQueue_other (t : Stall) {e e' : Nat} (q : List QCmd) (h : e' ≠ e) : (t.setQueue e q).queue e' = t.queue e' :=
  Tab.get_set_other _ _ h

section
variable (s : State) (b k e : Nat) (w : Cmd) (issue : Nat) (null : Bool)

theorem State.stall_queued : (s.queued b k e w issue null).stall (48 * b + k) =
    { (s.stall (48 * b + k)).setQueue e ((s.stall (48 * b + k)).queue e ++ [⟨w, (s.stall (48 * b + k)).base + issue, null, false⟩]) with
      due := Tab.set noDue (s.stall (48 * b + k)).due e (dueOf (s.stall (48 * b + k)).base w) } := by
  rw [State.queued, State.stall_clearCauses, State.updStall_same]

theorem State.stall_queued_other {n : Nat} (h : n ≠ 48 * b + k) : (s.queued b k e w issue null).stall n = s.stall n := by
  rw [State.queued, State.stall_clearCauses, State.updStall_other _ _ h]

theorem State.queue_queued : ((s.queued b k e w issue null).stall (48 * b + k)).queue e =
    (s.stall (48 * b + k)).queue e ++ [⟨w, (s.stall (48 * b + k)).base + issue, null, false⟩] := by
  rw [State.stall_queued]
  exact Stall.queue_setQueue_same ..

theorem State.queue_queued_other {e' : Nat} (h : e' ≠ e) :
    ((s.queued b k e w issue null).stall (48 * b + k)).queue e' = (s.stall (48 * b + k)).queue e' := by
  rw [State.stall_queued]
  exact Stall.queue_setQueue_other _ _ h

theorem State.due_queued : Tab.get noDue ((s.queued b k e w issue null).stall (48 * b + k)).due e =
    dueOf (s.stall (48 * b + k)).base w := by
  rw [State.stall_queued]
  exact Tab.get_set_same ..

end

/-- PUSH into a queue with room (R64). -/
theorem push_at {b : Barn} {k : StallId} {s : State} {e n : Nat} (h : AtInsn s b k (.push e n))
    (hroom : ((s.stall (sx b k)).queue e).length < queueDepth e) :
    exec (.push b k) s = .next ((s.step1 b k).pushCmd b k e ((s.stall (sx b k)).cmdAt n) (s.stall (sx b k)).pc) :=
  (State.core_at h).trans (congrArg Host.Outcome.next (if_pos hroom))

/-- Settles O11, by what a queued command leaves of the stall after the core has gone on. -/
theorem pushCompletes : Obligations.PushCompletes := by
  unfold Obligations.PushCompletes
  intro b k s e n i T w
  have hstall : (s.step1 b k).stall i = T.advance := s.updStall_same i _
  refine ⟨fun h hroom hill hden => ⟨_, (push_at h hroom).trans (congrArg Host.Outcome.next (State.pushCmd_legal _ hill hden)), ?_⟩,
    fun h hroom hill => ⟨_, (push_at h hroom).trans (congrArg Host.Outcome.next (State.pushCmd_illegal _ hill)), ?_⟩,
    fun h hfull => ?_, fun hwait hroom hjob => ?_⟩
  · refine ⟨?_, fun e' he => ?_, ?_, ?_, fun m => ?_, fun m hm => ?_⟩
    · rw [State.queue_queued, hstall]
      rfl
    · rw [State.queue_queued_other _ _ _ _ _ _ _ he, hstall]
      rfl
    · rw [State.due_queued, hstall]
      rfl
    · unfold GoesOn
      rw [State.stall_queued, hstall]
      exact ⟨rfl, rfl⟩
    · rw [State.stall_queued, hstall]
      rfl
    · rw [State.stall_queued_other _ _ _ _ _ _ _ hm]
      exact s.updStall_other _ hm
  · rw [State.queue_queued, hstall]
    rfl
  · exact (State.core_at h).trans (congrArg Host.Outcome.next (if_neg (Nat.not_lt.2 hfull)))
  · change execPushResume b k s = _
    rw [execPushResume, hwait]
    exact if_pos ⟨hroom, hjob⟩

/-- Settles O38: the base rises, and a command pushed then is due at the raised base plus its offset. -/
theorem baseAddRaisesTheBase : Obligations.BaseAddRaisesTheBase := by
  unfold Obligations.BaseAddRaisesTheBase
  intro b k s rs1 h hv
  obtain ⟨t, hrun, honly, hstall⟩ := runs_updStall (baseAdd_at h hv) rfl
  have hbase : (t.stall (sx b k)).base = (s.stall (sx b k)).base + (s.xr b k rs1).toNat % 2 ^ 24 := by
    rw [hstall, Nat.mod_eq_of_lt hv]
  refine ⟨t, hrun, hbase, fun e => by rw [hstall]; rfl, honly, fun e w pc hill hden => ?_⟩
  rw [State.pushCmd_legal pc hill hden, State.queue_queued, hbase]

end Sys2Proof.Machine

/-! SUPPORT. The engine commands issue (R63 to R70): what the issue of a head does, and the effect of each row. -/

namespace Sys2Proof.Machine

/-! ### The issue of a head (R67) -/

section
variable {s : State} {b k e j : Nat} {q : QCmd} {isOp : QCmd → Bool} {body : State → Nat → Cmd → State}

/-- A head that the engine accepts and whose wait is satisfied issues. -/
theorem State.issue_ok (hhead : s.headAt b k e = some (j, q)) (hop : isOp q = true) (hacc : s.canAccept b k e q = true)
    (hwait : s.waitOk b k e q = true) : s.issue b k e isOp body = body (s.issueHead b k e j q) j q.w := by
  rw [State.issue, hhead]
  simp [hop, hacc, hwait]

/-- A head whose wait is not satisfied holds its region. -/
theorem State.issue_waits (hhead : s.headAt b k e = some (j, q)) (hop : isOp q = true) (hacc : s.canAccept b k e q = true)
    (hwait : s.waitOk b k e q = false) :
    s.issue b k e isOp body = s.addCause b (if bits (cWaitSel q.w) 15 14 = 2 then 4 else 3) (some j) (48 * b + k) e 0 := by
  rw [State.issue, hhead]
  simp [hop, hacc, hwait]

theorem isOpcode_op {n : Nat} (h : isOpcode n q = true) : cOp q.w = n := by
  simp only [isOpcode, Bool.and_eq_true, decide_eq_true_eq] at h
  exact h.2

/-- What a row does when its head issues. -/
theorem runs_issue {c : Instr} {p : State → Prop} (hrow : exec c s = .next (s.issue b k e isOp body))
    (hhead : s.headAt b k e = some (j, q)) (hop : isOp q = true) (hacc : s.canAccept b k e q = true)
    (hwait : s.waitOk b k e q = true) (hp : p (body (s.issueHead b k e j q) j q.w)) : Runs c s p :=
  ⟨_, hrow.trans (congrArg Host.Outcome.next (State.issue_ok hhead hop hacc hwait)), hp⟩

end

/-- Larkspur records nothing while it does not run (R433). -/
theorem State.trace_off {s : State} (h : s.fbit F.TCK_LSP_CTL_RUN = false) (src r : Nat) (job : Option Nat) (data : Nat) :
    s.trace src r job data = s := by
  rw [State.trace.eq_def, h]
  rfl

theorem State.traceIssue_off {s : State} (h : s.fbit F.TCK_LSP_CTL_RUN = false) (b k j : Nat) (w : Cmd) :
    s.traceIssue b k j w = s := by
  rw [State.traceIssue, State.trace_off h, ite_self]

/-- The selected counter, if there is one, gets an increment. -/
def State.signalSel (s : State) (sel : Option Nat) (inc : Nat) : State := sel.elim s (fun key => s.signal key inc)

/-- The counters after the consuming wait and the signal of SIG_ISSUE of a head. -/
def State.headCounts (s : State) (b k : Nat) (q : QCmd) : State :=
  let s1 := match selKey b k (cWaitSel q.w) with
    | some key => if q.consumes then s.updCtr key (fun c => { c with consumes := c.consumes ++ [cThresh q.w] }) else s
    | none => s
  if cSigIssue q.w then
    s1.signalSel (selKey b k (cSigSel q.w)) (cSigInc q.w)
  else s1

/-- The queue and the lines of a stall after the head of engine `e` has left at `beat`. -/
def Stall.dequeued (t : Stall) (beat e : Nat) : Stall :=
  { (t.settleAt beat).setQueue e ((t.queue e).drop 1) with lastIss := Tab.set zeroNat t.lastIss e (beat + 1) }

theorem State.issueHead_onTime {s : State} {b k e j : Nat} {q : QCmd} (htime : q.issue = s.jobBeatAt j b)
    (hrun : s.fbit F.TCK_LSP_CTL_RUN = false) :
    s.issueHead b k e j q = (s.updStall (48 * b + k) (·.dequeued (s.beat b) e)).headCounts b k q := by
  rw [State.issueHead, State.traceIssue_off hrun]
  refine (if_neg (fun h => Nat.lt_irrefl _ (lt_of_eq_of_lt htime.symm h.1))).trans ?_
  simp only [State.headCounts, State.signalSel]
  cases selKey b k (cSigSel q.w) <;> rfl

theorem State.headCounts_frame (s : State) (b k : Nat) (q : QCmd) :
    s.headCounts b k q = { s with ctrs := (s.headCounts b k q).ctrs } := by
  simp only [State.headCounts]
  cases selKey b k (cWaitSel q.w) <;> cases selKey b k (cSigSel q.w) <;> cases q.consumes <;> cases cSigIssue q.w <;> rfl

/-- Adding increments of one counter, seen from any counter. -/
theorem State.ctr_signal (s : State) (key inc c : Nat) :
    (s.signal key inc).ctr c = { s.ctr c with incs := (s.ctr c).incs ++ if key = c then [inc] else [] } := by
  by_cases h : key = c
  · subst h
    rw [if_pos rfl]
    exact s.updCtr_same _ _
  · rw [if_neg h, List.append_nil]
    exact s.updCtr_other _ (Ne.symm h)

theorem State.ctr_consume (s : State) (key v c : Nat) :
    (s.updCtr key (fun x => { x with consumes := x.consumes ++ [v] })).ctr c =
      { s.ctr c with consumes := (s.ctr c).consumes ++ if key = c then [v] else [] } := by
  by_cases h : key = c
  · subst h
    rw [if_pos rfl]
    exact s.updCtr_same _ _
  · rw [if_neg h, List.append_nil]
    exact s.updCtr_other _ (Ne.symm h)

theorem State.stall_signalSel (s : State) (sel : Option Nat) (inc n : Nat) : (s.signalSel sel inc).stall n = s.stall n := by
  cases sel <;> rfl

theorem State.ctr_signalSel (s : State) (sel : Option Nat) (inc c : Nat) : (s.signalSel sel inc).ctr c =
      { s.ctr c with incs := (s.ctr c).incs ++ if sel = some c then [inc] else [] } := by
  cases sel with
  | none => exact (congrArg (fun l => { s.ctr c with incs := l }) (List.append_nil _)).symm
  | some key =>
    refine (s.ctr_signal key inc c).trans ?_
    simp only [Option.some.injEq]

/-- A consuming wait and SIG_ISSUE add to what the counters' next settlings take and get (R70). -/
theorem State.ctr_headCounts (s : State) (b k : Nat) (q : QCmd) (c : Nat) :
    (s.headCounts b k q).ctr c =
      { s.ctr c with
        consumes := (s.ctr c).consumes ++
          (if selKey b k (cWaitSel q.w) = some c ∧ cConsume q.w = true ∧ q.null = false then [cThresh q.w] else [])
        incs := (s.ctr c).incs ++ (if selKey b k (cSigSel q.w) = some c ∧ cSigIssue q.w = true then [cSigInc q.w] else []) } := by
  have hconsumes : q.consumes = true ↔ cConsume q.w = true ∧ q.null = false := by simp [QCmd.consumes]
  have hwait : ∀ s1 : State, s1 = (match selKey b k (cWaitSel q.w) with
      | some key => if q.consumes then s.updCtr key (fun c => { c with consumes := c.consumes ++ [cThresh q.w] }) else s
      | none => s) → s1.ctr c = { s.ctr c with
        consumes := (s.ctr c).consumes ++
          (if selKey b k (cWaitSel q.w) = some c ∧ cConsume q.w = true ∧ q.null = false then [cThresh q.w] else []) } := by
    rintro s1 rfl
    cases selKey b k (cWaitSel q.w) with
    | none => simp
    | some key =>
      by_cases hq : q.consumes = true
      · simp only [hq, if_true, s.ctr_consume, ← hconsumes, Option.some.injEq, and_true]
      · simp [← hconsumes, hq]
  rw [State.headCounts]
  by_cases hsig : cSigIssue q.w = true
  · rw [if_pos hsig, State.ctr_signalSel, hwait _ rfl]
    simp only [hsig, and_true]
  · rw [if_neg hsig, hwait _ rfl]
    simp [hsig]

/-- Settles O13: the stall loses the head of one queue, and the counters get what the head consumes and signals. -/
theorem issueTakesTheHead : Obligations.IssueTakesTheHead := by
  unfold Obligations.IssueTakesTheHead
  intro b k e j q s htime hrun i u
  have hu : u = _ := State.issueHead_onTime htime hrun
  have hstall (n : Nat) : u.stall n = (s.updStall i (·.dequeued (s.beat b) e)).stall n := by
    rw [hu, State.headCounts_frame]
    rfl
  have hctr (c : Nat) : u.ctr c = _ := (congrArg (State.ctr · c) hu).trans (State.ctr_headCounts _ _ _ _ _)
  refine ⟨?_, fun e' he => ?_, fun m hm => ?_, fun c => ?_, fun c => ?_, fun c => ?_⟩
  · rw [hstall, State.updStall_same]
    exact Stall.queue_setQueue_same ..
  · rw [hstall, State.updStall_same]
    exact Stall.queue_setQueue_other _ _ he
  · rw [hstall]
    exact s.updStall_other _ hm
  · rw [hctr]
    exact ⟨rfl, rfl⟩
  · rw [hctr]
    rfl
  · rw [hctr]
    rfl

/-! ### Commands in flight (R69) -/

section
variable (s : State) (b k e : Nat) (w : Cmd) (chan done : Nat) (far : Option (Nat × Nat)) (waits : List Nat)

theorem State.stall_inFlight : (s.inFlight b k e w chan done far waits).stall (48 * b + k) =
    { s.stall (48 * b + k) with
      flights := (s.stall (48 * b + k)).flights ++ [{ flightOf s b k e w chan done with far := far, waits := waits }] } :=
  s.updStall_same _ _

theorem State.stall_inFlight_other {m : Nat} (h : m ≠ 48 * b + k) :
    (s.inFlight b k e w chan done far waits).stall m = s.stall m :=
  s.updStall_other _ h

/-- A command whose only other effect is its first piece of work. -/
theorem State.starts (a : Act) :
    Starts s ((s.inFlight b k e w chan done none []).addAct a) (48 * b + k) (flightOf s b k e w chan done) a :=
  ⟨rfl, fun _ hm => s.stall_inFlight_other b k e w chan done none [] hm, s.stall_inFlight b k e w chan done none []⟩

end

/-! ### Queue events (R65 to R69) -/

/-- The stall after flight `f` has completed at `beat`. -/
def Stall.finished (t : Stall) (beat : Nat) (f : Flight) : Stall :=
  { t.settleAt beat with flights := t.flights.map (fun g => if g = f then { g with gone := true } else g) }

theorem State.countDone_frame (s : State) (b k : Nat) (f : Flight) : s.countDone b k f = { s with regs := (s.countDone b k f).regs } := by
  unfold State.countDone
  split
  · split
    · rfl
    · split <;> rfl
  · rfl
  · rfl
  · rfl

/-- A flight without a far end completes: besides what the engine counts, its stall and the counter that it signals change. -/
theorem State.complete_frame {s : State} {b k e : Nat} {f : Flight}
    (hdone : firstDone (s.beat b) ((s.stall (48 * b + k)).flying e) none = some f) (hfar : f.far = none) :
    ∃ regs, s.complete b k e =
      { (s.updStall (48 * b + k) (·.finished (s.beat b) f)).signalSel (selKey b k f.sel) f.inc with regs := regs } := by
  have hcomplete : s.complete b k e =
      (let u := (s.updStall (48 * b + k) (·.finished (s.beat b) f)).signalSel (selKey b k f.sel) f.inc
       if f.chan = 0xFF then u else u.countDone b k f) := by
    rw [State.complete, hdone]
    simp only [hfar]
    cases selKey b k f.sel <;> rfl
  rw [hcomplete]
  by_cases hchan : f.chan = 0xFF
  · exact ⟨_, if_pos hchan⟩
  · exact ⟨_, (if_neg hchan).trans (State.countDone_frame ..)⟩

/-- The event of a starvation is counted unless its cause stands. -/
theorem b2n_not (p : Bool) : b2n (!p) = if p then 0 else 1 := by cases p <;> rfl

/-- Settles O12: each row under its condition. -/
theorem queueEventsComplete : Obligations.QueueEventsComplete := by
  unfold Obligations.QueueEventsComplete
  intro b k e s j i T
  refine ⟨fun d howner hdue hgoes hskew hle hempty => ?_, fun q hhead hnull hwait => ?_, fun f hdone hfar => ?_,
    fun q hhead hlate hfirst => ?_⟩
  · change execEngineDueBeat b k e s = _
    simp only [execEngineDueBeat]
    rw [howner, hdue]
    refine (if_pos ⟨hgoes, hskew, hle, hempty⟩).trans ?_
    rw [b2n_not]
  · have hacc : s.canAccept b k e.num q = true := by rw [State.canAccept.eq_def, hnull, Bool.true_or]
    refine runs_issue (isOp := fun q => q.null) rfl hhead hnull hacc hwait ⟨_, rfl, ?_, ⟨rfl, fun m hm => ?_⟩⟩
    · exact congrArg Stall.flights (State.stall_inFlight ..)
    · exact State.stall_inFlight_other _ _ _ _ _ _ _ _ _ hm
  · obtain ⟨regs, hframe⟩ := State.complete_frame hdone hfar
    refine ⟨_, congrArg Host.Outcome.next hframe, ?_, fun m hm => ?_, fun c => ?_⟩
    · exact congrArg Stall.flights ((State.stall_signalSel ..).trans (s.updStall_same _ _))
    · exact (State.stall_signalSel ..).trans (s.updStall_other _ hm)
    · exact State.ctr_signalSel ..
  · change execCommandLate b k e s = _
    rw [execCommandLate, hhead]
    exact if_pos ⟨hlate, hfirst⟩

end Sys2Proof.Machine

/-! SUPPORT. The rows of the engines (R67): what each leaves after its head has issued. -/

namespace Sys2Proof.Machine

/-! ### The vector engine (R126, R128) -/

/-- Every row of the vector engine issues the command of its opcode. -/
theorem exec_vecRow {op : Nat} {row : Barn → StallId → List EccHit → Instr} (h : (op, row) ∈ vecRows) (b : Barn) (k : StallId)
    (ecc : List EccHit) (s : State) : exec (row b k ecc) s = s.vecIssue b k op ecc := by
  have hrows : ∀ p ∈ vecRows, exec (p.2 b k ecc) s = s.vecIssue b k p.1 ecc := by
    simp only [vecRows, List.cons_append, List.nil_append, List.forall_mem_cons, List.not_mem_nil, false_imp_iff, implies_true]
    repeat' apply And.intro
    all_goals trivial
  exact hrows _ h

/-- A vector command is in flight and has taken its engine (R126). -/
def State.vecTaken (u : State) (b k : Nat) (w : Cmd) : State :=
  (u.inFlight b k 2 w 0 (u.beat b + (vecTimes w).2.1) none []).updStall (48 * b + k) (fun x =>
    { x with vecFree := u.beat b + (vecTimes w).1 })

/-- The effect of a vector command. -/
def State.vecBegin (u : State) (b k op j : Nat) (ecc : List EccHit) (w : Cmd) : State :=
  ((u.vecTaken b k w).fset (F.VEC_STATE_LAST_OP b k) op).addAct
    { u.actNow b k j 0 w ecc with beat := u.beat b + 1, rank := 2, m := (vecTimes w).2.2 }

theorem State.vecIssue_eq (s : State) (b k op : Nat) (ecc : List EccHit) :
    s.vecIssue b k op ecc = .next (s.issue b k 2 (isOpcode op) (fun u j w => u.vecBegin b k op j ecc w)) := rfl

section
variable (u : State) (b k op j : Nat) (ecc : List EccHit) (w : Cmd)

theorem State.vecBegin_frame : u.vecBegin b k op j ecc w =
    { u with
      stalls := (u.vecBegin b k op j ecc w).stalls
      regs := (u.fset (F.VEC_STATE_LAST_OP b k) op).regs
      acts := u.acts ++ [{ u.actNow b k j 0 w ecc with beat := u.beat b + 1, rank := 2, m := (vecTimes w).2.2 }] } := rfl

theorem State.stall_vecBegin : (u.vecBegin b k op j ecc w).stall (48 * b + k) =
    { u.stall (48 * b + k) with
      flights := (u.stall (48 * b + k)).flights ++ [flightOf u b k 2 w 0 (u.beat b + (vecTimes w).2.1)]
      vecFree := u.beat b + (vecTimes w).1 } := by
  change (u.vecTaken b k w).stall (48 * b + k) = _
  rw [State.vecTaken, State.updStall_same, State.stall_inFlight]
  rfl

theorem State.stall_vecBegin_other {m : Nat} (h : m ≠ 48 * b + k) : (u.vecBegin b k op j ecc w).stall m = u.stall m := by
  change (u.vecTaken b k w).stall m = _
  rw [State.vecTaken, State.updStall_other _ _ h, State.stall_inFlight_other _ _ _ _ _ _ _ _ _ h]

end

/-- Settles O14: every row is the issue of its opcode. -/
theorem vectorCommandsIssue : Obligations.VectorCommandsIssue := by
  unfold Obligations.VectorCommandsIssue
  intro op row hrow b k ecc s j q hhead hop hfree i u
  have hacc : s.canAccept b k 2 q = true := by
    rw [State.canAccept.eq_def, Bool.or_eq_true]
    exact Or.inr (decide_eq_true hfree)
  have hexec := (exec_vecRow hrow b k ecc s).trans (s.vecIssue_eq b k op ecc)
  refine ⟨fun hwait => runs_issue hexec hhead hop hacc hwait ?_, fun hwait => ?_⟩
  · refine ⟨?_, rfl, fun m hm => u.stall_vecBegin_other b k op j ecc q.w hm, u.stall_vecBegin b k op j ecc q.w,
      { u.actNow b k j 0 q.w ecc with beat := u.beat b + 1, rank := 2, m := (vecTimes q.w).2.2 }, rfl, rfl, rfl, rfl, rfl, rfl, rfl, rfl⟩
    exact u.vecBegin_frame b k op j ecc q.w
  · exact hexec.trans (congrArg Host.Outcome.next (State.issue_waits hhead hop hacc hwait))

end Sys2Proof.Machine

/-! SUPPORT. The rows of the DMA, array, loft and network engines: the effect of each on the state from which its head has left. -/

namespace Sys2Proof.Machine

/-! ### Copies (R86, R89, R92) -/

/-- Work is added and flits may be under way; nothing else changes. -/
def AddsWork (s t : State) : Prop := t = { s with acts := t.acts, mesh := t.mesh } ∧ s.acts.length < t.acts.length

theorem AddsWork.addAct (s : State) (a : Act) : AddsWork s (s.addAct a) := by
  refine ⟨rfl, ?_⟩
  change s.acts.length < (s.acts ++ [a]).length
  simp

/-- Work that follows flits on the mesh. -/
theorem AddsWork.of_mesh {s u t : State} (hu : u = { s with mesh := u.mesh }) (h : AddsWork u t) : AddsWork s t := by
  obtain ⟨ht, hlt⟩ := h
  rw [hu] at ht hlt
  exact ⟨ht, hlt⟩

theorem AddsWork.trans {s t u : State} (h : AddsWork s t) (h' : AddsWork t u) : AddsWork s u := by
  obtain ⟨ht, hlt⟩ := h
  obtain ⟨hu, hlt'⟩ := h'
  rw [ht] at hu
  exact ⟨hu, hlt.trans hlt'⟩

theorem State.newFlits_frame (s : State) (key job : Nat) (us : List (Flit × List (Nat × Nat × Nat))) :
    (s.newFlits key job us).2 = { s with mesh := (s.newFlits key job us).2.mesh } := by
  induction us generalizing s with
  | nil => rfl
  | cons u us ih => exact ih (s.newFlit key job u.1 u.2).2

theorem AddsWork.ite {s t u : State} {c : Prop} [Decidable c] (h : AddsWork s t) (h' : AddsWork s u) :
    AddsWork s (if c then t else u) := by
  split
  · exact h
  · exact h'

theorem State.addsWork_dmaReq (s : State) (a : Act) (k : Nat) : AddsWork s (s.dmaReq a k) := by
  unfold State.dmaReq
  extract_lets x f s1
  have hsent : AddsWork s s1 := .of_mesh (s.newFlits_frame _ _ _) (AddsWork.addAct f.2 _)
  exact .ite (hsent.trans (AddsWork.addAct _ _)) hsent

theorem State.addsWork_farReqOut {s : State} {a : Act} (h : (s.route (s.planOf a.job) (faDevice (dFar a.w))).isSome = true) :
    AddsWork s (s.farReqOut a) := by
  obtain ⟨p, hp⟩ := Option.isSome_iff_exists.1 h
  rw [State.farReqOut, hp]
  exact .of_mesh rfl (AddsWork.addAct _ _)

/-- The first work of a copy that no check has kept from its far end. -/
theorem State.addsWork_dmaFirst {s : State} {a : Act} {x : Xfer} (hden : x.denied = false)
    (hroute : cOp a.w = 0x601 → x.kind = 5 → (s.route (s.planOf a.job) (faDevice (dFar a.w))).isSome = true) :
    AddsWork s (s.dmaFirst a x) := by
  rw [State.dmaFirst]
  split
  · next hop =>
    rw [hden, if_neg Bool.false_ne_true]
    split
    · exact .addAct _ _
    · exact .addAct _ _
    · exact .addAct _ _
    · next hkind => exact State.addsWork_farReqOut (hroute hop hkind)
    · exact s.addsWork_dmaReq a 0
  · exact .addAct _ _
  · exact .addAct _ _

/-! ### The rows -/

theorem accepts_of_engine {s : State} {b k e : Nat} {q : QCmd} (h : (match e with
   | 1 => s.arrAccepts b k q.w
   | 2 => (s.stall (48 * b + k)).vecFree ≤ s.beat b
   | 3 => (s.dmaChan b k).isSome
   | 4 => cOp q.w ≠ 0x801 || (s.sendChan b k).isSome
   | _ => s.lftAccepts b q.w : Bool) = true) : s.canAccept b k e q = true := by
  rw [State.canAccept.eq_def, Bool.or_eq_true]
  exact Or.inr h

/-- A copy issues: it is in flight to R89's beat, and its first work is due. -/
theorem State.dmaCopy_issues {u : State} {b k j : Nat} {w : Cmd} (ecc : List EccHit)
    (hden : (u.xfer (48 * b + k) j w).denied = false)
    (hroute : cOp w = 0x601 → (u.xfer (48 * b + k) j w).kind = 5 → (u.route (u.planOf j) (faDevice (dFar w))).isSome = true) :
    let x := u.xfer (48 * b + k) j w
    let moves := findMoves (u.jobBeatRaw j b) (x.accesses w) []
    let beats := if cOp w = 0x601 ∧ x.kind = 5 then 1 else x.doneAt (cOp w) + x.n
    AddsWork (u.inFlight b k 3 w ((u.dmaChan b k).getD 0) (u.beat b + beats + shiftOf moves (beats + 1)) (x.farSig w) [])
      (u.dmaCopy b k j w ecc) := by
  rw [State.dmaCopy]
  simp only [hden, Bool.false_eq_true, if_false]
  exact State.addsWork_dmaFirst hden hroute

/-! ### MMA (R115) -/

/-- Pieces of work added in pairs. -/
theorem foldl_addAct_pair {α : Type} (f g : α → Act) (l : List α) (s : State) :
    l.foldl (fun s p => (s.addAct (f p)).addAct (g p)) s = { s with acts := s.acts ++ l.flatMap (fun p => [f p, g p]) } := by
  induction l generalizing s with
  | nil => exact congrArg (fun l => { s with acts := l }) (List.append_nil _).symm
  | cons p l ih =>
    rw [List.foldl_cons, ih]
    refine congrArg (fun l => { s with acts := l }) ?_
    change ((s.acts ++ [f p]) ++ [g p]) ++ _ = _
    simp

/-- A pass of the array engine has begun. -/
def State.passBegun (u : State) (b k : Nat) (w : Cmd) (p : Pass) : State :=
  (u.inFlight b k 1 w 0 (u.beat b + mmaDone w) none []).updStall (48 * b + k) (fun x => { x with passes := x.passes ++ [p] })

theorem State.stall_passBegun (u : State) (b k : Nat) (w : Cmd) (p : Pass) : (u.passBegun b k w p).stall (48 * b + k) =
    { u.stall (48 * b + k) with
      flights := (u.stall (48 * b + k)).flights ++ [flightOf u b k 1 w 0 (u.beat b + mmaDone w)]
      passes := (u.stall (48 * b + k)).passes ++ [p] } := by
  rw [State.passBegun, State.updStall_same, State.stall_inFlight]
  rfl

/-- An MMA with weights in a loft: its pass, and two pieces of work for each block. -/
theorem State.mmaStart_loft {u : State} {b k j : Nat} {w : Cmd} (ecc : List EccHit) (hloft : mLoft w = true) :
    ∃ p acts, u.mmaStart b k j w ecc = { u.passBegun b k w p with acts := acts } ∧
      acts.length = u.acts.length + 2 + 2 * (mmaBlocks w).length := by
  unfold State.mmaStart
  extract_lets i now t a0 a s1 s2 f s3
  rw [if_pos hloft, foldl_addAct_pair]
  refine ⟨_, _, rfl, ?_⟩
  change ((u.acts ++ [_]) ++ [_] ++ _).length = _
  simp only [List.length_append, List.length_flatMap, List.length_cons, List.length_nil, List.map_const', List.sum_replicate, smul_eq_mul]
  omega

/-- Settles O15: a copy by its first work, the others by the command in flight and their first piece of work. -/
theorem dmaAndArrayCommandsIssue : Obligations.DmaAndArrayCommandsIssue := by
  unfold Obligations.DmaAndArrayCommandsIssue
  intro b k ecc s j q i w
  refine ⟨fun hhead hwait hchan => ?_, fun hhead hwait harr => ?_⟩
  · intro u c x moves beats
    have hacc : s.canAccept b k 3 q = true := accepts_of_engine hchan
    refine ⟨fun op row hrow hop => ?_, fun hop => ?_, fun hop => ?_⟩
    · have hexec : exec (row b k ecc) s = .next (s.issue b k 3 (isOpcode op) (fun s j w => s.dmaCopy b k j w ecc)) := by
        simp only [List.mem_cons, Prod.mk.injEq, List.not_mem_nil, or_false] at hrow
        obtain ⟨rfl, rfl⟩ | ⟨rfl, rfl⟩ | ⟨rfl, rfl⟩ := hrow <;> rfl
      refine ⟨hexec.trans (congrArg Host.Outcome.next (State.issue_ok hhead hop hacc hwait)), fun hden hroute => ?_⟩
      obtain ⟨ht, hlt⟩ := State.dmaCopy_issues (u := u) (b := b) (k := k) (j := j) (w := w) ecc hden
        fun h601 => hroute ((isOpcode_op hop).symm.trans h601)
      refine runs_issue hexec hhead hop hacc hwait ⟨?_, fun m hm => ?_, hlt, ?_⟩
      · rw [ht]
        exact congrArg Stall.flights (State.stall_inFlight ..)
      · rw [ht]
        exact State.stall_inFlight_other _ _ _ _ _ _ _ _ _ hm
      · rw [ht]
        rfl
    · exact runs_issue rfl hhead hop hacc hwait (State.starts ..)
    · exact runs_issue rfl hhead hop hacc hwait (State.starts ..)
  · intro u
    have hacc : s.canAccept b k 1 q = true := accepts_of_engine harr
    refine ⟨fun hop => ?_, fun hop => ?_, fun hop hloft => ?_, fun hop => ?_⟩
    · exact runs_issue rfl hhead hop hacc hwait (State.starts ..)
    · exact congrArg Host.Outcome.next (State.issue_ok hhead hop hacc hwait)
    · obtain ⟨p, acts, ht, hlen⟩ := State.mmaStart_loft (u := u) (b := b) (k := k) (j := j) ecc hloft
      refine runs_issue rfl hhead hop hacc hwait ?_
      change _ ∧ _ ∧ (u.mmaStart b k j w ecc).acts.length = _
      rw [ht]
      refine ⟨congrArg Stall.flights (u.stall_passBegun b k w p), ?_, hlen⟩
      exact (congrArg (List.length ∘ Stall.passes) (u.stall_passBegun b k w p)).trans List.length_append
    · exact runs_issue rfl hhead hop hacc hwait (State.starts ..)

/-! ### Banks (R163) -/

/-- A change that settles after one use, in every bank of a list. -/
theorem State.bank_foldl_updBank {f : BankSt → BankSt} (hf : ∀ x, f (f x) = f x) (b : Nat) (l : List Nat) (s : State) (n : Nat) :
    (l.foldl (fun s e => s.updBank b e f) s).bank b n = if n ∈ l then f (s.bank b n) else s.bank b n := by
  have hone (s : State) (e : Nat) : (s.updBank b e f).bank b n = if n = e then f (s.bank b n) else s.bank b n := by
    rw [State.bank, State.updBank, State.updLoft_same]
    by_cases h : n = e
    · subst h
      rw [if_pos rfl]
      exact Tab.get_upd_same ..
    · rw [if_neg h]
      exact Tab.get_upd_other _ _ h
  induction l generalizing s with
  | nil => simp
  | cons e l ih =>
    rw [List.foldl_cons, ih, hone]
    by_cases he : n = e
    · simp [he, hf]
    · simp [he]

theorem State.foldl_updBank_frame (f : BankSt → BankSt) (b : Nat) (l : List Nat) (s : State) :
    l.foldl (fun s e => s.updBank b e f) s = { s with lofts := (l.foldl (fun s e => s.updBank b e f) s).lofts } := by
  induction l generalizing s with
  | nil => rfl
  | cons e l ih => exact ih (s.updBank b e f)

/-- A bank that an LFT.PWR turns: toward ON it wakes until beat `wake`, toward OFF it is CLOSING (R162, R163). -/
def bankTurned (on : Bool) (wake : Nat) (x : BankSt) : BankSt := if on then { x with st := 3, wake := wake } else { x with st := 1 }

theorem bankTurned_idem (on : Bool) (wake : Nat) (x : BankSt) : bankTurned on wake (bankTurned on wake x) = bankTurned on wake x := by
  cases on <;> rfl

theorem bankTurned_st (on : Bool) (wake : Nat) (x : BankSt) : (bankTurned on wake x).st = if on then 3 else 1 := by
  cases on <;> rfl

section
variable {s : State} {b : Barn} {k : StallId} {j : Nat} {q : QCmd} (ecc : List EccHit) (hhead : s.headAt b k 5 = some (j, q))
  (hacc : s.canAccept b k 5 q = true) (hwait : s.waitOk b k 5 q = true)
include hhead hacc hwait

/-- LFT.PWR turns those banks of its set that are in the state it changes. -/
theorem exec_lftPwr (hop : isOpcode 0xA03 q = true) :
    let u := s.issueHead b k 5 j q
    let ch := (bankSet (lpLmask q.w) (lpBmask q.w)).filter (fun e => (u.bank b e).st = if lpOn q.w then 2 else 0)
    ∃ done waits, exec (.lftPwr b k ecc) s =
      .next ((ch.foldl (fun s e => s.updBank b e (bankTurned (lpOn q.w) (u.beat b + 256))) u).inFlight b k 5 q.w 0 done none waits) := by
  intro u ch
  have hexec : exec (.lftPwr b k ecc) s = _ := congrArg Host.Outcome.next (State.issue_ok hhead hop hacc hwait)
  rw [hexec]
  by_cases hempty : ch.isEmpty = true
  · exact ⟨_, _, congrArg Host.Outcome.next (if_pos hempty)⟩
  · by_cases hon : lpOn q.w = true
    · exact ⟨_, _, congrArg Host.Outcome.next ((if_neg hempty).trans (if_pos hon))⟩
    · exact ⟨_, _, congrArg Host.Outcome.next ((if_neg hempty).trans (if_neg hon))⟩

/-- LFT.MV is in flight; it may raise the peak, and one or two pieces of work are due. -/
theorem exec_lftMv (hop : isOpcode 0xA02 q = true) :
    let u := s.issueHead b k 5 j q
    let last := cycleBeat (u.beat b) (u.loftF b) (mvLast q.w (mvC0 (u.loftF b)))
    ∃ regs acts, exec (.lftMv b k ecc) s =
        .next { u.inFlight b k 5 q.w 0 (last + 7 + (if mvEmit q.w then 16 * (mvSet q.w).length else 0)) none [] with
          regs := regs, acts := acts } ∧
      acts.length = u.acts.length + (if mvEmit q.w then 2 else 1) := by
  intro u last
  have hpeak (v : State) (n : Nat) : ∃ regs,
      (if v.fget (F.LFT_ACTIVE_PEAK b) < n then v.fset (F.LFT_ACTIVE_PEAK b) n else v) = { v with regs := regs } := by
    split
    · exact ⟨_, rfl⟩
    · exact ⟨_, rfl⟩
  let v := u.inFlight b k 5 q.w 0 (last + 7 + (if mvEmit q.w then 16 * (mvSet q.w).length else 0)) none []
  obtain ⟨regs, hregs⟩ := hpeak v (v.heldEngines b).length
  have hexec : exec (.lftMv b k ecc) s = _ := congrArg Host.Outcome.next (State.issue_ok hhead hop hacc hwait)
  rw [hexec]
  dsimp only
  rw [hregs]
  by_cases hemit : mvEmit q.w = true
  · refine ⟨_, _, congrArg Host.Outcome.next (if_pos hemit), ?_⟩
    rw [if_pos hemit]
    change ((u.acts ++ [_]) ++ [_]).length = _
    rw [List.length_append, List.length_append]
    rfl
  · refine ⟨_, _, congrArg Host.Outcome.next (if_neg hemit), ?_⟩
    rw [if_neg hemit]
    exact List.length_append

end

/-- Work added once for each element of a list is there. -/
theorem foldl_addAct {α : Type} (f : α → Act) (l : List α) (s : State) :
    l.foldl (fun s d => s.addAct (f d)) s = { s with acts := s.acts ++ l.map f } := by
  induction l generalizing s with
  | nil => exact congrArg (fun l => { s with acts := l }) (List.append_nil _).symm
  | cons d l ih =>
    rw [List.foldl_cons, ih]
    refine congrArg (fun l => { s with acts := l }) ?_
    change (s.acts ++ [f d]) ++ _ = _
    simp

/-- Settles O16: the loft's banks and engines, and the network's flit, beside the command in flight. -/
theorem loftAndNetworkCommandsIssue : Obligations.LoftAndNetworkCommandsIssue := by
  unfold Obligations.LoftAndNetworkCommandsIssue
  intro b k ecc s j q i w
  refine ⟨fun hhead hwait => ?_, fun hhead hwait => ?_⟩
  · intro u
    have hacc (h : s.lftAccepts b w = true) : s.canAccept b k 5 q = true := accepts_of_engine h
    refine ⟨fun hop => ?_, fun hop hfree hroom => ?_, fun hop hfree => ?_⟩
    · refine runs_issue rfl hhead hop (hacc ?_) hwait (State.starts ..)
      rw [State.lftAccepts, isOpcode_op hop]
      rfl
    · intro c0 last
      have hloft : s.lftAccepts b w = true := by
        rw [State.lftAccepts, isOpcode_op hop]
        exact Bool.and_eq_true_iff.2 ⟨hfree, decide_eq_true hroom⟩
      obtain ⟨regs, acts, hexec, hlen⟩ := exec_lftMv ecc hhead (hacc hloft) hwait hop
      refine ⟨_, hexec, congrArg Stall.flights (State.stall_inFlight ..), fun m hm => ?_, hlen, rfl⟩
      exact State.stall_inFlight_other _ _ _ _ _ _ _ _ _ hm
    · have hloft : s.lftAccepts b w = true := by
        rw [State.lftAccepts, isOpcode_op hop]
        exact hfree
      obtain ⟨done, waits, hexec⟩ := exec_lftPwr ecc hhead (hacc hloft) hwait hop
      have hbank (e : Nat) := State.bank_foldl_updBank (f := bankTurned (lpOn w) (u.beat b + 256)) (bankTurned_idem _ _) b
        ((bankSet (lpLmask w) (lpBmask w)).filter (fun e => (u.bank b e).st = if lpOn w then 2 else 0)) u e
      simp only [List.mem_filter, decide_eq_true_eq] at hbank
      refine ⟨_, hexec, fun e => ?_, fun e hon he hst => ?_, ?_, ?_⟩
      · refine (congrArg BankSt.st (hbank e)).trans ?_
        rw [apply_ite BankSt.st, bankTurned_st]
      · refine (congrArg BankSt.wake (hbank e)).trans ?_
        rw [if_pos ⟨he, by rw [hst, if_pos hon]⟩, bankTurned, if_pos hon]
      · refine (congrArg (List.length ∘ Stall.flights) (State.stall_inFlight ..)).trans (List.length_append.trans ?_)
        rw [State.foldl_updBank_frame]
        rfl
      · rw [State.foldl_updBank_frame]
        rfl
  · intro u
    have hacc (h : cOp w ≠ 0x801 ∨ (s.sendChan b k).isSome = true) : s.canAccept b k 4 q = true :=
      accepts_of_engine (e := 4) ((Bool.or_eq_true _ _).mpr (h.imp decide_eq_true id))
    have hother {n : Nat} (hop : isOpcode n q = true) (hn : n ≠ 0x801) : s.canAccept b k 4 q = true :=
      hacc (Or.inl (isOpcode_op hop ▸ hn))
    refine ⟨fun hop hchan => ?_, fun hop => ?_, fun hop => ?_⟩
    · exact runs_issue rfl hhead hop (hacc (Or.inr hchan)) hwait (State.starts ..)
    · exact runs_issue rfl hhead hop (hother hop (by decide)) hwait (State.starts ..)
    · refine runs_issue rfl hhead hop (hother hop (by decide)) hwait ?_
      rw [foldl_addAct]
      refine ⟨congrArg Stall.flights (State.stall_inFlight ..), rfl, fun d hd => ?_⟩
      exact ⟨_, List.mem_append_right _ (List.mem_map_of_mem hd), rfl, rfl, rfl⟩

end Sys2Proof.Machine

/-! SUPPORT. A counter that saturates (R70, R71): the record of its error, and that the halt of its job leaves the counters alone. -/

namespace Sys2Proof.Machine

/-! ### Operations that leave the counters alone -/

@[simp] theorem State.ctrs_mk {u : State} {pending regs fused mask cfgRef time regions err stalls barns jobs lofts mesh acts mism links fab srv prefix_ yok host rings copies loads info sec tck rep out freeCtr} :
    (State.mk pending regs fused mask cfgRef time regions err stalls barns u.ctrs jobs lofts mesh acts mism links fab srv prefix_
      yok host rings copies loads info sec tck rep out freeCtr).ctrs = u.ctrs := (rfl)

@[simp] theorem State.ctrs_ite (c : Prop) [Decidable c] (s t : State) : (if c then s else t).ctrs = if c then s.ctrs else t.ctrs :=
  apply_ite State.ctrs c s t

theorem State.ctrs_foldl {α : Type} {f : State → α → State} (hf : ∀ t x, (f t x).ctrs = t.ctrs) (l : List α) (s : State) :
    (l.foldl f s).ctrs = s.ctrs :=
  foldl_keeps (P := fun t : State => t.ctrs = s.ctrs) l rfl fun t x _ ht => (hf t x).trans ht

section
variable (s : State)

@[simp] theorem State.ctrs_fset (f : Fld) (v : Nat) : (s.fset f v).ctrs = s.ctrs := (rfl)

@[simp] theorem State.ctrs_raiseRec (e : Err) : (s.raiseRec e).ctrs = s.ctrs := by rw [State.raiseRec_frame]

theorem State.ctrs_clearCausesAll (p : HoldCause → Bool) : (s.clearCausesAll p).ctrs = s.ctrs :=
  State.ctrs_foldl (fun t r => by rw [State.ctrs_ite, State.clearCauses_frame, ite_self]) _ s

theorem State.ctrs_haltStalls (j : Nat) : (s.haltStalls j).ctrs = s.ctrs := by
  unfold State.haltStalls
  extract_lets f s1 s2 s3
  have hstalls : s2.ctrs = s.ctrs := State.ctrs_foldl (fun t i => t.updStall_ctrs i _) _ s1
  have hlofts : s3.ctrs = s2.ctrs := State.ctrs_foldl (fun t n => by rw [State.ctrs_ite, State.updLoft_ctrs, ite_self]) _ s2
  rw [State.ctrs_clearCausesAll, hlofts, hstalls]

@[simp] theorem State.ctrs_hostWrite (p a : Nat) (bs : List Byte) : (s.hostWrite p a bs).ctrs = s.ctrs := by
  simp only [State.hostWrite, State.ctrs_ite, State.setReg_ctrs, State.send_ctrs, ite_self]

@[simp] theorem State.ctrs_fireVec (p fn v : Nat) : (s.fireVec p fn v).ctrs = s.ctrs := by
  simp only [State.fireVec, State.ctrs_ite, State.updHst_ctrs, State.send_ctrs, ite_self]

@[simp] theorem State.ctrs_writeCpl (r : Ring) (c : CplRec) : (s.writeCpl r c).ctrs = s.ctrs := by
  rw [State.writeCpl, State.ctrs_hostWrite]
  split
  · exact s.ctrs_hostWrite ..
  · rfl

@[simp] theorem State.ctrs_pushCpl (j : Nat) (c : CplRec) : (s.pushCpl j c).ctrs = s.ctrs := by
  simp only [State.pushCpl, State.flushCpl, State.ctrs_ite, State.ctrs_fireVec, State.ctrs_fset, State.ctrs_hostWrite, State.updSrv_ctrs]
  rw [State.ctrs_foldl (fun t c => t.ctrs_writeCpl _ c), State.updSrv_ctrs, ite_self, ite_self]

@[simp] theorem State.ctrs_haltControl (j : Nat) (dest : FDest) (sub : Nat) (body : List Byte) :
    (s.haltControl j dest sub body).ctrs = s.ctrs := by
  simp only [State.haltControl, State.tryControl, State.tryOriginate]
  split
  · rfl
  · split
    · exact s.ctrs_raiseRec _
    · simp [State.handOver, State.updOut]

@[simp] theorem State.ctrs_headHalt (j code : Nat) : (s.headHalt j code).ctrs = s.ctrs := by
  rw [State.headHalt, State.ctrs_ite, State.ctrs_fset, State.ctrs_fset, State.updSrv_ctrs, State.ctrs_foldl fun t e => t.ctrs_pushCpl ..,
    State.ctrs_foldl fun t d => t.ctrs_haltControl .., ite_self]

@[simp] theorem State.ctrs_haltNow (j code : Nat) : (s.haltNow j code).ctrs = s.ctrs := by
  simp only [State.haltNow, State.haltSends, State.ctrs_ite, State.ctrs_headHalt, State.ctrs_haltControl, State.ctrs_fset,
    State.ctrs_haltStalls, ite_self]

@[simp] theorem State.ctrs_haltBoundary (j code r : Nat) : (s.haltBoundary j code r).ctrs = s.ctrs := by
  simp only [State.haltBoundary]
  split
  · split
    · exact s.ctrs_haltNow j code
    · rw [State.ctrs_ite, State.updJob_ctrs, ite_self]
  · rfl

end

/-! ### Halts at a boundary (R491) -/

/-- The first boundary that a job has ahead of a region. -/
def State.ahead (s : State) (j r : Nat) : Option Nat :=
  if (s.job j).phase = .running then (s.job j).bounds.find? (fun p => s.jobBeatAt j r < p) else none

theorem State.ahead_congr {s t : State} {r : Nat} (hjobs : t.jobs = s.jobs) (hbeat : t.beat r = s.beat r) (j : Nat) :
    t.ahead j r = s.ahead j r := by
  have hjob : t.job j = s.job j := by rw [State.job, State.job, hjobs]
  have hcount : t.jobBeatAt j r = s.jobBeatAt j r := by simp only [State.jobBeatAt, State.jobBeatRaw, hjob, hbeat]
  simp only [State.ahead, hjob, hcount]

theorem State.haltBoundary_at {s : State} {j r p : Nat} (code : Nat) (hlive : (s.job j).live = true) (hdue : (s.job j).haltDue = none)
    (hahead : s.ahead j r = some p) :
    s.haltBoundary j code r = s.updJob j (fun jb => { jb with haltDue := some (code, p), stop := some (min p (jb.stop.getD p)) }) := by
  unfold State.ahead at hahead
  simp only [State.haltBoundary]
  rw [if_pos hlive, hahead, hdue]
  rfl

theorem State.haltBoundary_now {s : State} {j r : Nat} (code : Nat) (hlive : (s.job j).live = true) (hahead : s.ahead j r = none) :
    s.haltBoundary j code r = s.haltNow j code := by
  unfold State.ahead at hahead
  simp only [State.haltBoundary]
  rw [if_pos hlive, hahead]

/-! ### STL_SYNC_OVERFLOW (R71) -/

/-- The error of a counter that overflows. -/
def ctrErr (blk inst : Nat) (job : Option Nat) : Err := { code := 0x0204, blk := blk, inst := inst, job := job }

/-- Raising it records it, and its job halts at its next boundary. -/
theorem State.raise_ctrErr (s : State) (blk inst : Nat) (job : Option Nat) : s.raise (ctrErr blk inst job) =
    job.toList.foldl (fun s j => s.haltBoundary j 0x0204 (blkRegion blk)) (s.raiseRec (ctrErr blk inst job)) := by
  have hclass : codeClass (ctrErr blk inst job).code = 0 := by simp only [ctrErr]; decide
  rw [State.raise, State.sevOf_of_class hclass, State.escalates_of_class hclass]
  rfl

/-- From a state that differs in a stall's fault register and a counter at most, the record of the error and the halt. -/
theorem State.ctrErr_outcome {s u : State} {blk inst : Nat} {job : Option Nat} (hpacing : u.pacing = s.pacing)
    (hbeats : u.beats = s.beats) :
    let t := u.raise (ctrErr blk inst job)
    t.ctrs = u.ctrs ∧
    (∃ r more, t.err.flight = s.err.flight ++ r :: more ∧ r.code = 0x0204 ∧ r.sev = 2 ∧ (r.blk, r.inst) = (blk, inst) ∧ r.job = job) ∧
    ∀ j, job = some j → (s.job j).live = true → (s.job j).haltDue = none →
      (∀ p, s.ahead j (blkRegion blk) = some p → (t.job j).haltDue = some (0x0204, p) ∧ ∃ q, (t.job j).stop = some q ∧ q ≤ p) ∧
      (s.ahead j (blkRegion blk) = none → (t.job j).phase = .halted) := by
  intro t
  have hjobs : u.jobs = s.jobs := congrArg (·.2.1) hpacing
  have herr : u.err = s.err := congrArg (·.2.2) hpacing
  have hclass : codeClass (ctrErr blk inst job).code = 0 := by simp only [ctrErr]; decide
  have ht : t = _ := u.raise_ctrErr blk inst job
  refine ⟨?_, ?_, ?_⟩
  · rw [ht, State.ctrs_foldl fun t j => t.ctrs_haltBoundary .., State.ctrs_raiseRec]
  · have hcalm : Calm (u.raiseRec (ctrErr blk inst job)) t := by
      rw [ht]
      exact calm_foldl (fun t j => t.calm_haltBoundary ..) _ _
    obtain ⟨more, hmore⟩ := hcalm.flight
    refine ⟨u.recordOf (ctrErr blk inst job), more, ?_, rfl, State.sevOf_of_class (s := u) hclass, rfl, rfl⟩
    rw [← hmore, State.flight_raiseRec, herr, List.append_assoc, List.singleton_append]
  · rintro j rfl hlive hdue
    let v := u.raiseRec (ctrErr blk inst (some j))
    have hvjobs : v.jobs = s.jobs := (u.notes_raiseRec _).jobs.trans hjobs
    have hvjob : v.job j = s.job j := by rw [State.job, State.job, hvjobs]
    have hregion : blkRegion blk < 29 := by
      unfold blkRegion
      split <;> omega
    have hvbeat : v.beat (blkRegion blk) = s.beat (blkRegion blk) :=
      congrFun ((u.beats_raiseRec hclass).trans hbeats) ⟨blkRegion blk, hregion⟩
    have hahead := State.ahead_congr hvjobs hvbeat j
    have htv : t = v.haltBoundary j 0x0204 (blkRegion blk) := ht
    have hvlive : (v.job j).live = true := (congrArg Job.live hvjob).trans hlive
    have hvdue : (v.job j).haltDue = none := (congrArg Job.haltDue hvjob).trans hdue
    refine ⟨fun p hp => ?_, fun hnone => ?_⟩
    · rw [htv, State.haltBoundary_at _ hvlive hvdue (hahead.trans hp), State.updJob_same]
      exact ⟨rfl, _, rfl, Nat.min_le_left ..⟩
    · rw [htv, State.haltBoundary_now _ hvlive (hahead.trans hnone)]
      exact State.phase_haltNow hvlive _

/-! ### Settling a counter (R70, R71) -/

/-- The counter after a settling. -/
def State.ctrSettled (s : State) (key : Nat) : State :=
  s.updCtr key (fun x => { x with val := min (s.ctr key).settled 0xFFFFFFFF, over_ := x.over_ || decide (0xFFFFFFFF < (s.ctr key).settled) })

theorem State.ctr_settled (s : State) (key : Nat) : (s.ctrSettled key).ctr key =
    { s.ctr key with
      val := min (s.ctr key).settled 0xFFFFFFFF
      over_ := (s.ctr key).over_ || decide (0xFFFFFFFF < (s.ctr key).settled) } :=
  s.updCtr_same key _

theorem State.onlyCtr_settled (s : State) (key : Nat) : OnlyCtr key s (s.ctrSettled key) :=
  ⟨rfl, fun _ hn => s.updCtr_other _ hn⟩

theorem State.settle_quiet {s : State} {key : Nat} (h : ¬ (0xFFFFFFFF < (s.ctr key).settled ∧ (s.ctr key).over_ = false)) :
    s.settle key = s.ctrSettled key := if_neg h

theorem keyLocal_lt (b : Barn) (k : StallId) (i : Fin 64) : keyLocal b k i < 0x100000 := by
  unfold keyLocal
  omega

theorem ctrBarn_keyLocal (b : Barn) (k : StallId) (i : Fin 64) : ctrBarn (keyLocal b k i) = some b.val := by
  rw [ctrBarn, if_pos (keyLocal_lt b k i)]
  unfold keyLocal
  congr 1
  omega

theorem keyBarn_ge (b : Barn) (i : Fin 2048) : ¬ keyBarn b i < 0x100000 := by
  unfold keyBarn
  omega

theorem ctrBarn_keyBarn (b : Barn) (i : Fin 2048) : ctrBarn (keyBarn b i) = some b.val := by
  have hlt : keyBarn b i < 0x200000 := by unfold keyBarn; omega
  rw [ctrBarn, if_neg (keyBarn_ge b i), if_pos hlt]
  unfold keyBarn
  congr 1
  omega

theorem keyGate_ge (i : Fin 8192) : ¬ keyGate i < 0x100000 := by
  unfold keyGate
  omega

theorem ctrBarn_keyGate (i : Fin 8192) : ctrBarn (keyGate i) = none := by
  have hge : ¬ keyGate i < 0x200000 := by unfold keyGate; omega
  rw [ctrBarn, if_neg (keyGate_ge i), if_neg hge]

/-- The unit of a counter is that of its key. -/
theorem State.ctrUnit_ctrKey (s : State) (c : CtrId) : s.ctrUnit (ctrKey c) = ctrPlace s c := by
  cases c with
  | loc b k i =>
    have hk : keyLocal b k i / 64 % 48 = k := by unfold keyLocal; omega
    rw [State.ctrUnit, ctrKey, ctrBarn_keyLocal]
    exact (if_pos (keyLocal_lt b k i)).trans (by rw [hk]; rfl)
  | barn b i =>
    rw [State.ctrUnit, ctrKey, ctrBarn_keyBarn]
    exact if_neg (keyBarn_ge b i)
  | gate i =>
    rw [State.ctrUnit, ctrKey, ctrBarn_keyGate]
    rfl

theorem State.ctrOwner_of_owns {s : State} {c : CtrId} {j : Nat} (hj : j < 8) (h : ctrOwns s c j) :
    s.ctrOwner (ctrKey c) = some j := by
  cases c with
  | loc b k i =>
    rw [State.ctrOwner, ctrKey, ctrBarn_keyLocal]
    exact h
  | barn b i =>
    rw [State.ctrOwner, ctrKey, ctrBarn_keyBarn]
    exact h
  | gate i =>
    have hi : keyGate i - 0x200000 = i := Nat.add_sub_cancel_left ..
    obtain ⟨hgate, hphase, hfirst⟩ := h
    rw [State.ctrOwner, ctrKey, ctrBarn_keyGate]
    dsimp only
    rw [hi, List.find?_range_eq_some]
    refine ⟨by simp [hgate, hphase], List.mem_range.2 hj, fun j' hj' => ?_⟩
    have hnot := hfirst j' hj'
    rw [not_and_or, not_not, Bool.not_eq_true] at hnot
    simpa using hnot

/-- A stall's fault register keeps the first error (R75). -/
def State.faulted (s : State) (b k code pc : Nat) : State :=
  if s.fbit (F.STL_FAULT_VALID b k) then s
  else ((s.fset (F.STL_FAULT_VALID b k) 1).fset (F.STL_FAULT_CODE b k) code).fset (F.STL_FAULT_PC b k) pc

section
variable (s : State) (b k code pc : Nat)

theorem State.ctrs_faulted : (s.faulted b k code pc).ctrs = s.ctrs := by
  rw [State.faulted, State.ctrs_ite, State.ctrs_fset, State.ctrs_fset, State.ctrs_fset, ite_self]

theorem State.pacing_faulted : (s.faulted b k code pc).pacing = s.pacing := by
  rw [State.faulted, State.pacing_ite, State.pacing_fset, State.pacing_fset, State.pacing_fset, ite_self]

theorem State.beats_faulted (hk : k < 48) : (s.faulted b k code pc).beats = s.beats := by
  have hfault := noBeat_stlFault b k hk
  rw [State.faulted, State.beats_ite, State.beats_fset _ _ hfault, State.beats_fset _ _ hfault, State.beats_fset _ _ hfault, ite_self]

theorem State.raiseStl_eq (detail tag inst : Nat) : s.raiseStl b k code detail tag inst =
    (s.faulted b k code (s.stall (48 * b + k)).pc).raise
      { code := code, blk := b, inst := inst, job := (s.barn b).owner, detail := detail, tag := tag } := rfl

end

/-- An overflow that the period has not seen yet is raised, with the fault register of the stall of a local object written. -/
theorem State.settle_over {s : State} (c : CtrId) (hover : 0xFFFFFFFF < (s.ctr (ctrKey c)).settled)
    (hfirst : (s.ctr (ctrKey c)).over_ = false) :
    ∃ u : State, s.settle (ctrKey c) = u.raise (ctrErr (ctrPlace s c).1 (ctrPlace s c).2 (s.ctrOwner (ctrKey c))) ∧
      u.ctrs = (s.ctrSettled (ctrKey c)).ctrs ∧ u.pacing = s.pacing ∧ u.beats = s.beats := by
  have hbeats : (s.ctrSettled (ctrKey c)).beats = s.beats := s.beats_updCtr ..
  have hsettle : s.settle (ctrKey c) =
      if ctrKey c < 0x100000 then
        (s.ctrSettled (ctrKey c)).raiseStl (ctrPlace s c).1 (ctrKey c / 64 % 48) 0x0204 0 0 (ctrPlace s c).2
      else (s.ctrSettled (ctrKey c)).raise (ctrErr (ctrPlace s c).1 (ctrPlace s c).2 (s.ctrOwner (ctrKey c))) := by
    rw [State.settle, if_pos ⟨hover, hfirst⟩, s.ctrUnit_ctrKey]
    rfl
  rw [hsettle]
  by_cases hlt : ctrKey c < 0x100000
  · rw [if_pos hlt, State.raiseStl_eq]
    refine ⟨_, congrArg (fun o => State.raise _ (ctrErr _ _ o)) ?_, ?_⟩
    · cases c with
      | loc b k i => rw [State.ctrOwner, ctrKey, ctrBarn_keyLocal]; rfl
      | barn b i => exact absurd hlt (keyBarn_ge b i)
      | gate i => exact absurd hlt (keyGate_ge i)
    · exact ⟨State.ctrs_faulted .., State.pacing_faulted .., (State.beats_faulted _ _ _ _ _ (Nat.mod_lt _ (by decide))).trans hbeats⟩
  · rw [if_neg hlt]
    exact ⟨_, rfl, rfl, rfl, hbeats⟩

/-- Settles O36: the value is the sum or the largest value, and an overflow is raised once in a period. -/
theorem countersSaturate : Obligations.CountersSaturate := by
  unfold Obligations.CountersSaturate
  intro c s key x sum
  have hexec : exec (.syncSettle c) s = .next (s.settle key) := rfl
  refine ⟨fun hle => ?_, fun hlt hover => ?_, fun hlt hover => ?_⟩
  · refine ⟨_, hexec.trans (congrArg Host.Outcome.next (State.settle_quiet fun h => Nat.not_lt.2 hle h.1)), s.onlyCtr_settled key, ?_⟩
    have hsum : (s.ctr key).settled = sum := rfl
    rw [State.ctr_settled, hsum, Nat.min_eq_left hle, decide_eq_false (Nat.not_lt.2 hle), Bool.or_false]
  · have hover' : (s.ctr key).over_ = true := hover
    have hsum : (s.ctr key).settled = sum := rfl
    refine ⟨_, hexec.trans (congrArg Host.Outcome.next (State.settle_quiet fun h => Bool.false_ne_true (h.2.symm.trans hover))),
      s.onlyCtr_settled key, ?_⟩
    rw [State.ctr_settled, hsum, Nat.min_eq_right hlt.le, hover', Bool.true_or, ← hover']
  · obtain ⟨u, hsettle, hctrs, hpacing, hbeats⟩ := State.settle_over c hlt hover
    obtain ⟨htctrs, hrec, hhalt⟩ := State.ctrErr_outcome (blk := (ctrPlace s c).1) (inst := (ctrPlace s c).2)
      (job := s.ctrOwner key) hpacing hbeats
    rw [← hsettle] at htctrs hrec hhalt
    have hctr (n : Nat) : (s.settle key).ctr n = (s.ctrSettled key).ctr n := congrArg (Tab.get Counter.zeroF · n) (htctrs.trans hctrs)
    refine ⟨_, hexec, ?_, fun k hk => ?_, ?_, fun j hj howns hlive hdue => hhalt j (State.ctrOwner_of_owns hj howns) hlive hdue⟩
    · have hsum : (s.ctr key).settled = sum := rfl
      rw [hctr, State.ctr_settled, hsum, Nat.min_eq_right hlt.le, decide_eq_true hlt, Bool.or_true]
    · rw [hctr]
      exact (s.onlyCtr_settled key).2 k hk
    · obtain ⟨r, more, hflight, hcode, hsev, hplace, hjob⟩ := hrec
      exact ⟨r, more, hflight, hcode, hsev, hplace, fun j hj howns => hjob.trans (State.ctrOwner_of_owns hj howns)⟩

end Sys2Proof.Machine

/-! SUPPORT. Packets on the mesh (R192 to R213): what a move leaves of the mesh, and which line of a packet is turned away. -/

namespace Sys2Proof.Machine

/-! ### Moves (R189, R192, R196) -/

/-- Larkspur watches no packet while it does not run (R433). -/
theorem State.tracePkt_off {s : State} (h : s.fbit F.TCK_LSP_CTL_RUN = false) (p : UPkt) : s.tracePkt p = s := by
  unfold State.tracePkt
  split
  · exact foldl_keeps (P := fun t : State => t = s) _ rfl fun t i _ ht => by rw [ht, State.trace_off h]
  · rfl

/-- A packet that is no write packet at the router of its barn enters no bank (R163). -/
theorem State.pktEnters_elsewhere {p : UPkt} {pos : Nat} (h : p.form ≠ 0 ∨ pos ≠ p.dst ∨ 24 ≤ p.dst) (s : State) :
    s.pktEnters p pos = s := by
  refine if_neg ?_
  rintro ⟨hform, hdst, hpos⟩
  obtain h | h | h := h
  · exact h hform
  · exact h hpos
  · exact Nat.not_lt.2 h hdst

/-- The flits of a packet leave over a channel: the slots, what the output keeps, and the count of a link. -/
def State.flitsLeave (s : State) (p : UPkt) (chan k : Nat) : State :=
  let s1 := if chan < 3000 then
      (s.slotsTake chan k).keepItems chan 1 p.id [p.dst] ((List.range k).map (fun i => p.flit s.devId (p.crossed + i)))
    else s
  if chan < 1000 then s1.fwrap (F.NET_LINK_UNS_FLITS (chan / 4) (chan % 4)) k else s1

theorem State.flitsLeave_frame (s : State) (p : UPkt) (chan k : Nat) : ∃ mesh, s.flitsLeave p chan k =
      { s with mesh := mesh, regs := (if chan < 1000 then s.fwrap (F.NET_LINK_UNS_FLITS (chan / 4) (chan % 4)) k else s).regs } ∧
    mesh.uns = s.mesh.uns := by
  unfold State.flitsLeave
  by_cases hslots : chan < 3000
  · rw [if_pos hslots]
    split
    · exact ⟨_, rfl, rfl⟩
    · exact ⟨_, rfl, rfl⟩
  · rw [if_neg hslots]
    split
    · exact ⟨_, rfl, rfl⟩
    · exact ⟨_, rfl, rfl⟩

/-- The packet after `k` of its flits have moved into the buffer at a place. -/
def UPkt.moved (p : UPkt) (buf pos k : Nat) (x : UPkt) : UPkt :=
  if p.crossed + k = p.flits then { x with pos := pos, via := buf, out := 0, crossed := 0 }
  else { x with out := buf, crossed := p.crossed + k }

/-- A move that enters no bank changes the mesh and the count of the link. -/
theorem State.unsMove_eq {s : State} {p : UPkt} {chan buf pos : Nat} (k : Nat) (h : p.form ≠ 0 ∨ pos ≠ p.dst ∨ 24 ≤ p.dst) :
    s.unsMove p chan buf pos k = (s.flitsLeave p chan k).setUns p.id (p.moved buf pos k) := by
  have hfun : s.unsMove p chan buf pos k =
      (let s3 := if p.crossed = 0 ∧ buf < 20000 then (s.flitsLeave p chan k).pktEnters p pos else s.flitsLeave p chan k
       if p.crossed + k = p.flits then s3.setUns p.id (fun q => { q with pos := pos, via := buf, out := 0, crossed := 0 })
       else s3.setUns p.id (fun q => { q with out := buf, crossed := p.crossed + k })) := rfl
  rw [hfun, State.pktEnters_elsewhere h, ite_self]
  unfold UPkt.moved
  split <;> rfl

/-! ### At the ejection point (R199) -/

/-- The first number below `n` for which a partial function has a value. -/
theorem findSome?_range {α : Type} {f : Nat → Option α} {n i : Nat} {x : α} (hi : i < n) (hbefore : ∀ j < i, f j = none)
    (hx : f i = some x) : (List.range n).findSome? f = some x := by
  rw [List.findSome?_eq_some_iff]
  refine ⟨List.range i, i, (List.range (n - i - 1)).map (i + 1 + ·), ?_, hx, fun j hj => hbefore j (List.mem_range.1 hj)⟩
  obtain ⟨m, rfl⟩ : ∃ m, n = i + (m + 1) := ⟨n - i - 1, by omega⟩
  rw [List.range_add, List.range_succ_eq_map]
  simp [Function.comp_def, Nat.add_assoc, Nat.add_comm 1]

/-- A packet at its ejection point, of which nothing has been performed. -/
theorem exec_unsPacketPerform {s : State} {n : Fin 65536} {p : UPkt} (hp : s.mesh.uns[n.val]? = some p) (hvia : p.via = ejectBuf p.dst)
    (hleft : p.left = none) (hform : p.form < 2) : exec (.unsPacketPerform n) s =
      .next (((List.range p.flits).findSome? (fun i =>
          (s.arriveDenied p.job (p.addr + 64 * i) (p.form = 0)).map (fun c => (c, p.addr + 64 * i)))).elim
        ((List.range p.flits).foldl (fun s i => s.unsLine p i) (s.setUns p.id (fun q => { q with left := some p.flits })))
        (fun x => s.turnAway p x.1 x.2)) := by
  change execUnsPacketPerform n s = _
  have hstay : ¬ (p.via ≠ ejectBuf p.dst || p.left.isSome || p.form = 4 : Bool) = true := by
    simp only [hvia, hleft]
    simp
    omega
  rw [execUnsPacketPerform, hp]
  dsimp only
  rw [if_neg hstay, if_neg (by omega)]
  cases (List.range p.flits).findSome? (fun i =>
    (s.arriveDenied p.job (p.addr + 64 * i) (p.form = 0)).map (fun c => (c, p.addr + 64 * i))) <;> rfl

/-! ### Register reads (R443) -/

/-- A source that may reach registers, and whose request no earlier control packet is before. -/
theorem exec_regRd {s : State} {src : Source} {addr : Fin 4294967296} {ide : Bool} (hup : s.srcUp src = true)
    (hden : s.srcDenied src ide = false) (hahead : s.ctrlAhead (sourcePt src) (regPoint addr) = false) (fn : Fin 9) (len : Fin 4097)
    (tag : Fin 1024) : exec (.regRd src fn addr len ide tag) s = .next (s.regAnswer src fn addr len tag) := by
  change execRegRd src fn addr len ide tag s = _
  rw [execRegRd, hup, hden, hahead]
  rfl

/-! ### The rows -/

/-- The flits that may move in this period do. -/
theorem exec_unsFlitCredit {s : State} {n : Fin 65536} {d : Fin 4} {p : UPkt} {chan buf pos k : Nat} (hp : s.mesh.uns[n.val]? = some p)
    (hsent : p.sent = true) (hhop : s.unsHop p d = some (chan, buf, pos)) (hrun : s.fbit F.TCK_LSP_CTL_RUN = false)
    (hout : p.out = 0 ∨ p.out = buf)
    (hk : min (p.flits - p.crossed) (min (if chan < 3000 then s.slotsFree chan else 4) (16 - s.viaFlits buf p.rsp)) = k) (hpos : k ≠ 0) :
    exec (.unsFlitCredit n d) s = .next (s.unsMove p chan buf pos k) := by
  change execUnsFlitCredit n d s = _
  have hstay : ¬ (k = 0 ∨ (p.out ≠ 0 ∧ p.out ≠ buf)) := by
    rintro (h | ⟨h, h'⟩)
    · exact hpos h
    · exact hout.elim h h'
  rw [execUnsFlitCredit, hp]
  dsimp only
  rw [hsent, hhop]
  dsimp only
  rw [State.tracePkt_off hrun, ite_self, hk, if_neg hstay]
  rfl

theorem State.uns_unsMove {s : State} {p : UPkt} {chan buf pos k : Nat} (h : p.form ≠ 0 ∨ pos ≠ p.dst ∨ 24 ≤ p.dst) :
    ∃ mesh, s.unsMove p chan buf pos k =
        { s with mesh := mesh, regs := (if chan < 1000 then s.fwrap (F.NET_LINK_UNS_FLITS (chan / 4) (chan % 4)) k else s).regs } ∧
      mesh.uns = s.mesh.uns.map (fun x => if x.id = p.id then p.moved buf pos k x else x) := by
  obtain ⟨mesh, hleave, huns⟩ := s.flitsLeave_frame p chan k
  rw [State.unsMove_eq k h, hleave, ← huns]
  exact ⟨_, rfl, rfl⟩

/-- A response at its edge. -/
theorem exec_unsPacketPerform_response {s : State} {n : Fin 65536} {p : UPkt} (hp : s.mesh.uns[n.val]? = some p)
    (hvia : p.via = ejectBuf p.dst) (hleft : p.left = none) (hform : p.form = 2) :
    exec (.unsPacketPerform n) s = .next (s.respond p) := by
  change execUnsPacketPerform n s = _
  have hstay : ¬ (p.via ≠ ejectBuf p.dst || p.left.isSome || p.form = 4 : Bool) = true := by
    simp [hvia, hleft, hform]
  rw [execUnsPacketPerform, hp]
  dsimp only
  rw [if_neg hstay, if_pos hform]

/-- A packet all of whose lines the job may reach. -/
theorem exec_unsPacketPerform_lines {s : State} {n : Fin 65536} {p : UPkt} (hp : s.mesh.uns[n.val]? = some p)
    (hvia : p.via = ejectBuf p.dst) (hleft : p.left = none) (hform : p.form < 2)
    (hok : ∀ i < p.flits, s.arriveDenied p.job (p.addr + 64 * i) (decide (p.form = 0)) = none) : exec (.unsPacketPerform n) s =
      .next ((List.range p.flits).foldl (fun u i => u.unsLine p i) (s.setUns p.id (fun q => { q with left := some p.flits }))) := by
  have hnone : (List.range p.flits).findSome? (fun i =>
      (s.arriveDenied p.job (p.addr + 64 * i) (p.form = 0)).map (fun c => (c, p.addr + 64 * i))) = none := by
    rw [List.findSome?_eq_none_iff]
    intro i hi
    rw [hok i (List.mem_range.1 hi), Option.map_none]
  rw [exec_unsPacketPerform hp hvia hleft hform, hnone, Option.elim_none]

/-- The first line that fails a check turns its packet away. -/
theorem exec_unsPacketPerform_denied {s : State} {n : Fin 65536} {p : UPkt} (hp : s.mesh.uns[n.val]? = some p)
    (hvia : p.via = ejectBuf p.dst) (hleft : p.left = none) (hform : p.form < 2) {i c : Nat} (hi : i < p.flits)
    (hbefore : ∀ j < i, s.arriveDenied p.job (p.addr + 64 * j) (decide (p.form = 0)) = none)
    (hden : s.arriveDenied p.job (p.addr + 64 * i) (decide (p.form = 0)) = some c) :
    exec (.unsPacketPerform n) s = .next (s.turnAway p c (p.addr + 64 * i)) := by
  have hsome : (List.range p.flits).findSome? (fun i =>
      (s.arriveDenied p.job (p.addr + 64 * i) (p.form = 0)).map (fun c => (c, p.addr + 64 * i))) = some (c, p.addr + 64 * i) := by
    refine findSome?_range hi (fun j hj => ?_) ?_
    · rw [hbefore j hj, Option.map_none]
    · rw [hden, Option.map_some]
  rw [exec_unsPacketPerform hp hvia hleft hform, hsome, Option.elim_some]

theorem State.turnAway_write {s : State} {p : UPkt} (h : p.form = 0) (code a : Nat) :
    s.turnAway p code a = ((s.arriveErr p.src p.job code a).uncount p).unsEnd p := if_pos h

/-- An item that is sent again is counted and reported, and a scheduled flit holds the receiving region (R203). -/
def State.resent (s : State) (x : KeptItem) : State :=
  let c := chanPlace x.chan
  let u := if x.chan < 2000 then s.fwrap (F.NET_RESEND_RESENDS c.1) 1 else s
  let v := if x.kind = 0 then
      (if x.chan < 2000 then u.fsat (F.NET_RESEND_HELD c.1) 1 else u).resendHold (chanEnd x.chan) x.chan
    else u
  v.netErr c.1 0x0404 0 c.2.2 none 0

section
variable {s : State} {n : Fin 65536} {x : KeptItem} (hx : s.mesh.kept[n.val]? = some x)
  (hperiod : (s.region (chanPlace x.chan).1).periods ≤ x.period + 4)
include hx hperiod

theorem execHopResend_eq (again : Bool) : execHopResend n again s = .next (if again then
    ((s.resent x).discardItem x).netErr (chanPlace x.chan).1 0x0405 0 (chanPlace x.chan).2.2 none 0 else s.resent x) := by
  rw [execHopResend, hx]
  dsimp only
  rw [if_neg (Nat.not_lt.2 hperiod)]
  simp only [State.resent]

theorem exec_hopResend_once : exec (.hopResend n false) s = .next (s.resent x) := by
  change execHopResend n false s = _
  rw [execHopResend_eq hx hperiod, if_neg Bool.false_ne_true]

theorem exec_hopResend_again : exec (.hopResend n true) s =
    .next (((s.resent x).discardItem x).netErr (chanPlace x.chan).1 0x0405 0 (chanPlace x.chan).2.2 none 0) := by
  change execHopResend n true s = _
  rw [execHopResend_eq hx hperiod, if_pos rfl]

end

section
variable {s : State} {src : Source} {addr : Fin 4294967296} {ide : Bool} (hup : s.srcUp src = true) (fn : Fin 9) (len : Fin 4097)
  (tag : Fin 1024)
include hup

theorem exec_regRd_denied (hden : s.srcDenied src ide = true) :
    exec (.regRd src fn addr len ide tag) s = .next (s.regReply src addr tag 1 0) := by
  change execRegRd src fn addr len ide tag s = _
  rw [execRegRd, hup, hden]
  rfl

theorem exec_regRd_behind (hden : s.srcDenied src ide = false) (hahead : s.ctrlAhead (sourcePt src) (regPoint addr) = true) :
    exec (.regRd src fn addr len ide tag) s =
      .next (s.ctrlPut 1 (sourcePt src) (regPoint addr) 63 (0xF00000000 + addr.val + tag.val * 2 ^ 36)
        (some ⟨src, fn, addr, len, tag, none⟩)) := by
  change execRegRd src fn addr len ide tag s = _
  rw [execRegRd, if_neg (by rw [hup]; decide), if_neg (ne_true_of_eq_false hden), if_pos hahead]

end

/-- What the block of a register answers to a read of a port's PF0 or of the Tackroom. -/
theorem State.regAnswer_plain (s : State) {src : Source} {fn len : Nat} (h : srcNum src = 2 ∨ (fn = 0 ∧ len ≤ 8)) (addr tag : Nat) :
    s.regAnswer src fn addr len tag =
      (s.regRead (srcNum src) addr len).2.regReply src addr tag 0 (s.regRead (srcNum src) addr len).1 := by
  have hlong : ¬ (srcNum src < 2 ∧ 8 < len) := by omega
  have hvf : ¬ (srcNum src < 2 ∧ fn ≠ 0) := by omega
  rw [State.regAnswer]
  dsimp only
  rw [if_neg hlong, if_neg hvf]

theorem State.regAnswer_vf (s : State) {src : Source} {fn len : Nat} (hport : srcNum src < 2) (hfn : fn ≠ 0) (hlen : len ≤ 8)
    (addr tag : Nat) : s.regAnswer src fn addr len tag =
      (s.vfRead (srcNum src) (fn - 1) (addr % 65536) len).2.regReply src addr tag 0
        (s.vfRead (srcNum src) (fn - 1) (addr % 65536) len).1 := by
  rw [State.regAnswer]
  dsimp only
  rw [if_neg (by omega), if_pos ⟨hport, hfn⟩]

theorem State.regAnswer_long (s : State) {src : Source} {len : Nat} (hport : srcNum src < 2) (hlen : 8 < len) (fn addr tag : Nat) :
    s.regAnswer src fn addr len tag = (s.unmapped (srcNum src) false addr).regReply src addr tag 1 0 := if_pos ⟨hport, hlen⟩

/-- A counter gets the increment of the packet that has been taken. -/
theorem syncAdd_adds {s u : State} {src dst : Fin 30} {c : CPkt}
    (htake : s.ctrlTake (fun c => c.ty = 4 && c.src = src.val && c.dst = dst.val) = some (c, u)) {key : Nat}
    (hsel : selKey dst c.stall (bits c.body 15 0) = some key) :
    exec (.syncAdd src dst) s = .next (u.signal key (bits c.body 47 16)) := by
  change execSyncAdd src dst s = _
  rw [execSyncAdd, htake]
  dsimp only
  rw [hsel]

/-- Settles O25: each row under its condition. -/
theorem meshPacketsComplete : Obligations.MeshPacketsComplete := by
  unfold Obligations.MeshPacketsComplete
  intro s
  refine ⟨fun n d p chan buf pos hp hsent hhop hrun hout => ?_, fun n p hp hvia hleft => ⟨fun hform => ?_, fun hform => ⟨fun hok => ?_,
      fun i hi c hbefore hden => ?_⟩⟩, fun n x hx hperiod => ?_, fun b => rfl, fun src dst c u htake key hsel => ?_,
    fun src dst c u htake => ?_, fun src dst c u htake => ?_, fun src fn addr len ide tag hup => ⟨fun hden => ?_,
      fun hden hahead => ?_, fun hden hahead => ?_⟩, fun b k c u thr htake hwait hthr hjob => ?_⟩
  · intro k hk
    have hmove := exec_unsFlitCredit hp hsent hhop hrun hout rfl hk
    refine ⟨hmove, fun helse => ⟨_, hmove, ?_⟩⟩
    obtain ⟨mesh, hframe, huns⟩ := State.uns_unsMove (s := s) (chan := chan) (buf := buf) (k := k) helse
    rw [hframe]
    exact ⟨huns, rfl, rfl⟩
  · exact exec_unsPacketPerform_response hp hvia hleft hform
  · exact exec_unsPacketPerform_lines hp hvia hleft hform hok
  · have haway := exec_unsPacketPerform_denied hp hvia hleft hform hi hbefore hden
    exact ⟨haway, fun hwrite => haway.trans (congrArg Host.Outcome.next (State.turnAway_write hwrite _ _))⟩
  · exact ⟨exec_hopResend_once hx hperiod, exec_hopResend_again hx hperiod⟩
  · refine ⟨_, syncAdd_adds htake hsel, congrArg Counter.incs (u.updCtr_same key _), ⟨rfl, fun m hm => u.updCtr_other _ hm⟩, ?_⟩
    rw [State.ctrlTake_frame htake]
  · change execWrDone src dst s = _
    rw [execWrDone, htake]
  · change execRegRsp src dst s = _
    rw [execRegRsp, htake]
  · exact exec_regRd_denied hup fn len tag hden
  · exact exec_regRd_behind hup fn len tag hden hahead
  · have hexec := exec_regRd hup hden hahead fn len tag
    refine ⟨fun hpf => ?_, fun hport hfn hlen => ?_, fun hport hlen => ?_⟩
    · exact hexec.trans (congrArg Host.Outcome.next (s.regAnswer_plain hpf addr tag))
    · exact hexec.trans (congrArg Host.Outcome.next (s.regAnswer_vf hport hfn hlen addr tag))
    · exact hexec.trans (congrArg Host.Outcome.next (s.regAnswer_long hport hlen fn addr tag))
  · change execGateVal b k s = _
    rw [execGateVal, htake]
    exact congrArg Host.Outcome.next (State.waitcSees_reached hwait hthr hjob)

end Sys2Proof.Machine

/-! SUPPORT. What errors, halts and packets leave alone: the records of the SEC unit, and the clear states of the barns. -/

namespace Sys2Proof.Machine

/-! ### Records of the SEC unit and clear states

No error, halt or packet writes them. -/

/-- The job records of the SEC unit, and SPD_CLEAR of the barns. -/
def State.aside (s : State) : Tab SecJob × (Fin 24 → Nat) := (s.sec.jobs, fun b => s.reg (R.SPD_CLEAR b))

theorem State.secJob_of_aside {s t : State} (h : t.aside = s.aside) (j : Nat) : t.secJob j = s.secJob j :=
  congrArg (fun x : Tab SecJob × (Fin 24 → Nat) => Tab.get SecJob.zeroF x.1 j) h

theorem State.clear_of_aside {s t : State} (h : t.aside = s.aside) (b : Fin 24) : t.reg (R.SPD_CLEAR b) = s.reg (R.SPD_CLEAR b) :=
  congrFun (congrArg Prod.snd h) b

/-- The register is no SPD_CLEAR. -/
def NoClear (a : Nat) : Prop := ∀ b : Fin 24, R.SPD_CLEAR b ≠ a

theorem noClear_of_ge {a : Nat} (h : 0x2000000 ≤ a) : NoClear a := fun b => by
  simp only [R.SPD_CLEAR]
  omega

theorem noClear_stlStarve (b k : Nat) (hk : k < 48) : NoClear (R.STL_STARVE b k) := fun c => by
  simp only [R.SPD_CLEAR, R.STL_STARVE]
  omega

@[simp] theorem State.aside_mk {u : State} {pending fused mask cfgRef time regions err stalls barns ctrs jobs lofts mesh acts mism links fab srv prefix_ yok host rings copies loads info tck rep out freeCtr} :
    (State.mk pending u.regs fused mask cfgRef time regions err stalls barns ctrs jobs lofts mesh acts mism links fab srv prefix_
      yok host rings copies loads info u.sec tck rep out freeCtr).aside = u.aside := (rfl)

@[simp] theorem State.aside_ite (c : Prop) [Decidable c] (s t : State) : (if c then s else t).aside = if c then s.aside else t.aside :=
  apply_ite State.aside c s t

theorem State.aside_foldl {α : Type} {f : State → α → State} (hf : ∀ t x, (f t x).aside = t.aside) (l : List α) (s : State) :
    (l.foldl f s).aside = s.aside :=
  foldl_keeps (P := fun t : State => t.aside = s.aside) l rfl fun t x _ ht => (hf t x).trans ht

section
variable (s : State)

theorem State.aside_setReg {a : Nat} (v : Nat) (h : NoClear a) : (s.setReg a v).aside = s.aside :=
  Prod.ext rfl (funext fun b => s.reg_setReg_other v (h b))

theorem State.aside_fset {f : Fld} (v : Nat) (h : NoClear f.addr) : (s.fset f v).aside = s.aside :=
  Prod.ext rfl (funext fun b => s.reg_fset_other v (h b))

theorem State.aside_fwrap {f : Fld} (k : Nat) (h : NoClear f.addr) : (s.fwrap f k).aside = s.aside := s.aside_fset _ h
theorem State.aside_fsat {f : Fld} (k : Nat) (h : NoClear f.addr) : (s.fsat f k).aside = s.aside := s.aside_fset _ h

@[simp] theorem State.aside_send (o : Out) : (s.send o).aside = s.aside := (rfl)
@[simp] theorem State.aside_updRegion (r : Nat) (f : Region → Region) : (s.updRegion r f).aside = s.aside := (rfl)
@[simp] theorem State.aside_updStall (i : Nat) (f : Stall → Stall) : (s.updStall i f).aside = s.aside := (rfl)
@[simp] theorem State.aside_updLoft (n : Nat) (f : Loft → Loft) : (s.updLoft n f).aside = s.aside := (rfl)
@[simp] theorem State.aside_updJob (j : Nat) (f : Job → Job) : (s.updJob j f).aside = s.aside := (rfl)
@[simp] theorem State.aside_updLink (p : Nat) (f : Link → Link) : (s.updLink p f).aside = s.aside := (rfl)
@[simp] theorem State.aside_updSrv (j : Nat) (f : SrvJob → SrvJob) : (s.updSrv j f).aside = s.aside := (rfl)
@[simp] theorem State.aside_updHst (p : Nat) (f : HostSt → HostSt) : (s.updHst p f).aside = s.aside := (rfl)
@[simp] theorem State.aside_updFab (f : FabSt → FabSt) : (s.updFab f).aside = s.aside := (rfl)
@[simp] theorem State.aside_updCtr (k : Nat) (f : Counter → Counter) : (s.updCtr k f).aside = s.aside := (rfl)

@[simp] theorem State.aside_trace (src r : Nat) (job : Option Nat) (data : Nat) : (s.trace src r job data).aside = s.aside := by
  refine Prod.ext ?_ (funext fun b => s.reg_trace src r job data (noClear_of_ge (by decide) b))
  rw [State.trace_frame]
  rfl

@[simp] theorem State.aside_raiseRec (e : Err) : (s.raiseRec e).aside = s.aside := by
  have hesc : (s.fsat F.ERR_COUNT_ESCALATED 1).aside = s.aside := s.aside_fsat _ (noClear_of_ge (by decide))
  simp only [State.raiseRec]
  rw [State.sendRec_frame]
  split
  · exact hesc
  · rfl

@[simp] theorem State.aside_showHold (r : Nat) : (s.showHold r).aside = s.aside := by
  have hr : NoClear (R.PCR_HOLD r) := noClear_of_ge (by simp only [R.PCR_HOLD]; omega)
  simp only [State.showHold, State.fsetB]
  rw [State.aside_fset _ _ hr, State.aside_fset _ _ hr, State.aside_fset _ _ hr]

@[simp] theorem State.aside_clearCausesAll (p : HoldCause → Bool) : (s.clearCausesAll p).aside = s.aside := by
  have hcount (t : State) (c : HoldCause) : (t.countStarved c).aside = t.aside := by
    rw [State.countStarved, State.aside_ite, State.aside_fsat _ _ (noClear_stlStarve _ _ (Nat.mod_lt _ (by decide))), ite_self]
  refine State.aside_foldl (fun t r => ?_) _ s
  rw [State.aside_ite, State.clearCauses, State.aside_showHold, State.aside_foldl hcount, State.aside_updRegion, ite_self]

@[simp] theorem State.aside_hostWrite (p a : Nat) (bs : List Byte) : (s.hostWrite p a bs).aside = s.aside := by
  have hp : NoClear (R.HST_DMA_OUT p) := noClear_of_ge (by simp only [R.HST_DMA_OUT]; omega)
  rw [State.hostWrite, State.aside_ite, State.aside_setReg _ _ hp, State.aside_send, ite_self]

@[simp] theorem State.aside_fireVec (p fn v : Nat) : (s.fireVec p fn v).aside = s.aside := by
  simp only [State.fireVec, State.aside_ite, State.aside_updHst, State.aside_send, ite_self]

@[simp] theorem State.aside_pushCpl (j : Nat) (c : CplRec) : (s.pushCpl j c).aside = s.aside := by
  have hwrite (t : State) (r : Ring) (c : CplRec) : (t.writeCpl r c).aside = t.aside := by
    rw [State.writeCpl, State.aside_hostWrite]
    split
    · exact t.aside_hostWrite ..
    · rfl
  have hcpl (p : Nat) : NoClear (R.HST_CTX_CPL p j) := noClear_of_ge (by simp only [R.HST_CTX_CPL]; omega)
  have hfset (t : State) (p v : Nat) : (t.fset (F.HST_CTX_CPL_PRODUCER p j) v).aside = t.aside := t.aside_fset v (hcpl p)
  simp only [State.pushCpl, State.flushCpl, State.aside_ite, State.aside_fireVec, hfset, State.aside_hostWrite, State.aside_updSrv]
  rw [State.aside_foldl fun t c => hwrite t _ c, State.aside_updSrv, ite_self, ite_self]

@[simp] theorem State.aside_tryOriginate (j : Nat) (dest : FDest) (h : FabHdr) (lines : List Line) (plan : Option Nat) :
    (s.tryOriginate j dest h lines plan).1.aside = s.aside := by
  simp only [State.tryOriginate]
  split
  · rfl
  · split
    · exact s.aside_raiseRec _
    · simp [State.handOver, State.updOut]

@[simp] theorem State.aside_haltControl (j : Nat) (dest : FDest) (sub : Nat) (body : List Byte) :
    (s.haltControl j dest sub body).aside = s.aside := s.aside_tryOriginate ..

@[simp] theorem State.aside_headHalt (j code : Nat) : (s.headHalt j code).aside = s.aside := by
  have hcount : NoClear (F.SRV_JOB_COUNT_SEQS j).addr := noClear_of_ge (by simp only [F.SRV_JOB_COUNT_SEQS, R.SRV_JOB_COUNT]; omega)
  have hstate : NoClear (F.SRV_JOB_STATE_IN_FLIGHT j).addr :=
    noClear_of_ge (by simp only [F.SRV_JOB_STATE_IN_FLIGHT, R.SRV_JOB_STATE]; omega)
  rw [State.headHalt, State.aside_ite, State.aside_fset _ _ hstate, State.aside_fset _ _ hcount, State.aside_updSrv,
    State.aside_foldl fun t e => t.aside_pushCpl .., State.aside_foldl fun t d => t.aside_haltControl .., ite_self]

@[simp] theorem State.aside_haltNow (j code : Nat) : (s.haltNow j code).aside = s.aside := by
  have hstate : NoClear (R.SRV_JOB_STATE j) := noClear_of_ge (by simp only [R.SRV_JOB_STATE]; omega)
  have hstalls : (s.haltStalls j).aside = s.aside := by
    rw [State.haltStalls, State.aside_clearCausesAll, State.aside_foldl fun t n => by rw [State.aside_ite, State.aside_updLoft, ite_self],
      State.aside_foldl fun t i => t.aside_updStall .., State.aside_updJob]
  have hset (t : State) : (t.fset (F.SRV_JOB_STATE_STATE j) 3).aside = t.aside := t.aside_fset _ hstate
  simp only [State.haltNow, State.haltSends, State.aside_ite, State.aside_headHalt, State.aside_haltControl, hset, hstalls, ite_self]

@[simp] theorem State.aside_haltBoundary (j code r : Nat) : (s.haltBoundary j code r).aside = s.aside := by
  simp only [State.haltBoundary]
  split
  · split
    · exact s.aside_haltNow j code
    · rw [State.aside_ite, State.aside_updJob, ite_self]
  · rfl

/-! #### Ports that go down (R242, R264) -/

theorem noClear_lnkReg {a : Nat} (b i : Nat) (h : a = R.LNK_PORT_STATE b i ∨ a = R.LNK_TRANSIT b i ∨ a = R.LNK_BYPASS b i) : NoClear a :=
  noClear_of_ge (by simp only [R.LNK_PORT_STATE, R.LNK_TRANSIT, R.LNK_BYPASS] at h; omega)

@[simp] theorem State.aside_setPort (p st : Nat) : (s.setPort p st).aside = s.aside := by
  have hp : NoClear (F.LNK_PORT_STATE_STATE (p / 8) (p % 8)).addr := noClear_lnkReg (p / 8) (p % 8) (Or.inl rfl)
  rw [State.setPort, State.aside_trace, State.aside_updLink, State.aside_fset _ _ hp]

@[simp] theorem State.aside_abortRx (p v : Nat) : (s.abortRx p v).aside = s.aside := by
  refine (State.aside_updLink _ _ _).trans (State.aside_foldl (fun t r => State.aside_foldl (fun u o => ?_) _ t) _ s)
  have ho : NoClear (F.LNK_TRANSIT_ABORTED (o / 8) (o % 8)).addr := noClear_lnkReg (o / 8) (o % 8) (Or.inr (Or.inl rfl))
  rw [State.aside_fsat _ _ ho, State.aside_updLink]

@[simp] theorem State.aside_markRoutes (p : Nat) : (s.markRoutes p).2.aside = s.aside := by
  have hn : NoClear F.FAB_NOTICE_MARKED.addr := noClear_of_ge (by decide)
  rw [State.markRoutes, State.aside_fwrap _ _ hn, State.aside_updFab]

@[simp] theorem State.aside_sendNotices (p origin : Nat) (ms : List (Nat × Nat)) : (s.sendNotices p origin ms).aside = s.aside := by
  have hn : NoClear F.FAB_NOTICE_SENT.addr := noClear_of_ge (by decide)
  rw [State.sendNotices, State.aside_ite]
  refine ite_eq_left_iff.2 fun _ => State.aside_foldl (fun t _ => State.aside_foldl (fun u q => ?_) _ t) _ s
  rw [State.aside_fwrap _ _ hn]
  simp only [State.sendBypass, State.aside_ite, State.aside_updLink, ite_self]

@[simp] theorem State.aside_linkNotice (p : Nat) : (s.linkNotice p).aside = s.aside := by
  have hp (t : State) : (t.fwrap (F.LNK_BYPASS_SENT (p / 8) (p % 8)) 1).aside = t.aside :=
    t.aside_fwrap _ (noClear_lnkReg (p / 8) (p % 8) (Or.inr (Or.inr rfl)))
  simp only [State.linkNotice, State.putFlit, State.emit, State.aside_ite, hp, State.aside_updLink, State.aside_send, ite_self]

@[simp] theorem State.aside_linkDown (p cause : Nat) : (s.linkDown p cause).2.aside = s.aside := by
  unfold State.linkDown
  extract_lets n s1 s2 s3 f s4 y m s5
  have hport : NoClear (R.LNK_PORT_STATE (p / 8) (p % 8)) := noClear_lnkReg (p / 8) (p % 8) (Or.inl rfl)
  have hdown : s4.aside = s.aside := by
    rw [State.aside_setReg _ _ hport, State.aside_setPort, State.aside_updLink, State.aside_foldl fun t v => t.aside_abortRx p v]
    exact s.aside_raiseRec _
  split
  · exact hdown
  · split
    · exact (s4.aside_markRoutes p).trans hdown
    · rw [State.aside_sendNotices, State.aside_raiseRec, State.aside_markRoutes, hdown]

@[simp] theorem State.aside_deviceFatal (code : Nat) : (s.deviceFatal code).aside = s.aside := by
  have hdown (t : State) (p : Nat) : ((t.linkNotice p).linkDownOpen p).2.aside = t.aside := by
    rw [State.linkDownOpen, State.aside_linkDown]
    exact t.aside_linkNotice p
  rw [State.deviceFatal]
  dsimp only
  rw [State.aside_foldl hdown, State.aside_foldl fun t j => t.aside_haltNow j code]
  rfl

@[simp] theorem State.aside_raise (e : Err) : (s.raise e).aside = s.aside := by
  have hrec : (s.raiseRec e).aside = s.aside := s.aside_raiseRec e
  unfold State.raise
  simp only [State.aside_ite, State.aside_deviceFatal, hrec, ite_self]
  refine ite_eq_left_iff.2 fun _ => ite_eq_right_iff.2 fun _ => ?_
  split
  · rw [State.aside_foldl fun t j => t.aside_haltBoundary .., hrec]
  · split
    · rw [State.aside_foldl fun t j => t.aside_haltNow .., hrec]
    · rw [State.aside_foldl fun t j => t.aside_haltBoundary .., hrec]
    · exact hrec

end

end Sys2Proof.Machine

/-! SUPPORT. Loads, shards, deployments and notices (R298, R392 to R399): that what the hub reads, writes and sends leaves the
records of the SEC unit alone, and what each row makes of them. -/

namespace Sys2Proof.Machine

/-! ### Reads and packets of the hub -/

section
variable (s : State)

@[simp] theorem State.aside_hread (p : Nat) (h : List HostPiece) (a n : Nat) : (s.hread p h a n).2.aside = s.aside := by
  have hin : NoClear (R.HST_DMA_IN p) := noClear_of_ge (by simp only [R.HST_DMA_IN]; omega)
  have herr : NoClear (F.HST_ERRCNT_READ_FAILED p).addr := noClear_of_ge (by simp only [F.HST_ERRCNT_READ_FAILED, R.HST_ERRCNT]; omega)
  unfold State.hread
  split
  · exact s.aside_setReg _ hin
  · exact (State.aside_raise _ _).trans (s.aside_fsat _ herr)

theorem State.aside_devRec (p : Nat) (d : DevRec) : (s.devRec p d).aside = s.aside := by
  simp only [State.devRec, State.flushDev, State.aside_ite, State.aside_fireVec, State.aside_hostWrite, State.aside_updHst]
  rw [State.aside_foldl fun t d => t.aside_hostWrite .., State.aside_updHst, ite_self, ite_self, ite_self]

theorem State.aside_loftErr (n code blk : Nat) (job : Option Nat) : (s.loftErr n code blk job none 0).aside = s.aside := by
  have hn : NoClear (R.LFT_ERRADDR n) := fun b => by
    simp only [R.SPD_CLEAR, R.LFT_ERRADDR]
    omega
  have hset (t : State) {f : Fld} (v : Nat) (hf : f.addr = R.LFT_ERRADDR n) : (t.fset f v).aside = t.aside := t.aside_fset v (hf ▸ hn)
  rw [State.loftErr, State.aside_raise, State.loftFirst, State.aside_ite, hset _ _ rfl, hset _ _ rfl, hset _ _ rfl, ite_self]

theorem State.aside_hubPoke (a : Nat) (v : LineVal) (weight : Bool) : (s.hubPoke a v weight).aside = s.aside := by
  unfold State.hubPoke
  split
  · simp only [State.pokeLine, State.takeBank, State.writeLine, State.aside_ite, State.aside_updStall, ite_self]
  · simp only [State.loftStore, State.aside_ite, State.aside_loftErr, State.aside_updLoft, ite_self]
  · rfl

@[simp] theorem State.aside_hubPut (a epoch : Nat) (weight : Bool) (bs : List Byte) : (s.hubPut a epoch weight bs).aside = s.aside :=
  State.aside_foldl (fun t _ => t.aside_hubPoke ..) _ s

@[simp] theorem State.aside_hubSend (j d addr epoch sig inc : Nat) (fence : Bool) (bs : List Byte) :
    (s.hubSend j d addr epoch sig inc fence bs).aside = s.aside := by
  have horig (t : State) (dest : FDest) (h : FabHdr) (lines : List Line) : (t.originate j dest h lines).aside = t.aside := by
    rw [State.originate, State.aside_ite, State.aside_haltNow, State.aside_tryOriginate, ite_self]
  rw [State.hubSend, State.aside_ite]
  dsimp only
  rw [State.aside_foldl fun t i => horig t _ _ _, State.aside_ite, State.aside_updCtr, State.aside_hubPut, ite_self, ite_self]

theorem State.aside_hubSendAll (j addr epoch sig inc : Nat) (fence : Bool) (bs : List Byte) :
    (s.hubSendAll j addr epoch sig inc fence bs).aside = s.aside :=
  State.aside_foldl (fun t _ => t.aside_hubSend ..) _ s

end

theorem State.aside_loadGranules (p : Nat) (h : List HostPiece) (b : Bale) (x : Shard) (n g : Nat) (acc : List Byte) (s : State) :
    (State.loadGranules p h b x n g acc s).2.aside = s.aside := by
  induction n generalizing g acc s with
  | zero => rfl
  | succ n ih =>
    simp only [State.loadGranules]
    split
    · exact s.aside_hread ..
    · split
      · exact s.aside_hread ..
      · rw [ih, State.aside_hubPut, State.aside_hread]

/-! ### LOAD_DONE (R298) -/

section
variable {s u v : State} {j : JobId} {host : List HostPiece} {img p : List Byte} (hphase : (s.job j).phase = .loading)
include hphase

theorem loadDone_readFails (hread : s.hread (s.loadRec j).port host (s.loadRec j).img (s.loadRec j).imgLen = (none, u)) (g b : Bool) :
    exec (.loadDone j host g b) s = .next (u.loadReadFails j) := by
  change execLoadDone j host g b s = _
  rw [execLoadDone, if_neg (not_not.2 hphase)]
  dsimp only
  rw [hread]

theorem loadDone_read (himg : s.hread (s.loadRec j).port host (s.loadRec j).img (s.loadRec j).imgLen = (some img, u))
    (hparams : u.hread (s.loadRec j).port host (s.loadRec j).params (prmLength (s.imageBody img)) = (some p, v)) (g b : Bool) :
    exec (.loadDone j host g b) s = .next (
      if field p 3 1 ≠ 0 || field p 58 6 ≠ 0 then v.loadBadRecord j
      else (v.loadChecks j (s.loadRec j) img p g b).elim
        (fun e => (if e.1 = 8 then v.raise { code := 0x0A06, blk := 28, job := some j.val } else v).loadFails j e.1 e.2)
        (fun m => v.loadResume j host (s.loadRec j) m p (shake (s.imageBody img)))) := by
  change execLoadDone j host g b s = _
  rw [execLoadDone, if_neg (not_not.2 hphase)]
  dsimp only
  rw [himg]
  dsimp only
  rw [hparams]
  dsimp only
  cases v.loadChecks j (s.loadRec j) img p g b <;> rfl

end

/-! ### Shards (R393) -/

theorem SecJob.bale_setBale (c : SecJob) (kind slot : Nat) (b : Option Bale) : (c.setBale kind slot b).bale kind slot = b := by
  unfold SecJob.bale SecJob.setBale
  split
  · rfl
  · exact Tab.get_set_same ..

/-- A shard in an open bale. -/
def State.HasShard (s : State) (q : BaleJob) (x : Shard) : Prop :=
  ∃ b, (s.secJob q.job).bale q.kind q.slot = some b ∧ b.shards[q.shard]? = some x

theorem State.hasShard_updShard {s : State} {q : BaleJob} {x : Shard} (h : s.HasShard q x) (f : Shard → Shard) :
    (s.updShard q.job q.kind q.slot q.shard f).HasShard q (f x) := by
  obtain ⟨b, hb, hx⟩ := h
  refine ⟨{ b with shards := b.shards.modify q.shard f }, ?_, ?_⟩
  · rw [State.updShard, State.updSec_same, hb]
    exact SecJob.bale_setBale ..
  · exact (List.getElem?_modify_eq ..).trans (congrArg (Option.map f) hx)

theorem State.HasShard.of_aside {s t : State} {q : BaleJob} {x : Shard} (h : s.HasShard q x) (ha : t.aside = s.aside) :
    t.HasShard q x := by
  unfold State.HasShard
  rw [State.secJob_of_aside ha]
  exact h

/-- A bale that is VERIFIED keeps its shards. -/
theorem State.HasShard.checkVerified {s : State} {q : BaleJob} {x : Shard} (h : s.HasShard q x) :
    (s.checkVerified q.job q.kind q.slot).HasShard q x := by
  obtain ⟨b, hb, hx⟩ := h
  unfold State.checkVerified
  rw [hb]
  dsimp only
  split
  · exact ⟨b, hb, hx⟩
  · have hset : (s.updSec q.job (fun c => c.setBale q.kind q.slot (some { b with verified := true }))).HasShard q x :=
      ⟨{ b with verified := true }, by rw [State.updSec_same]; exact SecJob.bale_setBale .., hx⟩
    refine hset.of_aside ?_
    have hstate (t : State) : (t.fset (F.SEC_JOB_STATE_DEPLOY q.job) 2).aside = t.aside :=
      t.aside_fset _ (noClear_of_ge (by simp only [F.SEC_JOB_STATE_DEPLOY, R.SEC_JOB_STATE]; omega))
    rw [State.sendVerify, State.aside_hubSend, State.aside_ite, hstate, ite_self]

/-- The shard after a load that ended with a result. -/
def Shard.ended (code : Nat) (x : Shard) : Shard := { x with st := if code = 0 then 2 else 0 }

/-- The end of a shard's load, up to what it may mean for the bale. -/
def State.shardNoted (s : State) (q : BaleJob) (code : Nat) : State :=
  let s2 := (s.updShard q.job q.kind q.slot q.shard (Shard.ended code)).showShards q.job
  let s3 := if code = 9 ∨ code = 10 then (s2.countReject q.job).raise { code := 0x0A04, blk := 28, job := some q.job } else s2
  if code = 11 then s3.devRec q.port ⟨q.tag, q.seq, 0x31, 11, q.job, 0, 0⟩
  else s3.devRec q.port ⟨q.tag, q.seq, 0x31, 0, q.job, 0, code⟩

theorem State.shardEnds_eq (s : State) (q : BaleJob) (code : Nat) : s.shardEnds q code =
    if code = 0 then (s.shardNoted q code).checkVerified q.job q.kind q.slot else s.shardNoted q code := rfl

theorem State.hasShard_shardEnds {s : State} {q : BaleJob} {x : Shard} (h : s.HasShard q x) (code : Nat) :
    (s.shardEnds q code).HasShard q (x.ended code) := by
  have hnoted : (s.shardNoted q code).HasShard q (x.ended code) := by
    refine (State.hasShard_updShard h (Shard.ended code)).of_aside ?_
    have hshow (t : State) : (t.showShards q.job).aside = t.aside := by
      unfold State.showShards
      split
      · exact t.aside_fset _ (noClear_of_ge (by simp only [F.SEC_JOB_STATE_SHARDS_OK, R.SEC_JOB_STATE]; omega))
      · rfl
    have hreject (t : State) : (t.countReject q.job).aside = t.aside :=
      t.aside_fsat _ (noClear_of_ge (by simp only [F.SEC_JOB_RX_SHARD_REJECT, R.SEC_JOB_RX]; omega))
    rw [State.shardNoted, State.aside_ite, State.aside_devRec, State.aside_devRec, ite_self, State.aside_ite, State.aside_raise, hreject,
      ite_self, hshow]
  by_cases hcode : code = 0
  · rw [State.shardEnds_eq, if_pos hcode]
    exact hnoted.checkVerified
  · rw [State.shardEnds_eq, if_neg hcode]
    exact hnoted

/-! ### Commitment (R395 to R397) -/

/-- The record of an error that the hub raises for a job. -/
def hubNote (j code : Nat) : Err := { code := code, blk := 28, job := some j }

/-- SEC_COMMIT_BAD is contained and halts nothing (R408). -/
theorem State.hubErr_commitBad (s : State) (j : Nat) : s.hubErr j 0x0A07 0 = s.raiseRec (hubNote j 0x0A07) := by
  have hclass : codeClass (hubNote j 0x0A07).code = 0 := by simp only [hubNote]; decide
  change s.raise (hubNote j 0x0A07) = _
  rw [State.raise, State.sevOf_of_class hclass, State.escalates_of_class hclass]
  rfl

theorem State.hubErr_mild (s : State) (j : Nat) {code : Nat} (hclass : codeClass code = 0) (hsev : codeSev code < 2) :
    s.hubErr j code 0 = s.raiseRec (hubNote j code) :=
  State.raise_of_mild (e := hubNote j code) hclass hsev

theorem raises_hubNote {s u : State} (herr : u.err = s.err) (j : Nat) {code : Nat} (hclass : codeClass code = 0) :
    Raises s (u.raiseRec (hubNote j code)) code (codeSev code) :=
  (State.raises_raiseRec (s := u) (e := hubNote j code) hclass).of_err herr.symm rfl

section
variable {s : State} {j : JobId} {b : Bale} (hdep : (s.secJob j).dep = some b) (hhead : s.isHead j = true)
  (hsent : (s.secJob j).commitSent = false) (hphase : (s.job j).phase ≠ .free) (hcount : s.peerCount j ≤ (s.ctr (keyGate (s.gateG j))).val)
include hdep hhead hsent hphase hcount

/-- COMMIT once the peers' records are there. -/
theorem exec_commit : exec (.commit j) s = .next (
    let s1 := s.updSec j (fun c => { c with commitSent := true })
    if ((List.range (s.infoOf j).ranks.length).map (fun r => s.hubGet (s.areaOf j + 0x8000 + 64 * r) 64)).all
        (fun r => field r 16 32 = b.mhash) then
      s1.hubSendAll j (s.areaOf j) 0 (s.gateG j + 1) 1 true
        (pad 64 (leBytes 8 b.dep ++ leBytes 8 (max (s.infoOf j).launch (s.nowNs + 1000 * s.fget F.SEC_CTRL_COMMIT_LEAD_US)) ++
          leBytes 32 b.mhash))
    else s1.hubErr j 0x0A07 0) := by
  change execCommit j s = _
  have hstay : ¬ (!s.isHead j || (s.secJob j).commitSent || (s.job j).phase = .free ||
      (s.ctr (keyGate (s.gateG j))).val < s.peerCount j : Bool) = true := by
    simp [hhead, hsent, hphase, hcount]
  rw [execCommit, hdep]
  dsimp only
  rw [if_neg hstay]

theorem commit_sends (hall : ∀ i < (s.infoOf j).ranks.length, field (s.hubGet (s.areaOf j + 0x8000 + 64 * i) 64) 16 32 = b.mhash) :
    Runs (.commit j) s (fun t => (t.secJob j).commitSent = true ∧
      t = (s.updSec j (fun c => { c with commitSent := true })).hubSendAll j (s.areaOf j) 0 (s.gateG j + 1) 1 true
        (pad 64 (leBytes 8 b.dep ++ leBytes 8 (max (s.infoOf j).launch (s.nowNs + 1000 * s.fget F.SEC_CTRL_COMMIT_LEAD_US)) ++
          leBytes 32 b.mhash))) := by
  have hrecs : ((List.range (s.infoOf j).ranks.length).map (fun r => s.hubGet (s.areaOf j + 0x8000 + 64 * r) 64)).all
      (fun r => field r 16 32 = b.mhash) = true := by simpa using hall
  refine ⟨_, (exec_commit hdep hhead hsent hphase hcount).trans (congrArg Host.Outcome.next (if_pos hrecs)), ?_, rfl⟩
  rw [State.secJob_of_aside (State.aside_hubSendAll ..), State.updSec_same]

theorem commit_refuses (hbad : ∃ i < (s.infoOf j).ranks.length, field (s.hubGet (s.areaOf j + 0x8000 + 64 * i) 64) 16 32 ≠ b.mhash) :
    Runs (.commit j) s (fun t => (t.secJob j).commitSent = true ∧ Raises s t 0x0A07 2 ∧
      t = (s.updSec j (fun c => { c with commitSent := true })).hubErr j 0x0A07 0) := by
  have hrecs : ¬ ((List.range (s.infoOf j).ranks.length).map (fun r => s.hubGet (s.areaOf j + 0x8000 + 64 * r) 64)).all
      (fun r => field r 16 32 = b.mhash) = true := by simpa using hbad
  refine ⟨_, (exec_commit hdep hhead hsent hphase hcount).trans (congrArg Host.Outcome.next (if_neg hrecs)), ?_, ?_, rfl⟩
  · rw [State.hubErr_commitBad, State.secJob_of_aside (State.aside_raiseRec ..), State.updSec_same]
  · rw [State.hubErr_commitBad]
    have hsev : codeSev 0x0A07 = 2 := by decide
    exact hsev ▸ raises_hubNote (u := s.updSec j (fun c => { c with commitSent := true })) rfl j (code := 0x0A07) (by decide)

end

/-! #### The commit line (R396) -/

theorem listed_secJobDeploy (j : JobId) : (F.SEC_JOB_STATE_DEPLOY j).Listed :=
  Fld.listed_of_row .sec 0 0x2C0 8 8 j (by decide) j.isLt (by decide) (by simp only [R.SEC_JOB_STATE, Blk.base, Blk.base0, Blk.stride])

/-- A launch time in the past is reported, and no more (R43). -/
theorem State.lateLaunch_frame (s : State) (j : Nat) : (s.lateLaunch j).info = s.info ∧ (s.lateLaunch j).jobs = s.jobs ∧
    ∀ f, (s.lateLaunch j).fget f = s.fget f := by
  unfold State.lateLaunch
  extract_lets t
  split
  · have hclass : codeClass 0x0107 = 0 := by decide
    rw [State.hubErr, State.raise_of_mild hclass (by simp only; decide)]
    refine ⟨?_, ?_, State.fget_raiseRec hclass⟩
    · rw [State.raiseRec_frame]
    · rw [State.raiseRec_frame]
  · exact ⟨rfl, rfl, fun _ => rfl⟩

/-- A deployment that its commit line has reached. -/
def State.committed (s : State) (j t : Nat) : State :=
  (((s.fset (F.SEC_JOB_STATE_DEPLOY j) 3).updInfo j (fun i => { i with launch := t })).fset (F.PCR_JOB_LAUNCH_NS j) t).updJob j (fun jb =>
    { jb with launchPending := jb.phase = .ready && !s.fbit (F.YOK_JOB_CFG_REJOIN j) })

section
variable (s : State) (j : JobId) (t : Nat)

theorem State.launch_committed : ((s.committed j t).infoOf j).launch = t := by
  rw [State.committed, State.updJob_to_infoOf]
  exact congrArg JobInfo.launch ((s.fset (F.SEC_JOB_STATE_DEPLOY j) 3).updInfo_same j (fun i => { i with launch := t }))

theorem State.deployState_committed : (s.committed j t).fget (F.SEC_JOB_STATE_DEPLOY j) = 3 := by
  have hapart : (F.SEC_JOB_STATE_DEPLOY j).addr ≠ (F.PCR_JOB_LAUNCH_NS j).addr := by
    simp only [F.SEC_JOB_STATE_DEPLOY, R.SEC_JOB_STATE, F.PCR_JOB_LAUNCH_NS, R.PCR_JOB_LAUNCH]
    omega
  rw [State.committed, State.updJob_to_fget, State.fget_fset_other _ _ hapart, State.updInfo_to_fget,
    State.fget_fset_same _ _ (listed_secJobDeploy j)]
  rfl

theorem State.launchPending_committed :
    ((s.committed j t).job j).launchPending = ((s.job j).phase = .ready && !s.fbit (F.YOK_JOB_CFG_REJOIN j)) := by
  rw [State.committed, State.updJob_same]
  rfl

end

section
variable {s : State} {j : JobId} (hphase : (s.job j).phase ≠ .free) (h3 : s.deployState j ≠ 3) (h5 : s.deployState j ≠ 5)
  (hcount : 1 ≤ (s.ctr (keyGate (s.gateG j + 1))).val)
include hphase h3 h5 hcount

theorem exec_commitReceived : exec (.commitReceived j) s = .next (
    if (s.secJob j).dep.elim false (fun b => field (s.hubGet (s.areaOf j) 64) 0 8 = b.dep &&
        field (s.hubGet (s.areaOf j) 64) 16 32 = b.mhash && s.deployState j = 2) then
      (s.committed j (field (s.hubGet (s.areaOf j) 64) 8 8)).lateLaunch j
    else (s.hubErr j 0x0A07 0).fset (F.SEC_JOB_STATE_DEPLOY j) 5) := by
  change execCommitReceived j s = _
  have hstay : ¬ ((s.job j).phase = .free || s.deployState j = 3 || s.deployState j = 5 ||
      (s.ctr (keyGate (s.gateG j + 1))).val < 1 : Bool) = true := by
    simp only [Bool.or_eq_true, decide_eq_true_eq, not_or, Nat.not_lt]
    exact ⟨⟨⟨hphase, h3⟩, h5⟩, hcount⟩
  rw [execCommitReceived, if_neg hstay]
  cases (s.secJob j).dep <;> rfl

theorem commitReceived_takes {b : Bale} (hdep : (s.secJob j).dep = some b) (hname : field (s.hubGet (s.areaOf j) 64) 0 8 = b.dep)
    (hhash : field (s.hubGet (s.areaOf j) 64) 16 32 = b.mhash) (hstate : s.deployState j = 2) :
    Runs (.commitReceived j) s (fun t => (t.infoOf j).launch = field (s.hubGet (s.areaOf j) 64) 8 8 ∧ t.deployState j = 3 ∧
      (t.job j).launchPending = ((s.job j).phase = .ready && !s.fbit (F.YOK_JOB_CFG_REJOIN j))) := by
  have hok : (s.secJob j).dep.elim false (fun b => field (s.hubGet (s.areaOf j) 64) 0 8 = b.dep &&
      field (s.hubGet (s.areaOf j) 64) 16 32 = b.mhash && s.deployState j = 2) = true := by
    rw [hdep, Option.elim_some]
    simp [hname, hhash, hstate]
  obtain ⟨hinfo, hjobs, hfget⟩ := (s.committed j (field (s.hubGet (s.areaOf j) 64) 8 8)).lateLaunch_frame j
  refine ⟨_, (exec_commitReceived hphase h3 h5 hcount).trans (congrArg Host.Outcome.next (if_pos hok)), ?_, ?_, ?_⟩
  · rw [State.infoOf, hinfo]
    exact s.launch_committed j _
  · rw [State.deployState, hfget]
    exact s.deployState_committed j _
  · rw [State.job, hjobs]
    exact s.launchPending_committed j _

theorem commitReceived_refuses (hbad : (s.secJob j).dep = none ∨ s.deployState j ≠ 2) :
    exec (.commitReceived j) s = .next ((s.hubErr j 0x0A07 0).fset (F.SEC_JOB_STATE_DEPLOY j) 5) := by
  refine (exec_commitReceived hphase h3 h5 hcount).trans (congrArg Host.Outcome.next (if_neg ?_))
  obtain hnone | hstate := hbad
  · rw [hnone]
    exact Bool.false_ne_true
  · cases (s.secJob j).dep with
    | none => exact Bool.false_ne_true
    | some b => simp [hstate]

end

/-- DEPLOY_TIMEOUT of a deployment (R397). -/
theorem deployTimeout_fails {s : State} {j : JobId} {b : Bale} (hdep : (s.secJob j).dep = some b)
    (hstate : s.deployState j = 1 ∨ s.deployState j = 2) (hdue : b.since + s.deployLimit ≤ s.refNs) :
    Runs (.deployTimeout j none) s (fun t => t.deployState j = 4 ∧ Raises s t 0x0A05 1 ∧
      t = (s.fset (F.SEC_JOB_STATE_DEPLOY j) 4).hubErr j 0x0A05 0) := by
  have hexec : exec (.deployTimeout j none) s = .next ((s.fset (F.SEC_JOB_STATE_DEPLOY j) 4).hubErr j 0x0A05 0) := by
    change execDeployTimeout j none s = _
    rw [execDeployTimeout, hdep]
    exact congrArg Host.Outcome.next (if_pos (by simp [hstate, hdue]))
  have hraise := (s.fset (F.SEC_JOB_STATE_DEPLOY j) 4).hubErr_mild j (code := 0x0A05) (by decide) (by decide)
  refine ⟨_, hexec, ?_, ?_, rfl⟩
  · rw [hraise, State.deployState, State.fget_raiseRec (by simp only [hubNote]; decide), State.fget_fset_same _ _ (listed_secJobDeploy j)]
    rfl
  · have hsev : codeSev 0x0A05 = 1 := by decide
    rw [hraise]
    exact hsev ▸ raises_hubNote (u := s.fset (F.SEC_JOB_STATE_DEPLOY j) 4) rfl j (code := 0x0A05) (by decide)

end Sys2Proof.Machine

/-! SUPPORT. Adapter notices, teardowns and the clear of a barn (R94, R399, R405), and the rows of loading together. -/

namespace Sys2Proof.Machine

/-! ### Adapter notices (R399) -/

/-- The hub sees the same memory: only counts of bytes sent to hosts, in registers, may differ. -/
structure SameMemory (s t : State) : Prop where
  mask : t.mask = s.mask
  stalls : t.stalls = s.stalls
  lofts : t.lofts = s.lofts
  reg : ∀ a, a % 0x10000 ≠ 0x128 → t.reg a = s.reg a

theorem SameMemory.refl (s : State) : SameMemory s s := ⟨rfl, rfl, rfl, fun _ _ => rfl⟩

theorem SameMemory.trans {s t u : State} (h : SameMemory s t) (k : SameMemory t u) : SameMemory s u :=
  ⟨k.mask.trans h.mask, k.stalls.trans h.stalls, k.lofts.trans h.lofts, fun a ha => (k.reg a ha).trans (h.reg a ha)⟩

theorem SameMemory.ite {s t u : State} {c : Prop} [Decidable c] (h : SameMemory s t) (k : SameMemory s u) :
    SameMemory s (if c then t else u) := by
  split
  · exact h
  · exact k

theorem State.sameMemory_hostWrite (s : State) (p a : Nat) (bs : List Byte) : SameMemory s (s.hostWrite p a bs) := by
  refine .ite ⟨rfl, rfl, rfl, fun x hx => ?_⟩ (.refl s)
  exact State.reg_setReg_other _ _ fun h => hx (by rw [h, R.HST_DMA_OUT]; omega)

theorem State.sameMemory_fireVec (s : State) (p fn v : Nat) : SameMemory s (s.fireVec p fn v) :=
  .ite ⟨rfl, rfl, rfl, fun _ _ => rfl⟩ (.ite ⟨rfl, rfl, rfl, fun _ _ => rfl⟩ ⟨rfl, rfl, rfl, fun _ _ => rfl⟩)

theorem State.sameMemory_devRec (s : State) (p : Nat) (d : DevRec) : SameMemory s (s.devRec p d) := by
  have hupd (t : State) (f : HostSt → HostSt) : SameMemory t (t.updHst p f) := ⟨rfl, rfl, rfl, fun _ _ => rfl⟩
  have hflush (t : State) : SameMemory t (t.flushDev p) := by
    unfold State.flushDev
    extract_lets h go base s1
    have hwrites : SameMemory t s1 := foldl_keeps (P := SameMemory t) _ (.refl t) fun u d _ hu => hu.trans (u.sameMemory_hostWrite ..)
    refine .ite (.ite (.refl t) ?_) (.refl t)
    exact ((hwrites.trans (hupd ..)).trans (State.sameMemory_hostWrite ..)).trans (State.sameMemory_fireVec ..)
  exact .ite ((hupd s _).trans (hflush _)) (.refl s)

theorem ite_ne_of_ne {α : Type} {x y z : α} {c : Prop} [Decidable c] (hx : x ≠ z) (hy : y ≠ z) : (if c then x else y) ≠ z := by
  split
  · exact hx
  · exact hy

theorem State.place_spad {s : State} {a b k off : Nat} (h : s.place a = .spad b k off) : b < 24 ∧ k < 64 := by
  unfold State.place at h
  by_cases hloft : a < 0xC00000000
  · rw [if_pos hloft] at h
    cases h
  rw [if_neg hloft] at h
  by_cases hspad : a < 0xD80000000
  · rw [if_pos hspad] at h
    obtain ⟨hin, heq⟩ | ⟨hout, heq⟩ := ite_eq_iff.1 h
    · injection heq with hb hk
      omega
    · cases heq
  rw [if_neg hspad] at h
  refine absurd h ?_
  repeat' refine ite_ne_of_ne ?_ ?_
  all_goals exact Place.noConfusion

/-- The hub reads the same bytes. -/
theorem SameMemory.hubPeek {s t : State} (h : SameMemory s t) (a : Nat) : t.hubPeek a = s.hubPeek a := by
  have hcount (b : Nat) : t.stallCount b = s.stallCount b := by rw [State.stallCount, State.goodMask, h.mask]; rfl
  have hplace : t.place a = s.place a := by
    unfold State.place
    simp only [hcount]
  unfold State.hubPeek
  rw [hplace]
  split
  · next b k off hspad =>
    obtain ⟨hb, hk⟩ := State.place_spad hspad
    have hbeat : t.beat ((48 * b + k) / 48) = s.beat ((48 * b + k) / 48) := h.reg _ (by simp only [R.PCR_BEAT]; omega)
    simp only [State.seeLine, State.readLine, State.stall, h.stalls, hbeat]
  · next n off hloft =>
    have hl : t.loft n = s.loft n := by rw [State.loft, State.loft, h.lofts]
    rw [State.bank, State.bank, hl]
  · rfl

theorem SameMemory.noticeAt {s t : State} (h : SameMemory s t) (j : JobId) (i : Nat) : t.noticeAt j i = s.noticeAt j i := by
  have harea : t.areaOf j = s.areaOf j := by
    have hreg : t.reg (R.SEC_JOB_AREA j) = s.reg (R.SEC_JOB_AREA j) := h.reg _ (by simp only [R.SEC_JOB_AREA]; omega)
    simp only [State.areaOf, State.fget, F.SEC_JOB_AREA_AREA, hreg]
  have hget (a n : Nat) : t.hubGet a n = s.hubGet a n := by simp only [State.hubGet, h.hubPeek]
  simp only [State.noticeAt, harea, hget]

/-- What ADAPTER_NOTICE does for one slot. -/
def State.noticeSlot (s : State) (j i : Nat) : State :=
  match s.noticeAt j i with
  | none => s
  | some n =>
    let staged := ((s.secJob j).notices.find? (fun x => x.1 = i)).map (fun x => (x.2.1, x.2.2.1))
    if staged = some (n.1, n.2.1) then s
    else
      (s.updSec j (fun c => { c with notices := Tab.put i n c.notices })).devNote (s.ring j).port 0x3E 0 j i (n.1 + n.2.1 * 2 ^ 32)

theorem State.noticeSlot_new {s : State} {j i : Nat} {n : Nat × Nat × Nat} (hn : s.noticeAt j i = some n)
    (hnew : ∀ x ∈ (s.secJob j).notices, x.1 ≠ i) : s.noticeSlot j i =
      (s.updSec j (fun c => { c with notices := Tab.put i n c.notices })).devNote (s.ring j).port 0x3E 0 j i (n.1 + n.2.1 * 2 ^ 32) := by
  have hnone : (s.secJob j).notices.find? (fun x => x.1 = i) = none := by
    rw [List.find?_eq_none]
    intro x hx
    simpa using hnew x hx
  rw [State.noticeSlot, hn]
  dsimp only
  rw [hnone]
  exact if_neg (by simp)

/-- Only step `i` of a range changes anything. -/
theorem foldl_range_only {α : Type} {f : α → Nat → α} {n i : Nat} {s t : α} (hi : i < n) (hbefore : ∀ k < i, f s k = s) (hat : f s i = t)
    (hafter : ∀ k < n, i < k → f t k = t) : (List.range n).foldl f s = t := by
  induction n with
  | zero => exact absurd hi (Nat.not_lt_zero i)
  | succ n ih =>
    rw [List.range_succ, List.foldl_append]
    change f ((List.range n).foldl f s) n = t
    obtain rfl | hlt := Nat.eq_or_lt_of_le (Nat.lt_succ_iff.1 hi)
    · have hquiet : (List.range i).foldl f s = s := foldl_keeps (P := fun u => u = s) _ rfl fun u k hk hu =>
        hu.symm ▸ hbefore k (List.mem_range.1 hk)
      rw [hquiet, hat]
    · rw [ih hlt fun k hk => hafter k (Nat.lt_succ_of_lt hk)]
      exact hafter n (Nat.lt_succ_self n) hlt

theorem State.noticeSlot_none {s : State} {j i : Nat} (h : s.noticeAt j i = none) : s.noticeSlot j i = s := by
  rw [State.noticeSlot, h]

/-- One new notice among the slots. -/
theorem State.noticeSlots_one {s : State} {j : JobId} {i : Fin 256} {n : Nat × Nat × Nat} (hn : s.noticeAt j i = some n)
    (hothers : ∀ k < 256, k ≠ i.val → s.noticeAt j k = none) (hnew : ∀ x ∈ (s.secJob j).notices, x.1 ≠ i.val) :
    (List.range 256).foldl (fun s i => s.noticeSlot j i) s =
      (s.updSec j (fun c => { c with notices := Tab.put i.val n c.notices })).devNote (s.ring j).port 0x3E 0 j i
        (n.1 + n.2.1 * 2 ^ 32) := by
  have hsame : SameMemory s ((s.updSec j (fun c => { c with notices := Tab.put i.val n c.notices })).devNote (s.ring j).port 0x3E 0 j i
      (n.1 + n.2.1 * 2 ^ 32)) :=
    SameMemory.trans (t := s.updSec j (fun c => { c with notices := Tab.put i.val n c.notices })) ⟨rfl, rfl, rfl, fun _ _ => rfl⟩
      (State.sameMemory_devRec ..)
  refine foldl_range_only i.isLt (fun k hk => ?_) (State.noticeSlot_new hn hnew) fun k hk hlt => ?_
  · exact State.noticeSlot_none (hothers k (by omega) (by omega))
  · exact State.noticeSlot_none ((hsame.noticeAt j k).trans (hothers k hk (by omega)))

theorem exec_adapterNotice {s : State} {j : JobId} (hlive : (s.job j).live = true) (hrisen : (s.ctr (keyGate (s.gateG j + 2))).val ≠ 0) :
    exec (.adapterNotice j) s = .next ((List.range 256).foldl (fun s i => s.noticeSlot j i) s) := by
  change execAdapterNotice j s = _
  rw [execAdapterNotice, if_neg (by simp [hlive, hrisen])]
  rfl

end Sys2Proof.Machine

/-! SUPPORT. Teardowns and the clear of a barn (R94, R405). -/

namespace Sys2Proof.Machine

/-! ### Teardown (R405) -/

theorem listed_secJobKey (j : JobId) : (F.SEC_JOB_STATE_KEY j).Listed :=
  Fld.listed_of_row .sec 0 0x2C0 8 8 j (by decide) j.isLt (by decide) (by simp only [R.SEC_JOB_STATE, Blk.base, Blk.base0, Blk.stride])

theorem listed_secJobTeardown (j : JobId) : (F.SEC_JOB_STATE_TEARDOWN j).Listed :=
  Fld.listed_of_row .sec 0 0x2C0 8 8 j (by decide) j.isLt (by decide) (by simp only [R.SEC_JOB_STATE, Blk.base, Blk.base0, Blk.stride])

theorem apart_secJobKey (j : Nat) : (F.SEC_JOB_STATE_KEY j).Apart (F.SEC_JOB_STATE_TEARDOWN j) :=
  Or.inr ⟨Nat.succ_pos 3, Or.inl (by simp only [F.SEC_JOB_STATE_KEY, F.SEC_JOB_STATE_TEARDOWN]; decide)⟩

/-- The fabric unit without the streams, packets and reads of a job. -/
def FabSt.forget (f : FabSt) (j : Nat) : FabSt :=
  { f with
    outs := f.outs.filter (fun x => x.1 / 16384 ≠ j)
    ins := f.ins.filter (fun x => x.1 / 16384 ≠ j)
    sealq := f.sealq.filter (fun i => i.job ≠ j)
    reads := f.reads.filter (fun r => r.job ≠ j)
    serve := f.serve.filter (fun r => r.job ≠ j)
    pend := f.pend.filter (fun p => p.1 ≠ j)
    switching := f.switching.filter (· ≠ j) }

/-- The device after the revocation of a job's keys, before its registers say so. -/
def State.revoked (s : State) (j : Nat) : State :=
  ((s.updFab (fun f => f.forget j)).updSec j
    (fun c => { c with kjob := none, dep := none, slots := [], notices := [], wants := [] })).showKeys

/-- What the revocation changes: the fabric unit, the records of the SEC unit, and registers. -/
def State.KeysOnly (s t : State) : Prop := ∃ f x r, t = { s with fab := f, sec := x, regs := r }

theorem State.KeysOnly.fset {s t : State} (h : s.KeysOnly t) (f : Fld) (v : Nat) : s.KeysOnly (t.fset f v) := by
  obtain ⟨_, _, _, rfl⟩ := h
  exact ⟨_, _, _, rfl⟩

theorem State.keysOnly_revoked (s : State) (j : Nat) : s.KeysOnly (s.revoked j) := .fset ⟨_, _, _, rfl⟩ _ _

theorem State.KeysOnly.eq {s t : State} (h : s.KeysOnly t) : t = { s with fab := t.fab, sec := t.sec, regs := t.regs } := by
  obtain ⟨_, _, _, rfl⟩ := h
  rfl

theorem State.kjob_revoked (s : State) (j : Nat) : ((s.revoked j).secJob j).kjob = none := by
  simp only [State.revoked, State.showKeys, State.fset, State.setReg_to_secJob, State.updSec_same]

/-- The device after TEARDOWN_REVOKE. -/
def State.revocationShown (s : State) (j : Nat) : State :=
  (((s.revoked j).fset (F.SEC_JOB_STATE_KEY j) 2).fset (F.SEC_JOB_STATE_TEARDOWN j) 2).fset (F.FAB_JOB_STATE_PENDING j) 0

theorem State.fab_revocationShown (s : State) (j : Nat) : (s.revocationShown j).fab = s.fab.forget j := by
  simp only [State.revocationShown, State.revoked, State.showKeys, State.fset, State.setReg_fab]
  rfl

theorem State.secJob_revocationShown (s : State) (j : Nat) : (s.revocationShown j).secJob j = (s.revoked j).secJob j := by
  simp only [State.revocationShown, State.fset, State.setReg_to_secJob]

theorem exec_teardownRevoke {s : State} {j : JobId} (hphase : (s.job j).phase = .teardown)
    (hstep : s.fget (F.SEC_JOB_STATE_TEARDOWN j) = 1) (hsent : s.jobSending j = false) : exec (.teardownRevoke j) s =
      .next (s.revocationShown j) := by
  change execTeardownRevoke j s = _
  rw [execTeardownRevoke, if_neg (by simp [hphase, hstep, hsent])]
  rfl

theorem teardownRevoke_revokes {s : State} {j : JobId} (hphase : (s.job j).phase = .teardown)
    (hstep : s.fget (F.SEC_JOB_STATE_TEARDOWN j) = 1) (hsent : s.jobSending j = false) :
    Runs (.teardownRevoke j) s (fun t => (t.secJob j).kjob = none ∧ t.fget (F.SEC_JOB_STATE_KEY j) = 2 ∧
      t.fget (F.SEC_JOB_STATE_TEARDOWN j) = 2 ∧ (∀ x ∈ t.fab.outs, x.1 / 16384 ≠ j.val) ∧
      (∀ x ∈ t.fab.ins, x.1 / 16384 ≠ j.val) ∧ (∀ i ∈ t.fab.sealq, i.job ≠ j.val) ∧
      t = { s with fab := t.fab, sec := t.sec, regs := t.regs }) := by
  have hpending : R.SEC_JOB_STATE j ≠ R.FAB_JOB_STATE j := by
    simp only [R.SEC_JOB_STATE, R.FAB_JOB_STATE]
    omega
  have hframe := (((s.keysOnly_revoked j).fset (F.SEC_JOB_STATE_KEY j) 2).fset (F.SEC_JOB_STATE_TEARDOWN j) 2).fset
    (F.FAB_JOB_STATE_PENDING j) 0
  refine ⟨_, exec_teardownRevoke hphase hstep hsent, ?_, ?_, ?_, ?_, ?_, ?_, hframe.eq⟩
  · rw [State.secJob_revocationShown, State.kjob_revoked]
  · rw [State.revocationShown, State.fget_fset_other _ _ hpending,
      State.fget_fset_apart _ _ (listed_secJobKey j) (apart_secJobKey j),
      State.fget_fset_same _ _ (listed_secJobKey j)]
    rfl
  · rw [State.revocationShown, State.fget_fset_other _ _ hpending, State.fget_fset_same _ _ (listed_secJobTeardown j)]
    rfl
  all_goals
    rw [State.fab_revocationShown]
    exact fun x hx => of_decide_eq_true (List.mem_filter.1 hx).2

theorem teardownDrainEnd_clears {s : State} {j : JobId} (hphase : (s.job j).phase = .teardown)
    (hstep : s.fget (F.SEC_JOB_STATE_TEARDOWN j) = 2) (hdrained : s.jobArriving j = false) : exec (.teardownDrainEnd j) s =
      .next ((s.job j).barns.foldl State.startClear (s.fset (F.SEC_JOB_STATE_TEARDOWN j) 4)) := by
  change execTeardownDrainEnd j s = _
  rw [execTeardownDrainEnd, if_neg (by simp [hphase, hstep, hdrained])]

section
variable {s : State} {j : JobId} (hphase : (s.job j).phase ≠ .teardown)
include hphase

theorem teardownRevoke_outside : exec (.teardownRevoke j) s = .next s := by
  change execTeardownRevoke j s = _
  rw [execTeardownRevoke, if_pos (by simp [hphase])]

theorem teardownDrainEnd_outside : exec (.teardownDrainEnd j) s = .next s := by
  change execTeardownDrainEnd j s = _
  rw [execTeardownDrainEnd, if_pos (by simp [hphase])]

theorem teardownScrubDone_outside (bad : Option Barn) : exec (.teardownScrubDone j bad) s = .next s := by
  change execTeardownScrubDone j bad s = _
  unfold execTeardownScrubDone
  rw [if_pos (by simp [hphase])]

end

section
variable {s : State} {j : JobId} (hphase : (s.job j).phase = .teardown) (hstep : s.fget (F.SEC_JOB_STATE_TEARDOWN j) = 4)
  (hcleared : ∀ b ∈ (s.job j).barns, s.tck.cleared.contains b = true)
include hphase hstep hcleared

theorem teardownScrubDone_frees (hfatal : s.err.fatal = false) : exec (.teardownScrubDone j none) s = .next (s.freeContext j) := by
  have hall : (s.job j).barns.all (fun b => s.tck.cleared.contains b) = true := List.all_eq_true.2 hcleared
  change execTeardownScrubDone j none s = _
  rw [execTeardownScrubDone, hphase, hstep, hall, if_neg (by decide), hfatal]
  rfl

theorem teardownScrubDone_faulty {b : Barn} (howned : s.ownsBarn j b = true) : exec (.teardownScrubDone j (some b)) s =
    .next (((s.fset (F.SPD_CLEAR_STATE b) 4).updLoft b Loft.scrubbed).raise { code := 0x0A08, blk := b, job := some j.val }) := by
  have hall : (s.job j).barns.all (fun b => s.tck.cleared.contains b) = true := List.all_eq_true.2 hcleared
  change execTeardownScrubDone j (some b) s = _
  rw [execTeardownScrubDone, hphase, hstep, hall, if_neg (by decide), if_pos howned]

end

/-! ### The clear of a barn (R94) -/

/-- A table without the entries whose keys fail a test. -/
theorem Tab.get_filter {α : Type} (p : Nat → Bool) (d : Nat → α) (t : Tab α) (k : Nat) :
    Tab.get d (t.filter (fun x => p x.1)) k = if p k then Tab.get d t k else d k := by
  induction t with
  | nil => simp [Tab.get]
  | cons x t ih =>
    obtain ⟨k', v⟩ := x
    by_cases hk : k = k'
    · subst hk
      by_cases hp : p k = true
      · simp [Tab.get, hp]
      · simp [hp, ih]
    · by_cases hp : p k' = true
      · simp [Tab.get, hp, hk, ih]
      · simp [Tab.get, hp, hk, ih]

/-- The register is no shape entry of the barn. -/
def NoShape (b a : Nat) : Prop := ∀ k < 48, ∀ i < 16, a ≠ R.STL_SHAPE_ENTRY b k i

theorem noShape_tckState (b : Barn) : NoShape b R.TCK_STATE := fun k hk i hi => by
  simp only [R.TCK_STATE, R.STL_SHAPE_ENTRY]
  omega

/-- What the clear of a barn leaves alone beside its stalls: the Tackroom, the errors, and all registers but the shapes. -/
structure ClearsShapes (b : Nat) (s t : State) : Prop where
  stalls : t.stalls = s.stalls
  tck : t.tck = s.tck
  err : t.err = s.err
  reg : ∀ a, NoShape b a → t.reg a = s.reg a

theorem ClearsShapes.updLoft {b : Nat} {s t : State} (h : ClearsShapes b s t) (n : Nat) (f : Loft → Loft) :
    ClearsShapes b s (t.updLoft n f) := ⟨h.stalls, h.tck, h.err, h.reg⟩

theorem ClearsShapes.commitRef {b : Nat} {s t : State} (h : ClearsShapes b s t) (k : Blk) (i : Nat) :
    ClearsShapes b s (t.commitRef k i) := ⟨h.stalls, h.tck, h.err, h.reg⟩

theorem ClearsShapes.setReg {b a : Nat} {s t : State} (h : ClearsShapes b s t) (v : Nat) (ha : ∀ x, NoShape b x → x ≠ a) :
    ClearsShapes b s (t.setReg a v) :=
  ⟨h.stalls, h.tck, h.err, fun x hx => (t.reg_setReg_other v (ha x hx)).trans (h.reg x hx)⟩

theorem State.clearsShapes (b : Nat) (s : State) : ClearsShapes b s
    ((List.range 48).foldl (fun s k => (List.range 16).foldl (fun s i => s.setReg (R.STL_SHAPE_ENTRY b k i) 0) s) s) :=
  foldl_keeps _ ⟨rfl, rfl, rfl, fun _ _ => rfl⟩ fun _ k hk ht => foldl_keeps _ ht fun _ i hi hu =>
    hu.setReg 0 fun _ hx => hx k (List.mem_range.1 hk) i (List.mem_range.1 hi)

/-- The device without the stalls of a barn and the work begun there. -/
def State.emptyStalls (s : State) (b : Nat) : State :=
  { s with
    stalls := s.stalls.filter (fun x => x.1 / 48 ≠ b)
    acts := s.acts.filter (fun a => a.stall / 48 ≠ b || a.goesOn) }

theorem State.clearBarn_frame (s : State) (b : Nat) : ClearsShapes b (s.emptyStalls b) (s.clearBarn b) :=
  ((State.clearsShapes b (s.emptyStalls b)).updLoft ..).commitRef ..

theorem State.stall_clearBarn_same (s : State) {b i : Nat} (hi : i / 48 = b) : (s.clearBarn b).stall i = {} := by
  rw [State.stall, (s.clearBarn_frame b).stalls]
  exact (Tab.get_filter (fun n => n / 48 ≠ b) Stall.zero s.stalls i).trans (if_neg (by simpa using hi))

theorem State.stall_clearBarn_other (s : State) {b i : Nat} (hi : i / 48 ≠ b) : (s.clearBarn b).stall i = s.stall i := by
  rw [State.stall, (s.clearBarn_frame b).stalls]
  exact (Tab.get_filter (fun n => n / 48 ≠ b) Stall.zero s.stalls i).trans (if_pos (by simpa using hi))

/-- The stalls and the Tackroom's records. -/
def State.plant (s : State) : Tab Stall × TckSt := (s.stalls, s.tck)

theorem State.stall_of_plant {s t : State} (h : t.plant = s.plant) (i : Nat) : t.stall i = s.stall i :=
  congrArg (fun x : Tab Stall × TckSt => Tab.get Stall.zero x.1 i) h

theorem State.tck_of_plant {s t : State} (h : t.plant = s.plant) : t.tck = s.tck := congrArg Prod.snd h

theorem State.plant_fset (s : State) (f : Fld) (v : Nat) : (s.fset f v).plant = s.plant := (rfl)
theorem State.plant_commitRef (s : State) (b : Blk) (i : Nat) : (s.commitRef b i).plant = s.plant := (rfl)
theorem State.plant_giveLibrary (s : State) (b : Nat) : (s.giveLibrary b).plant = s.plant := (rfl)
theorem State.plant_fwEnable (s : State) (b : Blk) (i : Nat) : (s.fwEnable b i).plant = s.plant := (rfl)

theorem State.plant_retireStalls (s : State) (b : Nat) : (s.retireStalls b).plant = s.plant := by
  unfold State.retireStalls
  extract_lets m gone
  split
  · rfl
  · rw [State.plant_commitRef, State.plant_commitRef]
    rfl

theorem State.plant_openBarn (s : State) (b : Nat) : (s.openBarn b).plant = s.plant := by
  unfold State.openBarn
  extract_lets s1
  split
  · rw [State.plant_fset]
    refine foldl_keeps (P := fun t : State => t.plant = s.plant) _ ?_ fun t k _ ht => (t.plant_fwEnable k b).trans ht
    rw [State.plant_retireStalls, State.plant_giveLibrary]
  · rfl

theorem State.openBarn_of_stopped {s : State} (b : Nat) (h : s.fget F.TCK_STATE_STATE ≠ 1) : s.openBarn b = s := by
  rw [State.openBarn, if_neg (by simp [State.barnReady, h])]

theorem listed_clearState (b : Barn) : (F.SPD_CLEAR_STATE b).Listed :=
  Fld.listed_of_row .spd b 0xA00 1 8 0 b.isLt (by decide) (by decide) (by simp only [R.SPD_CLEAR, Blk.base, Blk.base0, Blk.stride]; omega)

theorem listed_clearFault (b : Barn) : (F.SPD_CLEAR_FAULT b).Listed :=
  Fld.listed_of_row .spd b 0xA00 1 8 0 b.isLt (by decide) (by decide) (by simp only [R.SPD_CLEAR, Blk.base, Blk.base0, Blk.stride]; omega)

theorem apart_clearFault (b : Barn) : (F.SPD_CLEAR_FAULT b).Apart (F.SPD_CLEAR_STATE b) :=
  Or.inr ⟨Nat.succ_pos 2, Or.inr (Nat.le_refl 3)⟩

/-- The Tackroom notes a barn whose clear has matched. -/
def State.noteCleared (s : State) (b : Nat) : State := { s with tck := { s.tck with cleared := s.tck.cleared ++ [b] } }

theorem State.stall_noteCleared (s : State) (b i : Nat) : (s.noteCleared b).stall i = s.stall i := (rfl)
theorem State.mem_noteCleared (s : State) (b : Nat) : b ∈ (s.noteCleared b).tck.cleared := List.mem_append_right _ List.mem_cons_self
theorem State.reg_noteCleared (s : State) (b a : Nat) : (s.noteCleared b).reg a = s.reg a := (rfl)

/-- A barn whose clear has matched. -/
def State.barnMatched (s : State) (b : Nat) : State :=
  (((s.clearBarn b).fwrap (F.SPD_CLEAR_COUNT b) 1).fset (F.SPD_CLEAR_STATE b) 2).noteCleared b

theorem State.stall_barnMatched (s : State) (b i : Nat) : (s.barnMatched b).stall i = (s.clearBarn b).stall i := by
  rw [State.barnMatched, State.stall_noteCleared, State.fwrap, State.stall_of_plant (State.plant_fset ..),
    State.stall_of_plant (State.plant_fset ..)]

theorem barnClearDone_matches {s : State} {b : Barn} (hwriting : s.fget (F.SPD_CLEAR_STATE b) = 1) :
    Runs (.barnClearDone b none) s (fun t => b.val ∈ t.tck.cleared ∧ (∀ k < 48, t.stall (48 * b.val + k) = {}) ∧
      (∀ i, i / 48 ≠ b.val → t.stall i = s.stall i) ∧ (s.fget F.TCK_STATE_STATE ≠ 1 → t.fget (F.SPD_CLEAR_STATE b) = 2)) := by
  have hexec : exec (.barnClearDone b none) s = .next ((s.barnMatched b).openBarn b) := by
    change execBarnClearDone b none s = _
    rw [execBarnClearDone, if_neg (not_not.2 hwriting)]
    rfl
  have hplant := (s.barnMatched b).plant_openBarn b
  have hstall (i : Nat) : ((s.barnMatched b).openBarn b).stall i = (s.clearBarn b).stall i :=
    (State.stall_of_plant hplant i).trans (s.stall_barnMatched b i)
  refine ⟨_, hexec, ?_, fun k hk => ?_, fun i hi => ?_, fun hstopped => ?_⟩
  · rw [State.tck_of_plant hplant]
    exact State.mem_noteCleared ..
  · rw [hstall]
    exact s.stall_clearBarn_same (by omega)
  · rw [hstall]
    exact s.stall_clearBarn_other hi
  · have hapart : R.TCK_STATE ≠ R.SPD_CLEAR b := by
      simp only [R.TCK_STATE, R.SPD_CLEAR]
      omega
    have hsame : (s.barnMatched b).reg R.TCK_STATE = s.reg R.TCK_STATE :=
      (State.reg_noteCleared ..).trans ((State.reg_fset_other _ _ hapart).trans ((State.reg_fset_other _ _ hapart).trans
        ((s.clearBarn_frame b).reg _ (noShape_tckState b))))
    rw [State.openBarn_of_stopped b (by rwa [State.fget, F.TCK_STATE_STATE, hsame])]
    rw [State.fget, State.barnMatched, State.reg_noteCleared]
    exact State.fget_fset_same _ _ (listed_clearState b)

/-- An error of severity 3 is recorded, whether or not the device is fatal already (R411). -/
theorem raises_of_fatal {s u : State} (herr : u.err = s.err) {e : Err} (hclass : codeClass e.code = 0) (hsev : codeSev e.code = 3) :
    Raises s (u.raise e) e.code 3 := by
  have hrec : s.err.flight ++ [u.recordOf e] <+: (u.raise e).err.flight := by
    have hflight : (u.raiseRec e).err.flight = s.err.flight ++ [u.recordOf e] := by rw [State.flight_raiseRec, herr]
    rw [State.raise, State.sevOf_of_class hclass, if_pos (show codeSev e.code = sevFatal from hsev), ← hflight]
    split
    · exact List.prefix_refl _
    · exact (State.calm_deviceFatal ..).1.flight
  have hrecord : (u.recordOf e).sev = 3 := (State.sevOf_of_class (s := u) hclass).trans hsev
  exact hrecord ▸ Raises.of_prefix hrec

/-- A barn whose clear has not matched, before the error. -/
def State.barnDiffers (s : State) (b : Nat) : State := ((s.clearBarn b).fset (F.SPD_CLEAR_FAULT b) 1).fset (F.SPD_CLEAR_STATE b) 4

theorem State.err_fset (s : State) (f : Fld) (v : Nat) : (s.fset f v).err = s.err := s.setReg_err ..

theorem State.err_barnDiffers (s : State) (b : Nat) : (s.barnDiffers b).err = s.err := by
  rw [State.barnDiffers, State.err_fset, State.err_fset, (s.clearBarn_frame b).err]
  rfl

theorem barnClearDone_differs {s : State} {b : Barn} (hwriting : s.fget (F.SPD_CLEAR_STATE b) = 1) (k : StallId) :
    Runs (.barnClearDone b (some k)) s (fun t => t.fget (F.SPD_CLEAR_STATE b) = 4 ∧
      t.fbit (F.SPD_CLEAR_FAULT b) = true ∧ Raises s t 0x0210 3) := by
  have hexec : exec (.barnClearDone b (some k)) s = .next ((s.barnDiffers b).raise { code := 0x0210, blk := b, inst := k }) := by
    change execBarnClearDone b (some k) s = _
    rw [execBarnClearDone, if_neg (not_not.2 hwriting)]
    rfl
  have hkept : ((s.barnDiffers b).raise { code := 0x0210, blk := b, inst := k }).reg (R.SPD_CLEAR b) = (s.barnDiffers b).reg (R.SPD_CLEAR b) :=
    State.clear_of_aside (State.aside_raise ..) b
  refine ⟨_, hexec, ?_, ?_, ?_⟩
  · rw [State.fget, F.SPD_CLEAR_STATE, hkept]
    exact State.fget_fset_same _ _ (listed_clearState b)
  · have hfault : (s.barnDiffers b).fget (F.SPD_CLEAR_FAULT b) = 1 := by
      rw [State.barnDiffers, State.fget_fset_apart _ _ (listed_clearFault b) (apart_clearFault b),
        State.fget_fset_same _ _ (listed_clearFault b)]
      rfl
    rw [State.fbit, State.fget, F.SPD_CLEAR_FAULT, hkept]
    exact decide_eq_true (ne_of_eq_of_ne hfault (by decide))
  · exact raises_of_fatal (s.err_barnDiffers b) (e := { code := 0x0210, blk := b, inst := k }) (by simp only; decide) (by simp only; decide)

end Sys2Proof.Machine

/-! OBLIGATION O46. Loads, deployments, notices and teardowns. -/

namespace Sys2Proof.Machine

/-! ### The cases of LOAD_DONE (R298) -/

theorem loadDone_outside {s : State} {j : JobId} (hphase : (s.job j).phase ≠ .loading) (host : List HostPiece) (g b : Bool) :
    exec (.loadDone j host g b) s = .next s := by
  change execLoadDone j host g b s = _
  rw [execLoadDone, if_pos hphase]

section
variable {s u v : State} {j : JobId} {host : List HostPiece} {img p : List Byte} (hphase : (s.job j).phase = .loading)
  (himg : s.hread (s.loadRec j).port host (s.loadRec j).img (s.loadRec j).imgLen = (some img, u))
  (hparams : u.hread (s.loadRec j).port host (s.loadRec j).params (prmLength (s.imageBody img)) = (some p, v)) (g b : Bool)
include hphase himg hparams

theorem loadDone_badRecord (hbad : field p 3 1 ≠ 0) : exec (.loadDone j host g b) s = .next (v.loadBadRecord j) := by
  rw [loadDone_read hphase himg hparams, if_pos (by simp [hbad])]

variable (hflags : field p 3 1 = 0) (hzeros : field p 58 6 = 0)
include hflags hzeros

theorem loadDone_fails {code r : Nat} (hchecks : v.loadChecks j (s.loadRec j) img p g b = .inl (code, r)) (hsigned : code ≠ 8) :
    exec (.loadDone j host g b) s = .next (v.loadFails j code r) := by
  rw [loadDone_read hphase himg hparams, if_neg (by simp [hflags, hzeros]), hchecks]
  dsimp only [Sum.elim_inl]
  rw [if_neg hsigned]

theorem loadDone_passes {m : List Byte} (hchecks : v.loadChecks j (s.loadRec j) img p g b = .inr m) :
    exec (.loadDone j host g b) s = .next (v.loadResume j host (s.loadRec j) m p (shake (s.imageBody img))) := by
  rw [loadDone_read hphase himg hparams, if_neg (by simp [hflags, hzeros]), hchecks]
  rfl

end

/-! ### SHARD_VERIFIED (R393) -/

theorem shardVerified_ends {s : State} {n : Fin 4096} {q : BaleJob} {b : Bale} {x : Shard} (hq : s.sec.loads[n.val]? = some q)
    (hb : (s.secJob q.job).bale q.kind q.slot = some b) (hx : b.shards[q.shard]? = some x) (host : List HostPiece) :
    let r := State.loadGranules q.port host b x x.count 0 [] { s with sec := { s.sec with loads := s.sec.loads.eraseIdx n.val } }
    let code := if r.1.1 ≠ 0 then r.1.1 else if shake r.1.2 = x.hash then 0 else 10
    Runs (.shardVerified n host) s (fun t => t = r.2.shardEnds q code ∧ ∃ c y, (t.secJob q.job).bale q.kind q.slot = some c ∧
      c.shards[q.shard]? = some y ∧ y.st = (if code = 0 then 2 else 0)) := by
  intro r code
  have hexec : exec (.shardVerified n host) s = .next (r.2.shardEnds q code) := by
    change execShardVerified n host s = _
    rw [execShardVerified, hq]
    dsimp only
    have hb' : (State.secJob { s with sec := { s.sec with loads := s.sec.loads.eraseIdx n.val } } q.job).bale q.kind q.slot = some b := hb
    rw [hb']
    dsimp only
    rw [hx]
  have hshard : r.2.HasShard q x :=
    State.HasShard.of_aside (s := { s with sec := { s.sec with loads := s.sec.loads.eraseIdx n.val } }) ⟨b, hb, hx⟩
      (State.aside_loadGranules ..)
  obtain ⟨c, hc, hy⟩ := State.hasShard_shardEnds hshard code
  exact ⟨_, hexec, rfl, c, _, hc, hy, rfl⟩

/-! ### Adapter notices (R399) -/

theorem adapterNotice_quiet {s : State} {j : JobId} (hlive : (s.job j).live = true)
    (hrisen : (s.ctr (keyGate (s.gateG j + 2))).val ≠ 0) (hnone : ∀ i < 256, s.noticeAt j i = none) :
    exec (.adapterNotice j) s = .next s := by
  have hquiet : (List.range 256).foldl (fun s i => s.noticeSlot j i) s = s :=
    foldl_keeps (P := fun t => t = s) _ rfl fun t i hi ht => ht.symm ▸ State.noticeSlot_none (hnone i (List.mem_range.1 hi))
  rw [exec_adapterNotice hlive hrisen, hquiet]

/-! ### All rows -/

/-- Settles O46: the checks of LOAD_DONE and the guards of the other rows in their order; a shard keeps its place through the load of
its granules; the area reads the same after a notice; the shapes and the errors of a clear leave SPD_CLEAR alone. -/
theorem loadAndTeardownComplete : Obligations.LoadAndTeardownComplete := by
  intro s
  refine ⟨fun j host g b => ⟨fun hphase => loadDone_outside hphase host g b, fun hphase u hread => loadDone_readFails hphase hread g b,
      fun hphase img u p v himg hparams => ⟨fun hbad => loadDone_badRecord hphase himg hparams g b hbad, fun hflags hzeros =>
        ⟨fun _ _ hchecks hsigned => loadDone_fails hphase himg hparams g b hflags hzeros hchecks hsigned,
         fun _ hchecks => loadDone_passes hphase himg hparams g b hflags hzeros hchecks⟩⟩⟩,
    fun n host q b x hq hb hx => shardVerified_ends hq hb hx host, fun j => ?_,
    fun b hwriting => ⟨barnClearDone_matches hwriting, barnClearDone_differs hwriting⟩⟩
  refine ⟨fun b hdep hhead hsent hphase hpeers => ⟨commit_sends hdep hhead hsent hphase hpeers, commit_refuses hdep hhead hsent hphase hpeers⟩,
    fun hphase h3 h5 hcount => ⟨?_, commitReceived_refuses hphase h3 h5 hcount⟩,
    fun b hdep hstate hlasted => deployTimeout_fails hdep hstate hlasted,
    adapterNotice_quiet, fun i n hlive hrisen hn hothers hnew => ?_,
    teardownRevoke_revokes, teardownDrainEnd_clears,
    fun hphase => ⟨teardownRevoke_outside hphase, teardownDrainEnd_outside hphase, teardownScrubDone_outside hphase⟩,
    fun hphase hstep hcleared => ⟨teardownScrubDone_frees hphase hstep hcleared,
      fun b howned => teardownScrubDone_faulty hphase hstep hcleared howned⟩⟩
  · exact fun b hdep hname hhash hverified => commitReceived_takes hphase h3 h5 hcount hdep hname hhash hverified
  · exact ⟨_, exec_adapterNotice hlive hrisen, _, rfl, State.noticeSlots_one hn hothers hnew⟩

end Sys2Proof.Machine

/-! SUPPORT. Accesses to a stall's memories outside the schedule (R80 to R84, R111, R196 to R198): what the end of an unscheduled
packet leaves alone, and what each access leaves of its stall. -/

namespace Sys2Proof.Machine

/-! ### The end of an unscheduled packet (R196 to R198) -/

/-- Nothing changes but the mesh and the counters. -/
def State.MeshCtrs (s t : State) : Prop := ∃ m c, t = { s with mesh := m, ctrs := c }

theorem State.MeshCtrs.refl (s : State) : s.MeshCtrs s := ⟨_, _, rfl⟩

theorem State.MeshCtrs.trans {s t u : State} (h : s.MeshCtrs t) (k : t.MeshCtrs u) : s.MeshCtrs u := by
  obtain ⟨_, _, rfl⟩ := h
  obtain ⟨_, _, rfl⟩ := k
  exact ⟨_, _, rfl⟩

theorem State.MeshCtrs.ite {s t u : State} {c : Prop} [Decidable c] (h : s.MeshCtrs t) (k : s.MeshCtrs u) :
    s.MeshCtrs (if c then t else u) := by
  split
  · exact h
  · exact k

theorem State.MeshCtrs.stall {s t : State} (h : s.MeshCtrs t) (i : Nat) : t.stall i = s.stall i := by
  obtain ⟨_, _, rfl⟩ := h
  rfl

theorem State.meshCtrs_leave (s : State) (id : Nat) : s.MeshCtrs (s.leave id) := by
  unfold State.leave
  split
  · exact .refl s
  · extract_lets _ s1 s2
    have h1 : s.MeshCtrs s1 := ⟨_, _, rfl⟩
    have h2 : s.MeshCtrs s2 := .ite (h1.trans ⟨_, _, rfl⟩) h1
    exact .ite (.ite (h2.trans ⟨_, _, rfl⟩) h2) (.refl s)

theorem State.meshCtrs_unsRelease (s : State) : s.MeshCtrs s.unsRelease :=
  foldl_keeps (P := s.MeshCtrs) _ (.refl s) fun t id _ ht => ht.trans (t.meshCtrs_leave id)

theorem State.meshCtrs_unsEnd (s : State) (p : UPkt) : s.MeshCtrs (s.unsEnd p) := by
  have hdrop : s.MeshCtrs (s.dropUns p.id) := ⟨_, _, rfl⟩
  exact (State.MeshCtrs.ite (hdrop.trans ⟨_, _, rfl⟩) hdrop).trans (State.meshCtrs_unsRelease _)

theorem State.meshCtrs_unsSignal (s : State) (dst job sel inc : Nat) : s.MeshCtrs (s.unsSignal dst job sel inc) := by
  unfold State.unsSignal
  split
  · exact .ite ⟨_, _, rfl⟩ (.refl s)
  · exact .ite ⟨_, _, rfl⟩ ⟨_, _, rfl⟩
  · exact .refl s

theorem State.meshCtrs_unsDone (s : State) (id : Nat) : s.MeshCtrs (s.unsDone id) := by
  unfold State.unsDone
  split
  · exact .refl s
  · next p _ =>
    exact .ite ((State.MeshCtrs.ite (s.meshCtrs_unsSignal ..) (.refl s)).trans (State.meshCtrs_unsEnd _ p)) ⟨_, _, rfl⟩

/-! ### Writes of a line and of a row -/

/-- An access takes the bank of a line: of its stall, only the uses of the banks change. -/
theorem State.takeBank_stall (s : State) (i line : Nat) :
    ∃ uses, (s.takeBank i line).stall i = { s.stall i with uses := uses } := ⟨_, s.updStall_same i _⟩

theorem State.onlyStall_takeBank (s : State) (i line : Nat) : OnlyStall i s (s.takeBank i line) := OnlyStall.updStall s i _

theorem OnlyStall.trans {i : Nat} {s t u : State} (h : OnlyStall i s t) (k : OnlyStall i t u) : OnlyStall i s u := by
  obtain ⟨ht, hts⟩ := h
  obtain ⟨hu, hus⟩ := k
  refine ⟨?_, fun n hn => (hus n hn).trans (hts n hn)⟩
  rw [hu, ht]

/-- The device after a waiting write has landed in its line, before its packet learns of it (R80, R81). -/
def State.unsWritten (s : State) (i beat : Nat) (w : UnsWait) (v : LineVal) : State :=
  ((s.takeBank i w.line).updStall i (fun t => { t with uns := t.uns.erase w })).writeLine i beat w.line v

theorem State.onlyStall_unsWritten (s : State) (i beat : Nat) (w : UnsWait) (v : LineVal) : OnlyStall i s (s.unsWritten i beat w v) :=
  ((s.onlyStall_takeBank i w.line).trans (.updStall _ i _)).trans (.updStall _ i _)

theorem State.stall_unsWritten (s : State) (i beat : Nat) (w : UnsWait) (v : LineVal) : ∃ uses, (s.unsWritten i beat w v).stall i =
    { s.stall i with uses := uses, uns := (s.stall i).uns.erase w, spad := (s.stall i).spad.write beat w.line v } := by
  obtain ⟨uses, huses⟩ := s.takeBank_stall i w.line
  exact ⟨uses, by simp only [State.unsWritten, State.writeLine, State.updStall_same, huses]⟩

/-- A part of a number replaced, bit by bit. -/
theorem getLsbD_ofNat_setBits {n m : Nat} (x : BitVec n) (v : BitVec m) {o : Nat} (hm : 0 < m) (ho : o + m ≤ n) (i : Nat) :
    (BitVec.ofNat n (setBits x.toNat o m v.toNat)).getLsbD i = if o ≤ i ∧ i < o + m then v.getLsbD (i - o) else x.getLsbD i := by
  rw [BitVec.getLsbD_ofNat, testBit_setBits _ _ _ _ _ hm]
  by_cases hi : i < n
  · simp [hi, BitVec.getLsbD]
  · simp [hi, BitVec.getLsbD_of_ge x i (by omega), show ¬ i < o + m by omega]

/-- A row with the `n`-th of its 32-bit units replaced and its mark cleared (R111). -/
def AccRow.setUnit (r : AccRow) (n : Nat) (v : Word32) : AccRow := ⟨BitVec.ofNat 1024 (setBits r.v.toNat (32 * n) 32 v.toNat), false⟩

theorem AccRow.getLsbD_setUnit (r : AccRow) {n : Nat} (hn : n < 32) (v : Word32) (i : Nat) :
    (r.setUnit n v).v.getLsbD i = if 32 * n ≤ i ∧ i < 32 * n + 32 then v.getLsbD (i - 32 * n) else r.v.getLsbD i :=
  getLsbD_ofNat_setBits _ _ (by decide) (by omega) i

/-- A write of an accumulator that no array command uses lands in the beat in progress (R111). -/
theorem State.pokeAcc_idle {s : State} {i arr row : Nat} (hidle : s.accBusy i arr = false) (hrow : row < 1024) (v : AccRow) :
    s.pokeAcc i (1024 * arr + row) v = s.writeAcc i (s.beat (i / 48)) arr row v := by
  have harr : (1024 * arr + row) / 1024 = arr := by omega
  rw [State.pokeAcc, harr, hidle]
  rfl

/-- What the next beat reads after a write of a row: the row, and the other rows as before. -/
theorem State.acc_writeAcc (s : State) (i beat arr row : Nat) (v : AccRow) :
    ((s.writeAcc i beat arr row v).stall i).acc.readAt AccRow.zeroF (beat + 1) (1024 * arr + row) = v ∧
    ∀ n ≠ 1024 * arr + row, ((s.writeAcc i beat arr row v).stall i).acc.readAt AccRow.zeroF (beat + 1) n =
      (s.stall i).acc.readAt AccRow.zeroF (beat + 1) n := by
  rw [State.writeAcc, State.updStall_same]
  exact ⟨Timed.readAt_write_next .., fun n hn => Timed.readAt_write_other _ _ _ _ _ hn⟩

theorem sx_div (b : Barn) (k : StallId) : sx b k / 48 = b.val := by
  simp only [sx]
  omega

end Sys2Proof.Machine

/-! OBLIGATION O20. Accesses to scratchpads and accumulators outside the schedule. -/

namespace Sys2Proof.Machine

/-! ### Waiting accesses (R80, R81, R83) -/

section
variable {b : Barn} {k : StallId} {s : State} {w : UnsWait}
  (hw : (s.stall (sx b k)).uns.find? (fun w => s.spadFree (sx b k) w.line) = some w)
include hw

theorem exec_unsBankAccess_write {v : LineVal} (hv : w.wr = some v) (ecc : EccOutcome) : exec (.unsBankAccess b k ecc) s =
    .next ((s.unsWritten (sx b k) (s.beat b) w
      { v with data := maskBytes w.mask (s.readLine (sx b k) (s.beat b + 1) w.line).data v.data }).unsDone w.pkt) := by
  change execUnsBankAccess b k ecc s = _
  rw [execUnsBankAccess, hw]
  dsimp only
  rw [hv]
  rfl

theorem unsBankAccess_writes {v : LineVal} (hv : w.wr = some v) (ecc : EccOutcome) : Runs (.unsBankAccess b k ecc) s (fun t =>
    t = { s with stalls := t.stalls, ctrs := t.ctrs, mesh := t.mesh } ∧
    (∀ m, m ≠ sx b k → t.stall m = s.stall m) ∧ (t.stall (sx b k)).uns = (s.stall (sx b k)).uns.erase w ∧
    (∀ line beat, line ≠ w.line → t.readLine (sx b k) beat line = s.readLine (sx b k) beat line) ∧
    t.readLine (sx b k) (s.beat b + 1) w.line =
      { v with data := maskBytes w.mask (s.readLine (sx b k) (s.beat b + 1) w.line).data v.data }) := by
  refine ⟨_, exec_unsBankAccess_write hw hv ecc, ?_⟩
  generalize { v with data := maskBytes w.mask (s.readLine (sx b k) (s.beat b + 1) w.line).data v.data } = new
  have hdone := (s.unsWritten (sx b k) (s.beat b) w new).meshCtrs_unsDone w.pkt
  obtain ⟨hframe, hothers⟩ := s.onlyStall_unsWritten (sx b k) (s.beat b) w new
  obtain ⟨uses, hstall⟩ := s.stall_unsWritten (sx b k) (s.beat b) w new
  rw [← hdone.stall] at hstall
  refine ⟨?_, fun m hm => (hdone.stall m).trans (hothers m hm), congrArg Stall.uns hstall, fun line beat hline => ?_, ?_⟩
  · obtain ⟨m, c, hends⟩ := hdone
    rw [hends, hframe]
  · rw [State.readLine, hstall]
    exact Timed.readAt_write_other _ _ _ _ _ hline
  · rw [State.readLine, hstall]
    exact Timed.readAt_write_next ..

theorem exec_unsBankAccess_read (hr : w.wr = none) : exec (.unsBankAccess b k .clean) s =
    .next (((s.takeBank (sx b k) w.line).updStall (sx b k) (fun t => { t with uns := t.uns.erase w })).serveGot w.pkt w.idx b k w.line
      (s.readLine (sx b k) (s.beat b) w.line) true) := by
  change execUnsBankAccess b k .clean s = _
  rw [execUnsBankAccess, hw]
  dsimp only
  rw [hr]

end

/-! ### Write-backs (R84, R417) -/

/-- The device after a corrected word has been written back, before its recovery ends: a row or a vector register takes no bank. -/
def State.fixWritten (s : State) (i f : Nat) : State :=
  (if f < 0x10000 then s.takeBank i f else s).updStall i (fun t => { t with fixes := t.fixes.erase f })

theorem State.onlyStall_fixWritten (s : State) (i f : Nat) : OnlyStall i s (s.fixWritten i f) := by
  unfold State.fixWritten
  split
  · exact (s.onlyStall_takeBank i f).trans (.updStall _ i _)
  · exact .updStall s i _

theorem State.fixes_fixWritten (s : State) (i f : Nat) : ((s.fixWritten i f).stall i).fixes = (s.stall i).fixes.erase f := by
  rw [State.fixWritten, State.updStall_same]
  split
  · obtain ⟨uses, huses⟩ := s.takeBank_stall i f
    rw [huses]
  · rfl

theorem State.not_mem_endRecovery (s : State) (cls blk inst tag : Nat) : ∀ r ∈ (s.endRecovery cls blk inst tag).err.recov,
    ¬ (r.cls = cls ∧ r.blk = blk ∧ r.inst = inst ∧ r.tag = tag) := by
  intro r hr
  simpa only [Bool.not_eq_true', Bool.and_eq_false_iff, decide_eq_false_iff_not, not_and_or, or_assoc]
    using (List.mem_filter.1 hr).2

theorem spadWriteback_ends {b : Barn} {k : StallId} {s : State} {f : Nat}
    (hf : (s.stall (sx b k)).fixes.find? (s.fixFree (sx b k)) = some f) : Runs (.spadWriteback b k) s (fun t =>
      (t.stall (sx b k)).fixes = (s.stall (sx b k)).fixes.erase f ∧ (∀ m, m ≠ sx b k → t.stall m = s.stall m) ∧
      (∀ r ∈ t.err.recov, ¬ (r.cls = 1 ∧ r.blk = b.val ∧ r.inst = s.physOf b k ∧ r.tag = f)) ∧
      t = { s with stalls := t.stalls, err := { s.err with recov := t.err.recov } }) := by
  have hexec : exec (.spadWriteback b k) s = .next ((s.fixWritten (sx b k) f).endRecovery 1 b (s.physOf b k) f) := by
    change execSpadWriteback b k s = _
    rw [execSpadWriteback, hf]
    rfl
  obtain ⟨hframe, hothers⟩ := s.onlyStall_fixWritten (sx b k) f
  refine ⟨_, hexec, s.fixes_fixWritten (sx b k) f, hothers, State.not_mem_endRecovery _ 1 b _ f, ?_⟩
  rw [State.endRecovery, hframe]

/-! ### The scrubber (R84) -/

/-- The bank of the line is free, and the stall is there. -/
theorem spadScrub_scrubs {b : Barn} {k : StallId} {s : State} {line : Fin 49152} (hfree : s.bankFree (sx b k) line = true)
    (hk : k.val < s.stallCount b) :
    exec (.spadScrub b k line .clean) s = .next (s.takeBank (sx b k) line) ∧
    exec (.spadScrub b k line .corrected) s = .next ((s.takeBank (sx b k) line).spadEcc b k line true) ∧
    ∀ ecc, ecc = .uncorrectable ∨ ecc = .tagError → exec (.spadScrub b k line ecc) s =
      .next (((s.takeBank (sx b k) line).writeLine (sx b k) (s.beat b) line
        ⟨(s.readLine (sx b k) (s.beat b) line).data, 0, true⟩).spadEcc b k line false) := by
  have hruns : ¬ (!s.bankFree (sx b k) line || decide (s.stallCount b ≤ k.val)) = true := by simp [hfree, hk]
  refine ⟨congrArg Host.Outcome.next (if_neg hruns), congrArg Host.Outcome.next (if_neg hruns), ?_⟩
  rintro ecc (rfl | rfl)
  · exact congrArg Host.Outcome.next (if_neg hruns)
  · exact congrArg Host.Outcome.next (if_neg hruns)

/-! ### Accumulators from outside (R111) -/

section
variable {src : Source} {b : Barn} {k : StallId} {arr : Fin 4} {s : State} (hsrc : s.srcReaches src b = true)
  (hk : k.val < s.stallCount b) (hidle : s.accBusy (sx b k) arr = false) (unit : Fin 32768)
include hsrc hk hidle

theorem exec_accHostAccess_write (v : Word32) (ecc : EccOutcome) : exec (.accHostAccess src b k arr unit (some v) ecc) s =
    .next (s.writeAcc (sx b k) (s.beat b) arr (unit.val / 32)
      ((s.seeAcc (sx b k) (1024 * arr.val + unit.val / 32)).setUnit (unit.val % 32) v)) := by
  change execAccHostAccess src b k arr unit (some v) ecc s = _
  rw [execAccHostAccess, if_neg (by simp [hsrc, hk, hidle])]
  dsimp only
  rw [State.pokeAcc_idle hidle (by omega), sx_div]
  rfl

theorem accHostAccess_writes (v : Word32) (ecc : EccOutcome) : Runs (.accHostAccess src b k arr unit (some v) ecc) s (fun t =>
    OnlyStall (sx b k) s t ∧ t.stall (sx b k) = { s.stall (sx b k) with acc := (t.stall (sx b k)).acc } ∧
    (∀ row, row ≠ 1024 * arr.val + unit.val / 32 → (t.stall (sx b k)).acc.readAt AccRow.zeroF (s.beat b + 1) row =
      (s.stall (sx b k)).acc.readAt AccRow.zeroF (s.beat b + 1) row) ∧
    ((t.stall (sx b k)).acc.readAt AccRow.zeroF (s.beat b + 1) (1024 * arr.val + unit.val / 32)).poison = false ∧
    ∀ n : Nat, n < 1024 →
      ((t.stall (sx b k)).acc.readAt AccRow.zeroF (s.beat b + 1) (1024 * arr.val + unit.val / 32)).v.getLsbD n =
      if 32 * (unit.val % 32) ≤ n ∧ n < 32 * (unit.val % 32) + 32 then v.getLsbD (n - 32 * (unit.val % 32))
      else (s.seeAcc (sx b k) (1024 * arr.val + unit.val / 32)).v.getLsbD n) := by
  refine ⟨_, exec_accHostAccess_write hsrc hk hidle unit v ecc, .updStall s _ _, ?_⟩
  obtain ⟨hsame, hothers⟩ := s.acc_writeAcc (sx b k) (s.beat b) arr (unit.val / 32)
    ((s.seeAcc (sx b k) (1024 * arr.val + unit.val / 32)).setUnit (unit.val % 32) v)
  rw [hsame]
  refine ⟨?_, hothers, rfl, fun n _ => AccRow.getLsbD_setUnit _ (Nat.mod_lt _ (by decide)) v n⟩
  rw [State.writeAcc, State.updStall_same]

theorem exec_accHostAccess_read : exec (.accHostAccess src b k arr unit none .clean) s =
    .next (s.send (.answer unit
      (if ((s.stall (sx b k)).acc.readAt AccRow.zeroF (s.beat b) (1024 * arr.val + unit.val / 32)).poison then 2 else 0)
      (bits ((s.stall (sx b k)).acc.readAt AccRow.zeroF (s.beat b) (1024 * arr.val + unit.val / 32)).v.toNat
        (32 * (unit.val % 32) + 31) (32 * (unit.val % 32))))) := by
  change execAccHostAccess src b k arr unit none .clean s = _
  rw [execAccHostAccess, if_neg (by simp [hsrc, hk, hidle])]
  rfl

end

/-- Settles O20: each row under its condition; a write lands in the beat in progress, so the next beat reads it (R81). -/
theorem scratchpadAccessesComplete : Obligations.ScratchpadAccessesComplete := by
  unfold Obligations.ScratchpadAccessesComplete
  intro b k s
  refine ⟨fun w v ecc hw hv => unsBankAccess_writes hw hv ecc, fun w hw hr => exec_unsBankAccess_read hw hr,
    fun f hf => spadWriteback_ends hf, fun line hfree hk => spadScrub_scrubs hfree hk,
    fun src arr unit hsrc hk hidle => ⟨accHostAccess_writes hsrc hk hidle unit, exec_accHostAccess_read hsrc hk hidle unit⟩⟩

end Sys2Proof.Machine

/-! SUPPORT. Packets that arrive at the device (R250, R257, R263): a delivered packet is accepted. -/

namespace Sys2Proof.Machine

/-! ### The receive buffer (R240, R336) -/

theorem State.isYoke_updLink (s : State) (p : Nat) {f : Link → Link} (hf : ∀ l, (f l).ctrl = l.ctrl) (n : Nat) :
    ((s.updLink p f).link n).isYoke = (s.link n).isYoke := by
  by_cases hn : n = p
  · subst hn
    rw [State.updLink_same, Link.isYoke, hf]
    rfl
  · rw [State.updLink_other _ _ hn]

theorem State.isYoke_freeRx (s : State) (p v d n : Nat) : ((s.freeRx p v d).link n).isYoke = (s.link n).isYoke := by
  rw [State.freeRx, State.isYoke_updLink]
  exact fun _ => rfl

theorem State.isYoke_dropRx (s : State) (p v : Nat) (r : RPkt) (n : Nat) : ((s.dropRx p v r).link n).isYoke = (s.link n).isYoke := by
  rw [State.dropRx, State.isYoke_updLink, State.isYoke_freeRx]
  exact fun _ => rfl

theorem State.inKey_dropRx (s : State) (p v : Nat) (r : RPkt) (j : Nat) (h : FabHdr) : (s.dropRx p v r).inKey p j h = s.inKey p j h := by
  simp only [State.inKey, State.isYoke_dropRx]

theorem State.isYoke_taken (s : State) (p v j : Nat) (r : RPkt) (n : Nat) : ((Taken s p v j r).link n).isYoke = (s.link n).isYoke :=
  s.isYoke_dropRx p v r n

/-! ### Acceptance (R257, R263) -/

section
variable {s : State} {p v j : Nat} {r : RPkt} {want : FabHdr → List Line → Bool} (act : State → Nat → FabHdr → List Line → State)
  (hd : Delivers s p v j r) (hwant : want r.pkt.head (s.openRx p j r).1 = true)
include hd hwant

/-- A delivered packet that a row picks out passes every check of R263; what is left to ask is whether its kind has a number. -/
theorem State.receive_of_delivers : s.receive p v want act =
    if r.pkt.head.kind = 3 then act (s.dropRx p v r) j r.pkt.head (s.openRx p j r).1
    else Accepted s p v j r (fun u => act u j r.pkt.head (s.openRx p j r).1) := by
  obtain ⟨hfirst, hform, hctx, hyoke, hwhole, hslices, hauth, hseq⟩ := hd
  have hours : ¬ ((s.link p).isYoke &&
      (decide (r.pkt.head.dst ≠ s.fget F.YOK_CFG_PARTNER) && decide (r.pkt.head.dst ≠ s.devId))) = true := by
    simp only [Bool.and_eq_true, decide_eq_true_eq]
    exact fun ⟨hy, hpartner, hdev⟩ => (hyoke hy).1.elim hpartner hdev
  have hjob : (s.ctxOf r.pkt.head.fjob).filter (fun j => !(s.link p).isYoke || s.fbit (F.YOK_JOB_CFG_YOKED j)) = some j := by
    rw [hctx, Option.filter_some]
    exact if_pos (by simpa [imp_iff_not_or] using fun hy => (hyoke hy).2)
  rw [State.receive, hfirst]
  dsimp only
  rw [if_neg (ne_true_of_eq_false hform), if_neg hours, hjob]
  dsimp only
  rw [if_neg (by simp [hwant]), if_neg (ne_true_of_eq_false hwhole), if_neg (Nat.not_lt.2 hslices), if_neg (by simp [hauth])]
  by_cases hkind : r.pkt.head.kind = 3
  · rw [if_pos hkind, if_pos hkind]
  · rw [if_neg hkind, if_neg hkind, if_pos (hseq.resolve_left hkind)]
    rfl

theorem State.receive_accepts (hkind : r.pkt.head.kind ≠ 3) :
    s.receive p v want act = Accepted s p v j r (fun u => act u j r.pkt.head (s.openRx p j r).1) :=
  (State.receive_of_delivers act hd hwant).trans (if_neg hkind)

theorem State.receive_ack (hkind : r.pkt.head.kind = 3) :
    s.receive p v want act = act (s.dropRx p v r) j r.pkt.head (s.openRx p j r).1 :=
  (State.receive_of_delivers act hd hwant).trans (if_pos hkind)

end

/-- The effect of an accepted packet is that on the device after the packet has been taken. -/
theorem accepted_congr {s : State} {p v j : Nat} {r : RPkt} {f g : State → State} (h : f (Taken s p v j r) = g (Taken s p v j r)) :
    Accepted s p v j r f = Accepted s p v j r g := by
  unfold Accepted
  rw [h]

end Sys2Proof.Machine

/-! OBLIGATION O31. The packets that carry data. -/

namespace Sys2Proof.Machine

/-! ### Writes (R260, R263) -/

/-- A write all of whose lines the job may reach, and its signal. -/
theorem State.acceptWrite_performs {u : State} {p j : Nat} {h : FabHdr} (ls : List Line)
    (hlines : ∀ i < h.d, u.arriveDenied j (h.addr + 64 * i) true = none) (hsig : h.siginc ≠ 0 → u.gateOwned j h.sigidx = true) :
    u.acceptWrite p j h ls = u.performPkt p j h ls := by
  have hnone : (List.range h.d).findSome? (fun i =>
      (u.arriveDenied j (h.addr + 64 * i) true).map (fun c => (c, h.addr + 64 * i))) = none := by
    rw [List.findSome?_eq_none_iff]
    intro i hi
    rw [hlines i (List.mem_range.1 hi), Option.map_none]
  have howned : ¬ (h.siginc ≠ 0 ∧ (!u.gateOwned j h.sigidx) = true) := by
    rintro ⟨hne, hnot⟩
    simp [hsig hne] at hnot
  rw [State.acceptWrite, hnone]
  exact if_neg howned

/-- A write whose first line the job may not reach. -/
theorem State.acceptWrite_denied {u : State} {p j : Nat} {h : FabHdr} (ls : List Line) {c : Nat} (hpos : 0 < h.d)
    (hden : u.arriveDenied j (h.addr + 64 * 0) true = some c) : u.acceptWrite p j h ls = u.arriveErr p j c (h.addr + 64 * 0) := by
  have hsome : (List.range h.d).findSome? (fun i =>
      (u.arriveDenied j (h.addr + 64 * i) true).map (fun c => (c, h.addr + 64 * i))) = some (c, h.addr + 64 * 0) :=
    findSome?_range hpos (fun i hi => absurd hi (Nat.not_lt_zero i)) (by rw [hden, Option.map_some])
  rw [State.acceptWrite, hsome]

section
variable {s : State} {p : PortId} {j : Nat} {r : RPkt}

theorem exec_write (hd : Delivers s p 0 j r) (hkind : r.pkt.head.kind = 0) : exec (.write p) s =
    .next (Accepted s p 0 j r (fun u => u.acceptWrite p j r.pkt.head (s.openRx p j r).1)) :=
  congrArg Host.Outcome.next (State.receive_accepts _ hd (decide_eq_true hkind) (by omega))

/-! ### Reads (R91, R250) -/

/-- The remote read that a READ_REQ asks for, under the number that the fabric gives it (R91, R250). -/
def readAsked (p j id : Nat) (h : FabHdr) (ls : List Line) : FarServe :=
  let w := (ls.headD 0).toNat
  { id := id, job := j, dst := h.src, src := bits w 35 0, ret := bits w 71 36, lines := bits w 87 72, ew := bits w 91 88
    er := bits w 95 92, chk := bit w 96, fence := bit w 97, rsig := bits w 110 98, rinc := bits w 118 111, rtag := h.rtag, port := p }

/-- The requests of a remote read onto the mesh: one for every four lines (R91). -/
def State.sendRead (u : State) (p j : Nat) (v : FarServe) : State :=
  (List.range ((v.lines + 3) / 4)).foldl (fun s i => s.unsSend
    { src := p, dst := s.dstPoint (v.src + 256 * i), job := j, form := 1, addr := v.src + 256 * i, data := []
      lines := min 4 (v.lines - 4 * i), sel := 0xC000, inc := 0, fence := false, tag := v.id * 65536 + 4 * i
      port := p })
    (u.updFab (fun f => { f with nextId := f.nextId + 1, serve := f.serve ++ [v] }))

theorem exec_readReq {ls : List Line} (hd : Delivers s p 0 j r) (hkind : r.pkt.head.kind = 1) (hls : (s.openRx p j r).1 = ls)
    (hzero : bits (ls.headD 0).toNat 511 119 = 0) (hlow : 1 ≤ ctlNat ls 9 2) (hhigh : ctlNat ls 9 2 ≤ 49152) : exec (.readReq p) s =
    .next (Accepted s p 0 j r (fun u => u.sendRead p j (readAsked p j u.fab.nextId r.pkt.head ls))) := by
  subst hls
  refine congrArg Host.Outcome.next (State.receive_accepts _ hd ?_ (by omega))
  simp only [hkind, hzero, hlow, hhigh, decide_true, Bool.and_self, Bool.or_true]

theorem exec_readRsp (hd : Delivers s p 1 j r) (hkind : r.pkt.head.kind = 2) : exec (.readRsp p) s =
    .next (Accepted s p 1 j r (fun u =>
      if (u.link p).isYoke then
        { u with yok := { u.yok with resent := u.yok.resent ++
          [(r.pkt.head.addr, (s.openRx p j r).1.zipIdx.map (fun l => (⟨l.1, r.pkt.head.epoch, bit r.pkt.head.poison l.2⟩ : LineVal)))] } }
      else
        (u.updFab (fun f => { f with
          reads := (f.reads.map (fun x => if x.rtag = r.pkt.head.rtag then { x with left := x.left - 1 } else x)).filter
            (fun x => 0 < x.left) })).acceptWrite p j r.pkt.head (s.openRx p j r).1)) :=
  congrArg Host.Outcome.next (State.receive_accepts _ hd (decide_eq_true hkind) (by omega))

/-! ### Acknowledgements (R257, R258) -/

theorem exec_ack (hd : Delivers s p 2 j r) (hkind : r.pkt.head.kind = 3) : exec (.ack p) s =
    .next ((s.dropRx p 2 r).ackStream
      (if bit r.pkt.head.addr 10 then 16384 * j + 4096 + bits r.pkt.head.addr 9 0 else s.inKey p j { r.pkt.head with mcast := false })
      r.pkt.head.eseq r.pkt.head.src) := by
  rw [← s.inKey_dropRx p 2 r j]
  exact congrArg Host.Outcome.next (State.receive_ack _ hd (decide_eq_true hkind) hkind)

end

/-- Settles O31: a delivered packet is accepted, and each kind has the effect of its row. -/
theorem dataPacketsAccepted : Obligations.DataPacketsAccepted := by
  unfold Obligations.DataPacketsAccepted
  intro p s j r
  refine ⟨fun ls hd hkind hls => ?_, fun ls hd hkind hls hzero hlow hhigh => ?_, fun ls hd hkind hls => ?_,
    fun hd hkind => exec_ack hd hkind⟩
  · subst hls
    refine ⟨fun hlines hsig => ?_, fun c hpos hden => ?_⟩
    · exact (exec_write hd hkind).trans (congrArg Host.Outcome.next (accepted_congr (State.acceptWrite_performs _ hlines hsig)))
    · exact (exec_write hd hkind).trans (congrArg Host.Outcome.next (accepted_congr (State.acceptWrite_denied _ hpos hden)))
  · refine ⟨readAsked p j (Taken s p 0 j r).fab.nextId r.pkt.head ls, rfl, rfl, rfl, rfl, rfl, rfl, rfl, rfl, ?_⟩
    exact (exec_readReq hd hkind hls hzero hlow hhigh).trans (congrArg Host.Outcome.next (accepted_congr rfl))
  · subst hls
    refine ⟨fun hy => ?_, fun hy => ?_⟩
    · exact (exec_readRsp hd hkind).trans (congrArg Host.Outcome.next (accepted_congr (if_pos ((s.isYoke_taken p 1 j r p).trans hy))))
    · exact (exec_readRsp hd hkind).trans (congrArg Host.Outcome.next (accepted_congr
        (if_neg (ne_true_of_eq_false ((s.isYoke_taken p 1 j r p).trans hy)))))

end Sys2Proof.Machine

/-! SUPPORT. Element formats (R98, R100): decoding takes a code apart into sign, exponent and mantissa, and a value that a code stands
for needs no rounding when it is converted back. -/

namespace Sys2Proof.Machine

/-! ### The codes of a format (R98) -/

/-- The number of codes of each sign that R98 lists as special. -/
def Fmt.specials (f : Fmt) : Nat :=
  match f.special with
  | .none => 0
  | .e4m3 => 1
  | .ieee => 2 ^ f.mbits

/-- The special codes are those above the largest finite one, and there is an exponent field. -/
structure Fmt.Regular (f : Fmt) : Prop where
  ebits_pos : 0 < f.ebits
  maxCode_add : f.maxCode + 1 + f.specials = 2 ^ (f.ebits + f.mbits)

theorem Fmt.regular_of_mem {f : Fmt} (hf : f ∈ [fp4, fp6e2, fp6e3, fp8e4, fp8e5, fp16, bf16, fp32]) : f.Regular := by
  have hall : ∀ g ∈ [fp4, fp6e2, fp6e3, fp8e4, fp8e5, fp16, bf16, fp32],
      0 < g.ebits ∧ g.maxCode + 1 + g.specials = 2 ^ (g.ebits + g.mbits) := by decide
  obtain ⟨hpos, hmax⟩ := hall f hf
  exact ⟨hpos, hmax⟩

/-- The exponent field of a code. -/
def Fmt.expField (f : Fmt) (w : Nat) : Nat := bits w (f.ebits + f.mbits - 1) f.mbits

/-- A code without its sign, put together from exponent and mantissa. -/
def Fmt.magCode (f : Fmt) (e m : Nat) : Nat := m + e * 2 ^ f.mbits

/-- An infinity's code without sign has the top exponent and mantissa 0. -/
theorem Fmt.magCode_inf (f : Fmt) : f.magCode (2 ^ f.ebits - 1) 0 = 2 ^ (f.ebits + f.mbits) - 2 ^ f.mbits := by
  rw [Fmt.magCode, Nat.sub_mul, Nat.pow_add, Nat.one_mul, Nat.zero_add]

section
variable {f : Fmt} (hf : f.Regular)
include hf

theorem Fmt.Regular.expField_eq (w : Nat) : f.expField w = w / 2 ^ f.mbits % 2 ^ f.ebits := by
  have hwidth : f.ebits + f.mbits - 1 + 1 - f.mbits = f.ebits := by have := hf.ebits_pos; omega
  rw [Fmt.expField, bits, hwidth, Nat.shiftRight_eq_div_pow]

theorem Fmt.Regular.expField_lt (w : Nat) : f.expField w < 2 ^ f.ebits :=
  hf.expField_eq w ▸ Nat.mod_lt _ (Nat.two_pow_pos _)

theorem Fmt.Regular.magCode_fields (w : Nat) : f.magCode (f.expField w) (w % 2 ^ f.mbits) = w % 2 ^ (f.ebits + f.mbits) := by
  rw [Fmt.magCode, hf.expField_eq, Nat.mul_comm, Nat.add_comm f.ebits, Nat.pow_add, Nat.mod_mul]

/-- A code is its three fields put together. -/
theorem Fmt.Regular.signCode_fields {w : Nat} (hw : w < 2 ^ f.width) :
    signCode f (bit w (f.ebits + f.mbits)) (f.magCode (f.expField w) (w % 2 ^ f.mbits)) = w := by
  rw [hf.magCode_fields, signCode, bit]
  by_cases hneg : 2 ^ (f.ebits + f.mbits) ≤ w
  · have hlt : w < 2 ^ (f.ebits + f.mbits + 1) := by rwa [Fmt.width, Nat.add_assoc, Nat.add_comm 1] at hw
    rw [Nat.testBit_of_two_pow_le_and_two_pow_add_one_gt hneg hlt, if_pos rfl, Nat.mod_eq_sub_mod hneg,
      Nat.mod_eq_of_lt (by rw [Nat.pow_succ] at hlt; omega)]
    omega
  · have hlt := Nat.not_le.1 hneg
    rw [Nat.testBit_lt_two_pow hlt, Nat.mod_eq_of_lt hlt]
    simp

/-- A code without sign that is not special is no larger than the largest finite one. -/
theorem Fmt.Regular.magCode_le_maxCode {e m : Nat} (he : e < 2 ^ f.ebits) (hm : m < 2 ^ f.mbits)
    (hieee : ¬ (f.special = .ieee ∧ e = 2 ^ f.ebits - 1))
    (he4m3 : ¬ (f.special = .e4m3 ∧ e = 2 ^ f.ebits - 1 ∧ m = 2 ^ f.mbits - 1)) : f.magCode e m ≤ f.maxCode := by
  have hmax := hf.maxCode_add
  have hrows : (e + 1) * 2 ^ f.mbits ≤ 2 ^ f.ebits * 2 ^ f.mbits := Nat.mul_le_mul_right _ he
  rw [Nat.succ_mul] at hrows
  rw [Nat.pow_add] at hmax
  cases hsp : f.special with
  | none =>
    simp only [Fmt.specials, hsp] at hmax
    simp only [Fmt.magCode]; omega
  | e4m3 =>
    simp only [Fmt.specials, hsp] at hmax
    by_cases htop : e = 2 ^ f.ebits - 1
    · have hm' : m ≠ 2 ^ f.mbits - 1 := fun h => he4m3 ⟨hsp, htop, h⟩
      simp only [Fmt.magCode]; omega
    · have hbelow : (e + 2) * 2 ^ f.mbits ≤ 2 ^ f.ebits * 2 ^ f.mbits := Nat.mul_le_mul_right _ (by omega)
      rw [Nat.add_mul] at hbelow
      simp only [Fmt.magCode]; omega
  | ieee =>
    simp only [Fmt.specials, hsp] at hmax
    have hbelow : (e + 2) * 2 ^ f.mbits ≤ 2 ^ f.ebits * 2 ^ f.mbits :=
      Nat.mul_le_mul_right _ (by have : e ≠ 2 ^ f.ebits - 1 := fun h => hieee ⟨hsp, h⟩; omega)
    rw [Nat.add_mul] at hbelow
    simp only [Fmt.magCode]; omega

/-- What a code can stand for: an infinity, a NaN, a value with exponent field 0, or a normal value. -/
theorem Fmt.Regular.decodeNum_cases (w : Nat) :
    (f.special = .ieee ∧ f.expField w = 2 ^ f.ebits - 1 ∧ w % 2 ^ f.mbits = 0 ∧
      decodeNum f w = .inf (bit w (f.ebits + f.mbits))) ∨
    decodeNum f w = .nan ∨
    f.magCode (f.expField w) (w % 2 ^ f.mbits) ≤ f.maxCode ∧
      (f.expField w = 0 ∧
        decodeNum f w = .fin (bit w (f.ebits + f.mbits)) (w % 2 ^ f.mbits) (1 - (f.bias : Int) - f.mbits) ∨
      f.expField w ≠ 0 ∧
        decodeNum f w = .fin (bit w (f.ebits + f.mbits)) (2 ^ f.mbits + w % 2 ^ f.mbits) ((f.expField w : Int) - f.bias - f.mbits)) := by
  generalize hdec : decodeNum f w = v
  rw [decodeNum, ← Fmt.expField] at hdec
  by_cases hieee : f.special = .ieee ∧ f.expField w = 2 ^ f.ebits - 1
  · rw [if_pos hieee] at hdec
    by_cases hm : w % 2 ^ f.mbits = 0
    · exact .inl ⟨hieee.1, hieee.2, hm, hdec.symm.trans (if_pos hm)⟩
    · exact .inr (.inl (hdec.symm.trans (if_neg hm)))
  rw [if_neg hieee] at hdec
  by_cases he4m3 : f.special = .e4m3 ∧ f.expField w = 2 ^ f.ebits - 1 ∧ w % 2 ^ f.mbits = 2 ^ f.mbits - 1
  · exact .inr (.inl (hdec.symm.trans (if_pos he4m3)))
  rw [if_neg he4m3] at hdec
  refine .inr (.inr ⟨hf.magCode_le_maxCode (hf.expField_lt w) (Nat.mod_lt _ (Nat.two_pow_pos _)) hieee he4m3, ?_⟩)
  by_cases he : f.expField w = 0
  · exact .inl ⟨he, hdec.symm.trans (if_pos he)⟩
  · exact .inr ⟨he, hdec.symm.trans (if_neg he)⟩

end

/-! ### Values that a format holds exactly (R100) -/

theorem rneShift_zero (m : Nat) : rneShift m 0 = m := by simp [rneShift]

/-- A magnitude whose last mantissa bit already has the weight 2^e is not rounded: its code is the mantissa above as many whole rows of
the exponent field as the exponent lies above the least. -/
theorem roundMag_exact {f : Fmt} {m n : Nat} {e : Int} (hm : m ≠ 0)
    (hex : max ((Nat.log2 m : Int) + e) (1 - (f.bias : Int)) = e + f.mbits) (hn : e + f.mbits = 1 - (f.bias : Int) + n)
    (hmax : f.magCode n m ≤ f.maxCode) : roundMag f m e = ⟨f.magCode n m, false⟩ := by
  have hshift : e - (e + f.mbits - f.mbits) = 0 := by omega
  have hrows : (1 - (f.bias : Int) + n - (1 - (f.bias : Int))).toNat = n := by omega
  simp only [roundMag, if_neg hm, hex, hshift, rneShift_zero]
  rw [hn, hrows, ← Fmt.magCode, if_neg (Nat.not_lt.2 hmax)]

theorem roundMag_subnormal {f : Fmt} {m : Nat} (hm : m < 2 ^ f.mbits) (hmax : f.magCode 0 m ≤ f.maxCode) :
    roundMag f m (1 - (f.bias : Int) - f.mbits) = ⟨f.magCode 0 m, false⟩ := by
  by_cases hzero : m = 0
  · simp [roundMag, Fmt.magCode, hzero]
  · have hlog : Nat.log2 m < f.mbits := (Nat.log2_lt hzero).2 hm
    exact roundMag_exact hzero (by omega) (by omega) hmax

theorem roundMag_normal {f : Fmt} {e m : Nat} (he : e ≠ 0) (hm : m < 2 ^ f.mbits) (hmax : f.magCode e m ≤ f.maxCode) :
    roundMag f (2 ^ f.mbits + m) ((e : Int) - f.bias - f.mbits) = ⟨f.magCode e m, false⟩ := by
  obtain ⟨n, rfl⟩ := Nat.exists_eq_succ_of_ne_zero he
  have hpos := Nat.two_pow_pos f.mbits
  have hlog : Nat.log2 (2 ^ f.mbits + m) = f.mbits :=
    (Nat.log2_eq_iff (by omega)).2 ⟨by omega, by rw [Nat.pow_succ]; omega⟩
  have hcode : f.magCode (n + 1) m = f.magCode n (2 ^ f.mbits + m) := by
    simp only [Fmt.magCode, Nat.succ_mul]; omega
  rw [Nat.succ_eq_add_one, hcode] at hmax ⊢
  exact roundMag_exact (by omega) (by rw [hlog]; omega) (by omega) hmax

theorem encodeNum_fin_of_roundMag {f : Fmt} {m c : Nat} {e : Int} {ovf : Bool} (h : roundMag f m e = ⟨c, ovf⟩) (neg : Bool) :
    encodeNum f (.fin neg m e) = if c = 0 then 0 else signCode f neg c := by
  rw [encodeNum, h]

end Sys2Proof.Machine

/-! OBLIGATION O17. The round trip of the element formats. -/

namespace Sys2Proof.Machine

/-- Settles O17: by what the code stands for; a finite value is rounded to the very code it came from, and only a zero loses its
sign. -/
theorem formatsRoundTrip : Obligations.FormatsRoundTrip := by
  unfold Obligations.FormatsRoundTrip
  intro f hmem w hw
  have hf := Fmt.regular_of_mem hmem
  have hjoin := hf.signCode_fields hw
  have hm : w % 2 ^ f.mbits < 2 ^ f.mbits := Nat.mod_lt _ (Nat.two_pow_pos _)
  rcases hf.decodeNum_cases w with ⟨hsp, htop, hzero, hdec⟩ | hdec | ⟨hmax, ⟨he, hdec⟩ | ⟨he, hdec⟩⟩
  · rw [hdec, encodeNum, if_pos hsp, ← f.magCode_inf, ← htop, ← hzero, hjoin]
    simp [Num.isNan, Num.isZero]
  · simp [hdec, encodeNum, Num.isNan]
  · rw [he] at hmax hjoin
    rw [hdec, encodeNum_fin_of_roundMag (roundMag_subnormal hm hmax), hjoin]
    simp [Num.isNan, Num.isZero, Fmt.magCode]
  · have hcode : f.magCode (f.expField w) (w % 2 ^ f.mbits) ≠ 0 := by simp [Fmt.magCode, he]
    rw [hdec, encodeNum_fin_of_roundMag (roundMag_normal he hm hmax), if_neg hcode, hjoin]
    simp [Num.isNan, Num.isZero]

end Sys2Proof.Machine

/-! SUPPORT. FP32 sums and products (R100, R130, R142): a rounded result is that of the exact value, however the model writes the value
as an integer times a power of two. -/

namespace Sys2Proof.Machine

/-! ### Rounding sees the exact value only (R100) -/

theorem rneShift_double (m : Nat) (s : Int) : rneShift (m * 2) (s - 1) = rneShift m s := by
  obtain hs | rfl | hs : 0 < s ∨ s = 0 ∨ s < 0 := by omega
  · have hsucc : s.toNat = (s - 1).toNat + 1 := by omega
    rw [rneShift, rneShift, if_pos (by omega), if_pos (by omega), hsucc, Nat.pow_succ', Nat.mul_assoc]
  · simp [rneShift]
  · have hsucc : (-(s - 1)).toNat = (-s).toNat + 1 := by omega
    have hlt : ∀ a b : Nat, a * 2 < b * 2 ↔ a < b := by omega
    simp only [rneShift, if_neg (show ¬ 0 ≤ s - 1 by omega), if_neg (show ¬ 0 ≤ s by omega), hsucc, Nat.pow_succ,
      Nat.mul_div_mul_right _ _ Nat.two_pos, Nat.mul_mod_mul_right, ← Nat.mul_assoc, hlt]

theorem roundMag_double (f : Fmt) (m : Nat) (e : Int) : roundMag f (m * 2) (e - 1) = roundMag f m e := by
  by_cases hm : m = 0
  · simp [roundMag, hm]
  · have hlog : Nat.log2 (m * 2) = Nat.log2 m + 1 := by
      rw [Nat.log2_eq_log_two, Nat.log2_eq_log_two, Nat.log_mul_base (by decide) hm]
    have htop : ((Nat.log2 (m * 2) : Nat) : Int) + (e - 1) = Nat.log2 m + e := by omega
    have hshift : ∀ w : Int, e - 1 - w = e - w - 1 := by omega
    simp only [roundMag, htop, hshift, rneShift_double, if_neg hm, if_neg (show ¬ m * 2 = 0 by omega)]

theorem Dy.to32_double (m e : Int) : Dy.to32 ⟨m * 2, e - 1⟩ = Dy.to32 ⟨m, e⟩ := by
  have hneg : m * 2 < 0 ↔ m < 0 := by omega
  have habs : (m * 2).natAbs = m.natAbs * 2 := Int.natAbs_mul m 2
  simp only [Dy.to32, encodeNum, hneg, habs, roundMag_double]

theorem Dy.to32_mul_two_pow (m e : Int) (k : Nat) : Dy.to32 ⟨m * 2 ^ k, e - k⟩ = Dy.to32 ⟨m, e⟩ := by
  induction k with
  | zero => simp
  | succ k ih =>
    rw [← ih, ← Dy.to32_double (m * 2 ^ k), Int.pow_succ, Int.mul_assoc, Nat.cast_succ, Int.sub_sub]

/-- The rational number that a dyadic number stands for. -/
def Dy.val (d : Dy) : ℚ := d.m * 2 ^ d.e

theorem two_pow_toNat_mul {i j : Int} (h : i ≤ j) : (2 : ℚ) ^ (j - i).toNat * 2 ^ i = 2 ^ j := by
  rw [← zpow_natCast, Int.toNat_of_nonneg (by omega), ← zpow_add₀ (by norm_num), sub_add_cancel]

theorem Dy.val_add (a b : Dy) : (a.add b).val = a.val + b.val := by
  by_cases h : a.e ≤ b.e
  · simp only [Dy.add, if_pos h, Dy.val, ← two_pow_toNat_mul h]
    push_cast; ring
  · simp only [Dy.add, if_neg h, Dy.val, ← two_pow_toNat_mul (Int.not_le.1 h).le]
    push_cast; ring

theorem Dy.val_mul (a b : Dy) : (a.mul b).val = a.val * b.val := by
  simp only [Dy.mul, Dy.val, zpow_add₀ (two_ne_zero' ℚ)]
  push_cast; ring

theorem Dy.val_eq_zero {d : Dy} : d.val = 0 ↔ d.m = 0 := by
  simp [Dy.val, zpow_ne_zero]

/-- Of two ways to write a value, the one with the lower exponent has a larger power of two in its integer. -/
theorem Dy.to32_eq_of_le {a b : Dy} (hval : a.val = b.val) (h : a.e ≤ b.e) : a.to32 = b.to32 := by
  have hm : a.m = b.m * 2 ^ (b.e - a.e).toNat := by
    rw [Dy.val, Dy.val, ← two_pow_toNat_mul h, ← mul_assoc] at hval
    exact_mod_cast mul_right_cancel₀ (zpow_ne_zero _ two_ne_zero) hval
  have he : a.e = b.e - (b.e - a.e).toNat := by omega
  calc a.to32 = Dy.to32 ⟨b.m * 2 ^ (b.e - a.e).toNat, b.e - (b.e - a.e).toNat⟩ := by rw [← hm, ← he]
    _ = b.to32 := Dy.to32_mul_two_pow ..

theorem Dy.to32_congr {a b : Dy} (hval : a.val = b.val) : a.to32 = b.to32 :=
  (Int.le_total a.e b.e).elim (Dy.to32_eq_of_le hval) fun h => (Dy.to32_eq_of_le hval.symm h).symm

/-! ### The order of the operands (R130) -/

theorem Dy.mul_comm (a b : Dy) : a.mul b = b.mul a := by
  rw [Dy.mul, Dy.mul, Int.mul_comm, Int.add_comm]

theorem fmul32_comm (x y : Nat) : fmul32 x y = fmul32 y x := by
  simp only [fmul32, Bool.or_comm, Bool.and_comm, bne_comm, Dy.mul_comm]

theorem fma32_comm (x y z : Nat) : fma32 x y z = fma32 y x z := by
  simp only [fma32, Bool.or_comm, Bool.and_comm, bne_comm, Dy.mul_comm]

theorem dec32_one32 : dec32 one32 = .fin false (2 ^ 23) (-23) := by decide

/-- The exact sum that FADD rounds: its first operand comes in as the product with 1. -/
def exactSum (x y : Nat) : Dy := ((dec32 x).dy.mul (dec32 one32).dy).add (dec32 y).dy

theorem val_exactSum (x y : Nat) : (exactSum x y).val = (dec32 x).dy.val + (dec32 y).dy.val := by
  have hone : (dec32 one32).dy.val = 1 := by rw [dec32_one32, Num.dy, Dy.val]; norm_num
  rw [exactSum, Dy.val_add, Dy.val_mul, hone, mul_one]

theorem val_exactSum_comm (x y : Nat) : (exactSum x y).val = (exactSum y x).val := by
  rw [val_exactSum, val_exactSum, add_comm]

/-- FADD by its operands (R130): NaN, infinities, a zero sum, which is -0 for two negative zeros only, and the rest. -/
theorem fadd32_eq (x y : Nat) : fadd32 x y =
    if (dec32 x).isNan || (dec32 y).isNan then nan32
    else if (dec32 x).isInf then (if (dec32 y).isInf && (dec32 y).neg ≠ (dec32 x).neg then nan32 else inf32 (dec32 x).neg)
    else if (dec32 y).isInf then inf32 (dec32 y).neg
    else if (exactSum x y).m = 0 then zero32c ((dec32 x).isZero && (dec32 y).isZero && (dec32 x).neg && (dec32 y).neg)
    else (exactSum x y).to32 := by
  have hnan : (dec32 one32).isNan = false := congrArg Num.isNan dec32_one32
  have hinf : (dec32 one32).isInf = false := congrArg Num.isInf dec32_one32
  have hzero : (dec32 one32).isZero = false := congrArg Num.isZero dec32_one32
  have hneg : (dec32 one32).neg = false := congrArg Num.neg dec32_one32
  simp only [fadd32, fma32, hnan, hinf, hzero, hneg, Bool.or_false, Bool.and_false, Bool.bne_false, Bool.false_eq_true, if_false]
  rfl

theorem fadd32_comm (x y : Nat) : fadd32 x y = fadd32 y x := by
  have hzero : (exactSum x y).m = 0 ↔ (exactSum y x).m = 0 := by
    rw [← Dy.val_eq_zero, ← Dy.val_eq_zero, val_exactSum_comm]
  have hsign : ((dec32 x).isZero && (dec32 y).isZero && (dec32 x).neg && (dec32 y).neg) =
      ((dec32 y).isZero && (dec32 x).isZero && (dec32 y).neg && (dec32 x).neg) := by
    rw [Bool.and_right_comm, Bool.and_comm (dec32 x).isZero]
  rw [fadd32_eq, fadd32_eq y, Bool.or_comm, Dy.to32_congr (val_exactSum_comm x y), if_congr hzero rfl rfl, hsign]
  cases (dec32 x).isInf <;> cases (dec32 y).isInf
  case true.true =>
    by_cases hneg : (dec32 x).neg = (dec32 y).neg
    · simp [hneg]
    · simp [hneg, Ne.symm hneg]
  all_goals simp

/-! ### NaN operands (R130, R142) -/

section
variable {x : Nat} (hx : (dec32 x).isNan = true) (y z : Nat)
include hx

theorem fma32_of_isNan : fma32 x y z = nan32 := by
  simp [fma32, hx]

theorem fma32_of_isNan_addend : fma32 y z x = nan32 := by
  simp [fma32, hx]

theorem fmul32_of_isNan : fmul32 x y = nan32 := by
  simp [fmul32, hx]

theorem fdiv32_of_isNan : fdiv32 x y = nan32 := by
  simp [fdiv32, hx]

theorem fdiv32_of_isNan_divisor : fdiv32 y x = nan32 := by
  simp [fdiv32, hx]

end

end Sys2Proof.Machine

/-! OBLIGATION O18. The order of the operands, and NaN operands. -/

namespace Sys2Proof.Machine

/-- Settles O18: a product does not see the order of its factors, nor a rounded sum how its exact value is written; a NaN is asked for
before anything else. -/
theorem floatOperationsCommute : Obligations.FloatOperationsCommute := by
  unfold Obligations.FloatOperationsCommute
  exact fun x y z => ⟨fadd32_comm x y, fmul32_comm x y, fma32_comm x y z, fun hx => ⟨fma32_of_isNan hx _ _, fma32_of_isNan hx _ _,
    fmul32_of_isNan hx y, fma32_of_isNan hx y z, fma32_of_isNan_addend hx y z, fdiv32_of_isNan hx y, fdiv32_of_isNan_divisor hx y⟩⟩

end Sys2Proof.Machine

/-! SUPPORT. Integer lanes (R132): a lane's number is that of a bit vector of 32 bits. -/

namespace Sys2Proof.Machine

/-! ### A lane as a two's-complement number (R132) -/

theorem s32_toNat (x : BitVec 32) : s32 x.toNat = x.toInt := by
  rw [BitVec.toInt_eq_toNat_cond, s32, signed, Nat.mod_eq_of_lt x.isLt, if_neg (by decide)]
  exact if_congr (by omega) rfl rfl

theorem u32_of_toInt_eq {v : BitVec 32} {i : Int} (h : v.toInt = i) : u32 i = v.toNat := by
  rw [← BitVec.ofInt_toInt (x := v), h, BitVec.toNat_ofInt, u32, unsigned]

/-- The most negative number, as the code that IDIV tests for. -/
theorem toInt_eq_min_iff {x : BitVec 32} : x.toInt = -2147483648 ↔ x.toNat = 0x80000000 := by
  rw [BitVec.toInt_eq_toNat_cond]
  split <;> omega

theorem toInt_eq_neg_one_iff {x : BitVec 32} : x.toInt = -1 ↔ x.toNat = 0xFFFFFFFF := by
  have hx := x.isLt
  rw [BitVec.toInt_eq_toNat_cond]
  split <;> omega

/-! ### Differences, minima and shifts -/

section
variable (x y : BitVec 32) (z : Nat)

theorem laneOp_isub : (laneOp 0x431 x.toNat y.toNat z).v = (x - y).toNat := by
  change (x.toNat + 2 ^ 32 - y.toNat) % 2 ^ 32 = _
  rw [BitVec.toNat_sub, Nat.add_comm, Nat.sub_add_comm y.isLt.le]

theorem laneOp_imin : (BitVec.ofNat 32 (laneOp 0x434 x.toNat y.toNat z).v).toInt = min x.toInt y.toInt := by
  change (BitVec.ofNat 32 (if s32 x.toNat ≤ s32 y.toNat then x.toNat else y.toNat)).toInt = _
  rw [← apply_ite BitVec.toNat, BitVec.ofNat_toNat, BitVec.setWidth_eq, apply_ite BitVec.toInt, s32_toNat, s32_toNat]
  exact (min_def _ _).symm

theorem laneOp_imax : (BitVec.ofNat 32 (laneOp 0x435 x.toNat y.toNat z).v).toInt = max x.toInt y.toInt := by
  change (BitVec.ofNat 32 (if s32 x.toNat ≤ s32 y.toNat then y.toNat else x.toNat)).toInt = _
  rw [← apply_ite BitVec.toNat, BitVec.ofNat_toNat, BitVec.setWidth_eq, apply_ite BitVec.toInt, s32_toNat, s32_toNat]
  exact (max_def _ _).symm

theorem laneOp_shl : (laneOp 0x439 x.toNat y.toNat z).v = (x <<< (y.toNat % 32)).toNat := by
  rw [BitVec.toNat_shiftLeft, Nat.shiftLeft_eq]
  rfl

theorem laneOp_shr : (laneOp 0x43A x.toNat y.toNat z).v = (x >>> (y.toNat % 32)).toNat := by
  rw [BitVec.toNat_ushiftRight, Nat.shiftRight_eq_div_pow]
  rfl

theorem laneOp_sra : (laneOp 0x43B x.toNat y.toNat z).v = (x.sshiftRight (y.toNat % 32)).toNat :=
  u32_of_toInt_eq (by rw [BitVec.toInt_sshiftRight, Int.shiftRight_eq_div_pow, s32_toNat])

/-! ### Division -/

theorem idiv32_zero : idiv32 x.toNat 0 = if x.toInt < 0 then 0x80000000 else 0x7FFFFFFF := by
  rw [idiv32, if_pos rfl, s32_toNat]

variable {x y}

theorem idiv32_overflow (hx : x.toInt = -2147483648) (hy : y.toInt = -1) : idiv32 x.toNat y.toNat = 0x7FFFFFFF := by
  rw [toInt_eq_min_iff.1 hx, toInt_eq_neg_one_iff.1 hy]
  rfl

theorem irem32_overflow (hx : x.toInt = -2147483648) (hy : y.toInt = -1) : irem32 x.toNat y.toNat = 0 := by
  rw [toInt_eq_min_iff.1 hx, toInt_eq_neg_one_iff.1 hy]
  rfl

theorem idiv32_toNat (hy : y.toNat ≠ 0) (hover : ¬ (x.toInt = -2147483648 ∧ y.toInt = -1)) :
    idiv32 x.toNat y.toNat = (x.sdiv y).toNat := by
  have hne : x ≠ BitVec.intMin 32 ∨ y ≠ -1#32 := by
    rw [← not_and_or]
    rintro ⟨rfl, rfl⟩
    exact hover ⟨by decide, by decide⟩
  rw [toInt_eq_min_iff, toInt_eq_neg_one_iff] at hover
  rw [idiv32, if_neg hy, if_neg hover, s32_toNat, s32_toNat]
  exact u32_of_toInt_eq (BitVec.toInt_sdiv_of_ne_or_ne x y hne)

theorem irem32_toNat (hy : y.toNat ≠ 0) : irem32 x.toNat y.toNat = (x.srem y).toNat := by
  rw [irem32, if_neg hy, s32_toNat, s32_toNat]
  exact u32_of_toInt_eq (BitVec.toInt_srem x y)

end

end Sys2Proof.Machine

/-! OBLIGATION O19. The integer operations of a lane. -/

namespace Sys2Proof.Machine

/-- Settles O19: each lane operation is the bit vector operation of its name; for the signed ones, by reading both as integers. -/
theorem integerLanes : Obligations.IntegerLanes := by
  unfold Obligations.IntegerLanes
  intro x y z
  have hzero : y.toNat = 0 ↔ y = 0 := BitVec.toNat_inj (y := 0)
  refine ⟨(BitVec.toNat_add x y).symm, laneOp_isub x y z, (BitVec.toNat_mul x y).symm, Nat.div_add_mod' _ _, laneOp_imin x y z,
    laneOp_imax x y z, (BitVec.toNat_and ..).symm, (BitVec.toNat_or ..).symm, (BitVec.toNat_xor ..).symm, laneOp_shl x y z,
    laneOp_shr x y z, laneOp_sra x y z, ?_, fun hx hy => ⟨idiv32_overflow hx hy, irem32_overflow hx hy⟩, fun hy hover => ?_,
    decide_eq_true_iff.trans hzero⟩
  · rintro rfl
    exact ⟨idiv32_zero x, rfl, rfl, rfl⟩
  · have hne := mt hzero.1 hy
    exact ⟨idiv32_toNat hne hover, irem32_toNat hne, if_neg hne, if_neg hne⟩

end Sys2Proof.Machine

/-! SUPPORT. Banks of a loft: what a change of one bank leaves alone, and what a bank that goes OFF leaves of its blocks (R162). -/

namespace Sys2Proof.Machine

/-! ### One bank changes -/

section
variable (s : State) (n k : Nat) (f : BankSt → BankSt)

@[simp] theorem State.bank_updBank_same : (s.updBank n k f).bank n k = f (s.bank n k) := by
  rw [State.bank, State.updBank, State.updLoft_same]
  exact Tab.get_upd_same ..

theorem State.bank_updBank_other {m : Nat} (h : m ≠ k) : (s.updBank n k f).bank n m = s.bank n m := by
  rw [State.bank, State.updBank, State.updLoft_same]
  exact Tab.get_upd_other _ _ h

end

@[simp] theorem State.bank_fwrap (s : State) (g : Fld) (v n m : Nat) : (s.fwrap g v).bank n m = s.bank n m := by
  rw [State.bank, State.fwrap, State.fset, State.setReg_to_loft, State.bank]

/-! ### A bank goes OFF (R162) -/

/-- What a table reads at a key depends on the unlisted value of that key alone. -/
theorem Tab.get_congr_default {α : Type} {d d' : Nat → α} (t : Tab α) {k : Nat} (h : d k = d' k) : Tab.get d t k = Tab.get d' t k := by
  induction t with
  | nil => exact h
  | cons x t ih => simp only [Tab.get, ih]

/-- The loft after a bank has gone OFF: the bank will have woken since, and none of its blocks is listed. -/
def Loft.bankOff (k : Nat) (l : Loft) : Loft :=
  { l with
    blocks := l.blocks.filter (fun e => blkBank e.1 ≠ k)
    banks := Tab.upd BankSt.zeroF l.banks k (fun x => { x with st := 2, woken := true }) }

section
variable (l : Loft) {k blk : Nat}

theorem Loft.banks_bankOff : (l.bankOff k).banks = Tab.upd BankSt.zeroF l.banks k (fun x => { x with st := 2, woken := true }) := rfl

theorem Loft.block_bankOff_same (h : blkBank blk = k) : (l.bankOff k).block blk = ⟨0, true⟩ := by
  have hdflt : (l.bankOff k).dflt blk = ⟨0, true⟩ := by rw [Loft.dflt, h, Loft.banks_bankOff, Tab.get_upd_same]
  have hout := Tab.get_filter (fun n => decide (blkBank n ≠ k)) (l.bankOff k).dflt l.blocks blk
  rw [if_neg (by simpa using h), hdflt] at hout
  exact hout

theorem Loft.block_bankOff_other (h : blkBank blk ≠ k) : (l.bankOff k).block blk = l.block blk := by
  have hdflt : (l.bankOff k).dflt blk = l.dflt blk := by
    rw [Loft.dflt, Loft.dflt, Loft.banks_bankOff, Tab.get_upd_other _ _ h]
  have hkept := Tab.get_filter (fun n => decide (blkBank n ≠ k)) (l.bankOff k).dflt l.blocks blk
  rw [if_pos (decide_eq_true h)] at hkept
  exact hkept.trans (Tab.get_congr_default l.blocks hdflt)

end

/-- An LFT.PWR of a stall that waits for the bank waits for it no longer, and is complete in this beat (R163). -/
def State.pwrSees (b bank : Nat) (s : State) (k : Nat) : State :=
  if ((s.stall (48 * b + k)).flying 5).any (fun f => f.waits.contains bank) then
    s.updStall (48 * b + k) (fun t => { t with flights := t.flights.map (fun f =>
      if f.waits.contains bank then { f with waits := f.waits.filter (· ≠ bank), done := s.beat b } else f) })
  else s

theorem State.foldl_pwrSees_frame (b bank : Nat) (l : List Nat) (s : State) :
    l.foldl (State.pwrSees b bank) s = { s with stalls := (l.foldl (State.pwrSees b bank) s).stalls } := by
  refine foldl_keeps (P := fun t : State => t = { s with stalls := t.stalls }) l rfl fun t k _ ht => ?_
  unfold State.pwrSees
  split
  · rw [State.updStall, ht]
  · exact ht

end Sys2Proof.Machine

/-! OBLIGATION O21. The banks of a loft. -/

namespace Sys2Proof.Machine

section
variable {b : Barn} {bank : Fin 256} {s : State}

theorem exec_bankDrainDone (hclosing : (s.bank b bank).st = 1) (hdrained : (s.bank b bank).writes = 0) :
    exec (.bankDrainDone b bank) s =
      .next ((List.range 48).foldl (State.pwrSees b bank) (s.updLoft b (Loft.bankOff bank))) :=
  if_pos ⟨hclosing, hdrained⟩

theorem bankDrainDone_empties (hclosing : (s.bank b bank).st = 1) (hdrained : (s.bank b bank).writes = 0) :
    Runs (.bankDrainDone b bank) s (fun t =>
      t.bank b bank = { s.bank b bank with st := 2, woken := true } ∧
      (∀ m, m ≠ bank.val → t.bank b m = s.bank b m) ∧
      (∀ blk, blkBank blk = bank.val → (t.loft b).block blk = ⟨0, true⟩) ∧
      (∀ blk, blkBank blk ≠ bank.val → (t.loft b).block blk = (s.loft b).block blk) ∧
      t = { s with lofts := t.lofts, stalls := t.stalls }) := by
  refine ⟨_, exec_bankDrainDone hclosing hdrained, ?_⟩
  have hframe := State.foldl_pwrSees_frame b bank (List.range 48) (s.updLoft b (Loft.bankOff bank))
  generalize (List.range 48).foldl (State.pwrSees b bank) (s.updLoft b (Loft.bankOff bank)) = t at hframe ⊢
  have hloft : t.loft b = (s.loft b).bankOff bank := by
    rw [hframe]
    exact s.updLoft_same b _
  simp only [State.bank, hloft, Loft.banks_bankOff]
  refine ⟨Tab.get_upd_same .., fun m hm => Tab.get_upd_other _ _ hm, fun blk => (s.loft b).block_bankOff_same,
    fun blk => (s.loft b).block_bankOff_other, ?_⟩
  rw [hframe]
  rfl

theorem exec_bankRefresh (hslot : refreshSlot bank (s.loftF b / 2) = true) (hon : (s.bank b bank).st = 0)
    (hheld : s.held b = false) (hnew : (s.bank b bank).lastCyc ≠ s.loftF b / 2 + 1) :
    exec (.bankRefresh b bank) s = .next (s.updBank b bank (fun x =>
      { x with row := (x.row + 1) % 8192, lastRef := s.locNs b, lastCyc := s.loftF b / 2 + 1 })) :=
  if_pos ⟨hslot, hon, by simp [hheld], hnew⟩

theorem exec_timerRefresh (hon : (s.bank b bank).st = 0) (hheld : s.held b = true)
    (hdue : (s.bank b bank).lastRef + 256 ≤ s.locNs b) :
    exec (.timerRefresh b bank) s = .next ((s.updBank b bank (fun x =>
      { x with row := (x.row + 1) % 8192, lastRef := s.locNs b, refEnd := (s.region b).periods + 2 })).fwrap
        (F.LFT_REFRESH_TIMER b) 1) :=
  if_pos ⟨hon, hheld, hdue⟩

theorem bankRefresh_advances (hslot : refreshSlot bank (s.loftF b / 2) = true) (hon : (s.bank b bank).st = 0)
    (hheld : s.held b = false) (hnew : (s.bank b bank).lastCyc ≠ s.loftF b / 2 + 1) :
    Runs (.bankRefresh b bank) s (fun t =>
      t.bank b bank = { s.bank b bank with
        row := ((s.bank b bank).row + 1) % 8192, lastRef := s.locNs b, lastCyc := s.loftF b / 2 + 1 } ∧
      (∀ m, m ≠ bank.val → t.bank b m = s.bank b m) ∧ t = { s with lofts := t.lofts }) :=
  ⟨_, exec_bankRefresh hslot hon hheld hnew, s.bank_updBank_same .., fun _ hm => s.bank_updBank_other _ _ _ hm, rfl⟩

theorem timerRefresh_advances (hon : (s.bank b bank).st = 0) (hheld : s.held b = true)
    (hdue : (s.bank b bank).lastRef + 256 ≤ s.locNs b) :
    Runs (.timerRefresh b bank) s (fun t =>
      t.bank b bank = { s.bank b bank with
        row := ((s.bank b bank).row + 1) % 8192, lastRef := s.locNs b, refEnd := (s.region b).periods + 2 } ∧
      (∀ m, m ≠ bank.val → t.bank b m = s.bank b m) ∧ t.regs = (s.fwrap (F.LFT_REFRESH_TIMER b) 1).regs ∧
      t = { s with lofts := t.lofts, regs := t.regs }) := by
  refine ⟨_, exec_timerRefresh hon hheld hdue, ?_, fun m hm => ?_, rfl, rfl⟩
  · rw [State.bank_fwrap, State.bank_updBank_same]
  · rw [State.bank_fwrap, State.bank_updBank_other _ _ _ _ hm]

end

/-- Settles O21: each row under its condition; a bank's blocks read as poisoned zero once its list is empty (R162). -/
theorem loftBanksComplete : Obligations.LoftBanksComplete := by
  unfold Obligations.LoftBanksComplete
  exact fun b bank s => ⟨bankDrainDone_empties, fun hwaking hbeat => if_pos ⟨hwaking, hbeat⟩, bankRefresh_advances,
    timerRefresh_advances⟩

end Sys2Proof.Machine

/-! SUPPORT. Loft accesses outside the schedule and the repair of blocks (R161, R165 to R171): what taking a bank cycle leaves of a loft, a
clean read, the delivery of a repaired block, and the end of a write-back. -/

namespace Sys2Proof.Machine

/-! ### Places -/

/-- What lies at an address depends on the stall masks alone. -/
theorem State.place_congr {s t : State} (h : t.mask = s.mask) (a : Nat) : t.place a = s.place a := by
  have hcount (b : Nat) : t.stallCount b = s.stallCount b := by rw [State.stallCount, State.goodMask, h]; rfl
  unfold State.place
  simp only [hcount]

theorem State.failAt_congr {s t : State} (hmask : t.mask = s.mask) (hlofts : t.lofts = s.lofts) (a : Nat) : t.failAt a = s.failAt a := by
  have hloft (n : Nat) : t.loft n = s.loft n := congrArg (fun l => Tab.get Loft.zeroF l n) hlofts
  unfold State.failAt
  rw [State.place_congr hmask]
  split
  · rw [hloft]
  · rfl

/-! ### A bank cycle and the bond (R9, R161) -/

/-- The lofts differ in the notes of bank cycles and bond bytes only. -/
def State.Charged (s t : State) : Prop := ∀ n, ∃ uses bondUns, t.loft n = { s.loft n with uses := uses, bondUns := bondUns }

theorem State.Charged.updLoft {s t : State} (h : s.Charged t) (n : Nat) {f : Loft → Loft}
    (hf : ∀ l, ∃ uses bondUns, f l = { l with uses := uses, bondUns := bondUns }) : s.Charged (t.updLoft n f) := by
  intro m
  obtain ⟨uses, bondUns, hm⟩ := h m
  by_cases hmn : m = n
  · subst hmn
    obtain ⟨uses', bondUns', hfm⟩ := hf (t.loft m)
    exact ⟨uses', bondUns', by rw [State.updLoft_same, hfm, hm]⟩
  · exact ⟨uses, bondUns, (t.updLoft_other f hmn).trans hm⟩

theorem State.charged_takeLoft (s : State) (n bank : Nat) : s.Charged (s.takeLoft n bank) :=
  State.Charged.updLoft (fun _ => ⟨_, _, rfl⟩) n fun _ => ⟨_, _, rfl⟩

theorem State.charged_bondTake (s : State) (n bank bytes : Nat) : s.Charged ((s.takeLoft n bank).bondTake n bytes) :=
  (s.charged_takeLoft n bank).updLoft n fun _ => ⟨_, _, rfl⟩

section
variable {s t : State} (h : s.Charged t)
include h

theorem State.Charged.bank (n k : Nat) : t.bank n k = s.bank n k := by
  obtain ⟨_, _, h⟩ := h n
  rw [State.bank, h, State.bank]

theorem State.Charged.block (n blk : Nat) : (t.loft n).block blk = (s.loft n).block blk := by
  obtain ⟨_, _, h⟩ := h n
  rw [h]
  rfl

theorem State.Charged.failed (n : Nat) : (t.loft n).failed = (s.loft n).failed := by
  obtain ⟨_, _, h⟩ := h n
  rw [h]

theorem State.Charged.fixes (n : Nat) : (t.loft n).fixes = (s.loft n).fixes := by
  obtain ⟨_, _, h⟩ := h n
  rw [h]

theorem State.Charged.freeSlot (n : Nat) : (t.loft n).freeSlot = (s.loft n).freeSlot := by
  simp only [Loft.freeSlot, Loft.slotsBusy, h.failed]

theorem State.Charged.repairing (id : Nat) : t.repairing id = s.repairing id := by rw [State.repairing, h.failed, State.repairing]

end

/-- A read without check errors of a block that no repair concerns finds what the block holds. -/
theorem State.loftRead_clean {s : State} {n blk : Nat} (hon : (s.bank n (blkBank blk)).st = 0)
    (hwhole : s.repairing (srcId n blk) = false) (job : Option Nat) :
    s.loftRead n blk job (eccOf .clean blk) = ((s.loft n).block blk, none, s) := by
  rw [State.loftRead, if_neg (not_not.2 hon), hwhole]
  exact ite_self _

/-! ### The delivery of a block (R166, R168) -/

theorem State.loft_giveBlock (s : State) (id : Nat) (v : BlockVal) (n : Nat) :
    ∃ eng, (s.giveBlock id v).loft n = { s.loft n with eng := eng } := by
  let t : State := { s with acts := s.acts.map (Act.give id v) }
  let f (l : Loft) : Loft := { l with eng := l.eng.map (fun e => (e.1, e.2.give id v)) }
  have hgive : (s.giveBlock id v).loft n = (t.updLoft (id / 0x800000) f).loft n := rfl
  by_cases hn : n = id / 0x800000
  · rw [hgive, hn, State.updLoft_same]
    exact ⟨_, rfl⟩
  · rw [hgive, State.updLoft_other _ _ hn]
    exact ⟨_, rfl⟩

theorem State.loft_deliver (s : State) (n : Nat) (f : FailBlk) (v : BlockVal) :
    ∃ eng, (s.deliver n f v).loft n = { s.loft n with eng := eng, failed := (s.loft n).failed.filter (fun x => x.blk ≠ f.blk) } := by
  obtain ⟨eng, hgive⟩ := s.loft_giveBlock (srcId n f.blk) v n
  exact ⟨eng, by rw [State.deliver, State.dropFail, State.updLoft_same, hgive]⟩

/-- The loft takes a re-sent block, with its verified write-back due, unless the block's bank is no longer ON (R162, R166). -/
def Loft.takeResent (on : Prop) [Decidable on] (blk : Nat) (v : BlockVal) (l : Loft) : Loft :=
  if on then { l.setBlock blk v with fixes := l.fixes ++ [(blk, 1)] } else l

section
variable {on : Prop} [Decidable on] (blk : Nat) (v : BlockVal) (l : Loft)

theorem Loft.failed_takeResent : (l.takeResent on blk v).failed = l.failed := by
  unfold Loft.takeResent
  split <;> rfl

variable (h : on)
include h

theorem Loft.block_takeResent : (l.takeResent on blk v).block blk = v := by
  rw [Loft.takeResent, if_pos h]
  exact Tab.get_set_same ..

theorem Loft.fixes_takeResent : (l.takeResent on blk v).fixes = l.fixes ++ [(blk, 1)] := by rw [Loft.takeResent, if_pos h]

end

/-! ### Write-backs (R165, R171) -/

/-- The recoveries that a write-back of a block ends: the correction's and the repair's (R417). -/
def State.fixEnded (s : State) (n blk : Nat) : State := (s.endRecovery 2 n (blkBank blk) blk).endRecovery 3 n (blkBank blk) blk

theorem State.not_mem_fixEnded (s : State) (n blk : Nat) : ∀ r ∈ (s.fixEnded n blk).err.recov,
    ¬ ((r.cls = 2 ∨ r.cls = 3) ∧ r.blk = n ∧ r.inst = blkBank blk ∧ r.tag = blk) := by
  rintro r hr ⟨hcls | hcls, hrest⟩
  · exact s.not_mem_endRecovery 2 n (blkBank blk) blk r (List.mem_of_mem_filter hr) ⟨hcls, hrest⟩
  · exact (s.endRecovery 2 n (blkBank blk) blk).not_mem_endRecovery 3 n (blkBank blk) blk r hr ⟨hcls, hrest⟩

/-- A write-back is done with. -/
def State.dropFix (s : State) (n : Nat) (x : Nat × Nat) : State := s.updLoft n (fun l => { l with fixes := l.fixes.erase x })

/-- A write-back goes on to its next step. -/
def State.moveFix (s : State) (n blk st : Nat) : State :=
  s.updLoft n (fun l => { l with fixes := l.fixes.map (fun x => if x = (blk, st) then (blk, st + 1) else x) })

section
variable {s : State} {n blk st : Nat} {good : Bool}

theorem State.fixStep_ends (h : st = 0 ∨ (s.bank n (blkBank blk)).st ≠ 0 ∨ (st = 2 ∧ good = true)) :
    s.fixStep n blk st good = (s.dropFix n (blk, st)).fixEnded n blk := by
  unfold State.fixStep
  by_cases hend : st = 0 ∨ (s.bank n (blkBank blk)).st ≠ 0
  · exact if_pos hend
  · obtain ⟨rfl, rfl⟩ := (or_assoc.2 h).resolve_left hend
    exact if_neg hend

theorem State.fixStep_moves (hon : (s.bank n (blkBank blk)).st = 0) (h : st = 1 ∨ (3 ≤ st ∧ st < 8)) :
    s.fixStep n blk st good = s.moveFix n blk st := by
  unfold State.fixStep
  have hend : ¬ (st = 0 ∨ (s.bank n (blkBank blk)).st ≠ 0) := by
    rintro (h0 | hoff)
    · omega
    · exact hoff hon
  obtain rfl | ⟨hlow, hhigh⟩ := h
  · exact if_neg hend
  · exact (if_neg hend).trans ((if_neg (by omega)).trans ((if_neg (by omega)).trans (if_pos hhigh)))

theorem State.fixStep_retires (hon : (s.bank n (blkBank blk)).st = 0) :
    s.fixStep n blk 2 false = ((s.dropFix n (blk, 2)).beginRetire n blk (s.barn n).owner).fixEnded n blk :=
  if_neg (by simp [hon])

end

end Sys2Proof.Machine

/-! OBLIGATION O22. Loft accesses, the scrubber, and the repair of failed blocks. -/

namespace Sys2Proof.Machine

/-! ### UNS_LOFT_ACCESS and LOFT_SCRUB (R161) -/

/-- The device after a waiting access has got its bank cycle and its place on the bond, and waits no longer. -/
def State.accessTaken (s : State) (b : Nat) (w : LoftWait) : State :=
  ((s.takeLoft b (blkBank w.blk)).bondTake b 64).updLoft b (fun l => { l with waits := l.waits.erase w })

section
variable {s : State} {b : Barn} {i : Fin 65536} {w : LoftWait} (hw : (s.loft b).waits[i.val]? = some w)
  (hfree : s.loftFree b (blkBank w.blk) = true) (hroom : 64 ≤ s.bondRoom b) (hfirst : s.rereadFirst b (blkBank w.blk) = false)
include hw hfree hroom hfirst

theorem exec_unsLoftAccess_write {bs : List Byte} (hbs : w.wr = some bs) (ecc : EccOutcome) : exec (.unsLoftAccess b i ecc) s =
    .next ((((s.accessTaken b w).updBank b (blkBank w.blk) (fun k => { k with writes := k.writes - 1 })).loftStore b w.blk
      (some w.job) false (byteMask w.off bs.length) (fun v => v.put w.off bs w.poison)).unsDone w.pkt) := by
  change execUnsLoftAccess b i ecc s = _
  rw [execUnsLoftAccess, hw]
  dsimp only
  rw [if_neg (by simp [hfree, hroom, hfirst, hbs]), hbs]
  rfl

theorem exec_unsLoftAccess_read (hrd : w.wr = none) (hwhole : s.repairing (srcId b w.blk) = false)
    (hon : (s.bank b (blkBank w.blk)).st = 0) : exec (.unsLoftAccess b i .clean) s =
    .next ((s.accessTaken b w).serveGot w.pkt w.idx b 0 0
      ⟨BitVec.ofNat 512 (((s.loft b).block w.blk).data.toNat >>> (8 * w.off)), 0, ((s.loft b).block w.blk).poison⟩ false) := by
  have hcharged := s.charged_bondTake b (blkBank w.blk) 64
  have hread := State.loftRead_clean ((congrArg BankSt.st (hcharged.bank b (blkBank w.blk))).trans hon)
    ((hcharged.repairing (srcId b w.blk)).trans hwhole) (some w.job)
  rw [hcharged.block] at hread
  change execUnsLoftAccess b i .clean s = _
  rw [execUnsLoftAccess, hw]
  dsimp only
  rw [if_neg (by simp [hfree, hroom, hfirst, hwhole]), hrd]
  dsimp only
  rw [hread]
  rfl

end

theorem exec_loftScrub {s : State} {b : Barn} {blk : Fin 8388608} (hscrub : s.fget (F.LFT_CTRL_SCRUB b) ≠ 0)
    (hon : (s.bank b (blkBank blk)).st = 0) (hfree : s.loftFree b (blkBank blk) = true)
    (hfirst : s.rereadFirst b (blkBank blk) = false) (ecc : EccOutcome) : exec (.loftScrub b blk ecc) s =
    .next ((s.takeLoft b (blkBank blk)).loftRead b blk (s.barn b).owner (eccOf ecc blk)).2.2 :=
  congrArg Host.Outcome.next (if_neg (by simp [hscrub, hon, hfree, hfirst]))

/-! ### BLOCK_REREAD and RESEND_SLOT_GRANT (R166, R168, R170) -/

section
variable {s : State} {b : Barn} {f : FailBlk}
  (hf : (s.loft b).failed.find? (fun f => f.stage = .reread && s.loftFree b (blkBank f.blk)) = some f)
include hf

theorem exec_blockReread (good : Bool) : exec (.blockReread b good) s = .next (
    let u := s.takeLoft b (blkBank f.blk)
    if (s.bank b (blkBank f.blk)).st ≠ 0 then (u.deliver b f ⟨0, true⟩).loftErr b 0x0307 f.blk (s.blkJob b f) none 0
    else if good then ((u.dropFail b f).updLoft b (fun l => { l with fixes := l.fixes ++ [(f.blk, 1)] })).loftErr b 0x0302 f.blk
      (s.blkJob b f) (some (F.LFT_ERRCNT_REREAD b)) f.blk
    else u.rereadFails b f) := by
  change execBlockReread b good s = _
  rw [execBlockReread, hf]

theorem blockReread_off (good : Bool) (hoff : (s.bank b (blkBank f.blk)).st ≠ 0) : exec (.blockReread b good) s =
    .next (((s.takeLoft b (blkBank f.blk)).deliver b f ⟨0, true⟩).loftErr b 0x0307 f.blk (s.blkJob b f) none 0) :=
  (exec_blockReread hf good).trans (congrArg Host.Outcome.next (if_pos hoff))

section
variable (hon : (s.bank b (blkBank f.blk)).st = 0)
include hon

theorem blockReread_good : exec (.blockReread b true) s =
    .next ((((s.takeLoft b (blkBank f.blk)).dropFail b f).updLoft b (fun l => { l with fixes := l.fixes ++ [(f.blk, 1)] })).loftErr b
      0x0302 f.blk (s.blkJob b f) (some (F.LFT_ERRCNT_REREAD b)) f.blk) :=
  (exec_blockReread hf true).trans (congrArg Host.Outcome.next ((if_neg (not_not.2 hon)).trans (if_pos rfl)))

theorem blockReread_bad : exec (.blockReread b false) s = .next ((s.takeLoft b (blkBank f.blk)).rereadFails b f) :=
  (exec_blockReread hf false).trans (congrArg Host.Outcome.next ((if_neg (not_not.2 hon)).trans (if_neg Bool.false_ne_true)))

theorem blockReread_slot {slot : Nat} (hslot : (s.loft b).freeSlot = some slot) : exec (.blockReread b false) s =
    .next (((s.takeLoft b (blkBank f.blk)).setFail b f { f with slot := some slot }).startResend b { f with slot := some slot }) := by
  rw [blockReread_bad hf hon, State.rereadFails, (s.charged_takeLoft b (blkBank f.blk)).freeSlot, hslot]

theorem blockReread_waits (hslot : (s.loft b).freeSlot = none) : exec (.blockReread b false) s =
    .next (((s.takeLoft b (blkBank f.blk)).setFail b f { f with stage := .wantSlot }).fwrap (F.LFT_RESEND_WAITS b) 1) := by
  rw [blockReread_bad hf hon, State.rereadFails, (s.charged_takeLoft b (blkBank f.blk)).freeSlot, hslot]

end

end

theorem exec_resendSlotGrant {s : State} {b : Barn} {f : FailBlk} {slot : Nat}
    (hf : (s.loft b).failed.find? (fun f => f.stage = .wantSlot) = some f) (hslot : (s.loft b).freeSlot = some slot) :
    exec (.resendSlotGrant b) s =
      .next ((s.setFail b f { f with slot := some slot }).startResend b { f with slot := some slot }) := by
  change execResendSlotGrant b s = _
  rw [execResendSlotGrant, hf, hslot]

/-! ### BLOCK_RESENT (R166, R168) -/

/-- The device after a block that has come back has left the queue, has reached those that wait for it, and stands in its loft. -/
def State.resentTo (s : State) (n : Nat) (f : FailBlk) (x : Nat × List LineVal) : State :=
  (({ s with yok := { s.yok with resent := s.yok.resent.erase x } } : State).deliver n f (blockOf x.2)).updLoft n
    (Loft.takeResent ((s.bank n (blkBank f.blk)).st = 0) f.blk (s.mended n f (blockOf x.2)))

section
variable {s : State} {b : Barn} {f : FailBlk} {x : Nat × List LineVal}

theorem exec_blockResent (hx : s.yok.resent.find? (fun x => x.1 / 0x80000000 = b.val) = some x)
    (hf : s.failAt x.1 = some (b.val, f)) : exec (.blockResent b) s =
      .next ((s.resentTo b f x).loftErr b 0x0303 f.blk (s.blkJob b f) (some (F.LFT_ERRCNT_RESENT b)) f.blk) := by
  have hgone : State.failAt { s with yok := { s.yok with resent := s.yok.resent.erase x } } x.1 = some (b.val, f) :=
    (State.failAt_congr (by rfl) (by rfl) x.1).trans hf
  change execBlockResent b s = _
  rw [execBlockResent, hx]
  dsimp only
  rw [hgone]
  rfl

theorem State.loft_resentTo (s : State) (n : Nat) (f : FailBlk) (x : Nat × List LineVal) : ∃ eng, (s.resentTo n f x).loft n =
    Loft.takeResent ((s.bank n (blkBank f.blk)).st = 0) f.blk (s.mended n f (blockOf x.2))
      { s.loft n with eng := eng, failed := (s.loft n).failed.filter (fun g => g.blk ≠ f.blk) } := by
  obtain ⟨eng, hloft⟩ := State.loft_deliver { s with yok := { s.yok with resent := s.yok.resent.erase x } } n f (blockOf x.2)
  exact ⟨eng, by rw [State.resentTo, State.updLoft_same, hloft]; rfl⟩

theorem blockResent_mends (hx : s.yok.resent.find? (fun x => x.1 / 0x80000000 = b.val) = some x)
    (hf : s.failAt x.1 = some (b.val, f)) :
    Runs (.blockResent b) s (fun t => ∃ u : State, u.yok = { s.yok with resent := s.yok.resent.erase x } ∧
      u.acts = s.acts.map (Act.give (srcId b f.blk) (blockOf x.2)) ∧
      ((s.bank b (blkBank f.blk)).st = 0 →
        (u.loft b).block f.blk = s.mended b f (blockOf x.2) ∧ (u.loft b).fixes = (s.loft b).fixes ++ [(f.blk, 1)]) ∧
      (∀ g ∈ (u.loft b).failed, g.blk ≠ f.blk) ∧
      t = u.loftErr b 0x0303 f.blk (s.blkJob b f) (some (F.LFT_ERRCNT_RESENT b)) f.blk) := by
  obtain ⟨eng, hloft⟩ := s.loft_resentTo b f x
  refine ⟨_, exec_blockResent hx hf, s.resentTo b f x, rfl, rfl, fun hon => ?_, fun g hg => ?_, rfl⟩
  · rw [hloft, Loft.block_takeResent _ _ _ hon, Loft.fixes_takeResent _ _ _ hon]
    exact ⟨rfl, rfl⟩
  · rw [hloft, Loft.failed_takeResent] at hg
    exact of_decide_eq_true (List.mem_filter.1 hg).2

end

/-! ### LOFT_WRITEBACK_VERIFY (R165, R171) -/

section
variable {s : State} {b : Barn} {blk n : Nat}
  (hfix : (s.loft b).fixes.find? (fun x => s.loftFree b (blkBank x.1) && !s.rereadFirst b (blkBank x.1)) = some (blk, n))
include hfix

theorem exec_loftWritebackVerify (good : Bool) :
    exec (.loftWritebackVerify b good) s = .next ((s.takeLoft b (blkBank blk)).fixStep b blk n good) := by
  change execLoftWritebackVerify b good s = _
  rw [execLoftWritebackVerify, hfix]

theorem loftWritebackVerify_ends {good : Bool} (h : n = 0 ∨ (s.bank b (blkBank blk)).st ≠ 0 ∨ (n = 2 ∧ good = true)) :
    Runs (.loftWritebackVerify b good) s (fun t => (t.loft b).fixes = (s.loft b).fixes.erase (blk, n) ∧
      (∀ r ∈ t.err.recov, ¬ ((r.cls = 2 ∨ r.cls = 3) ∧ r.blk = b.val ∧ r.inst = blkBank blk ∧ r.tag = blk)) ∧
      t = { s with lofts := t.lofts, err := { s.err with recov := t.err.recov } }) := by
  have hcharged := s.charged_takeLoft b (blkBank blk)
  rw [← hcharged.bank] at h
  refine ⟨_, (exec_loftWritebackVerify hfix good).trans (congrArg _ (State.fixStep_ends h)), ?_, State.not_mem_fixEnded _ b blk, rfl⟩
  change (((s.takeLoft b (blkBank blk)).dropFix b (blk, n)).loft b).fixes = _
  rw [State.dropFix, State.updLoft_same, hcharged.fixes]

theorem loftWritebackVerify_moves (good : Bool) (hon : (s.bank b (blkBank blk)).st = 0) (h : n = 1 ∨ (3 ≤ n ∧ n < 8)) :
    Runs (.loftWritebackVerify b good) s (fun t =>
      (t.loft b).fixes = (s.loft b).fixes.map (fun x => if x = (blk, n) then (blk, n + 1) else x) ∧
      t = { s with lofts := t.lofts }) := by
  have hcharged := s.charged_takeLoft b (blkBank blk)
  rw [← hcharged.bank] at hon
  refine ⟨_, (exec_loftWritebackVerify hfix good).trans (congrArg _ (State.fixStep_moves hon h)), ?_, rfl⟩
  rw [State.moveFix, State.updLoft_same, hcharged.fixes]

theorem loftWritebackVerify_retires (h : n = 2) (hon : (s.bank b (blkBank blk)).st = 0) :
    ∃ t, exec (.loftWritebackVerify b false) s = .next t ∧
      ∀ r ∈ t.err.recov, ¬ ((r.cls = 2 ∨ r.cls = 3) ∧ r.blk = b.val ∧ r.inst = blkBank blk ∧ r.tag = blk) := by
  subst h
  rw [← (s.charged_takeLoft b (blkBank blk)).bank] at hon
  exact ⟨_, (exec_loftWritebackVerify hfix false).trans (congrArg _ (State.fixStep_retires hon)), State.not_mem_fixEnded _ b blk⟩

end

/-! ### CTRL_LOFT_REQ (R168, R213) -/

section
variable {s u : State} {b : Barn} {c : CPkt} (htake : s.ctrlTake (fun c => c.ty = 9 && c.src = b.val) = some (c, u))
include htake

theorem ctrlLoftReq_partner (hok : u.partnerOk c.src (bits c.body 97 95) = true) : exec (.ctrlLoftReq b) s =
    .next (u.sendControl (bits c.body 97 95) .yoke 0x19
      (leBytes 1 c.src ++ leBytes 2 0 ++ leBytes 4 (bits c.body 94 64) ++ leBytes 8 (bits c.body 63 0))) := by
  change execCtrlLoftReq b s = _
  rw [execCtrlLoftReq, htake]
  exact congrArg Host.Outcome.next (if_pos hok)

theorem ctrlLoftReq_host {n : Nat} {f : FailBlk} (hlost : u.partnerOk c.src (bits c.body 97 95) = false)
    (hf : u.failAt (c.src * 0x80000000 + bits c.body 94 64) = some (n, f)) : exec (.ctrlLoftReq b) s = .next (u.askHost n f) := by
  change execCtrlLoftReq b s = _
  rw [execCtrlLoftReq, htake]
  dsimp only
  rw [hlost, hf]
  rfl

end

/-- Settles O22: each row under its condition; taking a bank cycle leaves a loft's blocks and repairs as they are. -/
theorem loftRepairCompletes : Obligations.LoftRepairCompletes := by
  unfold Obligations.LoftRepairCompletes
  exact fun b s => ⟨fun i w ecc hw hfree hroom hfirst =>
      ⟨fun bs hbs => exec_unsLoftAccess_write hw hfree hroom hfirst hbs ecc, exec_unsLoftAccess_read hw hfree hroom hfirst⟩,
    fun blk ecc hscrub hon hfree hfirst => exec_loftScrub hscrub hon hfree hfirst ecc,
    fun f hf => ⟨blockReread_off hf, fun hon =>
      ⟨blockReread_good hf hon, fun slot => blockReread_slot hf hon, blockReread_waits hf hon⟩⟩,
    fun f slot => exec_resendSlotGrant, fun x f => blockResent_mends,
    fun blk n hfix => ⟨fun good => loftWritebackVerify_ends hfix, loftWritebackVerify_moves hfix, loftWritebackVerify_retires hfix⟩,
    fun c u htake => ⟨ctrlLoftReq_partner htake, fun n f => ctrlLoftReq_host htake⟩⟩

end Sys2Proof.Machine

/-! SUPPORT. The yoke (R169, R336 to R352): what a packet that has been taken leaves as it was, the effect of a CONTROL packet, the
digests that are kept, and the end of a re-yoke. -/

namespace Sys2Proof.Machine

/-! ### CONTROL packets (R250, R336) -/

/-- A packet that has been taken concerns the links and the streams of the fabric only. -/
theorem taken_frame (s : State) (p v j : Nat) (r : RPkt) :
    Taken s p v j r = { s with links := (Taken s p v j r).links, fab := (Taken s p v j r).fab } := rfl

section
variable (s : State) (p v j : Nat) (r : RPkt)

theorem State.yokJob_taken (n : Nat) : (Taken s p v j r).yokJob n = s.yokJob n := by
  rw [taken_frame]
  rfl

theorem State.fget_taken (g : Fld) : (Taken s p v j r).fget g = s.fget g := by
  rw [taken_frame]
  rfl

theorem State.jobYoke_taken (n : Nat) : (Taken s p v j r).jobYoke n = s.jobYoke n := s.fget_taken p v j r _

theorem State.isHead_taken (n : Nat) : (Taken s p v j r).isHead n = s.isHead n := by
  rw [taken_frame]
  rfl

theorem State.reqWaits_taken (q : LoftReq) : (Taken s p v j r).reqWaits q = s.reqWaits q := by
  rw [State.reqWaits, State.jobYoke_taken, taken_frame]
  rfl

theorem State.failAt_taken (a : Nat) : (Taken s p v j r).failAt a = s.failAt a := State.failAt_congr (by rfl) (by rfl) a

end

/-- A delivered CONTROL packet is accepted, and its row has its effect on the device after the packet has been taken. -/
theorem next_control {s : State} {p j sub : Nat} {r : RPkt} {act : State → Nat → FabHdr → List Line → State} {f : State → State}
    (hd : DeliversCtl s p j sub r)
    (hact : act (Taken s p 2 j r) j r.pkt.head (s.openRx p j r).1 = f (Taken s p 2 j r)) :
    (.next (s.control p sub act) : Res) = .next (Accepted s p 2 j r f) := by
  obtain ⟨hdel, hkind, hsub⟩ := hd
  have hwant : (r.pkt.head.kind = 4 && ((s.openRx p j r).1.isEmpty || ctlByte (s.openRx p j r).1 0 = sub)) = true := by
    simp [hkind, hsub]
  rw [State.control, State.receive_accepts act hdel hwant (by omega), accepted_congr hact]

/-! ### Digests (R337 to R340) -/

theorem State.updYok_congr {s : State} {j : Nat} {f g : YokJob → YokJob} (h : f (s.yokJob j) = g (s.yokJob j)) :
    s.updYok j f = s.updYok j g := by
  rw [State.yokJob] at h
  rw [State.updYok, State.updYok, Tab.upd, Tab.upd, h]

/-- The device after the digests of a step have been kept, before they are compared (R340). -/
def State.digestsKept (s : State) (j : Nat) (ds : List Nat) : State :=
  (s.updYok j (fun y => { y with read := (s.yokJob j).read + 1 })).updYok j (fun y =>
    { y with own := Tab.set (fun _ => none) y.own (s.yokJob j).read (some ds) })

section
variable {s : State} {j : JobId} (hyoked : s.yoked j = true) (hlive : (s.job j).live = true)
  (hdue : (s.yokJob j).read < (s.srvJob j).deliver) (hbeat : s.baseOf j ((s.yokJob j).read + 1) ≤ s.jobBeat j)
include hyoked hlive hdue hbeat

theorem exec_digestRead : exec (.digestRead j) s = .next (
    match s.readDigests j (s.yokJob j).read with
    | none => (s.updYok j (fun y => { y with read := (s.yokJob j).read + 1 })).hubErr j 0x0802 0
    | some ds => (if s.jobYoke j = 1 ∨ s.jobYoke j = 3 ∧ s.yokState = 2
        then (s.digestsKept j ds).sendDigests j (s.yokJob j).read ds else s.digestsKept j ds).confirm j) := by
  change execDigestRead j s = _
  rw [execDigestRead]
  dsimp only
  rw [if_neg (by simp [hyoked, hlive, hdue, hbeat])]
  rfl

end

/-! ### Halts and the end of a re-yoke (R346, R351, R352) -/

/-- YOK_PARTNER_HALTED halts nothing here, and leaves the yoke's registers as they are (R346, R354). -/
theorem State.jobYoke_partnerHalted (s : State) (j n : Nat) : (s.hubErr j 0x0807 0).jobYoke n = s.jobYoke n := by
  rw [s.hubErr_mild j (by decide) (by decide)]
  exact State.fget_raiseRec (by simp only [hubNote]; decide) _

/-- A rejoining device after REYOKE_END, before it reports: GEN and the state sections are the partner's, the launch lies 1 ms ahead,
and the job goes on from beat P (R351). -/
def State.rejoined (s : State) (j : Nat) (ls : List Line) (sections : List Byte) : State :=
  let beat := ctlNat ls 8 8
  let u := unsect sections
  let step := field u.1 8 8
  ((((s.fset (F.SEC_JOB_STATE_GEN j) (ctlNat ls 16 2 % 4096)).takeSections j u.2).updInfo j (fun i =>
      { i with launch := s.nowNs + 1000000, beat := beat, step := step })).updJob j (fun jb =>
        { jb with launchPending := true, stop := some beat, start := beat })).updSrv j (fun q =>
          { q with next := step, base := beat, deliver := step, dbase := beat, resumed := true
                   bases := Tab.set zeroNat q.bases (step % 64) beat }) |>.updYok j (fun y => { y with read := step, conf := step })

section
variable (s : State) (j : Nat) (ls : List Line) (sections : List Byte)

theorem State.beat_rejoined : ((s.rejoined j ls sections).infoOf j).beat = ctlNat ls 8 8 := by
  simp only [State.rejoined, State.updYok_to_infoOf, State.updSrv_to_infoOf, State.updJob_to_infoOf, State.updInfo_same]

theorem State.launchPending_rejoined : ((s.rejoined j ls sections).job j).launchPending = true := by
  simp only [State.rejoined, State.updYok_to_job, State.updSrv_to_job, State.updJob_same]

theorem State.dbase_rejoined : ((s.rejoined j ls sections).srvJob j).dbase = ctlNat ls 8 8 := by
  simp only [State.rejoined, State.updYok_to_srvJob, State.updSrv_same]

end

/-- The survivor's head after FORK_READY: the job is YOKED again, and a suspension at P ends (R351). -/
def State.forked (s : State) (j : Nat) : State :=
  ((s.setJobYoke j 1).updYok j (fun y => { y with ready0 := [], ready1 := [], joff := 0 })).updSrv j (fun q =>
    { q with reason := if q.reason = 6 then 0 else q.reason, jout := [] })

theorem State.ready1_forked (s : State) (j : Nat) : ((s.forked j).yokJob j).ready1 = [] := by
  simp only [State.forked, State.updSrv_to_yokJob, State.updYok_same]

theorem State.reason_forked {s : State} {j : Nat} (h : (s.srvJob j).reason = 6) : ((s.forked j).srvJob j).reason = 0 := by
  have hsrv : (s.setJobYoke j 1).srvJob j = s.srvJob j := s.setReg_to_srvJob ..
  simp only [State.forked, State.updSrv_same, State.updYok_to_srvJob, hsrv, h, if_true]

end Sys2Proof.Machine

/-! OBLIGATION O44. Digests, requests of the partner, the journal and the re-yoke. -/

namespace Sys2Proof.Machine

/-! ### The device's own rows -/

section
variable {s : State} {j : JobId}

section
variable (hyoked : s.yoked j = true) (hlive : (s.job j).live = true)
  (hdue : (s.yokJob j).read < (s.srvJob j).deliver) (hbeat : s.baseOf j ((s.yokJob j).read + 1) ≤ s.jobBeat j)
include hyoked hlive hdue hbeat

theorem digestRead_bad (hbad : s.readDigests j (s.yokJob j).read = none) : exec (.digestRead j) s =
    .next ((s.updYok j (fun y => { y with read := (s.yokJob j).read + 1 })).hubErr j 0x0802 0) := by
  rw [exec_digestRead hyoked hlive hdue hbeat, hbad]

variable {ds : List Nat} (hgood : s.readDigests j (s.yokJob j).read = some ds)
include hgood

theorem digestRead_sends (hst : s.jobYoke j = 1 ∨ s.jobYoke j = 3 ∧ s.yokState = 2) : exec (.digestRead j) s =
    .next (((s.digestsKept j ds).sendDigests j (s.yokJob j).read ds).confirm j) := by
  rw [exec_digestRead hyoked hlive hdue hbeat, hgood]
  dsimp only
  rw [if_pos hst]

theorem digestRead_keeps (hyoke : s.jobYoke j ≠ 1) (hmism : s.jobYoke j ≠ 3 ∨ s.yokState ≠ 2) : exec (.digestRead j) s =
    .next ((s.digestsKept j ds).confirm j) := by
  rw [exec_digestRead hyoked hlive hdue hbeat, hgood]
  dsimp only
  rw [if_neg (by rintro (h | ⟨h3, h2⟩); exacts [hyoke h, hmism.elim (absurd h3) (absurd h2)])]

end

theorem precopyPassEnd_copies (hlive : (s.job j).live = true) (hst : s.jobYoke j = 4)
    (htodo : ((State.copyOn j 8192 s).yokJob j).todo ≠ []) : exec (.precopyPassEnd j) s = .next (State.copyOn j 8192 s) := by
  change execPrecopyPassEnd j s = _
  rw [execPrecopyPassEnd]
  dsimp only
  rw [if_neg (by simp [hlive, hst]), if_pos htodo]

theorem precopyPassEnd_idle (h4 : s.jobYoke j ≠ 4) (h5 : s.jobYoke j ≠ 5) : exec (.precopyPassEnd j) s = .next s :=
  congrArg Host.Outcome.next (if_pos (by simp [h4, h5]))

end

section
variable {s : State} {q : LoftReq} {rest : List LoftReq} (hreqs : s.yok.reqs = q :: rest) (good : Bool)
include hreqs

theorem exec_loftReqDeferredServe : exec (.loftReqDeferredServe good) s =
    .next (if s.reqWaits q then s else (s.updYoke (fun y => { y with reqs := rest })).serveReq q good) := by
  change execLoftReqDeferredServe good s = _
  rw [execLoftReqDeferredServe, hreqs]

theorem loftReqDeferredServe_waits (hwait : s.reqWaits q = true) : exec (.loftReqDeferredServe good) s = .next s := by
  rw [exec_loftReqDeferredServe hreqs, if_pos hwait]

theorem loftReqDeferredServe_serves (hwait : s.reqWaits q = false) : exec (.loftReqDeferredServe good) s =
    .next ((s.updYoke (fun y => { y with reqs := rest })).serveReq q good) := by
  rw [exec_loftReqDeferredServe hreqs, if_neg (ne_true_of_eq_false hwait)]

end

/-! ### The partner's packets -/

section
variable {s : State} {p : PortId} {j : Nat} {r : RPkt}

/-- Put one of the digests of a DIGEST packet where the job keeps the partner's (R339). -/
def storeDigest (ls : List Line) (t : Tab (Option Nat)) (i : Nat) : Tab (Option Nat) :=
  if ctlByte ls 2 + i < 64 then
    Tab.set (fun _ => none) t (64 * ctlNat ls 8 8 + ctlByte ls 2 + i) (some (ctlNat ls (16 + 8 * i) 8))
  else t

theorem digest_stores (hd : DeliversCtl s p j 0x18 r) (hnew : (s.yokJob j).conf ≤ ctlNat (s.openRx p j r).1 8 8)
    (hnear : ctlNat (s.openRx p j r).1 8 8 < (s.yokJob j).read + 31) : exec (.digest p) s =
      .next (Accepted s p 2 j r (fun u => (u.updYok j (fun y => { y with
        got := (List.range (min 6 (ctlByte (s.openRx p j r).1 1))).foldl (storeDigest (s.openRx p j r).1) y.got })).confirm j)) := by
  rw [← s.yokJob_taken p 2 j r] at hnew hnear
  exact next_control hd ((if_neg (Nat.not_le.2 hnear)).trans ((if_neg (Nat.not_lt.2 hnew)).trans
    (congrArg (State.confirm · j) (State.updYok_congr rfl))))

theorem digest_discards (hd : DeliversCtl s p j 0x18 r) (hfar : (s.yokJob j).read + 31 ≤ ctlNat (s.openRx p j r).1 8 8) :
    exec (.digest p) s = .next (Accepted s p 2 j r (fun u => u.fsat F.YOK_COUNT_DISCARDED 1)) := by
  rw [← s.yokJob_taken p 2 j r] at hfar
  exact next_control hd (if_pos hfar)

theorem mismatchNote_notes (hd : DeliversCtl s p j 0x1E r) (hhead : s.isHead j = true) : exec (.mismatchNote p) s =
    .next (Accepted s p 2 j r (fun u => u.updYok j (fun y => { y with mismatch := some (ctlNat (s.openRx p j r).1 8 8) }))) :=
  next_control hd (if_pos ((s.isHead_taken p 2 j r j).trans hhead))

/-- The request that a LOFT_REQ packet carries (R336, R349). -/
def reqAsked (j : Nat) (ls : List Line) : LoftReq := ⟨j, ctlByte ls 1, ctlNat ls 4 4 / 256 * 256, ctlNat ls 8 8⟩

theorem loftReq_serves (hd : DeliversCtl s p j 0x19 r) (good : Bool) (hreqs : s.yok.reqs = [])
    (hwait : s.reqWaits (reqAsked j (s.openRx p j r).1) = false) : exec (.loftReq p good) s =
      .next (Accepted s p 2 j r (fun u => u.serveReq (reqAsked j (s.openRx p j r).1) good)) := by
  rw [← s.reqWaits_taken p 2 j r] at hwait
  exact next_control hd (if_pos (Bool.and_eq_true_iff.2 ⟨decide_eq_true hreqs, congrArg not hwait⟩))

theorem loftReq_queues (hd : DeliversCtl s p j 0x19 r) (good : Bool)
    (hbusy : s.yok.reqs ≠ [] ∨ s.reqWaits (reqAsked j (s.openRx p j r).1) = true) : exec (.loftReq p good) s =
      .next (Accepted s p 2 j r (fun u => u.updYoke (fun y => { y with reqs := y.reqs ++ [reqAsked j (s.openRx p j r).1] }))) := by
  rw [← s.reqWaits_taken p 2 j r] at hbusy
  refine next_control hd (if_neg fun hserve => ?_)
  obtain ⟨hnil, hfree⟩ := Bool.and_eq_true_iff.1 hserve
  exact hbusy.elim (absurd (of_decide_eq_true hnil)) fun hwait => Bool.false_ne_true ((congrArg not hwait).symm.trans hfree)

theorem loftNak_asksHost (hd : DeliversCtl s p j 0x1A r) {n : Nat} {f : FailBlk}
    (hf : s.failAt (ctlByte (s.openRx p j r).1 1 * 0x80000000 + ctlNat (s.openRx p j r).1 4 4) = some (n, f))
    (hstage : f.stage = .partner) : exec (.loftNak p) s = .next (Accepted s p 2 j r (fun u => u.askHost n f)) := by
  rw [← s.failAt_taken p 2 j r] at hf
  refine next_control hd ?_
  rw [hf]
  exact if_pos hstage

theorem yokeHalt_abandons (hd : DeliversCtl s p j 0x1C r) (hst : s.jobYoke j = 6) (hcode : ctlNat (s.openRx p j r).1 1 2 = 0x080B) :
    exec (.yokeHalt p) s = .next (Accepted s p 2 j r (fun u => u.abandon j)) :=
  next_control hd (if_pos ⟨(s.jobYoke_taken p 2 j r j).trans hst, hcode⟩)

theorem yokeHalt_rejoining (hd : DeliversCtl s p j 0x1C r) (hst : s.jobYoke j = 6) (hcode : ctlNat (s.openRx p j r).1 1 2 ≠ 0x080B) :
    exec (.yokeHalt p) s = .next (Accepted s p 2 j r (fun u => (u.hubErr j 0x0807 0).abandon j)) := by
  rw [← s.jobYoke_taken p 2 j r, ← State.jobYoke_partnerHalted _ j] at hst
  exact next_control hd ((if_neg fun h => hcode h.2).trans (if_neg (by rw [hst]; decide)))

theorem yokeHalt_solo (hd : DeliversCtl s p j 0x1C r) (hst : s.jobYoke j = 1) :
    exec (.yokeHalt p) s = .next (Accepted s p 2 j r (fun u => (u.hubErr j 0x0807 0).goSolo j)) := by
  rw [← s.jobYoke_taken p 2 j r] at hst
  refine next_control hd ((if_neg fun h => ?_).trans (if_pos ((State.jobYoke_partnerHalted _ j j).trans hst)))
  rw [hst] at h
  exact absurd h.1 (by decide)

/-- The bytes of the journal entry that a JOURNAL packet announces, in the job's ring of 1 MiB (R347). -/
def State.entryBytes (u : State) (j : Nat) (ls : List Line) : List Byte :=
  ((List.range ((ctlNat ls 20 4 + 63) / 64)).flatMap (fun i =>
    u.hubGet (u.fget (F.YOK_JOB_AREA_JOURNAL j) * 4096 + (ctlNat ls 16 4 + 64 * i) % 1048576) 64)).take (ctlNat ls 20 4)

/-- The entry is appended, or breaks its layout (R347, R354). -/
def State.journaled (u : State) (j : Nat) (ls : List Line) : State :=
  match Machine.itemsOf (ctlNat ls 20 4) (u.entryBytes j ls) with
  | none => u.hubErr j 0x080A 0
  | some items => u.updYok j (fun y => { y with journal := y.journal ++ [(ctlNat ls 8 8, items)] })

theorem exec_journal (hd : DeliversCtl s p j 0x1B r) (hfenced : s.portBusy p = false) : exec (.journal p) s =
    .next (Accepted s p 2 j r (fun u => u.journaled j (s.openRx p j r).1)) := by
  change execJournal p s = _
  rw [execJournal, if_neg (ne_true_of_eq_false hfenced)]
  exact next_control hd rfl

section
variable (hd : DeliversCtl s p j 0x1F r) (hhead : s.isHead j = true)
include hd hhead

theorem yokeReady_phase0 (hphase : ctlByte (s.openRx p j r).1 1 = 0) : exec (.yokeReady p) s =
    .next (Accepted s p 2 j r (fun u => u.updYok j (fun y => { y with ready0 := y.ready0 ++ [r.pkt.head.src] }))) := by
  rw [← s.isHead_taken p 2 j r] at hhead
  refine next_control hd ?_
  dsimp only
  rw [hphase, hhead]
  rfl

theorem yokeReady_phase1 (hphase : ctlByte (s.openRx p j r).1 1 = 1) : exec (.yokeReady p) s =
    .next (Accepted s p 2 j r (fun u => (u.updYok j (fun y => { y with ready1 := y.ready1 ++ [r.pkt.head.src] })).forkCheck j)) := by
  rw [← s.isHead_taken p 2 j r] at hhead
  refine next_control hd ?_
  dsimp only
  rw [hphase, hhead]
  rfl

end

theorem exec_forkReady (hd : DeliversCtl s p j 0x14 r) (hhead : s.isHead j = true) (hst : s.jobYoke j = 5) :
    exec (.forkReady p) s = .next (Accepted s p 2 j r (fun u => u.forked j)) := by
  rw [← s.isHead_taken p 2 j r] at hhead
  rw [← s.jobYoke_taken p 2 j r] at hst
  exact next_control hd (if_pos (by rw [hhead, hst]; rfl))

theorem exec_reyokeEnd (hd : DeliversCtl s p j 0x1D r) (hst : s.jobYoke j = 6) (sections : List Byte) :
    exec (.reyokeEnd p sections) s = .next (Accepted s p 2 j r (fun u =>
      ((u.rejoined j (s.openRx p j r).1 sections).yokeReady j 1).forkCheck j)) :=
  next_control hd (if_neg (not_not.2 ((s.jobYoke_taken p 2 j r j).trans hst)))

end

/-- Settles O44: the device's own rows under their conditions; a packet's effect is that on the device that has taken it. -/
theorem yokeJobsComplete : Obligations.YokeJobsComplete := by
  unfold Obligations.YokeJobsComplete
  refine fun s => ⟨fun j => ⟨fun hyoked hlive hdue hbeat =>
      ⟨digestRead_bad hyoked hlive hdue hbeat, fun ds hgood => ⟨digestRead_sends hyoked hlive hdue hbeat hgood,
        digestRead_keeps hyoked hlive hdue hbeat hgood⟩⟩, precopyPassEnd_copies, precopyPassEnd_idle⟩,
    fun good q rest hreqs => ⟨loftReqDeferredServe_waits hreqs good, loftReqDeferredServe_serves hreqs good⟩, fun p j r => ?_⟩
  exact ⟨digest_stores, digest_discards, mismatchNote_notes, fun hd good => ⟨loftReq_serves hd good, loftReq_queues hd good⟩,
    fun hd n f => loftNak_asksHost hd, fun hd => ⟨yokeHalt_abandons hd, yokeHalt_rejoining hd, yokeHalt_solo hd⟩, exec_journal,
    yokeReady_phase0, yokeReady_phase1,
    fun hd hhead hst => ⟨fun u => u.forked j, exec_forkReady hd hhead hst, fun u => ⟨u.ready1_forked j, fun h _ _ => State.reason_forked h⟩⟩,
    fun hd hst sections => ⟨fun u => u.rejoined j (s.openRx p j r).1 sections, exec_reyokeEnd hd hst sections, fun u =>
      ⟨u.beat_rejoined .., u.launchPending_rejoined .., u.dbase_rejoined ..⟩⟩⟩

end Sys2Proof.Machine

/-! OBLIGATION O39. The path of an error record: raised, collected, logged and freed. -/

namespace Sys2Proof.Machine

/-! ### The record on its way (R213, R409, R411) -/

/-- What follows the record adds others behind it. -/
theorem State.calm_raise_of_raiseRec (s : State) (e : Err) : Calm (s.raiseRec e) (s.raise e) := by
  unfold State.raise
  refine .ite (.ite (.refl _) (State.calm_deviceFatal ..).1) (.ite (.ite ?_ ?_) (.refl _))
  · exact calm_foldl (fun t j => t.calm_haltBoundary ..) _ _
  · split
    · exact calm_foldl (fun t j => t.calm_haltNow ..) _ _
    · exact calm_foldl (fun t j => t.calm_haltBoundary ..) _ _
    · exact .refl _

/-- A record joins those on their way behind all others, whatever its error halts. -/
theorem State.recordOf_in_flight (s : State) (e : Err) :
    ∃ more, (s.raise e).err.flight = s.err.flight ++ s.recordOf e :: more := by
  obtain ⟨more, hmore⟩ : (s.raiseRec e).err.flight <+: (s.raise e).err.flight := (s.calm_raise_of_raiseRec e).flight
  exact ⟨more, by rw [← hmore, s.flight_raiseRec, List.append_assoc, List.singleton_append]⟩

/-- A corrected or absorbed error that does not escalate is recorded and halts nothing (R411). -/
theorem State.raise_of_not_escalates {s : State} {e : Err} (hsev : codeSev e.code ≤ 1) (hesc : s.escalates e = false) :
    s.raise e = s.raiseRec e := by
  have hsame : s.sevOf e = codeSev e.code := if_neg (ne_true_of_eq_false hesc)
  have h2 : ¬ codeSev e.code = sevContained := by simp only [sevContained]; omega
  have h3 : ¬ codeSev e.code = sevFatal := by simp only [sevFatal]; omega
  simp only [State.raise, hsame, if_neg h2, if_neg h3]

/-- Part `i` of the record of an error as a control packet for the hub (R213). -/
def State.recPart (s : State) (e : Err) (i : Nat) : CPkt :=
  { id := s.mesh.nextPkt + i, pos := recPoint e.blk
    word := ctrlWord 8 (recPoint e.blk) 28 i (bits (s.recordOf e).pack (106 * i + 105) (106 * i)) }

theorem State.raiseRec_of_not_escalates {s : State} {e : Err} (hesc : s.escalates e = false) :
    s.raiseRec e = { s with
      err := { s.err with flight := s.err.flight ++ [s.recordOf e], recov := (s.raiseRec e).err.recov }
      mesh := { s.mesh with
        nextPkt := s.mesh.nextPkt + 3, ctrl := s.mesh.ctrl ++ [s.recPart e 0, s.recPart e 1, s.recPart e 2] } } := by
  have hrec : (s.recordOf e).escalated = false := hesc
  simp only [State.raiseRec, hrec, Bool.false_eq_true, if_false]
  simp only [State.sendRec, State.ctrlSend, State.ctrlPut, List.range_succ, List.range_zero, List.foldl_cons, List.foldl_nil,
    List.append_assoc, List.nil_append, List.cons_append]
  rfl

/-! ### The bits of a record (R409) -/

/-- Record bits 27 to 24: the job and its valid bit, or zero (R409). -/
def jobBits : Option Nat → Nat
  | some j => j + 8
  | none => 0

theorem b2n_lt (b : Bool) : b2n b < 2 := by cases b <;> decide

theorem jobBits_lt {o : Option Nat} (h : ∀ j, o = some j → j < 8) : jobBits o < 2 ^ 4 := by
  cases o with
  | none => decide
  | some j =>
    have hj := h j rfl
    simp only [jobBits]
    omega

/-- Each field stands at its own power of two. -/
theorem ErrRec.pack_eq {r : ErrRec} (hinst : r.inst < 2 ^ 8) (hfjob : r.fjob < 2 ^ 16) (hbeat : r.beat < 2 ^ 64)
    (htime : r.time < 2 ^ 64) (hdetail : r.detail < 2 ^ 64) :
    r.pack = r.code + r.sev * 2 ^ 16 + b2n r.during * 2 ^ 18 + b2n r.escalated * 2 ^ 19 + jobBits r.job * 2 ^ 24 +
      r.inst * 2 ^ 32 + r.blk * 2 ^ 40 + r.fjob * 2 ^ 48 + r.beat * 2 ^ 64 + r.time * 2 ^ 128 + r.detail * 2 ^ 192 := by
  have hpack : r.pack = r.code + (r.sev + 4 * b2n r.during + 8 * b2n r.escalated) * 2 ^ 16 + jobBits r.job * 2 ^ 24 +
      (r.inst % 2 ^ 8 + 256 * r.blk) * 2 ^ 32 + r.fjob % 2 ^ 16 * 2 ^ 48 + r.beat % 2 ^ 64 * 2 ^ 64 +
      r.time % 2 ^ 64 * 2 ^ 128 + r.detail % 2 ^ 64 * 2 ^ 192 := rfl
  rw [hpack, Nat.mod_eq_of_lt hinst, Nat.mod_eq_of_lt hfjob, Nat.mod_eq_of_lt hbeat, Nat.mod_eq_of_lt htime,
    Nat.mod_eq_of_lt hdetail]
  ring

/-- The fields read back, job and valid bit also apart. -/
theorem ErrRec.bits_pack {r : ErrRec} (hcode : r.code < 2 ^ 16) (hsev : r.sev < 4) (hblk : r.blk < 256) (hinst : r.inst < 256)
    (hfjob : r.fjob < 2 ^ 16) (hbeat : r.beat < 2 ^ 64) (htime : r.time < 2 ^ 64) (hdetail : r.detail < 2 ^ 64)
    (hjob : ∀ j, r.job = some j → j < 8) :
    bits r.pack 15 0 = r.code ∧ bits r.pack 17 16 = r.sev ∧ bits r.pack 18 18 = b2n r.during ∧
    bits r.pack 19 19 = b2n r.escalated ∧ bits r.pack 23 20 = 0 ∧ bits r.pack 26 24 = jobBits r.job % 8 ∧
    bits r.pack 27 27 = jobBits r.job / 8 ∧ bits r.pack 27 24 = jobBits r.job ∧ bits r.pack 31 28 = 0 ∧
    bits r.pack 39 32 = r.inst ∧ bits r.pack 47 40 = r.blk ∧ bits r.pack 63 48 = r.fjob ∧ bits r.pack 127 64 = r.beat ∧
    bits r.pack 191 128 = r.time ∧ bits r.pack 255 192 = r.detail := by
  have hduring := b2n_lt r.during
  have hesc := b2n_lt r.escalated
  have hbits := jobBits_lt hjob
  simp only [bits, Nat.shiftRight_eq_div_pow, ErrRec.pack_eq hinst hfjob hbeat htime hdetail]
  generalize b2n r.during = during at *
  generalize b2n r.escalated = escalated at *
  generalize jobBits r.job = job at *
  and_intros <;> omega

theorem bit_of_bits {w i : Nat} {b : Bool} (h : bits w i i = b2n b) : bit w i = b := by
  rw [bits, Nat.shiftRight_eq_div_pow, show i + 1 - i = 1 by omega, Nat.pow_one] at h
  rw [bit, Nat.testBit_eq_decide_div_mod_eq, h]
  cases b <;> decide

/-! ### What the collector's operations leave (R414 to R416) -/

theorem listed_errProducer : F.ERR_PRODUCER_INDEX.Listed :=
  Fld.listed_of_row .err 0 0x110 1 8 0 (by decide) (by decide) (by decide) rfl

theorem listed_errConsumer : F.ERR_CONSUMER_INDEX.Listed :=
  Fld.listed_of_row .err 0 0x118 1 8 0 (by decide) (by decide) (by decide) rfl

theorem State.err_of_pacing {s t : State} (h : t.pacing = s.pacing) : t.err = s.err := congrArg (fun p => p.2.2) h

section
variable (s : State) (r : ErrRec)

theorem State.reg_fireVec (p fn v a : Nat) : (s.fireVec p fn v).reg a = s.reg a := by
  unfold State.fireVec
  dsimp only
  split
  · rfl
  · split <;> rfl

/-- The interrupts of a record at or above IRQ_MIN (R416). -/
def State.recVectors (s : State) (r : ErrRec) : State :=
  if s.fget F.ERR_POLICY_IRQ_MIN ≤ r.sev then
    ([0, 1] : List Nat).foldl (fun s p => if (s.hst p).absent then s else s.fireVec p 0 1) s
  else s

theorem State.recAlarm_eq : s.recAlarm r =
    if sevContained ≤ r.sev then ((s.recVectors r).fset F.ERR_COUNT_ALERT 1).showAlert else s.recVectors r := rfl

theorem State.err_recVectors : (s.recVectors r).err = s.err := by
  refine State.err_of_pacing ?_
  rw [State.recVectors, State.pacing_ite, State.pacing_foldl (fun t p => ?_), ite_self]
  rw [State.pacing_ite, State.pacing_fireVec, ite_self]

theorem State.reg_recVectors (a : Nat) : (s.recVectors r).reg a = s.reg a := by
  unfold State.recVectors
  split
  · refine foldl_keeps (P := fun t : State => t.reg a = s.reg a) _ rfl fun t p _ ht => ?_
    split
    · exact ht
    · exact (t.reg_fireVec ..).trans ht
  · rfl

theorem State.err_recAlarm : (s.recAlarm r).err = s.err := by
  rw [State.recAlarm_eq]
  split
  · rw [State.showAlert_frame]
    exact s.err_recVectors r
  · exact s.err_recVectors r

theorem State.reg_recAlarm {a : Nat} (hcount : a ≠ R.ERR_COUNT) (halert : a ≠ R.TCK_ALERT) :
    (s.recAlarm r).reg a = s.reg a := by
  rw [State.recAlarm_eq]
  split
  · rw [State.reg_showAlert _ halert, State.reg_fset_other _ _ hcount, State.reg_recVectors]
  · exact s.reg_recVectors r a

theorem State.err_traceRec : (s.traceRec r).err = s.err := by
  have htrace (src q job data) : (s.trace src q job data).err = s.err := State.err_of_pacing (s.pacing_trace ..)
  unfold State.traceRec
  dsimp only
  split
  · split <;> exact htrace ..
  · exact htrace ..

theorem State.reg_traceRec {a : Nat} (hstat : a ≠ R.TCK_LSP_STAT) (hctl : a ≠ R.TCK_LSP_CTL) :
    (s.traceRec r).reg a = s.reg a := by
  have htrace (src q job data) : (s.trace src q job data).reg a = s.reg a := s.reg_trace src q job data hstat
  unfold State.traceRec
  dsimp only
  split
  · split
    · exact (State.reg_fset_other _ _ hctl).trans (htrace ..)
    · exact htrace ..
  · exact htrace ..

/-- An accepted record stands behind the others under the producer's index (R414). -/
theorem State.err_acceptRec :
    (s.acceptRec r).err = { s.err with held := s.err.held ++ [⟨s.fget F.ERR_PRODUCER_INDEX, r, false⟩] } := by
  rw [State.acceptRec, State.err_traceRec, State.err_recAlarm]
  rfl

theorem State.producer_acceptRec :
    (s.acceptRec r).fget F.ERR_PRODUCER_INDEX = (s.fget F.ERR_PRODUCER_INDEX + 1) % 2 ^ 32 := by
  have hlater (t : State) : ((t.recAlarm r).traceRec r).fget F.ERR_PRODUCER_INDEX = t.fget F.ERR_PRODUCER_INDEX :=
    congrArg (bits · 31 0) ((State.reg_traceRec _ r (by decide) (by decide)).trans (t.reg_recAlarm r (by decide) (by decide)))
  rw [State.acceptRec, hlater, State.showHeld, State.fget_fset_other _ _ (by decide), State.fget_fset_same _ _ listed_errProducer]
  exact Nat.mod_mod _ _

end

/-! ### ERR_REC (R213, R414) -/

/-- Free entries as the collector counts them: 64 are kept from corrected and absorbed records, none from the others. -/
theorem collector_full_iff (sev n : Nat) : (if sev ≤ sevAbsorbed then 1024 - n ≤ 64 else 1024 - n = 0) ↔
    if sev ≤ 1 then 960 ≤ n else 1024 ≤ n := by
  change (if sev ≤ 1 then 1024 - n ≤ 64 else 1024 - n = 0) ↔ _
  split <;> omega

section
variable {s : State} {r : ErrRec}

theorem State.collect_full (hfull : if r.sev ≤ 1 then 960 ≤ s.err.held.length else 1024 ≤ s.err.held.length) :
    s.collect r = s.dropRec r := if_pos ((collector_full_iff ..).2 hfull)

theorem State.collect_room (hroom : if r.sev ≤ 1 then s.err.held.length < 960 else s.err.held.length < 1024)
    (hlow : s.err.dropLow = 0) (hsevere : s.err.dropSevere = 0) : s.collect r = s.acceptRec r := by
  refine (if_neg fun hdrop => ?_).trans (if_neg fun h => h.1 (by rw [hlow, hsevere]))
  have hfull := (collector_full_iff ..).1 hdrop
  by_cases hsev : r.sev ≤ 1
  · rw [if_pos hsev] at hroom hfull
    omega
  · rw [if_neg hsev] at hroom hfull
    omega

end

/-- Taking the parts of a record concerns the mesh only. -/
theorem State.takeParts_frame {s u : State} {p : Nat} (h : s.takeParts p = some u) : u = { s with mesh := u.mesh } := by
  have hparts : ∀ v, s.takeParts p = some v → v = { s with mesh := v.mesh } := by
    unfold State.takeParts
    refine foldl_keeps (P := fun o : Option State => ∀ v, o = some v → v = { s with mesh := v.mesh }) _ ?_ ?_
    · rintro _ ⟨⟩
      rfl
    · intro o i _ ho v hv
      obtain ⟨t, ht, hv⟩ := Option.bind_eq_some_iff.1 hv
      obtain ⟨⟨c, w⟩, htake, rfl⟩ := Option.map_eq_some_iff.1 hv
      have hw := State.ctrlTake_frame htake
      rw [ho t ht] at hw
      exact hw
  exact hparts u h

/-- A drop as the collector keeps it for the next TCK_LOG_DROPPED, and as ERR_COUNT shows it (R414). -/
def State.dropCounted (s : State) (low severe : Nat) (f : Fld) : State :=
  ({ s with err := { s.err with dropLow := low, dropSevere := severe } } : State).fsat f 1

section
variable (s : State) {r : ErrRec}

theorem State.dropRec_low (hsev : r.sev ≤ 1) :
    s.dropRec r = s.dropCounted (satAdd 32 s.err.dropLow 1) s.err.dropSevere F.ERR_COUNT_DROPPED_LOW := if_pos hsev

theorem State.dropRec_severe (hsev : ¬ r.sev ≤ 1) :
    s.dropRec r = s.dropCounted s.err.dropLow (satAdd 32 s.err.dropSevere 1) F.ERR_COUNT_DROPPED_SEVERE := if_neg hsev

end

/-- The device once a record is no longer on its way. -/
def State.recTaken (u : State) (r : ErrRec) : State := { u with err := { u.err with flight := u.err.flight.erase r } }

section
variable {unit : Fin 32} {s : State}

theorem errRec_waits (htake : s.takeParts (recPoint unit) = none) : exec (.errRec unit) s = .next s := by
  change execErrRec unit s = _
  rw [execErrRec, htake]
  cases s.err.flight.find? (fun r => r.blk = unit.val) <;> rfl

variable {u : State} {r : ErrRec} (hfind : s.err.flight.find? (fun r => r.blk = unit.val) = some r)
  (htake : s.takeParts (recPoint unit) = some u)
include hfind htake

/-- The oldest record of the unit, whose parts have arrived, reaches the collector. -/
theorem errRec_collects : exec (.errRec unit) s = .next ((u.recTaken r).collect r) := by
  change execErrRec unit s = _
  rw [execErrRec, hfind, htake]
  rfl

/-- A dropped record is no longer on its way, and is counted in one field. -/
theorem errRec_drops {low severe : Nat} {f : Fld}
    (hfull : if r.sev ≤ 1 then 960 ≤ s.err.held.length else 1024 ≤ s.err.held.length)
    (hdrop : (u.recTaken r).dropRec r = (u.recTaken r).dropCounted low severe f) : Runs (.errRec unit) s (fun t =>
    t.err.flight = s.err.flight.erase r ∧ t.err.held = s.err.held ∧ t.regs = (s.fsat f 1).regs ∧
    t = { u with err := t.err, regs := t.regs }) := by
  have hframe := State.takeParts_frame htake
  have herr : u.err = s.err := by rw [hframe]
  rw [← herr] at hfull
  have hexec := errRec_collects hfind htake
  rw [State.collect_full (s := u.recTaken r) hfull, hdrop] at hexec
  exact ⟨_, hexec, congrArg (·.flight.erase r) herr, congrArg (·.held) herr, by rw [hframe]; rfl, rfl⟩

theorem errRec_accepts (hroom : if r.sev ≤ 1 then s.err.held.length < 960 else s.err.held.length < 1024)
    (hlow : s.err.dropLow = 0) (hsevere : s.err.dropSevere = 0) : Runs (.errRec unit) s (fun t =>
    t.err.flight = s.err.flight.erase r ∧ t.err.held = s.err.held ++ [⟨s.fget F.ERR_PRODUCER_INDEX, r, false⟩] ∧
    t.fget F.ERR_PRODUCER_INDEX = (s.fget F.ERR_PRODUCER_INDEX + 1) % 2 ^ 32) := by
  have hframe := State.takeParts_frame htake
  have herr : u.err = s.err := by rw [hframe]
  have hindex : (u.recTaken r).fget F.ERR_PRODUCER_INDEX = s.fget F.ERR_PRODUCER_INDEX := by rw [hframe]; rfl
  rw [← herr] at hroom hlow hsevere
  have hexec := errRec_collects hfind htake
  rw [State.collect_room (s := u.recTaken r) hroom hlow hsevere] at hexec
  refine ⟨_, hexec, ?_, ?_, by rw [State.producer_acceptRec, hindex]⟩
  · rw [State.err_acceptRec, ← herr]
    rfl
  · rw [State.err_acceptRec, hindex, ← herr]
    rfl

end

/-! ### LOG_COPY (R415) -/

section
variable {s : State} {x : HeldRec}

theorem State.mem_held_of_freeHeld (h : x ∈ s.freeHeld.err.held) : x ∈ s.err.held :=
  List.mem_of_mem_filter h

/-- Only an entry in the log is freed (R415). -/
theorem State.mem_freeHeld_of_not_logged (h : x ∈ s.err.held) (hlog : x.logged = false) :
    x ∈ s.freeHeld.err.held :=
  List.mem_filter.2 ⟨h, by simp [hlog]⟩

end

/-- The log with a further record (R415). -/
def State.logWith (s : State) (r : ErrRec) : List (Nat × ErrRec) :=
  let kept := s.tck.log ++ [(s.tck.logNext, r)]
  kept.drop (kept.length - logSize)

/-- The newest record of the log is never the one that is overwritten. -/
theorem State.mem_logWith (s : State) (r : ErrRec) : (s.tck.logNext, r) ∈ s.logWith r := by
  have hkept : (s.tck.log ++ [(s.tck.logNext, r)]).length - logSize ≤ s.tck.log.length := by
    rw [List.length_append, List.length_singleton, logSize]
    omega
  have hlog := List.drop_append_of_le_length (l₂ := [(s.tck.logNext, r)]) hkept
  simp only [State.logWith, hlog]
  exact List.mem_append_right _ List.mem_cons_self

/-- The device with another log and log number, which TCK_LOG shows. -/
def State.setLog (s : State) (log : List (Nat × ErrRec)) (n : Nat) : State :=
  ({ s with tck := { s.tck with log := log, logNext := n } } : State).fset F.TCK_LOG_NEXT n

theorem State.setLog_leaves (s : State) (log : List (Nat × ErrRec)) (n : Nat) :
    (s.setLog log n).tck.logNext = n ∧ (s.setLog log n).tck.log = log ∧ (s.setLog log n).err.held = s.err.held :=
  ⟨rfl, rfl, congrArg ErrSt.held (State.err_fset ..)⟩

theorem State.logRec_eq (s : State) (r : ErrRec) : s.logRec r =
    if (s.tck.logNext + 1) % logSize = 0 then (s.setLog (s.logWith r) ((s.tck.logNext + 1) % 2 ^ 32)).tckErr 0x0B08 0 0
    else s.setLog (s.logWith r) ((s.tck.logNext + 1) % 2 ^ 32) := rfl

theorem State.held_raiseRec (s : State) (e : Err) : (s.raiseRec e).err.held = s.err.held := by
  have hsend (t : State) (r : ErrRec) : (t.sendRec r).err = t.err := rfl
  simp only [State.raiseRec, hsend]
  split
  · rw [State.fsat, State.err_fset]
  · rfl

/-- A raised TCK_LOG_WRAP leaves the log and the entries as they are. -/
theorem State.logRec_logs (s : State) (r : ErrRec) :
    (s.logRec r).tck.logNext = (s.tck.logNext + 1) % 2 ^ 32 ∧ (s.logRec r).tck.log = s.logWith r ∧
    (s.logRec r).err.held = s.err.held := by
  have hwrap (t : State) : (t.tckErr 0x0B08 0 0).tck = t.tck ∧ (t.tckErr 0x0B08 0 0).err.held = t.err.held := by
    rw [State.tckErr, State.raise_of_mild (by decide) (by decide)]
    exact ⟨by rw [State.raiseRec_frame], t.held_raiseRec _⟩
  have hset := s.setLog_leaves (s.logWith r) ((s.tck.logNext + 1) % 2 ^ 32)
  rw [State.logRec_eq]
  split
  · rwa [(hwrap _).1, (hwrap _).2]
  · exact hset

/-- The device once the entries with a record's index count as logged. -/
def State.marked (s : State) (i : Nat) : State := { s with err := { s.err with
  held := s.err.held.map (fun x => if x.index = i then { x with logged := true } else x) } }

theorem State.logged_of_mem_marked {s : State} {i : Nat} {x : HeldRec} (h : x ∈ (s.marked i).err.held) (hi : x.index = i) :
    x.logged = true := by
  obtain ⟨y, _, rfl⟩ := List.mem_map.1 h
  by_cases hy : y.index = i
  · rw [if_pos hy]
  · rw [if_neg hy] at hi
    exact absurd hi hy

section
variable {s : State} {e : HeldRec} (hrun : s.fget F.TCK_STATE_STATE = 1)
  (hfind : s.err.held.find? (fun e => !e.logged) = some e)
  (hstay : (e.entry.escalated && codeClass e.entry.code = 1) = false)
include hrun hfind hstay

/-- Running firmware logs the oldest record that is not in the log, and frees what it may. -/
theorem exec_logCopy : exec .logCopy s = .next ((s.marked e.index).logRec e.entry).freeHeld := by
  have hretire (u : State) : u.retireFor e.entry = u := by
    rw [State.retireFor, hstay]
    rfl
  change execLogCopy s = _
  rw [execLogCopy, if_neg (not_not.2 hrun), hfind]
  exact congrArg (fun u : State => Host.Outcome.next u.freeHeld) (hretire _)

theorem logCopy_logs : Runs .logCopy s (fun t =>
    t.tck.logNext = (s.tck.logNext + 1) % 2 ^ 32 ∧ (s.tck.logNext, e.entry) ∈ t.tck.log ∧
    ∀ x ∈ t.err.held, x.index = e.index → x.logged = true) := by
  obtain ⟨hnext, hlog, hheld⟩ := (s.marked e.index).logRec_logs e.entry
  have hfree (u : State) : u.freeHeld.tck = u.tck := rfl
  refine ⟨_, exec_logCopy hrun hfind hstay, ?_, ?_, fun x hx => State.logged_of_mem_marked (s := s) ?_⟩
  · rw [hfree, hnext]
    rfl
  · rw [hfree, hlog]
    exact s.mem_logWith e.entry
  · rw [← hheld]
    exact State.mem_held_of_freeHeld hx

end

/-! ### ERR_CONSUMER_WRITE (R421) -/

theorem State.fget_freeHeld (s : State) {g : Fld} (h : g.addr ≠ R.ERR_COUNT) : s.freeHeld.fget g = s.fget g :=
  State.fget_fset_other _ _ h

/-- Freeing concerns the entries, and the register that counts them. -/
theorem State.freeHeld_frame {s u : State} (h : u = { s with regs := u.regs }) : u.freeHeld =
    { s with regs := u.freeHeld.regs, err := { s.err with held := u.freeHeld.err.held } } := by
  rw [h]
  rfl

/-- The consumer index that a written value stores (R421). -/
def State.consumerOf (s : State) (v : Nat) : Nat :=
  let p := s.fget F.ERR_PRODUCER_INDEX
  let d := (v % 2 ^ 32 + 2 ^ 32 - p) % 2 ^ 32
  if 1 ≤ d ∧ d ≤ 2 ^ 31 - 1 then p else v % 2 ^ 32

theorem State.consumerOf_lt (s : State) (v : Nat) : s.consumerOf v < 2 ^ 32 := by
  have hp : s.fget F.ERR_PRODUCER_INDEX < 2 ^ 32 := s.fget_lt (by decide)
  simp only [State.consumerOf]
  split <;> omega

section
variable (s : State) (v : Nat)

theorem State.writeConsumer_eq : s.writeConsumer v = (s.fset F.ERR_CONSUMER_INDEX (s.consumerOf v)).freeHeld := by
  have hp : s.fget F.ERR_PRODUCER_INDEX % 2 ^ 32 = s.fget F.ERR_PRODUCER_INDEX := Nat.mod_eq_of_lt (s.fget_lt (by decide))
  simp only [State.writeConsumer, State.consumerOf, subMod, hp, show ∀ d, d < 2 ^ 31 ↔ d ≤ 2 ^ 31 - 1 by omega]

theorem State.consumer_writeConsumer : (s.writeConsumer v).fget F.ERR_CONSUMER_INDEX = s.consumerOf v := by
  rw [s.writeConsumer_eq, State.fget_freeHeld _ (by decide), State.fget_fset_same _ _ listed_errConsumer]
  exact Nat.mod_eq_of_lt (s.consumerOf_lt v)

variable {v}

theorem State.mem_held_of_writeConsumer {x : HeldRec} (h : x ∈ (s.writeConsumer v).err.held) : x ∈ s.err.held := by
  rw [s.writeConsumer_eq] at h
  have hmem := State.mem_held_of_freeHeld (s := s.fset ..) h
  rwa [State.err_fset] at hmem

theorem State.mem_writeConsumer_of_not_logged {x : HeldRec} (h : x ∈ s.err.held) (hlog : x.logged = false) :
    x ∈ (s.writeConsumer v).err.held := by
  rw [s.writeConsumer_eq]
  exact State.mem_freeHeld_of_not_logged (s := s.fset ..) (by rwa [State.err_fset]) hlog

variable (v)

theorem State.writeConsumer_frame : s.writeConsumer v =
    { s with regs := (s.writeConsumer v).regs, err := { s.err with held := (s.writeConsumer v).err.held } } := by
  rw [s.writeConsumer_eq]
  exact State.freeHeld_frame rfl

end

theorem errConsumerWrite_stores (v : Word) (s : State) : Runs (.errConsumerWrite v) s (fun t =>
    t.fget F.ERR_CONSUMER_INDEX = s.consumerOf v.toNat ∧ (∀ x ∈ t.err.held, x ∈ s.err.held) ∧
    (∀ x ∈ s.err.held, x.logged = false → x ∈ t.err.held) ∧
    t = { s with regs := t.regs, err := { s.err with held := t.err.held } }) :=
  ⟨s.writeConsumer v.toNat, rfl, s.consumer_writeConsumer _, fun _ => s.mem_held_of_writeConsumer,
    fun _ => s.mem_writeConsumer_of_not_logged, s.writeConsumer_frame _⟩

/-- Settles O39: the record as it leaves its unit, its bits, the collector's answer to it, its copy and its release. -/
theorem errorsAreCollected : Obligations.ErrorsAreCollected := by
  unfold Obligations.ErrorsAreCollected
  refine ⟨State.recordOf_in_flight, fun s e hsev hesc => ?_,
    fun r hcode hsev hblk hinst hfjob hbeat htime hdetail hjob => ?_, fun unit s h => ⟨s, errRec_waits h, rfl⟩,
    fun unit s u r hfind htake => ⟨State.takeParts_frame htake, ?_⟩, fun s e => logCopy_logs, errConsumerWrite_stores⟩
  · rw [State.raise_of_not_escalates hsev hesc]
    exact State.raiseRec_of_not_escalates hesc
  · obtain ⟨pcode, psev, pduring, pescalated, prest, pjob, pvalid, pjobs, pzero, pinst, pblk, pfjob, pbeat, ptime,
      pdetail⟩ :=
      ErrRec.bits_pack hcode hsev hblk hinst hfjob hbeat htime hdetail hjob
    refine ⟨pcode, psev, bit_of_bits pduring, bit_of_bits pescalated, prest, fun j hj => ?_, fun hnone => ?_, pzero, pinst,
      pblk, pfjob, pbeat, ptime, pdetail⟩
    · have hlt := hjob j hj
      have hvalid : b2n true = 1 := rfl
      rw [hj, jobBits] at pjob pvalid
      exact ⟨by omega, bit_of_bits (by omega)⟩
    · rw [pjobs, hnone]
      rfl
  · refine ⟨fun ⟨hsev, hfull⟩ => ?_, fun ⟨hsev, hfull⟩ => ?_, errRec_accepts hfind htake⟩
    · exact errRec_drops hfind htake (by rwa [if_pos hsev]) (State.dropRec_low _ hsev)
    · have hsevere : ¬ r.sev ≤ 1 := Nat.not_le.2 hsev
      exact errRec_drops hfind htake (by rwa [if_neg hsevere]) (State.dropRec_severe _ hsevere)

end Sys2Proof.Machine

/-! SUPPORT. Sealed packets (R249, R403): what a route plan and a tag leave of a header unit, and lines as bytes and as units. -/

namespace Sys2Proof.Machine

/-! ### Header units (R249) -/

/-- Two header units agree below TAG, but perhaps in PLAN. -/
def SameButPlan (w u : Nat) : Prop := ∀ i < 160, i ≠ 121 → w.testBit i = u.testBit i

theorem SameButPlan.bits_eq {w u : Nat} (h : SameButPlan w u) {hi lo : Nat} (hhi : hi < 160) (hplan : hi < 121 ∨ 121 < lo) :
    bits w hi lo = bits u hi lo := by
  refine Nat.eq_of_testBit_eq fun i => ?_
  simp only [bits, Nat.testBit_mod_two_pow, Nat.testBit_shiftRight]
  by_cases hi' : i < hi + 1 - lo
  · rw [h (lo + i) (by omega) (by omega)]
  · simp only [hi', decide_false, Bool.false_and]

theorem SameButPlan.bit_eq {w u : Nat} (h : SameButPlan w u) {i : Nat} (hi : i < 160) (hplan : i ≠ 121) : bit w i = bit u i :=
  h i hi hplan

/-- Such headers differ in their route plan alone. -/
theorem SameButPlan.unpack_eq {w u : Nat} (h : SameButPlan w u) :
    FabHdr.unpack w = { FabHdr.unpack u with plan := bits w 121 121 } := by
  simp (disch := omega) only [FabHdr.unpack, h.bits_eq, h.bit_eq]

/-- The nonce does not depend on the route plan (R403). -/
theorem SameButPlan.pktNonce_eq {w u : Nat} (h : SameButPlan w u) (plane n : Nat) :
    pktNonce (FabHdr.unpack w) plane n = pktNonce (FabHdr.unpack u) plane n := by
  rw [h.unpack_eq]
  unfold pktNonce
  dsimp only

/-- Nor does the authenticated data, which also leaves TAG out (R249). -/
theorem SameButPlan.pktAad_eq {w u : Nat} (h : SameButPlan w u) : pktAad w = pktAad u := by
  have hdata : setBits w 121 1 0 % 2 ^ 160 = setBits u 121 1 0 % 2 ^ 160 := by
    refine Nat.eq_of_testBit_eq fun i => ?_
    simp only [Nat.testBit_mod_two_pow, testBit_setBits _ _ _ _ _ Nat.one_pos]
    by_cases hi : i < 160
    · by_cases hplan : 121 ≤ i ∧ i < 121 + 1
      · simp only [if_pos hplan]
      · simp only [if_neg hplan, h i hi (by omega)]
    · simp only [hi, decide_false, Bool.false_and]
  rw [pktAad, hdata, pktAad]

theorem FabPkt.testBit_setPlan (p : FabPkt) (plan : Nat) {i : Nat} (h : i ≠ 121) :
    (p.setPlan plan).hdr.toNat.testBit i = p.hdr.toNat.testBit i := by
  have hplan : ¬ (121 ≤ i ∧ i < 121 + 1) := by omega
  rw [FabPkt.setPlan, BitVec.toNat_ofNat, Nat.testBit_mod_two_pow, testBit_setBits _ _ _ _ _ Nat.one_pos, if_neg hplan]
  by_cases hi : i < 256
  · simp only [hi, decide_true, Bool.true_and]
  · rw [Nat.testBit_lt_two_pow (Nat.lt_of_lt_of_le p.hdr.isLt (Nat.pow_le_pow_right Nat.two_pos (Nat.not_lt.1 hi)))]
    simp only [hi, decide_false, Bool.false_and]

/-- The TAG of a header unit, whatever its route plan. -/
theorem FabPkt.tag_setPlan (p : FabPkt) (plan : Nat) : bits (p.setPlan plan).hdr.toNat 255 160 = bits p.hdr.toNat 255 160 := by
  refine Nat.eq_of_testBit_eq fun i => ?_
  simp only [bits, Nat.testBit_mod_two_pow, Nat.testBit_shiftRight, p.testBit_setPlan plan (show 160 + i ≠ 121 by omega)]

/-! ### Sealing (R403) -/

/-- The ciphertext of a packet, and the tag that the key gives it. -/
def sealText (key plane n : Nat) (p : FabPkt) : List Byte := gcmXor (keyOf key) (pktNonce p.head plane n) (linesBytes p.lines)
def sealTag (key plane n : Nat) (p : FabPkt) : Nat :=
  (Config.gcmTag (keyOf key) (pktNonce p.head plane n) (pktAad p.hdr.toNat) (sealText key plane n p)).toNat / 2 ^ 32

section
variable (key plane n : Nat) (p : FabPkt)

theorem sealTag_lt : sealTag key plane n p < 2 ^ 96 :=
  Nat.div_lt_of_lt_mul (BitVec.isLt _)

theorem sealPkt_hdr : (sealPkt key plane n p).hdr.toNat = p.hdr.toNat % 2 ^ 160 + sealTag key plane n p * 2 ^ 160 := by
  have hlt := sealTag_lt key plane n p
  have hdef : (sealPkt key plane n p).hdr = BitVec.ofNat 256 (p.hdr.toNat % 2 ^ 160 + sealTag key plane n p * 2 ^ 160) := rfl
  rw [hdef, BitVec.toNat_ofNat]
  omega

theorem tag_sealPkt : bits (sealPkt key plane n p).hdr.toNat 255 160 = sealTag key plane n p := by
  rw [sealPkt_hdr]
  exact bits_high _ _ 160 96 (sealTag_lt key plane n p) (by decide)

/-- Sealing and the route plan leave the rest of the header unit as it was. -/
theorem sameButPlan_sealed (plan : Nat) : SameButPlan ((sealPkt key plane n p).setPlan plan).hdr.toNat p.hdr.toNat := by
  intro i hi hplan
  rw [FabPkt.testBit_setPlan _ _ hplan, sealPkt_hdr]
  exact bit_low _ _ 160 i hi

end

/-! ### Lines as bytes -/

theorem bytesLines_length (n : Nat) (bs : List Byte) : (bytesLines n bs).length = n := by
  induction n generalizing bs with
  | zero => rfl
  | succ n ih => rw [bytesLines, List.length_cons, ih]

theorem linesBytes_length (ls : List Line) : (linesBytes ls).length = 64 * ls.length := by
  induction ls with
  | nil => rfl
  | cons l ls ih =>
    simp only [linesBytes, List.flatMap_cons, List.length_append, leBytes_length, List.length_cons] at ih ⊢
    omega

/-- The bytes of lines that were made of bytes. -/
theorem linesBytes_bytesLines {n : Nat} {bs : List Byte} (h : bs.length = 64 * n) : linesBytes (bytesLines n bs) = bs := by
  induction n generalizing bs with
  | zero => exact (List.eq_nil_of_length_eq_zero h).symm
  | succ n ih =>
    have htake : (bs.take 64).length = 64 := by rw [List.length_take]; omega
    have hlt := leNat_lt (bs.take 64)
    rw [htake] at hlt
    have hline : leBytes 64 (BitVec.ofNat 512 (leNat (bs.take 64))).toNat = bs.take 64 := by
      rw [BitVec.toNat_ofNat, Nat.mod_eq_of_lt (by omega)]
      have hback := leBytes_leNat (bs.take 64)
      rwa [htake] at hback
    have hrest := ih (bs := bs.drop 64) (by rw [List.length_drop]; omega)
    rw [linesBytes] at hrest ⊢
    rw [bytesLines, List.flatMap_cons, hline, hrest, List.take_append_drop]

/-- The lines of bytes that were made of lines. -/
theorem bytesLines_linesBytes (ls : List Line) : bytesLines ls.length (linesBytes ls) = ls := by
  induction ls with
  | nil => rfl
  | cons l ls ih =>
    have hlen : (leBytes 64 l.toNat).length = 64 := leBytes_length ..
    have hlt := l.isLt
    have hline : BitVec.ofNat 512 (leNat (leBytes 64 l.toNat)) = l := by
      rw [leNat_leBytes, Nat.mod_eq_of_lt (by omega), BitVec.ofNat_toNat, BitVec.setWidth_eq]
    have hcons : linesBytes (l :: ls) = leBytes 64 l.toNat ++ linesBytes ls := rfl
    rw [hcons, List.length_cons, bytesLines, List.take_left' hlen, List.drop_left' hlen, hline, ih]

/-! ### Lines as units (R228) -/

/-- The two units of a line. -/
def lineUnits (l : Line) : List (BitVec 256) := [BitVec.ofNat 256 l.toNat, BitVec.ofNat 256 (l.toNat / 2 ^ 256)]

/-- The line of two units. -/
def unitsLine (us : List (BitVec 256)) (i : Nat) : Line :=
  BitVec.ofNat 512 ((us.getD (2 * i) 0).toNat + (us.getD (2 * i + 1) 0).toNat * 2 ^ 256)

theorem unitsLine_lineUnits (l : Line) (us : List (BitVec 256)) : unitsLine (lineUnits l ++ us) 0 = l := by
  have hlt := l.isLt
  have hsum : (BitVec.ofNat 256 l.toNat).toNat + (BitVec.ofNat 256 (l.toNat / 2 ^ 256)).toNat * 2 ^ 256 = l.toNat := by
    rw [BitVec.toNat_ofNat, BitVec.toNat_ofNat]
    omega
  exact (congrArg (BitVec.ofNat 512) hsum).trans (by rw [BitVec.ofNat_toNat, BitVec.setWidth_eq])

/-- The units of lines give the lines back. -/
theorem map_unitsLine (ls : List Line) :
    (List.range ((ls.flatMap lineUnits).length / 2)).map (unitsLine (ls.flatMap lineUnits)) = ls := by
  induction ls with
  | nil => rfl
  | cons l ls ih =>
    have hlen : ((l :: ls).flatMap lineUnits).length / 2 = (ls.flatMap lineUnits).length / 2 + 1 := by
      rw [List.flatMap_cons, List.length_append, show (lineUnits l).length = 2 from rfl]
      omega
    rw [hlen, List.range_succ_eq_map, List.map_cons, List.map_map, List.flatMap_cons, unitsLine_lineUnits]
    exact congrArg (l :: ·) ih

end Sys2Proof.Machine

/-! OBLIGATION O30. What is sealed opens, and packed headers and units give back what was packed. -/

namespace Sys2Proof.Machine

/-- Opening a sealed packet gives its lines, and it authenticates (R403). -/
theorem openPkt_sealPkt (key plane n plan : Nat) (p : FabPkt) :
    openPkt key plane n ((sealPkt key plane n p).setPlan plan) = (p.lines, true) := by
  have hsame := sameButPlan_sealed key plane n p plan
  have hnonce : pktNonce ((sealPkt key plane n p).setPlan plan).head plane n = pktNonce p.head plane n := hsame.pktNonce_eq plane n
  have hlines : ((sealPkt key plane n p).setPlan plan).lines = bytesLines p.lines.length (sealText key plane n p) := rfl
  have htext : linesBytes (bytesLines p.lines.length (sealText key plane n p)) = sealText key plane n p :=
    linesBytes_bytesLines (by rw [sealText, gcmXor_length, linesBytes_length])
  have htag := ((sealPkt key plane n p).tag_setPlan plan).trans (tag_sealPkt key plane n p)
  unfold openPkt
  dsimp only
  rw [hnonce, hlines, htext, bytesLines_length, hsame.pktAad_eq, htag]
  refine Prod.ext ?_ (decide_eq_true rfl)
  dsimp only
  rw [sealText, gcmXor_twice, bytesLines_linesBytes]

/-- The units of a packet give the packet back (R228). -/
theorem RPkt.pkt_of_units {p : FabPkt} {r : RPkt} (h : r.units = p.units) : r.pkt = p := by
  rw [RPkt.pkt, h]
  exact congrArg (FabPkt.mk p.hdr) (map_unitsLine p.lines)

/-! ### Packed headers (R227, R249) -/

theorem FabHdr.unpack_pack {h : FabHdr} (hgen : h.gen < 2 ^ 12) (hrtag : h.rtag < 2 ^ 17) (hpoison : h.poison < 2 ^ 4)
    (hepoch : h.epoch < 2 ^ 4) (hplan : h.plan < 2) (hsiginc : h.siginc < 2 ^ 8) (hsigidx : h.sigidx < 2 ^ 13)
    (haddr : h.addr < 2 ^ 36) (heseq : h.eseq < 2 ^ 16) (hfjob : h.fjob < 2 ^ 16) (hsrc : h.src < 2 ^ 12) (hdst : h.dst < 2 ^ 12)
    (hkind : h.kind < 2 ^ 4) (hd : h.d < 2 ^ 3) : FabHdr.unpack h.pack = h := by
  have hfence := b2n_lt h.fence
  have hmcast := b2n_lt h.mcast
  have hpack : h.pack = h.d + b2n h.mcast * 2 ^ 3 + h.kind * 2 ^ 4 + h.dst * 2 ^ 8 + h.src * 2 ^ 20 + h.fjob * 2 ^ 32 +
      h.eseq * 2 ^ 48 + h.addr * 2 ^ 64 + h.sigidx * 2 ^ 100 + h.siginc * 2 ^ 113 + h.plan * 2 ^ 121 + b2n h.fence * 2 ^ 122 +
      h.epoch * 2 ^ 123 + h.poison * 2 ^ 127 + h.rtag * 2 ^ 131 + h.gen * 2 ^ 148 := by
    rw [FabHdr.pack]
    omega
  have hb (hi lo : Nat) : bits h.pack hi lo = h.pack / 2 ^ lo % 2 ^ (hi + 1 - lo) := by rw [bits, Nat.shiftRight_eq_div_pow]
  change FabHdr.unpack h.pack =
    ⟨h.gen, h.rtag, h.poison, h.epoch, h.fence, h.plan, h.siginc, h.sigidx, h.addr, h.eseq, h.fjob, h.src, h.dst, h.kind, h.mcast, h.d⟩
  simp only [FabHdr.unpack, FabHdr.mk.injEq]
  refine ⟨?_, ?_, ?_, ?_, bit_of_bits ?_, ?_, ?_, ?_, ?_, ?_, ?_, ?_, ?_, ?_, bit_of_bits ?_, ?_⟩ <;>
    rw [hb, hpack] <;> omega

theorem FlitHdr.unpack_pack {h : FlitHdr} (htype : h.type < 2 ^ 4) (hseq : h.seq < 2 ^ 12) (hack : h.ack < 2 ^ 12)
    (hnakid : h.nakid < 4) (hvc : h.vc < 4) (hstart : h.start < 2 ^ 7) (hunits : h.units < 8) (hcrVc : h.crVc < 4)
    (hcrKind : h.crKind < 2) (hcrCount : h.crCount < 2 ^ 16) : FlitHdr.unpack h.pack = h := by
  have habort := b2n_lt h.abort
  have hreplay := b2n_lt h.replay
  have hnak := b2n_lt h.nak
  have hpack : h.pack = b2n h.abort * 2 ^ 32 + h.crCount * 2 ^ 33 + h.crKind * 2 ^ 49 + h.crVc * 2 ^ 50 + h.units * 2 ^ 52 +
      h.start * 2 ^ 55 + h.vc * 2 ^ 62 + b2n h.replay * 2 ^ 64 + h.nakid * 2 ^ 65 + b2n h.nak * 2 ^ 67 + h.ack * 2 ^ 68 +
      h.seq * 2 ^ 80 + h.type * 2 ^ 92 := by
    rw [FlitHdr.pack]
    omega
  have hb (hi lo : Nat) : bits h.pack hi lo = h.pack / 2 ^ lo % 2 ^ (hi + 1 - lo) := by rw [bits, Nat.shiftRight_eq_div_pow]
  change FlitHdr.unpack h.pack =
    ⟨h.type, h.seq, h.ack, h.nak, h.nakid, h.replay, h.vc, h.start, h.units, h.crVc, h.crKind, h.crCount, h.abort⟩
  simp only [FlitHdr.unpack, FlitHdr.mk.injEq]
  refine ⟨?_, ?_, ?_, bit_of_bits ?_, ?_, bit_of_bits ?_, ?_, ?_, ?_, ?_, ?_, ?_, bit_of_bits ?_⟩ <;>
    rw [hb, hpack] <;> omega

/-- Settles O30: a sealed packet opens, and headers and units give back what was packed. -/
theorem packetsOpen : Obligations.PacketsOpen := by
  unfold Obligations.PacketsOpen
  refine ⟨openPkt_sealPkt, fun h hgen hrtag hpoison hepoch hplan hsiginc hsigidx haddr heseq hfjob hsrc hdst hkind hd => ?_,
    fun h htype hseq hack hnakid hvc hstart hunits hcrVc hcrKind hcrCount => ?_, fun p r => RPkt.pkt_of_units⟩
  · exact FabHdr.unpack_pack hgen hrtag hpoison hepoch hplan hsiginc hsigidx haddr heseq hfjob hsrc hdst hkind hd
  · exact FlitHdr.unpack_pack htype hseq hack hnakid hvc hstart hunits hcrVc hcrKind hcrCount

end Sys2Proof.Machine

/-! SUPPORT. The ports (R219 to R222, R246): the registers of a port's state, the entry to a state, the values that a port takes on
its way through training, and the arrival of a good flit. -/

namespace Sys2Proof.Machine

/-! ### The registers of the ports' states (R246) -/

/-- LNK_PORT_STATE of every port. -/
def State.portRegs (s : State) (n : Nat) : Nat := s.reg (R.LNK_PORT_STATE (n / 8) (n % 8))

/-- A register is LNK_PORT_STATE of no port. -/
def NoPortState (a : Nat) : Prop := ∀ n, R.LNK_PORT_STATE (n / 8) (n % 8) ≠ a

/-- Those registers lie at 0x140 to 0x178 of their block. -/
theorem noPortState_of_offset {a : Nat} (h : a % 0x10000 < 0x140 ∨ 0x180 ≤ a % 0x10000) : NoPortState a := by
  intro n
  simp only [R.LNK_PORT_STATE]
  omega

theorem noPortState_ctrl (p : Nat) : NoPortState (R.LNK_PORT_CTRL (p / 8) (p % 8)) :=
  noPortState_of_offset (by simp only [R.LNK_PORT_CTRL]; omega)
theorem noPortState_partner (p : Nat) : NoPortState (R.LNK_PARTNER (p / 8) (p % 8)) :=
  noPortState_of_offset (by simp only [R.LNK_PARTNER]; omega)
theorem noPortState_fec (p : Nat) : NoPortState (R.LNK_FEC (p / 8) (p % 8)) :=
  noPortState_of_offset (by simp only [R.LNK_FEC]; omega)
theorem noPortState_bypass (p : Nat) : NoPortState (R.LNK_BYPASS (p / 8) (p % 8)) :=
  noPortState_of_offset (by simp only [R.LNK_BYPASS]; omega)
theorem noPortState_transit (p : Nat) : NoPortState (R.LNK_TRANSIT (p / 8) (p % 8)) :=
  noPortState_of_offset (by simp only [R.LNK_TRANSIT]; omega)

theorem portState_ne {n p : Nat} (h : n ≠ p) : R.LNK_PORT_STATE (n / 8) (n % 8) ≠ R.LNK_PORT_STATE (p / 8) (p % 8) := by
  simp only [R.LNK_PORT_STATE]
  omega

/-- Fields of any registers whose bits lie apart. -/
theorem Fld.Apart.of_bits {a b lo w lo' w' : Nat} (hw : 0 < w') (h : lo + w ≤ lo' ∨ lo' + w' ≤ lo) :
    Fld.Apart ⟨a, lo, w⟩ ⟨b, lo', w'⟩ := .inr ⟨hw, h⟩

/-- Every field that a row lists for LNK_PORT_STATE is stored whole. -/
theorem listed_portState {p lo w : Nat} (hp : p < 32)
    (hrow : ∃ r ∈ Blk.lnk.rows, r.off = 0x140 ∧ r.n1 = 8 ∧ r.s1 = 8 ∧ 0 < r.n2 ∧ ∃ f ∈ r.fields, f.lo = lo ∧ f.width = w) :
    Fld.Listed ⟨R.LNK_PORT_STATE (p / 8) (p % 8), lo, w⟩ :=
  Fld.listed_of_row .lnk (p / 8) 0x140 8 8 (p % 8) (by simp only [Blk.count]; omega) (Nat.mod_lt _ (by decide)) hrow
    (by simp only [R.LNK_PORT_STATE, Blk.base, Blk.base0, Blk.stride]; omega)

theorem listed_portEnable {p : Nat} (hp : p < 32) : (F.LNK_PORT_CTRL_ENABLE (p / 8) (p % 8)).Listed :=
  Fld.listed_of_row .lnk (p / 8) 0x100 8 8 (p % 8) (by simp only [Blk.count]; omega) (Nat.mod_lt _ (by decide)) (by decide)
    (by simp only [R.LNK_PORT_CTRL, Blk.base, Blk.base0, Blk.stride]; omega)

section
variable (s : State)

theorem State.portSt_eq (n : Nat) : s.portSt n = bits (s.portRegs n) 3 0 := rfl

theorem State.portSt_congr {s t : State} {n : Nat} (h : t.portRegs n = s.portRegs n) : t.portSt n = s.portSt n := by
  rw [State.portSt_eq, State.portSt_eq, h]

theorem State.portRegs_setReg {a : Nat} (v : Nat) (h : NoPortState a) : (s.setReg a v).portRegs = s.portRegs :=
  funext fun n => s.reg_setReg_other v (h n)

theorem State.portRegs_fset {f : Fld} (v : Nat) (h : NoPortState f.addr) : (s.fset f v).portRegs = s.portRegs :=
  s.portRegs_setReg _ h

theorem State.portRegs_fset_other {p n : Nat} (lo w v : Nat) (h : n ≠ p) :
    (s.fset ⟨R.LNK_PORT_STATE (p / 8) (p % 8), lo, w⟩ v).portRegs n = s.portRegs n :=
  s.reg_fset_other v (portState_ne h)

@[simp] theorem State.portRegs_updLink (p : Nat) (f : Link → Link) : (s.updLink p f).portRegs = s.portRegs := (rfl)
@[simp] theorem State.portSt_updLink (p : Nat) (f : Link → Link) (n : Nat) : (s.updLink p f).portSt n = s.portSt n := (rfl)
@[simp] theorem State.reg_updLink (p : Nat) (f : Link → Link) (a : Nat) : (s.updLink p f).reg a = s.reg a := (rfl)

theorem State.link_fwrap (f : Fld) (k n : Nat) : (s.fwrap f k).link n = s.link n := s.setReg_to_link ..
theorem State.link_fsat (f : Fld) (k n : Nat) : (s.fsat f k).link n = s.link n := s.setReg_to_link ..

/-! ### The entry to a state (R220) -/

/-- The link state of a port that enters a state at a time. -/
def Link.entered (l : Link) (now : Nat) : Link := { l with since := now, goodAt := now }

theorem State.setPort_eq (p st : Nat) : s.setPort p st =
    ((s.fset (F.LNK_PORT_STATE_STATE (p / 8) (p % 8)) st).updLink p (fun l => l.entered s.refNs)).trace 3 (24 + p / 8) none (p + 256 * st) :=
  rfl

theorem State.setPort_frame (p st : Nat) :
    s.setPort p st = { s with regs := (s.setPort p st).regs, links := (s.setPort p st).links, tck := (s.setPort p st).tck } := by
  rw [State.setPort_eq, State.trace_frame]
  rfl

theorem State.links_setPort (p st : Nat) : (s.setPort p st).links = (s.updLink p (fun l => l.entered s.refNs)).links := by
  rw [State.setPort_eq, State.trace_frame]
  rfl

theorem State.link_setPort (p st n : Nat) : (s.setPort p st).link n = (s.updLink p (fun l => l.entered s.refNs)).link n :=
  congrArg (Tab.get Link.zeroF · n) (s.links_setPort p st)

@[simp] theorem State.link_setPort_same (p st : Nat) : (s.setPort p st).link p = (s.link p).entered s.refNs :=
  (s.link_setPort p st p).trans (s.updLink_same ..)

theorem State.link_setPort_other {p n : Nat} (st : Nat) (h : n ≠ p) : (s.setPort p st).link n = s.link n :=
  (s.link_setPort p st n).trans (s.updLink_other _ h)

theorem State.reg_setPort {p a : Nat} (st : Nat) (hp : a ≠ R.LNK_PORT_STATE (p / 8) (p % 8)) (hlsp : a ≠ R.TCK_LSP_STAT) :
    (s.setPort p st).reg a = s.reg a := by
  rw [State.setPort_eq, State.reg_trace _ _ _ _ _ hlsp, State.reg_updLink]
  exact s.reg_fset_other _ hp

theorem State.fget_setPort {p : Nat} (st : Nat) {g : Fld} (hg : g.Listed)
    (hapart : g.Apart (F.LNK_PORT_STATE_STATE (p / 8) (p % 8))) (hlsp : g.addr ≠ R.TCK_LSP_STAT) :
    (s.setPort p st).fget g = s.fget g := by
  rw [State.setPort_eq, State.fget_trace _ _ _ _ _ hlsp]
  exact s.fget_fset_apart _ hg hapart

theorem State.portSt_trace (src r : Nat) (job : Option Nat) (data n : Nat) : (s.trace src r job data).portSt n = s.portSt n :=
  s.fget_trace _ _ _ _ (noPortState_of_offset (by decide) n)

theorem State.portSt_setPort_same {p st : Nat} (hp : p < 32) (hst : st < 16) : (s.setPort p st).portSt p = st := by
  rw [State.setPort_eq, State.portSt_trace, State.portSt_updLink]
  exact (s.fget_fset_same st (listed_portState hp (by decide))).trans (Nat.mod_eq_of_lt hst)

theorem State.portSt_setPort_other {p n : Nat} (st : Nat) (h : n ≠ p) : (s.setPort p st).portSt n = s.portSt n := by
  rw [State.setPort_eq, State.portSt_trace, State.portSt_updLink]
  exact State.portSt_congr (s.portRegs_fset_other _ _ _ h)

end

/-! ### One port and the registers -/

/-- Nothing changes but registers and one port's link state. -/
def OnlyPort (p : Nat) (s t : State) : Prop := t = { s with regs := t.regs, links := t.links } ∧ ∀ n, n ≠ p → t.link n = s.link n

section
variable {s t u : State} {p : Nat}

theorem OnlyPort.refl (p : Nat) (s : State) : OnlyPort p s s := ⟨rfl, fun _ _ => rfl⟩

theorem OnlyPort.trans (h : OnlyPort p s t) (k : OnlyPort p t u) : OnlyPort p s u := by
  obtain ⟨hframe, hlinks⟩ := h
  obtain ⟨kframe, klinks⟩ := k
  refine ⟨?_, fun n hn => (klinks n hn).trans (hlinks n hn)⟩
  generalize u.regs = regs at *
  generalize u.links = links at *
  rw [kframe, hframe]

theorem OnlyPort.refNs_eq (h : OnlyPort p s t) : t.refNs = s.refNs := by
  rw [h.1]
  rfl

theorem onlyPort_setReg (s : State) (p a v : Nat) : OnlyPort p s (s.setReg a v) := ⟨rfl, fun n _ => s.setReg_to_link a v n⟩
theorem onlyPort_fset (s : State) (p : Nat) (f : Fld) (v : Nat) : OnlyPort p s (s.fset f v) := onlyPort_setReg ..
theorem onlyPort_fwrap (s : State) (p : Nat) (f : Fld) (k : Nat) : OnlyPort p s (s.fwrap f k) := onlyPort_setReg ..
theorem onlyPort_fsat (s : State) (p : Nat) (f : Fld) (k : Nat) : OnlyPort p s (s.fsat f k) := onlyPort_setReg ..
theorem onlyPort_updLink (s : State) (p : Nat) (f : Link → Link) : OnlyPort p s (s.updLink p f) :=
  ⟨rfl, fun _ hn => s.updLink_other f hn⟩
theorem onlyLink_updLink (s : State) (p : Nat) (f : Link → Link) : OnlyLink p s (s.updLink p f) :=
  ⟨rfl, fun _ hn => s.updLink_other f hn⟩

/-- A port moves when it enters a state after changes of its own and of registers. -/
theorem OnlyPort.portMoves {st : Nat} (h : OnlyPort p s u) (hp : p < 32) (hst : st < 16)
    (hstates : ∀ n, n ≠ p → u.portSt n = s.portSt n) : PortMoves p st s (u.setPort p st) := by
  refine ⟨u.portSt_setPort_same hp hst, ?_, fun n hn => ?_, fun n _ hn => ?_, ?_⟩
  · rw [State.link_setPort_same, Link.entered, h.refNs_eq]
  · rw [u.link_setPort_other st hn, h.2 n hn]
  · rw [u.portSt_setPort_other st hn, hstates n hn]
  · rw [State.setPort_frame]
    generalize u.setPort p st = v
    rw [h.1]

end

/-! ### The arrival of a flit (R218, R225, R226) -/

section
variable (s : State) (p n : Nat)

theorem State.onlyPort_countFec : OnlyPort p s (s.countFec p n) := (onlyPort_fwrap ..).trans (onlyPort_updLink ..)

/-- The link state of a port that has heard a good flit. -/
theorem State.link_heard : (heard s p n true).link p =
    { s.link p with
      fecSyms := (s.link p).fecSyms + n, goodAt := s.refNs
      rxScr := (scrFlit (s.fget (F.LNK_PORT_STATE_LANES_GOOD (p / 8) (p % 8))) (s.link p).rxScr).2 } := by
  rw [heard, if_pos rfl, State.updLink_same, State.updLink_same, State.countFec, State.updLink_same, State.link_fwrap]

theorem State.onlyPort_heard (good : Bool) : OnlyPort p s (heard s p n good) := by
  have hheard := (s.onlyPort_countFec p n).trans (onlyPort_updLink (s.countFec p n) p (fun l =>
    { l with rxScr := (scrFlit (s.fget (F.LNK_PORT_STATE_LANES_GOOD (p / 8) (p % 8))) l.rxScr).2 }))
  unfold heard
  split
  · exact hheard.trans (onlyPort_updLink ..)
  · exact hheard

theorem State.portRegs_countFec : (s.countFec p n).portRegs = s.portRegs :=
  (State.portRegs_updLink ..).trans (s.portRegs_fset _ (noPortState_fec p))

theorem State.portRegs_heard (good : Bool) : (heard s p n good).portRegs = s.portRegs := by
  unfold heard
  split
  · rw [State.portRegs_updLink, State.portRegs_updLink, State.portRegs_countFec]
  · rw [State.portRegs_updLink, State.portRegs_countFec]

theorem State.portSt_heard (good : Bool) (m : Nat) : (heard s p n good).portSt m = s.portSt m :=
  State.portSt_congr (congrFun (s.portRegs_heard p n good) m)

end

/-- A good flit is heard and taken. -/
theorem State.arriveFlit_good {s : State} {p : Nat} {levels : BitVec 2048} {h : FlitHdr} {pay n : Nat} (hr : s.receives p = true)
    (hc : Carries s p levels h pay n) : s.arriveFlit p levels = (heard s p n true).takeGood p h pay := by
  obtain ⟨hdr, hrx, rfl⟩ := hc
  rw [State.arriveFlit, if_pos hr, hrx]
  rfl

end Sys2Proof.Machine

/-! SUPPORT. Training (R219 to R222): the configuration and the lanes that a port takes, an agreement on a version, and what a
flit that arrives leaves before it is taken. -/

namespace Sys2Proof.Machine

section
variable {s : State} {p : Nat}

/-! ### Leaving OFF (R220, R468) -/

/-- ENABLE is set, and the port leaves OFF when nothing holds it there. -/
theorem State.portEnable_starts (hp : p < 32) (hoff : s.portSt p = 0) (hfatal : s.err.fatal = false)
    (hrom : s.fget F.TCK_STATE_STATE ≠ 0) (hrecovery : s.fget F.TCK_STATE_STATE ≠ 3)
    (href : s.fbit F.PCR_TIME_STATUS_REF_PRESENT = true) (hblk : s.enabled (Blk.base .lnk (p / 8)) = true) :
    s.portEnable p = (s.fset (F.LNK_PORT_CTRL_ENABLE (p / 8) (p % 8)) 1).enterDetect p := by
  have hother (g : Fld) (hg : g.addr ≠ R.LNK_PORT_CTRL (p / 8) (p % 8)) :
      (s.fset (F.LNK_PORT_CTRL_ENABLE (p / 8) (p % 8)) 1).fget g = s.fget g := s.fget_fset_other 1 hg
  have henable : (s.fset (F.LNK_PORT_CTRL_ENABLE (p / 8) (p % 8)) 1).fget (F.LNK_PORT_CTRL_ENABLE (p / 8) (p % 8)) = 1 :=
    s.fget_fset_same 1 (listed_portEnable hp)
  refine if_pos ⟨(hother _ (noPortState_ctrl p p)).trans hoff, ?_, ?_, ?_, ?_, ?_⟩
  · rw [State.portMayStart, State.fbit, henable, State.err_fset, hfatal]
    rfl
  · rwa [hother _ (by simp only [F.TCK_STATE_STATE, R.TCK_STATE, R.LNK_PORT_CTRL]; omega)]
  · rwa [hother _ (by simp only [F.TCK_STATE_STATE, R.TCK_STATE, R.LNK_PORT_CTRL]; omega)]
  · rwa [State.fbit, hother _ (by simp only [F.PCR_TIME_STATUS_REF_PRESENT, R.PCR_TIME_STATUS, R.LNK_PORT_CTRL]; omega)]
  · rwa [State.enabled, State.fbit, hother _ (by
      simp only [F.BLK_CTRL_ENABLE, R.BLK_CTRL, Blk.base, Blk.base0, Blk.stride, R.LNK_PORT_CTRL]; omega)]

/-- Otherwise ENABLE alone is set. -/
theorem State.portEnable_holds (h : s.portSt p ≠ 0 ∨ s.err.fatal = true) :
    s.portEnable p = s.fset (F.LNK_PORT_CTRL_ENABLE (p / 8) (p % 8)) 1 := by
  refine if_neg ?_
  rintro ⟨hoff, hmay, -⟩
  rw [State.portMayStart, State.err_fset, Bool.and_eq_true, Bool.not_eq_true'] at hmay
  have hstate : (s.fset (F.LNK_PORT_CTRL_ENABLE (p / 8) (p % 8)) 1).portSt p = s.portSt p := s.fget_fset_other 1 (noPortState_ctrl p p)
  rcases h with hon | hfatal
  · exact hon (hstate.symm.trans hoff)
  · exact absurd (hmay.2.symm.trans hfatal) (by decide)

/-- DETECT is entered with the configuration and the identity that the registers hold (R246, R248). -/
theorem State.link_enterDetect : (s.enterDetect p).link p =
    { s.link p with
      ctrl := s.reg (R.LNK_PORT_CTRL (p / 8) (p % 8)), cfg := s.reg (R.LNK_REPLAY_CFG (p / 8) (p % 8)), fid := s.reg R.FAB_ID
      since := s.refNs, goodAt := s.refNs } := by
  rw [State.enterDetect, State.link_setPort_same, State.takeCfg, State.updLink_same]
  rfl

theorem OnlyPort.enterDetect {u : State} (h : OnlyPort p s u) (hp : p < 32) (hstates : ∀ n, n ≠ p → u.portSt n = s.portSt n) :
    PortMoves p 1 s (u.enterDetect p) :=
  (h.trans (onlyPort_updLink ..)).portMoves hp (by decide) hstates

theorem portEnable_trains (p : PortId) (hoff : s.portSt p = 0) (hfatal : s.err.fatal = false)
    (hrom : s.fget F.TCK_STATE_STATE ≠ 0) (hrecovery : s.fget F.TCK_STATE_STATE ≠ 3)
    (href : s.fbit F.PCR_TIME_STATUS_REF_PRESENT = true) (hblk : s.enabled (Blk.base .lnk (p.val / 8)) = true) :
    Runs (.portEnable p) s (fun t => PortMoves p 1 s t ∧ t.fbit (F.LNK_PORT_CTRL_ENABLE (p.val / 8) (p.val % 8)) = true ∧
      (t.link p).ctrl = t.reg (R.LNK_PORT_CTRL (p.val / 8) (p.val % 8)) ∧
      (t.link p).cfg = s.reg (R.LNK_REPLAY_CFG (p.val / 8) (p.val % 8)) ∧ (t.link p).fid = s.reg R.FAB_ID) := by
  have hne : R.LNK_PORT_CTRL (p.val / 8) (p.val % 8) ≠ R.LNK_PORT_STATE (p.val / 8) (p.val % 8) := (noPortState_ctrl p p).symm
  have hlsp : R.LNK_PORT_CTRL (p.val / 8) (p.val % 8) ≠ R.TCK_LSP_STAT := by
    simp only [R.LNK_PORT_CTRL, R.TCK_LSP_STAT]
    omega
  refine ⟨_, congrArg Host.Outcome.next (State.portEnable_starts p.isLt hoff hfatal hrom hrecovery href hblk),
    (onlyPort_fset ..).enterDetect p.isLt (fun n _ => s.fget_fset_other 1 (noPortState_ctrl p n)), ?_, ?_, ?_, ?_⟩
  · have henable : ((s.fset (F.LNK_PORT_CTRL_ENABLE (p.val / 8) (p.val % 8)) 1).enterDetect p).fget
        (F.LNK_PORT_CTRL_ENABLE (p.val / 8) (p.val % 8)) = 1 :=
      (State.fget_setPort _ 1 (listed_portEnable p.isLt) (.inl hne) hlsp).trans (s.fget_fset_same 1 (listed_portEnable p.isLt))
    exact decide_eq_true (by rw [henable]; decide)
  · rw [State.link_enterDetect]
    exact (State.reg_setPort ((s.fset (F.LNK_PORT_CTRL_ENABLE (p.val / 8) (p.val % 8)) 1).takeCfg p true) 1 hne hlsp).symm
  · rw [State.link_enterDetect]
    exact s.reg_fset_other 1 (by simp only [R.LNK_REPLAY_CFG, F.LNK_PORT_CTRL_ENABLE, R.LNK_PORT_CTRL]; omega)
  · rw [State.link_enterDetect]
    exact s.reg_fset_other 1 (by simp only [R.FAB_ID, F.LNK_PORT_CTRL_ENABLE, R.LNK_PORT_CTRL]; omega)

/-! ### Lanes (R219) -/

theorem workingSet_cases {lanes w : Nat} (h : s.workingSet p lanes = some w) : w = 255 ∨ w = 0x0F ∨ w = 0xF0 := by
  simp only [State.workingSet, goodHalf] at h
  split at h
  · exact .inl (Option.some.inj h).symm
  · split at h
    · exact absurd h (by simp)
    · split at h
      · exact .inr (.inl (Option.some.inj h).symm)
      · split at h
        · exact .inr (.inr (Option.some.inj h).symm)
        · exact absurd h (by simp)

section
variable (s : State) {p : Nat} (rate w : Nat)

theorem State.onlyPort_setLanes : OnlyPort p s (s.setLanes p rate w) :=
  ((onlyPort_fset ..).trans (onlyPort_fset ..)).trans (onlyPort_fset ..)

theorem State.portRegs_setLanes_other {n : Nat} (h : n ≠ p) : (s.setLanes p rate w).portRegs n = s.portRegs n := by
  rw [State.setLanes, F.LNK_PORT_STATE_WIDTH4, F.LNK_PORT_STATE_LANES_GOOD, F.LNK_PORT_STATE_RATE,
    State.portRegs_fset_other _ _ _ _ h, State.portRegs_fset_other _ _ _ _ h, State.portRegs_fset_other _ _ _ _ h]

theorem State.rate_setLanes (hp : p < 32) : (s.setLanes p rate w).fget (F.LNK_PORT_STATE_RATE (p / 8) (p % 8)) = rate % 4 := by
  have hlisted : (F.LNK_PORT_STATE_RATE (p / 8) (p % 8)).Listed := listed_portState hp (by decide)
  rw [State.setLanes, F.LNK_PORT_STATE_WIDTH4, F.LNK_PORT_STATE_LANES_GOOD,
    State.fget_fset_apart _ _ hlisted (.of_bits (by decide) (by decide)),
    State.fget_fset_apart _ _ hlisted (.of_bits (by decide) (by decide))]
  exact s.fget_fset_same rate hlisted

theorem State.lanesGood_setLanes (hp : p < 32) :
    (s.setLanes p rate w).fget (F.LNK_PORT_STATE_LANES_GOOD (p / 8) (p % 8)) = w % 256 := by
  have hlisted : (F.LNK_PORT_STATE_LANES_GOOD (p / 8) (p % 8)).Listed := listed_portState hp (by decide)
  rw [State.setLanes, F.LNK_PORT_STATE_WIDTH4, State.fget_fset_apart _ _ hlisted (.of_bits (by decide) (by decide))]
  exact State.fget_fset_same _ w hlisted

theorem State.width4_setLanes (hp : p < 32) :
    (s.setLanes p rate w).fbit (F.LNK_PORT_STATE_WIDTH4 (p / 8) (p % 8)) = true ↔ w ≠ 255 := by
  have hwidth : (s.setLanes p rate w).fget (F.LNK_PORT_STATE_WIDTH4 (p / 8) (p % 8)) = b2n (w ≠ 255) % 2 :=
    State.fget_fset_same _ _ (listed_portState hp (by decide))
  rw [State.fbit, decide_eq_true_eq, hwidth]
  by_cases h : w = 255 <;> simp [h, b2n]

end

/-- A field of LNK_PORT_STATE beside STATE keeps its value when the port enters a state. -/
theorem State.fget_portState_setPort (s : State) {p lo w : Nat} (st : Nat) (hp : p < 32)
    (hrow : ∃ r ∈ Blk.lnk.rows, r.off = 0x140 ∧ r.n1 = 8 ∧ r.s1 = 8 ∧ 0 < r.n2 ∧ ∃ f ∈ r.fields, f.lo = lo ∧ f.width = w)
    (hlo : 4 ≤ lo) : (s.setPort p st).fget ⟨R.LNK_PORT_STATE (p / 8) (p % 8), lo, w⟩ =
      s.fget ⟨R.LNK_PORT_STATE (p / 8) (p % 8), lo, w⟩ :=
  s.fget_setPort st (listed_portState hp hrow) (.of_bits (by decide) (.inr (by omega))) (noPortState_of_offset (by decide) p)

theorem equaliseEnd_works (p : PortId) {lanes : BitVec 8} {w : Nat} (h2 : s.portSt p = 2) (hw : s.workingSet p lanes.toNat = some w) :
    Runs (.equaliseEnd p lanes) s (fun t => PortMoves p 3 s t ∧
      t.fget (F.LNK_PORT_STATE_RATE (p.val / 8) (p.val % 8)) = (s.link p).trial % 4 ∧
      t.fget (F.LNK_PORT_STATE_LANES_GOOD (p.val / 8) (p.val % 8)) = w ∧
      (t.fbit (F.LNK_PORT_STATE_WIDTH4 (p.val / 8) (p.val % 8)) = true ↔ w ≠ 255)) := by
  have hexec : exec (.equaliseEnd p lanes) s = .next ((s.setLanes p (s.link p).trial w).setPort p 3) := by
    refine congrArg Host.Outcome.next ((if_pos h2).trans ?_)
    rw [hw]
  have hmod : w % 256 = w := by
    rcases workingSet_cases hw with rfl | rfl | rfl <;> rfl
  refine ⟨_, hexec, (s.onlyPort_setLanes ..).portMoves p.isLt (by decide)
    (fun n hn => State.portSt_congr (s.portRegs_setLanes_other _ _ hn)), ?_, ?_, ?_⟩
  · exact (State.fget_portState_setPort _ 3 p.isLt (by decide) (by decide)).trans (s.rate_setLanes _ _ p.isLt)
  · exact ((State.fget_portState_setPort _ 3 p.isLt (by decide) (by decide)).trans (s.lanesGood_setLanes _ _ p.isLt)).trans hmod
  · rw [State.fbit, F.LNK_PORT_STATE_WIDTH4, State.fget_portState_setPort _ 3 p.isLt (by decide) (by decide)]
    exact s.width4_setLanes _ _ p.isLt

theorem equaliseEnd_fails (p : PortId) {lanes : BitVec 8} (h2 : s.portSt p = 2) (hw : s.workingSet p lanes.toNat = none) :
    exec (.equaliseEnd p lanes) s = .next (if (s.link p).trial = 0 then s.trainFailed p
      else s.updLink p (fun l => { l with trial := l.trial - 1, since := s.refNs })) := by
  refine congrArg Host.Outcome.next ((if_pos h2).trans ?_)
  rw [hw]

/-! ### Agreement (R222) -/

/-- An agreement turns on the configuration and the identity that the port has taken. -/
theorem State.agree_congr {t : State} (hctrl : (t.link p).ctrl = (s.link p).ctrl) (hfid : (t.link p).fid = (s.link p).fid)
    (c : BitVec 256) : t.agree p c = s.agree p c := by
  unfold State.agree Link.isYoke
  dsimp only
  rw [hctrl, hfid]

/-- The agreed versions are among those that the CAP flit names. -/
theorem State.agree_lt {c : BitVec 256} {a : Nat × Nat} (h : s.agree p c = some a) : a.1 < 16 ∧ a.2 < 256 := by
  unfold State.agree at h
  extract_lets l one n minor role plane mine myPlane cred at h
  have hn : n < 16 := by
    simp only [n]
    split
    · decide
    · split <;> decide
  have hminor : minor ≤ 3 := by
    simp only [minor]
    split <;> omega
  obtain ⟨-, hsome⟩ := Option.ite_none_right_eq_some.1 h
  obtain rfl := Option.some.inj hsome
  exact ⟨hn, by omega⟩

section
variable {c : BitVec 256} {a : Nat × Nat}

theorem State.portRegs_storeAgreed_other {n : Nat} (h : n ≠ p) : (s.storeAgreed p c a).portRegs n = s.portRegs n := by
  rw [State.storeAgreed, State.portRegs_setReg _ _ (noPortState_partner p), F.LNK_PORT_STATE_MINOR, F.LNK_PORT_STATE_MAJOR,
    State.portRegs_fset_other _ _ _ _ h, State.portRegs_fset_other _ _ _ _ h]

theorem State.major_storeAgreed (hp : p < 32) : (s.storeAgreed p c a).fget (F.LNK_PORT_STATE_MAJOR (p / 8) (p % 8)) = a.1 % 16 := by
  have hlisted : (F.LNK_PORT_STATE_MAJOR (p / 8) (p % 8)).Listed := listed_portState hp (by decide)
  rw [State.storeAgreed, State.fget_setReg_other _ _ (noPortState_partner p p), F.LNK_PORT_STATE_MINOR,
    State.fget_fset_apart _ _ hlisted (.of_bits (by decide) (by decide))]
  exact s.fget_fset_same a.1 hlisted

theorem State.minor_storeAgreed (hp : p < 32) : (s.storeAgreed p c a).fget (F.LNK_PORT_STATE_MINOR (p / 8) (p % 8)) = a.2 % 256 := by
  rw [State.storeAgreed, State.fget_setReg_other _ _ (noPortState_partner p p)]
  exact State.fget_fset_same _ a.2 (listed_portState hp (by decide))

theorem State.onlyPort_storeAgreed (s : State) (p : Nat) (c : BitVec 256) (a : Nat × Nat) : OnlyPort p s (s.storeAgreed p c a) :=
  ((onlyPort_fset ..).trans (onlyPort_fset ..)).trans (onlyPort_setReg ..)

/-- The link state with which a training ends (R222, R230 to R240). -/
def Link.opened (l : Link) (c : BitVec 256) (now : Nat) : Link :=
  { l with
    seq := 0, exp := 0, ack := 0xFFF, nak := none, nakid := 0, lastNak := 0, lastNakAck := none, held := [], replay := none, timer := now
    consec := 0, adv := capCredits c, cons := [], ret := [], freed := [], crNext := 0, bypGap := 7, reqGap := 0, byq := [], store := []
    ex := none, exAt := now, rsp := none, follow := none, fecAt := now }

/-- AGREED has gone both ways at the end of a training of a fabric port. -/
theorem State.enterActive_opens (hstate : s.portSt p = 4) (hcap : (s.link p).cap = some c) (hagree : s.agree p c = some a)
    (hsent : (s.link p).agreedSent = true) (hgot : (s.link p).agreedGot = true) (hyoke : (s.link p).isYoke = false) :
    s.enterActive p = ((s.storeAgreed p c a).updLink p (fun l => l.opened c s.refNs)).setPort p 5 := by
  have hbind : (s.link p).cap.bind (s.agree p) = some a := by rw [hcap, Option.bind_some, hagree]
  have hboth : ¬ (!((s.link p).agreedSent && (s.link p).agreedGot)) = true := by rw [hsent, hgot]; decide
  unfold State.enterActive
  dsimp only
  rw [hbind, hcap]
  dsimp only
  rw [if_neg hboth, if_pos hstate, if_neg (ne_true_of_eq_false hyoke)]
  rfl

/-- ACTIVE waits for an agreement that has gone both ways. -/
theorem State.enterActive_waits (h : (s.link p).cap.bind (s.agree p) = none ∨ (s.link p).agreedSent = false ∨
    (s.link p).agreedGot = false) : s.enterActive p = s := by
  unfold State.enterActive
  dsimp only
  split
  next c a hcap hagree =>
    have hnot : (!((s.link p).agreedSent && (s.link p).agreedGot)) = true := by
      rcases h with hnone | hsent | hgot
      · exact absurd (hnone.symm.trans hagree) (by simp)
      · rw [hsent]
        rfl
      · rw [hgot, Bool.and_false]
        rfl
    exact if_pos hnot
  next => rfl

end

/-! ### The exchange of CAP flits (R221, R222) -/

section
variable {c : BitVec 256}

/-- The link state after a CAP flit of the partner. -/
def State.capLink (s : State) (p : Nat) (c : BitVec 256) (l : Link) : Link :=
  { l with
    cap := some c, agreedGot := bit (capByte c 0) 0 && s.agree p c = some (capByte c 9, capByte c 10)
    agreedSent := l.agreedSent && (s.agree p c).isSome }

theorem State.takeCap_training (h4 : s.portSt p = 4) : s.takeCap p c = (s.updLink p (s.capLink p c)).enterActive p := by
  have hretrain : ¬ (s.portSt p = 6 ∧ (bits c.toNat 107 96 ≠ s.fget (F.LNK_PARTNER_DEVICE (p / 8) (p % 8)) ∨
      bits (capByte c 14) 4 0 ≠ s.fget (F.LNK_PARTNER_PORT (p / 8) (p % 8)))) := by
    rintro ⟨h6, -⟩
    omega
  exact (if_pos (.inl h4)).trans (if_neg hretrain)

theorem State.agree_capLink (d : BitVec 256) : (s.updLink p (s.capLink p c)).agree p d = s.agree p d :=
  State.agree_congr (by rw [State.updLink_same]; rfl) (by rw [State.updLink_same]; rfl) d

/-- A CAP flit that agrees, after this port has sent its own agreement, ends the training (R222). -/
theorem State.takeCap_opens {a : Nat × Nat} (h4 : s.portSt p = 4) (hagree : s.agree p c = some a) (hbit : bit (capByte c 0) 0 = true)
    (ha : a = (capByte c 9, capByte c 10)) (hsent : (s.link p).agreedSent = true) (hyoke : (s.link p).isYoke = false) :
    s.takeCap p c = (((s.updLink p (s.capLink p c)).storeAgreed p c a).updLink p (fun l => l.opened c s.refNs)).setPort p 5 := by
  rw [State.takeCap_training h4]
  refine State.enterActive_opens h4 ?_ ?_ ?_ ?_ ?_
  · rw [State.updLink_same]
    rfl
  · rw [State.agree_capLink, hagree]
  · rw [State.updLink_same, State.capLink, hsent, hagree]
    rfl
  · rw [State.updLink_same, State.capLink, hagree, hbit, ha]
    exact decide_eq_true rfl
  · rw [State.updLink_same]
    exact hyoke

/-- Any other CAP flit is kept, and the training goes on. -/
theorem State.takeCap_waits (h4 : s.portSt p = 4)
    (h : s.agree p c = none ∨ bit (capByte c 0) 0 = false ∨ (s.link p).agreedSent = false) :
    s.takeCap p c = s.updLink p (s.capLink p c) := by
  rw [State.takeCap_training h4]
  refine State.enterActive_waits ?_
  rw [State.updLink_same]
  rcases h with hnone | hbit | hsent
  · exact .inl ((s.agree_capLink c).trans hnone)
  · exact .inr (.inr (by rw [State.capLink, hbit, Bool.false_and]))
  · exact .inr (.inl (by rw [State.capLink, hsent, Bool.false_and]))

end

section
variable (p : PortId) {levels : BitVec 2048} {h : FlitHdr} {pay n : Nat} (h4 : s.portSt p = 4) (hc : Carries s p levels h pay n)
  (htype : h.type = 3) (hcap : badCap pay = false)
include h4 hc htype hcap

theorem exec_cap : exec (.cap p levels) s = .next ((heard s p n true).takeCap p (BitVec.ofNat 256 pay)) := by
  have hr : s.receives p = true := by
    rw [State.receives, h4]
    rfl
  have hbad : ¬ badHeader h pay = true := by
    rw [badHeader, if_pos htype, hcap]
    decide
  exact congrArg Host.Outcome.next ((State.arriveFlit_good hr hc).trans ((if_neg hbad).trans (if_pos htype)))

theorem cap_opens {a : Nat × Nat} (hagree : s.agree p (BitVec.ofNat 256 pay) = some a)
    (hbit : bit (capByte (BitVec.ofNat 256 pay) 0) 0 = true)
    (ha : a = (capByte (BitVec.ofNat 256 pay) 9, capByte (BitVec.ofNat 256 pay) 10)) (hsent : (s.link p).agreedSent = true)
    (hyoke : (s.link p).isYoke = false) : Runs (.cap p levels) s (fun t => PortMoves p 5 s t ∧
      t.fget (F.LNK_PORT_STATE_MAJOR (p.val / 8) (p.val % 8)) = a.1 ∧ t.fget (F.LNK_PORT_STATE_MINOR (p.val / 8) (p.val % 8)) = a.2 ∧
      (t.link p).seq = 0 ∧ (t.link p).exp = 0 ∧ (t.link p).ack = 0xFFF ∧ (t.link p).held = [] ∧
      (t.link p).adv = capCredits (BitVec.ofNat 256 pay)) := by
  have hlink := s.link_heard p n
  have hheard : (heard s p n true).agree p (BitVec.ofNat 256 pay) = some a :=
    (State.agree_congr (by rw [hlink]) (by rw [hlink]) _).trans hagree
  have htake := State.takeCap_opens ((s.portSt_heard p n true p).trans h4) hheard hbit ha (by rw [hlink]; exact hsent)
    (by rw [hlink]; exact hyoke)
  obtain ⟨hmajor, hminor⟩ := State.agree_lt hagree
  refine ⟨_, (exec_cap p h4 hc htype hcap).trans (congrArg Host.Outcome.next htake), ?_, ?_, ?_, ?_⟩
  · refine OnlyPort.portMoves ?_ p.isLt (by decide) (fun m hm => ?_)
    · exact (((s.onlyPort_heard p n true).trans (onlyPort_updLink ..)).trans (State.onlyPort_storeAgreed ..)).trans (onlyPort_updLink ..)
    · rw [State.portSt_updLink, State.portSt_congr (State.portRegs_storeAgreed_other hm), State.portSt_updLink, State.portSt_heard]
  · refine (State.fget_portState_setPort _ 5 p.isLt (by decide) (by decide)).trans ?_
    rw [State.updLink_to_fget]
    exact (State.major_storeAgreed p.isLt).trans (Nat.mod_eq_of_lt hmajor)
  · refine (State.fget_portState_setPort _ 5 p.isLt (by decide) (by decide)).trans ?_
    rw [State.updLink_to_fget]
    exact (State.minor_storeAgreed p.isLt).trans (Nat.mod_eq_of_lt hminor)
  · rw [State.link_setPort_same, State.updLink_same]
    exact ⟨rfl, rfl, rfl, rfl, rfl⟩

theorem cap_waits (hwait : s.agree p (BitVec.ofNat 256 pay) = none ∨ bit (capByte (BitVec.ofNat 256 pay) 0) 0 = false ∨
    (s.link p).agreedSent = false) : Runs (.cap p levels) s (fun t => t = { s with regs := t.regs, links := t.links } ∧
      (∀ m, m ≠ p → t.link m = s.link m) ∧ t.portSt p = 4 ∧ (t.link p).cap = some (BitVec.ofNat 256 pay) ∧
      ((t.link p).agreedSent = true ↔ (s.link p).agreedSent = true ∧ (s.agree p (BitVec.ofNat 256 pay)).isSome = true)) := by
  have hlink := s.link_heard p n
  have hheard (c : BitVec 256) : (heard s p n true).agree p c = s.agree p c :=
    State.agree_congr (by rw [hlink]) (by rw [hlink]) _
  have h4' := (s.portSt_heard p n true p).trans h4
  have htake := State.takeCap_waits (s := heard s p n true) (c := BitVec.ofNat 256 pay) h4' (by rw [hheard, hlink]; exact hwait)
  have hport := (s.onlyPort_heard p n true).trans (onlyPort_updLink _ p ((heard s p n true).capLink p (BitVec.ofNat 256 pay)))
  refine ⟨_, (exec_cap p h4 hc htype hcap).trans (congrArg Host.Outcome.next htake), hport.1,
    fun m hm => hport.2 m (Fin.val_ne_of_ne hm), (State.portSt_updLink ..).trans h4', ?_, ?_⟩
  · rw [State.updLink_same]
    rfl
  · rw [State.updLink_same, State.capLink, hheard, hlink, Bool.and_eq_true]

end

end

end Sys2Proof.Machine

/-! OBLIGATION O26. Training of a port, from OFF to ACTIVE. -/

namespace Sys2Proof.Machine

section
variable {s : State} (p : PortId)

theorem detectDone_equalises (h1 : s.portSt p = 1) :
    Runs (.detectDone p) s (fun t => PortMoves p 2 s t ∧ (t.link p).trial = s.rateMax p) := by
  refine ⟨_, congrArg Host.Outcome.next (if_pos h1), (onlyPort_updLink ..).portMoves p.isLt (by decide) (fun _ _ => rfl), ?_⟩
  rw [State.link_setPort_same, State.updLink_same]
  rfl

theorem equaliseEnd_retries {lanes : BitVec 8} (h2 : s.portSt p = 2) (hw : s.workingSet p lanes.toNat = none)
    (hrate : (s.link p).trial ≠ 0) : Runs (.equaliseEnd p lanes) s (fun t =>
      OnlyLink p s t ∧ (t.link p).trial + 1 = (s.link p).trial ∧ t.portSt p = 2) := by
  refine ⟨_, (equaliseEnd_fails p h2 hw).trans (congrArg Host.Outcome.next (if_neg hrate)), onlyLink_updLink .., ?_, h2⟩
  rw [State.updLink_same]
  exact Nat.sub_add_cancel (Nat.pos_of_ne_zero hrate)

theorem alignEnd_exchanges (h3 : s.portSt p = 3) : Runs (.alignEnd p true) s (fun t => PortMoves p 4 s t ∧
    (t.link p).cap = none ∧ (t.link p).agreedSent = false ∧ (t.link p).txScr = scrLoad ∧ (t.link p).rxScr = scrLoad) := by
  refine ⟨_, congrArg Host.Outcome.next ((if_pos h3).trans (if_pos rfl)),
    (onlyPort_updLink ..).portMoves p.isLt (by decide) (fun _ _ => rfl), ?_⟩
  rw [State.link_setPort_same, State.aligned, State.updLink_same]
  exact ⟨rfl, rfl, rfl, rfl⟩

end

/-- Settles O26: each command of the training moves the port on, or fails the training. -/
theorem portTraining : Obligations.PortTraining := by
  unfold Obligations.PortTraining
  intro p s
  refine ⟨fun hoff hfatal hrom hrecovery href hblk => portEnable_trains p hoff hfatal hrom hrecovery href hblk,
    fun h => congrArg Host.Outcome.next (State.portEnable_holds h), detectDone_equalises p, fun lanes h2 => ?_, fun h3 => ?_,
    fun levels h pay n h4 hc htype hcap => ?_⟩
  · exact ⟨fun w => equaliseEnd_works p h2, equaliseEnd_retries p h2,
      fun hw hrate => (equaliseEnd_fails p h2 hw).trans (congrArg Host.Outcome.next (if_pos hrate))⟩
  · exact ⟨alignEnd_exchanges p h3, congrArg Host.Outcome.next ((if_pos h3).trans (if_neg Bool.false_ne_true))⟩
  · exact ⟨fun a hagree hbit ha hsent hyoke => cap_opens p h4 hc htype hcap hagree hbit ha hsent hyoke,
      cap_waits p h4 hc htype hcap⟩

end Sys2Proof.Machine

/-! SUPPORT. A port that retrains (R219, R220, R235): what a record of an error and the entry to RETRAIN leave. -/

namespace Sys2Proof.Machine

section
variable (s : State)

/-! ### Records of a link (R247) -/

theorem State.link_raiseRec (e : Err) (n : Nat) : (s.raiseRec e).link n = s.link n := by
  rw [State.raiseRec_frame]
  rfl

theorem State.link_lnkErr (p code extra n : Nat) : (s.lnkErr p code extra).link n = s.link n := s.link_raiseRec ..

theorem State.refNs_lnkErr (p code extra : Nat) : (s.lnkErr p code extra).refNs = s.refNs := by
  rw [State.lnkErr, State.raiseRec_frame]
  rfl

theorem State.reg_lnkErr (p extra a : Nat) {code : Nat} (h : codeClass code = 0) : (s.lnkErr p code extra).reg a = s.reg a :=
  State.reg_raiseRec h a

/-! ### RETRAIN (R220, R235) -/

/-- The link state of a port that retrains: its configuration is taken anew, and the exchange of CAP is to come. -/
def State.retrainLink (s : State) (p : Nat) (change : Bool) (rate lim : Nat) (lost : Bool) (l : Link) : Link :=
  { l with
    ctrl := s.reg (R.LNK_PORT_CTRL (p / 8) (p % 8)), cfg := s.reg (R.LNK_REPLAY_CFG (p / 8) (p % 8)), since := s.refNs
    goodAt := s.refNs, sub := b2n change, trial := rate, lim := lim, laneLost := lost, cap := none, agreedSent := false
    agreedGot := false }

variable {s} {p : Nat} (change : Bool) (rate lim : Nat) (lost : Bool)

theorem State.link_enterRetrain_same (h5 : s.portSt p = 5) :
    (s.enterRetrain p change rate lim lost).link p = s.retrainLink p change rate lim lost (s.link p) := by
  have hctrl : R.LNK_PORT_CTRL (p / 8) (p % 8) ≠ R.LNK_REPLAY (p / 8) (p % 8) := by simp only [R.LNK_PORT_CTRL, R.LNK_REPLAY]; omega
  have hcfg : R.LNK_REPLAY_CFG (p / 8) (p % 8) ≠ R.LNK_REPLAY (p / 8) (p % 8) := by simp only [R.LNK_REPLAY_CFG, R.LNK_REPLAY]; omega
  have hnow (f : Fld) (k : Nat) : (s.fsat f k).refNs = s.refNs := s.setReg_to_refNs ..
  rw [State.enterRetrain, if_pos h5, State.updLink_same, State.link_setPort_same, State.takeCfg, State.updLink_same, State.link_lnkErr,
    State.link_fsat, State.updLink_to_refNs, State.refNs_lnkErr, hnow, State.reg_lnkErr _ _ _ _ (by decide),
    State.reg_lnkErr _ _ _ _ (by decide), State.fsat, State.reg_fset_other _ _ hctrl, State.reg_fset_other _ _ hcfg]
  rfl

theorem State.link_enterRetrain_other {n : Nat} (h : n ≠ p) : (s.enterRetrain p change rate lim lost).link n = s.link n := by
  rw [State.enterRetrain]
  split
  · rw [State.updLink_other _ _ h, State.link_setPort_other _ _ h, State.takeCfg, State.updLink_other _ _ h, State.link_lnkErr,
      State.link_fsat]
  · rfl

theorem State.portSt_enterRetrain (h5 : s.portSt p = 5) (hp : p < 32) : (s.enterRetrain p change rate lim lost).portSt p = 6 := by
  rw [State.enterRetrain, if_pos h5, State.portSt_updLink, State.portSt_setPort_same _ hp (by decide)]

end

end Sys2Proof.Machine

/-! OBLIGATION O27. Retraining, lanes that fail, time limits, and ports that go down. -/

namespace Sys2Proof.Machine

section
variable {s : State} (p : PortId)

/-- The highest rate that the configuration allows, and EQUALISE first where rate or width changes (R219, R246). -/
theorem portRetrain_retrains (h5 : s.portSt p = 5) : Runs (.portRetrain p) s (fun t => t.portSt p = 6 ∧
    (t.link p).trial = (s.takeCfg p false).rateMax p ∧
    (t.link p).sub = (if (s.takeCfg p false).rateMax p = s.fget (F.LNK_PORT_STATE_RATE (p.val / 8) (p.val % 8)) ∧
      s.fbit (F.LNK_PORT_STATE_WIDTH4 (p.val / 8) (p.val % 8)) = false then 0 else 1) ∧
    (∀ n, n ≠ p → t.link n = s.link n)) := by
  refine ⟨_, congrArg Host.Outcome.next (if_pos h5), State.portSt_enterRetrain _ _ _ _ h5 p.isLt, ?_, ?_,
    fun n hn => State.link_enterRetrain_other _ _ _ _ (Fin.val_ne_of_ne hn)⟩
  · rw [State.link_enterRetrain_same _ _ _ _ h5]
    rfl
  · rw [State.link_enterRetrain_same _ _ _ _ h5, State.retrainLink]
    by_cases hrate : (s.takeCfg p false).rateMax p = s.fget (F.LNK_PORT_STATE_RATE (p.val / 8) (p.val % 8)) <;>
      by_cases hwidth : s.fbit (F.LNK_PORT_STATE_WIDTH4 (p.val / 8) (p.val % 8)) = false <;> simp [hrate, hwidth, b2n]

section
variable {lanes : BitVec 8} (h5 : s.portSt p = 5)
  (hlanes : lanes.toNat &&& s.fget (F.LNK_PORT_STATE_LANES_GOOD (p.val / 8) (p.val % 8)) ≠
    s.fget (F.LNK_PORT_STATE_LANES_GOOD (p.val / 8) (p.val % 8)))
include h5 hlanes

theorem exec_laneFail : exec (.laneFail p lanes) s = .next
    (if s.fget (F.LNK_PORT_STATE_MAJOR (p.val / 8) (p.val % 8)) = 1 then (s.linkDownOpen p).2.routesLost (s.linkDownOpen p).1
    else match goodHalf lanes.toNat with
      | some h => s.enterRetrain p true (s.fget (F.LNK_PORT_STATE_RATE (p.val / 8) (p.val % 8))) h true
      | none =>
        if s.fget (F.LNK_PORT_STATE_RATE (p.val / 8) (p.val % 8)) = 0 then (s.linkDownOpen p).2.routesLost (s.linkDownOpen p).1
        else (s.enterRetrain p true (s.fget (F.LNK_PORT_STATE_RATE (p.val / 8) (p.val % 8)) - 1) 255 true).lnkErr p 0x0505 0) :=
  congrArg Host.Outcome.next (if_pos ⟨h5, hlanes⟩)

end

theorem equaliseEnd_retraining {lanes : BitVec 8} (h6 : s.portSt p = 6) (hsub : (s.link p).sub = 1) :
    exec (.equaliseEnd p lanes) s = .next (match s.workingSet p (lanes.toNat &&& (s.link p).lim) with
      | some w => (s.setLanes p (s.link p).trial w).updLink p (fun l => { l with sub := 0 })
      | none => s.updLink p (fun l => { l with trial := l.trial - 1 })) := by
  have h2 : ¬ s.portSt p = 2 := by omega
  exact congrArg Host.Outcome.next ((if_neg h2).trans (if_pos ⟨h6, hsub⟩))

theorem alignEnd_retraining (h6 : s.portSt p = 6) (hsub : (s.link p).sub = 0) :
    Runs (.alignEnd p true) s (fun t => OnlyLink p s t ∧ (t.link p).sub = 2 ∧ (t.link p).cap = none) := by
  have h3 : ¬ s.portSt p = 3 := by omega
  refine ⟨_, congrArg Host.Outcome.next ((if_neg h3).trans (if_pos ⟨h6, hsub, rfl⟩)), ⟨rfl, fun n hn => ?_⟩, ?_⟩
  · rw [State.updLink_other _ _ hn, State.aligned, State.updLink_other _ _ hn]
  · rw [State.updLink_same, State.aligned, State.updLink_same]
    exact ⟨rfl, rfl⟩

section
variable (h7 : s.portSt p = 7)
include h7

theorem downTimeout_off (hoff : s.fbit (F.LNK_PORT_CTRL_ENABLE (p.val / 8) (p.val % 8)) = false) :
    Runs (.downTimeout p) s (PortMoves p 0 s) := by
  refine ⟨s.setPort p 0, congrArg Host.Outcome.next ((if_pos h7).trans (if_pos ?_)),
    (OnlyPort.refl p s).portMoves p.isLt (by decide) fun _ _ => rfl⟩
  rw [hoff]
  rfl

theorem downTimeout_detect (hon : s.fbit (F.LNK_PORT_CTRL_ENABLE (p.val / 8) (p.val % 8)) = true)
    (hsince : (s.link p).since + 10000000 ≤ s.refNs) (hfatal : s.err.fatal = false)
    (href : s.fbit F.PCR_TIME_STATUS_REF_PRESENT = true) : Runs (.downTimeout p) s (PortMoves p 1 s) := by
  have hmay : s.portMayStart p = true := by
    rw [State.portMayStart, hon, hfatal]
    rfl
  have hno : ¬ (!s.fbit (F.LNK_PORT_CTRL_ENABLE (p.val / 8) (p.val % 8))) = true := by
    rw [hon]
    decide
  exact ⟨s.enterDetect p,
    congrArg Host.Outcome.next ((if_pos h7).trans ((if_neg hno).trans (if_pos ⟨hsince, hmay, href⟩))),
    (OnlyPort.refl p s).enterDetect p.isLt fun _ _ => rfl⟩

end

theorem linkNotice_down {m : BitVec 128 × Nat} {u : State} (htake : s.takeStored p 6 = some (m, u)) (hopen : u.portOpen p = true) :
    exec (.linkNotice p) s = .next (u.portDown p 3) := by
  refine congrArg Host.Outcome.next ?_
  rw [htake]
  exact if_pos hopen

end

/-- Settles O27: each command leads the port on through its retrain, or down with its cause. -/
theorem portRetrainAndDown : Obligations.PortRetrainAndDown := by
  unfold Obligations.PortRetrainAndDown
  intro p s
  refine ⟨portRetrain_retrains p, fun lanes h5 hlanes hmajor => ?_, fun lanes h5 hlanes hdown => ?_, fun lanes h6 hsub => ?_,
    alignEnd_retraining p, fun h7 => ⟨downTimeout_off p h7, downTimeout_detect p h7⟩,
    fun h4 hsince => congrArg Host.Outcome.next (if_pos ⟨h4, hsince⟩),
    fun h6 hsince => congrArg Host.Outcome.next (if_pos ⟨h6, hsince⟩),
    fun h5 hgood => congrArg Host.Outcome.next (if_pos ⟨h5, hgood⟩), fun m u => linkNotice_down p, ?_, ?_⟩
  · refine ⟨fun h hhalf => ?_, fun hhalf hrate => ?_⟩
    · rw [exec_laneFail p h5 hlanes, if_neg hmajor, hhalf]
    · rw [exec_laneFail p h5 hlanes, if_neg hmajor, hhalf]
      exact congrArg Host.Outcome.next (if_neg hrate)
  · rw [exec_laneFail p h5 hlanes]
    rcases hdown with hmajor | ⟨hhalf, hrate⟩
    · rw [if_pos hmajor]
    · rw [hhalf]
      dsimp only
      rw [if_pos hrate, ite_self]
  · refine ⟨fun w hw => ?_, fun hw => ?_⟩
    · rw [equaliseEnd_retraining p h6 hsub, hw]
    · rw [equaliseEnd_retraining p h6 hsub, hw]
  · intro h7
    have h0 : ¬ (s.fset (F.LNK_PORT_CTRL_ENABLE (p.val / 8) (p.val % 8)) 0).portSt p = 0 := by omega
    exact congrArg Host.Outcome.next ((if_neg h0).trans (if_pos h7))
  · exact fun h0 h7 => congrArg Host.Outcome.next ((if_neg h0).trans (if_neg h7))

end Sys2Proof.Machine

/-! SUPPORT. The receiving side of a port (R229 to R234, R240): what the acknowledgements, NAKs and credits of a good flit leave of
the receiver, and what the units that it carries leave. -/

namespace Sys2Proof.Machine

/-! ### The receiver's record -/

/-- The expected number, the one to acknowledge and the pending NAK. -/
def Link.ctl (l : Link) : Nat × Nat × Option Nat := (l.exp, l.ack, l.nak)

/-- The same, and what has been received on each virtual channel. -/
def Link.recv (l : Link) : (Nat × Nat × Option Nat) × Tab LinkVc := (l.ctl, l.vcs)

section
variable {s : State} {p : Nat}

theorem State.ctl_updLink {f : Link → Link} (s : State) (p n : Nat) (hf : ∀ l, (f l).ctl = l.ctl := by exact fun _ => rfl) :
    ((s.updLink p f).link n).ctl = (s.link n).ctl := by
  by_cases hn : n = p
  · subst hn
    rw [State.updLink_same, hf]
  · rw [State.updLink_other _ _ hn]

theorem State.recv_updLink {f : Link → Link} (s : State) (p : Nat) (hf : ∀ l, (f l).recv = l.recv := by exact fun _ => rfl) :
    ((s.updLink p f).link p).recv = (s.link p).recv := by rw [State.updLink_same, hf]

/-! ### Acknowledgements, NAKs and credits (R232 to R234, R240) -/

theorem State.recv_retrainSame : ((s.retrainSame p).link p).recv = (s.link p).recv := by
  rw [State.retrainSame]
  by_cases h5 : s.portSt p = 5
  · rw [State.link_enterRetrain_same _ _ _ _ h5]
    rfl
  · rw [State.enterRetrain, if_neg h5]

/-- The note of a replay that has begun: a record, at most one in each millisecond, or the count of those since the last (R247). -/
def State.noteReplay (s : State) (p n : Nat) : State :=
  if s.mayReport 0x0502 p then ((s.setReport 0x0502 p).lnkErr p 0x0502 (n * 2 ^ 32)).updLink p (fun l => { l with replays := 0 })
  else s.updLink p (fun l => { l with replays := n })

theorem State.link_noteReplay_same (n : Nat) :
    (s.noteReplay p n).link p = { s.link p with replays := if s.mayReport 0x0502 p then 0 else n } := by
  rw [State.noteReplay]
  split
  · rw [State.updLink_same, State.link_lnkErr]
    rfl
  · rw [State.updLink_same]

theorem State.link_noteReplay_other (n : Nat) {m : Nat} (hm : m ≠ p) : (s.noteReplay p n).link m = s.link m := by
  rw [State.noteReplay]
  split
  · rw [State.updLink_other _ _ hm, State.link_lnkErr]
    rfl
  · rw [State.updLink_other _ _ hm]

/-- A replay begins from the oldest entry. -/
def State.replayed (s : State) (p : Nat) (timer : Bool) : State :=
  ((s.fsat (if timer then F.LNK_REPLAY_TIMER (p / 8) (p % 8) else F.LNK_REPLAY_NAK (p / 8) (p % 8)) 1).updLink p (fun l =>
    { l with replay := some 0, consec := l.consec + 1, timer := s.refNs })).noteReplay p ((s.link p).replays + 1)

theorem State.replayDue_eq (timer : Bool) : s.replayDue p timer =
    if (s.link p).held = [] then s
    else if (s.link p).limit ≤ (s.link p).consec then s.retrainSame p else s.replayed p timer := rfl

theorem State.link_replayed_same (timer : Bool) : ∃ n, (s.replayed p timer).link p =
    { s.link p with replay := some 0, consec := (s.link p).consec + 1, timer := s.refNs, replays := n } := by
  rw [State.replayed, State.link_noteReplay_same, State.updLink_same, State.link_fsat]
  exact ⟨_, rfl⟩

theorem State.link_replayed_other (timer : Bool) {m : Nat} (hm : m ≠ p) : (s.replayed p timer).link m = s.link m := by
  rw [State.replayed, State.link_noteReplay_other _ hm, State.updLink_other _ _ hm, State.link_fsat]

theorem State.recv_replayDue (timer : Bool) : ((s.replayDue p timer).link p).recv = (s.link p).recv := by
  rw [State.replayDue_eq]
  split
  · rfl
  · split
    · exact State.recv_retrainSame
    · obtain ⟨n, hn⟩ := State.link_replayed_same (s := s) (p := p) timer
      rw [hn]
      rfl

theorem State.recv_ackFlit (a : Nat) : ((s.ackFlit p a).link p).recv = (s.link p).recv := by
  rw [State.ackFlit]
  split
  · rfl
  · dsimp only
    split
    · exact State.recv_updLink s p
    · rfl

theorem State.recv_nakFlit (h : FlitHdr) : ((s.nakFlit p h).link p).recv = (s.link p).recv := by
  rw [State.nakFlit]
  split
  · rfl
  · split
    · split
      · rfl
      · exact (State.recv_replayDue _).trans (State.recv_updLink s p)
    · split
      · rfl
      · exact (State.recv_replayDue _).trans (State.recv_updLink s p)

theorem State.recv_creditFlit (h : FlitHdr) : ((s.creditFlit p h).link p).recv = (s.link p).recv := by
  rw [State.creditFlit]
  split
  · exact State.recv_updLink s p
  · exact State.recv_retrainSame.trans (congrArg Link.recv (s.link_lnkErr ..))

theorem State.recv_goodFlit (h : FlitHdr) : ((s.goodFlit p h).link p).recv = (s.link p).recv :=
  (State.recv_creditFlit h).trans ((State.recv_nakFlit h).trans (State.recv_ackFlit h.ack))

/-! ### NAK pending (R231) -/

theorem State.link_nakPend : ∃ at_ id, (s.nakPend p).link p = { s.link p with nak := some at_, nakid := id } := by
  rw [State.nakPend]
  split
  next h =>
    obtain ⟨at_, hat⟩ := Option.isSome_iff_exists.1 h
    exact ⟨at_, (s.link p).nakid, by rw [← hat]⟩
  next =>
    rw [State.updLink_same]
    exact ⟨_, _, rfl⟩

theorem State.onlyLink_nakPend : OnlyLink p s (s.nakPend p) := by
  rw [State.nakPend]
  split
  · exact ⟨rfl, fun _ _ => rfl⟩
  · exact onlyLink_updLink ..

theorem State.link_nakEnd : (s.nakEnd p).link p = { s.link p with nak := none } := State.updLink_same ..

/-! ### Units (R228, R244) -/

theorem State.ctl_freeRx (s : State) (p v d n : Nat) : ((s.freeRx p v d).link n).ctl = (s.link n).ctl :=
  State.ctl_updLink s p n

theorem State.ctl_foldl {α : Type} {f : State → α → State} {n : Nat} (hf : ∀ t x, ((f t x).link n).ctl = (t.link n).ctl) (l : List α)
    (s : State) : ((l.foldl f s).link n).ctl = (s.link n).ctl :=
  foldl_keeps (P := fun t : State => (t.link n).ctl = (s.link n).ctl) l rfl fun t x _ ht => (hf t x).trans ht

theorem State.ctl_sweepRx (s : State) (p v n : Nat) : ((s.sweepRx p v).link n).ctl = (s.link n).ctl := by
  have hfree := fun l : List RPkt => State.ctl_foldl (f := fun s r => s.freeRx p v ((r.need - 1) / 2)) (n := n)
    (fun t r => t.ctl_freeRx ..) l s
  rw [State.sweepRx]
  split
  · exact hfree _
  · exact (State.ctl_updLink _ p n).trans (hfree _)

theorem State.ctl_takeUnit (s : State) (p v : Nat) (start : Bool) (u : BitVec 256) (ab : Bool) (n : Nat) :
    ((s.takeUnit p v start u ab).link n).ctl = (s.link n).ctl := by
  rw [State.takeUnit]
  split
  · exact State.ctl_updLink _ p n
  · split
    · rfl
    · exact (State.ctl_foldl (fun t o => State.ctl_updLink t o n) _ _).trans (State.ctl_updLink _ p n)

theorem State.ctl_takeUnits (s : State) (p : Nat) (h : FlitHdr) (payload n : Nat) :
    ((s.takeUnits p h payload).link n).ctl = (s.link n).ctl :=
  (State.ctl_sweepRx ..).trans (State.ctl_foldl (fun t _ => t.ctl_takeUnit ..) _ s)

end

/-! ### Sequence numbers (R230) -/

theorem FlitHdr.seq_lt (hdr : Nat) : (FlitHdr.unpack hdr).seq < 2 ^ 12 := Nat.mod_lt _ (by decide)

theorem subMod_self {n a : Nat} (h : a < 2 ^ n) : subMod n a a = 0 := by
  rw [subMod, Nat.mod_eq_of_lt h, Nat.add_sub_cancel_left, Nat.mod_self]

section
variable {s : State} {p : Nat} {h : FlitHdr} {pay : Nat}

/-- A DATA flit with the expected number. -/
theorem State.takeData_expected (hseq : subMod 12 h.seq (s.link p).exp = 0)
    (hunits : badUnits h pay h.units 0 ((s.link p).vc h.vc).rest false = false) :
    ((s.takeData p h pay).link p).ctl = (((s.link p).exp + 1) % 4096, h.seq, none) := by
  have hgood : ¬ (if subMod 12 h.seq (s.link p).exp = 0 then badUnits h pay h.units 0 ((s.link p).vc h.vc).rest false
      else badAlone h pay) = true := by
    rw [if_pos hseq, hunits]
    decide
  have htake : s.takeData p h pay = (((s.goodFlit p h).updLink p (fun l =>
      { l with ack := h.seq, exp := (l.exp + 1) % 4096 })).nakEnd p).takeUnits p h pay :=
    (if_neg hgood).trans (if_pos hseq)
  have hexp : ((s.goodFlit p h).link p).exp = (s.link p).exp := congrArg (fun r => r.1.1) (State.recv_goodFlit h)
  rw [htake, State.ctl_takeUnits, State.link_nakEnd, State.updLink_same, hexp]
  rfl

/-- A DATA flit with another number. -/
theorem State.takeData_other (hseq : subMod 12 h.seq (s.link p).exp ≠ 0) (hunits : badAlone h pay = false) : s.takeData p h pay =
    if subMod 12 h.seq (s.link p).exp < 2048 then (s.goodFlit p h).nakPend p
    else (s.goodFlit p h).fsat (F.LNK_REPLAY_DUPLICATES (p / 8) (p % 8)) 1 := by
  have hgood : ¬ (if subMod 12 h.seq (s.link p).exp = 0 then badUnits h pay h.units 0 ((s.link p).vc h.vc).rest false
      else badAlone h pay) = true := by
    rw [if_neg hseq, hunits]
    decide
  exact (if_neg hgood).trans (if_neg hseq)

end

end Sys2Proof.Machine

/-! OBLIGATION O28. Flits that arrive, and the timers of the receiver. -/

namespace Sys2Proof.Machine

section
variable {s : State} (p : PortId) {levels : BitVec 2048}

/-- Whichever row names it, what the lanes carry says what the flit is (R226). -/
theorem exec_flitRow {row : PortId → BitVec 2048 → Instr} (hrow : row ∈ [Instr.cap, Instr.data, Instr.idle, Instr.bypass]) :
    exec (row p levels) s = .next (s.arriveFlit p levels) := by
  simp only [List.mem_cons, List.not_mem_nil, or_false] at hrow
  rcases hrow with rfl | rfl | rfl | rfl <;> rfl

section
variable {h : FlitHdr} {pay n : Nat} (h5 : s.portSt p = 5) (hc : Carries s p levels h pay n)
include h5 hc

theorem arriveFlit_active : s.arriveFlit p levels = (heard s p n true).takeGood p h pay := by
  refine State.arriveFlit_good ?_ hc
  rw [State.receives, h5]
  rfl

theorem exec_malformed (hbad : badHeader h pay = true) {row : PortId → BitVec 2048 → Instr}
    (hrow : row ∈ [Instr.cap, Instr.data, Instr.idle, Instr.bypass]) :
    exec (row p levels) s = .next (((heard s p n true).lnkErr p 0x050A 0).portDown p 4) := by
  rw [exec_flitRow p hrow, arriveFlit_active p h5 hc]
  exact congrArg Host.Outcome.next (if_pos hbad)

variable (hform : badHeader h pay = false)
include hform

/-- A well-formed flit that is no CAP is taken by its TYPE (R230, R231). -/
theorem arriveFlit_wellFormed (hcap : h.type ≠ 3) : s.arriveFlit p levels =
    if h.type = 1 then (heard s p n true).takeData p h pay
    else if h.type = 2 then (List.range 14).foldl (fun s m => s.takeMsg p (BitVec.ofNat 128 (pay >>> (128 * m))))
      (((heard s p n true).goodFlit p h).seqShown p h.seq)
    else ((heard s p n true).goodFlit p h).seqShown p h.seq := by
  have hactive : ¬ (heard s p n true).portSt p ≠ 5 := not_not.2 ((s.portSt_heard p n true p).trans h5)
  rw [arriveFlit_active p h5 hc]
  exact (if_neg (ne_true_of_eq_false hform)).trans ((if_neg hcap).trans (if_neg hactive))

theorem data_accepts (htype : h.type = 1) (hseq : h.seq = (s.link p).exp)
    (hunits : badUnits h pay h.units 0 ((s.link p).vc h.vc).rest false = false) : Runs (.data p levels) s (fun t =>
      (t.link p).exp = ((s.link p).exp + 1) % 4096 ∧ (t.link p).ack = h.seq ∧ (t.link p).nak = none) := by
  have hlink := s.link_heard p n
  have hlt : h.seq < 2 ^ 12 := by
    obtain ⟨hdr, -, rfl⟩ := hc
    exact FlitHdr.seq_lt hdr
  have hctl := State.takeData_expected (s := heard s p n true) (p := p) (h := h) (pay := pay)
    (by rw [hlink, ← hseq]; exact subMod_self hlt) (by rw [hlink]; exact hunits)
  rw [hlink] at hctl
  simp only [Link.ctl, Prod.mk.injEq] at hctl
  exact ⟨_, congrArg Host.Outcome.next ((arriveFlit_wellFormed p h5 hc hform (by omega)).trans (if_pos htype)), hctl⟩

theorem data_outOfSequence (htype : h.type = 1) (hseq : subMod 12 h.seq (s.link p).exp ≠ 0) (hunits : badAlone h pay = false) :
    Runs (.data p levels) s (fun t => (t.link p).exp = (s.link p).exp ∧ (t.link p).ack = (s.link p).ack ∧
      (t.link p).vcs = (s.link p).vcs ∧ (subMod 12 h.seq (s.link p).exp < 2048 → (t.link p).nak.isSome = true)) := by
  have hlink := s.link_heard p n
  have hexp : ((heard s p n true).link p).exp = (s.link p).exp := by rw [hlink]
  have hgood : (((heard s p n true).goodFlit p h).link p).recv = (s.link p).recv :=
    (State.recv_goodFlit h).trans (by rw [hlink]; rfl)
  simp only [Link.recv, Link.ctl, Prod.mk.injEq] at hgood
  obtain ⟨⟨gexp, gack, -⟩, gvcs⟩ := hgood
  refine ⟨_, congrArg Host.Outcome.next ((arriveFlit_wellFormed p h5 hc hform (by omega)).trans ((if_pos htype).trans
    (State.takeData_other (by rwa [hexp]) hunits))), ?_⟩
  rw [hexp]
  split
  next hahead =>
    obtain ⟨at_, id, hnak⟩ := State.link_nakPend (s := (heard s p n true).goodFlit p h) (p := p)
    rw [hnak]
    exact ⟨gexp, gack, gvcs, fun _ => rfl⟩
  next hbehind =>
    rw [State.link_fsat]
    exact ⟨gexp, gack, gvcs, fun hahead => absurd hahead hbehind⟩

theorem idle_shows (htype : h.type = 0) : Runs (.idle p levels) s (fun t => ((t.link p).nak = none ↔ h.seq = (s.link p).exp) ∧
    (t.link p).exp = (s.link p).exp ∧ (t.link p).vcs = (s.link p).vcs) := by
  have hgood : (((heard s p n true).goodFlit p h).link p).recv = (s.link p).recv :=
    (State.recv_goodFlit h).trans (by rw [s.link_heard]; rfl)
  simp only [Link.recv, Link.ctl, Prod.mk.injEq] at hgood
  obtain ⟨⟨gexp, -, -⟩, gvcs⟩ := hgood
  have harrive : s.arriveFlit p levels = ((heard s p n true).goodFlit p h).seqShown p h.seq := by
    rw [arriveFlit_wellFormed p h5 hc hform (by omega), if_neg (by omega), if_neg (by omega)]
  refine ⟨_, congrArg Host.Outcome.next harrive, ?_⟩
  rw [State.seqShown, gexp]
  split
  next hshown =>
    rw [State.link_nakEnd]
    exact ⟨iff_of_true rfl hshown, gexp, gvcs⟩
  next hshown =>
    obtain ⟨at_, id, hnak⟩ := State.link_nakPend (s := (heard s p n true).goodFlit p h) (p := p)
    rw [hnak]
    exact ⟨iff_of_false (Option.some_ne_none at_) hshown, gexp, gvcs⟩

theorem exec_bypass (htype : h.type = 2) : exec (.bypass p levels) s = .next ((List.range 14).foldl
    (fun s m => s.takeMsg p (BitVec.ofNat 128 (pay >>> (128 * m)))) (((heard s p n true).goodFlit p h).seqShown p h.seq)) := by
  refine congrArg Host.Outcome.next ?_
  rw [arriveFlit_wellFormed p h5 hc hform (by omega), if_neg (by omega), if_pos htype]

end

/-- The counter registers after an addition depend on the registers alone. -/
theorem State.regs_fwrap_congr {s t : State} (hregs : t.regs = s.regs) (f : Fld) (k : Nat) : (t.fwrap f k).regs = (s.fwrap f k).regs := by
  simp only [State.fwrap, State.fset, State.setReg, State.fget, State.reg, hregs]

theorem badFlit_counts {n : Nat} (h5 : s.portSt p = 5) (hrx : s.rxOf p levels = ⟨none, n⟩) :
    Runs (.badFlit p levels) s (fun t => (t.link p).nak.isSome = true ∧
      t.regs = ((s.fwrap (F.LNK_FEC_SYMBOLS (p.val / 8) (p.val % 8)) n).fwrap (F.LNK_FEC_BAD_FLITS (p.val / 8) (p.val % 8)) 1).regs ∧
      t = { s with regs := t.regs, links := t.links } ∧ ∀ m, m ≠ p → t.link m = s.link m) := by
  have hr : s.receives p = true := by
    rw [State.receives, h5]
    rfl
  have hactive : (heard s p n false).portSt p = 5 := (s.portSt_heard p n false p).trans h5
  have hbad : (heard s p n false).badFlit p = ((heard s p n false).fwrap (F.LNK_FEC_BAD_FLITS (p.val / 8) (p.val % 8)) 1).nakPend p :=
    if_pos hactive
  have harrive : s.arriveFlit p levels = (heard s p n false).badFlit p := by
    rw [State.arriveFlit, if_pos hr, hrx]
    rfl
  have hregs : (heard s p n false).regs = (s.fwrap (F.LNK_FEC_SYMBOLS (p.val / 8) (p.val % 8)) n).regs := by
    rw [heard]
    rfl
  obtain ⟨nframe, nlinks⟩ := State.onlyLink_nakPend (s := (heard s p n false).fwrap (F.LNK_FEC_BAD_FLITS (p.val / 8) (p.val % 8)) 1)
    (p := p)
  have hport := (s.onlyPort_heard p n false).trans (onlyPort_fwrap _ p (F.LNK_FEC_BAD_FLITS (p.val / 8) (p.val % 8)) 1)
  obtain ⟨at_, id, hnak⟩ := State.link_nakPend (s := (heard s p n false).fwrap (F.LNK_FEC_BAD_FLITS (p.val / 8) (p.val % 8)) 1) (p := p)
  refine ⟨_, congrArg Host.Outcome.next (harrive.trans hbad), by rw [hnak]; rfl, ?_, ?_, fun m hm => ?_⟩
  · rw [nframe]
    exact State.regs_fwrap_congr hregs _ _
  · rw [nframe, hport.1]
  · exact (nlinks m (Fin.val_ne_of_ne hm)).trans (hport.2 m (Fin.val_ne_of_ne hm))

/-! ### Timers (R231, R233, R246) -/

theorem nakRenew_renews {at_ : Nat} (hnak : (s.link p).nak = some at_) (h5 : s.portSt p = 5)
    (hdue : at_ + (s.link p).timeout ≤ s.refNs) : Runs (.nakRenew p) s (fun t =>
      OnlyLink p s t ∧ (t.link p).nak = some s.refNs ∧ (t.link p).nakid = ((s.link p).nakid + 1) % 4) := by
  have hexec : exec (.nakRenew p) s = .next (s.updLink p (fun l => { l with nak := some s.refNs, nakid := (l.nakid + 1) % 4 })) := by
    refine congrArg Host.Outcome.next ?_
    rw [hnak]
    exact if_pos ⟨h5, hdue⟩
  refine ⟨_, hexec, onlyLink_updLink .., ?_⟩
  rw [State.updLink_same]
  exact ⟨rfl, rfl⟩

theorem replayTimer_replays (h5 : s.portSt p = 5) (hheld : (s.link p).held ≠ []) (hdue : (s.link p).timer + (s.link p).timeout ≤ s.refNs)
    (hlimit : (s.link p).consec < (s.link p).limit) : Runs (.replayTimer p) s (fun t => (t.link p).replay = some 0 ∧
      (t.link p).consec = (s.link p).consec + 1 ∧ (t.link p).held = (s.link p).held ∧ ∀ n, n ≠ p → t.link n = s.link n) := by
  have hreplay : s.replayDue p true = s.replayed p true := by
    rw [State.replayDue_eq, if_neg hheld, if_neg (Nat.not_le.2 hlimit)]
  obtain ⟨n, hn⟩ := State.link_replayed_same (s := s) (p := p) true
  refine ⟨_, congrArg Host.Outcome.next ((if_pos ⟨h5, hheld, hdue⟩).trans hreplay), ?_⟩
  dsimp only
  rw [hn]
  exact ⟨rfl, rfl, rfl, fun m hm => State.link_replayed_other true (Fin.val_ne_of_ne hm)⟩

theorem fecInterval_restarts (hdue : (s.link p).fecAt + 1000000 ≤ s.refNs) : Runs (.fecInterval p) s (fun t =>
    (t.link p).fecSyms = 0 ∧ (t.link p).fecAt = s.refNs ∧ (∀ n, n ≠ p → t.link n = s.link n) ∧
    (bits (s.link p).cfg 63 48 = 0 ∨ (s.link p).fecSyms ≤ bits (s.link p).cfg 63 48 → t.err = s.err)) := by
  refine ⟨_, congrArg Host.Outcome.next (if_pos hdue), ?_⟩
  dsimp only
  split
  next hover =>
    rw [State.link_lnkErr, State.updLink_same]
    exact ⟨rfl, rfl, fun n hn => (State.link_lnkErr ..).trans (s.updLink_other _ (Fin.val_ne_of_ne hn)), fun hfew => absurd hfew (by omega)⟩
  next =>
    rw [State.updLink_same]
    exact ⟨rfl, rfl, fun n hn => State.updLink_other _ _ (Fin.val_ne_of_ne hn), fun _ => rfl⟩

end

/-- Settles O28: what each flit that arrives does to the receiver, and the receiver's timers. -/
theorem flitsReceived : Obligations.FlitsReceived := by
  unfold Obligations.FlitsReceived
  intro p s
  refine ⟨fun levels h pay n h5 hc => ⟨fun hbad row hrow => exec_malformed p h5 hc hbad hrow, fun hform htype => ?_,
      idle_shows p h5 hc, exec_bypass p h5 hc⟩,
    fun levels n => badFlit_counts p, fun at_ => nakRenew_renews p, replayTimer_replays p, fecInterval_restarts p⟩
  exact ⟨data_accepts p h5 hc hform htype, data_outOfSequence p h5 hc hform htype⟩

end Sys2Proof.Machine

/-! SUPPORT. The sending side of a port (R218, R232, R237, R238): what a flit that leaves the port leaves of the device, and what
each kind of slot sends. -/

namespace Sys2Proof.Machine

section
variable {s u t : State} {p : Nat}

/-! ### A flit leaves the port (R218, R232, R240) -/

/-- What is sent turns on the lanes and their scramblers alone. -/
theorem SendsFlit.congr {bytes : BitVec 2048} (h : SendsFlit p bytes u t) (hout : u.out = s.out)
    (hset : u.fget (F.LNK_PORT_STATE_LANES_GOOD (p / 8) (p % 8)) = s.fget (F.LNK_PORT_STATE_LANES_GOOD (p / 8) (p % 8)))
    (hscr : (u.link p).txScr = (s.link p).txScr) : SendsFlit p bytes s t := by
  unfold SendsFlit at h ⊢
  rw [h, hout, hset, hscr]

/-- The fields that a transmission fills afresh turn on the link state and the agreed version. -/
theorem State.freshHdr_updLink {f : Link → Link} (s : State) (p : Nat) (h : FlitHdr)
    (hf : ∀ l, ((f l).ack, (f l).nak, (f l).nakid, (f l).crNext, (f l).freed) = (l.ack, l.nak, l.nakid, l.crNext, l.freed) := by
      exact fun _ => rfl) : (s.updLink p f).freshHdr p h = s.freshHdr p h := by
  have hl := hf (s.link p)
  simp only [Prod.mk.injEq] at hl
  obtain ⟨hack, hnak, hnakid, hnext, hfreed⟩ := hl
  have hmajor : (s.updLink p f).major p = s.major p := s.updLink_to_fget ..
  unfold State.freshHdr
  dsimp only
  rw [hmajor, State.updLink_same, hack, hnak, hnakid, hnext, hfreed]

section
variable (s p) (h : FlitHdr) (pay : Nat)

theorem State.putFlit_sends : SendsFlit p (flitBytes (s.freshHdr p h).pack pay) s (s.putFlit p h pay) := rfl

theorem State.putFlit_frame : s.putFlit p h pay = { s with links := (s.putFlit p h pay).links, out := (s.putFlit p h pay).out } := rfl

theorem State.link_putFlit_same : ∃ scr, (s.putFlit p h pay).link p =
    { s.link p with
      txScr := scr, crNext := ((s.link p).crNext + 1) % 6, bypGap := if h.type = 2 then 0 else (s.link p).bypGap + 1 } := by
  rw [State.putFlit, State.updLink_same, State.emit, State.updLink_same]
  exact ⟨_, rfl⟩

theorem State.link_putFlit_other {n : Nat} (hn : n ≠ p) : (s.putFlit p h pay).link n = s.link n := by
  rw [State.putFlit, State.updLink_other _ _ hn, State.emit, State.updLink_other _ _ hn]
  rfl

end

theorem OnlyPort.out_eq (h : OnlyPort p s u) : u.out = s.out := by rw [h.1]

/-- A flit that leaves after changes of registers and of the port. -/
theorem OnlyPort.putFlit (h : OnlyPort p s u) (hd : FlitHdr) (pay : Nat) :
    (∀ n, n ≠ p → (u.putFlit p hd pay).link n = s.link n) ∧
    u.putFlit p hd pay = { s with
      regs := (u.putFlit p hd pay).regs, links := (u.putFlit p hd pay).links, out := (u.putFlit p hd pay).out } := by
  refine ⟨fun n hn => (u.link_putFlit_other p hd pay hn).trans (h.2 n hn), ?_⟩
  have hframe := u.putFlit_frame p hd pay
  have hregs : (u.putFlit p hd pay).regs = u.regs := rfl
  rw [hregs]
  generalize u.putFlit p hd pay = t at hframe
  rw [hframe, h.1]

/-- A flit that leaves after a change of the link state and of a counter. -/
theorem State.putFlit_counted (s : State) (p : Nat) {l : Link} {f : Fld} (k : Nat) (hd : FlitHdr) (pay : Nat) (hf : NoPortState f.addr)
    (hscr : l.txScr = (s.link p).txScr) :
    let t := ((s.updLink p (fun _ => l)).fwrap f k).putFlit p hd pay
    (∃ bytes, SendsFlit p bytes s t) ∧
    (∃ scr, t.link p = { l with txScr := scr, crNext := (l.crNext + 1) % 6, bypGap := if hd.type = 2 then 0 else l.bypGap + 1 }) ∧
    (∀ n, n ≠ p → t.link n = s.link n) ∧ t = { s with regs := t.regs, links := t.links, out := t.out } := by
  have hport := (onlyPort_updLink s p (fun _ => l)).trans (onlyPort_fwrap _ p f k)
  have hlink : ((s.updLink p (fun _ => l)).fwrap f k).link p = l := (State.link_fwrap ..).trans (s.updLink_same ..)
  have hset : ((s.updLink p (fun _ => l)).fwrap f k).fget (F.LNK_PORT_STATE_LANES_GOOD (p / 8) (p % 8)) =
      s.fget (F.LNK_PORT_STATE_LANES_GOOD (p / 8) (p % 8)) := (State.fget_fset_other _ _ (hf p)).trans (s.updLink_to_fget ..)
  have hsame := State.link_putFlit_same ((s.updLink p (fun _ => l)).fwrap f k) p hd pay
  rw [hlink] at hsame
  exact ⟨⟨_, (State.putFlit_sends _ p hd pay).congr hport.out_eq hset (by rw [hlink, hscr])⟩, hsame, hport.putFlit hd pay⟩

/-- A flit that leaves after a change of the link state. -/
theorem State.putFlit_updLink (s : State) (p : Nat) (f : Link → Link) (hd : FlitHdr) (pay : Nat)
    (hscr : (f (s.link p)).txScr = (s.link p).txScr) :
    let t := (s.updLink p f).putFlit p hd pay
    SendsFlit p (flitBytes ((s.updLink p f).freshHdr p hd).pack pay) s t ∧
    (∃ scr, t.link p = { f (s.link p) with
      txScr := scr, crNext := ((f (s.link p)).crNext + 1) % 6
      bypGap := if hd.type = 2 then 0 else (f (s.link p)).bypGap + 1 }) ∧
    (∀ n, n ≠ p → t.link n = s.link n) ∧ t = { s with links := t.links, out := t.out } := by
  have hsame := State.link_putFlit_same (s.updLink p f) p hd pay
  rw [State.updLink_same] at hsame
  refine ⟨(State.putFlit_sends _ p hd pay).congr (s.updLink_out p f) (s.updLink_to_fget ..) (by rw [State.updLink_same, hscr]), hsame,
    fun n hn => (State.link_putFlit_other _ p hd pay hn).trans (s.updLink_other _ hn), ?_⟩
  have hframe := (s.updLink p f).putFlit_frame p hd pay
  generalize (s.updLink p f).putFlit p hd pay = t at hframe
  rw [hframe]
  rfl

/-! ### The slots (R237, R238) -/

/-- A message waits and a BYPASS flit is due. -/
def Link.bypassDue (l : Link) : Prop := (l.byq ≠ [] ∨ l.rsp.isSome = true ∨ l.follow.isSome = true) ∧ 7 ≤ l.bypGap

/-- A BYPASS flit with the messages that wait. -/
def State.bypassSlot (s : State) (p : Nat) : State :=
  let m := s.bypassOut p
  ((s.updLink p (fun _ => m.2)).fwrap (F.LNK_BYPASS_SENT (p / 8) (p % 8)) m.1.length).putFlit p { type := 2, seq := (s.link p).seq }
    (m.1.zipIdx.map (fun x => x.1.toNat * 2 ^ (128 * x.2))).sum

/-- An entry of the replay buffer again. -/
def State.replaySlot (s : State) (p i : Nat) : State :=
  let f := (s.link p).held.getD i ⟨0, 0, 0, 0, false, 0⟩
  (s.updLink p (fun l => { l with replay := if i + 1 < (s.link p).held.length then some (i + 1) else none })).putFlit p
    { type := 1, seq := f.seq, replay := true, vc := f.vc, start := f.start, units := f.units, abort := f.abort } f.payload.toNat

/-- The entry of a new DATA flit, and the link state after it. -/
def Link.dataEnt (l : Link) (v : Nat) : FlitEnt :=
  let r := l.fill v 7 [] 0 false 0
  ⟨l.seq, v, r.2.2.1, r.2.1.length, r.2.2.2.1, BitVec.ofNat 1792 (payOf r.2.1)⟩
def Link.dataNext (l : Link) (v now : Nat) : Link :=
  { (l.fill v 7 [] 0 false 0).1 with
    held := l.held ++ [l.dataEnt v], seq := (l.seq + 1) % 4096, timer := if l.held = [] then now else l.timer
    reqGap := if v = 0 then 0 else l.reqGap + 1 }

/-- A new DATA flit of a channel. -/
def State.dataSlot (s : State) (p v : Nat) : State :=
  let f := (s.link p).dataEnt v
  ((s.updLink p (fun _ => (s.link p).dataNext v s.refNs)).fwrap (F.LNK_TRANSIT_FORWARDED (p / 8) (p % 8))
    ((s.link p).fill v 7 [] 0 false 0).2.2.2.2).putFlit p
    { type := 1, seq := f.seq, vc := v, start := f.start, units := f.units, abort := f.abort } f.payload.toNat

/-- Filling a flit concerns the channel and its credits only. -/
theorem Link.txScr_fill (v k : Nat) (l : Link) (us : List (BitVec 256)) (st : Nat) (ab : Bool) (n : Nat) :
    (l.fill v k us st ab n).1.txScr = l.txScr := by
  induction k generalizing l us st ab n with
  | zero => rfl
  | succ k ih =>
    have hspend (f : LinkVc → LinkVc) (d : Nat) : ((if (l.vc v).sent = 0 then l.spend v d else l).updVc v f).txScr = l.txScr := by
      split <;> rfl
    rw [Link.fill]
    split
    · rfl
    · dsimp only
      split
      · rfl
      · split
        · rfl
        · split
          · rfl
          · split
            · exact (ih ..).trans (hspend ..)
            · exact hspend ..

end

section
variable {s : State} (p : PortId)

theorem exec_flitSlot_bypass (h5 : s.portSt p = 5) (hdue : (s.link p).bypassDue) : exec (.flitSlot p) s = .next (s.bypassSlot p) := by
  have hcap : ¬ (s.portSt p = 4 ∨ (s.portSt p = 6 ∧ (s.link p).sub = 2)) := by omega
  exact congrArg Host.Outcome.next ((if_neg hcap).trans ((if_neg (not_not.2 h5)).trans (if_pos hdue)))

section
variable (h5 : s.portSt p = 5) (hdue : ¬ (s.link p).bypassDue)
include h5 hdue

theorem exec_flitSlot_replay {i : Nat} (hreplay : (s.link p).replay = some i) : exec (.flitSlot p) s = .next (s.replaySlot p i) := by
  have hcap : ¬ (s.portSt p = 4 ∨ (s.portSt p = 6 ∧ (s.link p).sub = 2)) := by omega
  refine congrArg Host.Outcome.next ((if_neg hcap).trans ((if_neg (not_not.2 h5)).trans ((if_neg hdue).trans ?_)))
  rw [hreplay]
  rfl

variable (hreplay : (s.link p).replay = none)
include hreplay

theorem exec_flitSlot_data {v : Nat} (hpick : (s.link p).pickVc = some v) : exec (.flitSlot p) s = .next (s.dataSlot p v) := by
  have hcap : ¬ (s.portSt p = 4 ∨ (s.portSt p = 6 ∧ (s.link p).sub = 2)) := by omega
  refine congrArg Host.Outcome.next ((if_neg hcap).trans ((if_neg (not_not.2 h5)).trans ((if_neg hdue).trans ?_)))
  rw [hreplay, hpick]
  rfl

theorem exec_flitSlot_idle (hpick : (s.link p).pickVc = none) : exec (.flitSlot p) s =
    .next (s.putFlit p { type := 0, seq := (s.link p).seq } 0) := by
  have hcap : ¬ (s.portSt p = 4 ∨ (s.portSt p = 6 ∧ (s.link p).sub = 2)) := by omega
  refine congrArg Host.Outcome.next ((if_neg hcap).trans ((if_neg (not_not.2 h5)).trans ((if_neg hdue).trans ?_)))
  rw [hreplay, hpick]

end

end

end Sys2Proof.Machine

/-! OBLIGATION O29. The flit of each slot. -/

namespace Sys2Proof.Machine

section
variable {s : State} (p : PortId)

theorem flitSlot_idle (h5 : s.portSt p = 5) (hdue : ¬ (s.link p).bypassDue) (hreplay : (s.link p).replay = none)
    (hpick : (s.link p).pickVc = none) : Runs (.flitSlot p) s (fun t =>
      SendsFlit p (flitBytes (s.freshHdr p { type := 0, seq := (s.link p).seq }).pack 0) s t ∧
      (t.link p).held = (s.link p).held ∧ (t.link p).seq = (s.link p).seq ∧ (t.link p).vcs = (s.link p).vcs ∧
      (∀ n, n ≠ p → t.link n = s.link n) ∧ t = { s with links := t.links, out := t.out }) := by
  obtain ⟨scr, hlink⟩ := s.link_putFlit_same p { type := 0, seq := (s.link p).seq } 0
  refine ⟨_, exec_flitSlot_idle p h5 hdue hreplay hpick, s.putFlit_sends p _ _, ?_⟩
  rw [hlink]
  exact ⟨rfl, rfl, rfl, fun n hn => s.link_putFlit_other p _ _ (Fin.val_ne_of_ne hn), s.putFlit_frame p _ _⟩

theorem flitSlot_replay {i : Nat} (h5 : s.portSt p = 5) (hdue : ¬ (s.link p).bypassDue) (hreplay : (s.link p).replay = some i)
    (hi : i < (s.link p).held.length) : Runs (.flitSlot p) s (fun t => ∃ f, (s.link p).held[i]? = some f ∧
      SendsFlit p (flitBytes (s.freshHdr p { type := 1, seq := f.seq, replay := true, vc := f.vc, start := f.start
                                             units := f.units, abort := f.abort }).pack f.payload.toNat) s t ∧
      (t.link p).replay = (if i + 1 < (s.link p).held.length then some (i + 1) else none) ∧ (t.link p).held = (s.link p).held ∧
      (t.link p).seq = (s.link p).seq ∧ (∀ n, n ≠ p → t.link n = s.link n) ∧ t = { s with links := t.links, out := t.out }) := by
  have hget : (s.link p).held[i]? = some ((s.link p).held.getD i ⟨0, 0, 0, 0, false, 0⟩) := by
    rw [List.getD_eq_getElem _ _ hi, List.getElem?_eq_getElem hi]
  refine ⟨_, exec_flitSlot_replay p h5 hdue hreplay, _, hget, ?_⟩
  rw [State.replaySlot]
  generalize (s.link p).held.getD i ⟨0, 0, 0, 0, false, 0⟩ = f
  obtain ⟨hsends, ⟨scr, hlink⟩, hothers, hframe⟩ := s.putFlit_updLink p
    (fun l => { l with replay := if i + 1 < (s.link p).held.length then some (i + 1) else none })
    { type := 1, seq := f.seq, replay := true, vc := f.vc, start := f.start, units := f.units, abort := f.abort } f.payload.toNat rfl
  rw [State.freshHdr_updLink] at hsends
  exact ⟨hsends, (congrArg Link.replay hlink :), (congrArg Link.held hlink :), (congrArg Link.seq hlink :),
    fun n hn => hothers n (Fin.val_ne_of_ne hn), hframe⟩

theorem flitSlot_data {v : Nat} (h5 : s.portSt p = 5) (hdue : ¬ (s.link p).bypassDue) (hreplay : (s.link p).replay = none)
    (hpick : (s.link p).pickVc = some v) : Runs (.flitSlot p) s (fun t =>
      (t.link p).seq = ((s.link p).seq + 1) % 4096 ∧
      (∃ f, (t.link p).held = (s.link p).held ++ [f] ∧ f.seq = (s.link p).seq ∧ f.vc = v) ∧
      (∃ bytes, SendsFlit p bytes s t) ∧ (∀ n, n ≠ p → t.link n = s.link n) ∧
      t = { s with regs := t.regs, links := t.links, out := t.out }) := by
  obtain ⟨hsends, ⟨scr, hlink⟩, hothers, hframe⟩ := s.putFlit_counted p (f := F.LNK_TRANSIT_FORWARDED (p.val / 8) (p.val % 8))
    ((s.link p).fill v 7 [] 0 false 0).2.2.2.2
    { type := 1, seq := ((s.link p).dataEnt v).seq, vc := v, start := ((s.link p).dataEnt v).start
      units := ((s.link p).dataEnt v).units, abort := ((s.link p).dataEnt v).abort }
    ((s.link p).dataEnt v).payload.toNat (noPortState_transit p) (l := (s.link p).dataNext v s.refNs) (Link.txScr_fill ..)
  refine ⟨s.dataSlot p v, exec_flitSlot_data p h5 hdue hreplay hpick, ?_, ⟨(s.link p).dataEnt v, ?_, rfl, rfl⟩, hsends,
    fun n hn => hothers n (Fin.val_ne_of_ne hn), hframe⟩
  · exact congrArg Link.seq hlink
  · exact congrArg Link.held hlink

theorem flitSlot_bypass (h5 : s.portSt p = 5) (hdue : (s.link p).bypassDue) : Runs (.flitSlot p) s (fun t =>
    (∃ bytes, SendsFlit p bytes s t) ∧ (t.link p).bypGap = 0 ∧ (t.link p).held = (s.link p).held ∧
    (t.link p).seq = (s.link p).seq ∧ (t.link p).rsp = none ∧ (∀ n, n ≠ p → t.link n = s.link n) ∧
    t = { s with regs := t.regs, links := t.links, out := t.out }) := by
  obtain ⟨hsends, ⟨scr, hlink⟩, hothers, hframe⟩ := s.putFlit_counted p (f := F.LNK_BYPASS_SENT (p.val / 8) (p.val % 8))
    (s.bypassOut p).1.length { type := 2, seq := (s.link p).seq }
    ((s.bypassOut p).1.zipIdx.map (fun x => x.1.toNat * 2 ^ (128 * x.2))).sum (noPortState_bypass p) (l := (s.bypassOut p).2) rfl
  exact ⟨s.bypassSlot p, exec_flitSlot_bypass p h5 hdue, hsends, (congrArg Link.bypGap hlink :), (congrArg Link.held hlink :),
    (congrArg Link.seq hlink :), (congrArg Link.rsp hlink :), fun n hn => hothers n (Fin.val_ne_of_ne hn), hframe⟩

/-- In the exchange of CAP the port's own CAP flit goes, and ACTIVE waits for the partner's agreement (R220, R222). -/
theorem flitSlot_cap (hexchange : s.portSt p = 4 ∨ (s.portSt p = 6 ∧ (s.link p).sub = 2)) (hgot : (s.link p).agreedGot = false) :
    Runs (.flitSlot p) s (fun t => SendsFlit p (flitBytes (3 * 2 ^ 92) (s.capPayload p)) s t ∧ t.portSt p = s.portSt p ∧
      ((t.link p).agreedSent = true ↔ (s.link p).agreedSent = true ∨ ((s.link p).cap.bind (s.agree p)).isSome = true) ∧
      (∀ n, n ≠ p → t.link n = s.link n) ∧ t = { s with links := t.links, out := t.out }) := by
  generalize hbytes : flitBytes (3 * 2 ^ 92) (s.capPayload p) = bytes
  generalize hok : ((s.link p).cap.bind (s.agree p)).isSome = ok
  have hlink : ((s.emit p bytes).updLink p (fun l => { l with agreedSent := l.agreedSent || ok })).link p =
      { s.link p with
        txScr := (scrFlit (s.fget (F.LNK_PORT_STATE_LANES_GOOD (p.val / 8) (p.val % 8))) (s.link p).txScr).2
        agreedSent := (s.link p).agreedSent || ok } := by
    rw [State.updLink_same, State.emit, State.updLink_same]
    rfl
  have hwaits : ((s.emit p bytes).updLink p (fun l => { l with agreedSent := l.agreedSent || ok })).enterActive p =
      (s.emit p bytes).updLink p (fun l => { l with agreedSent := l.agreedSent || ok }) :=
    State.enterActive_waits (.inr (.inr (by rw [hlink]; exact hgot)))
  subst hbytes hok
  refine ⟨_, congrArg Host.Outcome.next ((if_pos hexchange).trans hwaits), rfl, rfl, ?_, fun n hn => ?_, rfl⟩
  · rw [hlink, Bool.or_eq_true]
  · rw [State.updLink_other _ _ (Fin.val_ne_of_ne hn), State.emit, State.updLink_other _ _ (Fin.val_ne_of_ne hn)]
    rfl

end

/-- Settles O29: what the port sends in each slot, by its state and by what waits. -/
theorem flitsSent : Obligations.FlitsSent := by
  unfold Obligations.FlitsSent
  intro p s
  exact ⟨fun h5 hdue hreplay hpick => flitSlot_idle p h5 hdue hreplay hpick, fun i h5 hdue => flitSlot_replay p h5 hdue,
    fun v h5 hdue hreplay => flitSlot_data p h5 hdue hreplay, flitSlot_bypass p, flitSlot_cap p⟩

end Sys2Proof.Machine

/-! SUPPORT. Channels and receive buffers of a port (R243), and the route tables (R255). -/

namespace Sys2Proof.Machine

/-! ### Channels (R243) -/

@[simp] theorem Link.vc_updVc_same (l : Link) (v : Nat) (f : LinkVc → LinkVc) : (l.updVc v f).vc v = f (l.vc v) := Tab.get_upd_same ..

theorem Link.vc_updVc_other (l : Link) {v w : Nat} (f : LinkVc → LinkVc) (h : w ≠ v) : (l.updVc v f).vc w = l.vc w :=
  Tab.get_upd_other _ _ h

/-- A packet that is queued at some port changes no receive buffer. -/
theorem rx_queued (s : State) (o p v : Nat) (ts : List TPkt) :
    (((s.updLink o (fun l => l.updVc v (fun c => { c with tx := c.tx ++ ts }))).link p).vc v).rx = ((s.link p).vc v).rx := by
  by_cases hp : p = o
  · rw [hp, State.updLink_same, Link.vc_updVc_same]
  · rw [State.updLink_other _ _ hp]

theorem rx_updRx (s : State) (p v id : Nat) (f : RPkt → RPkt) :
    (((s.updRx p v id f).link p).vc v).rx = ((s.link p).vc v).rx.map (fun x => if x.id = id then f x else x) := by
  rw [State.updRx, State.updLink_same, Link.vc_updVc_same]

/-- A port without its queues of packets to be sent. -/
def Link.emptied (l : Link) : Link := [0, 1, 2].foldl (fun l v => l.updVc v (fun c => { c with tx := [], sent := 0 })) l

theorem Link.tx_emptied (l : Link) : (l.emptied.vc 0).tx = [] ∧ (l.emptied.vc 1).tx = [] ∧ (l.emptied.vc 2).tx = [] := by
  simp [Link.emptied, Link.vc_updVc_other]

/-- The registers after a count that saturates depend on the registers alone. -/
theorem State.regs_fsat_congr {s t : State} (hregs : t.regs = s.regs) (f : Fld) (k : Nat) : (t.fsat f k).regs = (s.fsat f k).regs := by
  simp only [State.fsat, State.fset, State.setReg, State.fget, State.reg, hregs]

/-! ### Route tables (R251, R255) -/

theorem State.routeEnt_setRoute_same (s : State) (n i v : Nat) : (s.setRoute n i v).routeEnt n i = v := Tab.get_set_same ..

theorem State.routeEnt_setRoute_other (s : State) {n i m d : Nat} (v : Nat) (hi : i < 4096) (hd : d < 4096) (h : m ≠ n ∨ d ≠ i) :
    (s.setRoute n i v).routeEnt m d = s.routeEnt m d := Tab.get_set_other _ _ (by omega)

end Sys2Proof.Machine

/-! OBLIGATION O33. Transit, sealing, lost routes, plans and tables. -/

namespace Sys2Proof.Machine

section
variable {s : State} (p : PortId)

/-! ### Transit (R244, R245, R252) -/

section
variable {vc : Fin 3} {r : RPkt} {outs : List Nat} {here : Bool} (hland : s.transitHere p vc = none)
  (hnext : ((s.link p).vc vc).rx.find? (fun r => !r.routed && (r.pkt.head.mcast || !s.isHere p r)) = some r)
include hland hnext

theorem exec_transitForward (hroute : s.transitRoute p (FabHdr.unpack (r.units.headD 0).toNat) = some (outs, here)) :
    let u := (outs.filter (fun o => !(r.outs ++ r.far).contains o)).foldl (fun s o => s.beginOut p vc r o) s
    exec (.transitForward p vc) s = .next (if u.allBegun p vc r.id outs then
      (u.updRx p vc r.id (fun x => { x with routed := true, here := here })).sweepRx p vc else u) := by
  refine congrArg Host.Outcome.next ?_
  rw [hland, hnext]
  dsimp only
  rw [hroute]

theorem transitForward_drops (hroute : s.transitRoute p (FabHdr.unpack (r.units.headD 0).toNat) = none) (hwhole : r.units.length = r.need) :
    exec (.transitForward p vc) s = .next (((s.fsat F.FAB_RX_TRANSIT_DROP 1).hubOnce 0x0605
      (FabHdr.unpack (r.units.headD 0).toNat).fjob none).dropRx p vc r) := by
  refine congrArg Host.Outcome.next ?_
  rw [hland, hnext]
  dsimp only
  rw [hroute]
  exact if_neg (by omega)

/-- With its one output at the same edge, the packet has begun on all its outputs. -/
theorem transitForward_begins {o : Nat} (hroute : s.transitRoute p (FabHdr.unpack (r.units.headD 0).toNat) = some ([o], here))
    (hedge : o / 8 = p.val / 8) (hcredit : (s.link o).hasCredit vc (FabHdr.unpack (r.units.headD 0).toNat).d = true)
    (houts : r.outs = []) (hfar : r.far = []) :
    exec (.transitForward p vc) s = .next ((((s.updLink o (fun l => l.updVc vc (fun c =>
      { c with tx := c.tx ++ [⟨r.id, r.units, r.need, r.aborted, true⟩] }))).updRx p vc r.id
        (fun x => { x with outs := x.outs ++ [o] })).updRx p vc r.id
        (fun x => { x with routed := true, here := here })).sweepRx p vc) := by
  have hfilter : [o].filter (fun o => !(r.outs ++ r.far).contains o) = [o] := by
    rw [houts, hfar]
    rfl
  have hbegin : s.beginOut p vc r o = (s.updLink o (fun l => l.updVc vc (fun c =>
      { c with tx := c.tx ++ [⟨r.id, r.units, r.need, r.aborted, true⟩] }))).updRx p vc r.id
        (fun x => { x with outs := x.outs ++ [o] }) :=
    (if_pos hedge).trans (if_pos hcredit)
  have hall : (s.beginOut p vc r o).allBegun p vc r.id [o] = true := by
    rw [hbegin, State.allBegun, rx_updRx, rx_queued, List.any_eq_true]
    exact ⟨_, List.mem_map_of_mem (List.mem_of_find?_eq_some hnext), by simp⟩
  rw [exec_transitForward p hland hnext hroute, hfilter, List.foldl_cons, List.foldl_nil, if_pos hall, hbegin]

end

/-! ### Sealing, lost routes and ports that stay down (R262, R264, R265) -/

theorem sealSlice_seals {c : Nat} {i : SealItem} (hturn : ((List.range 16).map (fun i => (s.fab.turn + i) % 16)).find? s.sealWork = some c)
    (heven : c % 2 = 0) (hitem : s.fab.sealq.find? (fun i => i.job = c / 2) = some i) (hmore : 1 < i.slices) :
    Runs .sealSlice s (fun t => t = { s with fab := t.fab } ∧ t.fab.turn = (c + 1) % 16 ∧
      t.fab.sealq = s.fab.sealq.map (fun x => if x = i then { i with slices := i.slices - 1 } else x) ∧
      t.fab = { s.fab with turn := t.fab.turn, sealq := t.fab.sealq }) := by
  refine ⟨(s.updFab (fun f => { f with turn := (c + 1) % 16 })).updFab (fun f =>
    { f with sealq := f.sealq.map (fun x => if x = i then { i with slices := i.slices - 1 } else x) }), congrArg Host.Outcome.next ?_,
    rfl, rfl, rfl, rfl⟩
  have hitem' : (s.updFab (fun f => { f with turn := (c + 1) % 16 })).fab.sealq.find? (fun i => i.job = c / 2) = some i := hitem
  rw [hturn]
  refine (if_pos heven).trans ?_
  rw [hitem']
  exact if_pos hmore

theorem exec_routeNotice {m : BitVec 128 × Nat} {u : State} (htake : s.takeStored p 5 = some (m, u)) :
    let w := m.1.toNat
    let plan := bits w 119 119
    let hit := ((onesOf 64 (bits w 63 0)).filter (fun n =>
      let e := u.routeEnt plan (64 * bits w 118 113 + n)
      bit e 7 && !bit e 6 && e % 32 = p.val)).map (fun n => (plan, 64 * bits w 118 113 + n))
    exec (.routeNotice p) s = .next ((((hit.foldl (fun s m => s.setRoute m.1 m.2 (s.routeEnt m.1 m.2 + 64)) u).fwrap
      F.FAB_NOTICE_MARKED hit.length).sendNotices p (bits w 112 101) hit).routesLost hit) := by
  refine congrArg Host.Outcome.next ?_
  rw [htake]

theorem downHoldExpiry_discards {n : Nat}
    (hn : n = ((s.link p).vc 0).tx.length + ((s.link p).vc 1).tx.length + ((s.link p).vc 2).tx.length)
    (hclosed : s.portOpen p = false) (hdown : (s.link p).downAt ≠ 0)
    (hheld : (s.link p).downAt + 1000 * s.fget F.FAB_CTRL_DOWN_HOLD_US ≤ s.refNs) (hsome : 0 < n) :
    Runs (.downHoldExpiry p) s (fun t =>
      ((t.link p).vc 0).tx = [] ∧ ((t.link p).vc 1).tx = [] ∧ ((t.link p).vc 2).tx = [] ∧ (∀ m, m ≠ p → t.link m = s.link m) ∧
      t.regs = (s.fsat F.FAB_RX_TRANSIT_DROP n).regs ∧ t = { s with links := t.links, regs := t.regs }) := by
  have hsum : ([0, 1, 2].map (fun v => ((s.link p).vc v).tx.length)).sum = n := by
    simp only [List.map_cons, List.map_nil, List.sum_cons, List.sum_nil, hn]
    omega
  have hport := (onlyPort_updLink s p Link.emptied).trans (onlyPort_fsat _ p F.FAB_RX_TRANSIT_DROP n)
  have hlink : ((s.updLink p Link.emptied).fsat F.FAB_RX_TRANSIT_DROP n).link p = (s.link p).emptied :=
    (State.link_fsat ..).trans (s.updLink_same ..)
  have hexec : exec (.downHoldExpiry p) s = .next ((s.updLink p Link.emptied).fsat F.FAB_RX_TRANSIT_DROP n) := by
    rw [← hsum] at hsome ⊢
    exact congrArg Host.Outcome.next (if_pos ⟨hclosed, hdown, hheld, hsome⟩)
  have hempty := (s.link p).tx_emptied
  rw [← hlink] at hempty
  obtain ⟨h0, h1, h2⟩ := hempty
  exact ⟨_, hexec, h0, h1, h2, fun m hm => hport.2 m (Fin.val_ne_of_ne hm), State.regs_fsat_congr (s.updLink_regs ..) _ _, hport.1⟩

/-! ### Route plans (R266 to R268) -/

theorem routeFail_switches {j : Nat} {r : RPkt} (hd : DeliversCtl s p j 1 r) (hhead : s.isHead j = true)
    (hasked : s.fab.switching.contains j = false) (hpending : s.switchPending j = false) (hplan : s.planOf j = 0) :
    Runs (.routeFail p) s (fun t => t = Accepted s p 2 j r (fun u =>
      (u.updFab (fun f => { f with switching := f.switching ++ [j] })).sendSwitch j 1 0)) := by
  have hhead' : (Taken s p 2 j r).isHead j = true := (s.isHead_taken p 2 j r j).trans hhead
  have hasked' : (Taken s p 2 j r).fab.switching.contains j = false := hasked
  have hpending' : (Taken s p 2 j r).switchPending j = false := hpending
  have hplan' : (Taken s p 2 j r).planOf j = 0 := (s.fget_taken p 2 j r _).trans hplan
  refine ⟨_, next_control hd ((if_neg ?_).trans (if_pos hplan')), rfl⟩
  rw [hhead', hasked', hpending']
  decide

/-- A switch at a beat that lies ahead waits for it (R268). -/
theorem planSwitch_waits {j : Nat} {r : RPkt} (hd : DeliversCtl s p j 2 r) (hhalted : (s.job j).phase ≠ .halted)
    (hteardown : (s.job j).phase ≠ .teardown)  (hahead : s.jobBeat j < ctlNat (s.openRx p j r).1 8 8) :
    exec (.planSwitch p) s = .next (Accepted s p 2 j r (fun u => (u.updFab (fun f => { f with
      pend := f.pend.filter (fun x => x.1 ≠ j) ++ [(j, ctlByte (s.openRx p j r).1 1 % 2, ctlNat (s.openRx p j r).1 8 8)] })).fset
        (F.FAB_JOB_STATE_PENDING j) 1)) := by
  have hjob : (Taken s p 2 j r).job j = s.job j := by
    rw [taken_frame]
    rfl
  have hbeat : (Taken s p 2 j r).jobBeat j = s.jobBeat j := by
    rw [taken_frame]
    rfl
  refine next_control hd ((if_neg ?_).trans (if_neg ?_))
  · rw [hjob]
    exact not_or.2 ⟨hhalted, hteardown⟩
  · rw [hbeat]
    omega

theorem planSwitchBeat_switches {j : JobId} {q b : Nat} (hpend : s.fab.pend.find? (fun x => x.1 = j.val) = some (j.val, q, b))
    (hbeat : b ≤ s.jobBeat j) : exec (.planSwitchBeat j) s = .next (s.doSwitch j q b) := by
  refine congrArg Host.Outcome.next ?_
  rw [hpend]
  exact if_pos hbeat

theorem fabJobCtlGo_sends {j : JobId} {plan : Bool} {beat : Fin 281474976710656} (hhead : s.isHead j = true)
    (hphase : (s.job j).phase ≠ .free) : exec (.fabJobCtlGo j plan beat) s = .next
      ((s.updFab (fun f => { f with switching := f.switching.filter (· ≠ j.val) })).sendSwitch j (b2n plan) beat) :=
  congrArg Host.Outcome.next (if_pos ⟨hhead, hphase⟩)

end

/-! ### The route tables (R255) -/

section
variable {s : State} (v : Word) {n i : Nat} (hn : s.fget F.FAB_TBL_SEL_TABLE = n) (hi : s.fget F.FAB_TBL_SEL_INDEX = i)
include hn hi

theorem fabTblWrite_route (hroute : n < 2) (hrange : i < 4096) : Runs (.fabTblWrite v) s (fun t =>
    t.routeEnt n i = bits v.toNat 7 7 * 128 + bits v.toNat 4 0 ∧
    (∀ m d, d < 4096 → (m ≠ n ∨ d ≠ i) → t.routeEnt m d = s.routeEnt m d) ∧
    t = { s with fab := { s.fab with routes := t.fab.routes } }) := by
  have hsize : ¬ tblSize n ≤ i := by
    rw [tblSize, if_pos hroute]
    omega
  subst hn hi
  exact ⟨_, congrArg Host.Outcome.next ((if_neg hsize).trans (if_pos hroute)), s.routeEnt_setRoute_same ..,
    fun _ _ hd hother => s.routeEnt_setRoute_other _ hrange hd hother, rfl⟩

theorem fabTblWrite_group (htable : n = 2) (hrange : i < 2048) : Runs (.fabTblWrite v) s (fun t =>
    Tab.get zeroNat t.fab.mcast i = v.toNat % 2 ^ 58 ∧
    (∀ m, m ≠ i → Tab.get zeroNat t.fab.mcast m = Tab.get zeroNat s.fab.mcast m) ∧
    t = { s with fab := { s.fab with mcast := t.fab.mcast } }) := by
  have hsize : ¬ tblSize n ≤ i := by
    rw [htable, tblSize, if_neg (by decide), if_pos rfl]
    omega
  have hroute : ¬ n < 2 := by omega
  subst hn hi
  exact ⟨_, congrArg Host.Outcome.next ((if_neg hsize).trans ((if_neg hroute).trans (if_pos htable))), Tab.get_set_same ..,
    fun _ hm => Tab.get_set_other _ _ hm, rfl⟩

theorem fabTblWrite_peers (htable : n = 3) (hrange : i < 512) : Runs (.fabTblWrite v) s (fun t =>
    Tab.get zeroNat t.fab.peers i = v.toNat ∧
    (∀ m, m ≠ i → Tab.get zeroNat t.fab.peers m = Tab.get zeroNat s.fab.peers m) ∧
    t = { s with fab := { s.fab with peers := t.fab.peers } }) := by
  have hsize : ¬ tblSize n ≤ i := by
    rw [htable, tblSize, if_neg (by decide), if_neg (by decide)]
    omega
  have hroute : ¬ n < 2 := by omega
  have hgroup : ¬ n = 2 := by omega
  subst hn hi
  exact ⟨_, congrArg Host.Outcome.next ((if_neg hsize).trans ((if_neg hroute).trans (if_neg hgroup))), Tab.get_set_same ..,
    fun _ hm => Tab.get_set_other _ _ hm, rfl⟩

end

/-- Settles O33, row by row. -/
theorem routesAndTransit : Obligations.RoutesAndTransit := by
  unfold Obligations.RoutesAndTransit
  intro p s
  refine ⟨fun vc q t hland => ?_, fun vc r outs here hland hnext => ⟨exec_transitForward p hland hnext,
      fun o => transitForward_begins p hland hnext, transitForward_drops p hland hnext⟩,
    fun c hturn heven i => sealSlice_seals hturn heven, fun m u => exec_routeNotice p, downHoldExpiry_discards p rfl,
    fun j r => routeFail_switches p, fun j r hd hhalted hteardown _ => planSwitch_waits p hd hhalted hteardown,
    fun j q b => planSwitchBeat_switches, fun j plan beat => fabJobCtlGo_sends,
    fun v => ⟨fabTblWrite_route v rfl rfl, fabTblWrite_group v rfl rfl, fabTblWrite_peers v rfl rfl⟩⟩
  refine congrArg Host.Outcome.next ?_
  rw [hland]

end Sys2Proof.Machine

/-! SUPPORT. The order in which an arriving packet is judged (R263). -/

namespace Sys2Proof.Machine

section
variable {s : State} {p v j : Nat} {r : RPkt} {want : FabHdr → List Line → Bool} (act : State → Nat → FabHdr → List Line → State)
  (hfirst : s.firstHere p v = some r) (hform : badFabHdr v r.pkt.head = false)
include hfirst hform

/-- A packet at a fabric port that names no job of this device. -/
theorem State.receive_unknownJob (hyoke : (s.link p).isYoke = false) (hctx : s.ctxOf r.pkt.head.fjob = none)
    (hwant : want r.pkt.head [] = true) :
    s.receive p v want act = ((s.fsat F.FAB_RX_UNKNOWN_JOB 1).hubOnce 0x0606 r.pkt.head.fjob none).dropRx p v r := by
  rw [State.receive, hfirst]
  dsimp only
  rw [if_neg (ne_true_of_eq_false hform), hyoke, hctx]
  exact if_pos hwant

section
variable (hctx : s.ctxOf r.pkt.head.fjob = some j)
  (hyoke : (s.link p).isYoke = true → (r.pkt.head.dst = s.fget F.YOK_CFG_PARTNER ∨ r.pkt.head.dst = s.devId) ∧
    s.fbit (F.YOK_JOB_CFG_YOKED j) = true)
  (hwant : want r.pkt.head (s.openRx p j r).1 = true ∨ (s.openRx p j r).2 = false ∧ want r.pkt.head [] = true)
include hctx hyoke hwant

/-- A packet of a job of this device: the checks of R263 after its context is found, in their order. -/
theorem State.receive_of_ctx :
    s.receive p v want act =
      let key := s.inKey p j r.pkt.head
      let d := subMod 16 r.pkt.head.eseq ((s.inStream key).next % 65536)
      if r.aborted then s.dropRx p v r
      else if r.slices < slicesOf r.pkt.head.d then s
      else if !(s.openRx p j r).2 then ((s.fwrap (F.SEC_JOB_RX_AUTH_FAIL j) 1).hubOnce 0x0A02 j (some j)).dropRx p v r
      else if r.pkt.head.kind = 3 then act (s.dropRx p v r) j r.pkt.head (s.openRx p j r).1
      else if d = 0 then Accepted s p v j r (fun u => act u j r.pkt.head (s.openRx p j r).1)
      else if d < 32768 then ((s.fsat F.FAB_RX_GAP 1).dropRx p v r).sendAck key r.pkt.head.src
      else (s.fsat F.FAB_RX_DUP 1).dropRx p v r := by
  have hours : ¬ ((s.link p).isYoke &&
      (decide (r.pkt.head.dst ≠ s.fget F.YOK_CFG_PARTNER) && decide (r.pkt.head.dst ≠ s.devId))) = true := by
    simp only [Bool.and_eq_true, decide_eq_true_eq]
    exact fun ⟨hy, hpartner, hdev⟩ => (hyoke hy).1.elim hpartner hdev
  have hjob : (s.ctxOf r.pkt.head.fjob).filter (fun j => !(s.link p).isYoke || s.fbit (F.YOK_JOB_CFG_YOKED j)) = some j := by
    rw [hctx, Option.filter_some]
    exact if_pos (by simpa [imp_iff_not_or] using fun hy => (hyoke hy).2)
  have hpicked : ¬ (!want r.pkt.head (s.openRx p j r).1 && !(!(s.openRx p j r).2 && want r.pkt.head [])) = true := by
    obtain hlines | ⟨hauth, hhead⟩ := hwant
    · simp [hlines]
    · simp [hauth, hhead]
  rw [State.receive, hfirst]
  dsimp only
  rw [if_neg (ne_true_of_eq_false hform), if_neg hours, hjob]
  dsimp only
  rw [if_neg hpicked]
  rfl

theorem State.receive_aborted (haborted : r.aborted = true) : s.receive p v want act = s.dropRx p v r := by
  rw [State.receive_of_ctx act hfirst hform hctx hyoke hwant, if_pos haborted]

section
variable (hwhole : r.aborted = false) (hslices : slicesOf r.pkt.head.d ≤ r.slices)
include hwhole hslices

theorem State.receive_unauthentic (hauth : (s.openRx p j r).2 = false) : s.receive p v want act =
    ((s.fwrap (F.SEC_JOB_RX_AUTH_FAIL j) 1).hubOnce 0x0A02 j (some j)).dropRx p v r := by
  rw [State.receive_of_ctx act hfirst hform hctx hyoke hwant, if_neg (ne_true_of_eq_false hwhole), if_neg (Nat.not_lt.2 hslices), hauth]
  rfl

/-- An authentic packet with a number is classified by the distance of the number from the expected one (R257). -/
theorem State.receive_classified (hauth : (s.openRx p j r).2 = true) (hkind : r.pkt.head.kind ≠ 3) : s.receive p v want act =
    let d := subMod 16 r.pkt.head.eseq ((s.inStream (s.inKey p j r.pkt.head)).next % 65536)
    if d = 0 then Accepted s p v j r (fun u => act u j r.pkt.head (s.openRx p j r).1)
    else if d < 32768 then ((s.fsat F.FAB_RX_GAP 1).dropRx p v r).sendAck (s.inKey p j r.pkt.head) r.pkt.head.src
    else (s.fsat F.FAB_RX_DUP 1).dropRx p v r := by
  rw [State.receive_of_ctx act hfirst hform hctx hyoke hwant, if_neg (ne_true_of_eq_false hwhole), if_neg (Nat.not_lt.2 hslices),
    if_neg (by simp [hauth]), if_neg hkind]

end

end

end

end Sys2Proof.Machine

/-! OBLIGATION O32. Packets that are turned away, and the timers of the streams. -/

namespace Sys2Proof.Machine

section
variable {s : State} {p : PortId} {r : RPkt}

/-! ### Writes (R257, R263, R404) -/

section
variable {j : Nat} (hfirst : s.firstHere p 0 = some r) (hform : badFabHdr 0 r.pkt.head = false) (hkind : r.pkt.head.kind = 0)
  (hyoke : (s.link p).isYoke = false)
include hfirst hform hkind hyoke

theorem write_unknownJob (hctx : s.ctxOf r.pkt.head.fjob = none) : exec (.write p) s =
    .next (((s.fsat F.FAB_RX_UNKNOWN_JOB 1).hubOnce 0x0606 r.pkt.head.fjob none).dropRx p 0 r) :=
  congrArg Host.Outcome.next (State.receive_unknownJob _ hfirst hform hyoke hctx (decide_eq_true hkind))

section
variable (hctx : s.ctxOf r.pkt.head.fjob = some j)
include hctx

theorem write_aborted (haborted : r.aborted = true) : exec (.write p) s = .next (s.dropRx p 0 r) :=
  congrArg Host.Outcome.next (State.receive_aborted _ hfirst hform hctx (by simp [hyoke]) (.inl (decide_eq_true hkind)) haborted)

section
variable (hwhole : r.aborted = false) (hslices : slicesOf r.pkt.head.d ≤ r.slices)
include hwhole hslices

theorem write_unauthentic (hauth : (s.openRx p j r).2 = false) : exec (.write p) s =
    .next (((s.fwrap (F.SEC_JOB_RX_AUTH_FAIL j) 1).hubOnce 0x0A02 j (some j)).dropRx p 0 r) :=
  congrArg Host.Outcome.next (State.receive_unauthentic _ hfirst hform hctx (by simp [hyoke]) (.inl (decide_eq_true hkind))
    hwhole hslices hauth)

section
variable {d : Nat} (hauth : (s.openRx p j r).2 = true)
  (hd : subMod 16 r.pkt.head.eseq ((s.inStream (s.inKey p j r.pkt.head)).next % 65536) = d)
include hauth hd

/-- An authentic write whose number is not the expected one. -/
theorem write_outOfSequence (hnot : d ≠ 0) : exec (.write p) s = .next (
    if d < 32768 then ((s.fsat F.FAB_RX_GAP 1).dropRx p 0 r).sendAck (s.inKey p j r.pkt.head) r.pkt.head.src
    else (s.fsat F.FAB_RX_DUP 1).dropRx p 0 r) := by
  subst hd
  exact congrArg Host.Outcome.next ((State.receive_classified _ hfirst hform hctx (by simp [hyoke]) (.inl (decide_eq_true hkind))
    hwhole hslices hauth (by omega)).trans (if_neg hnot))

theorem write_ahead (hpos : 0 < d) (hahead : d < 32768) : exec (.write p) s =
    .next (((s.fsat F.FAB_RX_GAP 1).dropRx p 0 r).sendAck (s.inKey p j r.pkt.head) r.pkt.head.src) := by
  rw [write_outOfSequence hfirst hform hkind hyoke hctx hwhole hslices hauth hd (by omega), if_pos hahead]

theorem write_duplicate (hbehind : 32768 ≤ d) : exec (.write p) s = .next ((s.fsat F.FAB_RX_DUP 1).dropRx p 0 r) := by
  rw [write_outOfSequence hfirst hform hkind hyoke hctx hwhole hslices hauth hd (by omega), if_neg (Nat.not_lt.2 hbehind)]

end

end

end

end

/-! ### Malformed packets (R250) -/

theorem malformedFabricPacket_drops {vc : Fin 3} (hfirst : s.firstHere p vc = some r) (hbad : badFabHdr vc r.pkt.head = true) :
    exec (.malformedFabricPacket p vc) s = .next ((s.dropRx p vc r).raise { code := 0x0608, blk := 28 }) := by
  refine congrArg Host.Outcome.next ?_
  rw [hfirst]
  exact if_pos (by rw [hbad, Bool.true_or])

end

/-! ### The timers of a stream (R257, R258) -/

section
variable {s : State} (j : JobId) (stream : Fin 16384)

theorem ackTimer_acknowledges {at_ : Nat} (hsince : (s.inStream (16384 * j.val + stream.val)).since = some at_)
    (hdue : at_ + 2000 ≤ s.refNs) :
    exec (.ackTimer j stream) s = .next (s.sendAck (16384 * j.val + stream.val) ((16384 * j.val + stream.val) % 4096)) := by
  refine congrArg Host.Outcome.next ?_
  rw [hsince]
  exact if_pos hdue

theorem resendTimer_resends {k : KeptPkt} {ks : List KeptPkt} (hkept : (s.outStream (16384 * j.val + stream.val)).kept = k :: ks)
    (hphase : (s.job j).phase ≠ .teardown) (hdue : k.at_ + 1000 * s.fget F.FAB_CTRL_RESEND_US ≤ s.refNs) :
    exec (.resendTimer j stream) s = .next ((s.resend (16384 * j.val + stream.val)).hubOnce 0x0609 j (some j.val)) := by
  refine congrArg Host.Outcome.next ?_
  rw [hkept]
  exact if_pos ⟨hphase, hdue⟩

end

/-- Settles O32: a write by the first check of R263 that it fails, and each timer under its condition. -/
theorem packetsTurnedAway : Obligations.PacketsTurnedAway := by
  unfold Obligations.PacketsTurnedAway
  intro p s r
  refine ⟨fun hfirst hform hkind hyoke => ⟨write_unknownJob hfirst hform hkind hyoke,
      fun j hctx => write_aborted hfirst hform hkind hyoke hctx, fun j hctx hwhole hslices => ⟨?_, fun hauth => ⟨?_, ?_⟩⟩⟩,
    fun vc => malformedFabricPacket_drops, fun j stream => ⟨fun at_ => ackTimer_acknowledges j stream,
      fun k ks => resendTimer_resends j stream⟩⟩
  · exact write_unauthentic hfirst hform hkind hyoke hctx hwhole hslices
  · exact write_ahead hfirst hform hkind hyoke hctx hwhole hslices hauth rfl
  · exact write_duplicate hfirst hform hkind hyoke hctx hwhole hslices hauth rfl

end Sys2Proof.Machine

/-! SUPPORT. The generator and the fold of digests (R285, R286, R338): odd multipliers have inverses, and a word XORed with itself
shifted by 29 can be found again. -/

namespace Sys2Proof.Machine

/-! ### The generator (R285) -/

/-- A word times an odd multiplier of the generator, cut to 32 bits, determines the word. -/
theorem ofNat_toNat_mul_inj {m : Nat} (hunit : IsUnit (BitVec.ofNat 32 m)) {x y : Word32}
    (h : BitVec.ofNat 32 (x.toNat * m) = BitVec.ofNat 32 (y.toNat * m)) : x = y := by
  rw [BitVec.ofNat_mul, BitVec.ofNat_mul, BitVec.ofNat_toNat, BitVec.ofNat_toNat, BitVec.setWidth_eq, BitVec.setWidth_eq] at h
  exact hunit.mul_left_injective h

theorem isUnit_genMul0 : IsUnit (BitVec.ofNat 32 0xD2511F53) := .of_mul_eq_one 0x991A7CDB#32 (by decide)

theorem isUnit_genMul2 : IsUnit (BitVec.ofNat 32 0xCD9E8D57) := .of_mul_eq_one 0x6D7CAE67#32 (by decide)

/-- A round loses nothing: the low products give back words 0 and 2, and with them the high products that are XORed onto words 1
and 3. -/
theorem genRound_injective (k0 k1 : Word32) : Function.Injective (genRound k0 k1) := by
  rintro ⟨w0, w1, w2, w3⟩ ⟨v0, v1, v2, v3⟩ h
  simp only [genRound, Quad.mk.injEq] at h
  obtain ⟨hone, hlow2, hthree, hlow0⟩ := h
  obtain rfl := ofNat_toNat_mul_inj isUnit_genMul0 hlow0
  obtain rfl := ofNat_toNat_mul_inj isUnit_genMul2 hlow2
  simpa using And.intro hone hthree

theorem genRounds_injective (n : Nat) (k0 k1 : Word32) : Function.Injective (genRounds n k0 k1) := by
  induction n generalizing k0 k1 with
  | zero => exact Function.injective_id
  | succ n ih => exact (ih _ _).comp (genRound_injective k0 k1)

theorem gen_injective (k0 k1 : Word32) : Function.Injective (gen k0 k1) :=
  genRounds_injective 10 k0 k1

/-! ### The fold of digests (R338) -/

theorem isUnit_foldMul : IsUnit (0x9E3779B97F4A7C15 : Word) := .of_mul_eq_one 0xF1DE83E19937733D#64 (by decide)

/-- A word XORed with itself shifted by 29 is taken back by the shifts by 29 and 58: a third shift by 29 leaves nothing of it. -/
theorem xor_shift29_injective : Function.Injective (fun x : Word => x ^^^ (x >>> 29)) := by
  refine Function.LeftInverse.injective (g := fun y : Word => y ^^^ (y >>> 29) ^^^ (y >>> 58)) fun x => ?_
  have hgone : x >>> 87 = 0#64 := BitVec.ushiftRight_eq_zero (by decide)
  simp only [BitVec.ushiftRight_xor_distrib, ← BitVec.shiftRight_add, Nat.reduceAdd, hgone]
  grind

theorem foldWord_inj {d d' w w' : Word} (h : foldWord d w = foldWord d' w') : d ^^^ w = d' ^^^ w' :=
  isUnit_foldMul.mul_left_injective (xor_shift29_injective h)

end Sys2Proof.Machine

/-! OBLIGATION O23. The generator and its draws, and the fold of digests. -/

namespace Sys2Proof.Machine

/-- Settles O23: each round of the generator and each step of the fold is a composition of injections. -/
theorem drawsDiffer : Obligations.DrawsDiffer := by
  unfold Obligations.DrawsDiffer
  refine ⟨fun k0 k1 c d h => gen_injective k0 k1 h, fun seed n n' t t' r r' i i' h => ?_, fun d d' w w' => ⟨fun h => ?_, fun h => ?_⟩⟩
  · obtain ⟨ht, hn, hi, hr⟩ := Quad.mk.inj (gen_injective _ _ h)
    exact ⟨hn, ht, hr, hi⟩
  · exact (BitVec.xor_left_inj w).1 (foldWord_inj h)
  · exact (BitVec.xor_right_inj d).1 (foldWord_inj h)

end Sys2Proof.Machine

/-! SUPPORT. The order of FMAX (R131, R137): a rank in a linear order for every FP32 code that is no NaN, with -0 below +0, so that two
codes of one rank are the same code. -/

namespace Sys2Proof.Machine

/-! ### Codes that are no NaN (R98) -/

theorem fp32_regular : fp32.Regular := Fmt.regular_of_mem (by decide)

/-- What an FP32 code stands for, by its exponent and mantissa. -/
theorem dec32_eq (w : Nat) : dec32 w =
    if fp32.expField w = 255 then (if w % 2 ^ 23 = 0 then .inf (bit w 31) else .nan)
    else if fp32.expField w = 0 then .fin (bit w 31) (w % 2 ^ 23) (-149)
    else .fin (bit w 31) (2 ^ 23 + w % 2 ^ 23) (fp32.expField w - 127 - 23) := by
  rw [dec32, decodeNum, ← Fmt.expField]
  by_cases htop : fp32.expField w = 255
  · rw [if_pos ⟨rfl, htop⟩, if_pos htop]
    rfl
  · rw [if_neg fun h => htop h.2, if_neg fun h => Special.noConfusion h.1, if_neg htop]
    rfl

theorem isNan_dec32 (w : Nat) : (dec32 w).isNan = isNan32 w := by
  have hcode : w % 2 ^ 23 + fp32.expField w * 2 ^ 23 = w % 2 ^ 31 := fp32_regular.magCode_fields w
  have hexp : fp32.expField w < 2 ^ 8 := fp32_regular.expField_lt w
  have hman : w % 2 ^ 23 < 2 ^ 23 := Nat.mod_lt _ (by decide)
  rw [dec32_eq, isNan32, abs32]
  split_ifs <;> simp [Num.isNan] <;> omega

/-- A zero's code is its sign only. -/
theorem eq_zero32c_of_isZero {w : Nat} (hw : w < 2 ^ 32) (hzero : (dec32 w).isZero = true) : w = zero32c (dec32 w).neg := by
  have hjoin : signCode fp32 (bit w 31) (w % 2 ^ 23 + fp32.expField w * 2 ^ 23) = w := fp32_regular.signCode_fields hw
  rw [dec32_eq] at hzero ⊢
  split_ifs at hzero ⊢ with htop hinf he
  · exact absurd hzero (by simp [Num.isZero])
  · exact absurd hzero (by simp [Num.isZero])
  · have hm : w % 2 ^ 23 = 0 := of_decide_eq_true hzero
    rw [he, hm] at hjoin
    exact hjoin.symm
  · exact absurd hzero (by simp [Num.isZero])

/-- A code that is neither NaN nor zero is what its value rounds to. -/
theorem encodeNum_dec32 {w : Nat} (hw : w < 2 ^ 32) (hnan : isNan32 w = false) (hzero : (dec32 w).isZero = false) :
    encodeNum fp32 (dec32 w) = w := by
  have hback := formatsRoundTrip fp32 (by decide) w hw
  rwa [← dec32, isNan_dec32, hnan, hzero] at hback

/-! ### Values in order -/

/-- A value that is no NaN, as a number or an infinity. -/
noncomputable def Num.value : Num → EReal
  | .inf true => ⊥
  | .inf false => ⊤
  | .nan => 0
  | .fin neg m e => ((Num.fin neg m e).dy.val : ℝ)

theorem Dy.val_neg_iff {d : Dy} : d.val < 0 ↔ d.m < 0 := by
  have hpos : (0 : ℚ) < 2 ^ d.e := zpow_pos two_pos _
  rw [Dy.val, ← not_le, mul_nonneg_iff_of_pos_right hpos, Int.cast_nonneg_iff, not_le]

theorem Num.dy_m_eq_zero {neg : Bool} {m : Nat} {e : Int} : (Num.fin neg m e).dy.m = 0 ↔ m = 0 := by
  cases neg <;> simp [Num.dy]

/-- Finite values are compared by the sign of their difference. -/
theorem Num.lt_fin {n n' : Bool} {m m' : Nat} {e e' : Int} :
    (Num.fin n m e).lt (.fin n' m' e') = true ↔ (Num.fin n m e).dy.val < (Num.fin n' m' e').dy.val := by
  have hneg (d : Dy) : Dy.val ⟨-d.m, d.e⟩ = -d.val := by simp [Dy.val]
  rw [Num.lt, decide_eq_true_iff, ← Dy.val_neg_iff, Dy.val_add, hneg, ← sub_eq_add_neg, sub_neg]
  all_goals simp

theorem Num.lt_iff {a b : Num} (ha : a.isNan = false) (hb : b.isNan = false) : a.lt b = true ↔ a.value < b.value := by
  match a, b with
  | .inf true, .inf true | .inf true, .inf false | .inf true, .fin .. | .inf false, .inf true | .inf false, .inf false
  | .inf false, .fin .. | .fin .., .inf true | .fin .., .inf false => simp [Num.lt, Num.value]
  | .fin .., .fin .. => rw [Num.lt_fin, Num.value, Num.value]; norm_cast

theorem Num.value_eq_zero {a : Num} (ha : a.isNan = false) : a.value = 0 ↔ a.isZero = true := by
  match a with
  | .inf true | .inf false => simp [Num.value, Num.isZero]
  | .fin neg m e =>
    rw [Num.value, Num.isZero, decide_eq_true_iff, ← Num.dy_m_eq_zero (neg := neg) (e := e), ← Dy.val_eq_zero]
    norm_cast

/-- A finite value that is no zero is rounded as its exact number. -/
theorem encodeNum_fin_eq_to32 {neg : Bool} {m : Nat} {e : Int} (hm : m ≠ 0) :
    encodeNum fp32 (.fin neg m e) = (Num.fin neg m e).dy.to32 := by
  have hpos : 0 < m := Nat.pos_of_ne_zero hm
  have hnat : ¬ (m : Int) < 0 := by omega
  cases neg <;> simp [Num.dy, Dy.to32, hpos, hnat]

theorem encodeNum_congr {a b : Num} (ha : a.isNan = false) (hb : b.isNan = false) (ha0 : a.isZero = false) (hb0 : b.isZero = false)
    (h : a.value = b.value) : encodeNum fp32 a = encodeNum fp32 b := by
  match a, b with
  | .inf true, .inf true | .inf false, .inf false => rfl
  | .inf true, .inf false | .inf true, .fin .. | .inf false, .inf true | .inf false, .fin .. | .fin .., .inf true
  | .fin .., .inf false => simp [Num.value] at h
  | .fin .., .fin .. =>
    rw [encodeNum_fin_eq_to32 (of_decide_eq_false ha0), encodeNum_fin_eq_to32 (of_decide_eq_false hb0)]
    rw [Num.value, Num.value] at h
    exact Dy.to32_congr (by exact_mod_cast h)

/-! ### The rank of a code (R131) -/

/-- The place of a code in the order of FMAX: its value, and -0 below +0. -/
noncomputable def rank32 (w : Nat) : EReal ×ₗ Bool :=
  toLex ((dec32 w).value, !((dec32 w).isZero && (dec32 w).neg))

section
variable {x y : Nat} (hx : isNan32 x = false) (hy : isNan32 y = false)
include hx hy

theorem isZero_eq_of_value_eq (h : (dec32 x).value = (dec32 y).value) : (dec32 x).isZero = (dec32 y).isZero := by
  rw [Bool.eq_iff_iff, ← Num.value_eq_zero ((isNan_dec32 x).trans hx), h, Num.value_eq_zero ((isNan_dec32 y).trans hy)]

theorem fmaxBelow_iff : fmaxBelow x y = true ↔ rank32 x < rank32 y := by
  have hx' := (isNan_dec32 x).trans hx
  have hy' := (isNan_dec32 y).trans hy
  rw [fmaxBelow, rank32, rank32, Prod.Lex.toLex_lt_toLex]
  by_cases hzero : (dec32 x).isZero = true ∧ (dec32 y).isZero = true
  · obtain ⟨hzx, hzy⟩ := hzero
    simp [hzx, hzy, (Num.value_eq_zero hx').2 hzx, (Num.value_eq_zero hy').2 hzy, Bool.lt_iff]
  · rw [if_neg (by simpa using hzero), Num.lt_iff hx' hy']
    refine (or_iff_left ?_).symm
    rintro ⟨hval, hsign⟩
    have hsame := isZero_eq_of_value_eq hx hy hval
    cases hzx : (dec32 x).isZero with
    | true => exact hzero ⟨hzx, hsame ▸ hzx⟩
    | false => simp [← hsame, hzx] at hsign

theorem fmaxBelow_eq_false_iff : fmaxBelow x y = false ↔ rank32 y ≤ rank32 x := by
  rw [← Bool.not_eq_true, fmaxBelow_iff hx hy, not_lt]

/-- Of two codes that are no NaN, FMAX returns the first unless it lies below the second. -/
theorem fmax32_eq : fmax32 x y = if fmaxBelow x y = true then y else x := by
  simp only [fmax32, fminmax32, isNan_dec32, hx, hy, Bool.or_self, Bool.false_eq_true, if_false, if_true, ite_self]
  rfl

/-- Codes of one rank are the same code. -/
theorem rank32_inj (hxlt : x < 2 ^ 32) (hylt : y < 2 ^ 32) (h : rank32 x = rank32 y) : x = y := by
  obtain ⟨hval, hsign⟩ := Prod.mk.inj (toLex.injective h)
  have hzero := isZero_eq_of_value_eq hx hy hval
  by_cases hzx : (dec32 x).isZero = true
  · have hneg : (dec32 x).neg = (dec32 y).neg := by simpa [hzx, ← hzero] using hsign
    rw [eq_zero32c_of_isZero hxlt hzx, eq_zero32c_of_isZero hylt (hzero ▸ hzx), hneg]
  · have hzx := Bool.eq_false_of_not_eq_true hzx
    have hzy := hzero ▸ hzx
    rw [← encodeNum_dec32 hxlt hx hzx, ← encodeNum_dec32 hylt hy hzy]
    exact encodeNum_congr ((isNan_dec32 x).trans hx) ((isNan_dec32 y).trans hy) hzx hzy hval

end

/-! ### Minus infinity, and the largest of a list (R288) -/

theorem isNan32_negInf : isNan32 0xFF800000 = false := by decide

theorem rank32_negInf_le {x : Nat} (hx : isNan32 x = false) : rank32 0xFF800000 ≤ rank32 x := by
  have hinf : dec32 0xFF800000 = .inf true := by decide
  rw [rank32, rank32, hinf, Prod.Lex.toLex_le_toLex]
  refine bot_le.lt_or_eq.imp_right fun hbot : ⊥ = (dec32 x).value => ⟨hbot, ?_⟩
  have hzero : ¬ (dec32 x).isZero = true := by
    rw [← Num.value_eq_zero ((isNan_dec32 x).trans hx), ← hbot]
    exact EReal.bot_ne_zero
  simp [hzero]

/-- FMAX over a list returns one of the values that it meets, and none of them lies above it. -/
theorem foldl_fmax32 {a : Nat} {zs : List Nat} (h : ∀ y ∈ a :: zs, isNan32 y = false) :
    zs.foldl fmax32 a ∈ a :: zs ∧ ∀ y ∈ a :: zs, rank32 y ≤ rank32 (zs.foldl fmax32 a) := by
  induction zs generalizing a with
  | nil => simp
  | cons z zs ih =>
    obtain ⟨ha, hz, hzs⟩ : isNan32 a = false ∧ isNan32 z = false ∧ ∀ y ∈ zs, isNan32 y = false := by simpa using h
    rw [List.foldl_cons, fmax32_eq ha hz]
    split
    case isTrue hbelow =>
      have hlt := (fmaxBelow_iff ha hz).1 hbelow
      obtain ⟨hmem, hle⟩ := ih (a := z) (List.forall_mem_cons.2 ⟨hz, hzs⟩)
      exact ⟨List.mem_cons_of_mem _ hmem, List.forall_mem_cons.2 ⟨hlt.le.trans (hle z List.mem_cons_self), hle⟩⟩
    case isFalse hbelow =>
      have hza := not_lt.1 (mt (fmaxBelow_iff ha hz).2 hbelow)
      obtain ⟨hmem, hle⟩ := ih (a := a) (List.forall_mem_cons.2 ⟨ha, hzs⟩)
      obtain ⟨hafold, hfold⟩ := List.forall_mem_cons.1 hle
      refine ⟨?_, List.forall_mem_cons.2 ⟨hafold, List.forall_mem_cons.2 ⟨hza.trans hafold, hfold⟩⟩⟩
      rw [List.mem_cons] at hmem ⊢
      exact hmem.imp_right (List.mem_cons_of_mem _)

end Sys2Proof.Machine

/-! SUPPORT. The candidates of a sampling routine (R290): every token once, in descending order of the logits. -/

namespace Sys2Proof.Machine

/-- Token i goes before token j among candidates: its logit lies higher, or no lower and the token is the lower one (R290). -/
def CandBefore (zs : List Nat) (i j : Nat) : Prop :=
  fmaxBelow (zs.getD j 0) (zs.getD i 0) = true ∨ fmaxBelow (zs.getD i 0) (zs.getD j 0) = false ∧ i < j

theorem insertCand_perm (zs : List Nat) (i : Nat) (l : List Nat) : (insertCand zs i l).Perm (i :: l) := by
  induction l with
  | nil => rfl
  | cons j t ih =>
    rw [insertCand]
    split
    · rfl
    · exact (ih.cons j).trans (List.Perm.swap i j t)

theorem foldl_insertCand_perm (zs : List Nat) (n : Nat) :
    ((List.range n).foldl (fun l i => insertCand zs i l) []).Perm (List.range n) := by
  induction n with
  | zero => rfl
  | succ n ih =>
    rw [List.range_succ, List.foldl_append]
    exact (insertCand_perm zs n _).trans ((ih.cons n).trans (List.perm_append_singleton n _).symm)

theorem candidates_perm (zs : List Nat) : (candidates zs).Perm (List.range zs.length) :=
  foldl_insertCand_perm zs zs.length

theorem mem_candidates {zs : List Nat} {i : Nat} : i ∈ candidates zs ↔ i < zs.length := by
  rw [(candidates_perm zs).mem_iff, List.mem_range]

theorem candidates_nodup (zs : List Nat) : (candidates zs).Nodup :=
  (candidates_perm zs).nodup_iff.2 List.nodup_range

section
variable {zs : List Nat} (hnan : ∀ y ∈ zs, isNan32 y = false)
include hnan

theorem isNan32_getD (i : Nat) : isNan32 (zs.getD i 0) = false := by
  rw [List.getD_eq_getElem?_getD]
  cases hi : zs[i]? with
  | none => rfl
  | some y => exact hnan y (List.mem_of_getElem? hi)

theorem candBefore_iff {i j : Nat} : CandBefore zs i j ↔ rank32 (zs.getD j 0) < rank32 (zs.getD i 0) ∨
    rank32 (zs.getD j 0) ≤ rank32 (zs.getD i 0) ∧ i < j := by
  rw [CandBefore, fmaxBelow_iff (isNan32_getD hnan j) (isNan32_getD hnan i),
    fmaxBelow_eq_false_iff (isNan32_getD hnan i) (isNan32_getD hnan j)]

theorem rank32_le_of_candBefore {i j : Nat} (h : CandBefore zs i j) : rank32 (zs.getD j 0) ≤ rank32 (zs.getD i 0) :=
  ((candBefore_iff hnan).1 h).elim le_of_lt And.left

/-- A token above all tokens so far finds its place among them. -/
theorem insertCand_pairwise {i : Nat} {l : List Nat} (hl : l.Pairwise (CandBefore zs)) (hlt : ∀ j ∈ l, j < i) :
    (insertCand zs i l).Pairwise (CandBefore zs) := by
  induction l with
  | nil => exact List.pairwise_singleton _ _
  | cons j t ih =>
    obtain ⟨hj, ht⟩ := List.pairwise_cons.1 hl
    obtain ⟨hji, hti⟩ := List.forall_mem_cons.1 hlt
    rw [insertCand]
    split
    case isTrue hbelow =>
      have hrank := (fmaxBelow_iff (isNan32_getD hnan j) (isNan32_getD hnan i)).1 hbelow
      refine List.pairwise_cons.2 ⟨List.forall_mem_cons.2 ⟨.inl hbelow, fun x hx => ?_⟩, hl⟩
      exact (candBefore_iff hnan).2 (.inl ((rank32_le_of_candBefore hnan (hj x hx)).trans_lt hrank))
    case isFalse hbelow =>
      refine List.pairwise_cons.2 ⟨fun x hx => ?_, ih ht hti⟩
      obtain rfl | hx := List.mem_cons.1 ((insertCand_perm zs i t).mem_iff.1 hx)
      · exact .inr ⟨Bool.eq_false_of_not_eq_true hbelow, hji⟩
      · exact hj x hx

theorem foldl_insertCand_pairwise (n : Nat) :
    ((List.range n).foldl (fun l i => insertCand zs i l) []).Pairwise (CandBefore zs) := by
  induction n with
  | zero => exact List.Pairwise.nil
  | succ n ih =>
    rw [List.range_succ, List.foldl_append]
    exact insertCand_pairwise hnan ih fun j hj => List.mem_range.1 ((foldl_insertCand_perm zs n).mem_iff.1 hj)

theorem candidates_pairwise : (candidates zs).Pairwise (CandBefore zs) :=
  foldl_insertCand_pairwise hnan zs.length

/-- A token that is not among the first candidates lies above none of them. -/
theorem fmaxBelow_of_not_mem_take {n i j : Nat} (hi : i ∈ (candidates zs).take n) (hj : j < zs.length)
    (hout : j ∉ (candidates zs).take n) : fmaxBelow (zs.getD i 0) (zs.getD j 0) = false := by
  have hsplit := candidates_pairwise hnan
  have hmem := mem_candidates.2 hj
  rw [← List.take_append_drop n (candidates zs)] at hsplit hmem
  have hdrop := (List.mem_append.1 hmem).resolve_left hout
  rw [fmaxBelow_eq_false_iff (isNan32_getD hnan i) (isNan32_getD hnan j)]
  exact rank32_le_of_candBefore hnan ((List.pairwise_append.1 hsplit).2.2 i hi j hdrop)

end

end Sys2Proof.Machine

/-! SUPPORT. What a sampling routine returns (R287 to R290): a token of the vocabulary, by NaN, by minus infinity, by SAMPLE.GREEDY or by
the draw. -/

namespace Sys2Proof.Machine

/-! ### The choice by running sums (R289, R290) -/

theorem length_runAdds (a : Nat) (l : List Nat) : (runAdds a l).length = l.length := by
  induction l generalizing a with
  | nil => rfl
  | cons x t ih => exact congrArg Nat.succ (ih _)

theorem lt_length_of_findIdx? {l : List Nat} {p : Nat → Bool} {i : Nat} (h : l.findIdx? p = some i) : i < l.length :=
  (List.findIdx?_eq_some_iff_findIdx_eq.1 h).1

theorem lastPos_lt {es : List Nat} {i : Nat} (h : lastPos es = some i) : i < es.length :=
  List.mem_range.1 (List.mem_filter.1 (List.mem_of_getLast? h)).1

/-- The first running sum above a threshold, or the last position with weight, is a position of the list. -/
theorem runAdds_pick_lt {a : Nat} {l : List Nat} {p : Nat → Bool} {i : Nat}
    (h : ((runAdds a l).findIdx? p).or (lastPos l) = some i) : i < l.length := by
  rcases Option.or_eq_some_iff.1 h with hsum | ⟨-, hlast⟩
  · exact length_runAdds a l ▸ lt_length_of_findIdx? hsum
  · exact lastPos_lt hlast

theorem tempPick_lt {u : Nat} {es : List Nat} {i : Nat} (h : (tempPick u es).1 = some i) : i < es.length := by
  rw [tempPick] at h
  dsimp only at h
  split at h
  · exact lastPos_lt h
  · obtain ⟨j, hj, rfl⟩ := Option.map_eq_some_iff.1 h
    have hlt := runAdds_pick_lt hj
    rw [List.length_take, List.length_drop] at hlt
    omega

theorem candPick_mem {u : Nat} {es kept : List Nat} {i : Nat} (h : (candPick u es kept).1 = some i) : i ∈ kept := by
  obtain ⟨j, hj, rfl⟩ := Option.map_eq_some_iff.1 h
  have hlt := runAdds_pick_lt hj
  rw [List.length_map] at hlt
  rw [List.getD_eq_getElem _ _ hlt]
  exact List.getElem_mem hlt

/-! ### The routines, case by case (R288) -/

/-- What SAMPLE.GREEDY returns. -/
def greedyOf (zs : List Nat) : Sampled := ⟨zs.findIdx? (fun z => z = maxLogit zs), false, false, true, [], 0, none⟩

section
variable (r : Sampler) {zs : List Nat} (temp u : Nat)

theorem sample_nan {i : Nat} (h : zs.findIdx? isNan32 = some i) : sample r zs temp u = ⟨some i, true, false, false, [], 0, none⟩ := by
  rw [sample, h]

section
variable (hnan : ∀ y ∈ zs, isNan32 y = false)
include hnan

theorem sample_allNegInf (hinf : ∀ y ∈ zs, y = 0xFF800000) : sample r zs temp u = ⟨some 0, false, true, false, [], 0, none⟩ := by
  rw [sample, List.findIdx?_eq_none_iff.2 hnan]
  exact if_pos (by simpa using hinf)

section
variable (hlive : ∃ y ∈ zs, y ≠ 0xFF800000)
include hlive

theorem sample_greedy (h : r = .greedy ∨ floatPos temp = false) : sample r zs temp u = greedyOf zs := by
  rw [sample, List.findIdx?_eq_none_iff.2 hnan]
  have hall : ¬ zs.all (fun z => z = 0xFF800000) = true := by simpa using hlive
  dsimp only
  rw [if_neg hall]
  obtain rfl | hcold := h
  · exact ite_self _
  · rw [hcold]; rfl

/-- With a logit above minus infinity a routine acts as SAMPLE.GREEDY, or it draws: SAMPLE.TEMP among all tokens, the others among the first
candidates, which they keep. -/
theorem sample_cases : sample r zs temp u = greedyOf zs ∨
    (∃ es norm, es.length = zs.length ∧ sample r zs temp u = ⟨(tempPick u es).1, false, false, false, es, norm, none⟩) ∨
    ∃ es norm n, sample r zs temp u =
      ⟨(candPick u es ((candidates zs).take n)).1, false, false, false, es, norm, some ((candidates zs).take n)⟩ := by
  by_cases hcold : r = .greedy ∨ floatPos temp = false
  · exact .inl (sample_greedy r temp u hnan hlive hcold)
  obtain ⟨hr, hwarm⟩ : r ≠ .greedy ∧ floatPos temp = true := by simpa using hcold
  have hall : ¬ zs.all (fun z => z = 0xFF800000) = true := by simpa using hlive
  rw [sample, List.findIdx?_eq_none_iff.2 hnan]
  dsimp only
  rw [if_neg hall, hwarm]
  cases r with
  | greedy => exact absurd rfl hr
  | temp => exact .inr (.inl ⟨_, _, List.length_map _, rfl⟩)
  | topK k => exact .inr (.inr ⟨_, _, _, rfl⟩)
  | topP p => exact .inr (.inr ⟨_, _, _, by rw [← List.take_take]; rfl⟩)

theorem sample_flags : (sample r zs temp u).nan = false ∧ (sample r zs temp u).empty = false := by
  obtain h | ⟨es, norm, -, h⟩ | ⟨es, norm, n, h⟩ := sample_cases r temp u hnan hlive <;> rw [h] <;> exact ⟨rfl, rfl⟩

theorem sample_kept {kept : List Nat} (hkept : (sample r zs temp u).kept = some kept) : ∃ n, kept = (candidates zs).take n := by
  obtain h | ⟨es, norm, -, h⟩ | ⟨es, norm, n, h⟩ := sample_cases r temp u hnan hlive <;> rw [h] at hkept
  · cases hkept
  · cases hkept
  · exact ⟨n, (Option.some.inj hkept).symm⟩

theorem sample_token_lt_of_live {i : Nat} (htoken : (sample r zs temp u).token = some i) : i < zs.length := by
  obtain h | ⟨es, norm, hlen, h⟩ | ⟨es, norm, n, h⟩ := sample_cases r temp u hnan hlive <;> rw [h] at htoken
  · exact lt_length_of_findIdx? htoken
  · exact hlen ▸ tempPick_lt htoken
  · exact mem_candidates.1 (List.mem_of_mem_take (candPick_mem htoken))

/-- The largest logit is one of them, and none lies above it. -/
theorem maxLogit_greatest (hlt : ∀ y ∈ zs, y < 2 ^ 32) : maxLogit zs ∈ zs ∧ ∀ y ∈ zs, rank32 y ≤ rank32 (maxLogit zs) := by
  obtain ⟨hmem, hle⟩ := foldl_fmax32 (List.forall_mem_cons.2 ⟨isNan32_negInf, hnan⟩)
  have habove := (List.forall_mem_cons.1 hle).2
  refine ⟨(List.mem_cons.1 hmem).resolve_left fun hm => ?_, habove⟩
  obtain ⟨y, hy, hne⟩ := hlive
  have hrank := (habove y hy).trans_eq (congrArg rank32 hm)
  exact hne (rank32_inj (hnan y hy) isNan32_negInf (hlt y hy) (by decide) (hrank.antisymm (rank32_negInf_le (hnan y hy))))

/-- SAMPLE.GREEDY returns the lowest token whose logit no other lies above (R288). -/
theorem greedyOf_token (hlt : ∀ y ∈ zs, y < 2 ^ 32) : ∃ i < zs.length, (greedyOf zs).token = some i ∧
    (∀ j < zs.length, fmaxBelow (zs.getD i 0) (zs.getD j 0) = false) ∧
    ∀ j < i, fmaxBelow (zs.getD j 0) (zs.getD i 0) = true := by
  obtain ⟨hmem, hmax⟩ := maxLogit_greatest hnan hlive hlt
  have htoken : (greedyOf zs).token = some (zs.findIdx (fun z => z = maxLogit zs)) :=
    List.findIdx?_eq_some_of_exists ⟨_, hmem, decide_eq_true rfl⟩
  generalize zs.findIdx (fun z => z = maxLogit zs) = i at htoken
  obtain ⟨hi, hfound, hfirst⟩ := List.findIdx?_eq_some_iff_getElem.1 htoken
  have hm : zs.getD i 0 = maxLogit zs := (List.getD_eq_getElem _ _ hi).trans (of_decide_eq_true hfound)
  refine ⟨i, hi, htoken, fun j hj => ?_, fun j hj => ?_⟩
  · rw [fmaxBelow_eq_false_iff (isNan32_getD hnan i) (isNan32_getD hnan j), hm, List.getD_eq_getElem _ _ hj]
    exact hmax _ (List.getElem_mem hj)
  · have hjlt := hj.trans hi
    have hother : zs[j] ≠ maxLogit zs := fun h => hfirst j hj (decide_eq_true h)
    rw [fmaxBelow_iff (isNan32_getD hnan j) (isNan32_getD hnan i), hm, List.getD_eq_getElem _ _ hjlt]
    have hjmem := List.getElem_mem hjlt
    exact (hmax _ hjmem).lt_of_ne fun h => hother (rank32_inj (hnan _ hjmem) (hnan _ hmem) (hlt _ hjmem) (hlt _ hmem) h)

end

end

theorem sample_token_lt (hne : zs ≠ []) {i : Nat} (h : (sample r zs temp u).token = some i) : i < zs.length := by
  cases hfound : zs.findIdx? isNan32 with
  | some j =>
    rw [sample_nan r temp u hfound] at h
    exact Option.some.inj h ▸ lt_length_of_findIdx? hfound
  | none =>
    have hnan := List.findIdx?_eq_none_iff.1 hfound
    by_cases hinf : ∀ y ∈ zs, y = 0xFF800000
    · rw [sample_allNegInf r temp u hnan hinf] at h
      exact Option.some.inj h ▸ List.length_pos_of_ne_nil hne
    · exact sample_token_lt_of_live r temp u hnan (by simpa using hinf) h

end

/-! ### The tokens of a VERIFY item (R319) -/

/-- Without ACCEPT_RATIO a draft is accepted when it is the routine's own token, so what is returned is the routine's token either
way. -/
theorem verifyTokens_prefix (ds : List (Nat × Nat × Nat × Sampled)) (y : Sampled) :
    verifyTokens false ds y <+: ds.map (fun d => d.2.2.2.token) ++ [y.token] := by
  induction ds with
  | nil => exact List.prefix_rfl
  | cons d rest ih =>
    obtain ⟨d, q, u, r⟩ := d
    rw [verifyTokens, List.map_cons, List.cons_append]
    split
    case isTrue haccepted =>
      have hsame : r.token = some d := of_decide_eq_true haccepted
      rw [hsame]
      exact (List.prefix_cons_inj _).2 ih
    case isFalse => exact (List.prefix_cons_inj _).2 List.nil_prefix

end Sys2Proof.Machine

/-! OBLIGATION O24. The sampling routines, and the tokens of verified drafts. -/

namespace Sys2Proof.Machine

/-- Settles O24: by NaN, by minus infinity, and by rank: SAMPLE.GREEDY returns the first code of the greatest rank, and the candidates
are sorted by rank. -/
theorem samplersChooseTokens : Obligations.SamplersChooseTokens := by
  unfold Obligations.SamplersChooseTokens
  refine ⟨fun r zs temp u hne hlt => ⟨fun i => sample_token_lt r temp u hne, fun i hi hinan hbefore => ?_, fun hinf => ?_,
    fun hnan hlive => ?_⟩, verifyTokens_prefix⟩
  · have hfound : zs.findIdx? isNan32 = some i := List.findIdx?_eq_some_iff_getElem.2
      ⟨hi, List.getD_eq_getElem _ _ hi ▸ hinan, fun j hj => by
        rw [← List.getD_eq_getElem _ 0 (hj.trans hi), hbefore j hj]; decide⟩
    rw [sample_nan r temp u hfound]
    exact ⟨rfl, rfl⟩
  · rw [sample_allNegInf r temp u (fun y hy => hinf y hy ▸ isNan32_negInf) hinf]
    exact ⟨rfl, rfl, rfl⟩
  · obtain ⟨hno, hsome⟩ := sample_flags r temp u hnan hlive
    refine ⟨hno, hsome, fun hcold => ?_, fun kept hkept => ?_⟩
    · rw [sample_greedy r temp u hnan hlive hcold]
      exact greedyOf_token hnan hlive hlt
    · obtain ⟨n, rfl⟩ := sample_kept r temp u hnan hlive hkept
      have hsub := List.take_sublist n (candidates zs)
      exact ⟨(candidates_nodup zs).sublist hsub, (candidates_pairwise hnan).sublist hsub, fun i hi =>
        ⟨mem_candidates.1 (hsub.subset hi), fun j => fmaxBelow_of_not_mem_take hnan hi⟩⟩

end Sys2Proof.Machine

/-! OBLIGATION O1. A step. -/

namespace Sys2Proof.Machine

/-- Settles O1: a queue that holds a command is the other branch of the step. -/
theorem stepRunsFront : Obligations.StepRunsFront := by
  unfold Obligations.StepRunsFront
  intro c rest s h
  simp only [step, h]

end Sys2Proof.Machine

/-! OBLIGATION O35. Packets for the relay and the head, the composition points of the head, and the save of a quiescent job. -/

namespace Sys2Proof.Machine

/-! ### Packets for the relay and the head (R305, R306, R325) -/

section
variable {s : State} {p : PortId} {j : Nat} {r : RPkt}

theorem haltNote_halts (hd : DeliversCtl s p j 0x10 r) (hhead : s.isHead j = true) :
    exec (.haltNote p) s = .next (Accepted s p 2 j r (fun u =>
      (u.headHalt j (ctlNat (s.openRx p j r).1 1 2)).relayHalt j)) :=
  next_control hd (if_pos ((s.isHead_taken p 2 j r j).trans hhead))

theorem kvLost_ends (hd : DeliversCtl s p j 0x13 r) (hhead : s.isHead j = true) :
    exec (.kvLost p) s = .next (Accepted s p 2 j r (fun u => u.kvLost j (ctlNat (s.openRx p j r).1 4 4))) :=
  next_control hd (if_pos ((s.isHead_taken p 2 j r j).trans hhead))

end

/-! ### The points of the head (R304, R305, R313) -/

section
variable {s : State} {j : JobId} (host : List HostPiece)

theorem compositionPoint_composes (hdue : s.pointDue j = true) (hreason : (s.srvJob j).reason ∉ [1, 2, 4]) :
    exec (.compositionPoint j host) s = .next ((s.pointStart j host).2.pointEnd j host (s.pointStart j host).1) := by
  refine congrArg Host.Outcome.next ?_
  rw [hdue]
  generalize (s.srvJob j).reason = n at hreason
  simp only [List.mem_cons, List.not_mem_nil, or_false, not_or] at hreason
  obtain ⟨hidle, hhost, hpause⟩ := hreason
  split
  · next hnot => exact absurd hnot (by decide)
  · split
    · exact absurd rfl hpause
    · exact absurd rfl hidle
    · exact absurd rfl hhost
    · rfl

theorem compositionPoint_polls (hdue : s.pointDue j = true) (hreason : (s.srvJob j).reason = 1 ∨ (s.srvJob j).reason = 2) :
    exec (.compositionPoint j host) s = .next (s.idlePoll j host) ∧ exec (.idlePoll j host) s = .next (s.idlePoll j host) := by
  constructor
  · refine congrArg Host.Outcome.next ?_
    rw [hdue]
    rcases hreason with hreason | hreason <;> rw [hreason] <;> rfl
  · exact congrArg Host.Outcome.next (if_pos (by simp [hdue, hreason]))

theorem compositionPoint_retires (hdue : s.pointDue j = true) (hreason : (s.srvJob j).reason = 4) :
    exec (.compositionPoint j host) s = .next (s.retirePaused j) := by
  refine congrArg Host.Outcome.next ?_
  rw [hdue, hreason]
  rfl

theorem compositionPoint_notDue (hdue : s.pointDue j = false) :
    exec (.compositionPoint j host) s = .next s ∧ exec (.idlePoll j host) s = .next s :=
  ⟨congrArg Host.Outcome.next (if_pos (by simp [hdue])), congrArg Host.Outcome.next (if_neg (by simp [hdue]))⟩

end

/-! ### The save of a quiescent job (R283, R331) -/

/-- The device at which the save of a paused job begins: a head has retired what has come back (R305). -/
def State.beforeSave (s : State) (j : Nat) : State := if s.headActs j then s.retirePaused j else s

/-- Where the save set goes, and how much fits: what PAUSE named at the head, the operands elsewhere (log entry 61). -/
def State.saveArea (s : State) (j : Nat) (addr capacity : Word) : Nat × Nat :=
  if s.isHead j then (s.srvJob j).pause.getD (addr.toNat, capacity.toNat) else (addr.toNat, capacity.toNat)

/-- The device on which the save of job `j` has begun. -/
def State.savingStarted (s : State) (j : Nat) : State := s.updInfo j (fun i => { i with saving := true })

section
variable {s : State} {j : JobId} {addr capacity : Word} {p : Nat} (hsusp : (s.srvJob j).susp = some (4, p))
  (hphase : (s.job j).phase = .suspended) (hquiet : s.quiescent j = true) (hsaving : (s.infoOf j).saving = false)
include hsusp hphase hquiet hsaving

theorem exec_jobQuiescentSave : exec (.jobQuiescentSave j addr capacity) s = .next (
    if ((s.beforeSave j).saveArea j addr capacity).2 < ((s.beforeSave j).saveSet j p).length then
      ((s.beforeSave j).savingStarted j).devNote ((s.beforeSave j).ring j).port 6 14 j 0 0
    else (((s.beforeSave j).savingStarted j).hostWrite ((s.beforeSave j).ring j).port ((s.beforeSave j).saveArea j addr capacity).1
      ((s.beforeSave j).saveSet j p)).devNote ((s.beforeSave j).ring j).port 6 13 j 0 ((s.beforeSave j).saveSet j p).length) := by
  refine congrArg Host.Outcome.next ?_
  rw [hsusp]
  exact if_pos (by simp [hphase, hquiet, hsaving])

end

/-- Settles O35: packets are accepted with their effect on the device that has taken them; a point does what its reason says; a save
set is written if it fits. -/
theorem headAndRelayComplete : Obligations.HeadAndRelayComplete := by
  unfold Obligations.HeadAndRelayComplete
  intro s
  refine ⟨?packets, fun j host => ⟨compositionPoint_composes host, compositionPoint_polls host, compositionPoint_retires host,
    compositionPoint_notDue host⟩, ?save⟩
  case packets =>
    intro p j r ls
    exact ⟨fun hd => next_control hd rfl, fun hd => next_control hd rfl, haltNote_halts, kvLost_ends⟩
  case save =>
    intro j addr capacity p hsusp hphase hquiet hsaving s0 t u a n harea
    have hexec := exec_jobQuiescentSave (addr := addr) (capacity := capacity) hsusp hphase hquiet hsaving
    have hat : (s.beforeSave j).saveArea j addr capacity = (a, n) := harea.symm
    rw [hat] at hexec
    exact ⟨fun hfits => hexec.trans (congrArg Host.Outcome.next (if_neg (Nat.not_lt.2 hfits))),
      fun hlarge => hexec.trans (congrArg Host.Outcome.next (if_pos hlarge))⟩

end Sys2Proof.Machine

/-! OBLIGATION O37. Packets that fail authentication. -/

namespace Sys2Proof.Machine

/-! ### The effect of a packet that does not authenticate (R404) -/

/-- The device after a packet that does not authenticate: counted, reported at most once in each 1 ms, and discarded. -/
def State.unauthentic (s : State) (p v j : Nat) (r : RPkt) : State :=
  ((s.fwrap (F.SEC_JOB_RX_AUTH_FAIL j) 1).hubOnce 0x0A02 j (some j)).dropRx p v r

theorem State.ctxOf_lt {s : State} {fj j : Nat} (h : s.ctxOf fj = some j) : j < 8 :=
  List.mem_range.1 (List.mem_of_find?_eq_some h)

theorem listed_authFail {j : Nat} (h : j < 8) : (F.SEC_JOB_RX_AUTH_FAIL j).Listed :=
  Fld.listed_of_row .sec 0 0x300 8 8 j (by decide) h (by decide) (by simp only [R.SEC_JOB_RX, Blk.base, Blk.base0, Blk.stride])

/-- A row that an arriving packet performs discards the packet when it does not authenticate, whatever else it says. -/
theorem packetRow_unauthentic {good : Bool} {sections : List Byte} {v k : Nat} {row : PortId → Instr}
    (hrow : (v, k, row) ∈ packetRows good sections) {p : PortId} {s : State} {j : Nat} {r : RPkt} (hfirst : s.firstHere p v = some r)
    (hform : badFabHdr v r.pkt.head = false) (hkind : r.pkt.head.kind = k) (hctx : s.ctxOf r.pkt.head.fjob = some j)
    (hyoke : (s.link p).isYoke = true → (r.pkt.head.dst = s.fget F.YOK_CFG_PARTNER ∨ r.pkt.head.dst = s.devId) ∧
      s.fbit (F.YOK_JOB_CFG_YOKED j) = true)
    (hwhole : r.aborted = false) (hslices : slicesOf r.pkt.head.d ≤ r.slices) (hidle : s.portBusy p = false)
    (hauth : (s.openRx p j r).2 = false) : exec (row p) s = .next (s.unauthentic p v j r) := by
  have hdrop {want : FabHdr → List Line → Bool} (act : State → Nat → FabHdr → List Line → State)
      (hwant : want r.pkt.head [] = true) : (.next (s.receive p v want act) : Res) = .next (s.unauthentic p v j r) :=
    congrArg Host.Outcome.next
      (State.receive_unauthentic act hfirst hform hctx hyoke (.inr ⟨hauth, hwant⟩) hwhole hslices hauth)
  have hjournal : exec (.journal p) s = .next (s.control p 0x1B (fun s j _ ls =>
      let ring := s.fget (F.YOK_JOB_AREA_JOURNAL j) * 4096
      let off := ctlNat ls 16 4
      let len := ctlNat ls 20 4
      let bs := ((List.range ((len + 63) / 64)).flatMap (fun i => s.hubGet (ring + (off + 64 * i) % 1048576) 64)).take len
      match itemsOf len bs with
      | none => s.hubErr j 0x080A 0
      | some is_ => s.updYok j (fun y => { y with journal := y.journal ++ [(ctlNat ls 8 8, is_)] }))) :=
    congrArg Host.Outcome.next (if_neg (ne_true_of_eq_false hidle))
  simp only [packetRows, List.mem_cons, List.not_mem_nil, or_false, Prod.mk.injEq] at hrow
  rcases hrow with ⟨rfl, rfl, rfl⟩ | ⟨rfl, rfl, rfl⟩ | ⟨rfl, rfl, rfl⟩ | ⟨rfl, rfl, rfl⟩ | ⟨rfl, rfl, rfl⟩ | ⟨rfl, rfl, rfl⟩ |
    ⟨rfl, rfl, rfl⟩ | ⟨rfl, rfl, rfl⟩ | ⟨rfl, rfl, rfl⟩ | ⟨rfl, rfl, rfl⟩ | ⟨rfl, rfl, rfl⟩ | ⟨rfl, rfl, rfl⟩ | ⟨rfl, rfl, rfl⟩ |
    ⟨rfl, rfl, rfl⟩ | ⟨rfl, rfl, rfl⟩ | ⟨rfl, rfl, rfl⟩ | ⟨rfl, rfl, rfl⟩ | ⟨rfl, rfl, rfl⟩ | ⟨rfl, rfl, rfl⟩
  case inr.inr.inr.inr.inr.inr.inr.inr.inr.inr.inr.inr.inr.inr.inl => exact hjournal.trans (hdrop _ (by simp [hkind]))
  all_goals exact hdrop _ (by simp [hkind])

/-- The record of a failed authentication, and that no other is made within 1 ms. -/
theorem State.hubOnce_authFail (s : State) (j : Nat) :
    (s.hubOnce 0x0A02 j (some j) = if s.mayReport 0x0A02 j then
      (s.setReport 0x0A02 j).raiseRec { code := 0x0A02, blk := 28, job := some j } else s) := by
  have hmild : (s.setReport 0x0A02 j).raise { code := 0x0A02, blk := 28, job := some j } =
      (s.setReport 0x0A02 j).raiseRec { code := 0x0A02, blk := 28, job := some j } := State.raise_of_mild rfl (by decide : (1 : Nat) < 2)
  rw [State.hubOnce, hmild]

/-- A discarded packet is in the buffer no more. -/
theorem State.rx_dropRx (s : State) (p v : Nat) (r : RPkt) : ∀ x ∈ (((s.dropRx p v r).link p).vc v).rx, x.id ≠ r.id := by
  intro x hx
  simp only [State.dropRx, State.updLink_same, Link.vc_updVc_same, List.mem_filter, decide_eq_true_eq] at hx
  exact hx.2

theorem State.mayReport_fwrap (s : State) (f : Fld) (k code sub : Nat) :
    (s.fwrap f k).mayReport code sub = s.mayReport code sub := rfl

/-- The count of a failed authentication changes registers alone. -/
theorem State.authCounted_spec (s : State) {j : Nat} (hj : j < 8) :
    s.fwrap (F.SEC_JOB_RX_AUTH_FAIL j) 1 = { s with regs := (s.fwrap (F.SEC_JOB_RX_AUTH_FAIL j) 1).regs } ∧
    (s.fwrap (F.SEC_JOB_RX_AUTH_FAIL j) 1).fget (F.SEC_JOB_RX_AUTH_FAIL j) = (s.fget (F.SEC_JOB_RX_AUTH_FAIL j) + 1) % 2 ^ 32 :=
  ⟨rfl, (s.fget_fset_same _ (listed_authFail hj)).trans (Nat.mod_mod _ _)⟩

/-- The record of a mild error: one more error in flight, and packets on the control network. -/
theorem State.raiseRec_mild {s : State} {e : Err} (h : codeClass e.code = 0) : ∃ recov ctrl n, s.raiseRec e = { s with
    err := { s.err with flight := s.err.flight ++ [s.recordOf e], recov := recov }
    mesh := { s.mesh with ctrl := ctrl, nextPkt := n } } :=
  ⟨_, _, _, State.raiseRec_of_not_escalates (State.escalates_of_class h)⟩

/-- What the record of a failed authentication leaves, and that it is kept to one in each 1 ms. -/
theorem State.hubOnce_authFail_spec (s : State) (j : Nat) :
    let u := s.hubOnce 0x0A02 j (some j)
    u = { s with err := u.err, rep := u.rep, mesh := { s.mesh with ctrl := u.mesh.ctrl, nextPkt := u.mesh.nextPkt } } ∧
    (s.mayReport 0x0A02 j = true → ∃ e, u.err.flight = s.err.flight ++ [e] ∧ e.code = 0x0A02 ∧ e.sev = 1 ∧ e.job = some j) ∧
    (s.mayReport 0x0A02 j = false → u.err = s.err ∧ u.mesh = s.mesh) := by
  intro u
  have hreport : u = _ := s.hubOnce_authFail j
  clear_value u
  cases hmay : s.mayReport 0x0A02 j with
  | true =>
    have hsev : (s.setReport 0x0A02 j).sevOf { code := 0x0A02, blk := 28, job := some j } = 1 := State.sevOf_of_class rfl
    obtain ⟨recov, ctrl, n, hrec⟩ := State.raiseRec_mild (s := s.setReport 0x0A02 j)
      (e := { code := 0x0A02, blk := 28, job := some j }) rfl
    rw [hmay, if_pos rfl, hrec] at hreport
    subst hreport
    exact ⟨rfl, fun _ => ⟨_, rfl, rfl, hsev, rfl⟩, by simp⟩
  | false =>
    rw [hmay, if_neg Bool.false_ne_true] at hreport
    subst hreport
    exact ⟨rfl, by simp, fun _ => ⟨rfl, rfl⟩⟩

theorem unauthentic_discards (s : State) {p v j : Nat} {r : RPkt} (hj : j < 8) :
    let t := s.unauthentic p v j r
    (∀ x ∈ ((t.link p).vc v).rx, x.id ≠ r.id) ∧ t.fab = s.fab ∧
    t.mesh = { s.mesh with ctrl := t.mesh.ctrl, nextPkt := t.mesh.nextPkt } ∧ t.ctrs = s.ctrs ∧ t.stalls = s.stalls ∧
    t.lofts = s.lofts ∧ t.jobs = s.jobs ∧
    t.fget (F.SEC_JOB_RX_AUTH_FAIL j) = (s.fget (F.SEC_JOB_RX_AUTH_FAIL j) + 1) % 2 ^ 32 ∧
    (s.mayReport 0x0A02 j = true → ∃ e, t.err.flight = s.err.flight ++ [e] ∧ e.code = 0x0A02 ∧ e.sev = 1 ∧ e.job = some j) ∧
    (s.mayReport 0x0A02 j = false → t.err = s.err ∧ t.mesh = s.mesh) := by
  obtain ⟨hcounted, hcount⟩ := s.authCounted_spec hj
  obtain ⟨hframe, hraised, hsilent⟩ := (s.fwrap (F.SEC_JOB_RX_AUTH_FAIL j) 1).hubOnce_authFail_spec j
  have hreg : ((s.fwrap (F.SEC_JOB_RX_AUTH_FAIL j) 1).hubOnce 0x0A02 j (some j)).regs = (s.fwrap (F.SEC_JOB_RX_AUTH_FAIL j) 1).regs :=
    (congrArg State.regs hframe :)
  rw [State.mayReport_fwrap] at hraised hsilent
  simp only [State.unauthentic]
  generalize (s.fwrap (F.SEC_JOB_RX_AUTH_FAIL j) 1).hubOnce 0x0A02 j (some j) = u at *
  generalize s.fwrap (F.SEC_JOB_RX_AUTH_FAIL j) 1 = z at *
  refine ⟨u.rx_dropRx p v r, ?_⟩
  generalize z.regs = regs at hcounted hreg
  subst hcounted
  obtain ⟨links, hdrop⟩ : ∃ links, u.dropRx p v r = { u with links := links } := ⟨_, rfl⟩
  have hcountU : u.fget (F.SEC_JOB_RX_AUTH_FAIL j) = (s.fget (F.SEC_JOB_RX_AUTH_FAIL j) + 1) % 2 ^ 32 := by
    simpa only [State.fget, State.reg, hreg] using hcount
  rw [hdrop]
  exact ⟨(congrArg State.fab hframe :), (congrArg State.mesh hframe :), (congrArg State.ctrs hframe :),
    (congrArg State.stalls hframe :), (congrArg State.lofts hframe :), (congrArg State.jobs hframe :), hcountU, hraised, hsilent⟩

/-- A context whose key state is NONE or REVOKED opens no packet. -/
theorem State.openRx_keyless {s : State} {j : Nat} (h : s.fget (F.SEC_JOB_STATE_KEY j) = 0 ∨ s.fget (F.SEC_JOB_STATE_KEY j) = 2)
    (p : Nat) (r : RPkt) : (s.openRx p j r).2 = false := by
  have hkey : s.fget (F.SEC_JOB_STATE_KEY j) ≠ 1 := by omega
  unfold State.openRx
  dsimp only
  split
  · rfl
  · rw [if_neg hkey]

/-- Settles O37: every row of a packet begins with the steps of R263, and the authentication stands before the row's own effect. -/
theorem unauthenticPacketsDiscarded : Obligations.UnauthenticPacketsDiscarded := by
  unfold Obligations.UnauthenticPacketsDiscarded
  exact ⟨fun good sections v k row hrow p s j r hfirst hform hkind hctx hyoke hwhole hslices hidle hauth =>
    ⟨_, packetRow_unauthentic hrow hfirst hform hkind hctx hyoke hwhole hslices hidle hauth,
      unauthentic_discards s (State.ctxOf_lt hctx)⟩, fun s p j r hkey => State.openRx_keyless hkey p r⟩

end Sys2Proof.Machine

/-! SUPPORT. Attestation (R383, R384): a request enters the transcript of its transport, and the answer follows it there. -/

namespace Sys2Proof.Machine

/-! ### Requests and answers (R383) -/

/-- A request has entered the transcript of its transport, whose connection is now `conn`; of the rest only free values have been
used. -/
structure Asked (t : Nat) (req : List Byte) (conn : Nat) (s u : State) : Prop where
  transcript : u.transcript t = s.transcript t ++ req
  conn : Tab.get zeroNat u.sec.spdm t = conn
  others : ∀ x, x ≠ t → u.transcript x = s.transcript x ∧ Tab.get zeroNat u.sec.spdm x = Tab.get zeroNat s.sec.spdm x
  frame : u = { s with sec := { s.sec with script := u.sec.script, spdm := u.sec.spdm }, freeCtr := u.freeCtr }

theorem State.transcript_script (s : State) (t : Nat) (bs : List Byte) : (s.script t bs).transcript t = s.transcript t ++ bs := by
  simp only [State.transcript, State.script, Tab.get_upd_same]

theorem State.transcript_script_other (s : State) {t x : Nat} (bs : List Byte) (h : x ≠ t) :
    (s.script t bs).transcript x = s.transcript x := by
  simp only [State.transcript, State.script, Tab.get_upd_other _ _ h]

theorem State.send_transcript (s : State) (o : Out) (t : Nat) : (s.send o).transcript t = s.transcript t := rfl

theorem State.asked_script (s : State) (t : Nat) (req : List Byte) :
    Asked t req (Tab.get zeroNat s.sec.spdm t) s (s.script t req) :=
  ⟨s.transcript_script t req, rfl, fun _ h => ⟨s.transcript_script_other req h, rfl⟩, rfl⟩

theorem State.spdmSend_script_frame (s : State) (t : Nat) (req : List Byte) (code p1 p2 : Nat) (body : List Byte) :
    let u := (s.script t req).spdmSend t code p1 p2 body
    u = { s with sec := { s.sec with script := u.sec.script, spdm := s.sec.spdm }, out := u.out } := rfl

theorem State.nonce_frame (s : State) : s.nonce.2 = { s with freeCtr := s.freeCtr + 1 + 1 + 1 + 1 } := rfl

/-- The device's random bytes are free values. -/
theorem Asked.nonce {t : Nat} {req : List Byte} {conn : Nat} {s u : State} (h : Asked t req conn s u) :
    Asked t req conn s u.nonce.2 := by
  obtain ⟨htranscript, hconn, hothers, hframe⟩ := h
  rw [u.nonce_frame]
  exact ⟨htranscript, hconn, hothers, congrArg (fun v : State => { v with freeCtr := u.freeCtr + 1 + 1 + 1 + 1 }) hframe⟩

theorem Asked.setSpdm {t : Nat} {req : List Byte} {conn : Nat} {s u : State} (h : Asked t req conn s u) (n : Nat) :
    Asked t req n s (u.setSpdm t n) where
  transcript := h.transcript
  conn := Tab.get_set_same _ _ _
  others x hx := ⟨(h.others x hx).1, (Tab.get_set_other _ _ hx).trans (h.others x hx).2⟩
  frame := congrArg (fun v : State => v.setSpdm t n) h.frame

/-- The answer follows the request in the transcript. -/
theorem Asked.says {t : Nat} {req : List Byte} {conn : Nat} {s u : State} (h : Asked t req conn s u) {c : Instr}
    {code p1 p2 : Nat} {body : List Byte} (he : exec c s = .next (u.spdmSend t code p1 p2 body)) :
    Says c t req (spdmMsg code p1 p2 body) conn s := by
  refine ⟨_, he, ?_, ?_, h.conn, fun x hx => ?_, ?_⟩
  · exact congrArg (fun v : State => v.out ++ [.message (10 + t) (spdmMsg code p1 p2 body)]) h.frame
  · exact (u.transcript_script t _).trans (congrArg (· ++ _) h.transcript)
  · exact ⟨(u.transcript_script_other _ hx).trans (h.others x hx).1, (h.others x hx).2⟩
  · have hframe := h.frame
    generalize u.sec.script = log, u.sec.spdm = table, u.freeCtr = n at hframe
    subst hframe
    rfl

theorem spdmMsg_append (code p1 p2 : Nat) (body tail : List Byte) :
    spdmMsg code p1 p2 (body ++ tail) = spdmMsg code p1 p2 body ++ tail := by simp only [spdmMsg, List.append_assoc]

/-- A signed answer ends with the signature over the transcript with it (R384). -/
theorem Asked.saysSigned {t : Nat} {req : List Byte} {conn : Nat} {s u : State} (h : Asked t req conn s u) {c : Instr}
    {code p1 p2 : Nat} {body : List Byte} (he : exec c s = .next (u.spdmSign t code p1 p2 body)) :
    SaysSigned c t req (spdmMsg code p1 p2 body) conn s := by
  have hsays := h.says (body := body ++ Config.identitySign (u.transcript t ++ spdmMsg code p1 p2 body)) he
  rwa [spdmMsg_append, h.transcript] at hsays

theorem State.spdm_up {s : State} {t : Nat} (h : s.spdmUp t = true) (req : List Byte) (f : State → State) :
    s.spdm t req f = .next (f (s.script t req)) := congrArg Host.Outcome.next (if_pos h)

theorem State.spdm_down {s : State} {t : Nat} (h : s.spdmUp t = false) (req : List Byte) (f : State → State) :
    s.spdm t req f = .next s := congrArg Host.Outcome.next (if_neg (ne_true_of_eq_false h))

/-- Where the device does not answer, no request has an effect. -/
theorem isSpdm_down {s : State} {t : Fin 3} {req : List Byte} {c : Instr} (h : s.spdmUp t = false) (hc : IsSpdm t req c) :
    exec c s = .next s := by
  rcases hc with rfl | rfl | ⟨b, rfl⟩ | rfl | rfl | rfl | rfl | rfl | rfl | rfl | rfl
  · exact congrArg Host.Outcome.next (if_neg (ne_true_of_eq_false h))
  · rw [exec, execGetCapabilities, State.spdm_down h]
  · rw [exec, execNegotiateAlgorithms, State.spdm_down h]
  · rw [exec, execGetDigests, State.spdm_down h]
  · rw [exec, execGetCertificate, State.spdm_down h]
  · rw [exec, execChallenge, State.spdm_down h]
  · rw [exec, execGetMeasurements, State.spdm_down h]
  · rw [exec, execKeyExchange, State.spdm_down h]
  · rw [exec, execFinish, State.spdm_down h]
  · rw [exec, execEndSession, State.spdm_down h]
  · rw [exec, execSpdmUnsupported, State.spdm_down h]

/-! ### The requests (R383, R384) -/

/-- The device with transcript and connection of a transport begun afresh. -/
def State.freshSpdm (s : State) (t : Nat) : State :=
  ({ s with sec := { s.sec with script := Tab.del t s.sec.script } }).setSpdm t 0

section
variable {s : State} {t : Fin 3} {req : List Byte} (h : s.spdmUp t = true)
include h

/-- GET_VERSION begins transcript and connection afresh. -/
theorem getVersion_answers : Runs (.getVersion t req) s (fun u =>
    u.out = s.out ++ [.message (10 + t) (spdmMsg 0x04 0 0 (leBytes 1 0 ++ leBytes 1 1 ++ leBytes 2 0x1300))] ∧
    u.transcript t = req ++ spdmMsg 0x04 0 0 (leBytes 1 0 ++ leBytes 1 1 ++ leBytes 2 0x1300) ∧
    Tab.get zeroNat u.sec.spdm t.val = 0 ∧
    u = { s with sec := { s.sec with script := u.sec.script, spdm := u.sec.spdm }, out := u.out }) := by
  have hexec : exec (.getVersion t req) s = .next (((s.freshSpdm t).script t req).spdmSend t 0x04 0 0
      (leBytes 1 0 ++ leBytes 1 1 ++ leBytes 2 0x1300)) := by rw [exec, execGetVersion, if_pos h]; rfl
  have hfresh : (s.freshSpdm t).transcript t = [] := by
    simp only [State.freshSpdm, State.transcript, State.setSpdm, Tab.get_del_same]
  generalize leBytes 1 0 ++ leBytes 1 1 ++ leBytes 2 0x1300 = body at hexec ⊢
  refine ⟨_, hexec, rfl, ?_, Tab.get_set_same s.sec.spdm t.val 0, ?_⟩
  · rw [State.spdmSend, State.send_transcript, State.transcript_script, State.transcript_script, hfresh, List.nil_append]
    rfl
  · exact State.spdmSend_script_frame (s.freshSpdm t) t req 0x04 0 0 body

theorem negotiateAlgorithms_refuses :
    Says (.negotiateAlgorithms t req false) t req (spdmMsg 0x7F 1 0 []) (Tab.get zeroNat s.sec.spdm t) s :=
  (s.asked_script t req).says (by rw [exec, execNegotiateAlgorithms, State.spdm_up h]; rfl)

/-- GET_CERTIFICATE answers the portion of a chain, and an error for a chain or an offset that is not there. -/
theorem getCertificate_answers :
    let slot := field req 2 1 % 16
    let off := field req 4 2
    let c := Config.certChain slot
    let part := (c.drop off).take (field req 6 2)
    (slot < 2 → off ≤ c.length → Says (.getCertificate t req) t req (spdmMsg 0x02 slot 0
      (leBytes 2 part.length ++ leBytes 2 (c.length - off - part.length) ++ part)) (Tab.get zeroNat s.sec.spdm t) s) ∧
    (2 ≤ slot ∨ c.length < off →
      Says (.getCertificate t req) t req (spdmMsg 0x7F 1 0 []) (Tab.get zeroNat s.sec.spdm t) s) := by
  intro slot off c part
  refine ⟨fun hslot hoff => (s.asked_script t req).says ?_, fun hbad => (s.asked_script t req).says ?_⟩
  all_goals rw [exec, execGetCertificate, State.spdm_up h]
  · refine congrArg Host.Outcome.next (if_neg ?_)
    simp only [Bool.or_eq_true, decide_eq_true_eq]
    exact not_or.2 ⟨Nat.not_le.2 hslot, Nat.not_lt.2 hoff⟩
  · refine congrArg Host.Outcome.next (if_pos ?_)
    simpa only [Bool.or_eq_true, decide_eq_true_eq] using hbad

/-- CHALLENGE is answered signed, with fresh random bytes. -/
theorem challenge_answers :
    let slot := field req 2 1
    (slot < 2 → SaysSigned (.challenge t req) t req
      (spdmMsg 0x03 slot 3 (leBytes 32 (shake (Config.certChain slot)) ++ s.nonce.1 ++ leBytes 2 0)) (Tab.get zeroNat s.sec.spdm t) s) ∧
    (2 ≤ slot → Says (.challenge t req) t req (spdmMsg 0x7F 1 0 []) (Tab.get zeroNat s.sec.spdm t) s) := by
  intro slot
  refine ⟨fun hslot => (s.asked_script t req).nonce.saysSigned ?_, fun hslot => (s.asked_script t req).says ?_⟩
  all_goals rw [exec, execChallenge, State.spdm_up h]
  · exact congrArg Host.Outcome.next (if_neg (Nat.not_le.2 hslot))
  · exact congrArg Host.Outcome.next (if_pos hslot)

/-- GET_MEASUREMENTS: the blocks asked for, signed if asked, and an error for an index that is none. -/
theorem getMeasurements_answers :
    let i := field req 3 1
    let is_ := if i = 255 then [1, 2, 3, 4, 5, 6, 7, 8, 9, 10, 11, 12, 13] else if i = 0 then [] else [i]
    let blocks := is_.flatMap s.block
    let m := spdmMsg 0x60 (if i = 0 then 13 else 0) 0
      (leBytes 1 is_.length ++ leBytes 3 blocks.length ++ blocks ++ s.nonce.1 ++ leBytes 2 0)
    let conn := Tab.get zeroNat s.sec.spdm t
    (14 ≤ i ∧ i ≤ 254 → Says (.getMeasurements t req) t req (spdmMsg 0x7F 1 0 []) conn s) ∧
    (¬ (14 ≤ i ∧ i ≤ 254) → bit (field req 2 1) 0 = true → SaysSigned (.getMeasurements t req) t req m conn s) ∧
    (¬ (14 ≤ i ∧ i ≤ 254) → bit (field req 2 1) 0 = false → Says (.getMeasurements t req) t req m conn s) := by
  intro i is_ blocks m conn
  refine ⟨fun hi => (s.asked_script t req).says ?_, fun hi hsign => (s.asked_script t req).nonce.saysSigned ?_,
    fun hi hsign => (s.asked_script t req).nonce.says ?_⟩
  all_goals rw [exec, execGetMeasurements, State.spdm_up h]
  · exact congrArg Host.Outcome.next (if_pos hi)
  · exact congrArg Host.Outcome.next ((if_neg hi).trans (if_pos hsign))
  · exact congrArg Host.Outcome.next ((if_neg hi).trans (if_neg (ne_true_of_eq_false hsign)))

/-- FINISH and END_SESSION in turn, and out of turn. -/
theorem finish_answers :
    let conn := Tab.get zeroNat s.sec.spdm t
    (conn = 1 → Says (.finish t req) t req (spdmMsg 0x65 0 0 []) 2 s) ∧
    (conn ≠ 1 → Says (.finish t req) t req (spdmMsg 0x7F 4 0 []) conn s) := by
  intro conn
  refine ⟨fun hconn => ((s.asked_script t req).setSpdm 2).says ?_, fun hconn => (s.asked_script t req).says ?_⟩
  all_goals rw [exec, execFinish, State.spdm_up h]
  · exact congrArg Host.Outcome.next (if_pos hconn)
  · exact congrArg Host.Outcome.next (if_neg hconn)

theorem endSession_answers :
    let conn := Tab.get zeroNat s.sec.spdm t
    (conn = 2 → Says (.endSession t req) t req (spdmMsg 0x6C 0 0 []) 0 s) ∧
    (conn ≠ 2 → Says (.endSession t req) t req (spdmMsg 0x7F 4 0 []) conn s) := by
  intro conn
  refine ⟨fun hconn => ((s.asked_script t req).setSpdm 0).says ?_, fun hconn => (s.asked_script t req).says ?_⟩
  all_goals rw [exec, execEndSession, State.spdm_up h]
  · exact congrArg Host.Outcome.next (if_pos hconn)
  · exact congrArg Host.Outcome.next (if_neg hconn)

end

/-! OBLIGATION O47. Attestation. -/

/-- Settles O47: one theorem for each request whose answer has cases; the others are answered with one message. -/
theorem attestationAnswers : Obligations.AttestationAnswers := by
  unfold Obligations.AttestationAnswers
  intro t req s conn err
  refine ⟨fun hdown c hc => isSpdm_down hdown hc, fun h => ?_⟩
  have hasked := s.asked_script t req
  exact ⟨getVersion_answers h, hasked.says (by rw [exec, execGetCapabilities, State.spdm_up h]),
    hasked.says (by rw [exec, execNegotiateAlgorithms, State.spdm_up h]; rfl), negotiateAlgorithms_refuses h,
    hasked.says (by rw [exec, execGetDigests, State.spdm_up h]; rfl), getCertificate_answers h, challenge_answers h,
    getMeasurements_answers h, (hasked.nonce.nonce.setSpdm 1).saysSigned (by rw [exec, execKeyExchange, State.spdm_up h]; rfl),
    (finish_answers h).1, (finish_answers h).2, (endSession_answers h).1, (endSession_answers h).2,
    hasked.says (by rw [exec, execSpdmUnsupported, State.spdm_up h]; rfl)⟩

end Sys2Proof.Machine

/-! SUPPORT. Measurement blocks (R384), and the fields of a byte string. -/

namespace Sys2Proof.Machine

/-! ### Fields of a byte string -/

theorem field_append_left {a : List Byte} {o n : Nat} (b : List Byte) (h : o + n ≤ a.length) :
    field (a ++ b) o n = field a o n := by
  unfold field
  rw [List.drop_append_of_le_length (by omega), List.take_append_of_le_length (by rw [List.length_drop]; omega)]

theorem field_append_right {a : List Byte} {o n : Nat} (b : List Byte) (h : a.length ≤ o) :
    field (a ++ b) o n = field b (o - a.length) n := by
  unfold field
  rw [List.drop_append, List.drop_eq_nil_of_le h, List.nil_append]

theorem field_leBytes (n v : Nat) : field (leBytes n v) 0 n = v % 256 ^ n := by
  unfold field
  rw [List.drop_zero, List.take_of_length_le (leBytes_length n v).le, leNat_leBytes]

/-- The field that comes first. -/
theorem field_first (n v : Nat) (b : List Byte) : field (leBytes n v ++ b) 0 n = v % 256 ^ n :=
  (field_append_left b (by rw [leBytes_length, Nat.zero_add])).trans (field_leBytes n v)

/-- A field behind the first. -/
theorem field_behind {k o : Nat} (n v : Nat) (b : List Byte) (h : k ≤ o) :
    field (leBytes k v ++ b) o n = field b (o - k) n :=
  (field_append_right b (by rwa [leBytes_length])).trans (by rw [leBytes_length])

theorem length_flatMap_leBytes {α : Type} (w : Nat) (f : α → Nat) (l : List α) :
    (l.flatMap (fun x => leBytes w (f x))).length = w * l.length := by
  induction l with
  | nil => rfl
  | cons x l ih => rw [List.flatMap_cons, List.length_append, ih, leBytes_length, List.length_cons]; ring

/-- A field of an array of fields of one width. -/
theorem field_flatMap {α : Type} (w : Nat) (f : α → Nat) (l : List α) {k : Nat} (h : k < l.length) :
    field (l.flatMap (fun x => leBytes w (f x))) (w * k) w = f l[k] % 256 ^ w := by
  induction l generalizing k with
  | nil => exact absurd h (Nat.not_lt_zero k)
  | cons x l ih =>
    rw [List.flatMap_cons]
    cases k with
    | zero => exact field_first w (f x) _
    | succ k =>
      rw [field_behind _ _ _ (Nat.le_mul_of_pos_right w k.succ_pos), Nat.mul_succ, Nat.add_sub_cancel]
      exact ih (Nat.lt_of_succ_lt_succ h)

theorem field_flatMap_range (w : Nat) (f : Nat → Nat) {m k : Nat} (h : k < m) :
    field ((List.range m).flatMap (fun x => leBytes w (f x))) (w * k) w = f k % 256 ^ w := by
  have hk : k < (List.range m).length := by rwa [List.length_range]
  rw [field_flatMap w f _ hk, List.getElem_range]

/-! ### The blocks (R384) -/

theorem popCount_le (n w : Nat) : popCount n w ≤ n := by
  induction n generalizing w with
  | zero => exact Nat.le_refl 0
  | succ n ih =>
    have hlow : w % 2 < 2 := Nat.mod_lt w (by decide)
    have hhigh := ih (w / 2)
    simp only [popCount]
    omega

/-- Block 4: the grade, then the stall counts, then the masks. -/
theorem State.measure_stalls (s : State) :
    ∃ c, s.measure 4 = some (c, true) ∧ c.length = 224 ∧ field c 0 8 = (Config.gradeCode (s.stallCount 0)).toNat ∧
      ∀ b < 24, field c (8 + b) 1 = popCount 48 (s.goodMask b) ∧ field c (32 + 8 * b) 8 = s.goodMask b % 2 ^ 64 := by
  refine ⟨_, rfl, ?_, ?_, fun b hb => ?_⟩
  · simp only [List.length_append, length_flatMap_leBytes, leBytes_length, List.length_range]
  · rw [List.append_assoc, field_first]
    exact Nat.mod_eq_of_lt (BitVec.isLt _)
  · rw [List.append_assoc, field_behind _ _ _ (Nat.le_add_right 8 b), field_behind _ _ _ (by omega), Nat.add_sub_cancel_left,
      field_append_left _ (by rw [length_flatMap_leBytes, List.length_range]; omega),
      field_append_right _ (by rw [length_flatMap_leBytes, List.length_range]; omega), length_flatMap_leBytes, List.length_range,
      show 32 + 8 * b - 8 - 1 * 24 = 8 * b by omega, field_flatMap_range 8 _ hb]
    have hcount := field_flatMap_range 1 s.stallCount hb
    rw [one_mul] at hcount
    have hle := popCount_le 48 (s.goodMask b)
    exact ⟨hcount.trans (Nat.mod_eq_of_lt (show popCount 48 (s.goodMask b) < 256 ^ 1 by omega)), rfl⟩

/-- Blocks 6 to 13: the job contexts. -/
theorem State.measure_job (s : State) {j : Nat} (hj : j < 8) :
    ∃ c, s.measure (6 + j) = some (c, true) ∧ ((s.job j).phase = .free → ∀ x ∈ c, x = 0) ∧
      ((s.job j).phase ≠ .free → field c 0 2 = s.fjob j % 2 ^ 16 ∧ field c 2 8 = (s.infoOf j).deploy % 2 ^ 64 ∧
        field c 10 1 = s.fget (F.SEC_JOB_STATE_DEPLOY j) % 256) := by
  have hmeasure : s.measure (6 + j) = some (s.jobMeasure j, true) := by
    interval_cases j <;> rfl
  refine ⟨_, hmeasure, fun hfree => ?_, fun hfree => ?_⟩
  · rw [State.jobMeasure, if_pos hfree]
    exact fun x hx => List.eq_of_mem_replicate hx
  · rw [State.jobMeasure, if_neg hfree]
    simp only [List.append_assoc]
    refine ⟨field_first 2 _ _, (field_behind _ _ _ (by decide)).trans (field_first 8 _ _), ?_⟩
    exact (field_behind _ _ _ (by decide)).trans ((field_behind _ _ _ (by decide)).trans (field_first 1 _ _))

/-- The seven bytes ahead of a block's content. -/
def blockHead (i n : Nat) (raw : Bool) : List Byte :=
  leBytes 1 i ++ (leBytes 1 1 ++ (leBytes 2 (n + 3) ++ (leBytes 1 (1 + 128 * b2n raw) ++ leBytes 2 n)))

theorem blockHead_fields {i n : Nat} {raw : Bool} (hi : i < 256) (hn : n < 2 ^ 16 - 3) :
    (blockHead i n raw).length = 7 ∧ field (blockHead i n raw) 0 1 = i ∧ field (blockHead i n raw) 1 1 = 1 ∧
    field (blockHead i n raw) 2 2 = n + 3 ∧ bit (field (blockHead i n raw) 4 1) 7 = raw ∧ field (blockHead i n raw) 5 2 = n := by
  have htype : bit ((1 + 128 * b2n raw) % 256) 7 = raw := by cases raw <;> rfl
  simp [blockHead, field_first, field_behind, field_leBytes, htype]
  omega

theorem State.block_eq {s : State} {i : Nat} {c : List Byte} {raw : Bool} (h : s.measure i = some (c, raw)) :
    s.block i = blockHead i c.length raw ++ c := by
  simp only [State.block, h, blockHead, List.append_assoc]

/-! OBLIGATION O48. The measurement blocks. -/

/-- Settles O48: the fields of a block are read at their places, whatever stands behind them. -/
theorem measurementBlocks : Obligations.MeasurementBlocks := by
  unfold Obligations.MeasurementBlocks
  exact fun s => ⟨rfl, rfl, rfl, s.measure_stalls, rfl, fun j hj => s.measure_job hj,
    fun i c raw hi hc hlen => ⟨_, State.block_eq hc, blockHead_fields hi hlen⟩⟩

end Sys2Proof.Machine

/-! OBLIGATION O52. Larkspur. -/

namespace Sys2Proof.Machine

/-! ### The registers of Larkspur (R433) -/

theorem listed_lspRun : F.TCK_LSP_CTL_RUN.Listed :=
  Fld.listed_of_row .tck 0 0x800 1 8 0 (by decide) (by decide) (by decide) rfl

theorem listed_lspNext : F.TCK_LSP_STAT_NEXT.Listed :=
  Fld.listed_of_row .tck 0 0x810 1 8 0 (by decide) (by decide) (by decide) rfl

theorem listed_lspDropped : F.TCK_LSP_STAT_DROPPED.Listed :=
  Fld.listed_of_row .tck 0 0x810 1 8 0 (by decide) (by decide) (by decide) rfl

/-- Taking the reserved bits [22:3] out of TCK_LSP_CTL's value leaves RUN. -/
theorem bits_lspValue (v : Nat) : bits (v % 2 ^ 64 - bits (v % 2 ^ 64) 22 3 * 8) 0 0 = v % 2 := by
  simp only [bits, Nat.shiftRight_eq_div_pow]
  omega

theorem State.fget_lspRun_setReg (s : State) (v : Nat) :
    (s.setReg R.TCK_LSP_CTL (v % 2 ^ 64 - bits (v % 2 ^ 64) 22 3 * 8)).fget F.TCK_LSP_CTL_RUN = v % 2 :=
  (s.fget_setReg_same _ _ rfl listed_lspRun).trans (bits_lspValue v)

theorem bit_zero_iff (v : Nat) : bit v 0 = true ↔ v % 2 = 1 := by simp [bit, Nat.testBit_zero]

/-- The capture has ended. -/
theorem State.fbit_lspStop (s : State) : s.lspStop.fbit F.TCK_LSP_CTL_RUN = false := by
  rw [State.fbit, State.lspStop, State.fget_fset_same _ _ listed_lspRun]
  rfl

/-- A capture that ends leaves the entries, the queues and the position as they are. -/
theorem State.lspStop_frame (s : State) :
    s.lspStop.tck = { s.tck with lspPost := none } ∧ s.lspStop.fget F.TCK_LSP_STAT_NEXT = s.fget F.TCK_LSP_STAT_NEXT ∧
    s.lspStop = { s with tck := s.lspStop.tck, regs := s.lspStop.regs } :=
  ⟨rfl, State.fget_fset_other _ _ (by decide), rfl⟩

/-! ### LSP_RUN -/

theorem lspRun_starts {s : State} {v : Word} (hv : bit v.toNat 0 = true) (hrun : s.fbit F.TCK_LSP_CTL_RUN = false) :
    Runs (.lspRun v) s (fun t => t.fbit F.TCK_LSP_CTL_RUN = true ∧ t.tck.lsp = [] ∧ t.tck.lspq = [] ∧
      t.fget F.TCK_LSP_STAT_NEXT = 0 ∧ t = { s with tck := t.tck, regs := t.regs }) := by
  have hexec : exec (.lspRun v) s = .next (({ s.setReg R.TCK_LSP_CTL (v.toNat % 2 ^ 64 - bits (v.toNat % 2 ^ 64) 22 3 * 8) with
      tck := { s.tck with lsp := [], lspN := 0, lspq := [], lspDrop := [], lspPost := none, lastLsp := 0 } }).fset
        F.TCK_LSP_STAT_NEXT 0) :=
    congrArg Host.Outcome.next ((if_pos hv).trans (if_neg (ne_true_of_eq_false hrun)))
  refine ⟨_, hexec, ?_, rfl, rfl, State.fget_fset_same _ _ listed_lspNext, rfl⟩
  have hset : (s.setReg R.TCK_LSP_CTL (v.toNat % 2 ^ 64 - bits (v.toNat % 2 ^ 64) 22 3 * 8)).fget F.TCK_LSP_CTL_RUN = 1 :=
    (s.fget_lspRun_setReg v.toNat).trans ((bit_zero_iff _).1 hv)
  rw [State.fbit, State.fget_fset_other _ _ (by decide)]
  exact decide_eq_true (hset.trans_ne (by decide))

theorem lspRun_stops {s : State} {v : Word} (hv : bit v.toNat 0 = false) :
    Runs (.lspRun v) s (fun t =>
      t.fbit F.TCK_LSP_CTL_RUN = false ∧ t.tck.lsp = s.tck.lsp ∧ t = { s with tck := t.tck, regs := t.regs }) :=
  ⟨_, congrArg Host.Outcome.next (if_neg (ne_true_of_eq_false hv)), State.fbit_lspStop _, rfl, rfl⟩

/-! ### LARKSPUR_ENTRY -/

/-- The device after the oldest queued entry has been written at position NEXT. -/
def State.entryWritten (s : State) (e : Trace) (rest : List (Nat × Trace)) : State :=
  ({ s with tck := { s.tck with
      lsp := Tab.set (fun _ => none) s.tck.lsp (s.fget F.TCK_LSP_STAT_NEXT) (some e), lspN := s.tck.lspN + 1, lspq := rest
      lastLsp := s.refNs + 1, lspPost := s.tck.lspPost.map (· - 1) } }).fset F.TCK_LSP_STAT_NEXT
    ((s.fget F.TCK_LSP_STAT_NEXT + 1) % 2 ^ 18)

theorem larkspurEntry_writes {s : State} {q : Nat × Trace} {rest : List (Nat × Trace)} (hq : s.tck.lspq = q :: rest)
    (hrun : s.fbit F.TCK_LSP_CTL_RUN = true) (hgap : s.tck.lastLsp = 0 ∨ s.tck.lastLsp + 4 ≤ s.refNs + 1) :
    Runs .larkspurEntry s (fun t =>
      let i := s.fget F.TCK_LSP_STAT_NEXT
      (∀ n, Tab.get (fun _ => none) t.tck.lsp n = if n = i then some q.2 else Tab.get (fun _ => none) s.tck.lsp n) ∧
      t.tck.lspq = rest ∧ t.fget F.TCK_LSP_STAT_NEXT = (i + 1) % 262144 ∧ t = { s with tck := t.tck, regs := t.regs }) := by
  let u := s.entryWritten q.2 rest
  have hexec : exec .larkspurEntry s = .next
      (if u.tck.lspPost = some 0 || (u.fbit F.TCK_LSP_CTL_MODE && u.tck.lspN = 262144) then u.lspStop else u) := by
    refine congrArg Host.Outcome.next ?_
    rw [hq]
    refine if_neg ?_
    simp only [hrun, Bool.not_true, Bool.false_or, Bool.and_eq_true, decide_eq_true_eq, not_and]
    omega
  have hlsp : ∀ n, Tab.get (fun _ => none) u.tck.lsp n =
      if n = s.fget F.TCK_LSP_STAT_NEXT then some q.2 else Tab.get (fun _ => none) s.tck.lsp n := fun n =>
    Tab.get_set (d := fun _ => none) s.tck.lsp (s.fget F.TCK_LSP_STAT_NEXT) n (some q.2)
  have hnext : u.fget F.TCK_LSP_STAT_NEXT = (s.fget F.TCK_LSP_STAT_NEXT + 1) % 262144 :=
    (State.fget_fset_same _ _ listed_lspNext).trans (Nat.mod_mod _ _)
  refine ⟨_, hexec, ?_⟩
  obtain ⟨hstopTck, hstopNext, hstop⟩ := u.lspStop_frame
  split
  · rw [hstopTck]
    exact ⟨hlsp, rfl, hstopNext.trans hnext, rfl⟩
  · exact ⟨hlsp, rfl, hnext, rfl⟩

/-- With no queued entry, out of a capture or within 4 ns of the last entry nothing is written. -/
theorem larkspurEntry_waits {s : State}
    (h : s.tck.lspq = [] ∨ s.fbit F.TCK_LSP_CTL_RUN = false ∨ (s.tck.lastLsp ≠ 0 ∧ s.refNs + 1 < s.tck.lastLsp + 4)) :
    exec .larkspurEntry s = .next s := by
  refine congrArg Host.Outcome.next ?_
  cases hq : s.tck.lspq with
  | nil => rfl
  | cons q rest =>
    refine if_pos ?_
    rw [hq] at h
    rcases h with hempty | hrun | ⟨hlast, hgap⟩
    · exact absurd hempty (List.cons_ne_nil q rest)
    · simp [hrun]
    · simp [hlast, hgap]

/-! ### A full queue -/

/-- Counting concerns registers alone. -/
theorem State.tck_fwrap (s : State) (f : Fld) (k : Nat) : (s.fwrap f k).tck = s.tck := rfl

section
variable {s : State} (src r : Nat) (job : Option Nat) (data : Nat)
  (hfull : 8 ≤ (s.tck.lspq.filter (fun q => q.1 = src && q.2.src ≠ 15)).length)
include hfull

theorem State.lspq_trace_full : (s.trace src r job data).tck.lspq = s.tck.lspq := by
  unfold State.trace
  split
  · rfl
  · dsimp only
    rw [State.tck_fwrap]

theorem State.dropped_trace_full (hrun : s.fbit F.TCK_LSP_CTL_RUN = true) (hsrc : bit (s.fget F.TCK_LSP_CTL_SOURCES) src = true) :
    (s.trace src r job data).fget F.TCK_LSP_STAT_DROPPED =
      (s.fget F.TCK_LSP_STAT_DROPPED + 1) % 2 ^ F.TCK_LSP_STAT_DROPPED.width := by
  have htrace : s.trace src r job data =
      { s with tck := { s.tck with lspDrop := Tab.upd zeroNat s.tck.lspDrop src (· + 1) } }.fwrap F.TCK_LSP_STAT_DROPPED 1 :=
    (if_neg (by simp [hrun, hsrc])).trans (if_pos hfull)
  rw [htrace]
  exact (State.fget_fset_same _ _ listed_lspDropped).trans (Nat.mod_mod _ _)

end

/-- Settles O52: one theorem for each case of the two rows, and the two facts about a full queue. -/
theorem larkspurCaptures : Obligations.LarkspurCaptures := by
  unfold Obligations.LarkspurCaptures
  exact fun s => ⟨fun v => lspRun_starts, fun v => lspRun_stops, fun q rest => larkspurEntry_writes, larkspurEntry_waits,
    fun src r job data => State.lspq_trace_full src r job data, fun src r job data hrun hsrc hfull =>
      State.dropped_trace_full src r job data hfull hrun hsrc⟩

end Sys2Proof.Machine

/-! OBLIGATION O54. Power and resets. -/

namespace Sys2Proof.Machine

/-! ### SYS_RESET_N and the Larkspur buffer (R433, R461) -/

/-- The Larkspur buffer survives SYS_RESET_N, and with it the position of its next entry. -/
theorem sysResetAssert_keepsPosition {s t : State} (h : s.powered = true) (ht : exec .sysResetAssert s = .next t) :
    t.fget F.TCK_LSP_STAT_NEXT = s.fget F.TCK_LSP_STAT_NEXT := by
  have hexec : exec .sysResetAssert s = .next s.sysResetOn := congrArg Host.Outcome.next (if_pos h)
  obtain rfl : s.sysResetOn = t := Host.Outcome.next.inj (hexec.symm.trans ht)
  exact (State.fget_fset_same _ _ listed_lspNext).trans (Nat.mod_eq_of_lt (s.fget_lt (by decide)))

/-- Power is good, and a capture has written one entry. -/
def capturedOne : State := ({ tck := { pwrGood := true } } : State).fset F.TCK_LSP_STAT_NEXT 1

/-- Refutes O54: the clause on SYS_RESET_ASSERT asks that the register file lists nothing, and TCK_LSP_STAT, which keeps the position
of the buffer, lists 1. -/
theorem not_resetsComplete : ¬ Obligations.ResetsComplete := by
  unfold Obligations.ResetsComplete
  intro h
  obtain ⟨-, -, -, hassert, -⟩ := h capturedOne
  have hpowered : capturedOne.powered = true := rfl
  obtain ⟨t, ht, ⟨hregs, -⟩, -⟩ := hassert hpowered
  have hkept := sysResetAssert_keepsPosition hpowered ht
  have hnone : t.fget F.TCK_LSP_STAT_NEXT = State.reset.fget F.TCK_LSP_STAT_NEXT := by
    simp only [State.fget, State.reg, hregs, State.reset]
  exact absurd (hnone.symm.trans hkept) (by decide +kernel)

end Sys2Proof.Machine

/-! OBLIGATION O51. Sensors, the thermal trip, the rail check and the step policy. -/

namespace Sys2Proof.Machine

/-! ### A trip that writes a reading (R242, R427) -/

/-- Power is good, thermal sensor 48 has taken one hot reading, and port 0, a yoke port, is training. A packet of which units are
still to come stands in its receive buffer, and the output that it has begun to leave by has the number 4096: of such an output
the packets cut off would be counted at the address of TCK_TEMP of sensor 24. -/
def cutAtSensor : State :=
  ({ tck := { pwrGood := true, hot := [(48, 1)] }
     links := [(0, { ctrl := 0x420, vcs := [(0, { rx := [⟨0, [], 1, false, [4096], true, false, 0, [], 0⟩] })] })] } : State).fset
    (F.LNK_PORT_STATE_STATE 0 0) 1

/-- The reading of sensor 24 in the state that an outcome answers. -/
def shownReading : Res → Nat
  | .next t => t.fget (F.TCK_TEMP_READING 24)
  | _ => 0

/-- The reading of 100 has become 101 by the packet that was cut off when the trip took the port down. -/
theorem shownReading_cutAtSensor :
    shownReading (exec (.sensorSample [(24, 100), (48, 1760)] [] []) cutAtSensor) = 101 := by decide +kernel

/-- Refutes O51: the clause on the readings of SENSOR_SAMPLE. The trip is device-fatal and takes port 0 down, and the count of packets
cut off at output 4096 stands in TCK_TEMP of sensor 24. -/
theorem not_sensorsAndPolicyComplete : ¬ Obligations.SensorsAndPolicyComplete := by
  unfold Obligations.SensorsAndPolicyComplete
  intro h
  obtain ⟨-, hsample, -⟩ := h [(24, 100), (48, 1760)] [] [] cutAtSensor
  obtain ⟨t, ht, hreadings, -⟩ := hsample rfl (by decide) (by decide) (by decide)
  have hread : t.fget (F.TCK_TEMP_READING 24) = 100 := (hreadings (24, 100) (by simp)).1
  have hshown := shownReading_cutAtSensor
  rw [ht] at hshown
  exact absurd (hread.symm.trans hshown) (by decide)

end Sys2Proof.Machine

/-! SUPPORT. Register writes (R441 to R450): from an address back to its register, what a write stores in the fields of a register,
and the device on which a register acts. -/

namespace Sys2Proof.Machine

/-! ### From an address back to its register -/

theorem blkAt_some {a : Nat} {bs : List Blk} {b : Blk} {i : Nat} (h : blkAt a bs = some (b, i)) :
    b ∈ bs ∧ i < b.count ∧ b.base i ≤ a ∧ a < b.base i + 0x10000 := by
  induction bs with
  | nil => exact absurd h (by simp [blkAt])
  | cons c cs ih =>
    simp only [blkAt] at h
    by_cases hlow : c.base0 ≤ a
    · have hbelow := c.base_index_le hlow
      generalize (if c.count = 1 then 0 else (a - c.base0) / c.stride) = k at h hbelow
      by_cases hin : c.base0 ≤ a ∧ k < c.count ∧ a - c.base k < 0x10000
      · rw [if_pos hin] at h
        obtain ⟨rfl, rfl⟩ : c = b ∧ k = i := by simpa using h
        obtain ⟨-, hi, hnear⟩ := hin
        exact ⟨List.mem_cons_self, hi, hbelow, by omega⟩
      · rw [if_neg hin] at h
        exact (ih h).imp_left (List.mem_cons_of_mem _)
    · rw [if_neg fun hin => hlow hin.1] at h
      exact (ih h).imp_left (List.mem_cons_of_mem _)

theorem RegRow.at_some {r : RegRow} (hs : r.Spaced) {o k1 k2 : Nat} (h : r.at o = some (k1, k2)) :
    k1 < r.n1 ∧ k2 < r.n2 ∧ o = r.off + k1 * r.s1 + k2 * r.s2 := by
  obtain ⟨hs1, hin, -⟩ := hs
  have hsplit := Nat.div_add_mod' (o - r.off) r.s1
  simp only [RegRow.at] at h
  split at h
  · exact absurd h (by simp)
  next hrange =>
  split at h
  next hone =>
    split at h
    next hzero =>
      obtain ⟨rfl, rfl⟩ : _ = k1 ∧ 0 = k2 := by simpa using h
      omega
    next => exact absurd h (by simp)
  next hmany =>
    split at h
    next hfit =>
      obtain ⟨rfl, rfl⟩ : _ = k1 ∧ _ = k2 := by simpa using h
      have hinner := Nat.div_add_mod' ((o - r.off) % r.s1) r.s2
      omega
    next => exact absurd h (by simp)

theorem findRow_some {rows : List RegRow} (hs : ∀ r ∈ rows, r.Spaced) {o : Nat} {r : RegRow} {k1 k2 : Nat}
    (h : findRow rows o = some (r, k1, k2)) : r ∈ rows ∧ k1 < r.n1 ∧ k2 < r.n2 ∧ o = r.off + k1 * r.s1 + k2 * r.s2 := by
  induction rows with
  | nil => exact absurd h (by simp [findRow])
  | cons q rows ih =>
    simp only [findRow] at h
    split at h
    next hat =>
      obtain ⟨rfl, rfl, rfl⟩ : q = r ∧ _ = k1 ∧ _ = k2 := by simpa using h
      exact ⟨List.mem_cons_self, RegRow.at_some (hs q List.mem_cons_self) hat⟩
    next =>
      obtain ⟨hr, hrest⟩ := ih (fun p hp => hs p (List.mem_cons_of_mem _ hp)) h
      exact ⟨List.mem_cons_of_mem _ hr, hrest⟩

/-- The register is one of the map's. -/
structure RegHit.Placed (h : RegHit) : Prop where
  blk : h.blk ∈ Blk.all
  count : h.i < h.blk.count
  row : h.row ∈ h.blk.rows
  first : h.k1 < h.row.n1
  second : h.k2 < h.row.n2
  off : h.o = h.row.off + h.k1 * h.row.s1 + h.k2 * h.row.s2

theorem regHit_some {a : Nat} {h : RegHit} (hh : regHit a = some h) :
    h.Placed ∧ h.blk.base h.i ≤ a ∧ a < h.blk.base h.i + 0x10000 := by
  unfold regHit findBlk at hh
  split at hh
  · exact absurd hh (by simp)
  next b i hblk =>
    obtain ⟨hb, hi, hlow, hhigh⟩ := blkAt_some hblk
    obtain ⟨⟨r, k1, k2⟩, hrow, rfl⟩ := Option.map_eq_some_iff.1 hh
    obtain ⟨hr, h1, h2, ho⟩ := findRow_some (Blk.rows_spaced b hb).1 hrow
    exact ⟨⟨hb, hi, hr, h1, h2, ho⟩, hlow, hhigh⟩

/-- Fields of a register of the map are stored. -/
theorem RegHit.Placed.listed {h : RegHit} (hp : h.Placed) {f : FieldRow} (hf : f ∈ h.row.fields) : (h.fld f).Listed := by
  have hl := listed_register hp.blk hp.count hp.row hp.first hp.second hf
  rw [Nat.add_assoc, Nat.add_assoc, ← Nat.add_assoc h.row.off, ← hp.off] at hl
  exact hl

theorem RegHit.Placed.holds {h : RegHit} (hp : h.Placed) {f : FieldRow} (hf : f ∈ h.row.fields) : h.row.Holds f :=
  (Blk.rows_fields _ hp.blk _ hp.row).1 f hf

theorem RegHit.Placed.apart {h : RegHit} (hp : h.Placed) : h.row.fields.Pairwise FieldRow.Apart :=
  (Blk.rows_fields _ hp.blk _ hp.row).2

/-- The registers that every block has lie before the block's own (R448, R450). -/
theorem RegHit.addr_ne_common {h : RegHit} (ho : 0x100 ≤ h.o) {o : Nat} (hc : o < 0x100) : h.addr ≠ h.blk.base h.i + o := by
  unfold RegHit.addr
  omega

/-! ### A register write reaches its block -/

theorem exec_regWr {src : Source} {addr : Fin 68719476736} {a : Nat} (ha : addr.val = 0xF00000000 + a) (v : Word) (ok : Bool) (s : State) :
    exec (.regWr src addr v ok) s = .next (s.regSend src a 8 v ok) := by
  have hlt := addr.isLt
  have hoff : (addr.val + 2 ^ 36 - 0xF00000000) % 2 ^ 36 = a := by omega
  rw [exec, execRegWr, hoff]

theorem State.regSend_now {s : State} {src : Source} {a : Nat} (h : s.ctrlAhead (sourcePt src) (regPoint a) = false) (n : Nat) (v : Word)
    (ok : Bool) : s.regSend src a n v ok = s.regWrite (srcNum src) a n v.toNat ok := by
  rw [State.regSend, h]
  exact if_neg Bool.false_ne_true

/-- The data of a write of 8 bytes through window `win`. -/
def RegWr.whole (win v : Nat) : RegWr := ⟨win, 2 ^ 64 - 1, v⟩

theorem State.regWrite_hit {s : State} {a : Nat} {h : RegHit} (hh : regHit a = some h) (halign : a % 8 = 0) (hmbx : inMbx a = false)
    (hthere : s.regAbsent h = false) (src : Nat) (v : Word) (ok : Bool) : s.regWrite src a 8 v.toNat ok =
      (s.setLatch src a none).regPerform h (.whole ((a - h.blk.base h.i) / 0x4000) v.toNat) ok := by
  have haligned : regAligned a 8 = true := by simp [regAligned, halign]
  have hlatch : (s.setLatch src a none).regAbsent h = false := hthere
  have hv : v.toNat % (2 ^ 64 - 1 + 1) * 2 ^ 0 = v.toNat := by have := v.isLt; omega
  simp only [State.regWrite, haligned, hmbx, hh, hlatch, Bool.not_true, Bool.false_eq_true, if_false, if_true]
  rw [if_neg (show ¬(8 = 4 ∧ a % 8 = 4) by omega), hv]
  rfl

theorem State.regWrite_unmapped {s : State} {a n : Nat} (h : regAligned a n = false ∨ inMbx a = false ∧ regHit a = none) (src v : Nat)
    (ok : Bool) : s.regWrite src a n v ok = (s.setLatch src a none).unmapped src true a := by
  unfold State.regWrite
  rcases h with h | ⟨hmbx, hnone⟩
  · simp [h]
  · simp [hmbx, hnone]

/-! ### What a write stores -/

/-- The device on which the register acts: the stored value, and the write that was ignored. -/
def State.written (s : State) (h : RegHit) (w : RegWr) : State :=
  let stored := storeReg h (h.row.fields.filter (w.performs (s.rwlOpen h))) (w.form (s.regValue h) % 2 ^ 64) (s.reg h.addr)
  let t := s.setReg h.addr stored
  if h.row.fields.any (fun f => f.acc = .rwl && w.touches f) && !s.rwlOpen h then
    (t.fset (F.BLK_STATUS_WRITE_IGNORED (h.blk.base h.i)) 1).fsat (F.BLK_COUNT_IGNORED (h.blk.base h.i)) 1
  else t

/-- Does the write write bits [lo + n - 1 : lo]? -/
def State.wrote (s : State) (h : RegHit) (w : RegWr) (lo n : Nat) : Bool :=
  (h.row.fields.filter (w.performs (s.rwlOpen h))).any (fun f => (f.mask &&& fieldMask lo n) ≠ 0)

/-- A direct write of 8 bytes writes every RW field that is not sticky. -/
theorem State.wrote_direct {s : State} {h : RegHit} {f : FieldRow} (hf : f ∈ h.row.fields) (hacc : f.acc = .rw)
    (hsticky : f.sticky = false) (hmask : (f.mask &&& (2 ^ 64 - 1)) ≠ 0) {lo n : Nat}
    (hin : (f.mask &&& fieldMask lo n) ≠ 0) {v : Nat} :
    s.wrote h (.whole 0 v) lo n = true := by
  refine List.any_eq_true.2 ⟨f, List.mem_filter.2 ⟨hf, ?_⟩, decide_eq_true hin⟩
  simp only [RegWr.performs, RegWr.touches, RegWr.whole, hacc, hsticky]
  simpa using hmask

/-- The register acts on the device with the value stored; CFG_REF may have followed the hardware's change (R454). -/
theorem State.regPerform_acts (s : State) (h : RegHit) (w : RegWr) (ok : Bool) : ∃ ref,
    s.regPerform h w ok = { s.written h w with cfgRef := ref }.regAct s h w (w.form (s.regValue h) % 2 ^ 64) (s.wrote h w) ok := by
  unfold State.regPerform
  dsimp only
  split
  · exact ⟨_, rfl⟩
  · exact ⟨_, rfl⟩

theorem State.written_frame (s : State) (h : RegHit) (w : RegWr) : s.written h w = { s with regs := (s.written h w).regs } := by
  unfold State.written
  dsimp only
  split <;> rfl

theorem State.reg_written_other (s : State) {h : RegHit} (w : RegWr) {a : Nat} (ha : a ≠ h.addr)
    (hs : a ≠ R.BLK_STATUS (h.blk.base h.i)) (hc : a ≠ R.BLK_COUNT (h.blk.base h.i)) : (s.written h w).reg a = s.reg a := by
  unfold State.written
  dsimp only
  split
  · exact (State.reg_fset_other _ _ hc).trans ((State.reg_fset_other _ _ hs).trans (State.reg_setReg_other _ _ ha))
  · exact State.reg_setReg_other _ _ ha

/-- What a write leaves in a field of its register. -/
theorem State.fget_written {s : State} {h : RegHit} (hp : h.Placed) (ho : 0x100 ≤ h.o) (w : RegWr) {f : FieldRow}
    (hf : f ∈ h.row.fields) :
    (s.written h w).fget (h.fld f) = bits (storeReg h (h.row.fields.filter (w.performs (s.rwlOpen h)))
      (w.form (s.regValue h) % 2 ^ 64) (s.reg h.addr)) (f.lo + f.width - 1) f.lo := by
  have hstored (v : Nat) : (s.setReg h.addr v).fget (h.fld f) = bits v (f.lo + f.width - 1) f.lo :=
    s.fget_setReg_same (f := h.fld f) h.addr v rfl (hp.listed hf)
  unfold State.written
  dsimp only
  split
  · rw [State.fsat, State.fget_fset_other _ _ (RegHit.addr_ne_common ho (by decide)),
      State.fget_fset_other _ _ (RegHit.addr_ne_common ho (by decide)), hstored]
  · exact hstored _

/-- The data of a direct write of 8 bytes is what is written (R443). -/
theorem RegWr.form_whole (v : Word) (old : Nat) : (RegWr.whole 0 v.toNat).form old % 2 ^ 64 = v.toNat := by
  have hv := v.isLt
  simp only [RegWr.whole, RegWr.form, Nat.and_two_pow_sub_one_eq_mod]
  omega

/-- Fields that the register's action stores are left alone. -/
theorem foldl_storeField_own {h : RegHit} {fs : List FieldRow} (hown : ∀ f ∈ fs, (f.mask &&& h.ownBits) ≠ 0) (new acc : Nat) :
    fs.foldl (storeField h false new) acc = acc :=
  foldl_keeps (P := (· = acc)) fs rfl fun t f hf ht => by rw [storeField, if_pos (.inr (hown f hf)), ht]

end Sys2Proof.Machine

/-! OBLIGATION O49. The signer table, the roles and the lock. -/

namespace Sys2Proof.Machine

/-! ### The registers of the signer table (R385, R407) -/

theorem listed_signerLock : F.SEC_CTRL_SIGNER_LOCK.Listed :=
  Fld.listed_of_row .sec 0 0x100 1 8 0 (by decide) (by decide) (by decide) rfl

theorem listed_signerRoles : F.SEC_SIGNER_ROLE_ROLES.Listed :=
  Fld.listed_of_row .sec 0 0x118 1 8 0 (by decide) (by decide) (by decide) rfl

/-- SEC_CTRL. -/
def secCtrlHit : RegHit := ⟨.sec, 0, 0x100, rowsSec[0], 0, 0⟩

/-- SEC_DATA. -/
def secDataHit : RegHit := ⟨.sec, 0, 0x110, rowsSec[2], 0, 0⟩

/-- SEC_SIGNER_ROLE. -/
def signerRoleHit : RegHit := ⟨.sec, 0, 0x118, rowsSec[3], 0, 0⟩

/-- The registers that hold the table, the roles and the lock. -/
def signerHits : List RegHit := [secCtrlHit, secDataHit, signerRoleHit]

theorem regHit_signer : ∀ h ∈ signerHits, ∀ win < 4, regHit (h.addr + 0x4000 * win) = some h ∧
    regPoint (h.addr + 0x4000 * win) = 28 ∧ (h.addr + 0x4000 * win) % 8 = 0 ∧ inMbx (h.addr + 0x4000 * win) = false ∧
    (h.addr + 0x4000 * win - h.blk.base h.i) / 0x4000 = win := by decide +kernel

theorem State.regAbsent_signer (s : State) : ∀ h ∈ signerHits, s.regAbsent h = false := by
  simp [signerHits, secCtrlHit, secDataHit, signerRoleHit, State.regAbsent, Blk.perStall]

theorem State.sec_written (s : State) (h : RegHit) (w : RegWr) : (s.written h w).sec = s.sec := by rw [State.written_frame]

/-- The roles are not stored by the write of their register, but by the register's action. -/
theorem State.fget_roles_written (s : State) {h : RegHit} (hh : h ∈ signerHits) (w : RegWr) :
    (s.written h w).fget F.SEC_SIGNER_ROLE_ROLES = s.fget F.SEC_SIGNER_ROLE_ROLES := by
  simp only [signerHits, List.mem_cons, List.not_mem_nil, or_false] at hh
  rcases hh with rfl | rfl | rfl
  · rw [State.fget, State.reg_written_other s w (by decide) (by decide) (by decide)]
    rfl
  · rw [State.fget, State.reg_written_other s w (by decide) (by decide) (by decide)]
    rfl
  · have hp : signerRoleHit.Placed := (regHit_some (a := 0x3040118) (by decide +kernel)).1
    have hstore := s.fget_written hp (by decide) w (f := ⟨"ROLES", 0, 32, .rw, 0, false⟩) (by decide)
    rw [storeReg, foldl_storeField_own fun f hf => ?own, if_neg (fun h => absurd h.1 (by decide))] at hstore
    · exact hstore
    · have hrow : f = ⟨"ROLES", 0, 32, .rw, 0, false⟩ := by simpa [signerRoleHit, rowsSec] using List.mem_of_mem_filter hf
      subst hrow
      decide

/-- A write to one of the three registers that no other control packet is ahead of. -/
theorem exec_regWr_signer {src : Source} {addr : Fin 68719476736} (v : Word) (ok : Bool) {s : State}
    (hahead : s.ctrlAhead (sourcePt src) 28 = false) {h : RegHit} (hh : h ∈ signerHits) {win : Nat} (hwin : win < 4)
    (haddr : addr.val = 0xF00000000 + h.addr + 0x4000 * win) : ∃ z u : State, exec (.regWr src addr v ok) s = .next
      (u.regAct z h (.whole win v.toNat) ((RegWr.whole win v.toNat).form (z.regValue h) % 2 ^ 64) (z.wrote h (.whole win v.toNat)) ok) ∧
    u.sec = s.sec ∧ u.fget F.SEC_SIGNER_ROLE_ROLES = s.fget F.SEC_SIGNER_ROLE_ROLES ∧
    (∀ a, a ≠ h.addr → a ≠ R.BLK_STATUS (h.blk.base h.i) → a ≠ R.BLK_COUNT (h.blk.base h.i) → u.reg a = s.reg a) := by
  obtain ⟨hhit, hpoint, halign, hmbx, hwindow⟩ := regHit_signer h hh win hwin
  let z := s.setLatch (srcNum src) (h.addr + 0x4000 * win) none
  obtain ⟨ref, hact⟩ := z.regPerform_acts h (.whole win v.toNat) ok
  refine ⟨z, { z.written h (.whole win v.toNat) with cfgRef := ref }, ?_, z.sec_written h _, z.fget_roles_written hh _,
    fun a ha hs hc => z.reg_written_other _ ha hs hc⟩
  rw [exec_regWr (a := h.addr + 0x4000 * win) (by omega), State.regSend_now (hpoint.symm ▸ hahead),
    State.regWrite_hit hhit halign hmbx (s.regAbsent_signer h hh), hwindow, hact]

/-! ### What the three registers do -/

section
variable (u z : State) (w : RegWr) (new : Nat) (did : Nat → Nat → Bool) (ok : Bool)

theorem State.regAct_secCtrl : u.regAct z secCtrlHit w new did ok = if did 2 1 && bit new 2 then u.lockSigners else u := rfl

theorem State.regAct_secData : u.regAct z secDataHit w new did ok = if did 0 64 then u.secWrite new else u := rfl

theorem State.regAct_signerRole : u.regAct z signerRoleHit w new did ok =
    if 0x118 = 0x118 ∧ did 0 32 = true ∧ u.sec.lock = false then u.setReg R.SEC_SIGNER_ROLE (bits new 31 0) else u := rfl

end

section
variable {src : Source} {addr : Fin 68719476736} {v : Word} {ok : Bool} {s : State} (hahead : s.ctrlAhead (sourcePt src) 28 = false)

theorem signerLock_locks (s : State) : Runs .signerLock s (fun t => t.sec = { s.sec with lock := true } ∧
    t.fget F.SEC_CTRL_SIGNER_LOCK = 1 ∧ t.fget F.SEC_SIGNER_ROLE_ROLES = s.fget F.SEC_SIGNER_ROLE_ROLES ∧
    t = { s with sec := t.sec, regs := t.regs }) :=
  ⟨_, rfl, rfl, State.fget_fset_same _ _ listed_signerLock, State.fget_fset_other _ _ (by decide), rfl⟩

include hahead

theorem regWr_locks (haddr : addr.val = 0xF00000000 + R.SEC_CTRL) (hbit : bit v.toNat 2 = true) : Runs (.regWr src addr v ok) s (fun t =>
    t.sec = { s.sec with lock := true } ∧ t.fget F.SEC_CTRL_SIGNER_LOCK = 1) := by
  obtain ⟨z, u, hexec, hsec, -⟩ := exec_regWr_signer v ok hahead (h := secCtrlHit) (by decide) (win := 0) (by decide)
    (by rw [haddr]; decide)
  rw [RegWr.form_whole, State.regAct_secCtrl,
    if_pos (by rw [hbit, State.wrote_direct (f := rowsSec[0].fields[2]) (by decide) rfl rfl (by decide) (by decide)]; rfl)] at hexec
  exact ⟨_, hexec, by rw [← hsec]; rfl, State.fget_fset_same _ _ listed_signerLock⟩

/-- While the table is locked, no window of the three registers changes it, the roles or the lock. -/
theorem regWr_locked (hlock : s.sec.lock = true) {h : RegHit} (hh : h ∈ signerHits) {win : Nat} (hwin : win < 4)
    (haddr : addr.val = 0xF00000000 + h.addr + 0x4000 * win) : Runs (.regWr src addr v ok) s (fun t =>
      t.sec = s.sec ∧ t.fget F.SEC_SIGNER_ROLE_ROLES = s.fget F.SEC_SIGNER_ROLE_ROLES) := by
  obtain ⟨z, u, hexec, hsec, hroles, -⟩ := exec_regWr_signer v ok hahead hh hwin haddr
  have hlocked : u.sec.lock = true := hsec ▸ hlock
  have hrelock : u.lockSigners.sec = u.sec := by
    change { u.sec with lock := true } = u.sec
    rw [← hlocked]
  have hkept (new : Nat) : u.secWrite new = u := if_neg (by simp [hlocked])
  refine ⟨_, hexec, ?_⟩
  rcases List.mem_cons.1 hh with rfl | hh
  · rw [State.regAct_secCtrl]
    split
    · exact ⟨hrelock.trans hsec, (State.fget_fset_other _ _ (by decide)).trans hroles⟩
    · exact ⟨hsec, hroles⟩
  rcases List.mem_cons.1 hh with rfl | hh
  · rw [State.regAct_secData, hkept, ite_self]
    exact ⟨hsec, hroles⟩
  · obtain rfl := List.mem_singleton.1 hh
    rw [State.regAct_signerRole, if_neg (by simp [hlocked])]
    exact ⟨hsec, hroles⟩

/-- While the table is not locked, SEC_DATA writes the selected word. -/
theorem regWr_signerWord (hlock : s.sec.lock = false) (htable : s.fget F.SEC_SEL_TABLE = 0)
    (haddr : addr.val = 0xF00000000 + R.SEC_DATA) : Runs (.regWr src addr v ok) s (fun t => t.sec.lock = false ∧
      ∀ n, Tab.get zeroNat t.sec.signers n =
        if n = 4 * s.fget F.SEC_SEL_INDEX + s.fget F.SEC_SEL_WORD then v.toNat else Tab.get zeroNat s.sec.signers n) := by
  obtain ⟨z, u, hexec, hsec, -, hreg⟩ := exec_regWr_signer v ok hahead (h := secDataHit) (by decide) (win := 0) (by decide)
    (by rw [haddr]; decide)
  have hreg : u.reg R.SEC_SEL = s.reg R.SEC_SEL := hreg _ (by decide) (by decide) (by decide)
  have htab : u.fget F.SEC_SEL_TABLE = s.fget F.SEC_SEL_TABLE := congrArg (bits · 9 8) hreg
  have hindex : u.fget F.SEC_SEL_INDEX = s.fget F.SEC_SEL_INDEX := congrArg (bits · 7 4) hreg
  have hword : u.fget F.SEC_SEL_WORD = s.fget F.SEC_SEL_WORD := congrArg (bits · 1 0) hreg
  rw [RegWr.form_whole, State.regAct_secData,
    if_pos (State.wrote_direct (f := rowsSec[2].fields[0]) (by decide) rfl rfl (by decide) (by decide)), State.secWrite,
    if_pos ⟨htab.trans htable, hsec ▸ hlock⟩, hindex, hword, hsec]
    at hexec
  exact ⟨_, hexec, hlock, fun n => Tab.get_set (d := zeroNat) ..⟩

/-- While the table is not locked, SEC_SIGNER_ROLE writes the roles. -/
theorem regWr_roles (hlock : s.sec.lock = false) (haddr : addr.val = 0xF00000000 + R.SEC_SIGNER_ROLE) :
    Runs (.regWr src addr v ok) s (fun t => t.fget F.SEC_SIGNER_ROLE_ROLES = v.toNat % 2 ^ 32 ∧ t.sec = s.sec) := by
  obtain ⟨z, u, hexec, hsec, -⟩ := exec_regWr_signer v ok hahead (h := signerRoleHit) (by decide) (win := 0) (by decide)
    (by rw [haddr]; decide)
  rw [RegWr.form_whole, State.regAct_signerRole,
    if_pos ⟨rfl, State.wrote_direct (f := rowsSec[3].fields[0]) (by decide) rfl rfl (by decide) (by decide), hsec ▸ hlock⟩] at hexec
  exact ⟨_, hexec, (u.fget_setReg_same R.SEC_SIGNER_ROLE _ rfl listed_signerRoles).trans
    (by simp [bits, F.SEC_SIGNER_ROLE_ROLES]), hsec⟩

end

/-- Settles O49: a write acts on the device whose table and roles stand as they were, and there the lock decides. -/
theorem signerTableLocks : Obligations.SignerTableLocks := by
  unfold Obligations.SignerTableLocks
  intro s src addr v ok
  refine ⟨signerLock_locks s, fun haddr hahead hbit => regWr_locks hahead haddr hbit, fun hlock hahead a ha win hwin haddr => ?_,
    fun hlock hahead htable haddr => regWr_signerWord hahead hlock htable haddr,
    fun hlock hahead haddr => regWr_roles hahead hlock haddr⟩
  obtain ⟨h, hh, rfl⟩ : ∃ h ∈ signerHits, h.addr = a := by
    simp only [List.mem_cons, List.not_mem_nil, or_false] at ha
    rcases ha with rfl | rfl | rfl
    · exact ⟨secCtrlHit, by decide, rfl⟩
    · exact ⟨secDataHit, by decide, rfl⟩
    · exact ⟨signerRoleHit, by decide, rfl⟩
  exact regWr_locked hahead hlock hh hwin haddr

end Sys2Proof.Machine

/-! OBLIGATION O56. Register writes. -/

namespace Sys2Proof.Machine

/-! ### What a window forms of a field (R443, R447) -/

/-- The bits of a number that lie in a field. -/
def FieldRow.part (f : FieldRow) (n : Nat) : Nat := bits n (f.lo + f.width - 1) f.lo

/-- Taking away no more than each of two digits holds takes from each digit. -/
theorem div_sub_of_mod_le {x z p : Nat} (hp : 0 < p) (hle : z ≤ x) (hmod : z % p ≤ x % p) :
    (x - z) / p = x / p - z / p ∧ (x - z) % p = x % p - z % p := by
  have hx := Nat.div_add_mod x p
  have hz := Nat.div_add_mod z p
  have hdiv : p * (z / p) ≤ p * (x / p) := Nat.mul_le_mul_left p (Nat.div_le_div_right hle)
  have hsplit : x - z = p * (x / p - z / p) + (x % p - z % p) := by rw [Nat.mul_sub]; omega
  have hlt : x % p - z % p < p := Nat.lt_of_le_of_lt (Nat.sub_le _ _) (Nat.mod_lt x hp)
  rw [hsplit]
  exact ⟨by rw [Nat.mul_add_div hp, Nat.div_eq_of_lt hlt, Nat.add_zero], by rw [Nat.mul_add_mod, Nat.mod_eq_of_lt hlt]⟩

section
variable {f : FieldRow} (hf : 0 < f.width)
include hf

theorem FieldRow.testBit_part (n i : Nat) : (f.part n).testBit i = (decide (i < f.width) && n.testBit (f.lo + i)) :=
  testBit_bits n f.lo f.width i hf

theorem FieldRow.part_or (x y : Nat) : f.part (x ||| y) = f.part x ||| f.part y := by
  apply Nat.eq_of_testBit_eq
  intro i
  simp only [FieldRow.testBit_part hf, Nat.testBit_or, Bool.and_or_distrib_left]

theorem FieldRow.part_xor (x y : Nat) : f.part (x ^^^ y) = f.part x ^^^ f.part y := by
  apply Nat.eq_of_testBit_eq
  intro i
  simp only [FieldRow.testBit_part hf, Nat.testBit_xor]
  cases decide (i < f.width) <;> simp

theorem FieldRow.part_eq (n : Nat) : f.part n = n / 2 ^ f.lo % 2 ^ f.width := by
  simp only [FieldRow.part, bits, show f.lo + f.width - 1 + 1 - f.lo = f.width by omega, Nat.shiftRight_eq_div_pow]

theorem FieldRow.part_sub_and (x y : Nat) : f.part (x - (x &&& y)) = f.part x - (f.part x &&& f.part y) := by
  have hle {a b : Nat} : a &&& b ≤ a := Nat.and_le_left
  obtain ⟨hdiv, -⟩ := div_sub_of_mod_le (Nat.two_pow_pos f.lo) (hle (a := x) (b := y)) (by rw [Nat.and_mod_two_pow]; exact hle)
  obtain ⟨-, hmod⟩ := div_sub_of_mod_le (Nat.two_pow_pos f.width) (Nat.div_le_div_right (hle (a := x) (b := y)))
    (by rw [Nat.and_div_two_pow, Nat.and_mod_two_pow]; exact hle : (x &&& y) / 2 ^ f.lo % 2 ^ f.width ≤ x / 2 ^ f.lo % 2 ^ f.width)
  rw [FieldRow.part_eq hf, FieldRow.part_eq hf, FieldRow.part_eq hf, hdiv, hmod, Nat.and_div_two_pow, Nat.and_mod_two_pow]

theorem FieldRow.part_lt (n : Nat) : f.part n < 2 ^ f.width := by
  rw [FieldRow.part_eq hf]
  exact Nat.mod_lt _ (Nat.two_pow_pos _)

/-- A field below bit 64 lies in the low 64 bits. -/
theorem FieldRow.part_mod (hlt : f.lo + f.width ≤ 64) (n : Nat) : f.part (n % 2 ^ 64) = f.part n := by
  apply Nat.eq_of_testBit_eq
  intro i
  simp only [FieldRow.testBit_part hf, Nat.testBit_mod_two_pow]
  by_cases hi : i < f.width
  · simp [hi, show f.lo + i < 64 by omega]
  · simp [hi]

/-- Does a number have a bit in the field? -/
theorem FieldRow.mask_and_eq_zero_iff (n : Nat) : f.mask &&& n = 0 ↔ f.part n = 0 := by
  have hmask (i : Nat) : f.mask.testBit i = (decide (f.lo ≤ i) && decide (i - f.lo < f.width)) := by
    rw [FieldRow.mask, fieldMask, Nat.mul_comm, Nat.testBit_two_pow_mul, Nat.testBit_two_pow_sub_one]
  constructor
  · intro h
    apply Nat.eq_of_testBit_eq
    intro i
    have hi := congrArg (Nat.testBit · (f.lo + i)) h
    simpa [FieldRow.testBit_part hf, Nat.testBit_and, hmask] using hi
  · intro h
    apply Nat.eq_of_testBit_eq
    intro i
    have hi := congrArg (Nat.testBit · (i - f.lo)) h
    simp only [FieldRow.testBit_part hf, Nat.zero_testBit, Bool.and_eq_false_iff, decide_eq_false_iff_not] at hi
    rw [Nat.testBit_and, hmask, Nat.zero_testBit]
    by_cases hlo : f.lo ≤ i
    · rw [Nat.add_sub_cancel' hlo] at hi
      rcases hi with hi | hi <;> simp [hi]
    · simp [hlo]

end

/-! ### What the fields of a plain register store -/

/-- The blocks whose registers only hold what is written neither replace a value nor store it elsewhere. -/
theorem plain_clampField {h : RegHit} (hb : h.blk ∈ plainBlocks) (lo v : Nat) : clampField h lo v = v := by
  simp only [plainBlocks, List.mem_cons, List.not_mem_nil, or_false] at hb
  rcases hb with hb | hb | hb | hb | hb | hb <;> simp only [clampField, hb]

theorem plain_ownBits {h : RegHit} (hb : h.blk ∈ plainBlocks) (ho : 0x100 ≤ h.o) : h.ownBits = 0 := by
  have h8 : ¬ h.o = 8 := by omega
  have h18 : ¬ h.o = 0x18 := by omega
  simp only [plainBlocks, List.mem_cons, List.not_mem_nil, or_false] at hb
  rcases hb with hb | hb | hb | hb | hb | hb <;> simp only [RegHit.ownBits, h8, h18, hb, if_false]

theorem plain_storeReg {h : RegHit} (hb : h.blk ∈ plainBlocks) (done : List FieldRow) (new old : Nat) :
    storeReg h done new old = done.foldl (storeField h false new) old := by
  have hsrv : h.blk ≠ .srv := by rintro hs; rw [hs] at hb; exact absurd hb (by decide)
  exact if_neg fun hbad => hsrv hbad.1

/-- The registers of those blocks do nothing else when they are written. -/
theorem plain_regAct {h : RegHit} (hb : h.blk ∈ plainBlocks) (ho : 0x100 ≤ h.o) (s z : State) (w : RegWr) (new : Nat)
    (did : Nat → Nat → Bool) (ok : Bool) : s.regAct z h w new did ok = s := by
  have h8 : ¬ h.o = 8 := by omega
  have h18 : ¬ h.o = 0x18 := by omega
  simp only [plainBlocks, List.mem_cons, List.not_mem_nil, or_false] at hb
  rcases hb with hb | hb | hb | hb | hb | hb <;> simp only [State.regAct, h8, h18, hb, if_false]

/-- CFG_REF follows no change of theirs (R454). -/
theorem plain_regPerform {h : RegHit} (hb : h.blk ∈ plainBlocks) (ho : 0x100 ≤ h.o) (s : State) (w : RegWr) (ok : Bool) :
    s.regPerform h w ok = s.written h w := by
  have hexact (new acc : Nat) (f : FieldRow) : storeField h true new acc f = storeField h false new acc f := by
    simp [storeField, plain_clampField hb]
  have hfold (done : List FieldRow) (new old : Nat) :
      storeReg h done new old = done.foldl (storeField h true new) old := by
    rw [plain_storeReg hb, funext₂ fun acc f => (hexact new acc f).symm]
  unfold State.regPerform
  dsimp only
  rw [plain_regAct hb ho, if_neg (by rw [hfold]; simp)]
  rfl

/-- A step of a write leaves the fields apart from the written one. -/
theorem part_storeField_apart {h : RegHit} (new acc : Nat) {f g : FieldRow} (hf : 0 < f.width) (hg : 0 < g.width) (ha : f.Apart g) :
    f.part (storeField h false new acc g) = f.part acc := by
  unfold storeField
  dsimp only
  split
  · rfl
  · split <;> exact bits_setBits_other _ _ _ _ _ _ hg hf ha

/-- What a write on the field stores in it. -/
theorem part_storeField_same {h : RegHit} (hb : h.blk ∈ plainBlocks) (ho : 0x100 ≤ h.o) (new acc : Nat) {f : FieldRow}
    (hf : 0 < f.width) :
    f.part (storeField h false new acc f) = if f.acc = .wo then f.part acc else if f.sticky then 0 else f.part new := by
  have hown : ¬(f.mask &&& h.ownBits) ≠ 0 := by simp [plain_ownBits hb ho]
  simp only [storeField, hown, or_false, plain_clampField hb, Bool.false_eq_true, if_false]
  split
  · rfl
  · split
    · exact (bits_setBits_same _ _ _ _ hf).trans (Nat.zero_mod _)
    · exact (bits_setBits_same _ _ _ _ hf).trans (Nat.mod_eq_of_lt (FieldRow.part_lt hf new))

/-- What a write on fields that share no bit stores in one of them, and in one beside them. -/
theorem part_foldl_storeField {h : RegHit} (hb : h.blk ∈ plainBlocks) (ho : 0x100 ≤ h.o) (new acc : Nat) {fs : List FieldRow}
    (hpos : ∀ g ∈ fs, 0 < g.width) (hapart : fs.Pairwise FieldRow.Apart) {f : FieldRow} (hf : 0 < f.width) :
    (f ∈ fs → f.part (fs.foldl (storeField h false new) acc) =
      if f.acc = .wo then f.part acc else if f.sticky then 0 else f.part new) ∧
    ((∀ g ∈ fs, f.Apart g) → f.part (fs.foldl (storeField h false new) acc) = f.part acc) := by
  induction fs generalizing acc with
  | nil => exact ⟨fun hm => absurd hm List.not_mem_nil, fun _ => rfl⟩
  | cons g fs ih =>
    obtain ⟨hg, hfs⟩ := List.pairwise_cons.1 hapart
    have hgpos := hpos g List.mem_cons_self
    obtain ⟨hin, hout⟩ := ih (storeField h false new acc g) (fun x hx => hpos x (List.mem_cons_of_mem _ hx)) hfs
    constructor
    · intro hm
      rcases List.mem_cons.1 hm with rfl | hm
      · exact (hout hg).trans (part_storeField_same hb ho new acc hf)
      · rw [List.foldl_cons, hin hm, part_storeField_apart new acc hf hgpos (hg f hm).symm]
    · intro hall
      rw [List.foldl_cons, hout fun x hx => hall x (List.mem_cons_of_mem _ hx)]
      exact part_storeField_apart new acc hf hgpos (hall g List.mem_cons_self)

/-- What a write leaves in a field of a plain register. -/
theorem State.fget_written_plain {s : State} {h : RegHit} (hp : h.Placed) (hb : h.blk ∈ plainBlocks) (ho : 0x100 ≤ h.o) (w : RegWr)
    {f : FieldRow} (hf : f ∈ h.row.fields) : (s.written h w).fget (h.fld f) =
      if w.performs (s.rwlOpen h) f = true ∧ f.acc ≠ .wo then (if f.sticky then 0 else f.part (w.form (s.regValue h)))
      else s.fget (h.fld f) := by
  obtain ⟨hwidth, htop, -⟩ := hp.holds hf
  have hpos : ∀ g ∈ h.row.fields.filter (w.performs (s.rwlOpen h)), 0 < g.width := fun g hg => (hp.holds (List.mem_of_mem_filter hg)).1
  obtain ⟨hin, hout⟩ := part_foldl_storeField hb ho (w.form (s.regValue h) % 2 ^ 64) (s.reg h.addr) hpos (hp.apart.filter _) hwidth
  rw [State.fget_written hp ho w hf, plain_storeReg hb]
  by_cases hdone : w.performs (s.rwlOpen h) f = true
  · refine (hin (List.mem_filter.2 ⟨hf, hdone⟩)).trans ?_
    rw [FieldRow.part_mod hwidth htop]
    by_cases hwo : f.acc = .wo
    · rw [if_pos hwo, if_neg fun hc => hc.2 hwo]
      rfl
    · simp only [hwo, hdone, if_false, if_true, ne_eq, not_false_eq_true, and_self]
  · rw [if_neg fun hc => hdone hc.1]
    have : Std.Symm FieldRow.Apart := ⟨fun _ _ h => h.symm⟩
    refine hout fun g hg => hp.apart.forall hf (List.mem_of_mem_filter hg) ?_
    rintro rfl
    exact hdone (List.mem_filter.1 hg).2

/-! ### Which fields a write writes (R444, R447) -/

/-- No RWL field is sticky (the register tables). -/
theorem Blk.rwl_not_sticky : ∀ b ∈ Blk.all, ∀ r ∈ b.rows, ∀ f ∈ r.fields, f.acc = .rwl → f.sticky = false := by decide +kernel

theorem RegWr.touches_direct {f : FieldRow} (hf : 0 < f.width) (htop : f.lo + f.width ≤ 64) (v : Nat) :
    (RegWr.whole 0 v).touches f = true := by
  have hone : (f.part (2 ^ 64 - 1)).testBit 0 = true := by
    rw [FieldRow.testBit_part hf, Nat.testBit_two_pow_sub_one]
    simp [hf, show f.lo < 64 by omega]
  refine decide_eq_true fun hzero => ?_
  rw [(FieldRow.mask_and_eq_zero_iff hf (2 ^ 64 - 1)).1 hzero, Nat.zero_testBit] at hone
  exact Bool.false_ne_true hone

theorem RegWr.touches_window {f : FieldRow} (hf : 0 < f.width) {win : Nat} (hwin : win ≠ 0) (v : Nat) :
    (RegWr.whole win v).touches f = decide (f.part v ≠ 0) := by
  have hdata : (RegWr.whole win v).touches f = decide ((f.mask &&& if win = 0 then 2 ^ 64 - 1 else v) ≠ 0) := rfl
  rw [hdata, if_neg hwin]
  exact decide_eq_decide.2 (not_congr (FieldRow.mask_and_eq_zero_iff hf v))

section
variable {s : State} {h : RegHit} (hp : h.Placed) (hb : h.blk ∈ plainBlocks) (ho : 0x100 ≤ h.o)
include hp hb ho

theorem State.fget_written_direct (v : Word) {f : FieldRow} (hf : f ∈ h.row.fields) :
    (s.written h (.whole 0 v.toNat)).fget (h.fld f) =
      if (f.acc = .rw ∧ f.sticky = false) ∨ (f.acc = .rwl ∧ s.rwlOpen h = true) then f.part v.toNat else s.fget (h.fld f) := by
  obtain ⟨hwidth, htop, -⟩ := hp.holds hf
  have hsticky := Blk.rwl_not_sticky _ hp.blk _ hp.row f hf
  have hform : f.part ((RegWr.whole 0 v.toNat).form (s.regValue h)) = f.part v.toNat := by
    rw [← FieldRow.part_mod hwidth htop, RegWr.form_whole]
  rw [State.fget_written_plain hp hb ho _ hf, hform, RegWr.performs, RegWr.touches_direct hwidth htop]
  cases hacc : f.acc with
  | rw => cases hst : f.sticky <;> simp [RegWr.whole]
  | rwl => cases s.rwlOpen h <;> simp [hsticky hacc]
  | ro => simp
  | wo => simp

theorem State.fget_written_window {win : Nat} (hlow : 1 ≤ win) (hhigh : win ≤ 3) (v : Nat) {f : FieldRow} (hf : f ∈ h.row.fields) :
    (s.written h (.whole win v)).fget (h.fld f) =
      if f.part v = 0 ∨ f.acc = .ro ∨ f.acc = .wo ∨ (f.acc = .rwl ∧ s.rwlOpen h = false) then s.fget (h.fld f)
      else if f.sticky then (if win = 2 then 0 else s.fget (h.fld f))
      else if win = 1 then f.part (s.regValue h) ||| f.part v
      else if win = 2 then f.part (s.regValue h) - (f.part (s.regValue h) &&& f.part v)
      else f.part (s.regValue h) ^^^ f.part v := by
  obtain ⟨hwidth, htop, -⟩ := hp.holds hf
  have hsticky := Blk.rwl_not_sticky _ hp.blk _ hp.row f hf
  have hform : f.part ((RegWr.whole win v).form (s.regValue h)) =
      if win = 1 then f.part (s.regValue h) ||| f.part v
      else if win = 2 then f.part (s.regValue h) - (f.part (s.regValue h) &&& f.part v)
      else f.part (s.regValue h) ^^^ f.part v := by
    obtain rfl | rfl | rfl : win = 1 ∨ win = 2 ∨ win = 3 := by omega
    · exact FieldRow.part_or hwidth _ _
    · exact FieldRow.part_sub_and hwidth _ _
    · exact FieldRow.part_xor hwidth _ _
  rw [State.fget_written_plain hp hb ho _ hf, hform, RegWr.performs, RegWr.touches_window hwidth (by omega)]
  by_cases hv : f.part v = 0
  · simp [hv]
  cases hacc : f.acc with
  | rw => cases hst : f.sticky <;> by_cases h2 : win = 2 <;> simp [hv, h2, RegWr.whole]
  | rwl => cases s.rwlOpen h <;> simp [hv, hsticky hacc]
  | ro => simp
  | wo => simp

end

/-! ### Writes that are ignored (R448, R450) -/

/-- The counts and the status that every block has (R448). -/
theorem Blk.common_rows : ∀ b ∈ Blk.all,
    (∃ r ∈ b.rows, r.off = 0x10 ∧ r.n1 = 1 ∧ r.s1 = 8 ∧ 0 < r.n2 ∧ ∃ f ∈ r.fields, f.lo = 0 ∧ f.width = 1) ∧
    (∃ r ∈ b.rows, r.off = 0x28 ∧ r.n1 = 1 ∧ r.s1 = 8 ∧ 0 < r.n2 ∧ ∃ f ∈ r.fields, f.lo = 32 ∧ f.width = 16) ∧
    (∃ r ∈ b.rows, r.off = 0x28 ∧ r.n1 = 1 ∧ r.s1 = 8 ∧ 0 < r.n2 ∧ ∃ f ∈ r.fields, f.lo = 48 ∧ f.width = 16) := by
  decide +kernel

section
variable {b : Blk} (hb : b ∈ Blk.all) {i : Nat} (hi : i < b.count)
include hb hi

theorem listed_writeIgnored : (F.BLK_STATUS_WRITE_IGNORED (b.base i)).Listed :=
  Fld.listed_of_row b i 0x10 1 8 0 hi (by decide) (Blk.common_rows b hb).1 rfl

theorem listed_countIgnored : (F.BLK_COUNT_IGNORED (b.base i)).Listed :=
  Fld.listed_of_row b i 0x28 1 8 0 hi (by decide) (Blk.common_rows b hb).2.1 rfl

theorem listed_countUnmapped : (F.BLK_COUNT_UNMAPPED (b.base i)).Listed :=
  Fld.listed_of_row b i 0x28 1 8 0 hi (by decide) (Blk.common_rows b hb).2.2 rfl

end

/-- A counter of 16 bits stops at its largest value. -/
theorem State.fget_fsat_same (s : State) {f : Fld} (hf : f.Listed) (hw : f.width = 16) :
    (s.fsat f 1).fget f = min 0xFFFF (s.fget f + 1) := by
  rw [State.fsat, State.fget_fset_same _ _ hf, satAdd, hw]
  omega

section
variable {s : State} {h : RegHit} {w : RegWr}

theorem State.written_ignored (hp : h.Placed) (ho : 0x100 ≤ h.o) (hopen : s.rwlOpen h = false)
    (hrwl : ∃ f ∈ h.row.fields, f.acc = .rwl ∧ w.touches f = true) :
    (s.written h w).fget (F.BLK_STATUS_WRITE_IGNORED (h.blk.base h.i)) = 1 ∧
    (s.written h w).fget (F.BLK_COUNT_IGNORED (h.blk.base h.i)) = min 0xFFFF (s.fget (F.BLK_COUNT_IGNORED (h.blk.base h.i)) + 1) := by
  obtain ⟨f, hf, hacc, htouch⟩ := hrwl
  have hlocked : (h.row.fields.any (fun f => f.acc = .rwl && w.touches f) && !s.rwlOpen h) = true := by
    rw [hopen, Bool.not_false, Bool.and_true]
    exact List.any_eq_true.2 ⟨f, hf, by simp [hacc, htouch]⟩
  have hstatus : R.BLK_STATUS (h.blk.base h.i) ≠ h.addr := (RegHit.addr_ne_common ho (by decide)).symm
  have hcount : R.BLK_COUNT (h.blk.base h.i) ≠ h.addr := (RegHit.addr_ne_common ho (by decide)).symm
  have hapart : R.BLK_STATUS (h.blk.base h.i) ≠ R.BLK_COUNT (h.blk.base h.i) := by simp only [R.BLK_STATUS, R.BLK_COUNT]; omega
  simp only [State.written, hlocked, if_true]
  constructor
  · rw [State.fsat, State.fget_fset_other _ _ hapart]
    exact State.fget_fset_same _ _ (listed_writeIgnored hp.blk hp.count)
  · rw [State.fget_fsat_same _ (listed_countIgnored hp.blk hp.count) rfl, State.fget_fset_other _ _ hapart.symm,
      State.fget_setReg_other _ _ hcount]

theorem State.reg_written_open (hopen : s.rwlOpen h = true ∨ ∀ f ∈ h.row.fields, f.acc ≠ .rwl) {a : Nat} (ha : a ≠ h.addr) :
    (s.written h w).reg a = s.reg a := by
  have hnone : (h.row.fields.any (fun f => f.acc = .rwl && w.touches f) && !s.rwlOpen h) = false := by
    rcases hopen with hopen | hopen
    · simp [hopen]
    · rw [List.any_eq_false.2 fun f hf => by simp [hopen f hf], Bool.false_and]
  simp only [State.written, hnone, Bool.false_eq_true, if_false]
  exact State.reg_setReg_other _ _ ha

end

theorem State.fget_raise_mild {s : State} {e : Err} (h : codeClass e.code = 0) (hs : codeSev e.code < 2) (g : Fld) :
    (s.raise e).fget g = s.fget g := by
  rw [State.raise_of_mild h hs, State.fget_raiseRec h]

/-- An access that reaches no register is counted at its block. -/
theorem State.fget_unmapped (s : State) (src : Nat) (wr : Bool) {x : Nat} {b : Blk} {i : Nat} (hx : findBlk x = some (b, i)) :
    (s.unmapped src wr x).fget (F.BLK_COUNT_UNMAPPED (b.base i)) = min 0xFFFF (s.fget (F.BLK_COUNT_UNMAPPED (b.base i)) + 1) := by
  obtain ⟨hb, hi, -⟩ := blkAt_some hx
  have hcount := s.fget_fsat_same (listed_countUnmapped hb hi) rfl
  have hmild (u : State) (e : Err) (he : e.code = 0x0C02) (g : Fld) : (u.raise e).fget g = u.fget g :=
    State.fget_raise_mild (by rw [he]; rfl) (by rw [he]; decide) g
  have htime (u : State) (x : TimeSt) (g : Fld) : ({ u with time := x } : State).fget g = u.fget g := rfl
  unfold State.unmapped
  simp only [hx]
  split
  · exact (hmild _ _ rfl _).trans ((htime _ _ _).trans hcount)
  · exact hcount

/-! ### The register of a plain write -/

section
variable (s : State) (src a : Nat) (x : Option (Nat × Nat))

theorem State.fget_setLatch (g : Fld) : (s.setLatch src a x).fget g = s.fget g := rfl

theorem State.reg_setLatch (n : Nat) : (s.setLatch src a x).reg n = s.reg n := rfl

theorem State.rwlOpen_setLatch (h : RegHit) : (s.setLatch src a x).rwlOpen h = s.rwlOpen h := rfl

/-- The values that plain registers show do not depend on the latch of 4-byte reads. -/
theorem State.regValue_setLatch {h : RegHit} (hb : h.blk ∈ plainBlocks) : (s.setLatch src a x).regValue h = s.regValue h := by
  simp only [plainBlocks, List.mem_cons, List.not_mem_nil, or_false] at hb
  unfold State.regValue
  rcases hb with hb | hb | hb | hb | hb | hb <;> rw [hb] <;> rfl

end

/-- A mailbox buffer lies in the Tackroom's block. -/
theorem findBlk_of_inMbx {a : Nat} (h : inMbx a = true) : findBlk a = some (.tck, 0) := by
  unfold inMbx at h
  have hlow : Blk.tck.base 0 + 0x1000 ≤ a := of_decide_eq_true (Bool.and_eq_true_iff.1 h).1
  have hhigh : a < Blk.tck.base 0 + 0x3000 := of_decide_eq_true (Bool.and_eq_true_iff.1 h).2
  obtain ⟨o, ho, rfl⟩ : ∃ o, o < 0x10000 ∧ a = Blk.tck.base 0 + o := by
    generalize Blk.tck.base 0 = base at hlow hhigh
    exact ⟨a - base, by omega, by omega⟩
  exact findBlk_base_add (by decide) (by decide) ho

section
variable {s : State} {a : Nat} {h : RegHit} {win : Nat} (hplain : Plain s a h win)
include hplain

theorem Plain.placed : h.Placed := (regHit_some hplain.1).1

theorem Plain.inMbx : Machine.inMbx a = false := by
  obtain ⟨hhit, -, -, hblk, -⟩ := hplain
  by_contra hmbx
  rw [regHit, findBlk_of_inMbx (eq_true_of_ne_false hmbx)] at hhit
  obtain ⟨x, -, rfl⟩ := Option.map_eq_some_iff.1 hhit
  exact absurd (show Blk.tck ∈ plainBlocks from hblk) (by decide)

theorem Plain.exec_regWr {src : Source} {addr : Fin 68719476736} (haddr : addr.val = 0xF00000000 + a)
    (hahead : s.ctrlAhead (sourcePt src) (regPoint a) = false) (v : Word) (ok : Bool) :
    exec (.regWr src addr v ok) s = .next ((s.setLatch (srcNum src) a none).written h (.whole win v.toNat)) := by
  have hmbx := hplain.inMbx
  obtain ⟨hhit, hthere, halign, hblk, ho, hwin⟩ := hplain
  rw [Machine.exec_regWr haddr, State.regSend_now hahead, State.regWrite_hit hhit halign hmbx hthere, hwin,
    plain_regPerform hblk ho]

/-- What a direct write leaves. -/
theorem Plain.written_direct (src : Nat) (v : Word) :
    let t := (s.setLatch src a none).written h (.whole 0 v.toNat)
    (∀ f ∈ h.row.fields, t.fget (h.fld f) =
      if (f.acc = .rw ∧ f.sticky = false) ∨ (f.acc = .rwl ∧ s.rwlOpen h = true) then f.part v.toNat else s.fget (h.fld f)) ∧
    ((∃ f ∈ h.row.fields, f.acc = .rwl) → s.rwlOpen h = false →
      t.fget (F.BLK_STATUS_WRITE_IGNORED (h.blk.base h.i)) = 1 ∧
      t.fget (F.BLK_COUNT_IGNORED (h.blk.base h.i)) = min 0xFFFF (s.fget (F.BLK_COUNT_IGNORED (h.blk.base h.i)) + 1)) ∧
    (s.rwlOpen h = true ∨ (∀ f ∈ h.row.fields, f.acc ≠ .rwl) → ∀ n, n ≠ h.addr → t.reg n = s.reg n) ∧
    t = { s with regs := t.regs, time := { s.time with latch := t.time.latch } } := by
  have hp := hplain.placed
  obtain ⟨-, -, -, hblk, ho, -⟩ := hplain
  have hfield (f) (hf : f ∈ h.row.fields) := State.fget_written_direct (s := s.setLatch src a none) hp hblk ho v hf
  have hignored := State.written_ignored (s := s.setLatch src a none) (w := .whole 0 v.toNat) hp ho
  have hother := State.reg_written_open (s := s.setLatch src a none) (h := h) (w := .whole 0 v.toNat)
  have hframe := State.written_frame (s.setLatch src a none) h (.whole 0 v.toNat)
  simp only [State.rwlOpen_setLatch, State.fget_setLatch, State.reg_setLatch] at hfield hignored hother
  obtain ⟨latch, hlatch⟩ : ∃ latch, s.setLatch src a none = { s with time := { s.time with latch := latch } } := ⟨_, rfl⟩
  generalize (s.setLatch src a none).written h (.whole 0 v.toNat) = t at *
  refine ⟨hfield, fun ⟨f, hf, hacc⟩ hopen => hignored hopen ⟨f, hf, hacc, ?_⟩, fun hopen n hn => hother hopen hn, ?_⟩
  · obtain ⟨hwidth, htop, -⟩ := hp.holds hf
    exact RegWr.touches_direct hwidth htop v.toNat
  · rw [hlatch] at hframe
    generalize t.regs = regs at hframe
    subst hframe
    rfl

/-- What a write through another window leaves in a field. -/
theorem Plain.fget_written_window (src : Nat) (hlow : 1 ≤ win) (hhigh : win ≤ 3) (v : Nat) {f : FieldRow} (hf : f ∈ h.row.fields) :
    ((s.setLatch src a none).written h (.whole win v)).fget (h.fld f) =
      if f.part v = 0 ∨ f.acc = .ro ∨ f.acc = .wo ∨ (f.acc = .rwl ∧ s.rwlOpen h = false) then s.fget (h.fld f)
      else if f.sticky then (if win = 2 then 0 else s.fget (h.fld f))
      else if win = 1 then f.part (s.regValue h) ||| f.part v
      else if win = 2 then f.part (s.regValue h) - (f.part (s.regValue h) &&& f.part v)
      else f.part (s.regValue h) ^^^ f.part v := by
  have hp := hplain.placed
  obtain ⟨-, -, -, hblk, ho, -⟩ := hplain
  rw [State.fget_written_window hp hblk ho hlow hhigh v hf, State.rwlOpen_setLatch, State.fget_setLatch,
    State.regValue_setLatch _ _ _ _ hblk]

end

/-! ### Accesses by a host port or the Tackroom (R441, R442, R445) -/

section
variable {src : Source} {fn : Fin 9} {low : Fin 4294967296} {len : Fin 4097} {ide ok : Bool} {v : Word} {s : State}

theorem registerWrite_refused (h : s.srcUp src = false ∨ s.srcDenied src ide = true) :
    exec (.registerWrite src fn low len ide v ok) s = .next s :=
  congrArg Host.Outcome.next (if_pos (by simpa using h))

variable (hup : s.srcUp src = true) (hdenied : s.srcDenied src ide = false)
include hup hdenied

theorem registerWrite_sends (hfn : src = .tackroom ∨ fn.val = 0) :
    exec (.registerWrite src fn low len ide v ok) s = .next (s.regSend src low len v ok) := by
  have hphys : ¬(srcNum src < 2 ∧ fn.val ≠ 0) := by
    rcases hfn with rfl | hfn
    · exact fun h => absurd h.1 (by decide)
    · exact fun h => h.2 hfn
  exact congrArg Host.Outcome.next ((if_neg (by simp [hup, hdenied])).trans (if_neg hphys))

theorem registerWrite_virtual (hsrc : src ≠ .tackroom) (hfn : fn.val ≠ 0) (hmsix : low.val % 65536 / 16 ≠ 0x100)
    (hring : low.val % 65536 / 8 ≠ 0x300) : exec (.registerWrite src fn low len ide v ok) s =
      .next (s.unmapped (srcNum src) true (Blk.base .hst (srcNum src) + 0x30)) := by
  have hvirtual : srcNum src < 2 ∧ fn.val ≠ 0 := ⟨by cases src <;> simp_all [srcNum], hfn⟩
  exact congrArg Host.Outcome.next ((if_neg (by simp [hup, hdenied])).trans
    ((if_pos hvirtual).trans (if_neg (by simp [hmsix, hring]))))

end

/-- Settles O56: a write of a plain register leaves the device on which the written fields hold what their window forms. -/
theorem registerWritesObeyTheirFields : Obligations.RegisterWritesObeyTheirFields := by
  unfold Obligations.RegisterWritesObeyTheirFields
  intro src addr a v ok s haddr w part
  refine ⟨?ahead, ?direct, ?window, ?unmapped, fun n wr x b i hx => s.fget_unmapped n wr hx, ?host⟩
  case ahead =>
    intro hahead _
    rw [exec_regWr haddr, State.regSend, if_pos hahead]
  case direct =>
    exact fun h hahead hplain => ⟨_, hplain.exec_regWr haddr hahead v ok, hplain.written_direct _ v⟩
  case window =>
    exact fun h win hahead hplain hlow hhigh =>
      ⟨_, hplain.exec_regWr haddr hahead v ok, fun f hf => hplain.fget_written_window _ hlow hhigh v.toNat hf⟩
  case unmapped =>
    intro hahead hnone _ hmbx
    rw [exec_regWr haddr, State.regSend_now hahead, State.regWrite_unmapped]
    rcases hnone with hnone | halign
    · exact .inr ⟨hmbx, hnone⟩
    · exact .inl (by simp [regAligned, halign])
  case host =>
    intro fn low len ide hlow
    subst hlow
    refine ⟨registerWrite_refused, fun hup hdenied hfn => ⟨fun hlen => ?_, fun hahead hlen => ?_⟩, registerWrite_virtual⟩
    · rw [registerWrite_sends hup hdenied hfn, exec_regWr haddr, hlen]
    · rw [registerWrite_sends hup hdenied hfn, State.regSend_now hahead, State.regWrite_unmapped (.inl (by simp [regAligned, hlen]))]

end Sys2Proof.Machine

/-! SUPPORT. What halts and packets leave alone: the records of the yoke unit, why a job is suspended, and every register that is none
of the few that a halt writes. -/

namespace Sys2Proof.Machine

/-! ### Registers that the halt of a job does not write -/

/-- The halt of job `j`, and a packet of the job, write other registers than the one at `a`: the count of escalations, the holds and the
starved periods, the ring of the job, and its state and counts (R306, R374, R417). -/
structure HaltFree (a j : Nat) : Prop where
  escalated : a ≠ R.ERR_COUNT
  hold : ∀ r < 29, a ≠ R.PCR_HOLD r
  starve : ∀ b, ∀ k < 48, a ≠ R.STL_STARVE b k
  dma : ∀ p, a ≠ R.HST_DMA_OUT p
  cpl : ∀ p, a ≠ R.HST_CTX_CPL p j
  count : a ≠ R.SRV_JOB_COUNT j
  state : a ≠ R.SRV_JOB_STATE j

/-- No halt writes the registers that every block has. -/
theorem haltFree_common {b : Blk} {i o j : Nat} (ho : o < 0x100) (hj : j < 8 ∨ b.base i < 0x2000000) : HaltFree (b.base i + o) j := by
  have hbase := b.base_mod i
  generalize b.base i = base at hj hbase
  constructor
  · simp only [R.ERR_COUNT]; omega
  · intro r hr; simp only [R.PCR_HOLD]; omega
  · intro b k hk; simp only [R.STL_STARVE]; omega
  · intro p; simp only [R.HST_DMA_OUT]; omega
  · intro p; simp only [R.HST_CTX_CPL]; omega
  · simp only [R.SRV_JOB_COUNT]; omega
  · simp only [R.SRV_JOB_STATE]; omega

/-- No halt writes the state of a yoked job. -/
theorem haltFree_yokJobState {i j : Nat} (hi : i < 8) (hj : j < 8) : HaltFree (R.YOK_JOB_STATE i) j := by
  constructor
  · simp only [R.ERR_COUNT, R.YOK_JOB_STATE]; omega
  · intro r hr; simp only [R.PCR_HOLD, R.YOK_JOB_STATE]; omega
  · intro b k hk; simp only [R.STL_STARVE, R.YOK_JOB_STATE]; omega
  · intro p; simp only [R.HST_DMA_OUT, R.YOK_JOB_STATE]; omega
  · intro p; simp only [R.HST_CTX_CPL, R.YOK_JOB_STATE]; omega
  · simp only [R.SRV_JOB_COUNT, R.YOK_JOB_STATE]; omega
  · simp only [R.SRV_JOB_STATE, R.YOK_JOB_STATE]; omega

/-! ### What is spared -/

/-- The register at `a`, the records of the yoke unit, and why each job is suspended. -/
def State.spared (a : Nat) (s : State) : Nat × YokSt × (Nat → Nat) := (s.reg a, s.yok, fun j => (s.srvJob j).reason)

section
variable {s t : State} {a : Nat} (h : t.spared a = s.spared a)
include h

theorem State.reg_of_spared : t.reg a = s.reg a := congrArg Prod.fst h

theorem State.fget_of_spared {lo w : Nat} : t.fget ⟨a, lo, w⟩ = s.fget ⟨a, lo, w⟩ := by
  simp only [State.fget, State.reg_of_spared h]

theorem State.yok_of_spared : t.yok = s.yok := congrArg (fun x : Nat × YokSt × (Nat → Nat) => x.2.1) h

theorem State.reason_of_spared (j : Nat) : (t.srvJob j).reason = (s.srvJob j).reason :=
  congrFun (congrArg (fun x : Nat × YokSt × (Nat → Nat) => x.2.2) h) j

end

@[simp] theorem State.spared_ite {a : Nat} (c : Prop) [Decidable c] (s t : State) :
    (if c then s else t).spared a = if c then s.spared a else t.spared a := apply_ite (State.spared a) c s t

theorem State.spared_foldl {α : Type} {a : Nat} {f : State → α → State} (l : List α)
    (hf : ∀ t, ∀ x ∈ l, (f t x).spared a = t.spared a) (s : State) : (l.foldl f s).spared a = s.spared a :=
  foldl_keeps (P := fun t : State => t.spared a = s.spared a) l rfl fun t x hx ht => (hf t x hx).trans ht

section
variable {a : Nat} (s : State)

theorem State.spared_setReg {b : Nat} (v : Nat) (h : a ≠ b) : (s.setReg b v).spared a = s.spared a :=
  Prod.ext (s.reg_setReg_other v h) rfl

theorem State.spared_fset {f : Fld} (v : Nat) (h : a ≠ f.addr) : (s.fset f v).spared a = s.spared a := s.spared_setReg _ h

@[simp] theorem State.spared_send (o : Out) : (s.send o).spared a = s.spared a := (rfl)
@[simp] theorem State.spared_updRegion (r : Nat) (f : Region → Region) : (s.updRegion r f).spared a = s.spared a := (rfl)
@[simp] theorem State.spared_updStall (i : Nat) (f : Stall → Stall) : (s.updStall i f).spared a = s.spared a := (rfl)
@[simp] theorem State.spared_updLoft (n : Nat) (f : Loft → Loft) : (s.updLoft n f).spared a = s.spared a := (rfl)
@[simp] theorem State.spared_updJob (j : Nat) (f : Job → Job) : (s.updJob j f).spared a = s.spared a := (rfl)
@[simp] theorem State.spared_updHst (p : Nat) (f : HostSt → HostSt) : (s.updHst p f).spared a = s.spared a := (rfl)
@[simp] theorem State.spared_updCtr (k : Nat) (f : Counter → Counter) : (s.updCtr k f).spared a = s.spared a := (rfl)

theorem State.spared_handOver (j : Nat) (dest : FDest) (edge : Nat) (h : FabHdr) (lines : List Line) (plan : Option Nat) :
    (s.handOver j dest edge h lines plan).spared a = s.spared a := (rfl)

/-- A change of a job's serving record that keeps why it is suspended. -/
theorem State.spared_updSrv (j : Nat) {f : SrvJob → SrvJob} (hf : ∀ q, (f q).reason = q.reason) :
    (s.updSrv j f).spared a = s.spared a := by
  refine Prod.ext rfl (Prod.ext rfl (funext fun k => ?_))
  change (Tab.get _ (Tab.upd _ s.srv j f) k).reason = (Tab.get _ s.srv k).reason
  by_cases hk : k = j
  · rw [hk, Tab.get_upd_same, hf]
  · rw [Tab.get_upd_other _ _ hk]

theorem State.spared_raiseRec (e : Err) (h : a ≠ R.ERR_COUNT) : (s.raiseRec e).spared a = s.spared a := by
  have hesc : (s.fsat F.ERR_COUNT_ESCALATED 1).spared a = s.spared a := s.spared_fset _ h
  simp only [State.raiseRec]
  rw [State.sendRec_frame]
  split
  · exact hesc
  · rfl

variable {j : Nat} (hfree : HaltFree a j)
include hfree

theorem State.spared_clearCausesAll (p : HoldCause → Bool) : (s.clearCausesAll p).spared a = s.spared a := by
  have hcount (t : State) (c : HoldCause) : (t.countStarved c).spared a = t.spared a := by
    rw [State.countStarved, State.spared_ite]
    exact ite_eq_right_iff.2 fun _ => t.spared_fset _ (hfree.starve _ _ (Nat.mod_lt _ (by decide)))
  have hshow (t : State) {r : Nat} (hr : r < 29) : (t.showHold r).spared a = t.spared a := by
    have hr := hfree.hold r hr
    simp only [State.showHold, State.fsetB]
    rw [State.spared_fset _ _ hr, State.spared_fset _ _ hr, State.spared_fset _ _ hr]
  refine State.spared_foldl _ (fun t r hr => ?_) s
  rw [State.spared_ite, State.clearCauses, hshow _ (List.mem_range.1 hr), State.spared_foldl _ fun t c _ => hcount t c]
  simp

theorem State.spared_hostWrite (p x : Nat) (bs : List Byte) : (s.hostWrite p x bs).spared a = s.spared a := by
  rw [State.hostWrite, State.spared_ite, State.spared_setReg _ _ (hfree.dma p), State.spared_send, ite_self]

omit hfree in
@[simp] theorem State.spared_fireVec (p fn v : Nat) : (s.fireVec p fn v).spared a = s.spared a := by
  simp only [State.fireVec, State.spared_ite, State.spared_updHst, State.spared_send, ite_self]

theorem State.spared_flushCpl : (s.flushCpl j).spared a = s.spared a := by
  have hwrite (t : State) (r : Ring) (c : CplRec) : (t.writeCpl r c).spared a = t.spared a := by
    rw [State.writeCpl, State.spared_hostWrite _ hfree]
    split
    · exact t.spared_hostWrite hfree ..
    · rfl
  have hfset (t : State) (p v : Nat) : (t.fset (F.HST_CTX_CPL_PRODUCER p j) v).spared a = t.spared a := t.spared_fset v (hfree.cpl p)
  have hsent (t : State) (n : Nat) : (t.updSrv j (fun q => { q with cplSent := n })).spared a = t.spared a :=
    t.spared_updSrv j fun _ => rfl
  simp only [State.flushCpl, State.spared_ite, State.spared_fireVec, hfset, State.spared_hostWrite _ hfree, hsent]
  rw [State.spared_foldl _ fun t c _ => hwrite t _ c, ite_self, ite_self]

theorem State.spared_pushCpl (c : CplRec) : (s.pushCpl j c).spared a = s.spared a := by
  rw [State.pushCpl, State.spared_flushCpl _ hfree]
  exact s.spared_updSrv j fun _ => rfl

theorem State.spared_tryOriginate (k : Nat) (dest : FDest) (h : FabHdr) (lines : List Line) (plan : Option Nat) :
    (s.tryOriginate k dest h lines plan).1.spared a = s.spared a := by
  simp only [State.tryOriginate]
  split
  · rfl
  · split
    · exact s.spared_raiseRec _ hfree.escalated
    · exact s.spared_handOver ..

theorem State.spared_haltControl (k : Nat) (dest : FDest) (sub : Nat) (body : List Byte) :
    (s.haltControl k dest sub body).spared a = s.spared a := s.spared_tryOriginate hfree ..

theorem State.spared_headHalt (code : Nat) : (s.headHalt j code).spared a = s.spared a := by
  have hcount (t : State) : (t.fset (F.SRV_JOB_COUNT_SEQS j) 0).spared a = t.spared a := t.spared_fset _ hfree.count
  have hstate (t : State) : (t.fset (F.SRV_JOB_STATE_IN_FLIGHT j) 0).spared a = t.spared a := t.spared_fset _ hfree.state
  have hdead (t : State) : (t.updSrv j (fun q => { q with dead := true, ents := [], flight := [] })).spared a = t.spared a :=
    t.spared_updSrv j fun _ => rfl
  rw [State.headHalt, State.spared_ite, hstate, hcount, hdead,
    State.spared_foldl _ fun t e _ => t.spared_pushCpl hfree _, State.spared_foldl _ fun t d _ => t.spared_haltControl hfree ..,
    ite_self]

theorem State.spared_haltNow (code : Nat) : (s.haltNow j code).spared a = s.spared a := by
  have hstalls : (s.haltStalls j).spared a = s.spared a := by
    rw [State.haltStalls, State.spared_clearCausesAll _ hfree,
      State.spared_foldl _ fun t n _ => by rw [State.spared_ite, State.spared_updLoft, ite_self],
      State.spared_foldl _ fun t i _ => t.spared_updStall .., State.spared_updJob]
  have hset (t : State) : (t.fset (F.SRV_JOB_STATE_STATE j) 3).spared a = t.spared a := t.spared_fset _ hfree.state
  simp only [State.haltNow, State.haltSends, State.spared_ite, State.spared_headHalt _ hfree, State.spared_haltControl _ hfree,
    hset, hstalls, ite_self]

theorem State.spared_haltBoundary (code r : Nat) : (s.haltBoundary j code r).spared a = s.spared a := by
  simp only [State.haltBoundary]
  split
  · split
    · exact s.spared_haltNow hfree code
    · rw [State.spared_ite, State.spared_updJob, ite_self]
  · rfl

theorem State.spared_originate (dest : FDest) (h : FabHdr) (lines : List Line) : (s.originate j dest h lines).spared a = s.spared a := by
  rw [State.originate, State.spared_ite, State.spared_haltNow _ hfree, State.spared_tryOriginate _ hfree, ite_self]

theorem State.spared_sendControl (dest : FDest) (sub : Nat) (body : List Byte) (plan : Option Nat) :
    (s.sendControl j dest sub body plan).spared a = s.spared a := by
  rw [State.sendControl, State.spared_ite, State.spared_haltNow _ hfree, State.tryControl, State.spared_tryOriginate _ hfree, ite_self]

theorem State.spared_controlPeers (sub : Nat) (body : List Byte) (plan : Option Nat) :
    (s.controlPeers j sub body plan).spared a = s.spared a :=
  State.spared_foldl _ (fun t _ _ => t.spared_sendControl hfree ..) s

end

/-- An error whose class does not escalate and that halts its jobs at their boundaries spares what those halts spare. -/
theorem State.spared_raise_boundary {a : Nat} (s : State) {e : Err} (hclass : codeClass e.code = 0) (hsev : codeSev e.code = sevContained)
    (heffect : codeEffect e.code = .boundary) (hfree : ∀ j ∈ e.halts ++ e.job.toList, HaltFree a j) (ha : a ≠ R.ERR_COUNT) :
    (s.raise e).spared a = s.spared a := by
  rw [State.raise, State.sevOf_of_class hclass, State.escalates_of_class hclass, hsev, heffect]
  exact (State.spared_foldl _ (fun t j hj => t.spared_haltBoundary (hfree j hj) _ _) _).trans (s.spared_raiseRec e ha)

end Sys2Proof.Machine

/-! OBLIGATION O57. Enabling blocks. -/

namespace Sys2Proof.Machine

/-! ### The registers that every block has (R451, R453) -/

theorem Blk.control_rows : ∀ b ∈ Blk.all,
    (∃ r ∈ b.rows, r.off = 0x8 ∧ r.n1 = 1 ∧ r.s1 = 8 ∧ 0 < r.n2 ∧ ∃ f ∈ r.fields, f.lo = 0 ∧ f.width = 1) ∧
    (∃ r ∈ b.rows, r.off = 0x10 ∧ r.n1 = 1 ∧ r.s1 = 8 ∧ 0 < r.n2 ∧ ∃ f ∈ r.fields, f.lo = 1 ∧ f.width = 1) ∧
    (∃ r ∈ b.rows, r.off = 0x10 ∧ r.n1 = 1 ∧ r.s1 = 8 ∧ 0 < r.n2 ∧ ∃ f ∈ r.fields, f.lo = 2 ∧ f.width = 1) := by
  decide +kernel

section
variable {b : Blk} (hb : b ∈ Blk.all) {i : Nat} (hi : i < b.count)
include hb hi

theorem listed_enable : (F.BLK_CTRL_ENABLE (b.base i)).Listed :=
  Fld.listed_of_row b i 0x8 1 8 0 hi (by decide) (Blk.control_rows b hb).1 rfl

theorem listed_enableRefused : (F.BLK_STATUS_ENABLE_REFUSED (b.base i)).Listed :=
  Fld.listed_of_row b i 0x10 1 8 0 hi (by decide) (Blk.control_rows b hb).2.1 rfl

theorem listed_crcFault : (F.BLK_STATUS_CRC_FAULT (b.base i)).Listed :=
  Fld.listed_of_row b i 0x10 1 8 0 hi (by decide) (Blk.control_rows b hb).2.2 rfl

theorem State.enabled_fset (s : State) (v : Nat) : (s.fset (F.BLK_CTRL_ENABLE (b.base i)) v).enabled (b.base i) = decide (v % 2 ≠ 0) := by
  rw [State.enabled, State.fbit, State.fget_fset_same _ _ (listed_enable hb hi)]
  rfl

end

theorem blkCtrl_ne (base : Nat) : R.BLK_CTRL base ≠ R.BLK_STATUS base ∧ R.BLK_CTRL base ≠ R.BLK_COUNT base ∧
    R.BLK_STATUS base ≠ R.BLK_COUNT base := by
  simp only [R.BLK_CTRL, R.BLK_STATUS, R.BLK_COUNT]
  omega

/-! ### Ports that wait to start (R220, R221) -/

/-- Ports that start change their states, and Larkspur may note it. -/
theorem State.reg_startHeld (s : State) {a : Nat} (hport : ∀ p, a ≠ R.LNK_PORT_STATE (p / 8) (p % 8)) (hlsp : a ≠ R.TCK_LSP_STAT) :
    s.startHeld.reg a = s.reg a := by
  refine foldl_keeps (P := fun t : State => t.reg a = s.reg a) _ rfl fun t p _ ht => ?_
  unfold State.tryStart
  split
  · rw [State.enterDetect, State.reg_setPort _ _ (hport p) hlsp]
    exact ht
  · exact ht

/-! ### BLK_ENABLE (R451, R453) -/

section
variable {b : Blk} (hb : b ∈ Blk.all) {i : Nat} (hi : i < b.count) {s : State}
include hb hi

/-- Enabling a block whose CRC is its reference. -/
theorem State.blkEnable_enabled (hcrc : s.cfgCrc b i = s.cfgRefOf b i) : (s.blkEnable b i true).enabled (b.base i) = true ∧
    (b ≠ .lnk → s.blkEnable b i true = s.fset (F.BLK_CTRL_ENABLE (b.base i)) 1) := by
  have hset := s.enabled_fset hb hi 1
  simp only [State.blkEnable, Bool.not_true, Bool.false_eq_true, if_false, if_pos hcrc]
  refine ⟨?_, fun hlnk => if_neg hlnk⟩
  split
  next hlnk =>
    subst hlnk
    have hport (p : Nat) : R.BLK_CTRL (Blk.lnk.base i) ≠ R.LNK_PORT_STATE (p / 8) (p % 8) := by
      have hbase := Blk.lnk.base_mod i
      simp only [R.BLK_CTRL, R.LNK_PORT_STATE]
      omega
    have hlsp : R.BLK_CTRL (Blk.lnk.base i) ≠ R.TCK_LSP_STAT := by
      have hbase := Blk.lnk.base_mod i
      simp only [R.BLK_CTRL, R.TCK_LSP_STAT]
      omega
    rw [State.enabled, State.fbit, State.fget, F.BLK_CTRL_ENABLE, State.reg_startHeld _ hport hlsp]
    exact hset
  next => exact hset

omit hb hi in
theorem State.blkEnable_refused (hcrc : s.cfgCrc b i ≠ s.cfgRefOf b i) :
    s.blkEnable b i true = s.fset (F.BLK_STATUS_ENABLE_REFUSED (b.base i)) 1 := by
  simp only [State.blkEnable, Bool.not_true, Bool.false_eq_true, if_false, if_neg hcrc]

end

/-! ### CFG_CRC_CHECK (R453) -/

/-- The device before the error: the block disabled, and the fault shown and counted. -/
def State.crcFaulted (s : State) (b : Blk) (i : Nat) : State :=
  ((s.fset (F.BLK_CTRL_ENABLE (b.base i)) 0).fset (F.BLK_STATUS_CRC_FAULT (b.base i)) 1).fsat (F.BLK_COUNT_CRC_FAULTS (b.base i)) 1

/-- The error of a block whose CRC differs. -/
def State.crcErr (s : State) (b : Blk) (i : Nat) : Err :=
  { code := 0x0C01, blk := b.unit i, job := if b.count = 24 then ((s.crcFaulted b i).barn i).owner else none
    detail := (s.crcFaulted b i).cfgCrc b i % 2 ^ 32 * 2 ^ 32 + b.base i / 0x10000 % 65536 * 2 ^ 16 + b.type * 256 + i
    halts := (s.crcFaulted b i).crcHalts b i }

/-- Blocks of the barns lie below those of the hub (R456). -/
theorem Blk.base_barn {b : Blk} (hcount : b.count = 24) {i : Nat} (hi : i < b.count) : b.base i < 0x2000000 := by
  cases b <;> simp only [Blk.count, Blk.base, Blk.base0, Blk.stride] at hcount hi ⊢ <;> omega

section
variable {b : Blk} (hb : b ∈ Blk.all) {i : Nat} (hi : i < b.count) (s : State)

/-- A block of a barn halts the barn's owner, another block the jobs 0 to 7: none of them writes a register that every block has. -/
theorem State.haltFree_crcErr {o : Nat} (hi : i < b.count) (ho : o < 0x100) :
    ∀ j ∈ (s.crcErr b i).halts ++ (s.crcErr b i).job.toList, HaltFree (b.base i + o) j := by
  intro j hj
  by_cases hcount : b.count = 24
  · exact haltFree_common ho (.inr (Blk.base_barn hcount hi))
  · simp only [State.crcErr, State.crcHalts, if_neg hcount, Option.toList_none, List.append_nil, List.mem_range] at hj
    exact haltFree_common ho (.inl hj)

include hi in
theorem State.fget_raise_crcErr {o : Nat} (ho : o < 0x100) (lo w : Nat) :
    ((s.crcFaulted b i).raise (s.crcErr b i)).fget ⟨b.base i + o, lo, w⟩ = (s.crcFaulted b i).fget ⟨b.base i + o, lo, w⟩ := by
  refine State.fget_of_spared (State.spared_raise_boundary _ ?_ ?_ ?_ (s.haltFree_crcErr hi ho) ?_)
  · exact (by decide : codeClass 0x0C01 = 0)
  · exact (by decide : codeSev 0x0C01 = sevContained)
  · exact (by decide : codeEffect 0x0C01 = .boundary)
  · have hbase := b.base_mod i
    simp only [R.ERR_COUNT]
    omega

include hb hi

theorem State.crcFaulted_raised :
    let t := (s.crcFaulted b i).raise (s.crcErr b i)
    t.enabled (b.base i) = false ∧ t.fget (F.BLK_STATUS_CRC_FAULT (b.base i)) = 1 ∧ Raises s t 0x0C01 2 := by
  obtain ⟨hctrl, hcount, hstatus⟩ := blkCtrl_ne (b.base i)
  have henable : (s.crcFaulted b i).enabled (b.base i) = false := by
    rw [State.enabled, State.fbit, State.crcFaulted, State.fsat, State.fget_fset_other _ _ hcount, State.fget_fset_other _ _ hctrl]
    exact s.enabled_fset hb hi 0
  have hfault : (s.crcFaulted b i).fget (F.BLK_STATUS_CRC_FAULT (b.base i)) = 1 := by
    rw [State.crcFaulted, State.fsat, State.fget_fset_other _ _ hstatus]
    exact State.fget_fset_same _ _ (listed_crcFault hb hi)
  obtain ⟨more, hflight⟩ := (s.crcFaulted b i).recordOf_in_flight (s.crcErr b i)
  have hsev : (s.crcFaulted b i).sevOf (s.crcErr b i) = 2 := State.sevOf_of_class (by exact (by decide : codeClass 0x0C01 = 0))
  refine ⟨?_, (s.fget_raise_crcErr hi (o := 0x10) (by decide) 2 1).trans hfault, _, more, hflight, rfl, hsev⟩
  rw [State.enabled, State.fbit, F.BLK_CTRL_ENABLE, R.BLK_CTRL, s.fget_raise_crcErr hi (by decide)]
  exact henable

end

/-- Settles O57: a write of ENABLE, and the check of the CRC, each by the comparison of the CRC with its reference. -/
theorem blocksAreEnabled : Obligations.BlocksAreEnabled := by
  unfold Obligations.BlocksAreEnabled
  intro blk i s b base
  have hb : b ∈ Blk.all := by revert blk; decide
  have hin (hi : i.val < b.count) (on : Bool) : exec (.blkEnable blk i on) s = .next (s.blkEnable b i on) :=
    congrArg Host.Outcome.next (if_pos hi)
  have hcheck (hi : i.val < b.count) : exec (.cfgCrcCheck blk i none) s = .next (
      if s.enabled base = true ∧ s.cfgCrc b i ≠ s.cfgRefOf b i then (s.crcFaulted b i).raise (s.crcErr b i) else s) :=
    congrArg Host.Outcome.next (if_neg (Nat.not_le.2 hi))
  refine ⟨fun hi => ⟨?disable, ?enable, ?refuse, ?same, ?fault, ?commit⟩, ?absent⟩
  case disable =>
    exact ⟨_, hin hi false, s.enabled_fset hb hi 0, rfl, fun a ha => State.reg_fset_other _ _ ha⟩
  case enable =>
    intro hcrc
    obtain ⟨henabled, hother⟩ := State.blkEnable_enabled hb hi hcrc
    refine ⟨_, hin hi true, henabled, fun hlnk => ?_⟩
    rw [hother hlnk]
    exact ⟨rfl, fun a ha => State.reg_fset_other _ _ ha⟩
  case refuse =>
    intro hcrc
    have hexec := hin hi true
    rw [State.blkEnable_refused hcrc] at hexec
    refine ⟨_, hexec, ?_, State.fget_fset_same _ _ (listed_enableRefused hb hi), rfl, fun a ha => State.reg_fset_other _ _ ha⟩
    rw [State.enabled, State.fbit, State.fget_fset_other _ _ (blkCtrl_ne base).1]
    rfl
  case same =>
    intro h
    rw [hcheck hi, if_neg]
    rintro ⟨hon, hne⟩
    rcases h with hoff | hcrc
    · exact Bool.false_ne_true (hoff.symm.trans hon)
    · exact hne hcrc
  case fault =>
    intro hon hne
    have hexec := hcheck hi
    rw [if_pos ⟨hon, hne⟩] at hexec
    exact ⟨_, hexec, s.crcFaulted_raised hb hi⟩
  case commit =>
    rw [State.cfgRefOf, State.commitRef, State.setCfgRef, Tab.get_set_same]
    rfl
  case absent =>
    exact fun hcount on flip => ⟨congrArg Host.Outcome.next (if_neg (Nat.not_lt.2 hcount)), congrArg Host.Outcome.next (if_pos hcount)⟩

end Sys2Proof.Machine

/-! OBLIGATION O43. The yoke. -/

namespace Sys2Proof.Machine

/-! ### The registers of the yoke unit (R334) -/

theorem listed_yokEnable : F.YOK_CFG_ENABLE.Listed :=
  Fld.listed_of_row .yok 0 0x100 1 8 0 (by decide) (by decide) (by decide) rfl

theorem listed_yokState : F.YOK_STATE_STATE.Listed :=
  Fld.listed_of_row .yok 0 0x108 1 8 0 (by decide) (by decide) (by decide) rfl

theorem listed_linkHb : F.YOK_STATE_LINK_HB.Listed :=
  Fld.listed_of_row .yok 0 0x108 1 8 0 (by decide) (by decide) (by decide) rfl

theorem listed_pinHb : F.YOK_STATE_PIN_HB.Listed :=
  Fld.listed_of_row .yok 0 0x108 1 8 0 (by decide) (by decide) (by decide) rfl

theorem listed_reyokePasses : F.YOK_REYOKE_PASSES.Listed :=
  Fld.listed_of_row .yok 0 0x110 1 8 0 (by decide) (by decide) (by decide) rfl

theorem listed_jobYoke {j : Nat} (hj : j < 8) : (F.YOK_JOB_STATE_STATE j).Listed :=
  Fld.listed_of_row .yok 0 0x2C0 8 8 j (by decide) hj (by decide) (by simp only [R.YOK_JOB_STATE, Blk.base, Blk.base0, Blk.stride])

section
variable (s : State)

theorem State.fbit_of_one {s : State} {g : Fld} (h : s.fget g = 1) : s.fbit g = true := decide_eq_true (h.trans_ne (by decide))

theorem State.yokState_setYokState {v : Nat} (hv : v < 8) : (s.setYokState v).yokState = v :=
  (s.fget_fset_same v listed_yokState).trans (Nat.mod_eq_of_lt hv)

/-- Setting one field of YOK_STATE keeps the others. -/
theorem State.fget_yokState_apart {f g : Fld} (v : Nat) (hg : g.Listed) (hf : 0 < f.width)
    (h : g.lo + g.width ≤ f.lo ∨ f.lo + f.width ≤ g.lo) : (s.fset f v).fget g = s.fget g :=
  s.fget_fset_apart v hg (.inr ⟨hf, h⟩)

theorem State.jobYoke_setJobYoke {j v : Nat} (hj : j < 8) (hv : v < 16) : (s.setJobYoke j v).jobYoke j = v :=
  (s.fget_fset_same v (listed_jobYoke hj)).trans (Nat.mod_eq_of_lt hv)

/-- An error that is absorbed leaves registers, the yoke unit and the jobs alone (R411). -/
theorem State.raise_mild {e : Err} (hclass : codeClass e.code = 0) (hsev : codeSev e.code < 2) : ∃ recov ctrl n, s.raise e = { s with
    err := { s.err with flight := s.err.flight ++ [s.recordOf e], recov := recov }
    mesh := { s.mesh with ctrl := ctrl, nextPkt := n } } := by
  rw [State.raise_of_mild hclass hsev]
  exact State.raiseRec_mild hclass

theorem State.yokedJobs_congr {s t : State} (hregs : t.regs = s.regs) (hjobs : t.jobs = s.jobs) : t.yokedJobs = s.yokedJobs := by
  have hfget (g : Fld) : t.fget g = s.fget g := by simp only [State.fget, State.reg, hregs]
  have hyoked (j : Nat) : t.yoked j = s.yoked j := by
    rw [State.yoked, State.fbit, hfget]
    rfl
  have hjob (j : Nat) : t.job j = s.job j := by simp only [State.job, hjobs]
  simp only [State.yokedJobs, hyoked, hjob]

theorem State.yokedJobs_setYokState (v : Nat) : (s.setYokState v).yokedJobs = s.yokedJobs := by
  have hyoked (j : Nat) : (s.setYokState v).yoked j = s.yoked j := by
    have hne : R.YOK_JOB_CFG j ≠ R.YOK_STATE := by simp only [R.YOK_JOB_CFG, R.YOK_STATE]; omega
    rw [State.yoked, State.fbit, State.setYokState, State.fget_fset_other _ _ hne]
    rfl
  have hjob (j : Nat) : (s.setYokState v).job j = s.job j := rfl
  simp only [State.yokedJobs, hyoked, hjob]

end

/-! ### Forming (R334, R450) -/

section
variable {s : State}

theorem yokeEnable_enables (hblk : s.enabled (Blk.base .yok 0) = false) (henable : s.fbit F.YOK_CFG_ENABLE = false) :
    Runs .yokeEnable s (fun t => t.fbit F.YOK_CFG_ENABLE = true ∧ t.yokState = 1 ∧
      t.yok = { s.yok with enabledAt := s.refNs, formRaised := false } ∧ t = { s with regs := t.regs, yok := t.yok }) := by
  have hexec : exec .yokeEnable s = .next (((s.fset F.YOK_CFG_ENABLE 1).setYokState 1).updYoke (fun y =>
      { y with enabledAt := s.refNs, formRaised := false })) :=
    congrArg Host.Outcome.next ((if_neg (ne_true_of_eq_false hblk)).trans (if_neg (ne_true_of_eq_false henable)))
  have hset : ((s.fset F.YOK_CFG_ENABLE 1).setYokState 1).fget F.YOK_CFG_ENABLE = 1 :=
    (State.fget_fset_other _ _ (by decide)).trans (s.fget_fset_same 1 listed_yokEnable)
  have hstate : ((s.fset F.YOK_CFG_ENABLE 1).setYokState 1).yokState = 1 := State.yokState_setYokState _ (by decide)
  obtain ⟨regs, hregs⟩ : ∃ regs, (s.fset F.YOK_CFG_ENABLE 1).setYokState 1 = { s with regs := regs } := ⟨_, rfl⟩
  rw [hregs] at hexec hset hstate
  exact ⟨_, hexec, State.fbit_of_one hset, hstate, rfl, rfl⟩

theorem yokeEnable_ignored (hblk : s.enabled (Blk.base .yok 0) = true) : Runs .yokeEnable s (fun t =>
    t.fget (F.BLK_STATUS_WRITE_IGNORED (Blk.base .yok 0)) = 1 ∧
    t.fget (F.BLK_COUNT_IGNORED (Blk.base .yok 0)) = min 0xFFFF (s.fget (F.BLK_COUNT_IGNORED (Blk.base .yok 0)) + 1) ∧
    t = { s with regs := t.regs }) := by
  refine ⟨_, congrArg Host.Outcome.next (if_pos hblk), ?_, ?_, rfl⟩
  · exact (State.fget_fset_other _ _ (by decide)).trans (s.fget_fset_same 1 (listed_writeIgnored (by decide) (by decide)))
  · rw [State.fget_fsat_same _ (listed_countIgnored (by decide) (by decide)) rfl, State.fget_fset_other _ _ (by decide)]

theorem yokeFormed_forms (hstate : s.yokState = 1) (hform : s.yokeMayForm = true) :
    Runs .yokeFormed s (fun t => t.yokState = 2 ∧ t = { s with regs := t.regs }) :=
  ⟨_, congrArg Host.Outcome.next (if_pos (by simp [hstate, hform])), s.yokState_setYokState (by decide), rfl⟩

theorem yokeFormed_waits (hform : s.yokeMayForm = false) : exec .yokeFormed s = .next s :=
  congrArg Host.Outcome.next (if_neg (by simp [hform]))

theorem yokeFormTimeout_raises (hstate : s.yokState = 1) (hform : s.yokeMayForm = false) (hraised : s.yok.formRaised = false)
    (hlate : s.yok.enabledAt + 100000000 ≤ s.refNs) : Runs .yokeFormTimeout s (fun t => t.yok = { s.yok with formRaised := true } ∧
      ∃ e, t.err.flight = s.err.flight ++ [e] ∧ e.code = 0x0803) := by
  have hexec : exec .yokeFormTimeout s = .next ((s.updYoke (fun y => { y with formRaised := true })).raise { code := 0x0803, blk := 28 }) :=
    congrArg Host.Outcome.next (if_pos (by simp [hstate, hform, hraised, hlate]))
  obtain ⟨recov, ctrl, n, hraise⟩ := State.raise_mild (s.updYoke (fun y => { y with formRaised := true }))
    (e := { code := 0x0803, blk := 28 }) (by decide) (by decide)
  rw [hraise] at hexec
  exact ⟨_, hexec, rfl, _, rfl, rfl⟩

end

/-! ### Heartbeats (R343) -/

section
variable {s : State}

/-- The device after the pulse on the pin. -/
def State.pulsed (s : State) : State :=
  ((s.send (.pin 2 true)).send (.pin 2 false)).updYoke (fun y => { y with lastPulse := s.nowNs / 1000000 })

theorem State.pulsed_frame (s : State) : s.pulsed = { s with
    out := s.out ++ [.pin 2 true, .pin 2 false], yok := { s.yok with lastPulse := s.nowNs / 1000000 } } := by
  have hout : s.out ++ [Out.pin 2 true, .pin 2 false] = (s.out ++ [.pin 2 true]) ++ [.pin 2 false] := by simp
  rw [hout]
  rfl

/-- The message of HEARTBEAT_SEND (log entry 63). -/
def State.heartbeatMsg (s : State) : BitVec 128 :=
  bypassMsg 4 (b2n (s.fbit F.YOK_CFG_PRIMARY) * 2 ^ 119 + ((List.range 8).filter (fun j => (s.job j).phase ≠ .free)).length * 2 ^ 104)

theorem exec_heartbeatSend (henable : s.fbit F.YOK_CFG_ENABLE = true) (hms : s.nowNs / 1000000 ≠ s.yok.lastPulse) :
    exec .heartbeatSend s = .next (
      if s.portSt s.yokPort = 5 then s.pulsed.sendBypass s.yokPort s.heartbeatMsg else s.pulsed) :=
  congrArg Host.Outcome.next (if_neg (by simp [henable, hms]))

theorem heartbeatSend_sends (henable : s.fbit F.YOK_CFG_ENABLE = true) (hms : s.nowNs / 1000000 ≠ s.yok.lastPulse) :
    Runs .heartbeatSend s (fun t => t.out = s.out ++ [.pin 2 true, .pin 2 false] ∧
      t.yok = { s.yok with lastPulse := s.nowNs / 1000000 } ∧
      (s.portSt s.yokPort = 5 → (t.link s.yokPort).byq.length = (s.link s.yokPort).byq.length + 1) ∧
      (s.portSt s.yokPort ≠ 5 → t.links = s.links) ∧ t = { s with out := t.out, yok := t.yok, links := t.links }) := by
  have hexec := exec_heartbeatSend henable hms
  have hactive : s.pulsed.portSt s.yokPort = s.portSt s.yokPort := rfl
  have hlink : s.pulsed.link s.yokPort = s.link s.yokPort := rfl
  by_cases hport : s.portSt s.yokPort = 5
  · rw [if_pos hport, State.sendBypass, if_pos (hactive.trans hport)] at hexec
    have hqueue := s.pulsed.updLink_same s.yokPort (fun l => { l with byq := l.byq ++ [s.heartbeatMsg] })
    generalize s.heartbeatMsg = m at hexec hqueue
    rw [State.pulsed_frame] at hexec hqueue hlink
    refine ⟨_, hexec, rfl, rfl, fun _ => ?_, fun h => absurd hport h, rfl⟩
    rw [hqueue, hlink, List.length_append, List.length_singleton]
  · rw [if_neg hport, State.pulsed_frame] at hexec
    exact ⟨_, hexec, rfl, rfl, fun h => absurd h hport, fun _ => rfl, rfl⟩

/-- A heartbeat shows its path alive, whether or not the yoke forms again. -/
theorem State.heartbeat_shows (s : State) (pin : Bool) :
    let t := s.heartbeat pin
    (pin = true → t.yok.pinHb = some s.refNs ∧ t.fbit F.YOK_STATE_PIN_HB = true) ∧
    (pin = false → t.yok.linkHb = some s.refNs ∧ t.fbit F.YOK_STATE_LINK_HB = true) ∧
    t.yok.partnerPrim = s.yok.partnerPrim ∧ t = { s with regs := t.regs, yok := t.yok } := by
  have hkeep (u : State) {g : Fld} (hg : g.Listed) (hlo : 3 ≤ g.lo) (hone : u.fget g = 1) : (u.setYokState 1).fget g = 1 :=
    (u.fget_yokState_apart (f := F.YOK_STATE_STATE) 1 hg (by decide) (.inr hlo)).trans hone
  have hpin := s.fget_fset_same 1 listed_pinHb
  have hlink := s.fget_fset_same 1 listed_linkHb
  unfold State.heartbeat
  cases pin with
  | true =>
    dsimp only
    rw [if_pos rfl]
    split
    · exact ⟨fun _ => ⟨rfl, State.fbit_of_one (hkeep _ listed_pinHb (by decide) hpin)⟩, by simp, rfl, rfl⟩
    · exact ⟨fun _ => ⟨rfl, State.fbit_of_one hpin⟩, by simp, rfl, rfl⟩
  | false =>
    dsimp only
    rw [if_neg Bool.false_ne_true]
    split
    · exact ⟨by simp, fun _ => ⟨rfl, State.fbit_of_one (hkeep _ listed_linkHb (by decide) hlink)⟩, rfl, rfl⟩
    · exact ⟨by simp, fun _ => ⟨rfl, State.fbit_of_one hlink⟩, rfl, rfl⟩

theorem State.takeStored_frame {s u : State} {p bt : Nat} {m : BitVec 128 × Nat} (h : s.takeStored p bt = some (m, u)) :
    OnlyLink p s u := by
  unfold State.takeStored at h
  split at h
  · obtain ⟨-, rfl⟩ := Prod.mk.inj (Option.some.inj h)
    exact onlyLink_updLink ..
  · exact absurd h (by simp)

theorem yokeHb_shows {p : PortId} {m : BitVec 128 × Nat} {u : State} (htake : s.takeStored p 4 = some (m, u))
    (henable : s.fbit F.YOK_CFG_ENABLE = true) (hport : p.val = s.yokPort) :
    Runs (.yokeHb p) s (fun t => t.yok.partnerPrim = some (bit m.1.toNat 119) ∧ t.yok.linkHb = some s.refNs ∧
      t.fbit F.YOK_STATE_LINK_HB = true ∧ OnlyLink p s u ∧ t = { u with regs := t.regs, yok := t.yok }) := by
  have honly := State.takeStored_frame htake
  obtain ⟨hframe, -⟩ := id honly
  have henableU : u.fbit F.YOK_CFG_ENABLE = true := by rw [hframe]; exact henable
  have hportU : p.val = u.yokPort := by rw [hframe]; exact hport
  have hnow : u.refNs = s.refNs := by rw [hframe]; rfl
  have hexec : exec (.yokeHb p) s = .next ((u.updYoke (fun y => { y with partnerPrim := some (bit m.1.toNat 119) })).heartbeat false) := by
    refine congrArg Host.Outcome.next ?_
    rw [htake]
    exact if_pos (by simp [henableU, ← hportU])
  obtain ⟨-, hshow, hprim, hkept⟩ := (u.updYoke (fun y => { y with partnerPrim := some (bit m.1.toNat 119) })).heartbeat_shows false
  obtain ⟨hhb, hbit⟩ := hshow rfl
  exact ⟨_, hexec, hprim, hhb.trans (congrArg some hnow), hbit, honly, hkept⟩

theorem yokeHbInPulse_shows {highNs : Nat} (henable : s.fbit F.YOK_CFG_ENABLE = true) :
    (50000 ≤ highNs → highNs ≤ 200000 → Runs (.yokeHbInPulse highNs) s (fun t => t.yok.pinHb = some s.refNs ∧
      t.fbit F.YOK_STATE_PIN_HB = true ∧ t = { s with regs := t.regs, yok := t.yok })) ∧
    (highNs < 50000 ∨ 200000 < highNs → exec (.yokeHbInPulse highNs) s = .next s) := by
  constructor
  · intro hlow hhigh
    obtain ⟨hshow, -, -, hkept⟩ := s.heartbeat_shows true
    obtain ⟨hhb, hbit⟩ := hshow rfl
    exact ⟨_, congrArg Host.Outcome.next (if_pos (by simp [henable, hlow, hhigh])), hhb, hbit, hkept⟩
  · intro hout
    refine congrArg Host.Outcome.next (if_neg ?_)
    simp only [henable, Bool.true_and, Bool.and_eq_true, decide_eq_true_eq]
    omega

end

/-! ### Silent paths, and the cut (R344, R345) -/

section
variable {s : State}

/-- What the error of a silent path keeps. -/
theorem State.silent_frame (s : State) (g : Fld) :
    (s.raise { code := 0x0804, blk := 28 }).fget g = s.fget g := State.fget_raise_mild (by decide) (by decide) g

theorem hbPathTimeout_pin (henable : s.fbit F.YOK_CFG_ENABLE = true) (hpin : s.fbit F.YOK_STATE_PIN_HB = true)
    (hlate : s.yok.pinHb.getD 0 + s.lossNs ≤ s.refNs) :
    let u := (s.fset F.YOK_STATE_PIN_HB 0).raise { code := 0x0804, blk := 28 }
    (s.fbit F.YOK_STATE_LINK_HB = true → exec (.hbPathTimeout true) s = .next u) ∧
    (s.fbit F.YOK_STATE_LINK_HB = false → s.yokState = 2 → exec (.hbPathTimeout true) s = .next u.partnerLost) := by
  intro u
  have hlink : u.fget F.YOK_STATE_LINK_HB = s.fget F.YOK_STATE_LINK_HB :=
    (State.silent_frame ..).trans (s.fget_yokState_apart 0 listed_linkHb (by decide) (.inr (by decide)))
  have hstate : u.yokState = s.yokState :=
    (State.silent_frame ..).trans (s.fget_yokState_apart 0 listed_yokState (by decide) (.inl (by decide)))
  have hsilent : u.fget F.YOK_STATE_PIN_HB = 0 := (State.silent_frame ..).trans (s.fget_fset_same 0 listed_pinHb)
  have hlinkBit : u.fbit F.YOK_STATE_LINK_HB = s.fbit F.YOK_STATE_LINK_HB := by rw [State.fbit, hlink]; rfl
  have hpinBit : u.fbit F.YOK_STATE_PIN_HB = false := by rw [State.fbit, hsilent]; rfl
  have hexec : exec (.hbPathTimeout true) s = .next (
      if (u.yokState = 2 ∨ u.yokState = 4) ∧ u.fbit F.YOK_STATE_PIN_HB = false ∧ u.fbit F.YOK_STATE_LINK_HB = false then u.partnerLost
      else u) := congrArg Host.Outcome.next (if_pos (by simp [henable, hpin, hlate]))
  rw [hlinkBit, hstate, hpinBit] at hexec
  constructor
  · intro hhb
    rw [hexec, if_neg (by simp [hhb])]
  · intro hhb hformed
    rw [hexec, if_pos ⟨.inl hformed, rfl, hhb⟩]

theorem hbPathTimeout_link (henable : s.fbit F.YOK_CFG_ENABLE = true) (hlink : s.fbit F.YOK_STATE_LINK_HB = true)
    (hlate : s.yok.linkHb.getD 0 + s.lossNs ≤ s.refNs) (hpin : s.fbit F.YOK_STATE_PIN_HB = true) :
    exec (.hbPathTimeout false) s = .next ((s.fset F.YOK_STATE_LINK_HB 0).raise { code := 0x0804, blk := 28 }) := by
  have hkept : ((s.fset F.YOK_STATE_LINK_HB 0).raise { code := 0x0804, blk := 28 }).fget F.YOK_STATE_PIN_HB = s.fget F.YOK_STATE_PIN_HB :=
    (State.silent_frame ..).trans (s.fget_yokState_apart 0 listed_pinHb (by decide) (.inl (by decide)))
  have hpinBit : ((s.fset F.YOK_STATE_LINK_HB 0).raise { code := 0x0804, blk := 28 }).fbit F.YOK_STATE_PIN_HB = true := by
    rw [State.fbit, hkept]
    exact hpin
  exact congrArg Host.Outcome.next ((if_pos (by simp [henable, hlink, hlate])).trans
    (if_neg fun h => Bool.false_ne_true (h.2.1.symm.trans hpinBit)))

section
variable {at_ : Nat} (hdown : s.yok.downSince = some at_) (hstate : s.yokState = 2) (hpin : s.fbit F.YOK_STATE_PIN_HB = true)
  (hlate : at_ + s.lossNs ≤ s.refNs)
include hdown hstate hpin hlate

theorem exec_yokeCut : exec .yokeCut s = .next (
    if s.fbit F.YOK_CFG_PRIMARY then s.yokedJobs.foldl (fun s j => if s.jobYoke j = 1 then s.goSolo j else s.abandon j)
        ((s.setYokState 4).raise { code := 0x0806, blk := 28 })
    else s.yokedJobs.foldl (fun s j => s.hubErr j 0x0809 0) (s.setYokState 4)) := by
  have hjobs : ((s.setYokState 4).raise { code := 0x0806, blk := 28 }).yokedJobs = s.yokedJobs := by
    obtain ⟨recov, ctrl, n, hraise⟩ := (s.setYokState 4).raise_mild (e := { code := 0x0806, blk := 28 }) (by decide) (by decide)
    rw [hraise, ← s.yokedJobs_setYokState 4]
    exact State.yokedJobs_congr rfl rfl
  refine congrArg Host.Outcome.next ?_
  rw [hdown]
  dsimp only
  rw [if_pos (by simp [hstate, hpin, hlate]), hjobs, State.yokedJobs_setYokState]

theorem yokeCut_cuts (hnone : s.yokedJobs = []) : Runs .yokeCut s (fun t => t.yokState = 4) := by
  have hexec := exec_yokeCut hdown hstate hpin hlate
  rw [hnone] at hexec
  refine ⟨_, hexec, ?_⟩
  have hcut := s.yokState_setYokState (v := 4) (by decide)
  split
  · exact (State.fget_raise_mild (by decide) (by decide) _).trans hcut
  · exact hcut

end

end

/-! ### Jobs that go on alone (R342, R346, R352) -/

/-- What the yoke unit and the relay keep of job `j`: its state, why it is suspended, its mismatch, and what is left of a copy. -/
def State.yokeView (j : Nat) (s : State) : Nat × Nat × Option Nat × List Nat × Option Nat :=
  (s.jobYoke j, (s.srvJob j).reason, (s.yokJob j).mismatch, (s.yokJob j).todo, (s.yokJob j).cut)

section
variable {j : JobId} (s : State)

theorem State.yokeView_of_spared {t : State} (h : t.spared (R.YOK_JOB_STATE j) = s.spared (R.YOK_JOB_STATE j)) :
    t.yokeView j = s.yokeView j := by
  have hstate : t.jobYoke j = s.jobYoke j := State.fget_of_spared h
  simp only [State.yokeView, hstate, State.reason_of_spared h, State.yokJob, State.yok_of_spared h]

theorem State.yokeView_updYok {f : YokJob → YokJob} (hf : ∀ y, ((f y).mismatch, (f y).todo, (f y).cut) = (y.mismatch, y.todo, y.cut)) :
    (s.updYok j f).yokeView j = s.yokeView j := by
  have hy := hf (s.yokJob j)
  simp only [Prod.mk.injEq] at hy
  obtain ⟨hmismatch, htodo, hcut⟩ := hy
  have hstate : (s.updYok j f).jobYoke j = s.jobYoke j := rfl
  simp only [State.yokeView, State.updYok_same, State.updYok_to_srvJob, hmismatch, htodo, hcut, hstate]

theorem State.yokeView_of_state {t : State} (hstate : t.jobYoke j = s.jobYoke j) (hsrv : t.srv = s.srv) (hyok : t.yok = s.yok) :
    t.yokeView j = s.yokeView j := by
  simp only [State.yokeView, hstate, State.srvJob, hsrv, State.yokJob, hyok]

theorem State.yokeView_sendConfirm (n : Nat) : (s.sendConfirm j n).yokeView j = s.yokeView j := by
  have hfree := haltFree_yokJobState j.isLt j.isLt
  refine s.yokeView_of_spared ?_
  unfold State.sendConfirm
  dsimp only
  split
  · exact s.spared_updCtr ..
  · exact s.spared_originate hfree ..

theorem State.yokeView_confirmed (v : Nat) : (s.fset (F.YOK_JOB_STATE_CONFIRMED j) v).yokeView j = s.yokeView j := by
  have hstate : (s.fset (F.YOK_JOB_STATE_CONFIRMED j) v).jobYoke j = s.jobYoke j :=
    s.fget_yokState_apart (f := F.YOK_JOB_STATE_CONFIRMED j) v (listed_jobYoke j.isLt) (show 0 < 32 by decide)
      (.inl (show 0 + 4 ≤ 32 by decide))
  exact s.yokeView_of_state hstate (s.setReg_srv ..) (s.setReg_yok ..)

/-- A job that goes on alone is confirmed step by step, and nothing else of it changes (R340). -/
theorem State.yokeView_confirmAll (k : Nat) {s : State} (hsolo : s.jobYoke j = 2) :
    (State.confirmAll j k s).yokeView j = s.yokeView j := by
  induction k generalizing s with
  | zero => rfl
  | succ k ih =>
    unfold State.confirmAll
    dsimp only
    split
    · rfl
    · split
      · rfl
      · rw [if_pos (.inl hsolo)]
        have hstep {t : State} (ht : t.yokeView j = s.yokeView j) : (State.confirmAll j k t).yokeView j = s.yokeView j :=
          (ih ((congrArg Prod.fst ht).trans hsolo)).trans ht
        refine hstep (Eq.trans (State.yokeView_updYok _ ?_) ?_)
        · exact fun _ => rfl
        · rw [State.yokeView_confirmed, State.yokeView_sendConfirm]

theorem State.yokeView_goSolo : (s.goSolo j).yokeView j =
    (2, (s.srvJob j).reason, (s.yokJob j).mismatch, (s.yokJob j).todo, (s.yokJob j).cut) := by
  have hset : (s.setJobYoke j 2).jobYoke j = 2 := s.jobYoke_setJobYoke j.isLt (by decide)
  have hview : (s.setJobYoke j 2).yokeView j = (2, (s.srvJob j).reason, (s.yokJob j).mismatch, (s.yokJob j).todo, (s.yokJob j).cut) := by
    have hsrv : (s.setJobYoke j 2).srv = s.srv := s.setReg_srv ..
    have hyok : (s.setJobYoke j 2).yok = s.yok := s.setReg_yok ..
    simp only [State.yokeView, hset, State.srvJob, hsrv, State.yokJob, hyok]
  unfold State.goSolo
  dsimp only
  generalize s.setJobYoke j 2 = u at hset hview
  split
  · have htake := u.yokeView_updYok (j := j) (f := fun y => { y with takeover := true }) fun _ => rfl
    exact (State.yokeView_confirmAll 64 ((congrArg Prod.fst htake).trans hset)).trans (htake.trans hview)
  · exact (State.yokeView_confirmAll 64 hset).trans hview

/-- A suspension for a reason ends. -/
def State.unsuspended (s : State) (j r : Nat) : State :=
  if (s.srvJob j).reason = r then s.updSrv j (fun q => { q with reason := 0 }) else s

theorem State.unsuspended_spec (r : Nat) : (s.unsuspended j r).yok = s.yok ∧
    ((s.srvJob j).reason = r → ((s.unsuspended j r).srvJob j).reason = 0) := by
  unfold State.unsuspended
  split
  · refine ⟨rfl, fun _ => ?_⟩
    rw [State.updSrv_same]
  next hne => exact ⟨rfl, fun h => absurd h hne⟩

/-- A suspended job that goes on alone. -/
theorem State.goSolo_unsuspended (r : Nat) : let t := (s.unsuspended j r).goSolo j
    t.jobYoke j = 2 ∧ (t.yokJob j).mismatch = (s.yokJob j).mismatch ∧ ((s.srvJob j).reason = r → (t.srvJob j).reason = 0) := by
  obtain ⟨hyok, hreason⟩ := s.unsuspended_spec (j := j) r
  have hview := (s.unsuspended j r).yokeView_goSolo (j := j)
  simp only [State.yokeView, Prod.mk.injEq, State.yokJob, hyok] at hview
  obtain ⟨hstate, hsame, hmismatch, -⟩ := hview
  exact ⟨hstate, hmismatch, fun h => hsame.trans (hreason h)⟩

theorem keep_solo (hhead : s.isHead j = true) (hyoked : s.yoked j = true) (hlive : (s.job j).live = true)
    (hstate : s.jobYoke j = 3 ∨ s.jobYoke j = 1 ∨ (s.yokJob j).mismatch ≠ none) : Runs (.keep j) s (fun t =>
      t.jobYoke j = 2 ∧ (t.yokJob j).mismatch = none ∧ ((s.srvJob j).reason = 5 → (t.srvJob j).reason = 0)) := by
  have hcond : (s.isHead j && s.yoked j && (s.job j).live &&
      (s.jobYoke j = 3 || s.jobYoke j = 1 || (s.yokJob j).mismatch.isSome)) = true := by
    simpa [hhead, hyoked, hlive, Option.isSome_iff_ne_none, or_assoc] using hstate
  have hexec : exec (.keep j) s =
      .next ((((s.controlPeers j 0x1F (leBytes 1 0xFE)).updYok j (fun y => { y with mismatch := none })).unsuspended j 5).goSolo j) :=
    congrArg Host.Outcome.next (if_pos hcond)
  have hreason : ((s.controlPeers j 0x1F (leBytes 1 0xFE)).srvJob j).reason = (s.srvJob j).reason :=
    State.reason_of_spared (s.spared_controlPeers (haltFree_yokJobState j.isLt j.isLt) ..) j
  generalize s.controlPeers j 0x1F (leBytes 1 0xFE) = u at hexec hreason
  obtain ⟨hsolo, hmismatch, hresumed⟩ := (u.updYok j (fun y => { y with mismatch := none })).goSolo_unsuspended (j := j) 5
  rw [State.updYok_same] at hmismatch
  exact ⟨_, hexec, hsolo, hmismatch, fun h => hresumed (hreason.trans h)⟩

/-- The record of a survivor that abandons a copy: nothing of the copy is left. -/
def YokJob.uncopied (y : YokJob) : YokJob := { y with todo := [], part := 0, cut := none, ready0 := [], ready1 := [] }

theorem State.abandon_survivor (hstate : s.jobYoke j = 4 ∨ s.jobYoke j = 5) :
    s.abandon j = ((((s.hubErr j 0x080B 0).setJobYoke j 2).updYok j YokJob.uncopied).unsuspended j 6).confirm j := if_pos hstate

theorem State.yokeView_confirm (hsolo : s.jobYoke j = 2) : (s.confirm j).yokeView j = s.yokeView j := by
  rw [State.confirm]
  exact State.yokeView_confirmAll 64 hsolo

theorem State.jobYoke_unsuspended (r : Nat) : (s.unsuspended j r).jobYoke j = s.jobYoke j := by
  unfold State.unsuspended
  split
  · rw [State.jobYoke, State.jobYoke, State.updSrv_to_fget]
  · rfl

theorem State.jobYoke_updYok (f : YokJob → YokJob) : (s.updYok j f).jobYoke j = s.jobYoke j := by
  rw [State.jobYoke, State.jobYoke, State.updYok_to_fget]

/-- A copy of which nothing is left, its job's suspension over and its confirmations caught up. -/
theorem State.uncopied_solo (hsolo : s.jobYoke j = 2) : let t := ((s.updYok j YokJob.uncopied).unsuspended j 6).confirm j
    t.jobYoke j = 2 ∧ (t.yokJob j).todo = [] ∧ (t.yokJob j).cut = none ∧ ((s.srvJob j).reason = 6 → (t.srvJob j).reason = 0) := by
  obtain ⟨hyok, hresumed⟩ := (s.updYok j YokJob.uncopied).unsuspended_spec (j := j) 6
  have hsame : (s.updYok j YokJob.uncopied).srvJob j = s.srvJob j := rfl
  have hjob : ((s.updYok j YokJob.uncopied).unsuspended j 6).yokJob j = (s.yokJob j).uncopied := by
    rw [State.yokJob, hyok, ← State.yokJob, State.updYok_same]
  have hstate : ((s.updYok j YokJob.uncopied).unsuspended j 6).jobYoke j = 2 := by
    rw [State.jobYoke_unsuspended, State.jobYoke_updYok, hsolo]
  rw [hsame] at hresumed
  generalize (s.updYok j YokJob.uncopied).unsuspended j 6 = u at hjob hstate hresumed
  have hview := u.yokeView_confirm hstate
  simp only [State.yokeView, Prod.mk.injEq, hjob] at hview
  obtain ⟨hconfirmed, hreason, -, htodo, hcut⟩ := hview
  exact ⟨hconfirmed.trans hstate, htodo, hcut, fun h => hreason.trans (hresumed h)⟩

/-- A copy to the partner that ends unfinished leaves nothing of itself. -/
theorem State.abandon_solo (hstate : s.jobYoke j = 4 ∨ s.jobYoke j = 5) : let t := s.abandon j
    t.jobYoke j = 2 ∧ (t.yokJob j).todo = [] ∧ (t.yokJob j).cut = none ∧ ((s.srvJob j).reason = 6 → (t.srvJob j).reason = 0) := by
  rw [State.abandon_survivor s hstate, s.hubErr_mild j (by decide) (by decide)]
  have hsrv : (s.raiseRec (hubNote j 0x080B)).srv = s.srv := by rw [State.raiseRec_frame]
  generalize s.raiseRec (hubNote j 0x080B) = u at hsrv
  have hset : (u.setJobYoke j 2).jobYoke j = 2 := u.jobYoke_setJobYoke j.isLt (by decide)
  have hsame : (u.setJobYoke j 2).srv = s.srv := (u.setReg_srv ..).trans hsrv
  have hreason : ((u.setJobYoke j 2).srvJob j).reason = (s.srvJob j).reason := by rw [State.srvJob, State.srvJob, hsame]
  generalize u.setJobYoke j 2 = v at hset hreason
  rw [← hreason]
  exact v.uncopied_solo hset

theorem abandon_ends (hstate : s.jobYoke j = 4 ∨ s.jobYoke j = 5) : Runs (.abandon j) s (fun t =>
    t.jobYoke j = 2 ∧ (t.yokJob j).todo = [] ∧ (t.yokJob j).cut = none ∧ ((s.srvJob j).reason = 6 → (t.srvJob j).reason = 0) ∧
    t = (s.sendControl j .yoke 0x1C (leBytes 2 0x080B)).abandon j) := by
  have hexec : exec (.abandon j) s = .next ((s.sendControl j .yoke 0x1C (leBytes 2 0x080B)).abandon j) :=
    congrArg Host.Outcome.next (if_pos hstate)
  have hspared := s.spared_sendControl (haltFree_yokJobState j.isLt j.isLt) .yoke 0x1C (leBytes 2 0x080B) none
  generalize s.sendControl j .yoke 0x1C (leBytes 2 0x080B) = u at hexec hspared
  have hsame : u.jobYoke j = s.jobYoke j := State.fget_of_spared hspared
  obtain ⟨hsolo, htodo, hcut, hresumed⟩ := u.abandon_solo (hsame.symm ▸ hstate)
  exact ⟨_, hexec, hsolo, htodo, hcut, fun h => hresumed ((State.reason_of_spared hspared j).trans h), rfl⟩

theorem reyokeAbandoned_ends (hstate : s.jobYoke j = 4 ∨ s.jobYoke j = 5) (hlive : (s.job j).live = true)
    (hlost : s.yokState = 3 ∨ s.yokState = 4) : Runs (.reyokeAbandoned j) s (fun t =>
      t.jobYoke j = 2 ∧ (t.yokJob j).todo = [] ∧ (t.yokJob j).cut = none ∧ t = s.abandon j) := by
  obtain ⟨hsolo, htodo, hcut, -⟩ := s.abandon_solo hstate
  exact ⟨_, congrArg Host.Outcome.next (if_pos (by simpa [hlive] using hlost)), hsolo, htodo, hcut, rfl⟩

theorem reyoke_starts (hyoked : s.yoked j = true) (hlive : (s.job j).live = true) (hsolo : s.jobYoke j = 2)
    (hgen : s.fget (F.SEC_JOB_STATE_GEN j) ≠ 4095) : Runs (.reyoke j) s (fun t => t.jobYoke j = 4 ∧ t.fget F.YOK_REYOKE_PASSES = 0 ∧
      (t.yokJob j).todo = s.copyGranules j (fun _ _ => true) ∧ (t.yokJob j).copied = [] ∧
      t = { s with regs := t.regs, yok := t.yok }) := by
  have hexec : exec (.reyoke j) s = .next (((s.setJobYoke j 4).fset F.YOK_REYOKE_PASSES 0).updYok j (fun y =>
      { y with todo := s.copyGranules j (fun _ _ => true), part := 0, copied := [], cut := none, ready0 := [], ready1 := [] })) :=
    congrArg Host.Outcome.next (if_pos (by simp [hyoked, hlive, hsolo, hgen]))
  generalize s.copyGranules j (fun _ _ => true) = granules at hexec
  have hne : R.YOK_JOB_STATE j ≠ R.YOK_REYOKE := by simp only [R.YOK_JOB_STATE, R.YOK_REYOKE]; omega
  have hstate : ((s.setJobYoke j 4).fset F.YOK_REYOKE_PASSES 0).jobYoke j = 4 :=
    (State.fget_fset_other _ _ hne).trans (s.jobYoke_setJobYoke j.isLt (by decide))
  have hpasses : ((s.setJobYoke j 4).fset F.YOK_REYOKE_PASSES 0).fget F.YOK_REYOKE_PASSES = 0 :=
    State.fget_fset_same _ _ listed_reyokePasses
  obtain ⟨regs, hregs⟩ : ∃ regs, (s.setJobYoke j 4).fset F.YOK_REYOKE_PASSES 0 = { s with regs := regs } := ⟨_, rfl⟩
  rw [hregs] at hexec hstate hpasses
  refine ⟨_, hexec, hstate, hpasses, ?_, ?_, rfl⟩ <;> rw [State.updYok_same]

end

/-- Settles O43: one theorem for each row and outcome. -/
theorem yokeStateCompletes : Obligations.YokeStateCompletes := by
  unfold Obligations.YokeStateCompletes
  intro s
  refine ⟨yokeEnable_enables, yokeEnable_ignored, yokeFormed_forms, yokeFormed_waits, yokeFormTimeout_raises, heartbeatSend_sends,
    fun p m u => yokeHb_shows, fun highNs => yokeHbInPulse_shows, hbPathTimeout_pin, hbPathTimeout_link,
    fun at_ hdown hstate hpin hlate hnone => yokeCut_cuts hdown hstate hpin hlate hnone, ?primary, ?secondary, ?jobs⟩
  case primary =>
    intro at_ hdown hstate hpin hlate hprimary
    rw [exec_yokeCut hdown hstate hpin hlate, if_pos hprimary]
  case secondary =>
    intro at_ hdown hstate hpin hlate hprimary
    rw [exec_yokeCut hdown hstate hpin hlate, if_neg (ne_true_of_eq_false hprimary)]
  case jobs =>
    exact fun j => ⟨fun hhead hyoked hlive => ⟨congrArg Host.Outcome.next (if_pos (by simp [hhead, hyoked, hlive])),
        keep_solo s hhead hyoked hlive⟩,
      fun hhead => ⟨congrArg Host.Outcome.next (if_neg (by simp [hhead])), congrArg Host.Outcome.next (if_neg (by simp [hhead]))⟩,
      reyoke_starts s, fun hstate => ⟨abandon_ends s hstate, reyokeAbandoned_ends s hstate⟩⟩

end Sys2Proof.Machine

/-! SUPPORT FW. The records of the running firmware, which no error and no halt writes (R423, R437). -/

namespace Sys2Proof.Machine

/-- The version of the firmware's library, why the Tackroom restarts, and the fuse counter of security versions. -/
def State.fwRec (s : State) : Nat × Nat × Nat := (s.tck.libVer, s.tck.restart, s.tck.fwSec)

@[simp] theorem State.fwRec_ite (c : Prop) [Decidable c] (s t : State) :
    (if c then s else t).fwRec = if c then s.fwRec else t.fwRec := apply_ite State.fwRec c s t

theorem State.fwRec_foldl {α : Type} {f : State → α → State} (hf : ∀ t x, (f t x).fwRec = t.fwRec) (l : List α) (s : State) :
    (l.foldl f s).fwRec = s.fwRec :=
  foldl_keeps (P := fun t : State => t.fwRec = s.fwRec) l rfl fun t x _ ht => (hf t x).trans ht

section
variable (s : State)

@[simp] theorem State.fwRec_setReg (a v : Nat) : (s.setReg a v).fwRec = s.fwRec := (rfl)
@[simp] theorem State.fwRec_fset (f : Fld) (v : Nat) : (s.fset f v).fwRec = s.fwRec := (rfl)
@[simp] theorem State.fwRec_fwrap (f : Fld) (k : Nat) : (s.fwrap f k).fwRec = s.fwRec := (rfl)
@[simp] theorem State.fwRec_fsat (f : Fld) (k : Nat) : (s.fsat f k).fwRec = s.fwRec := (rfl)
@[simp] theorem State.fwRec_send (o : Out) : (s.send o).fwRec = s.fwRec := (rfl)
@[simp] theorem State.fwRec_updRegion (r : Nat) (f : Region → Region) : (s.updRegion r f).fwRec = s.fwRec := (rfl)
@[simp] theorem State.fwRec_updStall (i : Nat) (f : Stall → Stall) : (s.updStall i f).fwRec = s.fwRec := (rfl)
@[simp] theorem State.fwRec_updLoft (n : Nat) (f : Loft → Loft) : (s.updLoft n f).fwRec = s.fwRec := (rfl)
@[simp] theorem State.fwRec_updJob (j : Nat) (f : Job → Job) : (s.updJob j f).fwRec = s.fwRec := (rfl)
@[simp] theorem State.fwRec_updLink (p : Nat) (f : Link → Link) : (s.updLink p f).fwRec = s.fwRec := (rfl)
@[simp] theorem State.fwRec_updSrv (j : Nat) (f : SrvJob → SrvJob) : (s.updSrv j f).fwRec = s.fwRec := (rfl)
@[simp] theorem State.fwRec_updHst (p : Nat) (f : HostSt → HostSt) : (s.updHst p f).fwRec = s.fwRec := (rfl)
@[simp] theorem State.fwRec_updFab (f : FabSt → FabSt) : (s.updFab f).fwRec = s.fwRec := (rfl)
@[simp] theorem State.fwRec_commitRef (b : Blk) (i : Nat) : (s.commitRef b i).fwRec = s.fwRec := (rfl)

@[simp] theorem State.fwRec_trace (src r : Nat) (job : Option Nat) (data : Nat) : (s.trace src r job data).fwRec = s.fwRec := by
  unfold State.trace
  extract_lets b e lost new
  split
  · rfl
  · split
    · rw [State.fwRec_fwrap]
      rfl
    · rfl

@[simp] theorem State.fwRec_raiseRec (e : Err) : (s.raiseRec e).fwRec = s.fwRec := by
  rw [State.raiseRec_frame]
  rfl

@[simp] theorem State.fwRec_clearCausesAll (p : HoldCause → Bool) : (s.clearCausesAll p).fwRec = s.fwRec := by
  have hcount (t : State) (c : HoldCause) : (t.countStarved c).fwRec = t.fwRec := by
    rw [State.countStarved, State.fwRec_ite, State.fwRec_fsat, ite_self]
  refine State.fwRec_foldl (fun t r => ?_) _ s
  rw [State.fwRec_ite, State.clearCauses, State.showHold]
  simp only [State.fsetB, State.fwRec_fset, State.fwRec_foldl hcount, State.fwRec_updRegion, ite_self]

@[simp] theorem State.fwRec_hostWrite (p a : Nat) (bs : List Byte) : (s.hostWrite p a bs).fwRec = s.fwRec := by
  rw [State.hostWrite, State.fwRec_ite, State.fwRec_setReg, State.fwRec_send, ite_self]

@[simp] theorem State.fwRec_fireVec (p fn v : Nat) : (s.fireVec p fn v).fwRec = s.fwRec := by
  simp only [State.fireVec, State.fwRec_ite, State.fwRec_updHst, State.fwRec_send, ite_self]

@[simp] theorem State.fwRec_pushCpl (j : Nat) (c : CplRec) : (s.pushCpl j c).fwRec = s.fwRec := by
  have hwrite (t : State) (r : Ring) (c : CplRec) : (t.writeCpl r c).fwRec = t.fwRec := by
    rw [State.writeCpl, State.fwRec_hostWrite]
    split
    · exact t.fwRec_hostWrite ..
    · rfl
  simp only [State.pushCpl, State.flushCpl, State.fwRec_ite, State.fwRec_fireVec, State.fwRec_fset, State.fwRec_hostWrite,
    State.fwRec_updSrv]
  rw [State.fwRec_foldl fun t c => hwrite t _ c, State.fwRec_updSrv, ite_self, ite_self]

@[simp] theorem State.fwRec_haltControl (j : Nat) (dest : FDest) (sub : Nat) (body : List Byte) :
    (s.haltControl j dest sub body).fwRec = s.fwRec := by
  simp only [State.haltControl, State.tryControl, State.tryOriginate]
  split
  · rfl
  · split
    · exact s.fwRec_raiseRec _
    · rfl

@[simp] theorem State.fwRec_haltNow (j code : Nat) : (s.haltNow j code).fwRec = s.fwRec := by
  have hstalls : (s.haltStalls j).fwRec = s.fwRec := by
    rw [State.haltStalls, State.fwRec_clearCausesAll, State.fwRec_foldl fun t n => by rw [State.fwRec_ite, State.fwRec_updLoft, ite_self],
      State.fwRec_foldl fun t i => t.fwRec_updStall .., State.fwRec_updJob]
  have hhead (t : State) : (t.headHalt j code).fwRec = t.fwRec := by
    rw [State.headHalt, State.fwRec_ite, State.fwRec_fset, State.fwRec_fset, State.fwRec_updSrv,
      State.fwRec_foldl fun t e => t.fwRec_pushCpl .., State.fwRec_foldl fun t d => t.fwRec_haltControl .., ite_self]
  simp only [State.haltNow, State.haltSends, State.fwRec_ite, hhead, State.fwRec_haltControl, State.fwRec_fset, hstalls, ite_self]

@[simp] theorem State.fwRec_haltBoundary (j code r : Nat) : (s.haltBoundary j code r).fwRec = s.fwRec := by
  simp only [State.haltBoundary]
  split
  · split
    · exact s.fwRec_haltNow j code
    · rw [State.fwRec_ite, State.fwRec_updJob, ite_self]
  · rfl

@[simp] theorem State.fwRec_setPort (p st : Nat) : (s.setPort p st).fwRec = s.fwRec := by
  rw [State.setPort, State.fwRec_trace, State.fwRec_updLink, State.fwRec_fset]

@[simp] theorem State.fwRec_abortRx (p v : Nat) : (s.abortRx p v).fwRec = s.fwRec :=
  (State.fwRec_updLink ..).trans (State.fwRec_foldl (fun t _ => State.fwRec_foldl (fun u _ => by
    rw [State.fwRec_fsat, State.fwRec_updLink]) _ t) _ s)

@[simp] theorem State.fwRec_sendNotices (p origin : Nat) (ms : List (Nat × Nat)) : (s.sendNotices p origin ms).fwRec = s.fwRec := by
  rw [State.sendNotices, State.fwRec_ite]
  refine ite_eq_left_iff.2 fun _ => State.fwRec_foldl (fun t _ => State.fwRec_foldl (fun u q => ?_) _ t) _ s
  rw [State.fwRec_fwrap, State.sendBypass, State.fwRec_ite, State.fwRec_updLink, ite_self]

@[simp] theorem State.fwRec_linkNotice (p : Nat) : (s.linkNotice p).fwRec = s.fwRec := by
  simp only [State.linkNotice, State.putFlit, State.emit, State.fwRec_ite, State.fwRec_fwrap, State.fwRec_updLink, State.fwRec_send,
    ite_self]

@[simp] theorem State.fwRec_markRoutes (p : Nat) : (s.markRoutes p).2.fwRec = s.fwRec := by
  rw [State.markRoutes, State.fwRec_fwrap, State.fwRec_updFab]

@[simp] theorem State.fwRec_linkDown (p cause : Nat) : (s.linkDown p cause).2.fwRec = s.fwRec := by
  unfold State.linkDown
  extract_lets n s1 s2 s3 f s4 y m s5
  have hdown : s4.fwRec = s.fwRec := by
    rw [State.fwRec_setReg, State.fwRec_setPort, State.fwRec_updLink, State.fwRec_foldl fun t v => t.fwRec_abortRx p v]
    exact s.fwRec_raiseRec _
  split
  · exact hdown
  · split
    · exact (s4.fwRec_markRoutes p).trans hdown
    · rw [State.fwRec_sendNotices, State.fwRec_raiseRec, State.fwRec_markRoutes, hdown]

@[simp] theorem State.fwRec_free : s.free.2.fwRec = s.fwRec := (rfl)

@[simp] theorem State.fwRec_deviceFatal (code : Nat) : (s.deviceFatal code).fwRec = s.fwRec := by
  have hdown (t : State) (p : Nat) : ((t.linkNotice p).linkDownOpen p).2.fwRec = t.fwRec := by
    rw [State.linkDownOpen, State.fwRec_linkDown, State.fwRec_free, State.fwRec_linkNotice]
  rw [State.deviceFatal]
  dsimp only
  rw [State.fwRec_foldl hdown, State.fwRec_foldl fun t j => t.fwRec_haltNow j code]
  rfl

/-- No error writes them. -/
@[simp] theorem State.fwRec_raise (e : Err) : (s.raise e).fwRec = s.fwRec := by
  have hrec : (s.raiseRec e).fwRec = s.fwRec := s.fwRec_raiseRec e
  unfold State.raise
  simp only [State.fwRec_ite, State.fwRec_deviceFatal, hrec, ite_self]
  refine ite_eq_left_iff.2 fun _ => ite_eq_right_iff.2 fun _ => ?_
  split
  · rw [State.fwRec_foldl fun t j => t.fwRec_haltBoundary .., hrec]
  · split
    · rw [State.fwRec_foldl fun t j => t.fwRec_haltNow .., hrec]
    · rw [State.fwRec_foldl fun t j => t.fwRec_haltBoundary .., hrec]
    · exact hrec

theorem State.fwRec_tckErr (code detail tag : Nat) : (s.tckErr code detail tag).fwRec = s.fwRec := s.fwRec_raise _

theorem State.fwRec_showAlert : s.showAlert.fwRec = s.fwRec := by
  rw [State.showAlert_eq]
  split
  · rfl
  · rw [State.tellAlert_frame]
    rfl

@[simp] theorem State.fwRec_refreshSteps : s.refreshSteps.fwRec = s.fwRec := by
  rw [State.refreshSteps_eq, State.fwRec_showAlert]
  exact State.fwRec_foldl (fun t r => by rw [State.showStep_frame]; rfl) _ s

@[simp] theorem State.fwRec_startHeld : s.startHeld.fwRec = s.fwRec :=
  State.fwRec_foldl (fun t p => by
    rw [State.tryStart, State.fwRec_ite, State.enterDetect, State.fwRec_setPort, State.takeCfg, State.fwRec_updLink, ite_self]) _ s

end

end Sys2Proof.Machine

/-! OBLIGATION O50. The firmware of the Tackroom. -/

namespace Sys2Proof.Machine

/-! ### TCK_STATE -/

theorem listed_tckState : F.TCK_STATE_STATE.Listed :=
  Fld.listed_of_row .tck 0 0x100 1 8 0 (by decide) (by decide) (by decide) rfl

theorem listed_imageValid : F.TCK_STATE_IMAGE_VALID.Listed :=
  Fld.listed_of_row .tck 0 0x100 1 8 0 (by decide) (by decide) (by decide) rfl

theorem listed_fwVersion : F.TCK_STATE_FW_VERSION.Listed :=
  Fld.listed_of_row .tck 0 0x100 1 8 0 (by decide) (by decide) (by decide) rfl

/-- The register shows no step, no alert, no port and no capture. -/
structure Unshown (a : Nat) : Prop where
  step : ∀ r < 29, a ≠ R.PCR_STEP_STATE r
  alert : a ≠ R.TCK_ALERT
  port : ∀ p, a ≠ R.LNK_PORT_STATE (p / 8) (p % 8)
  capture : a ≠ R.TCK_LSP_STAT

theorem unshown_tckState : Unshown R.TCK_STATE := by
  constructor
  · intro r hr; simp only [R.TCK_STATE, R.PCR_STEP_STATE]; omega
  · decide
  · intro p; simp only [R.TCK_STATE, R.LNK_PORT_STATE]; omega
  · decide

section
variable {t : State} {lib why sec : Nat} (h : t.fwRec = (lib, why, sec))
include h

theorem State.libVer_of_fwRec : t.tck.libVer = lib := congrArg Prod.fst h
theorem State.restart_of_fwRec : t.tck.restart = why := congrArg (fun x : Nat × Nat × Nat => x.2.1) h
theorem State.fwSec_of_fwRec : t.tck.fwSec = sec := congrArg (fun x : Nat × Nat × Nat => x.2.2) h

end

section
variable (s : State)

theorem State.fget_shown {a lo w : Nat} (h : Unshown a) : s.refreshSteps.fget ⟨a, lo, w⟩ = s.fget ⟨a, lo, w⟩ :=
  s.fget_refreshSteps_other h.step h.alert

theorem State.err_refreshSteps : s.refreshSteps.err = s.err := by rw [State.refreshSteps_frame]

theorem State.err_startHeld : s.startHeld.err = s.err := by
  refine foldl_keeps (P := fun t : State => t.err = s.err) _ rfl fun t p _ ht => ?_
  unfold State.tryStart
  split
  · rw [State.enterDetect, State.setPort_frame]
    exact ht
  · exact ht

/-! ### RECOVERY and restarts -/

/-- The Tackroom restarts for a reason; 0 is none. -/
def State.restarting (s : State) (why : Nat) : State := { s with tck := { s.tck with restart := why } }

@[simp] theorem State.fwRec_restarting (why : Nat) : (s.restarting why).fwRec = (s.tck.libVer, why, s.tck.fwSec) := (rfl)

theorem State.recovery_eq : s.recovery = ((((s.restarting 0).fset F.TCK_STATE_STATE 3).fset F.TCK_STATE_IMAGE_VALID 0).fset
    F.TCK_STATE_FW_VERSION 0).refreshSteps := rfl

/-- The image does not run, whatever the flash reads have met. -/
theorem State.recovery_spec : s.recovery.fget F.TCK_STATE_STATE = 3 ∧ s.recovery.fget F.TCK_STATE_IMAGE_VALID = 0 ∧
    s.recovery.fget F.TCK_STATE_FW_VERSION = 0 ∧ s.recovery.tck.fwSec = s.tck.fwSec := by
  have hrec : s.recovery.fwRec = (s.tck.libVer, 0, s.tck.fwSec) := by
    rw [State.recovery_eq, State.fwRec_refreshSteps, State.fwRec_fset, State.fwRec_fset, State.fwRec_fset, State.fwRec_restarting]
  refine ⟨?_, ?_, ?_, State.fwSec_of_fwRec hrec⟩
  · rw [State.recovery_eq, F.TCK_STATE_STATE, State.fget_shown _ unshown_tckState, ← F.TCK_STATE_STATE,
      State.fget_fset_apart _ _ listed_tckState (.inr (by decide)), State.fget_fset_apart _ _ listed_tckState (.inr (by decide)),
      State.fget_fset_same _ _ listed_tckState]
    rfl
  · rw [State.recovery_eq, F.TCK_STATE_IMAGE_VALID, State.fget_shown _ unshown_tckState, ← F.TCK_STATE_IMAGE_VALID,
      State.fget_fset_apart _ _ listed_imageValid (.inr (by decide)), State.fget_fset_same _ _ listed_imageValid]
    rfl
  · rw [State.recovery_eq, F.TCK_STATE_FW_VERSION, State.fget_shown _ unshown_tckState, ← F.TCK_STATE_FW_VERSION,
      State.fget_fset_same _ _ listed_fwVersion]
    rfl

theorem State.restartTck_eq (why : Nat) : s.restartTck why = ((s.restarting why).fset F.TCK_STATE_STATE 2).refreshSteps := rfl

theorem State.restartTck_spec (why : Nat) : (s.restartTck why).fget F.TCK_STATE_STATE = 2 ∧ (s.restartTck why).tck.restart = why ∧
    (s.restartTck why).err = s.err ∧ (s.restartTck why).jobs = s.jobs ∧ (s.restartTck why).stalls = s.stalls := by
  have hrec : (s.restartTck why).fwRec = (s.tck.libVer, why, s.tck.fwSec) := by
    rw [State.restartTck_eq, State.fwRec_refreshSteps, State.fwRec_fset, State.fwRec_restarting]
  refine ⟨?_, State.restart_of_fwRec hrec, ?_, ?_, ?_⟩
  · rw [State.restartTck_eq, F.TCK_STATE_STATE, State.fget_shown _ unshown_tckState, ← F.TCK_STATE_STATE,
      State.fget_fset_same _ _ listed_tckState]
    rfl
  · rw [State.restartTck_eq, State.err_refreshSteps]
    rfl
  · rw [State.restartTck_eq, State.refreshSteps_frame]
    rfl
  · rw [State.restartTck_eq, State.refreshSteps_frame]
    rfl

/-! ### Flash reads (R424) -/

/-- A flash block that is to move is noted. -/
def State.flashMoved (s : State) (blk : Nat) (moves : Prop) [Decidable moves] : State :=
  if moves then { s with tck := { s.tck with moved := s.tck.moved ++ [blk] } } else s

/-- What a flash block that is lost takes with it. -/
def State.flashLost (s : State) (blk : Nat) : State :=
  if 32 ≤ blk ∧ blk < 64 then ((s.setReg R.TCK_POLICY 0x164080C).fset F.TCK_ENVELOPE_WATTS 1800).commitRef .tck 0
  else if 64 ≤ blk ∧ blk < 576 then ({ s with tck := { s.tck with fwBad := true } }).fset F.TCK_STATE_IMAGE_VALID 0
  else if 576 ≤ blk ∧ blk < 1600 then
    let gone (e : Nat × ErrRec) : Bool := e.1 % logSize / 2048 = blk - 576
    ({ s with tck := { s.tck with log := s.tck.log.filter (fun e => !gone e) } }).fwrap F.TCK_LOG_LOST (s.tck.log.filter gone).length
  else s

theorem State.fwRec_flashMoved (blk : Nat) (moves : Prop) [Decidable moves] : (s.flashMoved blk moves).fwRec = s.fwRec := by
  unfold State.flashMoved
  split
  · rfl
  · rfl

theorem State.fwRec_flashLost (blk : Nat) : (s.flashLost blk).fwRec = s.fwRec := by
  unfold State.flashLost
  split
  · rw [State.fwRec_commitRef, State.fwRec_fset, State.fwRec_setReg]
  · split
    · rw [State.fwRec_fset]
      rfl
    · split
      · dsimp only
        rw [State.fwRec_fwrap]
        rfl
      · rfl

theorem State.flashRead_corrected (blk : Nat) :
    s.flashRead blk true = (s.tckErr 0x0B03 0 blk).flashMoved blk
      (s.escalates { code := 0x0B03, blk := 29, tag := blk } ∧ blk ∉ s.tck.moved) := by
  rw [State.flashRead, if_pos rfl]
  rfl

theorem State.flashRead_lost (blk : Nat) : s.flashRead blk false = (s.tckErr 0x0B04 0 blk).flashLost blk := if_neg Bool.false_ne_true

theorem State.fwRec_flashRead (blk : Nat) (ok : Bool) : (s.flashRead blk ok).fwRec = s.fwRec := by
  cases ok with
  | true => rw [State.flashRead_corrected, State.fwRec_flashMoved, State.fwRec_tckErr]
  | false => rw [State.flashRead_lost, State.fwRec_flashLost, State.fwRec_tckErr]

theorem State.fwRec_flashReads (hits : List (Fin 2048 × Bool)) : (s.flashReads hits).fwRec = s.fwRec := by
  have hlost (t : State) (c : Bool) (k : Nat) : (if c then t.tckErr 0x0B0A k 0 else t).fwRec = t.fwRec := by
    rw [State.fwRec_ite, State.fwRec_tckErr, ite_self]
  unfold State.flashReads
  extract_lets s1 bad s2
  have h2 : s2.fwRec = s.fwRec :=
    (State.fwRec_foldl (fun t k => hlost t _ k) _ s1).trans (State.fwRec_foldl (fun t h => t.fwRec_flashRead ..) _ s)
  clear_value s2
  exact h2

/-- Without an error in them, flash reads end the recoveries of flash. -/
def State.flashRecovered (s : State) : State := { s with err := { s.err with recov := s.err.recov.filter (fun r => r.cls ≠ 5) } }

theorem State.flashReads_nil : s.flashReads [] = s.flashRecovered := rfl

end

/-! ### Firmware runs -/

/-- What a start of the firmware may enable is none of the register's blocks. -/
structure Unopened (a : Nat) : Prop extends Unshown a where
  block : ∀ k ∈ ([.stl, .spd, .arr, .vec, .lft, .net] : List Blk), ∀ b < 24, a ≠ R.BLK_CTRL (k.base b)
  clear : ∀ b < 24, a ≠ R.SPD_CLEAR b

theorem unopened_of_ge {a : Nat} (h : Unshown a) (hge : 0x2000000 ≤ a) : Unopened a := by
  refine ⟨h, fun k hk b hb => ?_, fun b hb => ?_⟩
  · have hlow : k.base0 + k.stride * b < 0x1FFFFF8 := by
      have hmul : k.stride * b ≤ k.stride * 23 := Nat.mul_le_mul_left _ (by omega)
      have hlast : ∀ k ∈ ([.stl, .spd, .arr, .vec, .lft, .net] : List Blk), k.base0 + k.stride * 23 < 0x1FFFFF8 := by decide
      have := hlast k hk
      omega
    simp only [R.BLK_CTRL, Blk.base]
    omega
  · simp only [R.SPD_CLEAR]
    omega

section
variable (s : State)

theorem State.reg_openBarn {a : Nat} (h : Unopened a) {b : Nat} (hb : b < 24) : (s.openBarn b).reg a = s.reg a := by
  have hstore : ((s.giveLibrary b).retireStalls b).reg a = s.reg a := by
    unfold State.retireStalls
    extract_lets m gone
    split
    · rfl
    · rfl
  unfold State.openBarn
  extract_lets s1
  split
  · rw [State.reg_fset_other _ _ (h.clear b hb)]
    refine foldl_keeps (P := fun t : State => t.reg a = s.reg a) _ hstore fun t k hk ht => ?_
    rw [State.fwEnable, State.reg_fset_other _ _ (h.block k hk b hb)]
    exact ht
  · rfl

/-- The barns take the library, and those that are ready open. -/
def State.barnsOpened (s : State) : State :=
  (List.range 24).foldl (fun s b =>
    (if (s.barn b).owner.isNone ∧ s.fget (F.SPD_CLEAR_STATE b) = 0 then s.giveLibrary b else s).openBarn b) s

theorem State.reg_barnsOpened {a : Nat} (h : Unopened a) : s.barnsOpened.reg a = s.reg a := by
  refine foldl_keeps (P := fun t : State => t.reg a = s.reg a) _ rfl fun t b hb ht => ?_
  rw [State.reg_openBarn _ h (List.mem_range.1 hb)]
  split
  · exact ht
  · exact ht

theorem State.fwRec_barnsOpened : s.barnsOpened.fwRec = s.fwRec := by
  refine State.fwRec_foldl (fun t b => ?_) _ s
  have hopen (u : State) : (u.openBarn b).fwRec = u.fwRec := by
    rw [State.fwRec, State.fwRec, State.tck_of_plant (u.plant_openBarn b)]
  rw [hopen]
  split
  · rfl
  · rfl

/-- The image is running: its version, its library, and no restart left to answer. -/
def State.fwTaken (s : State) (f : FwStart) : State :=
  ((({ s with tck := { s.tck with restart := 0, started := true, libVer := f.libVer, lib := f.lib } } : State).fset
    F.TCK_STATE_IMAGE_VALID 1).fset F.TCK_STATE_FW_VERSION f.version).fset F.TCK_STATE_STATE 1

theorem State.fwRec_fwTaken (f : FwStart) : (s.fwTaken f).fwRec = (f.libVer, 0, s.tck.fwSec) := (rfl)

theorem State.fwTaken_shows (f : FwStart) : (s.fwTaken f).fget F.TCK_STATE_STATE = 1 ∧ (s.fwTaken f).fget F.TCK_STATE_IMAGE_VALID = 1 ∧
    (s.fwTaken f).fget F.TCK_STATE_FW_VERSION = f.version % 2 ^ 32 := by
  unfold State.fwTaken
  generalize ({ s with tck := { s.tck with restart := 0, started := true, libVer := f.libVer, lib := f.lib } } : State) = u
  refine ⟨?_, ?_, ?_⟩
  · rw [State.fget_fset_same _ _ listed_tckState]
    rfl
  · rw [State.fget_fset_apart _ _ listed_imageValid (.inr (by decide)), State.fget_fset_apart _ _ listed_imageValid (.inr (by decide)),
      State.fget_fset_same _ _ listed_imageValid]
    rfl
  · rw [State.fget_fset_apart _ _ listed_fwVersion (.inr (by decide)), State.fget_fset_same _ _ listed_fwVersion]
    rfl

/-- The blocks that the firmware enables at the first start since reset. -/
def fwBlocks : List Blk := [.pcr, .pwr, .err, .tck, .ldr]

theorem fwBlocks_apart : ∀ b ∈ fwBlocks, ∀ c ∈ fwBlocks, b ≠ c → R.BLK_CTRL (b.base 0) ≠ R.BLK_CTRL (c.base 0) := by decide

theorem State.fget_fwEnable_other {b : Blk} {g : Fld} (h : g.addr ≠ R.BLK_CTRL (b.base 0)) : (s.fwEnable b 0).fget g = s.fget g :=
  State.fget_fset_other _ _ h

/-- Enabling blocks in turn leaves every one of them enabled. -/
theorem State.enabled_foldl_fwEnable {l : List Blk} (hl : ∀ b ∈ l, b ∈ fwBlocks) {c : Blk} (hc : c ∈ fwBlocks)
    (h : s.enabled (c.base 0) = true ∨ c ∈ l) : (l.foldl (fun t b => t.fwEnable b 0) s).enabled (c.base 0) = true := by
  induction l generalizing s with
  | nil => exact h.resolve_right List.not_mem_nil
  | cons b l ih =>
    obtain ⟨hb, hl⟩ := List.forall_mem_cons.1 hl
    refine ih _ hl ?_
    by_cases heq : c = b
    · have hkinds : ∀ b ∈ fwBlocks, b ∈ Blk.all ∧ 0 < b.count := by decide
      exact .inl (heq ▸ (s.commitRef b 0).enabled_fset (hkinds b hb).1 (hkinds b hb).2 1)
    · refine h.imp (fun hon => ?_) fun hmem => (List.mem_cons.1 hmem).resolve_left heq
      rw [State.enabled, State.fbit, State.fget_fwEnable_other _ (fwBlocks_apart c hc b hb heq)]
      exact hon

/-- The image is running, and at the first start since reset the blocks are enabled. -/
def State.fwEnabled (s : State) (f : FwStart) : State :=
  if !s.tck.started then fwBlocks.foldl (fun t b => t.fwEnable b 0) (s.fwTaken f) else s.fwTaken f

theorem State.reg_fwEnabled (f : FwStart) {a : Nat} (h : ∀ b ∈ fwBlocks, a ≠ R.BLK_CTRL (b.base 0)) :
    (s.fwEnabled f).reg a = (s.fwTaken f).reg a := by
  unfold State.fwEnabled
  split
  · refine foldl_keeps (P := fun t : State => t.reg a = (s.fwTaken f).reg a) _ rfl fun t b hb ht => ?_
    rw [State.fwEnable, State.reg_fset_other _ _ (h b hb)]
    exact ht
  · rfl

theorem State.fwRec_fwEnabled (f : FwStart) : (s.fwEnabled f).fwRec = (f.libVer, 0, s.tck.fwSec) := by
  rw [State.fwEnabled, State.fwRec_ite,
    State.fwRec_foldl fun t b => by rw [State.fwEnable, State.fwRec_fset, State.fwRec_commitRef], ite_self, State.fwRec_fwTaken]

/-- Why the Tackroom has restarted is raised, and what waited for the firmware goes on. -/
def State.fwStarted (s : State) (why : Nat) : State := (if why = 1 then s.tckErr 0x0B09 0 0 else s).refreshSteps.startHeld

/-- A start of the firmware as its parts. -/
theorem State.runFirmware_eq (f : FwStart) : s.runFirmware f = (s.fwEnabled f).barnsOpened.fwStarted s.tck.restart := rfl

theorem State.fget_fwStarted (why : Nat) {a lo w : Nat} (h : Unshown a) :
    (s.fwStarted why).fget ⟨a, lo, w⟩ = s.fget ⟨a, lo, w⟩ := by
  rw [State.fwStarted, State.fget, State.reg_startHeld _ h.port h.capture]
  refine (State.fget_shown (lo := lo) (w := w) _ h).trans ?_
  split
  · exact State.fget_raise_mild (by decide) (by decide) _
  · rfl

theorem State.fwRec_fwStarted (why : Nat) : (s.fwStarted why).fwRec = s.fwRec := by
  rw [State.fwStarted, State.fwRec_startHeld, State.fwRec_refreshSteps, State.fwRec_ite, State.fwRec_tckErr, ite_self]

/-- A watchdog restart is raised as TCK_FW_RESTART. -/
theorem State.fwStarted_raises : ∃ r ∈ (s.fwStarted 1).err.flight, r.code = 0x0B09 := by
  obtain ⟨more, hflight⟩ := s.recordOf_in_flight { code := 0x0B09, blk := 29 }
  refine ⟨s.recordOf { code := 0x0B09, blk := 29 }, ?_, rfl⟩
  rw [State.fwStarted, if_pos rfl, State.err_startHeld, State.err_refreshSteps, State.tckErr, hflight]
  exact List.mem_append_right _ List.mem_cons_self

theorem State.fget_runFirmware (f : FwStart) {a lo w : Nat} (h : Unopened a) :
    (s.runFirmware f).fget ⟨a, lo, w⟩ = (s.fwEnabled f).fget ⟨a, lo, w⟩ := by
  rw [State.runFirmware_eq, State.fget_fwStarted _ _ h.toUnshown, State.fget, State.fget, State.reg_barnsOpened _ h]

theorem unopened_blkCtrl : ∀ b ∈ fwBlocks, Unopened (R.BLK_CTRL (b.base 0)) := by
  intro b hb
  have hge : ∀ b ∈ fwBlocks, 0x3000000 ≤ b.base0 ∧ b.base0 % 0x10000 = 0 := by decide
  obtain ⟨hge, hmod⟩ := hge b hb
  refine unopened_of_ge ⟨fun r hr => ?_, ?_, fun p => ?_, ?_⟩ ?_
  · simp only [R.BLK_CTRL, Blk.base, R.PCR_STEP_STATE]; omega
  · simp only [R.BLK_CTRL, Blk.base, R.TCK_ALERT]; omega
  · simp only [R.BLK_CTRL, Blk.base, R.LNK_PORT_STATE]; omega
  · simp only [R.BLK_CTRL, Blk.base, R.TCK_LSP_STAT]; omega
  · simp only [R.BLK_CTRL, Blk.base]; omega

theorem State.runFirmware_runs (f : FwStart) (hversion : f.version < 2 ^ 32) : (s.runFirmware f).fget F.TCK_STATE_STATE = 1 ∧
    (s.runFirmware f).fget F.TCK_STATE_IMAGE_VALID = 1 ∧ (s.runFirmware f).fget F.TCK_STATE_FW_VERSION = f.version ∧
    (s.runFirmware f).tck.libVer = f.libVer ∧ (s.runFirmware f).tck.restart = 0 ∧ (s.runFirmware f).tck.fwSec = s.tck.fwSec := by
  have hrec : (s.runFirmware f).fwRec = (f.libVer, 0, s.tck.fwSec) := by
    rw [State.runFirmware_eq, State.fwRec_fwStarted, State.fwRec_barnsOpened, State.fwRec_fwEnabled]
  have hapart : ∀ b ∈ fwBlocks, R.TCK_STATE ≠ R.BLK_CTRL (b.base 0) := by decide
  have hstate {lo w : Nat} : (s.runFirmware f).fget ⟨R.TCK_STATE, lo, w⟩ = (s.fwTaken f).fget ⟨R.TCK_STATE, lo, w⟩ := by
    rw [State.fget_runFirmware _ _ (unopened_of_ge unshown_tckState (by decide)), State.fget, State.fget,
      State.reg_fwEnabled _ _ hapart]
  obtain ⟨hruns, hvalid, hshown⟩ := s.fwTaken_shows f
  exact ⟨hstate.trans hruns, hstate.trans hvalid, hstate.trans (hshown.trans (Nat.mod_eq_of_lt hversion)),
    State.libVer_of_fwRec hrec, State.restart_of_fwRec hrec, State.fwSec_of_fwRec hrec⟩

theorem State.runFirmware_enables (f : FwStart) (hfirst : s.tck.started = false) :
    ∀ b ∈ fwBlocks, (s.runFirmware f).enabled (b.base 0) = true := by
  intro b hb
  have hfold : s.fwEnabled f = fwBlocks.foldl (fun t b => t.fwEnable b 0) (s.fwTaken f) := if_pos (by rw [hfirst]; rfl)
  have hon := (s.fwTaken f).enabled_foldl_fwEnable (fun _ => id) hb (.inr hb)
  rw [← hfold] at hon
  rw [State.enabled, State.fbit, F.BLK_CTRL_ENABLE, State.fget_runFirmware _ _ (unopened_blkCtrl b hb)]
  exact hon

theorem State.runFirmware_raises (f : FwStart) (hwhy : s.tck.restart = 1) : ∃ r ∈ (s.runFirmware f).err.flight, r.code = 0x0B09 := by
  rw [State.runFirmware_eq, hwhy]
  exact State.fwStarted_raises _

end

/-! ### FW_VERIFY_DONE and FW_RESTART_DONE (R437, R463, R466) -/

section
variable {s : State} {f : FwStart} {flash : List (Fin 2048 × Bool)}

/-- The counter follows the image's security version. -/
def State.secured (s : State) (sec : Nat) : State := { s.flashRecovered with tck := { s.tck with fwSec := sec } }

theorem State.romDone_runs (hvalid : f.valid = true) (hgood : s.tck.fwBad = false) (hsec : s.tck.fwSec ≤ f.security) :
    s.romDone f [] = (s.secured f.security).runFirmware f :=
  if_pos (by simp [State.flashReads_nil, State.flashRecovered, hvalid, hgood, hsec])

theorem State.romDone_recovers (h : f.valid = false ∨ f.security < s.tck.fwSec) : s.romDone f flash = (s.flashReads flash).recovery := by
  have hsec : (s.flashReads flash).tck.fwSec = s.tck.fwSec := State.fwSec_of_fwRec (s.fwRec_flashReads flash)
  refine if_neg ?_
  rw [hsec]
  rcases h with hvalid | hold
  · simp [hvalid]
  · simp [hold]

/-- The outcome of a start with an image that runs. -/
theorem State.romDone_shows (hvalid : f.valid = true) (hgood : s.tck.fwBad = false) (hsec : s.tck.fwSec ≤ f.security)
    (hversion : f.version < 2 ^ 32) : ((s.romDone f []).fget F.TCK_STATE_STATE = 1 ∧ (s.romDone f []).fget F.TCK_STATE_IMAGE_VALID = 1 ∧
      (s.romDone f []).fget F.TCK_STATE_FW_VERSION = f.version ∧ (s.romDone f []).tck.libVer = f.libVer ∧
      (s.romDone f []).tck.restart = 0 ∧ (s.romDone f []).tck.fwSec = f.security) ∧
    (s.tck.started = false → ∀ b ∈ fwBlocks, (s.romDone f []).enabled (b.base 0) = true) ∧
    (s.tck.restart = 1 → ∃ r ∈ (s.romDone f []).err.flight, r.code = 0x0B09) := by
  have hstarted : (s.secured f.security).tck.started = s.tck.started := rfl
  have hwhy : (s.secured f.security).tck.restart = s.tck.restart := rfl
  have hcounter : (s.secured f.security).tck.fwSec = f.security := rfl
  rw [State.romDone_runs hvalid hgood hsec, ← hstarted, ← hwhy]
  generalize s.secured f.security = u at hcounter
  obtain ⟨hstate, himage, hshown, hlib, hrestart, hsec⟩ := u.runFirmware_runs f hversion
  exact ⟨⟨hstate, himage, hshown, hlib, hrestart, hsec.trans hcounter⟩, u.runFirmware_enables f, u.runFirmware_raises f⟩

end

/-- A start as FW_VERIFY_DONE and FW_RESTART_DONE give it. -/
def fwStart (valid : Bool) (security version libVer : Word32) (lib : List Word32) : FwStart :=
  ⟨valid, security.toNat, version.toNat, libVer.toNat, Tab.setRun zero32 [] 0 (lib.take 262144)⟩

section
variable {s : State} (security version libVer : Word32) (lib : List Word32) (flash : List (Fin 2048 × Bool))

theorem exec_fwVerifyDone (valid : Bool) (hpower : s.powered = true)
    (hst : s.fget F.TCK_STATE_STATE = 0 ∨ s.fget F.TCK_STATE_STATE = 3) :
    exec (.fwVerifyDone valid security version libVer lib flash) s =
      .next (s.romDone (fwStart valid security version libVer lib) flash) := by
  refine congrArg Host.Outcome.next (if_pos ?_)
  rcases hst with hst | hst
  · rw [hpower, hst]
    rfl
  · rw [hpower, hst]
    rfl

theorem fwVerifyDone_waits (valid : Bool)
    (h : s.powered = false ∨ s.fget F.TCK_STATE_STATE = 1 ∨ s.fget F.TCK_STATE_STATE = 2) :
    exec (.fwVerifyDone valid security version libVer lib flash) s = .next s := by
  refine congrArg Host.Outcome.next (if_neg ?_)
  rcases h with hoff | hst | hst
  · simp [hoff]
  · simp [hst]
  · simp [hst]

theorem exec_fwRestartDone (valid : Bool) (hst : s.fget F.TCK_STATE_STATE = 2) :
    exec (.fwRestartDone valid security version libVer lib flash) s =
      .next (s.romDone (fwStart valid security version libVer lib) flash) :=
  congrArg Host.Outcome.next (if_pos hst)

end

theorem lockstepMismatch_restarts {s : State} (hpower : s.powered = true) : Runs .lockstepMismatch s (fun t =>
    t.fget F.TCK_STATE_STATE = 2 ∧ t.tck.restart = 3 ∧ Raises s t 0x0B02 3) := by
  obtain ⟨hstate, hwhy, herr, -, -⟩ := (s.tckErr 0x0B02 0 0).restartTck_spec 3
  have hraises : Raises s (s.tckErr 0x0B02 0 0) 0x0B02 3 :=
    raises_of_fatal (u := s) rfl (e := { code := 0x0B02, blk := 29 }) (by exact (by decide : codeClass 0x0B02 = 0))
      (by exact (by decide : codeSev 0x0B02 = 3))
  exact ⟨_, congrArg Host.Outcome.next (if_pos hpower), hstate, hwhy, hraises.of_err rfl herr⟩

/-- Settles O50: an image that runs, one that does not, and restarts. -/
theorem firmwareCompletes : Obligations.FirmwareCompletes := by
  unfold Obligations.FirmwareCompletes
  intro security version libVer lib flash s st runs
  have hshows (hgood : s.tck.fwBad = false) (hsec : s.tck.fwSec ≤ security.toNat) :=
    State.romDone_shows (f := fwStart true security version libVer lib) rfl hgood hsec version.isLt
  refine ⟨fun hpower hst hgood hsec => ?verified, fun hpower hst => ?invalid, fun hpower hst hold => ?old,
    fun valid => fwVerifyDone_waits security version libVer lib flash valid, fun hst => ?expires,
    fun hst => congrArg Host.Outcome.next (if_neg (by simpa [State.tckRun] using hst)), lockstepMismatch_restarts,
    fun hoff => congrArg Host.Outcome.next (if_neg (by simp [hoff])), fun hst hgood hsec => ?restarted, fun hst => ?fails,
    fun valid hst => congrArg Host.Outcome.next (if_neg hst)⟩
  case verified =>
    obtain ⟨hruns, hblocks, -⟩ := hshows hgood hsec
    exact ⟨_, exec_fwVerifyDone security version libVer lib [] true hpower hst, hruns, hblocks⟩
  case invalid =>
    refine ⟨_, exec_fwVerifyDone security version libVer lib flash false hpower hst, ?_⟩
    rw [State.romDone_recovers (.inl rfl)]
    obtain ⟨hstate, hvalid, hversion, -⟩ := (s.flashReads flash).recovery_spec
    exact ⟨hstate, hvalid, hversion⟩
  case old =>
    refine ⟨_, exec_fwVerifyDone security version libVer lib flash true hpower hst, ?_⟩
    rw [State.romDone_recovers (.inr hold)]
    obtain ⟨hstate, hvalid, -, hsec⟩ := (s.flashReads flash).recovery_spec
    exact ⟨hstate, hvalid, hsec.trans (State.fwSec_of_fwRec (s.fwRec_flashReads flash))⟩
  case expires =>
    obtain ⟨hstate, hwhy, -, hjobs, hstalls⟩ := s.restartTck_spec 1
    exact ⟨_, congrArg Host.Outcome.next (if_pos (by simpa [State.tckRun] using hst)), hstate, hwhy, hjobs, hstalls⟩
  case restarted =>
    obtain ⟨hruns, -, hraises⟩ := hshows hgood hsec
    exact ⟨_, exec_fwRestartDone security version libVer lib [] true hst, hruns, hraises⟩
  case fails =>
    refine ⟨_, exec_fwRestartDone security version libVer lib flash false hst, ?_⟩
    rw [State.romDone_recovers (.inl rfl)]
    exact (s.flashReads flash).recovery_spec.1

end Sys2Proof.Machine

/-! OBLIGATION O53. The host mailboxes, and MCTP. -/

namespace Sys2Proof.Machine

/-! ### Runs of entries -/

section
variable {α : Type} [DecidableEq α] (d : Nat → α)

theorem Tab.get_setRun_before (vs : List α) {t : Tab α} {k n : Nat} (h : n < k) : Tab.get d (Tab.setRun d t k vs) n = Tab.get d t n := by
  induction vs generalizing t k with
  | nil => rfl
  | cons v vs ih =>
    rw [Tab.setRun, ih (Nat.lt_succ_of_lt h), Tab.get_set_other _ _ h.ne]

/-- A run reads as it was written. -/
theorem Tab.getRun_setRun (vs : List α) (t : Tab α) (k : Nat) : Tab.getRun d (Tab.setRun d t k vs) k vs.length = vs := by
  induction vs generalizing t k with
  | nil => rfl
  | cons v vs ih =>
    rw [List.length_cons, Tab.setRun, Tab.getRun, ih, Tab.get_setRun_before d vs (Nat.lt_succ_self k), Tab.get_set_same]

end

theorem length_mbxBytes (status tag : Nat) (body : List Byte) : (mbxBytes status tag body).length = 8 + body.length := by
  simp only [mbxBytes, List.length_append, leBytes_length]

/-! ### TCK_MBX_CTL (R434) -/

theorem listed_mbxDone (p : HostPort) : (F.TCK_MBX_CTL_DONE p).Listed :=
  Fld.listed_of_row .tck 0 0x700 2 8 p (by decide) p.isLt (by decide) rfl

theorem listed_mbxLevel (p : HostPort) : (F.TCK_MBX_CTL_LEVEL p).Listed :=
  Fld.listed_of_row .tck 0 0x700 2 8 p (by decide) p.isLt (by decide) rfl

theorem mbxCtl_ne_tckState (p : Nat) : R.TCK_STATE ≠ R.TCK_MBX_CTL p := by
  simp only [R.TCK_STATE, R.TCK_MBX_CTL]
  omega

section
variable (s : State) (p : HostPort) (status tag : Nat) (body : List Byte)

theorem State.mbxAnswer_frame : s.mbxAnswer p status tag body =
    { s with tck := { s.tck with buf := (s.mbxAnswer p status tag body).tck.buf }, regs := (s.mbxAnswer p status tag body).regs } := rfl

theorem State.mbxGet_mbxAnswer : (s.mbxAnswer p status tag body).mbxGet p 0 (8 + body.length) = mbxBytes status tag body := by
  rw [← length_mbxBytes status tag body]
  exact Tab.getRun_setRun zero8 (mbxBytes status tag body) s.tck.buf (4096 * p)

theorem State.fget_mbxAnswer_other {g : Fld} (h : g.addr ≠ R.TCK_MBX_CTL p) : (s.mbxAnswer p status tag body).fget g = s.fget g :=
  State.fget_fset_other _ _ h

theorem State.done_mbxAnswer : (s.mbxAnswer p status tag body).fget (F.TCK_MBX_CTL_DONE p) = 1 :=
  State.fget_fset_same _ _ (listed_mbxDone p)

theorem State.level_mbxAnswer :
    (s.mbxAnswer p status tag body).fget (F.TCK_MBX_CTL_LEVEL p) = s.fget (F.TCK_MBX_CTL_LEVEL p) :=
  State.fget_fset_apart _ _ (listed_mbxLevel p) (.inr ⟨Nat.one_pos, .inr (show 2 + 1 ≤ 32 by decide)⟩)

end

theorem State.fset_frame (s : State) (f : Fld) (v : Nat) :
    s.fset f v = { s with regs := (s.fset f v).regs, freeCtr := (s.fset f v).freeCtr } := rfl

/-- A command that answers on a device of which only registers and free values differ. -/
theorem mbxSays_of_exec {c : Instr} {s u : State} {p : HostPort} {status tag : Nat} {body : List Byte}
    (hexec : exec c s = .next (u.mbxAnswer p status tag body)) (hu : u = { s with regs := u.regs, freeCtr := u.freeCtr }) :
    MbxSays c p status tag body s := by
  refine ⟨_, hexec, u.mbxGet_mbxAnswer .., u.done_mbxAnswer .., ?_⟩
  rw [hu]
  rfl

/-! ### Requests (R434, R435) -/

/-- What becomes of a request once a level is agreed, or in RECOVERY. -/
def State.mbxServe (s : State) (p : Nat) (ok : Bool) (op len tag : Nat) (body : List Byte) : State :=
  let answer (r : Nat × List Byte) : State := s.mbxAnswer p r.1 tag r.2
  if op = 3 then answer (s.logRead (field body 0 4) (field body 4 4))
  else if op = 4 then s.mbxAnswer p 0 tag s.sensorBytes
  else if op = 5 then (powerTable 24 s []).2.mbxAnswer p 0 tag (powerTable 24 s []).1
  else if op = 6 then (s.fwUpdateCmd body len ok).2.mbxAnswer p (s.fwUpdateCmd body len ok).1 tag []
  else if op = 7 then (s.mbxAnswer p 0 tag []).restartTck 2
  else if op = 8 then
    if s.fget (F.TCK_MBX_CTL_LEVEL p) % 65536 = 0 then s.mbxAnswer p 3 tag [] else answer (s.traceRead (field body 0 4) (field body 4 4))
  else s.mbxAnswer p 2 tag []

section
variable {s : State} {p : HostPort} {ok : Bool} {op len tag : Nat} {body : List Byte} (hq : MbxHolds s p op len tag body)
  (hidle : s.fbit (F.TCK_MBX_CTL_BUSY p) = false)
include hq hidle

/-- MBX_GO by what runs, the opcode and the level. -/
theorem exec_mbxGo : exec (.mbxGo p ok) s = .next (
    if !s.tckRun && !(s.fget F.TCK_STATE_STATE = 3 && op = 6) then s.mbxAnswer p 1 tag []
    else if op = 1 then s.mbxAnswer p 0 tag s.infoBytes
    else if op = 2 then s.setLevel p tag (field body 0 2) (field body 2 2)
    else if s.fget (F.TCK_MBX_CTL_LEVEL p) = 0 && !(s.fget F.TCK_STATE_STATE = 3 : Bool) then s.mbxAnswer p 3 tag []
    else s.mbxServe p ok op len tag body) := by
  obtain ⟨rfl, rfl, rfl, rfl⟩ := hq
  rw [exec, execMbxGo, hidle]
  rfl

theorem mbxGo_busy (hst : s.fget F.TCK_STATE_STATE ≠ 1) (hrom : ¬ (s.fget F.TCK_STATE_STATE = 3 ∧ op = 6)) :
    exec (.mbxGo p ok) s = .next (s.mbxAnswer p 1 tag []) := by
  rw [exec_mbxGo hq hidle, if_pos (by simpa [State.tckRun, hst, imp_iff_not_or] using hrom)]

section
variable (hst : s.fget F.TCK_STATE_STATE = 1)
include hst

theorem mbxGo_info (hop : op = 1) : exec (.mbxGo p ok) s = .next (s.mbxAnswer p 0 tag s.infoBytes) := by
  rw [exec_mbxGo hq hidle, if_neg (by simp [State.tckRun, hst]), if_pos hop]

theorem mbxGo_level (hop : op = 2) : exec (.mbxGo p ok) s = .next (s.setLevel p tag (field body 0 2) (field body 2 2)) := by
  subst hop
  rw [exec_mbxGo hq hidle, if_neg (by simp [State.tckRun, hst]), if_neg (by decide), if_pos rfl]

theorem mbxGo_refused (h1 : op ≠ 1) (h2 : op ≠ 2) (hlevel : s.fget (F.TCK_MBX_CTL_LEVEL p) = 0) :
    exec (.mbxGo p ok) s = .next (s.mbxAnswer p 3 tag []) := by
  rw [exec_mbxGo hq hidle, if_neg (by simp [State.tckRun, hst]), if_neg h1, if_neg h2, if_pos (by simp [hlevel, hst])]

end

theorem mbxGo_serves
    (h : (s.fget F.TCK_STATE_STATE = 1 ∧ s.fget (F.TCK_MBX_CTL_LEVEL p) ≠ 0) ∨ s.fget F.TCK_STATE_STATE = 3 ∧ op = 6)
    (h1 : op ≠ 1) (h2 : op ≠ 2) : exec (.mbxGo p ok) s = .next (s.mbxServe p ok op len tag body) := by
  rw [exec_mbxGo hq hidle, if_neg ?_, if_neg h1, if_neg h2, if_neg ?_]
  · rcases h with ⟨-, hlevel⟩ | ⟨hrom, -⟩
    · simp [hlevel]
    · simp [hrom]
  · rcases h with ⟨hst, -⟩ | ⟨hrom, hop⟩
    · simp [State.tckRun, hst]
    · simp [hrom, hop]

end

/-! ### What each opcode does -/

section
variable (s : State) (p : HostPort) (ok : Bool) (len tag : Nat) (body : List Byte)

theorem powerTable_spec (n : Nat) (s : State) (acc : List Byte) : (powerTable n s acc).1.length = acc.length + 4 * n ∧
    (powerTable n s acc).2 = { s with freeCtr := (powerTable n s acc).2.freeCtr } := by
  induction n generalizing s acc with
  | zero => exact ⟨rfl, rfl⟩
  | succ n ih =>
    obtain ⟨hlen, hframe⟩ := ih s.free.2 (acc ++ leBytes 4 s.free.1.toNat)
    refine ⟨?_, hframe⟩
    rw [powerTable, hlen, List.length_append, leBytes_length]
    omega

theorem State.setLevel_agrees (minor : Nat) : s.setLevel p tag 3 minor =
    (s.fset (F.TCK_MBX_CTL_LEVEL p) (0x30000 + min minor 1)).mbxAnswer p 0 tag (leBytes 2 3 ++ leBytes 2 (min minor 1)) := if_pos rfl

theorem State.level_setLevel (minor : Nat) : (s.setLevel p tag 3 minor).fget (F.TCK_MBX_CTL_LEVEL p) = 0x30000 + min minor 1 := by
  rw [State.setLevel_agrees, State.level_mbxAnswer, State.fget_fset_same _ _ (listed_mbxLevel p)]
  exact Nat.mod_eq_of_lt (show 0x30000 + min minor 1 < 2 ^ 32 by omega)

theorem mbxGo_agrees {s : State} {p : HostPort} {ok : Bool} {op len tag : Nat} {body : List Byte} (hq : MbxHolds s p op len tag body)
    (hidle : s.fbit (F.TCK_MBX_CTL_BUSY p) = false) (hst : s.fget F.TCK_STATE_STATE = 1) (hop : op = 2) (hmajor : field body 0 2 = 3) :
    MbxSays (.mbxGo p ok) p 0 tag (leBytes 2 3 ++ leBytes 2 (min (field body 2 2) 1)) s ∧
      Runs (.mbxGo p ok) s (fun t => t.fget (F.TCK_MBX_CTL_LEVEL p) = 0x30000 + min (field body 2 2) 1) := by
  have hexec := mbxGo_level (ok := ok) hq hidle hst hop
  rw [hmajor] at hexec
  generalize field body 2 2 = minor at hexec ⊢
  have hlevel := s.level_setLevel p tag minor
  rw [State.setLevel_agrees] at hexec hlevel
  have hframe := s.fset_frame (F.TCK_MBX_CTL_LEVEL p) (0x30000 + min minor 1)
  generalize s.fset (F.TCK_MBX_CTL_LEVEL p) (0x30000 + min minor 1) = u at hexec hlevel hframe
  exact ⟨mbxSays_of_exec hexec hframe, _, hexec, hlevel⟩

theorem State.mbxServe_activate : s.mbxServe p ok 7 len tag body = (s.mbxAnswer p 0 tag []).restartTck 2 := by
  rw [State.mbxServe, if_neg (by decide), if_neg (by decide), if_neg (by decide), if_neg (by decide), if_pos rfl]

theorem State.mbxServe_begin (hbegin : field body 0 4 = 0) : s.mbxServe p ok 6 len tag body =
    if s.tck.fwUpdate then s.mbxAnswer p 1 tag [] else s.fwBegin.mbxAnswer p 0 tag [] := by
  have hcmd : s.fwUpdateCmd body len ok = if s.tck.fwUpdate then (1, s) else (0, s.fwBegin) := if_pos hbegin
  change (s.fwUpdateCmd body len ok).2.mbxAnswer p (s.fwUpdateCmd body len ok).1 tag [] = _
  rw [hcmd]
  split
  · rfl
  · rfl

theorem State.mbxServe_end (hend : field body 0 4 = 2) (hopen : s.tck.fwUpdate = true) :
    s.mbxServe p ok 6 len tag body = (s.fwEnd ok).mbxAnswer p 0 tag [] := by
  have hcmd : s.fwUpdateCmd body len ok = (0, s.fwEnd ok) := by
    rw [State.fwUpdateCmd, hend, hopen]
    rfl
  change (s.fwUpdateCmd body len ok).2.mbxAnswer p (s.fwUpdateCmd body len ok).1 tag [] = _
  rw [hcmd]

/-- The Tackroom's note of an image that does not verify. -/
def updateNote : Err := { code := 0x0B06, blk := 29 }

theorem State.tckErr_update : s.tckErr 0x0B06 0 0 = s.raiseRec updateNote :=
  State.raise_of_mild (e := updateNote) (by exact (by decide : codeClass 0x0B06 = 0)) (by exact (by decide : codeSev 0x0B06 < 2))

/-- The session is over, and the image is as good as its check found. -/
def State.fwClosed (s : State) (ok : Bool) : State := { s with tck := { s.tck with fwUpdate := false, fwBad := !ok } }

theorem State.fwEnd_good : s.fwEnd true = (s.fwClosed true).fset F.TCK_STATE_IMAGE_VALID 1 := rfl

theorem State.fwEnd_bad : s.fwEnd false = ((s.fwClosed false).fset F.TCK_STATE_IMAGE_VALID 0).raiseRec updateNote :=
  ((s.fwClosed false).fset F.TCK_STATE_IMAGE_VALID 0).tckErr_update

theorem State.fwEnd_spec : (s.fwEnd ok).tck.fwUpdate = false ∧ (s.fwEnd ok).tck.fwBad = (!ok) ∧
    (s.fwEnd ok).fget F.TCK_STATE_IMAGE_VALID = (if ok = true then 1 else 0) ∧ (ok = false → Raises s (s.fwEnd ok) 0x0B06 1) := by
  have hclass : codeClass updateNote.code = 0 := by exact (by decide : codeClass 0x0B06 = 0)
  have htck : (s.fwClosed ok).tck.fwUpdate = false ∧ (s.fwClosed ok).tck.fwBad = !ok := ⟨rfl, rfl⟩
  have herr : (s.fwClosed ok).err = s.err := rfl
  cases ok with
  | true =>
    rw [State.fwEnd_good]
    generalize s.fwClosed true = u at htck
    exact ⟨htck.1, htck.2, State.fget_fset_same _ _ listed_imageValid, fun h => absurd h (by decide)⟩
  | false =>
    rw [State.fwEnd_bad]
    generalize s.fwClosed false = u at htck herr
    have hsame : ((u.fset F.TCK_STATE_IMAGE_VALID 0).raiseRec updateNote).tck = u.tck := by
      rw [State.raiseRec_frame]
      rfl
    have hvalid : ((u.fset F.TCK_STATE_IMAGE_VALID 0).raiseRec updateNote).fget F.TCK_STATE_IMAGE_VALID = 0 :=
      (State.fget_raiseRec hclass _).trans (State.fget_fset_same _ _ listed_imageValid)
    have hraises : Raises (u.fset F.TCK_STATE_IMAGE_VALID 0) ((u.fset F.TCK_STATE_IMAGE_VALID 0).raiseRec updateNote) 0x0B06 1 :=
      State.raises_raiseRec hclass
    exact ⟨hsame ▸ htck.1, hsame ▸ htck.2, hvalid, fun _ => hraises.of_err ((State.err_fset ..).trans herr).symm rfl⟩

end

/-! ### MCTP (R436) -/

section
variable {s : State} {ch : Fin 3} {ty : BitVec 8} {msg : List Byte} {off : Word32} {ok : Bool}

theorem pldmRequest_waits (h : s.powered = false ∨ s.fget F.TCK_STATE_STATE = 2 ∨ (ch.val < 2 ∧ s.canRead ch = false)) :
    exec (.pldmRequest ch ty msg off ok) s = .next s := by
  refine congrArg Host.Outcome.next (if_pos ?_)
  rcases h with hoff | hst | ⟨hch, hread⟩
  · simp [hoff]
  · simp [hst]
  · simp [hch, hread]

/-- A message by its type, where the device answers. -/
theorem exec_pldmRequest (hpower : s.powered = true) (hst : s.fget F.TCK_STATE_STATE ≠ 2) (hread : ch.val < 2 → s.canRead ch = true) :
    exec (.pldmRequest ch ty msg off ok) s = .next (
      if ty = 0 then s.free.2.send (.message (20 + ch) (leBytes 8 s.free.1.toNat))
      else if ty = 1 then
        if s.fget F.TCK_STATE_STATE = 1 || (s.fget F.TCK_STATE_STATE = 3 && ch = 2 && field msg 1 1 % 64 = 5) then
          s.pldm (20 + ch) off.toNat ok msg else s
      else s) := by
  refine congrArg Host.Outcome.next (if_neg ?_)
  simp only [hpower, hst, Bool.not_true, Bool.false_or, decide_false, Bool.and_eq_true, decide_eq_true_eq, not_and]
  intro hch
  simp [hread hch]

theorem field_lt (bs : List Byte) (o n : Nat) : field bs o n < 256 ^ n :=
  (leNat_lt _).trans_le (Nat.pow_le_pow_right (by decide) (List.length_take_le n _))

/-- A PLDM request is answered under its own number, type and command. -/
theorem State.pldm_answers (s : State) (c off : Nat) (ok : Bool) (hrq : bit (field msg 0 1) 7 = true) :
    ∃ r m, (s.pldm c off ok msg).out = r ++ [.message c m] ∧ field m 0 1 = field msg 0 1 % 32 ∧
      field m 1 1 = field msg 1 1 % 64 ∧ field m 2 1 = field msg 2 1 := by
  have hpldm : s.pldm c off ok msg = (s.pldmAnswer (field msg 1 1 % 64) (field msg 2 1) (msg.drop 3)).2.send (.message c
      (leBytes 1 (field msg 0 1 % 32) ++ leBytes 1 (field msg 1 1 % 64) ++ leBytes 1 (field msg 2 1) ++
        (s.pldmAnswer (field msg 1 1 % 64) (field msg 2 1) (msg.drop 3)).1)) := if_pos hrq
  have hcmd : field msg 2 1 < 256 := field_lt msg 2 1
  refine ⟨_, _, congrArg State.out hpldm, ?_, ?_, ?_⟩
  · rw [List.append_assoc, List.append_assoc, field_first]
    omega
  · rw [List.append_assoc, List.append_assoc, field_behind _ _ _ (by decide), field_first]
    omega
  · rw [List.append_assoc, List.append_assoc, field_behind _ _ _ (by decide), field_behind _ _ _ (by decide), field_first]
    omega

end

/-- Settles O53: one theorem for each opcode, and for each type of message. -/
theorem mailboxesAnswer : Obligations.MailboxesAnswer := by
  unfold Obligations.MailboxesAnswer
  intro p ok s op len tag body hq
  have hsays {status : Nat} {b : List Byte} (h : exec (.mbxGo p ok) s = .next (s.mbxAnswer p status tag b)) :
      MbxSays (.mbxGo p ok) p status tag b s := mbxSays_of_exec h rfl
  extract_lets st level go idle agreed w
  have hserves (hidle : idle) (h : agreed ∨ st = 3 ∧ op = 6) (h1 : op ≠ 1) (h2 : op ≠ 2) :
      exec go s = .next (s.mbxServe p ok op len tag body) := mbxGo_serves hq hidle h h1 h2
  refine ⟨fun h => congrArg Host.Outcome.next (if_pos (eq_true_of_ne_false h)),
    fun hidle hst hrom => hsays (mbxGo_busy hq hidle hst hrom),
    fun hidle hst hop => hsays (mbxGo_info hq hidle hst hop), fun hidle hst hop hmajor => ?agrees, fun hidle hst hop hmajor => ?differs,
    fun hidle hst h1 h2 hlevel => hsays (mbxGo_refused hq hidle hst h1 h2 hlevel), fun hidle h hop => ?log,
    fun hidle h hop => hsays (hserves hidle (.inl h) (by omega) (by omega) |>.trans (by rw [hop]; rfl)), fun hidle h hop => ?power,
    fun hidle h hop hbegin hopen => ?second, fun hidle h hop hbegin hclosed => ?begins, fun hidle h hop hend hopen => ?ends,
    fun hidle h hop => ?activate, fun hidle h hop hminor => ?untraced, fun hidle h hop hminor => ?trace, fun hidle h hop => ?unknown,
    fun ch ty msg off => ⟨pldmRequest_waits, fun hpower hst hread => ?mctp,
      fun c hrq => ⟨⟨_, rfl, trivial⟩, s.pldm_answers c _ ok hrq⟩⟩⟩
  case agrees =>
    exact mbxGo_agrees hq hidle hst hop hmajor
  case differs =>
    have hexec : exec go s = .next (s.mbxAnswer p 3 tag []) :=
      (mbxGo_level (ok := ok) hq hidle hst hop).trans (congrArg Host.Outcome.next (if_neg hmajor))
    exact ⟨hsays hexec, _, hexec, s.level_mbxAnswer ..⟩
  case log =>
    exact ⟨_, _, rfl, hsays (hserves hidle (.inl h) (by omega) (by omega) |>.trans (by rw [hop]; rfl))⟩
  case power =>
    obtain ⟨hlen, hframe⟩ := powerTable_spec 24 s []
    refine ⟨(powerTable 24 s []).1, hlen, mbxSays_of_exec (hserves hidle (.inl h) (by omega) (by omega) |>.trans (by rw [hop]; rfl)) ?_⟩
    generalize (powerTable 24 s []).2 = u at hframe
    rw [hframe]
  case second =>
    subst hop
    refine hsays (hserves hidle (h.imp_right (⟨·, rfl⟩)) (by decide) (by decide) |>.trans ?_)
    rw [s.mbxServe_begin p ok len tag body hbegin, if_pos hopen]
  case begins =>
    subst hop
    have hexec := hserves hidle (h.imp_right (⟨·, rfl⟩)) (by decide) (by decide)
    rw [s.mbxServe_begin p ok len tag body hbegin, if_neg (by simp [hclosed])] at hexec
    have hopens : s.fwBegin.tck.fwUpdate = true ∧ s.fwBegin.tck.fwBad = true ∧ s.fwBegin.tck.fwWrites = [] := ⟨rfl, rfl, rfl⟩
    have hvalid : s.fwBegin.fget F.TCK_STATE_IMAGE_VALID = 0 := State.fget_fset_same _ _ listed_imageValid
    generalize s.fwBegin = u at hexec hopens hvalid
    obtain ⟨hupdate, hbad, hwrites⟩ := hopens
    exact ⟨_, hexec, hupdate, hbad, hwrites, (u.fget_mbxAnswer_other p _ _ _ (mbxCtl_ne_tckState p)).trans hvalid,
      u.mbxGet_mbxAnswer ..⟩
  case ends =>
    subst hop
    have hexec := hserves hidle (h.imp_right (⟨·, rfl⟩)) (by decide) (by decide)
    rw [s.mbxServe_end p ok len tag body hend hopen] at hexec
    obtain ⟨hupdate, hbad, hvalid, hraises⟩ := s.fwEnd_spec ok
    generalize s.fwEnd ok = u at hexec hupdate hbad hvalid hraises
    exact ⟨_, hexec, hupdate, hbad, (u.fget_mbxAnswer_other p _ _ _ (mbxCtl_ne_tckState p)).trans hvalid,
      fun h => (hraises h).of_err rfl rfl, u.mbxGet_mbxAnswer ..⟩
  case activate =>
    subst hop
    have hexec := hserves hidle (.inl h) (by decide) (by decide)
    rw [State.mbxServe_activate] at hexec
    have hjobs : (s.mbxAnswer p 0 tag []).jobs = s.jobs := rfl
    generalize s.mbxAnswer p 0 tag [] = u at hexec hjobs
    obtain ⟨hstate, hwhy, -, hsame, -⟩ := u.restartTck_spec 2
    exact ⟨_, hexec, hstate, hwhy, hsame.trans hjobs⟩
  case untraced =>
    subst hop
    exact hsays ((hserves hidle (.inl h) (by decide) (by decide)).trans (congrArg Host.Outcome.next (if_pos hminor)))
  case trace =>
    subst hop
    exact ⟨_, _, rfl, hsays ((hserves hidle (.inl h) (by decide) (by decide)).trans (congrArg Host.Outcome.next (if_neg hminor)))⟩
  case unknown =>
    refine hsays ((hserves hidle (.inl h) (by omega) (by omega)).trans (congrArg Host.Outcome.next ?_))
    rw [State.mbxServe, if_neg (by omega), if_neg (by omega), if_neg (by omega), if_neg (by omega), if_neg (by omega),
      if_neg (by omega)]
  case mctp =>
    have hexec := exec_pldmRequest (ty := ty) (msg := msg) (off := off) (ok := ok) hpower hst hread
    refine ⟨fun hty => ?_, fun hty => ?_, fun hty hruns => ?_, fun hty hrom => ?_⟩
    · rw [if_pos hty] at hexec
      exact ⟨_, hexec, _, rfl, rfl⟩
    · rw [hexec, if_neg (by rintro rfl; exact absurd hty (by decide)), if_neg (by rintro rfl; exact absurd hty (by decide))]
    · rw [hexec, hty, if_neg (by decide), if_pos rfl, if_pos (by simp [show s.fget F.TCK_STATE_STATE = 1 from hruns])]
    · rw [hexec, hty, if_neg (by decide), if_pos rfl, if_neg (by simp [show s.fget F.TCK_STATE_STATE = 0 from hrom])]

end Sys2Proof.Machine

/-! OBLIGATION O45. The host ports. -/

namespace Sys2Proof.Machine

/-! ### HST_PORT_STATE (R376, R467) -/

section
variable (p : HostPort)

theorem portState_at : R.HST_PORT_STATE p = Blk.hst.base p + 0x118 + 8 * 0 := by
  simp only [R.HST_PORT_STATE, Blk.base, Blk.base0, Blk.stride]
  omega

theorem listed_portWidth : (F.HST_PORT_STATE_WIDTH p).Listed :=
  Fld.listed_of_row .hst p 0x118 1 8 0 p.isLt (by decide) (by decide) (portState_at p)

theorem listed_portSpeed : (F.HST_PORT_STATE_SPEED p).Listed :=
  Fld.listed_of_row .hst p 0x118 1 8 0 p.isLt (by decide) (by decide) (portState_at p)

theorem listed_portSecure : (F.HST_PORT_STATE_IDE_SECURE p).Listed :=
  Fld.listed_of_row .hst p 0x118 1 8 0 p.isLt (by decide) (by decide) (portState_at p)

theorem apart_width_flit : (F.HST_PORT_STATE_WIDTH p).Apart (F.HST_PORT_STATE_FLIT p) :=
  .inr ⟨Nat.one_pos, .inl (show 6 + 3 ≤ 9 by decide)⟩

theorem apart_width_speed : (F.HST_PORT_STATE_WIDTH p).Apart (F.HST_PORT_STATE_SPEED p) :=
  .inr ⟨show 0 < 2 by decide, .inr (show 4 + 2 ≤ 6 by decide)⟩

theorem apart_speed_flit : (F.HST_PORT_STATE_SPEED p).Apart (F.HST_PORT_STATE_FLIT p) :=
  .inr ⟨Nat.one_pos, .inl (show 4 + 2 ≤ 9 by decide)⟩

end

/-! ### What the state of a port leaves alone -/

/-- The jobs, their rings and the stalls, and the other port. -/
def State.beside (p : Nat) (s : State) : Tab Job × Tab Ring × Tab Stall × ({ q : Nat // q ≠ p } → HostSt) :=
  (s.jobs, s.rings, s.stalls, fun q => s.hst q)

section
variable {s t : State} {p : Nat} (h : t.beside p = s.beside p)
include h

theorem State.jobs_of_beside : t.jobs = s.jobs := congrArg Prod.fst h

theorem State.rings_of_beside : t.rings = s.rings :=
  congrArg (fun x : Tab Job × Tab Ring × Tab Stall × ({ q : Nat // q ≠ p } → HostSt) => x.2.1) h

theorem State.stalls_of_beside : t.stalls = s.stalls :=
  congrArg (fun x : Tab Job × Tab Ring × Tab Stall × ({ q : Nat // q ≠ p } → HostSt) => x.2.2.1) h

theorem State.hst_of_beside : ∀ q, q ≠ p → t.hst q = s.hst q := fun q hq =>
  congrFun (congrArg (fun x : Tab Job × Tab Ring × Tab Stall × ({ q : Nat // q ≠ p } → HostSt) => x.2.2.2) h) ⟨q, hq⟩

end

section
variable {p : Nat} (s : State)

@[simp] theorem State.beside_ite (c : Prop) [Decidable c] (t : State) :
    (if c then s else t).beside p = if c then s.beside p else t.beside p := apply_ite (State.beside p) c s t

@[simp] theorem State.beside_setReg (a v : Nat) : (s.setReg a v).beside p = s.beside p := (rfl)
@[simp] theorem State.beside_fset (f : Fld) (v : Nat) : (s.fset f v).beside p = s.beside p := (rfl)
@[simp] theorem State.beside_fsat (f : Fld) (k : Nat) : (s.fsat f k).beside p = s.beside p := (rfl)
@[simp] theorem State.beside_fwrap (f : Fld) (k : Nat) : (s.fwrap f k).beside p = s.beside p := (rfl)
@[simp] theorem State.beside_send (o : Out) : (s.send o).beside p = s.beside p := (rfl)
@[simp] theorem State.beside_showPort (q : Nat) : (s.showPort q).beside p = s.beside p := (rfl)

@[simp] theorem State.beside_commitRef (b : Blk) (i : Nat) : (s.commitRef b i).beside p = s.beside p := (rfl)
theorem State.hst_commitRef (b : Blk) (i n : Nat) : (s.commitRef b i).hst n = s.hst n := (rfl)
theorem State.reg_commitRef (b : Blk) (i a : Nat) : (s.commitRef b i).reg a = s.reg a := (rfl)

@[simp] theorem State.beside_updHst (f : HostSt → HostSt) : (s.updHst p f).beside p = s.beside p :=
  Prod.ext rfl (Prod.ext rfl (Prod.ext rfl (funext fun q => State.updHst_other s f q.2)))

@[simp] theorem State.beside_raiseRec (e : Err) : (s.raiseRec e).beside p = s.beside p := by
  rw [State.raiseRec_frame]
  rfl

@[simp] theorem State.hst_fset (f : Fld) (v n : Nat) : (s.fset f v).hst n = s.hst n := (rfl)
@[simp] theorem State.hst_fsat (f : Fld) (v n : Nat) : (s.fsat f v).hst n = s.hst n := (rfl)
@[simp] theorem State.hst_fwrap (f : Fld) (v n : Nat) : (s.fwrap f v).hst n = s.hst n := (rfl)
@[simp] theorem State.hst_send (o : Out) (n : Nat) : (s.send o).hst n = s.hst n := (rfl)
@[simp] theorem State.hst_showPort (q n : Nat) : (s.showPort q).hst n = s.hst n := (rfl)

@[simp] theorem State.copies_fwrap (f : Fld) (v : Nat) : (s.fwrap f v).copies = s.copies := (rfl)
@[simp] theorem State.copies_fset (f : Fld) (v : Nat) : (s.fset f v).copies = s.copies := (rfl)
@[simp] theorem State.copies_showPort (q : Nat) : (s.showPort q).copies = s.copies := (rfl)

@[simp] theorem State.hst_raiseRec (e : Err) (n : Nat) : (s.raiseRec e).hst n = s.hst n := by
  rw [State.raiseRec_frame]
  rfl

end

/-! ### Errors of a port -/

/-- The note of an error of a port. -/
def portNote (p code : Nat) : Err := { code := code, blk := 30 + p, detail := p }

theorem State.hstErr_mild (s : State) (p : Nat) {code : Nat} (hclass : codeClass code = 0) (hsev : codeSev code < 2) :
    s.hstErr p code = s.raiseRec (portNote p code) := State.raise_of_mild (e := portNote p code) hclass hsev

theorem State.hstErr_absent (s : State) (p : Nat) : s.hstErr p 0x0901 = s.raiseRec (portNote p 0x0901) :=
  s.hstErr_mild p (by decide) (by decide)

theorem State.hstErr_stall (s : State) (p : Nat) : s.hstErr p 0x0902 = s.raiseRec (portNote p 0x0902) :=
  s.hstErr_mild p (by decide) (by decide)

theorem State.hstErr_read (s : State) (p : Nat) : s.hstErr p 0x0903 = s.raiseRec (portNote p 0x0903) :=
  s.hstErr_mild p (by decide) (by decide)

theorem State.hstErr_ide (s : State) (p : Nat) : s.hstErr p 0x0907 = s.raiseRec (portNote p 0x0907) :=
  s.hstErr_mild p (by decide) (by decide)

/-! ### Presence (R376) -/

section
variable (s : State) (p : Nat)

@[simp] theorem State.beside_portAbsent : (s.portAbsent p).beside p = s.beside p := by
  unfold State.portAbsent
  extract_lets own s1 s2
  have h1 : s1.beside p = s.beside p := by
    rw [State.beside_ite, State.beside_fwrap, ite_self]
  have h2 : s2.beside p = s.beside p := by
    rw [State.beside_ite, State.hstErr_absent, State.beside_raiseRec, h1, ite_self]
  rw [State.beside_showPort, State.beside_updHst, h2]

theorem State.hst_portAbsent : (s.portAbsent p).hst p = { s.hst p with absent := true, waiting := s.ownedBy p } := by
  unfold State.portAbsent
  extract_lets own s1 s2
  have h1 : s1.hst p = s.hst p := by
    rw [apply_ite (State.hst · p), State.hst_fwrap, ite_self]
  have h2 : s2.hst p = s.hst p := by
    rw [apply_ite (State.hst · p), State.hstErr_absent, State.hst_raiseRec, h1, ite_self]
  rw [State.hst_showPort, State.updHst_same, h2]

theorem State.copies_portAbsent : (s.portAbsent p).copies = s.copies := by
  have herr (u : State) : (u.hstErr p 0x0901).copies = u.copies := by
    rw [State.hstErr_absent, State.raiseRec_frame]
  unfold State.portAbsent
  extract_lets own s1 s2
  have h1 : s1.copies = s.copies := by
    rw [apply_ite State.copies, State.copies_fwrap, ite_self]
  have h2 : s2.copies = s.copies := by
    rw [apply_ite State.copies, herr, h1, ite_self]
  rw [State.copies_showPort, State.updHst_copies, h2]

@[simp] theorem State.beside_portBack : (s.portBack p).beside p = s.beside p := by
  unfold State.portBack
  dsimp only
  rw [State.beside_ite, State.beside_showPort, State.beside_updHst, ite_self]

/-- A port comes back when its link is up and it waits for no context. -/
theorem State.hst_portBack : (s.portBack p).hst p =
    if (s.hst p).up && !(s.hst p).perst && (s.hst p).waiting = [] then { s.hst p with absent := false } else s.hst p := by
  unfold State.portBack
  dsimp only
  rw [apply_ite (State.hst · p), State.hst_showPort, State.updHst_same]

/-- Of HST_PORT_STATE, showing a port leaves what stands below ABSENT. -/
theorem State.fget_showPort {lo w : Nat} (hg : Fld.Listed ⟨R.HST_PORT_STATE p, lo, w⟩) (h : lo + w ≤ 10) :
    (s.showPort p).fget ⟨R.HST_PORT_STATE p, lo, w⟩ = s.fget ⟨R.HST_PORT_STATE p, lo, w⟩ := by
  unfold State.showPort State.fsetB
  rw [State.fget_fset_apart _ _ hg (.inr ⟨Nat.one_pos, .inl (show lo + w ≤ 11 by omega)⟩),
    State.fget_fset_apart _ _ hg (.inr ⟨Nat.one_pos, .inl h⟩)]

theorem State.fget_portAbsent {lo w : Nat} (hg : Fld.Listed ⟨R.HST_PORT_STATE p, lo, w⟩) (h : lo + w ≤ 10) :
    (s.portAbsent p).fget ⟨R.HST_PORT_STATE p, lo, w⟩ = s.fget ⟨R.HST_PORT_STATE p, lo, w⟩ := by
  have hdowns (v : Nat) :
      (s.fset (F.HST_PORT_STATE_DOWNS p) v).fget ⟨R.HST_PORT_STATE p, lo, w⟩ = s.fget ⟨R.HST_PORT_STATE p, lo, w⟩ :=
    State.fget_fset_apart _ _ hg (.inr ⟨show 0 < 16 by decide, .inl (show lo + w ≤ 32 by omega)⟩)
  have herr (u : State) : (u.hstErr p 0x0901).fget ⟨R.HST_PORT_STATE p, lo, w⟩ = u.fget ⟨R.HST_PORT_STATE p, lo, w⟩ := by
    rw [State.hstErr_absent]
    exact State.fget_raiseRec (by exact (by decide : codeClass 0x0901 = 0)) _
  unfold State.portAbsent
  extract_lets own s1 s2
  have h1 : s1.fget ⟨R.HST_PORT_STATE p, lo, w⟩ = s.fget ⟨R.HST_PORT_STATE p, lo, w⟩ := by
    rw [apply_ite (State.fget · _), State.fwrap, hdowns, ite_self]
  rw [State.fget_showPort _ _ hg h, State.updHst_to_fget, apply_ite (State.fget · _), herr, h1, ite_self]

end

/-! ### Links (R355, R376, R467) -/

section
variable {s : State} {p : HostPort}

theorem State.fget_portBack (s : State) (p : Nat) {lo w : Nat} (hg : Fld.Listed ⟨R.HST_PORT_STATE p, lo, w⟩) (h : lo + w ≤ 10) :
    (s.portBack p).fget ⟨R.HST_PORT_STATE p, lo, w⟩ = s.fget ⟨R.HST_PORT_STATE p, lo, w⟩ := by
  unfold State.portBack
  dsimp only
  rw [apply_ite (State.fget · _), State.fget_showPort _ _ hg h, State.updHst_to_fget, ite_self]

theorem State.portBack_frame (s : State) (p : Nat) :
    s.portBack p = { s with host := (s.portBack p).host, regs := (s.portBack p).regs } := by
  by_cases hback : (s.hst p).up && !(s.hst p).perst && (s.hst p).waiting = []
  · rw [State.portBack, if_pos hback]
    rfl
  · rw [State.portBack, if_neg hback]

/-- A link that comes up, before the port is back. -/
def State.linked (s : State) (p width speed : Nat) (flit vfs : Bool) : State :=
  (((s.updHst p (fun h => { h with up := true, vfOn := vfs })).fset (F.HST_PORT_STATE_WIDTH p) width).fset
    (F.HST_PORT_STATE_SPEED p) speed).fsetB (F.HST_PORT_STATE_FLIT p) flit

theorem State.hst_linked (s : State) (p width speed : Nat) (flit vfs : Bool) :
    (s.linked p width speed flit vfs).hst p = { s.hst p with up := true, vfOn := vfs } := by
  rw [State.linked, State.fsetB, State.hst_fset, State.hst_fset, State.hst_fset, State.updHst_same]

theorem State.linked_shows (s : State) (p : HostPort) (width speed : Fin 4) (flit vfs : Bool) :
    (s.linked p width speed flit vfs).fget (F.HST_PORT_STATE_WIDTH p) = width.val ∧
    (s.linked p width speed flit vfs).fget (F.HST_PORT_STATE_SPEED p) = speed.val := by
  constructor
  · rw [State.linked, State.fsetB, State.fget_fset_apart _ _ (listed_portWidth p) (apart_width_flit p),
      State.fget_fset_apart _ _ (listed_portWidth p) (apart_width_speed p),
      State.fget_fset_same _ _ (listed_portWidth p)]
    exact Nat.mod_eq_of_lt (width.isLt.trans (show 4 < 2 ^ 3 by decide))
  · rw [State.linked, State.fsetB, State.fget_fset_apart _ _ (listed_portSpeed p) (apart_speed_flit p),
      State.fget_fset_same _ _ (listed_portSpeed p)]
    exact Nat.mod_eq_of_lt speed.isLt

theorem State.linked_frame (s : State) (p width speed : Nat) (flit vfs : Bool) : s.linked p width speed flit vfs =
    { s with host := (s.linked p width speed flit vfs).host, regs := (s.linked p width speed flit vfs).regs } := rfl

theorem hostLinkUp_comes (width speed : Fin 4) (flit vfs : Bool) (hperst : (s.hst p).perst = false) (hpower : s.powered = true) :
    Runs (.hostLinkUp p width speed flit vfs) s (fun t => (t.hst p).up = true ∧ (t.hst p).vfOn = vfs ∧
      t.fget (F.HST_PORT_STATE_WIDTH p) = width.val ∧ t.fget (F.HST_PORT_STATE_SPEED p) = speed.val ∧
      ((t.hst p).absent = false ↔ (s.hst p).absent = false ∨ (s.hst p).waiting = []) ∧ (∀ q, q ≠ p.val → t.hst q = s.hst q) ∧
      t = { s with host := t.host, regs := t.regs }) := by
  have hexec : exec (.hostLinkUp p width speed flit vfs) s = .next ((s.linked p width speed flit vfs).portBack p) :=
    congrArg Host.Outcome.next (if_neg (by simp [hperst, hpower]))
  have hhst := s.hst_linked p width speed flit vfs
  have hbeside : (s.linked p width speed flit vfs).beside p = s.beside p := by
    rw [State.linked, State.fsetB, State.beside_fset, State.beside_fset, State.beside_fset, State.beside_updHst]
  have hframe := s.linked_frame p width speed flit vfs
  obtain ⟨hwidth, hspeed⟩ := s.linked_shows p width speed flit vfs
  generalize s.linked p width speed flit vfs = u at hexec hhst hbeside hframe hwidth hspeed
  have hback := u.hst_portBack p
  rw [hhst] at hback
  refine ⟨_, hexec, ?_, ?_, ?_, ?_, ?_, State.hst_of_beside ((u.beside_portBack p).trans hbeside), ?_⟩
  · rw [hback]
    split
    · rfl
    · rfl
  · rw [hback]
    split
    · rfl
    · rfl
  · exact (u.fget_portBack p (listed_portWidth p) (by decide)).trans hwidth
  · exact (u.fget_portBack p (listed_portSpeed p) (by decide)).trans hspeed
  · rw [hback]
    by_cases hwait : (s.hst p).waiting = []
    · simp [hperst, hwait]
    · simp [hperst, hwait]
  · rw [u.portBack_frame, hframe]

theorem State.ownedBy_fset (s : State) {p : Nat} {f : Fld} (v : Nat) (hf : f.addr = R.HST_PORT_STATE p) :
    (s.fset f v).ownedBy p = s.ownedBy p := by
  refine List.filter_congr fun j _ => ?_
  have hne : R.HST_CTX p j ≠ f.addr := by
    rw [hf]
    simp only [R.HST_CTX, R.HST_PORT_STATE]
    omega
  rw [State.fbit, State.fbit, State.fget_fset_other _ _ hne]

/-- A link that goes, up to the copies of its port. -/
def State.linkLost (s : State) (p : Nat) : State :=
  ((((s.updHst p (fun h => { h.ringReset with up := false })).fset (F.HST_PORT_STATE_WIDTH p) 0).fset
    (F.HST_PORT_STATE_SPEED p) 0).fset (F.HST_PORT_STATE_FLIT p) 0).portAbsent p

theorem State.linkGone_eq (s : State) (p : Nat) : s.linkGone p = (s.linkLost p).failCopies p := rfl

theorem State.hst_linkLost (s : State) (p : Nat) : (s.linkLost p).hst p =
    { (s.hst p).ringReset with up := false, absent := true, waiting := s.ownedBy p } := by
  have howned (f : HostSt → HostSt) : (s.updHst p f).ownedBy p = s.ownedBy p := rfl
  rw [State.linkLost, State.hst_portAbsent, State.ownedBy_fset _ _ rfl, State.ownedBy_fset _ _ rfl, State.ownedBy_fset _ _ rfl, howned,
    State.hst_fset, State.hst_fset, State.hst_fset, State.updHst_same]

theorem State.beside_linkLost (s : State) (p : Nat) : (s.linkLost p).beside p = s.beside p := by
  rw [State.linkLost, State.beside_portAbsent, State.beside_fset, State.beside_fset, State.beside_fset, State.beside_updHst]

theorem State.copies_linkLost (s : State) (p : Nat) : (s.linkLost p).copies = s.copies := by
  rw [State.linkLost, State.copies_portAbsent, State.copies_fset, State.copies_fset, State.copies_fset, State.updHst_copies]

theorem State.width_linkLost (s : State) (p : HostPort) : (s.linkLost p).fget (F.HST_PORT_STATE_WIDTH p) = 0 := by
  rw [State.linkLost]
  refine (State.fget_portAbsent _ _ (listed_portWidth p) (by decide)).trans ?_
  refine (State.fget_fset_apart _ _ (listed_portWidth p) (apart_width_flit p)).trans ?_
  refine (State.fget_fset_apart _ _ (listed_portWidth p) (apart_width_speed p)).trans ?_
  exact State.fget_fset_same _ _ (listed_portWidth p)

/-- A port without copies under way. -/
theorem State.failCopies_none (s : State) {p : Nat} (h : s.copies.all (fun c => c.port ≠ p) = true) : s.failCopies p = s := by
  have hnone : s.copies.filter (fun c => c.port = p) = [] :=
    List.filter_eq_nil_iff.2 fun c hc => by simpa using List.all_eq_true.1 h c hc
  rw [State.failCopies, hnone]
  rfl

theorem hostLinkDown_goes (hup : (s.hst p).up = true) (hcopies : s.copies.all (fun c => c.port ≠ p.val) = true) :
    Runs (.hostLinkDown p) s (fun t => (t.hst p).up = false ∧ (t.hst p).absent = true ∧ (t.hst p).waiting = s.ownedBy p ∧
      (t.hst p).fresh = true ∧ t.fget (F.HST_PORT_STATE_WIDTH p) = 0 ∧ t.jobs = s.jobs ∧
      ∀ q, q ≠ p.val → t.hst q = s.hst q) := by
  have hexec : exec (.hostLinkDown p) s = .next (s.linkGone p) := congrArg Host.Outcome.next (if_pos hup)
  rw [State.linkGone_eq, State.failCopies_none _ (by rwa [State.copies_linkLost])] at hexec
  have hhst := s.hst_linkLost p
  have hbeside := s.beside_linkLost p
  have hwidth := s.width_linkLost p
  generalize s.linkLost p = u at hexec hhst hbeside hwidth
  exact ⟨_, hexec, by rw [hhst], by rw [hhst], by rw [hhst], by rw [hhst]; rfl, hwidth, State.jobs_of_beside hbeside,
    State.hst_of_beside hbeside⟩

/-! ### PERST (R376, R461) -/

/-- The same but for the answers that wait for the port. -/
def Held (p : Nat) (s t : State) : Prop := t.beside p = s.beside p ∧ ∃ held, t.hst p = { s.hst p with held := held }

theorem State.held_devRec (s : State) {p : Nat} (hdown : (s.hst p).up = false) (d : DevRec) : Held p s (s.devRec p d) := by
  unfold State.devRec
  split
  · have hhst : ((s.updHst p (fun h => { h with held := h.held ++ [d] })).hst p) = { s.hst p with held := (s.hst p).held ++ [d] } :=
      s.updHst_same ..
    have hbeside := s.beside_updHst (p := p) (fun h => { h with held := h.held ++ [d] })
    generalize s.updHst p (fun h => { h with held := h.held ++ [d] }) = u at hhst hbeside
    have hsilent : u.canSend p = false := by
      rw [State.canSend, hhst]
      simp [hdown]
    have hkept : u.flushDev p = u := if_neg (by simp [hsilent])
    rw [hkept]
    exact ⟨hbeside, _, hhst⟩
  · exact ⟨rfl, _, rfl⟩

theorem Held.trans {p : Nat} {s t u : State} (h : Held p s t) (k : Held p t u) : Held p s u := by
  obtain ⟨hbeside, held, hhst⟩ := h
  obtain ⟨kbeside, held', khst⟩ := k
  exact ⟨kbeside.trans hbeside, held', by rw [khst, hhst]⟩

theorem Held.up {p : Nat} {s t : State} (h : Held p s t) : (t.hst p).up = (s.hst p).up := by
  obtain ⟨-, held, hhst⟩ := h
  rw [hhst]

theorem State.held_readFailed (s : State) (p : Nat) : Held p s (s.readFailed p) := by
  rw [State.readFailed, State.hstErr_read]
  exact ⟨by rw [State.beside_raiseRec, State.beside_fsat], _, by rw [State.hst_raiseRec, State.hst_fsat]⟩

theorem State.held_uncopied (s : State) (p : Nat) (copies : List CopyCmd) : Held p s { s with copies := copies } := ⟨rfl, _, rfl⟩

/-- The copies of a port that is down end with answers that wait. -/
theorem State.held_failCopies (s : State) {p : Nat} (hdown : (s.hst p).up = false) : Held p s (s.failCopies p) := by
  refine foldl_keeps (P := fun t : State => Held p s t) _ ⟨rfl, _, rfl⟩ fun t c hc ht => ?_
  have hport : c.port = p := by simpa using (List.mem_filter.1 hc).2
  have hread := ht.trans (t.held_readFailed p)
  generalize t.readFailed p = u at hread
  have hfreed := hread.trans (u.held_uncopied p (u.copies.erase c))
  have hend := State.held_devRec _ (hfreed.up.trans hdown) ⟨c.tag, c.seq, if c.in_ then 0x24 else 0x25, 11, c.job, 0, 0⟩
  rw [State.endCopy, hport]
  exact hfreed.trans hend

/-- The port's records after PERST. -/
def HostSt.perstReset (h : HostSt) : HostSt :=
  { h.ringReset with fired := [], due := [], masked := [], pend := [], vfOn := false, ideSecure := false, ideKeys := [] }

/-- The addresses of the device ring read zero. -/
def State.ringUnset (s : State) (p : Nat) : State :=
  (((s.setReg (R.HST_DEVRING_BASE p) 0).setReg (R.HST_DEVRING_HDR p) 0).setReg (R.HST_DEVCPL_BASE p) 0).commitRef .hst p

/-- The attestation sessions of a port end. -/
def State.spdmEnded (s : State) (p : Nat) : State := { s with sec := { s.sec with spdm := s.sec.spdm.filter (fun x => x.1 ≠ p) } }

theorem State.perstReset_eq (s : State) (p : Nat) :
    s.perstReset p = (((s.updHst p HostSt.perstReset).ringUnset p).fset (F.TCK_MBX_CTL_LEVEL p) 0).spdmEnded p := rfl

theorem State.beside_spdmEnded (s : State) (p : Nat) : (s.spdmEnded p).beside p = s.beside p := (rfl)
theorem State.hst_spdmEnded (s : State) (p n : Nat) : (s.spdmEnded p).hst n = s.hst n := (rfl)
theorem State.reg_spdmEnded (s : State) (p a : Nat) : (s.spdmEnded p).reg a = s.reg a := (rfl)

theorem State.beside_perstReset (s : State) (p : Nat) : (s.perstReset p).beside p = s.beside p := by
  rw [State.perstReset_eq, State.beside_spdmEnded, State.beside_fset, State.ringUnset, State.beside_commitRef, State.beside_setReg,
    State.beside_setReg, State.beside_setReg, State.beside_updHst]

theorem State.hst_perstReset (s : State) (p : Nat) : (s.perstReset p).hst p = (s.hst p).perstReset := by
  rw [State.perstReset_eq, State.hst_spdmEnded, State.hst_fset, State.ringUnset, State.hst_commitRef, State.setReg_to_hst,
    State.setReg_to_hst, State.setReg_to_hst, State.updHst_same]

theorem State.devBase_perstReset (s : State) (p : Nat) : (s.perstReset p).reg (R.HST_DEVRING_BASE p) = 0 := by
  have hlevel : R.HST_DEVRING_BASE p ≠ R.TCK_MBX_CTL p := by
    simp only [R.HST_DEVRING_BASE, R.TCK_MBX_CTL]
    omega
  have hhdr : R.HST_DEVRING_BASE p ≠ R.HST_DEVRING_HDR p := by
    simp only [R.HST_DEVRING_BASE, R.HST_DEVRING_HDR]
    omega
  have hcpl : R.HST_DEVRING_BASE p ≠ R.HST_DEVCPL_BASE p := by
    simp only [R.HST_DEVRING_BASE, R.HST_DEVCPL_BASE]
    omega
  rw [State.perstReset_eq, State.reg_spdmEnded, State.reg_fset_other _ _ hlevel, State.ringUnset, State.reg_commitRef,
    State.reg_setReg_other _ _ hcpl, State.reg_setReg_other _ _ hhdr, State.reg_setReg_same]
  simp

theorem perstAssert_resets : Runs (.perstAssert p) s (fun t => (t.hst p).perst = true ∧ (t.hst p).up = false ∧
    (t.hst p).ideSecure = false ∧ (t.hst p).masked = [] ∧ (t.hst p).fresh = true ∧ t.reg (R.HST_DEVRING_BASE p) = 0 ∧
    t.jobs = s.jobs ∧ t.rings = s.rings ∧ t.stalls = s.stalls) := by
  have hexec : exec (.perstAssert p) s =
    .next (((((s.updHst p (fun h => { h with perst := true })).linkLost p).failCopies p).perstReset p).showPort p) := rfl
  have hset : (s.updHst p (fun h => { h with perst := true })).hst p = { s.hst p with perst := true } := s.updHst_same ..
  have hbeside := s.beside_updHst (p := p) (fun h => { h with perst := true })
  generalize s.updHst p (fun h => { h with perst := true }) = u at hexec hset hbeside
  have hlost := u.hst_linkLost p
  replace hbeside := (u.beside_linkLost p).trans hbeside
  generalize u.linkLost p = v at hexec hlost hbeside
  obtain ⟨hkept, held, hhst⟩ := v.held_failCopies (p := p) (by rw [hlost])
  replace hbeside := hkept.trans hbeside
  generalize v.failCopies p = x at hexec hhst hbeside
  have hreset := x.hst_perstReset p
  rw [hhst, hlost, hset] at hreset
  replace hbeside := (x.beside_perstReset p).trans hbeside
  have hbase := x.devBase_perstReset p
  generalize x.perstReset p = y at hexec hreset hbeside hbase
  have hshown : (y.showPort p).hst p = y.hst p := y.hst_showPort ..
  rw [hreset] at hshown
  replace hbeside := (y.beside_showPort p).trans hbeside
  have hstate : R.HST_DEVRING_BASE p ≠ R.HST_PORT_STATE p := by
    simp only [R.HST_DEVRING_BASE, R.HST_PORT_STATE]
    omega
  refine ⟨_, hexec, ?_, ?_, ?_, ?_, ?_, ?_, State.jobs_of_beside hbeside, State.rings_of_beside hbeside, State.stalls_of_beside hbeside⟩
  · rw [hshown]
    rfl
  · rw [hshown]
    rfl
  · rw [hshown]
    rfl
  · rw [hshown]
    rfl
  · rw [hshown]
    rfl
  · rw [State.showPort, State.fsetB, State.fsetB, State.reg_fset_other _ _ hstate, State.reg_fset_other _ _ hstate, hbase]

theorem perstDeassert_trains : Runs (.perstDeassert p) s (fun t => t.hst p = { s.hst p with perst := false } ∧
    (∀ q, q ≠ p.val → t.hst q = s.hst q) ∧ t = { s with host := t.host }) :=
  ⟨_, rfl, s.updHst_same .., fun _ hq => s.updHst_other _ hq, rfl⟩

/-! ### IDE (R361) -/

theorem ideFault_hides (hsecure : (s.hst p).ideSecure = true) : Runs (.ideFault p) s (fun t => (t.hst p).ideSecure = false ∧
    (t.hst p).absent = true ∧ ∀ q, q ≠ p.val → t.hst q = s.hst q) := by
  have hexec : exec (.ideFault p) s = .next (((((s.updHst p (fun h => { h with ideSecure := false })).fsat
      (F.HST_ERRCNT_IDE_FAULT p) 1).hstErr p 0x0907).portAbsent p)) := congrArg Host.Outcome.next (if_neg (by simp [hsecure]))
  rw [State.hstErr_ide] at hexec
  have hset : (((s.updHst p (fun h => { h with ideSecure := false })).fsat (F.HST_ERRCNT_IDE_FAULT p) 1).raiseRec
      (portNote p 0x0907)).hst p = { s.hst p with ideSecure := false } := by
    rw [State.hst_raiseRec, State.hst_fsat, State.updHst_same]
  have hbeside : (((s.updHst p (fun h => { h with ideSecure := false })).fsat (F.HST_ERRCNT_IDE_FAULT p) 1).raiseRec
      (portNote p 0x0907)).beside p = s.beside p := by
    rw [State.beside_raiseRec, State.beside_fsat, State.beside_updHst]
  generalize ((s.updHst p (fun h => { h with ideSecure := false })).fsat (F.HST_ERRCNT_IDE_FAULT p) 1).raiseRec (portNote p 0x0907) = u
    at hexec hset hbeside
  have hhst := u.hst_portAbsent p
  rw [hset] at hhst
  exact ⟨_, hexec, by rw [hhst], by rw [hhst], State.hst_of_beside ((u.beside_portAbsent p).trans hbeside)⟩

/-- A stream's key is there. -/
def HostSt.secured (stream : Nat) (h : HostSt) : HostSt :=
  { h with ideSecure := true, ideKeys := if h.ideKeys.contains stream then h.ideKeys else h.ideKeys ++ [stream] }

theorem HostSt.mem_secured (h : HostSt) (stream : Nat) : stream ∈ (h.secured stream).ideKeys := by
  change stream ∈ if h.ideKeys.contains stream then h.ideKeys else h.ideKeys ++ [stream]
  split
  next hmem => exact List.contains_iff_mem.1 hmem
  · exact List.mem_append_right _ List.mem_cons_self

theorem ideKm_secures (stream : Fin 5) (hread : s.canRead p = true) (hsession : s.inSession p = true) : Runs (.ideKm p stream) s (fun t =>
    (t.hst p).ideSecure = true ∧ stream.val ∈ (t.hst p).ideKeys ∧ t.fbit (F.HST_PORT_STATE_IDE_SECURE p) = true ∧
    ∀ q, q ≠ p.val → t.hst q = s.hst q) := by
  have hexec : exec (.ideKm p stream) s = .next (((s.updHst p (HostSt.secured stream)).portBack p).showPort p) :=
    congrArg Host.Outcome.next (if_neg (by simp [hread, hsession]))
  have hset : (s.updHst p (HostSt.secured stream)).hst p = (s.hst p).secured stream := s.updHst_same ..
  have hbeside := s.beside_updHst (p := p) (HostSt.secured stream)
  generalize s.updHst p (HostSt.secured stream) = u at hexec hset hbeside
  have hback : ((u.portBack p).hst p).ideSecure = true ∧ stream.val ∈ ((u.portBack p).hst p).ideKeys := by
    rw [u.hst_portBack, hset]
    split
    · exact ⟨rfl, (s.hst p).mem_secured stream⟩
    · exact ⟨rfl, (s.hst p).mem_secured stream⟩
  replace hbeside := (u.beside_portBack p).trans hbeside
  generalize u.portBack p = v at hexec hback hbeside
  obtain ⟨hsecure, hkey⟩ := hback
  refine ⟨_, hexec, hsecure, hkey, ?_, State.hst_of_beside ((v.beside_showPort p).trans hbeside)⟩
  have hshown : (v.showPort p).fget (F.HST_PORT_STATE_IDE_SECURE p) = b2n (v.hst p).ideSecure % 2 ^ 1 :=
    State.fget_fset_same _ _ (listed_portSecure p)
  rw [State.fbit, hshown, hsecure]
  rfl

/-! ### Rings and copies (R364, R366, R372, R373) -/

theorem deviceRingPoll_serves (host : List HostPiece) (hpolls : s.pollsDevice p = true) (hold : (s.hst p).fresh = false)
    {v : Nat} {u : State} (hindex : s.hindex p host (s.reg (R.HST_DEVRING_HDR p) + 192) = (some v, u)) :
    let w := (u.updHst p (fun h => { h with devDone := nearIdx h.devDone v })).flushDev p
    exec (.deviceRingPoll p host) s = .next ((w.latchDev p host).1.foldl
      (fun s b => s.devCommand host ⟨p, field b 0 4, b⟩) (w.latchDev p host).2) := by
  have hstart : s.startRing p host = (true, s) := if_neg (by simp [hold])
  rw [exec, execDeviceRingPoll, hpolls, hstart]
  dsimp only
  rw [hindex]
  rfl

theorem ringStallTimeout_raises {i at_ : Nat} (hstall : (s.hst p).stall = some (i, at_)) (hsaid : (s.hst p).stallSaid = false)
    (hlate : at_ + 1000000 ≤ s.refNs) : Runs (.ringStallTimeout p none) s (fun t => (t.hst p).stallSaid = true ∧
      (∃ e, t.err.flight = s.err.flight ++ [e] ∧ e.code = 0x0902)) := by
  have hexec : exec (.ringStallTimeout p none) s = .next (((s.updHst p (fun h => { h with stallSaid := true })).fsat
      (F.HST_ERRCNT_RING_STALL p) 1).hstErr p 0x0902) := by
    rw [exec, execRingStallTimeout]
    dsimp only
    rw [hstall]
    dsimp only
    rw [if_neg (by simp [hsaid, hlate])]
  rw [State.hstErr_stall] at hexec
  have hset : ((s.updHst p (fun h => { h with stallSaid := true })).fsat (F.HST_ERRCNT_RING_STALL p) 1).hst p =
      { s.hst p with stallSaid := true } := by
    rw [State.hst_fsat, State.updHst_same]
  have herr : ((s.updHst p (fun h => { h with stallSaid := true })).fsat (F.HST_ERRCNT_RING_STALL p) 1).err = s.err :=
    (State.err_fset ..).trans (s.updHst_err ..)
  generalize (s.updHst p (fun h => { h with stallSaid := true })).fsat (F.HST_ERRCNT_RING_STALL p) 1 = u at hexec hset herr
  exact ⟨_, hexec, by rw [State.hst_raiseRec, hset], _, by rw [State.flight_raiseRec, herr], rfl⟩

/-- The bytes of a COPY_IN are stored. -/
def State.copyStored (s : State) (c : CopyCmd) (bs : List Byte) : State :=
  (cutLines (c.len / 64) c.addr bs).foldl (fun s x => s.hostStore c.job x.1 c.epoch x.2) s

/-- The counter that a COPY_IN names takes its increment. -/
def State.copySignalled (s : State) (c : CopyCmd) : State :=
  match s.copyKey c.job c.addr c.sel with
  | some (some key) => s.signal key c.inc
  | _ => s

/-- The host has been written by a COPY_OUT. -/
def State.copySent (s : State) (c : CopyCmd) : State :=
  (s.offBanks c.job c.addr c.len).hostWrite c.port c.host (s.hubGet c.addr c.len)

/-- A COPY_OUT is over. -/
def State.copyAnswered (v s : State) (c : CopyCmd) : State :=
  { v with copies := v.copies.erase c }.devRec c.port ⟨c.tag, c.seq, 0x25, 0, c.job, 0, s.poisonedLines c.addr c.len⟩

section
variable {n : Fin 65536} (host : List HostPiece) {c : CopyCmd} (hcopy : s.copies[n.val]? = some c) (hgoes : s.copyWaits n c = false)
include hcopy hgoes

section
variable (hin : c.in_ = true)
include hin

theorem copyComplete_weight (hweight : s.touchesWeight c.addr c.len = true) :
    exec (.copyComplete n host) s = .next (s.endCopy 10 c) := by
  rw [exec, execCopyComplete, hcopy]
  dsimp only
  rw [hgoes, if_neg Bool.false_ne_true, if_pos (by simp [hin, hweight])]

variable (hplain : s.touchesWeight c.addr c.len = false)
include hplain

theorem copyComplete_fails {u : State} (hread : s.hread c.port host c.host c.len = (none, u)) :
    exec (.copyComplete n host) s = .next (u.endCopy 11 c) := by
  rw [exec, execCopyComplete, hcopy]
  dsimp only
  rw [hgoes, if_neg Bool.false_ne_true, if_neg (by simp [hplain]), if_pos hin, hread]

theorem copyComplete_writes {u : State} {bs : List Byte} (hread : s.hread c.port host c.host c.len = (some bs, u)) :
    exec (.copyComplete n host) s = .next (((u.copyStored c bs).copySignalled c).endCopy 0 c) := by
  rw [exec, execCopyComplete, hcopy]
  dsimp only
  rw [hgoes, if_neg Bool.false_ne_true, if_neg (by simp [hplain]), if_pos hin, hread]
  rfl

end

theorem copyComplete_reads (hout : c.in_ = false) : exec (.copyComplete n host) s = .next ((s.copySent c).copyAnswered s c) := by
  rw [exec, execCopyComplete, hcopy]
  dsimp only
  rw [hgoes, if_neg Bool.false_ne_true, if_neg (by simp [hout]), if_neg (by simp [hout])]
  rfl

end

/-! ### BAR2 (R378) -/

section
variable {addr : Fin 68719476736} {ide : Bool} (hread : s.canRead p = true)
  (hide : s.fbit (F.HST_PORT_CFG_IDE_REQUIRED p) = true → ide = true)
include hread hide

theorem bar2Access_reads {len : Fin 4097} (hok : s.barOk p addr len false = true) : exec (.bar2Access p addr none len ide) s =
    .next ((s.barOff addr len).send (.answer p (if (s.barRead addr len).2 then 2 else 0) (s.barRead addr len).1)) := by
  rw [exec, execBar2Access]
  dsimp only
  rw [if_neg (by simp [hread]), if_neg (by simpa using hide), if_neg (by simp [hok])]

theorem bar2Access_writes {bs : List Byte} (len : Fin 4097) (hok : s.barOk p addr bs.length true = true) :
    exec (.bar2Access p addr (some bs) len ide) s = .next (s.barWrite addr bs) := by
  rw [exec, execBar2Access]
  dsimp only
  rw [if_neg (by simp [hread]), if_neg (by simpa using hide), if_neg (by simp [hok])]

theorem bar2Access_refuses {len : Fin 4097} (hbad : s.barOk p addr len false = false) : exec (.bar2Access p addr none len ide) s =
    .next (((s.fsat (F.HST_ERRCNT_BAR_DENIED p) 1).hstErr p 0x0904).send (.answer p 1 0)) := by
  rw [exec, execBar2Access]
  dsimp only
  rw [if_neg (by simp [hread]), if_neg (by simpa using hide), if_pos (by simp [hbad])]
  rfl

end

/-! ### Vectors (R360) -/

section
variable (fn : Fin 9) (vec : Fin 16)

/-- The vectors that are masked. -/
def HostSt.masking (masked : List Nat) (h : HostSt) : HostSt := { h with masked := masked }

/-- A vector is pending no more. -/
def HostSt.unpended (k : Nat) (h : HostSt) : HostSt := { h with pend := h.pend.filter (· ≠ k) }

/-- A vector that is not masked and has not fired lately fires. -/
theorem State.fireVec_fires {s : State} {p fn vec : Nat} (hclear : ¬ 16 * fn + vec ∈ (s.hst p).masked)
    (hfresh : Tab.get zeroNat (s.hst p).fired (16 * fn + vec) = 0) :
      ∃ (fired : HostSt → Tab Nat) (due : HostSt → List Nat), s.fireVec p fn vec =
        (s.send (.msix p fn vec)).updHst p (fun h => { h with fired := fired h, due := due h }) := by
  refine ⟨fun h => Tab.set zeroNat h.fired (16 * fn + vec) (s.refNs + 1), fun h => h.due.filter (· ≠ 16 * fn + vec), ?_⟩
  rw [State.fireVec]
  dsimp only
  rw [if_neg (by simpa using hclear), if_pos (.inl hfresh)]

theorem msiXFire_fires (hpend : (s.hst p).pend.contains (16 * fn.val + vec.val) = true)
    (hfresh : Tab.get zeroNat (s.hst p).fired (16 * fn.val + vec.val) = 0) : Runs (.msiXFire p fn vec false) s (fun t =>
      t.out = s.out ++ [.msix p fn vec] ∧ ¬ 16 * fn.val + vec.val ∈ (t.hst p).pend ∧
      ¬ 16 * fn.val + vec.val ∈ (t.hst p).masked ∧
      ∀ q, q ≠ p.val → t.hst q = s.hst q) := by
  generalize hk : 16 * fn.val + vec.val = k at hpend hfresh
  let rest := (s.hst p).masked.filter (· ≠ k)
  have hwritten : (s.updHst p (HostSt.masking rest)).hst p = (s.hst p).masking rest := s.updHst_same ..
  have hexec : exec (.msiXFire p fn vec false) s =
      .next (((s.updHst p (HostSt.masking rest)).updHst p (HostSt.unpended k)).fireVec p fn vec) := by
    rw [exec, execMsiXFire, hk]
    refine congrArg Host.Outcome.next (if_pos ?_)
    change (!false && ((s.updHst p (HostSt.masking rest)).hst p).pend.contains k) = true
    rw [hwritten]
    exact hpend
  have hset : ((s.updHst p (HostSt.masking rest)).updHst p (HostSt.unpended k)).hst p =
      ((s.hst p).masking rest).unpended k := by
    rw [State.updHst_same, hwritten]
  have hbeside : ((s.updHst p (HostSt.masking rest)).updHst p (HostSt.unpended k)).beside p = s.beside p := by
    rw [State.beside_updHst, State.beside_updHst]
  have hout : ((s.updHst p (HostSt.masking rest)).updHst p (HostSt.unpended k)).out = s.out := rfl
  generalize (s.updHst p (HostSt.masking rest)).updHst p (HostSt.unpended k) = u at hexec hset hbeside hout
  have hmasked : ¬ k ∈ (u.hst p).masked := by
    rw [hset]
    simp [HostSt.masking, HostSt.unpended, rest]
  have hpended : ¬ k ∈ (u.hst p).pend := by
    rw [hset]
    simp [HostSt.unpended]
  obtain ⟨fired, due, hfire⟩ := u.fireVec_fires (p := p) (fn := fn) (vec := vec) (hk ▸ hmasked) (by rw [hk, hset]; exact hfresh)
  rw [hfire] at hexec
  refine ⟨_, hexec, congrArg (· ++ [Out.msix p fn vec]) hout, ?_, ?_, State.hst_of_beside ?_⟩
  · rw [State.updHst_same]
    exact hpended
  · rw [State.updHst_same]
    exact hmasked
  · rw [State.beside_updHst, State.beside_send, hbeside]

theorem msiXFire_masks (hdue : (s.hst p).due.contains (16 * fn.val + vec.val) = false) : Runs (.msiXFire p fn vec true) s (fun t =>
    16 * fn.val + vec.val ∈ (t.hst p).masked ∧ t.out = s.out ∧ (t.hst p).pend = (s.hst p).pend ∧
    ∀ q, q ≠ p.val → t.hst q = s.hst q) := by
  generalize hk : 16 * fn.val + vec.val = k at hdue
  let masked := (s.hst p).masked.filter (· ≠ k) ++ [k]
  have hwritten : (s.updHst p (HostSt.masking masked)).hst p = (s.hst p).masking masked := s.updHst_same ..
  have hexec : exec (.msiXFire p fn vec true) s = .next (s.updHst p (HostSt.masking masked)) := by
    rw [exec, execMsiXFire, hk]
    refine congrArg Host.Outcome.next ((if_neg (by simp)).trans (if_neg ?_))
    change ¬ ((s.updHst p (HostSt.masking masked)).hst p).due.contains k = true
    rw [hwritten]
    exact ne_true_of_eq_false hdue
  refine ⟨_, hexec, ?_, rfl, ?_, State.hst_of_beside (s.beside_updHst _)⟩
  · rw [hwritten]
    exact List.mem_append_right _ List.mem_cons_self
  · rw [hwritten]
    rfl

end

end

/-- Settles O45: one theorem for each row and outcome. -/
theorem hostPortsComplete : Obligations.HostPortsComplete := by
  unfold Obligations.HostPortsComplete
  intro p s
  exact ⟨hostLinkUp_comes,
    fun width speed flit vfs hperst => congrArg Host.Outcome.next (if_pos (by simp [show (s.hst p).perst = true from hperst])),
    fun hup => congrArg Host.Outcome.next (if_pos hup), hostLinkDown_goes, perstAssert_resets, perstDeassert_trains, ideFault_hides,
    fun hopen => congrArg Host.Outcome.next (if_pos (by simp [show (s.hst p).ideSecure = false from hopen])), ideKm_secures,
    fun host hquiet => congrArg Host.Outcome.next (if_pos (by simp [hquiet])),
    fun host hpolls hold v u hindex => deviceRingPoll_serves host hpolls hold hindex,
    fun i at_ hstall hsaid hlate => ringStallTimeout_raises hstall hsaid hlate,
    fun n host c hcopy hgoes => ⟨copyComplete_weight host hcopy hgoes,
      fun hin hplain bs u hread => ⟨(u.copyStored c bs).copySignalled c, rfl, copyComplete_writes host hcopy hgoes hin hplain hread⟩,
      fun hin hplain u hread => copyComplete_fails host hcopy hgoes hin hplain hread,
      fun hout => ⟨s.copySent c, rfl, copyComplete_reads host hcopy hgoes hout⟩⟩,
    fun addr len ide hread hide =>
      ⟨bar2Access_reads hread hide, fun bs => bar2Access_writes hread hide len, bar2Access_refuses hread hide⟩,
    fun fn vec => ⟨msiXFire_fires fn vec, msiXFire_masks fn vec⟩⟩

end Sys2Proof.Machine
